-- ==== Sys2Proof/Word.lean ====
section
/-! DEFINITION. The plain data the whole model speaks in: words, capabilities as bits and tag, packets, and the
records that device commands carry. -/

namespace Sys2Proof

/-- One byte of memory. -/
abbrev Byte := BitVec 8
/-- A 64-bit scalar (R116). -/
abbrev Word := BitVec 64
/-- One 32-bit lane of a vector register (R136). -/
abbrev Lane := BitVec 32
/-- A vector register, 1,024 bits (R136). -/
abbrev VReg := BitVec 1024
/-- An 80-bit virtual address (R9). -/
abbrev Addr := BitVec 80

/-- A c register: 128 bits and a tag (R109). -/
structure Cap where
  bits : BitVec 128
  tag  : Bool
deriving DecidableEq, Repr, Inhabited

/-- The null capability (R110). -/
def Cap.null : Cap := ⟨0, false⟩

/-- A further operation that an unsolicited packet carries behind its first one (R298): its own tag and its body. -/
structure PackedOp where
  otag    : Nat
  handler : Nat := 0
  arg0    : Word := 0
  arg1    : Word := 0
  arg2    : Word := 0
  arg3    : Word := 0
  data    : List Byte := []
  pcc     : Cap := Cap.null
  launch  : Nat := 0
  pin     : Nat := 0
deriving DecidableEq, Repr, Inhabited

/-- A fabric packet: header (R294) and body (R295), the body's fields apart. `status` and `data` are a REPLY's,
`handler` and the arguments an AM's; a DEMAND, GRANT or EACK carries its number in `arg0`. -/
structure Packet where
  kind    : Nat := 1
  deid    : Nat := 0
  seid    : Nat := 0
  pseq    : Nat := 0
  asid    : Nat := 0
  otag    : Nat := 0
  handler : Nat := 0
  arg0    : Word := 0
  arg1    : Word := 0
  arg2    : Word := 0
  arg3    : Word := 0
  status  : Nat := 0
  data    : List Byte := []
  /-- The PCC a message task takes inside one package (R334). -/
  pcc     : Cap := Cap.null
  /-- The launch the sender's task belongs to, inside one package (R334); 0 when none. -/
  launch  : Nat := 0
  /-- Pin of a message task (R334, R421): 0 its cluster, 1 its core, 2 none. -/
  pin     : Nat := 0
  /-- Operations packed behind the first (R298). -/
  rest    : List PackedOp := []
  /-- Link by which a command for a control port came (R415). -/
  via     : Option Nat := none
deriving DecidableEq, Repr, Inhabited

/-- A link flit (R293): its 56 bytes of payload, sequence number, type, acknowledgement and CRC. -/
structure Flit where
  pay  : List Byte
  fseq : Nat
  typ  : Nat
  fack : Nat
  crc  : Nat
deriving DecidableEq, Repr, Inhabited

/-- A ring in memory that the host gives (R393, R404, R406): its virtual base and its capacity in records. -/
structure Ring where
  base : Nat := 0
  nrec : Nat := 0
deriving DecidableEq, Repr, Inhabited

/-- What JOBSTART carries (R408, R387). `gang` lists local EIDs (die and unit) of this package. -/
structure JobSpec where
  asid     : Nat
  root     : Nat
  gang     : List Nat
  /-- Full EIDs of the gang's cores in other packages (R402, R408). -/
  away     : List Nat := []
  slice    : Nat := 0
  code     : Cap := Cap.null
  save     : Cap := Cap.null
  saveSpill : Nat := 0
  /-- Capacity in descriptors of the Hutch spill region given for each cluster (R324). -/
  hutchSpill : Nat := 0
  counter  : Cap := Cap.null
  /-- Place of the per-core event counter table, in bytes from the counter region's start (R403). -/
  evTable  : Nat := 0
  hash     : Option Ring := none
  stamp    : Option Ring := none
  /-- Ring of each cluster's debug module (R406). -/
  trace    : List (Nat × Ring) := []
  /-- Trace record types written, and whether a full ring stops (R406). -/
  traceTypes : List Nat := []
  traceStop : Bool := false
  /-- Declared channels, id and slots (R342). -/
  chans    : List (Nat × Nat) := []
  /-- Declared barriers, index and count (R357). -/
  bars     : List (Nat × Nat) := []
deriving DecidableEq, Repr, Inhabited

/-- One launch of a GRAPHSTART (R387, R384). Clusters are numbered 32·die + cluster. -/
structure LaunchSpec where
  lid      : Nat
  entry    : Nat
  ncl      : Nat
  prio     : Nat
  clusters : List Nat
  dep      : Nat := 0
  succ     : List Nat := []
  user     : List Word := []
  pds      : List (BitVec 256) := []
deriving DecidableEq, Repr, Inhabited

/-- What GRAPHSTART carries (R408): graph and phase identifiers and the launches. `last` marks the phase's last
graph (R330). -/
structure GraphSpec where
  asid     : Nat
  graph    : Nat
  phase    : Nat
  last     : Bool := true
  launches : List LaunchSpec
deriving DecidableEq, Repr, Inhabited

/-- A node of a reduction tree (R316): the router of a core (local EID) or the gateway of a link. -/
inductive Node where
  | router (id : Nat)
  | gateway (link : Nat)
deriving DecidableEq, Repr, Inhabited

/-- The part a PART_JOIN names (R411). -/
inductive Part where
  | die (d : Nat)
  | stack (s : Nat)
  | link (l : Nat)
deriving DecidableEq, Repr, Inhabited

/-- Unsigned number of a Boolean. -/
def b2n (b : Bool) : Nat := if b then 1 else 0

end Sys2Proof
end

