-- ==== Sys2Proof/Syntax.lean ====
section
/-! DEFINITION. The abstract syntax: one constructor per row of the opcode table. A 32-bit instruction carries its
stall count `st` (R75) and its register fields in the ranges of R77; a short form carries its own `st`, `x` and `y`
(R89). The rows after the short forms are the further steps of the part: boundary and engine steps, packets as
they are performed, timers and device commands. Steps of a core name it by its local EID (die and unit, R16), steps
of a context by its number 0 to 10. -/

namespace Sys2Proof

/-- One step of the part: an instruction, or a step of another agent. -/
inductive Instr where
  /-- ADD (R117). -/
  | add (st : Fin 8) (d : Fin 32) (a : Fin 32) (b : Fin 32)
  /-- SUB (R117). -/
  | sub (st : Fin 8) (d : Fin 32) (a : Fin 32) (b : Fin 32)
  /-- AND (R117). -/
  | andr (st : Fin 8) (d : Fin 32) (a : Fin 32) (b : Fin 32)
  /-- OR (R117). -/
  | orr (st : Fin 8) (d : Fin 32) (a : Fin 32) (b : Fin 32)
  /-- XOR (R117). -/
  | xorr (st : Fin 8) (d : Fin 32) (a : Fin 32) (b : Fin 32)
  /-- ANDN (R117). -/
  | andn (st : Fin 8) (d : Fin 32) (a : Fin 32) (b : Fin 32)
  /-- SLL (R117). -/
  | sll (st : Fin 8) (d : Fin 32) (a : Fin 32) (b : Fin 32)
  /-- SRL (R117). -/
  | srl (st : Fin 8) (d : Fin 32) (a : Fin 32) (b : Fin 32)
  /-- SRA (R117). -/
  | sra (st : Fin 8) (d : Fin 32) (a : Fin 32) (b : Fin 32)
  /-- SLT (R117). -/
  | slt (st : Fin 8) (d : Fin 32) (a : Fin 32) (b : Fin 32)
  /-- SLTU (R117). -/
  | sltu (st : Fin 8) (d : Fin 32) (a : Fin 32) (b : Fin 32)
  /-- MIN (R117). -/
  | min (st : Fin 8) (d : Fin 32) (a : Fin 32) (b : Fin 32)
  /-- MAX (R117). -/
  | max (st : Fin 8) (d : Fin 32) (a : Fin 32) (b : Fin 32)
  /-- MINU (R117). -/
  | minu (st : Fin 8) (d : Fin 32) (a : Fin 32) (b : Fin 32)
  /-- MAXU (R117). -/
  | maxu (st : Fin 8) (d : Fin 32) (a : Fin 32) (b : Fin 32)
  /-- SEL (R118). -/
  | sel (st : Fin 8) (d : Fin 32) (a : Fin 32) (b : Fin 32)
  /-- ADDI (R119). -/
  | addi (st : Fin 8) (d : Fin 32) (a : Fin 32) (i : BitVec 7)
  /-- ANDI (R119). -/
  | andi (st : Fin 8) (d : Fin 32) (a : Fin 32) (i : BitVec 7)
  /-- ORI (R119). -/
  | ori (st : Fin 8) (d : Fin 32) (a : Fin 32) (i : BitVec 7)
  /-- XORI (R119). -/
  | xori (st : Fin 8) (d : Fin 32) (a : Fin 32) (i : BitVec 7)
  /-- SLLI (R119). -/
  | slli (st : Fin 8) (d : Fin 32) (a : Fin 32) (i : BitVec 7)
  /-- SRLI (R119). -/
  | srli (st : Fin 8) (d : Fin 32) (a : Fin 32) (i : BitVec 7)
  /-- SRAI (R119). -/
  | srai (st : Fin 8) (d : Fin 32) (a : Fin 32) (i : BitVec 7)
  /-- SLTI (R119). -/
  | slti (st : Fin 8) (d : Fin 32) (a : Fin 32) (i : BitVec 7)
  /-- MUL (R120). -/
  | mul (st : Fin 8) (d : Fin 32) (a : Fin 32) (b : Fin 32)
  /-- MULH (R120). -/
  | mulh (st : Fin 8) (d : Fin 32) (a : Fin 32) (b : Fin 32)
  /-- MULHU (R120). -/
  | mulhu (st : Fin 8) (d : Fin 32) (a : Fin 32) (b : Fin 32)
  /-- DIV (R120). -/
  | div (st : Fin 8) (d : Fin 32) (a : Fin 32) (b : Fin 32)
  /-- DIVU (R120). -/
  | divu (st : Fin 8) (d : Fin 32) (a : Fin 32) (b : Fin 32)
  /-- REM (R120). -/
  | rem (st : Fin 8) (d : Fin 32) (a : Fin 32) (b : Fin 32)
  /-- REMU (R120). -/
  | remu (st : Fin 8) (d : Fin 32) (a : Fin 32) (b : Fin 32)
  /-- CLZ (R120). -/
  | clz (st : Fin 8) (d : Fin 32) (a : Fin 32)
  /-- CTZ (R120). -/
  | ctz (st : Fin 8) (d : Fin 32) (a : Fin 32)
  /-- POPC (R120). -/
  | popc (st : Fin 8) (d : Fin 32) (a : Fin 32)
  /-- BSWAP (R120). -/
  | bswap (st : Fin 8) (d : Fin 32) (a : Fin 32)
  /-- LIS (R121). -/
  | lis (st : Fin 8) (d : Fin 32) (i : BitVec 16)
  /-- LIK (R121). -/
  | lik (st : Fin 8) (d : Fin 32) (i : BitVec 16)
  /-- CMOV (R122). -/
  | cmov (st : Fin 8) (d : Fin 32) (a : Fin 32)
  /-- CINC (R122). -/
  | cinc (st : Fin 8) (d : Fin 32) (a : Fin 32) (b : Fin 32)
  /-- CSETA (R122). -/
  | cseta (st : Fin 8) (d : Fin 32) (a : Fin 32) (b : Fin 32)
  /-- CSETB (R123). -/
  | csetb (st : Fin 8) (d : Fin 32) (a : Fin 32) (b : Fin 32)
  /-- CSETBX (R123). -/
  | csetbx (st : Fin 8) (d : Fin 32) (a : Fin 32) (b : Fin 32)
  /-- CANDP (R122). -/
  | candp (st : Fin 8) (d : Fin 32) (a : Fin 32) (b : Fin 32)
  /-- CGETA (R122). -/
  | cgeta (st : Fin 8) (d : Fin 32) (a : Fin 32) (h : Fin 2)
  /-- CGETB (R122). -/
  | cgetb (st : Fin 8) (d : Fin 32) (a : Fin 32) (h : Fin 2)
  /-- CGETT (R122). -/
  | cgett (st : Fin 8) (d : Fin 32) (a : Fin 32) (h : Fin 2)
  /-- CGETP (R122). -/
  | cgetp (st : Fin 8) (d : Fin 32) (a : Fin 32)
  /-- CGETTAG (R122). -/
  | cgettag (st : Fin 8) (d : Fin 32) (a : Fin 32)
  /-- CCLRTAG (R122). -/
  | cclrtag (st : Fin 8) (d : Fin 32) (a : Fin 32)
  /-- CSUB (R122). -/
  | csub (st : Fin 8) (d : Fin 32) (a : Fin 32) (b : Fin 32)
  /-- CTEST (R124). -/
  | ctest (st : Fin 8) (d : Fin 32) (a : Fin 32) (b : Fin 32)
  /-- CINCI (R122). -/
  | cinci (st : Fin 8) (d : Fin 32) (a : Fin 32) (i : BitVec 7)
  /-- CSETBI (R123). -/
  | csetbi (st : Fin 8) (d : Fin 32) (a : Fin 32) (i : BitVec 7)
  /-- BEQ (R126). -/
  | beq (st : Fin 8) (a : Fin 32) (off : BitVec 13)
  /-- BNE (R126). -/
  | bne (st : Fin 8) (a : Fin 32) (off : BitVec 13)
  /-- BLT (R126). -/
  | blt (st : Fin 8) (a : Fin 32) (off : BitVec 13)
  /-- BGE (R126). -/
  | bge (st : Fin 8) (a : Fin 32) (off : BitVec 13)
  /-- BLE (R126). -/
  | ble (st : Fin 8) (a : Fin 32) (off : BitVec 13)
  /-- BGT (R126). -/
  | bgt (st : Fin 8) (a : Fin 32) (off : BitVec 13)
  /-- BTAG (R126). -/
  | btag (st : Fin 8) (a : Fin 32) (off : BitVec 13)
  /-- BNTAG (R126). -/
  | bntag (st : Fin 8) (a : Fin 32) (off : BitVec 13)
  /-- J (R128). -/
  | j (st : Fin 8) (off : BitVec 22)
  /-- CALL (R128). -/
  | call (st : Fin 8) (off : BitVec 22)
  /-- JR (R129). -/
  | jr (st : Fin 8) (a : Fin 32)
  /-- CALLR (R129). -/
  | callr (st : Fin 8) (d : Fin 32) (a : Fin 32)
  /-- RET (R129). -/
  | ret (st : Fin 8) (a : Fin 32)
  /-- LEXIT (R133). -/
  | lexit (st : Fin 8) (a : Fin 32)
  /-- LOOP (R130). -/
  | loop (st : Fin 8) (a : Fin 32) (n : Fin 8)
  /-- LD_B (R260). -/
  | ldB (st : Fin 8) (d : Fin 32) (a : Fin 32) (off : Int)
  /-- LD_BU (R260). -/
  | ldBu (st : Fin 8) (d : Fin 32) (a : Fin 32) (off : Int)
  /-- LD_H (R260). -/
  | ldH (st : Fin 8) (d : Fin 32) (a : Fin 32) (off : Int)
  /-- LD_HU (R260). -/
  | ldHu (st : Fin 8) (d : Fin 32) (a : Fin 32) (off : Int)
  /-- LD_W (R260). -/
  | ldW (st : Fin 8) (d : Fin 32) (a : Fin 32) (off : Int)
  /-- LD_WU (R260). -/
  | ldWu (st : Fin 8) (d : Fin 32) (a : Fin 32) (off : Int)
  /-- LD_D (R260). -/
  | ldD (st : Fin 8) (d : Fin 32) (a : Fin 32) (off : Int)
  /-- LD_C (R260). -/
  | ldC (st : Fin 8) (d : Fin 32) (a : Fin 32) (off : Int)
  /-- ST_B (R261). -/
  | stB (st : Fin 8) (d : Fin 32) (a : Fin 32) (off : Int)
  /-- ST_H (R261). -/
  | stH (st : Fin 8) (d : Fin 32) (a : Fin 32) (off : Int)
  /-- ST_W (R261). -/
  | stW (st : Fin 8) (d : Fin 32) (a : Fin 32) (off : Int)
  /-- ST_D (R261). -/
  | stD (st : Fin 8) (d : Fin 32) (a : Fin 32) (off : Int)
  /-- ST_C (R261). -/
  | stC (st : Fin 8) (d : Fin 32) (a : Fin 32) (off : Int)
  /-- AADD_D (R262). -/
  | aaddD (st : Fin 8) (d : Fin 32) (a : Fin 32) (b : Fin 32)
  /-- AAND_D (R262). -/
  | aandD (st : Fin 8) (d : Fin 32) (a : Fin 32) (b : Fin 32)
  /-- AOR_D (R262). -/
  | aorD (st : Fin 8) (d : Fin 32) (a : Fin 32) (b : Fin 32)
  /-- AXOR_D (R262). -/
  | axorD (st : Fin 8) (d : Fin 32) (a : Fin 32) (b : Fin 32)
  /-- AMIN_D (R262). -/
  | aminD (st : Fin 8) (d : Fin 32) (a : Fin 32) (b : Fin 32)
  /-- AMAX_D (R262). -/
  | amaxD (st : Fin 8) (d : Fin 32) (a : Fin 32) (b : Fin 32)
  /-- AMINU_D (R262). -/
  | aminuD (st : Fin 8) (d : Fin 32) (a : Fin 32) (b : Fin 32)
  /-- AMAXU_D (R262). -/
  | amaxuD (st : Fin 8) (d : Fin 32) (a : Fin 32) (b : Fin 32)
  /-- ASWAP_D (R262). -/
  | aswapD (st : Fin 8) (d : Fin 32) (a : Fin 32) (b : Fin 32)
  /-- ACAS_D (R262). -/
  | acasD (st : Fin 8) (d : Fin 32) (a : Fin 32) (b : Fin 32)
  /-- AFADD_D (R263). -/
  | afaddD (st : Fin 8) (d : Fin 32) (a : Fin 32) (b : Fin 32)
  /-- AADD_W (R262). -/
  | aaddW (st : Fin 8) (d : Fin 32) (a : Fin 32) (b : Fin 32)
  /-- AAND_W (R262). -/
  | aandW (st : Fin 8) (d : Fin 32) (a : Fin 32) (b : Fin 32)
  /-- AOR_W (R262). -/
  | aorW (st : Fin 8) (d : Fin 32) (a : Fin 32) (b : Fin 32)
  /-- AXOR_W (R262). -/
  | axorW (st : Fin 8) (d : Fin 32) (a : Fin 32) (b : Fin 32)
  /-- AMIN_W (R262). -/
  | aminW (st : Fin 8) (d : Fin 32) (a : Fin 32) (b : Fin 32)
  /-- AMAX_W (R262). -/
  | amaxW (st : Fin 8) (d : Fin 32) (a : Fin 32) (b : Fin 32)
  /-- AMINU_W (R262). -/
  | aminuW (st : Fin 8) (d : Fin 32) (a : Fin 32) (b : Fin 32)
  /-- AMAXU_W (R262). -/
  | amaxuW (st : Fin 8) (d : Fin 32) (a : Fin 32) (b : Fin 32)
  /-- ASWAP_W (R262). -/
  | aswapW (st : Fin 8) (d : Fin 32) (a : Fin 32) (b : Fin 32)
  /-- ACAS_W (R262). -/
  | acasW (st : Fin 8) (d : Fin 32) (a : Fin 32) (b : Fin 32)
  /-- AFADD_W (R263). -/
  | afaddW (st : Fin 8) (d : Fin 32) (a : Fin 32) (b : Fin 32)
  /-- AFADDBF (R263). -/
  | afaddbf (st : Fin 8) (d : Fin 32) (a : Fin 32) (b : Fin 32)
  /-- FENCE (R281). -/
  | fence (st : Fin 8) (n : Nat)
  /-- FENCER (R303). -/
  | fencer (st : Fin 8) (d : Fin 32)
  /-- CLEAN (R264). -/
  | clean (st : Fin 8) (a : Fin 32) (b : Fin 32)
  /-- INVAL (R264). -/
  | inval (st : Fin 8) (a : Fin 32) (b : Fin 32)
  /-- WAITJ (R354). -/
  | waitj (st : Fin 8) (d : Fin 32) (a : Fin 32)
  /-- POLLJ (R354). -/
  | pollj (st : Fin 8) (d : Fin 32) (a : Fin 32)
  /-- SLEEP (R354). -/
  | sleep (st : Fin 8) (a : Fin 32)
  /-- YIELD (R354). -/
  | yield (st : Fin 8)
  /-- VLD (R266). -/
  | vld (st : Fin 8) (d : Fin 64) (a : Fin 32)
  /-- VST (R266). -/
  | vst (st : Fin 8) (d : Fin 64) (a : Fin 32)
  /-- VLDS (R266). -/
  | vlds (st : Fin 8) (d : Fin 64) (a : Fin 32) (b : Fin 32)
  /-- VSTS (R266). -/
  | vsts (st : Fin 8) (d : Fin 64) (a : Fin 32) (b : Fin 32)
  /-- VLDX (R266). -/
  | vldx (st : Fin 8) (d : Fin 64) (a : Fin 32) (b : Fin 64)
  /-- VSTX (R266). -/
  | vstx (st : Fin 8) (d : Fin 64) (a : Fin 32) (b : Fin 64)
  /-- VLDT (R270). -/
  | vldt (st : Fin 8) (d : Fin 64) (a : Fin 32) (b : Fin 32)
  /-- VSTT (R270). -/
  | vstt (st : Fin 8) (d : Fin 64) (a : Fin 32) (b : Fin 32)
  /-- SBIND (R155). -/
  | sbind (st : Fin 8) (d : Fin 8) (a : Fin 32) (b : Fin 32)
  /-- SUNBIND (R156). -/
  | sunbind (st : Fin 8) (d : Fin 8)
  /-- VLDB (R267). -/
  | vldb (st : Fin 8) (d : Fin 64) (a : Fin 32) (b : Fin 32)
  /-- TPRED (R272). -/
  | tpred (st : Fin 8) (d : Fin 16) (a : Fin 32) (b : Fin 32)
  /-- TVCLR (R273). -/
  | tvclr (st : Fin 8) (a : Fin 32) (b : Fin 32)
  /-- TVSET (R273). -/
  | tvset (st : Fin 8) (a : Fin 32) (b : Fin 32)
  /-- THDR (R271). -/
  | thdr (st : Fin 8) (a : Fin 32) (b : Fin 32)
  /-- GATH (R274). -/
  | gath (st : Fin 8) (d : Fin 32) (a : Fin 32) (b : Fin 64)
  /-- SCAT (R274). -/
  | scat (st : Fin 8) (d : Fin 32) (a : Fin 32) (b : Fin 64)
  /-- GATHST (R276). -/
  | gathst (st : Fin 8) (d : Fin 32) (a : Fin 32) (b : Fin 32)
  /-- VSORT (R164). -/
  | vsort (st : Fin 8) (d : Fin 64) (a : Fin 64) (b : Fin 64)
  /-- VSORTX (R165). -/
  | vsortx (st : Fin 8) (d : Fin 64) (a : Fin 64) (b : Fin 64)
  /-- VBSTEP (R168). -/
  | vbstep (st : Fin 8) (d : Fin 64) (a : Fin 64) (b : Fin 64)
  /-- VTOPK (R164). -/
  | vtopk (st : Fin 8) (d : Fin 64) (a : Fin 64) (b : Fin 64)
  /-- VMERGEK (R166). -/
  | vmergek (st : Fin 8) (d : Fin 64) (a : Fin 64) (b : Fin 64)
  /-- VRANK (R167). -/
  | vrank (st : Fin 8) (d : Fin 64) (a : Fin 64)
  /-- OCCFG (R174). -/
  | occfg (st : Fin 8) (d : Fin 32) (a : Fin 32) (b : Fin 32)
  /-- OCEMIT (R172). -/
  | ocemit (st : Fin 8) (d : Fin 32) (a : Fin 64)
  /-- OCEMITI (R173). -/
  | ocemiti (st : Fin 8) (d : Fin 32) (a : Fin 64) (b : Fin 64)
  /-- OCACC (R176). -/
  | ocacc (st : Fin 8) (d : Fin 64)
  /-- OCSTAT (R178). -/
  | ocstat (st : Fin 8) (d : Fin 32) (h : Nat)
  /-- OCRST (R179). -/
  | ocrst (st : Fin 8)
  /-- OCGW (R180). -/
  | ocgw (st : Fin 8) (a : Fin 32) (b : Fin 64)
  /-- OCGA (R180). -/
  | ocga (st : Fin 8) (a : Fin 32) (b : Fin 64)
  /-- OCGF (R180). -/
  | ocgf (st : Fin 8) (a : Fin 32) (b : Fin 64)
  /-- MMODE (R188). -/
  | mmode (st : Fin 8) (n : Nat)
  /-- MOP (R199). -/
  | mop (st : Fin 8) (d : Fin 32) (a : Fin 64) (b : Fin 64)
  /-- MSQD (R199). -/
  | msqd (st : Fin 8) (d : Fin 32) (a : Fin 64) (b : Fin 64)
  /-- MTOPK (R204). -/
  | mtopk (st : Fin 8) (d : Fin 64) (k : Nat)
  /-- ACCRD (R202). -/
  | accrd (st : Fin 8) (d : Fin 64) (a : Fin 32) (b : Fin 32)
  /-- ACCZ (R205). -/
  | accz (st : Fin 8)
  /-- MDRAIN (R206). -/
  | mdrain (st : Fin 8) (d : Fin 32) (a : Fin 32) (b : Fin 32)
  /-- MWAIT (R210). -/
  | mwait (st : Fin 8) (n : Nat)
  /-- MNMB (R201). -/
  | mnmb (st : Fin 8) (a : Fin 64)
  /-- CPY (R356). -/
  | cpy (st : Fin 8) (d : Fin 32) (a : Fin 32) (b : Fin 32)
  /-- CPY2D (R356). -/
  | cpy2d (st : Fin 8) (d : Fin 32) (a : Fin 32) (b : Fin 32)
  /-- CPYQ (R356). -/
  | cpyq (st : Fin 8) (d : Fin 32) (a : Fin 32) (b : Fin 32)
  /-- CPYX (R356). -/
  | cpyx (st : Fin 8) (d : Fin 32) (a : Fin 32) (b : Fin 32)
  /-- TBEGIN (R372). -/
  | tbegin (st : Fin 8) (a : Fin 32) (b : Fin 32)
  /-- TREC (R373). -/
  | trec (st : Fin 8) (a : Fin 32)
  /-- TRECB (R373). -/
  | trecb (st : Fin 8) (a : Fin 32)
  /-- TRECV (R373). -/
  | trecv (st : Fin 8) (a : Fin 64) (n : Nat)
  /-- TEND (R375). -/
  | tend (st : Fin 8) (d : Fin 32)
  /-- TPLAY (R376). -/
  | tplay (st : Fin 8) (a : Fin 32) (b : Fin 32)
  /-- TPOP (R377). -/
  | tpop (st : Fin 8) (d : Fin 32) (n : Nat)
  /-- TPOPB (R377). -/
  | tpopb (st : Fin 8) (d : Fin 32)
  /-- TPOPV (R377). -/
  | tpopv (st : Fin 8) (d : Fin 64) (n : Nat)
  /-- TSTAT (R380). -/
  | tstat (st : Fin 8) (d : Fin 32) (n : Nat)
  /-- SEND (R334). -/
  | send (st : Fin 8) (d : Fin 32) (a : Fin 32) (b : Fin 32)
  /-- TENQ (R333). -/
  | tenq (st : Fin 8) (d : Fin 32) (a : Fin 32) (b : Fin 32)
  /-- RFORK (R336). -/
  | rfork (st : Fin 8) (d : Fin 32) (a : Fin 32) (b : Fin 32)
  /-- JOIN (R337). -/
  | join (st : Fin 8) (a : Fin 32)
  /-- TBIND (R339). -/
  | tbind (st : Fin 8) (d : Fin 32) (a : Fin 32) (b : Fin 32)
  /-- TUNBIND (R340). -/
  | tunbind (st : Fin 8) (d : Fin 32) (a : Fin 32)
  /-- TFIRE (R341). -/
  | tfire (st : Fin 8) (d : Fin 32) (a : Fin 32) (b : Fin 32)
  /-- CHOPEN (R343). -/
  | chopen (st : Fin 8) (d : Fin 32) (a : Fin 32) (b : Fin 32)
  /-- CHCLOSE (R347). -/
  | chclose (st : Fin 8) (a : Fin 32)
  /-- CHSEND (R345). -/
  | chsend (st : Fin 8) (d : Fin 32) (a : Fin 32) (b : Fin 32)
  /-- CHRECV (R346). -/
  | chrecv (st : Fin 8) (d : Fin 32) (a : Fin 32) (b : Fin 32)
  /-- EXIT (R331). -/
  | exit (st : Fin 8)
  /-- HSTART (R349). -/
  | hstart (st : Fin 8) (d : Fin 32) (a : Fin 32) (b : Fin 32)
  /-- HSTOP (R350). -/
  | hstop (st : Fin 8) (a : Fin 32)
  /-- HSTAT (R350). -/
  | hstat (st : Fin 8) (d : Fin 32) (a : Fin 32) (b : Fin 32)
  /-- BARI (R358). -/
  | bari (st : Fin 8) (a : Fin 32) (b : Fin 32)
  /-- BARA (R359). -/
  | bara (st : Fin 8) (d : Fin 32) (a : Fin 32) (b : Fin 32)
  /-- BARAD (R359). -/
  | barad (st : Fin 8) (d : Fin 32) (a : Fin 32) (b : Fin 32)
  /-- BARW (R360). -/
  | barw (st : Fin 8) (d : Fin 32) (a : Fin 32) (b : Fin 32)
  /-- BARAW (R359). -/
  | baraw (st : Fin 8) (d : Fin 32) (a : Fin 32) (b : Fin 32)
  /-- RLD (R302). -/
  | rld (st : Fin 8) (d : Fin 32) (a : Fin 32) (b : Fin 32)
  /-- RST (R302). -/
  | rst (st : Fin 8) (d : Fin 32) (a : Fin 32) (b : Fin 32)
  /-- RAMO (R302). -/
  | ramo (st : Fin 8) (d : Fin 32) (a : Fin 32) (b : Fin 32)
  /-- GST (R304). -/
  | gst (st : Fin 8) (d : Fin 32) (a : Fin 32) (b : Fin 32)
  /-- GCOMMIT (R306). -/
  | gcommit (st : Fin 8) (d : Fin 32) (a : Fin 32)
  /-- GABORT (R307). -/
  | gabort (st : Fin 8) (a : Fin 32)
  /-- GCSTAT (R313). -/
  | gcstat (st : Fin 8) (d : Fin 32) (a : Fin 32)
  /-- GWAIT (R313). -/
  | gwait (st : Fin 8) (d : Fin 32) (a : Fin 32)
  /-- NRED (R315). -/
  | nred (st : Fin 8) (d : Fin 32) (a : Fin 32) (b : Fin 64)
  /-- NREDW (R318). -/
  | nredw (st : Fin 8) (d : Fin 64) (a : Fin 32)
  /-- SRD (R215). -/
  | srd (st : Fin 8) (d : Fin 32) (n : BitVec 12)
  /-- SWR (R215). -/
  | swr (st : Fin 8) (d : Fin 32) (n : BitVec 12)
  /-- TRAP (R219). -/
  | trap (st : Fin 8) (n : BitVec 12)
  /-- ERET (R223). -/
  | eret (st : Fin 8)
  /-- BRK (R219). -/
  | brk (st : Fin 8) (n : BitVec 12)
  /-- TIME (R225). -/
  | time (st : Fin 8) (d : Fin 32)
  /-- HALT (R228). -/
  | halt (st : Fin 8)
  /-- CANCEL (R229). -/
  | cancel (st : Fin 8) (d : Fin 32) (a : Fin 32) (b : Fin 32)
  /-- VMOVS (R153). -/
  | vmovs (st : Fin 8) (d : Fin 32) (a : Fin 64) (b : Fin 32)
  /-- VMOVX (R153). -/
  | vmovx (st : Fin 8) (d : Fin 64) (a : Fin 32)
  /-- VINS (R153). -/
  | vins (st : Fin 8) (d : Fin 64) (a : Fin 32) (b : Fin 32)
  /-- MSET (R153). -/
  | mset (st : Fin 8) (d : Fin 8) (a : Fin 32)
  /-- MGET (R153). -/
  | mget (st : Fin 8) (d : Fin 32) (a : Fin 8)
  /-- GSET (R153). -/
  | gset (st : Fin 8) (d : Fin 16) (a : Fin 32)
  /-- GGET (R153). -/
  | gget (st : Fin 8) (d : Fin 32) (a : Fin 16)
  /-- OSET (R153). -/
  | oset (st : Fin 8) (d : Fin 8) (a : Fin 32)
  /-- OGET (R153). -/
  | oget (st : Fin 8) (d : Fin 32) (a : Fin 8)
  /-- BMANY (R127). -/
  | bmany (st : Fin 8) (a : Fin 8) (off : BitVec 13)
  /-- BMNONE (R127). -/
  | bmnone (st : Fin 8) (a : Fin 8) (off : BitVec 13)
  /-- BMALL (R127). -/
  | bmall (st : Fin 8) (a : Fin 8) (off : BitVec 13)
  /-- BGDS (R127). -/
  | bgds (st : Fin 8) (a : Fin 16) (off : BitVec 13)
  /-- BGDC (R127). -/
  | bgdc (st : Fin 8) (a : Fin 16) (off : BitVec 13)
  /-- VADD (R141). -/
  | vadd (st : Fin 8) (d : Fin 64) (a : Fin 64) (b : Fin 64) (m : Fin 8)
  /-- VSUB (R141). -/
  | vsub (st : Fin 8) (d : Fin 64) (a : Fin 64) (b : Fin 64) (m : Fin 8)
  /-- VMUL (R141). -/
  | vmul (st : Fin 8) (d : Fin 64) (a : Fin 64) (b : Fin 64) (m : Fin 8)
  /-- VMULH (R141). -/
  | vmulh (st : Fin 8) (d : Fin 64) (a : Fin 64) (b : Fin 64) (m : Fin 8)
  /-- VFMA (R141). -/
  | vfma (st : Fin 8) (d : Fin 64) (a : Fin 64) (b : Fin 64) (m : Fin 8)
  /-- VFMS (R141). -/
  | vfms (st : Fin 8) (d : Fin 64) (a : Fin 64) (b : Fin 64) (m : Fin 8)
  /-- VMIN (R141). -/
  | vmin (st : Fin 8) (d : Fin 64) (a : Fin 64) (b : Fin 64) (m : Fin 8)
  /-- VMAX (R141). -/
  | vmax (st : Fin 8) (d : Fin 64) (a : Fin 64) (b : Fin 64) (m : Fin 8)
  /-- VAND (R143). -/
  | vand (st : Fin 8) (d : Fin 64) (a : Fin 64) (b : Fin 64) (m : Fin 8)
  /-- VOR (R143). -/
  | vor (st : Fin 8) (d : Fin 64) (a : Fin 64) (b : Fin 64) (m : Fin 8)
  /-- VXOR (R143). -/
  | vxor (st : Fin 8) (d : Fin 64) (a : Fin 64) (b : Fin 64) (m : Fin 8)
  /-- VANDN (R143). -/
  | vandn (st : Fin 8) (d : Fin 64) (a : Fin 64) (b : Fin 64) (m : Fin 8)
  /-- VSLL (R143). -/
  | vsll (st : Fin 8) (d : Fin 64) (a : Fin 64) (b : Fin 64) (m : Fin 8)
  /-- VSRL (R143). -/
  | vsrl (st : Fin 8) (d : Fin 64) (a : Fin 64) (b : Fin 64) (m : Fin 8)
  /-- VSRA (R143). -/
  | vsra (st : Fin 8) (d : Fin 64) (a : Fin 64) (b : Fin 64) (m : Fin 8)
  /-- VROL (R143). -/
  | vrol (st : Fin 8) (d : Fin 64) (a : Fin 64) (b : Fin 64) (m : Fin 8)
  /-- VCEQ (R145). -/
  | vceq (st : Fin 8) (d : Fin 8) (a : Fin 64) (b : Fin 64) (m : Fin 8)
  /-- VCNE (R145). -/
  | vcne (st : Fin 8) (d : Fin 8) (a : Fin 64) (b : Fin 64) (m : Fin 8)
  /-- VCLT (R145). -/
  | vclt (st : Fin 8) (d : Fin 8) (a : Fin 64) (b : Fin 64) (m : Fin 8)
  /-- VCLE (R145). -/
  | vcle (st : Fin 8) (d : Fin 8) (a : Fin 64) (b : Fin 64) (m : Fin 8)
  /-- VCVT (R146). -/
  | vcvt (st : Fin 8) (d : Fin 64) (a : Fin 64) (m : Fin 8)
  /-- VCVTS (R146). -/
  | vcvts (st : Fin 8) (d : Fin 64) (a : Fin 64) (b : Fin 64) (m : Fin 8)
  /-- VPACK (R148). -/
  | vpack (st : Fin 8) (d : Fin 64) (a : Fin 64) (b : Fin 64)
  /-- VUNPK (R148). -/
  | vunpk (st : Fin 8) (d : Fin 64) (a : Fin 64) (b : Fin 64)
  /-- VPERM (R149). -/
  | vperm (st : Fin 8) (d : Fin 64) (a : Fin 64) (b : Fin 64) (m : Fin 8)
  /-- VSHUF (R149). -/
  | vshuf (st : Fin 8) (d : Fin 64) (a : Fin 64) (b : Fin 64) (m : Fin 8)
  /-- VSLDU (R149). -/
  | vsldu (st : Fin 8) (d : Fin 64) (a : Fin 64) (b : Fin 64) (m : Fin 8)
  /-- VSLDD (R149). -/
  | vsldd (st : Fin 8) (d : Fin 64) (a : Fin 64) (b : Fin 64) (m : Fin 8)
  /-- VRSUM (R152). -/
  | vrsum (st : Fin 8) (d : Fin 64) (a : Fin 64) (b : Fin 64) (m : Fin 8)
  /-- VRMAX (R152). -/
  | vrmax (st : Fin 8) (d : Fin 64) (a : Fin 64) (b : Fin 64) (m : Fin 8)
  /-- VRMIN (R152). -/
  | vrmin (st : Fin 8) (d : Fin 64) (a : Fin 64) (b : Fin 64) (m : Fin 8)
  /-- VRAMAX (R152). -/
  | vramax (st : Fin 8) (d : Fin 64) (a : Fin 64) (b : Fin 64) (m : Fin 8)
  /-- VMRG (R150). -/
  | vmrg (st : Fin 8) (d : Fin 64) (a : Fin 64) (b : Fin 64) (m : Fin 8)
  /-- VCMPR (R150). -/
  | vcmpr (st : Fin 8) (d : Fin 64) (a : Fin 64) (m : Fin 8)
  /-- VABS (R142). -/
  | vabs (st : Fin 8) (d : Fin 64) (a : Fin 64) (m : Fin 8)
  /-- VNEG (R142). -/
  | vneg (st : Fin 8) (d : Fin 64) (a : Fin 64) (m : Fin 8)
  /-- VDIV (R141). -/
  | vdiv (st : Fin 8) (d : Fin 64) (a : Fin 64) (b : Fin 64) (m : Fin 8)
  /-- VSQRT (R142). -/
  | vsqrt (st : Fin 8) (d : Fin 64) (a : Fin 64) (m : Fin 8)
  /-- VEXP2 (R142). -/
  | vexp2 (st : Fin 8) (d : Fin 64) (a : Fin 64) (m : Fin 8)
  /-- VLOG2 (R142). -/
  | vlog2 (st : Fin 8) (d : Fin 64) (a : Fin 64) (m : Fin 8)
  /-- VDOT4 (R144). -/
  | vdot4 (st : Fin 8) (d : Fin 64) (a : Fin 64) (b : Fin 64) (m : Fin 8)
  /-- VSAD (R144). -/
  | vsad (st : Fin 8) (d : Fin 64) (a : Fin 64) (b : Fin 64) (m : Fin 8)
  /-- VIOTA (R150). -/
  | viota (st : Fin 8) (d : Fin 64) (m : Fin 8)
  /-- VMCNT (R150). -/
  | vmcnt (st : Fin 8) (d : Fin 64) (m : Fin 8)
  /-- VCLZ (R142). -/
  | vclz (st : Fin 8) (d : Fin 64) (a : Fin 64) (m : Fin 8)
  /-- VPOPC (R142). -/
  | vpopc (st : Fin 8) (d : Fin 64) (a : Fin 64) (m : Fin 8)
  /-- VSCL (R141). -/
  | vscl (st : Fin 8) (d : Fin 64) (a : Fin 64) (b : Fin 64) (m : Fin 8)
  /-- VMOV (R151). -/
  | vmov (st : Fin 8) (d : Fin 64) (a : Fin 64) (m : Fin 8)
  /-- ADD_SHORT (R89). -/
  | addShort (st : Fin 4) (x : Fin 16) (y : Fin 16)
  /-- SUB_SHORT (R89). -/
  | subShort (st : Fin 4) (x : Fin 16) (y : Fin 16)
  /-- AND_SHORT (R89). -/
  | andShort (st : Fin 4) (x : Fin 16) (y : Fin 16)
  /-- OR_SHORT (R89). -/
  | orShort (st : Fin 4) (x : Fin 16) (y : Fin 16)
  /-- XOR_SHORT (R89). -/
  | xorShort (st : Fin 4) (x : Fin 16) (y : Fin 16)
  /-- CMOV_SHORT (R89). -/
  | cmovShort (st : Fin 4) (x : Fin 16) (y : Fin 16)
  /-- ADDI_SHORT (R89). -/
  | addiShort (st : Fin 4) (x : Fin 16) (y : Fin 16)
  /-- SLLI_SHORT (R89). -/
  | slliShort (st : Fin 4) (x : Fin 16) (y : Fin 16)
  /-- SRLI_SHORT (R89). -/
  | srliShort (st : Fin 4) (x : Fin 16) (y : Fin 16)
  /-- SRAI_SHORT (R89). -/
  | sraiShort (st : Fin 4) (x : Fin 16) (y : Fin 16)
  /-- LIS_SHORT (R89). -/
  | lisShort (st : Fin 4) (x : Fin 16) (y : Fin 16)
  /-- CINCI_SHORT (R89). -/
  | cinciShort (st : Fin 4) (x : Fin 16) (y : Fin 16)
  /-- LD_D_SHORT (R89). -/
  | ldDShort (st : Fin 4) (x : Fin 16) (y : Fin 16)
  /-- ST_D_SHORT (R89). -/
  | stDShort (st : Fin 4) (x : Fin 16) (y : Fin 16)
  /-- LD_W_SHORT (R89). -/
  | ldWShort (st : Fin 4) (x : Fin 16) (y : Fin 16)
  /-- ST_W_SHORT (R89). -/
  | stWShort (st : Fin 4) (x : Fin 16) (y : Fin 16)
  /-- LD_D_C2_SHORT (R89). -/
  | ldDC2Short (st : Fin 4) (x : Fin 16) (y : Fin 16)
  /-- ST_D_C2_SHORT (R89). -/
  | stDC2Short (st : Fin 4) (x : Fin 16) (y : Fin 16)
  /-- LD_C_C2_SHORT (R89). -/
  | ldCC2Short (st : Fin 4) (x : Fin 16) (y : Fin 16)
  /-- ST_C_C2_SHORT (R89). -/
  | stCC2Short (st : Fin 4) (x : Fin 16) (y : Fin 16)
  /-- BEQ_SHORT (R89). -/
  | beqShort (st : Fin 4) (x : Fin 16) (y : Fin 16)
  /-- BNE_SHORT (R89). -/
  | bneShort (st : Fin 4) (x : Fin 16) (y : Fin 16)
  /-- J_SHORT (R89). -/
  | jShort (st : Fin 4) (o : BitVec 8)
  /-- RET_SHORT (R89). -/
  | retShort (st : Fin 4) (x : Fin 16)
  /-- CALLR_SHORT (R89). -/
  | callrShort (st : Fin 4) (x : Fin 16)
  /-- VADD_SHORT (R89). -/
  | vaddShort (st : Fin 4) (x : Fin 16) (y : Fin 16)
  /-- VMUL_SHORT (R89). -/
  | vmulShort (st : Fin 4) (x : Fin 16) (y : Fin 16)
  /-- VMOV_SHORT (R89). -/
  | vmovShort (st : Fin 4) (x : Fin 16) (y : Fin 16)
  /-- YIELD_SHORT (R89). -/
  | yieldShort (st : Fin 4)
  /-- WAITJ_SHORT (R89). -/
  | waitjShort (st : Fin 4) (x : Fin 16)
  /-- EXIT_SHORT (R89). -/
  | exitShort (st : Fin 4)
  /-- LOOP_SHORT (R89). -/
  | loopShort (st : Fin 4) (x : Fin 16) (y : Fin 8)
  /-- TRAP_ENTRY (R218). -/
  | trapEntry (e : Nat)
  /-- TCMP_MATCH (R224). -/
  | tcmpMatch (e : Nat)
  /-- SLEEP_WAKE (R354). -/
  | sleepWake (e : Nat) (h : Nat)
  /-- MATRIX_STEP (R199). -/
  | matrixStep (e : Nat)
  /-- DRAIN_CAPTURE (R208). -/
  | drainCapture (e : Nat)
  /-- COPY_BURST (R355). -/
  | copyBurst (e : Nat) (rec : Nat)
  /-- GATHER_COMPLETE (R275). -/
  | gatherComplete (e : Nat) (rec : Nat)
  /-- TASK_DISPATCH (R326). -/
  | taskDispatch (e : Nat)
  /-- STEAL_ROUND (R327). -/
  | stealRound (e : Nat)
  /-- STEAL_ATTEMPT (R327). -/
  | stealAttempt (e : Nat)
  /-- LAUNCH_OPEN (R329). -/
  | launchOpen (asid : Nat) (lid : Nat)
  /-- PHASE_BARRIER (R330). -/
  | phaseBarrier (asid : Nat) (ph : Nat)
  /-- BUREAU_RUN (R392). -/
  | bureauRun (asid : Nat) (lid : Nat)
  /-- SLICE_EXPIRY (R234). -/
  | sliceExpiry (asid : Nat)
  /-- GANG_STOP (R227). -/
  | gangStop (e : Nat)
  /-- GANG_DRAIN (R232). -/
  | gangDrain (asid : Nat)
  /-- GANG_SAVE (R233). -/
  | gangSave (asid : Nat)
  /-- LEASE_EXPIRY (R278). -/
  | leaseExpiry (e : Nat) (line : Nat)
  /-- ECC_UE (R236). -/
  | eccUe (e : Nat)
  /-- ACTIVE_MESSAGE (R297). -/
  | activeMessage (p : Packet)
  /-- RLOAD (R302). -/
  | rload (p : Packet)
  /-- RSTORE (R302). -/
  | rstore (p : Packet)
  /-- RATOMIC (R302). -/
  | ratomic (p : Packet)
  /-- GSTAGE (R304). -/
  | gstage (p : Packet)
  /-- PREPARE (R309). -/
  | prepare (p : Packet)
  /-- PUBLISH (R310). -/
  | publish (p : Packet)
  /-- DISCARD (R309). -/
  | discard (p : Packet)
  /-- QUERY (R311). -/
  | query (p : Packet)
  /-- BARARR (R359). -/
  | bararr (p : Packet)
  /-- BARRIER_RETRY (R360). -/
  | barrierRetry (e : Nat) (h : Nat)
  /-- SPWRITE (R344). -/
  | spwrite (p : Packet)
  /-- MWRITE (R356). -/
  | mwrite (p : Packet)
  /-- RGATH (R275). -/
  | rgath (p : Packet)
  /-- RSCAT (R275). -/
  | rscat (p : Packet)
  /-- TRIGGER (R341). -/
  | trigger (p : Packet)
  /-- REPLY (R296). -/
  | reply (p : Packet)
  /-- GST_REPLY (R304). -/
  | gstReply (p : Packet)
  /-- COMMIT_HANDOVER (R306). -/
  | commitHandover (src : Nat) (grp : Nat)
  /-- READY (R308). -/
  | ready (p : Packet)
  /-- DECISION_ACK (R308). -/
  | decisionAck (p : Packet)
  /-- QUERY_ANSWER (R311). -/
  | queryAnswer (p : Packet)
  /-- PREPARE_TIMEOUT (R308). -/
  | prepareTimeout (src : Nat) (grp : Nat)
  /-- STAGING_TIMEOUT (R309). -/
  | stagingTimeout (stk : Nat) (src : Nat) (grp : Nat)
  /-- IN_DOUBT_TIMER (R311). -/
  | inDoubtTimer (stk : Nat) (src : Nat) (grp : Nat)
  /-- GWAIT_TIME_LIMIT (R313). -/
  | gwaitTimeLimit (e : Nat) (h : Nat)
  /-- DEMAND (R298). -/
  | demand (p : Packet)
  /-- GRANT (R298). -/
  | grant (p : Packet)
  /-- EACK (R299). -/
  | eack (p : Packet)
  /-- SLOTREQ (R344). -/
  | slotreq (p : Packet)
  /-- SLOTGNT (R171). -/
  | slotgnt (p : Packet)
  /-- RED_CONTRIB (R316). -/
  | redContrib (nd : Node) (port : Nat) (p : Packet)
  /-- NODE_TIMEOUT (R317). -/
  | nodeTimeout (nd : Node) (tree : Nat) (inst : Nat)
  /-- RED_RESULT (R317). -/
  | redResult (p : Packet)
  /-- FLIT (R293). -/
  | flit (l : Nat) (f : Flit)
  /-- REPLAY_REQUEST (R299). -/
  | replayRequest (l : Nat) (fseq : Nat)
  /-- LINK_REPLAY_LIMIT (R299). -/
  | linkReplayLimit (l : Nat)
  /-- E2E_TIMER (R299). -/
  | e2eTimer (src : Nat) (dst : Nat)
  /-- LINK_FAILURE (R300). -/
  | linkFailure (l : Nat)
  /-- TSYNC (R401). -/
  | tsync (p : Packet)
  /-- SYNC_TICK (R401). -/
  | syncTick (l : Nat)
  /-- SPILL_WRITE (R363). -/
  | spillWrite (e : Nat)
  /-- CHUNK_FETCH (R376). -/
  | chunkFetch (e : Nat)
  /-- IDENT (R410). -/
  | ident (port : Nat)
  /-- SEMACQ (R409). -/
  | semacq (port : Nat)
  /-- SEMREL (R409). -/
  | semrel (port : Nat)
  /-- SEMAPHORE_LOSS (R409). -/
  | semaphoreLoss (port : Nat)
  /-- JOBSTART (R408). -/
  | jobstart (port : Nat) (job : JobSpec)
  /-- JOBSTOP (R408). -/
  | jobstop (port : Nat) (asid : Nat)
  /-- JOBRESUME (R232). -/
  | jobresume (port : Nat) (asid : Nat)
  /-- JOBREMOVE (R408). -/
  | jobremove (port : Nat) (asid : Nat)
  /-- GRAPHSTART (R387). -/
  | graphstart (port : Nat) (gr : GraphSpec)
  /-- TLBINV (R259). -/
  | tlbinv (port : Nat) (asid : Nat) (lo : Nat) (len : Nat)
  /-- DOORBELL (R224). -/
  | doorbell (port : Nat) (eid : Nat)
  /-- SETPKG (R16). -/
  | setpkg (port : Nat) (pkg : Nat)
  /-- ROUTEWR (R300). -/
  | routewr (port : Nat) (dst : Nat) (ent : BitVec 16)
  /-- TREEWR (R391). -/
  | treewr (port : Nat) (idx : Nat) (ent : List Byte)
  /-- RATESET (R298). -/
  | rateset (port : Nat) (eid : Nat) (rate : Nat)
  /-- FWLOAD (R412). -/
  | fwload (port : Nat) (die : Nat) (img : List Byte)
  /-- LINKRETRAIN (R414). -/
  | linkretrain (port : Nat) (l : Nat)
  /-- STACKRETIRE (R414). -/
  | stackretire (port : Nat) (stk : Nat)
  /-- DIEOFF (R415). -/
  | dieoff (port : Nat) (die : Nat) (via : Option Nat)
  /-- DIEON (R414). -/
  | dieon (port : Nat) (die : Nat)
  /-- ATTEST (R413). -/
  | attest (port : Nat) (nonce : List Byte)
  /-- POWERCAP (R418). -/
  | powercap (port : Nat) (watts : Nat)
  /-- SBRESOLVE (R416). -/
  | sbresolve (port : Nat) (stk : Nat)
  /-- SBRESOLVE_TIMEOUT (R416). -/
  | sbresolveTimeout (stk : Nat)
  /-- SBLIST (R416). -/
  | sblist (port : Nat) (stk : Nat) (off : Nat)
  /-- SBDECIDE (R416). -/
  | sbdecide (port : Nat) (stk : Nat) (src : Nat) (grp : Nat) (pub : Bool)
  /-- SBLOST (R416). -/
  | sblost (port : Nat) (eid : Nat)
  /-- POWER_ON (R411). -/
  | powerOn
  /-- REDUCED_SERVICE (R411). -/
  | reducedService
  /-- PART_JOIN (R411). -/
  | partJoin (part : Part)
  /-- THERMAL_THROTTLE (R418). -/
  | thermalThrottle (die : Nat)
  /-- THERMAL_SHUTDOWN (R418). -/
  | thermalShutdown (die : Nat)
  /-- VARIABLE_LATENCY_RESULT (R79). -/
  | variableLatencyResult (e : Nat) (h : Nat) (n : Nat)
  /-- UNALLOCATED_WORD (R87). -/
  | unallocatedWord (w : BitVec 32)
  /-- BARRIER_WAIT_REQUEST (R360). -/
  | barrierWaitRequest (p : Packet)
  /-- GWAIT_QUERY_REPEAT (R425). -/
  | gwaitQueryRepeat (e : Nat) (h : Nat)
  /-- LINK_RETRAIN_DONE (R414). -/
  | linkRetrainDone (l : Nat)
deriving DecidableEq, Repr, Inhabited

end Sys2Proof
end

