-- ==== Sys2Proof/WellFormed.lean ====
section
/-! DEFINITION. What a well-formed instruction is: the ranges of R77 that the types of the syntax do not already
hold, and for the further steps the ranges of the units they name. Arguments of a device command are the command's to refuse
(R296, R408); its port is one of two. -/

namespace Sys2Proof

/-- A local EID (die and unit) that names a core: die 0 to 3, unit 0 to 255 (R16). -/
def isCore (e : Nat) : Bool := e < 4096 && e % 1024 < 256

/-- A part of the package (R411). -/
def Part.ok : Part → Bool
  | .die d => d < 4
  | .stack s => s < 8
  | .link l => l < 16

/-- Header fields within their widths (R294). -/
def Packet.ok (p : Packet) : Bool :=
  p.kind < 64 && p.deid < 2 ^ 24 && p.seid < 2 ^ 24 && p.pseq < 2 ^ 16 && p.asid < 2 ^ 16 && p.otag < 2 ^ 16

/-- Fields of a flit within their widths (R293). -/
def Flit.ok (f : Flit) : Bool :=
  f.pay.length == 56 && f.fseq < 2 ^ 12 && f.typ < 16 && f.fack < 2 ^ 12 && f.crc < 2 ^ 32

/-- Whether an instruction lies in the ranges its encoding admits. -/
def Instr.wf (i : Instr) : Bool :=
  match i with
  | .ldB _ _ _ off => (-128 ≤ off && off ≤ 127)
  | .ldBu _ _ _ off => (-128 ≤ off && off ≤ 127)
  | .ldH _ _ _ off => (-128 ≤ off && off ≤ 127)
  | .ldHu _ _ _ off => (-128 ≤ off && off ≤ 127)
  | .ldW _ _ _ off => (-128 ≤ off && off ≤ 127)
  | .ldWu _ _ _ off => (-128 ≤ off && off ≤ 127)
  | .ldD _ _ _ off => (-128 ≤ off && off ≤ 127)
  | .ldC _ _ _ off => (-128 ≤ off && off ≤ 127)
  | .stB _ _ _ off => (-128 ≤ off && off ≤ 127)
  | .stH _ _ _ off => (-128 ≤ off && off ≤ 127)
  | .stW _ _ _ off => (-128 ≤ off && off ≤ 127)
  | .stD _ _ _ off => (-128 ≤ off && off ≤ 127)
  | .stC _ _ _ off => (-128 ≤ off && off ≤ 127)
  | .fence _ n => n < 64
  | .ocstat _ _ h => h < 64
  | .mmode _ n => n < 64
  | .mtopk _ _ k => k < 64
  | .mwait _ n => n < 64
  | .trecv _ _ n => n < 64
  | .tpop _ _ n => n < 64
  | .tpopv _ _ n => n < 64
  | .tstat _ _ n => n < 64
  | .trapEntry e => isCore e
  | .tcmpMatch e => isCore e
  | .sleepWake e h => isCore e && h < 11
  | .matrixStep e => isCore e
  | .drainCapture e => isCore e
  | .copyBurst e _ => isCore e
  | .gatherComplete e _ => isCore e
  | .taskDispatch e => isCore e
  | .stealRound e => isCore e
  | .stealAttempt e => isCore e
  | .gangStop e => isCore e
  | .leaseExpiry e _ => isCore e
  | .eccUe e => isCore e
  | .activeMessage p => p.ok
  | .rload p => p.ok
  | .rstore p => p.ok
  | .ratomic p => p.ok
  | .gstage p => p.ok
  | .prepare p => p.ok
  | .publish p => p.ok
  | .discard p => p.ok
  | .query p => p.ok
  | .bararr p => p.ok
  | .barrierRetry e h => isCore e && h < 11
  | .spwrite p => p.ok
  | .mwrite p => p.ok
  | .rgath p => p.ok
  | .rscat p => p.ok
  | .trigger p => p.ok
  | .reply p => p.ok
  | .gstReply p => p.ok
  | .ready p => p.ok
  | .decisionAck p => p.ok
  | .queryAnswer p => p.ok
  | .stagingTimeout stk _ _ => stk < 8
  | .inDoubtTimer stk _ _ => stk < 8
  | .gwaitTimeLimit e h => isCore e && h < 11
  | .demand p => p.ok
  | .grant p => p.ok
  | .eack p => p.ok
  | .slotreq p => p.ok
  | .slotgnt p => p.ok
  | .redContrib _ _ p => p.ok
  | .redResult p => p.ok
  | .flit l f => l < 16 && f.ok
  | .replayRequest l _ => l < 16
  | .linkReplayLimit l => l < 16
  | .linkFailure l => l < 16
  | .tsync p => p.ok
  | .syncTick l => l < 16
  | .spillWrite e => isCore e
  | .chunkFetch e => isCore e
  | .ident port => port < 2
  | .semacq port => port < 2
  | .semrel port => port < 2
  | .semaphoreLoss port => port < 2
  | .jobstart port _ => port < 2
  | .jobstop port _ => port < 2
  | .jobresume port _ => port < 2
  | .jobremove port _ => port < 2
  | .graphstart port _ => port < 2
  | .tlbinv port _ _ _ => port < 2
  | .doorbell port _ => port < 2
  | .setpkg port _ => port < 2
  | .routewr port _ _ => port < 2
  | .treewr port _ _ => port < 2
  | .rateset port _ _ => port < 2
  | .fwload port _ _ => port < 2
  | .linkretrain port _ => port < 2
  | .stackretire port _ => port < 2
  | .dieoff port _ _ => port < 2
  | .dieon port _ => port < 2
  | .attest port _ => port < 2
  | .powercap port _ => port < 2
  | .sbresolve port _ => port < 2
  | .sbresolveTimeout stk => stk < 8
  | .sblist port _ _ => port < 2
  | .sbdecide port _ _ _ _ => port < 2
  | .sblost port _ => port < 2
  | .partJoin part => part.ok
  | .thermalThrottle die => die < 4
  | .thermalShutdown die => die < 4
  | .variableLatencyResult e h _ => isCore e && h < 11
  | .barrierWaitRequest p => p.ok
  | .gwaitQueryRepeat e h => isCore e && h < 11
  | .linkRetrainDone l => l < 16
  | .add .. | .sub .. | .andr .. | .orr .. | .xorr .. | .andn .. | .sll .. | .srl ..
  | .sra .. | .slt .. | .sltu .. | .min .. | .max .. | .minu .. | .maxu .. | .sel ..
  | .addi .. | .andi .. | .ori .. | .xori .. | .slli .. | .srli .. | .srai .. | .slti ..
  | .mul .. | .mulh .. | .mulhu .. | .div .. | .divu .. | .rem .. | .remu .. | .clz ..
  | .ctz .. | .popc .. | .bswap .. | .lis .. | .lik .. | .cmov .. | .cinc .. | .cseta ..
  | .csetb .. | .csetbx .. | .candp .. | .cgeta .. | .cgetb .. | .cgett .. | .cgetp .. | .cgettag ..
  | .cclrtag .. | .csub .. | .ctest .. | .cinci .. | .csetbi .. | .beq .. | .bne .. | .blt ..
  | .bge .. | .ble .. | .bgt .. | .btag .. | .bntag .. | .j .. | .call .. | .jr ..
  | .callr .. | .ret .. | .lexit .. | .loop .. | .aaddD .. | .aandD .. | .aorD .. | .axorD ..
  | .aminD .. | .amaxD .. | .aminuD .. | .amaxuD .. | .aswapD .. | .acasD .. | .afaddD .. | .aaddW ..
  | .aandW .. | .aorW .. | .axorW .. | .aminW .. | .amaxW .. | .aminuW .. | .amaxuW .. | .aswapW ..
  | .acasW .. | .afaddW .. | .afaddbf .. | .fencer .. | .clean .. | .inval .. | .waitj .. | .pollj ..
  | .sleep .. | .yield .. | .vld .. | .vst .. | .vlds .. | .vsts .. | .vldx .. | .vstx ..
  | .vldt .. | .vstt .. | .sbind .. | .sunbind .. | .vldb .. | .tpred .. | .tvclr .. | .tvset ..
  | .thdr .. | .gath .. | .scat .. | .gathst .. | .vsort .. | .vsortx .. | .vbstep .. | .vtopk ..
  | .vmergek .. | .vrank .. | .occfg .. | .ocemit .. | .ocemiti .. | .ocacc .. | .ocrst .. | .ocgw ..
  | .ocga .. | .ocgf .. | .mop .. | .msqd .. | .accrd .. | .accz .. | .mdrain .. | .mnmb ..
  | .cpy .. | .cpy2d .. | .cpyq .. | .cpyx .. | .tbegin .. | .trec .. | .trecb .. | .tend ..
  | .tplay .. | .tpopb .. | .send .. | .tenq .. | .rfork .. | .join .. | .tbind .. | .tunbind ..
  | .tfire .. | .chopen .. | .chclose .. | .chsend .. | .chrecv .. | .exit .. | .hstart .. | .hstop ..
  | .hstat .. | .bari .. | .bara .. | .barad .. | .barw .. | .baraw .. | .rld .. | .rst ..
  | .ramo .. | .gst .. | .gcommit .. | .gabort .. | .gcstat .. | .gwait .. | .nred .. | .nredw ..
  | .srd .. | .swr .. | .trap .. | .eret .. | .brk .. | .time .. | .halt .. | .cancel ..
  | .vmovs .. | .vmovx .. | .vins .. | .mset .. | .mget .. | .gset .. | .gget .. | .oset ..
  | .oget .. | .bmany .. | .bmnone .. | .bmall .. | .bgds .. | .bgdc .. | .vadd .. | .vsub ..
  | .vmul .. | .vmulh .. | .vfma .. | .vfms .. | .vmin .. | .vmax .. | .vand .. | .vor ..
  | .vxor .. | .vandn .. | .vsll .. | .vsrl .. | .vsra .. | .vrol .. | .vceq .. | .vcne ..
  | .vclt .. | .vcle .. | .vcvt .. | .vcvts .. | .vpack .. | .vunpk .. | .vperm .. | .vshuf ..
  | .vsldu .. | .vsldd .. | .vrsum .. | .vrmax .. | .vrmin .. | .vramax .. | .vmrg .. | .vcmpr ..
  | .vabs .. | .vneg .. | .vdiv .. | .vsqrt .. | .vexp2 .. | .vlog2 .. | .vdot4 .. | .vsad ..
  | .viota .. | .vmcnt .. | .vclz .. | .vpopc .. | .vscl .. | .vmov .. | .addShort .. | .subShort ..
  | .andShort .. | .orShort .. | .xorShort .. | .cmovShort .. | .addiShort .. | .slliShort .. | .srliShort .. | .sraiShort ..
  | .lisShort .. | .cinciShort .. | .ldDShort .. | .stDShort .. | .ldWShort .. | .stWShort .. | .ldDC2Short .. | .stDC2Short ..
  | .ldCC2Short .. | .stCC2Short .. | .beqShort .. | .bneShort .. | .jShort .. | .retShort .. | .callrShort .. | .vaddShort ..
  | .vmulShort .. | .vmovShort .. | .yieldShort .. | .waitjShort .. | .exitShort .. | .loopShort .. | .launchOpen .. | .phaseBarrier ..
  | .bureauRun .. | .sliceExpiry .. | .gangDrain .. | .gangSave .. | .commitHandover .. | .prepareTimeout .. | .nodeTimeout .. | .e2eTimer ..
  | .powerOn | .reducedService | .unallocatedWord .. => true

end Sys2Proof
end

