-- ==== Sys2Proof/Decode.lean ====
section
/-! DEFINITION. From bytes to an instruction and back (R72 to R89). A 32-bit word is cut once into the fields of R
format; the other formats of R75 regroup the same fields, and a register field is checked against its file (R77). -/

namespace Sys2Proof

noncomputable section

/-- Sign extension of an `n`-bit number to an integer. -/
def sextNat (n x : Nat) : Int := if x < 2 ^ (n - 1) then (x : Int) else (x : Int) - (2 ^ n : Nat)

/-- Two's complement of an integer in `n` bits. -/
def utrunc (n : Nat) (x : Int) : Nat := (x % ((2 ^ n : Nat) : Int)).toNat

/-- The fields of a 32-bit word, cut as R format cuts it (R75). -/
structure Fields where
  s  : Nat
  op : Nat
  d  : Nat
  a  : Nat
  b  : Nat
  f  : Nat
deriving DecidableEq, Repr

/-- The fields of a word. -/
def split32 (w : Nat) : Fields :=
  ⟨w / 2 % 8, w / 16 % 64, w / 1024 % 64, w / 65536 % 64, w / 4194304 % 64, w / 268435456 % 16⟩

/-- The word of some fields (w[0] = 1, R75). -/
def join32 (x : Fields) : Nat :=
  1 + 2 * x.s + 16 * x.op + 1024 * x.d + 65536 * x.a + 4194304 * x.b + 268435456 * x.f

/-- The fields of a 16-bit halfword (R89). -/
structure Short where
  s  : Nat
  op : Nat
  x  : Nat
  y  : Nat
deriving DecidableEq, Repr

/-- The fields of a halfword. -/
def split16 (h : Nat) : Short := ⟨h / 2 % 4, h / 8 % 32, h / 256 % 16, h / 4096 % 16⟩

/-- The halfword of some fields (h[0] = 0, R72). -/
def join16 (x : Short) : Nat := 2 * x.s + 8 * x.op + 256 * x.x + 4096 * x.y

/-- A c register field: 0 to 31 (R77). -/
def c? (n : Nat) : Option (Fin 32) := if h : n < 32 then some ⟨n, h⟩ else none
/-- A guard register field: 0 to 15 (R77). -/
def g? (n : Nat) : Option (Fin 16) := if h : n < 16 then some ⟨n, h⟩ else none
/-- A mask, operand-extension or stream-port field: 0 to 7 (R77). -/
def m? (n : Nat) : Option (Fin 8) := if h : n < 8 then some ⟨n, h⟩ else none
/-- A half selector: 0 or 1 (R122). -/
def h? (n : Nat) : Option (Fin 2) := if h : n < 2 then some ⟨n, h⟩ else none

/-- Whole fields of 2, 3, 4, 5 and 6 bits. -/
def fin4 (n : Nat) : Fin 4 := ⟨n % 4, Nat.mod_lt _ (by decide)⟩
def fin8 (n : Nat) : Fin 8 := ⟨n % 8, Nat.mod_lt _ (by decide)⟩
def fin16 (n : Nat) : Fin 16 := ⟨n % 16, Nat.mod_lt _ (by decide)⟩
def fin32 (n : Nat) : Fin 32 := ⟨n % 32, Nat.mod_lt _ (by decide)⟩
def fin64 (n : Nat) : Fin 64 := ⟨n % 64, Nat.mod_lt _ (by decide)⟩

/-- Immediates (R75). -/
def bv7 (n : Nat) : BitVec 7 := BitVec.ofNat 7 n
def bv8 (n : Nat) : BitVec 8 := BitVec.ofNat 8 n
def bv12 (n : Nat) : BitVec 12 := BitVec.ofNat 12 n
def bv13 (n : Nat) : BitVec 13 := BitVec.ofNat 13 n
def bv16 (n : Nat) : BitVec 16 := BitVec.ofNat 16 n
def bv22 (n : Nat) : BitVec 22 := BitVec.ofNat 22 n
/-- off8 of M format as a signed number, and back (R76). -/
def s8 (n : Nat) : Int := sextNat 8 n
def u8 (x : Int) : Nat := utrunc 8 x

/-- Major 0x00, format R (R85). -/
def maj00 (w : Fields) : Option Instr :=
  match w.f with
  | 0 => do some (.add (fin8 w.s) (← c? w.d) (← c? w.a) (← c? w.b))
  | 1 => do some (.sub (fin8 w.s) (← c? w.d) (← c? w.a) (← c? w.b))
  | 2 => do some (.andr (fin8 w.s) (← c? w.d) (← c? w.a) (← c? w.b))
  | 3 => do some (.orr (fin8 w.s) (← c? w.d) (← c? w.a) (← c? w.b))
  | 4 => do some (.xorr (fin8 w.s) (← c? w.d) (← c? w.a) (← c? w.b))
  | 5 => do some (.andn (fin8 w.s) (← c? w.d) (← c? w.a) (← c? w.b))
  | 6 => do some (.sll (fin8 w.s) (← c? w.d) (← c? w.a) (← c? w.b))
  | 7 => do some (.srl (fin8 w.s) (← c? w.d) (← c? w.a) (← c? w.b))
  | 8 => do some (.sra (fin8 w.s) (← c? w.d) (← c? w.a) (← c? w.b))
  | 9 => do some (.slt (fin8 w.s) (← c? w.d) (← c? w.a) (← c? w.b))
  | 10 => do some (.sltu (fin8 w.s) (← c? w.d) (← c? w.a) (← c? w.b))
  | 11 => do some (.min (fin8 w.s) (← c? w.d) (← c? w.a) (← c? w.b))
  | 12 => do some (.max (fin8 w.s) (← c? w.d) (← c? w.a) (← c? w.b))
  | 13 => do some (.minu (fin8 w.s) (← c? w.d) (← c? w.a) (← c? w.b))
  | 14 => do some (.maxu (fin8 w.s) (← c? w.d) (← c? w.a) (← c? w.b))
  | 15 => do some (.sel (fin8 w.s) (← c? w.d) (← c? w.a) (← c? w.b))
  | _ => none

/-- Major 0x01, format I (R85). -/
def maj01 (w : Fields) : Option Instr :=
  match w.b % 8 with
  | 0 => do some (.addi (fin8 w.s) (← c? w.d) (← c? w.a) (bv7 (w.b / 8 + 8 * w.f)))
  | 1 => do some (.andi (fin8 w.s) (← c? w.d) (← c? w.a) (bv7 (w.b / 8 + 8 * w.f)))
  | 2 => do some (.ori (fin8 w.s) (← c? w.d) (← c? w.a) (bv7 (w.b / 8 + 8 * w.f)))
  | 3 => do some (.xori (fin8 w.s) (← c? w.d) (← c? w.a) (bv7 (w.b / 8 + 8 * w.f)))
  | 4 => do some (.slli (fin8 w.s) (← c? w.d) (← c? w.a) (bv7 (w.b / 8 + 8 * w.f)))
  | 5 => do some (.srli (fin8 w.s) (← c? w.d) (← c? w.a) (bv7 (w.b / 8 + 8 * w.f)))
  | 6 => do some (.srai (fin8 w.s) (← c? w.d) (← c? w.a) (bv7 (w.b / 8 + 8 * w.f)))
  | 7 => do some (.slti (fin8 w.s) (← c? w.d) (← c? w.a) (bv7 (w.b / 8 + 8 * w.f)))
  | _ => none

/-- Major 0x02, format R (R85). -/
def maj02 (w : Fields) : Option Instr :=
  match w.f with
  | 0 => do some (.mul (fin8 w.s) (← c? w.d) (← c? w.a) (← c? w.b))
  | 1 => do some (.mulh (fin8 w.s) (← c? w.d) (← c? w.a) (← c? w.b))
  | 2 => do some (.mulhu (fin8 w.s) (← c? w.d) (← c? w.a) (← c? w.b))
  | 3 => do some (.div (fin8 w.s) (← c? w.d) (← c? w.a) (← c? w.b))
  | 4 => do some (.divu (fin8 w.s) (← c? w.d) (← c? w.a) (← c? w.b))
  | 5 => do some (.rem (fin8 w.s) (← c? w.d) (← c? w.a) (← c? w.b))
  | 6 => do some (.remu (fin8 w.s) (← c? w.d) (← c? w.a) (← c? w.b))
  | 7 => if w.b = 0 then do some (.clz (fin8 w.s) (← c? w.d) (← c? w.a)) else none
  | 8 => if w.b = 0 then do some (.ctz (fin8 w.s) (← c? w.d) (← c? w.a)) else none
  | 9 => if w.b = 0 then do some (.popc (fin8 w.s) (← c? w.d) (← c? w.a)) else none
  | 10 => if w.b = 0 then do some (.bswap (fin8 w.s) (← c? w.d) (← c? w.a)) else none
  | _ => none

/-- Major 0x03, format U (R85). -/
def maj03 (w : Fields) : Option Instr :=
  do some (.lis (fin8 w.s) (← c? w.d) (bv16 (w.a + 64 * w.b + 4096 * w.f)))

/-- Major 0x04, format U (R85). -/
def maj04 (w : Fields) : Option Instr :=
  do some (.lik (fin8 w.s) (← c? w.d) (bv16 (w.a + 64 * w.b + 4096 * w.f)))

/-- Major 0x05, format R (R85). -/
def maj05 (w : Fields) : Option Instr :=
  match w.f with
  | 0 => if w.b = 0 then do some (.cmov (fin8 w.s) (← c? w.d) (← c? w.a)) else none
  | 1 => do some (.cinc (fin8 w.s) (← c? w.d) (← c? w.a) (← c? w.b))
  | 2 => do some (.cseta (fin8 w.s) (← c? w.d) (← c? w.a) (← c? w.b))
  | 3 => do some (.csetb (fin8 w.s) (← c? w.d) (← c? w.a) (← c? w.b))
  | 4 => do some (.csetbx (fin8 w.s) (← c? w.d) (← c? w.a) (← c? w.b))
  | 5 => do some (.candp (fin8 w.s) (← c? w.d) (← c? w.a) (← c? w.b))
  | 6 => do some (.cgeta (fin8 w.s) (← c? w.d) (← c? w.a) (← h? w.b))
  | 7 => do some (.cgetb (fin8 w.s) (← c? w.d) (← c? w.a) (← h? w.b))
  | 8 => do some (.cgett (fin8 w.s) (← c? w.d) (← c? w.a) (← h? w.b))
  | 9 => if w.b = 0 then do some (.cgetp (fin8 w.s) (← c? w.d) (← c? w.a)) else none
  | 10 => if w.b = 0 then do some (.cgettag (fin8 w.s) (← c? w.d) (← c? w.a)) else none
  | 11 => if w.b = 0 then do some (.cclrtag (fin8 w.s) (← c? w.d) (← c? w.a)) else none
  | 12 => do some (.csub (fin8 w.s) (← c? w.d) (← c? w.a) (← c? w.b))
  | 13 => do some (.ctest (fin8 w.s) (← c? w.d) (← c? w.a) (← c? w.b))
  | _ => none

/-- Major 0x06, format I (R85). -/
def maj06 (w : Fields) : Option Instr :=
  match w.b % 8 with
  | 0 => do some (.cinci (fin8 w.s) (← c? w.d) (← c? w.a) (bv7 (w.b / 8 + 8 * w.f)))
  | 1 => do some (.csetbi (fin8 w.s) (← c? w.d) (← c? w.a) (bv7 (w.b / 8 + 8 * w.f)))
  | _ => none

/-- Major 0x07, format B (R85). -/
def maj07 (w : Fields) : Option Instr :=
  match w.a % 8 with
  | 0 => do some (.beq (fin8 w.s) (← c? w.d) (bv13 (w.a / 8 + 8 * w.b + 512 * w.f)))
  | 1 => do some (.bne (fin8 w.s) (← c? w.d) (bv13 (w.a / 8 + 8 * w.b + 512 * w.f)))
  | 2 => do some (.blt (fin8 w.s) (← c? w.d) (bv13 (w.a / 8 + 8 * w.b + 512 * w.f)))
  | 3 => do some (.bge (fin8 w.s) (← c? w.d) (bv13 (w.a / 8 + 8 * w.b + 512 * w.f)))
  | 4 => do some (.ble (fin8 w.s) (← c? w.d) (bv13 (w.a / 8 + 8 * w.b + 512 * w.f)))
  | 5 => do some (.bgt (fin8 w.s) (← c? w.d) (bv13 (w.a / 8 + 8 * w.b + 512 * w.f)))
  | 6 => do some (.btag (fin8 w.s) (← c? w.d) (bv13 (w.a / 8 + 8 * w.b + 512 * w.f)))
  | 7 => do some (.bntag (fin8 w.s) (← c? w.d) (bv13 (w.a / 8 + 8 * w.b + 512 * w.f)))
  | _ => none

/-- Major 0x08, format J (R85). -/
def maj08 (w : Fields) : Option Instr :=
  some (.j (fin8 w.s) (bv22 (w.d + 64 * w.a + 4096 * w.b + 262144 * w.f)))

/-- Major 0x09, format J (R85). -/
def maj09 (w : Fields) : Option Instr :=
  some (.call (fin8 w.s) (bv22 (w.d + 64 * w.a + 4096 * w.b + 262144 * w.f)))

/-- Major 0x0A, format R (R85). -/
def maj0A (w : Fields) : Option Instr :=
  match w.f with
  | 0 => if w.d = 0 ∧ w.b = 0 then do some (.jr (fin8 w.s) (← c? w.a)) else none
  | 1 => if w.b = 0 then do some (.callr (fin8 w.s) (← c? w.d) (← c? w.a)) else none
  | 2 => if w.d = 0 ∧ w.b = 0 then do some (.ret (fin8 w.s) (← c? w.a)) else none
  | 3 => if w.d = 0 ∧ w.b = 0 then do some (.lexit (fin8 w.s) (← c? w.a)) else none
  | _ => none

/-- Major 0x0B, format L (R85). -/
def maj0B (w : Fields) : Option Instr :=
  if w.a < 8 ∧ w.b = 0 ∧ w.f = 0 then do some (.loop (fin8 w.s) (← c? w.d) (fin8 w.a)) else none

/-- Major 0x0C, format M (R85). -/
def maj0C (w : Fields) : Option Instr :=
  match w.a / 32 + 2 * (w.b % 4) with
  | 0 => do some (.ldB (fin8 w.s) (← c? w.d) (fin32 w.a) (s8 (w.b / 4 + 16 * w.f)))
  | 1 => do some (.ldBu (fin8 w.s) (← c? w.d) (fin32 w.a) (s8 (w.b / 4 + 16 * w.f)))
  | 2 => do some (.ldH (fin8 w.s) (← c? w.d) (fin32 w.a) (s8 (w.b / 4 + 16 * w.f)))
  | 3 => do some (.ldHu (fin8 w.s) (← c? w.d) (fin32 w.a) (s8 (w.b / 4 + 16 * w.f)))
  | 4 => do some (.ldW (fin8 w.s) (← c? w.d) (fin32 w.a) (s8 (w.b / 4 + 16 * w.f)))
  | 5 => do some (.ldWu (fin8 w.s) (← c? w.d) (fin32 w.a) (s8 (w.b / 4 + 16 * w.f)))
  | 6 => do some (.ldD (fin8 w.s) (← c? w.d) (fin32 w.a) (s8 (w.b / 4 + 16 * w.f)))
  | 7 => do some (.ldC (fin8 w.s) (← c? w.d) (fin32 w.a) (s8 (w.b / 4 + 16 * w.f)))
  | _ => none

/-- Major 0x0D, format M (R85). -/
def maj0D (w : Fields) : Option Instr :=
  match w.a / 32 + 2 * (w.b % 4) with
  | 0 => do some (.stB (fin8 w.s) (← c? w.d) (fin32 w.a) (s8 (w.b / 4 + 16 * w.f)))
  | 2 => do some (.stH (fin8 w.s) (← c? w.d) (fin32 w.a) (s8 (w.b / 4 + 16 * w.f)))
  | 4 => do some (.stW (fin8 w.s) (← c? w.d) (fin32 w.a) (s8 (w.b / 4 + 16 * w.f)))
  | 6 => do some (.stD (fin8 w.s) (← c? w.d) (fin32 w.a) (s8 (w.b / 4 + 16 * w.f)))
  | 7 => do some (.stC (fin8 w.s) (← c? w.d) (fin32 w.a) (s8 (w.b / 4 + 16 * w.f)))
  | _ => none

/-- Major 0x0E, format R (R85). -/
def maj0E (w : Fields) : Option Instr :=
  match w.f with
  | 0 => do some (.aaddD (fin8 w.s) (← c? w.d) (← c? w.a) (← c? w.b))
  | 1 => do some (.aandD (fin8 w.s) (← c? w.d) (← c? w.a) (← c? w.b))
  | 2 => do some (.aorD (fin8 w.s) (← c? w.d) (← c? w.a) (← c? w.b))
  | 3 => do some (.axorD (fin8 w.s) (← c? w.d) (← c? w.a) (← c? w.b))
  | 4 => do some (.aminD (fin8 w.s) (← c? w.d) (← c? w.a) (← c? w.b))
  | 5 => do some (.amaxD (fin8 w.s) (← c? w.d) (← c? w.a) (← c? w.b))
  | 6 => do some (.aminuD (fin8 w.s) (← c? w.d) (← c? w.a) (← c? w.b))
  | 7 => do some (.amaxuD (fin8 w.s) (← c? w.d) (← c? w.a) (← c? w.b))
  | 8 => do some (.aswapD (fin8 w.s) (← c? w.d) (← c? w.a) (← c? w.b))
  | 9 => do some (.acasD (fin8 w.s) (← c? w.d) (← c? w.a) (← c? w.b))
  | 10 => do some (.afaddD (fin8 w.s) (← c? w.d) (← c? w.a) (← c? w.b))
  | _ => none

/-- Major 0x0F, format R (R85). -/
def maj0F (w : Fields) : Option Instr :=
  match w.f with
  | 0 => do some (.aaddW (fin8 w.s) (← c? w.d) (← c? w.a) (← c? w.b))
  | 1 => do some (.aandW (fin8 w.s) (← c? w.d) (← c? w.a) (← c? w.b))
  | 2 => do some (.aorW (fin8 w.s) (← c? w.d) (← c? w.a) (← c? w.b))
  | 3 => do some (.axorW (fin8 w.s) (← c? w.d) (← c? w.a) (← c? w.b))
  | 4 => do some (.aminW (fin8 w.s) (← c? w.d) (← c? w.a) (← c? w.b))
  | 5 => do some (.amaxW (fin8 w.s) (← c? w.d) (← c? w.a) (← c? w.b))
  | 6 => do some (.aminuW (fin8 w.s) (← c? w.d) (← c? w.a) (← c? w.b))
  | 7 => do some (.amaxuW (fin8 w.s) (← c? w.d) (← c? w.a) (← c? w.b))
  | 8 => do some (.aswapW (fin8 w.s) (← c? w.d) (← c? w.a) (← c? w.b))
  | 9 => do some (.acasW (fin8 w.s) (← c? w.d) (← c? w.a) (← c? w.b))
  | 10 => do some (.afaddW (fin8 w.s) (← c? w.d) (← c? w.a) (← c? w.b))
  | 11 => do some (.afaddbf (fin8 w.s) (← c? w.d) (← c? w.a) (← c? w.b))
  | _ => none

/-- Major 0x10, format R (R85). -/
def maj10 (w : Fields) : Option Instr :=
  match w.f with
  | 0 => if w.d = 0 ∧ w.a = 0 then some (.fence (fin8 w.s) w.b) else none
  | 1 => if w.a = 0 ∧ w.b = 0 then do some (.fencer (fin8 w.s) (← c? w.d)) else none
  | 2 => if w.d = 0 then do some (.clean (fin8 w.s) (← c? w.a) (← c? w.b)) else none
  | 3 => if w.d = 0 then do some (.inval (fin8 w.s) (← c? w.a) (← c? w.b)) else none
  | 4 => if w.b = 0 then do some (.waitj (fin8 w.s) (← c? w.d) (← c? w.a)) else none
  | 5 => if w.b = 0 then do some (.pollj (fin8 w.s) (← c? w.d) (← c? w.a)) else none
  | 6 => if w.d = 0 ∧ w.b = 0 then do some (.sleep (fin8 w.s) (← c? w.a)) else none
  | 7 => if w.d = 0 ∧ w.a = 0 ∧ w.b = 0 then some (.yield (fin8 w.s)) else none
  | _ => none

/-- Major 0x11, format R (R85). -/
def maj11 (w : Fields) : Option Instr :=
  match w.f with
  | 0 => if w.b = 0 then do some (.vld (fin8 w.s) (fin64 w.d) (← c? w.a)) else none
  | 1 => if w.b = 0 then do some (.vst (fin8 w.s) (fin64 w.d) (← c? w.a)) else none
  | 2 => do some (.vlds (fin8 w.s) (fin64 w.d) (← c? w.a) (← c? w.b))
  | 3 => do some (.vsts (fin8 w.s) (fin64 w.d) (← c? w.a) (← c? w.b))
  | 4 => do some (.vldx (fin8 w.s) (fin64 w.d) (← c? w.a) (fin64 w.b))
  | 5 => do some (.vstx (fin8 w.s) (fin64 w.d) (← c? w.a) (fin64 w.b))
  | 6 => do some (.vldt (fin8 w.s) (fin64 w.d) (← c? w.a) (← c? w.b))
  | 7 => do some (.vstt (fin8 w.s) (fin64 w.d) (← c? w.a) (← c? w.b))
  | 8 => do some (.sbind (fin8 w.s) (← m? w.d) (← c? w.a) (← c? w.b))
  | 9 => if w.a = 0 ∧ w.b = 0 then do some (.sunbind (fin8 w.s) (← m? w.d)) else none
  | 10 => do some (.vldb (fin8 w.s) (fin64 w.d) (← c? w.a) (← c? w.b))
  | _ => none

/-- Major 0x12, format R (R85). -/
def maj12 (w : Fields) : Option Instr :=
  match w.f with
  | 0 => do some (.tpred (fin8 w.s) (← g? w.d) (← c? w.a) (← c? w.b))
  | 1 => if w.d = 0 then do some (.tvclr (fin8 w.s) (← c? w.a) (← c? w.b)) else none
  | 2 => if w.d = 0 then do some (.tvset (fin8 w.s) (← c? w.a) (← c? w.b)) else none
  | 3 => if w.d = 0 then do some (.thdr (fin8 w.s) (← c? w.a) (← c? w.b)) else none
  | 4 => do some (.gath (fin8 w.s) (← c? w.d) (← c? w.a) (fin64 w.b))
  | 5 => do some (.scat (fin8 w.s) (← c? w.d) (← c? w.a) (fin64 w.b))
  | 6 => do some (.gathst (fin8 w.s) (← c? w.d) (← c? w.a) (← c? w.b))
  | _ => none

/-- Major 0x13, format R (R85). -/
def maj13 (w : Fields) : Option Instr :=
  match w.f with
  | 0 => some (.vsort (fin8 w.s) (fin64 w.d) (fin64 w.a) (fin64 w.b))
  | 1 => some (.vsortx (fin8 w.s) (fin64 w.d) (fin64 w.a) (fin64 w.b))
  | 2 => some (.vbstep (fin8 w.s) (fin64 w.d) (fin64 w.a) (fin64 w.b))
  | 3 => some (.vtopk (fin8 w.s) (fin64 w.d) (fin64 w.a) (fin64 w.b))
  | 4 => some (.vmergek (fin8 w.s) (fin64 w.d) (fin64 w.a) (fin64 w.b))
  | 5 => if w.b = 0 then some (.vrank (fin8 w.s) (fin64 w.d) (fin64 w.a)) else none
  | _ => none

/-- Major 0x14, format R (R85). -/
def maj14 (w : Fields) : Option Instr :=
  match w.f with
  | 0 => do some (.occfg (fin8 w.s) (← c? w.d) (← c? w.a) (← c? w.b))
  | 1 => if w.b = 0 then do some (.ocemit (fin8 w.s) (← c? w.d) (fin64 w.a)) else none
  | 2 => do some (.ocemiti (fin8 w.s) (← c? w.d) (fin64 w.a) (fin64 w.b))
  | 3 => if w.a = 0 ∧ w.b = 0 then some (.ocacc (fin8 w.s) (fin64 w.d)) else none
  | 4 => if w.a = 0 then do some (.ocstat (fin8 w.s) (← c? w.d) w.b) else none
  | 5 => if w.d = 0 ∧ w.a = 0 ∧ w.b = 0 then some (.ocrst (fin8 w.s)) else none
  | 6 => if w.d = 0 then do some (.ocgw (fin8 w.s) (← c? w.a) (fin64 w.b)) else none
  | 7 => if w.d = 0 then do some (.ocga (fin8 w.s) (← c? w.a) (fin64 w.b)) else none
  | 8 => if w.d = 0 then do some (.ocgf (fin8 w.s) (← c? w.a) (fin64 w.b)) else none
  | _ => none

/-- Major 0x15, format R (R85). -/
def maj15 (w : Fields) : Option Instr :=
  match w.f with
  | 0 => if w.d = 0 ∧ w.a = 0 then some (.mmode (fin8 w.s) w.b) else none
  | 1 => do some (.mop (fin8 w.s) (← c? w.d) (fin64 w.a) (fin64 w.b))
  | 2 => do some (.msqd (fin8 w.s) (← c? w.d) (fin64 w.a) (fin64 w.b))
  | 3 => if w.a = 0 then some (.mtopk (fin8 w.s) (fin64 w.d) w.b) else none
  | 4 => do some (.accrd (fin8 w.s) (fin64 w.d) (← c? w.a) (← c? w.b))
  | 5 => if w.d = 0 ∧ w.a = 0 ∧ w.b = 0 then some (.accz (fin8 w.s)) else none
  | 6 => do some (.mdrain (fin8 w.s) (← c? w.d) (← c? w.a) (← c? w.b))
  | 7 => if w.d = 0 ∧ w.a = 0 then some (.mwait (fin8 w.s) w.b) else none
  | 8 => if w.d = 0 ∧ w.b = 0 then some (.mnmb (fin8 w.s) (fin64 w.a)) else none
  | _ => none

/-- Major 0x16, format R (R85). -/
def maj16 (w : Fields) : Option Instr :=
  match w.f with
  | 0 => do some (.cpy (fin8 w.s) (← c? w.d) (← c? w.a) (← c? w.b))
  | 1 => do some (.cpy2d (fin8 w.s) (← c? w.d) (← c? w.a) (← c? w.b))
  | 2 => do some (.cpyq (fin8 w.s) (← c? w.d) (← c? w.a) (← c? w.b))
  | 3 => do some (.cpyx (fin8 w.s) (← c? w.d) (← c? w.a) (← c? w.b))
  | _ => none

/-- Major 0x17, format R (R85). -/
def maj17 (w : Fields) : Option Instr :=
  match w.f with
  | 0 => if w.d = 0 then do some (.tbegin (fin8 w.s) (← c? w.a) (← c? w.b)) else none
  | 1 => if w.d = 0 ∧ w.b = 0 then do some (.trec (fin8 w.s) (← c? w.a)) else none
  | 2 => if w.d = 0 ∧ w.b = 0 then do some (.trecb (fin8 w.s) (← c? w.a)) else none
  | 3 => if w.d = 0 then some (.trecv (fin8 w.s) (fin64 w.a) w.b) else none
  | 4 => if w.a = 0 ∧ w.b = 0 then do some (.tend (fin8 w.s) (← c? w.d)) else none
  | 5 => if w.d = 0 then do some (.tplay (fin8 w.s) (← c? w.a) (← c? w.b)) else none
  | 6 => if w.a = 0 then do some (.tpop (fin8 w.s) (← c? w.d) w.b) else none
  | 7 => if w.a = 0 ∧ w.b = 0 then do some (.tpopb (fin8 w.s) (← c? w.d)) else none
  | 8 => if w.a = 0 then some (.tpopv (fin8 w.s) (fin64 w.d) w.b) else none
  | 9 => if w.a = 0 then do some (.tstat (fin8 w.s) (← c? w.d) w.b) else none
  | _ => none

/-- Major 0x18, format R (R85). -/
def maj18 (w : Fields) : Option Instr :=
  match w.f with
  | 0 => do some (.send (fin8 w.s) (← c? w.d) (← c? w.a) (← c? w.b))
  | 1 => do some (.tenq (fin8 w.s) (← c? w.d) (← c? w.a) (← c? w.b))
  | 2 => do some (.rfork (fin8 w.s) (← c? w.d) (← c? w.a) (← c? w.b))
  | 3 => if w.d = 0 ∧ w.b = 0 then do some (.join (fin8 w.s) (← c? w.a)) else none
  | 4 => do some (.tbind (fin8 w.s) (← c? w.d) (← c? w.a) (← c? w.b))
  | 5 => if w.b = 0 then do some (.tunbind (fin8 w.s) (← c? w.d) (← c? w.a)) else none
  | 6 => do some (.tfire (fin8 w.s) (← c? w.d) (← c? w.a) (← c? w.b))
  | 7 => do some (.chopen (fin8 w.s) (← c? w.d) (← c? w.a) (← c? w.b))
  | 8 => if w.d = 0 ∧ w.b = 0 then do some (.chclose (fin8 w.s) (← c? w.a)) else none
  | 9 => do some (.chsend (fin8 w.s) (← c? w.d) (← c? w.a) (← c? w.b))
  | 10 => do some (.chrecv (fin8 w.s) (← c? w.d) (← c? w.a) (← c? w.b))
  | 11 => if w.d = 0 ∧ w.a = 0 ∧ w.b = 0 then some (.exit (fin8 w.s)) else none
  | _ => none

/-- Major 0x19, format R (R85). -/
def maj19 (w : Fields) : Option Instr :=
  match w.f with
  | 0 => do some (.hstart (fin8 w.s) (← c? w.d) (← c? w.a) (← c? w.b))
  | 1 => if w.d = 0 ∧ w.b = 0 then do some (.hstop (fin8 w.s) (← c? w.a)) else none
  | 2 => do some (.hstat (fin8 w.s) (← c? w.d) (← c? w.a) (← c? w.b))
  | 3 => if w.d = 0 then do some (.bari (fin8 w.s) (← c? w.a) (← c? w.b)) else none
  | 4 => do some (.bara (fin8 w.s) (← c? w.d) (← c? w.a) (← c? w.b))
  | 5 => do some (.barad (fin8 w.s) (← c? w.d) (← c? w.a) (← c? w.b))
  | 6 => do some (.barw (fin8 w.s) (← c? w.d) (← c? w.a) (← c? w.b))
  | 7 => do some (.baraw (fin8 w.s) (← c? w.d) (← c? w.a) (← c? w.b))
  | _ => none

/-- Major 0x1A, format R (R85). -/
def maj1A (w : Fields) : Option Instr :=
  match w.f with
  | 0 => do some (.rld (fin8 w.s) (← c? w.d) (← c? w.a) (← c? w.b))
  | 1 => do some (.rst (fin8 w.s) (← c? w.d) (← c? w.a) (← c? w.b))
  | 2 => do some (.ramo (fin8 w.s) (← c? w.d) (← c? w.a) (← c? w.b))
  | 3 => do some (.gst (fin8 w.s) (← c? w.d) (← c? w.a) (← c? w.b))
  | 4 => if w.b = 0 then do some (.gcommit (fin8 w.s) (← c? w.d) (← c? w.a)) else none
  | 5 => if w.d = 0 ∧ w.b = 0 then do some (.gabort (fin8 w.s) (← c? w.a)) else none
  | 6 => if w.b = 0 then do some (.gcstat (fin8 w.s) (← c? w.d) (← c? w.a)) else none
  | 7 => if w.b = 0 then do some (.gwait (fin8 w.s) (← c? w.d) (← c? w.a)) else none
  | _ => none

/-- Major 0x1B, format R (R85). -/
def maj1B (w : Fields) : Option Instr :=
  match w.f with
  | 0 => do some (.nred (fin8 w.s) (← c? w.d) (← c? w.a) (fin64 w.b))
  | 1 => if w.b = 0 then do some (.nredw (fin8 w.s) (fin64 w.d) (← c? w.a)) else none
  | _ => none

/-- Major 0x1C, format R (R85). -/
def maj1C (w : Fields) : Option Instr :=
  match w.f with
  | 0 => do some (.srd (fin8 w.s) (← c? w.d) (bv12 (w.a + 64 * w.b)))
  | 1 => do some (.swr (fin8 w.s) (← c? w.d) (bv12 (w.a + 64 * w.b)))
  | 2 => if w.d = 0 then some (.trap (fin8 w.s) (bv12 (w.a + 64 * w.b))) else none
  | 3 => if w.d = 0 ∧ w.a = 0 ∧ w.b = 0 then some (.eret (fin8 w.s)) else none
  | 4 => if w.d = 0 then some (.brk (fin8 w.s) (bv12 (w.a + 64 * w.b))) else none
  | 5 => if w.a = 0 ∧ w.b = 0 then do some (.time (fin8 w.s) (← c? w.d)) else none
  | 6 => if w.d = 0 ∧ w.a = 0 ∧ w.b = 0 then some (.halt (fin8 w.s)) else none
  | 7 => do some (.cancel (fin8 w.s) (← c? w.d) (← c? w.a) (← c? w.b))
  | _ => none

/-- Major 0x1D, format R (R85). -/
def maj1D (w : Fields) : Option Instr :=
  match w.f with
  | 0 => do some (.vmovs (fin8 w.s) (← c? w.d) (fin64 w.a) (← c? w.b))
  | 1 => if w.b = 0 then do some (.vmovx (fin8 w.s) (fin64 w.d) (← c? w.a)) else none
  | 2 => do some (.vins (fin8 w.s) (fin64 w.d) (← c? w.a) (← c? w.b))
  | 3 => if w.b = 0 then do some (.mset (fin8 w.s) (← m? w.d) (← c? w.a)) else none
  | 4 => if w.b = 0 then do some (.mget (fin8 w.s) (← c? w.d) (← m? w.a)) else none
  | 5 => if w.b = 0 then do some (.gset (fin8 w.s) (← g? w.d) (← c? w.a)) else none
  | 6 => if w.b = 0 then do some (.gget (fin8 w.s) (← c? w.d) (← g? w.a)) else none
  | 7 => if w.b = 0 then do some (.oset (fin8 w.s) (← m? w.d) (← c? w.a)) else none
  | 8 => if w.b = 0 then do some (.oget (fin8 w.s) (← c? w.d) (← m? w.a)) else none
  | _ => none

/-- Major 0x1E, format B (R85). -/
def maj1E (w : Fields) : Option Instr :=
  match w.a % 8 with
  | 0 => do some (.bmany (fin8 w.s) (← m? w.d) (bv13 (w.a / 8 + 8 * w.b + 512 * w.f)))
  | 1 => do some (.bmnone (fin8 w.s) (← m? w.d) (bv13 (w.a / 8 + 8 * w.b + 512 * w.f)))
  | 2 => do some (.bmall (fin8 w.s) (← m? w.d) (bv13 (w.a / 8 + 8 * w.b + 512 * w.f)))
  | 3 => do some (.bgds (fin8 w.s) (← g? w.d) (bv13 (w.a / 8 + 8 * w.b + 512 * w.f)))
  | 4 => do some (.bgdc (fin8 w.s) (← g? w.d) (bv13 (w.a / 8 + 8 * w.b + 512 * w.f)))
  | _ => none

/-- Major 0x20, format V (R86). -/
def maj20 (w : Fields) : Option Instr :=
  match w.f / 8 with
  | 0 => some (.vadd (fin8 w.s) (fin64 w.d) (fin64 w.a) (fin64 w.b) (fin8 w.f))
  | 1 => some (.vsub (fin8 w.s) (fin64 w.d) (fin64 w.a) (fin64 w.b) (fin8 w.f))
  | _ => none

/-- Major 0x21, format V (R86). -/
def maj21 (w : Fields) : Option Instr :=
  match w.f / 8 with
  | 0 => some (.vmul (fin8 w.s) (fin64 w.d) (fin64 w.a) (fin64 w.b) (fin8 w.f))
  | 1 => some (.vmulh (fin8 w.s) (fin64 w.d) (fin64 w.a) (fin64 w.b) (fin8 w.f))
  | _ => none

/-- Major 0x22, format V (R86). -/
def maj22 (w : Fields) : Option Instr :=
  match w.f / 8 with
  | 0 => some (.vfma (fin8 w.s) (fin64 w.d) (fin64 w.a) (fin64 w.b) (fin8 w.f))
  | 1 => some (.vfms (fin8 w.s) (fin64 w.d) (fin64 w.a) (fin64 w.b) (fin8 w.f))
  | _ => none

/-- Major 0x23, format V (R86). -/
def maj23 (w : Fields) : Option Instr :=
  match w.f / 8 with
  | 0 => some (.vmin (fin8 w.s) (fin64 w.d) (fin64 w.a) (fin64 w.b) (fin8 w.f))
  | 1 => some (.vmax (fin8 w.s) (fin64 w.d) (fin64 w.a) (fin64 w.b) (fin8 w.f))
  | _ => none

/-- Major 0x24, format V (R86). -/
def maj24 (w : Fields) : Option Instr :=
  match w.f / 8 with
  | 0 => some (.vand (fin8 w.s) (fin64 w.d) (fin64 w.a) (fin64 w.b) (fin8 w.f))
  | 1 => some (.vor (fin8 w.s) (fin64 w.d) (fin64 w.a) (fin64 w.b) (fin8 w.f))
  | _ => none

/-- Major 0x25, format V (R86). -/
def maj25 (w : Fields) : Option Instr :=
  match w.f / 8 with
  | 0 => some (.vxor (fin8 w.s) (fin64 w.d) (fin64 w.a) (fin64 w.b) (fin8 w.f))
  | 1 => some (.vandn (fin8 w.s) (fin64 w.d) (fin64 w.a) (fin64 w.b) (fin8 w.f))
  | _ => none

/-- Major 0x26, format V (R86). -/
def maj26 (w : Fields) : Option Instr :=
  match w.f / 8 with
  | 0 => some (.vsll (fin8 w.s) (fin64 w.d) (fin64 w.a) (fin64 w.b) (fin8 w.f))
  | 1 => some (.vsrl (fin8 w.s) (fin64 w.d) (fin64 w.a) (fin64 w.b) (fin8 w.f))
  | _ => none

/-- Major 0x27, format V (R86). -/
def maj27 (w : Fields) : Option Instr :=
  match w.f / 8 with
  | 0 => some (.vsra (fin8 w.s) (fin64 w.d) (fin64 w.a) (fin64 w.b) (fin8 w.f))
  | 1 => some (.vrol (fin8 w.s) (fin64 w.d) (fin64 w.a) (fin64 w.b) (fin8 w.f))
  | _ => none

/-- Major 0x28, format V (R86). -/
def maj28 (w : Fields) : Option Instr :=
  match w.f / 8 with
  | 0 => do some (.vceq (fin8 w.s) (← m? w.d) (fin64 w.a) (fin64 w.b) (fin8 w.f))
  | 1 => do some (.vcne (fin8 w.s) (← m? w.d) (fin64 w.a) (fin64 w.b) (fin8 w.f))
  | _ => none

/-- Major 0x29, format V (R86). -/
def maj29 (w : Fields) : Option Instr :=
  match w.f / 8 with
  | 0 => do some (.vclt (fin8 w.s) (← m? w.d) (fin64 w.a) (fin64 w.b) (fin8 w.f))
  | 1 => do some (.vcle (fin8 w.s) (← m? w.d) (fin64 w.a) (fin64 w.b) (fin8 w.f))
  | _ => none

/-- Major 0x2A, format V (R86). -/
def maj2A (w : Fields) : Option Instr :=
  match w.f / 8 with
  | 0 => if w.b = 0 then some (.vcvt (fin8 w.s) (fin64 w.d) (fin64 w.a) (fin8 w.f)) else none
  | 1 => some (.vcvts (fin8 w.s) (fin64 w.d) (fin64 w.a) (fin64 w.b) (fin8 w.f))
  | _ => none

/-- Major 0x2B, format V (R86). -/
def maj2B (w : Fields) : Option Instr :=
  match w.f / 8 with
  | 0 => if w.f % 8 = 0 then some (.vpack (fin8 w.s) (fin64 w.d) (fin64 w.a) (fin64 w.b)) else none
  | 1 => if w.f % 8 = 0 then some (.vunpk (fin8 w.s) (fin64 w.d) (fin64 w.a) (fin64 w.b)) else none
  | _ => none

/-- Major 0x2C, format V (R86). -/
def maj2C (w : Fields) : Option Instr :=
  match w.f / 8 with
  | 0 => some (.vperm (fin8 w.s) (fin64 w.d) (fin64 w.a) (fin64 w.b) (fin8 w.f))
  | 1 => some (.vshuf (fin8 w.s) (fin64 w.d) (fin64 w.a) (fin64 w.b) (fin8 w.f))
  | _ => none

/-- Major 0x2D, format V (R86). -/
def maj2D (w : Fields) : Option Instr :=
  match w.f / 8 with
  | 0 => some (.vsldu (fin8 w.s) (fin64 w.d) (fin64 w.a) (fin64 w.b) (fin8 w.f))
  | 1 => some (.vsldd (fin8 w.s) (fin64 w.d) (fin64 w.a) (fin64 w.b) (fin8 w.f))
  | _ => none

/-- Major 0x2E, format V (R86). -/
def maj2E (w : Fields) : Option Instr :=
  match w.f / 8 with
  | 0 => some (.vrsum (fin8 w.s) (fin64 w.d) (fin64 w.a) (fin64 w.b) (fin8 w.f))
  | 1 => some (.vrmax (fin8 w.s) (fin64 w.d) (fin64 w.a) (fin64 w.b) (fin8 w.f))
  | _ => none

/-- Major 0x2F, format V (R86). -/
def maj2F (w : Fields) : Option Instr :=
  match w.f / 8 with
  | 0 => some (.vrmin (fin8 w.s) (fin64 w.d) (fin64 w.a) (fin64 w.b) (fin8 w.f))
  | 1 => some (.vramax (fin8 w.s) (fin64 w.d) (fin64 w.a) (fin64 w.b) (fin8 w.f))
  | _ => none

/-- Major 0x30, format V (R86). -/
def maj30 (w : Fields) : Option Instr :=
  match w.f / 8 with
  | 0 => some (.vmrg (fin8 w.s) (fin64 w.d) (fin64 w.a) (fin64 w.b) (fin8 w.f))
  | 1 => if w.b = 0 then some (.vcmpr (fin8 w.s) (fin64 w.d) (fin64 w.a) (fin8 w.f)) else none
  | _ => none

/-- Major 0x31, format V (R86). -/
def maj31 (w : Fields) : Option Instr :=
  match w.f / 8 with
  | 0 => if w.b = 0 then some (.vabs (fin8 w.s) (fin64 w.d) (fin64 w.a) (fin8 w.f)) else none
  | 1 => if w.b = 0 then some (.vneg (fin8 w.s) (fin64 w.d) (fin64 w.a) (fin8 w.f)) else none
  | _ => none

/-- Major 0x32, format V (R86). -/
def maj32 (w : Fields) : Option Instr :=
  match w.f / 8 with
  | 0 => some (.vdiv (fin8 w.s) (fin64 w.d) (fin64 w.a) (fin64 w.b) (fin8 w.f))
  | 1 => if w.b = 0 then some (.vsqrt (fin8 w.s) (fin64 w.d) (fin64 w.a) (fin8 w.f)) else none
  | _ => none

/-- Major 0x33, format V (R86). -/
def maj33 (w : Fields) : Option Instr :=
  match w.f / 8 with
  | 0 => if w.b = 0 then some (.vexp2 (fin8 w.s) (fin64 w.d) (fin64 w.a) (fin8 w.f)) else none
  | 1 => if w.b = 0 then some (.vlog2 (fin8 w.s) (fin64 w.d) (fin64 w.a) (fin8 w.f)) else none
  | _ => none

/-- Major 0x34, format V (R86). -/
def maj34 (w : Fields) : Option Instr :=
  match w.f / 8 with
  | 0 => some (.vdot4 (fin8 w.s) (fin64 w.d) (fin64 w.a) (fin64 w.b) (fin8 w.f))
  | 1 => some (.vsad (fin8 w.s) (fin64 w.d) (fin64 w.a) (fin64 w.b) (fin8 w.f))
  | _ => none

/-- Major 0x35, format V (R86). -/
def maj35 (w : Fields) : Option Instr :=
  match w.f / 8 with
  | 0 => if w.a = 0 ∧ w.b = 0 then some (.viota (fin8 w.s) (fin64 w.d) (fin8 w.f)) else none
  | 1 => if w.a = 0 ∧ w.b = 0 then some (.vmcnt (fin8 w.s) (fin64 w.d) (fin8 w.f)) else none
  | _ => none

/-- Major 0x36, format V (R86). -/
def maj36 (w : Fields) : Option Instr :=
  match w.f / 8 with
  | 0 => if w.b = 0 then some (.vclz (fin8 w.s) (fin64 w.d) (fin64 w.a) (fin8 w.f)) else none
  | 1 => if w.b = 0 then some (.vpopc (fin8 w.s) (fin64 w.d) (fin64 w.a) (fin8 w.f)) else none
  | _ => none

/-- Major 0x37, format V (R86). -/
def maj37 (w : Fields) : Option Instr :=
  match w.f / 8 with
  | 0 => some (.vscl (fin8 w.s) (fin64 w.d) (fin64 w.a) (fin64 w.b) (fin8 w.f))
  | 1 => if w.b = 0 then some (.vmov (fin8 w.s) (fin64 w.d) (fin64 w.a) (fin8 w.f)) else none
  | _ => none

/-- A 32-bit instruction from its fields; every word R85 and R86 do not allocate gives none (R87). -/
def decodeFields (w : Fields) : Option Instr :=
  match w.op with
  | 0x00 => maj00 w
  | 0x01 => maj01 w
  | 0x02 => maj02 w
  | 0x03 => maj03 w
  | 0x04 => maj04 w
  | 0x05 => maj05 w
  | 0x06 => maj06 w
  | 0x07 => maj07 w
  | 0x08 => maj08 w
  | 0x09 => maj09 w
  | 0x0A => maj0A w
  | 0x0B => maj0B w
  | 0x0C => maj0C w
  | 0x0D => maj0D w
  | 0x0E => maj0E w
  | 0x0F => maj0F w
  | 0x10 => maj10 w
  | 0x11 => maj11 w
  | 0x12 => maj12 w
  | 0x13 => maj13 w
  | 0x14 => maj14 w
  | 0x15 => maj15 w
  | 0x16 => maj16 w
  | 0x17 => maj17 w
  | 0x18 => maj18 w
  | 0x19 => maj19 w
  | 0x1A => maj1A w
  | 0x1B => maj1B w
  | 0x1C => maj1C w
  | 0x1D => maj1D w
  | 0x1E => maj1E w
  | 0x20 => maj20 w
  | 0x21 => maj21 w
  | 0x22 => maj22 w
  | 0x23 => maj23 w
  | 0x24 => maj24 w
  | 0x25 => maj25 w
  | 0x26 => maj26 w
  | 0x27 => maj27 w
  | 0x28 => maj28 w
  | 0x29 => maj29 w
  | 0x2A => maj2A w
  | 0x2B => maj2B w
  | 0x2C => maj2C w
  | 0x2D => maj2D w
  | 0x2E => maj2E w
  | 0x2F => maj2F w
  | 0x30 => maj30 w
  | 0x31 => maj31 w
  | 0x32 => maj32 w
  | 0x33 => maj33 w
  | 0x34 => maj34 w
  | 0x35 => maj35 w
  | 0x36 => maj36 w
  | 0x37 => maj37 w
  | _ => none

/-- A short form from its fields (R89). The restriction x ≠ 0 of ADD is checked where it executes. -/
def decodeShort (h : Short) : Option Instr :=
  match h.op with
  | 0x00 => some (.addShort (fin4 h.s) (fin16 h.x) (fin16 h.y))
  | 0x01 => some (.subShort (fin4 h.s) (fin16 h.x) (fin16 h.y))
  | 0x02 => some (.andShort (fin4 h.s) (fin16 h.x) (fin16 h.y))
  | 0x03 => some (.orShort (fin4 h.s) (fin16 h.x) (fin16 h.y))
  | 0x04 => some (.xorShort (fin4 h.s) (fin16 h.x) (fin16 h.y))
  | 0x05 => some (.cmovShort (fin4 h.s) (fin16 h.x) (fin16 h.y))
  | 0x06 => some (.addiShort (fin4 h.s) (fin16 h.x) (fin16 h.y))
  | 0x07 => some (.slliShort (fin4 h.s) (fin16 h.x) (fin16 h.y))
  | 0x08 => some (.srliShort (fin4 h.s) (fin16 h.x) (fin16 h.y))
  | 0x09 => some (.sraiShort (fin4 h.s) (fin16 h.x) (fin16 h.y))
  | 0x0A => some (.lisShort (fin4 h.s) (fin16 h.x) (fin16 h.y))
  | 0x0B => some (.cinciShort (fin4 h.s) (fin16 h.x) (fin16 h.y))
  | 0x0C => some (.ldDShort (fin4 h.s) (fin16 h.x) (fin16 h.y))
  | 0x0D => some (.stDShort (fin4 h.s) (fin16 h.x) (fin16 h.y))
  | 0x0E => some (.ldWShort (fin4 h.s) (fin16 h.x) (fin16 h.y))
  | 0x0F => some (.stWShort (fin4 h.s) (fin16 h.x) (fin16 h.y))
  | 0x10 => some (.ldDC2Short (fin4 h.s) (fin16 h.x) (fin16 h.y))
  | 0x11 => some (.stDC2Short (fin4 h.s) (fin16 h.x) (fin16 h.y))
  | 0x12 => some (.ldCC2Short (fin4 h.s) (fin16 h.x) (fin16 h.y))
  | 0x13 => some (.stCC2Short (fin4 h.s) (fin16 h.x) (fin16 h.y))
  | 0x14 => some (.beqShort (fin4 h.s) (fin16 h.x) (fin16 h.y))
  | 0x15 => some (.bneShort (fin4 h.s) (fin16 h.x) (fin16 h.y))
  | 0x16 => some (.jShort (fin4 h.s) (bv8 (h.x + 16 * h.y)))
  | 0x17 => if h.y = 0 then some (.retShort (fin4 h.s) (fin16 h.x)) else none
  | 0x18 => if h.y = 0 then some (.callrShort (fin4 h.s) (fin16 h.x)) else none
  | 0x19 => some (.vaddShort (fin4 h.s) (fin16 h.x) (fin16 h.y))
  | 0x1A => some (.vmulShort (fin4 h.s) (fin16 h.x) (fin16 h.y))
  | 0x1B => some (.vmovShort (fin4 h.s) (fin16 h.x) (fin16 h.y))
  | 0x1C => if h.x = 0 ∧ h.y = 0 then some (.yieldShort (fin4 h.s)) else none
  | 0x1D => if h.y = 0 then some (.waitjShort (fin4 h.s) (fin16 h.x)) else none
  | 0x1E => if h.x = 0 ∧ h.y = 0 then some (.exitShort (fin4 h.s)) else none
  | 0x1F => if h.y < 8 then some (.loopShort (fin4 h.s) (fin16 h.x) (fin8 h.y)) else none
  | _ => none

/-- A 32-bit word (R72, R85 to R87). -/
def decode32 (w : Nat) : Option Instr := if w % 2 = 1 then decodeFields (split32 w) else none

/-- A halfword (R72, R89). -/
def decode16 (h : Nat) : Option Instr := if h % 2 = 0 then decodeShort (split16 h) else none

/-- Why bytes are no instruction. -/
inductive Reject where
  /-- R87: the word, or a halfword zero-extended, is not allocated. -/
  | unallocated (w : Nat)
  /-- Fewer bytes than the first halfword says the instruction has. -/
  | truncated
deriving DecidableEq, Repr

/-- The little-endian number of some bytes (R72). -/
def leNat : List Byte → Nat
  | [] => 0
  | b :: bs => b.toNat + 256 * leNat bs

/-- The first `n` bytes of a number, least significant first (R72). -/
def leBytes : Nat → Nat → List Byte
  | 0, _ => []
  | n + 1, x => BitVec.ofNat 8 x :: leBytes n (x / 256)

/-- The instruction at the front of some bytes, and the bytes after it (R72). -/
def decode : List Byte → Except Reject (Instr × List Byte)
  | b0 :: b1 :: rest =>
    let h := b0.toNat + 256 * b1.toNat
    if h % 2 = 0 then
      match decode16 h with
      | some i => .ok (i, rest)
      | none => .error (.unallocated h)
    else
      match rest with
      | b2 :: b3 :: rest' =>
        let w := h + 65536 * b2.toNat + 16777216 * b3.toNat
        match decode32 w with
        | some i => .ok (i, rest')
        | none => .error (.unallocated w)
      | _ => .error .truncated
  | _ => .error .truncated

/-- The fields that encode a 32-bit instruction (R75, R85, R86); none for the other steps. -/
def encodeFields (i : Instr) : Option Fields :=
  match i with
  | .add st d a b => some ⟨st.val, 0x00, d.val, a.val, b.val, 0⟩
  | .sub st d a b => some ⟨st.val, 0x00, d.val, a.val, b.val, 1⟩
  | .andr st d a b => some ⟨st.val, 0x00, d.val, a.val, b.val, 2⟩
  | .orr st d a b => some ⟨st.val, 0x00, d.val, a.val, b.val, 3⟩
  | .xorr st d a b => some ⟨st.val, 0x00, d.val, a.val, b.val, 4⟩
  | .andn st d a b => some ⟨st.val, 0x00, d.val, a.val, b.val, 5⟩
  | .sll st d a b => some ⟨st.val, 0x00, d.val, a.val, b.val, 6⟩
  | .srl st d a b => some ⟨st.val, 0x00, d.val, a.val, b.val, 7⟩
  | .sra st d a b => some ⟨st.val, 0x00, d.val, a.val, b.val, 8⟩
  | .slt st d a b => some ⟨st.val, 0x00, d.val, a.val, b.val, 9⟩
  | .sltu st d a b => some ⟨st.val, 0x00, d.val, a.val, b.val, 10⟩
  | .min st d a b => some ⟨st.val, 0x00, d.val, a.val, b.val, 11⟩
  | .max st d a b => some ⟨st.val, 0x00, d.val, a.val, b.val, 12⟩
  | .minu st d a b => some ⟨st.val, 0x00, d.val, a.val, b.val, 13⟩
  | .maxu st d a b => some ⟨st.val, 0x00, d.val, a.val, b.val, 14⟩
  | .sel st d a b => some ⟨st.val, 0x00, d.val, a.val, b.val, 15⟩
  | .addi st d a i => some ⟨st.val, 0x01, d.val, a.val, 0 + 8 * (i.toNat % 8), i.toNat / 8⟩
  | .andi st d a i => some ⟨st.val, 0x01, d.val, a.val, 1 + 8 * (i.toNat % 8), i.toNat / 8⟩
  | .ori st d a i => some ⟨st.val, 0x01, d.val, a.val, 2 + 8 * (i.toNat % 8), i.toNat / 8⟩
  | .xori st d a i => some ⟨st.val, 0x01, d.val, a.val, 3 + 8 * (i.toNat % 8), i.toNat / 8⟩
  | .slli st d a i => some ⟨st.val, 0x01, d.val, a.val, 4 + 8 * (i.toNat % 8), i.toNat / 8⟩
  | .srli st d a i => some ⟨st.val, 0x01, d.val, a.val, 5 + 8 * (i.toNat % 8), i.toNat / 8⟩
  | .srai st d a i => some ⟨st.val, 0x01, d.val, a.val, 6 + 8 * (i.toNat % 8), i.toNat / 8⟩
  | .slti st d a i => some ⟨st.val, 0x01, d.val, a.val, 7 + 8 * (i.toNat % 8), i.toNat / 8⟩
  | .mul st d a b => some ⟨st.val, 0x02, d.val, a.val, b.val, 0⟩
  | .mulh st d a b => some ⟨st.val, 0x02, d.val, a.val, b.val, 1⟩
  | .mulhu st d a b => some ⟨st.val, 0x02, d.val, a.val, b.val, 2⟩
  | .div st d a b => some ⟨st.val, 0x02, d.val, a.val, b.val, 3⟩
  | .divu st d a b => some ⟨st.val, 0x02, d.val, a.val, b.val, 4⟩
  | .rem st d a b => some ⟨st.val, 0x02, d.val, a.val, b.val, 5⟩
  | .remu st d a b => some ⟨st.val, 0x02, d.val, a.val, b.val, 6⟩
  | .clz st d a => some ⟨st.val, 0x02, d.val, a.val, 0, 7⟩
  | .ctz st d a => some ⟨st.val, 0x02, d.val, a.val, 0, 8⟩
  | .popc st d a => some ⟨st.val, 0x02, d.val, a.val, 0, 9⟩
  | .bswap st d a => some ⟨st.val, 0x02, d.val, a.val, 0, 10⟩
  | .lis st d i => some ⟨st.val, 0x03, d.val, i.toNat % 64, i.toNat / 64 % 64, i.toNat / 4096⟩
  | .lik st d i => some ⟨st.val, 0x04, d.val, i.toNat % 64, i.toNat / 64 % 64, i.toNat / 4096⟩
  | .cmov st d a => some ⟨st.val, 0x05, d.val, a.val, 0, 0⟩
  | .cinc st d a b => some ⟨st.val, 0x05, d.val, a.val, b.val, 1⟩
  | .cseta st d a b => some ⟨st.val, 0x05, d.val, a.val, b.val, 2⟩
  | .csetb st d a b => some ⟨st.val, 0x05, d.val, a.val, b.val, 3⟩
  | .csetbx st d a b => some ⟨st.val, 0x05, d.val, a.val, b.val, 4⟩
  | .candp st d a b => some ⟨st.val, 0x05, d.val, a.val, b.val, 5⟩
  | .cgeta st d a h => some ⟨st.val, 0x05, d.val, a.val, h.val, 6⟩
  | .cgetb st d a h => some ⟨st.val, 0x05, d.val, a.val, h.val, 7⟩
  | .cgett st d a h => some ⟨st.val, 0x05, d.val, a.val, h.val, 8⟩
  | .cgetp st d a => some ⟨st.val, 0x05, d.val, a.val, 0, 9⟩
  | .cgettag st d a => some ⟨st.val, 0x05, d.val, a.val, 0, 10⟩
  | .cclrtag st d a => some ⟨st.val, 0x05, d.val, a.val, 0, 11⟩
  | .csub st d a b => some ⟨st.val, 0x05, d.val, a.val, b.val, 12⟩
  | .ctest st d a b => some ⟨st.val, 0x05, d.val, a.val, b.val, 13⟩
  | .cinci st d a i => some ⟨st.val, 0x06, d.val, a.val, 0 + 8 * (i.toNat % 8), i.toNat / 8⟩
  | .csetbi st d a i => some ⟨st.val, 0x06, d.val, a.val, 1 + 8 * (i.toNat % 8), i.toNat / 8⟩
  | .beq st a off => some ⟨st.val, 0x07, a.val, 0 + 8 * (off.toNat % 8), off.toNat / 8 % 64, off.toNat / 512⟩
  | .bne st a off => some ⟨st.val, 0x07, a.val, 1 + 8 * (off.toNat % 8), off.toNat / 8 % 64, off.toNat / 512⟩
  | .blt st a off => some ⟨st.val, 0x07, a.val, 2 + 8 * (off.toNat % 8), off.toNat / 8 % 64, off.toNat / 512⟩
  | .bge st a off => some ⟨st.val, 0x07, a.val, 3 + 8 * (off.toNat % 8), off.toNat / 8 % 64, off.toNat / 512⟩
  | .ble st a off => some ⟨st.val, 0x07, a.val, 4 + 8 * (off.toNat % 8), off.toNat / 8 % 64, off.toNat / 512⟩
  | .bgt st a off => some ⟨st.val, 0x07, a.val, 5 + 8 * (off.toNat % 8), off.toNat / 8 % 64, off.toNat / 512⟩
  | .btag st a off => some ⟨st.val, 0x07, a.val, 6 + 8 * (off.toNat % 8), off.toNat / 8 % 64, off.toNat / 512⟩
  | .bntag st a off => some ⟨st.val, 0x07, a.val, 7 + 8 * (off.toNat % 8), off.toNat / 8 % 64, off.toNat / 512⟩
  | .j st off => some ⟨st.val, 0x08, off.toNat % 64, off.toNat / 64 % 64, off.toNat / 4096 % 64, off.toNat / 262144⟩
  | .call st off => some ⟨st.val, 0x09, off.toNat % 64, off.toNat / 64 % 64, off.toNat / 4096 % 64, off.toNat / 262144⟩
  | .jr st a => some ⟨st.val, 0x0A, 0, a.val, 0, 0⟩
  | .callr st d a => some ⟨st.val, 0x0A, d.val, a.val, 0, 1⟩
  | .ret st a => some ⟨st.val, 0x0A, 0, a.val, 0, 2⟩
  | .lexit st a => some ⟨st.val, 0x0A, 0, a.val, 0, 3⟩
  | .loop st a n => some ⟨st.val, 0x0B, a.val, n.val, 0, 0⟩
  | .ldB st d a off => some ⟨st.val, 0x0C, d.val, a.val + 0, 0 + 4 * (u8 off % 16), u8 off / 16⟩
  | .ldBu st d a off => some ⟨st.val, 0x0C, d.val, a.val + 32, 0 + 4 * (u8 off % 16), u8 off / 16⟩
  | .ldH st d a off => some ⟨st.val, 0x0C, d.val, a.val + 0, 1 + 4 * (u8 off % 16), u8 off / 16⟩
  | .ldHu st d a off => some ⟨st.val, 0x0C, d.val, a.val + 32, 1 + 4 * (u8 off % 16), u8 off / 16⟩
  | .ldW st d a off => some ⟨st.val, 0x0C, d.val, a.val + 0, 2 + 4 * (u8 off % 16), u8 off / 16⟩
  | .ldWu st d a off => some ⟨st.val, 0x0C, d.val, a.val + 32, 2 + 4 * (u8 off % 16), u8 off / 16⟩
  | .ldD st d a off => some ⟨st.val, 0x0C, d.val, a.val + 0, 3 + 4 * (u8 off % 16), u8 off / 16⟩
  | .ldC st d a off => some ⟨st.val, 0x0C, d.val, a.val + 32, 3 + 4 * (u8 off % 16), u8 off / 16⟩
  | .stB st d a off => some ⟨st.val, 0x0D, d.val, a.val + 0, 0 + 4 * (u8 off % 16), u8 off / 16⟩
  | .stH st d a off => some ⟨st.val, 0x0D, d.val, a.val + 0, 1 + 4 * (u8 off % 16), u8 off / 16⟩
  | .stW st d a off => some ⟨st.val, 0x0D, d.val, a.val + 0, 2 + 4 * (u8 off % 16), u8 off / 16⟩
  | .stD st d a off => some ⟨st.val, 0x0D, d.val, a.val + 0, 3 + 4 * (u8 off % 16), u8 off / 16⟩
  | .stC st d a off => some ⟨st.val, 0x0D, d.val, a.val + 32, 3 + 4 * (u8 off % 16), u8 off / 16⟩
  | .aaddD st d a b => some ⟨st.val, 0x0E, d.val, a.val, b.val, 0⟩
  | .aandD st d a b => some ⟨st.val, 0x0E, d.val, a.val, b.val, 1⟩
  | .aorD st d a b => some ⟨st.val, 0x0E, d.val, a.val, b.val, 2⟩
  | .axorD st d a b => some ⟨st.val, 0x0E, d.val, a.val, b.val, 3⟩
  | .aminD st d a b => some ⟨st.val, 0x0E, d.val, a.val, b.val, 4⟩
  | .amaxD st d a b => some ⟨st.val, 0x0E, d.val, a.val, b.val, 5⟩
  | .aminuD st d a b => some ⟨st.val, 0x0E, d.val, a.val, b.val, 6⟩
  | .amaxuD st d a b => some ⟨st.val, 0x0E, d.val, a.val, b.val, 7⟩
  | .aswapD st d a b => some ⟨st.val, 0x0E, d.val, a.val, b.val, 8⟩
  | .acasD st d a b => some ⟨st.val, 0x0E, d.val, a.val, b.val, 9⟩
  | .afaddD st d a b => some ⟨st.val, 0x0E, d.val, a.val, b.val, 10⟩
  | .aaddW st d a b => some ⟨st.val, 0x0F, d.val, a.val, b.val, 0⟩
  | .aandW st d a b => some ⟨st.val, 0x0F, d.val, a.val, b.val, 1⟩
  | .aorW st d a b => some ⟨st.val, 0x0F, d.val, a.val, b.val, 2⟩
  | .axorW st d a b => some ⟨st.val, 0x0F, d.val, a.val, b.val, 3⟩
  | .aminW st d a b => some ⟨st.val, 0x0F, d.val, a.val, b.val, 4⟩
  | .amaxW st d a b => some ⟨st.val, 0x0F, d.val, a.val, b.val, 5⟩
  | .aminuW st d a b => some ⟨st.val, 0x0F, d.val, a.val, b.val, 6⟩
  | .amaxuW st d a b => some ⟨st.val, 0x0F, d.val, a.val, b.val, 7⟩
  | .aswapW st d a b => some ⟨st.val, 0x0F, d.val, a.val, b.val, 8⟩
  | .acasW st d a b => some ⟨st.val, 0x0F, d.val, a.val, b.val, 9⟩
  | .afaddW st d a b => some ⟨st.val, 0x0F, d.val, a.val, b.val, 10⟩
  | .afaddbf st d a b => some ⟨st.val, 0x0F, d.val, a.val, b.val, 11⟩
  | .fence st n => some ⟨st.val, 0x10, 0, 0, n, 0⟩
  | .fencer st d => some ⟨st.val, 0x10, d.val, 0, 0, 1⟩
  | .clean st a b => some ⟨st.val, 0x10, 0, a.val, b.val, 2⟩
  | .inval st a b => some ⟨st.val, 0x10, 0, a.val, b.val, 3⟩
  | .waitj st d a => some ⟨st.val, 0x10, d.val, a.val, 0, 4⟩
  | .pollj st d a => some ⟨st.val, 0x10, d.val, a.val, 0, 5⟩
  | .sleep st a => some ⟨st.val, 0x10, 0, a.val, 0, 6⟩
  | .yield st => some ⟨st.val, 0x10, 0, 0, 0, 7⟩
  | .vld st d a => some ⟨st.val, 0x11, d.val, a.val, 0, 0⟩
  | .vst st d a => some ⟨st.val, 0x11, d.val, a.val, 0, 1⟩
  | .vlds st d a b => some ⟨st.val, 0x11, d.val, a.val, b.val, 2⟩
  | .vsts st d a b => some ⟨st.val, 0x11, d.val, a.val, b.val, 3⟩
  | .vldx st d a b => some ⟨st.val, 0x11, d.val, a.val, b.val, 4⟩
  | .vstx st d a b => some ⟨st.val, 0x11, d.val, a.val, b.val, 5⟩
  | .vldt st d a b => some ⟨st.val, 0x11, d.val, a.val, b.val, 6⟩
  | .vstt st d a b => some ⟨st.val, 0x11, d.val, a.val, b.val, 7⟩
  | .sbind st d a b => some ⟨st.val, 0x11, d.val, a.val, b.val, 8⟩
  | .sunbind st d => some ⟨st.val, 0x11, d.val, 0, 0, 9⟩
  | .vldb st d a b => some ⟨st.val, 0x11, d.val, a.val, b.val, 10⟩
  | .tpred st d a b => some ⟨st.val, 0x12, d.val, a.val, b.val, 0⟩
  | .tvclr st a b => some ⟨st.val, 0x12, 0, a.val, b.val, 1⟩
  | .tvset st a b => some ⟨st.val, 0x12, 0, a.val, b.val, 2⟩
  | .thdr st a b => some ⟨st.val, 0x12, 0, a.val, b.val, 3⟩
  | .gath st d a b => some ⟨st.val, 0x12, d.val, a.val, b.val, 4⟩
  | .scat st d a b => some ⟨st.val, 0x12, d.val, a.val, b.val, 5⟩
  | .gathst st d a b => some ⟨st.val, 0x12, d.val, a.val, b.val, 6⟩
  | .vsort st d a b => some ⟨st.val, 0x13, d.val, a.val, b.val, 0⟩
  | .vsortx st d a b => some ⟨st.val, 0x13, d.val, a.val, b.val, 1⟩
  | .vbstep st d a b => some ⟨st.val, 0x13, d.val, a.val, b.val, 2⟩
  | .vtopk st d a b => some ⟨st.val, 0x13, d.val, a.val, b.val, 3⟩
  | .vmergek st d a b => some ⟨st.val, 0x13, d.val, a.val, b.val, 4⟩
  | .vrank st d a => some ⟨st.val, 0x13, d.val, a.val, 0, 5⟩
  | .occfg st d a b => some ⟨st.val, 0x14, d.val, a.val, b.val, 0⟩
  | .ocemit st d a => some ⟨st.val, 0x14, d.val, a.val, 0, 1⟩
  | .ocemiti st d a b => some ⟨st.val, 0x14, d.val, a.val, b.val, 2⟩
  | .ocacc st d => some ⟨st.val, 0x14, d.val, 0, 0, 3⟩
  | .ocstat st d h => some ⟨st.val, 0x14, d.val, 0, h, 4⟩
  | .ocrst st => some ⟨st.val, 0x14, 0, 0, 0, 5⟩
  | .ocgw st a b => some ⟨st.val, 0x14, 0, a.val, b.val, 6⟩
  | .ocga st a b => some ⟨st.val, 0x14, 0, a.val, b.val, 7⟩
  | .ocgf st a b => some ⟨st.val, 0x14, 0, a.val, b.val, 8⟩
  | .mmode st n => some ⟨st.val, 0x15, 0, 0, n, 0⟩
  | .mop st d a b => some ⟨st.val, 0x15, d.val, a.val, b.val, 1⟩
  | .msqd st d a b => some ⟨st.val, 0x15, d.val, a.val, b.val, 2⟩
  | .mtopk st d k => some ⟨st.val, 0x15, d.val, 0, k, 3⟩
  | .accrd st d a b => some ⟨st.val, 0x15, d.val, a.val, b.val, 4⟩
  | .accz st => some ⟨st.val, 0x15, 0, 0, 0, 5⟩
  | .mdrain st d a b => some ⟨st.val, 0x15, d.val, a.val, b.val, 6⟩
  | .mwait st n => some ⟨st.val, 0x15, 0, 0, n, 7⟩
  | .mnmb st a => some ⟨st.val, 0x15, 0, a.val, 0, 8⟩
  | .cpy st d a b => some ⟨st.val, 0x16, d.val, a.val, b.val, 0⟩
  | .cpy2d st d a b => some ⟨st.val, 0x16, d.val, a.val, b.val, 1⟩
  | .cpyq st d a b => some ⟨st.val, 0x16, d.val, a.val, b.val, 2⟩
  | .cpyx st d a b => some ⟨st.val, 0x16, d.val, a.val, b.val, 3⟩
  | .tbegin st a b => some ⟨st.val, 0x17, 0, a.val, b.val, 0⟩
  | .trec st a => some ⟨st.val, 0x17, 0, a.val, 0, 1⟩
  | .trecb st a => some ⟨st.val, 0x17, 0, a.val, 0, 2⟩
  | .trecv st a n => some ⟨st.val, 0x17, 0, a.val, n, 3⟩
  | .tend st d => some ⟨st.val, 0x17, d.val, 0, 0, 4⟩
  | .tplay st a b => some ⟨st.val, 0x17, 0, a.val, b.val, 5⟩
  | .tpop st d n => some ⟨st.val, 0x17, d.val, 0, n, 6⟩
  | .tpopb st d => some ⟨st.val, 0x17, d.val, 0, 0, 7⟩
  | .tpopv st d n => some ⟨st.val, 0x17, d.val, 0, n, 8⟩
  | .tstat st d n => some ⟨st.val, 0x17, d.val, 0, n, 9⟩
  | .send st d a b => some ⟨st.val, 0x18, d.val, a.val, b.val, 0⟩
  | .tenq st d a b => some ⟨st.val, 0x18, d.val, a.val, b.val, 1⟩
  | .rfork st d a b => some ⟨st.val, 0x18, d.val, a.val, b.val, 2⟩
  | .join st a => some ⟨st.val, 0x18, 0, a.val, 0, 3⟩
  | .tbind st d a b => some ⟨st.val, 0x18, d.val, a.val, b.val, 4⟩
  | .tunbind st d a => some ⟨st.val, 0x18, d.val, a.val, 0, 5⟩
  | .tfire st d a b => some ⟨st.val, 0x18, d.val, a.val, b.val, 6⟩
  | .chopen st d a b => some ⟨st.val, 0x18, d.val, a.val, b.val, 7⟩
  | .chclose st a => some ⟨st.val, 0x18, 0, a.val, 0, 8⟩
  | .chsend st d a b => some ⟨st.val, 0x18, d.val, a.val, b.val, 9⟩
  | .chrecv st d a b => some ⟨st.val, 0x18, d.val, a.val, b.val, 10⟩
  | .exit st => some ⟨st.val, 0x18, 0, 0, 0, 11⟩
  | .hstart st d a b => some ⟨st.val, 0x19, d.val, a.val, b.val, 0⟩
  | .hstop st a => some ⟨st.val, 0x19, 0, a.val, 0, 1⟩
  | .hstat st d a b => some ⟨st.val, 0x19, d.val, a.val, b.val, 2⟩
  | .bari st a b => some ⟨st.val, 0x19, 0, a.val, b.val, 3⟩
  | .bara st d a b => some ⟨st.val, 0x19, d.val, a.val, b.val, 4⟩
  | .barad st d a b => some ⟨st.val, 0x19, d.val, a.val, b.val, 5⟩
  | .barw st d a b => some ⟨st.val, 0x19, d.val, a.val, b.val, 6⟩
  | .baraw st d a b => some ⟨st.val, 0x19, d.val, a.val, b.val, 7⟩
  | .rld st d a b => some ⟨st.val, 0x1A, d.val, a.val, b.val, 0⟩
  | .rst st d a b => some ⟨st.val, 0x1A, d.val, a.val, b.val, 1⟩
  | .ramo st d a b => some ⟨st.val, 0x1A, d.val, a.val, b.val, 2⟩
  | .gst st d a b => some ⟨st.val, 0x1A, d.val, a.val, b.val, 3⟩
  | .gcommit st d a => some ⟨st.val, 0x1A, d.val, a.val, 0, 4⟩
  | .gabort st a => some ⟨st.val, 0x1A, 0, a.val, 0, 5⟩
  | .gcstat st d a => some ⟨st.val, 0x1A, d.val, a.val, 0, 6⟩
  | .gwait st d a => some ⟨st.val, 0x1A, d.val, a.val, 0, 7⟩
  | .nred st d a b => some ⟨st.val, 0x1B, d.val, a.val, b.val, 0⟩
  | .nredw st d a => some ⟨st.val, 0x1B, d.val, a.val, 0, 1⟩
  | .srd st d n => some ⟨st.val, 0x1C, d.val, n.toNat % 64, n.toNat / 64, 0⟩
  | .swr st d n => some ⟨st.val, 0x1C, d.val, n.toNat % 64, n.toNat / 64, 1⟩
  | .trap st n => some ⟨st.val, 0x1C, 0, n.toNat % 64, n.toNat / 64, 2⟩
  | .eret st => some ⟨st.val, 0x1C, 0, 0, 0, 3⟩
  | .brk st n => some ⟨st.val, 0x1C, 0, n.toNat % 64, n.toNat / 64, 4⟩
  | .time st d => some ⟨st.val, 0x1C, d.val, 0, 0, 5⟩
  | .halt st => some ⟨st.val, 0x1C, 0, 0, 0, 6⟩
  | .cancel st d a b => some ⟨st.val, 0x1C, d.val, a.val, b.val, 7⟩
  | .vmovs st d a b => some ⟨st.val, 0x1D, d.val, a.val, b.val, 0⟩
  | .vmovx st d a => some ⟨st.val, 0x1D, d.val, a.val, 0, 1⟩
  | .vins st d a b => some ⟨st.val, 0x1D, d.val, a.val, b.val, 2⟩
  | .mset st d a => some ⟨st.val, 0x1D, d.val, a.val, 0, 3⟩
  | .mget st d a => some ⟨st.val, 0x1D, d.val, a.val, 0, 4⟩
  | .gset st d a => some ⟨st.val, 0x1D, d.val, a.val, 0, 5⟩
  | .gget st d a => some ⟨st.val, 0x1D, d.val, a.val, 0, 6⟩
  | .oset st d a => some ⟨st.val, 0x1D, d.val, a.val, 0, 7⟩
  | .oget st d a => some ⟨st.val, 0x1D, d.val, a.val, 0, 8⟩
  | .bmany st a off => some ⟨st.val, 0x1E, a.val, 0 + 8 * (off.toNat % 8), off.toNat / 8 % 64, off.toNat / 512⟩
  | .bmnone st a off => some ⟨st.val, 0x1E, a.val, 1 + 8 * (off.toNat % 8), off.toNat / 8 % 64, off.toNat / 512⟩
  | .bmall st a off => some ⟨st.val, 0x1E, a.val, 2 + 8 * (off.toNat % 8), off.toNat / 8 % 64, off.toNat / 512⟩
  | .bgds st a off => some ⟨st.val, 0x1E, a.val, 3 + 8 * (off.toNat % 8), off.toNat / 8 % 64, off.toNat / 512⟩
  | .bgdc st a off => some ⟨st.val, 0x1E, a.val, 4 + 8 * (off.toNat % 8), off.toNat / 8 % 64, off.toNat / 512⟩
  | .vadd st d a b m => some ⟨st.val, 0x20, d.val, a.val, b.val, m.val⟩
  | .vsub st d a b m => some ⟨st.val, 0x20, d.val, a.val, b.val, m.val + 8⟩
  | .vmul st d a b m => some ⟨st.val, 0x21, d.val, a.val, b.val, m.val⟩
  | .vmulh st d a b m => some ⟨st.val, 0x21, d.val, a.val, b.val, m.val + 8⟩
  | .vfma st d a b m => some ⟨st.val, 0x22, d.val, a.val, b.val, m.val⟩
  | .vfms st d a b m => some ⟨st.val, 0x22, d.val, a.val, b.val, m.val + 8⟩
  | .vmin st d a b m => some ⟨st.val, 0x23, d.val, a.val, b.val, m.val⟩
  | .vmax st d a b m => some ⟨st.val, 0x23, d.val, a.val, b.val, m.val + 8⟩
  | .vand st d a b m => some ⟨st.val, 0x24, d.val, a.val, b.val, m.val⟩
  | .vor st d a b m => some ⟨st.val, 0x24, d.val, a.val, b.val, m.val + 8⟩
  | .vxor st d a b m => some ⟨st.val, 0x25, d.val, a.val, b.val, m.val⟩
  | .vandn st d a b m => some ⟨st.val, 0x25, d.val, a.val, b.val, m.val + 8⟩
  | .vsll st d a b m => some ⟨st.val, 0x26, d.val, a.val, b.val, m.val⟩
  | .vsrl st d a b m => some ⟨st.val, 0x26, d.val, a.val, b.val, m.val + 8⟩
  | .vsra st d a b m => some ⟨st.val, 0x27, d.val, a.val, b.val, m.val⟩
  | .vrol st d a b m => some ⟨st.val, 0x27, d.val, a.val, b.val, m.val + 8⟩
  | .vceq st d a b m => some ⟨st.val, 0x28, d.val, a.val, b.val, m.val⟩
  | .vcne st d a b m => some ⟨st.val, 0x28, d.val, a.val, b.val, m.val + 8⟩
  | .vclt st d a b m => some ⟨st.val, 0x29, d.val, a.val, b.val, m.val⟩
  | .vcle st d a b m => some ⟨st.val, 0x29, d.val, a.val, b.val, m.val + 8⟩
  | .vcvt st d a m => some ⟨st.val, 0x2A, d.val, a.val, 0, m.val⟩
  | .vcvts st d a b m => some ⟨st.val, 0x2A, d.val, a.val, b.val, m.val + 8⟩
  | .vpack st d a b => some ⟨st.val, 0x2B, d.val, a.val, b.val, 0⟩
  | .vunpk st d a b => some ⟨st.val, 0x2B, d.val, a.val, b.val, 8⟩
  | .vperm st d a b m => some ⟨st.val, 0x2C, d.val, a.val, b.val, m.val⟩
  | .vshuf st d a b m => some ⟨st.val, 0x2C, d.val, a.val, b.val, m.val + 8⟩
  | .vsldu st d a b m => some ⟨st.val, 0x2D, d.val, a.val, b.val, m.val⟩
  | .vsldd st d a b m => some ⟨st.val, 0x2D, d.val, a.val, b.val, m.val + 8⟩
  | .vrsum st d a b m => some ⟨st.val, 0x2E, d.val, a.val, b.val, m.val⟩
  | .vrmax st d a b m => some ⟨st.val, 0x2E, d.val, a.val, b.val, m.val + 8⟩
  | .vrmin st d a b m => some ⟨st.val, 0x2F, d.val, a.val, b.val, m.val⟩
  | .vramax st d a b m => some ⟨st.val, 0x2F, d.val, a.val, b.val, m.val + 8⟩
  | .vmrg st d a b m => some ⟨st.val, 0x30, d.val, a.val, b.val, m.val⟩
  | .vcmpr st d a m => some ⟨st.val, 0x30, d.val, a.val, 0, m.val + 8⟩
  | .vabs st d a m => some ⟨st.val, 0x31, d.val, a.val, 0, m.val⟩
  | .vneg st d a m => some ⟨st.val, 0x31, d.val, a.val, 0, m.val + 8⟩
  | .vdiv st d a b m => some ⟨st.val, 0x32, d.val, a.val, b.val, m.val⟩
  | .vsqrt st d a m => some ⟨st.val, 0x32, d.val, a.val, 0, m.val + 8⟩
  | .vexp2 st d a m => some ⟨st.val, 0x33, d.val, a.val, 0, m.val⟩
  | .vlog2 st d a m => some ⟨st.val, 0x33, d.val, a.val, 0, m.val + 8⟩
  | .vdot4 st d a b m => some ⟨st.val, 0x34, d.val, a.val, b.val, m.val⟩
  | .vsad st d a b m => some ⟨st.val, 0x34, d.val, a.val, b.val, m.val + 8⟩
  | .viota st d m => some ⟨st.val, 0x35, d.val, 0, 0, m.val⟩
  | .vmcnt st d m => some ⟨st.val, 0x35, d.val, 0, 0, m.val + 8⟩
  | .vclz st d a m => some ⟨st.val, 0x36, d.val, a.val, 0, m.val⟩
  | .vpopc st d a m => some ⟨st.val, 0x36, d.val, a.val, 0, m.val + 8⟩
  | .vscl st d a b m => some ⟨st.val, 0x37, d.val, a.val, b.val, m.val⟩
  | .vmov st d a m => some ⟨st.val, 0x37, d.val, a.val, 0, m.val + 8⟩
  | .addShort .. | .subShort .. | .andShort .. | .orShort .. | .xorShort .. | .cmovShort .. | .addiShort .. | .slliShort ..
  | .srliShort .. | .sraiShort .. | .lisShort .. | .cinciShort .. | .ldDShort .. | .stDShort .. | .ldWShort .. | .stWShort ..
  | .ldDC2Short .. | .stDC2Short .. | .ldCC2Short .. | .stCC2Short .. | .beqShort .. | .bneShort .. | .jShort .. | .retShort ..
  | .callrShort .. | .vaddShort .. | .vmulShort .. | .vmovShort .. | .yieldShort .. | .waitjShort .. | .exitShort .. | .loopShort ..
  | .trapEntry .. | .tcmpMatch .. | .sleepWake .. | .matrixStep .. | .drainCapture .. | .copyBurst .. | .gatherComplete .. | .taskDispatch ..
  | .stealRound .. | .stealAttempt .. | .launchOpen .. | .phaseBarrier .. | .bureauRun .. | .sliceExpiry .. | .gangStop .. | .gangDrain ..
  | .gangSave .. | .leaseExpiry .. | .eccUe .. | .activeMessage .. | .rload .. | .rstore .. | .ratomic .. | .gstage ..
  | .prepare .. | .publish .. | .discard .. | .query .. | .bararr .. | .barrierRetry .. | .spwrite .. | .mwrite ..
  | .rgath .. | .rscat .. | .trigger .. | .reply .. | .gstReply .. | .commitHandover .. | .ready .. | .decisionAck ..
  | .queryAnswer .. | .prepareTimeout .. | .stagingTimeout .. | .inDoubtTimer .. | .gwaitTimeLimit .. | .demand .. | .grant .. | .eack ..
  | .slotreq .. | .slotgnt .. | .redContrib .. | .nodeTimeout .. | .redResult .. | .flit .. | .replayRequest .. | .linkReplayLimit ..
  | .e2eTimer .. | .linkFailure .. | .tsync .. | .syncTick .. | .spillWrite .. | .chunkFetch .. | .ident .. | .semacq ..
  | .semrel .. | .semaphoreLoss .. | .jobstart .. | .jobstop .. | .jobresume .. | .jobremove .. | .graphstart .. | .tlbinv ..
  | .doorbell .. | .setpkg .. | .routewr .. | .treewr .. | .rateset .. | .fwload .. | .linkretrain .. | .stackretire ..
  | .dieoff .. | .dieon .. | .attest .. | .powercap .. | .sbresolve .. | .sbresolveTimeout .. | .sblist .. | .sbdecide ..
  | .sblost .. | .powerOn | .reducedService | .partJoin .. | .thermalThrottle .. | .thermalShutdown .. | .variableLatencyResult .. | .unallocatedWord ..
  | .barrierWaitRequest .. | .gwaitQueryRepeat .. | .linkRetrainDone .. => none

/-- The fields that encode a short form (R89); none for the other steps. -/
def encodeShort (i : Instr) : Option Short :=
  match i with
  | .addShort st x y => some ⟨st.val, 0x00, x.val, y.val⟩
  | .subShort st x y => some ⟨st.val, 0x01, x.val, y.val⟩
  | .andShort st x y => some ⟨st.val, 0x02, x.val, y.val⟩
  | .orShort st x y => some ⟨st.val, 0x03, x.val, y.val⟩
  | .xorShort st x y => some ⟨st.val, 0x04, x.val, y.val⟩
  | .cmovShort st x y => some ⟨st.val, 0x05, x.val, y.val⟩
  | .addiShort st x y => some ⟨st.val, 0x06, x.val, y.val⟩
  | .slliShort st x y => some ⟨st.val, 0x07, x.val, y.val⟩
  | .srliShort st x y => some ⟨st.val, 0x08, x.val, y.val⟩
  | .sraiShort st x y => some ⟨st.val, 0x09, x.val, y.val⟩
  | .lisShort st x y => some ⟨st.val, 0x0A, x.val, y.val⟩
  | .cinciShort st x y => some ⟨st.val, 0x0B, x.val, y.val⟩
  | .ldDShort st x y => some ⟨st.val, 0x0C, x.val, y.val⟩
  | .stDShort st x y => some ⟨st.val, 0x0D, x.val, y.val⟩
  | .ldWShort st x y => some ⟨st.val, 0x0E, x.val, y.val⟩
  | .stWShort st x y => some ⟨st.val, 0x0F, x.val, y.val⟩
  | .ldDC2Short st x y => some ⟨st.val, 0x10, x.val, y.val⟩
  | .stDC2Short st x y => some ⟨st.val, 0x11, x.val, y.val⟩
  | .ldCC2Short st x y => some ⟨st.val, 0x12, x.val, y.val⟩
  | .stCC2Short st x y => some ⟨st.val, 0x13, x.val, y.val⟩
  | .beqShort st x y => some ⟨st.val, 0x14, x.val, y.val⟩
  | .bneShort st x y => some ⟨st.val, 0x15, x.val, y.val⟩
  | .jShort st o => some ⟨st.val, 0x16, o.toNat % 16, o.toNat / 16⟩
  | .retShort st x => some ⟨st.val, 0x17, x.val, 0⟩
  | .callrShort st x => some ⟨st.val, 0x18, x.val, 0⟩
  | .vaddShort st x y => some ⟨st.val, 0x19, x.val, y.val⟩
  | .vmulShort st x y => some ⟨st.val, 0x1A, x.val, y.val⟩
  | .vmovShort st x y => some ⟨st.val, 0x1B, x.val, y.val⟩
  | .yieldShort st => some ⟨st.val, 0x1C, 0, 0⟩
  | .waitjShort st x => some ⟨st.val, 0x1D, x.val, 0⟩
  | .exitShort st => some ⟨st.val, 0x1E, 0, 0⟩
  | .loopShort st x y => some ⟨st.val, 0x1F, x.val, y.val⟩
  | .add .. | .sub .. | .andr .. | .orr .. | .xorr .. | .andn .. | .sll .. | .srl ..
  | .sra .. | .slt .. | .sltu .. | .min .. | .max .. | .minu .. | .maxu .. | .sel ..
  | .addi .. | .andi .. | .ori .. | .xori .. | .slli .. | .srli .. | .srai .. | .slti ..
  | .mul .. | .mulh .. | .mulhu .. | .div .. | .divu .. | .rem .. | .remu .. | .clz ..
  | .ctz .. | .popc .. | .bswap .. | .lis .. | .lik .. | .cmov .. | .cinc .. | .cseta ..
  | .csetb .. | .csetbx .. | .candp .. | .cgeta .. | .cgetb .. | .cgett .. | .cgetp .. | .cgettag ..
  | .cclrtag .. | .csub .. | .ctest .. | .cinci .. | .csetbi .. | .beq .. | .bne .. | .blt ..
  | .bge .. | .ble .. | .bgt .. | .btag .. | .bntag .. | .j .. | .call .. | .jr ..
  | .callr .. | .ret .. | .lexit .. | .loop .. | .ldB .. | .ldBu .. | .ldH .. | .ldHu ..
  | .ldW .. | .ldWu .. | .ldD .. | .ldC .. | .stB .. | .stH .. | .stW .. | .stD ..
  | .stC .. | .aaddD .. | .aandD .. | .aorD .. | .axorD .. | .aminD .. | .amaxD .. | .aminuD ..
  | .amaxuD .. | .aswapD .. | .acasD .. | .afaddD .. | .aaddW .. | .aandW .. | .aorW .. | .axorW ..
  | .aminW .. | .amaxW .. | .aminuW .. | .amaxuW .. | .aswapW .. | .acasW .. | .afaddW .. | .afaddbf ..
  | .fence .. | .fencer .. | .clean .. | .inval .. | .waitj .. | .pollj .. | .sleep .. | .yield ..
  | .vld .. | .vst .. | .vlds .. | .vsts .. | .vldx .. | .vstx .. | .vldt .. | .vstt ..
  | .sbind .. | .sunbind .. | .vldb .. | .tpred .. | .tvclr .. | .tvset .. | .thdr .. | .gath ..
  | .scat .. | .gathst .. | .vsort .. | .vsortx .. | .vbstep .. | .vtopk .. | .vmergek .. | .vrank ..
  | .occfg .. | .ocemit .. | .ocemiti .. | .ocacc .. | .ocstat .. | .ocrst .. | .ocgw .. | .ocga ..
  | .ocgf .. | .mmode .. | .mop .. | .msqd .. | .mtopk .. | .accrd .. | .accz .. | .mdrain ..
  | .mwait .. | .mnmb .. | .cpy .. | .cpy2d .. | .cpyq .. | .cpyx .. | .tbegin .. | .trec ..
  | .trecb .. | .trecv .. | .tend .. | .tplay .. | .tpop .. | .tpopb .. | .tpopv .. | .tstat ..
  | .send .. | .tenq .. | .rfork .. | .join .. | .tbind .. | .tunbind .. | .tfire .. | .chopen ..
  | .chclose .. | .chsend .. | .chrecv .. | .exit .. | .hstart .. | .hstop .. | .hstat .. | .bari ..
  | .bara .. | .barad .. | .barw .. | .baraw .. | .rld .. | .rst .. | .ramo .. | .gst ..
  | .gcommit .. | .gabort .. | .gcstat .. | .gwait .. | .nred .. | .nredw .. | .srd .. | .swr ..
  | .trap .. | .eret .. | .brk .. | .time .. | .halt .. | .cancel .. | .vmovs .. | .vmovx ..
  | .vins .. | .mset .. | .mget .. | .gset .. | .gget .. | .oset .. | .oget .. | .bmany ..
  | .bmnone .. | .bmall .. | .bgds .. | .bgdc .. | .vadd .. | .vsub .. | .vmul .. | .vmulh ..
  | .vfma .. | .vfms .. | .vmin .. | .vmax .. | .vand .. | .vor .. | .vxor .. | .vandn ..
  | .vsll .. | .vsrl .. | .vsra .. | .vrol .. | .vceq .. | .vcne .. | .vclt .. | .vcle ..
  | .vcvt .. | .vcvts .. | .vpack .. | .vunpk .. | .vperm .. | .vshuf .. | .vsldu .. | .vsldd ..
  | .vrsum .. | .vrmax .. | .vrmin .. | .vramax .. | .vmrg .. | .vcmpr .. | .vabs .. | .vneg ..
  | .vdiv .. | .vsqrt .. | .vexp2 .. | .vlog2 .. | .vdot4 .. | .vsad .. | .viota .. | .vmcnt ..
  | .vclz .. | .vpopc .. | .vscl .. | .vmov .. | .trapEntry .. | .tcmpMatch .. | .sleepWake .. | .matrixStep ..
  | .drainCapture .. | .copyBurst .. | .gatherComplete .. | .taskDispatch .. | .stealRound .. | .stealAttempt .. | .launchOpen .. | .phaseBarrier ..
  | .bureauRun .. | .sliceExpiry .. | .gangStop .. | .gangDrain .. | .gangSave .. | .leaseExpiry .. | .eccUe .. | .activeMessage ..
  | .rload .. | .rstore .. | .ratomic .. | .gstage .. | .prepare .. | .publish .. | .discard .. | .query ..
  | .bararr .. | .barrierRetry .. | .spwrite .. | .mwrite .. | .rgath .. | .rscat .. | .trigger .. | .reply ..
  | .gstReply .. | .commitHandover .. | .ready .. | .decisionAck .. | .queryAnswer .. | .prepareTimeout .. | .stagingTimeout .. | .inDoubtTimer ..
  | .gwaitTimeLimit .. | .demand .. | .grant .. | .eack .. | .slotreq .. | .slotgnt .. | .redContrib .. | .nodeTimeout ..
  | .redResult .. | .flit .. | .replayRequest .. | .linkReplayLimit .. | .e2eTimer .. | .linkFailure .. | .tsync .. | .syncTick ..
  | .spillWrite .. | .chunkFetch .. | .ident .. | .semacq .. | .semrel .. | .semaphoreLoss .. | .jobstart .. | .jobstop ..
  | .jobresume .. | .jobremove .. | .graphstart .. | .tlbinv .. | .doorbell .. | .setpkg .. | .routewr .. | .treewr ..
  | .rateset .. | .fwload .. | .linkretrain .. | .stackretire .. | .dieoff .. | .dieon .. | .attest .. | .powercap ..
  | .sbresolve .. | .sbresolveTimeout .. | .sblist .. | .sbdecide .. | .sblost .. | .powerOn | .reducedService | .partJoin ..
  | .thermalThrottle .. | .thermalShutdown .. | .variableLatencyResult .. | .unallocatedWord .. | .barrierWaitRequest .. | .gwaitQueryRepeat .. | .linkRetrainDone .. => none

/-- The bytes of an instruction as memory holds them (R72); none for a step that no word encodes. -/
def encode (i : Instr) : List Byte :=
  match encodeFields i with
  | some x => leBytes 4 (join32 x)
  | none =>
    match encodeShort i with
    | some h => leBytes 2 (join16 h)
    | none => []

/-- Register and immediate fields of a short form placed in the 32-bit instruction (R89). -/
def r32 (x : Fin 16) : Fin 32 := ⟨x.val, by omega⟩
def r64 (x : Fin 16) : Fin 64 := ⟨x.val, by omega⟩
def s8of (x : Fin 4) : Fin 8 := ⟨x.val, by omega⟩
def sx7 (y : Fin 16) : BitVec 7 := BitVec.ofInt 7 (sextNat 4 y.val)
def sx7x8 (y : Fin 16) : BitVec 7 := BitVec.ofInt 7 (8 * sextNat 4 y.val)
def zx7 (y : Fin 16) : BitVec 7 := BitVec.ofNat 7 y.val
def sx13 (y : Fin 16) : BitVec 13 := BitVec.ofInt 13 (sextNat 4 y.val)
def sx16 (y : Fin 16) : BitVec 16 := BitVec.ofInt 16 (sextNat 4 y.val)
def sx22 (o : BitVec 8) : BitVec 22 := o.signExtend 22

/-- The 32-bit instruction that a short form abbreviates (R89); any other instruction is its own. -/
def expandShort (i : Instr) : Instr :=
  match i with
  | .addShort st x y => .add (s8of st) (r32 x) (r32 x) (r32 y)
  | .subShort st x y => .sub (s8of st) (r32 x) (r32 x) (r32 y)
  | .andShort st x y => .andr (s8of st) (r32 x) (r32 x) (r32 y)
  | .orShort st x y => .orr (s8of st) (r32 x) (r32 x) (r32 y)
  | .xorShort st x y => .xorr (s8of st) (r32 x) (r32 x) (r32 y)
  | .cmovShort st x y => .cmov (s8of st) (r32 x) (r32 y)
  | .addiShort st x y => .addi (s8of st) (r32 x) (r32 x) (sx7 y)
  | .slliShort st x y => .slli (s8of st) (r32 x) (r32 x) (zx7 y)
  | .srliShort st x y => .srli (s8of st) (r32 x) (r32 x) (zx7 y)
  | .sraiShort st x y => .srai (s8of st) (r32 x) (r32 x) (zx7 y)
  | .lisShort st x y => .lis (s8of st) (r32 x) (sx16 y)
  | .cinciShort st x y => .cinci (s8of st) (r32 x) (r32 x) (sx7x8 y)
  | .ldDShort st x y => .ldD (s8of st) (r32 x) (r32 y) 0
  | .stDShort st x y => .stD (s8of st) (r32 x) (r32 y) 0
  | .ldWShort st x y => .ldW (s8of st) (r32 x) (r32 y) 0
  | .stWShort st x y => .stW (s8of st) (r32 x) (r32 y) 0
  | .ldDC2Short st x y => .ldD (s8of st) (r32 x) 2 (y.val : Int)
  | .stDC2Short st x y => .stD (s8of st) (r32 x) 2 (y.val : Int)
  | .ldCC2Short st x y => .ldC (s8of st) (r32 x) 2 (y.val : Int)
  | .stCC2Short st x y => .stC (s8of st) (r32 x) 2 (y.val : Int)
  | .beqShort st x y => .beq (s8of st) (r32 x) (sx13 y)
  | .bneShort st x y => .bne (s8of st) (r32 x) (sx13 y)
  | .jShort st o => .j (s8of st) (sx22 o)
  | .retShort st x => .ret (s8of st) (r32 x)
  | .callrShort st x => .callr (s8of st) 1 (r32 x)
  | .vaddShort st x y => .vadd (s8of st) (r64 x) (r64 x) (r64 y) 0
  | .vmulShort st x y => .vmul (s8of st) (r64 x) (r64 x) (r64 y) 0
  | .vmovShort st x y => .vmov (s8of st) (r64 x) (r64 y) 0
  | .yieldShort st => .yield (s8of st)
  | .waitjShort st x => .waitj (s8of st) 0 (r32 x)
  | .exitShort st => .exit (s8of st)
  | .loopShort st x y => .loop (s8of st) (r32 x) y
  | .add .. | .sub .. | .andr .. | .orr .. | .xorr .. | .andn .. | .sll .. | .srl ..
  | .sra .. | .slt .. | .sltu .. | .min .. | .max .. | .minu .. | .maxu .. | .sel ..
  | .addi .. | .andi .. | .ori .. | .xori .. | .slli .. | .srli .. | .srai .. | .slti ..
  | .mul .. | .mulh .. | .mulhu .. | .div .. | .divu .. | .rem .. | .remu .. | .clz ..
  | .ctz .. | .popc .. | .bswap .. | .lis .. | .lik .. | .cmov .. | .cinc .. | .cseta ..
  | .csetb .. | .csetbx .. | .candp .. | .cgeta .. | .cgetb .. | .cgett .. | .cgetp .. | .cgettag ..
  | .cclrtag .. | .csub .. | .ctest .. | .cinci .. | .csetbi .. | .beq .. | .bne .. | .blt ..
  | .bge .. | .ble .. | .bgt .. | .btag .. | .bntag .. | .j .. | .call .. | .jr ..
  | .callr .. | .ret .. | .lexit .. | .loop .. | .ldB .. | .ldBu .. | .ldH .. | .ldHu ..
  | .ldW .. | .ldWu .. | .ldD .. | .ldC .. | .stB .. | .stH .. | .stW .. | .stD ..
  | .stC .. | .aaddD .. | .aandD .. | .aorD .. | .axorD .. | .aminD .. | .amaxD .. | .aminuD ..
  | .amaxuD .. | .aswapD .. | .acasD .. | .afaddD .. | .aaddW .. | .aandW .. | .aorW .. | .axorW ..
  | .aminW .. | .amaxW .. | .aminuW .. | .amaxuW .. | .aswapW .. | .acasW .. | .afaddW .. | .afaddbf ..
  | .fence .. | .fencer .. | .clean .. | .inval .. | .waitj .. | .pollj .. | .sleep .. | .yield ..
  | .vld .. | .vst .. | .vlds .. | .vsts .. | .vldx .. | .vstx .. | .vldt .. | .vstt ..
  | .sbind .. | .sunbind .. | .vldb .. | .tpred .. | .tvclr .. | .tvset .. | .thdr .. | .gath ..
  | .scat .. | .gathst .. | .vsort .. | .vsortx .. | .vbstep .. | .vtopk .. | .vmergek .. | .vrank ..
  | .occfg .. | .ocemit .. | .ocemiti .. | .ocacc .. | .ocstat .. | .ocrst .. | .ocgw .. | .ocga ..
  | .ocgf .. | .mmode .. | .mop .. | .msqd .. | .mtopk .. | .accrd .. | .accz .. | .mdrain ..
  | .mwait .. | .mnmb .. | .cpy .. | .cpy2d .. | .cpyq .. | .cpyx .. | .tbegin .. | .trec ..
  | .trecb .. | .trecv .. | .tend .. | .tplay .. | .tpop .. | .tpopb .. | .tpopv .. | .tstat ..
  | .send .. | .tenq .. | .rfork .. | .join .. | .tbind .. | .tunbind .. | .tfire .. | .chopen ..
  | .chclose .. | .chsend .. | .chrecv .. | .exit .. | .hstart .. | .hstop .. | .hstat .. | .bari ..
  | .bara .. | .barad .. | .barw .. | .baraw .. | .rld .. | .rst .. | .ramo .. | .gst ..
  | .gcommit .. | .gabort .. | .gcstat .. | .gwait .. | .nred .. | .nredw .. | .srd .. | .swr ..
  | .trap .. | .eret .. | .brk .. | .time .. | .halt .. | .cancel .. | .vmovs .. | .vmovx ..
  | .vins .. | .mset .. | .mget .. | .gset .. | .gget .. | .oset .. | .oget .. | .bmany ..
  | .bmnone .. | .bmall .. | .bgds .. | .bgdc .. | .vadd .. | .vsub .. | .vmul .. | .vmulh ..
  | .vfma .. | .vfms .. | .vmin .. | .vmax .. | .vand .. | .vor .. | .vxor .. | .vandn ..
  | .vsll .. | .vsrl .. | .vsra .. | .vrol .. | .vceq .. | .vcne .. | .vclt .. | .vcle ..
  | .vcvt .. | .vcvts .. | .vpack .. | .vunpk .. | .vperm .. | .vshuf .. | .vsldu .. | .vsldd ..
  | .vrsum .. | .vrmax .. | .vrmin .. | .vramax .. | .vmrg .. | .vcmpr .. | .vabs .. | .vneg ..
  | .vdiv .. | .vsqrt .. | .vexp2 .. | .vlog2 .. | .vdot4 .. | .vsad .. | .viota .. | .vmcnt ..
  | .vclz .. | .vpopc .. | .vscl .. | .vmov .. | .trapEntry .. | .tcmpMatch .. | .sleepWake .. | .matrixStep ..
  | .drainCapture .. | .copyBurst .. | .gatherComplete .. | .taskDispatch .. | .stealRound .. | .stealAttempt .. | .launchOpen .. | .phaseBarrier ..
  | .bureauRun .. | .sliceExpiry .. | .gangStop .. | .gangDrain .. | .gangSave .. | .leaseExpiry .. | .eccUe .. | .activeMessage ..
  | .rload .. | .rstore .. | .ratomic .. | .gstage .. | .prepare .. | .publish .. | .discard .. | .query ..
  | .bararr .. | .barrierRetry .. | .spwrite .. | .mwrite .. | .rgath .. | .rscat .. | .trigger .. | .reply ..
  | .gstReply .. | .commitHandover .. | .ready .. | .decisionAck .. | .queryAnswer .. | .prepareTimeout .. | .stagingTimeout .. | .inDoubtTimer ..
  | .gwaitTimeLimit .. | .demand .. | .grant .. | .eack .. | .slotreq .. | .slotgnt .. | .redContrib .. | .nodeTimeout ..
  | .redResult .. | .flit .. | .replayRequest .. | .linkReplayLimit .. | .e2eTimer .. | .linkFailure .. | .tsync .. | .syncTick ..
  | .spillWrite .. | .chunkFetch .. | .ident .. | .semacq .. | .semrel .. | .semaphoreLoss .. | .jobstart .. | .jobstop ..
  | .jobresume .. | .jobremove .. | .graphstart .. | .tlbinv .. | .doorbell .. | .setpkg .. | .routewr .. | .treewr ..
  | .rateset .. | .fwload .. | .linkretrain .. | .stackretire .. | .dieoff .. | .dieon .. | .attest .. | .powercap ..
  | .sbresolve .. | .sbresolveTimeout .. | .sblist .. | .sbdecide .. | .sblost .. | .powerOn | .reducedService | .partJoin ..
  | .thermalThrottle .. | .thermalShutdown .. | .variableLatencyResult .. | .unallocatedWord .. | .barrierWaitRequest .. | .gwaitQueryRepeat .. | .linkRetrainDone .. => i

/-- The instruction whose bits are `w`, as the opcode table numbers them: bit 0 is the least significant bit of the
first byte; the bits above `nbits` are 0. -/
def decodeTableWord (nbits w : Nat) : Option Instr :=
  match decode (leBytes 4 (w % 2 ^ nbits)) with
  | .ok (i, _) => some i
  | .error _ => none

end

end Sys2Proof
end

