-- ==== Sys2Proof/Config.lean ====
section
/-! DEFINITION. What one implementation fixes and what the manual leaves free. The opaque constants have no body:
a statement about them holds whatever they are (notes/assumptions name each). -/

namespace Sys2Proof.Config

/-- Lower address of the local window (R242). -/
def LW : Nat := 0xFFFF0000000000000000

/-- First physical place of the pools: places below are the 46-bit physical addresses (R245), pool byte `o` of the
core with index `k` on die `d` is place `poolBase + (256·d + k)·2^18 + o`. -/
def poolBase : Nat := 2 ^ 46

/-- The byte an unwritten place reads as (log 2). DESIGN CHOICE: the manual gives no power-on contents of HBM. -/
def blankByte : Byte := 0

/-- Longest read lease, in ns (R278). -/
def leaseMax : Nat := 3500

/-- Whether a fetch that finds a stale line in the instruction cache takes the old halfwords (R74), by the running
count of such choices. -/
opaque fetchStale : Nat → Bool

/-- Whether a load takes the older value that its core's L1 still holds under a lease (R280), by the running count. -/
opaque leaseOld : Nat → Bool

/-- Corrected ECC errors in a core's pool and instruction cache (R254, R403), by core and cycle. -/
opaque correctedErrors : Nat → Nat → Nat

/-- Granules of memory in which an uncorrectable error arises (R254), by TIME and fraction. -/
opaque newErrors : Nat → Nat → List Nat

/-- Since when a control port has been without its host connection (R409), by port and TIME; none while it has it. -/
opaque hostLostSince : Nat → Nat → Option Nat

/-- Whether a translation-buffer entry is still held when it is looked up (R258, R259), by the running count. -/
opaque tlbKeeps : Nat → Bool

/-- Where in the order of R279 a store stands among the places that it may take, by the number of the access. -/
opaque orderPlace : Nat → Nat

/-- The bytes a store race leaves, or a load race receives, in the overlap (R283), by the running count. -/
opaque raceByte : Nat → Byte

/-- A byte left undefined at the target of a transfer that ended in LINK_FAIL (R209, R356), by the running count. -/
opaque undefinedByte : Nat → Byte

/-- The word GCSTAT writes when its query ends without an answer (R313 gives none), by the running count. -/
opaque lostAnswer : Nat → Word

/-- Further causes that end SLEEP early (R354), by the running count. -/
opaque sleepEndsEarly : Nat → Bool

/-- Whether a trace record is lost to a ring that cannot keep pace (R406, R407), by the running count. -/
opaque traceLoses : Nat → Bool

/-- Which elements of a gather or scatter the copy unit takes into one step (R275 has the slices act on each element, R276
shows part of the elements of one job answered), by the running count and the element. -/
opaque gatherTakes : Nat → Nat → Bool

/-- Whether the signature of a firmware image verifies against the vendor key (R412). -/
opaque firmwareVerifies : List Byte → Bool

/-- Rollback number in the header of a firmware image (R412 gives no layout). -/
opaque firmwareRollback : List Byte → Nat

/-- The device's attestation signature, r then s (R413), over the signed bytes, by the running count. -/
opaque attestSign : List Byte → Nat → BitVec 768

/-- Router at which a link attaches to its die's mesh, as a core index, and the direction in which the gateway lies
from it, 1 N to 4 W (R390 gives neither). -/
opaque linkCore : Nat → Nat
opaque linkSide : Nat → Nat

/-- What the data of a JOBSTART and a GRAPHSTART say (R408 names what they carry and gives no layout); none where they say
nothing. -/
opaque jobSpecOf : List Byte → Option JobSpec
opaque graphSpecOf : List Byte → Option GraphSpec

/-- Bytes that the records of a save take, and the bytes of the save area that R233 does not lay out, by the running
count. -/
opaque saveLength : Nat → Nat
opaque saveByte : Nat → Byte

/-- The domain number of the packages that align TIME, and the package that is their grandmaster: the host sets both, by no
command that the manual lists (R401). -/
opaque syncDomain : Nat
opaque grandmaster : Nat

/-- The rate correction in ppm that a package derives from a TSYNC message (R401 gives its bound alone), by the running
count. -/
opaque rateCorrection : Nat → Int

/-- Module serial number and device identity public key (R410). -/
opaque serial : BitVec 128
opaque idKey : BitVec 768

end Sys2Proof.Config
end

