-- ==== Sys2Proof/Machine/State.lean ====
section
/-! DEFINITION. The whole state of the machine as plain data, and its value at reset.

One core is in FOCUS (`State.core`); every other core of the package that has ever held state is parked in
`State.others`. A core at reset that was never touched is in neither list. The agenda says which agent moves
next (log 3). -/

namespace Sys2Proof.Machine

/-- Why the machine stops with a fault. -/
inductive Fault where
  /-- Raised by the step for an agenda event that is not well formed as an instruction (WellFormed.lean): a field with
  more bits than the table gives it. Safe: the hardware never makes that step. -/
  | noSuchUnit
deriving DecidableEq, Repr

/-- Why the machine refuses a step. -/
inductive Refusal where
  /-- Raised by an arm of `exec` whose instruction has no meaning yet. Safe: nothing follows from a refused step. -/
  | notModelled (mnemonic : String)
deriving DecidableEq, Repr

/-- The register files a pending result or a read names, numbered as TVAL of STALL_SHORT numbers them (R80). -/
inductive RegFile where
  | c | v | m | g | o
deriving DecidableEq, Repr, Inhabited

/-- Trap causes of R216 that are delivered to a handler or recorded. -/
inductive Cause where
  | illegal | capTag | capBounds | capPerm | align | page | stallShort | accOwned | accBusy | sparseMeta
  | mixedSize | barrierOver | tapeFull | tapeDiverge | streamEnd | ue | watch | brk | soft | preempt | channel
  | trigOver | jobFault | interrupt
deriving DecidableEq, Repr, Inhabited

/-- A cause with its trap value (R216). -/
structure Trap where
  cause : Cause
  tval  : Addr := 0
deriving DecidableEq, Repr, Inhabited

/-- Loop state of a context (R130, R214). -/
structure Loop where
  lact   : Bool := false
  llen   : Nat := 0
  lidx   : Nat := 0
  lsz    : Nat := 0
  lbeg   : Addr := 0
  lcnt   : Word := 0
  liter  : Word := 0
  lfstep : Word := 0
  lmstep : Word := 0
deriving DecidableEq, Repr, Inhabited

/-- A fixed-latency result not yet readable (R79 to R81): the register, its value and the first cycle that reads it. -/
structure FixPend where
  file  : RegFile
  idx   : Nat
  val   : VReg
  ready : Nat
deriving DecidableEq, Repr, Inhabited

/-- A variable-latency result on its way to a register (R79); `op` is the tag of the operation that brings it,
`val` the value once it is there. -/
structure VarPend where
  file : RegFile
  idx  : Nat
  op   : Nat
  val  : Option (VReg × Bool) := none
deriving DecidableEq, Repr, Inhabited

/-- Helper slot states (R350); h0 is always LIVE. -/
inductive Slot where
  | free | live | ended
deriving DecidableEq, Repr, Inhabited

/-- What a waiting instruction has already done (R171, R176, R279, R313, R354, R359, R360): nothing; a barrier arrival or other
request whose wait cannot be interrupted, and its reply; a barrier wait that is out, answered, or to be asked again;
a request for receive slots; a sleep; a yield; a GWAIT; a fence; part of a vector access. -/
inductive Wait where
  | none
  | sent (tag : Nat)
  | replied (status : Nat) (val : Word)
  | barw (tag : Nat)
  | barwDone (status : Nat) (val : Word)
  | again (since : Nat)
  | slots (tag : Nat)
  | sleeping (limit : Word) (woken : Bool)
  | yielding (owe : List Nat)
  /-- GWAIT: its operand, tag of the query out (0 none), last status word, time it was issued, time of the next query,
  present wait, time limit passed. -/
  | gwait (arg : Word) (tag : Nat) (last : Word) (since next wait : Nat) (expired : Bool)
  /-- FENCE or FENCER has begun to wait (R403). -/
  | fence
  /-- TEND has begun to wait (R375). -/
  | ending
  /-- A vector access of which some single accesses are performed: how many, and the bytes they read (R279, log 3). -/
  | part (n : Nat) (bs : List Byte)
  /-- OCACC: arrival number of the first arrival it has consumed, and the log entries of all (R177, R374). -/
  | ocacc (first : Nat) (es : List Word)
deriving DecidableEq, Repr, Inhabited

/-- One context (R20): registers, program counter, loop, pending results and wait state. -/
structure Ctx where
  c      : Vector Cap 32 := Vector.replicate 32 Cap.null
  o      : Vector Word 8 := Vector.replicate 8 0
  pcc    : Cap := Cap.null
  /-- Address after the instruction being issued, and its word: latches of the issue step (log 12). -/
  npc    : Addr := 0
  ir     : BitVec 32 := 0
  loop   : Loop := {}
  readyAt : Nat := 0
  fix    : List FixPend := []
  pend   : List VarPend := []
  slot   : Slot := .free
  ahead  : Bool := false
  endCause : Nat := 0
  endTval  : Addr := 0
  endPc    : Addr := 0
  stopReq  : Bool := false
  nfail  : Nat := 0
  fst    : Nat := 0
  fpkg   : Nat := 0
  wait   : Wait := .none
  /-- The instruction at the program counter found itself waiting in this cycle: the context is not ready (R22). -/
  blocked : Bool := false
deriving DecidableEq, Repr, Inhabited

/-- A stream port (R154). -/
structure Port where
  bnd    : Bool := false
  dir    : Bool := false
  cap    : Cap := Cap.null
  stride : Word := 0
  cnt    : BitVec 32 := 0
  idx    : BitVec 32 := 0
deriving DecidableEq, Repr, Inhabited

/-- Kinds of matrix job (R190). -/
inductive MatKind where
  | mop | msqd | drain
deriving DecidableEq, Repr, Inhabited

/-- A job of the matrix queue (R190) with everything it sampled at issue. -/
structure MatJob where
  kind  : MatKind
  ri    : Nat
  ser   : Nat
  a     : Nat := 0
  b     : Nat := 0
  afmt  : Nat := 0
  bfmt  : Nat := 0
  accf  : Nat := 0
  kst   : Nat := 0
  nm    : Nat := 0
  lenient : Bool := false
  asr   : Nat := 0
  bsr   : Nat := 0
  amx   : Bool := false
  bmx   : Bool := false
  mreg  : Nat := 0
  step  : Nat := 0
  begun : Bool := false
  paused : Option Trap := none
  /-- Scale and metadata images read at the last step that was due (R196, R197). -/
  sa    : VReg := 0
  sa2   : VReg := 0
  sb    : VReg := 0
  sb2   : VReg := 0
  md    : VReg := 0
  /-- MDRAIN: sampled mode, SAT and SR counter and seed (R62, R71), output type, MX flag, wake-up. -/
  rnd   : Nat := 1
  sat   : Bool := false
  srT   : Word := 0
  srSeed : Word := 0
  ofmt  : Nat := 0
  mxo   : Bool := false
  wake  : Bool := false
  hnd   : Nat := 0
  arg0  : Word := 0
  arg1  : Word := 0
  addr  : Addr := 0
  target : Nat := 0
  pcc   : Cap := Cap.null
  launch : Nat := 0
  /-- Capture done; the drain is being delivered (R208): packets not yet answered, the worst status so far, and whether
  the wake-up message is out. -/
  captured : Bool := false
  out    : Nat := 0
  bad    : Nat := 0
  waking : Bool := false
  /-- The job's trap has been taken (R192), or the job has been abandoned in delivery (R210). -/
  told   : Bool := false
  gone   : Bool := false
deriving DecidableEq, Repr, Inhabited

/-- Kinds of copy-unit job (R355, R274). -/
inductive CopyKind where
  | cpy | cpy2d | cpyq | cpyx | gath | scat
deriving DecidableEq, Repr, Inhabited

/-- What a copy-unit job carries (R356, R274). -/
structure Copy where
  kind  : CopyKind
  dst   : Cap
  src   : Cap
  len   : Nat := 0
  rows  : Nat := 1
  sp    : Int := 0
  dp    : Int := 0
  conv  : Bool := false
  tags  : Bool := false
  vt    : Nat := 0
  vt2   : Nat := 0
  rnd   : Nat := 1
  sat   : Bool := false
  srT   : Word := 0
  srSeed : Word := 0
  pool  : Bool := false
  peer  : Nat := 0
  list  : Nat := 0
  cnt   : Nat := 0
  es    : Nat := 1
  idxs  : List Nat := []
  vreg  : Nat := 0
  rem   : Bool := false
  data  : VReg := 0
  /-- Progress in bytes or elements, in the present descriptor of CPYQ, and the descriptor itself. -/
  pos   : Nat := 0
  desc  : Nat := 0
  /-- Remote jobs: requests still to be answered, and the elements of a gather or scatter asked for. -/
  out   : Nat := 0
  asked : List Nat := []
  /-- CPYX: bytes read for the packet at hand. -/
  buf   : List Byte := []
  /-- PCC.Y at issue; the job runs. -/
  y     : Bool := false
  begun : Bool := false
  /-- Its place in the rotation of the cluster's running jobs: the number of the turn it last had (R355). -/
  last  : Nat := 0
  /-- Status so far with its cause, position and lowest faulting address. -/
  bad   : Nat := 0
  cause : Nat := 0
  fpos  : Nat := 0
  faddr : Nat := 0
deriving DecidableEq, Repr, Inhabited

/-- A job record (R321, R352, R353). -/
structure JobRec where
  cls    : Nat
  ri     : Nat
  ser    : Nat
  ctx    : Nat := 0
  status : Nat := 0
  cause  : Nat := 0
  count  : Nat := 0
  pos    : Nat := 0
  cp     : Option Copy := none
  tree   : Nat := 0
  inst   : Nat := 0
  /-- NRED result; GATH arrival mask in the low bits (R276, R318). -/
  result : VReg := 0
  arrive : BitVec 128 := 0
  group  : Nat := 0
deriving DecidableEq, Repr, Inhabited

/-- State of a receive slot (R344). -/
inductive RSlot where
  | free
  | granted (seid tag : Nat)
  | full
deriving DecidableEq, Repr, Inhabited

/-- A waiting slot request (R344). -/
structure SlotReq where
  seid : Nat
  tag  : Nat
  m    : Nat
deriving DecidableEq, Repr, Inhabited

/-- A receive end (R342 to R347): id, slot count, first slot, slot states, full slots oldest first, requests waiting. -/
structure ChanEnd where
  id    : Nat
  k     : Nat
  base  : Nat
  slots : List RSlot
  fifo  : List Nat := []
  reqs  : List SlotReq := []
  /-- Words of the oldest full slot that the order-code receiver has taken, and how many vectors it still discards up
  to their end markers (R32, R39, R179). -/
  pos   : Nat := 0
  discard : Nat := 0
deriving DecidableEq, Repr, Inhabited

/-- The answer to a slot request that its instruction has not yet taken (R171, R344): the request's tag, receive end
and the slots granted; none when it was refused. -/
structure HeldGrant where
  tag   : Nat
  peer  : Nat
  id    : Nat
  slots : List Nat
deriving DecidableEq, Repr, Inhabited

/-- The order-code receiver (R159, R160, R174). -/
structure Receiver where
  act   : BitVec 32 := 0
  p     : Nat := 0
  mode  : Nat := 0
  mrg   : Nat := 0
  nc    : Nat := 0
  nf    : Nat := 0
  ch0   : Nat := 0
  wcap  : Cap := Cap.null
  fcap  : Cap := Cap.null
  lcap  : Cap := Cap.null
  wmax  : Nat := 0
  orank : Nat := 0
  st    : Nat := 0
  cfg   : Bool := false
  nans  : Bool := false
  satf  : Bool := false
  win   : Nat := 0
  eng   : Bool := false
  lastk : Nat := 0xFFFFFF
  present : List Nat := []
  round : Nat := 0
  slot  : Nat := 0
  /-- Producer slots that have ended (R32). -/
  ended : List Nat := []
deriving DecidableEq, Repr, Inhabited

/-- Tape channel states (R362). -/
inductive TapeSt where
  | idle | recording | check | play | ended | broken
deriving DecidableEq, Repr, Inhabited

/-- The open record of a recording channel (R367). -/
inductive OpenRec where
  | none
  | vals (bpos : Nat) (vs : List Word)
  | zrun (bpos : Nat) (n : Nat)
deriving DecidableEq, Repr, Inhabited

/-- The current record of a playing channel (R369): a run of values or zeros, a VEC image or an OCA record. -/
inductive CurRec where
  | none
  | vals (bpos at_ : Nat) (vs : List Word)
  | zrun (bpos at_ n : Nat)
  | vec (bpos at_ : Nat) (pair : Bool) (v0 v1 : VReg)
  | oca (bpos at_ : Nat) (fin : Bool) (first : Nat) (finw : Word) (es : List Word)
deriving DecidableEq, Repr, Inhabited

/-- The tape channel (R361). -/
structure Tape where
  st     : TapeSt := .idle
  region : Cap := Cap.null
  spill  : Option Cap := none
  cap    : Nat := 0
  p      : Nat := 0
  cur    : OpenRec := .none
  bw     : Word := 0
  bn     : Nat := 0
  bits   : Nat := 0
  /-- Check mode: stream length, forward cursor, and the loaded branch word, its bits left and bits checked. -/
  len    : Nat := 0
  fwd    : Nat := 0
  chkw   : Word := 0
  chkn   : Nat := 0
  chkd   : Nat := 0
  /-- Playback (R369). -/
  cursor : Nat := 0
  play   : CurRec := .none
  w      : Word := 0
  r      : Nat := 0
  /-- Lead frame of the BITS record that W comes from. -/
  wAt    : Nat := 0
  /-- Full chunks staged and not yet written; lowest chunk fetched back (R363, R376). -/
  staged : List Nat := []
  fetched : Nat := 0
  fcause : Bool := false
  /-- Address space of the job that began the tape. -/
  asid   : Nat := 0
deriving DecidableEq, Repr, Inhabited

/-- A binding table entry (R338, R388): its number in the table and its fields. -/
structure Binding where
  addr   : Word
  idx    : Nat := 0
  hnd    : Nat := 0
  pcc    : Cap := Cap.null
  o2     : Word := 0
  o3     : Word := 0
  launch : Nat := 0
  seq    : Nat := 0
  pend   : Nat := 0
  bnd    : Bool := false
deriving DecidableEq, Repr, Inhabited

/-- A line of L1 with its read lease (R247, R278, R280): the line's place, the lease's end, the contexts that have
written the line since the lease was granted, its bytes and tagged granules, the place in the order of the last write they hold,
and the number of the first write, if any, after which memory holds others, with the lowest place of such a write. -/
structure L1Line where
  line : Nat
  until_ : Nat
  wrote : List (Nat × Nat) := []
  data : List Byte := []
  tags : List Nat := []
  got  : Nat := 0
  cut  : Option Nat := none
  low  : Nat := 0
deriving DecidableEq, Repr, Inhabited

/-- A line held by an L2 slice, 32·die + cluster (R246, R248): a home slice's copy, or a proxy slice's where the line is
homed on another die; and whether HBM holds an older copy. -/
structure L2Line where
  slice : Nat
  line  : Nat
  dirty : Bool := false
deriving DecidableEq, Repr, Inhabited

/-- A line of the instruction cache (R252). -/
structure ILine where
  line : Nat
  data : List Byte
deriving DecidableEq, Repr, Inhabited

/-- A translation-buffer entry (R258): address space, global flag, page, level, the entry as read and its place. -/
structure Tlb where
  asid  : Nat
  gl    : Bool
  vpage : Nat
  level : Nat
  pte   : Word
  ea    : Nat
deriving DecidableEq, Repr, Inhabited

/-- Where a task may run (R322). -/
inductive Pin where
  | none
  | cluster (cl : Nat)
  | core (e : Nat)
deriving DecidableEq, Repr, Inhabited

/-- How a task came to its core (R404). -/
inductive How where
  | own | stolen | recruited | continued
deriving DecidableEq, Repr, Inhabited

/-- A task descriptor (R322). `launch` is its level identifier, 0 for none. -/
structure Task where
  hnd    : Nat
  a0     : Word := 0
  a1     : Word := 0
  a2     : Word := 0
  a3     : Word := 0
  pcc    : Cap := Cap.null
  prio   : Nat := 0
  pin    : Pin := .none
  tid    : Nat := 0
  launch : Nat := 0
  asid   : Nat := 0
  enq    : Nat := 0
  /-- An entry task of its launch (R329). -/
  entry  : Bool := false
deriving DecidableEq, Repr, Inhabited

/-- A task on a core, with the stamps of R404. -/
structure Running where
  task  : Task
  deq   : Nat := 0
  srch  : Nat := 0
  fails : Nat := 0
  how   : How := .own
  /-- CANCEL has ended the task; it leaves at its next boundary (R229). -/
  cancelled : Bool := false
deriving DecidableEq, Repr, Inhabited

/-- Steal state of an idle core (R327): next cluster in the ring, attempts left in the round, when the present
attempt was issued, when the next round may start, time spent in failed attempts. -/
structure Steal where
  next   : Nat := 0
  left   : Nat := 0
  issued : Nat := 0
  roundAt : Nat := 0
  srch   : Nat := 0
  fails  : Nat := 0
deriving DecidableEq, Repr, Inhabited

/-- A remote operation in flight from a core (R301, R298): its tag, packet, context, and what its reply completes. -/
structure RemOp where
  tag  : Nat
  ctx  : Nat
  pkt  : Packet
  /-- A remote load, store, atomic or grouped store, which FENCER and the failure summary count (R303). -/
  counts : Bool := false
  /-- Group staged by a GST (R304). -/
  group : Option Nat := none
  /-- Job record this operation belongs to: class and index. -/
  job  : Option (Nat × Nat) := none
  /-- Position of the request within its job; a gather's or scatter's elements. -/
  elem : Nat := 0
  elems : List Nat := []
  keepTag : Bool := false
deriving DecidableEq, Repr, Inhabited

/-- A deferred barrier wait (R360). -/
structure BarWait where
  bar  : Nat
  n    : Nat
  seid : Nat
  tag  : Nat
deriving DecidableEq, Repr, Inhabited

/-- A core (R20, R211, R238, R321): its contexts, h0's vector and matrix state, system registers and queues. -/
structure Core where
  /-- Local EID: 1024·die + core index (R16). -/
  id    : Nat := 0
  ctxs  : Vector Ctx 11 := (Vector.replicate 11 {}).set 0 { slot := .live }
  /-- The context that issues in this step. -/
  cur   : Fin 11 := 0
  v     : Vector VReg 64 := Vector.replicate 64 0
  m     : Vector (BitVec 32) 8 := Vector.replicate 8 0
  g     : Vector Bool 16 := Vector.replicate 16 false
  sp    : Vector Port 8 := Vector.replicate 8 {}
  ie    : Bool := false
  pie   : Bool := false
  inh   : Bool := false
  schk  : Bool := false
  mm    : Bool := false
  rmode : Nat := 1
  srseed : Word := 0
  srctr : Word := 0
  b0    : Nat := 24
  b1    : Nat := 152
  b2    : Nat := 248
  aovf  : Bool := false
  meta_ : Option (Fin 64) := none
  mq    : List MatJob := []
  mfstep : Nat := 0
  mfcause : Nat := 0
  mfvalid : Bool := false
  mfjob : Nat := 0
  oc    : Receiver := {}
  tcause : Word := 0
  tval  : Addr := 0
  tpc   : Cap := Cap.null
  tvec  : Cap := Cap.null
  hs    : Vector Cap 4 := Vector.replicate 4 Cap.null
  sloop : Loop := {}
  ien   : BitVec 2 := 0
  ipend : BitVec 2 := 0
  tcmp  : Word := 0xFFFFFFFFFFFFFFFF
  brkstop : Bool := false
  msz   : Bool := false
  wpa   : Vector Word 4 := Vector.replicate 4 0
  wpc   : Vector Word 4 := Vector.replicate 4 0
  hwa   : Vector Word 2 := Vector.replicate 2 0
  hwc   : Vector Word 2 := Vector.replicate 2 0
  hwe   : Vector Word 2 := Vector.replicate 2 0
  gscyc : Word := 0
  gssent : Word := 0
  gsrecv : Word := 0
  gswhy : Word := 0
  cyc   : Nat := 0
  msent : Word := 0
  mrecv : Word := 0
  evc   : Vector Word 11 := Vector.replicate 11 0
  /-- Boundary causes kept until they may be taken (R220), in their order of priority. -/
  pTrig  : List Trap := []
  pWatch : List Trap := []
  pMixed : List Trap := []
  /-- An uncorrectable error has struck the core's own state or an instruction of it (R236). -/
  poisoned : Bool := false
  stopReq : Bool := false
  /-- TIME by which a core told to stop has stopped (R227). -/
  stopBy : Nat := 0
  stopped : Bool := false
  job   : Option Nat := none
  run   : Option Running := none
  idleSince : Nat := 0
  steal : Steal := {}
  jobs  : List JobRec := []
  ser   : Nat := 0
  ops   : List RemOp := []
  otag  : Nat := 1
  binds : List Binding := []
  ends  : List ChanEnd := []
  held  : List HeldGrant := []
  sent  : List ((Nat × Nat) × Nat) := []
  barw  : List BarWait := []
  tape  : Tape := {}
  l1    : List L1Line := []
  ic    : List ILine := []
  tlb   : List Tlb := []
  redLast : List (Nat × Nat) := []
deriving DecidableEq, Repr, Inhabited

/-- A cluster's Hutch (R324): head list, tail lists of levels 0 to 3, serial number. -/
structure Hutch where
  cl    : Nat
  head  : List Task := []
  t0    : List Task := []
  t1    : List Task := []
  t2    : List Task := []
  t3    : List Task := []
  ser   : Nat := 0
deriving DecidableEq, Repr, Inhabited

/-- A join cell (R336, R389). -/
structure Join where
  cl    : Nat
  idx   : Nat
  pcc   : Cap := Cap.null
  cont  : Nat := 0
  u4    : Word := 0
  u5    : Word := 0
  count : Word := 0
  rem   : Nat := 0
  gen   : Nat := 0
  vld   : Bool := false
  launch : Nat := 0
  /-- Job that the cell belongs to (R321). -/
  asid  : Nat := 0
deriving DecidableEq, Repr, Inhabited

/-- A level counter record (R397) with what the device keeps of the level: a launch's specification and entry tasks
not yet taken, a graph's place. -/
structure Level where
  asid  : Nat
  lid   : Nat
  cnt   : Nat := 0
  st    : Nat := 2
  dep   : Nat := 0
  parent : Nat := 0
  topen : Nat := 0
  tdone : Nat := 0
  spec  : Option LaunchSpec := none
  entries : Nat := 0
  last  : Bool := true
  /-- The launch is complete and its successors wait for the Bureau (R392). -/
  bureau : Bool := false
  /-- CANCEL has named the level (R229); it completes when its counter is zero. -/
  cancelled : Bool := false
  /-- The launch was refused before OPEN (R384). -/
  refused : Bool := false
  /-- The Bureau's place at this boundary (R392): the page it hashes, bytes of it read and the CRC so far, and the virtual address
  from which it looks for the next page. -/
  hashing : Option (Nat × Nat × Nat) := none
  hashVa  : Nat := 0
deriving DecidableEq, Repr, Inhabited

/-- Gang switch states (R232). -/
inductive Gang where
  | run | stopped | dispatchStop | drain | save | saved | unsaveable
deriving DecidableEq, Repr, Inhabited

/-- What a cluster's debug module keeps of a job's trace ring (R406): records written, whether tracing has stopped at the
full ring, records lost since the last one written, and the records of the present TIME, by position, not yet written. -/
structure TraceRing where
  cl   : Nat
  w    : Nat := 0
  full : Bool := false
  lost : Nat := 0
  buf  : List (Nat × Nat) := []
deriving DecidableEq, Repr, Inhabited

/-- A job of this package (R408, R232, R233). -/
structure Job where
  spec  : JobSpec
  gang  : Gang := .run
  sliceEnd : Nat := 0
  /-- In this cycle the slice has expired, and a launch has completed (R234). -/
  expired : Bool := false
  closed : Bool := false
  reduced : Bool := false
  /-- Saved records, the job's join cells (R321), the cells and tags of the scratchpads and inboxes, the cores whose
  record is poisoned (R236), spilled messages and whether VALID was written (R233). -/
  saved : List Core := []
  savedJoins : List Join := []
  savedMem : List Host.Cell := []
  savedTags : List Nat := []
  poisoned : List Nat := []
  spilled : List Packet := []
  valid : Bool := false
  pendGraphs : List GraphSpec := []
  /-- Ports whose JOBSTOP is answered once every core of the gang has stopped (R226). -/
  stopPorts : List Nat := []
  traces : List TraceRing := []
deriving DecidableEq, Repr, Inhabited

/-- States of a Sideboard group (R309); a group in neither state is not held. -/
inductive PartSt where
  | staging | prepared
deriving DecidableEq, Repr, Inhabited

/-- A staged store (R304): its place, and the address and address space that it was translated for. -/
structure SbEntry where
  place : Nat
  size  : Nat
  data  : BitVec 128
  tag   : Bool
  va    : Nat := 0
  asid  : Nat := 0
deriving DecidableEq, Repr, Inhabited

/-- A group held at a memory agent (R305, R309). -/
structure SbGroup where
  stack : Nat
  src   : Nat
  grp   : Nat
  st    : PartSt := .staging
  es    : List SbEntry := []
  since : Nat := 0
  /-- TIME at which the state was entered (R416). -/
  entered : Nat := 0
  wait  : Nat := 200000
  /-- A PUBLISH has reached this agent; its lines are held until the package's last participant has it (R310). -/
  holding : Bool := false
  /-- The PUBLISH to acknowledge once it is applied. -/
  pub   : Option Packet := none
deriving DecidableEq, Repr, Inhabited

/-- One participant in a commit record (R308, R313). -/
structure Participant where
  agent : Nat
  count : Nat := 0
  ready : Bool := false
  acked : Bool := false
deriving DecidableEq, Repr, Inhabited

/-- Commit record states (R308, R313), with the number of the status word. -/
inductive CommitSt where
  | open_ | preparing | publishing | published | discarding | discarded
deriving DecidableEq, Repr, Inhabited

/-- A commit record (R304, R308, R313). -/
structure Commit where
  src   : Nat
  grp   : Nat
  asid  : Nat := 0
  st    : CommitSt := .open_
  why   : Nat := 0
  parts : List Participant := []
  feid  : Nat := 0
  lostp : Bool := false
  /-- GST replies not yet in; a GCOMMIT or GABORT has been issued. -/
  wait  : Nat := 0
  asked : Bool := false
  /-- A GABORT is on its way to the commit agent (R307). -/
  abort : Bool := false
  job   : Option Nat := none
  since : Nat := 0
deriving DecidableEq, Repr, Inhabited

/-- A reduction instance at a node (R316, R317). -/
structure RedInst where
  node  : Node
  tree  : Nat
  inst  : Nat
  inputs : List (Nat × Packet) := []
  first : Nat := 0
  done  : Bool := false
  /-- Instances of the tree that the node has forwarded, of the last 2^15. -/
  gone  : List Nat := []
deriving DecidableEq, Repr, Inhabited

/-- What a gateway keeps of the clock messages of its link (R401): sequence number of its last request for the link's delay, when
that left and when its answer came, when the request reached the other end, the link's delay, and the last Sync with its
arrival. -/
structure Ptp where
  seq    : Nat := 0
  sentAt : Nat := 0
  backAt : Nat := 0
  farAt  : Nat := 0
  delay  : Nat := 0
  sync   : Nat := 0
  syncAt : Nat := 0
deriving DecidableEq, Repr, Inhabited

/-- A link end (R293, R299, R300). -/
structure Link where
  trained : Bool := false
  retraining : Bool := false
  tx    : Nat := 0
  rx    : Nat := 0
  held  : List Flit := []
  /-- Replays in a row of one flit, and its sequence number (R299). -/
  replays : Nat := 0
  replayOf : Nat := 0
  stream : List Byte := []
  /-- Packet bytes put on the link whose flit has not left. -/
  tail  : List Byte := []
  /-- Flits that have left on the wire, in order. -/
  out   : List Flit := []
  ptp   : Ptp := {}
deriving DecidableEq, Repr, Inhabited

/-- Send state of an ordered pair of endpoints (R299). -/
structure PairTx where
  src   : Nat
  dst   : Nat
  next  : Nat := 0
  /-- Packets not yet acknowledged, and when each was first sent; when the timer of the oldest was last started. -/
  unack : List Packet := []
  sentAt : List Nat := []
  since : Nat := 0
  fails : Nat := 0
  /-- Packets that wait for the pair's one unsolicited packet to be acknowledged, or for a grant; data bytes granted and
  not yet sent (R298). -/
  wait  : List Packet := []
  granted : Nat := 0
deriving DecidableEq, Repr, Inhabited

/-- Receive state of an ordered pair (R299). -/
structure PairRx where
  src   : Nat
  dst   : Nat
  want  : Nat := 0
deriving DecidableEq, Repr, Inhabited

/-- A link routing table entry (R300). -/
structure Route where
  dst : Nat
  ent : BitVec 16
deriving DecidableEq, Repr, Inhabited

/-- Firmware of a die (R412). -/
structure Firmware where
  image : List Byte := []
  fused : Nat := 0
deriving DecidableEq, Repr, Inhabited

/-- Service states (R411). -/
inductive Svc where
  | reset | reduced | joining | full
deriving DecidableEq, Repr, Inhabited

/-- Die states (R410); `reduced` is die 0 in reduced service (R411), which IDENT shows as joining. -/
inductive DieSt where
  | offline | joining | reduced | online
deriving DecidableEq, Repr, Inhabited

/-- A reply to a device command (R408). -/
structure HostReply where
  port   : Nat
  code   : Nat
  status : Nat
  data   : List Byte := []
deriving DecidableEq, Repr, Inhabited

/-- An event both ports receive (R409, R226). -/
inductive HostEvent where
  | stop (asid reason origin : Nat)
  | jobFault (asid reason origin : Nat)
  | timeOffset
  | serviceDone (part : Nat)
  | launchRefused (asid lid : Nat)
  | switchDone (asid : Nat)
deriving DecidableEq, Repr, Inhabited

/-- An access kept for mixed-size races (R283): its number, thread, virtual address, first place, bytes, bytes of each
single access in it (0 where a load of any size that returns it is ordered after it, R399), whether it wrote, when, its place in
the order of R279, and the numbers of the accesses that happen before it. -/
structure Recent where
  no    : Nat := 0
  core  : Nat
  ctx   : Nat
  va    : Nat := 0
  lo    : Nat
  n     : Nat
  esz   : Nat
  write : Bool
  time  : Nat
  at_   : Nat := 0
  past  : List Nat := []
deriving DecidableEq, Repr, Inhabited

/-- A thread's place: how far its accesses have come in the order of R279, and the numbers of the accesses that happen before what
it does next (R283). -/
structure Known where
  thread : Nat × Nat
  pos    : Nat := 0
  past   : List Nat := []
deriving DecidableEq, Repr, Inhabited

/-- Who moves next (log 3). -/
inductive Move where
  /-- The core with this local EID takes an issue cycle. -/
  | issue (e : Nat)
  /-- A step of another agent. -/
  | event (i : Instr)
  /-- The n-th packet in flight is performed at its destination. -/
  | deliver (n : Nat)
  /-- The next move performs no more than the first n single accesses of a vector access or a packet's writes (R279). -/
  | cut (n : Nat)
deriving DecidableEq, Repr, Inhabited

/-- The machine. -/
structure State where
  core    : Core := {}
  others  : List Core := []
  mem     : List Host.Cell := []
  tags    : List Nat := []
  /-- Granules that hold an uncorrectable error (R254). -/
  bad     : List Nat := []
  hutches : List Hutch := []
  joins   : List Join := []
  ctlb    : List (Nat × Tlb) := []
  /-- Walk caches (R238): by cluster, the pointers that walks have read. -/
  wcache  : List (Nat × Tlb) := []
  levels  : List Level := []
  jobs    : List Job := []
  groups  : List SbGroup := []
  commits : List Commit := []
  /-- Queries held until their group is decided (R297). -/
  heldQ   : List Packet := []
  trees   : List (Nat × List Byte) := []
  treeWr  : List (Nat × Nat × List Byte) := []
  reds    : List RedInst := []
  links   : Vector Link 16 := Vector.replicate 16 {}
  routes  : List Route := []
  ptx     : List PairTx := []
  prx     : List PairRx := []
  rates   : List (Nat × Nat) := []
  net     : List Packet := []
  /-- Messages accepted and acknowledged that wait at their network interface for room (R324). -/
  niWait  : List Packet := []
  /-- Operations in flight from memory agents and other units, and their next tag (R297). -/
  uops    : List RemOp := []
  utag    : Nat := 1
  pkg     : Option Nat := none
  svc     : Svc := .reset
  dies    : Vector DieSt 4 := Vector.replicate 4 .offline
  clocks  : Vector Nat 4 := Vector.replicate 4 1000
  stackOn : Vector Bool 8 := Vector.replicate 8 false
  retired : Vector Bool 8 := Vector.replicate 8 false
  fw      : Vector Firmware 4 := Vector.replicate 4 {}
  powerCap : Nat := 3400
  semHeld : Bool := false
  semOwner : Nat := 0
  semGen  : Nat := 0
  time    : Word := 0
  timeFrac : Nat := 0
  ppm     : Int := 0
  synced  : Bool := false
  replies : List HostReply := []
  events  : List HostEvent := []
  recents : List Recent := []
  /-- Number of the next access, and where each thread stands (R279, R283). -/
  nextNo  : Nat := 0
  known   : List Known := []
  /-- Single accesses that the present step may perform of a vector access or a packet's writes; none where all (R279). -/
  split   : Option Nat := none
  /-- An access of the present step meets a line that a publication holds, and so is not performed yet (R310). -/
  heldHit : Bool := false
  /-- A command of port 1 has been applied in this cycle (R409). -/
  portOne : Bool := false
  /-- A job has started since bring-up (R401). -/
  jobSeen : Bool := false
  /-- Lines of the L2 slices, home and proxy (R238, R248). -/
  l2      : List L2Line := []
  /-- Packets of reserved kinds that each die manager has counted (R295). -/
  dropped : Vector Nat 4 := Vector.replicate 4 0
  /-- SBRESOLVE in progress: stack, port and start time (R416). -/
  resolving : List (Nat × Nat × Nat) := []
  freeN   : Nat := 0
  agenda  : List Move := []
deriving DecidableEq, Repr, Inhabited

/-- The machine right after power-on (R411): only the control ports answer, no core holds a job, and every register
holds its reset value. -/
def State.reset : State := {}

end Sys2Proof.Machine
end

