-- ==== Sys2Proof/Machine/Memory.lean ====
section
/-! DEFINITION. Memory by physical place: bytes in one canonical list and the tags of 16-byte granules (R3, R245,
R253). A place below 2^46 is a physical address; the pools follow (R23, log 2). -/

namespace Sys2Proof.Machine

/-- The byte at a place; an unlisted place reads as the blank byte (log 2). -/
def memGet : List Host.Cell → Nat → Byte
  | [], _ => Config.blankByte
  | (k, b) :: m, a => if a = k then b else if a < k then Config.blankByte else memGet m a

/-- Memory with a byte put at a place: the list stays sorted and lists no blank byte. -/
def memSet : List Host.Cell → Nat → Byte → List Host.Cell
  | [], a, v => if v = Config.blankByte then [] else [(a, v)]
  | (k, b) :: m, a, v =>
    if a < k then (if v = Config.blankByte then (k, b) :: m else (a, v) :: (k, b) :: m)
    else if a = k then (if v = Config.blankByte then m else (a, v) :: m)
    else (k, b) :: memSet m a v

/-- No cell is blank, and every cell lies at `lo` or above and below the next. -/
def memWfFrom : Nat → List Host.Cell → Bool
  | _, [] => true
  | lo, (k, b) :: m => decide (lo ≤ k) && decide (b ≠ Config.blankByte) && memWfFrom (k + 1) m

/-- The canonical form: places strictly rising, no blank byte listed. -/
def Memory.wf (m : List Host.Cell) : Bool := memWfFrom 0 m

/-- Bytes put from a place upward. -/
def memSets : List Host.Cell → Nat → List Byte → List Host.Cell
  | m, _, [] => m
  | m, a, v :: vs => memSets (memSet m a v) (a + 1) vs

/-- `n` bytes from a place upward. -/
def memGets (m : List Host.Cell) (a : Nat) : Nat → List Byte
  | 0 => []
  | n + 1 => memGet m a :: memGets m (a + 1) n

/-- Whether a granule carries a tag (R253). -/
def tagGet (ts : List Nat) (g : Nat) : Bool := ts.contains g

/-- Tags with one granule set, kept sorted. -/
def tagSet : List Nat → Nat → List Nat
  | [], g => [g]
  | t :: ts, g => if g < t then g :: t :: ts else if g = t then t :: ts else t :: tagSet ts g

/-- Tags with the granules of places [a, a + n) cleared (R253). -/
def tagClear (ts : List Nat) (a n : Nat) : List Nat :=
  if n = 0 then ts else ts.filter (fun t => t < a / 16 || (a + n - 1) / 16 < t)

/-- First place of HBM's end, and the CXL windows (R245). -/
def hbmEnd : Nat := 2 ^ 39
def cxlBase : Nat := 0x200000000000
def cxlEnd : Nat := 0x400000000000

/-- Whether a place is host memory behind CXL, which carries no tags (R245, R253). -/
def isHostPlace (a : Nat) : Bool := cxlBase ≤ a && a < cxlEnd

/-- Uncorrectable granules that stay so after a write of [a, a + n): one written whole is good again (R254). -/
def badAfter (bad : List Nat) (a n : Nat) : List Nat :=
  bad.filter (fun g => g * 16 < a || a + n < g * 16 + 16)

/-- A plain write of bytes: every touched granule loses its tag (R253). -/
def State.putBytes (s : State) (a : Nat) (bs : List Byte) : State :=
  { s with mem := memSets s.mem a bs, tags := tagClear s.tags a bs.length, bad := badAfter s.bad a bs.length }

/-- Whether [a, a + n) meets an uncorrectable error (R254). -/
def State.badIn (s : State) (a n : Nat) : Bool := s.bad.any (fun g => a < g * 16 + 16 && g * 16 < a + n)

/-- Bytes as read. -/
def State.getBytes (s : State) (a n : Nat) : List Byte := memGets s.mem a n

/-- The little-endian number in `n` bytes (R3). -/
def State.getNat (s : State) (a n : Nat) : Nat := leNat (s.getBytes a n)

/-- A number stored in `n` bytes, least significant first (R3). -/
def State.putNat (s : State) (a n x : Nat) : State := s.putBytes a (leBytes n x)

/-- A capability image stored with its tag; host memory keeps no tag (R109, R253). -/
def State.putCap (s : State) (a : Nat) (c : Cap) : State :=
  let s' := s.putNat a 16 c.bits.toNat
  if c.tag && !isHostPlace a then { s' with tags := tagSet s'.tags (a / 16) } else s'

/-- The 128 bits and tag at a granule. -/
def State.getCap (s : State) (a : Nat) : Cap :=
  ⟨BitVec.ofNat 128 (s.getNat a 16), tagGet s.tags (a / 16) && !isHostPlace a⟩

/-- Place of a byte of the pool of the core with local EID `e` (log 2). -/
def poolPlace (e off : Nat) : Nat := Config.poolBase + (e / 1024 * 256 + e % 256) * 262144 + off

/-- Local EID of the core whose pool holds a place. -/
def poolOwner (a : Nat) : Nat :=
  let i := (a - Config.poolBase) / 262144
  i / 256 * 1024 + i % 256

/-- Stack of an HBM place (R245). -/
def stackOf (a : Nat) : Nat := a / 2 ^ 36

/-- Whether a stack takes part: online and not retired (R9, R414). -/
def State.stackUp (s : State) (st : Fin 8) : Bool := s.stackOn[st] && !s.retired[st]

/-- Whether the memory at a place takes part in work: that of an offline or retired stack does not (R9). -/
def State.reaches (s : State) (a : Nat) : Bool := hbmEnd ≤ a || s.stackUp (Fin.ofNat 8 (stackOf a))

/-- Home slice of an HBM line: cluster on die `stack / 2` (R246). -/
def homeSlice (pa : Nat) : Nat :=
  (pa / 2 ^ 7 % 32) ^^^ (pa / 2 ^ 12 % 32) ^^^ (pa / 2 ^ 17 % 32) ^^^ (pa / 2 ^ 22 % 32) ^^^
    (pa / 2 ^ 27 % 32) ^^^ (pa / 2 ^ 32 % 16)

end Sys2Proof.Machine
end

