-- ==== Sys2Proof/Machine/Operands.lean ====
section
/-! DEFINITION. Registers as instructions read and write them (R108 to R116), capabilities decoded (R109 to R114),
pending results (R79 to R81), and the address forms. -/

namespace Sys2Proof.Machine

/-! ### Capability fields (R109) and bounds (R112, R113) -/

/-- Permission bits of R114 by number within P. -/
def pL : Nat := 0
def pS : Nat := 1
def pX : Nat := 2
def pLC : Nat := 3
def pSC : Nat := 4
def pA : Nat := 5
def pM : Nat := 6
def pG : Nat := 7
def pT : Nat := 8
def pH : Nat := 9
def pY : Nat := 10

/-- Address A, bits [127:48]. -/
def capA (c : Cap) : Nat := c.bits.toNat / 2 ^ 48
/-- Permissions P, bits [47:36]. -/
def capP (c : Cap) : Nat := c.bits.toNat / 2 ^ 36 % 4096
/-- Exponent E, bits [35:30]. -/
def capE (c : Cap) : Nat := c.bits.toNat / 2 ^ 30 % 64
/-- Base mantissa B, bits [29:15]. -/
def capB (c : Cap) : Nat := c.bits.toNat / 2 ^ 15 % 32768
/-- Length mantissa L, bits [14:0]. -/
def capL (c : Cap) : Nat := c.bits.toNat % 32768

/-- The 128 bits of given fields (R109). -/
def capBits (a p e b l : Nat) : BitVec 128 :=
  BitVec.ofNat 128 (l % 32768 + b % 32768 * 2 ^ 15 + e % 64 * 2 ^ 30 + p % 4096 * 2 ^ 36 + a % 2 ^ 80 * 2 ^ 48)

/-- Decoded base (R112), exact. -/
def capBase (c : Cap) : Int :=
  let g := capE c + 15
  let hi : Int := (capA c / 2 ^ g : Nat)
  let mid := capA c / 2 ^ capE c % 32768
  let k : Int := if mid < capB c then 1 else 0
  (hi - k) * ((2 ^ g : Nat) : Int) + ((capB c * 2 ^ capE c : Nat) : Int)

/-- Decoded top (R112). -/
def capTop (c : Cap) : Int :=
  let t := capBase c + ((capL c * 2 ^ capE c : Nat) : Int)
  if t < ((2 ^ 80 : Nat) : Int) then t else ((2 ^ 80 : Nat) : Int)

/-- Whether a capability holds a permission. -/
def capHas (c : Cap) (p : Nat) : Bool := (capP c).testBit p

/-- Whether it holds every permission of a list. -/
def capHasAll (c : Cap) (ps : List Nat) : Bool := ps.all (capHas c)

/-- A tagged register that may be dereferenced: E at most 50 and P bit 47 clear (R111). -/
def capValid (c : Cap) : Bool := c.tag && decide (capE c ≤ 50) && !capHas c 11

/-- Whether an exact address lies in the representable window, and from 0 to below 2^80 (R113). -/
def inWindow (c : Cap) (a : Int) : Bool :=
  decide (0 ≤ a) && decide (capBase c ≤ a) && decide (a < capBase c + ((2 ^ (capE c + 15) : Nat) : Int)) &&
    decide (a < ((2 ^ 80 : Nat) : Int))

/-- An exact address modulo 2^80. -/
def addr80 (a : Int) : Nat := (a % ((2 ^ 80 : Nat) : Int)).toNat

/-- The same capability at another address, its tag as it was. -/
def capAt (c : Cap) (a : Nat) : Cap := ⟨capBits a (capP c) (capE c) (capB c) (capL c), c.tag⟩

/-- A capability moved to an exact address: the tag stays only inside the window (R113). -/
def capMove (c : Cap) (a : Int) : Cap := ⟨(capAt c (addr80 a)).bits, c.tag && inWindow c a⟩

/-- An untagged register holding a scalar (R116). -/
def scalar (x : Word) : Cap := ⟨x.zeroExtend 128, false⟩

/-! ### The issuing context -/

/-- The context that issues. -/
def State.ctx (s : State) : Ctx := s.core.ctxs[s.core.cur]

/-- The state with the issuing context replaced. -/
def State.setCtx (s : State) (x : Ctx) : State :=
  { s with core := { s.core with ctxs := s.core.ctxs.set s.core.cur x } }

/-- Whether a helper issues. -/
def State.helper (s : State) : Bool := s.core.cur ≠ 0

/-- c register n (R110). -/
def Ctx.rc (x : Ctx) (n : Fin 32) : Cap := if n = 0 then Cap.null else x.c[n]

def State.rc (s : State) (n : Fin 32) : Cap := s.ctx.rc n

/-- V of R116: bits [63:0] of c register n. -/
def State.rx (s : State) (n : Fin 32) : Word := (s.rc n).bits.truncate 64

/-- o register n. -/
def State.ro (s : State) (n : Fin 8) : Word := s.ctx.o[n]

/-- v register n. -/
def State.rv (s : State) (n : Fin 64) : VReg := s.core.v[n]

/-- Mask register n: m0 reads all ones (R137). -/
def State.rm (s : State) (n : Fin 8) : BitVec 32 := if n = 0 then BitVec.allOnes 32 else s.core.m[n]

/-- Guard register n: g0 reads true (R137). -/
def State.rg (s : State) (n : Fin 16) : Bool := if n = 0 then true else s.core.g[n]

/-! ### Pending results -/

/-- Whether a pending result is for a register. -/
def FixPend.isFor (p : FixPend) (f : RegFile) (i : Nat) : Bool := p.file == f && p.idx == i
def VarPend.isFor (p : VarPend) (f : RegFile) (i : Nat) : Bool := p.file == f && p.idx == i

/-- A context without pending results for a register: a later write took effect (R81). -/
def Ctx.drop (x : Ctx) (f : RegFile) (i : Nat) : Ctx :=
  { x with fix := x.fix.filter (fun p => !p.isFor f i), pend := x.pend.filter (fun p => !p.isFor f i) }

/-- c register n written now; a write to c0 is discarded (R110). -/
def Ctx.wc (x : Ctx) (n : Fin 32) (v : Cap) : Ctx :=
  if n = 0 then x else { x.drop .c n with c := x.c.set n v }

def State.wc (s : State) (n : Fin 32) (v : Cap) : State := s.setCtx (s.ctx.wc n v)

/-- A scalar result (R116). -/
def State.wx (s : State) (n : Fin 32) (v : Word) : State := s.wc n (scalar v)

/-- o register n written. -/
def State.wo (s : State) (n : Fin 8) (v : Word) : State :=
  s.setCtx { s.ctx with o := s.ctx.o.set n v }

/-- Pending results of h0 for a register of a file only h0 has are dropped. -/
def State.dropH0 (s : State) (f : RegFile) (i : Nat) : State :=
  { s with core := { s.core with ctxs := s.core.ctxs.set 0 ((s.core.ctxs[(0 : Fin 11)]).drop f i) } }

/-- v register n written now. -/
def State.wv (s : State) (n : Fin 64) (v : VReg) : State :=
  let s := s.dropH0 .v n
  { s with core := { s.core with v := s.core.v.set n v } }

/-- Mask register n written now; a write to m0 is discarded (R137). -/
def State.wm (s : State) (n : Fin 8) (v : BitVec 32) : State :=
  if n = 0 then s else
    let s := s.dropH0 .m n
    { s with core := { s.core with m := s.core.m.set n v } }

/-- Guard n written now; a write to g0 is discarded (R137). -/
def State.wg (s : State) (n : Fin 16) (v : Bool) : State :=
  if n = 0 then s else
    let s := s.dropH0 .g n
    { s with core := { s.core with g := s.core.g.set n v } }

/-- A fixed-latency result of latency `l` at least 2: readable from cycle t + l (R78, R79). An earlier result of variable
latency for the register no longer reaches it (R81). -/
def State.later (s : State) (f : RegFile) (i : Nat) (v : VReg) (l : Nat) : State :=
  s.setCtx { s.ctx with fix := s.ctx.fix ++ [{ file := f, idx := i, val := v, ready := s.core.cyc + l }]
                        pend := s.ctx.pend.filter (fun p => !p.isFor f i) }

/-- A scalar result of fixed latency `l`. -/
def State.laterX (s : State) (n : Fin 32) (v : Word) (l : Nat) : State :=
  if n = 0 then s else s.later .c n (v.zeroExtend 1024) l

/-- A vector result of fixed latency `l`. -/
def State.laterV (s : State) (n : Fin 64) (v : VReg) (l : Nat) : State := s.later .v n v l

/-- A mask result of fixed latency `l`. -/
def State.laterM (s : State) (n : Fin 8) (v : BitVec 32) (l : Nat) : State :=
  if n = 0 then s else s.later .m n (v.zeroExtend 1024) l

/-- One register of a file written with the low bits of a wide value. -/
def State.wAny (s : State) (f : RegFile) (i : Nat) (v : VReg) : State :=
  match f with
  | .c => if h : i < 32 then
      (if i = 0 then s else s.setCtx { s.ctx with c := s.ctx.c.set i (scalar (v.truncate 64)) }) else s
  | .v => if h : i < 64 then { s with core := { s.core with v := s.core.v.set i v } } else s
  | .m => if h : i < 8 then
      (if i = 0 then s else { s with core := { s.core with m := s.core.m.set i (v.truncate 32) } }) else s
  | .g => if h : i < 16 then
      (if i = 0 then s else { s with core := { s.core with g := s.core.g.set i (v.getLsbD 0) } }) else s
  | .o => if h : i < 8 then s.setCtx { s.ctx with o := s.ctx.o.set i (v.truncate 64) } else s

/-- Pending results that stay pending at a cycle: those not ready and not passed by a later ready result for the
same register (R81). -/
def keepFix (cyc : Nat) : List FixPend → List FixPend
  | [] => []
  | p :: ps =>
    if p.ready ≤ cyc || ps.any (fun q => q.isFor p.file p.idx && q.ready ≤ cyc) then keepFix cyc ps
    else p :: keepFix cyc ps

/-- Results that are ready, written in issue order. -/
def applyFix (cyc : Nat) : List FixPend → State → State
  | [], s => s
  | p :: ps, s => applyFix cyc ps (if p.ready ≤ cyc then s.wAny p.file p.idx p.val else s)

/-- The issuing context's results that are readable at a cycle take their place (R79, R81). -/
def State.settleAt (s : State) (cyc : Nat) : State :=
  let ps := s.ctx.fix
  let s := applyFix cyc ps s
  s.setCtx { s.ctx with fix := keepFix cyc ps }

/-- At the present cycle. -/
def State.settle (s : State) : State := s.settleAt s.core.cyc

/-- Every pending fixed-latency result completes (R81, R217). -/
def State.settleAll (s : State) : State :=
  s.settleAt (s.ctx.fix.foldl (fun n p => max n p.ready) s.core.cyc)

/-- A read of a register whose fixed-latency result is not ready (R80). -/
def State.fixPending (s : State) (r : RegFile × Nat) : Bool := s.ctx.fix.any (fun p => p.isFor r.1 r.2)

/-- A read of a register whose variable-latency result is not ready (R79). -/
def State.varPending (s : State) (r : RegFile × Nat) : Bool := s.ctx.pend.any (fun p => p.isFor r.1 r.2)

/-- Number of a register file in TVAL of STALL_SHORT (R80). -/
def RegFile.code : RegFile → Nat
  | .c => 0 | .v => 1 | .m => 2 | .g => 3 | .o => 4

/-- Register reads of an instruction, in the form the scoreboard checks. -/
def rdC (n : Fin 32) : RegFile × Nat := (.c, n.val)
def rdV (n : Fin 64) : RegFile × Nat := (.v, n.val)
def rdM (n : Fin 8) : RegFile × Nat := (.m, n.val)
def rdG (n : Fin 16) : RegFile × Nat := (.g, n.val)
def rdO (n : Fin 8) : RegFile × Nat := (.o, n.val)

/-! ### Values and address forms -/

/-- Sign-extended imm7 of I format (R119). -/
def imm7 (i : BitVec 7) : Word := i.signExtend 64

/-- A word read as two's complement. -/
def sgn (x : Word) : Int := x.toInt

/-- A word of a Boolean (R117, R122). -/
def wb (b : Bool) : Word := if b then 1 else 0

/-- Effective address of M format: the base's address plus the scaled offset, exact (R76). -/
def State.ea (s : State) (a : Fin 32) (off : Int) (size : Nat) : Int :=
  (capA (s.rc a) : Int) + off * size

/-- Whether PCC holds permission Y (R114). -/
def State.pccY (s : State) : Bool := s.ctx.pcc.tag && capHas s.ctx.pcc pY

/-- Address of the instruction being issued. -/
def State.pc (s : State) : Nat := capA s.ctx.pcc

/-- Bits [lo + n - 1 : lo] of a word, as a number. -/
def fld (x : Word) (lo n : Nat) : Nat := x.toNat / 2 ^ lo % 2 ^ n

end Sys2Proof.Machine
end

