-- ==== Sys2Proof/Machine/Flags.lean ====
section
/-! DEFINITION. Status words: how the status and control registers are laid out as 64-bit values (R160, R214, R216),
and the rounding mode in force (R60). -/

namespace Sys2Proof.Machine

/-- Cause codes (R216). -/
def Cause.code : Cause → Nat
  | .illegal => 0x01 | .capTag => 0x02 | .capBounds => 0x03 | .capPerm => 0x04 | .align => 0x05 | .page => 0x06
  | .stallShort => 0x07 | .accOwned => 0x08 | .accBusy => 0x09 | .sparseMeta => 0x0A | .mixedSize => 0x0B
  | .barrierOver => 0x0C | .tapeFull => 0x0D | .tapeDiverge => 0x0E | .streamEnd => 0x0F | .ue => 0x10
  | .watch => 0x11 | .brk => 0x12 | .soft => 0x13 | .preempt => 0x14 | .channel => 0x15 | .trigOver => 0x16
  | .jobFault => 0x17 | .interrupt => 0x18

/-- MSTATE (R214). -/
def mstateWord (c : Core) : Word :=
  BitVec.ofNat 64 (b2n c.ie + 2 * b2n c.pie + 4 * b2n c.inh + 8 * b2n c.schk + 16 * b2n c.mm)

/-- LCTL and SLCTL (R214). -/
def lctlWord (l : Loop) : Word :=
  BitVec.ofNat 64 (b2n l.lact + 2 * (l.llen % 16) + 32 * (l.lidx % 8) + 256 * (l.lsz % 64))

/-- OSTAT (R160). -/
def ostatWord (r : Receiver) : Word :=
  BitVec.ofNat 64 (r.st % 4 + 4 * b2n r.cfg + 8 * b2n r.nans + 16 * b2n r.satf + 32 * (r.win % 32) +
    1024 * b2n r.eng + 2 ^ 32 * (r.lastk % 2 ^ 24))

/-- ORANK (R160). -/
def orankWord (r : Receiver) : Word := BitVec.ofNat 64 (r.orank % 65536)

/-- MFREC (R214). -/
def mfrecWord (c : Core) : Word :=
  BitVec.ofNat 64 (c.mfstep % 65536 + 2 ^ 16 * (c.mfcause % 64) + 2 ^ 22 * b2n c.mfvalid + 2 ^ 32 * (c.mfjob % 2 ^ 32))

/-- SPST (R214). -/
def spstWord (p : Port) : Word := BitVec.ofNat 64 (b2n p.bnd + 2 * b2n p.dir)

/-- SEMV (R409). -/
def semvWord (s : State) : Word :=
  BitVec.ofNat 64 (b2n s.semHeld + 2 * (s.semOwner % 2) + 2 ^ 32 * (s.semGen % 2 ^ 32))

/-- EID of a unit of this package (R16); package 0 until SETPKG. -/
def State.eid (s : State) (u : Nat) : Nat := (s.pkg.getD 0) * 4096 + u

/-- EID of the core that issues. -/
def State.myEid (s : State) : Nat := s.eid s.core.id

/-- Fields of o0 (R82). -/
def oVT (o : Word) : Nat := fld o 0 5
def oVT2 (o : Word) : Nat := fld o 5 5
def oRND (o : Word) : Nat := fld o 10 3
def oSAT (o : Word) : Bool := o.getLsbD 13
def oVMSK (o : Word) : Nat := fld o 14 3
/-- Reserved bits of o0 clear (R82, R83). -/
def o0ok (o : Word) : Bool := fld o 17 47 == 0

/-- Fields of o1 (R82). -/
def oAFMT (o : Word) : Nat := fld o 0 5
def oBFMT (o : Word) : Nat := fld o 5 5
def oACCF (o : Word) : Nat := fld o 10 2
def oKST (o : Word) : Nat := fld o 12 16
def oGRD (o : Word) : Nat := fld o 28 4
def oNM (o : Word) : Nat := fld o 32 2
def oLEN (o : Word) : Bool := o.getLsbD 34
def oOFMT (o : Word) : Nat := fld o 35 5
/-- Reserved bits of o1 clear (R82, R83). -/
def o1ok (o : Word) : Bool := fld o 40 24 == 0

/-- The o register the matrix and vector instructions read. -/
def State.o0 (s : State) : Word := s.ro 0
def State.o1 (s : State) : Word := s.ro 1

/-- o0 as a vector instruction may use it: reserved bits clear, type code not reserved (R83). -/
def vtOk (o : Word) : Bool := o0ok o && oVT o < 23

/-- Rounding code in force: o0.RND, or RMODE when it is 0 (R60). -/
def State.rnd (s : State) : Nat := if oRND s.o0 = 0 then s.core.rmode else oRND s.o0

end Sys2Proof.Machine
end

