-- ==== Sys2Proof/Machine/Ops.lean ====
section
/-! DEFINITION. The shared operations: how an operation ends, cores in and out of focus, translation (R255 to R258),
the local window (R242, R243), the checked access (R115), loads and stores as performed (R247, R253, R278, R283),
gang stops (R226), taking a trap and returning from one (R218, R221 to R223), and the frame that every instruction
issues in (R90, R220). -/

namespace Sys2Proof.Machine

/-! ### How an operation ends -/

/-- Why an operation ended without completing. -/
inductive Stop where
  /-- A fault of step 5 of R90. -/
  | trap (t : Trap)
  /-- The instruction waits; it issues again later. -/
  | wait
  /-- A step the machine cannot make. -/
  | fault (f : Fault)
deriving DecidableEq, Repr

/-- An operation on the machine: it keeps the state it reached when it stops. -/
abbrev Op := EStateM Stop State

/-- Raise a trap cause with its value. -/
def raise {α : Type} (c : Cause) (v : Int := 0) : Op α := throw (.trap ⟨c, BitVec.ofNat 80 (addr80 v)⟩)

/-- Wait here. -/
def waitHere {α : Type} : Op α := throw .wait

/-- Raise a trap unless a condition holds. -/
def need (b : Bool) (c : Cause) (v : Int := 0) : Op Unit := if b then pure () else raise c v

/-- Wait unless a condition holds. -/
def await (b : Bool) : Op Unit := if b then pure () else waitHere

/-- Change the state. -/
def upd (f : State → State) : Op Unit := modify f

/-- A step of the environment that only changes the state. -/
def done (s : State) : Host.Outcome State Fault Refusal := .next s

/-! ### Cores -/

/-- A core by local EID; one never touched is at reset. -/
def State.coreOf (s : State) (e : Nat) : Core :=
  if s.core.id = e then s.core else (s.others.find? (fun c => c.id == e)).getD { id := e }

/-- A core put in its place in the parked list, by EID. -/
def insCore (c : Core) : List Core → List Core
  | [] => [c]
  | x :: xs => if c.id < x.id then c :: x :: xs else if c.id = x.id then c :: xs else x :: insCore c xs

/-- A core changed, wherever it is. -/
def State.mapCore (s : State) (e : Nat) (f : Core → Core) : State :=
  if s.core.id = e then { s with core := f s.core } else { s with others := insCore (f (s.coreOf e)) s.others }

/-- The focus moved to a core. -/
def State.focusOn (s : State) (e : Nat) : State :=
  if s.core.id = e then s
  else { s with core := s.coreOf e, others := insCore s.core (s.others.filter (fun c => c.id != e)) }

/-- An operation done with a core in focus, the focus then put back. -/
def State.at (s : State) (e : Nat) (f : State → State) : State :=
  let e0 := s.core.id
  (f (s.focusOn e)).focusOn e0

/-- Every core that has state. -/
def State.allCores (s : State) : List Core := s.core :: s.others

/-- A context of the focused core changed. -/
def State.mapCtx (s : State) (h : Fin 11) (f : Ctx → Ctx) : State :=
  { s with core := { s.core with ctxs := s.core.ctxs.set h (f s.core.ctxs[h]) } }

/-- A count added to an event counter of the focused core (R403). -/
def State.count (s : State) (k : Fin 11) (n : Nat := 1) : State :=
  { s with core := { s.core with evc := s.core.evc.set k (s.core.evc[k] + BitVec.ofNat 64 n) } }

/-- Die and cluster (die·32 + cluster) of a core (R13). -/
def dieOf (e : Nat) : Nat := e / 1024
def clusterOf (e : Nat) : Nat := e / 1024 * 32 + e % 256 / 8

/-- Local EID of position p of a cluster. -/
def coreAt (cl p : Nat) : Nat := cl / 32 * 1024 + cl % 32 * 8 + p

/-! ### Jobs -/

/-- The job with an ASID in this package. -/
def State.jobOf (s : State) (asid : Nat) : Option Job := s.jobs.find? (fun j => j.spec.asid == asid)

/-- A job changed. -/
def State.mapJob (s : State) (asid : Nat) (f : Job → Job) : State :=
  { s with jobs := s.jobs.map (fun j => if j.spec.asid == asid then f j else j) }

/-- The focused core's job. -/
def State.myJob (s : State) : Option Job := s.core.job.bind s.jobOf

/-- ASID of the focused core's job; 0 when it has none. -/
def State.asid (s : State) : Nat := s.core.job.getD 0

/-! ### Translation -/

/-- What an access does (R256, R257). -/
inductive Acc where
  | load | store | atomic | fetch
deriving DecidableEq, Repr

/-- A leaf entry: where it stands, its value and its level (R255). -/
structure Leaf where
  ea    : Nat
  pte   : Nat
  level : Nat
deriving DecidableEq, Repr

/-- Low bit of a level's index (R255). -/
def levelShift (l : Nat) : Nat := 16 + 13 * l

/-- Page number of an entry, as an address (R256). -/
def ptePA (p : Nat) : Nat := p / 65536 % 2 ^ 30 * 65536

/-- V set and no reserved bit set (R256, R257). -/
def pteOk (p : Nat) : Bool := p.testBit 0 && p / 2 ^ 9 % 128 == 0 && p / 2 ^ 46 == 0

/-- A page's alignment, range and marks are as R257's third to fifth cases ask. -/
def leafOk (p l : Nat) : Bool :=
  let pa := ptePA p
  let size := 2 ^ levelShift l
  let hbm := pa + size ≤ hbmEnd
  let cxl := cxlBase ≤ pa && pa + size ≤ cxlEnd
  pa % size == 0 && (hbm || cxl) && p.testBit 5 == cxl && !(p.testBit 4 && p.testBit 5)

/-- The walk from a node at a level, with entries read by `rd` (R255, R257): the leaf, or none where the first five cases
fail. -/
def walkBy (rd : Nat → Nat) (va : Nat) : Nat → Nat → Option Leaf
  | 0, node =>
    if node + 65536 ≤ hbmEnd then
      let ea := node + 8 * (va / 2 ^ 16 % 8192)
      let p := rd ea
      if pteOk p && p.testBit 1 && leafOk p 0 then some ⟨ea, p, 0⟩ else none
    else none
  | l + 1, node =>
    if node + 65536 ≤ hbmEnd then
      let ea := node + 8 * (va / 2 ^ levelShift (l + 1) % 8192)
      let p := rd ea
      if pteOk p then
        if p.testBit 1 then (if l + 1 ≤ 2 && leafOk p (l + 1) then some ⟨ea, p, l + 1⟩ else none)
        else walkBy rd va l (ptePA p)
      else none
    else none

/-- The walk of the tables from a job's root (R255). -/
def walkLeaf (s : State) (root va : Nat) : Option Leaf := walkBy (fun ea => s.getNat ea 8) va 4 root

/-- Whether a translation-buffer entry serves an address (R258). -/
def Tlb.serves (t : Tlb) (asid va : Nat) : Bool :=
  (t.asid == asid || t.gl) && t.vpage == va / 2 ^ levelShift t.level

/-- The entry the core or its cluster holds for an address. -/
def State.tlbFind (s : State) (asid va : Nat) : Option Tlb :=
  match s.core.tlb.find? (fun t => t.serves asid va) with
  | some t => some t
  | none => (s.ctlb.find? (fun p => p.1 == clusterOf s.core.id && p.2.serves asid va)).map (·.2)

/-- Entries filled after a walk: 32 in the core, 2,048 in each cluster (R258). -/
def State.tlbFill (s : State) (t : Tlb) : State :=
  let cl := clusterOf s.core.id
  let (mine, rest) := s.ctlb.partition (fun p => p.1 == cl)
  { s with
    core := { s.core with tlb := (t :: s.core.tlb.filter (· != t)).take 32 }
    ctlb := ((cl, t) :: mine.filter (· != (cl, t))).take 2048 ++ rest }

/-- One piece of an access, within one 64 KiB page or window (R245): its address, place and length. -/
structure Seg where
  va    : Nat
  place : Nat
  len   : Nat
  /-- Entry that gave it; none for the local window. -/
  leaf  : Option Leaf := none
deriving DecidableEq, Repr

/-- A host page (R251). -/
def Seg.host (g : Seg) : Bool := isHostPlace g.place
/-- A page that L1 may hold: HBM without A or H (R247). -/
def Seg.cached (g : Seg) : Bool :=
  match g.leaf with
  | some l => !l.pte.testBit 4 && !l.pte.testBit 5
  | none => false

/-- The pool an offset of the local window reaches from a core: its core, pool byte, and whether it is the own pool
(R242). -/
def windowPool (e o : Nat) : Option (Nat × Nat × Bool) :=
  if 0x100000 ≤ o && o < 0x140000 then some (e, o - 0x100000, true)
  else if o < 0x200000 then some (coreAt (clusterOf e) (o / 0x40000), o % 0x40000, false)
  else if o < 0x240000 then some (coreAt (clusterOf e) 4, o - 0x200000, false)
  else none

/-- Whether a pool byte may be accessed (R240, R243). -/
def poolByteOk (c : Core) (own y : Bool) (k : Acc) (off : Nat) : Bool :=
  (c.b0 * 1024 ≤ off && off < c.b1 * 1024) ||
  (own && y && 18 * 1024 ≤ off && off < c.b0 * 1024) ||
  (own && y && k == .load && c.b2 * 1024 ≤ off && off < 262144)

/-- The first of `n` numbers from `a` that fails a test. -/
def firstBad (f : Nat → Bool) (a : Nat) : Nat → Option Nat
  | 0 => none
  | n + 1 => if f a then firstBad f (a + 1) n else some a

/-- A window piece (R242, R243): its place, or the lowest offending address. -/
def windowSeg (s : State) (y : Bool) (k : Acc) (va len : Nat) : Except Nat Seg :=
  match windowPool s.core.id (va - Config.LW) with
  | none => .error va
  | some (e, off, own) =>
    if k == .fetch then .error va
    else
      match firstBad (poolByteOk (s.coreOf e) own y k) off len with
      | some x => .error (va + (x - off))
      | none => .ok ⟨va, poolPlace e off, len, none⟩

/-- Whether an entry allows an access, beyond the walk (R250 to R252, R256, R257). -/
def leafAllows (l : Leaf) (k : Acc) (h : Bool) : Bool :=
  (k == .load || k == .fetch || l.pte.testBit 2) &&
  (k != .fetch || (l.pte.testBit 3 && !l.pte.testBit 4 && !l.pte.testBit 5)) &&
  (!l.pte.testBit 5 || (h && k != .atomic))

/-- Whose translation an access uses: address space, root node, PCC.Y and permission H. -/
structure Who where
  asid : Nat
  root : Option Nat
  y    : Bool := false
  h    : Bool := false
deriving DecidableEq, Repr

/-- The issuing context, through a capability. -/
def State.who (s : State) (c : Cap) : Who :=
  { asid := s.asid, root := s.myJob.map (·.spec.root), y := s.pccY, h := capHas c pH }

/-- The pieces of [va, va + n) by 64 KiB pages, ascending. -/
def pieces (va n : Nat) : List (Nat × Nat) :=
  if n = 0 then [] else
    (List.range ((va + n - 1) / 65536 - va / 65536 + 1)).map (fun i =>
      let lo := max va ((va / 65536 + i) * 65536)
      let hi := min (va + n) ((va / 65536 + i + 1) * 65536)
      (lo, hi - lo))

/-! ### Threads and the order of accesses (R277, R279, R283)

An access has a number, in the order in which accesses are performed, and a place in the order of R279; accesses at one place
stand there by their numbers. A load that returns what memory holds stands as early as its thread and the writes of its bytes
let it; where a store stands among the places it may take is free (log 5). -/

/-- One access more has its number. -/
def State.numbered (s : State) : State := { s with nextNo := s.nextNo + 1 }

/-- Whether two ranges overlap. -/
def overlaps (a n b m : Nat) : Bool := a < b + m && b < a + n

/-- Two lists of accesses as one. -/
def addAll (ns ms : List Nat) : List Nat := ns.filter (fun n => !ms.contains n) ++ ms

/-- Where a thread stands. -/
def State.knownOf (s : State) (t : Nat × Nat) : Known := (s.known.find? (fun k => k.thread == t)).getD { thread := t }

/-- It changed. -/
def State.setKnown (s : State) (k : Known) : State :=
  { s with known := k :: s.known.filter (fun x => x.thread != k.thread) }

/-- The accesses that happen before what a thread does next (R283). -/
def State.knows (s : State) (t : Nat × Nat) : List Nat := (s.knownOf t).past

/-- How far a thread's accesses have come in the order of R279. -/
def State.posOf (s : State) (t : Nat × Nat) : Nat := (s.knownOf t).pos

/-- More accesses that happen before what a thread does next. -/
def State.learn (s : State) (t : Nat × Nat) (ns : List Nat) : State :=
  let k := s.knownOf t
  s.setKnown { k with past := addAll ns k.past }

/-- A synchronising edge from one thread to another (R284 to R286): all that happens before what the first does next happens
before what the second does next, and the second's accesses stand after it in the order. -/
def State.edge (s : State) (from_ to_ : Nat × Nat) : State :=
  let k := s.knownOf to_
  s.setKnown { k with pos := max k.pos (s.posOf from_), past := addAll (s.knows from_) k.past }

/-- The issuing context as a thread (R277). -/
def State.thread (s : State) : Nat × Nat := (s.core.id, s.core.cur.val)

/-- The place behind every access so far; 2^32 places lie between two such. -/
def State.top (s : State) : Nat := s.nextNo * 2 ^ 32

/-- The highest place of an access kept that overlaps some bytes and passes a test. -/
def State.lastAt (s : State) (f : Recent → Bool) (a n : Nat) : Nat :=
  (s.recents.filter (fun r => f r && overlaps r.lo r.n a n)).foldl (fun m r => max m r.at_) 0

/-- Where the last write of some bytes stands. -/
def State.lastWrite (s : State) (a n : Nat) : Nat := s.lastAt Recent.write a n

/-- Where a load of some bytes by a thread stands that returns what memory holds: after the last write of them. -/
def State.loadPlace (s : State) (t : Nat × Nat) (a n : Nat) : Nat := max (s.posOf t) (s.lastWrite a n)

/-- Where a store of some bytes by a thread stands: after every earlier access to them. DESIGN CHOICE (log 5): the spec leaves
open where among the places left. -/
def State.storePlace (s : State) (t : Nat × Nat) (a n : Nat) : Nat :=
  let lo := max (s.posOf t) (s.lastAt (fun _ => true) a n)
  lo + Config.orderPlace s.nextNo % (s.top - lo + 1)

/-- An older access that a newer one of the same thread, range and size stands for. -/
def Recent.standsFor (r : Recent) (old : Recent) : Bool :=
  (r.core, r.ctx) == (old.core, old.ctx) && r.lo == old.lo && r.n == old.n && r.esz == old.esz &&
    (!old.write || (r.write && old.time + 4000 ≤ r.time))

/-- The device itself as a thread. -/
def deviceThread : Nat × Nat := (2 ^ 30, 0)

/-- A write of the device entered among the accesses kept, behind all so far: a load of any size that returns it comes after the
accesses of `past` (R399). -/
def State.noteDevice (s : State) (past : List Nat) (va a n : Nat) : State :=
  let r : Recent := { no := s.nextNo, core := deviceThread.1, ctx := deviceThread.2, va := va, lo := a, n := n, esz := 0, write := true
                      time := s.time.toNat, at_ := s.top, past := past }
  ({ s with recents := r :: s.recents.filter (fun x => !r.standsFor x) } : State).numbered

/-- A write entered that a load of any size which returns it is ordered after, with all that happens before what a thread does
next (R399). -/
def State.keepSource (s : State) (me : Nat × Nat) (va a n : Nat) : State := s.noteDevice (s.knows me) va a n

/-! ### Events, trace and gang stops -/

/-- An event both ports receive (R409). -/
def State.tellHost (s : State) (e : HostEvent) : State := { s with events := s.events ++ [e] }

/-- Place of a byte of a job's region as an engine of the device finds it; none when it does not translate. -/
def State.jobPlace (s : State) (asid va : Nat) (k : Acc) : Option Nat :=
  match s.jobOf asid with
  | none => none
  | some j =>
    match walkLeaf s j.spec.root va with
    | some l => if leafAllows l k true then some (ptePA l.pte + va % 2 ^ levelShift l.level) else none
    | none => none

/-! ### Trace (R406, R407) -/

/-- What is kept of a cluster's trace ring. -/
def Job.traceRing (j : Job) (cl : Nat) : TraceRing := (j.traces.find? (fun t => t.cl == cl)).getD { cl := cl }

/-- It changed. -/
def Job.setRing (j : Job) (t : TraceRing) : Job := { j with traces := t :: j.traces.filter (fun x => x.cl != t.cl) }

/-- A record put among those not yet written: behind those of earlier TIMEs, and among those of its own in ascending position
(R406). -/
def putByPos (x : Nat × Nat) : List (Nat × Nat) → List (Nat × Nat)
  | [] => [x]
  | y :: ys => if y.2 % 2 ^ 48 ≠ x.2 % 2 ^ 48 || y.1 ≤ x.1 then y :: putByPos x ys else x :: y :: ys

/-- A trace record (R406) of the job that holds the focused core, given to its cluster's debug module. -/
def State.trace (s : State) (typ cause data : Nat) : State :=
  match s.myJob with
  | none => s
  | some j =>
    let cl := clusterOf s.core.id
    if j.spec.traceTypes.contains typ && (j.spec.trace.map (·.1)).contains cl then
      let pos := s.core.id % 8
      let w := s.time.toNat % 2 ^ 48 + typ % 16 * 2 ^ 48 + pos * 2 ^ 52 + cause % 256 * 2 ^ 56 + data % 2 ^ 64 * 2 ^ 64
      s.mapJob j.spec.asid (fun j => j.setRing { j.traceRing cl with buf := putByPos (pos, w) (j.traceRing cl).buf })
    else s

/-- Whether a context is inside an instruction that nothing interrupts: it waits for the answer to a barrier arrival (R359), or has
performed part of a vector access, or it is a TEND (R375). -/
def Ctx.arriving (x : Ctx) : Bool :=
  match x.wait with
  | .sent _ => true
  | .replied _ _ => true
  | .part _ _ => true
  | .ending => true
  | _ => false

/-- A wait for receive slots given up: the grants go back, and the instruction asks afresh when it issues again (R171). -/
def Ctx.ungranted (x : Ctx) : Ctx :=
  match x.wait with
  | .slots _ => { x with wait := .none }
  | _ => x

/-- The focused core stops: it records its counts and executes nothing until resumed (R227); receive slots that it holds go
back (R171). -/
def Core.stopNow (c : Core) : Core :=
  if c.stopped then c
  else { c with stopped := true, stopReq := false, gscyc := BitVec.ofNat 64 c.cyc, gssent := c.msent,
                gsrecv := c.mrecv, ctxs := c.ctxs.map Ctx.ungranted }

/-- Reasons 5 and 6 replace 1 to 4 and 9 while a gang stops (R226). -/
def whyReplaces (now new : Nat) : Bool := (new == 5 || new == 6) && (now ≤ 4 || now == 9)

/-- How long, in ns, a stop takes from its origin to a core (R227): 16 cycles in the origin's cluster, else 2 µs. -/
def Core.stopTime (c : Core) (origin : Nat) : Nat :=
  if origin % 1024 < 256 && clusterOf (origin % 4096) = clusterOf c.id then 10 else 2000

/-- A core told to stop at a time, with the reason and origin it records (R226, R227). -/
def Core.askStop (c : Core) (reason origin now : Nat) : Core :=
  let why := BitVec.ofNat 64 (reason + 256 * origin)
  if c.stopReq || c.stopped then
    (if whyReplaces (fld c.gswhy 0 4) reason then { c with gswhy := why } else c)
  else { c with stopReq := true, stopBy := now + c.stopTime origin, gswhy := why }

/-- The gang of a job begins to stop (R226): every core of it is told; the host hears of reasons 2 to 8. -/
def State.gangStop (s : State) (asid reason origin : Nat) : State :=
  match s.jobOf asid with
  | none => s
  | some j =>
    let s := j.spec.gang.foldl (fun s e => s.mapCore e (fun c => c.askStop reason origin s.time.toNat)) s
    let s := s.mapJob asid (fun j => if j.gang == .run then { j with gang := .stopped } else j)
    if 5 ≤ reason && reason ≤ 8 then s.tellHost (.jobFault asid reason origin)
    else if 2 ≤ reason && reason ≤ 4 then s.tellHost (.stop asid reason origin)
    else s

/-! ### Home watchpoints (R231) -/

/-- Lowest virtual address of a watched region whose byte lies in [a, a + n), if any. -/
def homeMatch (s : State) (c : Core) (h : Fin 2) (a n : Nat) : Option Nat :=
  let ctl := c.hwc[h].toNat
  if !ctl.testBit 0 then none
  else
    let size := 2 ^ (ctl / 4 % 64)
    let va := (c.hwa[h].toNat + ctl / 2 ^ 48 * 2 ^ 64) / size * size
    let chunk := min size 65536
    (List.range (size / chunk)).findSome? (fun i =>
      let v := va + i * chunk
      let p := if v / 2 ^ 64 = 0xFFFF then (windowPool c.id (v - Config.LW)).map (fun x => poolPlace x.1 x.2.1)
        else c.job.bind (fun asid => s.jobPlace asid v .load)
      match p with
      | some p => if overlaps p chunk a n then some (v + (max p a - p)) else none
      | none => none)

/-- A hit on one watchpoint of a core, by a writer (R231). -/
def State.homeHit (s : State) (e : Nat) (h : Fin 2) (va writer : Nat) : State :=
  let c := s.coreOf e
  let old := c.hwe[h].toNat
  let hits := min 255 (old / 2 ^ 24 % 256 + 1)
  let s := s.at e (fun s => s.trace 6 0 writer)
  if old.testBit 32 then
    s.mapCore e (fun c => { c with hwe := c.hwe.set h (BitVec.ofNat 64 (old % 2 ^ 24 + hits * 2 ^ 24 + 2 ^ 32)) })
  else
    let s := s.mapCore e (fun c => { c with
      hwe := c.hwe.set h (BitVec.ofNat 64 (writer % 2 ^ 24 + hits * 2 ^ 24 + 2 ^ 32))
      pWatch := c.pWatch ++ [⟨.watch, BitVec.ofNat 80 va⟩] })
    if c.hwc[h].toNat.testBit 1 then
      (match c.job with
       | some asid => s.gangStop asid 4 (s.eid e)
       | none => s)
    else s

/-- Every armed watchpoint told of a performed write. -/
def State.homeWatch (s : State) (a n writer : Nat) : State :=
  s.allCores.foldl (fun s' c =>
    (List.finRange 2).foldl (fun s' h =>
      match homeMatch s c h a n with
      | some va => s'.homeHit c.id h va writer
      | none => s') s') s

/-! ### L2 slices and writes as performed (R231, R246 to R250, R310) -/

/-- Lines of 128 bytes that [a, a + n) touches. -/
def linesOf (a n : Nat) : List Nat :=
  if n = 0 then [] else (List.range ((a + n - 1) / 128 - a / 128 + 1)).map (fun i => a / 128 + i)

/-- Die on which a line of HBM is homed, and its slice on a die: the home slice there, the proxy slice on another die
(R246, R248). -/
def lineDie (line : Nat) : Nat := stackOf (line * 128) / 2
def lineSlice (die line : Nat) : Nat := 32 * die + homeSlice (line * 128)

/-- Whether a line is HBM's, and so one that the slices may hold. -/
def lineHbm (line : Nat) : Bool := line * 128 < hbmEnd

/-- A line put into its slice: sets of 16 ways (R9), the oldest of a full set leaving. DESIGN CHOICE (log 5): the set that
a line belongs to and the order of replacement. -/
def l2Put (x : L2Line) (l : List L2Line) : List L2Line :=
  let rest := l.filter (fun y => !(y.slice == x.slice && y.line == x.line))
  let (mates, others) := rest.partition (fun y => y.slice == x.slice && y.line / 32 % 1024 == x.line / 32 % 1024)
  x :: (mates.take 15 ++ others)

/-- A line filled into a slice; a dirty copy stays dirty. -/
def State.l2Fill (s : State) (slice line : Nat) (dirty : Bool) : State :=
  { s with l2 := l2Put { slice := slice, line := line
                         dirty := dirty || s.l2.any (fun y => y.slice == slice && y.line == line && y.dirty) } s.l2 }

/-- A cached read of a line from a die (R248): the home slice holds it, and on another die the proxy slice keeps a copy. -/
def State.l2Read (s : State) (die line : Nat) : State :=
  if !lineHbm line then s
  else if die = lineDie line then s.l2Fill (lineSlice die line) line false
  else (s.l2Fill (lineSlice (lineDie line) line) line false).l2Fill (lineSlice die line) line false

/-- A write of a line at its home slice, once the directory has recalled every proxy copy (R248). -/
def State.l2Write (s : State) (line : Nat) : State :=
  if !lineHbm line then s
  else
    let home := lineSlice (lineDie line) line
    ({ s with l2 := s.l2.filter (fun y => y.line != line || y.slice == home) } : State).l2Fill home line true

/-- A line written back and dropped by its home slice, and recalled from every proxy: an atomic, or an access to an A page,
bypasses every cache (R249, R250). -/
def State.l2Drop (s : State) (line : Nat) : State := { s with l2 := s.l2.filter (fun y => y.line != line) }

/-- What a write of a line does to the slices: it is performed at the home slice where its page is cached, and passes every slice
where it is not, or is an atomic (R248 to R250). -/
def State.l2Store (s : State) (cached : Bool) (line : Nat) : State := if cached then s.l2Write line else s.l2Drop line

/-- Lines that an agent reads at their home slices, where their page is cached (R238, R248). -/
def State.l2Fetch (s : State) (cached : Bool) (a n : Nat) : State :=
  if cached then (linesOf a n).foldl (fun s l => s.l2Read (lineDie l) l) s else s

/-- The directory's record of a line: the dies whose proxy slices hold a copy (R248). -/
def State.proxyDies (s : State) (line : Nat) : List Nat :=
  (s.l2.filter (fun y => y.line == line && y.slice != lineSlice (lineDie line) line)).map (fun y => y.slice / 32)

/-- L1 copies of lines that a write numbered `no`, at a place in the order, makes old (R280). -/
def L1Line.cutAt (x : L1Line) (lines : List Nat) (no at_ : Nat) : L1Line :=
  if lines.contains x.line then
    { x with cut := some (x.cut.getD no), low := if x.cut.isNone then at_ else min x.low at_ }
  else x

def Core.cutAt (c : Core) (lines : List Nat) (no at_ : Nat) : Core :=
  { c with l1 := c.l1.map (fun x => x.cutAt lines no at_) }

/-- Every L1's copies of lines that the next access, at a place in the order, writes. -/
def State.cutLines (s : State) (lines : List Nat) (at_ : Nat) : State :=
  { s with core := s.core.cutAt lines s.nextNo at_, others := s.others.map (fun c => c.cutAt lines s.nextNo at_) }

/-- Whether some bytes share a line with a group whose publication at this package has begun: the line is held until it is
done (R310). -/
def State.held (s : State) (a n : Nat) : Bool :=
  s.groups.any (fun h => h.holding && s.groups.any (fun g =>
    g.src == h.src && g.grp == h.grp && g.st == .prepared &&
      g.es.any (fun e => (linesOf e.place e.size).any (fun l => (linesOf a n).contains l))))

/-- An access that meets a line held by a publication is not performed in this step (R310, Step.lean). -/
def State.touch (s : State) (a n : Nat) : State := if s.held a n then { s with heldHit := true } else s

/-- An entry of the tables written by an atomic at its memory agent (R258, R392), a performed write like another (R231), which a
home watchpoint records with the writer given. -/
def State.pteWrite (s : State) (ea x writer : Nat) : State :=
  let s := ((s.cutLines [ea / 128] s.top).putNat ea 8 x).l2Drop (ea / 128)
  (s.homeWatch ea 8 writer).noteDevice [] 0 ea 8

/-- An entry's bits set by the walker with an atomic OR at the memory agent (R258): its value after, and the state. DESIGN CHOICE
(log 6): the writer is the die manager of the core in focus. -/
def State.pteSet (s : State) (l : Leaf) (mask : Nat) : State × Leaf :=
  let s := s.touch l.ea 8
  let now := s.getNat l.ea 8 ||| mask
  (if now = s.getNat l.ea 8 then s else s.pteWrite l.ea now (s.eid (s.core.id / 1024 * 1024 + 0x200)), { l with pte := l.pte ||| mask })

/-! ### Walks (R255 to R259) -/

/-- Levels, places and contents of the entries that a walk from a node at a level reads, as far as it goes (R255). -/
def walkPath (rd : Nat → Nat) (va : Nat) : Nat → Nat → List (Nat × Nat × Nat)
  | 0, node => [(0, node + 8 * (va / 2 ^ 16 % 8192), rd (node + 8 * (va / 2 ^ 16 % 8192)))]
  | l + 1, node =>
    let ea := node + 8 * (va / 2 ^ levelShift (l + 1) % 8192)
    let p := rd ea
    (l + 1, ea, p) :: (if pteOk p && !p.testBit 1 then walkPath rd va l (ptePA p) else [])

/-- Pointers of an address space that the cluster's walk cache holds for an address and that are no longer in the tables. -/
def State.oldPointers (s : State) (asid va : Nat) : List Tlb :=
  (s.wcache.filter (fun p => p.1 == clusterOf s.core.id && p.2.asid == asid && p.2.serves asid va &&
    p.2.pte.toNat != s.getNat p.2.ea 8)).map (·.2)

/-- Pointers that a walk has read, entered in the walk cache of the cluster in place of what it held of them. -/
def State.wcacheFill (s : State) (asid va : Nat) (path : List (Nat × Nat × Nat)) : State :=
  let cl := clusterOf s.core.id
  let new := (path.filter (fun x => pteOk x.2.2 && !x.2.2.testBit 1)).map (fun x =>
    (cl, ({ asid := asid, gl := false, vpage := va / 2 ^ levelShift x.1, level := x.1, pte := BitVec.ofNat 64 x.2.2,
            ea := x.2.1 } : Tlb)))
  { s with wcache := new ++ s.wcache.filter (fun p => !new.any (fun q =>
      p.1 == q.1 && p.2.asid == q.2.asid && p.2.level == q.2.level && p.2.vpage == q.2.vpage)) }

/-- A walk from a job's root: the nodes are read through the L2, and AC is set on the leaf of every walk that reaches a
valid one (R258). A pointer that the walk cache holds may still be used after the tables have changed (R259). -/
def State.walk (s : State) (asid root va : Nat) : State × Option Leaf :=
  let old := s.oldPointers asid va
  let kept := (old.zipIdx.filter (fun x => Config.tlbKeeps (s.freeN + x.2))).map (·.1)
  let rd (ea : Nat) : Nat := ((kept.find? (fun t => t.ea == ea)).map (·.pte.toNat)).getD (s.getNat ea 8)
  let path := walkPath rd va 4 root
  let l := walkBy rd va 4 root
  let s := { s with freeN := s.freeN + old.length }
  let s := (path.foldl (fun s x => (s.l2Read (dieOf s.core.id) (x.2.1 / 128)).touch x.2.1 8) s).wcacheFill asid va path
  match l with
  | some l => ((s.pteSet l 0x80).1, some (s.pteSet l 0x80).2)
  | none => (s, none)

/-- The entry a fetch or access of the focused core uses: a walk sets AC (R258); an entry that no longer matches the
tables may still be used until the host's invalidation has completed (R259). -/
def State.leafOf (s : State) (asid root va : Nat) : State × Option Leaf :=
  let fill (s : State) : State × Option Leaf :=
    match s.walk asid root va with
    | (s, some l) =>
      (s.tlbFill { asid := asid, gl := l.pte.testBit 6, vpage := va / 2 ^ levelShift l.level, level := l.level,
                   pte := BitVec.ofNat 64 l.pte, ea := l.ea }, some l)
    | (s, none) => (s, none)
  match s.tlbFind asid va with
  | none => fill s
  | some t =>
    let held : Leaf := ⟨t.ea, t.pte.toNat, t.level⟩
    if walkLeaf s root va = some held then (s, some held)
    else
      let s' := { s with freeN := s.freeN + 1 }
      if Config.tlbKeeps s.freeN then (s', some held) else fill s'

/-- One piece translated: PAGE at the lowest faulting byte (R115, R257). -/
def segOf (w : Who) (k : Acc) (va len : Nat) : Op Seg := do
  let s ← get
  if va / 2 ^ 64 = 0xFFFF then
    match windowSeg s w.y k va len with
    | .ok g => pure g
    | .error x => raise .page x
  else
    match w.root with
    | none => raise .page va
    | some root =>
      let (s', l) := s.leafOf w.asid root va
      set s'
      match l with
      | none => raise .page va
      | some l =>
        if leafAllows l k w.h then
          pure ⟨va, ptePA l.pte + va % 2 ^ levelShift l.level, len, some l⟩
        else raise .page va

/-- Every piece translated, in ascending order. -/
def segsOf (w : Who) (k : Acc) : List (Nat × Nat) → Op (List Seg)
  | [] => pure []
  | (va, n) :: ps => do
    let g ← segOf w k va n
    let gs ← segsOf w k ps
    pure (g :: gs)

/-! ### The checked access -/

/-- Checks 1 to 4 of R115, as a pure test: the cause of the first that fails. -/
def capCheck (c : Cap) (ps : List Nat) (a : Int) (n align : Nat) : Option Cause :=
  if !capValid c then some .capTag
  else if !capHasAll c ps then some .capPerm
  else if !(decide (capBase c ≤ a) && decide (a + n ≤ capTop c)) then some .capBounds
  else if a % (align : Int) ≠ 0 then some .align
  else none

/-- Whether a watchpoint of the focused core matches a byte of an access; the lowest such byte (R230). -/
def watchHit (s : State) (k : Acc) (va n : Nat) : Option Nat :=
  if n = 0 || (s.core.inh && !s.helper) then none
  else
    let hit (w : Fin 4) : Option Nat :=
      let ctl := s.core.wpc[w].toNat
      let on := match k with
        | .load => ctl.testBit 0
        | .store => ctl.testBit 1
        | .atomic => ctl.testBit 0 || ctl.testBit 1
        | .fetch => ctl.testBit 2
      let size := 2 ^ (ctl / 8 % 64)
      let a := s.core.wpa[w].toNat + ctl / 2 ^ 48 * 2 ^ 64
      let lo := a / size * size
      if on && lo < va + n && va < lo + size then some (max lo va) else none
    ((List.finRange 4).filterMap hit).min?

/-- Checks 1 to 4 of R115, or the trap with the access's address in TVAL. -/
def capNeed (c : Cap) (ps : List Nat) (a : Int) (n align : Nat) : Op Unit :=
  match capCheck c ps a n align with
  | some k => raise k a
  | none => pure ()

/-- The same for a block that R56 makes one access: a bounds fault names its lowest byte outside. -/
def blockNeed (c : Cap) (ps : List Nat) (a : Int) (n align : Nat) : Op Unit :=
  match capCheck c ps a n align with
  | some .capBounds => raise .capBounds (if a < capBase c then a else max a (capTop c))
  | some k => raise k a
  | none => pure ()

/-- The watchpoints of a core over an access (R230). -/
def watchNeed (k : Acc) (va n : Nat) : Op Unit := do
  match watchHit (← get) k va n with
  | some x => raise .watch x
  | none => pure ()

/-- UE where a read meets an uncorrectable error (R254). -/
def errorNeed (k : Acc) (gs : List Seg) : Op Unit := do
  let s ← get
  match gs.find? (fun g => s.badIn g.place g.len) with
  | some g => need (k == .store) .ue g.va
  | none => pure ()

/-- UE where a read meets an uncorrectable error (R254); an access to a line that is held waits (R310). -/
def goodNeed (k : Acc) (gs : List Seg) : Op Unit := do
  errorNeed k gs
  let s ← get
  await (!gs.any (fun g => s.held g.place g.len))

/-- An access checked over its whole extent (R115, R230): the pieces it touches. -/
def access (c : Cap) (ps : List Nat) (a : Int) (n align : Nat) (k : Acc) : Op (List Seg) := do
  capNeed c ps a n align
  let s ← get
  let gs ← segsOf (s.who c) k (pieces (addr80 a) n)
  goodNeed k gs
  watchNeed k (addr80 a) n
  pure gs

/-! ### Loads and stores as performed -/

/-- Bytes of the pieces, in ascending order. -/
def segRead (s : State) : List Seg → List Byte
  | [] => []
  | g :: gs => s.getBytes g.place g.len ++ segRead s gs

/-- The tagged granules of a line (R253). -/
def State.lineTags (s : State) (line : Nat) : List Nat := s.tags.filter (fun g => g / 8 == line)

/-- The copy of a line that a fill or the core's own store makes (R247): what memory holds. -/
def State.l1Copy (s : State) (line until_ : Nat) : L1Line :=
  { line := line, until_ := until_, data := s.getBytes (line * 128) 128, tags := s.lineTags line
    got := s.lastWrite (line * 128) 128 }

/-- Whether an L1 copy holds what memory holds. -/
def State.l1Current (s : State) (x : L1Line) : Bool :=
  x.data == s.getBytes (x.line * 128) 128 && x.tags == s.lineTags x.line

/-- Whether a load whose thread has come to `pos` in the order may stand before the writes that made a copy old (R280). -/
def L1Line.allows (x : L1Line) (pos : Nat) : Bool := x.cut.isSome && decide (max pos x.got < x.low)

/-- A line filled into L1 with a new lease (R247, R278, R403): sets of 4 ways, the oldest of a full set leaving. DESIGN
CHOICE (log 5): the set that a line belongs to. -/
def State.l1Fill (s : State) (line : Nat) : State :=
  let s := (s.count 4).l2Read (dieOf s.core.id) line
  let sets := (s.core.b2 - s.core.b1) * 2
  let rest := s.core.l1.filter (fun y => y.line != line)
  let (mates, others) := rest.partition (fun y => y.line % sets == line % sets)
  if sets = 0 then s
  else { s with core := { s.core with
    l1 := s.l1Copy line (s.time.toNat + Config.leaseMax) :: (mates.take 3 ++ others) } }

/-- One line of a load, the `n` bytes at `a` (R247, R278 to R280, R403): a hit under a lease, or a fill. `t` is its thread. The
answer is the copy that serves it, where that is older than memory, and its place in the order: an old copy may serve where the
load can stand before the writes that made it old, and whether it does is free. -/
def State.l1Load (s : State) (t : Nat × Nat) (a n : Nat) : State × Option L1Line × Nat :=
  let line := a / 128
  let pos := s.posOf t
  match s.core.l1.find? (fun x => x.line == line && s.time.toNat < x.until_) with
  | none => (s.l1Fill line, none, s.loadPlace t a n)
  | some x =>
    if s.l1Current x then (s.count 3, none, if x.allows pos then max pos x.got else s.loadPlace t a n)
    else
      let s' : State := { s with freeN := s.freeN + 1 }
      if x.allows pos && Config.leaseOld s.freeN then (s'.count 3, some x, max pos x.got)
      else (s'.l1Fill line, none, s.loadPlace t a n)

/-- A range cut at the lines it touches. -/
def linePieces (a n : Nat) : List (Nat × Nat) :=
  (linesOf a n).map (fun l => (max a (l * 128), min (a + n) (l * 128 + 128) - max a (l * 128)))

/-- The lines of a load, each an access of its own: the old copies that serve some, and the last place among them. -/
def State.l1Lines (s : State) (t : Nat × Nat) : List (Nat × Nat) → State × List L1Line × Nat
  | [] => (s, [], s.posOf t)
  | l :: ls =>
    let (s, x, p) := s.l1Load t l.1 l.2
    let (s, xs, q) := s.l1Lines t ls
    (s, x.toList ++ xs, max p q)

/-- The old copy that serves a place, if any. -/
def oldAt (old : List L1Line) (a : Nat) : Option L1Line := old.find? (fun x => x.line == a / 128)

/-- Bytes with those replaced that old copies serve. -/
def oldBytes (old : List L1Line) (a : Nat) : List Byte → List Byte
  | [] => []
  | b :: bs => ((oldAt old a).map (fun x => x.data.getD (a % 128) b)).getD b :: oldBytes old (a + 1) bs

/-- A store's mark on the leases that other loads hold on its line (R281). -/
def L1Line.mark (x : L1Line) (lines : List Nat) (t : Nat × Nat) : L1Line :=
  if lines.contains x.line && !x.wrote.contains t then { x with wrote := t :: x.wrote } else x

def Core.markLines (c : Core) (lines : List Nat) (t : Nat × Nat) : Core :=
  { c with l1 := c.l1.map (fun x => x.mark lines t) }

/-- Every L1's marks for lines that a context wrote. -/
def State.markLines (s : State) (lines : List Nat) (t : Nat × Nat) : State :=
  { s with core := s.core.markLines lines t, others := s.others.map (fun c => c.markLines lines t) }

/-- Two accesses to overlapping bytes by two threads, of different sizes, one of which at least writes (R283). -/
def Recent.mixes (r : Recent) (me : Nat × Nat) (a n esz : Nat) (write : Bool) : Bool :=
  (r.core, r.ctx) != me && r.esz != esz && r.esz != 0 && (write || r.write) && overlaps r.lo r.n a n

/-- Whether an access kept makes a mixed-size race with an access of a thread: neither happens before the other (R283). -/
def State.races (s : State) (r : Recent) (me : Nat × Nat) (a n esz : Nat) (write : Bool) : Bool :=
  r.mixes me a n esz write && !(s.knows me).contains r.no

/-- Bytes of an access with those that a race leaves undefined replaced by free values (R283). -/
def raceBytes (rs : List Recent) (free a : Nat) : List Byte → List Byte
  | [] => []
  | b :: bs =>
    (if rs.any (fun r => r.lo ≤ a && a < r.lo + r.n) then Config.raceByte (free + a) else b) ::
      raceBytes rs free (a + 1) bs

/-- A MIXED_SIZE report kept for a core (R216, R220). -/
def Core.reportMixed (c : Core) (va : Nat) : Core :=
  if c.msz then { c with pMixed := c.pMixed ++ [⟨.mixedSize, BitVec.ofNat 80 va⟩] } else c

/-- A report at a core named by a thread; threads that are no core's get none. -/
def State.reportMixed (s : State) (e va : Nat) : State :=
  if e < 4096 then s.mapCore e (fun c => c.reportMixed va) else s

/-- One report a core of those that a race calls for (R216): the first. DESIGN CHOICE (log 7). -/
def oncePerCore : List (Nat × Nat) → List (Nat × Nat)
  | [] => []
  | x :: xs => x :: (oncePerCore xs).filter (fun y => y.1 != x.1)

/-- The MIXED_SIZE reports of an access (R283): at its own core where another thread wrote the bytes within the last 4 µs,
and, where it writes, at the cores of those that accessed them within the last 4 µs; each with the lowest overlapped address
of the reported core's own access. -/
def State.sizeReports (s : State) (me : Nat × Nat) (va a n esz : Nat) (write : Bool) : List (Nat × Nat) :=
  let hits := s.recents.filter (fun r => s.time.toNat < r.time + 4000 && r.mixes me a n esz write)
  let mine := ((hits.filter (·.write)).map (fun r => va + (max a r.lo - a))).min?.map (fun x => (me.1, x))
  oncePerCore (mine.toList ++ (if write then hits.map (fun r => (r.core, r.va + (max a r.lo - r.lo))) else []))

/-- The accesses that happen before a read of `esz` bytes at a place because it returns what one of them wrote: the last write
of those bytes, where it is another thread's and of the same size and address, with all that happens before it (R283); or, of
any size, the write of a level's final STATE (R399). A copy older than memory returns the last write before it became old. -/
def State.source (s : State) (old : List L1Line) (me : Nat × Nat) (a esz : Nat) : List Nat :=
  let bound := ((oldAt old a).bind (·.cut)).getD s.nextNo
  match s.recents.find? (fun r => r.write && r.no < bound && overlaps r.lo r.n a esz) with
  | some r =>
    if (r.core, r.ctx) != me && (r.esz == 0 ||
        (r.esz == esz && r.lo ≤ a && (a - r.lo) % esz == 0 && a + esz ≤ r.lo + r.n)) then r.no :: r.past else []
  | none => []

/-- What a read learns from the writes it returns, each of its single accesses (R283, R399). -/
def State.learnSources (s : State) (me : Nat × Nat) (a n esz : Nat) (old : List L1Line) : State :=
  if esz = 0 then s
  else s.learn me ((List.range (n / esz)).flatMap (fun i => s.source old me (a + i * esz) esz))

/-- An access of a thread, at a place in the order, given its number and entered among those kept, with its reports (R279,
R283). -/
def State.noteAs (s : State) (me : Nat × Nat) (va a n esz : Nat) (write : Bool) (at_ : Nat) : State :=
  let s := (s.sizeReports me va a n esz write).foldl (fun s x => s.reportMixed x.1 x.2) s
  let k := s.knownOf me
  let r : Recent := { no := s.nextNo, core := me.1, ctx := me.2, va := va, lo := a, n := n, esz := esz, write := write
                      time := s.time.toNat, at_ := at_, past := k.past }
  (({ s with recents := r :: s.recents.filter (fun x => !r.standsFor x) } : State).setKnown
    { k with pos := max k.pos at_, past := addAll [r.no] k.past }).numbered

/-- Bytes of memory that takes part, or free values where it does not (R9). DESIGN CHOICE (log 5). -/
def State.bytesAt (s : State) (a n : Nat) : State × List Byte :=
  if s.reaches a then (s, s.getBytes a n)
  else ({ s with freeN := s.freeN + n }, (List.range n).map (fun i => Config.undefinedByte (s.freeN + i)))

/-- Bytes read at a place by a thread in single accesses of `esz` bytes, `old` the L1 copies older than memory that serve it, at
its place in the order: free values where a race leaves them undefined, once what the read itself is ordered after is known
(R283). -/
def State.readAt (s : State) (me : Nat × Nat) (va a n esz : Nat) (old : List L1Line) (at_ : Nat) : State × List Byte :=
  let s := s.learnSources me a n esz old
  let rs := s.recents.filter (fun r => s.races r me a n esz false)
  let (s, bs) := s.bytesAt a n
  let bs := raceBytes rs s.freeN a (oldBytes old a bs)
  let s := if rs.isEmpty then s else { s with freeN := s.freeN + 1 }
  (s.noteAs me va a n esz false at_, bs)

/-- Bytes read where memory holds them. -/
def State.readAs (s : State) (me : Nat × Nat) (va a n esz : Nat) : State × List Byte :=
  s.readAt me va a n esz [] (s.loadPlace me a n)

/-- The lines of a load by a thread in L1 and the slices, where its page is cached: the old copies that serve some, and its place in
the order. -/
def State.throughL1 (s : State) (t : Nat × Nat) (g : Seg) : State × List L1Line × Nat :=
  if g.cached then s.l1Lines t (linePieces g.place g.len) else (s, [], s.loadPlace t g.place g.len)

/-- One piece of a load performed (R247, R279): its bytes, and the old copies that served it. A run-ahead helper is no thread
(R277): its loads only fill L1. -/
def State.loadSegOld (s : State) (esz : Nat) (g : Seg) : State × List L1Line × List Byte :=
  let (s, old, p) := s.throughL1 s.thread g
  if s.ctx.ahead then (s, old, oldBytes old g.place (s.getBytes g.place g.len))
  else
    let (s, bs) := s.readAt s.thread g.va g.place g.len esz old p
    (s, old, bs)

/-- One piece of a load performed. -/
def State.loadSeg (s : State) (esz : Nat) (g : Seg) : State × List Byte :=
  let (s, _, bs) := s.loadSegOld esz g
  (s, bs)

/-- A load of pieces performed, in ascending order: its bytes, and what it leaves in L1 (R279). Single accesses are `esz` bytes. -/
def loadSegs : List Seg → Nat → Op (List Byte)
  | [], _ => pure []
  | g :: gs, esz => do
    let s ← get
    let (s, bs) := s.loadSeg esz g
    set s
    let rest ← loadSegs gs esz
    pure (bs ++ rest)

/-- Single accesses of a vector access that are performed, and their bytes (R279). -/
def Ctx.performed (x : Ctx) : Nat × List Byte :=
  match x.wait with
  | .part n bs => (n, bs)
  | _ => (0, [])

/-- A piece cut into single accesses of `esz` bytes. -/
def Seg.cutUp (esz : Nat) (g : Seg) : List Seg :=
  (List.range ((g.len + esz - 1) / max esz 1)).map (fun i =>
    { g with va := g.va + i * esz, place := g.place + i * esz, len := min esz (g.len - i * esz) })

/-- Single accesses performed one by one, `n` before them done and `bs` their bytes: where the step may perform no more, the rest
waits, and other threads come between (R279, R282). -/
def loadEach (esz : Nat) : List Seg → Nat → Nat → List Byte → Op (List Byte)
  | [], _, _, bs => pure bs
  | g :: gs, k, n, bs => do
    match k with
    | 0 => do
      upd fun s => s.setCtx { s.ctx with wait := .part n bs }
      waitHere
    | k + 1 => do
      let s ← get
      let (s, b) := s.loadSeg esz g
      set s
      loadEach esz gs k (n + 1) (bs ++ b)

/-- A vector load of pieces, whose single accesses need not follow one another at once (R279, R282). -/
def loadParts (gs : List Seg) (esz : Nat) : Op (List Byte) := do
  let s ← get
  match s.split with
  | none =>
    if s.ctx.performed.1 = 0 then loadSegs gs esz
    else loadEach esz ((gs.flatMap (Seg.cutUp esz)).drop s.ctx.performed.1) (gs.map (·.len)).sum s.ctx.performed.1 s.ctx.performed.2
  | some k =>
    match s.ctx.wait with
    | .none => loadEach esz (gs.flatMap (Seg.cutUp esz)) k 0 []
    | .part n bs => loadEach esz ((gs.flatMap (Seg.cutUp esz)).drop n) k n bs
    | _ => loadSegs gs esz

/-! ### Engines of the device, and what a store may write (R393, R395) -/

/-- Whether a valid leaf's page may be cached (R247, R250, R251). -/
def leafCached (l : Leaf) : Bool := !l.pte.testBit 4 && !l.pte.testBit 5

/-- The walk of an engine's access: AC set on a valid leaf, and D where the access writes (R258); the place, if the entry
allows it, and whether its page is cached. -/
def State.jobWalk (s : State) (asid va : Nat) (k : Acc) : State × Option (Nat × Bool) :=
  match s.jobOf asid with
  | none => (s, none)
  | some j =>
    match s.walk asid j.spec.root va with
    | (s, none) => (s, none)
    | (s, some l) =>
      if leafAllows l k true then
        ((if k == .store then (s.pteSet l 0x100).1 else s),
          some (ptePA l.pte + va % 2 ^ levelShift l.level, leafCached l))
      else (s, none)

/-- Bytes an engine of the device reads at a virtual address of a job, page by page; 0 where it does not translate. -/
def State.engineRead (s : State) (asid va n : Nat) : State × List Byte :=
  (pieces va n).foldl (fun (x : State × List Byte) p =>
    match x.1.jobWalk asid p.1 .load with
    | (s, some (a, cached)) =>
      let s := s.touch a p.2
      (s.l2Fetch cached a p.2, x.2 ++ s.getBytes a p.2)
    | (s, none) => (s, x.2 ++ List.replicate p.2 0)) (s, [])

/-- Bytes put at a place by a write that stands at `at_` in the order: performed once proxy copies are recalled, watched, and L1
copies made old (R231, R248 to R250, R253, R280). What does not take part in work keeps nothing (R9). -/
def State.put (s : State) (at_ : Nat) (cached : Bool) (a : Nat) (bs : List Byte) (writer : Nat) : State :=
  if s.reaches a then
    let ls := linesOf a bs.length
    (ls.foldl (fun s l => s.l2Store cached l) ((s.cutLines ls at_).putBytes a bs)).homeWatch a bs.length writer
  else s

/-- Places of the ring headers that the device keeps for its jobs (R393, R404). -/
def State.ringHeaders (s : State) : List Nat :=
  s.jobs.flatMap (fun j =>
    (j.spec.hash.toList ++ j.spec.stamp.toList).filterMap (fun r => s.jobPlace j.spec.asid r.base .load))

/-- A byte that a store leaves at a place, `old` the one there: in a ring header NREC and RIDX are written, OVF is cleared by
writing 1, and everything else keeps its value (R393). -/
def headerByte (hs : List Nat) (a : Nat) (old b : Byte) : Byte :=
  match hs.find? (fun h => h ≤ a && a < h + 64) with
  | none => b
  | some h =>
    let i := a - h
    if i < 4 || (8 ≤ i && i < 12) then b else if i = 16 then old &&& ~~~(b &&& 1) else old

/-- Places that the device alone writes (R395): the counter records of levels, and the records of stamp and trace rings, each with
its length. -/
def State.deviceOnly (s : State) : List (Nat × Nat) :=
  s.jobs.flatMap (fun j =>
    let ranges :=
      (if j.spec.counter.tag then
        (s.levels.filter (fun l => l.asid == j.spec.asid)).map (fun l =>
          ((capBase j.spec.counter).toNat + 32 * (l.lid % 2 ^ 29), 32))
       else []) ++
      j.spec.stamp.toList.map (fun r => (r.base + 64, 64 * r.nrec)) ++ j.spec.trace.map (fun p => (p.2.base, 16 * p.2.nrec))
    (ranges.flatMap (fun r => pieces r.1 r.2)).filterMap (fun q =>
      (s.jobPlace j.spec.asid q.1 .load).map (fun a => (a, q.2))))

/-- The bytes that a store leaves: in a ring header by its fields, at the device's own records those that are there. -/
def guardBytes (hs : List Nat) (own : List (Nat × Nat)) (mem : List Host.Cell) : Nat → List Byte → List Byte
  | _, [] => []
  | a, b :: bs =>
    (if own.any (fun r => r.1 ≤ a && a < r.1 + r.2) then memGet mem a else headerByte hs a (memGet mem a) b) ::
      guardBytes hs own mem (a + 1) bs

/-- Bytes written at a place by a store that stands at `at_` in the order (R393, R395). -/
def State.store (s : State) (at_ : Nat) (cached : Bool) (a : Nat) (bs : List Byte) (writer : Nat) : State :=
  let hs := s.ringHeaders
  let own := s.deviceOnly
  s.put at_ cached a (if hs.isEmpty && own.isEmpty then bs else guardBytes hs own s.mem a bs) writer

/-- Bytes written at a place that no cache holds, behind every access so far. -/
def State.write (s : State) (a : Nat) (bs : List Byte) (writer : Nat) : State :=
  (s.store s.top false a bs writer).noteDevice [] 0 a bs.length

/-- Bytes written by an engine of the device at a virtual address of a job, page by page, as accesses in the order of R279;
AC and D are set. `writer` is what a home watchpoint records (R231); a load that returns them comes after the accesses of
`past` (R399). -/
def State.engineWriteAs (s : State) (past : List Nat) (asid va : Nat) (bs : List Byte) (writer : Nat) : State :=
  (pieces va bs.length).foldl (fun s p =>
    match s.jobWalk asid p.1 .store with
    | (s, some (a, cached)) =>
      let s := s.touch a p.2
      (s.put s.top cached a ((bs.drop (p.1 - va)).take p.2) writer).noteDevice past p.1 a p.2
    | (s, none) => s) s

def State.engineWrite (s : State) (asid va : Nat) (bs : List Byte) (writer : Nat) : State := s.engineWriteAs [] asid va bs writer

/-- Whether an engine's access would meet a line that a publication holds, in memory or in the tables it walks (R310). -/
def State.engineHeld (s : State) (asid va n : Nat) : Bool :=
  match s.jobOf asid with
  | none => false
  | some j =>
    (pieces va n).any (fun p =>
      (walkPath (fun ea => s.getNat ea 8) p.1 4 j.spec.root).any (fun x => s.held x.2.1 8) ||
        ((s.jobPlace asid p.1 .load).map (fun a => s.held a p.2)).getD false)

/-- One record written to a ring: in stop mode none once it is full; otherwise over the oldest. -/
def State.tracePut (s : State) (asid cl : Nat) (r : Ring) (w : Nat) : State :=
  match s.jobOf asid with
  | none => s
  | some j =>
    let t := j.traceRing cl
    if t.full || r.nrec = 0 then s
    else
      let s := s.engineWrite asid (r.base + 16 * (t.w % r.nrec)) (leBytes 16 w) (s.eid (coreAt cl 0))
      s.mapJob asid (fun j =>
        let t := j.traceRing cl
        j.setRing { t with w := t.w + 1, full := j.spec.traceStop && decide (r.nrec ≤ t.w + 1) })

/-- A record's turn: it may be lost to a ring that wraps, and the record after a loss counts what was lost (R406, R407). -/
def State.traceTurn (s : State) (asid cl : Nat) (r : Ring) (stop : Bool) (w : Nat) : State :=
  let lost (s : State) : Nat := ((s.jobOf asid).map (fun j => (j.traceRing cl).lost)).getD 0
  let setLost (s : State) (n : Nat) : State := s.mapJob asid (fun j => j.setRing { j.traceRing cl with lost := n })
  let s' : State := { s with freeN := s.freeN + 1 }
  if stop then s.tracePut asid cl r w
  else if Config.traceLoses s.freeN then setLost s' (lost s + 1)
  else if lost s = 0 then s'.tracePut asid cl r w
  else
    let note := w % 2 ^ 48 + 8 * 2 ^ 48 + w / 2 ^ 52 % 8 * 2 ^ 52 + lost s % 2 ^ 64 * 2 ^ 64
    ((setLost s' 0).tracePut asid cl r note).tracePut asid cl r w

/-- Whether the next two places of a trace ring lie in lines that a publication holds. -/
def State.ringHeld (s : State) (asid cl : Nat) (r : Ring) : Bool :=
  match s.jobOf asid with
  | none => false
  | some j =>
    r.nrec ≠ 0 && (s.engineHeld asid (r.base + 16 * ((j.traceRing cl).w % r.nrec)) 16 ||
      s.engineHeld asid (r.base + 16 * (((j.traceRing cl).w + 1) % r.nrec)) 16)

/-- Records of a cluster whose TIME has ended written to its ring in order; one whose place is held stays, with those behind
it (R310, R406). -/
def State.flushRecs (s : State) (asid cl : Nat) (r : Ring) (due : Nat → Bool) : List (Nat × Nat) → State
  | [] => s
  | x :: xs =>
    match s.jobOf asid with
    | none => s
    | some j =>
      if !due x.2 || s.ringHeld asid cl r then s
      else
        let s := s.mapJob asid (fun j => j.setRing { j.traceRing cl with buf := (j.traceRing cl).buf.erase x })
        (s.traceTurn asid cl r j.spec.traceStop x.2).flushRecs asid cl r due xs

/-- A job's records whose TIME has ended written to its rings, cluster by cluster (R406). -/
def State.flushJob (s : State) (j : Job) (due : Nat → Bool) : State :=
  j.spec.trace.foldl (fun s p =>
    s.flushRecs j.spec.asid p.1 p.2 due (((s.jobOf j.spec.asid).map (fun j => (j.traceRing p.1).buf)).getD [])) s

/-- Every job's records of TIMEs that have ended written (R406). -/
def State.flushTrace (s : State) : State :=
  s.jobs.foldl (fun s j => s.flushJob j (fun w => w % 2 ^ 48 ≠ s.time.toNat % 2 ^ 48)) s

/-- Virtual address of a job's counter region (R396). -/
def Job.counterBase (j : Job) : Nat := (capBase j.spec.counter).toNat

/-- A core's event counters written behind the level records (R403): 88 bytes in its slot, its place in the gang. A load that
returns them comes after what a thread knows, as R399 has it of a record. -/
def State.snapCounters (s : State) (me : Nat × Nat) (asid e : Nat) : State :=
  match s.jobOf asid with
  | none => s
  | some j =>
    if j.spec.counter.tag && j.spec.gang.contains e then
      s.engineWriteAs (s.knows me) asid (j.counterBase + j.spec.evTable + 88 * j.spec.gang.idxOf e)
        ((s.coreOf e).evc.toList.flatMap (fun w => leBytes 8 w.toNat)) (s.eid (e / 1024 * 1024 + 0x200))
    else s

/-- What the contexts of a core had done when it stopped, as a thread (R403). -/
def stopThread (e : Nat) : Nat × Nat := (2 ^ 30 + 1, e)

/-- It takes all that they have done. -/
def State.stopKnown (s : State) (e : Nat) : State := (List.range 11).foldl (fun s h => s.edge (e, h) (stopThread e)) s

/-- The focused core has begun or met a gang stop and stops: its counts are recorded and written (R227, R403), its trace shows
the stop, and at the origin of a fault the job's fault (R406). -/
def State.stopCore (s : State) (reason origin : Nat) : State :=
  let s := ({ s with core := s.core.stopNow } : State).stopKnown s.core.id
  let s := s.snapCounters (stopThread s.core.id) s.asid s.core.id
  let s := s.trace 5 reason origin
  if 5 ≤ reason && reason ≤ 8 && origin == s.myEid then s.trace 7 reason 0 else s

/-- The focused core begins a gang stop (R227), its record poisoned where an uncorrectable error is the reason (R236):
it stops itself at once, or, where another of its contexts is inside an instruction that nothing interrupts, at the end of
that. -/
def State.stopGangHere (s : State) (reason : Nat) : State :=
  let s := s.gangStop s.asid reason s.myEid
  let s := { s with core := { s.core with
      poisoned := s.core.poisoned || reason == 5
      gswhy := if s.core.job.isSome then s.core.gswhy else BitVec.ofNat 64 (reason + 256 * s.myEid) } }
  if s.core.ctxs.any Ctx.arriving then
    { s with core := { s.core with stopReq := !s.core.stopped, stopBy := s.time.toNat } }
  else s.stopCore reason s.myEid

/-- D set on the entry of a piece that is written (R258). -/
def State.dirty (s : State) (g : Seg) : State :=
  match g.leaf with
  | none => s
  | some l =>
    if l.pte.testBit 8 then s
    else
      let s := (s.pteSet l 0x100).1
      let f (t : Tlb) : Tlb := if t.ea == l.ea && t.pte.toNat == l.pte then { t with pte := t.pte ||| 0x100 } else t
      { s with core := { s.core with tlb := s.core.tlb.map f }, ctlb := s.ctlb.map (fun p => (p.1, f p.2)) }

/-- Bytes written at a place by a thread for a writing endpoint, in single accesses of `esz` bytes (R231, R253, R278,
R283); `cached` where the page is and the write is no atomic. -/
def State.writeAs (s : State) (me : Nat × Nat) (writer va a esz : Nat) (cached : Bool) (bs : List Byte) : State :=
  let at_ := s.storePlace me a bs.length
  let rs := s.recents.filter (fun r => s.races r me a bs.length esz true)
  let bs' := raceBytes rs s.freeN a bs
  let s := if rs.isEmpty then s else { s with freeN := s.freeN + 1 }
  (s.store at_ cached a bs' writer).noteAs me va a bs.length esz true at_

/-- The core's own copies of lines it has stored to, made what memory holds (R247). -/
def State.l1Renew (s : State) (ls : List Nat) : State :=
  { s with core := { s.core with l1 := s.core.l1.map (fun x =>
      if ls.contains x.line then { s.l1Copy x.line x.until_ with wrote := x.wrote } else x) } }

/-- A store of the issuing context performed on one piece (R247, R253, R258, R278): single accesses of `esz` bytes;
`read` when it is the write half of an atomic. -/
def State.storeSeg (s : State) (read : Bool) (esz : Nat) (g : Seg) (bs : List Byte) : State :=
  let ls := linesOf g.place g.len
  let s := s.dirty g
  let s := (s.writeAs s.thread s.myEid g.va g.place esz (g.cached && !read) bs).l1Renew ls
  if g.cached then s.markLines ls s.thread else s

/-- A store performed on its pieces, in ascending order. -/
def State.storeSegs (s : State) (esz : Nat) : List Seg → List Byte → State
  | [], _ => s
  | g :: gs, bs => (s.storeSeg false esz g (bs.take g.len)).storeSegs esz gs (bs.drop g.len)

/-- Single accesses of a vector store performed one by one, as `loadEach` does of a load. -/
def storeEach (esz : Nat) : List Seg → List Byte → Nat → Nat → Op Unit
  | [], _, _, _ => pure ()
  | g :: gs, bs, k, n => do
    match k with
    | 0 => do
      upd fun s => s.setCtx { s.ctx with wait := .part n [] }
      waitHere
    | k + 1 => do
      upd fun s => s.storeSeg false esz g (bs.take g.len)
      storeEach esz gs (bs.drop g.len) k (n + 1)

/-- A vector store of pieces, in ascending order, whose single accesses need not follow one another at once (R265, R279). -/
def storeParts (gs : List Seg) (esz : Nat) (bs : List Byte) : Op Unit := do
  let s ← get
  let each (n k : Nat) : Op Unit :=
    let xs := gs.flatMap (Seg.cutUp esz)
    storeEach esz (xs.drop n) (bs.drop ((xs.take n).map (·.len)).sum) k n
  match s.split with
  | none => if s.ctx.performed.1 = 0 then upd fun s => s.storeSegs esz gs bs else each s.ctx.performed.1 bs.length
  | some k =>
    match s.ctx.wait with
    | .none => each 0 k
    | .part n _ => each n k
    | _ => upd fun s => s.storeSegs esz gs bs

/-! ### Instruction fetch (R72 to R74, R252) -/

/-- The halfword that fetch takes at a place: a line of the instruction cache may be stale (R74). -/
def State.fetchHalf (s : State) (place : Nat) : State × Nat :=
  let line := place / 128
  let (s, now) := s.bytesAt (line * 128) 128
  let half (d : List Byte) : Nat := leNat ((d.drop (place % 128)).take 2)
  let fill (s : State) : State :=
    let s := s.l2Read (dieOf s.core.id) line
    { s with core := { s.core with ic := (⟨line, now⟩ :: s.core.ic.filter (fun x => x.line != line)).take 256 } }
  match s.core.ic.find? (fun x => x.line == line) with
  | none => (fill s, half now)
  | some x =>
    if half x.data = half now then (s, half now)
    else
      let s' := { s with freeN := s.freeN + 1 }
      if Config.fetchStale s.freeN then (s', half x.data) else (fill s', half now)

/-- The lowest byte of [a, a + n) outside a capability's bounds. -/
def firstOut (c : Cap) (a : Nat) : Nat := if (a : Int) < capBase c then a else max a (addr80 (capTop c))

/-- Tag, permission X and bounds of a fetch of `n` bytes (R73). -/
def fetchBounds (c : Cap) (a n : Nat) : Op Unit :=
  match capCheck c [pX] a n 1 with
  | some .capBounds => raise .capBounds (firstOut c a)
  | some k => raise k a
  | none => pure ()

/-- One halfword's place, through the job's pages; a line that is held is waited for (R310). -/
def fetchSeg (a : Nat) : Op Seg := do
  let s ← get
  let g ← segOf { asid := s.asid, root := s.myJob.map (·.spec.root) } .fetch a 2
  await (!s.held g.place g.len)
  pure g

/-- A halfword fetched from its place. -/
def fetchAt (g : Seg) : Op Nat := do
  let s ← get
  let (s, h) := s.fetchHalf g.place
  set s
  pure h

/-- The second halfword of an instruction and its bits: bounds over all four bytes, then its translation, then an
uncorrectable error in either halfword (R73). -/
def fetchSecond (c : Cap) (a : Nat) (g : Seg) : Op Nat := do
  fetchBounds c a 4
  let g2 ← fetchSeg (a + 2)
  goodNeed .fetch [g, g2]
  fetchAt g2

/-- The instruction at an address through a PCC (R72, R73): its length and bits. Where the first halfword cannot be read, the
instruction counts as one of four bytes. -/
def fetchInstr (c : Cap) (a : Nat) : Op (Nat × Nat) := do
  fetchBounds c a 2
  let s ← get
  match fetchSeg a s with
  | .error .wait s' => do
    set s'
    waitHere
  | .error e s' => do
    set s'
    fetchBounds c a 4
    throw e
  | .ok g s' => do
    set s'
    if s'.badIn g.place g.len then do
      let h ← fetchSecond c a g
      pure (4, h)
    else do
      let h ← fetchAt g
      if h % 2 = 0 then pure (2, h)
      else do
        let h2 ← fetchSecond c a g
        pure (4, h + 65536 * h2)

/-! ### Taking a trap (R216 to R222) -/

/-- The trap in h0 as R218 writes it: which registers save what, what the status becomes, and where execution goes. -/
def State.trapEntry (s : State) (t : Trap) (async : Bool) (restart : Nat) : State :=
  let s := s.settleAll
  let x := s.ctx
  let s := s.setCtx { x with pcc := s.core.tvec, loop := { x.loop with lact := false }, wait := .none,
                             blocked := false, readyAt := max x.readyAt (s.core.cyc + 1) }
  { s with core := { s.core with
      tpc := capAt x.pcc restart
      tcause := BitVec.ofNat 64 (t.cause.code + 64 * b2n async)
      tval := t.tval
      sloop := x.loop
      pie := s.core.ie
      ie := false
      inh := true } }

/-- Whether the handler can be entered: TVEC tagged with X and Y, and its first fetch without fault, at once or once a line that is
held is let go (R221, R310). DESIGN CHOICE
(log 48): an odd TVEC is no fault of its own; R73 names none for an entry, and the handler is fetched at the odd address. -/
def State.tvecOk (s : State) : Bool :=
  let v := s.core.tvec
  v.tag && capHas v pX && capHas v pY &&
    (match fetchInstr v (capA v) s with
     | .ok _ _ => true
     | .error .wait _ => true
     | .error _ _ => false)

/-- A context starts: the slot of a helper that has ended (R222, R350, R351). -/
def Ctx.endHelper (x : Ctx) (cause : Nat) (tval pc : Addr) : Ctx :=
  { x with slot := if x.ahead then .free else .ended, endCause := cause, endTval := tval, endPc := pc,
           loop := {}, wait := .none, blocked := false, ahead := false, stopReq := false }

/-- A trap of the issuing context with a restart address (R218, R221, R222, R236): h0 enters its handler, or the gang
stops with reason 6, or 5 for UE; a helper ends. -/
def State.takeTrap (s : State) (t : Trap) (async : Bool) (restart : Nat) : State :=
  if s.helper && t.cause == .ue && !s.ctx.ahead then s.stopGangHere 5
  else if s.helper then
    s.setCtx ((s.settleAll.ctx).endHelper t.cause.code t.tval (BitVec.ofNat 80 restart))
  else if t.cause == .ue then (s.setCtx { s.ctx with wait := .none, blocked := false }).stopGangHere 5
  else if s.core.inh || !s.tvecOk then
    (s.setCtx { s.ctx with wait := .none, blocked := false }).stopGangHere 6
  else
    let s := s.trapEntry t async restart
    s.trace 3 t.cause.code (restart % 2 ^ 64)

/-- A precise trap: the restart address is the instruction's own (R218). -/
def State.trapHere (s : State) (t : Trap) : State := s.takeTrap t false s.pc

/-! ### Boundary causes (R220) -/

/-- INTERRUPT's trap value, IPEND & IEN (R216, R224). -/
def Core.irq (c : Core) : BitVec 2 := c.ipend &&& c.ien

/-- The boundary cause that h0 may take now, with what is left of those kept (R220). -/
def Core.boundary (c : Core) : Option (Trap × Core) :=
  if c.inh then none
  else
    match c.pTrig with
    | t :: ts => some (t, { c with pTrig := ts })
    | [] =>
      match c.pWatch with
      | t :: ts => some (t, { c with pWatch := ts })
      | [] =>
        match c.pMixed with
        | t :: ts => some (t, { c with pMixed := ts })
        | [] =>
          if c.ie && c.irq ≠ 0 then some (⟨.interrupt, c.irq.zeroExtend 80⟩, c) else none

/-- The boundary cause due at the issuing context; helpers take none. -/
def State.boundary (s : State) : Option (Trap × Core) := if s.helper then none else s.core.boundary

/-- The context's instruction waits in this cycle. -/
def State.block (s : State) : State := s.setCtx { s.ctx with blocked := true }

/-- The loop advances past a body instruction (R131): the loop state after and the next address. DESIGN CHOICE (log 48): ERET may
restore a LLEN of 0 or above 8, or a LIDX at or above LLEN, that SLCTL was written with; LIDX then counts on from the body's
instruction it stands at, as a number without a bound, and the body does not end. -/
def Loop.advance (l : Loop) (npc : Addr) : Loop × Addr :=
  if l.lidx + 1 = l.llen then
    (if l.liter + 1 = l.lcnt then
       ({ l with lidx := 0, liter := l.liter + 1, lact := false }, l.lbeg + BitVec.ofNat 80 l.lsz)
     else ({ l with lidx := 0, liter := l.liter + 1 }, l.lbeg))
  else ({ l with lidx := l.lidx + 1 }, npc)

/-- An instruction retires (R72, R78, R131): execution goes on at the context's next address, and PCC keeps its tag only inside
its window (R113). -/
def State.finish (s : State) (st : Nat) (inBody : Bool) : State :=
  let x := s.ctx
  let (l, npc) := if inBody && x.loop.lact then x.loop.advance x.npc else (x.loop, x.npc)
  let s := s.setCtx { x with pcc := capMove x.pcc npc.toNat, loop := l, readyAt := s.core.cyc + 1 + st,
                             wait := .none, blocked := false }
  s.count (if s.helper then 1 else 0)

/-- What steps 2 to 4 of R90 look at: the stall count, whether an ILLEGAL of decoding holds, a mode fault, the
registers read, and whether the instruction's wait cannot be interrupted. -/
structure Gate where
  st    : Nat
  ill   : Bool := false
  acc   : Option Trap := none
  reads : List (RegFile × Nat) := []
  noint : Bool := false
deriving DecidableEq, Repr

/-- ILLEGAL of the instruction being issued: TVAL holds its word (R87). -/
def State.illegal (s : State) : Trap := ⟨.illegal, s.ctx.ir.zeroExtend 80⟩

/-- The fault of steps 2 to 4 of R90, if any. DESIGN CHOICE (log 48): where several registers read have results that are not
ready, STALL_SHORT names the first in the instruction's order of reads. -/
def State.gateTrap (s : State) (g : Gate) : Option Trap :=
  if g.ill then some s.illegal
  else
    match g.acc with
    | some t => some t
    | none =>
      if s.core.schk then
        (g.reads.find? s.fixPending).map (fun r => ⟨.stallShort, BitVec.ofNat 80 (r.2 + 64 * r.1.code)⟩)
      else none

/-- The issuing helper stopped: its slot is FREE (R350). -/
def State.stopHelper (s : State) : State :=
  let s := s.settleAll
  s.setCtx { s.ctx with slot := .free, ahead := false, stopReq := false, loop := {}, wait := .none, blocked := true }

/-- How an operation's end becomes the machine's next state; `after` is what follows once the instruction has
retired. -/
def State.conclude (s : State) (st : Nat) (after : State → State) (r : EStateM.Result Stop State Unit) :
    Host.Outcome State Fault Refusal :=
  match r with
  | .ok _ s' => .next (after (s'.finish st s.ctx.loop.lact))
  | .error (.trap t) s' => .next (s'.trapHere t)
  | .error .wait s' => .next s'.block
  | .error (.fault f) _ => .fault f

/-- Whether an instruction that waits may not be interrupted: it says so of itself, or it has performed part of a vector access. -/
def State.unbroken (s : State) (g : Gate) : Bool :=
  (g.noint && s.ctx.wait ≠ .none) || decide (0 < s.ctx.performed.1)

/-- An instruction issues (R90, R220): a helper told to stop stops at this boundary (R350); then the faults of steps 2 to 4, then
a boundary cause that is due, then the wait for variable-latency operands, then the operation itself, then what follows its
retirement. -/
def issueThen (g : Gate) (body : Op Unit) (after : State → State) (s : State) : Host.Outcome State Fault Refusal :=
  if s.helper && s.ctx.stopReq && !s.unbroken g then .next s.stopHelper
  else
  match s.gateTrap g with
  | some t => .next (s.trapHere t)
  | none =>
    match (if s.unbroken g then none else s.boundary) with
    | some (t, c) => .next (({ s with core := c } : State).takeTrap t true s.pc)
    | none =>
      if g.reads.any s.varPending then .next s.block
      else s.conclude g.st after (body s)

/-- An instruction with nothing after its retirement. -/
def issue (g : Gate) (body : Op Unit) (s : State) : Host.Outcome State Fault Refusal := issueThen g body id s

/-! ### Return from a trap (R223) -/

/-- A jump target through R125: tag, X, bounds, then an even address. -/
def jumpNeed (c : Cap) : Op Unit := capNeed c [pX] (capA c) 2 2

/-- PCC replaced at the end of the instruction. -/
def Ctx.jump (x : Ctx) (c : Cap) : Ctx := { x with pcc := c, npc := BitVec.ofNat 80 (capA c) }

/-- A paused matrix job resumes (R192). -/
def Core.resumeJobs (c : Core) : Core :=
  { c with mq := c.mq.map (fun j => { j with paused := none, told := false }), mfvalid := false }

/-- ERET's steps once TPC has passed its check. -/
def State.returnFromTrap (s : State) : State :=
  let p := s.core.tpc
  let l := s.core.sloop
  let l := { l with lbeg := BitVec.ofNat 80 (capA p / 2 ^ 64 * 2 ^ 64 + l.lbeg.toNat % 2 ^ 64) }
  let s := s.setCtx { s.ctx.jump p with loop := l }
  ({ s with core := { s.core.resumeJobs with ie := s.core.pie, inh := false } } : State).trace 4 0 (capA p % 2 ^ 64)

end Sys2Proof.Machine
end

