-- ==== Sys2Proof/Machine/Jobs.lean ====
section
/-! DEFINITION. Job records of a core (R352, R353): identifiers, status words, and how a job is opened and completed. -/

namespace Sys2Proof.Machine

/-- Job status codes (R353). -/
def stPENDING : Nat := 0
def stDONE : Nat := 1
def stFAULT : Nat := 2
def stLINKFAIL : Nat := 3
def stSKIPPED : Nat := 4
def stCANCELLED : Nat := 5
def stINCOMPLETE : Nat := 6
def stSTALE : Nat := 7
def stREFUSED : Nat := 8
def stUNKNOWN : Nat := 15

/-- Job classes (R352). -/
def clsCopy : Nat := 0
def clsMatrix : Nat := 1
def clsRed : Nat := 2
def clsCommit : Nat := 3
def clsMsg : Nat := 4
def clsDone : Nat := 5

/-- A job identifier (R352). -/
def jobId (cls ri ser : Nat) : Word :=
  BitVec.ofNat 64 (cls % 16 + ri % 4096 * 16 + ser % 2 ^ 32 * 2 ^ 16)

def JobRec.word (j : JobRec) : Word := jobId j.cls j.ri j.ser

/-- A job status word (R353). -/
def JobRec.statusWord (j : JobRec) : Word :=
  BitVec.ofNat 64 (j.status % 16 + j.cause % 64 * 16 + j.count % 65536 * 2 ^ 10 + j.pos % 2 ^ 38 * 2 ^ 26)

/-- The record an identifier names at a core. -/
def Core.jobOf (c : Core) (id : Word) : Option JobRec := c.jobs.find? (fun j => j.word == id)

/-- The lowest record index that no record uses, among the first `n + 1` from `i`. -/
def freeIndex (used : List Nat) (i : Nat) : Nat → Nat
  | 0 => i
  | n + 1 => if used.contains i then freeIndex used (i + 1) n else i

/-- Next record index and serial number of a core; the serial's upper bits name the core, so that an identifier
issued on another core names no record here (log 13). -/
def Core.nextRi (c : Core) : Nat := freeIndex (c.jobs.map (·.ri)) 0 c.jobs.length
def Core.nextSer (c : Core) : Nat := c.id % 4096 * 2 ^ 20 + c.ser % 2 ^ 20

/-- The thread that a job is, from its issue to its completion (R277). -/
def JobRec.thread (j : JobRec) (e : Nat) : Nat × Nat := (e, 2 ^ 40 + j.ser)

/-- The answer to a remote load or atomic as a thread, which its value's coming to the register joins (R288). -/
def answerThread (e tag : Nat) : Nat × Nat := (e, 2 ^ 37 + tag)

/-- The answers to a context's remote operations as a thread, which a FENCER or FENCE domain joins (R288). -/
def answersThread (e ctx : Nat) : Nat × Nat := (e, 2 ^ 38 + ctx)

/-- The issuing context has observed the answers to its remote operations (R288). -/
def State.joinAnswers (s : State) : State := s.edge (answersThread s.core.id s.core.cur.val) s.thread

/-- Jobs of a class in flight at a core. -/
def Core.inFlight (c : Core) (cls : Nat) : Nat := c.jobs.countP (fun j => j.cls == cls && j.status == stPENDING)

/-- A record changed by class and index. -/
def Core.mapRec (c : Core) (cls ri : Nat) (f : JobRec → JobRec) : Core :=
  { c with jobs := c.jobs.map (fun j => if j.cls == cls && j.ri == ri then f j else j) }

/-- A sleeping context woken (R354). -/
def Ctx.wakeUp (x : Ctx) : Ctx :=
  match x.wait with
  | .sleeping t _ => { x with wait := .sleeping t true }
  | _ => x

/-- Every sleeping context of a core woken; or h0 alone. -/
def Core.wake (c : Core) : Core := { c with ctxs := c.ctxs.map Ctx.wakeUp }
def Core.wakeH0 (c : Core) : Core := { c with ctxs := c.ctxs.set 0 (c.ctxs[(0 : Fin 11)].wakeUp) }

/-- A record opened at the focused core for the issuing context: the fork of R284. One opened already complete wakes who
sleeps (R354). -/
def State.openJob (s : State) (cls : Nat) (f : JobRec → JobRec) : State × JobRec :=
  let j := f { cls := cls, ri := s.core.nextRi, ser := s.core.nextSer, ctx := s.core.cur.val }
  let s := s.edge s.thread (j.thread s.core.id)
  let c := { s.core with jobs := s.core.jobs ++ [j], ser := s.core.ser + 1 }
  ({ s with core := if j.status = stPENDING then c else c.wake }, j)

/-- A job of a core completes; contexts asleep wake (R353, R354). A job already complete stays as it is. -/
def Core.completeJob (c : Core) (cls ri : Nat) (f : JobRec → JobRec) : Core :=
  (c.mapRec cls ri (fun j => if j.status == stPENDING then f j else j)).wake

/-- Matrix jobs abandoned (R210): those not captured end at once, which wakes who sleeps (R354); a drain in delivery ends with
its writes. -/
def Core.abandonMatrix (c : Core) : Core :=
  let dropped := (c.mq.filter (fun j => !j.captured)).map (·.ri)
  let c := if dropped.isEmpty then c else c.wake
  { c with
    mq := (c.mq.filter (·.captured)).map (fun j => { j with gone := true })
    mfstep := 0
    mfcause := 0
    mfvalid := false
    mfjob := 0
    jobs := c.jobs.map (fun j =>
      if j.cls == clsMatrix && j.status == stPENDING && dropped.contains j.ri then { j with status := stCANCELLED }
      else j) }

/-- A record freed. -/
def Core.freeJob (c : Core) (id : Word) : Core := { c with jobs := c.jobs.filter (fun j => j.word != id) }

end Sys2Proof.Machine
end

