-- ==== Sys2Proof/Machine/Fabric.lean ====
section
/-! DEFINITION. The fabric: units and routes (R16 to R19, R300), packets and flits (R293 to R295), sequence numbers,
acknowledgements and pacing (R298, R299), and operations in flight with their replies (R296). -/

namespace Sys2Proof.Machine

/-! ### Statuses (R296) -/

def rsDONE : Nat := 0
def rsFAULT : Nat := 1
def rsREFUSED : Nat := 2
def rsLINKFAIL : Nat := 3
def rsUE : Nat := 4
/-- BUSY of a device command (R408). -/
def rsBUSY : Nat := 5

/-! ### Units (R16 to R18) -/

/-- This package's number; 0 until SETPKG. -/
def State.pkgNo (s : State) : Nat := s.pkg.getD 0

/-- Package, local EID, die and unit of an EID (R16). -/
def eidPkg (e : Nat) : Nat := e / 4096 % 4096
def eidLocal (e : Nat) : Nat := e % 4096
def lidUnit (l : Nat) : Nat := l % 1024
def lidDie (l : Nat) : Fin 4 := Fin.ofNat 4 (l / 1024)

/-- Whether a local EID names a core, or a memory agent (R17). -/
def isCore (l : Nat) : Bool := lidUnit l < 256
def isAgent (l : Nat) : Bool := lidUnit l == 0x100 || lidUnit l == 0x101

/-- Whether a local EID is assigned (R17). -/
def unitAssigned (l : Nat) : Bool :=
  let u := lidUnit l
  u < 256 || u == 0x100 || u == 0x101 || (0x140 ≤ u && u ≤ 0x143) || u == 0x200 || ((u == 0x300 || u == 0x301) && l < 1024)

/-- Whether a local EID is a control port's (R17, R25). -/
def ctlPort (l : Nat) : Bool := l == 0x300 || l == 0x301

/-- Stack of a memory agent, and a stack's agent. -/
def agentStack (l : Nat) : Fin 8 := Fin.ofNat 8 (2 * (l / 1024) + l % 2)
def stackAgent (st : Nat) : Nat := st / 2 * 1024 + 0x100 + st % 2

/-- Whether a unit of this package is assigned and online (R18, R411, R415). -/
def State.unitUp (s : State) (l : Nat) : Bool :=
  unitAssigned l &&
  (if lidUnit l == 0x300 || lidUnit l == 0x301 then true
   else if l == 0x200 then true
   else
     let die := match s.dies[lidDie l] with
       | .online => true
       | .reduced => !isCore l || lidUnit l < 64
       | _ => false
     die && (if isAgent l then s.stackUp (agentStack l) else true))

/-- Dies that a packet between two dies crosses or reaches (R15): along dx first, then along dy. -/
def dieRoute (a b : Nat) : List Nat :=
  let mid := a / 2 * 2 + b % 2
  if a = b then [] else if mid = a || mid = b then [b] else [mid, b]

/-- Whether the die between two diagonal dies passes a packet on: the routers of an offline die accept no packet. DESIGN
CHOICE (log 14): the spec names no other way for one. -/
def State.routeUp (s : State) (a b : Nat) : Bool :=
  (dieRoute a b).all (fun d => d == b || d == 0 || s.dies[(Fin.ofNat 4 d)] == .online)

/-- EID of the die manager of a die of this package; it signs what routers answer. -/
def State.dieMgr (s : State) (l : Nat) : Nat := s.eid (l / 1024 * 1024 + 0x200)

end Sys2Proof.Machine

namespace Sys2Proof

/-! ### Packets (R294, R295) -/

/-- Kinds that carry a sequence number (R299). -/
def Packet.sequenced (p : Packet) : Bool := 1 ≤ p.kind && p.kind ≤ 4

/-- A packet without the operations behind its first one. -/
def Packet.first (p : Packet) : Packet := { p with rest := [] }

/-- An operation packed behind a packet's first one, as a packet of its own. -/
def Packet.withOp (p : Packet) (o : PackedOp) : Packet :=
  { p with otag := o.otag, handler := o.handler, arg0 := o.arg0, arg1 := o.arg1, arg2 := o.arg2, arg3 := o.arg3,
           data := o.data, pcc := o.pcc, launch := o.launch, pin := o.pin, rest := [] }

/-- A packet as an operation packed behind another. -/
def Packet.packed (p : Packet) : PackedOp :=
  { otag := p.otag, handler := p.handler, arg0 := p.arg0, arg1 := p.arg1, arg2 := p.arg2, arg3 := p.arg3,
    data := p.data, pcc := p.pcc, launch := p.launch, pin := p.pin }

/-- The operations that a packet carries, in order (R298). -/
def Packet.ops (p : Packet) : List Packet := p.first :: p.rest.map p.withOp

/-- Bytes of one of several operations in a packet: its tag and length and its body (log 14). -/
def Packet.packLen (p : Packet) : Nat := 48 + p.data.length

/-- Body length in bytes (R295, R298). -/
def Packet.bodyLen (p : Packet) : Nat :=
  match p.kind with
  | 1 => if p.rest.isEmpty then 40 + p.data.length else (p.ops.map Packet.packLen).sum
  | 2 => 8 + p.data.length
  | 3 => 8
  | 4 => 8
  | 5 => 8
  | 6 => 16
  | 7 => 16 + p.data.length
  | 8 => 16 + p.data.length
  | 9 => 16 + p.data.length
  | _ => p.data.length

/-- Whether the kind is reserved (R295). -/
def Packet.reservedKind (p : Packet) : Bool := p.kind == 0 || 9 < p.kind

/-- An SPWRITE names a receive slot when bit 63 of ARG0 is set, and a pool offset otherwise (R297, log 14). -/
def slotArg (slot : Nat) : Word := BitVec.ofNat 64 (2 ^ 63 + slot)
def Packet.slotMsg (p : Packet) : Bool := p.kind == 1 && p.handler == 9 && p.arg0.getLsbD 63

/-- A packet sent without asking (R298). -/
def Packet.unsolicited (p : Packet) : Bool := p.kind == 1 && p.bodyLen ≤ 256 && !p.slotMsg

/-- Whether an AM needs a grant before it is sent (R298). -/
def Packet.big (p : Packet) : Bool := p.kind == 1 && 256 < p.bodyLen && !p.slotMsg

/-- Whether a packet needs neither a grant nor the pair's one unsolicited place (R298). -/
def Packet.unpaced (p : Packet) : Bool := p.kind != 1 || p.slotMsg

/-- The DEMAND for a packet (R298): with its tag, so that a refusal finds its operation. -/
def Packet.demand (p : Packet) : Packet :=
  { kind := 3, deid := p.deid, seid := p.seid, asid := p.asid, otag := p.otag, arg0 := BitVec.ofNat 64 p.data.length }

/-- Whether an AM is for a core, and not for the package's memory (R297, R402). -/
def Packet.toCore (p : Packet) : Bool :=
  p.kind == 1 && (64 ≤ p.handler || p.handler == 8 || p.handler == 9 || p.handler == 13)

/-- Whether its handler runs wherever the address lives in the package (R302). -/
def Packet.toMemory (p : Packet) : Bool :=
  p.kind == 1 && (p.handler ≤ 3 || (10 ≤ p.handler && p.handler ≤ 12))

/-- The message as a thread that carries its sender's accesses to whom it reaches (R286). -/
def Packet.thread (p : Packet) : Nat × Nat := (2 ^ 24 + p.seid, p.otag)

/-- The thread of the remote loads, stores and atomics of one context at this package: they are performed in program order
(R288); a tag's low bits name the context (log 14). -/
def Packet.memThread (p : Packet) : Nat × Nat := (2 ^ 24 + p.seid, 2 ^ 20 + p.otag % 16)

/-- Body bytes of one operation of an AM (R295). -/
def Packet.opBytes (p : Packet) : List Byte :=
  leBytes 8 p.handler ++ leBytes 8 p.arg0.toNat ++ leBytes 8 p.arg1.toNat ++ leBytes 8 p.arg2.toNat ++
    leBytes 8 p.arg3.toNat ++ p.data

/-- Bytes of a packet on a link (R294, R295). Where it carries several operations (R298), the header's OTAG is 0 and each
operation stands behind its own tag and length (log 14). -/
def Packet.bytes (p : Packet) : List Byte :=
  leBytes 16 (p.kind % 256 + p.deid % 2 ^ 24 * 2 ^ 8 + p.seid % 2 ^ 24 * 2 ^ 32 + p.pseq % 65536 * 2 ^ 64 +
    p.bodyLen % 65536 * 2 ^ 80 + p.asid % 65536 * 2 ^ 96 + (if p.rest.isEmpty then p.otag else 0) % 65536 * 2 ^ 112) ++
  (match p.kind with
   | 1 => if p.rest.isEmpty then p.opBytes
          else p.ops.flatMap (fun q => leBytes 2 q.otag ++ leBytes 6 q.opBytes.length ++ q.opBytes)
   | 2 => leBytes 8 (p.status % 256) ++ p.data
   | 3 => leBytes 8 p.arg0.toNat
   | 4 => leBytes 8 p.arg0.toNat
   | 5 => leBytes 8 (p.arg0.toNat % 65536)
   | 6 => leBytes 8 p.arg0.toNat ++ leBytes 8 p.arg1.toNat
   | 7 => leBytes 8 p.arg0.toNat ++ leBytes 8 p.arg1.toNat ++ p.data
   | 8 => leBytes 8 p.arg0.toNat ++ leBytes 8 p.arg1.toNat ++ p.data
   | 9 => leBytes 8 p.arg0.toNat ++ leBytes 8 p.arg1.toNat ++ p.data
   | _ => p.data)

end Sys2Proof

namespace Sys2Proof.Machine

/-- A little-endian word at an offset of some bytes. -/
def wordAt (bs : List Byte) (o : Nat) : Word := BitVec.ofNat 64 (leNat ((bs.drop o).take 8))

/-- An AM's operation of its tag and body; a message task's pin stands in OTAG[15:14] (log 14). -/
def opOf (p : Packet) (tag : Nat) (bd : List Byte) : Packet :=
  { p with otag := tag, pin := tag / 2 ^ 14, handler := (wordAt bd 0).toNat, arg0 := wordAt bd 8, arg1 := wordAt bd 16,
           arg2 := wordAt bd 24, arg3 := wordAt bd 32, data := bd.drop 40 }

/-- The operations of a packed body. -/
def opsOf (p : Packet) : Nat → List Byte → List Packet
  | 0, _ => []
  | n + 1, bd =>
    if bd.length < 8 then []
    else
      let k := leNat ((bd.drop 2).take 6)
      opOf p (leNat (bd.take 2)) ((bd.drop 8).take k) :: opsOf p n (bd.drop (8 + k))

/-- A packet of its header and body. -/
def packetOf (hd bd : List Byte) : Packet :=
  let h := leNat hd
  let p : Packet := { kind := h % 256, deid := h / 2 ^ 8 % 2 ^ 24, seid := h / 2 ^ 32 % 2 ^ 24,
                      pseq := h / 2 ^ 64 % 65536, asid := h / 2 ^ 96 % 65536, otag := h / 2 ^ 112 % 65536 }
  match p.kind with
  | 1 =>
    if p.otag = 0 then
      (match opsOf p 5 bd with
       | [] => p
       | q :: qs => { q with rest := qs.map Packet.packed })
    else opOf p p.otag bd
  | 2 => { p with status := (wordAt bd 0).toNat % 256, data := bd.drop 8 }
  | 3 => { p with arg0 := wordAt bd 0 }
  | 4 => { p with arg0 := wordAt bd 0 }
  | 5 => { p with arg0 := BitVec.ofNat 64 ((wordAt bd 0).toNat % 65536) }
  | 6 => { p with arg0 := wordAt bd 0, arg1 := wordAt bd 8 }
  | 7 => { p with arg0 := wordAt bd 0, arg1 := wordAt bd 8, data := bd.drop 16 }
  | 8 => { p with arg0 := wordAt bd 0, arg1 := wordAt bd 8, data := bd.drop 16 }
  | 9 => { p with arg0 := wordAt bd 0, arg1 := wordAt bd 8, data := bd.drop 16 }
  | _ => { p with data := bd }

/-- The whole packets at the front of a stream that ends with a flit, and what is left. Zero bytes from where a header would
begin to the flit's end are filling (log 14). -/
def parseStream : Nat → List Byte → List Packet × List Byte
  | 0, bs => ([], bs)
  | n + 1, bs =>
    if bs.all (· == 0) then ([], [])
    else
      let len := leNat ((bs.drop 10).take 2)
      if bs.length < 16 + len then ([], bs)
      else
        let r := parseStream n (bs.drop (16 + len))
        (packetOf (bs.take 16) ((bs.drop 16).take len) :: r.1, r.2)

/-! ### Flits and links (R293, R299, R300) -/

/-- One byte of CRC-32C. -/
def crc32cByte (c : Nat) (b : Byte) : Nat :=
  (List.range 8).foldl (fun c _ => if c % 2 = 1 then c / 2 ^^^ 0x82F63B78 else c / 2) (c ^^^ b.toNat)

/-- CRC-32C (R293). -/
def crc32c (bs : List Byte) : Nat := bs.foldl crc32cByte 0xFFFFFFFF ^^^ 0xFFFFFFFF

/-- Bytes 0 to 59 of a flit. -/
def flitBody (f : Flit) : List Byte :=
  f.pay ++ leBytes 2 (f.fseq % 4096 + f.typ % 16 * 4096) ++ leBytes 2 (f.fack % 4096)

/-- A flit with its CRC. -/
def mkFlit (pay : List Byte) (fseq typ fack : Nat) : Flit :=
  let f : Flit := { pay := pay, fseq := fseq, typ := typ, fack := fack, crc := 0 }
  { f with crc := crc32c (flitBody f) }

/-- Last sequence number received intact. -/
def Link.ack (l : Link) : Nat := (l.rx + 4095) % 4096

/-- A data flit leaves, and is kept until acknowledged (R299). -/
def Link.emit (l : Link) (pay : List Byte) : Link :=
  let f := mkFlit pay l.tx 0 l.ack
  { l with tx := (l.tx + 1) % 4096, held := l.held ++ [f], out := l.out ++ [f] }

/-- The whole flits at the front of some packet bytes leave; the rest waits for more (R293). -/
def Link.pour : Nat → Link → List Byte → Link
  | 0, l, bs => { l with tail := bs }
  | n + 1, l, bs => if bs.length < 56 then { l with tail := bs } else Link.pour n (l.emit (bs.take 56)) (bs.drop 56)

/-- A packet put on a link: packets are cut into flits with no gaps (R293). -/
def Link.put (l : Link) (p : Packet) : Link :=
  let bs := l.tail ++ p.bytes
  Link.pour (bs.length / 56) l bs

/-- Bytes that no further packet has joined leave at the end of the step, in a flit filled with zero bytes (log 14). -/
def Link.flush (l : Link) : Link :=
  if l.tail.isEmpty then l else ({ l with tail := [] } : Link).emit ((l.tail ++ List.replicate 56 0).take 56)

/-- A link changed. -/
def State.mapLink (s : State) (l : Fin 16) (f : Link → Link) : State := { s with links := s.links.set l (f s.links[l]) }

/-- The link a packet for a package leaves by (R300). -/
def State.routeTo (s : State) (pkg : Nat) : Option (Fin 16) :=
  let e := ((s.routes.find? (fun r => r.dst == pkg)).map (·.ent)).getD 0
  let pri : Fin 16 := Fin.ofNat 16 (e.toNat % 16)
  let alt : Fin 16 := Fin.ofNat 16 (e.toNat / 16 % 16)
  if e.getLsbD 8 && s.links[pri].trained then some pri
  else if e.getLsbD 9 && s.links[alt].trained then some alt
  else none

/-- What waits at every link leaves. -/
def State.flushLinks (s : State) : State :=
  if s.links.any (fun l => !l.tail.isEmpty) then { s with links := s.links.map Link.flush } else s

/-- A packet put on its way; none where no link is usable (R300). -/
def State.wire (s : State) (p : Packet) : Option State :=
  if eidPkg p.deid = s.pkgNo then some { s with net := s.net ++ [p] }
  else (s.routeTo (eidPkg p.deid)).map (fun l => s.mapLink l (fun k => k.put p))

/-! ### Pairs of endpoints (R298, R299) -/

def State.pairTx (s : State) (src dst : Nat) : PairTx :=
  (s.ptx.find? (fun t => t.src == src && t.dst == dst)).getD { src := src, dst := dst }

def State.setTx (s : State) (t : PairTx) : State :=
  { s with ptx := t :: s.ptx.filter (fun u => !(u.src == t.src && u.dst == t.dst)) }

def State.pairRx (s : State) (src dst : Nat) : PairRx :=
  (s.prx.find? (fun t => t.src == src && t.dst == dst)).getD { src := src, dst := dst }

def State.setRx (s : State) (t : PairRx) : State :=
  { s with prx := t :: s.prx.filter (fun u => !(u.src == t.src && u.dst == t.dst)) }

/-- Whether a job's gang holds two cores, this package's or another's (R402). -/
def State.sameGang (s : State) (asid a b : Nat) : Bool :=
  match s.jobOf asid with
  | some j =>
    let all := j.spec.gang.map s.eid ++ j.spec.away
    all.contains a && all.contains b
  | none => false

/-- Whether an AM packet goes from one core of the job's gang to another (R402). -/
def State.gangMessage (s : State) (p : Packet) : Bool :=
  p.kind == 1 && p.ops.any Packet.toCore && s.sameGang p.asid p.seid p.deid

/-- A numbered packet kept until it is acknowledged (R299). -/
def PairTx.keep (t : PairTx) (p : Packet) (now : Nat) : PairTx :=
  { t with next := (t.next + 1) % 65536, unack := t.unack ++ [p], sentAt := t.sentAt ++ [now]
           since := if t.unack.isEmpty then now else t.since }

/-- Whether a pair has as many unacknowledged packets as R299 lets it have. -/
def PairTx.full (t : PairTx) : Bool := 32768 ≤ t.unack.length

/-- A REFUSED reply of a die manager of this package to each operation of an AM from this package (R18, R296, R300); where its pair
is full it waits (R299). -/
def State.refuseHere (s : State) (p : Packet) : State :=
  let me := s.dieMgr (eidLocal p.seid)
  p.ops.foldl (fun s q =>
    let u := s.pairTx me q.seid
    let r : Packet := { kind := 2, deid := q.seid, seid := me, asid := q.asid, otag := q.otag, status := rsREFUSED }
    if u.full then s.setTx { u with wait := u.wait ++ [r] }
    else
      let r := { r with pseq := u.next }
      { s.setTx (u.keep r s.time.toNat) with net := s.net ++ [r] }) s

/-- Whether a core holds the job of a packet: its counts are that job's (R395, R402). -/
def Core.holdsJob (c : Core) (p : Packet) : Bool := c.job == some p.asid

/-- A sequenced packet sent for the first time (R299, R402): numbered, kept, and on its way. An AM for which no link is
usable is answered REFUSED by the source's own router (R300); another packet is sent again by its pair's timer. -/
def State.transmit (s : State) (p : Packet) : State :=
  let t := s.pairTx p.seid p.deid
  let p' := { p with pseq := t.next }
  match s.wire p' with
  | some s =>
    let s := s.setTx (t.keep p' s.time.toNat)
    if s.gangMessage p then
      s.mapCore (eidLocal p.seid) (fun c => if c.holdsJob p then { c with msent := c.msent + 1 } else c)
    else s
  | none => if p.kind = 1 then s.refuseHere p else s.setTx (t.keep p' s.time.toNat)

/-- Whether a packet must wait behind others of its pair, or for its grant (R298, R299). -/
def PairTx.holds (t : PairTx) (p : Packet) : Bool :=
  t.full ||
    (if p.unpaced then t.wait.any Packet.unpaced
     else t.wait.any (fun q => !q.unpaced) || p.big || (p.unsolicited && t.unack.any (·.unsolicited)))

/-- A packet sent by an endpoint of this package (R298): one that needs a grant has its DEMAND sent before it, which waits too where
the pair is full (R299). -/
def State.send (s : State) (p : Packet) : State :=
  if p.sequenced then
    let t := s.pairTx p.seid p.deid
    if !t.holds p || (p.kind = 1 && (s.wire p).isNone) then s.transmit p
    else
      let s := s.setTx { t with wait := t.wait ++ (if p.big && t.full then [p.demand, p] else [p]) }
      if p.big && !t.full then s.transmit p.demand else s
  else (s.wire p).getD s

/-- How many waiting operations one unsolicited packet takes: those that fit in 256 bytes (R298). -/
def packCount : Nat → List Packet → Nat
  | _, [] => 0
  | room, p :: ps => if !p.unpaced && p.packLen ≤ room then 1 + packCount (room - p.packLen) ps else 0

/-- Operations packed into one packet, in order (R298). -/
def packAll : List Packet → Packet
  | [] => {}
  | p :: ps => { p with rest := ps.map Packet.packed }

/-- Waiting packets of a pair sent as far as the one unsolicited packet and the grants allow. -/
def State.releaseN (s : State) (src dst : Nat) : Nat → State
  | 0 => s
  | n + 1 =>
    let t := s.pairTx src dst
    if t.full then s
    else
      match t.wait.find? Packet.unpaced with
      | some p => ((s.setTx { t with wait := t.wait.erase p }).transmit p).releaseN src dst n
      | none =>
        match t.wait with
        | [] => s
        | p :: ps =>
          if p.big then
            (if p.data.length ≤ t.granted then
              ((s.setTx { t with wait := ps, granted := t.granted - p.data.length }).transmit p).releaseN src dst n
             else s)
          else if t.unack.any (·.unsolicited) then s
          else
            let k := max 1 (packCount 256 t.wait)
            ((s.setTx { t with wait := t.wait.drop k }).transmit (packAll (t.wait.take k))).releaseN src dst n

def State.release (s : State) (src dst : Nat) : State := s.releaseN src dst (s.pairTx src dst).wait.length

/-- An acknowledged packet let go: the timer runs on from when the new oldest was sent (R299). -/
def PairTx.letGo (t : PairTx) (pseq now : Nat) : PairTx :=
  let first := (t.unack.head?.map (·.pseq)) == some pseq
  let kept := (t.unack.zip t.sentAt).filter (fun p => p.1.pseq != pseq)
  { t with unack := t.unack.filter (fun p => p.pseq != pseq)
           sentAt := kept.map (·.2)
           since := if first then (kept.head?.map (·.2)).getD now else t.since
           fails := if first then 0 else t.fails }

/-- A packet acknowledged (R299). -/
def State.acked (s : State) (src dst pseq : Nat) : State :=
  (s.setTx ((s.pairTx src dst).letGo pseq s.time.toNat)).release src dst

/-- The acknowledgement of a packet (R299). -/
def State.eackFor (s : State) (p : Packet) : State :=
  (s.wire { kind := 5, deid := p.seid, seid := p.deid, asid := p.asid, arg0 := BitVec.ofNat 64 p.pseq }).getD s

/-- The REPLY to a request (R296, R297). -/
def State.replyFrom (s : State) (me : Nat) (p : Packet) (status : Nat) (data : List Byte) : State :=
  s.send { kind := 2, deid := p.seid, seid := me, asid := p.asid, otag := p.otag, status := status, data := data }

def State.replyTo (s : State) (p : Packet) (status : Nat) (data : List Byte := []) : State :=
  s.replyFrom p.deid p status data

/-- Each operation of a refused AM, and a refused DEMAND, answered by the die manager of the router that refuses it (R18,
R296). -/
def State.refuse (s : State) (p : Packet) : State :=
  if p.kind = 1 || p.kind = 3 then
    p.ops.foldl (fun s q => s.replyFrom (s.dieMgr (eidLocal p.deid)) q rsREFUSED []) s
  else s

/-- A packet for another package passed on by its route; one that no link can take is refused (R19, R300). -/
def State.forward (s : State) (p : Packet) : State :=
  match s.wire p with
  | some s => s
  | none => if p.kind = 1 then p.ops.foldl (fun s q => s.replyFrom (s.dieMgr 0) q rsREFUSED []) s else s

/-- Whether a packet is refused at the first router of its die (R18), or on its way there (R15). A remote access names the package
by unit 0, and runs wherever its address lives (R302, log 14). DESIGN CHOICE (log 14): R15 does not say where such an access
enters the package's dies, nor by which die a packet that came in by a link does; both are delivered whatever the state of a die
on the way between two dies. -/
def State.refused (s : State) (p : Packet) : Bool :=
  if p.toMemory && eidLocal p.deid = 0 then false
  else !s.unitUp (eidLocal p.deid) ||
    (eidPkg p.seid = s.pkgNo && !s.routeUp (eidLocal p.seid / 1024) (eidLocal p.deid / 1024))

/-- Whether a packet of a pair waits at its network interface (R324). -/
def State.niHolds (s : State) (p : Packet) : Bool := s.niWait.any (fun q => q.seid == p.seid && q.deid == p.deid)

/-- The expected packet accepted, and counted where it goes between cores of one gang and its core holds the gang's job (R299, R395,
R402). -/
def State.accept (s : State) (p : Packet) : State :=
  let r := s.pairRx p.seid p.deid
  let s := (s.setRx { r with want := (r.want + 1) % 65536 }).eackFor p
  if !s.refused p && s.gangMessage p then
    s.mapCore (eidLocal p.deid) (fun c => if c.holdsJob p then { c with mrecv := c.mrecv + 1 } else c)
  else s

/-- A packet reaches its destination (R16, R18, R298, R299): before the package has its number its control ports alone answer; one
that waits at its network interface is tried again, behind those of its pair that came before it (R324); out of order it is
dropped, a duplicate only acknowledged again; the expected one is acknowledged, and its first operation performed by `f` unless it
is refused, with the others behind it. -/
def State.arrive (s : State) (p : Packet) (f : State → State) : State :=
  let s := { s with net := s.net.erase p }
  if s.niWait.contains p then
    (if (s.niWait.find? (fun q => q.seid == p.seid && q.deid == p.deid)) == some p then
       f { s with niWait := s.niWait.erase p }
     else s)
  else if s.pkg.isNone && !ctlPort (eidLocal p.deid) then s
  else if eidPkg p.deid ≠ s.pkgNo then s.forward p
  else if !p.sequenced then (if s.refused p then s else f s)
  else
    let gap := (p.pseq + 65536 - (s.pairRx p.seid p.deid).want) % 65536
    if gap = 0 then
      let s := s.accept p
      if s.refused p then s.refuse p
      else if p.kind = 1 && !p.slotMsg && s.niHolds p then { s with niWait := s.niWait ++ p.ops }
      else f { s with niWait := s.niWait ++ p.rest.map p.withOp }
    else if 32768 ≤ gap then s.eackFor p
    else s

/-! ### Spilled messages (R232) -/

/-- Where a spilled message waits to be placed (log 24): 2 a binding table, 3 a Hutch, 4 a reduction job. -/
def placeKind (p : Packet) : Nat := if p.kind = 9 then 4 else if p.handler = 13 then 2 else 3

/-- A spilled message in the spill region: its destination EID, kind of placement and length, then the packet (log 24). -/
def spillRecord (p : Packet) : List Byte :=
  leBytes 4 (p.deid % 2 ^ 24) ++ leBytes 2 (placeKind p) ++ leBytes 2 p.bytes.length ++ p.bytes

/-- Bytes that the spilled messages of a job take. -/
def Job.spillBytes (j : Job) : Nat := (j.spilled.map (fun p => (spillRecord p).length)).sum

/-- A message of a gang that is switched out written to the next free place of the spill region, in arrival order
(R232), and counted in the header where that is already written. -/
def State.spill (s : State) (p : Packet) : State :=
  match s.jobOf p.asid with
  | none => s
  | some j =>
    let r := spillRecord p
    let s := if j.spillBytes + r.length ≤ j.spec.saveSpill then
        s.engineWrite p.asid ((capBase j.spec.save).toNat + 256 + j.spillBytes) r (s.dieMgr (eidLocal p.deid)) else s
    let s := if j.valid then
        s.engineWrite p.asid ((capBase j.spec.save).toNat + 24) (leBytes 8 (j.spilled.length + 1)) (s.dieMgr 0) else s
    s.mapJob p.asid (fun j => { j with spilled := j.spilled ++ [p] })

/-- A message that finds no room waits at its network interface, before those of its pair (R324). -/
def State.hold (s : State) (p : Packet) : State := { s with niWait := p :: s.niWait }

/-! ### Operations in flight -/

/-- The next tag of a unit that is no core; 0 is no operation's. -/
def nextTag (t : Nat) : Nat := if t % 65536 = 65535 then 1 else t % 65536 + 1

/-- The tag of an operation (R294): a running number, the context, and the pin of a message task (log 14). -/
def tagOf (k ctx pin : Nat) : Nat := pin * 2 ^ 14 + 16 * k + ctx

/-- The next running number after one, 1 to 1,023. -/
def nextRun (k : Nat) : Nat := if 1023 ≤ k then 1 else k + 1

/-- The first running number from one upward that no operation in flight holds. -/
def freeRun (ops : List RemOp) : Nat → Nat → Nat
  | 0, k => k
  | n + 1, k => if ops.any (fun r => r.tag / 16 % 1024 == k) then freeRun ops n (nextRun k) else k

/-- The running number of the next operation of a core. -/
def Core.tagRun (c : Core) : Nat := freeRun c.ops 1023 c.otag

/-- The tag of the next operation of the focused core, for a message task's pin. -/
def State.newTag (s : State) (pin : Nat) : Nat := tagOf s.core.tagRun s.core.cur.val pin

/-- An AM sent from the focused core by a thread, whose reply completes an operation: the state and its tag. -/
def State.sendFrom (s : State) (me : Nat × Nat) (p : Packet) (f : RemOp → RemOp) : State × Nat :=
  let tag := s.newTag p.pin
  let p := { p with kind := 1, seid := s.myEid, asid := s.asid, otag := tag }
  let s := (s.edge me p.thread).edge me p.memThread
  let s := { s with core := { s.core with otag := nextRun s.core.tagRun,
                                          ops := s.core.ops ++ [f { tag := tag, ctx := s.core.cur.val, pkt := p }] } }
  (s.send p, tag)

/-- An AM sent by the issuing context. -/
def State.sendOp (s : State) (p : Packet) (f : RemOp → RemOp) : State × Nat := s.sendFrom s.thread p f

/-- An AM sent by a unit that is no core. -/
def State.unitOp (s : State) (p : Packet) : State :=
  let tag := s.utag
  let p := { p with kind := 1, otag := tag }
  ({ s with utag := nextTag tag, uops := s.uops ++ [{ tag := tag, ctx := 0, pkt := p }] } : State).send p

/-- The operation of a core that a reply's tag names. -/
def Core.opOf (c : Core) (tag : Nat) : Option RemOp := c.ops.find? (fun r => r.tag == tag)

def Core.dropOp (c : Core) (tag : Nat) : Core := { c with ops := c.ops.filter (fun r => r.tag != tag) }

/-- A value on its way to the register that waits for an operation (R79); where a later write to it has dropped the
wait, it is discarded (R81). -/
def Ctx.deliver (x : Ctx) (op : Nat) (v : Cap) : Ctx :=
  { x with pend := x.pend.map (fun p =>
      if p.op == op && p.file == .c then { p with val := some (v.bits.zeroExtend 1024, v.tag) } else p) }

/-- The n-th awaited result written into its register, once it is there (R79). -/
def Ctx.ready (x : Ctx) (n : Nat) : Ctx :=
  match x.pend[n]? with
  | some p =>
    match p.val with
    | some (v, tag) =>
      { x with pend := x.pend.filter (fun q => q != p)
               c := if h : p.idx < 32 then (if p.idx = 0 then x.c else x.c.set p.idx ⟨v.truncate 128, tag⟩) else x.c }
    | none => x
  | none => x

/-- A remote operation counted in the failure summary of its context (R303). -/
def Ctx.countFail (x : Ctx) (status pkg : Nat) : Ctx :=
  if status = 0 then x
  else if x.nfail = 0 then { x with nfail := 1, fst := status, fpkg := pkg }
  else { x with nfail := min 65535 (x.nfail + 1) }

/-- A context of a core by number. -/
def Core.mapCtxNo (c : Core) (h : Nat) (f : Ctx → Ctx) : Core :=
  if hh : h < 11 then { c with ctxs := c.ctxs.set h (f c.ctxs[h]) } else c

end Sys2Proof.Machine
end

