-- ==== Sys2Proof/Machine/Levels.lean ====
section
/-! DEFINITION. Tasks in the Hutches (R322 to R328), level counters (R329, R330, R396 to R398), task stamps (R404), and
how a task starts and ends. -/

namespace Sys2Proof.Machine

/-! ### Level records -/

/-- The job's own level identifier: LVL 4, record 0 (log 15). -/
def jobLid : Nat := 0x80000000

/-- LVL of a level identifier (R396). -/
def lidLevel (lid : Nat) : Nat := lid / 2 ^ 29 % 8

/-- Level states (R397). -/
def lvPENDING : Nat := 1
def lvOPEN : Nat := 2
def lvCLOSED : Nat := 3
def lvCOMPLETE : Nat := 4
def lvCANCELLED : Nat := 5

def State.levelOf (s : State) (asid lid : Nat) : Option Level :=
  s.levels.find? (fun l => l.asid == asid && l.lid == lid)

/-- A counter record's 32 bytes (R397). -/
def Level.bytes (l : Level) : List Byte :=
  leBytes 32 (l.cnt % 2 ^ 32 + l.st % 16 * 2 ^ 32 + l.dep % 2 ^ 32 * 2 ^ 64 + l.parent % 2 ^ 32 * 2 ^ 96 +
    l.topen % 2 ^ 64 * 2 ^ 128 + l.tdone % 2 ^ 64 * 2 ^ 192)

/-- A level as a thread that carries what its tasks did (R286). -/
def levelThread (asid lid : Nat) : Nat × Nat := (2 ^ 26 + asid, lid)

/-- A level's record as memory shows it (R396, R397); a load that returns a final STATE comes after what the level's tasks did
(R399). -/
def State.showLevel (s : State) (l : Level) : State :=
  match s.jobOf l.asid with
  | some j =>
    if j.spec.counter.tag then
      let va := j.counterBase + 32 * (l.lid % 2 ^ 29)
      let s := s.engineWrite l.asid va l.bytes (s.dieMgr 0)
      if l.st = lvCOMPLETE || l.st = lvCANCELLED then
        match s.jobPlace l.asid (va + 4) .load with
        | some a => s.keepSource (levelThread l.asid l.lid) (va + 4) a 1
        | none => s
      else s
    else s
  | none => s

/-- A level put in place of the one with its identifier. -/
def State.putLevel (s : State) (l : Level) : State :=
  ({ s with levels := l :: s.levels.filter (fun x => !(x.asid == l.asid && x.lid == l.lid)) } : State).showLevel l

def State.mapLevel (s : State) (asid lid : Nat) (f : Level → Level) : State :=
  match s.levelOf asid lid with
  | some l => s.putLevel (f l)
  | none => s

/-- The level a task counts in: its launch, or the job (R330). -/
def Task.level (t : Task) : Nat := if t.launch = 0 then jobLid else t.launch

/-- A count taken on a level; none where it would pass 2^32 − 1 (R397). -/
def State.countUp (s : State) (asid lid : Nat) : Option State :=
  match s.levelOf asid lid with
  | some l => if 2 ^ 32 - 1 ≤ l.cnt then none else some (s.putLevel { l with cnt := l.cnt + 1 })
  | none => some s

/-- A level done: its last state, and TDONE (R397, R398); the level that encloses it comes after it (R399). -/
def State.closeLevel (s : State) (asid lid : Nat) : State :=
  let s := s.mapLevel asid lid (fun l =>
    { l with st := if l.cancelled then lvCANCELLED else lvCOMPLETE, tdone := s.time.toNat })
  match s.levelOf asid lid with
  | some l => s.edge (levelThread asid lid) (levelThread asid l.parent)
  | none => s

/-- A new level record; one already in use is replaced. -/
def State.openLevel (s : State) (l : Level) : State :=
  s.putLevel (if l.st = lvOPEN then { l with topen := s.time.toNat } else l)

/-- One launch of a graph entered as PENDING (R329). -/
def State.addLaunch (s : State) (asid graph : Nat) (sp : LaunchSpec) : State :=
  s.openLevel { asid := asid, lid := sp.lid, st := lvPENDING, dep := sp.dep, parent := graph, spec := some sp }

/-- A graph starts: its own level and its launches, which come after the graphs of the phase that have completed (R286, R330, R408).
One without launches is complete at once. -/
def State.startGraph (s : State) (g : GraphSpec) : State :=
  if g.launches.isEmpty then
    (s.openLevel { asid := g.asid, lid := g.graph, st := lvCOMPLETE, parent := g.phase, topen := s.time.toNat,
                   tdone := s.time.toNat, last := g.last }).mapLevel g.asid g.phase (fun l => { l with cnt := l.cnt - 1 })
  else
    let s := s.openLevel { asid := g.asid, lid := g.graph, st := lvOPEN, cnt := g.launches.length, parent := g.phase,
                           last := g.last }
    g.launches.foldl (fun s sp =>
      (s.addLaunch g.asid g.graph sp).edge (levelThread g.asid g.phase) (levelThread g.asid sp.lid)) s

/-- A graph of a phase that has not completed. -/
def State.graphRunning (s : State) (asid phase : Nat) : Bool :=
  s.levels.any (fun l => l.asid == asid && lidLevel l.lid == 2 && l.parent == phase && l.st == lvOPEN)

/-- Graphs that wait for their phase started in order, until one of the phase runs (R330). -/
def State.nextGraphs (s : State) (asid phase : Nat) : List GraphSpec → State
  | [] => s
  | g :: gs =>
    if s.graphRunning asid phase then s
    else ((s.mapJob asid (fun j => { j with pendGraphs := j.pendGraphs.erase g })).startGraph g).nextGraphs asid phase gs

/-- The next graph that waits for its phase starts, once none of the phase runs (R330). -/
def State.nextGraph (s : State) (asid phase : Nat) : State :=
  s.nextGraphs asid phase (((s.jobOf asid).map (fun j => j.pendGraphs.filter (fun g => g.phase == phase))).getD [])

/-- A graph completes: its phase counts it, and starts its next graph (R330). A cancelled phase completes with its
last graph. -/
def State.graphDone (s : State) (asid graph : Nat) : State :=
  let phase := ((s.levelOf asid graph).map (·.parent)).getD 0
  let s := s.closeLevel asid graph
  let s := s.mapLevel asid phase (fun l => { l with cnt := l.cnt - 1 })
  match s.levelOf asid phase with
  | some p => if p.cancelled then (if p.cnt = 0 then s.closeLevel asid phase else s) else s.nextGraph asid phase
  | none => s

/-- A launch is COMPLETE or CANCELLED: its graph has one open launch less (R329, R330). -/
def State.graphDown (s : State) (asid graph : Nat) : State :=
  let s := s.mapLevel asid graph (fun l => { l with cnt := l.cnt - 1 })
  match s.levelOf asid graph with
  | some g => if g.cnt = 0 && g.st = lvOPEN then s.graphDone asid graph else s
  | none => s

/-- The successors of a complete launch have one dependence less, and come after its tasks (R286, R329). -/
def State.releaseSucc (s : State) (asid lid : Nat) : State :=
  match (s.levelOf asid lid).bind (·.spec) with
  | some sp =>
    sp.succ.foldl (fun s n =>
      (s.mapLevel asid n (fun l => { l with dep := l.dep - 1 })).edge (levelThread asid lid) (levelThread asid n)) s
  | none => s

/-- Numbers in rising order. -/
def rankSort : List Nat → List Nat
  | [] => []
  | x :: xs => put x (rankSort xs)
where
  /-- A number in its place. -/
  put (x : Nat) : List Nat → List Nat
    | [] => [x]
    | y :: ys => if x ≤ y then x :: y :: ys else y :: put x ys

/-- Cores that take part in a launch: the gang's cores of its clusters, by die and index (R384). -/
def State.launchCores (s : State) (asid : Nat) (sp : LaunchSpec) : List Nat :=
  match s.jobOf asid with
  | some j => rankSort (j.spec.gang.filter (fun e => sp.clusters.contains (clusterOf e)))
  | none => []

/-- A launch whose counter has reached zero while CLOSED, or that CANCEL ends (R329, R398, R403); either completes it in this cycle
(R229, R234). -/
def State.launchDone (s : State) (asid lid : Nat) : State :=
  match s.levelOf asid lid with
  | none => s
  | some l =>
    let s := match l.spec with
      | some sp => if l.cancelled then s else (s.launchCores asid sp).foldl (fun s e => s.snapCounters (levelThread asid lid) asid e) s
      | none => s
    let s := s.closeLevel asid lid
    let s := s.mapJob asid (fun j => { j with closed := true })
    let hash := ((s.jobOf asid).bind (·.spec.hash)).isSome
    let s := if l.cancelled then s
      else if hash then s.mapLevel asid lid (fun l => { l with bureau := true })
      else s.releaseSucc asid lid
    s.graphDown asid l.parent

/-- A count released on a level, by one ordered operation at its memory agent (R329, R398). -/
def State.countDown (s : State) (asid lid : Nat) : State :=
  let s := s.mapLevel asid lid (fun l => { l with cnt := l.cnt - 1 })
  match s.levelOf asid lid with
  | none => s
  | some l =>
    if l.cnt = 0 && (l.st = lvCLOSED || (l.cancelled && l.st ≤ lvCLOSED)) then
      (if lidLevel lid = 1 then s.launchDone asid lid else if l.cancelled then s.closeLevel asid lid else s)
    else s

/-! ### Task stamps (R404) -/

/-- A 32-bit field of a ring's header. -/
def State.ringField (s : State) (asid base o : Nat) : State × Nat :=
  let (s, bs) := s.engineRead asid (base + o) 4
  (s, leNat bs)

/-- One record put in a ring with the header of R393: dropped, with OVF set, where the reader is behind. -/
def State.ringPut (s : State) (asid base size : Nat) (bs : List Byte) : State :=
  let (s, nrec) := s.ringField asid base 0
  let (s, widx) := s.ringField asid base 4
  let (s, ridx) := s.ringField asid base 8
  if nrec ≤ (widx + 2 ^ 32 - ridx) % 2 ^ 32 then s.engineWrite asid (base + 16) [1] (s.dieMgr 0)
  else
    (s.engineWrite asid (base + 64 + size * (widx % nrec)) bs (s.dieMgr 0)).engineWrite asid (base + 4)
      (leBytes 4 (widx + 1)) (s.dieMgr 0)

/-- The headers of a job's rings as JOBSTART leaves them: the capacity the host gives, and zero (R393). -/
def State.startRings (s : State) (sp : JobSpec) : State :=
  (sp.hash.toList ++ sp.stamp.toList).foldl (fun s r => s.engineWrite sp.asid r.base (leBytes 64 (r.nrec % 2 ^ 32)) (s.dieMgr 0)) s

/-- How a task came to its core (R404). -/
def How.code : How → Nat
  | .own => 0 | .stolen => 1 | .recruited => 2 | .continued => 3

/-- The stamp of a task that ends or is discarded (R404). -/
def State.stamp (s : State) (t : Task) (deq srch fails core : Nat) (how : How) (disc : Bool) : State :=
  match (s.jobOf t.asid).bind (·.spec.stamp) with
  | none => s
  | some r =>
    s.ringPut t.asid r.base 64
      (leBytes 64 (t.tid % 2 ^ 64 + t.enq % 2 ^ 64 * 2 ^ 64 + deq % 2 ^ 64 * 2 ^ 128 + s.time.toNat * 2 ^ 192 +
        srch % 2 ^ 64 * 2 ^ 256 + t.launch % 2 ^ 32 * 2 ^ 320 + core % 256 * 2 ^ 352 + how.code * 2 ^ 360 +
        b2n disc * 2 ^ 362 + min fails 31 * 2 ^ 363))

/-! ### Hutches (R324) -/

def State.hutch (s : State) (cl : Nat) : Hutch := (s.hutches.find? (fun h => h.cl == cl)).getD { cl := cl }

def State.setHutch (s : State) (h : Hutch) : State :=
  { s with hutches := h :: s.hutches.filter (fun x => x.cl != h.cl) }

/-- The tasks of a Hutch in the order of R326. -/
def Hutch.tasks (h : Hutch) : List Task := h.head ++ h.t3 ++ h.t2 ++ h.t1 ++ h.t0

/-- A Hutch without the tasks that fail a test. -/
def Hutch.keep (h : Hutch) (p : Task → Bool) : Hutch :=
  { h with head := h.head.filter p, t0 := h.t0.filter p, t1 := h.t1.filter p, t2 := h.t2.filter p,
           t3 := h.t3.filter p }

/-- A Hutch with a task at the end of its head list, or of the tail list of its priority. -/
def Hutch.add (h : Hutch) (head : Bool) (t : Task) : Hutch :=
  if head then { h with head := h.head ++ [t] }
  else
    match t.prio with
    | 0 => { h with t0 := h.t0 ++ [t] }
    | 1 => { h with t1 := h.t1 ++ [t] }
    | 2 => { h with t2 := h.t2 ++ [t] }
    | _ => { h with t3 := h.t3 ++ [t] }

/-- Whether a Hutch has room for a task of a job: 1,024 entries and the job's spill region (R324). -/
def State.hutchRoom (s : State) (cl asid : Nat) : Bool :=
  decide ((s.hutch cl).tasks.length < 1024 + ((s.jobOf asid).map (·.spec.hutchSpill)).getD 0)

/-- Identifier of the next task of a Hutch (R322). -/
def Hutch.nextTid (h : Hutch) : Nat := h.ser % 2 ^ 32 + h.cl % 32 * 2 ^ 32 + h.cl / 32 % 4 * 2 ^ 37

/-- A task as a thread that carries what came before its start (R286). -/
def taskThread (tid : Nat) : Nat × Nat := (2 ^ 25, tid)

/-- Whether the level a task belongs to has been cancelled. -/
def State.levelCancelled (s : State) (asid lid : Nat) : Bool := ((s.levelOf asid lid).map (·.cancelled)).getD false

/-- A task discarded: stamped, its count released (R325). -/
def State.discard (s : State) (t : Task) : State :=
  (s.stamp t 0 0 0 0 .own true).countDown t.asid t.level

/-- h0 of the cores of a cluster woken: a task has entered their Hutch (R354). -/
def State.wakeCluster (s : State) (cl : Nat) : State :=
  let f (c : Core) : Core := if clusterOf c.id = cl then c.wakeH0 else c
  { s with core := f s.core, others := s.others.map f }

/-- A counted task enters a Hutch (R322, R325); one of a cancelled level is discarded at once. -/
def State.enqueue (s : State) (cl : Nat) (head : Bool) (from_ : Nat × Nat) (t : Task) : State × Nat :=
  let h := s.hutch cl
  let t := { t with tid := h.nextTid, enq := s.time.toNat }
  let s := (s.setHutch { h with ser := h.ser + 1 }).edge from_ (taskThread t.tid)
  if s.levelCancelled t.asid t.level then (s.discard t, t.tid)
  else ((s.setHutch ((s.hutch cl).add head t)).wakeCluster cl, t.tid)

/-! ### Starting a task (R323) -/

/-- A capability of given bounds, permissions and address; it must be exactly representable. -/
def capOf (base len p : Nat) : Cap :=
  let e := ((List.range 51).find? (fun e => len / 2 ^ e ≤ 0x7FFF)).getD 50
  ⟨capBits base p e (base / 2 ^ e % 32768) (len / 2 ^ e), true⟩

/-- c2 at a task's start: the own scratchpad with L, S, LC, SC and A. -/
def Core.scratchCap (c : Core) : Cap :=
  capOf (Config.LW + 0x100000 + 1024 * c.b0) (1024 * (c.b1 - c.b0)) (2 ^ pL + 2 ^ pS + 2 ^ pLC + 2 ^ pSC + 2 ^ pA)

/-- The c registers at a task's start. -/
def Core.startRegs (c : Core) (t : Task) : Vector Cap 32 :=
  (((((((Vector.replicate 32 Cap.null).set 2 c.scratchCap).set 3 (scalar t.a0)).set 4 (scalar t.a1)).set 5
    (scalar t.a2)).set 6 (scalar t.a3)).set 7 (scalar (BitVec.ofNat 64 t.tid)))

/-- h0 of a core as a task starts in it: a handler that PCC cannot represent faults at its fetch (R113, R323), and the stall count
of what h0 issued last still holds (R78). -/
def Core.startTask (c : Core) (t : Task) (r : Running) : Core :=
  let x : Ctx := { c := c.startRegs t, pcc := capMove t.pcc t.hnd, slot := .live,
                   readyAt := max (c.ctxs[(0 : Fin 11)]).readyAt (c.cyc + 1) }
  { c with ctxs := c.ctxs.set 0 x, m := Vector.replicate 8 0, g := Vector.replicate 16 false, mm := false,
           meta_ := none, mfvalid := false, run := some r, steal := { c.steal with srch := 0, fails := 0 } }

/-- A task starts in h0 of the focused core (R323, R325, R404). -/
def State.start (s : State) (t : Task) (how : How) : State :=
  let st := s.core.steal
  let r : Running := { task := t, deq := s.time.toNat, srch := st.srch, fails := st.fails, how := how }
  let s := s.edge (taskThread t.tid) (s.core.id, 0)
  let s := { s with core := s.core.startTask t r }
  s.trace 1 0 t.tid

/-- A task has left its Hutch: a launch whose entry tasks are all dequeued is CLOSED (R329). -/
def State.entryTaken (s : State) (t : Task) : State :=
  if t.entry then
    let s := s.mapLevel t.asid t.launch (fun l =>
      let n := l.entries - 1
      { l with entries := n, st := if n = 0 && l.st = lvOPEN then lvCLOSED else l.st })
    s
  else s

/-- Whether a core is idle (R326). -/
def Core.idle (c : Core) : Bool := c.run.isNone && !c.stopped

/-- Whether a task may run on a core, from its own Hutch or stolen (R322, R326, R327). -/
def Core.mayTake (c : Core) (steal : Bool) (t : Task) : Bool :=
  c.job == some t.asid &&
  (match t.pin with
   | .none => true
   | .cluster cl => !steal && clusterOf c.id == cl
   | .core e => !steal && c.id == e)

/-- A task taken from a Hutch by the focused core (R328). -/
def State.take (s : State) (cl : Nat) (t : Task) (how : How) : State :=
  let s := s.setHutch ((s.hutch cl).keep (· != t))
  (s.entryTaken t).start t how

/-! ### Ending a task (R331) -/

/-- Whether everything the task began has completed (R331, step 2): remote replies and jobs. DESIGN CHOICE (log 38): the answer to
a GCSTAT too, which step 2 does not list, since R426 has its register hold the answer after EXIT whatever the timing. -/
def Core.settled (c : Core) : Bool :=
  c.ops.all (fun r => !r.counts) && c.jobs.all (fun j => j.status != stPENDING) && c.mq.isEmpty &&
    c.ctxs[(0 : Fin 11)].pend.all (fun p => p.val.isSome || 2 ^ 20 ≤ p.op)

/-- The threads of a core's task: its contexts, their remote operations, and its jobs (R277, R331). -/
def Core.taskThreads (c : Core) : List (Nat × Nat) :=
  (List.range 11).flatMap (fun h => [(c.id, h), answersThread c.id h]) ++ c.jobs.map (fun j => j.thread c.id)

/-- All that the focused core's task has done happens before what follows its end (R286, R331, R399). -/
def State.taskBefore (s : State) (to_ : Nat × Nat) : State := s.core.taskThreads.foldl (fun s t => s.edge t to_) s

/-- The live helpers of a core asked to stop. -/
def Core.stopHelpers (c : Core) : Core :=
  { c with ctxs := c.ctxs.map (fun x => if x.slot == .live then { x with stopReq := true } else x) }

/-- Whether a helper of the core still runs. -/
def Core.helpersLive (c : Core) : Bool := (List.finRange 11).any (fun h => h ≠ 0 && c.ctxs[h].slot == .live)

/-- The focused core after its task has ended: idle, with its job records freed and its helper slots FREE. -/
def Core.endTask (c : Core) (now : Nat) : Core :=
  let done_ (x : Ctx) : Ctx :=
    { x with loop := { x.loop with lact := false }, nfail := 0, fst := 0, fpkg := 0, wait := .none, blocked := false,
             stopReq := false, fix := [], pend := [] }
  { c with
    ctxs := (c.ctxs.map (fun x => { done_ x with slot := .free, ahead := false })).set 0 (done_ c.ctxs[(0 : Fin 11)])
    jobs := [], mm := false, meta_ := none, run := none, idleSince := now,
    steal := { c.steal with left := 0, srch := 0, fails := 0 } }

/-- The level that a drain's wake-up counts on. -/
def MatJob.level (j : MatJob) : Nat := if j.launch = 0 then jobLid else j.launch

/-- Whether a drain holds the count of a wake-up task of this package whose message is not out (R329, R421). -/
def State.wakeCounted (s : State) (j : MatJob) : Bool :=
  j.kind == .drain && j.wake && !j.waking && eidPkg j.target == s.pkgNo

/-- The matrix jobs of the focused core abandoned (R210). A drain that has not been captured sends no wake-up message any more, so
the count that its MDRAIN took is released. -/
def State.abandonMatrix (s : State) : State :=
  let levels := (s.core.mq.filter (fun j => !j.captured && s.wakeCounted j)).map MatJob.level
  levels.foldl (fun s l => s.countDown s.asid l) { s with core := s.core.abandonMatrix }

/-- The running task of the focused core ends (R331, steps 3 to 5): stamped, and its count released. -/
def State.endTask (s : State) : State :=
  match s.core.run with
  | none => s
  | some r =>
    let s := s.trace 2 0 r.task.tid
    let s := s.stamp r.task r.deq r.srch r.fails (s.core.id % 256) r.how false
    let s := s.taskBefore (levelThread r.task.asid r.task.level)
    let s := { s with core := s.core.endTask s.time.toNat }
    s.countDown r.task.asid r.task.level

end Sys2Proof.Machine
end

