-- ==== Sys2Proof/Machine/Num.lean ====
section
/-! DEFINITION. Numbers (R44 to R71): formats, exact values, one rounding into any format, and the exact operations
that the vector unit, the grid, the atomics and the engines share. -/

namespace Sys2Proof.Machine

/-! ### Types (R44, R45, R84, R136) -/

/-- Register width of a type code in bits; 0 where R136 gives none. -/
def tyWidth (t : Nat) : Nat :=
  if t = 16 || t = 22 then 4
  else if t = 0 || t = 1 || (12 ≤ t && t ≤ 15) || t = 17 then 8
  else if t = 2 || t = 3 || t = 8 || t = 9 then 16
  else if t = 4 || t = 5 || t = 10 then 32
  else if t = 6 || t = 7 || t = 11 then 64
  else 0

/-- Integer types of vector arithmetic, INT8 to UINT64 (R139). -/
def tyInt (t : Nat) : Bool := t ≤ 7
/-- Integers with INT4 (R45). -/
def tyIntAll (t : Nat) : Bool := t ≤ 7 || t == 22
/-- Signed integers. -/
def tySigned (t : Nat) : Bool := (t ≤ 7 && t % 2 == 0) || t == 22
/-- FP16, BF16, FP32, FP64 (R139). -/
def tyFloat (t : Nat) : Bool := 8 ≤ t && t ≤ 11
/-- Every floating format of a register (R48). -/
def tyFloatAll (t : Nat) : Bool := 8 ≤ t && t ≤ 16
/-- MX element types (R52). -/
def tyMx (t : Nat) : Bool := 12 ≤ t && t ≤ 16
/-- Bits an element takes in memory (R46). -/
def tyMemBits (t : Nat) : Nat := if t = 14 || t = 15 then 6 else tyWidth t

/-- What the all-ones exponent holds (R48). -/
inductive Special where
  | ieee | nanTop | none
deriving DecidableEq, Repr

/-- A floating format: exponent and fraction bits, bias, special encodings (R47, R48). -/
structure Fmt where
  eb   : Nat
  fb   : Nat
  bias : Nat
  sp   : Special
deriving DecidableEq, Repr

def fmtFP64 : Fmt := ⟨11, 52, 1023, .ieee⟩
def fmtFP32 : Fmt := ⟨8, 23, 127, .ieee⟩
def fmtFP16 : Fmt := ⟨5, 10, 15, .ieee⟩
def fmtBF16 : Fmt := ⟨8, 7, 127, .ieee⟩
def fmtE4M3 : Fmt := ⟨4, 3, 7, .nanTop⟩
def fmtE5M2 : Fmt := ⟨5, 2, 15, .ieee⟩
def fmtE3M2 : Fmt := ⟨3, 2, 3, .none⟩
def fmtE2M3 : Fmt := ⟨2, 3, 1, .none⟩
def fmtE2M1 : Fmt := ⟨2, 1, 1, .none⟩
def fmtA36 : Fmt := ⟨10, 25, 511, .ieee⟩
def fmtA72 : Fmt := ⟨13, 58, 4095, .ieee⟩

/-- The format of a floating type code. -/
def fmtOf (t : Nat) : Fmt :=
  match t with
  | 8 => fmtFP16 | 9 => fmtBF16 | 10 => fmtFP32 | 11 => fmtFP64 | 12 => fmtE4M3 | 13 => fmtE5M2
  | 14 => fmtE3M2 | 15 => fmtE2M3 | 16 => fmtE2M1 | 19 => fmtA36 | 21 => fmtA72 | _ => fmtFP32

/-! ### Exact values -/

/-- An exact value: NaN, an infinity, or (−1)^neg · n · 2^e. -/
inductive Val where
  | nan
  | inf (neg : Bool)
  | fin (neg : Bool) (n : Nat) (e : Int)
deriving DecidableEq, Repr, Inhabited

/-- 2 to an integer power of the difference of two exponents, the first not below the second. -/
def up2 (a b : Int) : Nat := 2 ^ (a - b).toNat

/-- Number of bits of a natural number. -/
def bitLen (n : Nat) : Nat := if n = 0 then 0 else Nat.log2 n + 1

/-- Bits of a format's sign place. -/
def Fmt.top (f : Fmt) : Nat := 2 ^ (f.eb + f.fb)

/-- Largest finite encoding without its sign (R48). -/
def Fmt.maxFin (f : Fmt) : Nat :=
  match f.sp with
  | .ieee => (2 ^ f.eb - 1) * 2 ^ f.fb - 1
  | .nanTop => 2 ^ (f.eb + f.fb) - 2
  | .none => 2 ^ (f.eb + f.fb) - 1

/-- Canonical NaN; +0 where the format has none (R49, R65). -/
def Fmt.nan (f : Fmt) : Nat :=
  match f.sp with
  | .ieee => (2 ^ f.eb - 1) * 2 ^ f.fb + 2 ^ (f.fb - 1)
  | .nanTop => 2 ^ (f.eb + f.fb) - 1
  | .none => 0

/-- A float's exact value (R47, R48). -/
def Fmt.decode (f : Fmt) (x : Nat) : Val :=
  let neg := x / f.top % 2 == 1
  let m := x % f.top
  let e := m / 2 ^ f.fb
  let r := m % 2 ^ f.fb
  if f.sp == .ieee && e == 2 ^ f.eb - 1 then (if r = 0 then .inf neg else .nan)
  else if f.sp == .nanTop && m == f.top - 1 then .nan
  else if e = 0 then .fin neg r (1 - (f.bias : Int) - f.fb)
  else .fin neg (2 ^ f.fb + r) ((e : Int) - f.bias - f.fb)

/-- An integer as a value. -/
def valInt (x : Int) : Val := .fin (decide (x < 0)) x.natAbs 0

/-- An element's exact value by its type code (R45, R47, R52). -/
def decodeTy (t raw : Nat) : Val :=
  if tyIntAll t then
    let w := tyWidth t
    valInt (if tySigned t then sextNat w (raw % 2 ^ w) else ((raw % 2 ^ w : Nat) : Int))
  else if t = 17 then (if raw % 256 = 255 then .nan else .fin false 1 ((raw % 256 : Nat) - (127 : Int)))
  else if t = 14 || t = 15 then (fmtOf t).decode (raw % 64)
  else (fmtOf t).decode raw

/-! ### Rounding (R59 to R66) -/

/-- Rounding codes (R59). -/
def rRNE : Nat := 1
def rRTZ : Nat := 2
def rRDN : Nat := 3
def rRUP : Nat := 4
def rRNA : Nat := 5
def rSR : Nat := 6

/-- SR's number for lane n at counter t (R66). -/
def srNumber (seed t n : Nat) : Nat :=
  let m := 2 ^ 64
  let z := (seed + t * 0x9E3779B97F4A7C15 + n * 0xD1B54A32D192ED03) % m
  let z := (z ^^^ (z / 2 ^ 30)) * 0xBF58476D1CE4E5B9 % m
  let z := (z ^^^ (z / 2 ^ 27)) * 0x94D049BB133111EB % m
  z ^^^ (z / 2 ^ 31)

/-- How one instruction rounds: mode, SAT, seed and counter (R60, R62, R66, R67). -/
structure Rnd where
  mode : Nat
  sat  : Bool := false
  seed : Nat := 0
  t    : Nat := 0
deriving DecidableEq, Repr, Inhabited

/-- RNE with overflow to infinity, as the grid and the atomics round (R61, R68, R263). -/
def rndRNE : Rnd := ⟨1, false, 0, 0⟩

/-- Whether the magnitude rounds up: `n` the kept part, `rest` the `d` bits below it, `sticky` more below those. -/
def roundUp (r : Rnd) (lane : Nat) (neg : Bool) (n rest d : Nat) (sticky : Bool) : Bool :=
  if rest = 0 && !sticky then false
  else if r.mode = 1 then
    2 ^ d < 2 * rest || (2 * rest == 2 ^ d && (sticky || n % 2 == 1))
  else if r.mode = 3 then neg
  else if r.mode = 4 then !neg
  else if r.mode = 5 then 2 ^ d ≤ 2 * rest
  else if r.mode = 6 then
    let k := min d 64
    srNumber r.seed r.t lane % 2 ^ k < rest / 2 ^ (d - k)
  else false

/-- A magnitude n·2^e rounded to a whole number of units 2^q (R59, R66). Its bits below q that count for stochastic rounding are
those down to e, which is that of its operands' last places, trailing zeros among them: DESIGN CHOICE (log 49). -/
def roundUnits (r : Rnd) (lane : Nat) (neg : Bool) (n : Nat) (e q : Int) (sticky : Bool) : Nat :=
  if q ≤ e then n * up2 e q
  else
    let d0 := (q - e).toNat
    let far := bitLen n + 66 < d0
    let n' := if far then (if n = 0 then 0 else 1) else n
    let d := if far then 66 else d0
    let k := n' / 2 ^ d
    let rest := n' % 2 ^ d
    if roundUp r lane neg k rest d sticky then k + 1 else k

/-- The result of an overflow (R63). -/
def Fmt.overflow (f : Fmt) (mode : Nat) (sat neg : Bool) : Nat :=
  let big := (if neg then f.top else 0) + f.maxFin
  let infin := match f.sp with
    | .ieee => (if neg then f.top else 0) + (2 ^ f.eb - 1) * 2 ^ f.fb
    | _ => f.nan
  if f.sp == .none || sat || mode = 2 then big
  else if mode = 3 then (if neg then infin else big)
  else if mode = 4 then (if neg then big else infin)
  else infin

/-- A magnitude n·2^e, with more below it when sticky, rounded once into a format (R59, R63, R66). -/
def Fmt.round (f : Fmt) (r : Rnd) (lane : Nat) (neg : Bool) (n : Nat) (e : Int) (sticky : Bool) : Nat :=
  let s := if neg then f.top else 0
  if n = 0 && !sticky then s
  else
    let qmin : Int := 1 - (f.bias : Int) - f.fb
    let q := max (e + (bitLen n : Int) - 1 - f.fb) qmin
    let m := roundUnits r lane neg n e q sticky
    let x := (q - qmin).toNat * 2 ^ f.fb + m
    if f.maxFin < x then f.overflow r.mode r.sat neg else s + x

/-- A value put into a format (R49, R63, R65). -/
def Fmt.encode (f : Fmt) (r : Rnd) (lane : Nat) : Val → Nat
  | .nan => f.nan
  | .inf neg =>
    match f.sp with
    | .ieee => (if neg then f.top else 0) + (2 ^ f.eb - 1) * 2 ^ f.fb
    | _ => f.overflow 1 r.sat neg
  | .fin neg n e => f.round r lane neg n e false

/-- Ends of an integer type. -/
def tyMin (t : Nat) : Int := if tySigned t then -((2 ^ (tyWidth t - 1) : Nat) : Int) else 0
def tyMax (t : Nat) : Int :=
  if tySigned t then ((2 ^ (tyWidth t - 1) : Nat) : Int) - 1 else ((2 ^ tyWidth t : Nat) : Int) - 1

/-- An integer clamped to a type. -/
def clampTy (t : Nat) (x : Int) : Int := if x < tyMin t then tyMin t else if tyMax t < x then tyMax t else x

/-- An exact integer put into an integer type: wrapped, or clamped when SAT is set (R139). -/
def putInt (t : Nat) (sat : Bool) (x : Int) : Nat := utrunc (tyWidth t) (if sat then clampTy t x else x)

/-- floor(log2 of a magnitude). -/
def floorLog2 (n : Nat) (e : Int) : Int := e + (bitLen n : Int) - 1

/-- FP32 to E8M0 (R65). -/
def toE8M0 : Val → Nat
  | .fin _ n e => if n = 0 then 0 else (min 254 (max 0 (floorLog2 n e + 127))).toNat
  | _ => 255

/-- A value converted to a type (R65): `fromInt` says the source is an integer. -/
def encodeTy (t : Nat) (r : Rnd) (lane : Nat) (fromInt : Bool) (v : Val) : Nat :=
  if tyIntAll t then
    let x : Int := match v with
      | .nan => 0
      | .inf neg => if neg then tyMin t else tyMax t
      | .fin neg n e =>
        let k := roundUnits r lane neg n e 0 false
        if neg then -(k : Int) else (k : Int)
    putInt t (!fromInt || r.sat) x
  else if t = 17 then toE8M0 v
  else (fmtOf t).encode r lane v

/-! ### Exact operations -/

/-- The sign of an exact zero sum (R51). -/
def zeroSign (mode : Nat) (x y : Bool) : Bool := if x == y then x else mode == 3

/-- Signed integer n·2^e in units of 2^k. -/
def inUnits (neg : Bool) (n : Nat) (e k : Int) : Int :=
  let m : Int := ((n * up2 e k : Nat) : Int)
  if neg then -m else m

/-- x + y, exact (R51). -/
def vAdd (mode : Nat) (x y : Val) : Val :=
  match x, y with
  | .nan, _ => .nan
  | _, .nan => .nan
  | .inf a, .inf b => if a == b then .inf a else .nan
  | .inf a, .fin .. => .inf a
  | .fin .., .inf b => .inf b
  | .fin a n e, .fin b m g =>
    if n = 0 && m = 0 then .fin (zeroSign mode a b) 0 0
    else if n = 0 then .fin b m g
    else if m = 0 then .fin a n e
    else
      let k := min e g
      let t := inUnits a n e k + inUnits b m g k
      if t = 0 then .fin (zeroSign mode a b) 0 0 else .fin (decide (t < 0)) t.natAbs k

/-- −x; a NaN stays NaN. -/
def vNeg : Val → Val
  | .nan => .nan
  | .inf a => .inf (!a)
  | .fin a n e => .fin (!a) n e

/-- |x|. -/
def vAbs : Val → Val
  | .nan => .nan
  | .inf _ => .inf false
  | .fin _ n e => .fin false n e

/-- x · y, exact (R51). -/
def vMul (x y : Val) : Val :=
  match x, y with
  | .nan, _ => .nan
  | _, .nan => .nan
  | .inf a, .inf b => .inf (a != b)
  | .inf a, .fin b m _ => if m = 0 then .nan else .inf (a != b)
  | .fin a n _, .inf b => if n = 0 then .nan else .inf (a != b)
  | .fin a n e, .fin b m g => .fin (a != b) (n * m) (e + g)

/-- x · 2^k. -/
def vScale (x : Val) (k : Int) : Val :=
  match x with
  | .fin a n e => .fin a n (e + k)
  | v => v

/-- Order of two values that are not NaN; −0 equals +0. -/
def vCmp (x y : Val) : Ordering :=
  let rank : Val → Int
    | .inf true => -2 | .inf false => 2 | .nan => 0
    | .fin a n _ => if n = 0 then 0 else if a then -1 else 1
  match x, y with
  | .fin a n e, .fin b m g => compare (inUnits a n e (min e g)) (inUnits b m g (min e g))
  | _, _ => compare (rank x) (rank y)

/-- x < y and x = y; false of a NaN (R145). -/
def vLt (x y : Val) : Bool := x != .nan && y != .nan && vCmp x y == .lt
def vEq (x y : Val) : Bool := x != .nan && y != .nan && vCmp x y == .eq

/-- Whether a value is a zero. -/
def vZero : Val → Bool
  | .fin _ n _ => n == 0
  | _ => false

/-- Whether a value carries a minus sign. -/
def vSign : Val → Bool
  | .nan => false
  | .inf a => a
  | .fin a _ _ => a

/-- The smaller and the larger; NaN when either is NaN; −0 below +0 (R141). -/
def vMin (x y : Val) : Val :=
  if x == .nan || y == .nan then .nan
  else match vCmp x y with
    | .lt => x
    | .gt => y
    | .eq => if vSign x then x else y
def vMax (x y : Val) : Val :=
  if x == .nan || y == .nan then .nan
  else match vCmp x y with
    | .lt => y
    | .gt => x
    | .eq => if vSign x then y else x

/-- A quotient, square root or power rounded once: a value with at least 140 bits and the mark of what lies below. -/
inductive Wide where
  | val (v : Val)
  | big (neg : Bool) (n : Nat) (e : Int) (sticky : Bool)
deriving DecidableEq, Repr

/-- A wide value put into a format. -/
def Fmt.encodeWide (f : Fmt) (r : Rnd) (lane : Nat) : Wide → Nat
  | .val v => f.encode r lane v
  | .big neg n e st => f.round r lane neg n e st

/-- x ÷ y (R141). Every inexact quotient rounds stochastically with d = 64, one whose expansion ends included: R142 says so of
every correctly rounded result, and VDIV is one (log 49). -/
def vDiv (x y : Val) : Wide :=
  match x, y with
  | .nan, _ => .val .nan
  | _, .nan => .val .nan
  | .inf _, .inf _ => .val .nan
  | .inf a, .fin b _ _ => .val (.inf (a != b))
  | .fin a _ _, .inf b => .val (.fin (a != b) 0 0)
  | .fin a n e, .fin b m g =>
    if m = 0 then (if n = 0 then .val .nan else .val (.inf (a != b)))
    else if n = 0 then .val (.fin (a != b) 0 0)
    else
      let k := 140 + bitLen m
      .big (a != b) (n * 2 ^ k / m) (e - g - k) (n * 2 ^ k % m != 0)

/-- Integer square root, one result bit at a time from bit k − 1 down. -/
def isqrtFrom (n : Nat) : Nat → Nat → Nat
  | 0, r => r
  | k + 1, r =>
    let t := r + 2 ^ k
    isqrtFrom n k (if t * t ≤ n then t else r)

/-- Largest r with r² ≤ n. -/
def isqrt (n : Nat) : Nat := isqrtFrom n (bitLen n / 2 + 1) 0

/-- √x (R142). -/
def vSqrt (x : Val) : Wide :=
  match x with
  | .nan => .val .nan
  | .inf a => if a then .val .nan else .val (.inf false)
  | .fin a n e =>
    if n = 0 then .val (.fin a 0 0)
    else if a then .val .nan
    else
      let n1 := if e % 2 = 0 then n else 2 * n
      let e1 := if e % 2 = 0 then e else e - 1
      let m := n1 * 2 ^ 280
      let s := isqrt m
      .big false s (e1 / 2 - 140) (s * s != m)

/-- Bounds on 2^f in units 2^−p, f the binary fraction 0.b1b2…: the bits still to come, the bounds on the running root
2^(2^−k), and the bounds on the product so far. -/
def exp2Bits (p : Nat) : List Bool → Nat → Nat → Nat → Nat → Nat × Nat
  | [], _, _, lo, hi => (lo, hi)
  | b :: bs, rlo, rhi, lo, hi =>
    let rlo := isqrt (rlo * 2 ^ p)
    let rhi := isqrt (rhi * 2 ^ p) + 1
    if b then exp2Bits p bs rlo rhi (lo * rlo / 2 ^ p) (hi * rhi / 2 ^ p + 1)
    else exp2Bits p bs rlo rhi lo hi

/-- The first w bits after the point of f = n / 2^w. -/
def fracBits (n : Nat) : Nat → List Bool
  | 0 => []
  | w + 1 => n.testBit w :: fracBits n w

/-- floor(2^f · 2^140) for f = n / 2^w in (0, 1), by bounds of growing precision that come to agree. -/
def exp2Floor (n w : Nat) : List Nat → Nat
  | [] => 2 ^ 140
  | p :: ps =>
    let (lo, hi) := exp2Bits p (fracBits n w) (2 * 2 ^ p) (2 * 2 ^ p) (2 ^ p) (2 ^ p)
    if lo / 2 ^ (p - 140) = hi / 2 ^ (p - 140) then lo / 2 ^ (p - 140) else exp2Floor n w ps

/-- 2^i, exact, with the 140 bits by which stochastic rounding discards 64 (R142). -/
def exp2Int (i : Int) : Wide := .big false (2 ^ 140) (i - 140) false

/-- 2^x (R142): exact for an integer x; else irrational, so the floor and a sticky mark decide every rounding. -/
def vExp2 (x : Val) : Wide :=
  match x with
  | .nan => .val .nan
  | .inf a => if a then .val (.fin false 0 0) else .val (.inf false)
  | .fin a n e =>
    if n = 0 then .val (.fin false 1 0)
    else if 0 ≤ e then
      exp2Int (if a then -((n * up2 e 0 : Nat) : Int) else ((n * up2 e 0 : Nat) : Int))
    else
      let w := (-e).toNat
      if n % 2 ^ w = 0 then
        exp2Int (if a then -((n / 2 ^ w : Nat) : Int) else ((n / 2 ^ w : Nat) : Int))
      else if (bitLen n : Int) + e ≤ -142 then
        (if a then .big false (2 ^ 140 - 1) (-140) true else .big false (2 ^ 140) (-140) true)
      else
        let i : Int := if a then -((n / 2 ^ w : Nat) : Int) - 1 else ((n / 2 ^ w : Nat) : Int)
        let f := if a then 2 ^ w - n % 2 ^ w else n % 2 ^ w
        .big false (exp2Floor f w [256, 512, 1024, 4096]) (i - 140) true

/-- The first k bits of log2 of m in [1, 2) with bounds in units 2^−p; none where the bounds do not decide. -/
def log2Bits (p : Nat) : Nat → Nat → Nat → Nat → Option Nat
  | 0, _, _, acc => some acc
  | k + 1, lo, hi, acc =>
    let lo := lo * lo / 2 ^ p
    let hi := hi * hi / 2 ^ p + 1
    if hi < 2 * 2 ^ p then log2Bits p k lo hi (2 * acc)
    else if 2 * 2 ^ p ≤ lo then log2Bits p k (lo / 2) (hi / 2 + 1) (2 * acc + 1)
    else none

/-- floor(2^256 · log2 m) for m = n / 2^w in (1, 2), by bounds of growing precision. -/
def log2Floor (n w : Nat) : List Nat → Nat
  | [] => 0
  | p :: ps =>
    match log2Bits p 256 (n * 2 ^ p / 2 ^ w) (n * 2 ^ p / 2 ^ w + 1) 0 with
    | some b => b
    | none => log2Floor n w ps

/-- log2 x (R142). -/
def vLog2 (x : Val) : Wide :=
  match x with
  | .nan => .val .nan
  | .inf a => if a then .val .nan else .val (.inf false)
  | .fin a n e =>
    if n = 0 then .val (.inf true)
    else if a then .val .nan
    else
      let w := bitLen n - 1
      let i := e + w
      if n = 2 ^ w then .val (valInt i)
      else
        let b := log2Floor n w [700, 1400, 2800, 8192]
        if 0 ≤ i then .big false (i.toNat * 2 ^ 256 + b) (-256) true
        else .big true ((-i).toNat * 2 ^ 256 - b - 1) (-256) true

/-! ### Block formats (R52 to R55) -/

/-- The value of an MX element under its scale byte (R52). -/
def mxVal (t code scale : Nat) : Val :=
  if scale = 255 then .nan else vScale (decodeTy t code) ((scale : Int) - 127)

/-- emax of R53. -/
def mxEmax (t : Nat) : Int := if t = 12 then 8 else if t = 13 then 15 else if t = 14 then 4 else 2

/-- Whether a value is a NaN or an infinity. -/
def vSpecial : Val → Bool
  | .fin .. => false
  | _ => true

/-- Scale byte and element codes of a block formed from 32 values (R53): element i rounds as lane `lane i`. -/
def mxPack (t : Nat) (r : Rnd) (lane : Nat → Nat) (vs : List Val) : Nat × List Nat :=
  if vs.any vSpecial then (255, vs.map (fun _ => 0))
  else
    let amax := vs.foldl (fun m v => vMax m (vAbs v)) (.fin false 0 0)
    match amax with
    | .fin _ n e =>
      if n = 0 then (127, vs.map (fun v => if vSign v then (fmtOf t).top else 0))
      else
        let sc := (min 254 (max 0 (floorLog2 n e - mxEmax t + 127))).toNat
        (sc, vs.zipIdx.map (fun p => (fmtOf t).encode { r with sat := true } (lane p.2) (vScale p.1 (127 - (sc : Int)))))
    | _ => (255, vs.map (fun _ => 0))

/-- Q4N codebook (R55). -/
def q4nK (q : Nat) : Int :=
  match q with
  | 0 => -128 | 1 => -91 | 2 => -69 | 3 => -53 | 4 => -40 | 5 => -28 | 6 => -16 | 7 => -5
  | 8 => 5 | 9 => 16 | 10 => 28 | 11 => 40 | 12 => 53 | 13 => 69 | 14 => 91 | _ => 128

/-- The value of a Q4N element (R55): S's bits, the block's scale and the code. -/
def q4nVal (s sb q : Nat) : Val := vScale (vMul (vMul (fmtFP32.decode s) (valInt sb)) (valInt (q4nK q))) (-15)

/-- |x − K| compared with |x − K'| for an exact value x·2^e: the nearer codebook index, ties to the smaller |K| (R148). -/
def q4nNearest (t : Int) (den : Nat) : Nat :=
  let dist (q : Nat) : Nat := (t - q4nK q * den).natAbs
  (List.range 16).foldl (fun best q =>
    if dist q < dist best || (dist q = dist best && (q4nK q).natAbs < (q4nK best).natAbs) then q else best) 0

/-- The Q4N code of a value under S and a block scale (R148). DESIGN CHOICE (log 49): the sign of a zero is the value's own,
where S is negative too. -/
def q4nCode (s sb : Nat) (v : Val) : Nat :=
  match vMul (fmtFP32.decode s) (valInt sb), v with
  | .fin sn n e, .fin vn m g =>
    if n = 0 then 8
    else if m = 0 then (if vn then 7 else 8)
    else
      -- t = v·2^15 / (S·sb) as a fraction num / den
      let k := g + 15 - e
      let num := m * (if 0 ≤ k then 2 ^ k.toNat else 1)
      let den := n * (if 0 ≤ k then 1 else 2 ^ (-k).toNat)
      let t : Int := if vn != sn then -(num : Int) else (num : Int)
      if 128 * (den : Int) < t then 15
      else if t < -(128 * (den : Int)) then 0
      else q4nNearest t den
  | _, .inf vn =>
    match vMul (fmtFP32.decode s) (valInt sb) with
    | .fin sn n _ => if n = 0 then 8 else if vn != sn then 0 else 15
    | _ => 8
  | _, _ => 8

end Sys2Proof.Machine
end

