-- ==== Sys2Proof/Machine/LoadStore.lean ====
section
/-! DEFINITION. Major 0x0C to 0x10: loads, stores, atomics (R260 to R263), FENCE (R281), CLEAN and INVAL (R264), and
the job waits, SLEEP and YIELD (R354). -/

namespace Sys2Proof.Machine

/-- An operation that a run-ahead helper retires as a no-op (R88, R351). -/
def unlessAhead (body : Op Unit) : Op Unit := do
  if (← get).ctx.ahead then pure () else body

/-! ### Loads and stores -/

/-- A loaded number as LD writes it (R116, R260). -/
def loadExt (n : Nat) (sx : Bool) (x : Nat) : Word :=
  if sx then BitVec.ofInt 64 (sextNat (8 * n) x) else BitVec.ofNat 64 x

/-- LD of `n` bytes (R260); its latency is variable and not observable. -/
def loadX (st : Nat) (d a : Fin 32) (off : Int) (n : Nat) (sx : Bool) (s : State) :
    Host.Outcome State Fault Refusal :=
  issue { st := st, reads := [rdC a] }
    (do
      let s ← get
      let gs ← access (s.rc a) [pL] (s.ea a off n) n n .load
      let bs ← loadSegs gs n
      upd fun s => s.wx d (loadExt n sx (leNat bs))) s

/-- A granule loaded as one access with its tag, as LD.C and a tile header take it (R260, R269): the tag of the copy that
serves it; none in host memory (R253). -/
def State.loadGranule (s : State) (g : Seg) : State × Cap :=
  let t := s
  let (s, old, bs) := s.loadSegOld 16 g
  let tag := match oldAt old g.place with
    | some x => x.tags.contains (g.place / 16)
    | none => tagGet t.tags (g.place / 16)
  (s, ⟨BitVec.ofNat 128 (leNat bs), tag && !g.host⟩)

/-- The granule of an aligned 16-byte access, which is one piece. -/
def loadGranules (gs : List Seg) : Op Cap := do
  match gs with
  | g :: _ =>
    let s ← get
    let (s, v) := s.loadGranule g
    set s
    pure v
  | [] => pure Cap.null

/-- LD.C (R260): tagged when the granule is, LC is held and the page is not H. -/
def loadCap (st : Nat) (d a : Fin 32) (off : Int) (s : State) : Host.Outcome State Fault Refusal :=
  issue { st := st, reads := [rdC a] }
    (do
      let s ← get
      let c := s.rc a
      let gs ← access c [pL] (s.ea a off 16) 16 16 .load
      let v ← loadGranules gs
      upd fun s => s.wc d ⟨v.bits, v.tag && capHas c pLC⟩) s

/-- ST of the low `n` bytes (R261). -/
def storeX (st : Nat) (d a : Fin 32) (off : Int) (n : Nat) (s : State) : Host.Outcome State Fault Refusal :=
  issue { st := st, reads := [rdC d, rdC a] }
    (unlessAhead do
      let s ← get
      let gs ← access (s.rc a) [pS] (s.ea a off n) n n .store
      upd fun t => t.storeSegs n gs (leBytes n (s.rx d).toNat)) s

/-- A stored capability's tag set on its granule (R253). -/
def State.tagSegs (s : State) (gs : List Seg) : State :=
  gs.foldl (fun s g => if g.host then s else { s with tags := tagSet s.tags (g.place / 16) }) s

/-- A tagged store may not reach a host page (R115). -/
def noTagToHost (gs : List Seg) : Op Unit :=
  match gs.find? Seg.host with
  | some g => raise .capPerm g.va
  | none => pure ()

/-- The checked extent of an image of 16 bytes with its tag (R115, R261). DESIGN CHOICE (log 48): where a tagged image meets
both at step 5 of R115, PAGE comes before the CAP_PERM of an H page. -/
def capStoreAccess (c : Cap) (v : Cap) (a : Int) : Op (List Seg) := do
  let ps := if v.tag then [pS, pSC] else [pS]
  capNeed c ps a 16 16
  let gs ← segsOf ((← get).who c) .store (pieces (addr80 a) 16)
  if v.tag then noTagToHost gs
  watchNeed .store (addr80 a) 16
  pure gs

/-- A capability image stored on a checked granule with its tag (R253). -/
def State.storeCapSegs (s : State) (gs : List Seg) (v : Cap) : State :=
  let s := s.storeSegs 16 gs (leBytes 16 v.bits.toNat)
  if v.tag then (s.tagSegs gs).l1Renew (gs.flatMap (fun g => linesOf g.place g.len)) else s

/-- ST.C (R261). -/
def storeCap (st : Nat) (d a : Fin 32) (off : Int) (s : State) : Host.Outcome State Fault Refusal :=
  issue { st := st, reads := [rdC d, rdC a] }
    (unlessAhead do
      let s ← get
      let v := s.rc d
      let gs ← capStoreAccess (s.rc a) v (s.ea a off 16)
      upd fun s => s.storeCapSegs gs v) s

/-- LD.B (R260). -/
def execLdB (st : Fin 8) (d a : Fin 32) (off : Int) (s : State) : Host.Outcome State Fault Refusal :=
  loadX st.val d a off 1 true s
/-- LD.BU (R260). -/
def execLdBu (st : Fin 8) (d a : Fin 32) (off : Int) (s : State) : Host.Outcome State Fault Refusal :=
  loadX st.val d a off 1 false s
/-- LD.H (R260). -/
def execLdH (st : Fin 8) (d a : Fin 32) (off : Int) (s : State) : Host.Outcome State Fault Refusal :=
  loadX st.val d a off 2 true s
/-- LD.HU (R260). -/
def execLdHu (st : Fin 8) (d a : Fin 32) (off : Int) (s : State) : Host.Outcome State Fault Refusal :=
  loadX st.val d a off 2 false s
/-- LD.W (R260). -/
def execLdW (st : Fin 8) (d a : Fin 32) (off : Int) (s : State) : Host.Outcome State Fault Refusal :=
  loadX st.val d a off 4 true s
/-- LD.WU (R260). -/
def execLdWu (st : Fin 8) (d a : Fin 32) (off : Int) (s : State) : Host.Outcome State Fault Refusal :=
  loadX st.val d a off 4 false s
/-- LD.D (R260). -/
def execLdD (st : Fin 8) (d a : Fin 32) (off : Int) (s : State) : Host.Outcome State Fault Refusal :=
  loadX st.val d a off 8 false s
/-- LD.C (R260). -/
def execLdC (st : Fin 8) (d a : Fin 32) (off : Int) (s : State) : Host.Outcome State Fault Refusal :=
  loadCap st.val d a off s
/-- ST.B (R261). -/
def execStB (st : Fin 8) (d a : Fin 32) (off : Int) (s : State) : Host.Outcome State Fault Refusal :=
  storeX st.val d a off 1 s
/-- ST.H (R261). -/
def execStH (st : Fin 8) (d a : Fin 32) (off : Int) (s : State) : Host.Outcome State Fault Refusal :=
  storeX st.val d a off 2 s
/-- ST.W (R261). -/
def execStW (st : Fin 8) (d a : Fin 32) (off : Int) (s : State) : Host.Outcome State Fault Refusal :=
  storeX st.val d a off 4 s
/-- ST.D (R261). -/
def execStD (st : Fin 8) (d a : Fin 32) (off : Int) (s : State) : Host.Outcome State Fault Refusal :=
  storeX st.val d a off 8 s
/-- ST.C (R261). -/
def execStC (st : Fin 8) (d a : Fin 32) (off : Int) (s : State) : Host.Outcome State Fault Refusal :=
  storeCap st.val d a off s

/-- Short LD.D (R89). -/
def execLdDShort (st : Fin 4) (x y : Fin 16) (s : State) : Host.Outcome State Fault Refusal :=
  loadX st.val (r32 x) (r32 y) 0 8 false s
/-- Short ST.D (R89). -/
def execStDShort (st : Fin 4) (x y : Fin 16) (s : State) : Host.Outcome State Fault Refusal :=
  storeX st.val (r32 x) (r32 y) 0 8 s
/-- Short LD.W (R89). -/
def execLdWShort (st : Fin 4) (x y : Fin 16) (s : State) : Host.Outcome State Fault Refusal :=
  loadX st.val (r32 x) (r32 y) 0 4 true s
/-- Short ST.W (R89). -/
def execStWShort (st : Fin 4) (x y : Fin 16) (s : State) : Host.Outcome State Fault Refusal :=
  storeX st.val (r32 x) (r32 y) 0 4 s
/-- Short LD.D from the stack (R89). -/
def execLdDC2Short (st : Fin 4) (x y : Fin 16) (s : State) : Host.Outcome State Fault Refusal :=
  loadX st.val (r32 x) 2 y.val 8 false s
/-- Short ST.D to the stack (R89). -/
def execStDC2Short (st : Fin 4) (x y : Fin 16) (s : State) : Host.Outcome State Fault Refusal :=
  storeX st.val (r32 x) 2 y.val 8 s
/-- Short LD.C from the stack (R89). -/
def execLdCC2Short (st : Fin 4) (x y : Fin 16) (s : State) : Host.Outcome State Fault Refusal :=
  loadCap st.val (r32 x) 2 y.val s
/-- Short ST.C to the stack (R89). -/
def execStCC2Short (st : Fin 4) (x y : Fin 16) (s : State) : Host.Outcome State Fault Refusal :=
  storeCap st.val (r32 x) 2 y.val s

/-! ### Atomics -/

/-- An atomic bypasses every cache (R249): the line leaves the core's own L1, its home slice and every proxy slice. -/
def State.bypass (s : State) (g : Seg) : State :=
  let ls := linesOf g.place g.len
  let s : State := { s with core := { s.core with l1 := s.core.l1.filter (fun x => !ls.contains x.line) } }
  ls.foldl State.l2Drop s

/-- An atomic of `n` bytes performed on its pieces (R249, R262): the old value; none as new value writes nothing. -/
def atomicSegs (n : Nat) (gs : List Seg) (f : Nat → Option Nat) : Op Nat := do
  match gs with
  | [g] =>
    let s ← get
    let (s, bs) := (s.bypass g).readAs s.thread g.va g.place n n
    let old := leNat bs
    set (match f old with
      | some new => s.storeSeg true n g (leBytes n new)
      | none => s)
    pure old
  | _ => pure 0

/-- An atomic of `n` bytes (R262): `f` gives the new value from the old one and the operand. -/
def atomicRmw (st : Nat) (d a b : Fin 32) (n : Nat) (reads : List (RegFile × Nat)) (f : State → Nat → Nat → Option Nat)
    (s : State) : Host.Outcome State Fault Refusal :=
  issue { st := st, reads := [rdC a, rdC b] ++ reads }
    (unlessAhead do
      let s ← get
      let gs ← access (s.rc a) [pL, pS, pA] (capA (s.rc a)) n n .atomic
      let x := (s.rx b).toNat % 2 ^ (8 * n)
      let old ← atomicSegs n gs (fun m => f s m x)
      upd fun s => s.wx d (BitVec.ofNat 64 old)) s

/-- Smaller or larger of two numbers of w bits, signed. -/
def minS (w m x : Nat) : Nat := if sextNat w m < sextNat w x then m else x
def maxS (w m x : Nat) : Nat := if sextNat w m < sextNat w x then x else m

/-- A floating-point sum under R263: to nearest even, no SAT. -/
def addF (f : Fmt) (m x : Nat) : Nat := f.encode rndRNE 0 (vAdd 1 (f.decode m) (f.decode x))

/-- The table of R262 on w-bit values. -/
def atomF (w : Nat) : Nat → Nat → Nat → Option Nat
  | 0, m, x => some ((m + x) % 2 ^ w)
  | 1, m, x => some (m &&& x)
  | 2, m, x => some (m ||| x)
  | 3, m, x => some (m ^^^ x)
  | 4, m, x => some (minS w m x)
  | 5, m, x => some (maxS w m x)
  | 6, m, x => some (min m x)
  | 7, m, x => some (max m x)
  | 8, _, x => some x
  | 10, m, x => some (addF (if w = 64 then fmtFP64 else fmtFP32) m x)
  | _, m, x => some (addF fmtBF16 (m % 65536) (x % 65536) + 65536 * addF fmtBF16 (m / 65536) (x / 65536))

/-- An atomic other than ACAS. -/
def atomicOp (st : Nat) (d a b : Fin 32) (n f : Nat) (s : State) : Host.Outcome State Fault Refusal :=
  atomicRmw st d a b n [] (fun _ m x => atomF (8 * n) f m x) s

/-- ACAS (R262): compares with O[2]; a failing one writes nothing. -/
def atomicCas (st : Nat) (d a b : Fin 32) (n : Nat) (s : State) : Host.Outcome State Fault Refusal :=
  atomicRmw st d a b n [rdO 2]
    (fun s m x => if m = (s.ro 2).toNat % 2 ^ (8 * n) then some x else none) s

/-- AADD.D (R262). -/
def execAaddD (st : Fin 8) (d a b : Fin 32) (s : State) : Host.Outcome State Fault Refusal :=
  atomicOp st.val d a b 8 0 s
/-- AAND.D (R262). -/
def execAandD (st : Fin 8) (d a b : Fin 32) (s : State) : Host.Outcome State Fault Refusal :=
  atomicOp st.val d a b 8 1 s
/-- AOR.D (R262). -/
def execAorD (st : Fin 8) (d a b : Fin 32) (s : State) : Host.Outcome State Fault Refusal :=
  atomicOp st.val d a b 8 2 s
/-- AXOR.D (R262). -/
def execAxorD (st : Fin 8) (d a b : Fin 32) (s : State) : Host.Outcome State Fault Refusal :=
  atomicOp st.val d a b 8 3 s
/-- AMIN.D (R262). -/
def execAminD (st : Fin 8) (d a b : Fin 32) (s : State) : Host.Outcome State Fault Refusal :=
  atomicOp st.val d a b 8 4 s
/-- AMAX.D (R262). -/
def execAmaxD (st : Fin 8) (d a b : Fin 32) (s : State) : Host.Outcome State Fault Refusal :=
  atomicOp st.val d a b 8 5 s
/-- AMINU.D (R262). -/
def execAminuD (st : Fin 8) (d a b : Fin 32) (s : State) : Host.Outcome State Fault Refusal :=
  atomicOp st.val d a b 8 6 s
/-- AMAXU.D (R262). -/
def execAmaxuD (st : Fin 8) (d a b : Fin 32) (s : State) : Host.Outcome State Fault Refusal :=
  atomicOp st.val d a b 8 7 s
/-- ASWAP.D (R262). -/
def execAswapD (st : Fin 8) (d a b : Fin 32) (s : State) : Host.Outcome State Fault Refusal :=
  atomicOp st.val d a b 8 8 s
/-- ACAS.D (R262). -/
def execAcasD (st : Fin 8) (d a b : Fin 32) (s : State) : Host.Outcome State Fault Refusal :=
  atomicCas st.val d a b 8 s
/-- AFADD.D (R263). -/
def execAfaddD (st : Fin 8) (d a b : Fin 32) (s : State) : Host.Outcome State Fault Refusal :=
  atomicOp st.val d a b 8 10 s
/-- AADD.W (R262). -/
def execAaddW (st : Fin 8) (d a b : Fin 32) (s : State) : Host.Outcome State Fault Refusal :=
  atomicOp st.val d a b 4 0 s
/-- AAND.W (R262). -/
def execAandW (st : Fin 8) (d a b : Fin 32) (s : State) : Host.Outcome State Fault Refusal :=
  atomicOp st.val d a b 4 1 s
/-- AOR.W (R262). -/
def execAorW (st : Fin 8) (d a b : Fin 32) (s : State) : Host.Outcome State Fault Refusal :=
  atomicOp st.val d a b 4 2 s
/-- AXOR.W (R262). -/
def execAxorW (st : Fin 8) (d a b : Fin 32) (s : State) : Host.Outcome State Fault Refusal :=
  atomicOp st.val d a b 4 3 s
/-- AMIN.W (R262). -/
def execAminW (st : Fin 8) (d a b : Fin 32) (s : State) : Host.Outcome State Fault Refusal :=
  atomicOp st.val d a b 4 4 s
/-- AMAX.W (R262). -/
def execAmaxW (st : Fin 8) (d a b : Fin 32) (s : State) : Host.Outcome State Fault Refusal :=
  atomicOp st.val d a b 4 5 s
/-- AMINU.W (R262). -/
def execAminuW (st : Fin 8) (d a b : Fin 32) (s : State) : Host.Outcome State Fault Refusal :=
  atomicOp st.val d a b 4 6 s
/-- AMAXU.W (R262). -/
def execAmaxuW (st : Fin 8) (d a b : Fin 32) (s : State) : Host.Outcome State Fault Refusal :=
  atomicOp st.val d a b 4 7 s
/-- ASWAP.W (R262). -/
def execAswapW (st : Fin 8) (d a b : Fin 32) (s : State) : Host.Outcome State Fault Refusal :=
  atomicOp st.val d a b 4 8 s
/-- ACAS.W (R262). -/
def execAcasW (st : Fin 8) (d a b : Fin 32) (s : State) : Host.Outcome State Fault Refusal :=
  atomicCas st.val d a b 4 s
/-- AFADD.W (R263). -/
def execAfaddW (st : Fin 8) (d a b : Fin 32) (s : State) : Host.Outcome State Fault Refusal :=
  atomicOp st.val d a b 4 10 s
/-- AFADDBF (R263): two BF16 sums. -/
def execAfaddbf (st : Fin 8) (d a b : Fin 32) (s : State) : Host.Outcome State Fault Refusal :=
  atomicOp st.val d a b 4 11 s

/-! ### FENCE, FENCER, CLEAN and INVAL -/

/-- Whether a core lies within a scope of R281 seen from another. -/
def inScope (n me e : Nat) : Bool :=
  if n = 0 then false else if n = 1 then clusterOf e == clusterOf me else if n = 2 then dieOf e == dieOf me else true

/-- Whether an L1 in scope still holds a lease on a line that the issuing context wrote after the grant (R281). -/
def State.leaseHeld (s : State) (n : Nat) : Bool :=
  let me := (s.core.id, s.core.cur.val)
  s.allCores.any (fun c => inScope n s.core.id c.id &&
    c.l1.any (fun x => x.wrote.contains me && s.time.toNat < x.until_))

/-- The package a job's remote operation goes to: a remote copy's, a remote gather's or scatter's (R274, R356). -/
def Copy.farPkg (c : Copy) : Option Nat :=
  if c.kind == .cpyx || ((c.kind == .gath || c.kind == .scat) && c.rem) then some (c.peer / 4096 % 4096) else none

/-- The package a pending job of the core has an operation at, where it is another than the core's own (R288). -/
def State.farJob (s : State) (j : JobRec) : Option Nat :=
  let far : Option Nat :=
    if j.cls == clsMatrix then
      ((s.core.mq.find? (fun m => m.ri == j.ri && m.kind == .drain)).map (fun m => m.target / 4096 % 4096))
    else j.cp.bind Copy.farPkg
  far.filter (fun p => p != s.pkg.getD 0)

/-- Whether the issuing context has a remote operation without its reply (R288, R303): a load, store, atomic or grouped store,
or a copy, gather, scatter or drain to another package. -/
def State.remoteOut (s : State) : Bool :=
  s.core.ops.any (fun r => r.ctx == s.core.cur.val && r.counts) ||
  s.core.jobs.any (fun j => j.ctx == s.core.cur.val && j.status == stPENDING && (s.farJob j).isSome)

/-- Wait at a fence unless a condition holds; the cycles are counted as they pass (R403, Fetch.lean). -/
def fenceAwait (b : Bool) : Op Unit := do
  if b then pure () else
    upd fun s => s.setCtx { s.ctx with wait := .fence }
    waitHere

/-- FENCE n (R281): n above 4 raises ILLEGAL. -/
def execFence (st : Fin 8) (n : Nat) (s : State) : Host.Outcome State Fault Refusal :=
  issue { st := st.val, ill := decide (4 < n) }
    (unlessAhead do
      let s ← get
      fenceAwait (!s.leaseHeld n && !(n == 4 && s.remoteOut))
      upd fun s => if n = 4 then s.joinAnswers else s) s

/-- FENCER's result (R303). -/
def fencerWord (x : Ctx) : Word :=
  BitVec.ofNat 64 (min x.nfail 65535 + x.fst % 16 * 2 ^ 16 + x.fpkg % 4096 * 2 ^ 20)

/-- FENCER (R303). -/
def execFencer (st : Fin 8) (d : Fin 32) (s : State) : Host.Outcome State Fault Refusal :=
  issue { st := st.val }
    (unlessAhead do
      let s ← get
      fenceAwait (!s.remoteOut)
      upd fun s => ((s.setCtx { s.ctx with nfail := 0, fst := 0, fpkg := 0 }).wx d (fencerWord s.ctx)).joinAnswers) s

/-- The checked range of CLEAN and INVAL (R264): L or X over the whole of it, with translation, page marks and the rules of the
window (R242, R243); a length of 0 does nothing. -/
def cacheRange (c : Cap) (n : Nat) : Op (List Seg) := do
  if n = 0 then pure []
  else
    need (capValid c) .capTag (capA c)
    need (capHas c pL || capHas c pX) .capPerm (capA c)
    capNeed c [] (capA c) n 1
    segsOf ((← get).who c) .load (pieces (capA c) n)

/-- Dirty copies of a piece's lines in the slices written to HBM; they stay valid (R264). A, H and window places are left
alone. -/
def State.cleanLines (s : State) (g : Seg) : State :=
  let hit (line : Nat) : Bool := g.cached && (linesOf g.place g.len).contains line
  { s with l2 := s.l2.map (fun y => if hit y.line then { y with dirty := false } else y) }

/-- CLEAN (R264): memory holds every performed store, so what a dirty copy writes back changes no byte (log 5). -/
def execClean (st : Fin 8) (a b : Fin 32) (s : State) : Host.Outcome State Fault Refusal :=
  issue { st := st.val, reads := [rdC a, rdC b] }
    (do
      let s ← get
      let gs ← cacheRange (s.rc a) (s.rx b).toNat
      upd fun s => gs.foldl State.cleanLines s) s

/-- The issuing core's L1 and instruction-cache lines of a piece dropped (R264). -/
def State.dropLines (s : State) (g : Seg) : State :=
  let hit (line : Nat) : Bool := g.cached && (linesOf g.place g.len).contains line
  { s with core := { s.core with l1 := s.core.l1.filter (fun x => !hit x.line)
                                 ic := s.core.ic.filter (fun x => !hit x.line) } }

/-- INVAL (R264). -/
def execInval (st : Fin 8) (a b : Fin 32) (s : State) : Host.Outcome State Fault Refusal :=
  issue { st := st.val, reads := [rdC a, rdC b] }
    (do
      let s ← get
      let gs ← cacheRange (s.rc a) (s.rx b).toNat
      upd fun s => gs.foldl State.dropLines s) s

/-! ### Waiting for jobs, for time and for other contexts -/

/-- A final status observed: the join of R285, and the record freed (R352). DESIGN CHOICE (log 13): a GATHST that names the job
afterwards finds no record and gives 0, although R276's worked example reads the mask once WAITJ has reported LINK_FAIL. -/
def State.joinJob (s : State) (j : JobRec) : State :=
  let s := s.edge (j.thread s.core.id) s.thread
  { s with core := s.core.freeJob j.word }

/-- WAITJ (R354). -/
def waitJob (st : Nat) (d a : Fin 32) (s : State) : Host.Outcome State Fault Refusal :=
  issue { st := st, reads := [rdC a] }
    (unlessAhead do
      let s ← get
      match s.core.jobOf (s.rx a) with
      | none => upd fun s => s.wx d (BitVec.ofNat 64 stUNKNOWN)
      | some j =>
        await (j.status != stPENDING)
        upd fun s => (s.joinJob j).wx d j.statusWord) s

/-- WAITJ (R354). -/
def execWaitj (st : Fin 8) (d a : Fin 32) (s : State) : Host.Outcome State Fault Refusal := waitJob st.val d a s
/-- Short WAITJ (R89): d = 0. -/
def execWaitjShort (st : Fin 4) (x : Fin 16) (s : State) : Host.Outcome State Fault Refusal :=
  waitJob st.val 0 (r32 x) s

/-- POLLJ (R354): a job not complete reads PENDING and stays. -/
def execPollj (st : Fin 8) (d a : Fin 32) (s : State) : Host.Outcome State Fault Refusal :=
  issue { st := st.val, reads := [rdC a] }
    (unlessAhead do
      let s ← get
      match s.core.jobOf (s.rx a) with
      | none => upd fun s => s.wx d (BitVec.ofNat 64 stUNKNOWN)
      | some j =>
        if j.status = stPENDING then upd fun s => s.wx d j.statusWord
        else upd fun s => (s.joinJob j).wx d j.statusWord) s

/-- Whether a boundary cause of R220 is pending at a core, inhibited or not: a matrix job that has paused is one. -/
def Core.causePending (c : Core) : Bool :=
  c.mq.any (fun j => j.paused.isSome && !j.told) || !c.pTrig.isEmpty || !c.pWatch.isEmpty || !c.pMixed.isEmpty || c.irq ≠ 0

/-- SLEEP (R354): until TIME reaches the limit, a wake event, a pending boundary cause, or an event of the
implementation's own. -/
def execSleep (st : Fin 8) (a : Fin 32) (s : State) : Host.Outcome State Fault Refusal :=
  issue { st := st.val, reads := [rdC a] }
    (unlessAhead do
      let s ← get
      if (s.rx a).toNat ≤ s.time.toNat then pure ()
      else
        match s.ctx.wait with
        | .sleeping _ woken =>
          if woken || s.core.causePending then pure ()
          else
            set { s with freeN := s.freeN + 1 }
            await (Config.sleepEndsEarly s.freeN)
        | _ =>
          upd fun s => s.setCtx { s.ctx with wait := .sleeping (s.rx a) false }
          waitHere) s

/-- The other contexts that are ready now: those whose turn a YIELD lets pass first (R22, R354). -/
def State.readyOthers (s : State) : List Nat :=
  ((List.finRange 11).filter (fun h =>
    let x := s.core.ctxs[h]
    h ≠ s.core.cur && decide (x.readyAt ≤ s.core.cyc) && (h = 0 || x.slot == .live) && !x.blocked)).map (·.val)

/-- YIELD (R354). -/
def yieldOp (st : Nat) (s : State) : Host.Outcome State Fault Refusal :=
  issue { st := st }
    (unlessAhead do
      let s ← get
      match s.ctx.wait with
      | .yielding owe => await owe.isEmpty
      | _ =>
        let owe := s.readyOthers
        if owe.isEmpty then pure ()
        else
          upd fun s => s.setCtx { s.ctx with wait := .yielding owe }
          waitHere) s

/-- YIELD (R354). -/
def execYield (st : Fin 8) (s : State) : Host.Outcome State Fault Refusal := yieldOp st.val s
/-- Short YIELD (R89). -/
def execYieldShort (st : Fin 4) (s : State) : Host.Outcome State Fault Refusal := yieldOp st.val s

end Sys2Proof.Machine
end

