-- ==== Sys2Proof/Machine/Tasks.lean ====
section
/-! DEFINITION. Major 0x18, codes 0 to 6 and 11, and HSTART, HSTOP, HSTAT and CANCEL: spawning and ending work (R331 to
R341, R349, R350, R229), and the messages and triggers that arrive for it. -/

namespace Sys2Proof.Machine

/-! ### Shared parts -/

/-- Reserved bits of a word above bit n are clear. -/
def hiClear (x : Word) (n : Nat) : Bool := x.toNat / 2 ^ n == 0

/-- ILLEGAL among an instruction's own faults (R90, step 5). -/
def legal (b : Bool) : Op Unit := do if b then pure () else throw (.trap (← get).illegal)

/-- A handler argument (R332): below 64 ILLEGAL, odd ALIGN. -/
def handlerNeed (h : Word) : Op Unit := do
  legal (decide (64 ≤ h.toNat))
  need (h.toNat % 2 = 0) .align h.toNat

/-- The launch the running task belongs to (0 none), its priority, and the level its tasks count in. -/
def State.myLaunch (s : State) : Nat := (s.core.run.map (·.task.launch)).getD 0
def State.myPrio (s : State) : Nat := (s.core.run.map (·.task.prio)).getD 0
def State.myLevel (s : State) : Nat := if s.myLaunch = 0 then jobLid else s.myLaunch

/-- Whether a level has room for n more counts (R397). -/
def State.countRoom (s : State) (asid lid n : Nat) : Bool :=
  ((s.levelOf asid lid).map (fun l => decide (l.cnt + n < 2 ^ 32))).getD true

/-- One task counted on the issuer's level before it is made (R329), or ILLEGAL (R397). -/
def countTask : Op Unit := do
  let s ← get
  match s.countUp s.asid s.myLevel with
  | some s => set s
  | none => legal false

/-- Whether a cluster holds a core of the issuer's gang. -/
def State.gangCluster (s : State) (cl : Nat) : Bool :=
  match s.myJob with
  | some j => j.spec.gang.any (fun e => clusterOf e == cl)
  | none => false

/-! ### TENQ and SEND -/

/-- TENQ (R333). -/
def execTenq (st : Fin 8) (d a b : Fin 32) (s : State) : Host.Outcome State Fault Refusal :=
  issue { st := st.val, reads := [rdC a, rdC b] }
    (unlessAhead do
      let s ← get
      let hnd := s.rx a
      let v := s.rx b
      let cl := if v.getLsbD 5 then clusterOf s.core.id else s.core.id / 1024 * 32 + fld v 0 5
      legal (hiClear v 9 && s.gangCluster cl)
      handlerNeed hnd
      await (s.hutchRoom cl s.asid)
      countTask
      let s ← get
      let t : Task :=
        { hnd := hnd.toNat, a0 := s.ro 2, a1 := s.ro 3, a2 := s.ro 4, a3 := s.ro 5
          pcc := capMove s.ctx.pcc hnd.toNat, prio := fld v 6 2, pin := if v.getLsbD 8 then .cluster cl else .none
          launch := s.myLaunch, asid := s.asid }
      let (s, tid) := s.enqueue cl false s.thread t
      set (s.wx d (BitVec.ofNat 64 tid))) s

/-- A message job waits at issue while 64 of the core are in flight (R334). -/
def awaitMessage : Op Unit := do await (decide ((← get).core.inFlight clsMsg < 64))

/-- An AM sent as a message job, its identifier in C[d] (R334, R341). -/
def messageJob (d : Fin 32) (p : Packet) : Op Unit := do
  let s ← get
  let (s, j) := s.openJob clsMsg id
  let (s, _) := s.sendOp p (fun r => { r with job := some (clsMsg, j.ri) })
  set (s.wx d j.word)

/-- SEND (R334). -/
def execSend (st : Fin 8) (d a b : Fin 32) (s : State) : Host.Outcome State Fault Refusal :=
  issue { st := st.val, reads := [rdC a, rdC b] }
    (unlessAhead do
      let s ← get
      let hnd := s.rx a
      let v := s.rx b
      let e := fld v 0 24
      legal (hiClear v 25 && isCore (eidLocal e))
      handlerNeed hnd
      awaitMessage
      let here := eidPkg e == s.pkgNo
      if here then countTask
      let s ← get
      messageJob d
        { deid := e, handler := hnd.toNat, arg0 := s.ro 2, arg1 := s.ro 3, arg2 := s.ro 4, arg3 := s.ro 5
          pcc := capMove s.ctx.pcc hnd.toNat, launch := if here then s.myLaunch else 0
          pin := b2n (v.getLsbD 24) }) s

/-- Whether a core of this package takes packets of a job (R335). -/
def State.coreTakes (s : State) (e asid : Nat) : Bool := isCore e && (s.coreOf e).job == some asid

/-- The PCC that a wake-up message brings in its 17 bytes of data, as a remote load's answer brings a capability (R421, log 14);
none where it has no data. -/
def wakePcc (p : Packet) : Option Cap :=
  if p.data.length = 17 then some ⟨BitVec.ofNat 128 (leNat (p.data.take 16)), (p.data.getD 16 0).getLsbD 0⟩ else none

/-- The task an AM with a user handler makes (R334, R421). -/
def State.messageTask (s : State) (p : Packet) : Task :=
  let e := eidLocal p.deid
  let here := eidPkg p.seid == s.pkgNo
  let code := ((s.jobOf p.asid).map (·.spec.code)).getD Cap.null
  { hnd := p.handler, a0 := p.arg0, a1 := p.arg1, a2 := p.arg2, a3 := p.arg3
    pcc := if here then p.pcc else capMove ((wakePcc p).getD code) p.handler, prio := 3
    pin := if p.pin = 1 then .core e else if p.pin = 0 then .cluster (clusterOf e) else .none
    launch := if here then p.launch else 0, asid := p.asid }

/-- Whether the gang of a job is being drained for a switch: what cannot be placed is spilled (R232). -/
def State.spilling (s : State) (asid : Nat) : Bool :=
  match s.jobOf asid with
  | some j => j.gang == .dispatchStop || j.gang == .drain || j.gang == .save
  | none => false

/-- A message that cannot be placed: it waits at its network interface, or is spilled (R232, R324). -/
def State.cannotPlace (s : State) (p : Packet) : State :=
  if s.spilling p.asid then s.spill p else s.hold p

/-- An AM with a user handler performed at its cluster (R297, R334, R335). One from another package whose count would pass
2^32 − 1 is refused: no instruction of this package creates it. DESIGN CHOICE (log 15). -/
def State.takeMessage (s : State) (p : Packet) : State :=
  let e := eidLocal p.deid
  if p.handler < 64 || !s.coreTakes e p.asid then s.replyTo p rsREFUSED
  else if !s.hutchRoom (clusterOf e) p.asid then s.cannotPlace p
  else
    let t := s.messageTask p
    let here := eidPkg p.seid == s.pkgNo
    match (if here then some s else s.countUp p.asid jobLid) with
    | some s => ((s.enqueue (clusterOf e) true p.thread t).1).replyTo p rsDONE
    | none => s.replyTo p rsREFUSED

/-! ### EXIT -/

/-- The waits of R331's second step, the loop and the helpers ended first. -/
def awaitEnd : Op Unit := do
  upd fun s => s.setCtx { s.ctx with loop := { s.ctx.loop with lact := false } }
  upd fun s => { s with core := s.core.stopHelpers }
  let s ← get
  await (s.core.settled && !s.core.helpersLive)

/-- What follows EXIT (R331, R350, R351). -/
def State.exitAfter (s : State) : State :=
  let s := s.settleAll
  if s.helper then s.setCtx (s.ctx.endHelper 0 0 0) else s.endTask

/-- EXIT of either form (R331). -/
def exitTask (st : Nat) (s : State) : Host.Outcome State Fault Refusal :=
  issueThen { st := st } (do if (← get).helper then pure () else awaitEnd) State.exitAfter s

/-- EXIT (R331). -/
def execExit (st : Fin 8) (s : State) : Host.Outcome State Fault Refusal := exitTask st.val s
/-- Short EXIT (R89). -/
def execExitShort (st : Fin 4) (s : State) : Host.Outcome State Fault Refusal := exitTask st.val s

/-! ### RFORK and JOIN -/

/-- Idle cores of the issuer's launch in rank order, the issuer excluded (R336). -/
def State.idleCores (s : State) : List Nat :=
  match (s.levelOf s.asid s.myLaunch).bind (·.spec) with
  | some sp => (s.launchCores s.asid sp).filter (fun e =>
      e != s.core.id && (s.coreOf e).idle && (s.coreOf e).job == s.core.job)
  | none => []

/-- A cell of a cluster's join table as a job's (R321). -/
def State.joinCell (s : State) (asid cl i : Nat) : Join :=
  (s.joins.find? (fun j => j.asid == asid && j.cl == cl && j.idx == i)).getD { cl := cl, idx := i, asid := asid }

def State.setJoin (s : State) (j : Join) : State :=
  { s with joins := j :: s.joins.filter (fun x => !(x.asid == j.asid && x.cl == j.cl && x.idx == j.idx)) }

/-- The lowest free cell of a cluster (R389). -/
def State.freeCell (s : State) (cl : Nat) : Option Nat :=
  (List.range 256).find? (fun i => !s.joins.any (fun j => j.cl == cl && j.idx == i && j.vld))

/-- A cell's identifier (R336). -/
def Join.ident (j : Join) : Word :=
  BitVec.ofNat 64 (j.idx % 256 + j.cl % 32 * 2 ^ 8 + j.cl / 32 % 4 * 2 ^ 13 + j.gen % 2 ^ 32 * 2 ^ 16)

/-- A join cell as a thread that carries what its sub-ranges did (R286). -/
def joinThread (cl i : Nat) : Nat × Nat := (2 ^ 27, cl * 256 + i)

/-- n counts taken on the issuer's level, or ILLEGAL (R397). -/
def countTasks : Nat → Op Unit
  | 0 => pure ()
  | n + 1 => do
    countTask
    countTasks n

/-- A task started at once in h0 of an idle core (R336): it takes its identifier from the issuer's Hutch. -/
def State.recruit (s : State) (e : Nat) (t : Task) : State :=
  let cl := clusterOf s.core.id
  let h := s.hutch cl
  let t := { t with tid := h.nextTid, enq := s.time.toNat }
  let s := (s.setHutch { h with ser := h.ser + 1 }).edge s.thread (taskThread t.tid)
  s.at e (fun s => s.start t .recruited)

/-- The sub-range tasks of an RFORK (R336). -/
def subRanges (count n hnd : Nat) (cell u4 : Word) (base : Task) : List Task :=
  let q := count / n
  let r := count % n
  (List.range n).map (fun i =>
    let lo := i * q + min i r
    let hi := lo + q + (if i < r then 1 else 0)
    { base with hnd := hnd, a0 := BitVec.ofNat 64 lo, a1 := BitVec.ofNat 64 hi, a2 := cell, a3 := u4 })

/-- RFORK (R336). -/
def execRfork (st : Fin 8) (d a b : Fin 32) (s : State) : Host.Outcome State Fault Refusal :=
  issue { st := st.val, ill := s.ro 2 = 0 || decide ((s.ro 3).toNat < 64),
          reads := [rdC a, rdC b] }
    (unlessAhead do
      let s ← get
      let count := (s.rx a).toNat
      let hnd := s.rx b
      handlerNeed hnd
      handlerNeed (s.ro 3)
      let cl := clusterOf s.core.id
      let base : Task := { hnd := 0, prio := s.myPrio, launch := s.myLaunch, asid := s.asid }
      if count = 0 then
        await (s.hutchRoom cl s.asid)
        countTask
        let s ← get
        let t := { base with hnd := (s.ro 3).toNat, a0 := s.ro 4, a1 := s.ro 5, pcc := capMove s.ctx.pcc (s.ro 3).toNat }
        set (((s.enqueue cl false s.thread t).1).wx d 0)
      else
        let idle := s.idleCores
        let grain := (s.ro 2).toNat
        let n := max 1 (min idle.length ((count + grain - 1) / grain))
        match s.freeCell cl with
        | none => waitHere
        | some i =>
          await (!idle.isEmpty || s.hutchRoom cl s.asid)
          legal (s.countRoom s.asid s.myLevel n)
          countTasks n
          let s ← get
          let cell := s.joinCell s.asid cl i
          let cell := { cell with pcc := s.ctx.pcc, cont := (s.ro 3).toNat, u4 := s.ro 4, u5 := s.ro 5,
                                  count := BitVec.ofNat 64 count, rem := n, vld := true, launch := s.myLaunch }
          let s := s.setJoin cell
          let ts := subRanges count n hnd.toNat cell.ident (s.ro 4) { base with pcc := capMove s.ctx.pcc hnd.toNat }
          let s := if idle.isEmpty then ts.foldl (fun s t => (s.enqueue cl false s.thread t).1) s
            else (idle.zip ts).foldl (fun s p => s.recruit p.1 p.2) s
          set (s.wx d cell.ident)) s

/-- The cell an identifier names, while it is in use (R337, R389). -/
def State.cellOf (s : State) (id : Word) : Option Join :=
  let cl := fld id 13 2 * 32 + fld id 8 5
  let j := s.joinCell s.asid cl (fld id 0 8)
  if j.vld && j.ident == id then some j else none

/-- A cell freed: its generation moves on (R389). -/
def Join.freed (j : Join) : Join := { j with vld := false, gen := (j.gen + 1) % 2 ^ 32 }

/-- The level that a cell's continuation counts in. -/
def Join.level (j : Join) : Nat := if j.launch = 0 then jobLid else j.launch

/-- The last sub-range's end: the continuation starts in the same core. No count moves, but where the task that ends counts in
another level than the cell: there one is released, and one is taken (R329, R337). -/
def State.continue_ (s : State) (j : Join) : State :=
  let s := s.setJoin j.freed
  match s.core.run with
  | none => s
  | some r =>
    let s := s.trace 2 0 r.task.tid
    let s := s.stamp r.task r.deq r.srch r.fails (s.core.id % 256) r.how false
    let s := s.taskBefore (levelThread r.task.asid r.task.level)
    let s := { s with core := s.core.endTask s.time.toNat }
    let s := if j.level = r.task.level then s else (s.countUp r.task.asid j.level).getD s
    let h := s.hutch j.cl
    let t : Task :=
      { hnd := j.cont, a0 := j.u4, a1 := j.u5, a2 := j.count, a3 := j.ident, pcc := capMove j.pcc j.cont
        prio := r.task.prio, tid := h.nextTid, launch := j.launch, asid := r.task.asid, enq := s.time.toNat }
    let s := (s.setHutch { h with ser := h.ser + 1 }).edge (joinThread j.cl j.idx) (taskThread t.tid)
    let s := s.start t .continued
    if j.level = r.task.level then s else s.countDown r.task.asid r.task.level

/-- What follows JOIN (R337). -/
def State.joinAfter (id : Word) (s : State) : State :=
  let s := s.settleAll
  match s.cellOf id with
  | none => s
  | some j =>
    let s := s.taskBefore (joinThread j.cl j.idx)
    if j.rem ≤ 1 && !s.levelCancelled s.asid s.myLevel then s.continue_ j
    else
      let s := s.setJoin (if j.rem ≤ 1 then j.freed else { j with rem := j.rem - 1 })
      s.endTask

/-- Whether the end of a sub-range would take a count that its level has no room for (R337, R397). -/
def State.joinOver (s : State) (id : Word) : Bool :=
  match s.cellOf id with
  | some j => decide (j.rem ≤ 1) && j.level != s.myLevel && !s.countRoom s.asid j.level 1
  | none => false

/-- JOIN (R337). -/
def execJoin (st : Fin 8) (a : Fin 32) (s : State) : Host.Outcome State Fault Refusal :=
  let id := s.rx a
  issueThen { st := st.val, ill := s.helper, reads := [rdC a] }
    (do
      let s ← get
      legal (s.cellOf id).isSome
      awaitEnd
      legal (!(← get).joinOver id)) (State.joinAfter id) s

/-! ### Bindings and triggers (R338 to R341) -/

def Core.bindOf (c : Core) (addr : Word) : Option Binding := c.binds.find? (fun b => b.addr == addr)

/-- The lowest free entry of the binding table (R388). -/
def Core.freeBind (c : Core) : Nat := ((List.range 64).find? (fun i => !c.binds.any (fun b => b.idx == i))).getD 64

/-- A binding put in place of the entry for its address, or in the lowest free entry (R388). -/
def Core.putBind (c : Core) (b : Binding) : Core :=
  { c with binds := if (c.bindOf b.addr).isSome then
                      c.binds.map (fun x => if x.addr == b.addr then { b with idx := x.idx } else x)
                    else c.binds ++ [{ b with idx := c.freeBind }] }

/-- A binding entry as the host reads it (R388). -/
def Binding.bytes (b : Binding) : List Byte :=
  leBytes 64 (b.addr.toNat + b.hnd % 2 ^ 64 * 2 ^ 64 + b.pcc.bits.toNat * 2 ^ 128 + b.o2.toNat * 2 ^ 256 + b.o3.toNat * 2 ^ 320 +
    b.launch % 2 ^ 32 * 2 ^ 384 + b.seq % 2 ^ 32 * 2 ^ 416 + b.pend % 256 * 2 ^ 448 + b2n b.bnd * 2 ^ 456 +
    b2n b.pcc.tag * 2 ^ 457 + 2 ^ 458)

/-- The whole binding table as the host reads it (R388). -/
def Core.bindBytes (c : Core) : List Byte :=
  (List.range 64).flatMap (fun i => ((c.binds.find? (fun b => b.idx == i)).map Binding.bytes).getD (List.replicate 64 0))

/-- A core's binding table as the host can read it (R388): while every core of the core's gang is stopped. -/
def State.hostBindings (s : State) (e : Nat) : Option (List Byte) :=
  let gang := (((s.coreOf e).job.bind s.jobOf).map (·.spec.gang)).getD [e]
  if gang.all (fun e => (s.coreOf e).stopped) then some (s.coreOf e).bindBytes else none

/-- Triggers waiting at an address, as a thread (R286). -/
def bindThread (e : Nat) (addr : Word) : Nat × Nat := (2 ^ 28 + e, addr.toNat)

/-- A trigger fires at the focused core's binding (R339): a counted task in the head list, and SEQ moves on. -/
def State.fire (s : State) (addr : Word) (from_ : Nat × Nat) : State :=
  match s.core.bindOf addr with
  | none => s
  | some b =>
    let cl := clusterOf s.core.id
    let t : Task :=
      { hnd := b.hnd, a0 := addr, a1 := BitVec.ofNat 64 b.seq, a2 := b.o2, a3 := b.o3, pcc := capMove b.pcc b.hnd
        prio := 3, pin := .cluster cl, launch := b.launch, asid := s.asid }
    let s := { s with core := s.core.putBind { b with seq := (b.seq + 1) % 2 ^ 32 } }
    let s := (s.countUp s.asid t.level).getD s
    (s.enqueue cl true from_ t).1

/-- Pending triggers fire in arrival order. -/
def State.firePending (s : State) (addr : Word) : Nat → State
  | 0 => s
  | n + 1 => (s.fire addr (bindThread s.core.id addr)).firePending addr n

/-- The level a binding's count stands on. -/
def Binding.level (b : Binding) : Nat := if b.launch = 0 then jobLid else b.launch

/-- TBIND (R339). -/
def execTbind (st : Fin 8) (d a b : Fin 32) (s : State) : Host.Outcome State Fault Refusal :=
  issue { st := st.val, reads := [rdC a, rdC b] }
    (unlessAhead do
      let s ← get
      let addr := s.rx a
      let hnd := s.rx b
      handlerNeed hnd
      let new : Binding := { addr := addr, hnd := hnd.toNat, pcc := s.ctx.pcc, o2 := s.ro 2, o3 := s.ro 3,
                             launch := s.myLaunch, bnd := true }
      match s.core.bindOf addr with
      | none =>
        if 64 ≤ s.core.binds.length then upd fun s => s.wx d 0
        else
          countTask
          upd fun s => ({ s with core := s.core.putBind new } : State).wx d 1
      | some old =>
        legal (s.countRoom s.asid s.myLevel (1 + if old.bnd then 0 else old.pend))
        countTask
        if old.bnd then
          upd fun s =>
            (({ s with core := s.core.putBind { new with seq := old.seq } } : State).countDown s.asid old.level).wx d 2
        else
          upd fun s =>
            (({ s with core := s.core.putBind { new with seq := old.seq } } : State).firePending addr old.pend).wx d 1) s

/-- TUNBIND (R340). -/
def execTunbind (st : Fin 8) (d a : Fin 32) (s : State) : Host.Outcome State Fault Refusal :=
  issue { st := st.val, reads := [rdC a] }
    (unlessAhead do
      let s ← get
      let addr := s.rx a
      match s.core.bindOf addr with
      | none => upd fun s => s.wx d 0
      | some b =>
        upd fun s =>
          let s := { s with core := { s.core with binds := s.core.binds.filter (fun x => x.addr != addr) } }
          let s := if b.bnd then s.countDown s.asid b.level else s
          s.wx d (BitVec.ofNat 64 b.pend)) s

/-- TFIRE (R341). -/
def execTfire (st : Fin 8) (d a b : Fin 32) (s : State) : Host.Outcome State Fault Refusal :=
  issue { st := st.val, reads := [rdC a, rdC b] }
    (unlessAhead do
      let s ← get
      legal (hiClear (s.rx a) 24)
      awaitMessage
      messageJob d { deid := (s.rx a).toNat, handler := 13, arg0 := s.rx b }) s

/-- A trigger at the focused core's binding table (R341): what is answered, and the state. One whose task's count would pass
2^32 − 1 is refused: no instruction creates it. DESIGN CHOICE (log 15). -/
def State.trigger (s : State) (p : Packet) : State × Nat :=
  let addr := p.arg0
  match s.core.bindOf addr with
  | some b =>
    if b.bnd then (if s.countRoom s.asid b.level 1 then (s.fire addr p.thread, rsDONE) else (s, rsREFUSED))
    else if b.pend < 255 then
      (({ s with core := s.core.putBind { b with pend := b.pend + 1 } } : State).edge p.thread
        (bindThread s.core.id addr), rsDONE)
    else ({ s with core := { s.core with pTrig := s.core.pTrig ++ [⟨.trigOver, addr.zeroExtend 80⟩] } }, rsFAULT)
  | none =>
    if s.core.binds.length < 64 then
      (({ s with core := s.core.putBind { addr := addr, pend := 1 } } : State).edge p.thread
        (bindThread s.core.id addr), rsDONE)
    else ({ s with core := { s.core with pTrig := s.core.pTrig ++ [⟨.trigOver, addr.zeroExtend 80⟩] } }, rsFAULT)

/-- A TRIGGER at its core (R335, R341). -/
def State.takeTrigger (s : State) (p : Packet) : State :=
  let e := eidLocal p.deid
  if !s.coreTakes e p.asid then s.replyTo p rsREFUSED
  else if ((s.coreOf e).bindOf p.arg0).any (·.bnd) && !s.hutchRoom (clusterOf e) p.asid then s.cannotPlace p
  else
    let status := ((s.focusOn e).trigger p).2
    (s.at e (fun s => (s.trigger p).1)).replyTo p status

/-- TRIGGER (R341). -/
def execTrigger (p : Packet) (s : State) : Host.Outcome State Fault Refusal := done (s.arrive p (fun s => s.takeTrigger p))

/-! ### Helper slots (R349, R350) -/

/-- Whether a helper slot is available (R21, R349). -/
def Core.slotFree (c : Core) (h : Nat) : Bool :=
  if hh : h < 11 then 1 ≤ h && h + 8 ≤ c.b0 && c.ctxs[h].slot == .free else false

/-- A helper slot's context. -/
def Core.ctxNo (c : Core) (h : Nat) : Ctx := if hh : h < 11 then c.ctxs[h] else {}

/-- Every c register is read. -/
def rdAllC : List (RegFile × Nat) := (List.finRange 32).tail.map rdC

/-- HSTART (R349): the stall count of what the slot's context issued last still holds (R78). -/
def execHstart (st : Fin 8) (d a b : Fin 32) (s : State) : Host.Outcome State Fault Refusal :=
  issue { st := st.val, ill := s.helper, reads := rdAllC }
    (do
      let s ← get
      let hn := fld (s.rx b) 0 4
      legal (hiClear (s.rx b) 5 && decide (hn ≤ 10))
      jumpNeed (s.rc a)
      let pick := if hn = 0 then (List.range 11).find? s.core.slotFree
        else if s.core.slotFree hn then some hn else none
      match pick with
      | none => upd fun s => s.wx d 0
      | some h =>
        let x : Ctx := { c := s.ctx.c.set 0 Cap.null, pcc := s.rc a, slot := .live, ahead := (s.rx b).getLsbD 4,
                         readyAt := max (s.core.ctxNo h).readyAt (s.core.cyc + 1) }
        upd fun s => ({ s with core := s.core.mapCtxNo h (fun _ => x) } : State).wx d (BitVec.ofNat 64 h)) s

/-- The slot number of HSTOP and HSTAT (R350). -/
def slotNeed (x : Word) : Op Nat := do
  legal (hiClear x 4 && 1 ≤ x.toNat && decide (x.toNat ≤ 10))
  pure x.toNat

/-- HSTOP (R350). -/
def execHstop (st : Fin 8) (a : Fin 32) (s : State) : Host.Outcome State Fault Refusal :=
  issue { st := st.val, ill := s.helper, reads := [rdC a] }
    (do
      let h ← slotNeed (s.rx a)
      let s ← get
      if (s.core.ctxNo h).slot == .live then
        upd fun s => { s with core := s.core.mapCtxNo h (fun x => { x with stopReq := true }) }
        waitHere
      else upd fun s => { s with core := s.core.mapCtxNo h (fun x => { x with slot := .free }) }) s

/-- HSTAT's word by selector (R350). -/
def Ctx.stat (x : Ctx) (sel : Nat) : Word :=
  let ended := x.slot == .ended
  match sel with
  | 0 =>
    BitVec.ofNat 64 ((match x.slot with
      | .free => 0
      | .live => 1
      | .ended => 2) + 4 * b2n (x.slot == .live && x.ahead) + 8 * (if ended then x.endCause % 64 else 0))
  | 1 => if ended then x.endTval.truncate 64 else 0
  | 2 => if ended then x.endPc.truncate 64 else 0
  | _ => if ended then BitVec.ofNat 64 (x.endTval.toNat / 2 ^ 64 + x.endPc.toNat / 2 ^ 64 * 65536) else 0

/-- HSTAT (R350): reading an ENDED slot with selector 0 frees it. -/
def execHstat (st : Fin 8) (d a b : Fin 32) (s : State) : Host.Outcome State Fault Refusal :=
  issue { st := st.val, ill := s.helper, reads := [rdC a, rdC b] }
    (do
      let h ← slotNeed (s.rx a)
      legal (hiClear (s.rx b) 2)
      let sel := fld (s.rx b) 0 2
      let x := s.core.ctxNo h
      upd fun s =>
        let s := if sel = 0 && x.slot == .ended then
            { s with core := s.core.mapCtxNo h (fun x => { x with slot := .free }) } else s
        s.wx d (x.stat sel)) s

/-! ### CANCEL (R229) -/

/-- Level identifiers that a level encloses, itself first (R24, R397). -/
def State.enclosed (s : State) (asid lid : Nat) : List Nat :=
  let kids (p : Nat) : List Nat := (s.levels.filter (fun l => l.asid == asid && l.parent == p && l.lid != p)).map (·.lid)
  let one := kids lid
  let two := one.flatMap kids
  let three := two.flatMap kids
  lid :: (one ++ two ++ three)

/-- A live instance of a level (R229, R398). -/
def Level.live (l : Level) : Bool := l.st == lvPENDING || l.st == lvOPEN || l.st == lvCLOSED

/-- Queued tasks that satisfy a test discarded, in every Hutch (R229, R325). -/
def State.discardQueued (s : State) (p : Task → Bool) : State :=
  let dead := s.hutches.flatMap (fun h => h.tasks.filter p)
  let s := { s with hutches := s.hutches.map (fun h => h.keep (fun t => !p t)) }
  dead.foldl State.discard s

/-- A core whose running task satisfies a test is told that it is cancelled. -/
def Core.cancelRun (p : Task → Bool) (c : Core) : Core :=
  { c with run := c.run.map (fun r => if p r.task then { r with cancelled := true } else r) }

/-- Running tasks that satisfy a test end at their next boundary. -/
def State.cancelRunning (s : State) (p : Task → Bool) : State :=
  { s with core := s.core.cancelRun p, others := s.others.map (Core.cancelRun p) }

/-- Graphs of a cancelled phase that have not started are dropped. -/
def State.dropGraphs (s : State) (asid phase : Nat) : State :=
  match s.jobOf asid with
  | none => s
  | some j =>
    let gone : List GraphSpec := j.pendGraphs.filter (fun g => g.phase == phase)
    (s.mapJob asid (fun j => { j with pendGraphs := j.pendGraphs.filter (fun g => g.phase != phase) })).mapLevel
      asid phase (fun l => { l with cnt := l.cnt - gone.length })

/-- A cancelled level whose counter is zero completes (R229). -/
def State.cancelLevel (s : State) (asid lid : Nat) : State :=
  let s := if lidLevel lid = 3 then s.dropGraphs asid lid else s
  match s.levelOf asid lid with
  | none => s
  | some l =>
    if !l.live || decide (0 < l.cnt) then s
    else if lidLevel lid = 1 then s.launchDone asid lid
    else if lidLevel lid = 2 then s.graphDone asid lid
    else s.closeLevel asid lid

/-- A level marked cancelled while it is live. -/
def Level.cancel (l : Level) : Level := if l.live then { l with cancelled := true } else l

/-- A join cell freed when its launch is cancelled (R389). -/
def Join.cancel (asid : Nat) (set_ : List Nat) (j : Join) : Join :=
  if j.asid == asid && j.vld && decide (0 < j.launch) && set_.contains j.launch then j.freed else j

/-- Everything CANCEL does to a live level (R229, R389): the levels it encloses, then their tasks and join cells. -/
def State.cancelAll (s : State) (asid lid : Nat) : State :=
  let set_ := s.enclosed asid lid
  let inSet (t : Task) : Bool := t.asid == asid && set_.contains t.level
  let s := set_.foldl (fun s l => s.mapLevel asid l Level.cancel) s
  let s := { s with joins := s.joins.map (Join.cancel asid set_) }
  let s := (s.cancelRunning inSet).discardQueued inSet
  set_.reverse.foldl (fun s l => s.cancelLevel asid l) s

/-- CANCEL of a task (R229): whether one of that identifier was live, and the state. -/
def State.cancelTask (s : State) (asid tid : Nat) : State × Bool :=
  let hit (t : Task) : Bool := t.asid == asid && t.tid == tid
  let queued := s.hutches.any (fun h => h.tasks.any hit)
  let running := s.allCores.any (fun c => c.run.any (fun r => hit r.task))
  ((s.cancelRunning hit).discardQueued hit, queued || running)

/-- CANCEL of a level (R229, R396). -/
def State.cancel (s : State) (asid lvl : Nat) (id : Word) : State × Bool :=
  if lvl = 0 then s.cancelTask asid id.toNat
  else
    match s.levelOf asid id.toNat with
    | some l => if lidLevel l.lid = lvl && l.live then (s.cancelAll asid l.lid, true) else (s, false)
    | none => (s, false)

/-- CANCEL (R229). -/
def execCancel (st : Fin 8) (d a b : Fin 32) (s : State) : Host.Outcome State Fault Refusal :=
  issue { st := st.val, reads := [rdC a, rdC b] }
    (do
      let s ← get
      let lvl := fld (s.rx a) 0 3
      legal (decide (lvl ≤ 4))
      need (lvl ≠ 4 || s.pccY) .capPerm 4
      let (s', live) := s.cancel s.asid lvl (s.rx b)
      set (s'.wx d (if live then 0 else 1))) s

/-- A cancelled task's copy jobs abandoned (R229). -/
def Core.abandonCopies (c : Core) : Core :=
  { c with
    jobs := c.jobs.map (fun j =>
      if j.status = stPENDING && j.cls = clsCopy then { j with status := stCANCELLED } else j)
    ctxs := c.ctxs.map (fun x => { x with pend := x.pend.filter (fun p => p.op < 2 ^ 20) }) }

/-- A cancelled task at its boundary: its jobs are abandoned, and it ends as by EXIT once what it waits for is done (R210, R229). -/
def State.endCancelled (s : State) : State :=
  let s := s.abandonMatrix
  let s := { s with core := s.core.abandonCopies.stopHelpers }
  let s := s.setCtx { s.ctx with wait := .none, loop := { s.ctx.loop with lact := false } }
  if s.core.settled && !s.core.helpersLive then s.settleAll.endTask else s.block

/-! ### Dispatch and steals (R326 to R328) -/

/-- Whether another idle core of the cluster stands before this one for a task (R326). -/
def State.servedBefore (s : State) (t : Task) : Bool :=
  let me := s.core
  s.others.any (fun c =>
    clusterOf c.id == clusterOf me.id && c.idle && c.mayTake false t &&
    (c.idleSince < me.idleSince || (c.idleSince = me.idleSince && c.id < me.id)))

/-- Whether tasks of the core's job may be dispatched (R232): its gang runs. -/
def State.dispatching (s : State) : Bool :=
  match s.myJob with
  | some j => j.gang == .run
  | none => false

/-- A core takes the next task of its own Hutch, if it is idle and next in order. -/
def State.dispatch (s : State) : State :=
  if s.core.idle && s.dispatching then
    let cl := clusterOf s.core.id
    match (s.hutch cl).tasks.find? (s.core.mayTake false) with
    | some t => if s.servedBefore t then s else s.take cl t .own
    | none => s
  else s

/-- A step at a core of the package; where the number is no core's there is none, and nothing happens. -/
def atCore (e : Nat) (s : State) (f : State → State) : Host.Outcome State Fault Refusal :=
  if e < 4096 && isCore e then .next (s.at e f) else .next s

/-- TASK_DISPATCH (R326). -/
def execTaskDispatch (e : Nat) (s : State) : Host.Outcome State Fault Refusal := atCore e s State.dispatch

/-- Clusters of the core's die that its gang holds, in ring order from a cluster on. -/
def State.ring (s : State) (from_ : Nat) : List Nat :=
  let die := s.core.id / 1024
  ((List.range 32).map (fun i => die * 32 + (from_ + i) % 32)).filter s.gangCluster

/-- STEAL_ROUND (R327): an idle core whose own Hutch holds nothing for it starts a round of up to four attempts. -/
def execStealRound (e : Nat) (s : State) : Host.Outcome State Fault Refusal :=
  atCore e s (fun s =>
    let st := s.core.steal
    if s.core.idle && s.dispatching && st.left = 0 && st.roundAt ≤ s.time.toNat &&
        !(s.hutch (clusterOf s.core.id)).tasks.any (s.core.mayTake false) then
      { s with core := { s.core with steal := { st with left := 4, issued := s.time.toNat } } }
    else s)

/-- The next victim of a core, and where its round goes on (R327). -/
def State.victim (s : State) : Option Nat :=
  (s.ring s.core.steal.next).find? (fun cl => cl != clusterOf s.core.id)

/-- STEAL_ATTEMPT (R327, R328): one attempt answered by its victim. -/
def execStealAttempt (e : Nat) (s : State) : Host.Outcome State Fault Refusal :=
  atCore e s (fun s =>
    let st := s.core.steal
    if !(s.core.idle && s.dispatching) || st.left = 0 then s
    else
      match s.victim with
      | none => { s with core := { s.core with steal := { st with left := 0, roundAt := s.time.toNat + 1000 } } }
      | some cl =>
        let st := { st with next := (cl + 1) % 32 }
        match (s.hutch cl).tasks.find? (s.core.mayTake true) with
        | some t =>
          let s := s.count 7
          ({ s with core := { s.core with steal := { st with left := 0 } } } : State).take cl t .stolen
        | none =>
          let s := s.count 8
          let left := st.left - 1
          { s with core := { s.core with steal :=
              { st with left := left, issued := s.time.toNat,
                        roundAt := if left = 0 then s.time.toNat + 1000 else st.roundAt,
                        srch := st.srch + (s.time.toNat - st.issued), fails := st.fails + 1 } } })

/-! ### Launches and phases (R329, R330, R384) -/

/-- Whether a partition descriptor is well-formed (R384). -/
def pdOk (pd : BitVec 256) : Bool :=
  pd.toNat / 2 ^ 96 % 16 ≤ 3 && pd.toNat / 2 ^ 64 % 2 ^ 32 ≠ 0

/-- The six descriptors of a launch, their reserved bits zero (R5, R384). -/
def launchDescs (sp : LaunchSpec) : List (BitVec 256) :=
  (List.range 6).map (fun i => ((sp.pds[i]?).getD 0) &&& BitVec.ofNat 256 (2 ^ 208 - 2 ^ 128 + 2 ^ 100 - 1))

/-- A participating core's shape record (R384). -/
def shapeBytes (sp : LaunchSpec) (cores : List Nat) (e : Nat) : List Byte :=
  let cls := rankSort sp.clusters
  let user := (List.range 4).map (fun i => ((sp.user[i]?).getD 0).toNat)
  leBytes 8 (sp.lid % 2 ^ 32 + cores.idxOf e % 65536 * 2 ^ 32 + cores.length % 65536 * 2 ^ 48) ++
  leBytes 24 (cls.idxOf (clusterOf e) % 256 + sp.ncl % 256 * 256) ++
  user.flatMap (leBytes 8) ++ ((launchDescs sp).map BitVec.toNat).flatMap (leBytes 32)

/-- Whether a launch may open (R384). -/
def State.launchOk (s : State) (asid : Nat) (sp : LaunchSpec) : Bool :=
  (launchDescs sp).all pdOk && (s.launchCores asid sp).all (fun e => (s.coreOf e).b0 * 1024 + 256 ≤ (s.coreOf e).b1 * 1024)

/-- A launch opens (R329, R386): shape records, then one entry task in each cluster. -/
def State.openLaunch (s : State) (asid : Nat) (sp : LaunchSpec) : State :=
  let cores := s.launchCores asid sp
  let s := cores.foldl (fun s e =>
    s.write (poolPlace e (1024 * (s.coreOf e).b0)) (shapeBytes sp cores e) (s.dieMgr e)) s
  let s := s.mapLevel asid sp.lid (fun l =>
    { l with st := lvOPEN, cnt := sp.clusters.length, entries := sp.clusters.length, topen := s.time.toNat })
  let code := ((s.jobOf asid).map (·.spec.code)).getD Cap.null
  sp.clusters.foldl (fun s cl =>
    let t : Task := { hnd := sp.entry, pcc := capMove code sp.entry, prio := sp.prio, launch := sp.lid, asid := asid,
                      entry := true }
    (s.enqueue cl false (levelThread asid sp.lid) t).1) s

/-- LAUNCH_OPEN (R329, R384): a PENDING launch with no dependence left. -/
def execLaunchOpen (asid lid : Nat) (s : State) : Host.Outcome State Fault Refusal :=
  match s.levelOf asid lid with
  | none => done s
  | some l =>
    match l.spec with
    | none => done s
    | some sp =>
      if l.st = lvPENDING && l.dep = 0 && !l.cancelled && !l.refused then
        (if s.launchOk asid sp then done (s.openLaunch asid sp)
         else done ((s.mapLevel asid lid (fun l => { l with refused := true })).tellHost (.launchRefused asid lid)))
      else done s

/-- Whether every core of a job's gang is idle with an empty Hutch (R330). -/
def State.gangIdle (s : State) (asid : Nat) : Bool :=
  match s.jobOf asid with
  | some j => j.spec.gang.all (fun e =>
      (s.coreOf e).idle && (s.hutch (clusterOf e)).tasks.all (fun t => t.asid != asid))
  | none => false

/-- Whether the last graph of a phase has been started and completed. -/
def State.lastGraphDone (s : State) (asid ph : Nat) : Bool :=
  s.levels.any (fun l => l.asid == asid && lidLevel l.lid == 2 && l.parent == ph && l.last &&
    (l.st == lvCOMPLETE || l.st == lvCANCELLED))

/-- PHASE_BARRIER (R330): passed once the phase's last graph is complete and the gang is idle. -/
def execPhaseBarrier (asid ph : Nat) (s : State) : Host.Outcome State Fault Refusal :=
  match s.levelOf asid ph with
  | none => done s
  | some l =>
    if lidLevel ph = 3 && l.st = lvOPEN && l.cnt = 0 && s.lastGraphDone asid ph && s.gangIdle asid then
      done (s.closeLevel asid ph)
    else done s

end Sys2Proof.Machine
end

