-- ==== Sys2Proof/Machine/Remote.lean ====
section
/-! DEFINITION. Remote loads, stores, atomics and grouped stores: their issue (R301, R302) and their execution at the
destination package (R297, R302), with the writes of copies and the elements of gathers that arrive there. -/

namespace Sys2Proof.Machine

/-! ### Issue (R301, R302) -/

/-- The remote descriptor's fields (R301). -/
def rdPkg (w : Word) : Nat := fld w 0 12
def rdSz (w : Word) : Nat := fld w 12 3
def rdOp (w : Word) : Nat := fld w 15 5
def rdGrp (w : Word) : Nat := fld w 20 16

/-- Whether a descriptor's fields are those an instruction may hold (R301). -/
def rdOk (w : Word) (sz : Nat → Bool) (op grp : Bool) : Bool :=
  hiClear w 36 && sz (rdSz w) && (op || rdOp w == 0) && (grp || rdGrp w == 0)

/-- Checks 2 to 4 of R302. -/
def remoteNeed (c : Cap) (ps : List Nat) (n : Nat) : Op Unit := do
  capNeed c ps (capA c) n n
  need (capA c / 2 ^ 64 ≠ 0xFFFF) .page (capA c)

/-- The packet of a remote operation (R297): for the package, wherever the address lives there. -/
def remotePkt (handler pkg : Nat) (c : Cap) (arg1 : Nat) : Packet :=
  { deid := pkg * 4096, handler := handler, arg0 := BitVec.ofNat 64 (capA c)
    arg1 := BitVec.ofNat 64 (capA c / 2 ^ 64 + arg1) }

/-- A register that waits for an operation (R79, R81). -/
def State.awaitReg (s : State) (d : Fin 32) (tag : Nat) : State :=
  if d = 0 then s
  else
    let x := s.ctx.drop .c d
    s.setCtx { x with pend := x.pend ++ [{ file := .c, idx := d, op := tag }] }

/-- RLD (R302). -/
def execRld (st : Fin 8) (d a b : Fin 32) (s : State) : Host.Outcome State Fault Refusal :=
  issue { st := st.val, reads := [rdC a, rdC b] }
    (unlessAhead do
      let s ← get
      let c := s.rc a
      let w := s.rx b
      legal (rdOk w (· ≤ 4) false false)
      remoteNeed c [pL, pM] (2 ^ rdSz w)
      let (s, tag) := s.sendOp (remotePkt 0 (rdPkg w) c (rdSz w * 65536))
        (fun r => { r with counts := true, keepTag := capHas c pLC })
      set (s.awaitReg d tag)) s

/-- Data words and tag of a remote store of a register (R297). -/
def storeArgs (p : Packet) (sz : Nat) (v : Cap) : Packet :=
  let x := v.bits.toNat % 2 ^ (8 * 2 ^ sz)
  let tag := if sz = 4 && v.tag then 2 ^ 20 else 0
  { p with arg1 := p.arg1 + BitVec.ofNat 64 tag, arg2 := BitVec.ofNat 64 x, arg3 := BitVec.ofNat 64 (x / 2 ^ 64) }

/-- RST (R302). -/
def execRst (st : Fin 8) (d a b : Fin 32) (s : State) : Host.Outcome State Fault Refusal :=
  issue { st := st.val, reads := [rdC d, rdC a, rdC b] }
    (unlessAhead do
      let s ← get
      let c := s.rc a
      let v := s.rc d
      let w := s.rx b
      legal (rdOk w (· ≤ 4) false false)
      remoteNeed c ([pS, pM] ++ if rdSz w = 4 && v.tag then [pSC] else []) (2 ^ rdSz w)
      let (s, _) := s.sendOp (storeArgs (remotePkt 1 (rdPkg w) c (rdSz w * 65536)) (rdSz w) v)
        (fun r => { r with counts := true })
      set s) s

/-- RAMO (R302). -/
def execRamo (st : Fin 8) (d a b : Fin 32) (s : State) : Host.Outcome State Fault Refusal :=
  issue { st := st.val, reads := [rdC d, rdC a, rdC b, rdO 2] }
    (unlessAhead do
      let s ← get
      let c := s.rc a
      let w := s.rx b
      legal (rdOk w (fun z => z == 2 || z == 3) true false && rdOp w ≤ 11 && (rdOp w ≠ 11 || rdSz w = 2))
      remoteNeed c [pL, pS, pA, pM] (2 ^ rdSz w)
      let p := remotePkt 2 (rdPkg w) c (rdSz w * 65536 + rdOp w * 2 ^ 19)
      let (s, tag) := s.sendOp { p with arg2 := s.rx d, arg3 := s.ro 2 } (fun r => { r with counts := true })
      set (s.awaitReg d tag)) s

/-! ### At the destination package -/

/-- A packet's address and size (R297). -/
def pktVa (p : Packet) : Nat := p.arg0.toNat + fld p.arg1 0 16 * 2 ^ 64
def pktSz (p : Packet) : Nat := 2 ^ fld p.arg1 16 3

/-- A remote access translated by the destination package's tables for the packet's ASID (R302): the place and what the
walk leaves, or the status it ends in. -/
def State.remotePlace (s : State) (asid va n : Nat) (k : Acc) : Except Nat (State × Nat) :=
  match s.jobOf asid with
  | none => .error rsREFUSED
  | some j =>
    if va / 2 ^ 64 = 0xFFFF || va % 65536 + n > 65536 then .error rsFAULT
    else
      match walkLeaf s j.spec.root va with
      | none => .error rsFAULT
      | some l =>
        let place := ptePA l.pte + va % 2 ^ levelShift l.level
        if !leafAllows l k false then .error rsFAULT
        else if !s.stackUp (Fin.ofNat 8 (stackOf place)) then .error rsREFUSED
        else if k != .store && s.badIn place n then .error rsUE
        else .ok ((s.pteSet l 0x80).1, place)

/-- AC set on the leaf of an address whose access fails (R258). -/
def State.touchLeaf (s : State) (asid va : Nat) : State :=
  match (s.jobOf asid).bind (fun j => walkLeaf s j.spec.root va) with
  | some l => (s.pteSet l 0x80).1
  | none => s

/-- D set on the leaf of an address that is written (R258). -/
def State.dirtyLeaf (s : State) (asid va : Nat) : State :=
  match (s.jobOf asid).bind (fun j => walkLeaf s j.spec.root va) with
  | some l => (s.pteSet l 0x100).1
  | none => s

/-- Whether an address space's page may be cached (R247, R250). -/
def State.vaCached (s : State) (asid va : Nat) : Bool :=
  ((s.jobOf asid).bind (fun j => walkLeaf s j.spec.root va)).any leafCached

/-- A remote access that cannot be made answered by its status; one to a line that is held waits at its network interface
(R302, R310). -/
def State.remoteDo (s : State) (p : Packet) (va n : Nat) (k : Acc) (f : State → Nat → State) : State :=
  match s.remotePlace p.asid va n k with
  | .error e => (s.touchLeaf p.asid va).replyTo p e
  | .ok (s, place) => if s.held place n then s.hold p else f s place

/-- Data of the reply to an RLOAD: the bytes, and for a capability its tag after them (log 14). -/
def loadReply (s : State) (place n : Nat) (bs : List Byte) : List Byte :=
  if n = 16 then bs ++ [if tagGet s.tags (place / 16) then 1 else 0] else bs

/-- RLOAD (R302). -/
def execRload (p : Packet) (s : State) : Host.Outcome State Fault Refusal :=
  done (s.arrive p (fun s =>
    let n := pktSz p
    s.remoteDo p (pktVa p) n .load (fun s place =>
      let (s, bs) := (s.l2Fetch (s.vaCached p.asid (pktVa p)) place n).readAs p.memThread (pktVa p) place n n
      s.replyTo p rsDONE (loadReply s place n bs))))

/-- Bytes of a store packet. -/
def storeBytes (p : Packet) : List Byte := leBytes (pktSz p) (p.arg2.toNat + p.arg3.toNat * 2 ^ 64)

/-- A granule's tag set after a tagged store (R253). -/
def State.tagAt (s : State) (place : Nat) (tag : Bool) : State :=
  if tag then { s with tags := tagSet s.tags (place / 16) } else s

/-- RSTORE (R302). -/
def execRstore (p : Packet) (s : State) : Host.Outcome State Fault Refusal :=
  done (s.arrive p (fun s =>
    let n := pktSz p
    s.remoteDo p (pktVa p) n .store (fun s place =>
      let s := (s.dirtyLeaf p.asid (pktVa p)).writeAs p.memThread p.seid (pktVa p) place n (s.vaCached p.asid (pktVa p)) (storeBytes p)
      (s.tagAt place (n = 16 && p.arg1.getLsbD 20)).replyTo p rsDONE)))

/-- New value of a remote atomic (R262, R301); none where ACAS fails. -/
def ramoF (w op m x cmp : Nat) : Option Nat :=
  if op = 9 then (if m = cmp % 2 ^ w then some x else none) else atomF w op m x

/-- RATOMIC (R302): an ACAS that fails writes nothing (R262); an atomic passes every cache (R249). -/
def execRatomic (p : Packet) (s : State) : Host.Outcome State Fault Refusal :=
  done (s.arrive p (fun s =>
    let n := pktSz p
    s.remoteDo p (pktVa p) n .atomic (fun s place =>
      let (s, bs) := s.readAs p.memThread (pktVa p) place n n
      let s := match ramoF (8 * n) (fld p.arg1 19 5) (leNat bs) (p.arg2.toNat % 2 ^ (8 * n)) p.arg3.toNat with
        | some new =>
          (s.dirtyLeaf p.asid (pktVa p)).writeAs p.memThread p.seid (pktVa p) place n false (leBytes n new)
        | none => (linesOf place n).foldl State.l2Drop s
      s.replyTo p rsDONE bs)))

/-- Pages of a remote extent, each translated before anything is written. -/
def State.remotePlaces (s : State) (asid : Nat) (k : Acc) : List (Nat × Nat) → Except Nat (State × List (Nat × Nat))
  | [] => .ok (s, [])
  | (va, n) :: ps =>
    match s.remotePlace asid va n k with
    | .error e => .error e
    | .ok (s, place) =>
      match s.remotePlaces asid k ps with
      | .error e => .error e
      | .ok (s, rest) => .ok (s, (place, n) :: rest)

/-- Bytes written over some pieces by a packet, in aligned 4-byte words. -/
def State.writePieces (s : State) (p : Packet) (va : Nat) : List (Nat × Nat) → List Byte → State
  | [], _ => s
  | (place, n) :: ps, bs =>
    ((s.dirtyLeaf p.asid va).writeAs p.thread p.seid va place 4 (s.vaCached p.asid va) (bs.take n)).writePieces p (va + n) ps
      (bs.drop n)

/-- How many of a packet's bytes the present step writes: its single accesses of 4 bytes need not follow one another at once (R279,
log 3). -/
def State.cutLen (s : State) (p : Packet) : Nat :=
  match s.split with
  | none => p.data.length
  | some k => min p.data.length (4 * k)

/-- What is left of a packet once its first n bytes are written. -/
def laterPart (p : Packet) (n : Nat) : Packet :=
  { p with data := p.data.drop n, arg0 := p.arg0 + BitVec.ofNat 64 n
           arg1 := if 2 ^ 64 ≤ p.arg0.toNat + n then p.arg1 + 1 else p.arg1 }

/-- A packet of writes of which n bytes are written: answered once all are, and until then the rest waits at its network
interface. -/
def State.partDone (s : State) (p : Packet) (n : Nat) : State :=
  if n < p.data.length then s.hold (laterPart p n) else s.replyTo p rsDONE

/-- MWRITE (R356): the whole extent is translated before anything is written. -/
def execMwrite (p : Packet) (s : State) : Host.Outcome State Fault Refusal :=
  done (s.arrive p (fun s =>
    match s.remotePlaces p.asid .store (pieces (pktVa p) p.data.length) with
    | .error e => ((pieces (pktVa p) p.data.length).foldl (fun s q => s.touchLeaf p.asid q.1) s).replyTo p e
    | .ok (s, gs) =>
      if gs.any (fun g => s.held g.1 g.2) then s.hold p
      else
        let n := s.cutLen p
        (if n = p.data.length then s.writePieces p (pktVa p) gs p.data
         else
           match s.remotePlaces p.asid .store (pieces (pktVa p) n) with
           | .ok (s, gs) => s.writePieces p (pktVa p) gs (p.data.take n)
           | .error _ => s).partDone p n))

/-! ### Elements of gathers and scatters (R275)

A request names its elements by their 16-bit indices in its data, behind them a scatter's element values; ARG0 and ARG1 are
the base and the element size as in RLOAD, ARG1 [31:24] the number of elements. Its reply gives each element's status, and a
gather's value behind it (log 14). -/

/-- Number of elements of a request, and the index of one. -/
def pktCount (p : Packet) : Nat := fld p.arg1 24 8
def pktIdx (p : Packet) (i : Nat) : Nat := leNat ((p.data.drop (2 * i)).take 2)

/-- Address of an element of a request. -/
def pktElem (p : Packet) (i : Nat) : Nat := pktVa p + pktIdx p i * pktSz p

/-- Whether an element of a request lies in a line that is held. -/
def State.elemHeld (s : State) (p : Packet) (k : Acc) (i : Nat) : Bool :=
  match s.remotePlace p.asid (pktElem p i) (pktSz p) k with
  | .ok (s, place) => s.held place (pktSz p)
  | .error _ => false

/-- One element read: its status, and its value where it was. -/
def State.gathElem (s : State) (p : Packet) (i : Nat) : State × List Byte :=
  let n := pktSz p
  match s.remotePlace p.asid (pktElem p i) n .load with
  | .error e => (s.touchLeaf p.asid (pktElem p i), BitVec.ofNat 8 e :: List.replicate n 0)
  | .ok (s, place) =>
    let (s, bs) := (s.l2Fetch (s.vaCached p.asid (pktElem p i)) place n).readAs p.thread (pktElem p i) place n n
    (s, BitVec.ofNat 8 rsDONE :: bs)

/-- One element written: its status. -/
def State.scatElem (s : State) (p : Packet) (i : Nat) : State × List Byte :=
  let n := pktSz p
  match s.remotePlace p.asid (pktElem p i) n .store with
  | .error e => (s.touchLeaf p.asid (pktElem p i), [BitVec.ofNat 8 e])
  | .ok (s, place) =>
    let v := ((p.data.drop (2 * pktCount p + n * i)).take n)
    ((s.dirtyLeaf p.asid (pktElem p i)).writeAs p.thread p.seid (pktElem p i) place n (s.vaCached p.asid (pktElem p i)) v,
      [BitVec.ofNat 8 rsDONE])

/-- The elements of a request in ascending order, and the reply. -/
def State.elemsDo (s : State) (p : Packet) (k : Acc) (f : State → Nat → State × List Byte) : State :=
  let is := List.range (pktCount p)
  if (s.jobOf p.asid).isNone then s.replyTo p rsREFUSED
  else if is.any (s.elemHeld p k) then s.hold p
  else
    let (s, bs) := is.foldl (fun (x : State × List Byte) i =>
      let (s, b) := f x.1 i
      (s, x.2 ++ b)) (s, [])
    s.replyTo p rsDONE bs

/-- RGATH (R275). -/
def execRgath (p : Packet) (s : State) : Host.Outcome State Fault Refusal :=
  done (s.arrive p (fun s => s.elemsDo p .load (fun s i => s.gathElem p i)))

/-- RSCAT (R275). -/
def execRscat (p : Packet) (s : State) : Host.Outcome State Fault Refusal :=
  done (s.arrive p (fun s => s.elemsDo p .store (fun s i => s.scatElem p i)))

end Sys2Proof.Machine
end

