-- ==== Sys2Proof/Machine/Commit.lean ====
section
/-! DEFINITION. Group commit: GST, GCOMMIT, GABORT, GCSTAT and GWAIT (R304, R306, R307, R313), the participant agents
(R305, R309, R310) and the commit agent (R308, R311, R312). -/

namespace Sys2Proof.Machine

/-! ### Records -/

/-- Numbers of STATE in the group status word (R313). -/
def CommitSt.code : CommitSt → Nat
  | .open_ => 1 | .preparing => 2 | .publishing => 3 | .published => 4 | .discarding => 5 | .discarded => 6

/-- Reasons of WHY (R313). -/
def whyGABORT : Nat := 1
def whyFULL : Nat := 2
def whyMISMATCH : Nat := 3
def whyTIMEOUT : Nat := 4
def whyDELIVERY : Nat := 5
def whyTOOWIDE : Nat := 6
def whyJOBEND : Nat := 7

def State.commitOf (s : State) (src grp : Nat) : Option Commit :=
  s.commits.find? (fun c => c.src == src && c.grp == grp)

def Commit.is (c : Commit) (src grp : Nat) : Bool := c.src == src && c.grp == grp

/-- A record put in place of the one of its group, at the end. -/
def State.putCommit (s : State) (c : Commit) : State :=
  { s with commits := s.commits.filter (fun x => !x.is c.src c.grp) ++ [c] }

/-- A record changed where it stands. -/
def State.mapCommit (s : State) (src grp : Nat) (f : Commit → Commit) : State :=
  { s with commits := s.commits.map (fun c => if c.is src grp then f c else c) }

/-- Whether a record is decided with every acknowledgement. -/
def Commit.decided (c : Commit) : Bool := c.st == .published || c.st == .discarded

/-- The commit agent of a source EID: memory agent 0x100 of its die. -/
def commitAgent (src : Nat) : Nat := src / 1024 * 1024 + 0x100

/-- ARG0 of the commit packets (R297). -/
def groupArg (src grp : Nat) : Word := BitVec.ofNat 64 (src % 2 ^ 24 + grp % 65536 * 2 ^ 24)

/-- The group's stores as a thread (R289, R290). -/
def groupThread (src grp : Nat) : Nat × Nat := (2 ^ 29 + src, grp)

/-- The group status word (R313). DESIGN CHOICE (log 38): where more than 32 agents have answered a group's GSTs (R424), NAG, which
goes to 32, holds 32. -/
def Commit.word (c : Commit) (tlim : Bool) : Word :=
  BitVec.ofNat 64 (c.st.code + c.why % 16 * 16 + min 32 c.parts.length * 256 + c.feid % 2 ^ 24 * 2 ^ 16 +
    b2n tlim * 2 ^ 40 + b2n c.lostp * 2 ^ 41)

/-- A doom recorded: the first reason stays (R304, R307), and so does the first agent that a doom names (R313). -/
def Commit.doom (c : Commit) (why feid : Nat) : Commit :=
  { c with why := if c.why = 0 then why else c.why, feid := if c.feid = 0 then feid else c.feid }

/-! ### GST -/

/-- Whether a GST of a group may issue (R304): a record that is open and not asked, or room for a new one. -/
def State.gstOk (s : State) (src grp : Nat) : Bool :=
  match s.commitOf src grp with
  | some c => if c.st == .open_ then !c.asked else c.decided
  | none =>
    let mine := s.commits.filter (fun c => c.src == src)
    decide (mine.length < 64) || mine.any Commit.decided

/-- The record a GST adds to (R304): the open one, or a new one in place of a decided one. -/
def State.openGroup (s : State) (src grp : Nat) : State :=
  match s.commitOf src grp with
  | some c => if c.st == .open_ then s else s.putCommit { src := src, grp := grp, asid := s.asid, since := s.time.toNat }
  | none =>
    let mine := s.commits.filter (fun c => c.src == src)
    let s := if mine.length < 64 then s
      else
        match mine.find? Commit.decided with
        | some c => { s with commits := s.commits.erase c }
        | none => s
    s.putCommit { src := src, grp := grp, asid := s.asid, since := s.time.toNat }

/-- GST (R302, R304). -/
def execGst (st : Fin 8) (d a b : Fin 32) (s : State) : Host.Outcome State Fault Refusal :=
  issue { st := st.val, reads := [rdC d, rdC a, rdC b] }
    (unlessAhead do
      let s ← get
      let c := s.rc a
      let v := s.rc d
      let w := s.rx b
      legal (rdOk w (· ≤ 4) false true && s.gstOk s.myEid (rdGrp w))
      remoteNeed c ([pS, pM, pG] ++ if rdSz w = 4 && v.tag then [pSC] else []) (2 ^ rdSz w)
      let s := (s.openGroup s.myEid (rdGrp w)).mapCommit s.myEid (rdGrp w) (fun c => { c with wait := c.wait + 1 })
      let p := storeArgs (remotePkt 3 (rdPkg w) c (rdSz w * 65536)) (rdSz w) v
      let p := { p with arg1 := p.arg1 + BitVec.ofNat 64 (rdGrp w * 2 ^ 32) }
      let (s, _) := s.sendOp p (fun r => { r with counts := true, group := some (rdGrp w) })
      set (s.edge s.thread (groupThread s.myEid (rdGrp w)))) s

/-! ### Participant agents (R305, R309, R310) -/

def SbGroup.is (g : SbGroup) (stk src grp : Nat) : Bool := g.stack == stk && g.src == src && g.grp == grp

def State.groupOf (s : State) (stk src grp : Nat) : Option SbGroup := s.groups.find? (fun g => g.is stk src grp)

def State.mapGroup (s : State) (stk src grp : Nat) (f : SbGroup → SbGroup) : State :=
  { s with groups := s.groups.map (fun g => if g.is stk src grp then f g else g) }

def State.dropGroup (s : State) (stk src grp : Nat) : State :=
  { s with groups := s.groups.filter (fun g => !g.is stk src grp) }

/-- Data of a GST's reply (R424): the agent's EID, and FULL in bit 24. -/
def stagedReply (agent : Nat) (full : Bool) : List Byte := leBytes 4 (agent % 2 ^ 24 + b2n full * 2 ^ 24)

/-- Whether a Sideboard takes one more entry of a group (R305). -/
def State.sbRoom (s : State) (stk src grp : Nat) : Bool :=
  let here := s.groups.filter (fun g => g.stack == stk)
  decide ((here.map (fun g => g.es.length)).sum < 131072) &&
    (match s.groupOf stk src grp with
     | some g => g.st == .staging
     | none => decide (here.length < 1024))

/-- An entry staged (R304, R309). -/
def State.stage (s : State) (stk src grp : Nat) (e : SbEntry) : State :=
  match s.groupOf stk src grp with
  | some _ => s.mapGroup stk src grp (fun g => { g with es := g.es ++ [e], since := s.time.toNat })
  | none =>
    let now := s.time.toNat
    { s with groups := s.groups ++ [{ stack := stk, src := src, grp := grp, es := [e], since := now, entered := now }] }

/-- A GSTAGE that finds no room restarts the second of a group that stages, as each one does (R309). -/
def State.restage (s : State) (stk src grp : Nat) : State :=
  s.mapGroup stk src grp (fun g => if g.st == .staging then { g with since := s.time.toNat } else g)

/-- GSTAGE (R304, R305). -/
def execGstage (p : Packet) (s : State) : Host.Outcome State Fault Refusal :=
  done (s.arrive p (fun s =>
    match s.remotePlace p.asid (pktVa p) (pktSz p) .store with
    | .error e => (s.touchLeaf p.asid (pktVa p)).replyTo p e
    | .ok (s, place) =>
      let stk := stackOf place
      let grp := fld p.arg1 32 16
      let agent := s.eid (stackAgent stk)
      if s.sbRoom stk p.seid grp then
        let e : SbEntry := { place := place, size := pktSz p, data := BitVec.ofNat 128 (leNat (storeBytes p))
                             tag := pktSz p = 16 && p.arg1.getLsbD 20, va := pktVa p, asid := p.asid }
        (s.stage stk p.seid grp e).replyTo p rsDONE (stagedReply agent false)
      else (s.restage stk p.seid grp).replyTo p rsDONE (stagedReply agent true)))

/-- Stack of the agent a commit packet is for, and the group it names. -/
def pktStack (p : Packet) : Nat := (agentStack (eidLocal p.deid)).val
def pktSrc (p : Packet) : Nat := fld p.arg0 0 24
def pktGrp (p : Packet) : Nat := fld p.arg0 24 16

/-- Data of the answer to PREPARE (log 14): 0 READY, 1 FAIL with reason MISMATCH. -/
def prepareReply (ready : Bool) : List Byte := [if ready then 0 else 1]

/-- PREPARE (R309). -/
def execPrepare (p : Packet) (s : State) : Host.Outcome State Fault Refusal :=
  done (s.arrive p (fun s =>
    let stk := pktStack p
    match s.groupOf stk (pktSrc p) (pktGrp p) with
    | none => s.replyTo p rsDONE (prepareReply false)
    | some g =>
      if g.st == .prepared then s.replyTo p rsDONE (prepareReply true)
      else if g.es.length = p.arg1.toNat then
        (s.mapGroup stk (pktSrc p) (pktGrp p) (fun g =>
          { g with st := .prepared, since := s.time.toNat, entered := s.time.toNat, wait := 200000 })).replyTo p rsDONE (prepareReply true)
      else (s.dropGroup stk (pktSrc p) (pktGrp p)).replyTo p rsDONE (prepareReply false)))

/-- One staged store performed, D set on its page (R258, R310). -/
def State.publishEntry (s : State) (src grp : Nat) (e : SbEntry) : State :=
  let bs := leBytes e.size e.data.toNat
  ((s.dirtyLeaf e.asid e.va).writeAs (groupThread src grp) src e.va e.place e.size (s.vaCached e.asid e.va) bs).tagAt e.place e.tag

/-- Every participant of a group in this package has its PUBLISH: all entries are performed at one point, and each is
acknowledged (R289, R310). A participant has prepared; an agent that still stages under the group's number, after an
undelivered reply of an earlier group, is none (R312). -/
def State.publishHere (s : State) (src grp : Nat) : State :=
  let mine (g : SbGroup) : Bool := g.src == src && g.grp == grp && g.st == .prepared
  let gs := s.groups.filter mine
  if gs.all (·.holding) then
    let s := { s with groups := s.groups.filter (fun g => !mine g) }
    let s := gs.foldl (fun s g => g.es.foldl (fun s e => s.publishEntry src grp e) s) s
    gs.foldl (fun s g =>
      match g.pub with
      | some p => s.replyTo p rsDONE
      | none => s) s
  else s

/-- A participant told to publish (R309 to R311). -/
def State.publishAt (s : State) (stk src grp : Nat) (p : Option Packet) : State :=
  (s.mapGroup stk src grp (fun g => { g with holding := true, pub := p.orElse (fun _ => g.pub) })).publishHere src grp

/-- PUBLISH (R309, R310). -/
def execPublish (p : Packet) (s : State) : Host.Outcome State Fault Refusal :=
  done (s.arrive p (fun s =>
    match s.groupOf (pktStack p) (pktSrc p) (pktGrp p) with
    | none => s.replyTo p rsDONE
    | some g =>
      if g.st == .staging then s.replyTo p rsDONE
      else s.publishAt (pktStack p) (pktSrc p) (pktGrp p) (some p)))

/-- DISCARD (R309). -/
def execDiscard (p : Packet) (s : State) : Host.Outcome State Fault Refusal :=
  done (s.arrive p (fun s => (s.dropGroup (pktStack p) (pktSrc p) (pktGrp p)).replyTo p rsDONE))

/-- STAGING_TIMEOUT (R309): 1 s since the last GSTAGE. -/
def execStagingTimeout (stk src grp : Nat) (s : State) : Host.Outcome State Fault Refusal :=
  match s.groupOf stk src grp with
  | none => done s
  | some g =>
    done (if s.unitUp (stackAgent stk) && g.st == .staging && g.since + 1000000000 ≤ s.time.toNat then
        s.dropGroup stk src grp else s)

/-- A QUERY sent by a participant about a prepared group (R311). -/
def State.askCommit (s : State) (stk src grp : Nat) : State :=
  s.unitOp { deid := commitAgent src, seid := s.eid (stackAgent stk), handler := 7, arg0 := groupArg src grp }

/-- Whether a participant's QUERY about a group has no answer yet. -/
def State.asking (s : State) (stk src grp : Nat) : Bool :=
  s.uops.any (fun r => r.pkt.handler == 7 && r.pkt.seid == s.eid (stackAgent stk) && r.pkt.arg0 == groupArg src grp)

/-- IN_DOUBT_TIMER (R311). -/
def execInDoubtTimer (stk src grp : Nat) (s : State) : Host.Outcome State Fault Refusal :=
  match s.groupOf stk src grp with
  | none => done s
  | some g =>
    done (if s.unitUp (stackAgent stk) && g.st == .prepared && !g.holding && g.since + g.wait ≤ s.time.toNat &&
        !s.asking stk src grp then s.askCommit stk src grp else s)

/-! ### The commit agent (R308, R311, R312) -/

/-- Queries held for a group answered with its record (R297). -/
def State.answerHeld (s : State) (src grp : Nat) (w : Word) : State :=
  let mine (p : Packet) : Bool := pktSrc p == src && pktGrp p == grp
  let ps := s.heldQ.filter mine
  ps.foldl (fun s p => s.replyTo p rsDONE (leBytes 8 w.toNat)) { s with heldQ := s.heldQ.filter (fun p => !mine p) }

/-- A job of a core completed wherever the core's state is: on the core, or saved with its job (R232, R306). -/
def State.completeFor (s : State) (asid e cls ri : Nat) (f : JobRec → JobRec) : State :=
  let go (k : Core) : Core := k.completeJob cls ri f
  if (s.coreOf e).job = some asid then s.mapCore e go
  else s.mapJob asid (fun j => { j with saved := j.saved.map (fun k => if k.id = e then go k else k) })

/-- A core's record of a job, on the core or saved. -/
def State.recordFor (s : State) (asid e cls ri : Nat) : Option JobRec :=
  let find (k : Core) : Option JobRec := k.jobs.find? (fun j => j.cls == cls && j.ri == ri)
  if (s.coreOf e).job = some asid then find (s.coreOf e)
  else ((s.jobOf asid).bind (fun j => j.saved.find? (fun k => k.id = e))).bind find

/-- A record decided with every acknowledgement: its job, which has the group's stores among its accesses (R285),
completes, and held queries are answered (R306, R308). -/
def State.commitDone (s : State) (c : Commit) (st : CommitSt) : State :=
  let c := { c with st := st }
  let e := eidLocal c.src
  let s := s.mapCommit c.src c.grp (fun _ => c)
  let s := match c.job with
    | some ri =>
      let s := match s.recordFor c.asid e clsCommit ri with
        | some j => s.edge (groupThread c.src c.grp) (j.thread e)
        | none => s
      s.completeFor c.asid e clsCommit ri (fun j =>
        { j with status := if st = CommitSt.published then stDONE else stCANCELLED })
    | none => s
  s.answerHeld c.src c.grp (c.word false)

/-- The state that follows once every participant has acknowledged (R308); a group discarded while GSTs of it are not answered
waits for their answers too, since each may bring a participant (R424). -/
def State.finishCommit (s : State) (src grp : Nat) : State :=
  match s.commitOf src grp with
  | none => s
  | some c =>
    if !c.parts.all (·.acked) then s
    else if c.st == .publishing then s.commitDone c .published
    else if c.st == .discarding && c.wait = 0 then s.commitDone c .discarded
    else s

/-- One packet of the commit agent to a participant. -/
def State.tellPart (s : State) (src grp handler : Nat) (q : Participant) : State :=
  s.unitOp { deid := q.agent, seid := commitAgent src, handler := handler, arg0 := groupArg src grp, arg1 := BitVec.ofNat 64 q.count }

/-- One packet of the commit agent to each participant that has not acknowledged it. -/
def State.tellParts (s : State) (src grp handler : Nat) : State :=
  match s.commitOf src grp with
  | none => s
  | some c => (c.parts.filter (fun q => !q.acked)).foldl (fun s q => s.tellPart src grp handler q) s

/-- A group goes to DISCARDING (R308). -/
def State.discardGroup (s : State) (src grp : Nat) (f : Commit → Commit) : State :=
  let s := s.mapCommit src grp (fun c => { f c with st := .discarding, parts := c.parts.map (fun q =>
    { q with acked := false }) })
  (s.tellParts src grp 6).finishCommit src grp

/-- A group goes to PUBLISHING: the decision is written before the first PUBLISH leaves (R308). -/
def State.publishGroup (s : State) (src grp : Nat) : State :=
  let s := s.mapCommit src grp (fun c => { c with st := .publishing, parts := c.parts.map (fun q =>
    { q with acked := false }) })
  (s.tellParts src grp 5).finishCommit src grp

/-- Every participant has answered READY. -/
def State.checkReady (s : State) (src grp : Nat) : State :=
  match s.commitOf src grp with
  | some c => if c.st == .preparing && c.parts.all (·.ready) then s.publishGroup src grp else s
  | none => s

/-- COMMIT_HANDOVER (R306 to R308): every GST has its reply, and a GCOMMIT or GABORT has been issued. -/
def execCommitHandover (src grp : Nat) (s : State) : Host.Outcome State Fault Refusal :=
  match s.commitOf src grp with
  | none => done s
  | some c =>
    if !(c.st == .open_ && c.asked && c.wait = 0 && s.unitUp (eidLocal (commitAgent src))) then done s
    else if c.abort || decide (0 < c.why) then
      done (s.discardGroup src grp (fun c => c.doom whyGABORT c.feid))
    else
      let s := s.mapCommit src grp (fun c => { c with st := .preparing, since := s.time.toNat })
      done ((s.tellParts src grp 4).checkReady src grp)

/-- The operation of a unit that a reply answers. -/
def State.unitOpOf (s : State) (p : Packet) : Option RemOp :=
  s.uops.find? (fun r => r.pkt.seid == p.deid && r.tag == p.otag)

def State.dropUnitOp (s : State) (r : RemOp) : State := { s with uops := s.uops.erase r }

/-- READY or FAIL reaches the commit agent (R308, R309); no answer leaves the record to its timer. -/
def State.takeReady (s : State) (r : RemOp) (status : Nat) (data : List Byte) : State :=
  let src := pktSrc r.pkt
  let grp := pktGrp r.pkt
  let s := s.dropUnitOp r
  match s.commitOf src grp with
  | none => s
  | some c =>
    if c.st != .preparing || status ≠ rsDONE then s
    else if data.head? == some 0 then
      (s.mapCommit src grp (fun c => { c with parts := c.parts.map (fun q =>
        if q.agent == r.pkt.deid then { q with ready := true } else q) })).checkReady src grp
    else s.discardGroup src grp (fun c => c.doom whyMISMATCH r.pkt.deid)

/-- An acknowledgement of PUBLISH or DISCARD reaches the commit agent; a failed one is sent again (R308, R312). -/
def State.takeAck (s : State) (r : RemOp) (status : Nat) : State :=
  let src := pktSrc r.pkt
  let grp := pktGrp r.pkt
  let s := s.dropUnitOp r
  match s.commitOf src grp with
  | none => s
  | some c =>
    if !((c.st == .publishing && r.pkt.handler = 5) || (c.st == .discarding && r.pkt.handler = 6)) then s
    else if status ≠ rsDONE then s.unitOp { r.pkt with pseq := 0, otag := 0 }
    else
      (s.mapCommit src grp (fun c => { c with parts := c.parts.map (fun q =>
        if q.agent == r.pkt.deid then { q with acked := true } else q) })).finishCommit src grp

/-- The commit agent's answer to an in-doubt QUERY reaches the participant (R311): by the record's STATE. -/
def State.takeAnswer (s : State) (r : RemOp) (status : Nat) (data : List Byte) : State :=
  let src := pktSrc r.pkt
  let grp := pktGrp r.pkt
  let stk := (agentStack (eidLocal r.pkt.seid)).val
  let s := s.dropUnitOp r
  match s.groupOf stk src grp with
  | none => s
  | some g =>
    if g.st != .prepared then s
    else
      let st := leNat (data.take 1) % 16
      if status = rsDONE && (st = 3 || st = 4) then s.publishAt stk src grp none
      else if status = rsDONE && (st = 5 || st = 6 || st = 0) then s.dropGroup stk src grp
      else s.mapGroup stk src grp (fun g => { g with since := s.time.toNat, wait := min 10000000 (2 * g.wait) })

/-- A unit's operation answered (R296): by what it had sent. -/
def State.unitReply (s : State) (r : RemOp) (status : Nat) (data : List Byte) : State :=
  match r.pkt.handler with
  | 4 => s.takeReady r status data
  | 5 => s.takeAck r status
  | 6 => s.takeAck r status
  | 7 => s.takeAnswer r status data
  | _ => s.dropUnitOp r

/-- A REPLY for a unit that is no core. -/
def unitReplyEvent (p : Packet) (s : State) : Host.Outcome State Fault Refusal :=
  done (s.arrive p (fun s =>
    match s.unitOpOf p with
    | some r => s.unitReply r p.status p.data
    | none => s))

/-- READY (R308). -/
def execReady (p : Packet) (s : State) : Host.Outcome State Fault Refusal := unitReplyEvent p s
/-- DECISION_ACK (R308). -/
def execDecisionAck (p : Packet) (s : State) : Host.Outcome State Fault Refusal := unitReplyEvent p s
/-- QUERY_ANSWER (R311). -/
def execQueryAnswer (p : Packet) (s : State) : Host.Outcome State Fault Refusal := unitReplyEvent p s

/-- PREPARE_TIMEOUT (R308): 2 ms without every READY; FEID is the first agent that has not answered. -/
def execPrepareTimeout (src grp : Nat) (s : State) : Host.Outcome State Fault Refusal :=
  match s.commitOf src grp with
  | none => done s
  | some c =>
    if c.st == .preparing && c.since + 2000000 ≤ s.time.toNat && s.unitUp (eidLocal (commitAgent src)) then
      done (s.discardGroup src grp (fun c =>
        c.doom whyTIMEOUT (((c.parts.find? (fun q => !q.ready)).map (·.agent)).getD 0)))
    else done s

/-- The status word of a group whose record may not exist. -/
def State.groupWord (s : State) (src grp : Nat) : Word := ((s.commitOf src grp).map (·.word false)).getD 0

/-- QUERY (R297, R311, R313): a held one waits until the group is published or discarded. -/
def execQuery (p : Packet) (s : State) : Host.Outcome State Fault Refusal :=
  done (s.arrive p (fun s =>
    let decided := ((s.commitOf (pktSrc p) (pktGrp p)).map Commit.decided).getD false
    if p.arg1.getLsbD 0 && !decided then { s with heldQ := s.heldQ ++ [p] }
    else s.replyTo p rsDONE (leBytes 8 (s.groupWord (pktSrc p) (pktGrp p)).toNat)))

/-! ### Replies of GST -/

/-- An agent that has answered a GST of the group, known to its record (R304, R424): a 33rd too, to which DISCARD is sent. -/
def Commit.addPart (c : Commit) (agent : Nat) : Commit :=
  if c.parts.any (fun q => q.agent == agent) then c
  else { c with parts := c.parts ++ [{ agent := agent }] }

/-- A record after the reply of one GST (R304, R312, R424). -/
def Commit.staged (c : Commit) (status : Nat) (data : List Byte) : Commit :=
  let c := { c with wait := c.wait - 1 }
  if status ≠ rsDONE then c.doom whyDELIVERY 0
  else
    let x := leNat (data.take 4)
    let agent := x % 2 ^ 24
    let wide := !c.parts.any (fun q => q.agent == agent) && decide (32 ≤ c.parts.length)
    let c := c.addPart agent
    if x.testBit 24 then c.doom whyFULL agent
    else if wide then c.doom whyTOOWIDE 0
    else { c with parts := c.parts.map (fun q => if q.agent == agent then { q with count := q.count + 1 } else q) }

/-- A reply's operation at a core done with: dropped, counted in the summary where it counts, its accesses known to those who
observe the reply (R288, R303). -/
def State.closeOp (s : State) (e : Nat) (r : RemOp) (status : Nat) : State :=
  let s := s.mapCore e (fun c =>
    let c := c.dropOp r.tag
    if r.counts then c.mapCtxNo r.ctx (fun x => x.countFail status (eidPkg r.pkt.deid)) else c)
  let s := s.edge r.pkt.memThread (answersThread e r.ctx)
  if r.pkt.handler = 0 || r.pkt.handler = 2 then s.edge r.pkt.memThread (answerThread e r.tag) else s

/-- An agent's answer to a GST of a group that is already being discarded, after its job has ended: it is told too (R308, R424). -/
def State.lateStage (s : State) (c : Commit) (status : Nat) (data : List Byte) : State :=
  let agent := leNat (data.take 4) % 2 ^ 24
  let c := { c with wait := c.wait - 1 }
  if status ≠ rsDONE then (s.mapCommit c.src c.grp (fun _ => c)).finishCommit c.src c.grp
  else
    let c := c.addPart agent
    let c := { c with parts := c.parts.map (fun q => if q.agent == agent then { q with acked := false } else q) }
    (s.mapCommit c.src c.grp (fun _ => c)).tellPart c.src c.grp 6 { agent := agent }

/-- A GST answered. -/
def State.gstDone (s : State) (e : Nat) (r : RemOp) (status : Nat) (data : List Byte) : State :=
  let s := s.closeOp e r status
  match r.group.bind (s.commitOf (s.eid e)) with
  | some c =>
    if c.st == .open_ then s.mapCommit c.src c.grp (fun c => c.staged status data)
    else if c.st == .discarding && decide (0 < c.wait) then s.lateStage c status data
    else s
  | none => s

/-- GST_REPLY (R304, R424). -/
def execGstReply (p : Packet) (s : State) : Host.Outcome State Fault Refusal :=
  done (s.arrive p (fun s =>
    match (s.coreOf (eidLocal p.deid)).opOf p.otag with
    | some r => s.gstDone (eidLocal p.deid) r p.status p.data
    | none => s))

/-! ### Resuming after a die comes back (R416) -/

/-- Whether an operation of a unit is a QUERY, PUBLISH or DISCARD of the memory agent of a stack. -/
def State.agentOp (s : State) (stk : Nat) (r : RemOp) : Bool :=
  (r.pkt.handler == 5 || r.pkt.handler == 6 || r.pkt.handler == 7) && r.pkt.seid == s.eid (stackAgent stk)

/-- The memory agent of a stack resumes where it stopped, once it is online again (R416): what it had out while it was offline may
have lost its answer, so in-doubt timers run anew, and the commit records it keeps (R308) send their decisions again. -/
def State.resumeAgent (s : State) (stk : Nat) : State :=
  if !s.unitUp (stackAgent stk) then s
  else
    let s : State := { s with uops := s.uops.filter (fun r => !s.agentOp stk r) }
    let s : State := { s with groups := s.groups.map (fun g =>
      if g.stack == stk && g.st == .prepared then { g with since := s.time.toNat } else g) }
    s.commits.foldl (fun s c =>
      if stk % 2 == 0 && eidPkg c.src == s.pkgNo && eidLocal c.src / 1024 == stk / 2 then
        (if c.st == .publishing then s.tellParts c.src c.grp 5
         else if c.st == .discarding then s.tellParts c.src c.grp 6
         else s)
      else s) s

/-! ### GCOMMIT, GABORT, GCSTAT and GWAIT -/

/-- GCOMMIT (R306): the stores of the group stand after it (R284). -/
def execGcommit (st : Fin 8) (d a : Fin 32) (s : State) : Host.Outcome State Fault Refusal :=
  issue { st := st.val, reads := [rdC a] }
    (unlessAhead do
      let s ← get
      let grp := (s.rx a).toNat
      let c := s.commitOf s.myEid grp
      legal (hiClear (s.rx a) 16 && c.any (fun c => c.st == .open_ && !c.asked))
      let (s, j) := s.openJob clsCommit (fun j => { j with group := grp })
      let s := s.mapCommit s.myEid grp (fun c => { c with asked := true, job := some j.ri })
      set ((s.edge s.thread (groupThread s.myEid grp)).wx d j.word)) s

/-- GABORT (R307). -/
def execGabort (st : Fin 8) (a : Fin 32) (s : State) : Host.Outcome State Fault Refusal :=
  issue { st := st.val, reads := [rdC a] }
    (unlessAhead do
      let s ← get
      let grp := (s.rx a).toNat
      legal (hiClear (s.rx a) 16)
      match s.commitOf s.myEid grp with
      | none => pure ()
      | some c =>
        if c.st == .open_ then
          set (s.mapCommit s.myEid grp (fun c => { c with asked := true, abort := true }))
        else if c.st == .preparing then set (s.discardGroup s.myEid grp (fun c => c.doom whyGABORT 0))
        else pure ()) s

/-- Group and source of GCSTAT's and GWAIT's operand (R313). -/
def State.groupOperand (s : State) (w : Word) : Nat × Nat :=
  (if w.getLsbD 40 then s.myEid else fld w 16 24, fld w 0 16)

/-- A QUERY of the issuing context. -/
def State.queryOp (s : State) (w : Word) : State × Nat :=
  let g := s.groupOperand w
  s.sendOp { deid := commitAgent g.1, handler := 7, arg0 := groupArg g.1 g.2 } id

/-- GCSTAT (R313). -/
def execGcstat (st : Fin 8) (d a : Fin 32) (s : State) : Host.Outcome State Fault Refusal :=
  issue { st := st.val, reads := [rdC a] }
    (unlessAhead do
      let s ← get
      legal (hiClear (s.rx a) 41)
      let (s, tag) := s.queryOp (s.rx a)
      set (s.awaitReg d tag)) s

/-- Whether a status word says that its group is decided. -/
def wordDecided (w : Word) : Bool := fld w 0 4 == 4 || fld w 0 4 == 6

/-- GWAIT's return (R290, R313): PUBLISHED is the observation of every publication of the group. -/
def State.gwaitReturn (s : State) (d : Fin 32) (a : Word) (w : Word) : State :=
  let g := s.groupOperand a
  let s := if fld w 0 4 = 4 then s.edge (groupThread g.1 g.2) s.thread else s
  s.wx d w

/-- GWAIT (R313, R425). DESIGN CHOICE (log 38): where its time limit comes before any answer of the commit agent has, no answer
describes the record, and the word says NONE in every field, with TLIM. -/
def execGwait (st : Fin 8) (d a : Fin 32) (s : State) : Host.Outcome State Fault Refusal :=
  issue { st := st.val, reads := [rdC a, rdO 2] }
    (unlessAhead do
      let s ← get
      legal (hiClear (s.rx a) 41)
      match s.ctx.wait with
      | .gwait _ _ last _ _ _ expired =>
        if wordDecided last then set (s.gwaitReturn d (s.rx a) last)
        else if expired then set (s.wx d (last ||| BitVec.ofNat 64 (2 ^ 40)))
        else waitHere
      | _ =>
        let (s, tag) := s.queryOp (s.rx a)
        set (s.setCtx { s.ctx with wait := .gwait (s.rx a) tag 0 s.time.toNat 0 200000 false })
        waitHere) s

/-- A GWAIT's query answered, or failed: the next one comes after a wait that doubles (R311, R425). -/
def Ctx.gwaitReply (x : Ctx) (tag now status : Nat) (w : Word) : Ctx :=
  match x.wait with
  | .gwait arg t last since _ wait ex =>
    if t = tag then
      { x with wait := .gwait arg 0 (if status = rsDONE then w else last) since (now + wait) (min 10000000 (2 * wait)) ex }
    else x
  | _ => x

/-- GWAIT_TIME_LIMIT (R313): o2 nanoseconds have passed since the GWAIT issued. -/
def execGwaitTimeLimit (e h : Nat) (s : State) : Host.Outcome State Fault Refusal :=
  atCore e s (fun s => { s with core := s.core.mapCtxNo h (fun x =>
    match x.wait with
    | .gwait arg t last since next wait ex =>
      let lim := (x.o[(2 : Fin 8)]).toNat
      { x with wait := .gwait arg t last since next wait (ex || (decide (0 < lim) && decide (since + lim ≤ s.time.toNat))) }
    | _ => x) })

/-- An operation of a context of the focused core, whichever issues. -/
def State.asCtx (s : State) (h : Nat) (f : State → State) : State :=
  let cur := s.core.cur
  let s := f { s with core := { s.core with cur := Fin.ofNat 11 h } }
  { s with core := { s.core with cur := cur } }

/-- GWAIT_QUERY_REPEAT (R425): the query goes out again once its wait has passed. -/
def execGwaitQueryRepeat (e h : Nat) (s : State) : Host.Outcome State Fault Refusal :=
  atCore e s (fun s =>
    match (s.core.ctxNo h).wait with
    | .gwait arg 0 last since next wait ex =>
      if next ≤ s.time.toNat && !wordDecided last then
        s.asCtx h (fun s =>
          let (s, tag) := s.queryOp arg
          s.setCtx { s.ctx with wait := .gwait arg tag last since next wait ex })
      else s
    | _ => s)

end Sys2Proof.Machine
end

