-- ==== Sys2Proof/Machine/Channels.lean ====
section
/-! DEFINITION. Declared channels: major 0x18, codes 7 to 10 (R342 to R347), slot requests and grants (R171, R344), and
SPWRITE, which fills receive slots and pools (R297, R208). -/

namespace Sys2Proof.Machine

/-! ### Ends and handles (R342, R343) -/

/-- Slot count a job declares for a channel id. -/
def State.chanK (s : State) (asid id : Nat) : Option Nat :=
  ((s.jobOf asid).bind (fun j => j.spec.chans.find? (fun c => c.1 == id))).map (·.2)

/-- A handle (R343): id, PEER, DIR, and bit 41 set. -/
def chanHandle (id peer : Nat) (dir : Bool) : Word :=
  BitVec.ofNat 64 (id % 65536 + peer % 2 ^ 24 * 2 ^ 16 + b2n dir * 2 ^ 40 + 2 ^ 41)

def hId (w : Word) : Nat := fld w 0 16
def hPeer (w : Word) : Nat := fld w 16 24
def hDir (w : Word) : Bool := w.getLsbD 40

def Core.endOf (c : Core) (id : Nat) : Option ChanEnd := c.ends.find? (fun e => e.id == id)

/-- A core with one receive end changed. -/
def Core.mapEnd (c : Core) (id : Nat) (f : ChanEnd → ChanEnd) : Core :=
  { c with ends := c.ends.map (fun e => if e.id == id then f e else e) }

/-- Whether a word is a send handle of the form of R343. -/
def sendHandle (w : Word) : Bool := fld w 42 22 == 0 && w.getLsbD 41 && hDir w && lidUnit (hPeer w % 4096) < 256

/-- The open receive end that a handle names on the focused core. -/
def State.recvEnd (s : State) (w : Word) : Option ChanEnd :=
  if fld w 42 22 == 0 && w.getLsbD 41 && !hDir w && hPeer w == s.myEid then s.core.endOf (hId w) else none

/-- Receive slots of a core's inbox (R239). -/
def Core.slotSpace (c : Core) : Nat := (254 - c.b2) * 4

/-- Pool byte of an inbox slot, and its place. -/
def Core.slotOff (c : Core) (i : Nat) : Nat := 1024 * c.b2 + 256 * i
def Core.slotPlace (c : Core) (i : Nat) : Nat := poolPlace c.id (c.slotOff i)

/-- Whether an inbox slot belongs to an open end. -/
def Core.slotUsed (c : Core) (i : Nat) : Bool := c.ends.any (fun e => e.base ≤ i && i < e.base + e.k)

/-- The lowest place of k contiguous free slots (R343). -/
def Core.freeSlots (c : Core) (k : Nat) : Option Nat :=
  (List.range (c.slotSpace + 1 - k)).find? (fun b => (List.range k).all (fun i => !c.slotUsed (b + i)))

/-- A slot as a thread that carries what its sender did (R286). -/
def slotThread (e i : Nat) : Nat × Nat := (2 ^ 31 + e, i)

/-- CHOPEN (R343). -/
def execChopen (st : Fin 8) (d a b : Fin 32) (s : State) : Host.Outcome State Fault Refusal :=
  issue { st := st.val, reads := [rdC a, rdC b] }
    (unlessAhead do
      let s ← get
      let v := s.rx b
      let id := fld (s.rx a) 0 16
      let peer := fld v 0 24
      let dir := v.getLsbD 24
      legal (hiClear (s.rx a) 16 && hiClear v 25 && (if dir then lidUnit (eidLocal peer) < 256 else peer == 0))
      if dir then upd fun s => s.wx d (chanHandle id peer true)
      else
        let place := (s.chanK s.asid id).bind (fun k => (s.core.freeSlots k).map (fun b => (k, b)))
        match place with
        | some (k, base) =>
          need (s.core.endOf id).isNone .channel id
          let e : ChanEnd := { id := id, k := k, base := base, slots := List.replicate k .free }
          upd fun s => ({ s with core := { s.core with ends := s.core.ends ++ [e] } } : State).wx d
            (chanHandle id s.myEid false)
        | none => raise .channel id) s

/-! ### Requests and grants (R171, R344) -/

/-- Free slots of an end, ascending. -/
def ChanEnd.free (e : ChanEnd) : List Nat := (List.range e.slots.length).filter (fun i => e.slots[i]? == some .free)

/-- Slots of an end set to a state. -/
def ChanEnd.put (e : ChanEnd) (is_ : List Nat) (x : RSlot) : ChanEnd :=
  { e with slots := is_.foldl (fun l i => l.set i x) e.slots }

/-- Slot numbers as they travel (log 14). -/
def slotBytes (is_ : List Nat) : List Byte := is_.map (BitVec.ofNat 8)

/-- The answer to a slot request: the slots granted, none when it is refused. -/
def State.slotAnswer (s : State) (me : Nat) (deid tag id asid : Nat) (is_ : List Nat) : State :=
  s.send { kind := 7, deid := deid, seid := me, otag := tag, asid := asid, arg0 := BitVec.ofNat 64 id
           data := slotBytes is_ }

/-- Waiting requests of an end granted in order of arrival, each once all its slots are free (R344). -/
def State.grantEnd (s : State) (e id : Nat) : Nat → State
  | 0 => s
  | n + 1 =>
    match (s.coreOf e).endOf id with
    | none => s
    | some x =>
      match x.reqs with
      | [] => s
      | r :: rs =>
        if r.m ≤ x.free.length then
          let is_ := x.free.take r.m
          let asid := ((s.coreOf e).job).getD 0
          let s := s.mapCore e (fun c => c.mapEnd id (fun x =>
            { x.put is_ (.granted r.seid r.tag) with reqs := rs }))
          (s.slotAnswer (s.eid e) r.seid r.tag id asid is_).grantEnd e id n
        else s

/-- Grants of an end as far as they go. -/
def State.grants_ (s : State) (e id : Nat) : State :=
  s.grantEnd e id ((((s.coreOf e).endOf id).map (·.reqs.length)).getD 0)

/-- Slots that a sender returns (R171): freed where they are still granted to that request. -/
def ChanEnd.giveBack (e : ChanEnd) (seid tag : Nat) : ChanEnd :=
  { e with slots := e.slots.map (fun x => if x == .granted seid tag then .free else x)
           reqs := e.reqs.filter (fun r => !(r.seid == seid && r.tag == tag)) }

/-- A slot request performed at the receiving core (R335, R344): bit 0 of ARG1 marks the return of a grant (log 14). One that is
refused on its way has no effect (R18). -/
def State.slotReq (s : State) (p : Packet) : State :=
  let e := eidLocal p.deid
  let id := fld p.arg0 0 16
  let m := fld p.arg0 16 16
  if s.refused p then (if p.arg1.getLsbD 0 then s else s.slotAnswer p.deid p.seid p.otag id p.asid [])
  else if p.arg1.getLsbD 0 then
    (s.mapCore e (fun c => c.mapEnd id (fun x => x.giveBack p.seid p.otag))).grants_ e id
  else if !s.coreTakes e p.asid then s.slotAnswer p.deid p.seid p.otag id p.asid []
  else
    match (s.coreOf e).endOf id with
    | none => s.slotAnswer p.deid p.seid p.otag id p.asid []
    | some x =>
      if x.k < m then s.slotAnswer p.deid p.seid p.otag id p.asid []
      else
        (s.mapCore e (fun c => c.mapEnd id (fun x => { x with reqs := x.reqs ++ [⟨p.seid, p.otag, m⟩] }))).grants_ e id

/-- SLOTREQ (R344). -/
def execSlotreq (p : Packet) (s : State) : Host.Outcome State Fault Refusal :=
  let s := { s with net := s.net.erase p }
  done (if s.pkg.isNone then s
    else if eidPkg p.deid ≠ s.pkgNo then
      (match s.wire p with
       | some s => s
       | none => s.slotAnswer (s.dieMgr 0) p.seid p.otag (fld p.arg0 0 16) p.asid [])
    else s.slotReq p)

/-- A grant handed back to its receive end by a core. -/
def State.handBack (s : State) (e : Nat) (asid : Nat) (h : HeldGrant) : State :=
  if h.slots.isEmpty then s
  else s.send { kind := 6, deid := h.peer, seid := s.eid e, otag := h.tag, asid := asid
                arg0 := BitVec.ofNat 64 (h.id + h.slots.length * 65536), arg1 := 1 }

/-- Whether a context waits for the answer to a request. -/
def Ctx.wantsSlots (x : Ctx) (tag : Nat) : Bool := x.wait == .slots tag

/-- SLOTGNT (R171, R344): the answer reaches the instruction that waits for it; a grant that no instruction waits for
goes back. -/
def execSlotgnt (p : Packet) (s : State) : Host.Outcome State Fault Refusal :=
  done (s.arrive p (fun s =>
    let e := eidLocal p.deid
    let h : HeldGrant := { tag := p.otag, peer := p.seid, id := fld p.arg0 0 16, slots := p.data.map (·.toNat) }
    if (s.coreOf e).ctxs.any (fun x => x.wantsSlots p.otag) then
      s.mapCore e (fun c => { c with held := c.held ++ [h] })
    else s.handBack e p.asid h))

/-- Grants that a core holds and no instruction of it waits for. -/
def Core.staleGrants (c : Core) : List HeldGrant := c.held.filter (fun h => !c.ctxs.any (fun x => x.wantsSlots h.tag))

/-- They go back (R171). -/
def State.dropStaleOf (s : State) (c : Core) : State :=
  if c.staleGrants.isEmpty then s
  else
    c.staleGrants.foldl (fun s h => s.handBack c.id (c.job.getD 0) h)
      (s.mapCore c.id (fun c => { c with held := c.held.filter (fun h => !c.staleGrants.contains h) }))

/-- Grants of every core whose instruction no longer waits go back (R171). -/
def State.dropStale (s : State) : State := s.allCores.foldl State.dropStaleOf s

/-- A slot request of the issuing context: with no usable link it is refused at once (R300). -/
def State.askSlots (s : State) (peer id m : Nat) : State :=
  let tag := s.newTag 0
  let s := { s with core := { s.core with otag := nextRun s.core.tagRun } }
  let s := s.setCtx { s.ctx with wait := .slots tag }
  match s.wire { kind := 6, deid := peer, seid := s.myEid, otag := tag, asid := s.asid
                 arg0 := BitVec.ofNat 64 (id + m * 65536) } with
  | some s => s
  | none => { s with core := { s.core with held := s.core.held ++ [⟨tag, peer, id, []⟩] } }

/-- m slots of a receive end, waited for interruptibly; a refusal raises CHANNEL (R344). -/
def takeSlots (peer id m : Nat) : Op (Nat × List Nat) := do
  let s ← get
  match s.ctx.wait with
  | .slots tag =>
    match s.core.held.find? (fun h => h.tag == tag) with
    | none => waitHere
    | some h =>
      upd fun s => { s with core := { s.core with held := s.core.held.filter (fun h => h.tag != tag) } }
      need (!h.slots.isEmpty) .channel id
      pure (tag, h.slots)
  | _ => do
    set (s.askSlots peer id m)
    waitHere

/-! ### Slots as they are read -/

/-- A receive slot's bytes: header and data. -/
def State.slotRead (s : State) (e : ChanEnd) (i : Nat) : Nat × List Byte :=
  let a := s.core.slotPlace (e.base + i)
  let hd := s.getNat a 16
  (hd, s.getBytes (a + 16) (hd / 2 ^ 16 % 256))

/-- The oldest full slot of an end released to the grant process (R346). -/
def State.freeSlot (s : State) (id i : Nat) : State :=
  let s := { s with core := s.core.mapEnd id (fun e => { e.put [i] .free with fifo := e.fifo.filter (· ≠ i), pos := 0 }) }
  s.grants_ s.core.id id

/-! ### Words of a stream (R32, R179) -/

/-- The next word of a channel that feeds the receiver, if it has arrived. DESIGN CHOICE (log 48): the last byte of a message of
an odd number of bytes is a word whose upper byte is zero; the spec gives it no event word. -/
def State.peekWord (s : State) (id : Nat) : Option Nat :=
  match s.core.endOf id with
  | none => none
  | some e =>
    match e.fifo with
    | [] => none
    | i :: _ => some (leNat (((s.slotRead e i).2.drop (2 * e.pos)).take 2))

/-- That word taken: its slot is released once it is empty. -/
def State.takeWord (s : State) (id : Nat) : State :=
  match s.core.endOf id with
  | none => s
  | some e =>
    match e.fifo with
    | [] => s
    | i :: _ =>
      if (s.slotRead e i).2.length ≤ 2 * e.pos + 2 then s.freeSlot id i
      else { s with core := s.core.mapEnd id (fun e => { e with pos := e.pos + 1 }) }

/-- What the sender of the oldest full slot did before it happens before what the issuing context does next (R286). -/
def State.joinSlot (s : State) (id : Nat) : State :=
  match s.core.endOf id with
  | some e =>
    match e.fifo with
    | i :: _ => s.edge (slotThread s.core.id (e.base + i)) s.thread
    | [] => s
  | none => s

/-- Words of the vectors that are being discarded dropped, up to and including their end markers (R39, R179). -/
def State.drain (s : State) (id : Nat) : Nat → State
  | 0 => s
  | n + 1 =>
    if ((s.core.endOf id).map (·.discard)).getD 0 = 0 then s
    else
      match s.peekWord id with
      | none => s
      | some w =>
        let s := s.takeWord id
        (if w = 0xFFFF then { s with core := s.core.mapEnd id (fun e => { e with discard := e.discard - 1 }) }
         else s).drain id n

/-- Everything that has arrived on a channel drained: at most 120 words a slot. -/
def State.drainAll (s : State) (id : Nat) : State :=
  s.drain id (((s.core.endOf id).map (fun e => 128 * (e.fifo.length + 1))).getD 0)

/-! ### Messages (R342, R345) -/

/-- How many messages the core has sent to a receive end. -/
def Core.sentTo (c : Core) (id peer : Nat) : Nat := ((c.sent.find? (fun x => x.1 == (id, peer))).map (·.2)).getD 0

/-- One message sent into a granted slot (R298, R342): ARG0 the slot, ARG1 the id and the request's tag, ARG2 the message
number (log 14). -/
def State.sendMsg (s : State) (peer id tag slot : Nat) (bs : List Byte) : State :=
  let n := s.core.sentTo id peer
  let s := { s with core := { s.core with
    sent := ((id, peer), (n + 1) % 65536) :: s.core.sent.filter (fun x => x.1 != (id, peer)) } }
  (s.sendOp { deid := peer, handler := 9, arg0 := slotArg slot, arg1 := BitVec.ofNat 64 (id + tag * 65536)
              arg2 := BitVec.ofNat 64 n, data := bs } id_).1
where
  /-- Nothing waits for the reply. -/
  id_ (r : RemOp) : RemOp := r

/-- CHSEND (R345). -/
def execChsend (st : Fin 8) (d a b : Fin 32) (s : State) : Host.Outcome State Fault Refusal :=
  issue { st := st.val, reads := [rdC d, rdC a, rdC b] }
    (unlessAhead do
      let s ← get
      let h := s.rx d
      let n := (s.rx b).toNat
      legal (decide (1 ≤ n) && decide (n ≤ 240))
      need (sendHandle h) .channel (hId h)
      let gs ← access (s.rc a) [pL] (capA (s.rc a)) n 1 .load
      let (tag, slots) ← takeSlots (hPeer h) (hId h) 1
      let bs ← loadSegs gs 1
      upd fun s => s.sendMsg (hPeer h) (hId h) tag (slots.headD 0) bs) s

/-- The header of a slot (R342). -/
def slotHeader (id len seid num : Nat) : List Byte :=
  leBytes 16 (id % 65536 + len % 256 * 2 ^ 16 + seid % 2 ^ 24 * 2 ^ 24 + num % 65536 * 2 ^ 48)

/-- A message delivered into its slot of the focused core (R344): only where the slot is granted to its sender's
request. -/
def State.fillSlot (s : State) (p : Packet) : State × Bool :=
  let id := fld p.arg1 0 16
  let tag := fld p.arg1 16 16
  let i := p.arg0.toNat % 2 ^ 63
  match s.core.endOf id with
  | none => (s, false)
  | some e =>
    if e.slots[i]? == some (.granted p.seid tag) then
      let s := s.write (s.core.slotPlace (e.base + i)) (slotHeader id p.data.length p.seid p.arg2.toNat ++ p.data) p.seid
      let s := s.edge p.thread (slotThread s.core.id (e.base + i))
      ({ s with core := (s.core.mapEnd id (fun e => { e.put [i] .full with fifo := e.fifo ++ [i] })).wake }, true)
    else (s, false)

/-- Whether bytes of a pool lie in the core's scratchpad (R208). -/
def Core.inPad (c : Core) (off n : Nat) : Bool := c.b0 * 1024 ≤ off && off + n ≤ c.b1 * 1024

/-- Whether a packet's bytes may be written into the focused core's pool (R208). ARG1 and ARG2 give the first byte and the length of
the whole image that the packet belongs to (log 14), which is checked before any byte is written. -/
def State.poolTakes (s : State) (p : Packet) : Bool :=
  s.core.inPad p.arg0.toNat p.data.length && s.core.inPad p.arg1.toNat p.arg2.toNat

/-- Bytes of a packet written into the focused core's pool, in single accesses of 4 bytes (R208, R279). -/
def State.fillPool (s : State) (p : Packet) (n : Nat) : State :=
  s.writeAs p.thread p.seid (Config.LW + 0x100000 + p.arg0.toNat) (poolPlace s.core.id p.arg0.toNat) 4 false (p.data.take n)

/-- Free bytes left over a range of places by a transfer that ended in LINK_FAIL (R209, R356). -/
def State.smear (s : State) (place n writer : Nat) : State :=
  ({ s with freeN := s.freeN + n } : State).write place ((List.range n).map (fun i => Config.undefinedByte (s.freeN + i))) writer

/-- The same over bytes of a scratchpad that an endpoint names, where it is a core of this package (R209). -/
def State.smearPool (s : State) (eid off n : Nat) : State :=
  let e := eidLocal eid
  if eidPkg eid = s.pkgNo && isCore e && (s.coreOf e).inPad off n then s.smear (poolPlace e off) n s.myEid else s

/-- SPWRITE (R297, R335, R344). -/
def execSpwrite (p : Packet) (s : State) : Host.Outcome State Fault Refusal :=
  done (s.arrive p (fun s =>
    let e := eidLocal p.deid
    if !s.coreTakes e p.asid then s.replyTo p rsREFUSED
    else if p.slotMsg then
      let ok := ((s.focusOn e).fillSlot p).2
      (s.at e (fun s => (s.fillSlot p).1.drainAll (fld p.arg1 0 16))).replyTo p (if ok then rsDONE else rsREFUSED)
    else if !(s.focusOn e).poolTakes p then s.replyTo p rsFAULT
    else (s.at e (fun s => s.fillPool p (s.cutLen p))).partDone p (s.cutLen p)))

/-! ### CHRECV and CHCLOSE -/

/-- Whether a channel belongs to the configured receiver (R175). -/
def Core.ocOwns (c : Core) (id : Nat) : Bool := c.oc.cfg && c.oc.ch0 ≤ id && id < c.oc.ch0 + c.oc.p

/-- CHRECV (R346): its capability is checked over 240 bytes; what it touches, and a watchpoint sees, is the message (R230). -/
def execChrecv (st : Fin 8) (d a b : Fin 32) (s : State) : Host.Outcome State Fault Refusal :=
  issue { st := st.val, ill := fld (s.ro 2) 1 63 ≠ 0, reads := [rdC a, rdC b] }
    (unlessAhead do
      let s ← get
      let h := s.rx a
      match s.recvEnd h with
      | none => raise .channel (hId h)
      | some e =>
        need (!s.core.ocOwns e.id) .channel e.id
        let c := s.rc b
        capNeed c [pS] (capA c) 240 1
        let _ ← segsOf (s.who c) .store (pieces (capA c) 240)
        match e.fifo with
        | [] => if (s.ro 2).getLsbD 0 then upd fun s => s.wx d 0 else waitHere
        | i :: _ =>
          let (hd, bs) := s.slotRead e i
          let gs ← segsOf (s.who c) .store (pieces (capA c) bs.length)
          goodNeed .store gs
          watchNeed .store (capA c) bs.length
          upd fun s =>
            let s := s.edge (slotThread s.core.id (e.base + i)) s.thread
            ((s.storeSegs 1 gs bs).freeSlot e.id i).wx d
              (BitVec.ofNat 64 (bs.length % 256 + hd / 2 ^ 24 % 2 ^ 24 * 2 ^ 8 + 2 ^ 32))) s

/-- A receive end closed (R347): requests that wait there are refused. -/
def State.closeEnd (s : State) (e : ChanEnd) : State :=
  let me := s.myEid
  let asid := s.asid
  let s := { s with core := { s.core with ends := s.core.ends.filter (fun x => x.id != e.id) } }
  e.reqs.foldl (fun s r => s.slotAnswer me r.seid r.tag e.id asid []) s

/-- CHCLOSE (R347). -/
def execChclose (st : Fin 8) (a : Fin 32) (s : State) : Host.Outcome State Fault Refusal :=
  issue { st := st.val, reads := [rdC a] }
    (unlessAhead do
      let s ← get
      let h := s.rx a
      if sendHandle h then pure ()
      else
        match s.recvEnd h with
        | none => raise .channel (hId h)
        | some e =>
          need (!s.core.ocOwns e.id) .channel e.id
          upd fun s => s.closeEnd e) s

end Sys2Proof.Machine
end

