-- ==== Sys2Proof/Machine/Barriers.lean ====
section
/-! DEFINITION. Named barriers: major 0x19, codes 3 to 7 (R357 to R360), and the arrivals and waits that reach a home. -/

namespace Sys2Proof.Machine

/-! ### The barrier at its home (R357) -/

/-- Place of barrier i of a core. -/
def barPlace (e i : Nat) : Nat := poolPlace e (254 * 1024 + 16 * (i % 128))

/-- A barrier's fields. -/
structure Bar where
  exp  : Nat
  cnt  : Nat
  drop : Nat
  vld  : Bool
  ph   : Nat
deriving DecidableEq, Repr

def Bar.of (x : Nat) : Bar :=
  { exp := x % 65536, cnt := x / 2 ^ 16 % 65536, drop := x / 2 ^ 32 % 65536, vld := x.testBit 48
    ph := x / 2 ^ 64 % 2 ^ 32 }

def Bar.num (b : Bar) : Nat :=
  b.exp % 65536 + b.cnt % 65536 * 2 ^ 16 + b.drop % 65536 * 2 ^ 32 + b2n b.vld * 2 ^ 48 + b.ph % 2 ^ 32 * 2 ^ 64

def State.bar (s : State) (e i : Nat) : Bar := Bar.of (s.getNat (barPlace e i) 16)

/-- A barrier written by its home for an endpoint. -/
def State.setBar (s : State) (e i writer : Nat) (b : Bar) : State := s.write (barPlace e i) (leBytes 16 b.num) writer

/-- Whether phase n has passed at a count of phases (R360). -/
def phPassed (ph n : Nat) : Bool :=
  let k := (ph + 2 ^ 32 - n % 2 ^ 32) % 2 ^ 32
  1 ≤ k && k < 2 ^ 31

/-- One arrival applied (R359); none where it is over. -/
def Bar.arrive (b : Bar) (n : Nat) (drop : Bool) : Option Bar :=
  if !b.vld || b.exp = 0 || n ≠ b.ph then none
  else
    let b := { b with cnt := b.cnt + 1, drop := b.drop + b2n drop }
    some (if b.cnt = b.exp then
        { b with ph := (b.ph + 1) % 2 ^ 32, cnt := 0, exp := b.exp - b.drop, drop := 0 } else b)

/-- A barrier as a thread that carries what its arrivals did (R286). -/
def barThread (home i : Nat) : Nat × Nat := (2 ^ 32 + home, i)

/-- Data of the answer to an arrival or wait (log 14): PH, then 0, 1 OVER or 2 RETRY. -/
def barData (ph code : Nat) : List Byte := leBytes 4 ph ++ leBytes 4 code

/-- Deferred waits of a home that a phase releases (R359, R360). -/
def State.releaseBar (s : State) (e i : Nat) : State :=
  let ph := (s.bar e i).ph
  let go (w : BarWait) : Bool := w.bar == i && phPassed ph w.n
  let ws := (s.coreOf e).barw.filter go
  let asid := ((s.coreOf e).job).getD 0
  let s := s.mapCore e (fun c => { c with barw := c.barw.filter (fun w => !go w) })
  ws.foldl (fun s w =>
    s.send { kind := 2, deid := w.seid, seid := s.eid e, asid := asid, otag := w.tag, status := rsDONE
             data := barData ph 0 }) s

/-- An arrival at a home by a thread: the state, and the barrier after it when it was counted. -/
def State.barArrive (s : State) (e i n : Nat) (drop : Bool) (writer : Nat) (thr : Nat × Nat) : State × Option Bar :=
  match (s.bar e i).arrive n drop with
  | none => (s, none)
  | some b =>
    let s := (s.setBar e i writer b).edge thr (barThread (s.eid e) i)
    (if b.ph = n then s else s.releaseBar e i, some b)

/-! ### Packets at a home (R335, R359, R360) -/

/-- Barrier and phase of an arrival or wait packet (log 14): ARG0 the index, ARG1 the phase, with BARAD in bit 32 and
a wait in bit 33. -/
def pktBar (p : Packet) : Nat := fld p.arg0 0 7
def pktPhase (p : Packet) : Nat := fld p.arg1 0 32

/-- BARARR (R359). -/
def execBararr (p : Packet) (s : State) : Host.Outcome State Fault Refusal :=
  done (s.arrive p (fun s =>
    let e := eidLocal p.deid
    if !s.coreTakes e p.asid then s.replyTo p rsREFUSED
    else
      match s.barArrive e (pktBar p) (pktPhase p) (p.arg1.getLsbD 32) p.seid p.thread with
      | (s, none) => s.replyTo p rsDONE (barData (s.bar e (pktBar p)).ph 1)
      | (s, some b) => s.replyTo p rsDONE (barData b.ph 0)))

/-- BARRIER_WAIT_REQUEST (R360): answered at once where the phase has passed, deferred while there is room. -/
def execBarrierWaitRequest (p : Packet) (s : State) : Host.Outcome State Fault Refusal :=
  done (s.arrive p (fun s =>
    let e := eidLocal p.deid
    if !s.coreTakes e p.asid then s.replyTo p rsREFUSED
    else
      let ph := (s.bar e (pktBar p)).ph
      if phPassed ph (pktPhase p) then s.replyTo p rsDONE (barData ph 0)
      else if (s.coreOf e).barw.length < 64 then
        s.mapCore e (fun c => { c with barw := c.barw ++ [⟨pktBar p, pktPhase p, p.seid, p.otag⟩] })
      else s.replyTo p rsDONE (barData ph 2)))

/-- BARRIER_RETRY (R360): 1 µs after RETRY the waiter asks again. -/
def execBarrierRetry (e h : Nat) (s : State) : Host.Outcome State Fault Refusal :=
  done (if e < 4096 && isCore e then
    s.mapCore e (fun c => c.mapCtxNo h (fun x =>
      match x.wait with
      | .again since => if 0 < since && since + 999 ≤ s.time.toNat then { x with wait := .again 0 } else x
      | _ => x))
  else s)

/-! ### The instructions -/

/-- The barrier an operand names (R357): index and home; none where it is ILLEGAL. -/
def State.barOperand (s : State) (w : Word) : Option (Nat × Nat) :=
  if !hiClear w 33 || w.getLsbD 7 then none
  else
    let home := if w.getLsbD 32 then s.myEid else fld w 8 24
    if lidUnit (eidLocal home) < 256 then some (fld w 0 7, home) else none

/-- The operand of a barrier instruction, or ILLEGAL. -/
def barNeed (w : Word) : Op (Nat × Nat) := do
  match (← get).barOperand w with
  | some x => pure x
  | none => throw (.trap (← get).illegal)

/-- BARRIER_OVER (R216, R359): bit 7 of TVAL marks an arrival or wait that was not answered. -/
def barOver {α : Type} (i home : Nat) (lost : Bool) : Op α :=
  raise .barrierOver ((i + 128 * b2n lost + home * 256 : Nat) : Int)

/-- BARI (R358). -/
def execBari (st : Fin 8) (a b : Fin 32) (s : State) : Host.Outcome State Fault Refusal :=
  issue { st := st.val, reads := [rdC a, rdC b] }
    (unlessAhead do
      let s ← get
      let (i, home) ← barNeed (s.rx a)
      let n := (s.rx b).toNat
      let old := s.bar s.core.id i
      legal (home == s.myEid && hiClear (s.rx b) 16 && n ≠ 0 && old.cnt = 0)
      set (s.setBar s.core.id i s.myEid { old with exp := n, drop := 0, vld := true })) s

/-- A context that waits for the answer to an arrival is not interrupted (R359). -/
def State.arriving (s : State) : Bool := s.ctx.arriving

/-- The packet of an arrival or wait. -/
def barPkt (home i n flags : Nat) : Packet :=
  { deid := home, handler := 8, arg0 := BitVec.ofNat 64 i, arg1 := BitVec.ofNat 64 (n + flags * 2 ^ 32) }

/-- The arrival of BARA, BARAD and BARAW (R359): the PH answered. -/
def arriveAt (i home n : Nat) (drop : Bool) : Op Nat := do
  let s ← get
  match s.ctx.wait with
  | .sent _ => waitHere
  | .replied status val =>
    upd fun s => s.setCtx { s.ctx with wait := .none }
    if status ≠ rsDONE then barOver i home true
    else if fld val 32 32 = 1 then barOver i home false
    else pure (fld val 0 32)
  | _ =>
    if home = s.myEid then
      match s.barArrive s.core.id i n drop s.myEid s.thread with
      | (_, none) => barOver i home false
      | (s, some b) => do
        set s
        pure b.ph
    else
      let (s, tag) := s.sendOp (barPkt home i n (b2n drop)) (fun r => r)
      set (s.setCtx { s.ctx with wait := .sent tag })
      waitHere

/-- BARA and BARAD. -/
def barArriveOp (st : Nat) (d a b : Fin 32) (drop : Bool) (s : State) : Host.Outcome State Fault Refusal :=
  issue { st := st, reads := [rdC a, rdC b], noint := s.arriving }
    (unlessAhead do
      let s ← get
      let (i, home) ← barNeed (s.rx a)
      legal (hiClear (s.rx b) 32)
      let ph ← arriveAt i home (s.rx b).toNat drop
      upd fun s => s.wx d (BitVec.ofNat 64 ph)) s

/-- BARA (R359). -/
def execBara (st : Fin 8) (d a b : Fin 32) (s : State) : Host.Outcome State Fault Refusal :=
  barArriveOp st.val d a b false s
/-- BARAD (R359). -/
def execBarad (st : Fin 8) (d a b : Fin 32) (s : State) : Host.Outcome State Fault Refusal :=
  barArriveOp st.val d a b true s

/-- A wait request sent by the issuing context. -/
def askBar (i home n : Nat) : Op Nat := do
  let (s, tag) := (← get).sendOp (barPkt home i n 2) (fun r => r)
  set (s.setCtx { s.ctx with wait := .barw tag })
  waitHere

/-- The wait of BARW and BARAW (R360): the PH that was seen. -/
def awaitPhase (i home n : Nat) : Op Nat := do
  let s ← get
  if home = s.myEid then
    let ph := (s.bar s.core.id i).ph
    await (phPassed ph n)
    pure ph
  else
    match s.ctx.wait with
    | .barw _ => waitHere
    | .barwDone status val =>
      if status ≠ rsDONE then barOver i home true
      else if fld val 32 32 = 2 then do
        set (s.setCtx { s.ctx with wait := .again (s.time.toNat + 1) })
        waitHere
      else pure (fld val 0 32)
    | .again since => if since = 0 then askBar i home n else waitHere
    | _ => askBar i home n

/-- The wait done: the release is the edge of R286. -/
def State.barReleased (s : State) (home i : Nat) (d : Fin 32) (ph : Nat) : State :=
  (s.edge (barThread home i) s.thread).wx d (BitVec.ofNat 64 ph)

/-- BARW (R360). -/
def execBarw (st : Fin 8) (d a b : Fin 32) (s : State) : Host.Outcome State Fault Refusal :=
  issue { st := st.val, reads := [rdC a, rdC b] }
    (unlessAhead do
      let s ← get
      let (i, home) ← barNeed (s.rx a)
      let ph ← awaitPhase i home (fld (s.rx b) 0 32)
      upd fun s => s.barReleased home i d ph) s

/-- The resume word of BARAW (R359). -/
def barResume (n : Nat) : Word := BitVec.ofNat 64 (2 ^ 63 + n % 2 ^ 32)

/-- Whether C[d] is the resume word of a phase. -/
def resumes (w : Word) (n : Nat) : Bool := fld w 62 2 == 2 && fld w 0 32 == n

/-- BARAW (R359): once its arrival is counted its restart point is its wait, which C[d] says from then on. -/
def execBaraw (st : Fin 8) (d a b : Fin 32) (s : State) : Host.Outcome State Fault Refusal :=
  issue { st := st.val, ill := d = 0 || d = a || d = b, reads := [rdC d, rdC a, rdC b], noint := s.arriving }
    (unlessAhead do
      let s ← get
      let (i, home) ← barNeed (s.rx a)
      legal (hiClear (s.rx b) 32)
      let n := (s.rx b).toNat
      if s.arriving || !resumes (s.rx d) n then do
        let _ ← arriveAt i home n false
        upd fun s => s.wx d (barResume n)
      let ph ← awaitPhase i home n
      upd fun s => s.barReleased home i d ph) s

end Sys2Proof.Machine
end

