-- ==== Sys2Proof/Machine/Branch.lean ====
section
/-! DEFINITION. Control transfers (R125 to R129), LOOP and LEXIT (R130 to R133). All but LEXIT raise ILLEGAL in a
loop body (R132). -/

namespace Sys2Proof.Machine

/-- A B or J target: inside PCC's bounds, or CAP_BOUNDS with the target in TVAL (R125). -/
def goTo (t : Int) : Op Unit := do
  let s ← get
  need (decide (capBase s.ctx.pcc ≤ t) && decide (t + 2 ≤ capTop s.ctx.pcc)) .capBounds t
  upd fun s => s.setCtx { s.ctx with npc := BitVec.ofNat 80 (addr80 t) }

/-- A target by halfwords from the instruction (R76). -/
def State.rel (s : State) (off : Int) : Int := (s.pc : Int) + 2 * off

/-- A conditional branch: an untaken one checks nothing (R125). -/
def branch (st : Nat) (ill : Bool) (reads : List (RegFile × Nat)) (cond : State → Bool) (off : Int) (s : State) :
    Host.Outcome State Fault Refusal :=
  issue { st := st, ill := ill || s.ctx.loop.lact, reads := reads }
    (do if cond (← get) then goTo ((← get).rel off) else pure ()) s

/-- A branch on a c register (R126). -/
def branchC (st : Nat) (a : Fin 32) (cond : Cap → Bool) (off : Int) (s : State) : Host.Outcome State Fault Refusal :=
  branch st false [rdC a] (fun s => cond (s.rc a)) off s

/-- V as two's complement. -/
def capInt (c : Cap) : Int := (c.bits.truncate 64 : Word).toInt

/-- BEQ (R126). -/
def execBeq (st : Fin 8) (a : Fin 32) (off : BitVec 13) (s : State) : Host.Outcome State Fault Refusal :=
  branchC st.val a (fun c => capInt c == 0) off.toInt s
/-- BNE (R126). -/
def execBne (st : Fin 8) (a : Fin 32) (off : BitVec 13) (s : State) : Host.Outcome State Fault Refusal :=
  branchC st.val a (fun c => capInt c != 0) off.toInt s
/-- BLT (R126). -/
def execBlt (st : Fin 8) (a : Fin 32) (off : BitVec 13) (s : State) : Host.Outcome State Fault Refusal :=
  branchC st.val a (fun c => decide (capInt c < 0)) off.toInt s
/-- BGE (R126). -/
def execBge (st : Fin 8) (a : Fin 32) (off : BitVec 13) (s : State) : Host.Outcome State Fault Refusal :=
  branchC st.val a (fun c => decide (0 ≤ capInt c)) off.toInt s
/-- BLE (R126). -/
def execBle (st : Fin 8) (a : Fin 32) (off : BitVec 13) (s : State) : Host.Outcome State Fault Refusal :=
  branchC st.val a (fun c => decide (capInt c ≤ 0)) off.toInt s
/-- BGT (R126). -/
def execBgt (st : Fin 8) (a : Fin 32) (off : BitVec 13) (s : State) : Host.Outcome State Fault Refusal :=
  branchC st.val a (fun c => decide (0 < capInt c)) off.toInt s
/-- BTAG (R126). -/
def execBtag (st : Fin 8) (a : Fin 32) (off : BitVec 13) (s : State) : Host.Outcome State Fault Refusal :=
  branchC st.val a (fun c => c.tag) off.toInt s
/-- BNTAG (R126). -/
def execBntag (st : Fin 8) (a : Fin 32) (off : BitVec 13) (s : State) : Host.Outcome State Fault Refusal :=
  branchC st.val a (fun c => !c.tag) off.toInt s

/-- BMANY (R127); ILLEGAL in a helper (R88). -/
def execBmany (st : Fin 8) (a : Fin 8) (off : BitVec 13) (s : State) : Host.Outcome State Fault Refusal :=
  branch st.val s.helper [rdM a] (fun s => s.rm a != 0) off.toInt s
/-- BMNONE (R127). -/
def execBmnone (st : Fin 8) (a : Fin 8) (off : BitVec 13) (s : State) : Host.Outcome State Fault Refusal :=
  branch st.val s.helper [rdM a] (fun s => s.rm a == 0) off.toInt s
/-- BMALL (R127). -/
def execBmall (st : Fin 8) (a : Fin 8) (off : BitVec 13) (s : State) : Host.Outcome State Fault Refusal :=
  branch st.val s.helper [rdM a] (fun s => s.rm a == BitVec.allOnes 32) off.toInt s
/-- BGDS (R127). -/
def execBgds (st : Fin 8) (a : Fin 16) (off : BitVec 13) (s : State) : Host.Outcome State Fault Refusal :=
  branch st.val s.helper [rdG a] (fun s => s.rg a) off.toInt s
/-- BGDC (R127). -/
def execBgdc (st : Fin 8) (a : Fin 16) (off : BitVec 13) (s : State) : Host.Outcome State Fault Refusal :=
  branch st.val s.helper [rdG a] (fun s => !s.rg a) off.toInt s

/-- J (R128). -/
def execJ (st : Fin 8) (off : BitVec 22) (s : State) : Host.Outcome State Fault Refusal :=
  branch st.val false [] (fun _ => true) off.toInt s

/-- CALL (R128): C[1] takes PCC at the next instruction once the target has passed. -/
def execCall (st : Fin 8) (off : BitVec 22) (s : State) : Host.Outcome State Fault Refusal :=
  issue { st := st.val, ill := s.ctx.loop.lact }
    (do
      let s ← get
      let link := capAt s.ctx.pcc s.ctx.npc.toNat
      goTo (s.rel off.toInt)
      upd fun s => s.wc 1 link) s

/-- PCC taken from a register through the checks of R125. -/
def jumpReg (st : Nat) (a : Fin 32) (s : State) : Host.Outcome State Fault Refusal :=
  issue { st := st, ill := s.ctx.loop.lact, reads := [rdC a] }
    (do
      let c := (← get).rc a
      jumpNeed c
      upd fun s => s.setCtx (s.ctx.jump c)) s

/-- JR (R129). -/
def execJr (st : Fin 8) (a : Fin 32) (s : State) : Host.Outcome State Fault Refusal := jumpReg st.val a s
/-- RET (R129): JR's effect; the prediction hint has none. -/
def execRet (st : Fin 8) (a : Fin 32) (s : State) : Host.Outcome State Fault Refusal := jumpReg st.val a s

/-- CALLR (R129): the target is read before d is written. -/
def callReg (st : Nat) (d a : Fin 32) (s : State) : Host.Outcome State Fault Refusal :=
  issue { st := st, ill := s.ctx.loop.lact, reads := [rdC a] }
    (do
      let s ← get
      let c := s.rc a
      let link := capAt s.ctx.pcc s.ctx.npc.toNat
      jumpNeed c
      upd fun s => s.wc d link
      upd fun s => s.setCtx (s.ctx.jump c)) s

/-- CALLR (R129). -/
def execCallr (st : Fin 8) (d a : Fin 32) (s : State) : Host.Outcome State Fault Refusal := callReg st.val d a s

/-- LEXIT (R133): outside a loop it raises ILLEGAL. -/
def execLexit (st : Fin 8) (a : Fin 32) (s : State) : Host.Outcome State Fault Refusal :=
  issue { st := st.val, ill := !s.ctx.loop.lact, reads := [rdC a] }
    (upd fun s =>
      if s.rx a ≠ 0 || a = 0 then
        let l := s.ctx.loop
        s.setCtx { s.ctx with loop := { l with lact := false }, npc := l.lbeg + BitVec.ofNat 80 l.lsz }
      else s) s

/-- Length in bytes of the n instructions at an address, from their first halfwords (R130). -/
def bodySize : Nat → Nat → Op Nat
  | 0, _ => pure 0
  | n + 1, a => do
    fetchBounds (← get).ctx.pcc a 2
    let g ← fetchSeg a
    goodNeed .fetch [g]
    let h ← fetchAt g
    let len := if h % 2 = 0 then 2 else 4
    let rest ← bodySize n (a + len)
    pure (len + rest)

/-- LOOP (R130), body of `n` instructions. -/
def loopStart (st : Nat) (c : Fin 32) (n : Nat) (s : State) : Host.Outcome State Fault Refusal :=
  issue { st := st, ill := s.ctx.loop.lact, reads := [rdC c] }
    (do
      let s ← get
      let cnt := s.rx c
      let beg := s.ctx.npc
      let size ← bodySize n beg.toNat
      upd fun s =>
        if cnt = 0 then s.setCtx { s.ctx with npc := beg + BitVec.ofNat 80 size }
        else s.setCtx { s.ctx with loop := { lact := true, llen := n, lidx := 0, lsz := size, lbeg := beg,
                                             lcnt := cnt, liter := 0, lfstep := s.ro 6, lmstep := s.ro 7 } }) s

/-- LOOP (R130). -/
def execLoop (st : Fin 8) (a : Fin 32) (n : Fin 8) (s : State) : Host.Outcome State Fault Refusal :=
  loopStart st.val a (n.val + 1) s

/-- Short BEQ (R89). -/
def execBeqShort (st : Fin 4) (x y : Fin 16) (s : State) : Host.Outcome State Fault Refusal :=
  branchC st.val (r32 x) (fun c => capInt c == 0) (sextNat 4 y.val) s
/-- Short BNE (R89). -/
def execBneShort (st : Fin 4) (x y : Fin 16) (s : State) : Host.Outcome State Fault Refusal :=
  branchC st.val (r32 x) (fun c => capInt c != 0) (sextNat 4 y.val) s
/-- Short J (R89). -/
def execJShort (st : Fin 4) (o : BitVec 8) (s : State) : Host.Outcome State Fault Refusal :=
  branch st.val false [] (fun _ => true) o.toInt s
/-- Short RET (R89). -/
def execRetShort (st : Fin 4) (x : Fin 16) (s : State) : Host.Outcome State Fault Refusal := jumpReg st.val (r32 x) s
/-- Short CALLR (R89): d = 1. -/
def execCallrShort (st : Fin 4) (x : Fin 16) (s : State) : Host.Outcome State Fault Refusal :=
  callReg st.val 1 (r32 x) s
/-- Short LOOP (R89). -/
def execLoopShort (st : Fin 4) (x : Fin 16) (y : Fin 8) (s : State) : Host.Outcome State Fault Refusal :=
  loopStart st.val (r32 x) (y.val + 1) s

end Sys2Proof.Machine
end

