-- ==== Sys2Proof/Machine/Capability.lean ====
section
/-! DEFINITION. Capability instructions: majors 0x05 and 0x06 (R122 to R124) and their short forms. -/

namespace Sys2Proof.Machine

/-- A register derived from one register at latency 1 (R122). -/
def derive1 (st : Nat) (d a : Fin 32) (ill : Bool) (f : Cap → Cap) (s : State) : Host.Outcome State Fault Refusal :=
  issue { st := st, ill := ill, reads := [rdC a] } (upd fun s => s.wc d (f (s.rc a))) s

/-- A register derived from two registers at latency 1 (R122). -/
def derive2 (st : Nat) (d a b : Fin 32) (f : Cap → Cap → Cap) (s : State) : Host.Outcome State Fault Refusal :=
  issue { st := st, reads := [rdC a, rdC b] } (upd fun s => s.wc d (f (s.rc a) (s.rc b))) s

/-- V of R116. -/
def capX (c : Cap) : Word := c.bits.truncate 64

/-- Half h of an exact number: bits [63:0] or [80:64] (R122). -/
def half (h : Fin 2) (x : Int) : Word :=
  if h = 0 then BitVec.ofInt 64 x else BitVec.ofNat 64 (utrunc 81 x / 2 ^ 64)

/-- The bounds of R123: base, top and exponent of the smallest E that fits; none when no pass exits. -/
def fitBounds (lo hi : Nat) : Option (Nat × Nat × Nat) :=
  (List.range 51).findSome? (fun e =>
    let u := 2 ^ e
    let b2 := lo / u * u
    let t2 := (hi + u - 1) / u * u
    if (t2 - b2) / u ≤ 0x7FFF then some (b2, t2, e) else none)

/-- CSETB, CSETBX and CSETBI (R123). -/
def capSetBounds (c : Cap) (n : Nat) (exact_ : Bool) : Cap :=
  let lo := capA c
  let hi := lo + n
  match fitBounds lo hi with
  | none => ⟨c.bits, false⟩
  | some (b2, t2, e) =>
    let ok := decide (t2 ≤ 2 ^ 80) && decide (capBase c ≤ (b2 : Int)) && decide ((t2 : Int) ≤ capTop c) &&
      (!exact_ || (b2 == lo && t2 == hi))
    ⟨capBits lo (capP c) e (lo / 2 ^ e % 32768) ((t2 - b2) / 2 ^ e), c.tag && ok⟩

/-- CTEST (R124). -/
def capWithin (x y : Cap) : Bool :=
  x.tag && y.tag && decide (capBase x ≤ capBase y) && decide (capTop y ≤ capTop x) &&
    (capP y &&& capP x) == capP y

/-- A moved by a signed offset (R113, R122). -/
def capInc (c : Cap) (k : Int) : Cap := capMove c ((capA c : Int) + k)

/-- CMOV (R122). -/
def execCmov (st : Fin 8) (d a : Fin 32) (s : State) : Host.Outcome State Fault Refusal :=
  derive1 st.val d a false (fun c => c) s

/-- CINC (R122). -/
def execCinc (st : Fin 8) (d a b : Fin 32) (s : State) : Host.Outcome State Fault Refusal :=
  derive2 st.val d a b (fun c v => capInc c (capX v).toInt) s

/-- CSETA (R122): A[79:64] is kept. -/
def execCseta (st : Fin 8) (d a b : Fin 32) (s : State) : Host.Outcome State Fault Refusal :=
  derive2 st.val d a b (fun c v => capMove c ((capA c / 2 ^ 64 * 2 ^ 64 + (capX v).toNat : Nat) : Int)) s

/-- CSETB (R123). -/
def execCsetb (st : Fin 8) (d a b : Fin 32) (s : State) : Host.Outcome State Fault Refusal :=
  derive2 st.val d a b (fun c v => capSetBounds c (capX v).toNat false) s

/-- CSETBX (R123). -/
def execCsetbx (st : Fin 8) (d a b : Fin 32) (s : State) : Host.Outcome State Fault Refusal :=
  derive2 st.val d a b (fun c v => capSetBounds c (capX v).toNat true) s

/-- CANDP (R122): permissions are only removed (R114). -/
def execCandp (st : Fin 8) (d a b : Fin 32) (s : State) : Host.Outcome State Fault Refusal :=
  derive2 st.val d a b
    (fun c v => ⟨capBits (capA c) (capP c &&& (capX v).toNat % 4096) (capE c) (capB c) (capL c), c.tag⟩) s

/-- CGETA (R122). -/
def execCgeta (st : Fin 8) (d a : Fin 32) (h : Fin 2) (s : State) : Host.Outcome State Fault Refusal :=
  derive1 st.val d a false (fun c => scalar (half h (capA c))) s

/-- CGETB (R122): decoded whatever the tag is. -/
def execCgetb (st : Fin 8) (d a : Fin 32) (h : Fin 2) (s : State) : Host.Outcome State Fault Refusal :=
  derive1 st.val d a false (fun c => scalar (half h (capBase c))) s

/-- CGETT (R122). -/
def execCgett (st : Fin 8) (d a : Fin 32) (h : Fin 2) (s : State) : Host.Outcome State Fault Refusal :=
  derive1 st.val d a false (fun c => scalar (half h (capTop c))) s

/-- CGETP (R122). -/
def execCgetp (st : Fin 8) (d a : Fin 32) (s : State) : Host.Outcome State Fault Refusal :=
  derive1 st.val d a false (fun c => scalar (BitVec.ofNat 64 (capP c))) s

/-- CGETTAG (R122). -/
def execCgettag (st : Fin 8) (d a : Fin 32) (s : State) : Host.Outcome State Fault Refusal :=
  derive1 st.val d a false (fun c => scalar (wb c.tag)) s

/-- CCLRTAG (R122). -/
def execCclrtag (st : Fin 8) (d a : Fin 32) (s : State) : Host.Outcome State Fault Refusal :=
  derive1 st.val d a false (fun c => ⟨c.bits, false⟩) s

/-- CSUB (R122). -/
def execCsub (st : Fin 8) (d a b : Fin 32) (s : State) : Host.Outcome State Fault Refusal :=
  derive2 st.val d a b (fun x y => scalar (BitVec.ofInt 64 ((capA x : Int) - capA y))) s

/-- CTEST (R124). -/
def execCtest (st : Fin 8) (d a b : Fin 32) (s : State) : Host.Outcome State Fault Refusal :=
  derive2 st.val d a b (fun x y => scalar (wb (capWithin x y))) s

/-- CINCI (R122). -/
def execCinci (st : Fin 8) (d a : Fin 32) (i : BitVec 7) (s : State) : Host.Outcome State Fault Refusal :=
  derive1 st.val d a false (fun c => capInc c i.toInt) s

/-- CSETBI (R122, R123): a negative imm7 raises ILLEGAL. -/
def execCsetbi (st : Fin 8) (d a : Fin 32) (i : BitVec 7) (s : State) : Host.Outcome State Fault Refusal :=
  derive1 st.val d a i.msb (fun c => capSetBounds c i.toNat false) s

/-- Short CMOV (R89). -/
def execCmovShort (st : Fin 4) (x y : Fin 16) (s : State) : Host.Outcome State Fault Refusal :=
  derive1 st.val (r32 x) (r32 y) false (fun c => c) s

/-- Short CINCI (R89): 8 times the signed y. -/
def execCinciShort (st : Fin 4) (x y : Fin 16) (s : State) : Host.Outcome State Fault Refusal :=
  derive1 st.val (r32 x) (r32 x) false (fun c => capInc c (8 * sextNat 4 y.val)) s

end Sys2Proof.Machine
end

