-- ==== Sys2Proof/Machine/Ports.lean ====
section
/-! DEFINITION. Vector registers as instructions name them: elements and masks (R136 to R138), stream ports
(R154 to R158), matrix-mode ownership (R187), and the frame a vector instruction runs in. -/

namespace Sys2Proof.Machine

/-! ### Elements and masks -/

/-- Element e of register width w (R136). -/
def elemN (x w e : Nat) : Nat := x / 2 ^ (w * e) % 2 ^ w
def elem (v : VReg) (w e : Nat) : Nat := elemN v.toNat w e

/-- Lane j (R136). -/
def lane (v : VReg) (j : Nat) : Nat := elem v 32 j

/-- The elements of a register. -/
def elems (v : VReg) (w : Nat) : List Nat :=
  let x := v.toNat
  (List.range (1024 / w)).map (elemN x w)

/-- Elements joined into one number, element 0 lowest. -/
def joinElems (w : Nat) : List Nat → Nat
  | [] => 0
  | x :: xs => x % 2 ^ w + 2 ^ w * joinElems w xs

/-- A register of given elements; those not given are 0. -/
def ofElems (w : Nat) (xs : List Nat) : VReg := BitVec.ofNat 1024 (joinElems w xs)

/-- Whether element e of N is governed by a set bit (R138). -/
def governed (m : BitVec 32) (n e : Nat) : Bool := m.getLsbD (32 * e / n)

/-- A register whose governed elements are computed and whose others are kept (R138). -/
def mapMasked (old : VReg) (w : Nat) (m : BitVec 32) (f : Nat → Nat) : VReg :=
  let n := 1024 / w
  let x := old.toNat
  ofElems w ((List.range n).map (fun e => if governed m n e then f e else elemN x w e))

/-- Bytes of a register image, lowest first, and back (R136). -/
def vBytes (v : VReg) : List Byte := leBytes 128 v.toNat
def ofVBytes (bs : List Byte) : VReg := BitVec.ofNat 1024 (leNat bs)

/-! ### Types in force -/

/-- Type codes a job placed during reduced service may use (R411). -/
def State.tyAllowed (s : State) (t : Nat) : Bool :=
  match s.myJob with
  | some j => !j.reduced || t == 9 || t == 10
  | none => true

/-- o0.VT as an instruction accepts it (R83, R139). -/
def State.vt (s : State) : Nat := oVT s.o0
def State.vt2 (s : State) : Nat := oVT2 s.o0
def State.vtBad (s : State) (ok : Nat → Bool) : Bool := !(o0ok s.o0 && ok s.vt && s.tyAllowed s.vt)
def State.vt2Bad (s : State) (ok : Nat → Bool) : Bool := !(o0ok s.o0 && ok s.vt2 && s.tyAllowed s.vt2)
/-- RND = 7 where an instruction rounds (R60). -/
def State.rndBad (s : State) : Bool := oRND s.o0 = 7

/-- How an instruction rounds: the sampled mode, SAT, seed and counter (R60, R62, R67). -/
def State.round (s : State) : Rnd :=
  { mode := s.rnd, sat := oSAT s.o0, seed := s.core.srseed.toNat, t := s.core.srctr.toNat }

/-- SRCTR after an instruction that rounds retires (R67). -/
def State.srDone (s : State) (rounds : Bool) : State :=
  if rounds && s.rnd = 6 then { s with core := { s.core with srctr := s.core.srctr + 1 } } else s

/-! ### Ports, and the operands of matrix jobs (R194, R195) -/

/-- The port whose window a v register is. -/
def portNo (n : Fin 64) : Option (Fin 8) := if h : 56 ≤ n.val then some ⟨n.val - 56, by omega⟩ else none

/-- The register of a port. -/
def portReg (p : Fin 8) : Fin 64 := ⟨56 + p.val, by omega⟩

/-- The port behind a register while it is bound. -/
def State.port (s : State) (n : Fin 64) : Option Port :=
  match portNo n with
  | some p => if s.core.sp[p].bnd then some s.core.sp[p] else none
  | none => none

def State.readPort (s : State) (n : Fin 64) : Bool :=
  match s.port n with
  | some p => !p.dir
  | none => false

def State.writePort (s : State) (n : Fin 64) : Bool :=
  match s.port n with
  | some p => p.dir
  | none => false

def State.boundPort (s : State) (n : Fin 64) : Bool := (s.port n).isSome

/-- Scale registers of one operand (R196): two for Q4N. -/
def scaleRegs (ty r : Nat) (mx : Bool) : List Nat := if ty = 18 then [r, r + 1] else if mx then [r] else []

/-- The registers of a job that may be ports, one for each role (R195). -/
def MatJob.roles (j : MatJob) : List Nat :=
  [j.a, j.b] ++ scaleRegs j.afmt j.asr j.amx ++ scaleRegs j.bfmt j.bsr j.bmx ++ (if j.nm = 0 then [] else [j.mreg])

/-- Products per cell and step of a triple; 0 where it is not accepted (R194). -/
def matE (a b accf : Nat) : Nat :=
  let both (f : Nat → Bool) : Bool := f a && f b
  let narrow (t : Nat) : Bool := t == 14 || t == 15 || t == 16 || t == 18
  if both (· == 11) && accf = 2 then 1
  else if both (· == 10) && accf = 0 then 1
  else if both (fun t => t == 8 || t == 9) && accf = 0 then 4
  else if both (fun t => t == 12 || t == 13) && accf = 0 then 8
  else if both (· == 0) && accf = 1 then 8
  else if both narrow && accf = 0 then 16
  else if both (· == 22) && accf = 1 then 16
  else 0

/-- Registers of a dense group of A, and of B (R194). -/
def matG (t : Nat) (isA : Bool) : Nat :=
  if t = 11 then (if isA then 2 else 1) else if t = 10 then 1 else if t = 14 || t = 15 then 3 else 2

/-- Products per cell, positions per step, and the registers of each group (R194, R195). -/
def MatJob.e (j : MatJob) : Nat := matE j.afmt j.bfmt j.accf
def MatJob.ek (j : MatJob) : Nat := if j.nm = 0 then j.e else 2 * j.e
def MatJob.ga (j : MatJob) : Nat := matG j.afmt true * (if j.nm = 2 then 2 else 1)
def MatJob.gb (j : MatJob) : Nat := matG j.bfmt false * (if j.nm = 1 then 2 else 1)
/-- Values per row of A and per column of B that a group carries. -/
def MatJob.na (j : MatJob) : Nat := if j.nm = 2 then 2 * j.e else j.e
def MatJob.nb (j : MatJob) : Nat := if j.nm = 1 then 2 * j.e else j.e

/-- Registers of a group of `g` registers from x on: a bound port is named alone, since its pops fill the group (R195). -/
def State.groupRegs (s : State) (x g : Nat) : List Nat :=
  if s.boundPort (Fin.ofNat 64 x) then [x] else (List.range g).map (x + ·)

/-- Registers of the two groups. -/
def MatJob.ranges (j : MatJob) (s : State) : List Nat := s.groupRegs j.a j.ga ++ s.groupRegs j.b j.gb

/-- v registers that a queued job names (R157, R190). -/
def MatJob.names (j : MatJob) (n : Nat) : Bool := j.kind != .drain && j.roles.contains n

/-- Whether a MOP or MSQD in flight pops a bound register (R157). -/
def State.portBusy (s : State) (n : Fin 64) : Bool := s.boundPort n && s.core.mq.any (fun j => j.names n.val)

/-- Address of a port's next group (R154). -/
def Port.addr (p : Port) : Nat := addr80 ((capA p.cap : Int) + p.idx.toNat * p.stride.toInt)

/-- A group's checks at a pop or append (R158): STREAM_END, translation and regions, watchpoints. -/
def groupSegs (n : Fin 64) (p : Port) (k : Acc) : Op (List Seg) := do
  need (decide (p.idx.toNat < p.cnt.toNat)) .streamEnd ((n.val - 56 : Nat) : Int)
  let s ← get
  let gs ← segsOf (s.who p.cap) k (pieces p.addr 128)
  goodNeed k gs
  watchNeed k p.addr 128
  pure gs

/-- A pop or append of a port completed: IDX advances and the register holds the group (R156, R158). -/
def State.advance (s : State) (n : Fin 64) (v : VReg) : State :=
  match portNo n with
  | some p =>
    let sp := s.core.sp[p]
    ({ s with core := { s.core with sp := s.core.sp.set p { sp with idx := sp.idx + 1 } } } : State).wv n v
  | none => s

/-! ### The frame of a vector instruction -/

/-- Registers of v0 to v35 named in matrix mode: ACC_OWNED with the lowest (R187, R216). -/
def State.owned (s : State) (vs : List (Fin 64)) : Option Trap :=
  if s.core.mm then
    (((vs.map (·.val)).filter (· < 36)).min?).map (fun n => ⟨.accOwned, BitVec.ofNat 80 n⟩)
  else none

/-- What an instruction does with v registers: those it reads, its single destination, whether that is also read, its
destinations of R91, and its mask field. -/
structure VUse where
  srcs  : List (Fin 64) := []
  dst   : Option (Fin 64) := none
  rdDst : Bool := false
  more  : List (Fin 64) := []
  m     : Fin 8 := 0
  /-- Data register of a store, in its d field (R265). -/
  data  : Option (Fin 64) := none

/-- ILLEGAL of the port rules (R157, R265). DESIGN CHOICE (log 48): a register bound as a write port is ILLEGAL as a source of
an instruction whose destination is another register too; R157 says it of its own. -/
def VUse.portBad (u : VUse) (s : State) : Bool :=
  u.srcs.any s.writePort ||
  (match u.dst with
   | some d => s.readPort d || (s.writePort d && (u.rdDst || u.m ≠ 0))
   | none => false) ||
  u.more.any s.boundPort ||
  (match u.data with
   | some d => s.boundPort d
   | none => false)

/-- Every v register an instruction names. -/
def VUse.named (u : VUse) : List (Fin 64) := u.srcs ++ u.dst.toList ++ u.more ++ u.data.toList

/-- The scoreboard's view: popped registers are read from memory (R157). -/
def VUse.reads (u : VUse) (s : State) : List (RegFile × Nat) :=
  ((u.srcs ++ u.data.toList).filter (fun n => !s.boundPort n)).map rdV ++
    (if u.rdDst then u.dst.toList.map rdV else []) ++ [rdM u.m]

/-- The gate of a vector instruction: ILLEGAL in a helper (R88). -/
def VUse.gate (u : VUse) (st : Nat) (ill : Bool) (reads : List (RegFile × Nat)) (s : State) : Gate :=
  { st := st, ill := s.helper || ill || u.portBad s, acc := s.owned u.named, reads := u.reads s ++ reads }

/-- Groups of the read ports among some registers, each popped once, in order (R157). -/
def popSegs : List (Fin 64) → Op (List (Fin 64 × List Seg))
  | [] => pure []
  | n :: ns => do
    let s ← get
    match s.port n with
    | some p =>
      let gs ← groupSegs n p .load
      let rest ← popSegs ns
      pure ((n, gs) :: rest)
    | none => popSegs ns

/-- The groups loaded (R157): one access per 4-byte element. -/
def popLoad : List (Fin 64 × List Seg) → Op (List (Fin 64 × VReg))
  | [] => pure []
  | (n, gs) :: ps => do
    let bs ← loadSegs gs 4
    let rest ← popLoad ps
    pure ((n, ofVBytes bs) :: rest)

/-- Registers without repeats, in order. -/
def dedupV : List (Fin 64) → List (Fin 64)
  | [] => []
  | x :: xs => x :: (dedupV xs).filter (· ≠ x)

/-- A vector instruction's operands read and its result put (R140, R157, R158): `body` computes the result from the
operands it names; `lat` is its fixed latency, none where it is variable. -/
def vecRun (u : VUse) (lat : Option Nat) (body : (Fin 64 → VReg) → Op (Option VReg)) : Op Unit := do
  let s ← get
  await (!(u.named.any s.portBusy))
  let segs ← popSegs (dedupV u.srcs)
  let app ← match u.dst with
    | some d => (match s.port d with
      | some p => (do let gs ← groupSegs d p .store; pure (some gs))
      | none => pure none)
    | none => pure none
  let got ← popLoad segs
  let s ← get
  let rd (n : Fin 64) : VReg := ((got.find? (fun p => p.1 == n)).map (·.2)).getD (s.rv n)
  let r ← body rd
  upd fun s => got.foldl (fun s p => s.advance p.1 p.2) s
  match u.dst, r with
  | some d, some v =>
    match app with
    | some gs => upd fun s => (s.storeSegs 4 gs (vBytes v)).advance d v
    | none =>
      match lat with
      | some l => upd fun s => s.laterV d v l
      | none => upd fun s => s.wv d v
  | _, _ => pure ()

/-- The value a masked write merges into: writes to one register take effect in issue order, so a pending one comes
first (R81, R138). -/
def State.mergeV (s : State) (n : Fin 64) : VReg :=
  match (s.core.ctxs[(0 : Fin 11)].fix.reverse.find? (fun p => p.isFor .v n.val)) with
  | some p => p.val
  | none => s.rv n

/-- A vector instruction with a vector result: `f` gets the state at issue, the operands, and the value that
elements not written keep. DESIGN CHOICE (log 36): an instruction that also reads its destination keeps what it reads there,
one that does not keeps what a pending write will have put there. Under a mask it waits for a result of variable latency, as a
reader does (R79). -/
def vecOp (st : Nat) (u : VUse) (ill : Bool) (lat : Option Nat) (rounds : Bool)
    (f : State → (Fin 64 → VReg) → VReg → VReg) (s : State) : Host.Outcome State Fault Refusal :=
  issue (u.gate st ill [] s)
    (do
      let s ← get
      await (u.m = 0 || !u.dst.any (fun d => s.varPending (rdV d)))
      vecRun u lat (fun rd => do
        let old := match u.dst with
          | some d => if u.rdDst then rd d else s.mergeV d
          | none => 0
        pure (some (f s rd old)))
      upd fun s => s.srDone rounds) s

end Sys2Proof.Machine
end

