-- ==== Sys2Proof/Machine/Scalar.lean ====
section
/-! DEFINITION. Scalar work: majors 0x00 to 0x04 (R116 to R121) and their short forms (R89). -/

namespace Sys2Proof.Machine

/-- A scalar result of two registers at latency 1 (R116, R117). -/
def scalar2 (st : Nat) (d a b : Fin 32) (ill : Bool) (f : Word → Word → Word) (s : State) :
    Host.Outcome State Fault Refusal :=
  issue { st := st, ill := ill, reads := [rdC a, rdC b] } (upd fun s => s.wx d (f (s.rx a) (s.rx b))) s

/-- A scalar result of one register and an immediate at latency 1 (R119). -/
def scalarI (st : Nat) (d a : Fin 32) (ill : Bool) (f : Word → Word) (s : State) :
    Host.Outcome State Fault Refusal :=
  issue { st := st, ill := ill, reads := [rdC a] } (upd fun s => s.wx d (f (s.rx a))) s

/-- A product at latency 3 (R79, R120). -/
def scalarMul (st : Nat) (d a b : Fin 32) (f : Word → Word → Word) (s : State) :
    Host.Outcome State Fault Refusal :=
  issue { st := st, reads := [rdC a, rdC b] } (upd fun s => s.laterX d (f (s.rx a) (s.rx b)) 3) s

/-- Shift by V_b[5:0] (R117). -/
def shl (x : Word) (n : Nat) : Word := x <<< n
def shr (x : Word) (n : Nat) : Word := x >>> n
def sar (x : Word) (n : Nat) : Word := x.sshiftRight n
def amount (y : Word) : Nat := y.toNat % 64

/-- High halves of the products (R120). -/
def mulhS (x y : Word) : Word := BitVec.ofInt 64 (x.toInt * y.toInt / ((2 ^ 64 : Nat) : Int))
def mulhU (x y : Word) : Word := BitVec.ofNat 64 (x.toNat * y.toNat / 2 ^ 64)

/-- Divisions with the borderline results of R120. -/
def divS (x y : Word) : Word := if y = 0 then BitVec.allOnes 64 else x.sdiv y
def divU (x y : Word) : Word := if y = 0 then BitVec.allOnes 64 else x / y
def remS (x y : Word) : Word := if y = 0 then x else x.srem y
def remU (x y : Word) : Word := if y = 0 then x else x % y

/-- Number of leading zero bits of a number of w bits (R120, R142). -/
def clzNat (w x : Nat) : Nat := w - (if x = 0 then 0 else Nat.log2 x + 1)

/-- Number of trailing zero bits in the w bits from bit i (R120). -/
def ctzFrom (x i : Nat) : Nat → Nat
  | 0 => 0
  | w + 1 => if x.testBit i then 0 else 1 + ctzFrom x (i + 1) w

/-- Number of one bits among the lowest w (R120). -/
def popcNat (x : Nat) : Nat → Nat
  | 0 => 0
  | w + 1 => b2n (x.testBit w) + popcNat x w

def clz64 (x : Word) : Word := BitVec.ofNat 64 (clzNat 64 x.toNat)
def ctz64 (x : Word) : Word := BitVec.ofNat 64 (ctzFrom x.toNat 0 64)
def popc64 (x : Word) : Word := BitVec.ofNat 64 (popcNat x.toNat 64)
/-- The eight bytes reversed (R120). -/
def bswap64 (x : Word) : Word := BitVec.ofNat 64 (leNat (leBytes 8 x.toNat).reverse)

/-- ADD (R117): V_a + V_b. -/
def execAdd (st : Fin 8) (d a b : Fin 32) (s : State) : Host.Outcome State Fault Refusal :=
  scalar2 st.val d a b false (fun x y => x + y) s

/-- SUB (R117): V_a − V_b. -/
def execSub (st : Fin 8) (d a b : Fin 32) (s : State) : Host.Outcome State Fault Refusal :=
  scalar2 st.val d a b false (fun x y => x - y) s

/-- AND (R117): V_a & V_b. -/
def execAndr (st : Fin 8) (d a b : Fin 32) (s : State) : Host.Outcome State Fault Refusal :=
  scalar2 st.val d a b false (fun x y => x &&& y) s

/-- OR (R117): V_a | V_b. -/
def execOrr (st : Fin 8) (d a b : Fin 32) (s : State) : Host.Outcome State Fault Refusal :=
  scalar2 st.val d a b false (fun x y => x ||| y) s

/-- XOR (R117): V_a ^ V_b. -/
def execXorr (st : Fin 8) (d a b : Fin 32) (s : State) : Host.Outcome State Fault Refusal :=
  scalar2 st.val d a b false (fun x y => x ^^^ y) s

/-- ANDN (R117): V_a & ~V_b. -/
def execAndn (st : Fin 8) (d a b : Fin 32) (s : State) : Host.Outcome State Fault Refusal :=
  scalar2 st.val d a b false (fun x y => x &&& ~~~y) s

/-- SLL (R117): a shift left. -/
def execSll (st : Fin 8) (d a b : Fin 32) (s : State) : Host.Outcome State Fault Refusal :=
  scalar2 st.val d a b false (fun x y => shl x (amount y)) s

/-- SRL (R117): a shift right, zeros in. -/
def execSrl (st : Fin 8) (d a b : Fin 32) (s : State) : Host.Outcome State Fault Refusal :=
  scalar2 st.val d a b false (fun x y => shr x (amount y)) s

/-- SRA (R117): a shift right, sign bits in. -/
def execSra (st : Fin 8) (d a b : Fin 32) (s : State) : Host.Outcome State Fault Refusal :=
  scalar2 st.val d a b false (fun x y => sar x (amount y)) s

/-- SLT (R117): signed less than. -/
def execSlt (st : Fin 8) (d a b : Fin 32) (s : State) : Host.Outcome State Fault Refusal :=
  scalar2 st.val d a b false (fun x y => wb (x.slt y)) s

/-- SLTU (R117): unsigned less than. -/
def execSltu (st : Fin 8) (d a b : Fin 32) (s : State) : Host.Outcome State Fault Refusal :=
  scalar2 st.val d a b false (fun x y => wb (x.ult y)) s

/-- MIN (R117): smaller, signed. -/
def execMin (st : Fin 8) (d a b : Fin 32) (s : State) : Host.Outcome State Fault Refusal :=
  scalar2 st.val d a b false (fun x y => if x.slt y then x else y) s

/-- MAX (R117): larger, signed. -/
def execMax (st : Fin 8) (d a b : Fin 32) (s : State) : Host.Outcome State Fault Refusal :=
  scalar2 st.val d a b false (fun x y => if x.slt y then y else x) s

/-- MINU (R117): smaller, unsigned. -/
def execMinu (st : Fin 8) (d a b : Fin 32) (s : State) : Host.Outcome State Fault Refusal :=
  scalar2 st.val d a b false (fun x y => if x.ult y then x else y) s

/-- MAXU (R117): larger, unsigned. -/
def execMaxu (st : Fin 8) (d a b : Fin 32) (s : State) : Host.Outcome State Fault Refusal :=
  scalar2 st.val d a b false (fun x y => if x.ult y then y else x) s

/-- SEL (R118): the destination is the condition, and whole registers move. -/
def execSel (st : Fin 8) (d a b : Fin 32) (s : State) : Host.Outcome State Fault Refusal :=
  issue { st := st.val, reads := [rdC d, rdC a, rdC b] }
    (upd fun s => s.wc d (if s.rx d ≠ 0 then s.rc a else s.rc b)) s

/-- ADDI (R119): V_a + imm. -/
def execAddi (st : Fin 8) (d a : Fin 32) (i : BitVec 7) (s : State) : Host.Outcome State Fault Refusal :=
  scalarI st.val d a false (fun x => x + imm7 i) s

/-- ANDI (R119): V_a & imm. -/
def execAndi (st : Fin 8) (d a : Fin 32) (i : BitVec 7) (s : State) : Host.Outcome State Fault Refusal :=
  scalarI st.val d a false (fun x => x &&& imm7 i) s

/-- ORI (R119): V_a | imm. -/
def execOri (st : Fin 8) (d a : Fin 32) (i : BitVec 7) (s : State) : Host.Outcome State Fault Refusal :=
  scalarI st.val d a false (fun x => x ||| imm7 i) s

/-- XORI (R119): V_a ^ imm. -/
def execXori (st : Fin 8) (d a : Fin 32) (i : BitVec 7) (s : State) : Host.Outcome State Fault Refusal :=
  scalarI st.val d a false (fun x => x ^^^ imm7 i) s

/-- SLTI (R119): signed less than. -/
def execSlti (st : Fin 8) (d a : Fin 32) (i : BitVec 7) (s : State) : Host.Outcome State Fault Refusal :=
  scalarI st.val d a false (fun x => wb (x.slt (imm7 i))) s

/-- SLLI (R119): a negative imm7 raises ILLEGAL. -/
def execSlli (st : Fin 8) (d a : Fin 32) (i : BitVec 7) (s : State) : Host.Outcome State Fault Refusal :=
  scalarI st.val d a i.msb (fun x => shl x i.toNat) s

/-- SRLI (R119): a negative imm7 raises ILLEGAL. -/
def execSrli (st : Fin 8) (d a : Fin 32) (i : BitVec 7) (s : State) : Host.Outcome State Fault Refusal :=
  scalarI st.val d a i.msb (fun x => shr x i.toNat) s

/-- SRAI (R119): a negative imm7 raises ILLEGAL. -/
def execSrai (st : Fin 8) (d a : Fin 32) (i : BitVec 7) (s : State) : Host.Outcome State Fault Refusal :=
  scalarI st.val d a i.msb (fun x => sar x i.toNat) s

/-- MUL (R120), latency 3. -/
def execMul (st : Fin 8) (d a b : Fin 32) (s : State) : Host.Outcome State Fault Refusal :=
  scalarMul st.val d a b (fun x y => x * y) s

/-- MULH (R120), latency 3. -/
def execMulh (st : Fin 8) (d a b : Fin 32) (s : State) : Host.Outcome State Fault Refusal :=
  scalarMul st.val d a b (fun x y => mulhS x y) s

/-- MULHU (R120), latency 3. -/
def execMulhu (st : Fin 8) (d a b : Fin 32) (s : State) : Host.Outcome State Fault Refusal :=
  scalarMul st.val d a b (fun x y => mulhU x y) s

/-- DIV (R120); its latency is variable and not observable. -/
def execDiv (st : Fin 8) (d a b : Fin 32) (s : State) : Host.Outcome State Fault Refusal :=
  scalar2 st.val d a b false (fun x y => divS x y) s

/-- DIVU (R120); its latency is variable and not observable. -/
def execDivu (st : Fin 8) (d a b : Fin 32) (s : State) : Host.Outcome State Fault Refusal :=
  scalar2 st.val d a b false (fun x y => divU x y) s

/-- REM (R120); its latency is variable and not observable. -/
def execRem (st : Fin 8) (d a b : Fin 32) (s : State) : Host.Outcome State Fault Refusal :=
  scalar2 st.val d a b false (fun x y => remS x y) s

/-- REMU (R120); its latency is variable and not observable. -/
def execRemu (st : Fin 8) (d a b : Fin 32) (s : State) : Host.Outcome State Fault Refusal :=
  scalar2 st.val d a b false (fun x y => remU x y) s

/-- CLZ (R120). -/
def execClz (st : Fin 8) (d a : Fin 32) (s : State) : Host.Outcome State Fault Refusal :=
  scalarI st.val d a false (fun x => clz64 x) s

/-- CTZ (R120). -/
def execCtz (st : Fin 8) (d a : Fin 32) (s : State) : Host.Outcome State Fault Refusal :=
  scalarI st.val d a false (fun x => ctz64 x) s

/-- POPC (R120). -/
def execPopc (st : Fin 8) (d a : Fin 32) (s : State) : Host.Outcome State Fault Refusal :=
  scalarI st.val d a false (fun x => popc64 x) s

/-- BSWAP (R120). -/
def execBswap (st : Fin 8) (d a : Fin 32) (s : State) : Host.Outcome State Fault Refusal :=
  scalarI st.val d a false (fun x => bswap64 x) s

/-- A constant written at latency 1 (R121). -/
def loadConst (st : Nat) (d : Fin 32) (v : Word) (s : State) : Host.Outcome State Fault Refusal :=
  issue { st := st } (upd fun s => s.wx d v) s

/-- LIS (R121). -/
def execLis (st : Fin 8) (d : Fin 32) (i : BitVec 16) (s : State) : Host.Outcome State Fault Refusal :=
  loadConst st.val d (i.signExtend 64) s

/-- LIK (R121): reads its destination. -/
def execLik (st : Fin 8) (d : Fin 32) (i : BitVec 16) (s : State) : Host.Outcome State Fault Refusal :=
  scalarI st.val d d false (fun x => x <<< 16 ||| i.zeroExtend 64) s

/-- Short ADD (R89): x = 0 raises ILLEGAL. -/
def execAddShort (st : Fin 4) (x y : Fin 16) (s : State) : Host.Outcome State Fault Refusal :=
  scalar2 st.val (r32 x) (r32 x) (r32 y) (decide (x = 0)) (fun v w => v + w) s

/-- Short SUB (R89). -/
def execSubShort (st : Fin 4) (x y : Fin 16) (s : State) : Host.Outcome State Fault Refusal :=
  scalar2 st.val (r32 x) (r32 x) (r32 y) false (fun v w => v - w) s

/-- Short AND (R89). -/
def execAndShort (st : Fin 4) (x y : Fin 16) (s : State) : Host.Outcome State Fault Refusal :=
  scalar2 st.val (r32 x) (r32 x) (r32 y) false (fun v w => v &&& w) s

/-- Short OR (R89). -/
def execOrShort (st : Fin 4) (x y : Fin 16) (s : State) : Host.Outcome State Fault Refusal :=
  scalar2 st.val (r32 x) (r32 x) (r32 y) false (fun v w => v ||| w) s

/-- Short XOR (R89). -/
def execXorShort (st : Fin 4) (x y : Fin 16) (s : State) : Host.Outcome State Fault Refusal :=
  scalar2 st.val (r32 x) (r32 x) (r32 y) false (fun v w => v ^^^ w) s

/-- Short ADDI (R89). -/
def execAddiShort (st : Fin 4) (x y : Fin 16) (s : State) : Host.Outcome State Fault Refusal :=
  scalarI st.val (r32 x) (r32 x) false (fun v => v + imm7 (sx7 y)) s

/-- Short SLLI (R89). -/
def execSlliShort (st : Fin 4) (x y : Fin 16) (s : State) : Host.Outcome State Fault Refusal :=
  scalarI st.val (r32 x) (r32 x) false (fun v => shl v y.val) s

/-- Short SRLI (R89). -/
def execSrliShort (st : Fin 4) (x y : Fin 16) (s : State) : Host.Outcome State Fault Refusal :=
  scalarI st.val (r32 x) (r32 x) false (fun v => shr v y.val) s

/-- Short SRAI (R89). -/
def execSraiShort (st : Fin 4) (x y : Fin 16) (s : State) : Host.Outcome State Fault Refusal :=
  scalarI st.val (r32 x) (r32 x) false (fun v => sar v y.val) s

/-- Short LIS (R89). -/
def execLisShort (st : Fin 4) (x y : Fin 16) (s : State) : Host.Outcome State Fault Refusal :=
  loadConst st.val (r32 x) ((sx16 y).signExtend 64) s

end Sys2Proof.Machine
end

