-- ==== Sys2Proof/Machine/Vector.lean ====
section
/-! DEFINITION. Vector arithmetic, compares, conversions, packing, permutes and reductions: majors 0x20 to 0x37
(R136 to R152), and the moves between register kinds of major 0x1D (R153). -/

namespace Sys2Proof.Machine

/-- Bits an element's value takes: a 6-bit type ignores bits [7:6] of its byte (R136). -/
def tyRaw (t x : Nat) : Nat := if t = 14 || t = 15 then x % 64 else x

/-- Type sets of R139. -/
def tyNum (t : Nat) : Bool := tyInt t || tyFloat t
def tyCmp (t : Nat) : Bool := t == 4 || t == 5 || t == 6 || t == 7 || t == 10 || t == 11
def tyMove (t : Nat) : Bool := t < 23 && 8 ≤ tyWidth t
def ty3264 (t : Nat) : Bool := t < 23 && 32 ≤ tyWidth t

/-- Integer value of an element by its type. -/
def intOf (t x : Nat) : Int :=
  if tySigned t then sextNat (tyWidth t) (x % 2 ^ tyWidth t) else ((x % 2 ^ tyWidth t : Nat) : Int)

/-! ### Element-wise arithmetic (R141, R142) -/

/-- What an element-wise instruction computes: on integers exactly, whether SAT applies, and on floating values. -/
structure Arith where
  int : Option (Nat → Int → Int → Int → Int) := none
  useSat : Bool := true
  flt : Option (Nat → Val → Val → Val → Wide) := none

/-- Types an operation accepts (R139). -/
def Arith.accepts (f : Arith) (t : Nat) : Bool := (f.int.isSome && tyInt t) || (f.flt.isSome && tyFloat t)

/-- Element e's result: integers wrapped or clamped, floating values rounded once (R139). -/
def Arith.result (f : Arith) (t : Nat) (r : Rnd) (e x y z : Nat) : Nat :=
  if tyInt t then
    match f.int with
    | some g => putInt t (f.useSat && r.sat) (g (tyWidth t) (intOf t x) (intOf t y) (intOf t z))
    | none => 0
  else
    match f.flt with
    | some g => (fmtOf t).encodeWide r e (g r.mode (decodeTy t x) (decodeTy t y) (decodeTy t z))
    | none => 0

/-- ILLEGAL of an element-wise instruction's types and mode (R60, R83, R139). -/
def Arith.bad (f : Arith) (s : State) : Bool := s.vtBad f.accepts || (tyFloat s.vt && s.rndBad)

/-- An element-wise instruction over d, a and b under a write mask (R138, R141). -/
def vecArith (st : Nat) (d a b : Fin 64) (m : Fin 8) (f : Arith) (rdD : Bool) (lat : Nat → Option Nat) (s : State) :
    Host.Outcome State Fault Refusal :=
  vecOp st { srcs := [a, b], dst := some d, rdDst := rdD, m := m } (f.bad s) (lat s.vt) (tyFloat s.vt)
    (fun s rd old =>
      let t := s.vt
      let w := tyWidth t
      let x := (rd a).toNat
      let y := (rd b).toNat
      let z := old.toNat
      mapMasked old w (s.rm m) (fun e => f.result t s.round e (elemN x w e) (elemN y w e) (elemN z w e))) s

/-- A one-operand instruction (R142). -/
def vecArith1 (st : Nat) (d a : Fin 64) (m : Fin 8) (f : Arith) (lat : Nat → Option Nat) (s : State) :
    Host.Outcome State Fault Refusal :=
  vecOp st { srcs := [a], dst := some d, m := m } (f.bad s) (lat s.vt) (tyFloat s.vt)
    (fun s rd old =>
      let t := s.vt
      let w := tyWidth t
      let x := (rd a).toNat
      mapMasked old w (s.rm m) (fun e => f.result t s.round e (elemN x w e) 0 0)) s

/-- Latency by VT: integer and floating classes (R79, R140). -/
def latIF (i f : Nat) (t : Nat) : Option Nat := some (if tyInt t then i else f)
/-- A latency that VT does not change. -/
def latAll (l : Nat) (_ : Nat) : Option Nat := some l
/-- Variable latency (R79). -/
def latVar (_ : Nat) : Option Nat := none

def arAdd : Arith := { int := some (fun _ x y _ => x + y), flt := some (fun m x y _ => .val (vAdd m x y)) }
def arSub : Arith := { int := some (fun _ x y _ => x - y), flt := some (fun m x y _ => .val (vAdd m x (vNeg y))) }
def arMul : Arith := { int := some (fun _ x y _ => x * y), flt := some (fun _ x y _ => .val (vMul x y)) }
def arMulh : Arith := { int := some (fun w x y _ => x * y / ((2 ^ w : Nat) : Int)), useSat := false }
def arFma : Arith :=
  { int := some (fun _ x y z => x * y + z), flt := some (fun m x y z => .val (vAdd m (vMul x y) z)) }
def arFms : Arith :=
  { int := some (fun _ x y z => x * y - z), flt := some (fun m x y z => .val (vAdd m (vMul x y) (vNeg z))) }
def arMin : Arith := { int := some (fun _ x y _ => min x y), flt := some (fun _ x y _ => .val (vMin x y)) }
def arMax : Arith := { int := some (fun _ x y _ => max x y), flt := some (fun _ x y _ => .val (vMax x y)) }
def arDiv : Arith := { flt := some (fun _ x y _ => vDiv x y) }
def arAbs : Arith := { int := some (fun _ x _ _ => (x.natAbs : Int)), flt := some (fun _ x _ _ => .val (vAbs x)) }
def arNeg : Arith := { int := some (fun _ x _ _ => -x), flt := some (fun _ x _ _ => .val (vNeg x)) }
def arSqrt : Arith := { flt := some (fun _ x _ _ => vSqrt x) }
def arExp2 : Arith := { flt := some (fun _ x _ _ => vExp2 x) }
def arLog2 : Arith := { flt := some (fun _ x _ _ => vLog2 x) }
def arClz : Arith :=
  { int := some (fun w x _ _ => (clzNat w (utrunc w x) : Int)), useSat := false }
def arPopc : Arith :=
  { int := some (fun w x _ _ => (popcNat (utrunc w x) w : Int)), useSat := false }
def arSll : Arith :=
  { int := some (fun w x y _ => x * ((2 ^ (utrunc w y % w) : Nat) : Int)), useSat := false }
def arSrl : Arith :=
  { int := some (fun w x y _ => ((utrunc w x / 2 ^ (utrunc w y % w) : Nat) : Int)), useSat := false }
def arSra : Arith :=
  { int := some (fun w x y _ => sextNat w (utrunc w x) / ((2 ^ (utrunc w y % w) : Nat) : Int)), useSat := false }
def arRol : Arith :=
  { int := some (fun w x y _ =>
      let k := utrunc w y % w
      ((utrunc w x * 2 ^ k + utrunc w x / 2 ^ (w - k) : Nat) : Int)), useSat := false }

/-- VADD (R141): x + y. -/
def execVadd (st : Fin 8) (d a b : Fin 64) (m : Fin 8) (s : State) : Host.Outcome State Fault Refusal :=
  vecArith st.val d a b m arAdd false (latIF 2 4) s

/-- VSUB (R141): x − y. -/
def execVsub (st : Fin 8) (d a b : Fin 64) (m : Fin 8) (s : State) : Host.Outcome State Fault Refusal :=
  vecArith st.val d a b m arSub false (latIF 2 4) s

/-- VMUL (R141): x × y. -/
def execVmul (st : Fin 8) (d a b : Fin 64) (m : Fin 8) (s : State) : Host.Outcome State Fault Refusal :=
  vecArith st.val d a b m arMul false (latAll 4) s

/-- VMULH (R141): the high half of the exact product. -/
def execVmulh (st : Fin 8) (d a b : Fin 64) (m : Fin 8) (s : State) : Host.Outcome State Fault Refusal :=
  vecArith st.val d a b m arMulh false (latAll 4) s

/-- VFMA (R141): x × y + z, rounded once. -/
def execVfma (st : Fin 8) (d a b : Fin 64) (m : Fin 8) (s : State) : Host.Outcome State Fault Refusal :=
  vecArith st.val d a b m arFma true (latAll 4) s

/-- VFMS (R141): x × y − z, rounded once. -/
def execVfms (st : Fin 8) (d a b : Fin 64) (m : Fin 8) (s : State) : Host.Outcome State Fault Refusal :=
  vecArith st.val d a b m arFms true (latAll 4) s

/-- VMIN (R141): smaller of x and y. -/
def execVmin (st : Fin 8) (d a b : Fin 64) (m : Fin 8) (s : State) : Host.Outcome State Fault Refusal :=
  vecArith st.val d a b m arMin false (latIF 2 4) s

/-- VMAX (R141): larger of x and y. -/
def execVmax (st : Fin 8) (d a b : Fin 64) (m : Fin 8) (s : State) : Host.Outcome State Fault Refusal :=
  vecArith st.val d a b m arMax false (latIF 2 4) s

/-- VDIV (R141): x ÷ y. -/
def execVdiv (st : Fin 8) (d a b : Fin 64) (m : Fin 8) (s : State) : Host.Outcome State Fault Refusal :=
  vecArith st.val d a b m arDiv false latVar s

/-- VABS (R142): magnitude. -/
def execVabs (st : Fin 8) (d a : Fin 64) (m : Fin 8) (s : State) : Host.Outcome State Fault Refusal :=
  vecArith1 st.val d a m arAbs (latAll 2) s

/-- VNEG (R142): −x. -/
def execVneg (st : Fin 8) (d a : Fin 64) (m : Fin 8) (s : State) : Host.Outcome State Fault Refusal :=
  vecArith1 st.val d a m arNeg (latAll 2) s

/-- VSQRT (R142): square root. -/
def execVsqrt (st : Fin 8) (d a : Fin 64) (m : Fin 8) (s : State) : Host.Outcome State Fault Refusal :=
  vecArith1 st.val d a m arSqrt latVar s

/-- VEXP2 (R142): 2 to the power x. -/
def execVexp2 (st : Fin 8) (d a : Fin 64) (m : Fin 8) (s : State) : Host.Outcome State Fault Refusal :=
  vecArith1 st.val d a m arExp2 latVar s

/-- VLOG2 (R142): binary logarithm. -/
def execVlog2 (st : Fin 8) (d a : Fin 64) (m : Fin 8) (s : State) : Host.Outcome State Fault Refusal :=
  vecArith1 st.val d a m arLog2 latVar s

/-- VCLZ (R142): leading zeros. -/
def execVclz (st : Fin 8) (d a : Fin 64) (m : Fin 8) (s : State) : Host.Outcome State Fault Refusal :=
  vecArith1 st.val d a m arClz (latAll 2) s

/-- VPOPC (R142): one bits. -/
def execVpopc (st : Fin 8) (d a : Fin 64) (m : Fin 8) (s : State) : Host.Outcome State Fault Refusal :=
  vecArith1 st.val d a m arPopc (latAll 2) s

/-- VSLL (R143): shift left by y mod W. -/
def execVsll (st : Fin 8) (d a b : Fin 64) (m : Fin 8) (s : State) : Host.Outcome State Fault Refusal :=
  vecArith st.val d a b m arSll false (latAll 2) s

/-- VSRL (R143): shift right by y mod W, zeros in. -/
def execVsrl (st : Fin 8) (d a b : Fin 64) (m : Fin 8) (s : State) : Host.Outcome State Fault Refusal :=
  vecArith st.val d a b m arSrl false (latAll 2) s

/-- VSRA (R143): shift right by y mod W, sign bits in. -/
def execVsra (st : Fin 8) (d a b : Fin 64) (m : Fin 8) (s : State) : Host.Outcome State Fault Refusal :=
  vecArith st.val d a b m arSra false (latAll 2) s

/-- VROL (R143): rotate left by y mod W. -/
def execVrol (st : Fin 8) (d a b : Fin 64) (m : Fin 8) (s : State) : Host.Outcome State Fault Refusal :=
  vecArith st.val d a b m arRol false (latAll 2) s

/-- VSCL (R141): x × 2^k, k the element of V[b] as a signed integer of width W. -/
def execVscl (st : Fin 8) (d a b : Fin 64) (m : Fin 8) (s : State) : Host.Outcome State Fault Refusal :=
  vecOp st.val { srcs := [a, b], dst := some d, m := m } (s.vtBad tyFloat || s.rndBad) (some 4) true
    (fun s rd old =>
      let t := s.vt
      let w := tyWidth t
      let x := (rd a).toNat
      let y := (rd b).toNat
      mapMasked old w (s.rm m) (fun e =>
        (fmtOf t).encode s.round e (vScale (decodeTy t (elemN x w e)) (sextNat w (elemN y w e))))) s

/-! ### Logic per lane (R143, R151) -/

/-- A bitwise instruction: the mask applies per lane, and VT is not read. -/
def vecLogic (st : Nat) (d a b : Fin 64) (m : Fin 8) (f : Lane → Lane → Lane) (s : State) :
    Host.Outcome State Fault Refusal :=
  vecOp st { srcs := [a, b], dst := some d, m := m } false (some 2) false
    (fun s rd old =>
      mapMasked old 32 (s.rm m) (fun j =>
        (f (BitVec.ofNat 32 (lane (rd a) j)) (BitVec.ofNat 32 (lane (rd b) j))).toNat)) s

/-- VAND (R143): a & b. -/
def execVand (st : Fin 8) (d a b : Fin 64) (m : Fin 8) (s : State) : Host.Outcome State Fault Refusal :=
  vecLogic st.val d a b m (fun x y => x &&& y) s

/-- VOR (R143): a | b. -/
def execVor (st : Fin 8) (d a b : Fin 64) (m : Fin 8) (s : State) : Host.Outcome State Fault Refusal :=
  vecLogic st.val d a b m (fun x y => x ||| y) s

/-- VXOR (R143): a ^ b. -/
def execVxor (st : Fin 8) (d a b : Fin 64) (m : Fin 8) (s : State) : Host.Outcome State Fault Refusal :=
  vecLogic st.val d a b m (fun x y => x ^^^ y) s

/-- VANDN (R143): a & ~b. -/
def execVandn (st : Fin 8) (d a b : Fin 64) (m : Fin 8) (s : State) : Host.Outcome State Fault Refusal :=
  vecLogic st.val d a b m (fun x y => x &&& ~~~y) s

/-- Lanes copied under a mask (R151). -/
def vecMove (st : Nat) (d a : Fin 64) (m : Fin 8) (s : State) : Host.Outcome State Fault Refusal :=
  vecOp st { srcs := [a], dst := some d, m := m } false (some 2) false
    (fun s rd old => mapMasked old 32 (s.rm m) (fun j => lane (rd a) j)) s

/-- VMOV (R151). -/
def execVmov (st : Fin 8) (d a : Fin 64) (m : Fin 8) (s : State) : Host.Outcome State Fault Refusal :=
  vecMove st.val d a m s

/-- Short VADD (R89): m = 0. -/
def execVaddShort (st : Fin 4) (x y : Fin 16) (s : State) : Host.Outcome State Fault Refusal :=
  vecArith st.val (r64 x) (r64 x) (r64 y) 0 arAdd false (latIF 2 4) s

/-- Short VMUL (R89): m = 0. -/
def execVmulShort (st : Fin 4) (x y : Fin 16) (s : State) : Host.Outcome State Fault Refusal :=
  vecArith st.val (r64 x) (r64 x) (r64 y) 0 arMul false (latAll 4) s

/-- Short VMOV (R89): m = 0. -/
def execVmovShort (st : Fin 4) (x y : Fin 16) (s : State) : Host.Outcome State Fault Refusal :=
  vecMove st.val (r64 x) (r64 y) 0 s

/-! ### VDOT4 and VSAD (R144) -/

/-- The sum over the four bytes of a lane. -/
def dotLane (f : Nat → Nat → Int) (x y : Nat) : Int :=
  (List.range 4).foldl (fun acc t => acc + f (elemN x 8 t) (elemN y 8 t)) 0

/-- Lanes of 32 bits accumulated (R144): `t` is the lane's type. -/
def vecDot (st : Nat) (d a b : Fin 64) (m : Fin 8) (ill : Bool) (t : Nat) (f : State → Nat → Nat → Int) (s : State) :
    Host.Outcome State Fault Refusal :=
  vecOp st { srcs := [a, b], dst := some d, rdDst := true, m := m } ill (some 4) false
    (fun s rd old =>
      mapMasked old 32 (s.rm m) (fun j =>
        putInt t (oSAT s.o0) (intOf t (lane old j) + dotLane (f s) (lane (rd a) j) (lane (rd b) j)))) s

/-- INT8 or UINT8. -/
def tyByte (t : Nat) : Bool := t == 0 || t == 1

/-- VDOT4 (R144). -/
def execVdot4 (st : Fin 8) (d a b : Fin 64) (m : Fin 8) (s : State) : Host.Outcome State Fault Refusal :=
  vecDot st.val d a b m (s.vtBad tyByte || s.vt2Bad tyByte) 4 (fun s x y => intOf s.vt x * intOf s.vt2 y) s

/-- VSAD (R144). -/
def execVsad (st : Fin 8) (d a b : Fin 64) (m : Fin 8) (s : State) : Host.Outcome State Fault Refusal :=
  vecDot st.val d a b m (s.vtBad (· == 1)) 5 (fun _ x y => (((x : Int) - (y : Int)).natAbs : Int)) s

/-! ### Compares (R145) -/

/-- The result bits of element e of N. -/
def cmpBits (n e : Nat) : Nat := if n = 32 then 2 ^ e else 3 * 2 ^ (2 * e)

/-- A compare: an element that the mask does not govern gives 0. -/
def vecCmp (st : Nat) (d : Fin 8) (a b : Fin 64) (m : Fin 8) (f : Val → Val → Bool) (s : State) :
    Host.Outcome State Fault Refusal :=
  let u : VUse := { srcs := [a, b], m := m }
  issue (u.gate st (s.vtBad tyCmp) [] s)
    (vecRun u none (fun rd => do
      let s ← get
      let t := s.vt
      let w := tyWidth t
      let n := 1024 / w
      let bits := (List.range n).foldl (fun acc e =>
        if governed (s.rm m) n e && f (decodeTy t (elem (rd a) w e)) (decodeTy t (elem (rd b) w e)) then
          acc + cmpBits n e
        else acc) 0
      upd fun s => s.laterM d (BitVec.ofNat 32 bits) (if tyFloat t then 4 else 2)
      pure none)) s

/-- VCEQ (R145). -/
def execVceq (st : Fin 8) (d : Fin 8) (a b : Fin 64) (m : Fin 8) (s : State) : Host.Outcome State Fault Refusal :=
  vecCmp st.val d a b m vEq s
/-- VCNE (R145): true of a NaN. -/
def execVcne (st : Fin 8) (d : Fin 8) (a b : Fin 64) (m : Fin 8) (s : State) : Host.Outcome State Fault Refusal :=
  vecCmp st.val d a b m (fun x y => !vEq x y) s
/-- VCLT (R145). -/
def execVclt (st : Fin 8) (d : Fin 8) (a b : Fin 64) (m : Fin 8) (s : State) : Host.Outcome State Fault Refusal :=
  vecCmp st.val d a b m vLt s
/-- VCLE (R145). -/
def execVcle (st : Fin 8) (d : Fin 8) (a b : Fin 64) (m : Fin 8) (s : State) : Host.Outcome State Fault Refusal :=
  vecCmp st.val d a b m (fun x y => vLt x y || vEq x y) s

/-! ### Conversions (R64, R65, R146) -/

/-- Whether VCVT accepts a pair (R64). -/
def cvtPair (a b : Nat) : Bool :=
  let ok (t : Nat) : Bool := tyIntAll t || tyFloatAll t
  (ok a && ok b) || (a == 17 && b == 10) || (a == 10 && b == 17)

/-- Whether a conversion rounds (R60). -/
def cvtRounds (a b : Nat) : Bool := a != 17 && b != 17 && (tyFloatAll a || tyFloatAll b)

/-- An element of type a converted to type b (R65). -/
def cvtElem (a b : Nat) (r : Rnd) (n x : Nat) : Nat := encodeTy b r n (tyIntAll a) (decodeTy a x)

def State.cvtBad (s : State) : Bool :=
  s.vtBad (fun a => cvtPair a s.vt2) || s.vt2Bad (fun _ => true) || (cvtRounds s.vt s.vt2 && s.rndBad)

/-- The converted register: segment q, with `keep` for what lies outside the elements written (R146). -/
def cvtReg (s : State) (q : Nat) (m : BitVec 32) (x old : VReg) (keep : Bool) : VReg :=
  let a := s.vt
  let b := s.vt2
  let ws := tyWidth a
  let wt := tyWidth b
  let n := 1024 / max ws wt
  let at_ := if wt ≤ ws then q * n else 0
  let xn := x.toNat
  let on := old.toNat
  ofElems wt ((List.range (1024 / wt)).map (fun i =>
    let e := i - at_
    if at_ ≤ i && e < n then
      (if governed m n e then
         cvtElem a b s.round i (tyRaw a (elemN xn ws (if ws ≤ wt then q * n + e else e)))
       else elemN on wt i)
    else if keep then elemN on wt i else 0))

/-- Segments of a conversion: Wmax / Wmin. -/
def cvtSegs (a b : Nat) : Nat := max (tyWidth a) (tyWidth b) / min (tyWidth a) (tyWidth b)

/-- VCVT (R146). -/
def execVcvt (st : Fin 8) (d a : Fin 64) (m : Fin 8) (s : State) : Host.Outcome State Fault Refusal :=
  vecOp st.val { srcs := [a], dst := some d, m := m } s.cvtBad (some 3) (cvtRounds s.vt s.vt2)
    (fun s rd old => cvtReg s 0 (s.rm m) (rd a) old false) s

/-- VCVTS (R146). -/
def execVcvts (st : Fin 8) (d a b : Fin 64) (m : Fin 8) (s : State) : Host.Outcome State Fault Refusal :=
  vecOp st.val { srcs := [a, b], dst := some d, rdDst := true, m := m } s.cvtBad (some 3) (cvtRounds s.vt s.vt2)
    (fun s rd old => cvtReg s (lane (rd b) 0 % cvtSegs s.vt s.vt2) (s.rm m) (rd a) old true) s

/-! ### Packing (R147, R148) -/

/-- Bytes of an MX block's codes, and blocks of a register (R52, R147). -/
def mxSz (t : Nat) : Nat := if t = 16 then 16 else if t = 14 || t = 15 then 24 else 32
def mxBmax (t : Nat) : Nat := 128 / (mxSz t + 1)

/-- n bits at lo replaced. -/
def putField (x lo n v : Nat) : Nat := x % 2 ^ lo + v % 2 ^ n * 2 ^ lo + x / 2 ^ (lo + n) * 2 ^ (lo + n)

/-- Types VPACK and VUNPK accept. -/
def tyPackVal (t : Nat) : Bool := t == 8 || t == 9 || t == 10
def tyPacked (t : Nat) : Bool := tyMx t || t == 18

/-- Code e of MX block q in a register image, and the block's scale (R46, R147). -/
def mxCode (t x q e : Nat) : Nat := x / 2 ^ (8 * (q * mxSz t) + tyMemBits t * e) % 2 ^ tyMemBits t
def mxScale (x q : Nat) : Nat := elemN x 8 (127 - q)

/-- VPACK's register (R148). -/
def packReg (s : State) (x hdr old : VReg) : VReg :=
  let t := s.vt
  let vs := (List.range 32).map (fun e => decodeTy t (elem x (tyWidth t) e))
  if s.vt2 = 18 then
    let q := lane hdr 2 % 8
    let sb := elemN (lane hdr 1) 8 (q / 2)
    BitVec.ofNat 1024 (putField old.toNat (128 * q) 128 (joinElems 4 (vs.map (q4nCode (lane hdr 0) sb))))
  else
    let q := lane hdr 0 % mxBmax s.vt2
    let p := mxPack s.vt2 s.round id vs
    let sz := mxSz s.vt2
    BitVec.ofNat 1024 (putField (putField old.toNat (8 * (q * sz)) (8 * sz) (joinElems (tyMemBits s.vt2) p.2))
      (8 * (127 - q)) 8 p.1)

/-- VUNPK's register (R148): it does not read SAT (R139). DESIGN CHOICE (log 48): that the bytes no block uses are zero after
VUNPK reads (R147) changes no register here; VUNPK writes V[d] alone. -/
def unpackReg (s : State) (x hdr : VReg) : VReg :=
  let t := s.vt
  let xn := x.toNat
  let r : Rnd := { s.round with sat := false }
  let value (e : Nat) : Val :=
    if s.vt2 = 18 then
      let q := lane hdr 2 % 8
      q4nVal (lane hdr 0) (elemN (lane hdr 1) 8 (q / 2)) (elemN xn 4 (32 * q + e))
    else
      let q := lane hdr 0 % mxBmax s.vt2
      mxVal s.vt2 (mxCode s.vt2 xn q e) (mxScale xn q)
  ofElems (tyWidth t) ((List.range 32).map (fun e => encodeTy t r e false (value e)))

def State.packBad (s : State) : Bool := s.vtBad tyPackVal || s.vt2Bad tyPacked

/-- VPACK (R148). -/
def execVpack (st : Fin 8) (d a b : Fin 64) (s : State) : Host.Outcome State Fault Refusal :=
  vecOp st.val { srcs := [a, b], dst := some d, rdDst := true } (s.packBad || (tyMx s.vt2 && s.rndBad)) (some 3)
    (tyMx s.vt2) (fun s rd old => packReg s (rd a) (rd b) old) s

/-- VUNPK (R148). -/
def execVunpk (st : Fin 8) (d a b : Fin 64) (s : State) : Host.Outcome State Fault Refusal :=
  vecOp st.val { srcs := [a, b], dst := some d } (s.packBad || s.rndBad) (some 3) true
    (fun s rd _ => unpackReg s (rd a) (rd b)) s

/-! ### Permutes and slides (R149) -/

/-- A permute or slide: `f` gives element e from the width, the sources and the old destination. -/
def vecPerm (st : Nat) (d a b : Fin 64) (m : Fin 8) (rdD : Bool)
    (f : Nat → Nat → (Nat → Nat) → (Nat → Nat) → (Nat → Nat) → Nat → Nat) (s : State) : Host.Outcome State Fault Refusal :=
  vecOp st { srcs := [a, b], dst := some d, rdDst := rdD, m := m } (s.vtBad tyMove) (some 3) false
    (fun s rd old =>
      let t := s.vt
      let w := tyWidth t
      let n := 1024 / w
      let x := (rd a).toNat
      let y := (rd b).toNat
      let z := old.toNat
      mapMasked old w (s.rm m)
        (f n (elemN y 32 0) (fun e => tyRaw t (elemN x w e)) (fun e => tyRaw t (elemN y w e))
          (fun e => tyRaw t (elemN z w e)))) s

/-- VPERM (R149). -/
def execVperm (st : Fin 8) (d a b : Fin 64) (m : Fin 8) (s : State) : Host.Outcome State Fault Refusal :=
  vecPerm st.val d a b m false (fun n _ x y _ e => if y e < n then x (y e) else 0) s

/-- VSHUF (R149). -/
def execVshuf (st : Fin 8) (d a b : Fin 64) (m : Fin 8) (s : State) : Host.Outcome State Fault Refusal :=
  vecPerm st.val d a b m true
    (fun n _ x y z e => if z e < n then x (z e) else if z e < 2 * n then y (z e - n) else 0) s

/-- VSLDU (R149). -/
def execVsldu (st : Fin 8) (d a b : Fin 64) (m : Fin 8) (s : State) : Host.Outcome State Fault Refusal :=
  vecPerm st.val d a b m false (fun _ k x _ _ e => if k ≤ e then x (e - k) else 0) s

/-- VSLDD (R149). -/
def execVsldd (st : Fin 8) (d a b : Fin 64) (m : Fin 8) (s : State) : Host.Outcome State Fault Refusal :=
  vecPerm st.val d a b m false (fun n k x _ _ e => if e + k < n then x (e + k) else 0) s

/-! ### Mask operands (R150) -/

/-- VMRG (R150): the mask chooses, and every lane is written. -/
def execVmrg (st : Fin 8) (d a b : Fin 64) (m : Fin 8) (s : State) : Host.Outcome State Fault Refusal :=
  vecOp st.val { srcs := [a, b], dst := some d, m := m } false (some 2) false
    (fun s rd _ => mapMasked (rd b) 32 (s.rm m) (fun j => lane (rd a) j)) s

/-- VCMPR (R150). -/
def execVcmpr (st : Fin 8) (d a : Fin 64) (m : Fin 8) (s : State) : Host.Outcome State Fault Refusal :=
  vecOp st.val { srcs := [a], dst := some d, m := m } (s.vtBad ty3264) (some 3) false
    (fun s rd _ =>
      let w := tyWidth s.vt
      let n := 1024 / w
      ofElems w (((List.range n).filter (governed (s.rm m) n)).map (elem (rd a) w))) s

/-- VIOTA (R150). -/
def execViota (st : Fin 8) (d : Fin 64) (m : Fin 8) (s : State) : Host.Outcome State Fault Refusal :=
  vecOp st.val { dst := some d, m := m } false (some 2) false
    (fun s _ _ => ofElems 32 ((List.range 32).map (fun j => popcNat (s.rm m).toNat j))) s

/-- VMCNT (R150). -/
def execVmcnt (st : Fin 8) (d : Fin 64) (m : Fin 8) (s : State) : Host.Outcome State Fault Refusal :=
  vecOp st.val { dst := some d, m := m } false (some 2) false
    (fun s _ _ => ofElems 32 (List.replicate 32 (popcNat (s.rm m).toNat 32))) s

/-! ### Reductions (R152) -/

/-- One level of the tree: neighbours combined. -/
def pairUp {α : Type} (f : α → α → α) : List α → List α
  | x :: y :: r => f x y :: pairUp f r
  | r => r

/-- The tree of R152 over 2^k values. -/
def treeOf {α : Type} (f : α → α → α) : Nat → List α → List α
  | 0, xs => xs
  | k + 1, xs => treeOf f k (pairUp f xs)

/-- A reduction's operation: on integers and on floating values (with a rounding for sums), the identities, whether
magnitudes are taken, and whether SAT applies. -/
structure Redn where
  int : Int → Int → Int
  idI : Nat → Int
  flt : Rnd → Nat → Val → Val → Val
  idF : Val
  mag : Bool := false
  sum : Bool := false

/-- The reduced element 0 (R152). -/
def Redn.result (f : Redn) (s : State) (m : BitVec 32) (x y : VReg) : Nat :=
  let t := s.vt
  let w := tyWidth t
  let n := 1024 / w
  let xn := x.toNat
  let k := Nat.log2 n
  if tyInt t then
    let get (r : Nat) : Int := if f.mag then ((intOf t r).natAbs : Int) else intOf t r
    let vs := (List.range n).map (fun e => if governed m n e then get (elemN xn w e) else f.idI t)
    let r := f.int ((treeOf f.int k vs).headD 0) (get (elem y w 0))
    putInt t (f.sum && oSAT s.o0) r
  else
    let get (r : Nat) : Val := if f.mag then vAbs (decodeTy t r) else decodeTy t r
    let rd : Rnd := { s.round with sat := false }
    let op := f.flt rd t
    let vs := (List.range n).map (fun e => if governed m n e then get (elemN xn w e) else f.idF)
    (fmtOf t).encode rd 0 (op ((treeOf op k vs).headD f.idF) (get (elem y w 0)))

/-- A reduction (R152): it writes element 0 and clears the rest. -/
def vecRed (st : Nat) (d a b : Fin 64) (m : Fin 8) (f : Redn) (s : State) : Host.Outcome State Fault Refusal :=
  let rounds := f.sum && tyFloat s.vt
  vecOp st { srcs := [a, b], dst := some d, m := m } (s.vtBad tyNum || (rounds && s.rndBad)) (some 6) rounds
    (fun s rd _ => BitVec.ofNat 1024 (f.result s (s.rm m) (rd a) (rd b))) s

def rdSum : Redn :=
  { int := fun x y => x + y, idI := fun _ => 0, idF := .fin true 0 0, sum := true
    flt := fun r t x y => decodeTy t ((fmtOf t).encode r 0 (vAdd r.mode x y)) }
def rdMax : Redn :=
  { int := fun x y => max x y, idI := tyMin, idF := .inf true, flt := fun _ _ x y => vMax x y }
def rdMin : Redn :=
  { int := fun x y => min x y, idI := tyMax, idF := .inf false, flt := fun _ _ x y => vMin x y }
def rdAmax : Redn :=
  { int := fun x y => max x y, idI := fun _ => 0, idF := .fin false 0 0, flt := fun _ _ x y => vMax x y, mag := true }

/-- VRSUM (R152). -/
def execVrsum (st : Fin 8) (d a b : Fin 64) (m : Fin 8) (s : State) : Host.Outcome State Fault Refusal :=
  vecRed st.val d a b m rdSum s
/-- VRMAX (R152). -/
def execVrmax (st : Fin 8) (d a b : Fin 64) (m : Fin 8) (s : State) : Host.Outcome State Fault Refusal :=
  vecRed st.val d a b m rdMax s
/-- VRMIN (R152). -/
def execVrmin (st : Fin 8) (d a b : Fin 64) (m : Fin 8) (s : State) : Host.Outcome State Fault Refusal :=
  vecRed st.val d a b m rdMin s
/-- VRAMAX (R152). -/
def execVramax (st : Fin 8) (d a b : Fin 64) (m : Fin 8) (s : State) : Host.Outcome State Fault Refusal :=
  vecRed st.val d a b m rdAmax s

/-! ### Moves between register kinds (R153) -/

/-- VMOVS (R153): an element into a c register at latency 2. -/
def execVmovs (st : Fin 8) (d : Fin 32) (a : Fin 64) (b : Fin 32) (s : State) : Host.Outcome State Fault Refusal :=
  let u : VUse := { srcs := [a] }
  issue (u.gate st.val (s.vtBad tyMove) [rdC b] s)
    (vecRun u none (fun rd => do
      let s ← get
      let t := s.vt
      let w := tyWidth t
      let x := tyRaw t (elem (rd a) w ((s.rx b).toNat % (1024 / w)))
      upd fun s => s.laterX d (if tySigned t then BitVec.ofInt 64 (sextNat w x) else BitVec.ofNat 64 x) 2
      pure none)) s

/-- VMOVX (R153): every element at latency 2. -/
def execVmovx (st : Fin 8) (d : Fin 64) (a : Fin 32) (s : State) : Host.Outcome State Fault Refusal :=
  let u : VUse := { dst := some d }
  issue (u.gate st.val (s.vtBad tyMove) [rdC a] s)
    (vecRun u (some 2) (fun _ => do
      let s ← get
      let w := tyWidth s.vt
      pure (some (ofElems w (List.replicate (1024 / w) (tyRaw s.vt (s.rx a).toNat)))))) s

/-- VINS (R153): one element at latency 2. -/
def execVins (st : Fin 8) (d : Fin 64) (a b : Fin 32) (s : State) : Host.Outcome State Fault Refusal :=
  let u : VUse := { dst := some d, rdDst := true }
  issue (u.gate st.val (s.vtBad tyMove) [rdC a, rdC b] s)
    (vecRun u (some 2) (fun rd => do
      let s ← get
      let w := tyWidth s.vt
      let i := (s.rx b).toNat % (1024 / w)
      pure (some (BitVec.ofNat 1024 (putField (rd d).toNat (w * i) w (tyRaw s.vt (s.rx a).toNat)))))) s

/-- MSET (R153). -/
def execMset (st : Fin 8) (d : Fin 8) (a : Fin 32) (s : State) : Host.Outcome State Fault Refusal :=
  issue { st := st.val, ill := s.helper, reads := [rdC a] } (upd fun s => s.wm d ((s.rx a).truncate 32)) s

/-- MGET (R153). -/
def execMget (st : Fin 8) (d : Fin 32) (a : Fin 8) (s : State) : Host.Outcome State Fault Refusal :=
  issue { st := st.val, ill := s.helper, reads := [rdM a] } (upd fun s => s.wx d ((s.rm a).zeroExtend 64)) s

/-- GSET (R153). -/
def execGset (st : Fin 8) (d : Fin 16) (a : Fin 32) (s : State) : Host.Outcome State Fault Refusal :=
  issue { st := st.val, ill := s.helper, reads := [rdC a] } (upd fun s => s.wg d ((s.rx a).getLsbD 0)) s

/-- GGET (R153). -/
def execGget (st : Fin 8) (d : Fin 32) (a : Fin 16) (s : State) : Host.Outcome State Fault Refusal :=
  issue { st := st.val, ill := s.helper, reads := [rdG a] } (upd fun s => s.wx d (wb (s.rg a))) s

/-- OSET (R153): valid in every context; nothing is checked. -/
def execOset (st : Fin 8) (d : Fin 8) (a : Fin 32) (s : State) : Host.Outcome State Fault Refusal :=
  issue { st := st.val, reads := [rdC a] } (upd fun s => s.wo d (s.rx a)) s

/-- OGET (R153). -/
def execOget (st : Fin 8) (d : Fin 32) (a : Fin 8) (s : State) : Host.Outcome State Fault Refusal :=
  issue { st := st.val, reads := [rdO a] } (upd fun s => s.wx d (s.ro a)) s

end Sys2Proof.Machine
end

