-- ==== Sys2Proof/Machine/VecMem.lean ====
section
/-! DEFINITION. Vector memory: majors 0x11 and 0x12 (R155, R156, R265 to R276). -/

namespace Sys2Proof.Machine

/-! ### Many accesses checked together (R265) -/

/-- One element's access: its index and exact address. -/
structure VElem where
  e : Nat
  a : Int
deriving DecidableEq, Repr

/-- The smallest of some integers. -/
def minInt : List Int → Option Int
  | [] => none
  | x :: xs =>
    match minInt xs with
    | none => some x
    | some y => some (if x < y then x else y)

/-- An item put in its place by a key. -/
def insertBy {α : Type} (key : α → Int) (x : α) : List α → List α
  | [] => [x]
  | y :: ys => if key x < key y then x :: y :: ys else y :: insertBy key x ys

/-- Items in ascending order of a key. -/
def sortBy {α : Type} (key : α → Int) (xs : List α) : List α := xs.foldr (insertBy key) []

/-- A trap at the lowest address among those that fail a test. -/
def needAll (as : List Int) (ok : Int → Bool) (c : Cause) : Op Unit :=
  match minInt (as.filter (fun a => !ok a)) with
  | some a => raise c a
  | none => pure ()

/-- The lowest byte of an access outside a capability's bounds (R265). -/
def lowestOut (c : Cap) (a : Int) : Int := if a < capBase c then a else max a (capTop c)

/-- CAP_BOUNDS at the lowest byte outside of all accesses of `n` bytes (R265). -/
def boundsAll (c : Cap) (n : Nat) (as : List Int) : Op Unit :=
  match minInt ((as.filter (fun a => !(decide (capBase c ≤ a) && decide (a + n ≤ capTop c)))).map (lowestOut c)) with
  | some a => raise .capBounds a
  | none => pure ()

/-- Pieces of elements of `n` bytes each, in the order given. -/
def elemSegs (w : Who) (k : Acc) (n : Nat) : List VElem → Op (List (Nat × List Seg))
  | [] => pure []
  | x :: xs => do
    let gs ← segsOf w k (pieces (addr80 x.a) n)
    let rest ← elemSegs w k n xs
    pure ((x.e, gs) :: rest)

/-- UE and watchpoints over elements, lowest address first (R115, R230). -/
def elemLast (k : Acc) (n : Nat) : List VElem → List (Nat × List Seg) → Op Unit
  | x :: xs, g :: gs => do
    goodNeed k g.2
    watchNeed k (addr80 x.a) n
    elemLast k n xs gs
  | _, _ => pure ()

/-- Element accesses of `n` bytes each checked by R115, each check over all of them before the next, with TVAL at the
lowest faulting byte (R265); their pieces by ascending element. -/
def accessMany (c : Cap) (ps : List Nat) (xs : List VElem) (n align : Nat) (k : Acc) : Op (List (Nat × List Seg)) := do
  let as := xs.map (·.a)
  needAll as (fun _ => capValid c) .capTag
  needAll as (fun _ => capHasAll c ps) .capPerm
  boundsAll c n as
  needAll as (fun a => a % (align : Int) = 0) .align
  let ys := sortBy (·.a) xs
  let gs ← elemSegs ((← get).who c) k n ys
  elemLast k n ys gs
  pure (sortBy (fun p => (p.1 : Int)) gs)

/-- The pieces of elements one behind the other. -/
def elemPieces (gs : List (Nat × List Seg)) : List Seg := gs.flatMap (·.2)

/-- The values of elements of `n` bytes, each with its index, from their bytes one behind the other. -/
def elemVals (n : Nat) : List (Nat × List Seg) → List Byte → List (Nat × Nat)
  | [], _ => []
  | g :: gs, bs => (g.1, leNat (bs.take n)) :: elemVals n gs (bs.drop n)

/-- The bytes of elements of `n` bytes, one behind the other. -/
def elemBytes (n : Nat) (val : Nat → Nat) (gs : List (Nat × List Seg)) : List Byte := gs.flatMap (fun g => leBytes n (val g.1))

/-- The `n` bytes at offset `o` of some pieces. -/
def segAt (o n : Nat) : List Seg → Option Seg
  | [] => none
  | g :: gs =>
    if o < g.len then some { g with va := g.va + o, place := g.place + o, len := n } else segAt (o - g.len) n gs

/-! ### VLD to VSTX (R265, R266) -/

/-- A mask register named by o0.VMSK (R265). -/
def State.vmsk (s : State) : Fin 8 := ⟨oVMSK s.o0 % 8, Nat.mod_lt _ (by decide)⟩

/-- Elements of width w that the mask governs. -/
def State.governedElems (s : State) (w : Nat) : List Nat :=
  (List.range (1024 / w)).filter (governed (s.rm s.vmsk) (1024 / w))

/-- Lanes of an image that the mask governs: a 64-bit element's two lanes by one bit (R138). -/
def State.governedLanes (s : State) : List Nat :=
  (List.range 32).filter (fun j => (s.rm s.vmsk).getLsbD (if tyWidth s.vt = 64 then j / 2 * 2 else j))

/-- ILLEGAL of VLD and VST: VT is read only under a mask. -/
def State.imageBad (s : State) : Bool :=
  !o0ok s.o0 || (s.vmsk ≠ 0 && s.vtBad (fun t => t < 23 && tyWidth t ≠ 0))

/-- ILLEGAL of the strided and the indexed forms. -/
def State.strideBad (s : State) : Bool := s.vtBad tyMove
def State.indexBad (s : State) : Bool := s.vtBad ty3264

/-- Where a vector access takes its elements: bytes per element, alignment, and the elements. -/
structure VPlan where
  n     : Nat
  align : Nat
  xs    : List VElem

/-- The image at an address: whole, or its governed lanes. -/
def State.imagePlan (s : State) (a : Int) : VPlan :=
  if s.vmsk = 0 then ⟨128, 4, [⟨0, a⟩]⟩ else ⟨4, 4, s.governedLanes.map (fun j => ⟨j, a + 4 * j⟩)⟩

/-- Elements at a stride. -/
def State.stridePlan (s : State) (a stride : Int) : VPlan :=
  let w := tyWidth s.vt
  ⟨w / 8, if w = 8 then 1 else w / 8, (s.governedElems w).map (fun e => ⟨e, a + e * stride⟩)⟩

/-- Elements at the byte offsets of a register's lanes. -/
def State.indexPlan (s : State) (a : Int) (idx : VReg) : VPlan :=
  let w := tyWidth s.vt
  ⟨w / 8, w / 8, (s.governedElems w).map (fun e => ⟨e, a + sextNat 32 (lane idx e)⟩)⟩

/-- A loaded register: the elements loaded over an old value. -/
def putElems (old : VReg) (n : Nat) (got : List (Nat × Nat)) : VReg :=
  BitVec.ofNat 1024 (got.foldl (fun x p => putField x (8 * n * p.1) (8 * n) p.2) old.toNat)

/-- Single-access size of an element: 4 bytes at most (R265). -/
def VPlan.esz (p : VPlan) : Nat := min p.n 4

/-- A vector load (R265). DESIGN CHOICE (log 5): its elements are loaded in ascending order, although R279 lets them take any among
themselves. Where an index comes from a port its accesses follow one another at once. -/
def vecLoad (st : Nat) (d : Fin 64) (a : Fin 32) (srcs : List (Fin 64)) (reads : List (RegFile × Nat)) (ill : Bool)
    (plan : State → (Fin 64 → VReg) → VPlan) (s : State) : Host.Outcome State Fault Refusal :=
  let u : VUse := { srcs := srcs, dst := some d }
  issue (u.gate st ill ([rdC a, rdM s.vmsk] ++ reads) s)
    (vecRun u none (fun rd => do
      let s ← get
      let p := plan s rd
      await (s.vmsk = 0 || !s.varPending (rdV d))
      let gs ← accessMany (s.rc a) [pL] p.xs p.n p.align .load
      let bs ← if srcs.any s.boundPort then loadSegs (elemPieces gs) p.esz else loadParts (elemPieces gs) p.esz
      pure (some (putElems (s.mergeV d) p.n (elemVals p.n gs bs))))) s

/-- A vector store (R265): in ascending element order. -/
def vecStore (st : Nat) (d : Fin 64) (a : Fin 32) (srcs : List (Fin 64)) (reads : List (RegFile × Nat)) (ill : Bool)
    (plan : State → (Fin 64 → VReg) → VPlan) (s : State) : Host.Outcome State Fault Refusal :=
  let u : VUse := { srcs := srcs, data := some d }
  issue (u.gate st ill ([rdC a, rdM s.vmsk] ++ reads) s)
    (vecRun u none (fun rd => do
      let s ← get
      let p := plan s rd
      let gs ← accessMany (s.rc a) [pS] p.xs p.n p.align .store
      let x := (s.rv d).toNat
      let bs := elemBytes p.n (fun e => elemN x (8 * p.n) e) gs
      if srcs.any s.boundPort then upd fun s => s.storeSegs p.esz (elemPieces gs) bs else storeParts (elemPieces gs) p.esz bs
      pure none)) s

/-- VLD (R266). -/
def execVld (st : Fin 8) (d : Fin 64) (a : Fin 32) (s : State) : Host.Outcome State Fault Refusal :=
  vecLoad st.val d a [] [] s.imageBad (fun s _ => s.imagePlan (capA (s.rc a))) s

/-- VST (R266). -/
def execVst (st : Fin 8) (d : Fin 64) (a : Fin 32) (s : State) : Host.Outcome State Fault Refusal :=
  vecStore st.val d a [] [] s.imageBad (fun s _ => s.imagePlan (capA (s.rc a))) s

/-- VLDS (R266). -/
def execVlds (st : Fin 8) (d : Fin 64) (a b : Fin 32) (s : State) : Host.Outcome State Fault Refusal :=
  vecLoad st.val d a [] [rdC b] s.strideBad (fun s _ => s.stridePlan (capA (s.rc a)) (s.rx b).toInt) s

/-- VSTS (R266). -/
def execVsts (st : Fin 8) (d : Fin 64) (a b : Fin 32) (s : State) : Host.Outcome State Fault Refusal :=
  vecStore st.val d a [] [rdC b] s.strideBad (fun s _ => s.stridePlan (capA (s.rc a)) (s.rx b).toInt) s

/-- VLDX (R266). -/
def execVldx (st : Fin 8) (d : Fin 64) (a : Fin 32) (b : Fin 64) (s : State) : Host.Outcome State Fault Refusal :=
  vecLoad st.val d a [b] [] s.indexBad (fun s rd => s.indexPlan (capA (s.rc a)) (rd b)) s

/-- VSTX (R266). -/
def execVstx (st : Fin 8) (d : Fin 64) (a : Fin 32) (b : Fin 64) (s : State) : Host.Outcome State Fault Refusal :=
  vecStore st.val d a [b] [] s.indexBad (fun s rd => s.indexPlan (capA (s.rc a)) (rd b)) s

/-! ### VLDB (R267) -/

/-- ILLEGAL of VLDB: the packed type, NB for MX types, o2's reserved bits, and a b field for Q4N. -/
def State.vldbBad (s : State) (b : Fin 32) : Bool :=
  s.vt2Bad tyPacked || fld (s.ro 2) 4 60 ≠ 0 ||
  (if s.vt2 = 18 then decide (b ≠ 0)
   else fld (s.ro 2) 0 3 = 0 || decide (mxBmax s.vt2 < fld (s.ro 2) 0 3))

/-- The register VLDB writes for MX codes and scales (R147, R267). -/
def mxImage (codes scales : List Byte) : VReg :=
  BitVec.ofNat 1024 (leNat codes + leNat scales.reverse * 2 ^ (1024 - 8 * scales.length))

/-- The register VLDB writes from a Q4N superblock (R267). -/
def q4nImage (part : Bool) (bs : List Byte) : VReg :=
  BitVec.ofNat 1024 (leNat (if part then bs.take 8 else bs.drop 8))

/-- A block or superblock checked over its whole extent (R56): TVAL at its lowest faulting byte. -/
def blockAccess (c : Cap) (ps : List Nat) (a : Int) (n : Nat) (k : Acc) : Op (List Seg) := do
  blockNeed c ps a n 1
  access c ps a n 1 k

/-- VLDB (R267): codes are checked before scales. -/
def execVldb (st : Fin 8) (d : Fin 64) (a b : Fin 32) (s : State) : Host.Outcome State Fault Refusal :=
  let u : VUse := { dst := some d }
  issue (u.gate st.val (s.vldbBad b) [rdC a, rdC b] s)
    (vecRun u none (fun _ => do
      let s ← get
      if s.vt2 = 18 then
        let gs ← blockAccess (s.rc a) [pL] (capA (s.rc a)) 136 .load
        let bs ← loadSegs gs 4
        pure (some (q4nImage ((s.ro 2).getLsbD 3) bs))
      else
        let nb := fld (s.ro 2) 0 3
        let gc ← blockAccess (s.rc a) [pL] (capA (s.rc a)) (nb * mxSz s.vt2) .load
        let gx ← blockAccess (s.rc b) [pL] (capA (s.rc b)) nb .load
        let codes ← loadSegs gc 4
        let scales ← loadSegs gx 1
        pure (some (mxImage codes scales)))) s

/-! ### Tile headers (R268 to R271) -/

/-- A tile header's fields. -/
structure Hdr where
  base  : Cap
  rowv  : Nat
  fmt   : Nat
  rem   : Bool
  mx    : Bool
  peid  : Nat
  scoff : Int
  /-- A reserved bit is set. -/
  rsvd  : Bool
deriving DecidableEq, Repr

/-- The fields of the upper 16 bytes (R268). -/
def Hdr.of (base : Cap) (hi : Nat) : Hdr :=
  { base := base, rowv := hi % 2 ^ 32, fmt := hi / 2 ^ 32 % 32, rem := hi.testBit 40, mx := hi.testBit 41
    peid := hi / 2 ^ 64 % 2 ^ 24, scoff := sextNat 32 (hi / 2 ^ 96 % 2 ^ 32)
    rsvd := hi / 2 ^ 37 % 8 ≠ 0 || hi / 2 ^ 42 % 2 ^ 22 ≠ 0 || hi / 2 ^ 88 % 256 ≠ 0 }

/-- Whether a header is invalid (R269): `tile` for VLDT and VSTT. -/
def Hdr.bad (h : Hdr) (tile : Bool) : Bool :=
  h.rsvd || decide (23 ≤ h.fmt) || (18 ≤ h.fmt && h.fmt ≤ 21) || (tile && tyWidth h.fmt = 64) ||
  (h.mx && !tyMx h.fmt) || (tile && h.rem)

/-- The `n` bytes at offset `o` of some pieces, as pieces. -/
def segPart (o n : Nat) (gs : List Seg) : List Seg := (segAt o n gs).toList

/-- A header read through a capability with L and LC (R269): BASE with its tag as one access, ROWV and the rest in accesses of
4 bytes. -/
def readHdr (c : Cap) : Op Hdr := do
  let gs ← access c [pL, pLC] (capA c) 32 32 .load
  let base ← loadGranules (segPart 0 16 gs)
  let hi ← loadSegs (segPart 16 16 gs) 4
  pure (Hdr.of base (leNat hi))

/-- Bytes of a tile's row (R268). -/
def rowBytes (t : Nat) : Nat := 32 * tyMemBits t / 8

/-- o1.GRD (R82). -/
def State.grd (s : State) : Fin 16 := ⟨oGRD s.o1 % 16, Nat.mod_lt _ (by decide)⟩

/-- Whether a tile's row is a block of R56: an MX block with its scale byte, or one of 6-bit elements. -/
def Hdr.block (h : Hdr) : Bool := h.mx || tyMemBits h.fmt = 6

/-- The row and scale byte of a tile checked before either is touched (R115, R270); a block faults at the lowest byte of both
that fails a check (R56). -/
def tileAccess (h : Hdr) (r : Nat) (p : Nat) (k : Acc) : Op (List Seg × List Seg) := do
  let rb := rowBytes h.fmt
  let c := h.base
  let a : Int := (capA c : Int) + r * rb
  let x : Int := (capA c : Int) + h.scoff + r
  let row : Op (List Seg) := access c [p] a rb 1 k
  let scale : Op (List Seg) := access c [p] x 1 1 k
  if !h.block then return (← row, [])
  if h.mx then
    let inside (b n : Int) : Bool := decide (capBase c ≤ b) && decide (b + n ≤ capTop c)
    need (capValid c) .capTag (min a x)
    need (capHas c p) .capPerm (min a x)
    let out := (if inside a rb then [] else [if a < capBase c then a else max a (capTop c)]) ++ (if inside x 1 then [] else [x])
    match minInt out with
    | some b => raise .capBounds b
    | none => pure ()
    if x < a then
      let sc ← scale
      return (← row, sc)
    else
      let gs ← row
      return (gs, ← scale)
  else return (← blockAccess c [p] a rb k, [])

/-- The header and row number of VLDT and VSTT (R270). -/
def tileRow (a b : Fin 32) : Op (Hdr × Nat) := do
  let s ← get
  let r := (s.rx b).toNat
  if 32 ≤ r then throw (.trap s.illegal)
  let h ← readHdr (s.rc a)
  need (!h.bad true) .page (capA (s.rc a))
  pure (h, r)

/-- VLDT (R270). -/
def execVldt (st : Fin 8) (d : Fin 64) (a b : Fin 32) (s : State) : Host.Outcome State Fault Refusal :=
  let u : VUse := { dst := some d }
  issue (u.gate st.val (!o1ok s.o1) [rdC a, rdC b, rdG s.grd] s)
    (do
      if (← get).rg (← get).grd then
        vecRun u none (fun _ => do
          let (h, r) ← tileRow a b
          if h.rowv.testBit r then
            let (gs, sc) ← tileAccess h r pL .load
            let row ← loadSegs gs 4
            let x ← loadSegs sc 1
            pure (some (BitVec.ofNat 1024 (leNat row + leNat x * 2 ^ (8 * 127))))
          else pure (some 0))
      else pure ()) s

/-- VSTT (R270). -/
def execVstt (st : Fin 8) (d : Fin 64) (a b : Fin 32) (s : State) : Host.Outcome State Fault Refusal :=
  let u : VUse := { data := some d }
  issue (u.gate st.val (!o1ok s.o1) [rdC a, rdC b, rdG s.grd] s)
    (do
      if (← get).rg (← get).grd then
        vecRun u none (fun _ => do
          let (h, r) ← tileRow a b
          if h.rowv.testBit r then
            let (gs, sc) ← tileAccess h r pS .store
            let bs := vBytes ((← get).rv d)
            upd fun s => (s.storeSegs 4 gs (bs.take (rowBytes h.fmt))).storeSegs 1 sc (bs.drop 127)
          else pure ()
          pure none)
      else pure ()) s

/-- The upper 16 bytes of the header THDR writes (R271). -/
def State.thdrHi (s : State) : Nat :=
  fld (s.ro 2) 0 32 + s.vt * 2 ^ 32 + b2n ((s.ro 3).getLsbD 24) * 2 ^ 40 + b2n ((s.ro 3).getLsbD 25) * 2 ^ 41 +
    fld (s.ro 3) 0 24 * 2 ^ 64 + fld (s.ro 3) 32 32 * 2 ^ 96

/-- ILLEGAL of THDR: reserved bits, or a header that would be invalid (R271). -/
def State.thdrBad (s : State) : Bool :=
  fld (s.ro 2) 32 32 ≠ 0 || fld (s.ro 3) 26 6 ≠ 0 || s.vtBad (fun _ => true) || (Hdr.of Cap.null s.thdrHi).bad false

/-- THDR (R271). -/
def execThdr (st : Fin 8) (a b : Fin 32) (s : State) : Host.Outcome State Fault Refusal :=
  issue { st := st.val, ill := s.helper || s.thdrBad, reads := [rdC a, rdC b] }
    (do
      let s ← get
      let c := s.rc a
      let v := s.rc b
      let at_ := capA c
      capNeed c (if v.tag then [pS, pSC] else [pS]) at_ 32 32
      let gs ← segsOf (s.who c) .store (pieces at_ 32)
      if v.tag then noTagToHost gs
      watchNeed .store at_ 32
      upd fun s => (s.storeCapSegs (segAt 0 16 gs).toList v).storeSegs 16 (segAt 16 16 gs).toList (leBytes 16 s.thdrHi)) s

/-! ### Guards and row masks in memory (R272, R273) -/

/-- The rows TPRED reads: addresses of 32 rows (R272). -/
def predRows (a tr tc pitch : Nat) : List VElem :=
  (List.range 32).map (fun y => ⟨y, (a : Int) + ((32 * tr + y) * pitch + 4 * tc : Nat)⟩)

/-- TPRED (R272). -/
def execTpred (st : Fin 8) (d : Fin 16) (a b : Fin 32) (s : State) : Host.Outcome State Fault Refusal :=
  issue { st := st.val, ill := s.helper, reads := [rdC a, rdC b] }
    (do
      let s ← get
      let v := s.rx b
      let n := fld v 48 4
      if n = 0 || 15 < d.val + n - 1 || fld v 52 12 ≠ 0 then throw (.trap s.illegal)
      let c := s.rc a
      let rows ← accessMany c [pL] (predRows (capA c) (fld v 0 16) (fld v 16 16) (fld v 32 16)) (4 * n) 4 .load
      let got := elemVals (4 * n) rows (← loadSegs (elemPieces rows) 4)
      upd fun s => (List.range n).foldl (fun s t =>
        let on := got.any (fun p => elemN p.2 32 t ≠ 0)
        if h : d.val + t < 16 then s.wg ⟨d.val + t, h⟩ on else s) s) s

/-- Each header's ROWV updated by its word, in ascending order (R273). -/
def rowMasks (f : Nat → Nat → Nat) (gs : List Seg) (words : Nat) : List Nat → Op Unit
  | [] => pure ()
  | t :: ts => do
    let _ ← atomicSegs 4 (segAt (32 * t + 16) 4 gs).toList (fun old => some (f old (elemN words 32 t)))
    rowMasks f gs words ts

/-- TVCLR and TVSET (R273): both extents checked before the first update. -/
def rowEdit (st : Nat) (a b : Fin 32) (f : Nat → Nat → Nat) (s : State) : Host.Outcome State Fault Refusal :=
  let n := fld (s.ro 2) 0 11
  issue { st := st, ill := s.helper || fld (s.ro 2) 11 53 ≠ 0 || n = 0 || decide (1024 < n), reads := [rdC a, rdC b] }
    (do
      let s ← get
      let ga ← access (s.rc a) [pL, pS, pA] (capA (s.rc a)) (32 * n) 32 .atomic
      let gb ← access (s.rc b) [pL] (capA (s.rc b)) (4 * n) 4 .load
      let bs ← loadSegs gb 4
      rowMasks f ga (leNat bs) (List.range n)) s

/-- TVCLR (R273): ROWV & ~word. -/
def execTvclr (st : Fin 8) (a b : Fin 32) (s : State) : Host.Outcome State Fault Refusal :=
  rowEdit st.val a b (fun old w => old - (old &&& w)) s
/-- TVSET (R273): ROWV | word. -/
def execTvset (st : Fin 8) (a b : Fin 32) (s : State) : Host.Outcome State Fault Refusal :=
  rowEdit st.val a b (fun old w => old ||| w) s

/-! ### Stream ports (R155, R156) -/

/-- Whether nothing in flight names a port's register (R155, R156): no pending result, and no matrix job whose operands reach it. -/
def State.portQuiet (s : State) (p : Fin 8) : Bool :=
  let n := (portReg p).val
  !s.varPending (rdV (portReg p)) && !s.fixPending (rdV (portReg p)) &&
    !s.core.mq.any (fun j => j.kind != .drain && (j.roles ++ j.ranges s).contains n)

/-- A port with its BND bit cleared (R156). -/
def State.unbind (s : State) (p : Fin 8) : State :=
  { s with core := { s.core with sp := s.core.sp.set p { s.core.sp[p] with bnd := false } } }

/-- SBIND (R155): a failure leaves the port unbound, with TVAL at A. -/
def execSbind (st : Fin 8) (d : Fin 8) (a b : Fin 32) (s : State) : Host.Outcome State Fault Refusal :=
  issue { st := st.val, ill := s.helper || fld (s.ro 3) 1 63 ≠ 0, reads := [rdC a, rdC b] }
    (do
      let s ← get
      await (s.portQuiet d)
      upd fun s => s.unbind d
      let c := s.rc a
      let cnt := fld (s.rx b) 0 32
      let stride := (s.ro 2).toInt
      let wr := (s.ro 3).getLsbD 0
      let at_ : Int := capA c
      let span := ((cnt : Int) - 1) * stride
      let lo := at_ + min 0 span
      let hi := at_ + max 0 span + 128
      if cnt ≠ 0 then
        need (capValid c) .capTag at_
        need (capHas c (if wr then pS else pL)) .capPerm at_
        need (decide (capBase c ≤ lo) && decide (hi ≤ capTop c)) .capBounds at_
        need (at_ % 4 = 0 && stride % 4 = 0) .align at_
      let port : Port := { bnd := true, dir := wr, cap := c, stride := s.ro 2, cnt := BitVec.ofNat 32 cnt }
      upd fun s => { s with core := { s.core with sp := s.core.sp.set d port } }) s

/-- SUNBIND (R156): its appends have been performed; of an unbound port it does nothing. -/
def execSunbind (st : Fin 8) (d : Fin 8) (s : State) : Host.Outcome State Fault Refusal :=
  issue { st := st.val, ill := s.helper }
    (do
      if (← get).core.sp[d].bnd then
        await ((← get).portQuiet d)
        upd fun s => s.unbind d) s

/-! ### Gathers and scatters (R274, R276) -/

/-- Key under which a job's register waits for it. -/
def jobKey (cls ri : Nat) : Nat := 2 ^ 20 + cls * 4096 + ri

/-- Fields of o2 for GATH and SCAT (R274). -/
def State.gVreg (s : State) : Fin 64 := ⟨fld (s.ro 2) 0 6 % 64, Nat.mod_lt _ (by decide)⟩
def State.gIw (s : State) : Bool := (s.ro 2).getLsbD 6
def State.gCnt (s : State) : Nat := fld (s.ro 2) 7 8

/-- ILLEGAL of o2 and of the register it names (R274). -/
def State.gathBad (s : State) (gath : Bool) : Bool :=
  fld (s.ro 2) 15 49 ≠ 0 || s.gCnt = 0 || decide (128 < s.gCnt) || (s.gIw && decide (64 < s.gCnt)) ||
  s.boundPort s.gVreg || (gath && (s.fixPending (rdV s.gVreg) || s.varPending (rdV s.gVreg)))

/-- Element size of a header's type in bytes; 0 for a type no gather takes. -/
def gathEs (t : Nat) : Nat := if 23 ≤ t || t = 14 || t = 15 then 0 else tyWidth t / 8

/-- GATH and SCAT (R274): checks at issue, then a job. DESIGN CHOICE (log 22): PAGE for a FMT of 4 or 6 bits and for a BASE.A in the
local window has the header's address in TVAL, as R269 gives it for an invalid header. -/
def gather (st : Nat) (d a : Fin 32) (b : Fin 64) (gath : Bool) (s : State) : Host.Outcome State Fault Refusal :=
  let u : VUse := { srcs := [b] }
  let acc := { u with srcs := [b, s.gVreg] }
  let g := u.gate st (s.gathBad gath) ([rdC a] ++ (if gath then [] else [rdV s.gVreg])) s
  issue { g with acc := s.owned acc.named }
    (do
      let s ← get
      await (decide (s.core.inFlight clsCopy < 256))
      vecRun u none (fun rd => do
        let s ← get
        let h ← readHdr (s.rc a)
        let es := gathEs h.fmt
        let cnt := s.gCnt
        if es ≠ 0 && 128 < cnt * es then throw (.trap s.illegal)
        need (!h.bad false && es ≠ 0 && capA h.base / 2 ^ 64 ≠ 0xFFFF) .page (capA (s.rc a))
        let idxs := (List.range cnt).map (elem (rd b) (if s.gIw then 16 else 8))
        let as := idxs.map (fun i => (capA h.base : Int) + (i * es : Nat))
        let ps := (if gath then [pL] else [pS]) ++ (if h.rem then [pM] else [])
        needAll as (fun _ => capValid h.base) .capTag
        needAll as (fun _ => capHasAll h.base ps) .capPerm
        needAll as (fun a => decide (capBase h.base ≤ a) && decide (a + es ≤ capTop h.base)) .capBounds
        need (capA h.base % es = 0) .align (capA h.base)
        let c : Copy :=
          { kind := if gath then .gath else .scat, dst := h.base, src := h.base, cnt := cnt, es := es, idxs := idxs
            vreg := s.gVreg.val, rem := h.rem, peer := h.peid, data := s.rv s.gVreg, y := s.pccY }
        let s ← get
        let (s, j) := s.openJob clsCopy (fun j => { j with cp := some c })
        set s
        if gath then
          upd fun s => s.setCtx { s.ctx with pend := s.ctx.pend ++
            [{ file := .v, idx := s.gVreg.val, op := jobKey clsCopy j.ri }] }
        upd fun s => s.wx d j.word
        pure none)) s

/-- GATH (R274). -/
def execGath (st : Fin 8) (d a : Fin 32) (b : Fin 64) (s : State) : Host.Outcome State Fault Refusal :=
  gather st.val d a b true s
/-- SCAT (R274): its source register is read at issue. -/
def execScat (st : Fin 8) (d a : Fin 32) (b : Fin 64) (s : State) : Host.Outcome State Fault Refusal :=
  gather st.val d a b false s

/-- GATHST (R276). -/
def execGathst (st : Fin 8) (d a b : Fin 32) (s : State) : Host.Outcome State Fault Refusal :=
  issue { st := st.val, ill := s.helper, reads := [rdC a, rdC b] }
    (do
      let s ← get
      if 1 < (s.rx b).toNat then throw (.trap s.illegal)
      match (s.core.jobOf (s.rx a)).bind (fun j => j.cp.map (fun c => (j, c))) with
      | some (j, c) =>
        if c.kind == .gath || c.kind == .scat then
          await (j.status != stPENDING)
          upd fun s => s.wx d (BitVec.ofNat 64 (j.arrive.toNat / 2 ^ (64 * (s.rx b).toNat)))
        else upd fun s => s.wx d 0
      | none => upd fun s => s.wx d 0) s

end Sys2Proof.Machine
end

