-- ==== Sys2Proof/Machine/Copies.lean ====
section
/-! DEFINITION. Major 0x16 (R355, R356): copies and their bursts, and the elements of gathers and scatters (R275). -/

namespace Sys2Proof.Machine

/-! ### Extents (R356) -/

/-- Bits that an item of the source, or of the destination, takes in memory: bytes, or elements under CONV. -/
def Copy.sBits (c : Copy) : Nat := if c.conv then tyMemBits c.vt else 8
def Copy.dBits (c : Copy) : Nat := if c.conv then tyMemBits c.vt2 else 8

/-- Bytes of n items. -/
def itemBytes (n bits : Nat) : Nat := (n * bits + 7) / 8

/-- Lowest byte and end of the rows of one side. -/
def rowsLo (a : Nat) (rows : Nat) (pitch : Int) : Int := a + min 0 (((rows : Int) - 1) * pitch)
def rowsHi (a : Nat) (rows n : Nat) (pitch : Int) : Int := a + max 0 (((rows : Int) - 1) * pitch) + n

/-- Whether two ranges of integers share a byte. -/
def meet (a n b m : Int) : Bool := decide (a < b + m) && decide (b < a + n) && decide (0 < n) && decide (0 < m)

/-- Whether two of a copy's rows overlap (R356). -/
def Copy.rowsMeet (c : Copy) : Bool :=
  let n := itemBytes c.len c.sBits
  let m := itemBytes c.len c.dBits
  let a := capA c.src
  let b := capA c.dst
  (decide (1 < c.rows) && (decide (c.sp.natAbs < n) || decide (c.dp.natAbs < m))) ||
  (meet (rowsLo a c.rows c.sp) (rowsHi a c.rows n c.sp - rowsLo a c.rows c.sp)
      (rowsLo b c.rows c.dp) (rowsHi b c.rows m c.dp - rowsLo b c.rows c.dp) &&
    (List.range c.rows).any (fun i => (List.range c.rows).any (fun j =>
      meet (a + i * c.sp) n (b + j * c.dp) m)))

/-- Whether two extents overlap. -/
def Copy.extentsMeet (c : Copy) : Bool :=
  meet (capA c.src) (itemBytes c.len c.sBits) (capA c.dst) (itemBytes c.len c.dBits)

/-! ### Issue (R355, R356) -/

/-- A type pair and count that CONV takes (R64, R356). -/
def Copy.convOk (c : Copy) (s : State) : Bool :=
  !c.conv || (!s.cvtBad && ((tyMemBits c.vt ≠ 6 && tyMemBits c.vt2 ≠ 6) || c.len % 32 = 0))

/-- Whether a copy rounds (R60). -/
def Copy.rounds (c : Copy) : Bool := c.conv && cvtRounds c.vt c.vt2

/-- What a copy samples of the conversion (R62). -/
def State.copyConv (s : State) (c : Copy) (flags : Nat) : Copy :=
  { c with conv := flags.testBit 0, tags := flags.testBit 1, vt := s.vt, vt2 := s.vt2, rnd := s.rnd, sat := oSAT s.o0
           srT := s.core.srctr, srSeed := s.core.srseed, y := s.pccY }

/-- Check 2 of R356 on one side, over its whole extent. -/
def sideNeed (c : Cap) (ps : List Nat) (lo hi : Int) : Op Unit := do
  need (capValid c) .capTag lo
  need (capHasAll c ps) .capPerm lo
  need (decide (capBase c ≤ lo) && decide (hi ≤ capTop c)) .capBounds lo

/-- ALIGN of one side (R356): under CONV by the element size, under TAGS by granules. -/
def alignNeed (c : Copy) (a : Int) (bits : Nat) : Op Unit := do
  need (!c.conv || a.natAbs % max 1 (bits / 8) = 0) .align a
  need (!c.tags || a.natAbs % 16 = 0) .align a

/-- A copy job accepted: complete at once where it has nothing to do. -/
def openCopy (d : Fin 32) (c : Copy) (empty : Bool) : Op Unit := do
  let s ← get
  await (decide (s.core.inFlight clsCopy < 256))
  let (s, j) := s.openJob clsCopy (fun j => { j with cp := some c, status := if empty then stDONE else stPENDING })
  set ((s.wx d j.word).srDone c.rounds)

/-- What CPY and CPY2D check at issue, in the order of R356; then their job. -/
def copyIssue (d : Fin 32) (c : Copy) (clash : Bool) : Op Unit := do
  let n := itemBytes c.len c.sBits
  let m := itemBytes c.len c.dBits
  legal (!clash)
  if c.len ≠ 0 && c.rows ≠ 0 then
    sideNeed c.src ([pL] ++ if c.tags then [pLC] else []) (rowsLo (capA c.src) c.rows c.sp) (rowsHi (capA c.src) c.rows n c.sp)
    sideNeed c.dst ([pS] ++ if c.tags then [pSC] else []) (rowsLo (capA c.dst) c.rows c.dp) (rowsHi (capA c.dst) c.rows m c.dp)
    alignNeed c (rowsLo (capA c.src) c.rows c.sp) c.sBits
    alignNeed c (rowsLo (capA c.dst) c.rows c.dp) c.dBits
    need (!c.tags || c.len % 16 = 0) .align (capA c.dst)
  openCopy d c (c.len = 0 || c.rows = 0)

/-- CPY (R356). -/
def execCpy (st : Fin 8) (d a b : Fin 32) (s : State) : Host.Outcome State Fault Refusal :=
  let flags := (s.ro 3).toNat
  let c := s.copyConv { kind := .cpy, dst := s.rc a, src := s.rc b, len := (s.ro 2).toNat } flags
  issue { st := st.val, ill := flags / 4 ≠ 0 || flags % 4 = 3 || !c.convOk s, reads := [rdC a, rdC b, rdO 0, rdO 2, rdO 3] }
    (unlessAhead (copyIssue d c c.extentsMeet)) s

/-- CPY2D (R356). -/
def execCpy2d (st : Fin 8) (d a b : Fin 32) (s : State) : Host.Outcome State Fault Refusal :=
  let flags := (s.ro 5).toNat
  let c := s.copyConv { kind := .cpy2d, dst := s.rc a, src := s.rc b, len := fld (s.ro 2) 0 32, rows := fld (s.ro 2) 32 32
                        sp := (s.ro 3).toInt, dp := (s.ro 4).toInt } flags
  issue { st := st.val, ill := flags / 2 ≠ 0 || !c.convOk s, reads := [rdC a, rdC b, rdO 0, rdO 2, rdO 3, rdO 4, rdO 5] }
    (unlessAhead (copyIssue d c c.rowsMeet)) s

/-- The lowest byte of a descriptor list that does not lie in the scratchpad of the focused core. -/
def State.listOut (s : State) (off n : Nat) : Option Nat :=
  firstBad (fun x => s.core.inPad x 1) off n

/-- CPYQ (R356). -/
def execCpyq (st : Fin 8) (d a b : Fin 32) (s : State) : Host.Outcome State Fault Refusal :=
  let cnt := (s.ro 3).toNat
  issue { st := st.val, ill := cnt = 0 || decide (1024 < cnt), reads := [rdC a, rdC b, rdO 2, rdO 3] }
    (unlessAhead do
      let s ← get
      let list := (s.ro 2).toNat
      let base := Config.LW + 0x100000
      match s.listOut list (24 * cnt) with
      | some x => raise .page (base + x)
      | none => pure ()
      need (list % 8 = 0) .align (base + list)
      openCopy d { kind := .cpyq, dst := s.rc a, src := s.rc b, list := list, cnt := cnt, rows := 0, y := s.pccY } false) s

/-- The lowest window byte of an extent, and the lowest byte outside the own-pool window (R356). -/
def xOut (pool : Bool) (a n : Nat) : Option Nat :=
  if pool then
    (if a < Config.LW + 0x100000 then some a
     else if Config.LW + 0x140000 < a + n then some (max a (Config.LW + 0x140000)) else none)
  else if Config.LW < a + n then some (max a Config.LW) else none

/-- CPYX (R356). -/
def execCpyx (st : Fin 8) (d a b : Fin 32) (s : State) : Host.Outcome State Fault Refusal :=
  let w := s.ro 3
  let e := fld w 0 24
  let pool := w.getLsbD 24
  issue { st := st.val, ill := fld w 25 39 ≠ 0 || (if pool then !isCore (eidLocal e) else eidLocal e ≠ 0)
          reads := [rdC a, rdC b, rdO 2, rdO 3] }
    (unlessAhead do
      let s ← get
      let c : Copy := { kind := .cpyx, dst := s.rc a, src := s.rc b, len := (s.ro 2).toNat, pool := pool, peer := e, y := s.pccY }
      legal (!((if pool then e = s.myEid else eidPkg e = s.pkgNo) && c.extentsMeet))
      if c.len ≠ 0 then
        sideNeed c.src [pL] (capA c.src) (capA c.src + c.len)
        sideNeed c.dst ([pS] ++ if pool && e = s.myEid then [] else [pM]) (capA c.dst) (capA c.dst + c.len)
        match xOut pool (capA c.dst) c.len with
        | some x => raise .page x
        | none => pure ()
      openCopy d c (c.len = 0)) s

/-! ### Accesses of the copy engine (R282, R284) -/

/-- Pieces of an engine's access, translated for the job, without watchpoints: what the walk leaves (R258), and the pieces, the
trap cause met, or none where a line is held and the engine waits (R310). -/
def State.engineSegs (s : State) (c : Copy) (cap : Cap) (k : Acc) (a n : Nat) : State × Except (Option Trap) (List Seg) :=
  let w : Who := { asid := s.asid, root := s.myJob.map (·.spec.root), y := c.y, h := capHas cap pH }
  match (do let gs ← segsOf w k (pieces a n); goodNeed k gs; pure gs : Op (List Seg)) s with
  | .ok gs s => (s, .ok gs)
  | .error (.trap t) s => (s, .error (some t))
  | .error _ s => (s, .error none)

/-- Pieces loaded by an engine's thread: outside the L1, and through the slices where the page is cached (R238). -/
def State.loadAs (s : State) (me : Nat × Nat) (esz : Nat) : List Seg → State × List Byte
  | [] => (s, [])
  | g :: gs =>
    let (s, bs) := (s.l2Fetch g.cached g.place g.len).readAs me g.va g.place g.len esz
    let (s, rest) := s.loadAs me esz gs
    (s, bs ++ rest)

/-- Pieces stored by an engine's thread. -/
def State.storeAs (s : State) (me : Nat × Nat) (esz : Nat) : List Seg → List Byte → State
  | [], _ => s
  | g :: gs, bs =>
    let s := (s.dirty g).writeAs me s.myEid g.va g.place esz g.cached (bs.take g.len)
    let s := if g.cached then s.markLines (linesOf g.place g.len) me else s
    s.storeAs me esz gs (bs.drop g.len)

/-- Tags of the granules of some pieces, in order. -/
def State.tagsOf (s : State) : List Seg → List Bool
  | [] => []
  | g :: gs => (List.range (g.len / 16)).map (fun i => tagGet s.tags (g.place / 16 + i)) ++ s.tagsOf gs

/-- Places of the granules of some pieces, in order. -/
def granules : List Seg → List (Nat × Bool)
  | [] => []
  | g :: gs => (List.range (g.len / 16)).map (fun i => (g.place / 16 + i, g.host)) ++ granules gs

/-- A failure that a copy meets at an item or byte: of one status, that of the lowest address stays (R275, R353). DESIGN CHOICE
(log 22): of two statuses, FAULT and LINK_FAIL, the job keeps the one it met first. -/
def Copy.fail (c : Copy) (status cause pos addr : Nat) : Copy :=
  if c.bad = 0 || (c.bad = status && addr < c.faddr) then { c with bad := status, cause := cause, fpos := pos, faddr := addr }
  else c

/-! ### A burst of CPY, CPY2D and CPYQ -/

/-- Items of one burst: 128 bytes of the wider side (R355), whole groups of 32 elements where they fit. -/
def Copy.unit (c : Copy) : Nat :=
  let n := 1024 / max c.sBits c.dBits
  if c.conv then (if 32 ≤ n then n / 32 * 32 else n) else 128

/-- Row, offset in it and size of the next burst. -/
def Copy.row (c : Copy) : Nat := c.pos / c.len
def Copy.off (c : Copy) : Nat := c.pos % c.len
def Copy.burst (c : Copy) : Nat := min c.unit (c.len - c.off)

/-- Addresses of the next burst on both sides. -/
def Copy.sAddr (c : Copy) : Nat := addr80 ((capA c.src : Int) + c.row * c.sp + (c.off * c.sBits / 8 : Nat))
def Copy.dAddr (c : Copy) : Nat := addr80 ((capA c.dst : Int) + c.row * c.dp + (c.off * c.dBits / 8 : Nat))

/-- The bytes a burst writes: as read, or converted (R65, R67, R356). `old` is what the last byte holds where a 4-bit
element is its half. -/
def Copy.bytes (c : Copy) (bs old : List Byte) : List Byte :=
  if !c.conv then bs
  else
    let r : Rnd := { mode := c.rnd, sat := c.sat, seed := c.srSeed.toNat, t := c.srT.toNat }
    let x := leNat bs
    let n := c.burst
    let codes := (List.range n).map (fun i =>
      let raw := elemN x c.sBits i
      cvtElem c.vt c.vt2 r (c.pos + i) raw)
    let used := n * c.dBits
    leBytes (itemBytes n c.dBits) (joinElems c.dBits codes + leNat old / 2 ^ used * 2 ^ used)

/-- Byte offset of an address within a copy, for POS of a FAULT (R353). -/
def Copy.posOf (c : Copy) (bits : Nat) (a t : Nat) : Nat := c.pos * bits / 8 + (t - a)

/-- One burst of a plain, converting or tagged copy of the focused core. -/
def State.copyBurst (s : State) (me : Nat × Nat) (c : Copy) : State × Copy :=
  let a := c.sAddr
  let b := c.dAddr
  let n := itemBytes c.burst c.sBits
  let m := itemBytes c.burst c.dBits
  let esz := if c.tags then 16 else 4
  match s.engineSegs c c.src .load a n with
  | (s, .error none) => (s, c)
  | (s, .error (some t)) =>
    let c := c.fail stFAULT t.cause.code (c.posOf c.sBits a t.tval.toNat) 0
    (match s.engineSegs c c.dst .store b m with
      | (s, .error (some u)) => (s, if c.posOf c.dBits b u.tval.toNat < c.fpos then
          { c with cause := u.cause.code, fpos := c.posOf c.dBits b u.tval.toNat } else c)
      | (s, _) => (s, c))
  | (s, .ok gs) =>
    match s.engineSegs c c.dst .store b m with
    | (s, .error none) => (s, c)
    | (s, .error (some t)) => (s, c.fail stFAULT t.cause.code (c.posOf c.dBits b t.tval.toNat) 0)
    | (s, .ok hs) =>
      let ts := if c.tags then s.tagsOf gs else []
      let us := if c.tags then granules hs else []
      match (ts.zip us).zipIdx.find? (fun x => x.1.1 && x.1.2.2) with
      | some x => (s, c.fail stFAULT Cause.capPerm.code (c.pos + 16 * x.2) 0)
      | none =>
        let (s, bs) := s.loadAs me esz gs
        let old := if c.burst * c.dBits % 8 = 0 then [] else segRead s hs
        let s := s.storeAs me esz hs (c.bytes bs old)
        let s := (ts.zip us).foldl (fun s x => if x.1 then { s with tags := tagSet s.tags x.2.1 } else s) s
        (s, { c with pos := c.pos + c.burst })

/-- The next descriptor of CPYQ read and checked (R356). -/
def State.nextDesc (s : State) (me : Nat × Nat) (c : Copy) : State × Copy :=
  let a := Config.LW + 0x100000 + c.list + 24 * c.desc
  match s.engineSegs c Cap.null .load a 24 with
  | (s, .error none) => (s, c)
  | (s, .error (some t)) => (s, c.fail stFAULT t.cause.code c.desc 0)
  | (s, .ok gs) =>
    let (s, bs) := s.loadAs me 4 gs
    let dp := (wordAt bs 0).toInt
    let sp := (wordAt bs 8).toInt
    let len := (wordAt bs 16).toNat
    let bad := (capCheck c.src [pL] ((capA c.src : Int) + sp) len 1).or (capCheck c.dst [pS] ((capA c.dst : Int) + dp) len 1)
    match bad with
    | some k => (s, c.fail stFAULT k.code c.desc 0)
    | none =>
      if len = 0 then (s, { c with desc := c.desc + 1 })
      else (s, { c with rows := 1, sp := sp, dp := dp, len := len, pos := 0 })

/-- The descriptor at hand as a copy of its own. -/
def Copy.ofDesc (c : Copy) : Copy :=
  { c with src := capAt c.src (addr80 ((capA c.src : Int) + c.sp)), dst := capAt c.dst (addr80 ((capA c.dst : Int) + c.dp))
           sp := 0, dp := 0 }

/-- One step of CPYQ. -/
def State.queueBurst (s : State) (me : Nat × Nat) (c : Copy) : State × Copy :=
  if c.rows = 0 then s.nextDesc me c
  else
    let (s, d) := s.copyBurst me c.ofDesc
    if d.bad ≠ 0 then (s, { c with bad := d.bad, cause := d.cause, fpos := c.desc })
    else if c.len ≤ d.pos then (s, { c with rows := 0, pos := 0, desc := c.desc + 1 })
    else (s, { c with pos := d.pos })

/-! ### CPYX -/

/-- One burst of CPYX (R355, R356): the bytes of the packet at hand, which leaves with 2,048 of them or the last (R298). -/
def State.xBurst (s : State) (me : Nat × Nat) (ri : Nat) (c : Copy) : State × Copy :=
  let n := c.burst
  match s.engineSegs c c.src .load c.sAddr n with
  | (s, .error none) => (s, c)
  | (s, .error (some t)) => (s, c.fail stFAULT t.cause.code (c.posOf 8 c.sAddr t.tval.toNat) 0)
  | (s, .ok gs) =>
    let (s, bs) := s.loadAs me 4 gs
    let bs := c.buf ++ bs
    let pos := c.pos + n
    if bs.length < 2048 && pos < c.len then (s, { c with pos := pos, buf := bs })
    else
      let at_ := pos - bs.length
      let a := capA c.dst + at_
      let off := capA c.dst - (Config.LW + 0x100000)
      let p : Packet :=
        if c.pool then
          { deid := c.peer, handler := 9, arg0 := BitVec.ofNat 64 (off + at_), arg1 := BitVec.ofNat 64 off
            arg2 := BitVec.ofNat 64 c.len, data := bs }
        else
          { deid := c.peer, handler := 10, arg0 := BitVec.ofNat 64 a, arg1 := BitVec.ofNat 64 (a / 2 ^ 64), data := bs }
      ((s.sendFrom me p (fun r => { r with job := some (clsCopy, ri), elem := at_ })).1,
        { c with pos := pos, out := c.out + 1, buf := [] })

/-! ### Elements of GATH and SCAT (R275) -/

/-- Address of element i. -/
def Copy.elemAddr (c : Copy) (i : Nat) : Nat := capA c.dst + c.idxs.getD i 0 * c.es

/-- An element read or written, in the record's mask and result (R276). -/
def JobRec.arrived (j : JobRec) (i es x : Nat) : JobRec :=
  { j with arrive := j.arrive ||| BitVec.ofNat 128 (2 ^ i)
           result := j.result ||| BitVec.ofNat 1024 (x % 2 ^ (8 * es) * 2 ^ (8 * es * i)) }

/-- Element i of the source register of SCAT. -/
def Copy.elemData (c : Copy) (i : Nat) : Nat := elem c.data (8 * c.es) i

/-- The elements of the next request of a remote gather or scatter: the first not asked for, and freely chosen further ones, for
a scatter only in unbroken order (R275, R276). -/
def Copy.nextElems (c : Copy) (free : Nat) : List Nat :=
  match (List.range c.cnt).filter (fun i => !c.asked.contains i) with
  | [] => []
  | i :: is =>
    i :: (if c.kind == .gath then is.filter (Config.gatherTakes free) else is.takeWhile (Config.gatherTakes free))

/-- That request as a packet (log 14). -/
def Copy.elemPacket (c : Copy) (es : List Nat) : Packet :=
  let p := remotePkt (if c.kind == .gath then 11 else 12) (eidPkg c.peer) c.dst (Nat.log2 c.es * 65536 + es.length * 2 ^ 24)
  let vals := if c.kind == .gath then [] else es.flatMap (fun i => leBytes c.es (c.elemData i))
  { p with data := es.flatMap (fun i => leBytes 2 (c.idxs.getD i 0)) ++ vals }

/-- One element of a gather or scatter of the focused core in the package's own memory, or the next request for some as a packet
(R275). -/
def State.elemStep (s : State) (me : Nat × Nat) (ri : Nat) (c : Copy) : State × Copy :=
  if c.rem then
    let es := c.nextElems s.freeN
    let s : State := { s with freeN := s.freeN + 1 }
    ((s.sendFrom me (c.elemPacket es) (fun r => { r with job := some (clsCopy, ri), elems := es })).1,
      { c with out := c.out + 1, asked := c.asked ++ es, pos := c.pos + es.length })
  else
    let i := c.pos
    let a := c.elemAddr i
    let c' := { c with pos := i + 1 }
    match s.engineSegs c c.dst (if c.kind == .gath then .load else .store) a c.es with
    | (s, .error none) => (s, c)
    | (s, .error (some t)) => (s, c'.fail stFAULT t.cause.code i t.tval.toNat)
    | (s, .ok gs) =>
      if c.kind == .gath then
        let (s, bs) := s.loadAs me c.es gs
        ({ s with core := s.core.mapRec clsCopy ri (fun j => j.arrived i c.es (leNat bs)) }, c')
      else
        let s := s.storeAs me c.es gs (leBytes c.es (c.elemData i))
        ({ s with core := s.core.mapRec clsCopy ri (fun j => j.arrived i c.es 0) }, c')

/-! ### Running jobs (R355) -/

/-- Copy jobs of a core not complete, in issue order. -/
def Core.copies (c : Core) : List (JobRec × Copy) :=
  c.jobs.filterMap (fun j => if j.cls == clsCopy && j.status == stPENDING then j.cp.map (fun k => (j, k)) else none)

/-- Copy jobs of the focused core's cluster that run. -/
def State.copiesRunning (s : State) : Nat :=
  ((s.allCores.filter (fun c => clusterOf c.id == clusterOf s.core.id)).map
    (fun c => c.copies.countP (fun x => x.2.begun))).sum

/-- Whether a job still has a burst to move. The elements of gathers and scatters are the slices' (R275): they take no turns. -/
def Copy.moves (c : Copy) : Bool :=
  match c.kind with
  | .cpy | .cpy2d => c.bad = 0 && decide (c.pos < c.len * c.rows)
  | .cpyq => c.bad = 0 && decide (c.desc < c.cnt)
  | .cpyx => c.bad = 0 && decide (c.pos < c.len)
  | .gath | .scat => false

/-- The jobs of the focused core's cluster that run and have a burst to move; a stop freezes its core's (R227). -/
def State.rotation (s : State) : List Copy :=
  (s.allCores.filter (fun c => clusterOf c.id == clusterOf s.core.id && !c.stopped)).flatMap
    (fun c => (c.copies.map (·.2)).filter (fun x => x.begun && x.moves))

/-- The rotation of R355: no running job has waited longer for its turn. -/
def State.firstOf (s : State) (c : Copy) : Bool := !c.moves || s.rotation.all (fun x => decide (c.last ≤ x.last))

/-- Number of the next turn. -/
def State.nextTurn (s : State) : Nat := (s.rotation.map (·.last)).foldl max 0 + 1

/-- Whether a job of the focused core may act: it runs and has its turn, or it is the core's next and a place is free. -/
def State.copyTurn (s : State) (ri : Nat) : Bool :=
  match s.core.copies.find? (fun x => !x.2.begun || x.1.ri == ri) with
  | some x => x.1.ri == ri && (if x.2.begun then s.firstOf x.2 else decide (s.copiesRunning < 16))
  | none => false

/-- Whether a job has nothing more to do, and what it then ends with. -/
def Copy.finished (c : Copy) : Bool :=
  match c.kind with
  | .cpy | .cpy2d => c.bad ≠ 0 || decide (c.len * c.rows ≤ c.pos)
  | .cpyq => c.bad ≠ 0 || decide (c.cnt ≤ c.desc)
  | .cpyx => c.out = 0 && (c.bad ≠ 0 || decide (c.len ≤ c.pos))
  | .gath | .scat => false

/-- A job of the copy unit that has finished, with its record's last values (R353). -/
def State.copyEnd (s : State) (ri : Nat) (c : Copy) : State :=
  let st := if c.bad = 0 then stDONE else c.bad
  { s with core := s.core.completeJob clsCopy ri (fun j =>
      { j with status := st, cause := if st = stFAULT then c.cause else 0, pos := if st = stFAULT then c.fpos else 0
               count := if c.kind == .cpyq then c.desc else 0 }) }

/-- The state of a job put back after a burst, with the descriptors that CPYQ has completed (R353), and the job
completed once it has finished. -/
def State.copyPut (s : State) (ri : Nat) (c : Copy) : State :=
  let s := { s with core := s.core.mapRec clsCopy ri (fun j =>
      { j with cp := some c, count := if c.kind == .cpyq then c.desc else 0 }) }
  if c.finished then s.copyEnd ri c else s

/-- The burst itself. -/
def State.runBurst (s : State) (j : JobRec) (c : Copy) : State :=
  let me := j.thread s.core.id
  let (s, c) := match c.kind with
    | .cpy | .cpy2d => if c.finished then (s, c) else s.copyBurst me c
    | .cpyq => if c.finished then (s, c) else s.queueBurst me c
    | .cpyx => if c.bad = 0 && c.pos < c.len then s.xBurst me j.ri c else (s, c)
    | .gath | .scat => if c.pos < c.cnt then s.elemStep me j.ri c else (s, c)
  s.copyPut j.ri c

/-- One burst of a job of the focused core (R355, R227). -/
def State.burst (s : State) (ri : Nat) : State :=
  if s.core.stopped || !s.copyTurn ri then s
  else
    match s.core.copies.find? (fun x => x.1.ri == ri) with
    | some (j, c) => s.runBurst j { c with begun := true, last := s.nextTurn }
    | none => s

/-- COPY_BURST (R355). -/
def execCopyBurst (e rec : Nat) (s : State) : Host.Outcome State Fault Refusal := atCore e s (fun s => s.burst rec)

/-- A register written for a job of the focused core, where it still waits for it (R79, R81, R275). -/
def State.jobReg (s : State) (n key : Nat) (v : VReg) : State :=
  let x := s.core.ctxs[(0 : Fin 11)]
  if x.pend.any (fun p => p.op == key) then
    let s := { s with core := { s.core with ctxs := s.core.ctxs.set 0 { x with pend := x.pend.filter (fun p => p.op != key) } } }
    s.wv (Fin.ofNat 64 n) v
  else s

/-- A gather or scatter whose elements are all in completes (R275). -/
def State.gatherEnd (s : State) (ri : Nat) : State :=
  match s.core.copies.find? (fun x => x.1.ri == ri) with
  | some (j, c) =>
    if (c.kind == .gath || c.kind == .scat) && c.cnt ≤ c.pos && c.out = 0 then
      let s := if c.kind == .gath then s.jobReg c.vreg (jobKey clsCopy ri) j.result else s
      (s.edge (j.thread s.core.id) (s.core.id, 0)).copyEnd ri c
    else s
  | none => s

/-- GATHER_COMPLETE (R275). -/
def execGatherComplete (e rec : Nat) (s : State) : Host.Outcome State Fault Refusal := atCore e s (fun s => s.gatherEnd rec)

/-- Status and cause of a job's packet by its reply (R209, R275, R356). -/
def replyCause (status : Nat) : Nat × Nat :=
  if status = rsLINKFAIL then (stLINKFAIL, 0)
  else if status = rsREFUSED then (stREFUSED, 0)
  else if status = rsUE then (stFAULT, Cause.ue.code)
  else (stFAULT, Cause.page.code)

/-- The target of a CPYX that ended in LINK_FAIL or REFUSED, where it lies in this package (R356). -/
def State.copyLost (s : State) (c : Copy) : State :=
  if c.pool then s.smearPool c.peer (capA c.dst - (Config.LW + 0x100000)) c.len
  else if eidPkg c.peer = s.pkgNo then
    match s.remotePlaces s.asid .store (pieces (capA c.dst) c.len) with
    | .ok (s, gs) => gs.foldl (fun s g => s.smear g.1 g.2 s.myEid) s
    | .error _ => s
  else s

/-- An element's status in a reply taken into a job's record: read or written, or failed. A gather has no status REFUSED: an
element that is refused counts as one that could not be translated. -/
def elemReply (data : List Byte) (x : JobRec × Copy) (i k : Nat) : JobRec × Copy :=
  let n := if x.2.kind == .gath then 1 + x.2.es else 1
  let bs := (data.drop (k * n)).take n
  let st := (bs.headD 0).toNat
  if st = rsDONE then (x.1.arrived i x.2.es (leNat (bs.drop 1)), x.2)
  else
    let r := replyCause (if st = rsREFUSED then rsFAULT else st)
    (x.1, x.2.fail r.1 r.2 i (x.2.elemAddr i))

/-- The reply to a packet of a copy of the focused core (R275, R356). -/
def State.copyReply (s : State) (op : RemOp) (ri status : Nat) (data : List Byte) : State :=
  match s.core.copies.find? (fun x => x.1.ri == ri) with
  | none => s
  | some (j, c) =>
    let c := { c with out := c.out - 1 }
    if c.kind == .cpyx then
      let k := replyCause status
      let c := if status = rsDONE then c else c.fail k.1 k.2 op.elem op.elem
      (if (c.bad = stLINKFAIL || c.bad = stREFUSED) && c.finished then s.copyLost c else s).copyPut ri c
    else
      let x := op.elems.zipIdx.foldl (fun x e =>
        if status = rsDONE then elemReply data x e.1 e.2
        else
          let r := replyCause (if status = rsREFUSED then rsFAULT else status)
          (x.1, x.2.fail r.1 r.2 e.1 (x.2.elemAddr e.1))) (j, c)
      { s with core := s.core.mapRec clsCopy ri (fun _ => { x.1 with cp := some x.2 }) }

end Sys2Proof.Machine
end

