-- ==== Sys2Proof/Machine/Fetch.lean ====
section
/-! DEFINITION. What stands around one instruction: the steps of LOOP on the fields of a body instruction (R131), the
order in which contexts are tried in a cycle (R22), and the clocks (R10, R400, R402). -/

namespace Sys2Proof.Machine

/-- Formats of a major that has register fields to step (R75, R131): whether d, a and b are fields of it. -/
def stepField (op sel : Nat) : Bool :=
  if op = 0x03 || op = 0x04 then sel == 0
  else if op = 0x07 || op = 0x1E then sel == 1
  else if op = 0x08 || op = 0x09 || op = 0x0B then false
  else if op = 0x01 || op = 0x06 || op = 0x0C || op = 0x0D then sel ≤ 1
  else sel ≤ 2

/-- FSEL, FSTEP and MSTEP of the body instruction at hand (R82, R131). -/
def Loop.fsel (l : Loop) : Nat := fld l.lfstep (8 * l.lidx + 6) 2
def Loop.fstep (l : Loop) : Int := sextNat 6 (fld l.lfstep (8 * l.lidx) 6)
def Loop.mstep (l : Loop) : Int := sextNat 8 (fld l.lmstep (8 * l.lidx) 8)

/-- The stepped fields of a body instruction in iteration LITER; none where the step is out of range (R131). -/
def stepFields (l : Loop) (w : Fields) : Option Fields :=
  if l.fstep = 0 || l.fsel = 3 then some w
  else if !stepField w.op l.fsel then none
  else
    let k := (l.liter.toNat : Int) * l.fstep
    let base := w.op = 0x0C || w.op = 0x0D
    let put (old lim : Nat) (f : Nat → Fields) : Option Fields :=
      let v := (old : Int) + k
      if 0 ≤ v && v < lim then some (f v.toNat) else none
    if l.fsel = 0 then put w.d 64 (fun v => { w with d := v })
    else if l.fsel = 1 then
      (if w.op = 0x07 || w.op = 0x1E then put w.d 64 (fun v => { w with d := v })
       else if base then put (w.a % 32) 32 (fun v => { w with a := w.a / 32 * 32 + v })
       else put w.a 64 (fun v => { w with a := v }))
    else put w.b 64 (fun v => { w with b := v })

/-- The memory step of M format (R131); no effect on other formats. -/
def addOff (i : Instr) (k : Int) : Instr :=
  match i with
  | .ldB st d a off => .ldB st d a (off + k)
  | .ldBu st d a off => .ldBu st d a (off + k)
  | .ldH st d a off => .ldH st d a (off + k)
  | .ldHu st d a off => .ldHu st d a (off + k)
  | .ldW st d a off => .ldW st d a (off + k)
  | .ldWu st d a off => .ldWu st d a (off + k)
  | .ldD st d a off => .ldD st d a (off + k)
  | .ldC st d a off => .ldC st d a (off + k)
  | .stB st d a off => .stB st d a (off + k)
  | .stH st d a off => .stH st d a (off + k)
  | .stW st d a off => .stW st d a (off + k)
  | .stD st d a off => .stD st d a (off + k)
  | .stC st d a off => .stC st d a (off + k)
  | i => i

/-- The instruction a loop runs for the one fetched (R89, R131): outside a loop, the one fetched. -/
noncomputable def loopInstr (l : Loop) (i : Instr) : Option Instr :=
  if !l.lact then some i
  else if (match i with | .addShort _ x _ => decide (x = 0) | _ => false) then some i
  else
    match encodeFields (expandShort i) with
    | none => some i
    | some w =>
      ((stepFields l w).bind decodeFields).map (fun j => addOff j ((l.liter.toNat : Int) * l.mstep))

/-- The instruction in `n` bytes of bits `w`. -/
noncomputable def decodeBits (n w : Nat) : Option Instr := if n = 2 then decode16 w else decode32 w

/-- Whether a context may issue in this cycle (R20, R22, R78). -/
def State.readyCtx (s : State) (h : Fin 11) : Bool :=
  let x := s.core.ctxs[h]
  decide (x.readyAt ≤ s.core.cyc) && (h = 0 || x.slot == .live)

/-- The contexts in the order R22 tries them in this cycle. -/
def State.order (s : State) : List (Fin 11) :=
  let t : Fin 11 := ⟨s.core.cyc % 11, Nat.mod_lt _ (by decide)⟩
  let ring := (List.finRange 11).map (fun k => t + k)
  (if t ≠ 0 then [t] else []).filter s.readyCtx ++
    [(0 : Fin 11)].filter s.readyCtx ++
    (ring.drop 1).filter (fun h => h ≠ 0 && s.readyCtx h)

/-- A context had its turn: no YIELD waits for it any more (R354). -/
def State.tookTurn (s : State) (h : Fin 11) : State :=
  { s with core := { s.core with ctxs := s.core.ctxs.map (fun x =>
      match x.wait with
      | .yielding owe => { x with wait := .yielding (owe.filter (· != h.val)) }
      | _ => x) } }

/-- The end of a cycle in which a job's slice expired or a launch of it completed (R232, R234): the completion wins over an expiry
of the same cycle, and the slice is re-armed. DESIGN CHOICE (log 26): R226 names no unit as the origin of an expiry; GSWHY's ORIGIN
is the manager of die 0, whose Bureau switches gangs. -/
def State.endSlice (s : State) (j : Job) : State :=
  let s := s.mapJob j.spec.asid (fun j => { j with expired := false, closed := false })
  if !j.expired || j.gang != .run then s
  else if j.closed then s.mapJob j.spec.asid (fun j => { j with sliceEnd := s.time.toNat + j.spec.slice })
  else
    let s := j.spec.gang.foldl (fun s e => s.mapCore e (fun c => c.askStop 9 (s.eid 0x200) s.time.toNat)) s
    s.mapJob j.spec.asid (fun j => { j with gang := .dispatchStop })

/-- The clock of the focused core in MHz: its die's, and at most 1.0 GHz for a job placed in reduced service (R10, R411). -/
def State.clock (s : State) : Nat :=
  let d : Fin 4 := ⟨dieOf s.core.id % 4, Nat.mod_lt _ (by decide)⟩
  if (s.myJob.map (·.reduced)).getD false then min 1000 s.clocks[d] else s.clocks[d]

/-- Time passes by one cycle of a core's clock (R10, R400, R401): slices end, uncorrectable errors arise where they do (R254), and
when TIME moves on the trace records of the TIMEs that have ended are written (R406). -/
def State.passTime (s : State) : State :=
  let s := s.jobs.foldl (fun s j => if j.expired || j.closed then s.endSlice j else s) s
  let unit := max 1 (s.clock * 1000000)
  let acc := s.timeFrac + (1000 * (1000000 + s.ppm)).toNat
  let s : State := { s with time := s.time + BitVec.ofNat 64 (acc / unit), timeFrac := acc % unit
                            bad := (Config.newErrors s.time.toNat s.timeFrac).foldl tagSet s.bad }
  if acc / unit = 0 then s else s.flushTrace

/-- IPEND.TIMER is set while TIME has reached TCMP (R224). -/
def State.timer (s : State) : State :=
  if s.core.tcmp.toNat ≤ s.time.toNat then
    { s with core := { s.core with ipend := s.core.ipend ||| 1 } }
  else s

/-- Contexts of the focused core that wait in a FENCE or FENCER. -/
def Core.fencing (c : Core) : Nat := (c.ctxs.toList.filter (fun x => x.wait == .fence)).length

/-- The end of a cycle of the focused core (R402), with what its job counts in it (R403): the errors corrected, and the contexts
that wait in a fence. DESIGN CHOICE (log 48): where several contexts wait in fences, the cycle counts for each. -/
def State.tick (s : State) : State :=
  let s := if s.core.job.isSome then
      (s.count 10 (Config.correctedErrors s.core.id s.core.cyc)).count 9 (if s.core.stopped then 0 else s.core.fencing)
    else s
  ({ s with core := { s.core with cyc := s.core.cyc + 1 } } : State).passTime

/-- A cycle in which no context issued, for the job that holds the core (R403). -/
def State.noIssue (s : State) : State := if s.core.job.isSome then s.count 2 else s

/-- A cycle that ends as `s`, `t` at its start: no context issued where none has retired an instruction (R403). DESIGN CHOICE
(log 48): an instruction that traps has not issued. -/
def State.cycleEnd (s t : State) : State :=
  (if s.core.evc[0] = t.core.evc[0] && s.core.evc[1] = t.core.evc[1] then s.noIssue else s).tick

/-- A paused matrix job's trap, due before anything else in h0 (R192, R220). -/
def State.pausedJob (s : State) : Option Trap :=
  if s.helper then none else s.core.mq.findSome? (fun j => if j.told then none else j.paused)

/-- That trap taken: once it is delivered it does not fall due again (R192, R221). -/
def State.pausedTrap (s : State) (t : Trap) : State :=
  let s := s.takeTrap t true s.pc
  if s.core.stopped then s
  else { s with core := { s.core with mq := s.core.mq.map (fun j => if j.paused.isSome then { j with told := true } else j) } }

/-- The issuing context chosen, its readable results in place. -/
def State.turnOf (s : State) (h : Fin 11) : State :=
  let s : State := { s with core := { s.core with cur := h } }
  let s := s.settle
  s.setCtx { s.ctx with blocked := false }

/-- The latches of an instruction about to issue: its word and the address after it (log 12). -/
def State.latch (s : State) (n w : Nat) : State :=
  s.setCtx { s.ctx with npc := BitVec.ofNat 80 (s.pc + n), ir := BitVec.ofNat 32 w }

/-- Fetch with the watchpoints that match instruction fetch (R73, R230). -/
def fetchHere : Op (Nat × Nat) := do
  let s ← get
  let r ← fetchInstr s.ctx.pcc s.pc
  watchNeed .fetch s.pc r.1
  pure r

/-- The pages, code and job of `withFetchWord`: root node at 0x20_0000, code page at 0x10_0000 mapped at 0x40_0000. -/
def bootRoot : Nat := 0x200000
def bootCode : Nat := 0x100000
def bootVa : Nat := 0x400000

/-- The page-table entries that map the code page (R255, R256). -/
def bootPtes : List (Nat × Nat) :=
  [(bootRoot, 0x210001), (0x210000, 0x220001), (0x220000, 0x230001), (0x230000, 0x240001),
   (0x240000 + 8 * 0x40, bootCode + 0x8B)]

/-- PCC for the placed instruction: permission X over the low part of the address space. -/
def bootPcc : Cap := ⟨capBits bootVa 4 50 0 0x7FFF, true⟩

end Sys2Proof.Machine
end

