-- ==== Sys2Proof/Machine/Reduce.lean ====
section
/-! DEFINITION. In-network reduction, major 0x1B: NRED and NREDW (R314, R315, R318), the nodes of the tree (R316, R317,
R320), results at a core (R319, R429) and the tree table (R390, R391). -/

namespace Sys2Proof.Machine

/-! ### Tree entries (R390) -/

/-- A package's tree entry; one never written is zero. -/
def State.treeOf (s : State) (t : Nat) : List Byte := ((s.trees.find? (fun x => x.1 == t)).map (·.2)).getD []

/-- The number in `n` bytes at an offset of an entry; bytes not there are 0. -/
def entNat (e : List Byte) (o n : Nat) : Nat := leNat ((e.drop o).take n)

/-- Whether an entry is valid: VLD set and TOUT not 0. -/
def treeValid (e : List Byte) : Bool := entNat e 0 1 % 2 == 1 && entNat e 2 2 ≠ 0
/-- TOUT in ns, and NCON. -/
def treeTout (e : List Byte) : Nat := entNat e 2 2 * 1000
def treeNcon (e : List Byte) : Nat := entNat e 4 2

/-- CMAP bit and RNODE byte of a core by local EID. -/
def treeLists (e : List Byte) (c : Nat) : Bool := (entNat e (64 + c / 1024 * 32 + c % 256 / 8) 1).testBit (c % 8)
def rnode (e : List Byte) (c : Nat) : Nat := entNat e (192 + 256 * (c / 1024) + c % 256) 1
/-- GNODE word of a link. -/
def gnode (e : List Byte) (l : Nat) : Nat := entNat e (1216 + 4 * l) 4
/-- Link whose gateway is parent code 5 of a die's routers. -/
def upgw (e : List Byte) (d : Nat) : Nat := 4 * d + entNat e (8 + d) 1 % 4

/-- Every core of the package, by local EID. -/
def allCoreIds : List Nat := (List.range 4).flatMap (fun d => (List.range 256).map (fun k => 1024 * d + k))

/-! ### Positions (R13 to R15) -/

/-- Coordinates of a core in the package's 32 × 32 mesh of four dies. -/
def meshX (c : Nat) : Nat := c / 1024 % 2 * 16 + c % 256 / 8 % 4 * 4 + c % 4
def meshY (c : Nat) : Nat := c / 1024 / 2 * 16 + c % 256 / 32 * 2 + c % 8 / 4

/-- The core at coordinates. -/
def coreOfXY (x y : Nat) : Nat :=
  (x / 16 + y / 16 * 2) * 1024 + (y % 16 / 2 * 4 + x % 16 / 4) * 8 + (y % 2 * 4 + x % 4)

/-- The neighbour in a direction, 1 N, 2 E, 3 S, 4 W; none off the package. -/
def meshStep (c dir : Nat) : Option Nat :=
  let x := meshX c
  let y := meshY c
  match dir with
  | 1 => if y = 0 then none else some (coreOfXY x (y - 1))
  | 2 => if x = 31 then none else some (coreOfXY (x + 1) y)
  | 3 => if y = 31 then none else some (coreOfXY x (y + 1))
  | _ => if x = 0 then none else some (coreOfXY (x - 1) y)

/-- The direction from which a packet sent in a direction comes in. -/
def opposite (dir : Nat) : Nat :=
  match dir with
  | 1 => 3 | 2 => 4 | 3 => 1 | _ => 2

/-! ### RED packets (R320) -/

def redTree (p : Packet) : Nat := fld p.arg0 0 8
def redInst (p : Packet) : Nat := fld p.arg0 8 16
def redOp (p : Packet) : Nat := fld p.arg0 24 2
def redMode (p : Packet) : Nat := fld p.arg0 26 3
def redSat (p : Packet) : Bool := p.arg0.getLsbD 29
def redDown (p : Packet) : Bool := p.arg0.getLsbD 30
def redCount (p : Packet) : Nat := fld p.arg0 32 16

/-- ARG0 of a RED packet (log 14). -/
def redArg (tree inst op mode : Nat) (sat down : Bool) (count : Nat) : Word :=
  BitVec.ofNat 64 (tree % 256 + inst % 65536 * 2 ^ 8 + op % 4 * 2 ^ 24 + mode % 8 * 2 ^ 26 + b2n sat * 2 ^ 29 +
    b2n down * 2 ^ 30 + count % 65536 * 2 ^ 32)

/-- Whether instance `i` is at or before `l`, modulo 2^16 (R317). -/
def instBefore (i l : Nat) : Bool := (l + 65536 - i % 65536) % 65536 < 32768

/-- One lane of two inputs combined (R316). -/
def redLane (op mode : Nat) (sat : Bool) (x y : Nat) : Nat :=
  let r : Rnd := { mode := mode, sat := sat }
  let f := fmtFP32
  match op with
  | 0 => f.encode r 0 (vAdd mode (f.decode x) (f.decode y))
  | 1 => f.encode r 0 (vMin (f.decode x) (f.decode y))
  | 2 => f.encode r 0 (vMax (f.decode x) (f.decode y))
  | _ => putInt 4 sat (sextNat 32 x + sextNat 32 y)

/-- A later input combined into the accumulated one, whose mode, SAT and operation hold (R316). -/
def redCombine (acc p : Packet) : Packet :=
  let a := leNat acc.data
  let b := leNat p.data
  let f := redLane (redOp acc) (redMode acc) (redSat acc)
  { acc with
    data := leBytes 128 (joinElems 32 ((List.range 32).map (fun j => f (elemN a 32 j) (elemN b 32 j))))
    arg0 := redArg (redTree acc) (redInst acc) (redOp acc) (redMode acc) (redSat acc) false
      (redCount acc + redCount p) }

/-! ### Nodes (R316, R317) -/

/-- Whether a node is on a tree. -/
def nodeOn (e : List Byte) : Node → Bool
  | .router c => rnode e c / 32 ≠ 0
  | .gateway l => (gnode e l).testBit 0

/-- Whether every input that the table expects of a node is there (R317). -/
def nodeFull (e : List Byte) (nd : Node) (ports : List Nat) : Bool :=
  match nd with
  | .router c => (List.range 5).all (fun b => !(rnode e c).testBit b || ports.contains b)
  | .gateway l =>
    (!(gnode e l).testBit 1 || ports.contains 0) && decide (gnode e l / 256 % 256 ≤ ports.countP (· ≠ 0))

/-- A RED packet on its way to a node's port; a gateway's link input from package q is port 1 + q. -/
def State.redTo (s : State) (p : Packet) (unit port : Nat) : State :=
  { s with net := s.net ++ [{ p with deid := s.eid unit, handler := port }] }

/-- Unit of a link's gateway (R17). -/
def gatewayUnit (l : Nat) : Nat := l / 4 * 1024 + 0x140 + l % 4

/-- The result sent down to every core the package's entry lists, and over every link that the tree expects inputs
from (R317). -/
def State.redSpread (s : State) (p : Packet) : State :=
  let e := s.treeOf (redTree p)
  let p := { p with arg0 := redArg (redTree p) (redInst p) (redOp p) (redMode p) (redSat p) true (redCount p) }
  let s := (allCoreIds.filter (treeLists e)).foldl (fun s c => s.redTo p c 0) s
  (List.finRange 16).foldl (fun s l =>
    if (gnode e l.val).testBit 0 && gnode e l.val / 256 % 256 ≠ 0 && s.links[l].trained then
      s.mapLink l (fun k => k.put { p with seid := s.eid (gatewayUnit l.val), deid := 0 })
    else s) s

/-- What a node has combined goes to its parent, or from the root down (R317, R390). -/
def State.redForward (s : State) (nd : Node) (p : Packet) : State :=
  let e := s.treeOf (redTree p)
  match nd with
  | .router c =>
    let par := rnode e c / 32
    let p := { p with seid := s.eid c }
    if par = 6 then s.redSpread p
    else if par = 5 then s.redTo p (gatewayUnit (upgw e (c / 1024))) 0
    else
      match meshStep c par with
      | some n => s.redTo p n (opposite par)
      | none => s
  | .gateway l =>
    let par := gnode e l / 2 ^ 16 % 4
    let p := { p with seid := s.eid (gatewayUnit l) }
    if par = 0 then s.redSpread p
    else if par = 1 then s.redTo p (l / 4 * 1024 + Config.linkCore l % 256) (1 + (Config.linkSide l + 3) % 4)
    else if s.links[Fin.ofNat 16 l].trained then s.mapLink (Fin.ofNat 16 l) (fun k => k.put { p with deid := 0 })
    else s

def State.redAt (s : State) (nd : Node) (tree : Nat) : Option RedInst :=
  s.reds.find? (fun r => r.node == nd && r.tree == tree)

def State.setRed (s : State) (r : RedInst) : State :=
  { s with reds := r :: s.reds.filter (fun x => !(x.node == r.node && x.tree == r.tree)) }

/-- The newest of some instances, modulo 2^16. -/
def newestInst (i : Nat) (is_ : List Nat) : Nat := is_.foldl (fun m x => if instBefore x m then m else x) i

/-- The instances that a node remembers as forwarded, with one more: those of the last 2^15 up to the newest (R317). -/
def RedInst.forwarded (r : RedInst) : List Nat := (r.inst :: r.gone).filter (fun i => instBefore i (newestInst r.inst r.gone))

/-- A node combines what it has in the fixed order and passes it on. -/
def State.redFire (s : State) (r : RedInst) : State :=
  let s := s.setRed { r with done := true, inputs := [], gone := r.forwarded }
  match (sortBy (fun (x : Nat × Packet) => (x.1 : Int)) r.inputs).map (·.2) with
  | [] => s
  | p :: ps => s.redForward r.node (ps.foldl redCombine p)

/-- One input of a node's instance taken (R316, R317). -/
def State.redInput (s : State) (r : RedInst) (port : Nat) (p : Packet) : State :=
  if r.inputs.any (fun x => x.1 == port) then s
  else
    let r := { r with inputs := r.inputs ++ [(port, p)]
                      first := if r.inputs.isEmpty then s.time.toNat else r.first }
    if nodeFull (s.treeOf r.tree) r.node (r.inputs.map (·.1)) then s.redFire r else s.setRed r

/-- Unit that a node is part of. -/
def nodeUnit : Node → Nat
  | .router c => c
  | .gateway l => gatewayUnit l

/-- A contribution at a node (R317, R320): each node has room for one instance of a tree, so one of another instance waits until
that has been forwarded; one of an instance already forwarded is discarded, and so is one at a unit that is offline (R9, R18). -/
def State.redContrib (s : State) (nd : Node) (port : Nat) (p : Packet) : State :=
  let took := { s with net := s.net.erase p }
  if !nodeOn (s.treeOf (redTree p)) nd || !s.unitUp (nodeUnit nd) then took
  else
    let fresh : RedInst := { node := nd, tree := redTree p, inst := redInst p }
    match s.redAt nd (redTree p) with
    | none => took.redInput fresh port p
    | some r =>
      if r.gone.contains (redInst p) then took
      else if r.inst = redInst p && !r.done then took.redInput r port p
      else if r.done then took.redInput { fresh with gone := r.gone } port p
      else s

/-- Whether a node and a port of it exist. -/
def nodeOk (nd : Node) (port : Nat) : Bool :=
  match nd with
  | .router c => c < 4096 && isCore c && port < 5
  | .gateway l => l < 16

/-- RED_CONTRIB (R316, R317). -/
def execRedContrib (nd : Node) (port : Nat) (p : Packet) (s : State) : Host.Outcome State Fault Refusal :=
  if nodeOk nd port then done (s.redContrib nd port p) else done s

/-- NODE_TIMEOUT (R317): TOUT has passed since the first input; a node of a die that is offline forwards nothing (R9). -/
def execNodeTimeout (nd : Node) (tree inst : Nat) (s : State) : Host.Outcome State Fault Refusal :=
  if !nodeOk nd 0 then done s
  else
    match s.redAt nd tree with
    | none => done s
    | some r =>
      done (if r.inst = inst && !r.done && s.unitUp (nodeUnit nd) && r.first + treeTout (s.treeOf tree) ≤ s.time.toNat then s.redFire r else s)

/-! ### Results at a core (R317, R319, R429) -/

/-- The edges an instance makes from its contributions to its result (R286). -/
def redThread (tree inst : Nat) : Nat × Nat := (2 ^ 30 + tree, inst)

/-- The last instance a core has received of a tree. -/
def Core.lastInst (c : Core) (tree : Nat) : Option Nat := (c.redLast.find? (fun x => x.1 == tree)).map (·.2)

def Core.setLast (c : Core) (tree inst : Nat) : Core :=
  { c with redLast := (tree, inst) :: c.redLast.filter (fun x => x.1 ≠ tree) }

/-- The NRED of a core in flight for a tree and instance. -/
def Core.redJob (c : Core) (tree inst : Nat) : Option JobRec :=
  c.jobs.find? (fun j => j.cls == clsRed && j.status == stPENDING && j.tree == tree && j.inst == inst)

/-- A result taken by the focused core: its job completes, or the result is discarded (R317, R429). -/
def State.takeResult (s : State) (p : Packet) : State :=
  let tree := redTree p
  let inst := redInst p
  let j := s.core.redJob tree inst
  let s := { s with core := s.core.setLast tree inst }
  match j with
  | none => s
  | some j =>
    let st := if redCount p = treeNcon (s.treeOf tree) then stDONE else stINCOMPLETE
    let s := s.edge (redThread tree inst) (j.thread s.core.id)
    { s with core := s.core.completeJob clsRed j.ri (fun j =>
        { j with status := st, count := redCount p, result := BitVec.ofNat 1024 (leNat p.data) }) }

/-- A result that the focused core discards still moves its record of the tree's last instance (R429). -/
def State.passResult (s : State) (p : Packet) : State :=
  if treeLists (s.treeOf (redTree p)) s.core.id then { s with core := s.core.setLast (redTree p) (redInst p) } else s

/-- RED_RESULT (R317, R319, R429): a core that has been switched out finds its results in the spill. -/
def execRedResult (p : Packet) (s : State) : Host.Outcome State Fault Refusal :=
  atCore (eidLocal p.deid) s (fun s =>
    let s := { s with net := s.net.erase p }
    if !s.unitUp s.core.id then s
    else if s.core.job == some p.asid then s.takeResult p
    else
      match s.jobOf p.asid with
      | some j => if j.spec.gang.contains s.core.id then s.spill p else s.passResult p
      | none => s.passResult p)

/-! ### NRED and NREDW -/

/-- NRED (R315). -/
def execNred (st : Fin 8) (d a : Fin 32) (b : Fin 64) (s : State) : Host.Outcome State Fault Refusal :=
  let u : VUse := { srcs := [b] }
  issue (u.gate st.val (!o0ok s.o0 || s.rndBad || s.rnd = 6) [rdC a] s)
    (do
      let s ← get
      let w := s.rx a
      let tree := fld w 0 8
      let inst := fld w 8 16
      let e := s.treeOf tree
      legal (hiClear w 26 && treeValid e && treeLists e s.core.id &&
        !s.core.jobs.any (fun j => j.cls == clsRed && j.status == stPENDING && j.ctx == s.core.cur.val && j.tree == tree
          && j.inst == inst))
      await (decide (s.core.inFlight clsRed < 4))
      vecRun u none (fun rd => do
        let s ← get
        let stale := (s.core.lastInst tree).any (instBefore inst)
        let (s, j) := s.openJob clsRed (fun j => { j with tree := tree, inst := inst,
                                                          status := if stale then stSTALE else stPENDING })
        let s := if stale then s
          else
            let p : Packet := { kind := 9, asid := s.asid, seid := s.myEid, data := vBytes (rd b)
                                arg0 := redArg tree inst (fld w 24 2) s.rnd (oSAT s.o0) false 1 }
            (s.edge (j.thread s.core.id) (redThread tree inst)).redTo p s.core.id 0
        set (s.wx d j.word)
        pure none)) s

/-- NREDW (R318). -/
def execNredw (st : Fin 8) (d : Fin 64) (a : Fin 32) (s : State) : Host.Outcome State Fault Refusal :=
  let u : VUse := { dst := some d }
  issue (u.gate st.val false [rdC a] s)
    (do
      let s ← get
      match (s.core.jobOf (s.rx a)).filter (fun j => j.cls == clsRed && j.ctx == s.core.cur.val) with
      | none => legal false
      | some j =>
        await (j.status != stPENDING)
        vecRun u none (fun _ => do
          upd fun s => s.edge (j.thread s.core.id) s.thread
          pure (some j.result))) s

/-! ### The tree table (R390, R391) -/

/-- Whether a router's parent direction leads off the package. -/
def offPackage (c par : Nat) : Bool := 1 ≤ par && par ≤ 4 && (meshStep c par).isNone

/-- Whether TREEWR takes an entry (R390). -/
def treeOk (e : List Byte) : Bool :=
  entNat e 0 2 / 2 = 0 &&
  (List.range 4).all (fun d => entNat e (8 + d) 1 / 4 = 0) &&
  allCoreIds.all (fun c =>
    (rnode e c).testBit 0 == treeLists e c && rnode e c / 32 ≠ 7 && !offPackage c (rnode e c / 32)) &&
  (List.range 16).all (fun l => gnode e l / 2 ^ 16 % 4 ≠ 3 && gnode e l / 2 ^ 18 = 0)

/-- Whether an instance of a tree is in flight in the package (R391). -/
def State.treeBusy (s : State) (t : Nat) : Bool :=
  s.reds.any (fun r => r.tree == t && !r.done) || s.net.any (fun p => p.kind == 9 && redTree p == t)

/-- An entry written: every listed core's record of the last instance is cleared, saved ones too (R391). -/
def State.writeTree (s : State) (t : Nat) (e : List Byte) : State :=
  let f (c : Core) : Core :=
    if treeLists e c.id then { c with redLast := c.redLast.filter (fun x => x.1 ≠ t) } else c
  { s with
    trees := (t, e) :: s.trees.filter (fun x => x.1 ≠ t)
    reds := s.reds.filter (fun r => r.tree ≠ t)
    core := f s.core, others := s.others.map f
    jobs := s.jobs.map (fun j => { j with saved := j.saved.map f }) }

end Sys2Proof.Machine
end

