-- ==== Sys2Proof/Machine/Matrix.lean ====
section
/-! DEFINITION. Matrix mode: the accumulator over v0 to v35 (R184 to R188), the job queue (R190 to R193), operand groups,
scales and metadata (R194 to R197), and major 0x15 (R198 to R210). -/

namespace Sys2Proof.Machine

/-! ### The accumulator (R185, R186) -/

/-- The registers v0 to v35 as they stand for the next write (R81, R188). -/
def State.accRegs (s : State) : List Nat := (List.range 36).map (fun n => (s.mergeV (Fin.ofNat 64 n)).toNat)

/-- Cell (i, j) of the accumulator (R185). -/
def cellAt (rs : List Nat) (i j : Nat) : Nat :=
  let n := i * 32 + j
  elemN (rs.getD i 0) 32 j + 2 ^ 32 * elemN (rs.getD (32 + n / 256) 0) 4 (n % 256)

/-- The register with number n that holds its part of some cells, row by row (R185). -/
def accReg (cells : List Nat) (n : Nat) : VReg :=
  if n < 32 then ofElems 32 ((cells.drop (32 * n)).take 32)
  else ofElems 4 (((cells.drop (256 * (n - 32))).take 256).map (· / 2 ^ 32))

/-- All 1,024 cells written, row by row. -/
def State.setAcc (s : State) (cells : List Nat) : State :=
  let x := s.core.ctxs[(0 : Fin 11)]
  let keep (p : FixPend) : Bool := !(p.file == .v && p.idx < 36)
  { s with core := { s.core with
      v := Vector.ofFn (fun n : Fin 64 => if n.val < 36 then accReg cells n.val else s.core.v[n])
      ctxs := s.core.ctxs.set 0 { x with fix := x.fix.filter keep } } }

/-- A cell or cell pair as a value (R57, R58, R186): in A72, pair (i, 2j), (i, 2j + 1). -/
def accRaw (rs : List Nat) (accf i j : Nat) : Nat :=
  if accf = 2 then cellAt rs i (2 * j) + 2 ^ 36 * cellAt rs i (2 * j + 1) else cellAt rs i j

def accVal (accf raw : Nat) : Val :=
  if accf = 2 then fmtA72.decode raw
  else if accf = 1 then valInt (sextNat 36 raw)
  else fmtA36.decode raw

/-- Values of a row: pairs in A72. -/
def accCols (accf : Nat) : Nat := if accf = 2 then 16 else 32

/-- A row's values. -/
def accRow (rs : List Nat) (accf i : Nat) : List Val :=
  (List.range (accCols accf)).map (fun j => accVal accf (accRaw rs accf i j))

/-! ### Operand classes (R194) -/

/-- Storage width of an operand element (R46, R195). -/
def matBits (t : Nat) : Nat := if t = 18 then 4 else tyMemBits t

/-! ### What MOP and MSQD sample and check at issue (R196, R197, R199) -/

/-- A MOP or MSQD with what it samples from o1, o2 and the binding. -/
def State.matJob (s : State) (kind : MatKind) (a b : Fin 64) : MatJob :=
  let o1 := s.o1
  let o2 := s.ro 2
  { kind := kind, ri := 0, ser := 0, a := a, b := b, afmt := oAFMT o1, bfmt := oBFMT o1, accf := oACCF o1, kst := oKST o1
    nm := oNM o1, lenient := oLEN o1, asr := fld o2 0 6, bsr := fld o2 6 6, amx := o2.getLsbD 12, bmx := o2.getLsbD 13
    mreg := (s.core.meta_.map (·.val)).getD 0, pcc := s.ctx.pcc }

/-- ILLEGAL of sparsity (R197). -/
def MatJob.nmBad (j : MatJob) (bound : Bool) : Bool :=
  j.nm ≠ 0 &&
    (j.nm = 3 || j.e = 1 || (if j.nm = 1 then j.afmt = 18 else j.bfmt = 18) || j.kind == .msqd || !bound)

/-- ILLEGAL of the scale registers (R196). -/
def MatJob.scaleBad (j : MatJob) : Bool :=
  (j.amx && !tyMx j.afmt) || (j.bmx && !tyMx j.bfmt) ||
    (scaleRegs j.afmt j.asr j.amx ++ scaleRegs j.bfmt j.bsr j.bmx).any (fun n => n < 36 || 63 < n)

/-- How often a number occurs. -/
def occurs (n : Nat) (xs : List Nat) : Nat := (xs.filter (· == n)).length

/-- ILLEGAL of the registers as ports (R195). -/
def MatJob.portBad (j : MatJob) (s : State) : Bool :=
  let later := (s.groupRegs j.a j.ga).drop 1 ++ (s.groupRegs j.b j.gb).drop 1
  let bound (n : Nat) : Bool := s.boundPort (Fin.ofNat 64 n)
  (j.ranges s).any (63 < ·) || later.any bound ||
    j.roles.any (fun n => bound n && (decide (1 < occurs n j.roles) || s.writePort (Fin.ofNat 64 n)))

/-- Types a job placed during reduced service may use (R411). -/
def State.matTypes (s : State) (j : MatJob) : Bool := s.tyAllowed j.afmt && s.tyAllowed j.bfmt

/-- ILLEGAL at issue of MOP and MSQD (R199). -/
def State.matBad (s : State) (j : MatJob) : Bool :=
  s.helper || !s.core.mm || !o1ok s.o1 || j.e = 0 || j.kst = 0 || fld (s.ro 2) 14 50 ≠ 0 || !s.matTypes j ||
    j.nmBad s.core.meta_.isSome || j.scaleBad || j.portBad s

/-- Guard register that o1.GRD names. -/
def State.matGuard (s : State) : Fin 16 := Fin.ofNat 16 (oGRD s.o1)

/-- Registers of v36 to v63 that a job reads without popping. -/
def State.matReads (s : State) (j : MatJob) : List (RegFile × Nat) :=
  ((j.ranges s ++ j.roles).filter (fun n => !s.boundPort (Fin.ofNat 64 n))).map (fun n => (RegFile.v, n))

/-- MOP and MSQD (R199, R200). -/
def matIssue (st : Nat) (kind : MatKind) (d : Fin 32) (a b : Fin 64) (s : State) : Host.Outcome State Fault Refusal :=
  let j := s.matJob kind a b
  issue { st := st, ill := s.matBad j, acc := s.owned ((j.ranges s).map (Fin.ofNat 64)),
          reads := s.matReads j ++ [rdG s.matGuard, rdO 1, rdO 2] }
    (do
      let s ← get
      if s.rg s.matGuard then
        await (decide (s.core.mq.length < 4) && !(j.roles.any (fun n => s.portBusy (Fin.ofNat 64 n))))
        let (s, r) := s.openJob clsMatrix id
        let s := { s with core := { s.core with mq := s.core.mq ++ [{ j with ri := r.ri, ser := r.ser }] } }
        set (s.wx d r.word)
      else
        let (s, r) := s.openJob clsDone (fun r => { r with status := stSKIPPED })
        set (s.wx d r.word)) s

/-- MOP (R199). -/
def execMop (st : Fin 8) (d : Fin 32) (a b : Fin 64) (s : State) : Host.Outcome State Fault Refusal :=
  matIssue st.val .mop d a b s
/-- MSQD (R199). -/
def execMsqd (st : Fin 8) (d : Fin 32) (a b : Fin 64) (s : State) : Host.Outcome State Fault Refusal :=
  matIssue st.val .msqd d a b s

/-! ### One step (R195 to R197, R199) -/

/-- Pieces of a group loaded by a job's thread through L1, in single accesses of 4 bytes (R190, R195). -/
def State.popBytes (s : State) (me : Nat × Nat) : List Seg → State × List Byte
  | [] => (s, [])
  | g :: gs =>
    let (s, old, p) := s.throughL1 me g
    let (s, bs) := s.readAt me g.va g.place g.len 4 old p
    let (s, rest) := s.popBytes me gs
    (s, bs ++ rest)

/-- A job of the matrix queue as a thread. -/
def MatJob.thread (j : MatJob) (e : Nat) : Nat × Nat := (e, 2 ^ 40 + j.ser)

/-- A register read by a job: popped while it is bound (R192, R195, R158). The watchpoints of the core do not see it
(R230). -/
def matRead (j : MatJob) (n : Fin 64) : Op VReg := do
  let s ← get
  match s.port n with
  | none => pure (s.rv n)
  | some p =>
    need (decide (p.idx.toNat < p.cnt.toNat)) .streamEnd ((n.val - 56 : Nat) : Int)
    let who : Who := { asid := s.asid, root := s.myJob.map (·.spec.root), y := j.pcc.tag && capHas j.pcc pY
                       h := capHas p.cap pH }
    let gs ← segsOf who .load (pieces p.addr 128)
    goodNeed .load gs
    let s ← get
    let (s, bs) := s.popBytes (j.thread s.core.id) gs
    set (s.advance n (ofVBytes bs))
    pure (ofVBytes bs)

/-- A group of g registers as one image (R195). -/
def matGroup (j : MatJob) (x : Nat) (g : Nat) : Op Nat := do
  let pops := (← get).boundPort (Fin.ofNat 64 x)
  let rec go (k : Nat) : Nat → Op (List Nat)
    | 0 => pure []
    | m + 1 => do
      let v ← matRead j (Fin.ofNat 64 (if pops then x else x + k))
      let vs ← go (k + 1) m
      pure (v.toNat :: vs)
  return joinElems 1024 (← go 0 g)

/-- Scale registers of one operand, where they fall due at this step (R196). -/
def matScales (j : MatJob) (ty r : Nat) (mx : Bool) (old : VReg × VReg) : Op (VReg × VReg) := do
  let p := j.step * j.ek
  if ty = 18 then
    if p % 256 = 0 then
      let a ← matRead j (Fin.ofNat 64 r)
      let b ← matRead j (Fin.ofNat 64 (r + 1))
      pure (a, b)
    else pure old
  else if mx && p % 128 = 0 then
    let a ← matRead j (Fin.ofNat 64 r)
    pure (a, 0)
  else pure old

/-- The value of an element with its scale (R52, R55, R68, R196): row or column i at reduction index p. -/
def matVal (ty : Nat) (mx : Bool) (sc : VReg × VReg) (i p code : Nat) : Val :=
  if ty = 18 then q4nVal (lane sc.1 i) (elemN (lane sc.2 i) 8 (p % 256 / 64)) code
  else if mx then mxVal ty code (elem sc.1 8 (32 * (p / 32 % 4) + i))
  else decodeTy ty code

/-- Metadata nibble of row i and run u in a step (R197). -/
def MatJob.nibble (j : MatJob) (i u : Nat) : Nat :=
  j.md.toNat / 2 ^ (j.step % (16 / j.e) * 64 * j.e + (i * (j.e / 2) + u) * 4) % 16

/-- A row's values over the step's positions; none where a sparse operand contributes zero (R197). -/
def matRow (j : MatJob) (ty : Nat) (mx sparse : Bool) (sc : VReg × VReg) (image n i : Nat) : List (Option Val) :=
  let bits := matBits ty
  let code (t : Nat) : Nat := image / 2 ^ ((i * n + t) * bits) % 2 ^ bits
  (List.range j.ek).map (fun t =>
    let p := j.step * j.ek + t
    if !sparse then some (matVal ty mx sc i p (code t))
    else
      let x := j.nibble i (t / 4)
      if x % 4 = x / 4 then none
      else if t % 4 = x % 4 then some (matVal ty mx sc i p (code (2 * (t / 4))))
      else if t % 4 = x / 4 then some (matVal ty mx sc i p (code (2 * (t / 4) + 1)))
      else none)

/-- One product of MOP, or one squared difference of MSQD (R199). -/
def matProd (k : MatKind) (x y : Option Val) : Val :=
  match x, y with
  | some x, some y => if k == .msqd then (let d := vAdd rRNE x (vNeg y); vMul d d) else vMul x y
  | _, _ => .fin false 0 0

/-- An exact sum (R68). -/
def sumVals : List Val → Val
  | [] => .fin false 0 0
  | x :: xs => xs.foldl (vAdd rRNE) x

/-- An integer value as an integer. -/
def valToInt : Val → Int
  | .fin neg n _ => if neg then -(n : Int) else (n : Int)
  | _ => 0

/-- A sum added to a cell or pair: its new bits, and whether A36I left its range (R57, R68). -/
def accAdd (accf raw : Nat) (p : Val) : Nat × Bool :=
  if accf = 2 then (fmtA72.encode rndRNE 0 (vAdd rRNE (fmtA72.decode raw) p), false)
  else if accf = 1 then
    let x := sextNat 36 raw + valToInt p
    (utrunc 36 x, decide (x < -((2 ^ 35 : Nat) : Int)) || decide (((2 ^ 35 : Nat) : Int) ≤ x))
  else (fmtA36.encode rndRNE 0 (vAdd rRNE (fmtA36.decode raw) p), false)

/-- New raw values of every cell or pair, row by row. -/
def matCells (j : MatJob) (rs : List Nat) (rows cols : List (List (Option Val))) : List (Nat × Bool) :=
  rows.zipIdx.flatMap (fun r => cols.zipIdx.map (fun c =>
    accAdd j.accf (accRaw rs j.accf r.2 c.2) (sumVals (List.zipWith (matProd j.kind) r.1 c.1))))

/-- Cells of raw values (R58). -/
def toCells (accf : Nat) (raws : List Nat) : List Nat :=
  if accf = 2 then raws.flatMap (fun x => [x % 2 ^ 36, x / 2 ^ 36]) else raws

/-- SPARSE_META where a run's two indexes agree (R192, R197). DESIGN CHOICE (log 48): where several runs of one step have equal
indexes, TVAL names the lowest row or column. -/
def metaNeed (j : MatJob) : Op Unit := do
  let bad := (List.range (if j.nm = 2 then accCols j.accf else 32)).find? (fun i =>
    (List.range (j.e / 2)).any (fun u => j.nibble i u % 4 = j.nibble i u / 4))
  match bad with
  | some i => need (j.nm = 0 || j.lenient) .sparseMeta (((j.step % 65536 + 2 ^ 16 * i : Nat)) : Int)
  | none => pure ()

/-- One step of MOP or MSQD: what it reads, in R195's order, and the cells it leaves (R199). -/
def matStep (j : MatJob) : Op MatJob := do
  let ia ← matGroup j j.a j.ga
  let ib ← matGroup j j.b j.gb
  let sa ← matScales j j.afmt j.asr j.amx (j.sa, j.sa2)
  let sb ← matScales j j.bfmt j.bsr j.bmx (j.sb, j.sb2)
  let md ← if j.nm ≠ 0 && j.step % (16 / j.e) = 0 then matRead j (Fin.ofNat 64 j.mreg) else pure j.md
  let j := { j with sa := sa.1, sa2 := sa.2, sb := sb.1, sb2 := sb.2, md := md }
  metaNeed j
  let rows := (List.range 32).map (matRow j j.afmt j.amx (j.nm = 1) sa ia j.na)
  let cols := (List.range (accCols j.accf)).map (matRow j j.bfmt j.bmx (j.nm = 2) sb ib j.nb)
  let s ← get
  let out := matCells j s.accRegs rows cols
  let s := (s.setAcc (toCells j.accf (out.map (·.1)))).count 5
  set { s with core := { s.core with aovf := s.core.aovf || out.any (·.2) } }
  pure { j with step := j.step + 1 }

/-! ### Progress of the queue (R190, R192) -/

/-- The job that may act: the first that has not finished with the accumulator (R190). -/
def Core.activeJob (c : Core) : Option MatJob := c.mq.find? (fun j => !j.captured)

/-- A queued job replaced. -/
def Core.setMat (c : Core) (j : MatJob) : Core :=
  { c with mq := c.mq.map (fun k => if k.ri = j.ri then j else k) }

/-- A job of the queue complete, with its status (R190). -/
def Core.endMat (c : Core) (ri status cause : Nat) : Core :=
  { c with mq := c.mq.filter (fun k => k.ri ≠ ri) }.completeJob clsMatrix ri
    (fun r => { r with status := status, cause := cause })

/-- A step that could not complete pauses its job (R192); an uncorrectable error ends it (R236). -/
def Core.pauseMat (c : Core) (j : MatJob) (t : Trap) : Core :=
  if t.cause == .ue then c.endMat j.ri stFAULT t.cause.code
  else
    { c.setMat { j with paused := some t, told := false } with
      mfvalid := true
      mfcause := t.cause.code
      mfstep := j.step
      mfjob := (jobId clsMatrix j.ri j.ser).toNat % 2 ^ 32 }

/-- One step of the executing accumulation job of the focused core, acting beside h0. -/
def State.matAdvance (s : State) : State :=
  if s.core.stopped then s
  else
    match s.core.activeJob with
    | none => s
    | some j =>
      if j.kind == .drain || j.paused.isSome then s
      else
        let j := { j with begun := true }
        match matStep j s with
        | .ok j' s' =>
          if j.kst ≤ j'.step then { s' with core := s'.core.endMat j.ri stDONE 0 } else { s' with core := s'.core.setMat j' }
        | .error (.trap t) s' => { s' with core := s.core.pauseMat j t }
        | .error _ _ => s

/-- MATRIX_STEP (R199). -/
def execMatrixStep (e : Nat) (s : State) : Host.Outcome State Fault Refusal :=
  atCore e s (fun s => s.asCtx 0 (fun s => s.settle.matAdvance))

/-! ### MDRAIN (R206 to R209) -/

/-- Output types (R206). -/
def drainType (accf : Nat) (mxo : Bool) (t : Nat) : Bool :=
  if mxo then accf = 0 && tyMx t
  else if accf = 0 then t = 10 || t = 8 || t = 9 || t = 12 || t = 13
  else if accf = 1 then t = 4 || t = 2 || t = 0 || t = 10
  else accf = 2 && (t = 11 || t = 10)

/-- Whether a conversion out of the accumulator rounds (R60). -/
def accRounds (accf t : Nat) : Bool := !(accf = 1 && tyIntAll t)

/-- Bytes of the drained image (R206). -/
def drainBytes (accf t : Nat) (mxo : Bool) : Nat :=
  if mxo then 32 * (4 * tyMemBits t) + 32 else 32 * (accCols accf * (tyWidth t / 8))

/-- The drained image (R206): rows in their natural width, or MX blocks with their scales behind them. -/
def drainImage (j : MatJob) (rs : List Nat) : List Byte :=
  let r : Rnd := { mode := j.rnd, sat := j.sat, seed := j.srSeed.toNat, t := j.srT.toNat }
  let col (c : Nat) : Nat := if j.accf = 2 then 2 * c else c
  if j.mxo then
    let blocks := (List.range 32).map (fun i => mxPack j.ofmt r (fun c => i * 32 + c) (accRow rs j.accf i))
    blocks.flatMap (fun b => leBytes (4 * tyMemBits j.ofmt) (joinElems (tyMemBits j.ofmt) b.2)) ++
      blocks.map (fun b => BitVec.ofNat 8 b.1)
  else
    (List.range 32).flatMap (fun i => (accRow rs j.accf i).zipIdx.flatMap (fun v =>
      leBytes (tyWidth j.ofmt / 8) (encodeTy j.ofmt r (i * 32 + col v.2) (j.accf = 1) v.1)))

/-- The target EID of C[b] (R206). -/
def drainTarget (w : Word) : Nat := fld w 10 12 * 4096 + fld w 8 2 * 1024 + coreOfXY (fld w 0 4) (fld w 4 4)

/-- The lowest byte of an image outside the own-pool window (R207). -/
def drainOut (a n : Nat) : Option Nat :=
  if a < Config.LW + 0x100000 then some a
  else if Config.LW + 0x140000 < a + n then some (max a (Config.LW + 0x140000))
  else none

/-- ILLEGAL of MDRAIN but for C[b] (R207). -/
def State.drainBad (s : State) : Bool :=
  let mxo := (s.ro 2).getLsbD 1
  s.helper || !s.core.mm || !o0ok s.o0 || !o1ok s.o1 || !drainType (oACCF s.o1) mxo (oOFMT s.o1) ||
    !s.tyAllowed (oOFMT s.o1) || (s.rndBad && accRounds (oACCF s.o1) (oOFMT s.o1)) || fld (s.ro 2) 2 62 ≠ 0 ||
    ((s.ro 2).getLsbD 0 && decide ((s.ro 3).toNat < 64))

/-- MDRAIN (R206, R207): an odd handler of a wake-up raises ALIGN after the checks of R207, and the task of a wake-up in this
package is counted before the instruction retires, as SEND's is (R329, R397, R421). -/
def execMdrain (st : Fin 8) (d a b : Fin 32) (s : State) : Host.Outcome State Fault Refusal :=
  issue { st := st.val, ill := s.drainBad, reads := [rdC a, rdC b, rdO 0, rdO 1, rdO 2, rdO 3, rdO 4, rdO 5] }
    (do
      let s ← get
      let w := s.rx b
      let c := s.rc a
      let accf := oACCF s.o1
      let t := oOFMT s.o1
      let mxo := (s.ro 2).getLsbD 1
      let n := drainBytes accf t mxo
      let target := drainTarget w
      legal (hiClear w 22)
      capNeed c ([pS] ++ if target = s.myEid then [] else [pM]) (capA c) n 128
      match drainOut (capA c) n with
      | some x => raise .page x
      | none => pure ()
      need (!((s.ro 2).getLsbD 0 && (s.ro 3).getLsbD 0)) .align (s.ro 3).toNat
      await (decide (s.core.mq.length < 4))
      if (s.ro 2).getLsbD 0 && eidPkg target == s.pkgNo then countTask
      let s ← get
      let (s, r) := s.openJob clsMatrix id
      let j : MatJob :=
        { kind := .drain, ri := r.ri, ser := r.ser, accf := accf, rnd := s.rnd, sat := oSAT s.o0, srT := s.core.srctr
          srSeed := s.core.srseed, ofmt := t, mxo := mxo, wake := (s.ro 2).getLsbD 0, hnd := (s.ro 3).toNat
          arg0 := s.ro 4, arg1 := s.ro 5, addr := BitVec.ofNat 80 (capA c), target := target, pcc := s.ctx.pcc
          launch := s.myLaunch }
      let s := { s with core := { s.core with mq := s.core.mq ++ [j] } }
      set ((s.wx d r.word).srDone (accRounds accf t))) s

/-- Bytes in pieces of at most 2,048, each with its offset. -/
def chunks (o : Nat) : Nat → List Byte → List (Nat × List Byte)
  | 0, _ => []
  | n + 1, bs => if bs.isEmpty then [] else (o, bs.take 2048) :: chunks (o + 2048) n (bs.drop 2048)

/-- The active drain of the focused core captured and sent (R208). -/
def State.capture (s : State) : State :=
  if s.core.stopped then s
  else
    match s.core.activeJob with
    | none => s
    | some j =>
      if j.kind != .drain then s
      else
        let bs := drainImage j s.accRegs
        let off := j.addr.toNat - (Config.LW + 0x100000)
        let ps := chunks off 16 bs
        let s := { s with core := s.core.setMat { j with captured := true, out := ps.length } }
        ps.foldl (fun s p =>
          (s.sendFrom (j.thread s.core.id)
            { deid := j.target, handler := 9, arg0 := BitVec.ofNat 64 p.1, arg1 := BitVec.ofNat 64 off
              arg2 := BitVec.ofNat 64 bs.length, data := p.2 } (fun r => { r with job := some (clsMatrix, j.ri) })).1) s

/-- DRAIN_CAPTURE (R208). -/
def execDrainCapture (e : Nat) (s : State) : Host.Outcome State Fault Refusal :=
  atCore e s (fun s => s.asCtx 0 (fun s => s.settle.capture))

/-- The wake-up message of a drain (R208, R421): its task is pinned NONE, and one for another package brings its PCC with it
(log 14). -/
def State.drainWake (s : State) (j : MatJob) : State :=
  let here := eidPkg j.target == s.pkgNo
  let n := drainBytes j.accf j.ofmt j.mxo
  let pcc := capMove j.pcc j.hnd
  let s := { s with core := s.core.setMat { j with waking := true } }
  (s.sendFrom (j.thread s.core.id)
    { deid := j.target, handler := j.hnd, arg0 := j.arg0, arg1 := j.arg1, arg2 := j.addr.truncate 64
      arg3 := BitVec.ofNat 64 (s.myEid + n * 2 ^ 32), pcc := pcc, launch := if here then j.launch else 0, pin := 2
      data := if here then [] else leBytes 16 pcc.bits.toNat ++ [BitVec.ofNat 8 (b2n pcc.tag)] }
    (fun r => { r with job := some (clsMatrix, j.ri) })).1

/-- A drain's end (R208 to R210): an abandoned one completes with CANCELLED, and one that sends no wake-up message releases the
count of its task (R329). -/
def State.drainEnd (s : State) (j : MatJob) (status cause : Nat) : State :=
  let s := if s.wakeCounted j then s.countDown s.asid j.level else s
  { s with core := if j.gone then s.core.endMat j.ri stCANCELLED 0 else s.core.endMat j.ri status cause }

/-- The reply to a packet of a drain of the focused core (R208, R209). A wake-up lost on the way was uncounted when its pair failed
(R299, R329). -/
def State.drainReply (s : State) (ri status : Nat) : State :=
  match s.core.mq.find? (fun j => j.ri == ri && j.captured) with
  | none => s
  | some j =>
    if j.waking then
      let s := if (status = rsREFUSED || status = rsFAULT) && eidPkg j.target == s.pkgNo then s.countDown s.asid j.level else s
      s.drainEnd j (if status = rsDONE then stDONE else if status = rsLINKFAIL then stLINKFAIL else stREFUSED) 0
    else
      let j := { j with out := j.out - 1, bad := max j.bad status }
      let s := { s with core := s.core.setMat j }
      if j.out ≠ 0 then s
      else if j.bad = rsDONE then
        (if j.wake && !j.gone then s.drainWake j else s.drainEnd j stDONE 0)
      else if j.bad = rsLINKFAIL then
        (s.smearPool j.target (j.addr.toNat - (Config.LW + 0x100000)) (drainBytes j.accf j.ofmt j.mxo)).drainEnd j stLINKFAIL 0
      else s.drainEnd j stFAULT (if j.bad = rsFAULT then Cause.page.code else 0)

/-! ### The mode and the queue (R188, R189, R201, R205, R210) -/

/-- Whether every queued job has finished with the accumulator (R190). -/
def Core.accFree (c : Core) : Bool := c.mq.all (·.captured)

/-- Variable-latency writes to v0 to v35 not yet made (R188). -/
def State.accWrites (s : State) : Bool := s.ctx.pend.any (fun p => p.file == .v && p.idx < 36)

/-- MMODE (R188, R189): no effect where the mode is already as asked. -/
def execMmode (st : Fin 8) (n : Nat) (s : State) : Host.Outcome State Fault Refusal :=
  let busy : Trap := ⟨.accBusy, BitVec.ofNat 80 s.core.mq.length⟩
  issue { st := st.val, ill := s.helper || decide (1 < n)
          acc := if n = 0 && s.core.mm && !s.core.mq.isEmpty then some busy else none }
    (do
      let s ← get
      if n = 1 && !s.core.mm then await (!s.accWrites)
      upd fun s => if s.core.mm = decide (n = 1) then s
        else { s with core := { s.core with mm := n = 1, meta_ := none } }) s

/-- ACCZ (R205). -/
def execAccz (st : Fin 8) (s : State) : Host.Outcome State Fault Refusal :=
  issue { st := st.val, ill := s.helper || !s.core.mm }
    (do
      await (← get).core.accFree
      upd fun s =>
        let s := s.setAcc []
        { s with core := { s.core with aovf := false } }) s

/-- MWAIT (R210): with no jobs it has no effect (R188). -/
def execMwait (st : Fin 8) (n : Nat) (s : State) : Host.Outcome State Fault Refusal :=
  issue { st := st.val, ill := s.helper || decide (1 < n) }
    (do
      if n = 1 then upd fun s => if s.core.mq.isEmpty then s else s.abandonMatrix
      await (← get).core.mq.isEmpty) s

/-- MNMB (R201). -/
def execMnmb (st : Fin 8) (a : Fin 64) (s : State) : Host.Outcome State Fault Refusal :=
  issue { st := st.val, ill := s.helper || !s.core.mm || s.writePort a, acc := s.owned [a] }
    (do
      await (!(← get).portBusy a)
      upd fun s => { s with core := { s.core with meta_ := some a } }) s

/-! ### Reading the accumulator (R202 to R204) -/

/-- Target types of ACCRD (R202). -/
def accrdType (accf t : Nat) : Bool :=
  if accf = 0 then t = 10 || t = 8 || t = 9
  else if accf = 1 then t = 4 || t = 10
  else accf = 2 && (t = 11 || t = 10)

/-- The step word (R203). -/
def Core.stepWord (c : Core) : Word :=
  let run : Option MatJob := c.activeJob.filter (fun j => j.kind != .drain && j.begun)
  BitVec.ofNat 64 (((run.map (·.step)).getD 0) % 65536 + b2n run.isSome * 2 ^ 16 + c.mq.length % 8 * 2 ^ 17 +
    b2n c.aovf * 2 ^ 20 + b2n (c.mq.any (·.paused.isSome)) * 2 ^ 21)

/-- ACCRD (R202, R203). -/
def execAccrd (st : Fin 8) (d : Fin 64) (a b : Fin 32) (s : State) : Host.Outcome State Fault Refusal :=
  let accf := oACCF s.o1
  let u : VUse := { more := [d] }
  let rounds := accRounds accf s.vt
  issue (u.gate st.val (!s.core.mm || !o1ok s.o1 || s.vtBad (accrdType accf) || (s.rndBad && rounds)) [rdC a] s)
    (do
      let s ← get
      let row := accRow s.accRegs accf (fld (s.rx a) 0 5)
      let v := ofElems (tyWidth s.vt) (row.zipIdx.map (fun x => encodeTy s.vt s.round x.2 (accf = 1) x.1))
      upd fun s => ((s.wv d v).wx b s.core.stepWord).srDone rounds) s

/-- Whether value x stands before y in MTOPK's order: the larger first, NaN last (R204). -/
def accBefore (x y : Val) : Bool := if x == .nan then false else if y == .nan then true else vCmp x y == .gt

/-- Columns of a row, the largest first, ties to the lower column. -/
def topInsert (x : Nat × Val) : List (Nat × Val) → List (Nat × Val)
  | [] => [x]
  | y :: ys => if accBefore y.2 x.2 then y :: topInsert x ys else x :: y :: ys

def topCols (row : List Val) : List Nat := ((row.zipIdx.map (fun p => (p.2, p.1))).foldr topInsert []).map (·.1)

/-- MTOPK (R204). -/
def execMtopk (st : Fin 8) (d : Fin 64) (k : Nat) (s : State) : Host.Outcome State Fault Refusal :=
  let range := (List.range k).map (fun r => Fin.ofNat 64 (d.val + r))
  let u : VUse := { more := range }
  issue (u.gate st.val (!s.core.mm || k = 0 || decide (8 < k) || decide (64 < d.val + k) || !o1ok s.o1 || oACCF s.o1 = 3)
      [] s)
    (do
      let s ← get
      await (s.core.mq.all (fun j => j.kind == .drain))
      let rs := s.accRegs
      let tops := (List.range 32).map (fun i => topCols (accRow rs (oACCF s.o1) i))
      upd fun s => range.zipIdx.foldl (fun s x =>
        s.wv x.1 (ofElems 32 (tops.map (fun t => t.getD x.2 0)))) s) s

end Sys2Proof.Machine
end

