-- ==== Sys2Proof/Machine/Tape.lean ====
section
/-! DEFINITION. The Armoire tape channel, major 0x17 (R361 to R382): records as they are built and read back, the tape
thread's accesses, the instructions, and the engine's spill writes and chunk fetches. -/

namespace Sys2Proof.Machine

/-! ### Records (R364 to R368) -/

/-- A frame word (R365). -/
def frame (typ bpos : Nat) (f : Bool) (len arg : Nat) : Word :=
  BitVec.ofNat 64 (typ % 256 + bpos % 64 * 2 ^ 8 + b2n f * 2 ^ 14 + len % 65536 * 2 ^ 16 + arg % 2 ^ 32 * 2 ^ 32)

/-- A record: its frame, its payload, and the frame again. -/
def record (fr : Word) (payload : List Word) : List Word := fr :: (payload ++ [fr])

/-- The record that an open record closes as (R366); none when nothing is open. -/
def OpenRec.words : OpenRec → List Word
  | .none => []
  | .vals b vs => record (frame 1 b false vs.length 0) vs
  | .zrun b n => record (frame 2 b false 0 n) []

/-- TYPE of an open record, 0 when there is none (R380). -/
def OpenRec.typ : OpenRec → Nat
  | .none => 0
  | .vals _ _ => 1
  | .zrun _ _ => 2

/-- A tape with words written at P, and those words. -/
abbrev TapeOut := Tape × List Word

/-- Words of a closed record put at P (R367). -/
def TapeOut.put (x : TapeOut) (ws : List Word) : TapeOut :=
  ({ x.1 with p := x.1.p + 8 * ws.length }, x.2 ++ ws)

/-- The open record closed. -/
def TapeOut.close (x : TapeOut) : TapeOut := TapeOut.put ({ x.1 with cur := .none }, x.2) x.1.cur.words

/-- A value recorded (R367). -/
def Tape.recVal (t : Tape) (v : Word) : TapeOut :=
  let fresh : TapeOut := TapeOut.close (t, [])
  let x : TapeOut :=
    match t.cur with
    | .vals b vs => if v ≠ 0 then ({ t with cur := .vals b (vs ++ [v]) }, [])
        else ({ fresh.1 with cur := .zrun t.bn 1 }, fresh.2)
    | .zrun b n => if v = 0 then ({ t with cur := .zrun b (n + 1) }, [])
        else ({ fresh.1 with cur := .vals t.bn [v] }, fresh.2)
    | .none => ({ t with cur := if v = 0 then .zrun t.bn 1 else .vals t.bn [v] }, [])
  match x.1.cur with
  | .vals _ vs => if 255 ≤ vs.length then x.close else x
  | .zrun _ n => if 2 ^ 32 - 1 ≤ n then x.close else x
  | .none => x

/-- The open branch word written as a BITS record (R368). -/
def TapeOut.bitsOut (x : TapeOut) : TapeOut :=
  if x.1.bn = 0 then x
  else TapeOut.put ({ x.1 with bn := 0, bw := 0 }, x.2) (record (frame 3 0 false 1 x.1.bn) [x.1.bw])

/-- A branch bit recorded (R367, R368). -/
def Tape.recBit (t : Tape) (b : Bool) : TapeOut :=
  let x := TapeOut.close (t, [])
  let t : Tape := { x.1 with bw := x.1.bw ||| BitVec.ofNat 64 (b2n b * 2 ^ x.1.bn), bn := x.1.bn + 1, bits := x.1.bits + 1 }
  if 64 ≤ t.bn then TapeOut.bitsOut (t, x.2) else (t, x.2)

/-- The 64-bit words of a register image, lowest first. -/
def vWords (v : VReg) : List Word :=
  let x := v.toNat
  (List.range 16).map (fun i => BitVec.ofNat 64 (elemN x 64 i))

/-- Presence mask of some words (R366). -/
def maskOf : List Word → Nat
  | [] => 0
  | w :: ws => b2n (w != 0) + 2 * maskOf ws

/-- A VEC record (R366). -/
def Tape.recVec (t : Tape) (pair : Bool) (ws : List Word) : TapeOut :=
  let x := TapeOut.close (t, [])
  let nz := ws.filter (· ≠ 0)
  x.put (record (frame 4 x.1.bn pair nz.length (maskOf ws)) nz)

/-- An OCA record (R366, R374). -/
def Tape.recOca (t : Tape) (first : Nat) (fin : Option Word) (es : List Word) : TapeOut :=
  let x := TapeOut.close (t, [])
  x.put (record (frame 5 x.1.bn fin.isSome (es.length + fin.toList.length) (es.length + first % 65536 * 2 ^ 7))
    (fin.toList ++ es))

/-- Whether the stream has room for what an instruction makes of it (R364). -/
def TapeOut.fits (x : TapeOut) : Bool := decide (x.1.p + 8 * x.1.cur.words.length + 24 ≤ x.1.cap)

/-- Spill backlog in bytes after it (R363). -/
def TapeOut.backlog (t : Tape) (x : TapeOut) : Nat :=
  if t.spill.isSome then 4096 * (t.staged.length + (x.1.p / 4096 - t.p / 4096)) else 0

/-! ### The tape thread (R381, R382) -/

/-- Whether a publication at this package has begun and holds lines: the tape thread makes no access before it is done (R310).
DESIGN CHOICE (log 5): it waits for every line, not for those held alone. -/
def State.tapeHeld (s : State) : Bool := s.groups.any (·.holding)

/-- The instruction waits for that. -/
def tapeWait : Op Unit := do await (!(← get).tapeHeld)

/-- The tape thread of a core. -/
def tapeThread (e : Nat) : Nat × Nat := (e, 2 ^ 39)

/-- Base and length of a region. -/
def regBase (c : Cap) : Nat := (capBase c).toNat
def regLen (c : Cap) : Nat := (capTop c - capBase c).toNat

/-- Whose translation the tape thread uses in a region. -/
def State.tapeWho (s : State) (c : Cap) : Who :=
  { asid := s.core.tape.asid, root := (s.jobOf s.core.tape.asid).map (·.spec.root), h := capHas c pH }

/-- Address of a byte of the stream in the tape region (R363). -/
def Tape.at_ (t : Tape) (off : Nat) : Nat :=
  regBase t.region + (if t.spill.isSome then off % max 1 (regLen t.region) else off)

/-- The channel broken by a failed access (R382). -/
def State.breakTape (s : State) (ue : Bool) : State :=
  { s with core := { s.core with tape := { s.core.tape with st := .broken, fcause := ue } } }

/-- Bytes written by the tape thread at an address; the channel is broken where it fails. -/
def State.tapeWrite (s : State) (c : Cap) (va : Nat) (bs : List Byte) : State :=
  match segsOf (s.tapeWho c) .store (pieces va bs.length) s with
  | .error (.trap t) s' => s'.breakTape (t.cause == .ue)
  | .error _ s' => s'.breakTape false
  | .ok gs s' =>
    (gs.foldl (fun (x : State × List Byte) g =>
      ((x.1.dirty g).writeAs (tapeThread x.1.core.id) x.1.myEid g.va g.place 8 g.cached (x.2.take g.len), x.2.drop g.len))
      (s', bs)).1

/-- Bytes read by the tape thread; none, with the channel broken, where it fails. -/
def State.tapeRead (s : State) (c : Cap) (va n : Nat) : State × Option (List Byte) :=
  match (do
      let gs ← segsOf (s.tapeWho c) .load (pieces va n)
      errorNeed .load gs
      pure gs : Op (List Seg)) s with
  | .error (.trap t) s' => (s'.breakTape (t.cause == .ue), none)
  | .error _ s' => (s'.breakTape false, none)
  | .ok gs s' =>
    let r := gs.foldl (fun (x : State × List Byte) g =>
      let y := (x.1.l2Fetch g.cached g.place g.len).readAs (tapeThread x.1.core.id) g.va g.place g.len 8
      (y.1, x.2 ++ y.2)) (s', [])
    (r.1, some r.2)

/-- Words of closed records written from an offset of the stream. -/
def State.tapePut (s : State) (off : Nat) : List Word → State
  | [] => s
  | w :: ws =>
    let t := s.core.tape
    if t.st == .broken then s
    else (s.tapeWrite t.region (t.at_ off) (leBytes 8 w.toNat)).tapePut (off + 8) ws

/-- What a recording instruction has made of the tape takes effect: its closed records are written, and chunks that
have become full are staged (R363, R367). -/
def State.tapeDone (s : State) (x : TapeOut) : State :=
  let old := s.core.tape
  let full := if old.spill.isSome then
      (List.range (x.1.p / 4096 - old.p / 4096)).map (fun i => old.p / 4096 + i) else []
  let s := { s with core := { s.core with tape := { x.1 with staged := old.staged ++ full } } }
  s.tapePut old.p x.2

/-- TAPE_FULL (R379). -/
def tapeFull {α : Type} : Op α := do
  let t := (← get).core.tape
  raise .tapeFull ((t.p % 2 ^ 48 + 2 ^ 62 * b2n (t.st == .broken) : Nat) : Int)

/-- Bytes kept for the record of the arrivals that an OCACC in progress has consumed, its FIN word counted, so that it always fits
(R374). -/
def State.ocaKept (s : State) : Nat :=
  match (s.core.ctxs[(0 : Fin 11)]).wait with
  | .ocacc _ es => if es.isEmpty then 0 else 8 * (es.length + 3)
  | _ => 0

/-- A recording instruction's effect on the stream: room first, then the backlog (R363, R364). -/
def tapeRecord (f : Tape → TapeOut) : Op Unit := do
  let s ← get
  let t := s.core.tape
  let x := f t
  if TapeOut.fits ({ x.1 with p := x.1.p + s.ocaKept }, x.2) then pure () else tapeFull
  await (decide (TapeOut.backlog t x ≤ 65536))
  upd fun s => s.tapeDone x

/-! ### Regions (R372, R376) -/

/-- Whether the region lengths are as R372 asks; the spill region is absent for c0. -/
def regionsOk (a : Cap) (b : Option Cap) : Bool :=
  match b with
  | none => 64 ≤ regLen a && regLen a % 8 == 0
  | some b => 80 * 1024 ≤ regLen a && regLen a % 4096 == 0 && regLen b % 4096 == 0

/-- Capacity of a stream in its regions (R363). -/
def regionCap (a : Cap) (b : Option Cap) : Nat :=
  match b with
  | none => regLen a
  | some b => regLen b

/-- The pieces of a spill region: none of them may touch an A or H page (R372). -/
def spillNeed (root : Option Nat) : List (Nat × Nat) → Op Unit
  | [] => pure ()
  | (va, _) :: ps => do
    let s ← get
    match root.bind (fun r => walkLeaf s r va) with
    | some l => need (!l.pte.testBit 4 && !l.pte.testBit 5) .page va
    | none => pure ()
    spillNeed root ps

/-- Checks 2 to 4 of R372. -/
def regionNeed (a : Cap) (b : Option Cap) (ps : List Nat) (k : Acc) : Op Unit := do
  capNeed a ps (capBase a) (regLen a) 1
  match b with
  | none => pure ()
  | some b => capNeed b ps (capBase b) (regLen b) 1
  let al := if b.isSome then 4096 else 8
  need (regBase a % al = 0) .align (regBase a)
  match b with
  | none => pure ()
  | some b => need (regBase b % 4096 = 0) .align (regBase b)
  let s ← get
  let root := s.myJob.map (·.spec.root)
  let _ ← segsOf { asid := s.asid, root := root, h := capHas a pH } k (pieces (regBase a) (regLen a))
  match b with
  | none => pure ()
  | some b => do
    need (regBase b / 2 ^ 64 ≠ 0xFFFF) .page (regBase b)
    spillNeed root (pieces (regBase b) (regLen b))

/-- Whether a tape may begin or play (R362). -/
def Tape.atRest (t : Tape) : Bool := t.st == .idle || t.st == .ended

/-- TBEGIN (R372): ILLEGAL of the o registers' fields belongs to step 2 of R90, in a run-ahead helper too. -/
def execTbegin (st : Fin 8) (a b : Fin 32) (s : State) : Host.Outcome State Fault Refusal :=
  issue { st := st.val, reads := [rdC a, rdC b]
          ill := !hiClear (s.ro 2) 1 || ((s.ro 2).getLsbD 0 && (s.ro 3).toNat % 8 ≠ 0) }
    (unlessAhead do
      let s ← get
      let c := s.rc a
      let sp : Option Cap := if b = 0 then none else some (s.rc b)
      let chk := (s.ro 2).getLsbD 0
      let len := (s.ro 3).toNat
      legal (s.core.tape.atRest && regionsOk c sp && (!chk || decide (len ≤ regionCap c sp)))
      regionNeed c sp [pL, pS, pT] (if chk then .load else .store)
      let t : Tape := { st := if chk then .check else .recording, region := c, spill := sp, cap := regionCap c sp
                        len := if chk then len else 0, asid := s.asid }
      upd fun s => ({ s with core := { s.core with tape := t } } : State).edge s.thread (tapeThread s.core.id)) s

/-- TPLAY (R376). -/
def execTplay (st : Fin 8) (a b : Fin 32) (s : State) : Host.Outcome State Fault Refusal :=
  issue { st := st.val, reads := [rdC a, rdC b], ill := (s.ro 2).toNat % 8 ≠ 0 }
    (unlessAhead do
      let s ← get
      let c := s.rc a
      let sp : Option Cap := if b = 0 then none else some (s.rc b)
      let len := (s.ro 2).toNat
      legal (s.core.tape.atRest && regionsOk c sp && decide (len ≤ regionCap c sp))
      regionNeed c sp [pL, pT] .load
      let t : Tape := { st := .play, region := c, spill := sp, cap := regionCap c sp, len := len, cursor := len
                        fetched := (len + 4095) / 4096, asid := s.asid }
      upd fun s => ({ s with core := { s.core with tape := t } } : State).edge s.thread (tapeThread s.core.id)) s

/-! ### Check mode (R379) -/

/-- Fields of a frame word. -/
def frTyp (w : Word) : Nat := fld w 0 8
def frBpos (w : Word) : Nat := fld w 8 6
def frF (w : Word) : Bool := w.getLsbD 14
def frLen (w : Word) : Nat := fld w 16 16
def frArg (w : Word) : Nat := fld w 32 32

/-- Number of set bits below bit n. -/
def popN (x : Nat) : Nat → Nat
  | 0 => 0
  | n + 1 => b2n (x.testBit n) + popN x n

/-- Whether a frame word is one that R366 allows. -/
def frameOk (w : Word) : Bool :=
  !w.getLsbD 15 &&
  (match frTyp w with
   | 1 => 1 ≤ frLen w && frLen w ≤ 255 && !frF w && frArg w == 0
   | 2 => frLen w == 0 && !frF w && 1 ≤ frArg w
   | 3 => frLen w == 1 && !frF w && 1 ≤ frArg w && frArg w ≤ 64
   | 4 => frLen w == popN (frArg w) 32 && (frF w || frArg w < 65536)
   | 5 => frArg w / 2 ^ 23 == 0 && frArg w % 128 ≤ 64 && frLen w == frArg w % 128 + b2n (frF w)
   | _ => false)

/-- One word of the stream as memory holds it, for the counts of R375 and R380: no access of a thread. -/
def State.streamWord (s : State) (off : Nat) : Word :=
  let t := s.core.tape
  let va := match t.spill with
    | some b => regBase b + off
    | none => regBase t.region + off
  let place := if va / 2 ^ 64 = 0xFFFF then (windowPool s.core.id (va - Config.LW)).map (fun x => poolPlace x.1 x.2.1)
    else s.jobPlace t.asid va .load
  match place with
  | some p => BitVec.ofNat 64 (s.getNat p 8)
  | none => 0

/-- Branch bits in whole records from an offset on, up to the stream's end. -/
def State.bitsAhead (s : State) (off len : Nat) : Nat → Nat
  | 0 => 0
  | n + 1 =>
    if len ≤ off then 0
    else
      let w := s.streamWord off
      (if frTyp w = 3 then frArg w % 128 else 0) + s.bitsAhead (off + 8 * (frLen w + 2)) len n

/-- Branch bits in whole records before a cursor. -/
def State.bitsBefore (s : State) (cur : Nat) : Nat → Nat
  | 0 => 0
  | n + 1 =>
    if cur < 16 then 0
    else
      let w := s.streamWord (cur - 8)
      (if frTyp w = 3 then frArg w % 128 else 0) + s.bitsBefore (cur - 8 * (frLen w + 2)) n

/-- TAPE_DIVERGE (R379). -/
def diverge {α : Type} (typ : Nat) (playing malformed : Bool) (at_ : Nat) : Op α :=
  raise .tapeDiverge ((typ % 256 + 256 * b2n playing + 512 * b2n malformed + at_ % 2 ^ 48 * 65536 : Nat) : Int)

/-- A word of the stream read by the tape thread for checking, from where the whole stream is. -/
def checkWord (off : Nat) : Op Word := do
  let s ← get
  let t := s.core.tape
  let r := match t.spill with
    | some b => s.tapeRead b (regBase b + off) 8
    | none => s.tapeRead t.region (regBase t.region + off) 8
  set r.1
  match r.2 with
  | some bs => pure (BitVec.ofNat 64 (leNat bs))
  | none => tapeFull

/-- The forward reader moved to the next recorded branch word: the word, its bits, and where it goes on. -/
def nextBits (off : Nat) : Nat → Op (Word × Nat × Nat)
  | 0 => diverge 0 false false 0
  | n + 1 => do
    let t := (← get).core.tape
    if t.len ≤ off then diverge 0 false false t.chkd
    else do
      let w ← checkWord off
      if !frameOk w || t.len < off + 8 * (frLen w + 2) then diverge (frTyp w) false true t.chkd
      else if frTyp w = 3 then do
        let b ← checkWord (off + 8)
        pure (b, frArg w, off + 24)
      else nextBits (off + 8 * (frLen w + 2)) n

/-- TRECB in check mode (R379). -/
def checkBit (b : Bool) : Op Unit := do
  let t := (← get).core.tape
  let (w, n, off) ← if t.chkn = 0 then nextBits t.fwd (t.len / 16 + 1) else pure (t.chkw, t.chkn, t.fwd)
  if w.getLsbD 0 == b then
    upd fun s => { s with core := { s.core with tape :=
      { s.core.tape with chkw := w / 2, chkn := n - 1, fwd := off, chkd := t.chkd + 1 } } }
  else diverge 3 false false t.chkd

/-! ### Recording (R362, R373) -/

/-- A recording instruction by the channel's state. -/
def recording (check : Op Unit) (rec_ : Op Unit) : Op Unit := do
  tapeWait
  match (← get).core.tape.st with
  | .idle => pure ()
  | .ended => pure ()
  | .recording => rec_
  | .check => check
  | .play => legal false
  | .broken => tapeFull

/-- TREC (R373). -/
def execTrec (st : Fin 8) (a : Fin 32) (s : State) : Host.Outcome State Fault Refusal :=
  issue { st := st.val, reads := [rdC a] }
    (unlessAhead (do
      let v := (← get).rx a
      recording (pure ()) (tapeRecord (fun t => t.recVal v)))) s

/-- TRECB (R373, R379). -/
def execTrecb (st : Fin 8) (a : Fin 32) (s : State) : Host.Outcome State Fault Refusal :=
  issue { st := st.val, reads := [rdC a] }
    (unlessAhead (do
      let b := (← get).rx a != 0
      recording (checkBit b) (tapeRecord (fun t => t.recBit b)))) s

/-- The register after one, and whether a pair's second register is one that may be named (R373). -/
def pairBad_ (s : State) (n : Nat) (a : Fin 64) : Bool := decide (1 < n) || (n = 1 && (a = 63 || s.boundPort (succV_ a)))
where
  /-- v(a + 1). -/
  succV_ (a : Fin 64) : Fin 64 := a + 1

/-- The gate of TRECV and TPOPV. A run-ahead helper, in which they retire with no effect, is not ILLEGAL for them, and meets every
other fault of the first four steps (R90, R371). -/
def tapeGate (u : VUse) (st : Nat) (bad : Bool) (reads : List (RegFile × Nat)) (s : State) : Gate :=
  let g := u.gate st bad reads s
  if s.ctx.ahead then { g with ill := bad || u.portBad s } else g

/-- TRECV (R373). -/
def execTrecv (st : Fin 8) (a : Fin 64) (n : Nat) (s : State) : Host.Outcome State Fault Refusal :=
  let pair := n = 1
  let u : VUse := { srcs := [a], more := if pair then [a + 1] else [] }
  issue (tapeGate u st.val (pairBad_ s n a) (if pair then [rdV (a + 1)] else []) s)
    (unlessAhead (recording (pure ())
      (vecRun u none (fun rd => do
        let s ← get
        tapeRecord (fun t => t.recVec pair (vWords (rd a) ++ (if pair then vWords (s.rv (a + 1)) else [])))
        pure none)))) s

/-! ### TEND -/

/-- Every chunk staged written to the spill region, and the last part of the stream after them (R375). -/
def State.spillChunk (s : State) (c n : Nat) : State :=
  let t := s.core.tape
  match t.spill with
  | none => s
  | some b =>
    if t.st == .broken then s
    else
      match s.tapeRead t.region (t.at_ (4096 * c)) n with
      | (s, some bs) => s.tapeWrite b (regBase b + 4096 * c) bs
      | (s, none) => s

/-- TEND from REC: records closed and everything written (R375). -/
def State.endRecording (s : State) : State :=
  let s := s.tapeDone (TapeOut.bitsOut (TapeOut.close (s.core.tape, [])))
  let t := s.core.tape
  if t.spill.isSome then
    let s := t.staged.foldl (fun s c => s.spillChunk c 4096) s
    if t.p % 4096 = 0 then s else s.spillChunk (t.p / 4096) (t.p % 4096)
  else s

/-- The channel after a TEND. -/
def State.tapeTo (s : State) (st : TapeSt) : State := { s with core := { s.core with tape := { st := st } } }

/-- TEND waits for a publication's lines; an interrupt is taken once it has completed (R375). -/
def tendWait : Op Unit := do
  if (← get).tapeHeld then do
    upd fun s => s.setCtx { s.ctx with wait := .ending }
    waitHere

/-- TEND (R375): its return is the join of the tape thread (R381). -/
def execTend (st : Fin 8) (d : Fin 32) (s : State) : Host.Outcome State Fault Refusal :=
  issue { st := st.val, noint := true }
    (unlessAhead do
      let s ← get
      let t := s.core.tape
      legal (!t.atRest)
      tendWait
      let s := s.edge (tapeThread s.core.id) s.thread
      match t.st with
      | .recording =>
        let s := s.endRecording.edge (tapeThread s.core.id) s.thread
        if s.core.tape.st == .broken then set ((s.tapeTo .idle).wx d (BitVec.allOnes 64))
        else set ((s.tapeTo .ended).wx d (BitVec.ofNat 64 s.core.tape.p))
      | .check =>
        set ((s.tapeTo .ended).wx d (BitVec.ofNat 64 (t.chkn + s.bitsAhead t.fwd t.len (t.len / 16 + 1))))
      | .play => set ((s.tapeTo .idle).wx d (BitVec.ofNat 64 t.cursor))
      | _ => set ((s.tapeTo .idle).wx d (BitVec.allOnes 64))) s

/-! ### Playback (R369, R377) -/

/-- Words of the stream read for playback: a pop waits for chunks that have not been fetched (R376). -/
def playWords (off n : Nat) : Op (List Word) := do
  let s ← get
  let t := s.core.tape
  if t.spill.isSome then await (decide (t.fetched ≤ off / 4096))
  (List.range n).foldlM (fun ws i => do
    let s ← get
    let r := s.tapeRead t.region (t.at_ (off + 8 * i)) 8
    set r.1
    match r.2 with
    | some bs => pure (ws ++ [BitVec.ofNat 64 (leNat bs)])
    | none => tapeFull) []

/-- Words of an image put back by their presence mask (R366). -/
def unmask : Nat → Nat → List Word → List Word
  | 0, _, _ => []
  | n + 1, m, ws =>
    if m % 2 = 1 then ws.headD 0 :: unmask n (m / 2) (ws.drop 1) else 0 :: unmask n (m / 2) ws

/-- A register of 64-bit words. -/
def ofWords (ws : List Word) : VReg := ofElems 64 (ws.map (·.toNat))

/-- The record that ends at the cursor, read whole (R369): the tape with it as current record or branch word. -/
def loadRecord (t : Tape) : Op Tape := do
  let tail := (← playWords (t.cursor - 8) 1).headD 0
  let size := 8 * (frLen tail + 2)
  let bad {α : Type} : Op α := diverge (frTyp tail) true true (t.cursor - 8)
  if !frameOk tail || t.cursor < size then bad
  else do
    let at_ := t.cursor - size
    let ws ← playWords at_ (frLen tail + 1)
    let body := ws.drop 1
    if ws.headD 0 ≠ tail then bad
    else
      let b := frBpos tail
      match frTyp tail with
      | 1 => pure { t with cursor := at_, play := .vals b at_ body }
      | 2 => pure { t with cursor := at_, play := .zrun b at_ (frArg tail) }
      | 3 => if 0 < t.r then bad else pure { t with cursor := at_, w := body.headD 0, r := frArg tail, wAt := at_ }
      | 4 =>
        let img := unmask 32 (frArg tail) body
        pure { t with cursor := at_, play := .vec b at_ (frF tail) (ofWords (img.take 16)) (ofWords (img.drop 16)) }
      | _ =>
        let fin := frF tail
        pure { t with cursor := at_, play := .oca b at_ fin (frArg tail / 128) (if fin then body.headD 0 else 0)
                        (if fin then body.drop 1 else body) }

/-- An item of the stream, met by a pop (R369). -/
inductive Item where
  | none
  | bit (b : Bool)
  | val (typ : Nat) (v : Word)
  | vec (pair : Bool) (v0 v1 : VReg)
  | oca (fin : Bool) (first : Nat) (finw : Word) (es : List Word)
deriving DecidableEq, Repr

/-- TYPE of an item (R366). -/
def Item.typ : Item → Nat
  | .none => 0
  | .bit _ => 3
  | .val t _ => t
  | .vec _ _ _ => 4
  | .oca _ _ _ _ => 5

/-- BPOS of a current record with elements left, and its item: its last element left, with what remains, and where the
record is. -/
def CurRec.last : CurRec → Option (Nat × Item × CurRec × Nat)
  | .none => Option.none
  | .vals b a vs =>
    match vs.getLast? with
    | some v => some (b, .val 1 v, if vs.length ≤ 1 then .none else .vals b a vs.dropLast, a)
    | Option.none => Option.none
  | .zrun b a n => if n = 0 then Option.none else some (b, .val 2 0, if n ≤ 1 then .none else .zrun b a (n - 1), a)
  | .vec b a p v0 v1 => some (b, .vec p v0 v1, .none, a)
  | .oca b a f k fw es => some (b, .oca f k fw es, .none, a)

/-- The last branch bit left. -/
def Tape.lastBit (t : Tape) : Item × Tape × Nat := (.bit (t.w.getLsbD (t.r - 1)), { t with r := t.r - 1 }, t.wAt)

/-- The next item, the tape once it is consumed, and the place of its record (R369). -/
def nextItem (t : Tape) : Nat → Op (Item × Tape × Nat)
  | 0 => pure (.none, t, 0)
  | n + 1 =>
    match t.play.last with
    | some (b, it, rest, a) => if b < t.r then pure t.lastBit else pure (it, { t with play := rest }, a)
    | Option.none => do
      let early ← if t.r = 0 then pure false
        else if t.cursor = 0 then pure true
        else do
          let tail := (← playWords (t.cursor - 8) 1).headD 0
          pure (decide (frBpos tail < t.r))
      if early then pure t.lastBit
      else if t.cursor = 0 then pure (.none, t, 0)
      else do
        let t ← loadRecord { t with play := .none }
        nextItem t n

/-- A pop (R377): its item matches, or TAPE_DIVERGE with the reader unchanged; it consumes the item when it completes. -/
def pop (f : Item → Op Bool) : Op Unit := do
  tapeWait
  let t := (← get).core.tape
  match t.st with
  | .play => do
    let (it, t', a) ← nextItem t 4
    let ok ← f it
    if ok then upd fun s => { s with core := { s.core with tape := t' } }
    else diverge it.typ true false a
  | .broken => tapeFull
  | _ => legal false

/-- TPOP cd, 1 once its item is there (R378): its log stores meet watchpoints as the context's stores do (R230). -/
def popOca (d : Fin 32) (fin : Bool) (first : Nat) (finw : Word) (es : List Word) : Op Unit := do
  let s ← get
  let r := s.core.oc
  need (decide (first + es.length ≤ r.nc)) .channel (((first + es.length) % 2 ^ 24 + 2 ^ 63 : Nat) : Int)
  match (List.range es.length).find? (fun i => decide (r.nc ≤ fld (es.getD i 0) 0 15)) with
  | some i => raise .channel ((fld (es.getD i 0) 0 16 + i * 65536 : Nat) : Int)
  | none => pure ()
  let a := capA r.lcap + 8 * first
  let gs ← segsOf (s.who r.lcap) .store (pieces a (8 * es.length))
  goodNeed .store gs
  watchNeed .store a (8 * es.length)
  upd fun s => (s.storeSegs 4 gs (es.flatMap (fun w => leBytes 8 w.toNat))).wx d
    (BitVec.ofNat 64 (es.length + 128 * b2n fin + first % 65536 * 2 ^ 8 + fld finw 0 16 * 2 ^ 24 +
      fld finw 16 11 * 2 ^ 40))

/-- TPOP (R377, R378). -/
def execTpop (st : Fin 8) (d : Fin 32) (n : Nat) (s : State) : Host.Outcome State Fault Refusal :=
  issue { st := st.val, ill := decide (1 < n) }
    (unlessAhead (pop (fun it => do
      if n = 1 then legal (← get).core.oc.cfg
      match it with
      | .val _ v => do
        if n = 0 then upd fun s => s.wx d v
        pure (n == 0)
      | .oca fin first finw es => do
        if n = 1 then popOca d fin first finw es
        pure (n == 1)
      | _ => pure false))) s

/-- TPOPB (R377). -/
def execTpopb (st : Fin 8) (d : Fin 32) (s : State) : Host.Outcome State Fault Refusal :=
  issue { st := st.val }
    (unlessAhead (pop (fun it => do
      match it with
      | .bit b => do
        upd fun s => s.wx d (wb b)
        pure true
      | _ => pure false))) s

/-- TPOPV (R377, R91): no register of a pair may be a bound port (R157). -/
def execTpopv (st : Fin 8) (d : Fin 64) (n : Nat) (s : State) : Host.Outcome State Fault Refusal :=
  let pair := n = 1
  let u : VUse := if pair then { more := [d, d + 1] } else { dst := some d }
  issue (tapeGate u st.val (decide (1 < n) || (n = 1 && d = 63)) [] s)
    (unlessAhead (pop (fun it => do
      match it with
      | .vec p v0 v1 =>
        if p == pair then do
          if pair then upd fun s => (s.wv d v0).wv (d + 1) v1
          else vecRun u none (fun _ => pure (some v0))
          pure true
        else pure false
      | _ => pure false))) s

/-! ### TSTAT (R380) -/

/-- Number of a channel state (R362). -/
def TapeSt.code : TapeSt → Nat
  | .idle => 0 | .recording => 1 | .check => 2 | .play => 3 | .ended => 4 | .broken => 5

/-- The tape state word (R380). -/
def Tape.stateWord (t : Tape) : Word :=
  let rec_ := t.st == .recording
  BitVec.ofNat 64 (t.st.code + 8 * b2n t.spill.isSome + (if rec_ then t.cur.typ * 2 ^ 4 else 0) +
    (if rec_ then t.bn else if t.st == .play then t.r else 0) * 2 ^ 12 +
    b2n (t.st == .broken && t.fcause) * 2 ^ 19)

/-- The word TSTAT writes. -/
def State.tapeStat (s : State) (n : Nat) : Word :=
  let t := s.core.tape
  match n with
  | 0 => t.stateWord
  | 1 => BitVec.ofNat 64 (match t.st with
      | .recording => t.p
      | .check => t.fwd
      | .play => t.cursor
      | _ => 0)
  | 2 => BitVec.ofNat 64 (4096 * t.staged.length)
  | _ => BitVec.ofNat 64 (match t.st with
      | .recording => t.bits
      | .check => t.chkd
      | .play => t.r + s.bitsBefore t.cursor (t.cursor / 16 + 1)
      | _ => 0)

/-- TSTAT (R380). -/
def execTstat (st : Fin 8) (d : Fin 32) (n : Nat) (s : State) : Host.Outcome State Fault Refusal :=
  issue { st := st.val, ill := decide (3 < n) }
    (unlessAhead do
      upd fun s => s.wx d (s.tapeStat n)) s

/-! ### Order-code records (R181, R374) -/

/-- The FIN word (R366). -/
def State.finWord (s : State) : Word :=
  BitVec.ofNat 64 (fld (orankWord s.core.oc) 0 16 + fld (ostatWord s.core.oc) 0 11 * 65536)

/-- The record of the arrivals an OCACC has consumed, when it retires or traps: `fin` when it ended the run. -/
def State.flushOca (s : State) (fin : Bool) : State :=
  let (first, es) := match s.ctx.wait with
    | .ocacc first es => (first, es)
    | _ => (s.core.oc.orank, [])
  let s := match s.ctx.wait with
    | .ocacc _ _ => s.setCtx { s.ctx with wait := .none }
    | _ => s
  if s.core.tape.st == .recording && (fin || !es.isEmpty) then
    s.tapeDone (s.core.tape.recOca first (if fin then some s.finWord else none) es)
  else s

/-! ### The engine (R363, R376, R382) -/

/-- SPILL_WRITE (R363): the oldest full chunk goes to the spill region. -/
def execSpillWrite (e : Nat) (s : State) : Host.Outcome State Fault Refusal :=
  atCore e s (fun s =>
    let t := s.core.tape
    match t.st, t.staged with
    | .recording, c :: cs =>
      if s.tapeHeld then s
      else ({ s with core := { s.core with tape := { t with staged := cs } } } : State).spillChunk c 4096
    | _, _ => s)

/-- CHUNK_FETCH (R376): the next chunk downward comes back, once the one it takes the place of has been read. -/
def execChunkFetch (e : Nat) (s : State) : Host.Outcome State Fault Refusal :=
  atCore e s (fun s =>
    let t := s.core.tape
    match t.spill with
    | none => s
    | some b =>
      let c := t.fetched - 1
      if !s.tapeHeld && t.st == .play && 0 < t.fetched && t.cursor ≤ 4096 * (c + regLen t.region / 4096) then
        match s.tapeRead b (regBase b + 4096 * c) (min 4096 (t.len - 4096 * c)) with
        | (s, some bs) =>
          let s := s.tapeWrite t.region (t.at_ (4096 * c)) bs
          { s with core := { s.core with tape := { s.core.tape with fetched := c } } }
        | (s, none) => s
      else s)

end Sys2Proof.Machine
end

