-- ==== Sys2Proof/Machine/Trestle.lean ====
section
/-! DEFINITION. The Trestle network: major 0x13 (R161 to R169). -/

namespace Sys2Proof.Machine

/-- An element of the network: key, payload and position (R161). -/
structure TElem where
  key : Nat := 0
  pay : Nat := 0
  pos : Nat := 0
deriving DecidableEq, Repr, Inhabited

/-- Fields of o3 (R162). -/
def tKORD (o : Word) : Nat := fld o 0 2
def tIDX (o : Word) : Bool := o.getLsbD 2
def tPTIE (o : Word) : Bool := o.getLsbD 3
def tHALF (o : Word) : Nat := fld o 4 1
def tK (o : Word) : Nat := fld o 5 6
def tSDIST (o : Word) : Nat := fld o 11 3
def tSBLK (o : Word) : Nat := fld o 14 3

/-- Key types (R161). -/
def tyKey (t : Nat) : Bool := t == 4 || t == 5 || t == 10

/-- How high a key ranks under KORD: none for a NaN, which is below every number (R161). -/
def keyRank (kord t raw : Nat) : Option Int :=
  if t = 10 then
    let m : Nat := raw % 2 ^ 31
    let x : Int := if 2 ^ 31 ≤ raw then -(m : Int) else (m : Int)
    if 0x7F800000 < m then none
    else some (if kord = 0 then (m : Int) else if kord = 1 then x else -x)
  else
    let x := intOf t raw
    some (if kord = 0 then (x.natAbs : Int) else if kord = 1 then x else -x)

/-- Rule 1 of R161. -/
def strictKey (kord t x y : Nat) : Bool :=
  match keyRank kord t x, keyRank kord t y with
  | some a, some b => decide (b < a)
  | some _, none => true
  | none, _ => false

/-- The order of R161. -/
def before (kord t : Nat) (ptie : Bool) (x y : TElem) : Bool :=
  if strictKey kord t x.key y.key then true
  else if strictKey kord t y.key x.key then false
  else if ptie && x.pay ≠ y.pay then decide (x.pay < y.pay)
  else decide (x.pos < y.pos)

/-- An element put in its place by an order. -/
def insertTE (lt : TElem → TElem → Bool) (x : TElem) : List TElem → List TElem
  | [] => [x]
  | y :: ys => if lt x y then x :: y :: ys else y :: insertTE lt x ys

/-- Elements in order. -/
def sortTE (lt : TElem → TElem → Bool) (xs : List TElem) : List TElem := xs.foldr (insertTE lt) []

/-- Elements of lanes of keys and payloads, positions from `p`. -/
def lanesTE (keys pays : VReg) (p : Nat) : List TElem :=
  (List.range 32).map (fun j => ⟨lane keys j, lane pays j, p + j⟩)

/-- A register of lanes. -/
def ofLanes (xs : List Nat) : VReg := ofElems 32 xs

/-- Whether a key register holds a NaN under a type. -/
def hasNan (t : Nat) (v : VReg) : Bool := (List.range 32).any (fun j => (keyRank 0 t (lane v j)).isNone)

/-- OSTAT.NANS set when a NaN was met under KORD 0 (R160, R161). -/
def State.nanMet (s : State) (b : Bool) : State :=
  if b then { s with core := { s.core with oc := { s.core.oc with nans := true } } } else s

/-- Register n + 1. -/
def succV (n : Fin 64) : Fin 64 := n + 1

/-- ILLEGAL common to the family (R162). -/
def State.trestleBad (s : State) : Bool :=
  fld (s.ro 3) 17 47 ≠ 0 || tKORD (s.ro 3) = 3 || s.vtBad tyKey

/-- ILLEGAL of the implicit registers of the index-output form: past v63, or a bound port (R163). -/
def State.pairBad (s : State) (ns : List (Fin 64)) : Bool := ns.any (fun n => n = 63 || s.boundPort (succV n))

/-- How a Trestle instruction uses registers: in the index-output form, the pairs (R91, R163). -/
def trestleUse (idx : Bool) (d : Fin 64) (srcs : List (Fin 64)) : VUse :=
  if idx then { srcs := srcs, more := [d, succV d] } else { srcs := srcs, dst := some d }

/-- An instruction of the family: `f` gives the result and the second register of the pair. `payOf` names the sources
whose successors bring payloads in the index-output form. -/
def trestle (st : Nat) (d : Fin 64) (srcs payOf : List (Fin 64)) (ill idx : Bool) (keys : List (Fin 64))
    (f : State → (Fin 64 → VReg) → VReg × VReg) (s : State) : Host.Outcome State Fault Refusal :=
  let u := trestleUse idx d srcs
  let extra := if idx then payOf.map succV else []
  let g := u.gate st (s.trestleBad || ill || (idx && s.pairBad (d :: payOf))) (extra.map rdV) s
  issue { g with acc := s.owned (u.named ++ extra) }
    (vecRun u none (fun rd => do
      let s ← get
      let (x, y) := f s rd
      upd fun s => s.nanMet (tKORD (s.ro 3) = 0 && keys.any (fun n => hasNan s.vt (rd n)))
      if idx then
        upd fun s => (s.wv d x).wv (succV d) y
        pure none
      else pure (some x))) s

/-- The order in force. -/
def State.tOrder (s : State) : TElem → TElem → Bool := before (tKORD (s.ro 3)) s.vt (tPTIE (s.ro 3))

/-- VSORT (R164). -/
def execVsort (st : Fin 8) (d a b : Fin 64) (s : State) : Host.Outcome State Fault Refusal :=
  trestle st.val d [a, b] [] (tIDX (s.ro 3)) false [a]
    (fun s rd => (ofLanes ((sortTE s.tOrder (lanesTE (rd a) (rd b) 0)).map (·.pay)), 0)) s

/-- VTOPK (R164): lanes K and above are 0. -/
def execVtopk (st : Fin 8) (d a b : Fin 64) (s : State) : Host.Outcome State Fault Refusal :=
  let k := tK (s.ro 3)
  trestle st.val d [a, b] [] (tIDX (s.ro 3) || k = 0 || decide (32 < k)) false [a]
    (fun s rd => (ofLanes (((sortTE s.tOrder (lanesTE (rd a) (rd b) 0)).map (·.pay)).take (tK (s.ro 3))), 0)) s

/-- Payload register of an operand: its successor in the index-output form, else the keys themselves (R165). -/
def payReg (s : State) (rd : Fin 64 → VReg) (n : Fin 64) : VReg :=
  if tIDX (s.ro 3) then s.rv (succV n) else rd n

/-- The 64 elements of two operands. -/
def pair64 (s : State) (rd : Fin 64 → VReg) (a b : Fin 64) : List TElem :=
  lanesTE (rd a) (payReg s rd a) 0 ++ lanesTE (rd b) (payReg s rd b) 32

/-- VSORTX (R165). -/
def execVsortx (st : Fin 8) (d a b : Fin 64) (s : State) : Host.Outcome State Fault Refusal :=
  trestle st.val d [a, b] [a, b] false (tIDX (s.ro 3)) [a, b]
    (fun s rd =>
      let xs := ((sortTE s.tOrder (pair64 s rd a b)).drop (32 * tHALF (s.ro 3))).take 32
      (ofLanes (xs.map (·.key)), ofLanes (xs.map (·.pay)))) s

/-- One stage of the bitonic merge at a distance (R166). -/
def mergeStage (lt : TElem → TElem → Bool) (xs : List TElem) (dist : Nat) : List TElem :=
  (List.range 64).map (fun i =>
    let x := xs.getD i default
    if i / dist % 2 = 0 then
      (let y := xs.getD (i + dist) default
       if lt y x then y else x)
    else
      (let y := xs.getD (i - dist) default
       if lt x y then y else x))

/-- VMERGEK (R166). -/
def execVmergek (st : Fin 8) (d a b : Fin 64) (s : State) : Host.Outcome State Fault Refusal :=
  let k := tK (s.ro 3)
  trestle st.val d [a, b] [a, b] (k = 0 || decide (32 < k)) (tIDX (s.ro 3)) [a, b]
    (fun s rd =>
      let es := pair64 s rd a b
      let x0 := es.take 32 ++ (es.drop 32).reverse
      let xs := [32, 16, 8, 4, 2, 1].foldl (mergeStage s.tOrder) x0
      let ys := (xs.drop (32 * tHALF (s.ro 3))).take (tK (s.ro 3))
      (ofLanes (ys.map (·.key)), ofLanes (ys.map (·.pay)))) s

/-- VRANK (R167). -/
def execVrank (st : Fin 8) (d a : Fin 64) (s : State) : Host.Outcome State Fault Refusal :=
  trestle st.val d [a] [a] false (tIDX (s.ro 3)) [a]
    (fun s rd =>
      let es := lanesTE (rd a) (payReg s rd a) 0
      (ofLanes (es.map (fun j => es.countP (fun i => s.tOrder i j))),
       ofLanes ((sortTE s.tOrder es).map (·.pay)))) s

/-- VBSTEP (R168): one compare-exchange stage by rule 1 alone. -/
def execVbstep (st : Fin 8) (d a b : Fin 64) (s : State) : Host.Outcome State Fault Refusal :=
  let sd := tSDIST (s.ro 3)
  let sb := tSBLK (s.ro 3)
  trestle st.val d [a, b] [] (tIDX (s.ro 3) || decide (4 < sd) || sb = 0 || decide (5 < sb) || decide (sb ≤ sd)) false [a]
    (fun s rd =>
      let dist := 2 ^ tSDIST (s.ro 3)
      let keys := rd a
      (ofLanes ((List.range 32).map (fun i =>
        let p := i ^^^ dist
        let lo := min i p
        let hi := max i p
        let up := lo / 2 ^ tSBLK (s.ro 3) % 2 = 0
        let k := strictKey (tKORD (s.ro 3)) s.vt
        let sw := if up then k (lane keys hi) (lane keys lo) else k (lane keys lo) (lane keys hi)
        lane (rd b) (if sw then p else i))), 0)) s

end Sys2Proof.Machine
end

