-- ==== Sys2Proof/Machine/Orders.lean ====
section
/-! DEFINITION. Order codes, major 0x14: emission (R28 to R31, R170 to R173), the receiver (R32 to R40, R174 to R179) and the
gradients through it (R42, R43, R180). -/

namespace Sys2Proof.Machine

/-! ### Emission -/

/-- Fields of o2 for emission (R170). -/
def eCBASE (w : Word) : Nat := fld w 0 15
def eCUT (w : Word) : Nat := fld w 16 16
def eMORE (w : Word) : Bool := w.getLsbD 32
/-- Reserved bits of o2 clear. -/
def emitOk (w : Word) : Bool := !w.getLsbD 15 && fld w 33 31 == 0

/-- Types OCEMIT takes (R29). -/
def tyEmit (t : Nat) : Bool := t ≤ 5 || (8 ≤ t && t ≤ 10)

/-- Whether a value can be emitted: neither zero nor NaN (R28). -/
def emits (v : Val) : Bool := v != .nan && !vZero v

/-- An event word (R27, R172). -/
def eventWord (v : Val) (ch : Nat) : Nat := ch + 32768 * b2n (vSign v)

/-- Whether an element goes before another in the order of R28: larger magnitude, then lower channel. -/
def emitBefore (x y : Val × Nat) : Bool :=
  match vCmp (vAbs x.1) (vAbs y.1) with
  | .gt => true
  | .lt => false
  | .eq => decide (x.2 < y.2)

/-- An element put in its place. -/
def emitInsert (x : Val × Nat) : List (Val × Nat) → List (Val × Nat)
  | [] => [x]
  | y :: ys => if emitBefore x y then x :: y :: ys else y :: emitInsert x ys

/-- A cut length applied; 0 is no limit (R30). -/
def cut {α : Type} (n : Nat) (xs : List α) : List α := if n = 0 then xs else xs.take n

/-- Event words of a vector by its elements' values (R172). -/
def emitWords (base cutLen : Nat) (vs : List Val) : List Nat :=
  let xs := (vs.zip (List.range vs.length)).filter (fun x => emits x.1)
  (cut cutLen (xs.foldr emitInsert [])).map (fun x => eventWord x.1 (base + x.2))

/-- Event words of ordered keys (R173); none where a channel number would pass 0x7FFE. -/
def emitOrdered (base : Nat) : List (Val × Nat) → Option (List Nat)
  | [] => some []
  | (v, ch) :: xs =>
    if !emits v then some []
    else if 0x7FFE < base + ch then none
    else (emitOrdered base xs).map (eventWord v (base + ch) :: ·)

/-- Messages of at most 120 words (R170). -/
def emitMsgs : Nat → List Nat → List (List Byte)
  | 0, _ => []
  | n + 1, ws => if ws.isEmpty then [] else (ws.take 120).flatMap (leBytes 2) :: emitMsgs n (ws.drop 120)

/-- Words sent on the channel of a handle (R170, R171): grants for all the messages first. -/
def emit (h : Word) (ws : List Nat) : Op Unit := do
  let s ← get
  let id := hId h
  let k := (s.chanK s.asid id).getD 0
  let ms := emitMsgs (ws.length + 1) ws
  need (decide (ms.length ≤ k)) .channel id
  if ms.isEmpty then pure ()
  else do
    let (tag, slots) ← takeSlots (hPeer h) id ms.length
    upd fun s => (ms.zip slots).foldl (fun s x => s.sendMsg (hPeer h) id tag x.2 x.1) s

/-- The handle an emission reads (R171): an open send end of a declared channel. -/
def emitNeed (h : Word) : Op Unit := do
  let s ← get
  need (sendHandle h && (s.chanK s.asid (hId h)).isSome) .channel (hId h)

/-- OCEMIT (R172). DESIGN CHOICE (log 48): the checks of the handle and of the channel numbers come before the stream-port faults of
the source, and the count of the slots after them; the spec gives no order between them. -/
def execOcemit (st : Fin 8) (d : Fin 32) (a : Fin 64) (s : State) : Host.Outcome State Fault Refusal :=
  let u : VUse := { srcs := [a] }
  issue (u.gate st.val (s.vtBad tyEmit || !emitOk (s.ro 2)) [rdC d] s)
    (do
      let s ← get
      let h := s.rx d
      let o := s.ro 2
      let t := s.vt
      emitNeed h
      need (decide (eCBASE o + 1024 / tyWidth t - 1 ≤ 0x7FFE)) .channel (hId h)
      vecRun u none (fun rd => do
        let vs := (elems (rd a) (tyWidth t)).map (decodeTy t)
        emit h (emitWords (eCBASE o) (eCUT o) vs ++ (if eMORE o then [] else [0xFFFF]))
        upd fun s => s.nanMet (vs.any (· == .nan))
        pure none)) s

/-- OCEMITI (R173). DESIGN CHOICE (log 48): the check of the handle comes before the stream-port faults of the sources, and those
of the channel numbers, which the sources give, and of the slots after them. -/
def execOcemiti (st : Fin 8) (d : Fin 32) (a b : Fin 64) (s : State) : Host.Outcome State Fault Refusal :=
  let u : VUse := { srcs := [a, b] }
  issue (u.gate st.val (s.vtBad tyKey || !emitOk (s.ro 2)) [rdC d] s)
    (do
      let s ← get
      let h := s.rx d
      let o := s.ro 2
      emitNeed h
      vecRun u none (fun rd => do
        let vs := (elems (rd a) 32).map (decodeTy s.vt)
        let xs := cut (eCUT o) (vs.zip (elems (rd b) 32))
        match emitOrdered (eCBASE o) xs with
        | none => raise .channel (hId h)
        | some ws => do
          emit h (ws ++ (if eMORE o then [] else [0xFFFF]))
          upd fun s => s.nanMet (((xs.map (·.1)).find? (fun v => !emits v)) == some .nan)
          pure none)) s

/-! ### Configuration (R174, R175) -/

/-- Set bits of a lane mask. -/
def lanesOn (act : BitVec 32) : List Nat := (List.range 32).filter (fun j => act.getLsbD j)

/-- ILLEGAL of OCCFG (R175). -/
def State.occfgBad (s : State) : Bool :=
  let o2 := s.ro 2
  let o3 := s.ro 3
  let act := o2.truncate 32
  let p := fld o2 32 6
  let mode := fld o2 38 2
  act = 0 || p = 0 || decide (32 < p) || mode = 3 || fld o3 32 15 = 0 || decide (1024 < fld o3 48 11) ||
  fld o2 40 24 ≠ 0 || o3.getLsbD 31 || o3.getLsbD 47 || fld o3 59 5 ≠ 0 || fld (s.ro 4) 16 48 ≠ 0 ||
  ((mode = 1 || mode = 2) && (lanesOn act).length < 2)

/-- Lowest byte of some pieces outside the focused core's scratchpad. -/
def State.outOfPad (s : State) (gs : List Seg) : Option Nat :=
  let lo := poolPlace s.core.id (s.core.b0 * 1024)
  let hi := poolPlace s.core.id (s.core.b1 * 1024)
  gs.findSome? (fun g =>
    if g.len = 0 || (lo ≤ g.place && g.place + g.len ≤ hi) then none
    else if g.place < lo then some g.va
    else some (g.va + (max g.place hi - g.place)))

/-- The receiver's reset (R179): the rest of begun vectors is marked for discard. -/
def State.ocReset (s : State) : State :=
  let r := s.core.oc
  let mark (e : ChanEnd) : ChanEnd :=
    if r.eng && r.ch0 ≤ e.id && e.id < r.ch0 + r.p && !r.ended.contains (e.id - r.ch0) then
      { e with discard := e.discard + 1 } else e
  let s := { s with core := { s.core with
    ends := s.core.ends.map mark
    oc := { r with orank := 0, st := 0, win := 0, lastk := 0xFFFFFF, eng := false, present := [], round := 0, slot := 0,
                   ended := [] } } }
  s.core.ends.foldl (fun s e => s.drainAll e.id) s

/-- OCRST (R179). -/
def execOcrst (st : Fin 8) (s : State) : Host.Outcome State Fault Refusal :=
  issue { st := st.val, ill := s.helper } (upd fun s => if s.core.oc.cfg then s.ocReset else s) s

/-- Largest weight magnitude over all rows and active lanes (R34). -/
def wMax (act : BitVec 32) (bs : List Byte) : Nat :=
  (bs.zip (List.range bs.length)).foldl (fun m x =>
    if act.getLsbD (x.2 % 32) then max m (x.1.toInt.natAbs) else m) 0

/-- The checks of R115 on a table that is not accessed yet (R175): its pieces. -/
def extentNeed (c : Cap) (ps : List Nat) (n : Nat) (k : Acc) : Op (List Seg) := do
  capNeed c ps (capA c) n 1
  segsOf ((← get).who c) k (pieces (capA c) n)

/-- OCCFG (R174, R175): of its tables it reads W alone, which the watchpoints of the core see (R230). -/
def execOccfg (st : Fin 8) (d a b : Fin 32) (s : State) : Host.Outcome State Fault Refusal :=
  issue { st := st.val, ill := s.helper || s.occfgBad, reads := [rdC d, rdC a, rdC b] }
    (do
      let s ← get
      let o2 := s.ro 2
      let o3 := s.ro 3
      let p := fld o2 32 6
      let nc := fld o3 32 15
      let nf := fld o3 48 11
      let ch0 := fld (s.ro 4) 0 16
      match (List.range p).find? (fun i =>
          (s.chanK s.asid (ch0 + i)).isNone || (s.core.endOf (ch0 + i)).isNone) with
      | some i => raise .channel ((ch0 + i : Nat) : Int)
      | none => pure ()
      let w := s.rc a
      let f := s.rc b
      let l := s.rc d
      let gw ← access w [pL] (capA w) (32 * nc) 1 .load
      let gf ← if nf = 0 then pure [] else extentNeed f [pL] nf .load
      let gl ← extentNeed l [pL, pS] (8 * nc) .store
      let s ← get
      match ([gw, gf, gl].filterMap s.outOfPad).min? with
      | some x => raise .page x
      | none => pure ()
      let bs ← loadSegs gw 1
      upd fun s =>
        let s := if s.core.oc.cfg then s.ocReset else s
        let r := s.core.oc
        let act := o2.truncate 32
        { s with core := { s.core with oc := { r with
            act := act, p := p, mode := fld o2 38 2, mrg := fld o3 0 31, nc := nc, nf := nf, ch0 := ch0
            wcap := w, fcap := f, lcap := l, wmax := wMax act bs, cfg := true, st := 0 } } }) s

/-! ### The receiver (R32 to R38, R176) -/

/-- Where a table's bytes lie in the scratchpad, or PAGE (R241). -/
def padArea (va n : Nat) (k : Acc) : Op (List Seg) := do
  let s ← get
  let gs ← segsOf { asid := s.asid, root := none } k (pieces va n)
  match (← get).outOfPad gs with
  | some x => raise .page x
  | none => pure gs

/-- A table's bytes as the context reads or writes them, with the checks of any load or store (R115, R230, R254). -/
def padSegs (va n : Nat) (k : Acc) : Op (List Seg) := do
  let gs ← padArea va n k
  goodNeed k gs
  watchNeed k va n
  pure gs

/-- Bytes of a table loaded by the context, in single accesses of `esz` bytes. -/
def padLoad (va n esz : Nat) : Op (List Byte) := do
  let gs ← padSegs va n .load
  loadSegs gs esz

/-- F[k] as a load of the context; 0 for k at NF and beyond (R34). -/
def loadF (k : Nat) : Op Nat := do
  let r := (← get).core.oc
  if r.nf ≤ k then pure 0
  else do
    let bs ← padLoad (capA r.fcap + k) 1 1
    pure (leNat bs)

/-- The sum of F from rank k on, as loads of the context (R37, R176). -/
def loadRest (k : Nat) : Op Nat := do
  let r := (← get).core.oc
  if r.nf ≤ k then pure 0
  else do
    let bs ← padLoad (capA r.fcap + k) (r.nf - k) 1
    pure (bs.map (·.toNat)).sum

/-- The first rank that Frest counts: the one after the last, or 0 when there is none (R178). -/
def Receiver.restFrom (r : Receiver) : Nat := if r.lastk = 0xFFFFFF then 0 else r.lastk + 1

/-- Leader, best score and best score of the rest among the active lanes; the lower lane ranks higher (R37). -/
def leaders (act : BitVec 32) (sc : Nat → Int) : Nat × Int × Int :=
  let order := sortBy (fun j => -(sc j)) (lanesOn act).reverse
  match order with
  | [] => (0, 0, 0)
  | [j] => (j, sc j, sc j)
  | j :: i :: _ => (j, sc j, sc i)

/-- A register's scores. -/
def scoreOf (v : VReg) (j : Nat) : Int := sextNat 32 (lane v j)

/-- The merge moves to the next slot (R32). -/
def Receiver.advance (r : Receiver) : Receiver :=
  if r.slot + 1 < r.p then { r with slot := r.slot + 1 } else { r with slot := 0, round := r.round + 1 }

/-- The receiver changed. -/
def State.mapOc (s : State) (f : Receiver → Receiver) : State :=
  { s with core := { s.core with oc := f s.core.oc } }

/-- The run ends in a state, with its winner (R38). -/
def State.ocEnd (s : State) (st : Nat) (v : VReg) : State :=
  s.mapOc (fun r => { r with st := st, win := (leaders r.act (scoreOf v)).1 })

/-- Scores after an arrival, and whether one was clamped (R35). -/
def addScores (act : BitVec 32) (v : VReg) (neg : Bool) (row : List Byte) (f : Nat) : VReg × Bool :=
  let t (j : Nat) : Int :=
    let w : Int := ((row.getD j 0).toInt) * (f : Int)
    scoreOf v j + (if neg then -w else w)
  let on (j : Nat) : Bool := act.getLsbD j
  (ofElems 32 ((List.range 32).map (fun j => if on j then utrunc 32 (clampTy 4 (t j)) else lane v j)),
   (List.range 32).any (fun j => on j && clampTy 4 (t j) != t j))

/-- Arrivals this OCACC has consumed: number of the first, and their log entries. -/
def State.consumed (s : State) : Nat × List Word :=
  match s.ctx.wait with
  | .ocacc first es => (first, es)
  | _ => (s.core.oc.orank, [])

/-- Whether a record of an OCACC would fit, with its FIN word always counted (R374): TAPE_FULL, or a wait on the
backlog. -/
def ocRoom (first : Nat) (es : List Word) : Op Unit := do
  let s ← get
  let t := s.core.tape
  if t.st == .recording then do
    let x := t.recOca first (some 0) es
    if x.fits then pure () else tapeFull
    await (decide (TapeOut.backlog t x ≤ 65536))

/-- Whether the stop test passes, `rest` being Frest (R37). -/
def Receiver.stops (r : Receiver) (v : VReg) (rest : Nat) : Bool :=
  let (_, s1, s2) := leaders r.act (scoreOf v)
  match r.mode with
  | 1 => decide ((r.mrg : Int) ≤ s1 - s2)
  | 2 => decide (((2 * r.wmax * rest : Nat) : Int) < s1 - s2)
  | _ => false

/-- One arrival consumed (R35, R176): every fault comes before any change. The answer is the sum of F over the ranks after it, which
the stop test of SAFE reads. -/
def consumeEvent (d : Fin 64) (w : Nat) : Op Nat := do
  let s ← get
  let r := s.core.oc
  let ch := w % 32768
  let id := r.ch0 + r.slot
  need (!(w == 0x7FFF || r.nc ≤ ch || r.present.contains ch)) .channel ((w + id % 65536 * 65536 : Nat) : Int)
  let (first, es) := s.consumed
  let k := r.round * r.p + r.slot
  let entry : Word := BitVec.ofNat 64 (w + k % 2 ^ 24 * 65536)
  ocRoom first (es ++ [entry])
  let gw ← padSegs (capA r.wcap + 32 * ch) 32 .load
  let gl ← padSegs (capA r.lcap + 8 * r.orank) 8 .store
  let f ← loadF k
  let rest ← if r.mode = 2 then loadRest (k + 1) else pure 0
  let row ← loadSegs gw 1
  upd fun s =>
    let (v, sat) := addScores r.act (s.rv d) (decide (32768 ≤ w)) row f
    let s := (((s.joinSlot id).wv d v).storeSegs 8 gl (leBytes 8 entry.toNat)).takeWord id
    let s := s.mapOc (fun r => { r with present := ch :: r.present, orank := r.orank + 1, lastk := k, eng := true, st := 1
                                        satf := r.satf || sat }.advance)
    s.setCtx { s.ctx with wait := .ocacc first (es ++ [entry]) }
  pure rest

/-- OCACC's loop as far as one arrival (R176): whether it ended the run. Each further arrival is a restart point of its own, at
which the instruction waits and issues again (R40, R177). -/
def ocLoop (d : Fin 64) : Nat → Op Bool
  | 0 => pure false
  | n + 1 => do
    let s ← get
    let r := s.core.oc
    let id := r.ch0 + r.slot
    if (List.range r.p).all r.ended.contains then do
      upd fun s => s.ocEnd 3 (s.rv d)
      pure true
    else if r.ended.contains r.slot then do
      upd fun s => s.mapOc Receiver.advance
      ocLoop d n
    else
      match s.peekWord id with
      | none => waitHere
      | some w =>
        if w = 0xFFFF then do
          let (first, es) := s.consumed
          if es.isEmpty && (List.range r.p).all (fun i => i == r.slot || r.ended.contains i) then ocRoom first []
          upd fun s => (s.takeWord id).mapOc (fun r => { r with ended := r.slot :: r.ended }.advance)
          ocLoop d n
        else if 64 ≤ s.consumed.2.length then pure false
        else do
          let rest ← consumeEvent d w
          let s ← get
          if s.core.oc.stops (s.rv d) rest then do
            set (s.ocEnd 2 (s.rv d))
            pure true
          else waitHere

/-- OCACC (R40, R176, R177): its record goes to the tape when it retires or traps (R374). DESIGN CHOICE (log 48): ILLEGAL of an
unconfigured receiver, as of the tape channel's state in major 0x17, is one of the instruction's own faults, step 5 of R90. -/
def execOcacc (st : Fin 8) (d : Fin 64) (s : State) : Host.Outcome State Fault Refusal :=
  let u : VUse := { dst := some d, rdDst := true }
  let g := u.gate st.val false [] s
  let s := if (s.gateTrap g).isNone && s.boundary.isSome then s.flushOca false else s
  issue g
    (do
      let s ← get
      legal s.core.oc.cfg
      if s.core.oc.st = 2 || s.core.oc.st = 3 then pure ()
      else
        match ocLoop d 8192 s with
        | .ok fin s' => set (s'.flushOca fin)
        | .error .wait s' => do
          set s'
          waitHere
        | .error e s' => do
          set (s'.flushOca false)
          throw e) s

/-- OCSTAT's value (R178): Frest reads F as loads of the context (R176). -/
def ocStat (h : Nat) : Op Word := do
  let r := (← get).core.oc
  match h with
  | 0 => pure (ostatWord r)
  | 1 => pure (orankWord r)
  | 2 => pure (if r.cfg then BitVec.ofNat 64 r.wmax else 0)
  | 3 => if r.cfg then do pure (BitVec.ofNat 64 (← loadRest r.restFrom)) else pure 0
  | _ => pure (if r.cfg then BitVec.ofNat 64 ((r.ended.map (2 ^ ·)).sum) else 0)

/-- OCSTAT (R178). -/
def execOcstat (st : Fin 8) (d : Fin 32) (h : Nat) (s : State) : Host.Outcome State Fault Refusal :=
  issue { st := st.val, ill := s.helper || decide (4 < h) }
    (do
      let x ← ocStat h
      upd fun s => s.wx d x) s

/-! ### Gradients (R42, R43, R180) -/

/-- The first n entries of the arrival log, from their bytes. -/
def logEntries (n : Nat) (bs : List Byte) : List Word := (List.range n).map (fun i => BitVec.ofNat 64 (leNat ((bs.drop (8 * i)).take 8)))

/-- Event channel, polarity and rank of a log entry (R174). -/
def leCh (w : Word) : Nat := fld w 0 15
def leNeg (w : Word) : Bool := w.getLsbD 15
def leK (w : Word) : Nat := fld w 16 24

/-- An exact value rounded to FP32 by RNE (R43). -/
def fp32Of (v : Val) : Nat := fmtFP32.encode rndRNE 0 v
def valFp32 (x : Nat) : Val := fmtFP32.decode x

/-- Values summed exactly, from the first of them. -/
def vSum : List Val → Val
  | [] => .fin false 0 0
  | x :: xs => xs.foldl (vAdd 1) x

/-- Σ_j W[ch][j] × δ_j over the active lanes, rounded once (R43); `row` is row ch of W. -/
def gradSum (act : BitVec 32) (row : List Byte) (delta : VReg) : Val :=
  valFp32 (fp32Of (vSum ((lanesOn act).map (fun j =>
    vMul (valInt ((row.getD j 0).toInt)) (valFp32 (lane delta j))))))

/-- pol of an entry, and pol × F[K] (R43). -/
def polOf (e : Word) : Val := valInt (if leNeg e then -1 else 1)
def polF (e : Word) (f : Nat) : Val := vMul (polOf e) (valInt f)

/-- Bytes [o, o + n) of an extent. -/
def segCut (o n : Nat) : List Seg → List Seg
  | [] => []
  | g :: gs =>
    let lo := min o g.len
    let hi := min (o + n) g.len
    (if lo < hi then [{ g with va := g.va + lo, place := g.place + lo, len := hi - lo }] else []) ++
      segCut (o - g.len) (o + n - max o g.len) gs

/-- Bytes of a table of the receiver loaded by a gradient instruction: an uncorrectable error in them is the only failure part-way
(R180). -/
def gradLoad (va n : Nat) : Op (List Byte) := do
  let gs ← padArea va n .load
  errorNeed .load gs
  loadSegs gs 1

/-- F[k] so loaded; 0 at NF and beyond. -/
def gradF (k : Nat) : Op Nat := do
  let r := (← get).core.oc
  if r.nf ≤ k then pure 0
  else do
    let bs ← gradLoad (capA r.fcap + k) 1
    pure (leNat bs)

/-- One FP32 of a table at a byte offset replaced (R180): an old value is loaded where the new one needs it. -/
def gradPut (gs : List Seg) (o : Nat) (f : Option (Val → Val)) (v : Val) : Op Unit := do
  let gs := segCut o 4 gs
  match f with
  | none => upd fun s => s.storeSegs 4 gs (leBytes 4 (fp32Of v))
  | some f => do
    errorNeed .load gs
    let bs ← loadSegs gs 4
    upd fun s => s.storeSegs 4 gs (leBytes 4 (fp32Of (f (valFp32 (leNat bs)))))

/-- The three gradient instructions. -/
inductive Grad where
  | w | a | f
deriving DecidableEq, Repr

/-- Bytes and permissions of the table at C[a] (R180). -/
def Grad.extent (g : Grad) (r : Receiver) : Nat × List Nat :=
  match g with
  | .w => (128 * r.nc, [pL, pS])
  | .a => (4 * r.nc, [pS])
  | .f => (4 * r.nf, [pL, pS])

/-- OCGW's lanes of one entry; `f` is pol × F[K]. -/
def gradRow (gs : List Seg) (e : Word) (f : Val) (delta : VReg) : List Nat → Op Unit
  | [] => pure ()
  | j :: js => do
    let prod := valFp32 (fp32Of (vMul f (valFp32 (lane delta j))))
    gradPut gs (128 * leCh e + 4 * j) (some (fun old => vAdd 1 old prod)) prod
    gradRow gs e f delta js

/-- The bytes of W and F that an entry's contribution reads. -/
def Grad.reads (g : Grad) (r : Receiver) (e : Word) : List (Nat × Nat) :=
  let w := (capA r.wcap + 32 * leCh e, 32)
  let f := if leK e < r.nf then [(capA r.fcap + leK e, 1)] else []
  match g with
  | .w => f
  | .a => w :: f
  | .f => if leK e < r.nf then [w] else []

/-- The byte offsets of the table at C[a] that an entry's contribution accesses, each of 4 bytes. -/
def Grad.touches (g : Grad) (r : Receiver) (e : Word) : List Nat :=
  match g with
  | .w => (lanesOn r.act).map (fun j => 128 * leCh e + 4 * j)
  | .a => [4 * leCh e]
  | .f => if leK e < r.nf then [4 * leK e] else []

/-- What a gradient instruction reads of W and F lies in the scratchpad (R241) and meets no watchpoint (R230). -/
def readsNeed : List (Nat × Nat) → Op Unit
  | [] => pure ()
  | (va, n) :: rs => do
    let _ ← padArea va n .load
    watchNeed .load va n
    readsNeed rs

/-- What it accesses of the table at C[a] is not held by a publication (R310), and meets no watchpoint, of loads where it reads it
(R230). -/
def touchNeed (gs : List Seg) (a : Nat) (loads : Bool) : List Nat → Op Unit
  | [] => pure ()
  | o :: os => do
    let s ← get
    await (!(segCut o 4 gs).any (fun g => s.held g.place g.len))
    if loads then watchNeed .load (a + o) 4
    watchNeed .store (a + o) 4
    touchNeed gs a loads os

/-- What one counted entry contributes (R43, R180). -/
def gradEntry (g : Grad) (gs : List Seg) (delta : VReg) (e : Word) : Op Unit := do
  let r := (← get).core.oc
  let rowOf : Op (List Byte) := gradLoad (capA r.wcap + 32 * leCh e) 32
  match g with
  | .w => do
    let f ← gradF (leK e)
    gradRow gs e (polF e f) delta (lanesOn r.act)
  | .a => do
    let row ← rowOf
    let f ← gradF (leK e)
    gradPut gs (4 * leCh e) none (vMul (polF e f) (gradSum r.act row delta))
  | .f =>
    if leK e < r.nf then do
      let row ← rowOf
      let x := vMul (polOf e) (gradSum r.act row delta)
      gradPut gs (4 * leK e) (some (fun old => vAdd 1 old x)) x
    else pure ()

/-- The counted entries in ascending order. -/
def gradEntries (g : Grad) (gs : List Seg) (delta : VReg) : List Word → Op Unit
  | [] => pure ()
  | e :: es => do
    gradEntry g gs delta e
    gradEntries g gs delta es

/-- A gradient instruction (R180): every check before any write; UE alone may come part-way. DESIGN CHOICE (log 48): an empty table
(OCGF with NF = 0) is not checked at all, the table at C[a] may stand at any byte address, as the spec names no alignment, and the
stream-port faults of the delta register come after all the checks that R180 lists. -/
def gradient (g : Grad) (st : Nat) (a : Fin 32) (b : Fin 64) (s : State) : Host.Outcome State Fault Refusal :=
  let u : VUse := { srcs := [b] }
  issue (u.gate st (fld (s.ro 2) 24 40 ≠ 0) [rdC a] s)
    (do
      let s ← get
      let r := s.core.oc
      let n := fld (s.ro 2) 0 24
      legal (r.cfg && n ≤ r.nc)
      let bs ← padLoad (capA r.lcap) (8 * n) 8
      let es := logEntries n bs
      match (List.range n).find? (fun i => decide (r.nc ≤ leCh (es.getD i 0))) with
      | some i => raise .channel i
      | none => pure ()
      let c := s.rc a
      let (len, ps) := g.extent r
      let gs ← if len = 0 then pure [] else extentNeed c ps len .store
      readsNeed (es.flatMap (g.reads r))
      touchNeed gs (capA c) (g ≠ .a) (if g = .a then (List.range r.nc).map (4 * ·) else es.flatMap (g.touches r))
      vecRun u none (fun rd => do
        if g = .a then upd fun s => s.storeSegs 4 gs (List.replicate len 0)
        gradEntries g gs (rd b) es
        pure none)) s

/-- OCGW (R180). -/
def execOcgw (st : Fin 8) (a : Fin 32) (b : Fin 64) (s : State) : Host.Outcome State Fault Refusal :=
  gradient .w st.val a b s
/-- OCGA (R180). -/
def execOcga (st : Fin 8) (a : Fin 32) (b : Fin 64) (s : State) : Host.Outcome State Fault Refusal :=
  gradient .a st.val a b s
/-- OCGF (R180). -/
def execOcgf (st : Fin 8) (a : Fin 32) (b : Fin 64) (s : State) : Host.Outcome State Fault Refusal :=
  gradient .f st.val a b s

end Sys2Proof.Machine
end

