-- ==== Sys2Proof/Machine/Replies.lean ====
section
/-! DEFINITION. Replies (R296): how the REPLY to a packet completes the operation that sent it. -/

namespace Sys2Proof.Machine

/-- The value that RLD or RAMO writes to its register (R302): zero where the operation failed. -/
def replyValue (r : RemOp) (status : Nat) (data : List Byte) : Cap :=
  if status ≠ rsDONE then scalar 0
  else if r.pkt.handler = 0 && pktSz r.pkt = 16 then
    ⟨BitVec.ofNat 128 (leNat (data.take 16)), r.keepTag && (data.drop 16).head? == some 1⟩
  else scalar (BitVec.ofNat 64 (leNat (data.take (pktSz r.pkt))))

/-- A context told of the answer to its barrier arrival or wait (R359, R360). -/
def Ctx.barReply (x : Ctx) (tag status : Nat) (w : Word) : Ctx :=
  match x.wait with
  | .sent t => if t = tag then { x with wait := .replied status w } else x
  | .barw t => if t = tag then { x with wait := .barwDone status w } else x
  | _ => x

/-- Status of a message job by its reply (R334, R341): a trigger discarded as over is a FAULT with cause TRIG_OVER. -/
def msgStatus (status : Nat) : Nat × Nat :=
  if status = rsDONE then (stDONE, 0)
  else if status = rsLINKFAIL then (stLINKFAIL, 0)
  else if status = rsREFUSED then (stREFUSED, 0)
  else (stFAULT, Cause.trigOver.code)

/-- The level that a SEND counted its task on. -/
def sentLevel (p : Packet) : Nat := if p.launch = 0 then jobLid else p.launch

/-- Whether a packet started a task count in this package when it was sent (R329, R334). -/
def State.countedHere (s : State) (p : Packet) : Bool := 64 ≤ p.handler && eidPkg p.deid == s.pkgNo

/-- A message job of the focused core answered: a task that was refused counts no longer (R334). -/
def State.msgReply (s : State) (r : RemOp) (ri status : Nat) : State :=
  let k := msgStatus status
  let s := if (status = rsREFUSED || status = rsFAULT) && s.countedHere r.pkt then s.countDown s.asid (sentLevel r.pkt) else s
  { s with core := s.core.completeJob clsMsg ri (fun j => { j with status := k.1, cause := k.2 }) }

/-- The reply to a packet of a job of the focused core. -/
def State.jobReply (s : State) (r : RemOp) (cls ri status : Nat) (data : List Byte) : State :=
  let s := { s with core := s.core.dropOp r.tag }
  let s := match s.core.jobs.find? (fun j => j.cls == cls && j.ri == ri) with
    | some j => s.edge r.pkt.thread (j.thread s.core.id)
    | none => s
  if cls = clsMsg then s.msgReply r ri status
  else if cls = clsMatrix then s.drainReply ri status
  else if cls = clsCopy then s.copyReply r ri status data
  else s

/-- A group status word of the given bits: its reserved bits read as zero (R5, R313). -/
def statusBits (w : Word) : Word := w &&& 0x000003FFFFFF3FFF#64

/-- GCSTAT's word, or the answer to a GWAIT's query (R313); where none has come its fields are free. -/
def State.queryReply (s : State) (r : RemOp) (status : Nat) (data : List Byte) : State :=
  let w := if status = rsDONE then wordAt data 0 else statusBits (Config.lostAnswer s.freeN)
  let s := if status = rsDONE then s else { s with freeN := s.freeN + 1 }
  let now := s.time.toNat
  { s with core := s.core.mapCtxNo r.ctx (fun x => (x.gwaitReply r.tag now status w).deliver r.tag (scalar w)) }

/-- A packet that a failed operation had not sent yet sends no more (R298). -/
def State.unwait (s : State) (r : RemOp) : State :=
  let t := s.pairTx r.pkt.seid r.pkt.deid
  if t.wait.any (fun p => p.otag == r.tag) then s.setTx { t with wait := t.wait.filter (fun p => p.otag != r.tag) } else s

/-- An operation of the focused core answered, by what it had sent (R296, R302, R303). -/
def State.opReply (s : State) (r : RemOp) (status : Nat) (data : List Byte) : State :=
  let s := if status = rsDONE then s else s.unwait r
  match r.job with
  | some (cls, ri) => s.jobReply r cls ri status data
  | none =>
    if r.group.isSome then s.gstDone s.core.id r status data
    else
      let s := s.closeOp s.core.id r status
      match r.pkt.handler with
      | 0 => { s with core := s.core.mapCtxNo r.ctx (fun x => x.deliver r.tag (replyValue r status data)) }
      | 2 => { s with core := s.core.mapCtxNo r.ctx (fun x => x.deliver r.tag (replyValue r status data)) }
      | 7 => s.queryReply r status data
      | 8 => { s with core := s.core.mapCtxNo r.ctx (fun x => x.barReply r.tag status (wordAt data 0)) }
      | _ => s

/-- A reply performed at its destination, a core or another unit. -/
def State.takeReply (s : State) (p : Packet) : State :=
  let e := eidLocal p.deid
  if isCore e then
    s.at e (fun s =>
      match s.core.opOf p.otag with
      | some r => s.opReply r p.status p.data
      | none => s)
  else
    match s.unitOpOf p with
    | some r => s.unitReply r p.status p.data
    | none => s

/-- REPLY (R296). -/
def execReply (p : Packet) (s : State) : Host.Outcome State Fault Refusal := done (s.arrive p (fun s => s.takeReply p))

end Sys2Proof.Machine
end

