-- ==== Sys2Proof/Machine/Links.lean ====
section
/-! DEFINITION. Demands and grants (R298), acknowledgements and end-to-end timers (R299), flits and links (R293, R299,
R300), and the alignment of TIME between packages (R401). -/

namespace Sys2Proof.Machine

/-! ### Pacing (R298) -/

/-- GRANT packets for a demand of n bytes: up to 4,096 bytes each. -/
def State.grantAll (s : State) (p : Packet) : Nat → Nat → State
  | 0, _ => s
  | k + 1, n =>
    if n = 0 then s
    else
      (s.send { kind := 4, deid := p.seid, seid := p.deid, asid := p.asid, arg0 := BitVec.ofNat 64 (min n 4096) }).grantAll
        p k (n - min n 4096)

/-- DEMAND (R298): served at once; the rate the host has set is timing. -/
def execDemand (p : Packet) (s : State) : Host.Outcome State Fault Refusal :=
  done (s.arrive p (fun s => s.grantAll p (p.arg0.toNat / 4096 + 1) p.arg0.toNat))

/-- GRANT (R298). -/
def execGrant (p : Packet) (s : State) : Host.Outcome State Fault Refusal :=
  done (s.arrive p (fun s =>
    let t := s.pairTx p.deid p.seid
    (s.setTx { t with granted := t.granted + p.arg0.toNat }).release p.deid p.seid))

/-- EACK (R299). -/
def execEack (p : Packet) (s : State) : Host.Outcome State Fault Refusal :=
  done (s.arrive p (fun s => s.acked p.deid p.seid p.arg0.toNat))

/-! ### End-to-end timers (R299) -/

/-- A packet put on its way again. -/
def State.resend (s : State) (p : Packet) : State := (s.wire p).getD s

/-- Whether the destination, in this package, has accepted a packet of a pair. -/
def State.accepted (s : State) (p : Packet) : Bool :=
  let k := ((s.pairRx p.seid p.deid).want + 65536 - p.pseq) % 65536
  1 ≤ k && k < 32768

/-- Operations of a pair that its destination has not accepted. -/
def State.notAccepted (s : State) (t : PairTx) : List Packet :=
  (t.unack.filter (fun p => !s.accepted p) ++ t.wait).flatMap Packet.ops

/-- A pair at its sixth expiry (R299): its state is reset on both sides, and every operation without a reply completes
with LINK_FAIL. -/
def State.pairFail (s : State) (t : PairTx) : State :=
  let lost := s.notAccepted t
  let s := { s with
    ptx := s.ptx.filter (fun u => !(u.src == t.src && u.dst == t.dst))
    prx := s.prx.filter (fun u => !(u.src == t.src && u.dst == t.dst))
    net := s.net.filter (fun p => !(p.sequenced && p.seid == t.src && p.deid == t.dst)) }
  let s := (lost.filter s.countedHere).foldl (fun s p => if p.kind = 1 then s.countDown p.asid (sentLevel p) else s) s
  let e := eidLocal t.src
  if isCore e then
    s.at e (fun s => (s.core.ops.filter (fun r => r.pkt.deid == t.dst)).foldl (fun s r => s.opReply r rsLINKFAIL []) s)
  else (s.uops.filter (fun r => r.pkt.seid == t.src && r.pkt.deid == t.dst)).foldl (fun s r => s.unitReply r rsLINKFAIL []) s

/-- The timer of a pair starts again with a resend of all it holds (R299). -/
def PairTx.again (t : PairTx) (now : Nat) : PairTx :=
  { t with since := now, sentAt := t.unack.map (fun _ => now), fails := t.fails + 1 }

/-- E2E_TIMER (R299): the oldest has waited 20 µs, doubled at each resend. Where the source is another package's, the sixth expiry
there resets what its destination here expects. -/
def execE2eTimer (src dst : Nat) (s : State) : Host.Outcome State Fault Refusal :=
  let t := s.pairTx src dst
  if eidPkg src ≠ s.pkgNo then done { s with prx := s.prx.filter (fun u => !(u.src == src && u.dst == dst)) }
  else if t.unack.isEmpty || s.time.toNat < t.since + 20000 * 2 ^ t.fails then done s
  else if 5 ≤ t.fails then done (s.pairFail t)
  else done (t.unack.foldl State.resend (s.setTx (t.again s.time.toNat)))

/-! ### Flits (R293, R299) -/

/-- A packet of a reserved kind discarded and counted at the first router of its die, or passed on to its package (R295). -/
def State.dropKind (s : State) (p : Packet) : State :=
  if eidPkg p.deid = s.pkgNo then
    let d := lidDie (eidLocal p.deid)
    { s with dropped := s.dropped.set d (s.dropped[d] + 1) }
  else (s.wire p).getD s

/-- A packet that a link brings (R295, R320, R390, R401): reduction packets and clock messages are for its gateway, which takes
the time at which a clock message came; a command keeps the link it came by (R415). Of a package without its number only the
control ports take any (R16). -/
def State.linkIn (s : State) (l : Nat) (p : Packet) : State :=
  if s.pkg.isNone && (8 ≤ p.kind || !ctlPort (eidLocal p.deid)) then s
  else if p.reservedKind then s.dropKind p
  else if p.kind = 9 then
    (if redDown p then s.redSpread p else s.redTo p (gatewayUnit l) (1 + eidPkg p.seid))
  else if p.kind = 8 then { s with net := s.net ++ [{ p with deid := s.eid (gatewayUnit l), arg2 := s.time }] }
  else { s with net := s.net ++ [if ctlPort (eidLocal p.deid) then { p with via := some l } else p] }

/-- Whether sequence number a is at or before b, modulo 4096. -/
def flitBefore (a b : Nat) : Bool := (b + 4096 - a % 4096) % 4096 < 2048

/-- Flits that an acknowledgement covers let go (R299). -/
def Link.cover (k : Link) (fack : Nat) : Link := { k with held := k.held.filter (fun f => !flitBefore f.fseq fack) }

/-- A replay request for the first flit the link end lacks (R299). -/
def Link.ask (k : Link) : Link := { k with out := k.out ++ [mkFlit (List.replicate 56 0) k.rx 2 k.ack] }

/-- The flits from one on sent again, in order (R299). -/
def Link.replay (k : Link) (fseq : Nat) : Link :=
  { k with out := k.out ++ k.held.filter (fun f => flitBefore fseq f.fseq)
           replays := if k.replayOf = fseq then k.replays + 1 else 1
           replayOf := fseq }

/-- The payload of the expected data flit taken: whole packets go on their way. -/
def State.takePay (s : State) (l : Fin 16) (pay : List Byte) : State :=
  let bs := s.links[l].stream ++ pay
  let r := parseStream (bs.length + 1) bs
  let s := s.mapLink l (fun k => { k with rx := (k.rx + 1) % 4096, stream := r.2 })
  r.1.foldl (fun s p => s.linkIn l.val p) s

/-- A flit arrives (R293, R299): one with a bad CRC is dropped and asked for again, a duplicate is dropped. -/
def State.takeFlit (s : State) (l : Fin 16) (f : Flit) : State :=
  if !s.links[l].trained then s
  else if f.crc ≠ crc32c (flitBody f) then s.mapLink l Link.ask
  else
    let s := s.mapLink l (fun k => k.cover f.fack)
    if f.typ = 2 then s.mapLink l (fun k => k.replay f.fseq)
    else if f.typ ≠ 0 then s
    else if f.fseq = s.links[l].rx then s.takePay l f.pay
    else if flitBefore f.fseq s.links[l].rx then s
    else s.mapLink l Link.ask

/-- A step at a link of the package; where the number is no link's there is none, and nothing happens. -/
def atLink (l : Nat) (s : State) (f : Fin 16 → State) : Host.Outcome State Fault Refusal :=
  if h : l < 16 then done (f ⟨l, h⟩) else done s

/-- FLIT (R293). -/
def execFlit (l : Nat) (f : Flit) (s : State) : Host.Outcome State Fault Refusal := atLink l s (fun l => s.takeFlit l f)

/-- REPLAY_REQUEST (R299). -/
def execReplayRequest (l fseq : Nat) (s : State) : Host.Outcome State Fault Refusal :=
  atLink l s (fun l => if s.links[l].trained then s.mapLink l (fun k => k.replay fseq) else s)

/-- A link end retrains: the flits it held are dropped (R299, R414). -/
def Link.retrain (k : Link) : Link := { out := k.out, retraining := true }

/-- LINK_REPLAY_LIMIT (R299): eight replays in a row of one flit. -/
def execLinkReplayLimit (l : Nat) (s : State) : Host.Outcome State Fault Refusal :=
  atLink l s (fun l => if 8 ≤ s.links[l].replays then s.mapLink l Link.retrain else s)

/-- LINK_FAILURE (R300): the link is no longer trained, and traffic takes the alternate one. -/
def execLinkFailure (l : Nat) (s : State) : Host.Outcome State Fault Refusal :=
  atLink l s (fun l => if s.links[l].trained then s.mapLink l Link.retrain else s)

/-- Number of a part in a service completion: dies from 0, stacks from 16, links from 32. -/
def partNo (p : Part) : Nat :=
  match p with
  | .die d => d
  | .stack n => 16 + n
  | .link l => 32 + l

/-- Whether a link's die is online: an offline die's links are off (R414, R415). -/
def State.linkDieUp (s : State) (l : Nat) : Bool := s.dies[Fin.ofNat 4 (l / 4)] != .offline

/-- LINK_RETRAIN_DONE (R414). -/
def execLinkRetrainDone (l : Nat) (s : State) : Host.Outcome State Fault Refusal :=
  atLink l s (fun l =>
    if s.links[l].retraining && s.linkDieUp l.val then
      (s.mapLink l (fun k => { k with trained := true, retraining := false })).tellHost (.serviceDone (partNo (.link l.val)))
    else s)

/-! ### TIME between packages (R401) -/

/-- A correction kept within ±100 ppm. -/
def clampPpm (x : Int) : Int := max (-100) (min 100 x)

/-- Whether this package is the grandmaster. -/
def State.isGrandmaster (s : State) : Bool := s.pkg == some Config.grandmaster

/-- The grandmaster's TIME as estimated now (R401). The first synchronisation steps TIME forward, if no job has started before it;
every later one corrects the rate alone. -/
def State.takeSync (s : State) (est : Nat) : State :=
  let off : Int := (est : Int) - s.time.toNat
  let s := if 1000 < off.natAbs then s.tellHost .timeOffset else s
  if !s.synced && !s.jobSeen then
    { s with synced := true, time := if 0 < off then BitVec.ofNat 64 est else s.time }
  else { s with synced := true, ppm := clampPpm (Config.rateCorrection s.freeN), freeN := s.freeN + 1 }

/-- Types of clock message: those of IEEE 1588 that two-step clocks and the peer delay mechanism use (R401). -/
def ptpSync : Nat := 0
def ptpDelayReq : Nat := 2
def ptpDelayResp : Nat := 3
def ptpFollowUp : Nat := 8
def ptpDelayFollowUp : Nat := 10

/-- A clock message leaves on a link (log 14): ARG0 a time, ARG1 the type in [7:0], the domain in [15:8] and the sequence number
in [31:16]. -/
def State.sendPtp (s : State) (l : Fin 16) (typ seq time : Nat) : State :=
  if s.links[l].trained then
    s.mapLink l (fun k => k.put { kind := 8, seid := s.eid (gatewayUnit l.val), arg0 := BitVec.ofNat 64 time
                                  arg1 := BitVec.ofNat 64 (typ + Config.syncDomain % 256 * 256 + seq % 65536 * 65536) })
  else s

/-- A clock message of a link taken (R401): a request for the delay is answered with the times at which it came and at which the
answer leaves; the answers give the delay; a Sync is timed by its arrival and dated by the Follow_Up after it, which the grandmaster
passes over. Another domain's messages are none of ours. -/
def State.takePtp (s : State) (l : Fin 16) (p : Packet) : State :=
  let k := s.links[l].ptp
  let typ := fld p.arg1 0 8
  let seq := fld p.arg1 16 16
  let put (k : Ptp) : State := s.mapLink l (fun x => { x with ptp := k })
  let came := p.arg2.toNat
  if fld p.arg1 8 8 ≠ Config.syncDomain % 256 then s
  else if typ = ptpDelayReq then
    (s.sendPtp l ptpDelayResp seq came).sendPtp l ptpDelayFollowUp seq s.time.toNat
  else if typ = ptpDelayResp then (if seq = k.seq then put { k with backAt := came, farAt := p.arg0.toNat } else s)
  else if typ = ptpDelayFollowUp then
    (if seq = k.seq then put { k with delay := ((k.backAt - k.sentAt) - (p.arg0.toNat - k.farAt)) / 2 } else s)
  else if typ = ptpSync then put { k with sync := seq, syncAt := came }
  else if typ = ptpFollowUp && seq = k.sync && !s.isGrandmaster then
    s.takeSync (p.arg0.toNat + k.delay + (s.time.toNat - k.syncAt))
  else s

/-- TSYNC (R401). -/
def execTsync (p : Packet) (s : State) : Host.Outcome State Fault Refusal :=
  done (s.arrive p (fun s => s.takePtp (Fin.ofNat 16 (eidLocal p.deid / 1024 * 4 + p.deid % 4)) p))

/-- SYNC_TICK (R401): a gateway asks for its link's delay, and where the package has the grandmaster's TIME sends a Sync and its
Follow_Up. -/
def execSyncTick (l : Nat) (s : State) : Host.Outcome State Fault Refusal :=
  atLink l s (fun l =>
    let seq := (s.links[l].ptp.seq + 1) % 65536
    let now := s.time.toNat
    let s := s.mapLink l (fun x => { x with ptp := { x.ptp with seq := seq, sentAt := now } })
    let s := s.sendPtp l ptpDelayReq seq now
    if s.isGrandmaster || s.synced then (s.sendPtp l ptpSync seq 0).sendPtp l ptpFollowUp seq now else s)

end Sys2Proof.Machine
end

