-- ==== Sys2Proof/Machine/Gang.lean ====
section
/-! DEFINITION. Steps of the core and of its job's gang: boundary causes (R220), timers (R224, R354), results as they
become ready (R79), leases (R278), errors (R236), gang stops and switches (R227, R232 to R235), and the Bureau (R392 to
R394). -/

namespace Sys2Proof.Machine

/-! ### Boundaries, timers and results of a core -/

/-- A boundary cause taken in h0 (R192, R220): none while an arrival waits for its answer (R359); an OCACC that has consumed
arrivals records them first (R41, R181). A fault of the fetch goes before the boundary causes. -/
def State.takeBoundary (s : State) : State :=
  if s.core.stopped || s.core.run.isNone || s.arriving then s
  else
    match s.pausedJob with
    | some t => (s.flushOca false).pausedTrap t
    | none =>
      if s.boundary.isNone then s
      else
        match fetchHere s with
        | .error (.trap u) s' => (s'.flushOca false).trapHere u
        | _ =>
          let s := s.flushOca false
          match s.boundary with
          | some (t, c) => ({ s with core := c } : State).takeTrap t true s.pc
          | none => s

/-- TRAP_ENTRY (R218). Where a boundary cause is due, the step tries the instruction about to issue first (Step.lean, R220). -/
def execTrapEntry (e : Nat) (s : State) : Host.Outcome State Fault Refusal :=
  atCore e s (fun s => s.asCtx 0 State.takeBoundary)

/-- TCMP_MATCH (R224). -/
def execTcmpMatch (e : Nat) (s : State) : Host.Outcome State Fault Refusal := atCore e s State.timer

/-- A sleeping context woken once TIME has reached its limit (R354). -/
def Ctx.sleepDue (x : Ctx) (now : Nat) : Ctx :=
  match x.wait with
  | .sleeping lim woken => { x with wait := .sleeping lim (woken || decide (lim.toNat ≤ now)) }
  | _ => x

/-- SLEEP_WAKE (R354). -/
def execSleepWake (e h : Nat) (s : State) : Host.Outcome State Fault Refusal :=
  atCore e s (fun s => { s with core := s.core.mapCtxNo h (fun x => x.sleepDue s.time.toNat) })

/-- An awaited result that is there written into its register: what its answer brings happens before what the context does next
(R79, R288). -/
def State.resultReady (s : State) (h n : Nat) : State :=
  let s := match (s.core.ctxNo h).pend[n]? with
    | some p => if p.val.isSome then s.edge (answerThread s.core.id p.op) (s.core.id, h) else s
    | none => s
  { s with core := s.core.mapCtxNo h (fun x => x.ready n) }

/-- VARIABLE_LATENCY_RESULT (R79). -/
def execVariableLatencyResult (e h n : Nat) (s : State) : Host.Outcome State Fault Refusal :=
  atCore e s (fun s => s.resultReady h n)

/-- LEASE_EXPIRY (R278): a lease that has run out lets its line go. -/
def execLeaseExpiry (e line : Nat) (s : State) : Host.Outcome State Fault Refusal :=
  atCore e s (fun s => { s with core := { s.core with
    l1 := s.core.l1.filter (fun x => !(x.line == line && x.until_ ≤ s.time.toNat)) } })

/-- ECC_UE (R236): an uncorrectable error in the state of a gang core, which stops its gang. -/
def execEccUe (e : Nat) (s : State) : Host.Outcome State Fault Refusal :=
  atCore e s (fun s => if s.core.job.isSome then s.stopGangHere 5 else s)

/-! ### Gang stops and switches (R227, R232 to R235) -/

/-- A core told to stop stops at its boundary (R227), once no context of it is inside an instruction that nothing interrupts
(R359). -/
def State.reachStop (s : State) : State :=
  if s.core.stopReq && !s.core.stopped && !s.core.ctxs.any Ctx.arriving then
    s.stopCore (fld s.core.gswhy 0 4) (fld s.core.gswhy 8 24)
  else s

/-- Whether every core of a gang has stopped. -/
def State.gangStopped (s : State) (j : Job) : Bool := j.spec.gang.all (fun e => (s.coreOf e).stopped)

/-- Who gave a device command, as a number (R408): a port, 0 or 1, over its host's own connection; or the sender of an AM to a
port. -/
def amGiver (p : Packet) : Nat := 2 + p.deid % 2 + 2 * (p.seid % 2 ^ 24 + p.otag % 2 ^ 16 * 2 ^ 24 + p.asid % 2 ^ 16 * 2 ^ 40)

/-- A device command answered (R408): at its port, or by a REPLY to the AM. -/
def State.portReply (s : State) (giver code status : Nat) (data : List Byte := []) : State :=
  if giver < 2 then { s with replies := s.replies ++ [{ port := giver, code := code, status := status, data := data }] }
  else
    let x := (giver - 2) / 2
    s.send { kind := 2, deid := x % 2 ^ 24, seid := s.eid (0x300 + giver % 2), otag := x / 2 ^ 24 % 2 ^ 16
             asid := x / 2 ^ 40, status := status, data := data }

/-- The JOBSTOPs of a job answered once its gang has stopped (R226). -/
def State.answerStops (s : State) (asid : Nat) : State :=
  match s.jobOf asid with
  | none => s
  | some j =>
    if s.gangStopped j then
      j.stopPorts.foldl (fun s p => s.portReply p 0x11 rsDONE) (s.mapJob asid (fun j => { j with stopPorts := [] }))
    else s

/-- GANG_STOP (R227). -/
def execGangStop (e : Nat) (s : State) : Host.Outcome State Fault Refusal :=
  atCore e s (fun s => s.reachStop.answerStops s.asid)

/-- SLICE_EXPIRY (R232, R234): a running job whose slice is over is switched out at the cycle's end, unless one of its launches
completes in the same cycle. -/
def execSliceExpiry (asid : Nat) (s : State) : Host.Outcome State Fault Refusal :=
  match s.jobOf asid with
  | none => done s
  | some j =>
    done (if j.gang != .run || j.spec.slice = 0 || s.time.toNat < j.sliceEnd then s
      else s.mapJob asid (fun j => { j with expired := true }))

/-- Cores of a gang whose record is poisoned (R236). -/
def State.poisonedCores (s : State) (j : Job) : List Nat := j.spec.gang.filter (fun e => (s.coreOf e).poisoned)

/-- A job's fault in the trace of each of its clusters (R406): at the first core there of its gang. DESIGN CHOICE (log 24). -/
def State.traceFault (s : State) (j : Job) (reason : Nat) : State :=
  j.spec.trace.foldl (fun s t =>
    match j.spec.gang.find? (fun e => clusterOf e == t.1) with
    | some e => s.at e (fun s => s.trace 7 reason 0)
    | none => s) s

/-- A switch that has failed (R235). DESIGN CHOICE (log 26): the rule gives reasons 7 and 8 no ORIGIN; GSWHY keeps the one of the
stop before them, and the event gives 0. -/
def State.unsaveable (s : State) (j : Job) (reason : Nat) : State :=
  let asid := j.spec.asid
  let s := j.spec.gang.foldl (fun s e => s.mapCore e (fun c =>
    { c with gswhy := BitVec.ofNat 64 (reason + c.gswhy.toNat / 256 * 256) })) s
  ((s.traceFault j reason).mapJob asid (fun j => { j with gang := .unsaveable })).tellHost (.jobFault asid reason 0)

/-- Whether a packet of a job is still on its way to a core of its gang. -/
def Job.awaits (j : Job) (p : Packet) : Bool :=
  p.asid == j.spec.asid && p.kind ≠ 5 && p.kind ≠ 9 && j.spec.gang.contains (eidLocal p.deid)

/-- An operation whose answer its destination holds until some core goes on: a wait at a barrier, or a query held until its group
is decided. The instruction that waits for it issues again after the switch (R313, R360). -/
def RemOp.heldThere (r : RemOp) : Bool :=
  (r.pkt.handler == 8 && r.pkt.arg1.getLsbD 33) || (r.pkt.handler == 7 && r.pkt.arg1.getLsbD 0)

/-- Whether the drain of a gang is complete (R232): no core waits for a remote reply, its messages balance, and none is on its way.
Where cores of the gang are another package's, their counts are not known here. DESIGN CHOICE (log 24). -/
def State.drained (s : State) (j : Job) : Bool :=
  let cs := j.spec.gang.map s.coreOf
  cs.all (fun c => c.ops.all RemOp.heldThere) &&
    (!j.spec.away.isEmpty || (cs.map (fun c => c.msent)).sum == (cs.map (fun c => c.mrecv)).sum) &&
    !s.net.any j.awaits && !s.niWait.any j.awaits

/-- GANG_DRAIN (R232). -/
def execGangDrain (asid : Nat) (s : State) : Host.Outcome State Fault Refusal :=
  match s.jobOf asid with
  | none => done s
  | some j =>
    let stopped := j.gang == .dispatchStop || (j.gang == .stopped && !(s.poisonedCores j).isEmpty)
    if stopped && s.gangStopped j then done (s.mapJob asid (fun j => { j with gang := .drain }))
    else if j.gang == .drain then
      (if j.spec.saveSpill < j.spillBytes then done (s.unsaveable j 8)
       else if s.drained j then done (s.mapJob asid (fun j => { j with gang := .save }))
       else done s)
    else done s

/-- Whether a place lies in a core's scratchpad or inbox (R233). -/
def Core.saves (c : Core) (a : Nat) : Bool :=
  let p := poolPlace c.id 0
  p ≤ a && a < p + 262144 &&
    ((c.b0 * 1024 ≤ a - p && a - p < c.b1 * 1024) || c.b2 * 1024 ≤ a - p)

/-- A context that no task runs in: its registers stay. -/
def Ctx.vacated (x : Ctx) : Ctx :=
  { x with slot := .free, loop := { x.loop with lact := false }, fix := [], pend := [], wait := .none, blocked := false
           ahead := false, stopReq := false, nfail := 0, fst := 0, fpkg := 0 }

/-- An operation nobody waits for any more: its answer is taken and nothing follows, but that an agent that has staged a store of a
group is told of the group's end (R308, R424). -/
def RemOp.orphan (r : RemOp) : RemOp := { r with ctx := 11, counts := false, job := none, keepTag := false }

/-- A core that no job holds: nothing of a job is left in it, and its registers stay (R211, R232). -/
def Core.vacated (c : Core) : Core :=
  let xs := c.ctxs.map Ctx.vacated
  { c with
    ctxs := xs.set 0 { xs[(0 : Fin 11)] with slot := .live }
    job := none, run := none, stopped := false, stopReq := false, mm := false, meta_ := none, mq := [], oc := {}
    mfvalid := false, mfstep := 0, mfcause := 0, mfjob := 0, poisoned := false
    jobs := [], ops := c.ops.map RemOp.orphan, binds := [], ends := [], held := [], sent := [], barw := [], tape := {}
    pTrig := [], pWatch := [], pMixed := [], steal := {} }

/-- A context as a save takes it: one that waits for an answer its destination holds issues again after the restore. -/
def Ctx.saved (x : Ctx) : Ctx :=
  match x.wait with
  | .barw _ => { x with wait := .none }
  | .gwait .. => { x with wait := .none }
  | _ => x

/-- A core's record: waits of the gang's own cores at its barriers are asked for again (R360). -/
def Core.record (c : Core) (gang : List Nat) : Core :=
  { c with ctxs := c.ctxs.map Ctx.saved, ops := [], barw := c.barw.filter (fun w => !gang.contains w.seid) }

/-- The gang's records and its join cells taken, and its cores free for another job (R232, R233, R236, R321). -/
def State.saveGang (s : State) (j : Job) : State :=
  let asid := j.spec.asid
  let cs := j.spec.gang.map s.coreOf
  let in_ (a : Nat) : Bool := cs.any (fun c => c.saves a)
  let mine (x : Join) : Bool := x.asid == asid
  let bad := s.poisonedCores j
  let s := s.mapJob asid (fun j => { j with
    gang := .saved, saved := cs.map (fun c => c.record (j.spec.gang.map s.eid)), savedJoins := s.joins.filter mine
    savedMem := s.mem.filter (fun x => in_ x.1), savedTags := s.tags.filter (fun g => in_ (16 * g)), poisoned := bad
    valid := true })
  let s := { s with joins := s.joins.filter (fun x => !mine x) }
  let s := j.spec.gang.foldl (fun s e => s.mapCore e Core.vacated) s
  s.tellHost (.switchDone asid)

/-! The save area as memory shows it (R233): places and numbers that the rule does not give are the model's (log 24). -/

/-- The header but for VALID: ASID, the cause PREEMPT, the length of the spill region, and the counts of spilled messages and of
records. -/
def Job.saveHeader (j : Job) : List Byte :=
  leBytes 8 (j.spec.asid % 65536) ++ leBytes 8 Cause.preempt.code ++ leBytes 8 j.spec.saveSpill ++ leBytes 8 j.spilled.length ++
    leBytes 8 j.spec.gang.length

/-- A section: its header, type in [15:0] with bit 15 set where the record is poisoned and length in [63:32], and its bytes, which a
poisoned record lacks (R233, R236). -/
def saveSection (bad : Bool) (typ : Nat) (body : List Byte) : List Byte :=
  leBytes 16 (typ + 32768 * b2n bad + (if bad then 0 else body.length) % 2 ^ 32 * 2 ^ 32) ++ (if bad then [] else body)

/-- The eight sections of a core's record, in R233's order: free bytes, and last the number of messages spilled for the core. -/
def State.saveRecord (s : State) (j : Job) (k e : Nat) : List (List Byte) :=
  let bad := (s.coreOf e).poisoned
  let free (t : Nat) : List Byte :=
    (List.range (Config.saveLength (s.freeN + 8 * k + t))).map (fun i => Config.saveByte (s.freeN + 2 ^ 32 * (8 * k + t) + i))
  (List.range 7).map (fun t => saveSection bad (t + 1) (free t)) ++
    [saveSection bad 8 (leBytes 8 (j.spilled.countP (fun p => eidLocal p.deid == e)))]

/-- Pieces at their places one behind the other. -/
def placed (a : Nat) : List (List Byte) → List (Nat × List Byte)
  | [] => []
  | b :: bs => (a, b) :: placed (a + b.length) bs

/-- Everything a save writes before VALID, in order. -/
def State.savePieces (s : State) (j : Job) : List (Nat × List Byte) :=
  let base := (capBase j.spec.save).toNat
  let rest := (List.range 208).map (fun i => Config.saveByte (s.freeN + 2 ^ 60 + i))
  (base, j.saveHeader) :: (base + 48, rest) ::
    placed (base + 256 + j.spec.saveSpill) ((List.range j.spec.gang.length).flatMap (fun k =>
      s.saveRecord j k (j.spec.gang.getD k 0)))

/-- First byte of a piece at which the engine meets a page fault. -/
def State.saveFault (s : State) (j : Job) (a n : Nat) : Option Nat :=
  ((pieces a n).find? (fun p => (s.jobPlace j.spec.asid p.1 .store).isNone)).map (·.1)

/-- Pieces written in order; the reason at the boundary where the save is abandoned (R235): 7 a page fault, 8 the end of the area.
-/
def State.saveRun (s : State) (j : Job) (top : Nat) : List (Nat × List Byte) → State × Nat
  | [] => (s, 0)
  | p :: ps =>
    match s.saveFault j p.1 p.2.length with
    | some a => (s, if a < top then 7 else 8)
    | none =>
      if top < p.1 + p.2.length then (s, 8)
      else (s.engineWrite j.spec.asid p.1 p.2 (s.dieMgr 0)).saveRun j top ps

/-- The save (R233, R235): VALID is written last. DESIGN CHOICE (log 24): the rule does not say when an earlier save's VALID is
cleared, and nothing clears it: it stands from a restore to the end of the next save, also where that save is abandoned. -/
def State.doSave (s : State) (j : Job) : State :=
  let base := (capBase j.spec.save).toNat
  let r := s.saveRun j (capTop j.spec.save).toNat (s.savePieces j)
  let s : State := { r.1 with freeN := r.1.freeN + 1 }
  if r.2 = 0 then (s.engineWrite j.spec.asid (base + 40) (leBytes 8 1) (s.dieMgr 0)).saveGang j else s.unsaveable j r.2

/-- GANG_SAVE (R233). -/
def execGangSave (asid : Nat) (s : State) : Host.Outcome State Fault Refusal :=
  match s.jobOf asid with
  | some j => done (if j.gang == .save then s.doSave j else s)
  | none => done s

/-! ### Restore (R232) -/

/-- A spilled message delivered at the restore: a result, a trigger or a message for a Hutch. -/
def State.unspill (s : State) (p : Packet) : State :=
  if p.kind = 9 then s.at (eidLocal p.deid) (fun s => s.takeResult p)
  else if p.handler = 13 then s.takeTrigger p
  else s.takeMessage p

/-- Memory with the cells of another list put into it. -/
def putCells (m : List Host.Cell) (cs : List Host.Cell) : List Host.Cell := cs.foldl (fun m x => memSet m x.1 x.2) m

/-- A context as a restore leaves it: its stalls and fixed latencies have passed. -/
def Ctx.thawed (x : Ctx) : Ctx := { x with readyAt := 0, fix := x.fix.map (fun f => { f with ready := 0 }) }

/-- A record put on its core: what is not saved with a job is the core's (R232, R402), its record of the last instances received
among it (R391, R429), and so are operations still unanswered. -/
def Core.restored (r c : Core) : Core :=
  { r with cyc := c.cyc, otag := c.otag, ops := c.ops, redLast := c.redLast, ctxs := r.ctxs.map Ctx.thawed, stopped := false, stopReq := false
           l1 := [], tlb := [], ic := [] }

/-- The restore: VALID in memory stays as the save left it, DESIGN CHOICE (log 24). The records are read back onto their cores and
the join cells to their tables, then the spilled messages delivered (R232, R321). -/
def State.restoreGang (s : State) (j : Job) : State :=
  let asid := j.spec.asid
  let s := j.saved.foldl (fun s r => s.mapCore r.id r.restored) s
  let in_ (a : Nat) : Bool := j.saved.any (fun c => c.saves a)
  let s := { s with
    mem := putCells (s.mem.filter (fun x => !in_ x.1)) j.savedMem
    tags := j.savedTags.foldl tagSet (s.tags.filter (fun g => !in_ (16 * g)))
    bad := s.bad.filter (fun g => !in_ (16 * g))
    joins := j.savedJoins ++ s.joins }
  let s := s.mapJob asid (fun j => { j with
    gang := .run, saved := [], savedJoins := [], savedMem := [], savedTags := [], spilled := [], valid := false
    sliceEnd := s.time.toNat + j.spec.slice })
  j.spilled.foldl State.unspill s

/-! ### The Bureau (R392 to R394) -/

/-- Indexes of the entries of a node that may be valid, rising: V is in an entry's first byte, and an unlisted byte holds
none (R256). Of the root the lower half is used (R255). -/
def State.entriesOf (s : State) (level node : Nat) : List Nat :=
  let size := if level = 4 then 32768 else 65536
  (s.mem.filter (fun c => node ≤ c.1 && c.1 < node + size && (c.1 - node) % 8 == 0)).map (fun c => (c.1 - node) / 8)

/-- The nodes of a job's tables from one at a level down (R255). -/
def nodesFrom (s : State) : Nat → Nat → List Nat
  | 0, node => [node]
  | l + 1, node =>
    node :: (s.entriesOf (l + 1) node).flatMap (fun i =>
      let p := s.getNat (node + 8 * i) 8
      if pteOk p && !p.testBit 1 && ptePA p + 65536 ≤ hbmEnd then nodesFrom s l (ptePA p) else [])

/-- The leaves below a node at a level, in ascending address (R255). -/
def leavesFrom (s : State) : Nat → Nat → Nat → List (Nat × Leaf)
  | 0, node, va =>
    (s.entriesOf 0 node).flatMap (fun i =>
      let ea := node + 8 * i
      let p := s.getNat ea 8
      if pteOk p && p.testBit 1 && leafOk p 0 then [(va + i * 2 ^ 16, (⟨ea, p, 0⟩ : Leaf))] else [])
  | l + 1, node, va =>
    (s.entriesOf (l + 1) node).flatMap (fun i =>
      let ea := node + 8 * i
      let p := s.getNat ea 8
      let v := va + i * 2 ^ levelShift (l + 1)
      if !pteOk p then []
      else if p.testBit 1 then (if l + 1 ≤ 2 && leafOk p (l + 1) then [(v, (⟨ea, p, l + 1⟩ : Leaf))] else [])
      else if ptePA p + 65536 ≤ hbmEnd then leavesFrom s l (ptePA p) v
      else [])

/-- One byte of CRC-64 (R394). -/
def crc64Byte (c : Nat) (b : Byte) : Nat :=
  (List.range 8).foldl (fun c _ => if c % 2 = 1 then c / 2 ^^^ 0xC96C5795D7870F42 else c / 2) (c ^^^ b.toNat)

/-- CRC-64 of a page (R394), word by word: before the first, after more bytes, and as it is recorded. -/
def crc64Start : Nat := 0xFFFFFFFFFFFFFFFF
def crc64More (c : Nat) (bs : List Byte) : Nat := bs.foldl crc64Byte c
def crc64End (c : Nat) : Nat := c ^^^ 0xFFFFFFFFFFFFFFFF

/-- Every translation-buffer entry of a page for an address space dropped (R259, R392). -/
def State.tlbDrop (s : State) (f : Tlb → Bool) : State :=
  let g (c : Core) : Core := { c with tlb := c.tlb.filter (fun t => !f t) }
  { s with core := g s.core, others := s.others.map g, ctlb := s.ctlb.filter (fun p => !f p.2),
           wcache := s.wcache.filter (fun p => !f p.2) }

/-- A page-hash record (R393). -/
def hashRecord (va level lid crc asid : Nat) : List Byte :=
  leBytes 32 (va % 2 ^ 80 + level % 4 * 2 ^ 80 + lid % 2 ^ 32 * 2 ^ 96 + crc % 2 ^ 64 * 2 ^ 128 + asid % 65536 * 2 ^ 192)

/-- D of an entry cleared by an atomic AND, and the page's translation-buffer entries invalidated (R392). DESIGN CHOICE (log 6): the
writer is die 0's manager. -/
def State.clearDirty (s : State) (asid va : Nat) (l : Leaf) : State :=
  let s := s.touch l.ea 8
  let now := s.getNat l.ea 8
  let s := s.pteWrite l.ea (now - now / 256 % 2 * 256) (s.dieMgr 0)
  s.tlbDrop (fun t => (t.asid == asid || t.gl) && t.level == l.level && t.vpage == va / 2 ^ levelShift l.level)

/-- The first page from an address on that the Bureau hashes: D set and H clear (R392). -/
def State.nextDirty (s : State) (root from_ : Nat) : Option (Nat × Leaf) :=
  (leavesFrom s 4 root 0).find? (fun x => from_ ≤ x.1 && (s.getNat x.2.ea 8).testBit 8 && !(s.getNat x.2.ea 8).testBit 5)

/-- The Bureau's place at a boundary put in the level (R392): no field of its record, which is not written. -/
def State.bureauAt (s : State) (asid lid : Nat) (f : Level → Level) : State :=
  { s with levels := s.levels.map (fun l => if l.asid == asid && l.lid == lid then f l else l) }

/-- One step of hashing a page (R392): its next 8-byte word read, or its record written. A page that is no longer mapped is left. -/
def State.hashStep (s : State) (j : Job) (base : Nat) (l : Level) (va off crc : Nat) : State :=
  let go (f : Level → Level) : State → State := fun s => s.bureauAt l.asid l.lid f
  match walkLeaf s j.spec.root va with
  | none => go (fun l => { l with hashing := none, hashVa := va + 1 }) s
  | some x =>
    if off < 2 ^ levelShift x.level then
      go (fun l => { l with hashing := some (va, off + 8, crc64More crc (s.getBytes (ptePA x.pte + off) 8)) })
        (s.touch (ptePA x.pte + off) 8)
    else
      go (fun l => { l with hashing := none, hashVa := va + off })
        (s.ringPut l.asid base 32 (hashRecord va x.level l.lid (crc64End crc) l.asid))

/-- One step of the Bureau's run at a boundary (R392, R393): a word of the page at hand, the next page, or the end, with BSER
written last and the successors released. -/
def State.bureau (s : State) (asid lid : Nat) : State :=
  match s.jobOf asid, s.levelOf asid lid with
  | some j, some l =>
    let finish (s : State) : State := (s.bureauAt asid lid (fun l => { l with bureau := false })).releaseSucc asid lid
    if !l.bureau then s
    else
      match j.spec.hash, l.hashing with
      | none, _ => finish s
      | some r, some (va, off, crc) => s.hashStep j r.base l va off crc
      | some r, none =>
        match s.nextDirty j.spec.root l.hashVa with
        | some x => (s.clearDirty asid x.1 x.2).bureauAt asid lid (fun l => { l with hashing := some (x.1, 0, crc64Start) })
        | none => finish (s.engineWrite asid (r.base + 12) (leBytes 4 lid) (s.dieMgr 0))
  | _, _ => s

/-- BUREAU_RUN (R392). -/
def execBureauRun (asid lid : Nat) (s : State) : Host.Outcome State Fault Refusal := done (s.bureau asid lid)

end Sys2Proof.Machine
end

