-- ==== Sys2Proof/Machine/System.lean ====
section
/-! DEFINITION. Major 0x1C: system registers (R211 to R215), TRAP and BRK (R219), ERET (R223), TIME (R225) and HALT
(R228). CANCEL stands with the tasks. -/

namespace Sys2Proof.Machine

/-! ### The map (R212, R213) -/

/-- Access classes (R212). -/
inductive SrClass where
  | u | y | no
deriving DecidableEq, Repr

/-- One row of the map: read class, write class, and whether the register is h0's. -/
structure SrRow where
  rd : SrClass
  wr : SrClass
  h0 : Bool := false
deriving DecidableEq, Repr

/-- The map (R213); none for an index it does not list. -/
def srRow (n : Nat) : Option SrRow :=
  if n = 0x000 then some { rd := .u, wr := .y }
  else if n ≤ 0x003 then some { rd := .u, wr := .u }
  else if n ≤ 0x006 then some { rd := .u, wr := .y }
  else if n = 0x008 then some { rd := .u, wr := .no }
  else if n = 0x009 then some { rd := .u, wr := .u }
  else if n = 0x00A then some { rd := .u, wr := .no }
  else if n = 0x010 then some { rd := .u, wr := .no }
  else if 0x011 ≤ n && n ≤ 0x014 then some { rd := .y, wr := .y, h0 := true }
  else if n = 0x016 then some { rd := .y, wr := .y }
  else if 0x018 ≤ n && n ≤ 0x01B then some { rd := .y, wr := .y, h0 := true }
  else if 0x020 ≤ n && n ≤ 0x025 then some { rd := .u, wr := .no }
  else if 0x028 ≤ n && n ≤ 0x02D then some { rd := .y, wr := .y, h0 := true }
  else if 0x030 ≤ n && n ≤ 0x032 then some { rd := .y, wr := .y }
  else if 0x040 ≤ n && n < 0x080 && n % 8 ≤ 4 then some { rd := .u, wr := .no, h0 := true }
  else if 0x080 ≤ n && n ≤ 0x087 then some { rd := .y, wr := .y }
  else if 0x090 ≤ n && n ≤ 0x096 && n % 4 ≤ 2 then some { rd := .y, wr := .y }
  else if 0x0A0 ≤ n && n ≤ 0x0A4 then some { rd := .u, wr := .no }
  else if n = 0x0B0 then some { rd := .y, wr := .y }
  else if n = 0x0C0 || n = 0x0C1 then some { rd := .u, wr := .no }
  else none

/-! ### Reading (R214, R215) -/

/-- A loop register by its place in the group of six (R213). -/
def loopWord (l : Loop) (f : Nat) : Word :=
  match f with
  | 0 => l.lbeg.truncate 64
  | 1 => lctlWord l
  | 2 => l.lcnt
  | 3 => l.liter
  | 4 => l.lfstep
  | _ => l.lmstep

/-- A port's view by its place (R213). -/
def portView (p : Port) (f : Nat) : Cap :=
  match f with
  | 0 => scalar (spstWord p)
  | 1 => p.cap
  | 2 => scalar p.stride
  | 3 => scalar (p.cnt.zeroExtend 64)
  | _ => scalar (p.idx.zeroExtend 64)

/-- A small register number. -/
def finOf {n : Nat} [NeZero n] (k : Nat) : Fin n := Fin.ofNat n k

/-- The value of a listed register (R213, R214). -/
def State.srRead (s : State) (n : Nat) : Cap :=
  let c := s.core
  if n = 0x000 then scalar (mstateWord c)
  else if n = 0x001 then scalar (BitVec.ofNat 64 c.rmode)
  else if n = 0x002 then scalar c.srseed
  else if n = 0x003 then scalar c.srctr
  else if n = 0x004 then scalar (BitVec.ofNat 64 c.b0)
  else if n = 0x005 then scalar (BitVec.ofNat 64 c.b1)
  else if n = 0x006 then scalar (BitVec.ofNat 64 c.b2)
  else if n = 0x008 then scalar (orankWord c.oc)
  else if n = 0x009 then scalar (ostatWord c.oc)
  else if n = 0x00A then scalar (mfrecWord c)
  else if n = 0x010 then s.ctx.pcc
  else if n = 0x011 then scalar c.tcause
  else if n = 0x012 then scalar (c.tval.truncate 64)
  else if n = 0x013 then scalar (BitVec.ofNat 64 (c.tval.toNat / 2 ^ 64))
  else if n = 0x014 then c.tpc
  else if n = 0x016 then c.tvec
  else if n < 0x020 then c.hs[(finOf (n - 0x018) : Fin 4)]
  else if n < 0x028 then scalar (loopWord s.ctx.loop (n - 0x020))
  else if n < 0x030 then scalar (loopWord c.sloop (n - 0x028))
  else if n = 0x030 then scalar (c.ien.zeroExtend 64)
  else if n = 0x031 then scalar (s.timer.core.ipend.zeroExtend 64)
  else if n = 0x032 then scalar c.tcmp
  else if n < 0x080 then portView c.sp[(finOf (n / 8 - 8) : Fin 8)] (n % 8)
  else if n < 0x090 then
    scalar (if n % 2 = 0 then c.wpa[(finOf (n / 2 - 64) : Fin 4)] else c.wpc[(finOf (n / 2 - 64) : Fin 4)])
  else if n < 0x0A0 then
    let h : Fin 2 := finOf (n / 4 - 36)
    scalar (if n % 4 = 0 then c.hwa[h] else if n % 4 = 1 then c.hwc[h] else c.hwe[h])
  else if n = 0x0A0 then scalar c.gscyc
  else if n = 0x0A1 then scalar c.gssent
  else if n = 0x0A2 then scalar c.gsrecv
  else if n = 0x0A3 then scalar c.gswhy
  else if n = 0x0A4 then scalar (BitVec.ofNat 64 c.cyc)
  else if n = 0x0B0 then scalar (BitVec.ofNat 64 (b2n c.brkstop + 2 * b2n c.msz))
  else if n = 0x0C0 then scalar (BitVec.ofNat 64 s.myEid)
  else scalar (semvWord s)

/-! ### Writing (R214, R239, R241) -/

/-- Whether boundaries in KiB satisfy R239 on a core. -/
def boundsOk (c : Core) (b0 b1 b2 : Nat) : Bool :=
  let live := (List.finRange 11).foldl (fun n h => if h ≠ 0 && c.ctxs[h].slot == .live then h.val else n) 0
  let slots := (c.ends.map (·.k)).sum
  decide (8 + live ≤ b0 ∧ b0 ≤ b1 ∧ b1 ≤ b2 ∧ b2 ≤ 254) && (b2 - b1) % 4 == 0 &&
    decide (256 * slots ≤ (254 - b2) * 1024)

/-- Region of a pool byte (R239, R240): 0 register files, 1 handler region, 2 scratchpad, 3 L1, 4 inbox, 5 barriers. -/
def poolRegion (b0 b1 b2 o : Nat) : Nat :=
  if o < b0 * 1024 then (if o < 18 * 1024 then 0 else 1)
  else if o < b1 * 1024 then 2
  else if o < b2 * 1024 then 3
  else if o < 254 * 1024 then 4
  else 5

/-- Pool bytes whose region a change of boundaries changes to the scratchpad, the handler region or the inbox. -/
def regionEnters (c : Core) (b0 b1 b2 o : Nat) : Bool :=
  let new := poolRegion b0 b1 b2 o
  (new == 1 || new == 2 || new == 4) && new != poolRegion c.b0 c.b1 c.b2 o

/-- The boundaries of the focused core moved together (R241): bytes that enter a region read as zero, untagged. -/
def State.moveBounds (s : State) (b0 b1 b2 : Nat) : State :=
  let c := s.core
  let p := poolPlace c.id 0
  let enters (a : Nat) : Bool := p ≤ a && a < p + 262144 && regionEnters c b0 b1 b2 (a - p)
  { s with
    mem := s.mem.filter (fun x => !enters x.1)
    tags := s.tags.filter (fun g => !enters (16 * g))
    bad := s.bad.filter (fun g => !enters (16 * g))
    core := { c with b0 := b0, b1 := b1, b2 := b2, l1 := if b1 = c.b1 && b2 = c.b2 then c.l1 else [] } }

/-- An SWR of one boundary (R241): a setting that breaks R239 leaves all three unchanged. -/
def State.setBounds (s : State) (b0 b1 b2 : Nat) : State :=
  if boundsOk s.core b0 b1 b2 then s.moveBounds b0 b1 b2 else s

/-- Loop registers written by a handler (R213). -/
def Loop.put (l : Loop) (hi : Nat) (f : Nat) (v : Word) : Loop :=
  match f with
  | 0 => { l with lbeg := BitVec.ofNat 80 (hi * 2 ^ 64 + v.toNat) }
  | 1 => { l with lact := v.getLsbD 0, llen := fld v 1 4, lidx := fld v 5 3, lsz := fld v 8 6 }
  | 2 => { l with lcnt := v }
  | 3 => { l with liter := v }
  | 4 => { l with lfstep := v }
  | _ => { l with lmstep := v }

/-- Bits of a register that are reserved (R214): a write that sets one leaves the register unchanged. -/
def srReserved (n : Nat) (v : Word) : Bool :=
  if n = 0x000 then fld v 5 59 ≠ 0
  else if n = 0x001 then fld v 3 61 ≠ 0
  else if 0x004 ≤ n && n ≤ 0x006 then fld v 9 55 ≠ 0
  else if n = 0x009 then fld v 11 21 ≠ 0 || fld v 56 8 ≠ 0
  else if n = 0x011 then fld v 7 57 ≠ 0
  else if n = 0x013 then fld v 16 48 ≠ 0
  else if n = 0x029 then fld v 14 50 ≠ 0
  else if n = 0x030 || n = 0x031 then fld v 2 62 ≠ 0
  else if 0x080 ≤ n && n < 0x090 then n % 2 = 1 && fld v 9 39 ≠ 0
  else if n = 0x091 || n = 0x095 then fld v 8 40 ≠ 0
  else if n = 0x092 || n = 0x096 then fld v 33 31 ≠ 0
  else if n = 0x0B0 then fld v 2 62 ≠ 0
  else false

/-- The core after a write of a listed register that is no boundary and no reserved bit. -/
def Core.srWrite (c : Core) (hi n : Nat) (r : Cap) : Core :=
  let v : Word := r.bits.truncate 64
  if n = 0x000 then
    { c with ie := v.getLsbD 0, pie := v.getLsbD 1, inh := v.getLsbD 2, schk := v.getLsbD 3 }
  else if n = 0x001 then (if v = 0 || v = 7 then c else { c with rmode := v.toNat })
  else if n = 0x002 then { c with srseed := v }
  else if n = 0x003 then { c with srctr := v }
  else if n = 0x009 then
    { c with oc := { c.oc with nans := c.oc.nans && !v.getLsbD 3, satf := c.oc.satf && !v.getLsbD 4 } }
  else if n = 0x011 then { c with tcause := v }
  else if n = 0x012 then { c with tval := BitVec.ofNat 80 (c.tval.toNat / 2 ^ 64 * 2 ^ 64 + v.toNat) }
  else if n = 0x013 then { c with tval := BitVec.ofNat 80 (v.toNat * 2 ^ 64 + c.tval.toNat % 2 ^ 64) }
  else if n = 0x014 then { c with tpc := r }
  else if n = 0x016 then { c with tvec := r }
  else if n < 0x020 then { c with hs := c.hs.set (finOf (n - 0x018) : Fin 4) r }
  else if n < 0x030 then { c with sloop := c.sloop.put hi (n - 0x028) v }
  else if n = 0x030 then { c with ien := v.truncate 2 }
  else if n = 0x031 then { c with ipend := c.ipend &&& ~~~(v.truncate 2) }
  else if n = 0x032 then { c with tcmp := v }
  else if n < 0x090 then
    let w : Fin 4 := finOf (n / 2 - 64)
    if n % 2 = 0 then { c with wpa := c.wpa.set w v }
    else if fld v 3 6 ≤ 40 then { c with wpc := c.wpc.set w v } else c
  else if n < 0x0A0 then
    let h : Fin 2 := finOf (n / 4 - 36)
    if n % 4 = 0 then { c with hwa := c.hwa.set h v }
    else if n % 4 = 1 then (if 7 ≤ fld v 2 6 && fld v 2 6 ≤ 40 then { c with hwc := c.hwc.set h v } else c)
    else if v = 0 then c else { c with hwe := c.hwe.set h 0 }
  else { c with brkstop := v.getLsbD 0, msz := v.getLsbD 1 }

/-- A listed register written (R214, R215, R241). -/
def State.srWrite (s : State) (n : Nat) (r : Cap) : State :=
  let v : Word := r.bits.truncate 64
  if srReserved n v then s
  else if n = 0x004 then s.setBounds v.toNat s.core.b1 s.core.b2
  else if n = 0x005 then s.setBounds s.core.b0 v.toNat s.core.b2
  else if n = 0x006 then s.setBounds s.core.b0 s.core.b1 v.toNat
  else
    let s := { s with core := s.core.srWrite (s.pc / 2 ^ 64) n r }
    if n = 0x031 then s.timer else s

/-! ### SRD and SWR -/

/-- ILLEGAL of an access, with the index in TVAL (R212). -/
def State.srIllegal (s : State) (n : Nat) (cls : SrRow → SrClass) : Option Trap :=
  let bad : Trap := ⟨.illegal, BitVec.ofNat 80 n⟩
  match srRow n with
  | none => some bad
  | some r => if cls r == .no || (r.h0 && s.helper) then some bad else none

/-- CAP_PERM of class Y without permission Y (R212). -/
def srNeed (n : Nat) (cls : SrRow → SrClass) : Op Unit := do
  match srRow n with
  | some r => need (!(cls r == .y) || (← get).pccY) .capPerm n
  | none => pure ()

/-- SRD (R212, R215). -/
def execSrd (st : Fin 8) (d : Fin 32) (n : BitVec 12) (s : State) : Host.Outcome State Fault Refusal :=
  issue { st := st.val, acc := s.srIllegal n.toNat (·.rd) }
    (do
      srNeed n.toNat (·.rd)
      upd fun s => s.wc d (s.srRead n.toNat)) s

/-- SWR (R212, R215). -/
def execSwr (st : Fin 8) (d : Fin 32) (n : BitVec 12) (s : State) : Host.Outcome State Fault Refusal :=
  issue { st := st.val, acc := s.srIllegal n.toNat (·.wr), reads := [rdC d] }
    (do
      srNeed n.toNat (·.wr)
      upd fun s => s.srWrite n.toNat (s.rc d)) s

/-! ### TRAP, BRK, ERET, TIME and HALT -/

/-- TRAP (R219): completes, then traps with SOFT at the next instruction (R218). -/
def execTrap (st : Fin 8) (n : BitVec 12) (s : State) : Host.Outcome State Fault Refusal :=
  issueThen { st := st.val } (pure ()) (fun s => s.trapHere ⟨.soft, n.zeroExtend 80⟩) s

/-- BRK (R219): completes, then traps with BREAK, or stops the gang with reason 3. -/
def execBrk (st : Fin 8) (n : BitVec 12) (s : State) : Host.Outcome State Fault Refusal :=
  issueThen { st := st.val } (pure ())
    (fun s => if s.core.brkstop then s.stopGangHere 3 else s.trapHere ⟨.brk, n.zeroExtend 80⟩) s

/-- ERET (R223): ILLEGAL in a helper and in a loop; Y; TPC is checked as a jump target. -/
def execEret (st : Fin 8) (s : State) : Host.Outcome State Fault Refusal :=
  issue { st := st.val, ill := s.helper || s.ctx.loop.lact }
    (do
      let s ← get
      need s.pccY .capPerm
      jumpNeed s.core.tpc
      upd State.returnFromTrap) s

/-- TIME (R225). -/
def execTime (st : Fin 8) (d : Fin 32) (s : State) : Host.Outcome State Fault Refusal :=
  issue { st := st.val } (upd fun s => s.wx d s.time) s

/-- HALT (R228): completes, then stops the gang with reason 2. DESIGN CHOICE (log 48): the loop that R132 has it end is over when
the core goes on, which is then behind HALT. -/
def execHalt (st : Fin 8) (s : State) : Host.Outcome State Fault Refusal :=
  issueThen { st := st.val }
    (do
      need (← get).pccY .capPerm
      upd fun s => s.setCtx { s.ctx with loop := { s.ctx.loop with lact := false } })
    (fun s => s.stopGangHere 2) s

/-- A word that no row allocates (R87): ILLEGAL. -/
def execUnallocatedWord (w : BitVec 32) (s : State) : Host.Outcome State Fault Refusal :=
  let s := s.setCtx { s.ctx with ir := w }
  issue { st := 0, ill := true } (pure ()) s

end Sys2Proof.Machine
end

