-- ==== Sys2Proof/Machine/Device.lean ====
section
/-! DEFINITION. Device commands of the control ports (R408 to R416), bring-up (R411), and power and cooling (R418). -/

namespace Sys2Proof.Machine

/-! ### The ports and the semaphore (R25, R408, R409) -/

/-- The port by which a command was given. -/
def giverPort (giver : Nat) : Nat := giver % 2

/-- Whether the port of a command holds the semaphore. -/
def State.holdsSem (s : State) (giver : Nat) : Bool := s.semHeld && s.semOwner == giverPort giver

/-- A device command with its code (R408): BUSY without the semaphore it needs, else what `f` makes of it. -/
def State.command (s : State) (giver code : Nat) (sem : Bool) (f : State → State) : State :=
  if sem && !s.holdsSem giver then s.portReply giver code rsBUSY else f s

/-- A command that the host gives at a port; there are two. -/
def atPort (port : Nat) (s : State) (f : State → State) : Host.Outcome State Fault Refusal :=
  if port < 2 then .next (f s) else .next s

/-- SEMACQ (R409). -/
def State.semacq (s : State) (giver : Nat) : State :=
  s.command giver 0x02 false (fun s =>
    if s.holdsSem giver then s.portReply giver 0x02 rsDONE
    else if s.semHeld then s.portReply giver 0x02 rsBUSY
    else
      let s : State := { s with semHeld := true, semOwner := giverPort giver, semGen := (s.semGen + 1) % 2 ^ 32 }
      s.portReply giver 0x02 rsDONE)

/-- SEMACQ at a port (R408). -/
def execSemacq (port : Nat) (s : State) : Host.Outcome State Fault Refusal :=
  atPort port s (fun s => s.semacq port)

/-- The semaphore let go. -/
def State.freeSem (s : State) : State := { s with semHeld := false, semOwner := 0 }

/-- SEMREL (R409). -/
def State.semrel (s : State) (giver : Nat) : State :=
  s.command giver 0x03 false (fun s =>
    if s.holdsSem giver then s.freeSem.portReply giver 0x03 rsDONE else s.portReply giver 0x03 rsBUSY)

/-- SEMREL at a port (R408). -/
def execSemrel (port : Nat) (s : State) : Host.Outcome State Fault Refusal :=
  atPort port s (fun s => s.semrel port)

/-- SEMAPHORE_LOSS (R409): the connection of the holding port has been lost for 100 ms. -/
def execSemaphoreLoss (port : Nat) (s : State) : Host.Outcome State Fault Refusal :=
  done (match Config.hostLostSince port s.time.toNat with
    | some t => if port < 2 && s.holdsSem port && t + 100000000 ≤ s.time.toNat then s.freeSem else s
    | none => s)

/-! ### Identity (R410) -/

/-- SVC in the identity record. -/
def Svc.code : Svc → Nat
  | .reset => 0 | .reduced => 1 | .joining => 2 | .full => 3

/-- A die's state in the identity record. -/
def DieSt.code : DieSt → Nat
  | .offline => 0 | .joining => 1 | .reduced => 1 | .online => 2

/-- Bits of a set of numbered parts. -/
def bitsOf (n : Nat) (f : Nat → Bool) : Nat := ((List.range n).map (fun i => if f i then 2 ^ i else 0)).sum

/-- Whether a stack is online, retired or not; by number. -/
def State.stackUpNo (s : State) (st : Nat) : Bool := s.stackUp (Fin.ofNat 8 st)

/-- The identity record (R410). -/
def State.identity (s : State) : List Byte :=
  leBytes 4 (3 + 2 * 2 ^ 8 + 2 ^ 16 + s.svc.code * 2 ^ 24) ++
  s.dies.toList.map (fun d => BitVec.ofNat 8 d.code) ++
  leBytes 2 (bitsOf 8 s.stackUpNo) ++
  leBytes 2 (bitsOf 8 (fun i => s.retired[Fin.ofNat 8 i])) ++
  leBytes 2 (bitsOf 16 (fun i => s.links[Fin.ofNat 16 i].trained)) ++
  List.replicate 18 0 ++ leBytes 16 Config.serial.toNat ++ leBytes 96 Config.idKey.toNat

/-- IDENT (R410). -/
def State.ident (s : State) (giver : Nat) : State :=
  s.command giver 0x01 false (fun s => s.portReply giver 0x01 rsDONE s.identity)

/-- IDENT at a port (R408). -/
def execIdent (port : Nat) (s : State) : Host.Outcome State Fault Refusal :=
  atPort port s (fun s => s.ident port)

/-- ATTEST (R413). -/
def State.attest (s : State) (giver : Nat) (nonce : List Byte) : State :=
  s.command giver 0x35 false (fun s =>
    if nonce.length ≠ 32 then s.portReply giver 0x35 rsREFUSED
    else
      let body := s.identity ++ s.fw.toList.flatMap (fun f => sha384 f.image) ++ nonce
      let sig := leBytes 96 (Config.attestSign body s.freeN).toNat
      ({ s with freeN := s.freeN + 1 } : State).portReply giver 0x35 rsDONE (body ++ sig))

/-- ATTEST at a port (R408). -/
def execAttest (port : Nat) (nonce : List Byte) (s : State) : Host.Outcome State Fault Refusal :=
  atPort port s (fun s => s.attest port nonce)

/-! ### Jobs (R408) -/

/-- Whether a job's pages, those of its tables among them, lie in stacks that are online (R411). -/
def State.pagesUp (s : State) (j : JobSpec) : Bool :=
  (nodesFrom s 4 j.root).all (fun a => s.stackUpNo (stackOf a)) &&
  (leavesFrom s 4 j.root 0).all (fun x =>
    let pa := ptePA (s.getNat x.2.ea 8)
    hbmEnd ≤ pa || s.stackUpNo (stackOf pa))

/-- Whether a job's counter region lies wholly in A pages (R396). -/
def State.counterOk (s : State) (j : JobSpec) : Bool :=
  !j.counter.tag ||
  (pieces (capBase j.counter).toNat (capTop j.counter - capBase j.counter).toNat).all (fun p =>
    match walkLeaf s j.root p.1 with
    | some l => l.pte.testBit 4
    | none => false)

/-- Whether a job may start here (R396, R408, R411): its cores are cores that are online and free. -/
def State.jobOk (s : State) (j : JobSpec) : Bool :=
  (s.jobOf j.asid).isNone && j.gang.Nodup &&
  j.gang.all (fun e => e < 4096 && isCore e && s.unitUp e && (s.coreOf e).job.isNone) &&
  s.pagesUp j && s.counterOk j

/-- A core as a job starts on it (R239, R297, R342, R402): counts and channels at zero. Its record of the last instances received
stays: TREEWR alone clears it (R391). -/
def Core.begin (c : Core) (asid now : Nat) : Core :=
  { c.vacated with job := some asid, evc := Vector.replicate 11 0, msent := 0, mrecv := 0, idleSince := now }

/-- A gang core taken by a job: the pool's bounds, and the barriers that the job declares (R239, R357). -/
def State.takeCore (s : State) (j : JobSpec) (e : Nat) : State :=
  let s := s.at e (fun s => s.moveBounds 24 152 248)
  let s := s.mapCore e (fun c => c.begin j.asid s.time.toNat)
  let s := s.putBytes (barPlace e 0) (List.replicate 2048 0)
  j.bars.foldl (fun s b =>
    s.putBytes (barPlace e b.1) (leBytes 16 (Bar.num { exp := b.2, cnt := 0, drop := 0, vld := true, ph := 0 }))) s

/-- The join cells of a job freed (R321). -/
def State.dropJoins (s : State) (asid : Nat) : State := { s with joins := s.joins.filter (fun j => j.asid != asid) }

/-- Everything of an earlier job with the address space dropped (R330, R396). -/
def State.dropAsid (s : State) (asid : Nat) : State :=
  { s with levels := s.levels.filter (fun l => l.asid != asid), jobs := s.jobs.filter (fun j => j.spec.asid != asid)
           hutches := s.hutches.map (fun h => h.keep (fun t => t.asid != asid)) }

/-- A job starts (R408): its ring headers at their reset values (R393), its level open. -/
def State.startJob (s : State) (j : JobSpec) : State :=
  let s := (s.dropJoins j.asid).dropAsid j.asid
  let job : Job := { spec := j, sliceEnd := s.time.toNat + j.slice, reduced := s.svc == .reduced }
  let s : State := { s with jobs := s.jobs ++ [job], jobSeen := true }
  let s := (j.gang.foldl (fun s e => s.takeCore j e) s).startRings j
  s.openLevel { asid := j.asid, lid := jobLid, st := lvOPEN }

/-- JOBSTART (R408). -/
def State.jobstart (s : State) (giver : Nat) (job : JobSpec) : State :=
  s.command giver 0x10 true (fun s =>
    if s.jobOk job then (s.startJob job).portReply giver 0x10 rsDONE else s.portReply giver 0x10 rsREFUSED)

/-- JOBSTART at a port (R408). -/
def execJobstart (port : Nat) (job : JobSpec) (s : State) : Host.Outcome State Fault Refusal :=
  atPort port s (fun s => s.jobstart port job)

/-- JOBSTOP (R226, R408): reason 1, answered once the gang has stopped. -/
def State.jobstop (s : State) (giver asid : Nat) : State :=
  s.command giver 0x11 true (fun s =>
    match s.jobOf asid with
    | none => s.portReply giver 0x11 rsREFUSED
    | some j =>
      if j.gang == .saved then s.portReply giver 0x11 rsDONE
      else
        ((s.gangStop asid 1 (s.eid (0x300 + giverPort giver))).mapJob asid (fun j =>
          { j with stopPorts := j.stopPorts ++ [giver] })).answerStops asid)

/-- JOBSTOP at a port (R408). -/
def execJobstop (port asid : Nat) (s : State) : Host.Outcome State Fault Refusal :=
  atPort port s (fun s => s.jobstop port asid)

/-- A stopped gang goes on (R227). -/
def State.unstop (s : State) (j : Job) : State :=
  let s := j.spec.gang.foldl (fun s e => s.mapCore e (fun c => { c with stopped := false, stopReq := false })) s
  s.mapJob j.spec.asid (fun j => { j with gang := .run, sliceEnd := s.time.toNat + j.spec.slice })

/-- JOBRESUME (R227, R232, R235, R236): of a gang with a core that is offline REFUSED, DESIGN CHOICE (log 26). -/
def State.jobresume (s : State) (giver asid : Nat) : State :=
  s.command giver 0x12 true (fun s =>
    match s.jobOf asid with
    | none => s.portReply giver 0x12 rsREFUSED
    | some j =>
      match j.gang with
      | .run => s.portReply giver 0x12 rsDONE
      | .unsaveable => s.portReply giver 0x12 rsREFUSED
      | .stopped =>
        if !j.spec.gang.all s.unitUp then s.portReply giver 0x12 rsREFUSED
        else if s.gangStopped j then (s.unstop j).portReply giver 0x12 rsDONE else s.portReply giver 0x12 rsBUSY
      | .saved =>
        if !j.valid || !j.poisoned.isEmpty || !j.spec.gang.all s.unitUp then s.portReply giver 0x12 rsREFUSED
        else if j.spec.gang.any (fun e => (s.coreOf e).job.isSome) then s.portReply giver 0x12 rsBUSY
        else (s.restoreGang j).portReply giver 0x12 rsDONE
      | _ => s.portReply giver 0x12 rsBUSY)

/-- JOBRESUME at a port (R408). -/
def execJobresume (port asid : Nat) (s : State) : Host.Outcome State Fault Refusal :=
  atPort port s (fun s => s.jobresume port asid)

/-- Groups of a job that are still open discarded (R308). -/
def State.dropOpen (s : State) (asid : Nat) : State :=
  (s.commits.filter (fun c => c.asid == asid && c.st == .open_)).foldl (fun s c =>
    s.discardGroup c.src c.grp (fun c => c.doom whyJOBEND 0)) s

/-- A job's last trace records written (R406); where a place of one is held by a publication, the step waits for it (R310). What
writing them raises is lost with the job, DESIGN CHOICE (log 24). -/
def State.lastTrace (s : State) (j : Job) : State :=
  let t := s.flushJob j (fun _ => true)
  let left (cl : Nat) : List (Nat × Nat) := ((t.jobOf j.spec.asid).map (fun k => (k.traceRing cl).buf)).getD []
  if j.spec.trace.any (fun p => (j.traceRing p.1).buf.any (left p.1).contains) then { t with heldHit := true } else t

/-- A job removed: JOBSTOPs of it that wait are answered, since no gang of it is left to stop, its last trace records are written
(R406), its groups that are open are discarded, its cores are free, its tasks and levels gone (R308, R408). -/
def State.removeJob (s : State) (j : Job) : State :=
  let asid := j.spec.asid
  let s := j.stopPorts.foldl (fun s p => s.portReply p 0x11 rsDONE) s
  let s := (s.lastTrace j).dropOpen asid
  let s := j.spec.gang.foldl (fun s e => s.mapCore e (fun c => if c.job == some asid then c.vacated else c)) s
  (s.dropAsid asid).dropJoins asid

/-- JOBREMOVE (R408). -/
def State.jobremove (s : State) (giver asid : Nat) : State :=
  s.command giver 0x13 true (fun s =>
    match s.jobOf asid with
    | none => s.portReply giver 0x13 rsREFUSED
    | some j => (s.removeJob j).portReply giver 0x13 rsDONE)

/-- JOBREMOVE at a port (R408). -/
def execJobremove (port asid : Nat) (s : State) : Host.Outcome State Fault Refusal :=
  atPort port s (fun s => s.jobremove port asid)

/-- Whether the clusters of a launch are as GRAPHSTART must name them (R387), and its identifier a launch's (R396). -/
def Job.launchOk (j : Job) (sp : LaunchSpec) : Bool :=
  lidLevel sp.lid == 1 && sp.lid < 2 ^ 32 && sp.clusters.Nodup && sp.clusters.length == sp.ncl &&
  sp.clusters.all (fun cl => j.spec.gang.any (fun e => clusterOf e == cl))

/-- Whether a graph may be started. -/
def Job.graphOk (j : Job) (g : GraphSpec) : Bool :=
  lidLevel g.graph == 2 && lidLevel g.phase == 3 && g.graph < 2 ^ 32 && g.phase < 2 ^ 32 && g.launches.all j.launchOk

/-- A phase's level, opened with its first graph (R330, R397). -/
def State.openPhase (s : State) (asid phase : Nat) : State :=
  match s.levelOf asid phase with
  | some l => if l.live then s else s.openLevel { asid := asid, lid := phase, st := lvOPEN, parent := jobLid }
  | none => s.openLevel { asid := asid, lid := phase, st := lvOPEN, parent := jobLid }

/-- A graph queued behind those of its phase; it starts once none of them runs (R330). -/
def State.addGraph (s : State) (g : GraphSpec) : State :=
  let s := (s.openPhase g.asid g.phase).mapLevel g.asid g.phase (fun l => { l with cnt := l.cnt + 1 })
  (s.mapJob g.asid (fun j => { j with pendGraphs := j.pendGraphs ++ [g] })).nextGraph g.asid g.phase

/-- GRAPHSTART (R330, R387). -/
def State.graphstart (s : State) (giver : Nat) (gr : GraphSpec) : State :=
  s.command giver 0x14 true (fun s =>
    match s.jobOf gr.asid with
    | none => s.portReply giver 0x14 rsREFUSED
    | some j => if j.graphOk gr then (s.addGraph gr).portReply giver 0x14 rsDONE else s.portReply giver 0x14 rsREFUSED)

/-- GRAPHSTART at a port (R408). -/
def execGraphstart (port : Nat) (gr : GraphSpec) (s : State) : Host.Outcome State Fault Refusal :=
  atPort port s (fun s => s.graphstart port gr)

/-! ### Translation, doorbell and tables -/

/-- Whether a translation-buffer entry covers part of a range of an address space (R259). -/
def Tlb.inRange (t : Tlb) (asid lo len : Nat) : Bool :=
  (t.asid == asid || t.gl) && overlaps (t.vpage * 2 ^ levelShift t.level) (2 ^ levelShift t.level) lo len

/-- TLBINV (R259). -/
def State.tlbinv (s : State) (giver asid lo len : Nat) : State :=
  s.command giver 0x15 true (fun s => (s.tlbDrop (fun t => t.inRange asid lo len)).portReply giver 0x15 rsDONE)

/-- TLBINV at a port (R408). -/
def execTlbinv (port asid lo len : Nat) (s : State) : Host.Outcome State Fault Refusal :=
  atPort port s (fun s => s.tlbinv port asid lo len)

/-- DOORBELL (R224): IPEND.HOST of a core of this package. -/
def State.doorbell (s : State) (giver eid : Nat) : State :=
  s.command giver 0x16 false (fun s =>
    let e := eidLocal eid
    if eidPkg eid = s.pkgNo && isCore e && s.unitUp e then
      (s.mapCore e (fun c => { c with ipend := c.ipend ||| 2 })).portReply giver 0x16 rsDONE
    else s.portReply giver 0x16 rsREFUSED)

/-- DOORBELL at a port (R408). -/
def execDoorbell (port eid : Nat) (s : State) : Host.Outcome State Fault Refusal :=
  atPort port s (fun s => s.doorbell port eid)

/-- SETPKG (R16). -/
def State.setpkg (s : State) (giver pkg : Nat) : State :=
  s.command giver 0x20 true (fun s =>
    if pkg < 4096 then ({ s with pkg := some pkg } : State).portReply giver 0x20 rsDONE
    else s.portReply giver 0x20 rsREFUSED)

/-- SETPKG at a port (R408). -/
def execSetpkg (port pkg : Nat) (s : State) : Host.Outcome State Fault Refusal :=
  atPort port s (fun s => s.setpkg port pkg)

/-- ROUTEWR (R300). -/
def State.routewr (s : State) (giver dst : Nat) (ent : BitVec 16) : State :=
  s.command giver 0x21 true (fun s =>
    if dst < 4096 then
      ({ s with routes := { dst := dst, ent := ent } :: s.routes.filter (fun r => r.dst != dst) } : State).portReply
        giver 0x21 rsDONE
    else s.portReply giver 0x21 rsREFUSED)

/-- ROUTEWR at a port (R408). -/
def execRoutewr (port dst : Nat) (ent : BitVec 16) (s : State) : Host.Outcome State Fault Refusal :=
  atPort port s (fun s => s.routewr port dst ent)

/-- Tree writes that wait done, for trees with no instance in flight, each then answered (R391). -/
def State.settleTrees (s : State) : State :=
  s.treeWr.foldl (fun s w =>
    if s.treeBusy w.2.1 then s
    else (({ s with treeWr := s.treeWr.erase w } : State).writeTree w.2.1 w.2.2).portReply w.1 0x22 rsDONE) s

/-- TREEWR (R390, R391): it waits until no instance of the tree is in flight. -/
def State.treewr (s : State) (giver idx : Nat) (ent : List Byte) : State :=
  s.command giver 0x22 true (fun s =>
    if ent.length = 1280 && idx < 256 && treeOk ent then
      ({ s with treeWr := s.treeWr ++ [(giver, idx, ent)] } : State).settleTrees
    else s.portReply giver 0x22 rsREFUSED)

/-- TREEWR at a port (R408). -/
def execTreewr (port idx : Nat) (ent : List Byte) (s : State) : Host.Outcome State Fault Refusal :=
  atPort port s (fun s => s.treewr port idx ent)

/-- RATESET (R298). -/
def State.rateset (s : State) (giver eid rate : Nat) : State :=
  s.command giver 0x23 true (fun s =>
    ({ s with rates := (eid, rate) :: s.rates.filter (fun r => r.1 != eid) } : State).portReply giver 0x23 rsDONE)

/-- RATESET at a port (R408). -/
def execRateset (port eid rate : Nat) (s : State) : Host.Outcome State Fault Refusal :=
  atPort port s (fun s => s.rateset port eid rate)

/-! ### Service (R412, R414, R415) -/

/-- A die's firmware. -/
def State.setFw (s : State) (d : Fin 4) (f : Firmware) : State := { s with fw := s.fw.set d f }

/-- FWLOAD (R412): for a die that is offline. -/
def State.fwload (s : State) (giver die : Nat) (img : List Byte) : State :=
  s.command giver 0x30 true (fun s =>
    if h : die < 4 then
      let d : Fin 4 := ⟨die, h⟩
      let n := Config.firmwareRollback img
      if s.dies[d] ≠ .offline then s.portReply giver 0x30 rsREFUSED
      else if Config.firmwareVerifies img && decide (s.fw[d].fused ≤ n) then
        (s.setFw d { image := img, fused := n }).portReply giver 0x30 rsDONE
      else s.portReply giver 0x30 rsFAULT
    else s.portReply giver 0x30 rsREFUSED)

/-- FWLOAD at a port (R408). -/
def execFwload (port die : Nat) (img : List Byte) (s : State) : Host.Outcome State Fault Refusal :=
  atPort port s (fun s => s.fwload port die img)

/-- LINKRETRAIN (R414). A link of a die that is offline is refused like every other unit of it (R18, R415). -/
def State.linkretrain (s : State) (giver l : Nat) : State :=
  s.command giver 0x31 false (fun s =>
    if h : l < 16 then
      let k : Fin 16 := ⟨l, h⟩
      if !s.linkDieUp l then s.portReply giver 0x31 rsREFUSED
      else if (List.finRange 16).any (fun i => i ≠ k && s.links[i].retraining) then s.portReply giver 0x31 rsBUSY
      else (s.mapLink k Link.retrain).portReply giver 0x31 rsDONE
    else s.portReply giver 0x31 rsREFUSED)

/-- LINKRETRAIN at a port (R408). -/
def execLinkretrain (port l : Nat) (s : State) : Host.Outcome State Fault Refusal :=
  atPort port s (fun s => s.linkretrain port l)

/-- Whether a commit record of a die's commit agent is undecided (R414). -/
def State.undecidedAt (s : State) (die : Nat) : Bool :=
  s.commits.any (fun c => !c.decided && eidPkg c.src == s.pkgNo && eidLocal c.src / 1024 == die)

/-- STACKRETIRE (R414). -/
def State.stackretire (s : State) (giver stk : Nat) : State :=
  s.command giver 0x32 true (fun s =>
    if h : stk < 8 then
      if s.groups.any (fun g => g.stack == stk) || (stk % 2 == 0 && s.undecidedAt (stk / 2)) then
        s.portReply giver 0x32 rsBUSY
      else
        let k : Fin 8 := ⟨stk, h⟩
        ({ s with retired := s.retired.set k true, stackOn := s.stackOn.set k false } : State).portReply giver 0x32 rsDONE
    else s.portReply giver 0x32 rsREFUSED)

/-- STACKRETIRE at a port (R408). -/
def execStackretire (port stk : Nat) (s : State) : Host.Outcome State Fault Refusal :=
  atPort port s (fun s => s.stackretire port stk)

/-- CYC of a die's cores is zero at its reset (R402). -/
def Core.dieReset (c : Core) (d : Nat) : Core :=
  if c.id / 1024 = d then { c with cyc := 0, ctxs := c.ctxs.map Ctx.thawed } else c

/-- A die's routers stop accepting: it, its links and its stacks go offline (R414). -/
def State.dieDown (s : State) (d : Fin 4) : State :=
  { s with
    dies := s.dies.set d .offline
    svc := if s.svc == .full then .joining else s.svc
    core := s.core.dieReset d.val
    others := s.others.map (fun c => c.dieReset d.val)
    stackOn := (Vector.finRange 8).map (fun i => s.stackOn[i] && i.val / 2 != d.val)
    links := (Vector.finRange 16).map (fun i =>
      if i.val / 4 = d.val then { out := s.links[i].out } else s.links[i]) }

/-- Whether DIEOFF would cut the host off from the ports (R415). -/
def State.cutsHost (s : State) (die : Nat) (via : Option Nat) : Bool :=
  die == 0 && (via.any (· ≤ 3) || !(List.finRange 16).any (fun i => 4 ≤ i.val && s.links[i].trained))

/-- DIEOFF (R414, R415); `via` is the link the command came by. -/
def State.dieoff (s : State) (giver die : Nat) (via : Option Nat) : State :=
  s.command giver 0x33 true (fun s =>
    if h : die < 4 then
      let used := s.allCores.any (fun c => c.job.isSome && c.id / 1024 == die)
      let held := s.undecidedAt die || s.groups.any (fun g => g.stack / 2 == die)
      if used || held || s.cutsHost die via then s.portReply giver 0x33 rsBUSY
      else (s.dieDown ⟨die, h⟩).portReply giver 0x33 rsDONE
    else s.portReply giver 0x33 rsREFUSED)

/-- DIEOFF at a port (R408). -/
def execDieoff (port die : Nat) (via : Option Nat) (s : State) : Host.Outcome State Fault Refusal :=
  atPort port s (fun s => s.dieoff port die via)

/-- DIEON (R414): recalibration; the die then joins by PART_JOIN. -/
def State.dieon (s : State) (giver die : Nat) : State :=
  s.command giver 0x34 true (fun s =>
    if h : die < 4 then
      let d : Fin 4 := ⟨die, h⟩
      if s.dies[d] = .offline then ({ s with dies := s.dies.set d .joining } : State).portReply giver 0x34 rsDONE
      else s.portReply giver 0x34 rsBUSY
    else s.portReply giver 0x34 rsREFUSED)

/-- DIEON at a port (R408). -/
def execDieon (port die : Nat) (s : State) : Host.Outcome State Fault Refusal :=
  atPort port s (fun s => s.dieon port die)

/-- POWERCAP (R418): a limit in watts, at most 3,400. -/
def State.powercap (s : State) (giver watts : Nat) : State :=
  s.command giver 0x36 true (fun s => ({ s with powerCap := min watts 3400 } : State).portReply giver 0x36 rsDONE)

/-- POWERCAP at a port (R408). -/
def execPowercap (port watts : Nat) (s : State) : Host.Outcome State Fault Refusal :=
  atPort port s (fun s => s.powercap port watts)

/-! ### Sideboard commands (R416) -/

/-- SBRESOLVEs of stacks that hold no group any more answered. -/
def State.settleResolves (s : State) : State :=
  s.resolving.foldl (fun s r =>
    if s.groups.any (fun g => g.stack == r.1) then s
    else ({ s with resolving := s.resolving.erase r } : State).portReply r.2.1 0x37 rsDONE) s

/-- SBRESOLVE (R416). -/
def State.sbresolve (s : State) (giver stk : Nat) : State :=
  s.command giver 0x37 true (fun s =>
    if 8 ≤ stk || !s.unitUp (stackAgent stk) then s.portReply giver 0x37 rsREFUSED
    else
      let s : State := { s with groups := s.groups.filter (fun g => !(g.stack == stk && g.st == .staging)) }
      let asks := s.groups.filter (fun g => g.stack == stk && !g.holding)
      let s := asks.foldl (fun s g => s.askCommit g.stack g.src g.grp) s
      ({ s with resolving := s.resolving ++ [(stk, giver, s.time.toNat)] } : State).settleResolves)

/-- SBRESOLVE at a port (R408). -/
def execSbresolve (port stk : Nat) (s : State) : Host.Outcome State Fault Refusal :=
  atPort port s (fun s => s.sbresolve port stk)

/-- SBRESOLVE_TIMEOUT (R416): 10 ms with groups still held. -/
def execSbresolveTimeout (stk : Nat) (s : State) : Host.Outcome State Fault Refusal :=
  let s := s.settleResolves
  let late (r : Nat × Nat × Nat) : Bool := r.1 == stk && r.2.2 + 10000000 ≤ s.time.toNat
  done ((s.resolving.filter late).foldl (fun s r => s.portReply r.2.1 0x37 rsFAULT)
    ({ s with resolving := s.resolving.filter (fun r => !late r) } : State))

/-- An entry of SBLIST's answer (log 14): source EID, group, state (1 STAGING, 2 PREPARED), and TIME of that state. -/
def SbGroup.entry (g : SbGroup) : List Byte :=
  leBytes 8 (g.src % 2 ^ 24 + g.grp % 65536 * 2 ^ 24 + (if g.st == .staging then 1 else 2) * 2 ^ 40) ++ leBytes 8 g.entered

/-- SBLIST (R416). -/
def State.sblist (s : State) (giver stk off : Nat) : State :=
  s.command giver 0x38 false (fun s =>
    if 8 ≤ stk then s.portReply giver 0x38 rsREFUSED
    else
      let gs := s.groups.filter (fun g => g.stack == stk)
      s.portReply giver 0x38 rsDONE (((gs.drop off).take 64).flatMap SbGroup.entry))

/-- SBLIST at a port (R408). -/
def execSblist (port stk off : Nat) (s : State) : Host.Outcome State Fault Refusal :=
  atPort port s (fun s => s.sblist port stk off)

/-- SBDECIDE (R416): as if the commit agent had answered. -/
def State.sbdecide (s : State) (giver stk src grp : Nat) (pub : Bool) : State :=
  s.command giver 0x39 true (fun s =>
    match s.groupOf stk src grp with
    | some g =>
      if g.st == .prepared then
        ((if pub then s.publishAt stk src grp none else s.dropGroup stk src grp).settleResolves).portReply giver 0x39 rsDONE
      else s.portReply giver 0x39 rsREFUSED
    | none => s.portReply giver 0x39 rsREFUSED)

/-- SBDECIDE at a port (R408). -/
def execSbdecide (port stk src grp : Nat) (pub : Bool) (s : State) : Host.Outcome State Fault Refusal :=
  atPort port s (fun s => s.sbdecide port stk src grp pub)

/-- Whether a record awaits an acknowledgement from an agent. -/
def Commit.awaits (c : Commit) (agent : Nat) : Bool :=
  (c.st == .publishing || c.st == .discarding) && c.parts.any (fun q => q.agent == agent && !q.acked)

/-- An acknowledgement of a lost agent taken as given (R416). -/
def Commit.lose (c : Commit) (agent : Nat) : Commit :=
  { c with lostp := true, parts := c.parts.map (fun q => if q.agent == agent then { q with acked := true } else q) }

/-- SBLOST (R416). -/
def State.sblost (s : State) (giver eid : Nat) : State :=
  s.command giver 0x3A true (fun s =>
    let hit := s.commits.filter (fun c => c.awaits eid)
    (hit.foldl (fun s c => (s.mapCommit c.src c.grp (fun c => c.lose eid)).finishCommit c.src c.grp) s).portReply
      giver 0x3A rsDONE)

/-- SBLOST at a port (R408). -/
def execSblost (port eid : Nat) (s : State) : Host.Outcome State Fault Refusal :=
  atPort port s (fun s => s.sblost port eid)

/-! ### Bring-up (R411) -/

/-- POWER_ON (R411): everything is at its reset value but firmware, its fuses and retired stacks, and TIME, which runs in the
always-on domain and never goes back (R400). -/
def execPowerOn (s : State) : Host.Outcome State Fault Refusal :=
  done { State.reset with fw := s.fw, retired := s.retired, freeN := s.freeN, agenda := s.agenda, time := s.time
                          timeFrac := s.timeFrac }

/-- REDUCED_SERVICE (R411). -/
def execReducedService (s : State) : Host.Outcome State Fault Refusal :=
  done (if s.svc == .reset then
    { s with
      svc := .reduced
      dies := (Vector.replicate 4 DieSt.joining).set 0 .reduced
      clocks := s.clocks.set 0 1000
      stackOn := (Vector.finRange 8).map (fun i => decide (i.val < 2) && !s.retired[i]) }
  else s)

/-- Whether every part is online (R411). -/
def State.allUp (s : State) : Bool :=
  s.dies.all (· == .online) && (List.finRange 8).all (fun i => s.stackOn[i] || s.retired[i]) && s.links.all (·.trained)

/-- SVC after a part has joined. -/
def State.rise (s : State) : State := { s with svc := if s.allUp then .full else .joining }

/-- A part whose calibration has finished joins, and both ports hear of it (R409, R411, R414); memory agents that are online with it
resume (R416). -/
def State.join (s : State) (part : Part) : State :=
  let up (d : Nat) : Bool := s.dies[Fin.ofNat 4 d] != .offline
  match part with
  | .die d =>
    let k : Fin 4 := Fin.ofNat 4 d
    let t : State := { s with dies := s.dies.set k .online, clocks := s.clocks.set k 1500 }
    if s.dies[k] == .joining then
      ((t.rise.resumeAgent (2 * k.val)).resumeAgent (2 * k.val + 1)).tellHost (.serviceDone (partNo part))
    else if s.dies[k] == .reduced then t.rise.tellHost (.serviceDone (partNo part))
    else s
  | .stack n =>
    let k : Fin 8 := Fin.ofNat 8 n
    if up (n / 2) && !s.stackOn[k] && !s.retired[k] then
      (({ s with stackOn := s.stackOn.set k true } : State).rise.resumeAgent k.val).tellHost (.serviceDone (partNo part))
    else s
  | .link l =>
    let k : Fin 16 := Fin.ofNat 16 l
    if up (l / 4) && !s.links[k].trained && !s.links[k].retraining then
      ((s.mapLink k (fun x => { x with trained := true })).rise).tellHost (.serviceDone (partNo part))
    else s

/-- PART_JOIN (R411). -/
def execPartJoin (part : Part) (s : State) : Host.Outcome State Fault Refusal :=
  done (if !part.ok || s.svc == .reset then s else s.join part)

/-! ### Power and cooling (R418) -/

/-- THERMAL_THROTTLE (R418): one step of 100 MHz; the clock stays above zero. -/
def execThermalThrottle (die : Nat) (s : State) : Host.Outcome State Fault Refusal :=
  if h : die < 4 then done { s with clocks := s.clocks.set die (max 100 (s.clocks[die] - 100)) } else done s

/-- THERMAL_SHUTDOWN (R418): gangs with cores on the die stop with reason 5, its own cores where they are, with their counts
written and the fault traced (R403, R406), JOBSTOPs that waited for them are answered, and it goes offline. -/
def execThermalShutdown (die : Nat) (s : State) : Host.Outcome State Fault Refusal :=
  if h : die < 4 then
    let me := s.dieMgr (1024 * die)
    let on (e : Nat) : Bool := e / 1024 == die
    let s := (s.jobs.filter (fun j => j.gang != .saved && j.spec.gang.any on)).foldl (fun (s : State) j =>
      let s := s.gangStop j.spec.asid 5 me
      let s := (j.spec.gang.filter on).foldl (fun s e => s.at e (fun s => if s.core.stopped then s else s.stopCore 5 me))
        (s.traceFault j 5)
      s.answerStops j.spec.asid) s
    done (s.dieDown ⟨die, h⟩)
  else done s

/-! ### Commands in packets (R408) -/

/-- The command that an AM to a port is, by its code; one that the table does not list is refused (R408). The places of the
arguments are the model's (log 14), and JOBSTART and GRAPHSTART carry theirs in a form that is free. -/
def State.packetCommand (s : State) (p : Packet) : State :=
  let g := amGiver p
  let a := p.arg0.toNat
  let b := p.arg1.toNat
  match p.handler with
  | 0x01 => s.ident g
  | 0x02 => s.semacq g
  | 0x03 => s.semrel g
  | 0x10 =>
    match Config.jobSpecOf p.data with
    | some j => s.jobstart g j
    | none => s.command g 0x10 true (fun s => s.portReply g 0x10 rsREFUSED)
  | 0x11 => s.jobstop g a
  | 0x12 => s.jobresume g a
  | 0x13 => s.jobremove g a
  | 0x14 =>
    match Config.graphSpecOf p.data with
    | some x => s.graphstart g x
    | none => s.command g 0x14 true (fun s => s.portReply g 0x14 rsREFUSED)
  | 0x15 => s.tlbinv g a (b + fld p.arg2 0 16 * 2 ^ 64) p.arg3.toNat
  | 0x16 => s.doorbell g a
  | 0x20 => s.setpkg g a
  | 0x21 => s.routewr g a (p.arg1.truncate 16)
  | 0x22 => s.treewr g a p.data
  | 0x23 => s.rateset g a b
  | 0x30 => s.fwload g a p.data
  | 0x31 => s.linkretrain g a
  | 0x32 => s.stackretire g a
  | 0x33 => s.dieoff g a p.via
  | 0x34 => s.dieon g a
  | 0x35 => s.attest g p.data
  | 0x36 => s.powercap g a
  | 0x37 => s.sbresolve g a
  | 0x38 => s.sblist g a b
  | 0x39 => s.sbdecide g a (b % 2 ^ 24) (b / 2 ^ 24 % 65536) (p.arg1.getLsbD 40)
  | 0x3A => s.sblost g a
  | c => s.portReply g c rsREFUSED

/-- ACTIVE_MESSAGE (R297, R334, R408): a task for a core's cluster, or a command for a port. -/
def execActiveMessage (p : Packet) (s : State) : Host.Outcome State Fault Refusal :=
  done (s.arrive p (fun s => if ctlPort (eidLocal p.deid) then s.packetCommand p else s.takeMessage p))

end Sys2Proof.Machine
end

