-- ==== Sys2Proof/Machine/Dispatch.lean ====
section
/-! DEFINITION. The one match on the syntax: every constructor's meaning by name. -/

namespace Sys2Proof.Machine

-- One arm per row of the opcode table.
def exec (i : Instr) (s : State) : Host.Outcome State Fault Refusal :=
  match i with
  | .add st d a b => Sys2Proof.Machine.execAdd st d a b s
  | .sub st d a b => Sys2Proof.Machine.execSub st d a b s
  | .andr st d a b => Sys2Proof.Machine.execAndr st d a b s
  | .orr st d a b => Sys2Proof.Machine.execOrr st d a b s
  | .xorr st d a b => Sys2Proof.Machine.execXorr st d a b s
  | .andn st d a b => Sys2Proof.Machine.execAndn st d a b s
  | .sll st d a b => Sys2Proof.Machine.execSll st d a b s
  | .srl st d a b => Sys2Proof.Machine.execSrl st d a b s
  | .sra st d a b => Sys2Proof.Machine.execSra st d a b s
  | .slt st d a b => Sys2Proof.Machine.execSlt st d a b s
  | .sltu st d a b => Sys2Proof.Machine.execSltu st d a b s
  | .min st d a b => Sys2Proof.Machine.execMin st d a b s
  | .max st d a b => Sys2Proof.Machine.execMax st d a b s
  | .minu st d a b => Sys2Proof.Machine.execMinu st d a b s
  | .maxu st d a b => Sys2Proof.Machine.execMaxu st d a b s
  | .sel st d a b => Sys2Proof.Machine.execSel st d a b s
  | .addi st d a imm => Sys2Proof.Machine.execAddi st d a imm s
  | .andi st d a imm => Sys2Proof.Machine.execAndi st d a imm s
  | .ori st d a imm => Sys2Proof.Machine.execOri st d a imm s
  | .xori st d a imm => Sys2Proof.Machine.execXori st d a imm s
  | .slli st d a imm => Sys2Proof.Machine.execSlli st d a imm s
  | .srli st d a imm => Sys2Proof.Machine.execSrli st d a imm s
  | .srai st d a imm => Sys2Proof.Machine.execSrai st d a imm s
  | .slti st d a imm => Sys2Proof.Machine.execSlti st d a imm s
  | .mul st d a b => Sys2Proof.Machine.execMul st d a b s
  | .mulh st d a b => Sys2Proof.Machine.execMulh st d a b s
  | .mulhu st d a b => Sys2Proof.Machine.execMulhu st d a b s
  | .div st d a b => Sys2Proof.Machine.execDiv st d a b s
  | .divu st d a b => Sys2Proof.Machine.execDivu st d a b s
  | .rem st d a b => Sys2Proof.Machine.execRem st d a b s
  | .remu st d a b => Sys2Proof.Machine.execRemu st d a b s
  | .clz st d a => Sys2Proof.Machine.execClz st d a s
  | .ctz st d a => Sys2Proof.Machine.execCtz st d a s
  | .popc st d a => Sys2Proof.Machine.execPopc st d a s
  | .bswap st d a => Sys2Proof.Machine.execBswap st d a s
  | .lis st d imm => Sys2Proof.Machine.execLis st d imm s
  | .lik st d imm => Sys2Proof.Machine.execLik st d imm s
  | .cmov st d a => Sys2Proof.Machine.execCmov st d a s
  | .cinc st d a b => Sys2Proof.Machine.execCinc st d a b s
  | .cseta st d a b => Sys2Proof.Machine.execCseta st d a b s
  | .csetb st d a b => Sys2Proof.Machine.execCsetb st d a b s
  | .csetbx st d a b => Sys2Proof.Machine.execCsetbx st d a b s
  | .candp st d a b => Sys2Proof.Machine.execCandp st d a b s
  | .cgeta st d a h => Sys2Proof.Machine.execCgeta st d a h s
  | .cgetb st d a h => Sys2Proof.Machine.execCgetb st d a h s
  | .cgett st d a h => Sys2Proof.Machine.execCgett st d a h s
  | .cgetp st d a => Sys2Proof.Machine.execCgetp st d a s
  | .cgettag st d a => Sys2Proof.Machine.execCgettag st d a s
  | .cclrtag st d a => Sys2Proof.Machine.execCclrtag st d a s
  | .csub st d a b => Sys2Proof.Machine.execCsub st d a b s
  | .ctest st d a b => Sys2Proof.Machine.execCtest st d a b s
  | .cinci st d a imm => Sys2Proof.Machine.execCinci st d a imm s
  | .csetbi st d a imm => Sys2Proof.Machine.execCsetbi st d a imm s
  | .beq st a off => Sys2Proof.Machine.execBeq st a off s
  | .bne st a off => Sys2Proof.Machine.execBne st a off s
  | .blt st a off => Sys2Proof.Machine.execBlt st a off s
  | .bge st a off => Sys2Proof.Machine.execBge st a off s
  | .ble st a off => Sys2Proof.Machine.execBle st a off s
  | .bgt st a off => Sys2Proof.Machine.execBgt st a off s
  | .btag st a off => Sys2Proof.Machine.execBtag st a off s
  | .bntag st a off => Sys2Proof.Machine.execBntag st a off s
  | .j st off => Sys2Proof.Machine.execJ st off s
  | .call st off => Sys2Proof.Machine.execCall st off s
  | .jr st a => Sys2Proof.Machine.execJr st a s
  | .callr st d a => Sys2Proof.Machine.execCallr st d a s
  | .ret st a => Sys2Proof.Machine.execRet st a s
  | .lexit st a => Sys2Proof.Machine.execLexit st a s
  | .loop st a n => Sys2Proof.Machine.execLoop st a n s
  | .ldB st d a off => Sys2Proof.Machine.execLdB st d a off s
  | .ldBu st d a off => Sys2Proof.Machine.execLdBu st d a off s
  | .ldH st d a off => Sys2Proof.Machine.execLdH st d a off s
  | .ldHu st d a off => Sys2Proof.Machine.execLdHu st d a off s
  | .ldW st d a off => Sys2Proof.Machine.execLdW st d a off s
  | .ldWu st d a off => Sys2Proof.Machine.execLdWu st d a off s
  | .ldD st d a off => Sys2Proof.Machine.execLdD st d a off s
  | .ldC st d a off => Sys2Proof.Machine.execLdC st d a off s
  | .stB st d a off => Sys2Proof.Machine.execStB st d a off s
  | .stH st d a off => Sys2Proof.Machine.execStH st d a off s
  | .stW st d a off => Sys2Proof.Machine.execStW st d a off s
  | .stD st d a off => Sys2Proof.Machine.execStD st d a off s
  | .stC st d a off => Sys2Proof.Machine.execStC st d a off s
  | .aaddD st d a b => Sys2Proof.Machine.execAaddD st d a b s
  | .aandD st d a b => Sys2Proof.Machine.execAandD st d a b s
  | .aorD st d a b => Sys2Proof.Machine.execAorD st d a b s
  | .axorD st d a b => Sys2Proof.Machine.execAxorD st d a b s
  | .aminD st d a b => Sys2Proof.Machine.execAminD st d a b s
  | .amaxD st d a b => Sys2Proof.Machine.execAmaxD st d a b s
  | .aminuD st d a b => Sys2Proof.Machine.execAminuD st d a b s
  | .amaxuD st d a b => Sys2Proof.Machine.execAmaxuD st d a b s
  | .aswapD st d a b => Sys2Proof.Machine.execAswapD st d a b s
  | .acasD st d a b => Sys2Proof.Machine.execAcasD st d a b s
  | .afaddD st d a b => Sys2Proof.Machine.execAfaddD st d a b s
  | .aaddW st d a b => Sys2Proof.Machine.execAaddW st d a b s
  | .aandW st d a b => Sys2Proof.Machine.execAandW st d a b s
  | .aorW st d a b => Sys2Proof.Machine.execAorW st d a b s
  | .axorW st d a b => Sys2Proof.Machine.execAxorW st d a b s
  | .aminW st d a b => Sys2Proof.Machine.execAminW st d a b s
  | .amaxW st d a b => Sys2Proof.Machine.execAmaxW st d a b s
  | .aminuW st d a b => Sys2Proof.Machine.execAminuW st d a b s
  | .amaxuW st d a b => Sys2Proof.Machine.execAmaxuW st d a b s
  | .aswapW st d a b => Sys2Proof.Machine.execAswapW st d a b s
  | .acasW st d a b => Sys2Proof.Machine.execAcasW st d a b s
  | .afaddW st d a b => Sys2Proof.Machine.execAfaddW st d a b s
  | .afaddbf st d a b => Sys2Proof.Machine.execAfaddbf st d a b s
  | .fence st n => Sys2Proof.Machine.execFence st n s
  | .fencer st d => Sys2Proof.Machine.execFencer st d s
  | .clean st a b => Sys2Proof.Machine.execClean st a b s
  | .inval st a b => Sys2Proof.Machine.execInval st a b s
  | .waitj st d a => Sys2Proof.Machine.execWaitj st d a s
  | .pollj st d a => Sys2Proof.Machine.execPollj st d a s
  | .sleep st a => Sys2Proof.Machine.execSleep st a s
  | .yield st => Sys2Proof.Machine.execYield st s
  | .vld st d a => Sys2Proof.Machine.execVld st d a s
  | .vst st d a => Sys2Proof.Machine.execVst st d a s
  | .vlds st d a b => Sys2Proof.Machine.execVlds st d a b s
  | .vsts st d a b => Sys2Proof.Machine.execVsts st d a b s
  | .vldx st d a b => Sys2Proof.Machine.execVldx st d a b s
  | .vstx st d a b => Sys2Proof.Machine.execVstx st d a b s
  | .vldt st d a b => Sys2Proof.Machine.execVldt st d a b s
  | .vstt st d a b => Sys2Proof.Machine.execVstt st d a b s
  | .sbind st d a b => Sys2Proof.Machine.execSbind st d a b s
  | .sunbind st d => Sys2Proof.Machine.execSunbind st d s
  | .vldb st d a b => Sys2Proof.Machine.execVldb st d a b s
  | .tpred st d a b => Sys2Proof.Machine.execTpred st d a b s
  | .tvclr st a b => Sys2Proof.Machine.execTvclr st a b s
  | .tvset st a b => Sys2Proof.Machine.execTvset st a b s
  | .thdr st a b => Sys2Proof.Machine.execThdr st a b s
  | .gath st d a b => Sys2Proof.Machine.execGath st d a b s
  | .scat st d a b => Sys2Proof.Machine.execScat st d a b s
  | .gathst st d a b => Sys2Proof.Machine.execGathst st d a b s
  | .vsort st d a b => Sys2Proof.Machine.execVsort st d a b s
  | .vsortx st d a b => Sys2Proof.Machine.execVsortx st d a b s
  | .vbstep st d a b => Sys2Proof.Machine.execVbstep st d a b s
  | .vtopk st d a b => Sys2Proof.Machine.execVtopk st d a b s
  | .vmergek st d a b => Sys2Proof.Machine.execVmergek st d a b s
  | .vrank st d a => Sys2Proof.Machine.execVrank st d a s
  | .occfg st d a b => Sys2Proof.Machine.execOccfg st d a b s
  | .ocemit st d a => Sys2Proof.Machine.execOcemit st d a s
  | .ocemiti st d a b => Sys2Proof.Machine.execOcemiti st d a b s
  | .ocacc st d => Sys2Proof.Machine.execOcacc st d s
  | .ocstat st d h => Sys2Proof.Machine.execOcstat st d h s
  | .ocrst st => Sys2Proof.Machine.execOcrst st s
  | .ocgw st a b => Sys2Proof.Machine.execOcgw st a b s
  | .ocga st a b => Sys2Proof.Machine.execOcga st a b s
  | .ocgf st a b => Sys2Proof.Machine.execOcgf st a b s
  | .mmode st n => Sys2Proof.Machine.execMmode st n s
  | .mop st d a b => Sys2Proof.Machine.execMop st d a b s
  | .msqd st d a b => Sys2Proof.Machine.execMsqd st d a b s
  | .mtopk st d k => Sys2Proof.Machine.execMtopk st d k s
  | .accrd st d a b => Sys2Proof.Machine.execAccrd st d a b s
  | .accz st => Sys2Proof.Machine.execAccz st s
  | .mdrain st d a b => Sys2Proof.Machine.execMdrain st d a b s
  | .mwait st n => Sys2Proof.Machine.execMwait st n s
  | .mnmb st a => Sys2Proof.Machine.execMnmb st a s
  | .cpy st d a b => Sys2Proof.Machine.execCpy st d a b s
  | .cpy2d st d a b => Sys2Proof.Machine.execCpy2d st d a b s
  | .cpyq st d a b => Sys2Proof.Machine.execCpyq st d a b s
  | .cpyx st d a b => Sys2Proof.Machine.execCpyx st d a b s
  | .tbegin st a b => Sys2Proof.Machine.execTbegin st a b s
  | .trec st a => Sys2Proof.Machine.execTrec st a s
  | .trecb st a => Sys2Proof.Machine.execTrecb st a s
  | .trecv st a n => Sys2Proof.Machine.execTrecv st a n s
  | .tend st d => Sys2Proof.Machine.execTend st d s
  | .tplay st a b => Sys2Proof.Machine.execTplay st a b s
  | .tpop st d n => Sys2Proof.Machine.execTpop st d n s
  | .tpopb st d => Sys2Proof.Machine.execTpopb st d s
  | .tpopv st d n => Sys2Proof.Machine.execTpopv st d n s
  | .tstat st d n => Sys2Proof.Machine.execTstat st d n s
  | .send st d a b => Sys2Proof.Machine.execSend st d a b s
  | .tenq st d a b => Sys2Proof.Machine.execTenq st d a b s
  | .rfork st d a b => Sys2Proof.Machine.execRfork st d a b s
  | .join st a => Sys2Proof.Machine.execJoin st a s
  | .tbind st d a b => Sys2Proof.Machine.execTbind st d a b s
  | .tunbind st d a => Sys2Proof.Machine.execTunbind st d a s
  | .tfire st d a b => Sys2Proof.Machine.execTfire st d a b s
  | .chopen st d a b => Sys2Proof.Machine.execChopen st d a b s
  | .chclose st a => Sys2Proof.Machine.execChclose st a s
  | .chsend st d a b => Sys2Proof.Machine.execChsend st d a b s
  | .chrecv st d a b => Sys2Proof.Machine.execChrecv st d a b s
  | .exit st => Sys2Proof.Machine.execExit st s
  | .hstart st d a b => Sys2Proof.Machine.execHstart st d a b s
  | .hstop st a => Sys2Proof.Machine.execHstop st a s
  | .hstat st d a b => Sys2Proof.Machine.execHstat st d a b s
  | .bari st a b => Sys2Proof.Machine.execBari st a b s
  | .bara st d a b => Sys2Proof.Machine.execBara st d a b s
  | .barad st d a b => Sys2Proof.Machine.execBarad st d a b s
  | .barw st d a b => Sys2Proof.Machine.execBarw st d a b s
  | .baraw st d a b => Sys2Proof.Machine.execBaraw st d a b s
  | .rld st d a b => Sys2Proof.Machine.execRld st d a b s
  | .rst st d a b => Sys2Proof.Machine.execRst st d a b s
  | .ramo st d a b => Sys2Proof.Machine.execRamo st d a b s
  | .gst st d a b => Sys2Proof.Machine.execGst st d a b s
  | .gcommit st d a => Sys2Proof.Machine.execGcommit st d a s
  | .gabort st a => Sys2Proof.Machine.execGabort st a s
  | .gcstat st d a => Sys2Proof.Machine.execGcstat st d a s
  | .gwait st d a => Sys2Proof.Machine.execGwait st d a s
  | .nred st d a b => Sys2Proof.Machine.execNred st d a b s
  | .nredw st d a => Sys2Proof.Machine.execNredw st d a s
  | .srd st d n => Sys2Proof.Machine.execSrd st d n s
  | .swr st d n => Sys2Proof.Machine.execSwr st d n s
  | .trap st n => Sys2Proof.Machine.execTrap st n s
  | .eret st => Sys2Proof.Machine.execEret st s
  | .brk st n => Sys2Proof.Machine.execBrk st n s
  | .time st d => Sys2Proof.Machine.execTime st d s
  | .halt st => Sys2Proof.Machine.execHalt st s
  | .cancel st d a b => Sys2Proof.Machine.execCancel st d a b s
  | .vmovs st d a b => Sys2Proof.Machine.execVmovs st d a b s
  | .vmovx st d a => Sys2Proof.Machine.execVmovx st d a s
  | .vins st d a b => Sys2Proof.Machine.execVins st d a b s
  | .mset st d a => Sys2Proof.Machine.execMset st d a s
  | .mget st d a => Sys2Proof.Machine.execMget st d a s
  | .gset st d a => Sys2Proof.Machine.execGset st d a s
  | .gget st d a => Sys2Proof.Machine.execGget st d a s
  | .oset st d a => Sys2Proof.Machine.execOset st d a s
  | .oget st d a => Sys2Proof.Machine.execOget st d a s
  | .bmany st a off => Sys2Proof.Machine.execBmany st a off s
  | .bmnone st a off => Sys2Proof.Machine.execBmnone st a off s
  | .bmall st a off => Sys2Proof.Machine.execBmall st a off s
  | .bgds st a off => Sys2Proof.Machine.execBgds st a off s
  | .bgdc st a off => Sys2Proof.Machine.execBgdc st a off s
  | .vadd st d a b m => Sys2Proof.Machine.execVadd st d a b m s
  | .vsub st d a b m => Sys2Proof.Machine.execVsub st d a b m s
  | .vmul st d a b m => Sys2Proof.Machine.execVmul st d a b m s
  | .vmulh st d a b m => Sys2Proof.Machine.execVmulh st d a b m s
  | .vfma st d a b m => Sys2Proof.Machine.execVfma st d a b m s
  | .vfms st d a b m => Sys2Proof.Machine.execVfms st d a b m s
  | .vmin st d a b m => Sys2Proof.Machine.execVmin st d a b m s
  | .vmax st d a b m => Sys2Proof.Machine.execVmax st d a b m s
  | .vand st d a b m => Sys2Proof.Machine.execVand st d a b m s
  | .vor st d a b m => Sys2Proof.Machine.execVor st d a b m s
  | .vxor st d a b m => Sys2Proof.Machine.execVxor st d a b m s
  | .vandn st d a b m => Sys2Proof.Machine.execVandn st d a b m s
  | .vsll st d a b m => Sys2Proof.Machine.execVsll st d a b m s
  | .vsrl st d a b m => Sys2Proof.Machine.execVsrl st d a b m s
  | .vsra st d a b m => Sys2Proof.Machine.execVsra st d a b m s
  | .vrol st d a b m => Sys2Proof.Machine.execVrol st d a b m s
  | .vceq st d a b m => Sys2Proof.Machine.execVceq st d a b m s
  | .vcne st d a b m => Sys2Proof.Machine.execVcne st d a b m s
  | .vclt st d a b m => Sys2Proof.Machine.execVclt st d a b m s
  | .vcle st d a b m => Sys2Proof.Machine.execVcle st d a b m s
  | .vcvt st d a m => Sys2Proof.Machine.execVcvt st d a m s
  | .vcvts st d a b m => Sys2Proof.Machine.execVcvts st d a b m s
  | .vpack st d a b => Sys2Proof.Machine.execVpack st d a b s
  | .vunpk st d a b => Sys2Proof.Machine.execVunpk st d a b s
  | .vperm st d a b m => Sys2Proof.Machine.execVperm st d a b m s
  | .vshuf st d a b m => Sys2Proof.Machine.execVshuf st d a b m s
  | .vsldu st d a b m => Sys2Proof.Machine.execVsldu st d a b m s
  | .vsldd st d a b m => Sys2Proof.Machine.execVsldd st d a b m s
  | .vrsum st d a b m => Sys2Proof.Machine.execVrsum st d a b m s
  | .vrmax st d a b m => Sys2Proof.Machine.execVrmax st d a b m s
  | .vrmin st d a b m => Sys2Proof.Machine.execVrmin st d a b m s
  | .vramax st d a b m => Sys2Proof.Machine.execVramax st d a b m s
  | .vmrg st d a b m => Sys2Proof.Machine.execVmrg st d a b m s
  | .vcmpr st d a m => Sys2Proof.Machine.execVcmpr st d a m s
  | .vabs st d a m => Sys2Proof.Machine.execVabs st d a m s
  | .vneg st d a m => Sys2Proof.Machine.execVneg st d a m s
  | .vdiv st d a b m => Sys2Proof.Machine.execVdiv st d a b m s
  | .vsqrt st d a m => Sys2Proof.Machine.execVsqrt st d a m s
  | .vexp2 st d a m => Sys2Proof.Machine.execVexp2 st d a m s
  | .vlog2 st d a m => Sys2Proof.Machine.execVlog2 st d a m s
  | .vdot4 st d a b m => Sys2Proof.Machine.execVdot4 st d a b m s
  | .vsad st d a b m => Sys2Proof.Machine.execVsad st d a b m s
  | .viota st d m => Sys2Proof.Machine.execViota st d m s
  | .vmcnt st d m => Sys2Proof.Machine.execVmcnt st d m s
  | .vclz st d a m => Sys2Proof.Machine.execVclz st d a m s
  | .vpopc st d a m => Sys2Proof.Machine.execVpopc st d a m s
  | .vscl st d a b m => Sys2Proof.Machine.execVscl st d a b m s
  | .vmov st d a m => Sys2Proof.Machine.execVmov st d a m s
  | .addShort st x y => Sys2Proof.Machine.execAddShort st x y s
  | .subShort st x y => Sys2Proof.Machine.execSubShort st x y s
  | .andShort st x y => Sys2Proof.Machine.execAndShort st x y s
  | .orShort st x y => Sys2Proof.Machine.execOrShort st x y s
  | .xorShort st x y => Sys2Proof.Machine.execXorShort st x y s
  | .cmovShort st x y => Sys2Proof.Machine.execCmovShort st x y s
  | .addiShort st x y => Sys2Proof.Machine.execAddiShort st x y s
  | .slliShort st x y => Sys2Proof.Machine.execSlliShort st x y s
  | .srliShort st x y => Sys2Proof.Machine.execSrliShort st x y s
  | .sraiShort st x y => Sys2Proof.Machine.execSraiShort st x y s
  | .lisShort st x y => Sys2Proof.Machine.execLisShort st x y s
  | .cinciShort st x y => Sys2Proof.Machine.execCinciShort st x y s
  | .ldDShort st x y => Sys2Proof.Machine.execLdDShort st x y s
  | .stDShort st x y => Sys2Proof.Machine.execStDShort st x y s
  | .ldWShort st x y => Sys2Proof.Machine.execLdWShort st x y s
  | .stWShort st x y => Sys2Proof.Machine.execStWShort st x y s
  | .ldDC2Short st x y => Sys2Proof.Machine.execLdDC2Short st x y s
  | .stDC2Short st x y => Sys2Proof.Machine.execStDC2Short st x y s
  | .ldCC2Short st x y => Sys2Proof.Machine.execLdCC2Short st x y s
  | .stCC2Short st x y => Sys2Proof.Machine.execStCC2Short st x y s
  | .beqShort st x y => Sys2Proof.Machine.execBeqShort st x y s
  | .bneShort st x y => Sys2Proof.Machine.execBneShort st x y s
  | .jShort st o => Sys2Proof.Machine.execJShort st o s
  | .retShort st x => Sys2Proof.Machine.execRetShort st x s
  | .callrShort st x => Sys2Proof.Machine.execCallrShort st x s
  | .vaddShort st x y => Sys2Proof.Machine.execVaddShort st x y s
  | .vmulShort st x y => Sys2Proof.Machine.execVmulShort st x y s
  | .vmovShort st x y => Sys2Proof.Machine.execVmovShort st x y s
  | .yieldShort st => Sys2Proof.Machine.execYieldShort st s
  | .waitjShort st x => Sys2Proof.Machine.execWaitjShort st x s
  | .exitShort st => Sys2Proof.Machine.execExitShort st s
  | .loopShort st x y => Sys2Proof.Machine.execLoopShort st x y s
  | .trapEntry e => Sys2Proof.Machine.execTrapEntry e s
  | .tcmpMatch e => Sys2Proof.Machine.execTcmpMatch e s
  | .sleepWake e h => Sys2Proof.Machine.execSleepWake e h s
  | .matrixStep e => Sys2Proof.Machine.execMatrixStep e s
  | .drainCapture e => Sys2Proof.Machine.execDrainCapture e s
  | .copyBurst e rec => Sys2Proof.Machine.execCopyBurst e rec s
  | .gatherComplete e rec => Sys2Proof.Machine.execGatherComplete e rec s
  | .taskDispatch e => Sys2Proof.Machine.execTaskDispatch e s
  | .stealRound e => Sys2Proof.Machine.execStealRound e s
  | .stealAttempt e => Sys2Proof.Machine.execStealAttempt e s
  | .launchOpen asid lid => Sys2Proof.Machine.execLaunchOpen asid lid s
  | .phaseBarrier asid ph => Sys2Proof.Machine.execPhaseBarrier asid ph s
  | .bureauRun asid lid => Sys2Proof.Machine.execBureauRun asid lid s
  | .sliceExpiry asid => Sys2Proof.Machine.execSliceExpiry asid s
  | .gangStop e => Sys2Proof.Machine.execGangStop e s
  | .gangDrain asid => Sys2Proof.Machine.execGangDrain asid s
  | .gangSave asid => Sys2Proof.Machine.execGangSave asid s
  | .leaseExpiry e line => Sys2Proof.Machine.execLeaseExpiry e line s
  | .eccUe e => Sys2Proof.Machine.execEccUe e s
  | .activeMessage p => Sys2Proof.Machine.execActiveMessage p s
  | .rload p => Sys2Proof.Machine.execRload p s
  | .rstore p => Sys2Proof.Machine.execRstore p s
  | .ratomic p => Sys2Proof.Machine.execRatomic p s
  | .gstage p => Sys2Proof.Machine.execGstage p s
  | .prepare p => Sys2Proof.Machine.execPrepare p s
  | .publish p => Sys2Proof.Machine.execPublish p s
  | .discard p => Sys2Proof.Machine.execDiscard p s
  | .query p => Sys2Proof.Machine.execQuery p s
  | .bararr p => Sys2Proof.Machine.execBararr p s
  | .barrierRetry e h => Sys2Proof.Machine.execBarrierRetry e h s
  | .spwrite p => Sys2Proof.Machine.execSpwrite p s
  | .mwrite p => Sys2Proof.Machine.execMwrite p s
  | .rgath p => Sys2Proof.Machine.execRgath p s
  | .rscat p => Sys2Proof.Machine.execRscat p s
  | .trigger p => Sys2Proof.Machine.execTrigger p s
  | .reply p => Sys2Proof.Machine.execReply p s
  | .gstReply p => Sys2Proof.Machine.execGstReply p s
  | .commitHandover src grp => Sys2Proof.Machine.execCommitHandover src grp s
  | .ready p => Sys2Proof.Machine.execReady p s
  | .decisionAck p => Sys2Proof.Machine.execDecisionAck p s
  | .queryAnswer p => Sys2Proof.Machine.execQueryAnswer p s
  | .prepareTimeout src grp => Sys2Proof.Machine.execPrepareTimeout src grp s
  | .stagingTimeout stk src grp => Sys2Proof.Machine.execStagingTimeout stk src grp s
  | .inDoubtTimer stk src grp => Sys2Proof.Machine.execInDoubtTimer stk src grp s
  | .gwaitTimeLimit e h => Sys2Proof.Machine.execGwaitTimeLimit e h s
  | .demand p => Sys2Proof.Machine.execDemand p s
  | .grant p => Sys2Proof.Machine.execGrant p s
  | .eack p => Sys2Proof.Machine.execEack p s
  | .slotreq p => Sys2Proof.Machine.execSlotreq p s
  | .slotgnt p => Sys2Proof.Machine.execSlotgnt p s
  | .redContrib nd port p => Sys2Proof.Machine.execRedContrib nd port p s
  | .nodeTimeout nd tree inst => Sys2Proof.Machine.execNodeTimeout nd tree inst s
  | .redResult p => Sys2Proof.Machine.execRedResult p s
  | .flit l f => Sys2Proof.Machine.execFlit l f s
  | .replayRequest l fseq => Sys2Proof.Machine.execReplayRequest l fseq s
  | .linkReplayLimit l => Sys2Proof.Machine.execLinkReplayLimit l s
  | .e2eTimer src dst => Sys2Proof.Machine.execE2eTimer src dst s
  | .linkFailure l => Sys2Proof.Machine.execLinkFailure l s
  | .tsync p => Sys2Proof.Machine.execTsync p s
  | .syncTick l => Sys2Proof.Machine.execSyncTick l s
  | .spillWrite e => Sys2Proof.Machine.execSpillWrite e s
  | .chunkFetch e => Sys2Proof.Machine.execChunkFetch e s
  | .ident port => Sys2Proof.Machine.execIdent port s
  | .semacq port => Sys2Proof.Machine.execSemacq port s
  | .semrel port => Sys2Proof.Machine.execSemrel port s
  | .semaphoreLoss port => Sys2Proof.Machine.execSemaphoreLoss port s
  | .jobstart port job => Sys2Proof.Machine.execJobstart port job s
  | .jobstop port asid => Sys2Proof.Machine.execJobstop port asid s
  | .jobresume port asid => Sys2Proof.Machine.execJobresume port asid s
  | .jobremove port asid => Sys2Proof.Machine.execJobremove port asid s
  | .graphstart port gr => Sys2Proof.Machine.execGraphstart port gr s
  | .tlbinv port asid lo len => Sys2Proof.Machine.execTlbinv port asid lo len s
  | .doorbell port eid => Sys2Proof.Machine.execDoorbell port eid s
  | .setpkg port pkg => Sys2Proof.Machine.execSetpkg port pkg s
  | .routewr port dst ent => Sys2Proof.Machine.execRoutewr port dst ent s
  | .treewr port idx ent => Sys2Proof.Machine.execTreewr port idx ent s
  | .rateset port eid rate => Sys2Proof.Machine.execRateset port eid rate s
  | .fwload port die img => Sys2Proof.Machine.execFwload port die img s
  | .linkretrain port l => Sys2Proof.Machine.execLinkretrain port l s
  | .stackretire port stk => Sys2Proof.Machine.execStackretire port stk s
  | .dieoff port die via => Sys2Proof.Machine.execDieoff port die via s
  | .dieon port die => Sys2Proof.Machine.execDieon port die s
  | .attest port nonce => Sys2Proof.Machine.execAttest port nonce s
  | .powercap port watts => Sys2Proof.Machine.execPowercap port watts s
  | .sbresolve port stk => Sys2Proof.Machine.execSbresolve port stk s
  | .sbresolveTimeout stk => Sys2Proof.Machine.execSbresolveTimeout stk s
  | .sblist port stk off => Sys2Proof.Machine.execSblist port stk off s
  | .sbdecide port stk src grp pub => Sys2Proof.Machine.execSbdecide port stk src grp pub s
  | .sblost port eid => Sys2Proof.Machine.execSblost port eid s
  | .powerOn => Sys2Proof.Machine.execPowerOn s
  | .reducedService => Sys2Proof.Machine.execReducedService s
  | .partJoin part => Sys2Proof.Machine.execPartJoin part s
  | .thermalThrottle die => Sys2Proof.Machine.execThermalThrottle die s
  | .thermalShutdown die => Sys2Proof.Machine.execThermalShutdown die s
  | .variableLatencyResult e h n => Sys2Proof.Machine.execVariableLatencyResult e h n s
  | .unallocatedWord w => Sys2Proof.Machine.execUnallocatedWord w s
  | .barrierWaitRequest p => Sys2Proof.Machine.execBarrierWaitRequest p s
  | .gwaitQueryRepeat e h => Sys2Proof.Machine.execGwaitQueryRepeat e h s
  | .linkRetrainDone l => Sys2Proof.Machine.execLinkRetrainDone l s

end Sys2Proof.Machine
end

