-- ==== Sys2Proof/Machine/Turn.lean ====
section
/-! DEFINITION. What a step adds around one meaning: which event a packet in flight is (R295 to R297), what a context does
at its turn before and instead of its fetch (R192, R227, R229, R350), and what follows every step. -/

namespace Sys2Proof.Machine

noncomputable section

/-! ### Packets in flight -/

/-- The packet that a delivery takes: of those in flight, the first from the n-th one's source to its destination, since packets
of a pair take one way and arrive in order (R14, R15); behind them stand those that wait at their network interfaces (R324). -/
def State.packetAt (s : State) (n : Nat) : Option Packet :=
  if n < s.net.length then s.net[n]?.bind (fun p => s.net.find? (fun q => q.seid == p.seid && q.deid == p.deid))
  else s.niWait[n - s.net.length]?

/-- The event of an AM, by its handler (R297); at a control port the handler is a command's code (R408). -/
def amEvent (p : Packet) : Instr :=
  if ctlPort (eidLocal p.deid) then .activeMessage p
  else
  match p.handler with
  | 0 => .rload p
  | 1 => .rstore p
  | 2 => .ratomic p
  | 3 => .gstage p
  | 4 => .prepare p
  | 5 => .publish p
  | 6 => .discard p
  | 7 => .query p
  | 8 => if p.arg1.getLsbD 33 then .barrierWaitRequest p else .bararr p
  | 9 => .spwrite p
  | 10 => .mwrite p
  | 11 => .rgath p
  | 12 => .rscat p
  | 13 => .trigger p
  | _ => .activeMessage p

/-- The event of a REPLY, by the operation it answers (R296, R304, R308, R311). -/
def State.replyEvent (s : State) (p : Packet) : Instr :=
  let e := eidLocal p.deid
  if isCore e then
    match (s.coreOf e).opOf p.otag with
    | some r => if r.group.isSome then .gstReply p else .reply p
    | none => .reply p
  else
    match s.unitOpOf p with
    | some r =>
      if r.pkt.handler = 4 then .ready p
      else if r.pkt.handler = 5 || r.pkt.handler = 6 then .decisionAck p
      else if r.pkt.handler = 7 then .queryAnswer p
      else .reply p
    | none => .reply p

/-- The event of a RED packet: a result on its way down, or an input of the node its unit is (R316, R317). -/
def redEvent (p : Packet) : Instr :=
  let e := eidLocal p.deid
  if redDown p then .redResult p
  else if isCore e then .redContrib (.router e) p.handler p
  else .redContrib (.gateway (e / 1024 * 4 + e % 4)) p.handler p

/-- The event that a packet is at its destination (R295). -/
def State.packetEvent (s : State) (p : Packet) : Instr :=
  match p.kind with
  | 1 => amEvent p
  | 2 => s.replyEvent p
  | 3 => .demand p
  | 4 => .grant p
  | 5 => .eack p
  | 6 => .slotreq p
  | 7 => .slotgnt p
  | 8 => .tsync p
  | _ => redEvent p

end

/-! ### A context's turn -/

/-- What a context does at its boundary in place of an instruction: a helper told to stop stops (R350), a cancelled
task ends (R229), a paused matrix job's trap is taken (R192). None of it breaks into a barrier arrival (R180). -/
def State.boundaryWork (s : State) : Option State :=
  if s.arriving then none
  else if s.helper && s.ctx.stopReq then some s.stopHelper
  else if !s.helper && (s.core.run.map (·.cancelled)).getD false then some (s.flushOca false).endCancelled
  else s.pausedJob.map (fun t => (s.flushOca false).pausedTrap t)

/-- A fault of the fetch of the issuing context (R73). -/
def State.fetchTrap (s : State) (t : Trap) : State := (s.flushOca false).trapHere t

/-- Whether a core has been told to stop and the time that takes has run out (R227). -/
def State.stopTold (s : State) : Bool :=
  s.core.stopReq && !s.core.stopped && decide (s.core.stopBy ≤ s.time.toNat)

/-- Whether it stops now: no context is inside an instruction that nothing interrupts (R180, R359). -/
def State.stopDue (s : State) : Bool := s.stopTold && !s.core.ctxs.any Ctx.arriving

/-- The contexts tried in this cycle: where a stop is only held up by arrivals, those that arrive. -/
def State.turns (s : State) : List (Fin 11) :=
  if s.stopTold then s.order.filter (fun h => s.core.ctxs[h].arriving) else s.order

/-! ### The arbiter of the control ports (R409) -/

/-- The port that a command of the host is given at. -/
def Instr.port : Instr → Option Nat
  | .ident p => some p
  | .semacq p => some p
  | .semrel p => some p
  | .jobstart p _ => some p
  | .jobstop p _ => some p
  | .jobresume p _ => some p
  | .jobremove p _ => some p
  | .graphstart p _ => some p
  | .tlbinv p _ _ _ => some p
  | .doorbell p _ => some p
  | .setpkg p _ => some p
  | .routewr p _ _ => some p
  | .treewr p _ _ => some p
  | .rateset p _ _ => some p
  | .fwload p _ _ => some p
  | .linkretrain p _ => some p
  | .stackretire p _ => some p
  | .dieoff p _ _ => some p
  | .dieon p _ => some p
  | .attest p _ => some p
  | .powercap p _ => some p
  | .sbresolve p _ => some p
  | .sblist p _ _ => some p
  | .sbdecide p _ _ _ _ => some p
  | .sblost p _ => some p
  | _ => none

/-- The port at which an AM is a command (R408). -/
def commandPort (p : Packet) : Option Nat := if ctlPort (eidLocal p.deid) then some (eidLocal p.deid % 2) else none

/-- The port at which an event is a command. -/
def Instr.commandPort : Instr → Option Nat
  | .activeMessage p => Machine.commandPort p
  | i => Instr.port i

/-- The port at which a move is a command. -/
def State.movePort (s : State) : Move → Option Nat
  | .event i => Instr.commandPort i
  | .deliver n =>
    match s.packetAt n with
    | some p => if p.kind = 1 then commandPort p else none
    | none => none
  | _ => none

/-- The moves of the cycle at hand: those before the next issue. -/
def thisCycle : List Move → List Move
  | [] => []
  | .issue _ :: _ => []
  | m :: ms => m :: thisCycle ms

/-- Whether a move is an event. -/
def Move.isEvent : Move → Bool
  | .event _ => true
  | _ => false

/-- The agenda as the arbiter takes it (R409): of the commands that reach both ports in one cycle, port 0's first. -/
def State.arbitrate (s : State) (ms : List Move) : List Move :=
  if ms.head?.bind s.movePort = some 1 then
    (match (thisCycle ms).find? (fun m => m.isEvent && s.movePort m == some 0) with
     | some m => m :: ms.erase m
     | none => ms)
  else ms

/-- Whether a command by a packet comes too late in a cycle: one of port 1 has been applied in it, so the packet stays on its way
(R409). -/
def State.tooLate (s : State) (m : Move) : Bool := !m.isEvent && s.portOne && s.movePort m == some 0

/-- The machine as a move begins, the rest of its agenda behind it: a command of port 1 is known to the arbiter until the cycle
ends (R409). -/
def State.begun (s : State) (m : Move) (ms : List Move) : State :=
  { s with agenda := ms, portOne := s.portOne || s.movePort m == some 1 }

/-- The machine as an issue cycle begins. -/
def State.cycleStart (s : State) (ms : List Move) : State := { s with agenda := ms, portOne := false }

/-- A step that cannot be made, because an access of it meets a line that a publication holds (R310): what stands first on the
agenda is left out of it, a packet stays on its way, and a core passes a cycle in which nothing issues. -/
def State.postponed (s : State) : State :=
  match s.arbitrate s.agenda with
  | [] => (s.cycleStart []).timer.noIssue.tick
  | .issue e :: ms => ((s.cycleStart ms).focusOn e).timer.noIssue.tick
  | _ :: ms => { s with agenda := ms }

/-- What follows every step: grants nobody waits for go back (R171), tree writes and SBRESOLVEs that can be answered
are (R391, R416), and what waits at a link leaves (R293). What belongs to the one step is over. -/
def State.afterStep (s : State) : State :=
  { s.dropStale.settleTrees.settleResolves.flushLinks with split := none, heldHit := false }

end Sys2Proof.Machine
end

