-- ==== Sys2Proof/Machine/Step.lean ====
section
/-! DEFINITION. One step of the machine: the next move of the agenda, or an issue cycle of the core in focus. -/

namespace Sys2Proof.Machine

noncomputable section

/-- The instruction at the issuing context's program counter, run (R72, R90, R131). -/
def runFetched (n w : Nat) (s : State) : Host.Outcome State Fault Refusal :=
  match (decodeBits n w).bind (loopInstr s.ctx.loop) with
  | some i => exec i (s.latch n w)
  | none => exec (.unallocatedWord (BitVec.ofNat 32 w)) (s.latch n w)

/-- A context tried in this cycle: what its boundary brings, a fetch fault, or its instruction. -/
def attempt (h : Fin 11) (s : State) : Host.Outcome State Fault Refusal :=
  let s := s.turnOf h
  match s.boundaryWork with
  | some s' => .next s'
  | none =>
    match fetchHere s with
    | .ok (n, w) s' => runFetched n w s'
    | .error (.trap t) s' => .next (s'.fetchTrap t)
    | .error .wait s' => .next s'.block
    | .error (.fault f) _ => .fault f

/-- The contexts tried in order until one does not find itself waiting (R22); `s0` is the state at the cycle's start. -/
def issueFrom (s0 : State) : List (Fin 11) → State → Host.Outcome State Fault Refusal
  | [], s => .next (s.cycleEnd s0)
  | h :: hs, s =>
    match attempt h s with
    | .next s' =>
      if s'.core.ctxs[h].blocked then issueFrom s0 hs (s'.tookTurn h) else .next ((s'.tookTurn h).cycleEnd s0)
    | o => o

/-- One cycle of the core in focus: a stop that is due comes first (R227). -/
def cycle (s : State) : Host.Outcome State Fault Refusal :=
  let s := s.timer
  if s.stopDue then .next (s.reachStop.answerStops s.asid).noIssue.tick
  else if s.core.stopped || s.core.run.isNone then .next s.noIssue.tick
  else issueFrom s s.turns s

/-- TRAP_ENTRY of a core where a boundary cause is due in a running h0: the instruction about to issue is tried, whose own faults of
R90's first four steps come first and which does not issue otherwise (R220). -/
def State.boundaryDue (s : State) (e : Nat) : Bool :=
  let t := s.focusOn e
  e < 4096 && isCore e && !t.core.stopped && t.core.run.isSome && !(t.turnOf 0).arriving && (t.turnOf 0).boundary.isSome

/-- An agenda's event made: one that is not well formed is no step of the hardware. -/
def event (i : Instr) (s : State) : Host.Outcome State Fault Refusal :=
  if !i.wf then .fault .noSuchUnit
  else
    match i with
    | .trapEntry e =>
      if s.boundaryDue e then
        (match attempt 0 (s.focusOn e) with
         | .next t => .next (t.focusOn s.core.id)
         | o => o)
      else exec i s
    | i => exec i s

/-- The next move made. -/
def move (s : State) : Host.Outcome State Fault Refusal :=
  match s.arbitrate s.agenda with
  | [] => cycle (s.cycleStart [])
  | .issue e :: ms => cycle ((s.cycleStart ms).focusOn e)
  | .event i :: ms => event i (s.begun (.event i) ms)
  | .deliver n :: ms =>
    if s.tooLate (.deliver n) then .next { s with agenda := ms }
    else
      match s.packetAt n with
      | some p => exec (s.packetEvent p) (s.begun (.deliver n) ms)
      | none => .next { s with agenda := ms }
  | .cut n :: ms => .next { s with agenda := ms, split := some n }

/-- One step: a move, and what follows it. A cut is a step of its own, and holds for the one move behind it (log 3). -/
def step (s : State) : Host.Outcome State Fault Refusal :=
  match s.agenda, move s with
  | .cut _ :: _, o => o
  | _, .next t => .next (if t.heldHit then s.postponed else t).afterStep
  | _, o => o

/-- The state in which the very next step fetches and runs the instruction of these bits. -/
def State.withFetchWord (s : State) (nbits w : Nat) : State :=
  let mem := bootPtes.foldl (fun m p => memSets m p.1 (leBytes 8 p.2)) s.mem
  let mem := memSets mem bootCode (leBytes 4 (w % 2 ^ nbits))
  let spec : JobSpec := { asid := 1, root := bootRoot, gang := [s.core.id] }
  let x := s.core.ctxs[(0 : Fin 11)]
  let x := { x with pcc := bootPcc, readyAt := 0, loop := {}, wait := .none, blocked := false, slot := .live }
  { s with
    agenda := []
    split := none
    heldHit := false
    mem := mem
    stackOn := s.stackOn.set 0 true
    retired := s.retired.set 0 false
    jobs := { spec := spec } :: s.jobs.filter (fun j => j.spec.asid != 1)
    ctlb := s.ctlb.filter (fun p => !p.2.serves 1 bootVa)
    wcache := s.wcache.filter (fun p => !p.2.serves 1 bootVa)
    core := { s.core with
      ctxs := s.core.ctxs.set 0 x
      cyc := s.core.cyc / 11 * 11
      job := some 1
      run := some { task := { hnd := bootVa, asid := 1 } }
      stopped := false
      stopReq := false
      pTrig := []
      pWatch := []
      pMixed := []
      ie := false
      mq := if s.core.mq.any (fun j => j.paused.isSome && !j.told) then [] else s.core.mq
      wpc := Vector.replicate 4 0
      tlb := s.core.tlb.filter (fun t => !t.serves 1 bootVa)
      ic := s.core.ic.filter (fun x => x.line != bootCode / 128) } }

end

end Sys2Proof.Machine
end

