-- ==== Sys2Proof/Safety.lean ====
section
/-! DEFINITION. The terms the statements use: when a context may issue, what it is to retire, and what stays as it was. -/

namespace Sys2Proof.Machine

/-- The issuing context may issue an instruction that reads these registers: it has not been told to stop (R350), no
boundary cause is due (R220), and no operand is still on its way (R79, R80). -/
structure State.CanIssue (s : State) (reads : List (RegFile × Nat)) : Prop where
  notStopped : (s.helper && s.ctx.stopReq) = false
  noCause    : s.boundary = none
  fixReady   : s.core.schk = true → ∀ r ∈ reads, s.fixPending r = false
  varReady   : ∀ r ∈ reads, s.varPending r = false

/-- An instruction with stall count `st` that leaves `t` has retired: execution goes on behind it (R72, R78). -/
def State.retire (s : State) (st : Nat) (t : State) : Host.Outcome State Fault Refusal :=
  .next (t.finish st s.ctx.loop.lact)

/-- Only registers of the issuing context, its program counter and loop, and the count of instructions differ: every
other context, every other register of the core, all of memory and every other unit are as they were. -/
structure OnlyContext (s t : State) : Prop where
  rest   : t = { s with core := { s.core with ctxs := t.core.ctxs, evc := t.core.evc } }
  others : ∀ h : Fin 11, h ≠ s.core.cur → t.core.ctxs[h] = s.core.ctxs[h]
  mem    : ∀ a, memGet t.mem a = memGet s.mem a

/-- The counter of retired instructions of the issuing context (R403): h0's or the helpers'. -/
def State.counter (s : State) : Fin 11 := if s.helper then 1 else 0

/-- Execution has gone on behind the instruction of a context: it is counted (R403), and outside a loop body the program
counter is at the next instruction (R72, R131). -/
structure Advanced (s t : State) : Prop where
  count : t.core.evc = s.core.evc.set s.counter (s.core.evc[s.counter] + 1)
  pc    : s.ctx.loop.lact = false → t.ctx.pcc = capMove s.ctx.pcc s.ctx.npc.toNat
  loop  : s.ctx.loop.lact = false → t.ctx.loop = s.ctx.loop

/-- The answer is a state in which c register d holds a value and everything else stays; c0 stays null (R108, R110). -/
def WritesC (s : State) (o : Host.Outcome State Fault Refusal) (d : Fin 32) (v : Cap) : Prop :=
  ∃ t, o = .next t ∧ Advanced s t ∧ OnlyContext s t ∧ t.rc d = (if d = 0 then Cap.null else v) ∧
    (∀ n, n ≠ d → t.rc n = s.rc n) ∧ t.ctx.o = s.ctx.o

/-- The answer is a state in which a result for one register is on its way, readable `l` cycles after issue; an earlier result of
variable latency for it no longer reaches it, and every register holds what it held (R78, R79, R81). -/
def WritesLater (s : State) (o : Host.Outcome State Fault Refusal) (f : RegFile) (d : Nat) (v : VReg) (l : Nat) : Prop :=
  ∃ t, o = .next t ∧ Advanced s t ∧ OnlyContext s t ∧
    t.ctx.fix = s.ctx.fix ++ [{ file := f, idx := d, val := v, ready := s.core.cyc + l }] ∧
    t.ctx.pend = s.ctx.pend.filter (fun p => !p.isFor f d) ∧ (∀ n, t.rc n = s.rc n) ∧ t.ctx.o = s.ctx.o

/-- The answer is a state in which nothing but the program counter and the count of instructions has changed. -/
def OnlyAdvances (s : State) (o : Host.Outcome State Fault Refusal) : Prop :=
  ∃ t, o = .next t ∧ Advanced s t ∧ OnlyContext s t ∧ (∀ n, t.rc n = s.rc n) ∧ t.ctx.o = s.ctx.o

/-- Execution has gone to another place: the instruction is counted, PCC and the loop are as given, and no register of
the context changed but those another clause names. -/
structure WentTo (s t : State) (pcc : Cap) (l : Loop) : Prop where
  count : t.core.evc = s.core.evc.set s.counter (s.core.evc[s.counter] + 1)
  pcc   : t.ctx.pcc = pcc
  loop  : t.ctx.loop = l
  o     : t.ctx.o = s.ctx.o
  only  : OnlyContext s t

/-- The answer is a state that executes next at `pcc`; no register changed (R125). -/
def JumpsTo (s : State) (o : Host.Outcome State Fault Refusal) (pcc : Cap) (l : Loop) : Prop :=
  ∃ t, o = .next t ∧ WentTo s t pcc l ∧ ∀ n, t.rc n = s.rc n

/-- The answer is a state that executes next at `pcc`, with c register d the return capability; c0 stays null. -/
def JumpsLinking (s : State) (o : Host.Outcome State Fault Refusal) (pcc : Cap) (d : Fin 32) (v : Cap) : Prop :=
  ∃ t, o = .next t ∧ WentTo s t pcc s.ctx.loop ∧ t.rc d = (if d = 0 then Cap.null else v) ∧
    ∀ n, n ≠ d → t.rc n = s.rc n

/-- The answer is the trap of the instruction itself: its cause with its value, taken at its own address, from the state
as it was (R90, R115, R216). -/
def Traps (s : State) (o : Host.Outcome State Fault Refusal) (c : Cause) (tval : Addr) : Prop :=
  o = .next (s.trapHere ⟨c, tval⟩)

/-- The address as a trap value. -/
def tvalOf (a : Int) : Addr := BitVec.ofNat 80 (addr80 a)

/-- Execution has gone on behind the instruction; other counters may have counted what it did (R403). -/
structure GoesOn (s t : State) : Prop where
  count : t.core.evc[s.counter] = s.core.evc[s.counter] + 1
  pc    : s.ctx.loop.lact = false → t.ctx.pcc = capMove s.ctx.pcc s.ctx.npc.toNat
  loop  : s.ctx.loop.lact = false → t.ctx.loop = s.ctx.loop

/-- Of the issuing core nothing differs but its issuing context, its event counters, caches and translation buffer: every
vector, mask, guard, port, matrix, receiver, mode, trap and system register is as it was. -/
structure OnlyCaches (s t : State) : Prop where
  core   : t.core = { s.core with ctxs := t.core.ctxs, evc := t.core.evc, l1 := t.core.l1, tlb := t.core.tlb, ic := t.core.ic }
  others : ∀ h : Fin 11, h ≠ s.core.cur → t.core.ctxs[h] = s.core.ctxs[h]
  o      : t.ctx.o = s.ctx.o

/-- Places that an access finds as memory has them: their memory takes part (R9), no line of theirs is held by a group's
publication (R310), no header of a ring and no record that the device alone writes is among them (R393, R395), and no home
watchpoint of the package is enabled (R231). -/
structure State.Open (s : State) (lo n : Nat) : Prop where
  up    : s.reaches lo = true
  loose : s.held lo n = false
  rings : ∀ h ∈ s.ringHeaders, overlaps h 64 lo n = false
  own   : ∀ r ∈ s.deviceOnly, overlaps r.1 r.2 lo n = false
  homes : ∀ c ∈ s.allCores, ∀ h : Fin 2, c.hwc[h].toNat.testBit 0 = false

/-- No recent access of another thread in a different size overlaps these places (R283), the core's copies of their lines are
what memory holds (R280), and they are open. -/
structure State.Quiet (s : State) (lo n esz : Nat) : Prop extends s.Open lo n where
  sizes : ∀ r ∈ s.recents, (r.core, r.ctx) ≠ s.thread → overlaps r.lo r.n lo n = true → r.esz = esz
  fresh : ∀ x ∈ s.core.l1, x.line ∈ linesOf lo n → s.l1Current x = true

/-- Whether a place lies among `n` places from `lo`. -/
def within (lo n p : Nat) : Prop := lo ≤ p ∧ p < lo + n

/-- Whether a place lies in the page-table entry through which a piece was translated (R256). -/
def inEntry (g : Seg) (p : Nat) : Prop := ∃ l, g.leaf = some l ∧ within l.ea 8 p

/-- A c register of the context as an instruction leaves it: c0 stays null (R110). -/
def WroteC (s t : State) (d : Fin 32) (v : Cap) : Prop :=
  t.rc d = (if d = 0 then Cap.null else v) ∧ ∀ k, k ≠ d → t.rc k = s.rc k

/-- A vector instruction of h0 may take these registers as they stand: none is a bound stream port (R157), and in matrix
mode none is owned by the accumulators (R187). -/
structure State.Plain (s : State) (named : List (Fin 64)) : Prop where
  h0      : s.helper = false
  unbound : ∀ n ∈ named, s.boundPort n = false
  free    : s.core.mm = true → ∀ n ∈ named, 36 ≤ n.val

/-- o0 names type `t` for VT: its reserved bits are zero, and the job may use the type (R82, R83, R411). -/
def State.Typed (s : State) (t : Nat) : Prop := o0ok s.o0 = true ∧ oVT s.o0 = t ∧ s.tyAllowed t = true

/-- The elements of width `w` of a register, each the low `w` bits of a number. -/
def HasElems (v : VReg) (w : Nat) (f : Nat → Nat) : Prop := ∀ e, e < 1024 / w → elem v w e = f e % 2 ^ w

/-- Elements computed where the mask governs them and kept elsewhere (R138). -/
def masked (m : BitVec 32) (w : Nat) (old : VReg) (f : Nat → Nat) (e : Nat) : Nat :=
  if m.getLsbD (32 * e / (1024 / w)) then f e else elem old w e

/-- What a vector instruction of h0 leaves as it was: every register but its v register, its program counter and the count
of instructions; SRCTR counts it where it rounds stochastically (R67). -/
structure VecFrame (s t : State) (rounds : Bool) : Prop where
  adv    : Advanced s t
  rest   : t = { s with core := t.core }
  core   : t.core = { s.core with ctxs := t.core.ctxs, evc := t.core.evc, v := t.core.v, srctr := t.core.srctr }
  sr     : t.core.srctr = if rounds = true ∧ s.rnd = 6 then s.core.srctr + 1 else s.core.srctr
  others : ∀ h : Fin 11, h ≠ s.core.cur → t.core.ctxs[h] = s.core.ctxs[h]
  c      : ∀ n, t.rc n = s.rc n
  o      : t.ctx.o = s.ctx.o

/-- The answer is a state in which a vector result is on its way, readable `l` cycles after issue, or, where the latency
is variable, in its register (R78, R79, R140). -/
def WritesV (s : State) (o : Host.Outcome State Fault Refusal) (d : Fin 64) (v : VReg) (lat : Option Nat)
    (rounds : Bool) : Prop :=
  ∃ t, o = .next t ∧ VecFrame s t rounds ∧
    match lat with
    | some l => t.core.v = s.core.v ∧
        t.ctx.fix = s.ctx.fix ++ [{ file := .v, idx := d.val, val := v, ready := s.core.cyc + l }] ∧
        t.ctx.pend = s.ctx.pend.filter (fun p => !p.isFor .v d.val)
    | none => t.core.v = s.core.v.set d v

/-- An integer result of a type: wrapped to its width, or clamped to its range first (R139). -/
def narrow (t : Nat) (sat : Bool) (x : Int) : Nat :=
  let w := tyWidth t
  let lo : Int := if tySigned t then -2 ^ (w - 1) else 0
  let hi : Int := if tySigned t then 2 ^ (w - 1) - 1 else 2 ^ w - 1
  ((if sat then Max.max lo (Min.min x hi) else x) % 2 ^ w).toNat

/-- As `OnlyCaches`, with v registers, guards and ports as another clause says. -/
structure OnlyVector (s t : State) : Prop where
  core   : t.core = { s.core with ctxs := t.core.ctxs, evc := t.core.evc, l1 := t.core.l1, tlb := t.core.tlb, ic := t.core.ic,
                                  v := t.core.v, g := t.core.g, sp := t.core.sp }
  others : ∀ h : Fin 11, h ≠ s.core.cur → t.core.ctxs[h] = s.core.ctxs[h]
  c      : ∀ k, t.rc k = s.rc k
  o      : t.ctx.o = s.ctx.o

/-- Whether a place lies in one of some pieces, or in an entry that translated one. -/
def inSegs (gs : List Seg) (p : Nat) : Prop := ∃ g ∈ gs, within g.place g.len p
def inEntries (gs : List Seg) (p : Nat) : Prop := ∃ g ∈ gs, inEntry g p

/-- Every piece is quiet in single accesses of `esz` bytes (R283). -/
def State.QuietAll (s : State) (gs : List Seg) (esz : Nat) : Prop := ∀ g ∈ gs, s.Quiet g.place g.len esz

/-- The pieces of several accesses. -/
def allSegs (gs : List (Nat × List Seg)) : List Seg := gs.flatMap (·.2)

/-- A job of the issuing context opened: one record more, at the end of the core's, and its identifier in C[d] (R352). -/
structure Opens (s t : State) (d : Fin 32) (cls : Nat) (r : JobRec) : Prop where
  jobs : t.core.jobs = s.core.jobs ++ [r]
  cls  : r.cls = cls
  ctx  : r.ctx = s.core.cur.val
  ser  : t.core.ser = s.core.ser + 1
  reg  : WroteC s t d (scalar r.word)

/-- The bits by which an instruction that opens a job, sends a packet or waits for one may change the machine: the issuing
context and core's books, and what is on its way; a job that is complete at once wakes who sleeps (R354). Every other part of the state is as it was:
memory, tags, every other core, and every v, mask, guard, port, system and matrix register of this one. -/
structure OnlySends (s t : State) : Prop where
  rest   : t = { s with core := t.core, net := t.net, ptx := t.ptx, links := t.links, recents := t.recents, known := t.known }
  core   : t.core = { s.core with ctxs := t.core.ctxs, evc := t.core.evc, srctr := t.core.srctr, jobs := t.core.jobs,
                                  ser := t.core.ser, ops := t.core.ops, otag := t.core.otag, msent := t.core.msent,
                                  held := t.core.held, sent := t.core.sent }
  others : ∀ h : Fin 11, h ≠ s.core.cur → t.core.ctxs[h] = s.core.ctxs[h] ∨ t.core.ctxs[h] = s.core.ctxs[h].wakeUp
  o      : t.ctx.o = s.ctx.o

/-- No recent access in another size overlaps these places (R283), and they are open. -/
structure State.Still (s : State) (lo n esz : Nat) : Prop extends s.Open lo n where
  sizes : ∀ r ∈ s.recents, overlaps r.lo r.n lo n = true → r.esz = esz

/-- Beside what an instruction leaves in its context, only what its later accesses are known to follow differs (R284, R285). -/
structure OnlyOrders (s t : State) : Prop where
  rest   : t = { s with core := { s.core with ctxs := t.core.ctxs, evc := t.core.evc }, known := t.known }
  others : ∀ h : Fin 11, h ≠ s.core.cur → t.core.ctxs[h] = s.core.ctxs[h]
  o      : t.ctx.o = s.ctx.o

/-- A core of the package is in focus and may act for its engines: it has not stopped (R227). -/
structure State.Works (s : State) : Prop where
  id  : s.core.id < 4096 ∧ Sys2Proof.isCore s.core.id = true
  run : s.core.stopped = false

/-- A step of an engine of the focused core leaves every register, PCC and wait of its contexts as they were, and the
v, mask and guard registers. -/
structure KeepsRegs (s t : State) : Prop where
  c   : ∀ k, t.rc k = s.rc k
  o   : t.ctx.o = s.ctx.o
  pcc : t.ctx.pcc = s.ctx.pcc
  v   : t.core.v = s.core.v
  m   : t.core.m = s.core.m
  g   : t.core.g = s.core.g

/-- A packet of one operation is accepted where it arrives (R16, R18, R298, R299): the package has its number, it is for a unit of
this package that takes part, it is the next of its pair, and no message of its pair waits at the network interface. -/
structure State.Takes (s : State) (p : Packet) : Prop where
  named : s.pkg.isSome = true
  one   : p.rest = []
  here  : eidPkg p.deid = s.pkgNo
  up    : s.refused p = false
  fresh : p ∉ s.niWait
  next  : p.sequenced = true → (p.pseq + 65536 - (s.pairRx p.seid p.deid).want) % 65536 = 0
  clear : ∀ q ∈ s.niWait, q.seid = p.seid → q.deid ≠ p.deid

/-- The machine with a packet accepted and not yet performed: it is off the network, its pair expects the one after it, its
acknowledgement is on the way, and a message between two cores of one gang is counted (R299, R402). -/
def State.took (s : State) (p : Packet) : State :=
  let s := { s with net := s.net.erase p }
  if p.sequenced then
    let r := s.pairRx p.seid p.deid
    let s := (s.setRx { r with want := (r.want + 1) % 65536 }).eackFor p
    if s.gangMessage p then s.mapCore (eidLocal p.deid) (fun c => { c with mrecv := c.mrecv + 1 }) else s
  else s

/-- The job of the core in focus, if any, writes no trace records (R406). -/
def State.Untraced (s : State) : Prop := ∀ j, s.myJob = some j → j.spec.trace = []

/-- A task has started in h0 of the core in focus (R323, R325, R404): c2 is the scratchpad's capability, c3 to c6 its
arguments, c7 its identifier, and every other c register null; o registers, masks and guards are zero; no loop is active;
execution is at its handler. -/
structure Starts (s t : State) (k : Task) (how : How) : Prop where
  run  : t.core.run = some { task := k, deq := s.time.toNat, srch := s.core.steal.srch, fails := s.core.steal.fails,
                             how := how }
  c2   : (t.core.ctxs[(0 : Fin 11)]).c[(2 : Fin 32)] = s.core.scratchCap
  args : ∀ r : Fin 32, r ≠ 2 → (t.core.ctxs[(0 : Fin 11)]).c[r] =
           match r.val with
           | 3 => scalar k.a0
           | 4 => scalar k.a1
           | 5 => scalar k.a2
           | 6 => scalar k.a3
           | 7 => scalar (BitVec.ofNat 64 k.tid)
           | _ => Cap.null
  o    : (t.core.ctxs[(0 : Fin 11)]).o = Vector.replicate 8 0
  pcc  : (t.core.ctxs[(0 : Fin 11)]).pcc = capMove k.pcc k.hnd
  loop : (t.core.ctxs[(0 : Fin 11)]).loop = {}
  m    : t.core.m = Vector.replicate 8 0
  g    : t.core.g = Vector.replicate 16 false
  v    : t.core.v = s.core.v

end Sys2Proof.Machine
end

