-- ==== Sys2Proof/Certificates/Slice0/Obligations.lean ====
section
/-! DEFINITION. The statements for the provers, family by family; each names the rule of the manual it states. -/

open Sys2Proof Sys2Proof.Machine

/-! ### Scalar and capability work -/

/-- R117: the result of each function of major 0x00, for all register values, untagged with zeros above as R116 has it; R118:
SEL moves a whole register, its tag with it. -/
def Obligations.ScalarResults : Prop :=
  ∀ (s : State) (st : Fin 8) (d a b : Fin 32), s.CanIssue [rdC a, rdC b] →
    let x := s.rx a
    let y := s.rx b
    let r (i : Instr) (v : Word) : Prop := WritesC s (exec i s) d (scalar v)
    r (.add st d a b) (x + y) ∧
    r (.sub st d a b) (x - y) ∧
    r (.andr st d a b) (x &&& y) ∧
    r (.orr st d a b) (x ||| y) ∧
    r (.xorr st d a b) (x ^^^ y) ∧
    r (.andn st d a b) (x &&& ~~~y) ∧
    r (.sll st d a b) (BitVec.ofNat 64 (x.toNat * 2 ^ (y.toNat % 64))) ∧
    r (.srl st d a b) (BitVec.ofNat 64 (x.toNat / 2 ^ (y.toNat % 64))) ∧
    r (.sra st d a b) (BitVec.ofInt 64 (x.toInt / 2 ^ (y.toNat % 64))) ∧
    r (.slt st d a b) (if x.toInt < y.toInt then 1 else 0) ∧
    r (.sltu st d a b) (if x.toNat < y.toNat then 1 else 0) ∧
    r (.min st d a b) (BitVec.ofInt 64 (Min.min x.toInt y.toInt)) ∧
    r (.max st d a b) (BitVec.ofInt 64 (Max.max x.toInt y.toInt)) ∧
    r (.minu st d a b) (BitVec.ofNat 64 (Min.min x.toNat y.toNat)) ∧
    r (.maxu st d a b) (BitVec.ofNat 64 (Max.max x.toNat y.toNat)) ∧
    (s.CanIssue [rdC d, rdC a, rdC b] →
      WritesC s (exec (.sel st d a b) s) d (if s.rx d = 0 then s.rc b else s.rc a))

/-- R119: the result of each function of major 0x01 and, with R121, of LIS and LIK; a shift by a negative amount raises ILLEGAL
with the word in TVAL. R89: each scalar and capability short form does what its 32-bit instruction does with x and y placed as
the table shows; ADD with x = 0 raises ILLEGAL. -/
def Obligations.ImmediatesAndShortForms : Prop :=
  (∀ (s : State) (st : Fin 8) (d a : Fin 32) (i : BitVec 7) (k : BitVec 16),
    let x := s.rx a
    let r (i : Instr) (v : Word) : Prop := WritesC s (exec i s) d (scalar v)
    (s.CanIssue [rdC a] →
      r (.addi st d a i) (BitVec.ofInt 64 (x.toInt + i.toInt)) ∧
      r (.andi st d a i) (x &&& i.signExtend 64) ∧
      r (.ori st d a i) (x ||| i.signExtend 64) ∧
      r (.xori st d a i) (x ^^^ i.signExtend 64) ∧
      r (.slti st d a i) (if x.toInt < i.toInt then 1 else 0) ∧
      (i.msb = false →
        r (.slli st d a i) (BitVec.ofNat 64 (x.toNat * 2 ^ i.toNat)) ∧
        r (.srli st d a i) (BitVec.ofNat 64 (x.toNat / 2 ^ i.toNat)) ∧
        r (.srai st d a i) (BitVec.ofInt 64 (x.toInt / 2 ^ i.toNat)))) ∧
    (i.msb = true → (s.helper && s.ctx.stopReq) = false →
      ∀ n ∈ [Instr.slli st d a i, .srli st d a i, .srai st d a i],
        Traps s (exec n s) .illegal (s.ctx.ir.zeroExtend 80)) ∧
    (s.CanIssue [] → r (.lis st d k) (BitVec.ofInt 64 k.toInt)) ∧
    (s.CanIssue [rdC d] → r (.lik st d k) (BitVec.ofNat 64 ((s.rx d).toNat * 65536 + k.toNat)))) ∧
  (∀ (s : State) (st : Fin 4) (x y : Fin 16),
    let d : Fin 32 := ⟨x.val, by omega⟩
    let b : Fin 32 := ⟨y.val, by omega⟩
    let vx := s.rx d
    let vy := s.rx b
    let k : Int := if y.val < 8 then y.val else (y.val : Int) - 16
    let r (i : Instr) (v : Word) : Prop := WritesC s (exec i s) d (scalar v)
    (s.CanIssue [rdC d, rdC b] →
      (x ≠ 0 → r (.addShort st x y) (vx + vy)) ∧
      r (.subShort st x y) (vx - vy) ∧
      r (.andShort st x y) (vx &&& vy) ∧
      r (.orShort st x y) (vx ||| vy) ∧
      r (.xorShort st x y) (vx ^^^ vy)) ∧
    (x = 0 → (s.helper && s.ctx.stopReq) = false →
      Traps s (exec (.addShort st x y) s) .illegal (s.ctx.ir.zeroExtend 80)) ∧
    (s.CanIssue [rdC d] →
      r (.addiShort st x y) (BitVec.ofInt 64 (vx.toInt + k)) ∧
      r (.slliShort st x y) (BitVec.ofNat 64 (vx.toNat * 2 ^ y.val)) ∧
      r (.srliShort st x y) (BitVec.ofNat 64 (vx.toNat / 2 ^ y.val)) ∧
      r (.sraiShort st x y) (BitVec.ofInt 64 (vx.toInt / 2 ^ y.val)) ∧
      WritesC s (exec (.cinciShort st x y) s) d (capMove (s.rc d) ((capA (s.rc d) : Int) + 8 * k))) ∧
    (s.CanIssue [rdC b] → WritesC s (exec (.cmovShort st x y) s) d (s.rc b)) ∧
    (s.CanIssue [] → r (.lisShort st x y) (BitVec.ofInt 64 k)))

/-- R120: products (readable three cycles after issue, R79), divisions with their borderline cases, and the bit counts. R120:
CLZ, CTZ, POPC and BSWAP. -/
def Obligations.ProductsDivisionsAndBitCounts : Prop :=
  (∀ (s : State) (st : Fin 8) (d a b : Fin 32), s.CanIssue [rdC a, rdC b] →
    let x := s.rx a
    let y := s.rx b
    let m (i : Instr) (v : Word) : Prop :=
      if d = 0 then OnlyAdvances s (exec i s) else WritesLater s (exec i s) .c d.val (v.zeroExtend 1024) 3
    let r (i : Instr) (v : Word) : Prop := WritesC s (exec i s) d (scalar v)
    m (.mul st d a b) (BitVec.ofInt 64 (x.toInt * y.toInt)) ∧
    m (.mulh st d a b) (BitVec.ofInt 64 (x.toInt * y.toInt / 2 ^ 64)) ∧
    m (.mulhu st d a b) (BitVec.ofNat 64 (x.toNat * y.toNat / 2 ^ 64)) ∧
    (y.toNat ≠ 0 →
      r (.div st d a b) (BitVec.ofInt 64 (x.toInt.tdiv y.toInt)) ∧
      r (.divu st d a b) (BitVec.ofNat 64 (x.toNat / y.toNat)) ∧
      r (.rem st d a b) (BitVec.ofInt 64 (x.toInt.tmod y.toInt)) ∧
      r (.remu st d a b) (BitVec.ofNat 64 (x.toNat % y.toNat))) ∧
    (y.toNat = 0 →
      r (.div st d a b) (BitVec.ofInt 64 (-1)) ∧ r (.divu st d a b) (BitVec.ofNat 64 (2 ^ 64 - 1)) ∧
      r (.rem st d a b) x ∧ r (.remu st d a b) x)) ∧
  (∀ (s : State) (st : Fin 8) (d a : Fin 32), s.CanIssue [rdC a] →
    let x := s.rx a
    let r (i : Instr) (p : Nat → Prop) : Prop := ∃ v, p v ∧ v ≤ 64 ∧ WritesC s (exec i s) d (scalar (BitVec.ofNat 64 v))
    r (.clz st d a) (fun v => x.toNat < 2 ^ (64 - v) ∧ (x.toNat ≠ 0 → 2 ^ (63 - v) ≤ x.toNat) ∧ (x = 0 → v = 64)) ∧
    r (.ctz st d a) (fun v => (∀ k, k < v → x.getLsbD k = false) ∧ (v < 64 → x.getLsbD v = true)) ∧
    r (.popc st d a) (fun v => v = ((List.range 64).filter (fun k => x.getLsbD k)).length) ∧
    ∃ v : Word, (∀ k : Fin 8, (v >>> (8 * k.val)).truncate 8 = (x >>> (8 * (7 - k.val))).truncate 8) ∧
      WritesC s (exec (.bswap st d a) s) d (scalar v))

/-- R122, R124: what each row of majors 0x05 and 0x06 that does not set bounds leaves in C[d], the tag included. R123: CSETB,
CSETBX and CSETBI take the smallest exponent that fits, keep A and P, and tag the result only where the rounded bounds lie
within the source's (and, for CSETBX, are exact). An exponent up to 50 fits every 64-bit length. That a move keeps its tag only
where the distance from the base is not negative is the model's reading (log 28). -/
def Obligations.CapabilityInstructions : Prop :=
  (∀ (s : State) (st : Fin 8) (d a b : Fin 32) (h : Fin 2) (i : BitVec 7), s.CanIssue [rdC a, rdC b] →
    let x := s.rc a
    let y := s.rc b
    let v := s.rx b
    let w (n : Instr) (c : Cap) : Prop := WritesC s (exec n s) d c
    let moved (p : Int) : Cap :=
      ⟨capBits (p % 2 ^ 80).toNat (capP x) (capE x) (capB x) (capL x),
        x.tag && decide (capBase x ≤ p ∧ p < capBase x + 2 ^ (capE x + 15) ∧ 0 ≤ p ∧ p < 2 ^ 80)⟩
    let part (p : Int) : Word := BitVec.ofInt 64 (if h = 0 then p % 2 ^ 64 else p % 2 ^ 81 / 2 ^ 64)
    w (.cmov st d a) x ∧
    w (.cinc st d a b) (moved (capA x + v.toInt)) ∧
    w (.cinci st d a i) (moved (capA x + i.toInt)) ∧
    w (.cseta st d a b) (moved (capA x / 2 ^ 64 * 2 ^ 64 + v.toNat)) ∧
    w (.candp st d a b) ⟨capBits (capA x) (capP x &&& v.toNat % 4096) (capE x) (capB x) (capL x), x.tag⟩ ∧
    w (.cgeta st d a h) (scalar (part (capA x))) ∧
    w (.cgetb st d a h) (scalar (part (capBase x))) ∧
    w (.cgett st d a h) (scalar (part (capTop x))) ∧
    w (.cgetp st d a) (scalar (BitVec.ofNat 64 (capP x))) ∧
    w (.cgettag st d a) (scalar (if x.tag then 1 else 0)) ∧
    w (.cclrtag st d a) ⟨x.bits, false⟩ ∧
    w (.csub st d a b) (scalar (BitVec.ofInt 64 ((capA x : Int) - capA y))) ∧
    w (.ctest st d a b) (scalar (if x.tag ∧ y.tag ∧ capBase x ≤ capBase y ∧ capTop y ≤ capTop x ∧
      (∀ k : Fin 12, capHas y k → capHas x k) then 1 else 0))) ∧
  (∀ (s : State) (st : Fin 8) (d a b : Fin 32) (i : BitVec 7), s.CanIssue [rdC a, rdC b] →
    let x := s.rc a
    let lo := capA x
    let fits (n e : Nat) : Prop := ((lo + n + 2 ^ e - 1) / 2 ^ e - lo / 2 ^ e) ≤ 0x7FFF
    let set (r : Instr) (n : Nat) (exact_ : Prop → Prop) : Prop :=
      ∃ e ≤ 50, fits n e ∧ (∀ e' < e, ¬ fits n e') ∧
        let b2 := lo / 2 ^ e * 2 ^ e
        let t2 := (lo + n + 2 ^ e - 1) / 2 ^ e * 2 ^ e
        ∃ tag : Bool, WritesC s (exec r s) d ⟨capBits lo (capP x) e (lo / 2 ^ e % 32768) ((t2 - b2) / 2 ^ e), tag⟩ ∧
          (tag = true ↔ x.tag = true ∧ t2 ≤ 2 ^ 80 ∧ capBase x ≤ b2 ∧ t2 ≤ capTop x ∧ exact_ (b2 = lo ∧ t2 = lo + n))
    set (.csetb st d a b) (s.rx b).toNat (fun _ => True) ∧
    set (.csetbx st d a b) (s.rx b).toNat (fun p => p) ∧
    (i.msb = false → set (.csetbi st d a i) i.toNat (fun _ => True)) ∧
    (i.msb = true → Traps s (exec (.csetbi st d a i) s) .illegal (s.ctx.ir.zeroExtend 80)))

/-- Nothing that derives a capability adds to authority: where the result of an instruction of majors 0x05 and 0x06 or of SEL is
tagged, a register it read was tagged, and that one's bounds and permissions contain the result's (R110, R113, R122, R123). -/
def Obligations.AuthorityNeverGrows : Prop :=
  ∀ (s : State) (st : Fin 8) (st' : Fin 4) (d a b : Fin 32) (i : BitVec 7) (x y : Fin 16),
    let holds (r : Fin 32) (srcs : List (Fin 32)) (n : Instr) : Prop :=
      s.CanIssue (srcs.map rdC) → ∃ t, exec n s = .next t ∧ ((t.rc r).tag = true →
        ∃ q ∈ srcs, (s.rc q).tag = true ∧ capBase (s.rc q) ≤ capBase (t.rc r) ∧ capTop (t.rc r) ≤ capTop (s.rc q) ∧
          ∀ k : Nat, capHas (t.rc r) k → capHas (s.rc q) k)
    holds d [a] (.cmov st d a) ∧ holds d [a, b] (.cinc st d a b) ∧ holds d [a, b] (.cseta st d a b) ∧
    holds d [a, b] (.csetb st d a b) ∧ holds d [a, b] (.csetbx st d a b) ∧ holds d [a, b] (.candp st d a b) ∧
    holds d [a] (.cinci st d a i) ∧ (i.msb = false → holds d [a] (.csetbi st d a i)) ∧ holds d [a] (.cclrtag st d a) ∧
    holds d [d, a, b] (.sel st d a b) ∧
    holds ⟨x.val, by omega⟩ [⟨y.val, by omega⟩] (.cmovShort st' x y) ∧
    holds ⟨x.val, by omega⟩ [⟨x.val, by omega⟩] (.cinciShort st' x y)

/-! ### Control transfers and loops -/

/-- R126, R127: a taken branch goes to its own address plus twice the offset, an untaken one goes on; the conditions of majors
0x07 and 0x1E and of the short BEQ and BNE. A taken branch whose target is outside PCC raises CAP_BOUNDS with the target in TVAL
and writes nothing (R125). R128, R129, R125: J and CALL go to their own address plus twice the offset; JR, CALLR and RET take
PCC from a register through the checks of tag, permission X, bounds and alignment in that order; CALL and CALLR leave PCC at the
next instruction in the link register, and a check that fails writes nothing. -/
def Obligations.BranchesJumpsAndCalls : Prop :=
  (∀ (s : State) (st : Fin 8) (st' : Fin 4) (a : Fin 32) (m : Fin 8) (g : Fin 16) (off : BitVec 13) (x y : Fin 16),
    s.ctx.loop.lact = false →
    let v : Int := (s.rx a).toInt
    let c : Fin 32 := ⟨x.val, by omega⟩
    let k : Int := if y.val < 8 then y.val else (y.val : Int) - 16
    let r (rd : List (RegFile × Nat)) (n : Instr) (o : Int) (taken : Prop) : Prop :=
      s.CanIssue rd →
        let t : Int := (capA s.ctx.pcc : Int) + 2 * o
        let inside := capBase s.ctx.pcc ≤ t ∧ t + 2 ≤ capTop s.ctx.pcc
        (¬ taken → JumpsTo s (exec n s) (capMove s.ctx.pcc s.ctx.npc.toNat) s.ctx.loop) ∧
        (taken → inside → JumpsTo s (exec n s) (capMove s.ctx.pcc (addr80 t)) s.ctx.loop) ∧
        (taken → ¬ inside → Traps s (exec n s) .capBounds (tvalOf t))
    r [rdC a] (.beq st a off) off.toInt (v = 0) ∧
    r [rdC a] (.bne st a off) off.toInt (v ≠ 0) ∧
    r [rdC a] (.blt st a off) off.toInt (v < 0) ∧
    r [rdC a] (.bge st a off) off.toInt (v ≥ 0) ∧
    r [rdC a] (.ble st a off) off.toInt (v ≤ 0) ∧
    r [rdC a] (.bgt st a off) off.toInt (v > 0) ∧
    r [rdC a] (.btag st a off) off.toInt ((s.rc a).tag = true) ∧
    r [rdC a] (.bntag st a off) off.toInt ((s.rc a).tag = false) ∧
    r [rdC c] (.beqShort st' x y) k (s.rx c = 0) ∧
    r [rdC c] (.bneShort st' x y) k (s.rx c ≠ 0) ∧
    (s.helper = false →
      r [rdM m] (.bmany st m off) off.toInt (∃ i : Fin 32, (s.rm m).getLsbD i = true) ∧
      r [rdM m] (.bmnone st m off) off.toInt (∀ i : Fin 32, (s.rm m).getLsbD i = false) ∧
      r [rdM m] (.bmall st m off) off.toInt (∀ i : Fin 32, (s.rm m).getLsbD i = true) ∧
      r [rdG g] (.bgds st g off) off.toInt (s.rg g = true) ∧
      r [rdG g] (.bgdc st g off) off.toInt (s.rg g = false))) ∧
  (∀ (s : State) (st : Fin 8) (st' : Fin 4) (a d : Fin 32) (off : BitVec 22) (o : BitVec 8) (x : Fin 16),
    s.ctx.loop.lact = false →
    let link := capAt s.ctx.pcc s.ctx.npc.toNat
    let here (k : Int) : Int := (capA s.ctx.pcc : Int) + 2 * k
    let inside (t : Int) : Prop := capBase s.ctx.pcc ≤ t ∧ t + 2 ≤ capTop s.ctx.pcc
    let cx : Fin 32 := ⟨x.val, by omega⟩
    let ok (c : Cap) : Prop := c.tag = true ∧ capE c ≤ 50 ∧ capHas c 11 = false ∧ capHas c pX = true ∧
      capBase c ≤ capA c ∧ (capA c : Int) + 2 ≤ capTop c ∧ capA c % 2 = 0
    (s.CanIssue [] →
      (inside (here off.toInt) →
        JumpsTo s (exec (.j st off) s) (capMove s.ctx.pcc (addr80 (here off.toInt))) s.ctx.loop ∧
        JumpsLinking s (exec (.call st off) s) (capMove s.ctx.pcc (addr80 (here off.toInt))) 1 link) ∧
      (inside (here o.toInt) →
        JumpsTo s (exec (.jShort st' o) s) (capMove s.ctx.pcc (addr80 (here o.toInt))) s.ctx.loop) ∧
      (¬ inside (here off.toInt) →
        Traps s (exec (.j st off) s) .capBounds (tvalOf (here off.toInt)) ∧
        Traps s (exec (.call st off) s) .capBounds (tvalOf (here off.toInt)))) ∧
    (s.CanIssue [rdC a] →
      (ok (s.rc a) →
        JumpsTo s (exec (.jr st a) s) (s.rc a) s.ctx.loop ∧
        JumpsTo s (exec (.ret st a) s) (s.rc a) s.ctx.loop ∧
        JumpsLinking s (exec (.callr st d a) s) (s.rc a) d link) ∧
      (∀ n ∈ [Instr.jr st a, .ret st a, .callr st d a],
        let c := s.rc a
        let tv := tvalOf (capA c)
        (c.tag = false → Traps s (exec n s) .capTag tv) ∧
        (capValid c = true → capHas c pX = false → Traps s (exec n s) .capPerm tv) ∧
        (capValid c = true → capHas c pX = true → ¬ (capBase c ≤ capA c ∧ (capA c : Int) + 2 ≤ capTop c) →
          Traps s (exec n s) .capBounds tv) ∧
        (capValid c = true → capHas c pX = true → capBase c ≤ capA c → (capA c : Int) + 2 ≤ capTop c →
          capA c % 2 = 1 → Traps s (exec n s) .align tv))) ∧
    (s.CanIssue [rdC cx] → ok (s.rc cx) →
      JumpsTo s (exec (.retShort st' x) s) (s.rc cx) s.ctx.loop ∧
      JumpsLinking s (exec (.callrShort st' x) s) (s.rc cx) 1 link))

/-- R130: where the first halfwords of the body can be fetched (`size` bytes in all), LOOP with a count of zero passes over the
body, and otherwise samples the count, o6 and o7 and starts the loop at its first instruction. R131: a body instruction (ADD
stands for those that do not touch the loop) that retires steps LIDX; at the end of the body the iteration advances, the loop
goes back to its start, or ends behind the body when the count is reached. R133: LEXIT ends the loop behind its body when its
register is not zero, or unconditionally with c0; otherwise it is an ordinary body instruction, and outside a loop it raises
ILLEGAL. R132: while a loop runs, the transfers of majors 0x07 to 0x0B and 0x1E and ERET raise ILLEGAL as body instructions. -/
def Obligations.Loops : Prop :=
  (∀ (s u : State) (st : Fin 8) (st' : Fin 4) (a : Fin 32) (n : Fin 8) (x : Fin 16) (y : Fin 8) (size : Nat),
    s.ctx.loop.lact = false →
    let beg := s.ctx.npc
    let r (c : Fin 32) (len : Nat) (i : Instr) : Prop :=
      s.CanIssue [rdC c] → bodySize len beg.toNat s = .ok size u → u.ctx = s.ctx →
        let l : Loop := { lact := true, llen := len, lidx := 0, lsz := size, lbeg := beg, lcnt := s.rx c, liter := 0,
                          lfstep := s.ro 6, lmstep := s.ro 7 }
        ∃ t, exec i s = .next t ∧ (∀ k, t.rc k = s.rc k) ∧ t.ctx.o = s.ctx.o ∧ (∀ p, memGet t.mem p = memGet u.mem p) ∧
          (s.rx c = 0 → t.ctx.loop = s.ctx.loop ∧ t.ctx.pcc = capMove s.ctx.pcc (beg + BitVec.ofNat 80 size).toNat) ∧
          (s.rx c ≠ 0 → t.ctx.loop = l ∧ t.ctx.pcc = capMove s.ctx.pcc beg.toNat)
    r a (n.val + 1) (.loop st a n) ∧ r ⟨x.val, by omega⟩ (y.val + 1) (.loopShort st' x y)) ∧
  (∀ (s : State) (st : Fin 8) (d a b : Fin 32), s.CanIssue [rdC a, rdC b] → s.ctx.loop.lact = true →
    let l := s.ctx.loop
    ∃ t, exec (.add st d a b) s = .next t ∧
      (l.lidx + 1 ≠ l.llen → t.ctx.loop = { l with lidx := l.lidx + 1 } ∧ t.ctx.pcc = capMove s.ctx.pcc s.ctx.npc.toNat) ∧
      (l.lidx + 1 = l.llen → l.liter + 1 ≠ l.lcnt →
        t.ctx.loop = { l with lidx := 0, liter := l.liter + 1 } ∧ t.ctx.pcc = capMove s.ctx.pcc l.lbeg.toNat) ∧
      (l.lidx + 1 = l.llen → l.liter + 1 = l.lcnt →
        t.ctx.loop = { l with lidx := 0, liter := l.liter + 1, lact := false } ∧
        t.ctx.pcc = capMove s.ctx.pcc (l.lbeg + BitVec.ofNat 80 l.lsz).toNat)) ∧
  (∀ (s : State) (st : Fin 8) (a : Fin 32), s.CanIssue [rdC a] →
    let l := s.ctx.loop
    (l.lact = true → (s.rx a ≠ 0 ∨ a = 0) →
      JumpsTo s (exec (.lexit st a) s) (capMove s.ctx.pcc (l.lbeg + BitVec.ofNat 80 l.lsz).toNat) { l with lact := false }) ∧
    (l.lact = true → s.rx a = 0 → a ≠ 0 → l.lidx + 1 ≠ l.llen →
      JumpsTo s (exec (.lexit st a) s) (capMove s.ctx.pcc s.ctx.npc.toNat) { l with lidx := l.lidx + 1 }) ∧
    (l.lact = false → Traps s (exec (.lexit st a) s) .illegal (s.ctx.ir.zeroExtend 80))) ∧
  (∀ (s : State) (st : Fin 8) (st' : Fin 4) (d a : Fin 32) (m n : Fin 8) (g x y : Fin 16) (off : BitVec 13)
    (o : BitVec 22) (p : BitVec 8),
    s.ctx.loop.lact = true → (s.helper && s.ctx.stopReq) = false →
    ∀ i ∈ [Instr.beq st a off, .bne st a off, .blt st a off, .bge st a off, .ble st a off, .bgt st a off, .btag st a off,
        .bntag st a off, .j st o, .call st o, .jr st a, .callr st d a, .ret st a, .loop st a n, .bmany st m off,
        .bmnone st m off, .bmall st m off, .bgds st g off, .bgdc st g off, .eret st, .beqShort st' x y,
        .bneShort st' x y, .jShort st' p, .retShort st' x, .callrShort st' x, .loopShort st' x n],
      Traps s (exec i s) .illegal (s.ctx.ir.zeroExtend 80))
/-! ### Loads, stores and atomics -/

/-- R115: an access through a capability raises the first cause that fails, of tag, permissions, bounds and alignment in this
order, with the access's address in TVAL; loads, stores and atomics of majors 0x0C to 0x0F. -/
def Obligations.AccessChecks : Prop :=
  ∀ (s : State) (st : Fin 8) (d a b : Fin 32) (off : Int), s.ctx.ahead = false →
    let c := s.rc a
    let bad (reads : List (RegFile × Nat)) (ps : List Nat) (p : Int) (n : Nat) (i : Instr) : Prop :=
      s.CanIssue reads →
        (capValid c = false → Traps s (exec i s) .capTag (tvalOf p)) ∧
        (capValid c = true → capHasAll c ps = false → Traps s (exec i s) .capPerm (tvalOf p)) ∧
        (capValid c = true → capHasAll c ps = true → ¬ (capBase c ≤ p ∧ p + n ≤ capTop c) →
          Traps s (exec i s) .capBounds (tvalOf p)) ∧
        (capValid c = true → capHasAll c ps = true → capBase c ≤ p → p + n ≤ capTop c → p % n ≠ 0 →
          Traps s (exec i s) .align (tvalOf p))
    let at_ (n : Nat) : Int := (capA c : Int) + off * n
    bad [rdC a] [pL] (at_ 1) 1 (.ldB st d a off) ∧ bad [rdC a] [pL] (at_ 1) 1 (.ldBu st d a off) ∧
    bad [rdC a] [pL] (at_ 2) 2 (.ldH st d a off) ∧ bad [rdC a] [pL] (at_ 2) 2 (.ldHu st d a off) ∧
    bad [rdC a] [pL] (at_ 4) 4 (.ldW st d a off) ∧ bad [rdC a] [pL] (at_ 4) 4 (.ldWu st d a off) ∧
    bad [rdC a] [pL] (at_ 8) 8 (.ldD st d a off) ∧ bad [rdC a] [pL] (at_ 16) 16 (.ldC st d a off) ∧
    bad [rdC d, rdC a] [pS] (at_ 1) 1 (.stB st d a off) ∧ bad [rdC d, rdC a] [pS] (at_ 2) 2 (.stH st d a off) ∧
    bad [rdC d, rdC a] [pS] (at_ 4) 4 (.stW st d a off) ∧ bad [rdC d, rdC a] [pS] (at_ 8) 8 (.stD st d a off) ∧
    bad [rdC d, rdC a] (if (s.rc d).tag then [pS, pSC] else [pS]) (at_ 16) 16 (.stC st d a off) ∧
    (∀ i ∈ [Instr.aaddD st d a b, .aandD st d a b, .aorD st d a b, .axorD st d a b, .aminD st d a b, .amaxD st d a b,
        .aminuD st d a b, .amaxuD st d a b, .aswapD st d a b, .afaddD st d a b],
      bad [rdC a, rdC b] [pL, pS, pA] (capA c) 8 i) ∧
    (∀ i ∈ [Instr.aaddW st d a b, .aandW st d a b, .aorW st d a b, .axorW st d a b, .aminW st d a b, .amaxW st d a b,
        .aminuW st d a b, .amaxuW st d a b, .aswapW st d a b, .afaddW st d a b, .afaddbf st d a b],
      bad [rdC a, rdC b] [pL, pS, pA] (capA c) 4 i) ∧
    bad [rdC a, rdC b, rdO 2] [pL, pS, pA] (capA c) 8 (.acasD st d a b) ∧
    bad [rdC a, rdC b, rdO 2] [pL, pS, pA] (capA c) 4 (.acasW st d a b)

/-- R260: a load whose access passes reads the bytes at its address, little-endian, extends them as its row says and writes
C[d]; LD.C takes the granule's tag where the capability holds LC and the page is not H. Nothing else changes: memory is what
translation left (`s1`, R258). -/
def Obligations.LoadResults : Prop :=
  ∀ (s s1 : State) (g : Seg) (st : Fin 8) (st' : Fin 4) (d a : Fin 32) (off : Int) (x y : Fin 16),
    s.ctx.ahead = false →
    let cx : Fin 32 := ⟨x.val, by omega⟩
    let cy : Fin 32 := ⟨y.val, by omega⟩
    let r (i : Instr) (base : Fin 32) (k : Int) (n : Nat) (dst : Fin 32) (v : Nat → Cap) : Prop :=
      s.CanIssue [rdC base] →
      access (s.rc base) [pL] ((capA (s.rc base) : Int) + k * n) n n .load s = .ok [g] s1 →
      s1.Quiet g.place n n →
      ∃ t, exec i s = .next t ∧ GoesOn s t ∧ OnlyCaches s t ∧ WroteC s t dst (v (leNat (s1.getBytes g.place n))) ∧
        t.tags = s1.tags ∧ ∀ p, memGet t.mem p = memGet s1.mem p
    let sx (n : Nat) (z : Nat) : Cap := scalar ((BitVec.ofNat n z).signExtend 64)
    let zx (z : Nat) : Cap := scalar (BitVec.ofNat 64 z)
    let cap (base : Fin 32) (z : Nat) : Cap :=
      ⟨BitVec.ofNat 128 z, tagGet s1.tags (g.place / 16) && !isHostPlace g.place && capHas (s.rc base) pLC⟩
    r (.ldB st d a off) a off 1 d (sx 8) ∧ r (.ldBu st d a off) a off 1 d zx ∧
    r (.ldH st d a off) a off 2 d (sx 16) ∧ r (.ldHu st d a off) a off 2 d zx ∧
    r (.ldW st d a off) a off 4 d (sx 32) ∧ r (.ldWu st d a off) a off 4 d zx ∧
    r (.ldD st d a off) a off 8 d zx ∧ r (.ldC st d a off) a off 16 d (cap a) ∧
    r (.ldDShort st' x y) cy 0 8 cx zx ∧ r (.ldWShort st' x y) cy 0 4 cx (sx 32) ∧
    r (.ldDC2Short st' x y) 2 y.val 8 cx zx ∧ r (.ldCC2Short st' x y) 2 y.val 16 cx (cap 2)

/-- R261, R253: a store whose access passes writes the low bytes of C[d] at its address, and no other byte but the entry that
translated it; its granule loses its tag, and a tagged ST.C sets it where the page is not H; every other granule but that
entry's keeps its tag. No register changes. -/
def Obligations.StoreResults : Prop :=
  ∀ (s s1 : State) (g : Seg) (st : Fin 8) (st' : Fin 4) (d a : Fin 32) (off : Int) (x y : Fin 16),
    s.ctx.ahead = false → Memory.wf s.mem = true →
    let cx : Fin 32 := ⟨x.val, by omega⟩
    let cy : Fin 32 := ⟨y.val, by omega⟩
    let after (i : Instr) (src : Fin 32) (n : Nat) (tag : Bool) : Prop :=
      s1.Quiet g.place n n →
      ∃ t, exec i s = .next t ∧ GoesOn s t ∧ OnlyCaches s t ∧ (∀ k, t.rc k = s.rc k) ∧
        t.getBytes g.place n = leBytes n (s.rc src).bits.toNat ∧
        (∀ q, within (g.place / 16) ((g.place + n - 1) / 16 - g.place / 16 + 1) q → tagGet t.tags q = tag) ∧
        (∀ q, ¬ within (g.place / 16) ((g.place + n - 1) / 16 - g.place / 16 + 1) q → (∀ l, g.leaf = some l → q ≠ l.ea / 16) →
          tagGet t.tags q = tagGet s1.tags q) ∧
        ∀ p, ¬ within g.place n p → ¬ inEntry g p → memGet t.mem p = memGet s1.mem p
    let r (i : Instr) (base : Fin 32) (k : Int) (n : Nat) (src : Fin 32) : Prop :=
      s.CanIssue [rdC src, rdC base] →
      access (s.rc base) [pS] ((capA (s.rc base) : Int) + k * n) n n .store s = .ok [g] s1 → after i src n false
    let c (i : Instr) (base : Fin 32) (k : Int) (src : Fin 32) : Prop :=
      s.CanIssue [rdC src, rdC base] → g.place % 16 = 0 →
      capStoreAccess (s.rc base) (s.rc src) ((capA (s.rc base) : Int) + k * 16) s = .ok [g] s1 →
      after i src 16 ((s.rc src).tag && !isHostPlace g.place)
    r (.stB st d a off) a off 1 d ∧ r (.stH st d a off) a off 2 d ∧ r (.stW st d a off) a off 4 d ∧
    r (.stD st d a off) a off 8 d ∧ c (.stC st d a off) a off d ∧
    r (.stDShort st' x y) cy 0 8 cx ∧ r (.stWShort st' x y) cy 0 4 cx ∧
    r (.stDC2Short st' x y) 2 y.val 8 cx ∧ c (.stCC2Short st' x y) 2 y.val cx

/-- R262, R263: an atomic whose access passes writes its row's new value in place, and the old value, zero-extended, to C[d];
its granule loses its tag and every other but the entry's keeps its own; an ACAS that fails writes nothing and leaves the tag.
-/
def Obligations.AtomicResults : Prop :=
  ∀ (s s1 : State) (g : Seg) (st : Fin 8) (d a b : Fin 32), s.ctx.ahead = false → Memory.wf s.mem = true →
    let num (w : Nat) (z : Nat) : Int := (BitVec.ofNat w z).toInt
    let r (n : Nat) (i : Instr) (f : Nat → Nat → Nat) : Prop :=
      s.CanIssue [rdC a, rdC b] →
      access (s.rc a) [pL, pS, pA] (capA (s.rc a)) n n .atomic s = .ok [g] s1 → s1.Quiet g.place n n →
      let m := leNat (s1.getBytes g.place n)
      ∃ t, exec i s = .next t ∧ GoesOn s t ∧ OnlyCaches s t ∧ WroteC s t d (scalar (BitVec.ofNat 64 m)) ∧
        t.getBytes g.place n = leBytes n (f m ((s.rx b).toNat % 2 ^ (8 * n))) ∧ tagGet t.tags (g.place / 16) = false ∧
        (∀ q, q ≠ g.place / 16 → (∀ l, g.leaf = some l → q ≠ l.ea / 16) → tagGet t.tags q = tagGet s1.tags q) ∧
        ∀ p, ¬ within g.place n p → ¬ inEntry g p → memGet t.mem p = memGet s1.mem p
    let cas (n : Nat) (i : Instr) : Prop :=
      s.CanIssue [rdC a, rdC b, rdO 2] →
      access (s.rc a) [pL, pS, pA] (capA (s.rc a)) n n .atomic s = .ok [g] s1 → s1.Quiet g.place n n →
      let m := leNat (s1.getBytes g.place n)
      let hit : Prop := m = (s.ro 2).toNat % 2 ^ (8 * n)
      ∃ t, exec i s = .next t ∧ GoesOn s t ∧ OnlyCaches s t ∧ WroteC s t d (scalar (BitVec.ofNat 64 m)) ∧
        (hit → t.getBytes g.place n = leBytes n ((s.rx b).toNat % 2 ^ (8 * n)) ∧ tagGet t.tags (g.place / 16) = false) ∧
        (¬ hit → t.mem = s1.mem ∧ t.tags = s1.tags) ∧
        (∀ q, q ≠ g.place / 16 → (∀ l, g.leaf = some l → q ≠ l.ea / 16) → tagGet t.tags q = tagGet s1.tags q) ∧
        ∀ p, ¬ within g.place n p → ¬ inEntry g p → memGet t.mem p = memGet s1.mem p
    let both (n : Nat) (add and_ or_ xor_ smin smax umin umax swap : Instr) : Prop :=
      let w := 8 * n
      r n add (fun m x => (m + x) % 2 ^ w) ∧ r n and_ (fun m x => m &&& x) ∧ r n or_ (fun m x => m ||| x) ∧
      r n xor_ (fun m x => m ^^^ x) ∧ r n smin (fun m x => if num w m < num w x then m else x) ∧
      r n smax (fun m x => if num w m < num w x then x else m) ∧ r n umin (fun m x => Min.min m x) ∧
      r n umax (fun m x => Max.max m x) ∧ r n swap (fun _ x => x)
    both 8 (.aaddD st d a b) (.aandD st d a b) (.aorD st d a b) (.axorD st d a b) (.aminD st d a b) (.amaxD st d a b)
      (.aminuD st d a b) (.amaxuD st d a b) (.aswapD st d a b) ∧
    both 4 (.aaddW st d a b) (.aandW st d a b) (.aorW st d a b) (.axorW st d a b) (.aminW st d a b) (.amaxW st d a b)
      (.aminuW st d a b) (.amaxuW st d a b) (.aswapW st d a b) ∧
    cas 8 (.acasD st d a b) ∧ cas 4 (.acasW st d a b) ∧
    r 8 (.afaddD st d a b) (addF fmtFP64) ∧ r 4 (.afaddW st d a b) (addF fmtFP32) ∧
    r 4 (.afaddbf st d a b) (fun m x =>
      addF fmtBF16 (m % 65536) (x % 65536) + 65536 * addF fmtBF16 (m / 65536) (x / 65536))

/-- R80, R79: with SCHK set, a read of a register whose fixed-latency result is not ready raises STALL_SHORT with the register
and its file in TVAL; a read of a register whose variable-latency result is not ready waits. R88, R139, R187, R83: a vector
instruction raises ILLEGAL in a helper and where o0 has a reserved bit or a type that the instruction does not accept, and
ACC_OWNED with the lowest register where it names v0 to v35 in matrix mode. That the register named is the first in the order of
the reads is the model's (log 48). -/
def Obligations.ScoreboardAndVectorFaults : Prop :=
  (∀ (s : State) (st : Fin 8) (d a b : Fin 32), (s.helper && s.ctx.stopReq) = false →
    ∀ i ∈ [Instr.add st d a b, .cinc st d a b, .mul st d a b],
      (s.core.schk = true → s.fixPending (rdC a) = true → Traps s (exec i s) .stallShort (BitVec.ofNat 80 a.val)) ∧
      (s.core.schk = true → s.fixPending (rdC a) = false → s.fixPending (rdC b) = true →
        Traps s (exec i s) .stallShort (BitVec.ofNat 80 b.val)) ∧
      (s.core.schk = false → s.boundary = none → (s.varPending (rdC a) = true ∨ s.varPending (rdC b) = true) →
        exec i s = .next s.block)) ∧
  (∀ (s : State) (st : Fin 8) (d a b : Fin 64) (m : Fin 8) (c : Fin 32), (s.helper && s.ctx.stopReq) = false →
    let ill := s.ctx.ir.zeroExtend 80
    let all : List Instr := [.vadd st d a b m, .vsub st d a b m, .vmul st d a b m, .vmulh st d a b m, .vmin st d a b m,
      .vmax st d a b m, .vsll st d a b m, .vsrl st d a b m, .vsra st d a b m, .vrol st d a b m, .vfma st d a b m,
      .vfms st d a b m, .vdiv st d a b m, .vscl st d a b m, .vrsum st d a b m, .vrmax st d a b m]
    (s.helper = true → (∀ i ∈ all ++ [.vand st d a b m, .vmrg st d a b m, .vmov st d a m, .mset st m c, .vmovx st d c],
      Traps s (exec i s) .illegal ill)) ∧
    (s.helper = false → (o0ok s.o0 = false ∨ 12 ≤ oVT s.o0) → ∀ i ∈ all, Traps s (exec i s) .illegal ill) ∧
    (s.helper = false → s.boundPort d = false → s.boundPort a = false → s.boundPort b = false → s.core.mm = true →
      ∀ n : Fin 64, n ∈ [a, b, d] → n.val < 36 → (∀ k ∈ [a, b, d], n.val ≤ k.val) →
        Traps s (exec (.vand st d a b m) s) .accOwned (BitVec.ofNat 80 n.val) ∧
        Traps s (exec (.vmrg st d a b m) s) .accOwned (BitVec.ofNat 80 n.val)))

/-! ### Ordering and waiting -/

/-- R281, R303, R264: FENCE retires once no L1 of its scope holds a lease on a line that the context wrote after the grant (and,
at scope 4, every remote operation has its reply); FENCER once every remote operation has its reply, and writes and clears the
failure summary; a scope above 4 raises ILLEGAL. CLEAN and INVAL over a range that passes change no register and no byte; CLEAN
leaves no dirty copy of the range's cached lines in a slice, and INVAL leaves no copy of the range's cached lines in the core.
-/
def Obligations.FencesAndCaches : Prop :=
  ∀ (s s1 : State) (st : Fin 8) (n : Nat) (d a b : Fin 32) (gs : List Seg),
    (s.ctx.ahead = false →
      (s.CanIssue [] → n ≤ 4 →
        (s.leaseHeld n = false → n < 4 → OnlyAdvances s (exec (.fence st n) s)) ∧
        (s.leaseHeld n = false → n = 4 → s.remoteOut = false →
          ∃ t, exec (.fence st n) s = .next t ∧ Advanced s t ∧ OnlyOrders s t ∧ (∀ k, t.rc k = s.rc k)) ∧
        (s.leaseHeld n = true ∨ (n = 4 ∧ s.remoteOut = true) → exec (.fence st n) s = .next (s.setCtx { s.ctx with wait := .fence }).block)) ∧
      (s.CanIssue [] → s.remoteOut = false →
        ∃ t, exec (.fencer st d) s = .next t ∧ Advanced s t ∧ OnlyOrders s t ∧
          WroteC s t d (scalar (BitVec.ofNat 64
            (Min.min s.ctx.nfail 65535 + s.ctx.fst % 16 * 65536 + s.ctx.fpkg % 4096 * 2 ^ 20))) ∧
          t.ctx.nfail = 0 ∧ t.ctx.fst = 0 ∧ t.ctx.fpkg = 0)) ∧
    (4 < n → (s.helper && s.ctx.stopReq) = false → Traps s (exec (.fence st n) s) .illegal (s.ctx.ir.zeroExtend 80)) ∧
    (s.CanIssue [rdC a, rdC b] → cacheRange (s.rc a) (s.rx b).toNat s = .ok gs s1 →
      (∃ t, exec (.clean st a b) s = .next t ∧ GoesOn s t ∧ OnlyCaches s t ∧ (∀ k, t.rc k = s.rc k) ∧
        (∀ p, memGet t.mem p = memGet s1.mem p) ∧ t.tags = s1.tags ∧ t.core.l1 = s.core.l1 ∧ t.core.ic = s.core.ic ∧
        ∀ g ∈ gs, g.cached = true → ∀ y ∈ t.l2, y.line ∈ linesOf g.place g.len → y.dirty = false) ∧
      (∃ t, exec (.inval st a b) s = .next t ∧ GoesOn s t ∧ OnlyCaches s t ∧ (∀ k, t.rc k = s.rc k) ∧
        (∀ p, memGet t.mem p = memGet s1.mem p) ∧ t.tags = s1.tags ∧
        (∀ g ∈ gs, g.cached = true → ∀ q ∈ linesOf g.place g.len,
          (∀ x ∈ t.core.l1, x.line ≠ q) ∧ ∀ x ∈ t.core.ic, x.line ≠ q)))

/-- R354, R352, R353: WAITJ and POLLJ write the status word of the job that C[a] names and free a record that has its final
status; POLLJ of an incomplete job writes PENDING and keeps it, and WAITJ waits; an identifier without a record reads UNKNOWN
(15). SLEEP ends at once when TIME has reached its limit, and YIELD when no other context is ready or each has had its turn;
neither changes a register. -/
def Obligations.JobWaits : Prop :=
  ∀ (s : State) (st : Fin 8) (st' : Fin 4) (d a : Fin 32) (x : Fin 16) (j : JobRec), s.ctx.ahead = false →
    let final (i : Instr) (dst src : Fin 32) : Prop :=
      s.CanIssue [rdC src] →
      (s.core.jobs.find? (fun j => j.word == s.rx src) = some j → j.status ≠ 0 →
        ∃ t, exec i s = .next t ∧ Advanced s t ∧
          t.core.jobs = s.core.jobs.filter (fun k => k.word != j.word) ∧ t.mem = s.mem ∧
          WroteC s t dst (scalar (BitVec.ofNat 64
            (j.status % 16 + j.cause % 64 * 16 + j.count % 65536 * 1024 + j.pos % 2 ^ 38 * 2 ^ 26)))) ∧
      (s.core.jobs.find? (fun j => j.word == s.rx src) = none → WritesC s (exec i s) dst (scalar 15))
    final (.waitj st d a) d a ∧ final (.pollj st d a) d a ∧ final (.waitjShort st' x) 0 ⟨x.val, by omega⟩ ∧
    (s.CanIssue [rdC a] → s.core.jobs.find? (fun j => j.word == s.rx a) = some j → j.status = 0 →
      WritesC s (exec (.pollj st d a) s) d
        (scalar (BitVec.ofNat 64 (j.cause % 64 * 16 + j.count % 65536 * 1024 + j.pos % 2 ^ 38 * 2 ^ 26))) ∧
      exec (.waitj st d a) s = .next s.block) ∧
    (s.CanIssue [rdC a] → (s.rx a).toNat ≤ s.time.toNat → OnlyAdvances s (exec (.sleep st a) s)) ∧
    (s.CanIssue [] → (s.ctx.wait = .yielding [] ∨ ((∀ owe, s.ctx.wait ≠ .yielding owe) ∧ s.readyOthers = [])) →
      OnlyAdvances s (exec (.yield st) s) ∧ OnlyAdvances s (exec (.yieldShort st') s))

/-! ### Vector work -/

/-- R141 to R143, R138, R139: the element-wise instructions on the integer types, under the mask; the exact result wraps or,
with SAT, is clamped. An element that the mask does not govern keeps the destination's value (that of the last write issued to
it, R81). What elements outside the mask keep is the model's reading (log 36). -/
def Obligations.VectorIntegers : Prop :=
  ∀ (s : State) (ty : Nat) (st : Fin 8) (st' : Fin 4) (d a b : Fin 64) (m : Fin 8) (p q : Fin 16),
    ty ≤ 7 → s.Typed ty →
    let w := tyWidth ty
    let sat := oSAT s.o0
    let num (z : Nat) : Int := if tySigned ty then (BitVec.ofNat w z).toInt else z
    let x (e : Nat) := num (elem (s.rv a) w e)
    let y (e : Nat) := num (elem (s.rv b) w e)
    let z (e : Nat) := num (elem (s.rv d) w e)
    let ux (e : Nat) := elem (s.rv a) w e
    let uy (e : Nat) := elem (s.rv b) w e
    let r (i : Instr) (old : VReg) (lat : Nat) (f : Nat → Nat) : Prop :=
      ∃ v, HasElems v w (masked (s.rm m) w old f) ∧ WritesV s (exec i s) d v (some lat) false
    let k (e : Nat) : Nat := uy e % w
    (s.Plain [a, b, d] → s.CanIssue [rdV a, rdV b, rdM m] →
      let old := s.mergeV d
      r (.vadd st d a b m) old 2 (fun e => narrow ty sat (x e + y e)) ∧
      r (.vsub st d a b m) old 2 (fun e => narrow ty sat (x e - y e)) ∧
      r (.vmul st d a b m) old 4 (fun e => narrow ty sat (x e * y e)) ∧
      r (.vmulh st d a b m) old 4 (fun e => narrow ty false (x e * y e / 2 ^ w)) ∧
      r (.vmin st d a b m) old 2 (fun e => narrow ty false (Min.min (x e) (y e))) ∧
      r (.vmax st d a b m) old 2 (fun e => narrow ty false (Max.max (x e) (y e))) ∧
      r (.vsll st d a b m) old 2 (fun e => ux e * 2 ^ k e % 2 ^ w) ∧
      r (.vsrl st d a b m) old 2 (fun e => ux e / 2 ^ k e) ∧
      r (.vsra st d a b m) old 2 (fun e => ((BitVec.ofNat w (ux e)).toInt / 2 ^ k e % 2 ^ w).toNat) ∧
      r (.vrol st d a b m) old 2 (fun e => (ux e * 2 ^ k e + ux e / 2 ^ (w - k e)) % 2 ^ w)) ∧
    (s.Plain [a, b, d] → s.CanIssue [rdV a, rdV b, rdV d, rdM m] →
      r (.vfma st d a b m) (s.rv d) 4 (fun e => narrow ty sat (x e * y e + z e)) ∧
      r (.vfms st d a b m) (s.rv d) 4 (fun e => narrow ty sat (x e * y e - z e))) ∧
    (s.Plain [a, d] → s.CanIssue [rdV a, rdM m] →
      let old := s.mergeV d
      r (.vabs st d a m) old 2 (fun e => narrow ty sat (x e).natAbs) ∧
      r (.vneg st d a m) old 2 (fun e => narrow ty sat (- x e)) ∧
      r (.vclz st d a m) old 2 (fun e => w - (if ux e = 0 then 0 else Nat.log2 (ux e) + 1)) ∧
      r (.vpopc st d a m) old 2 (fun e => ((List.range w).filter (fun j => (ux e).testBit j)).length)) ∧
    (let vp : Fin 64 := ⟨p.val, by omega⟩
     let vq : Fin 64 := ⟨q.val, by omega⟩
     let short (i : Instr) (lat : Nat) (f : Int → Int → Int) : Prop :=
      ∃ v, HasElems v w (fun e => narrow ty sat (f (num (elem (s.rv vp) w e)) (num (elem (s.rv vq) w e)))) ∧
        WritesV s (exec i s) vp v (some lat) false
     s.Plain [vp, vq] → s.CanIssue [rdV vp, rdV vq, rdM 0] →
      short (.vaddShort st' p q) 2 (fun x y => x + y) ∧ short (.vmulShort st' p q) 4 (fun x y => x * y))

/-- R141, R142, R139, R51, R67: the element-wise instructions on the floating types: the exact value of the operation, rounded
once under the effective mode, with the element's number as SR lane. What elements outside the mask keep is the model's reading
(log 36), and so is VDIV's rounding under mode 6 (log 49). -/
def Obligations.VectorFloats : Prop :=
  ∀ (s : State) (ty : Nat) (st : Fin 8) (st' : Fin 4) (d a b : Fin 64) (m : Fin 8) (p q : Fin 16),
    8 ≤ ty → ty ≤ 11 → s.Typed ty → oRND s.o0 ≠ 7 →
    let w := tyWidth ty
    let val (v : VReg) (e : Nat) : Val := (fmtOf ty).decode (elem v w e)
    let x := val (s.rv a)
    let y := val (s.rv b)
    let put (e : Nat) (v : Wide) : Nat := (fmtOf ty).encodeWide s.round e v
    let r (i : Instr) (old : VReg) (lat : Option Nat) (f : Nat → Wide) : Prop :=
      ∃ v, HasElems v w (masked (s.rm m) w old (fun e => put e (f e))) ∧ WritesV s (exec i s) d v lat true
    (s.Plain [a, b, d] → s.CanIssue [rdV a, rdV b, rdM m] →
      let old := s.mergeV d
      r (.vadd st d a b m) old (some 4) (fun e => .val (vAdd s.rnd (x e) (y e))) ∧
      r (.vsub st d a b m) old (some 4) (fun e => .val (vAdd s.rnd (x e) (vNeg (y e)))) ∧
      r (.vmul st d a b m) old (some 4) (fun e => .val (vMul (x e) (y e))) ∧
      r (.vmin st d a b m) old (some 4) (fun e => .val (vMin (x e) (y e))) ∧
      r (.vmax st d a b m) old (some 4) (fun e => .val (vMax (x e) (y e))) ∧
      r (.vdiv st d a b m) old none (fun e => vDiv (x e) (y e)) ∧
      r (.vscl st d a b m) old (some 4)
        (fun e => .val (vScale (x e) (BitVec.ofNat w (elem (s.rv b) w e)).toInt))) ∧
    (s.Plain [a, b, d] → s.CanIssue [rdV a, rdV b, rdV d, rdM m] →
      let z := val (s.rv d)
      r (.vfma st d a b m) (s.rv d) (some 4) (fun e => .val (vAdd s.rnd (vMul (x e) (y e)) (z e))) ∧
      r (.vfms st d a b m) (s.rv d) (some 4) (fun e => .val (vAdd s.rnd (vMul (x e) (y e)) (vNeg (z e))))) ∧
    (s.Plain [a, d] → s.CanIssue [rdV a, rdM m] →
      let old := s.mergeV d
      r (.vabs st d a m) old (some 2) (fun e => .val (vAbs (x e))) ∧
      r (.vneg st d a m) old (some 2) (fun e => .val (vNeg (x e))) ∧
      r (.vsqrt st d a m) old none (fun e => vSqrt (x e)) ∧
      r (.vexp2 st d a m) old none (fun e => vExp2 (x e)) ∧
      r (.vlog2 st d a m) old none (fun e => vLog2 (x e))) ∧
    (let vp : Fin 64 := ⟨p.val, by omega⟩
     let vq : Fin 64 := ⟨q.val, by omega⟩
     let short (i : Instr) (f : Val → Val → Val) : Prop :=
      ∃ v, HasElems v w (fun e => put e (.val (f (val (s.rv vp) e) (val (s.rv vq) e)))) ∧
        WritesV s (exec i s) vp v (some 4) true
     s.Plain [vp, vq] → s.CanIssue [rdV vp, rdV vq, rdM 0] →
      short (.vaddShort st' p q) (vAdd s.rnd) ∧ short (.vmulShort st' p q) vMul)

/-- R143, R149 to R151: bitwise work and moves per lane, permutes and slides per element, and the mask-operand instructions.
R153: the moves between register kinds, with the latency of each row; writes to m0, g0 and c0 are discarded, and OSET and OGET
run in every context. What elements outside the mask keep is the model's reading (log 36). -/
def Obligations.VectorAndRegisterMoves : Prop :=
  (∀ (s : State) (ty : Nat) (st : Fin 8) (st' : Fin 4) (d a b : Fin 64) (m : Fin 8) (p q : Fin 16),
    let la (j : Nat) := elem (s.rv a) 32 j
    let lb (j : Nat) := elem (s.rv b) 32 j
    let bit (j : Nat) := (s.rm m).getLsbD j
    let below (j : Nat) := ((List.range j).filter bit).length
    let r (i : Instr) (w : Nat) (lat : Nat) (f : Nat → Nat) : Prop :=
      ∃ v, HasElems v w f ∧ WritesV s (exec i s) d v (some lat) false
    (s.Plain [a, b, d] → s.CanIssue [rdV a, rdV b, rdM m] →
      let k (f : Nat → Nat) := masked (s.rm m) 32 (s.mergeV d) f
      r (.vand st d a b m) 32 2 (k fun j => la j &&& lb j) ∧
      r (.vor st d a b m) 32 2 (k fun j => la j ||| lb j) ∧
      r (.vxor st d a b m) 32 2 (k fun j => la j ^^^ lb j) ∧
      r (.vandn st d a b m) 32 2 (k fun j => la j &&& (2 ^ 32 - 1 - lb j)) ∧
      r (.vmrg st d a b m) 32 2 (fun j => if bit j then la j else lb j)) ∧
    (s.Plain [a, d] → s.CanIssue [rdV a, rdM m] →
      r (.vmov st d a m) 32 2 (masked (s.rm m) 32 (s.mergeV d) la)) ∧
    (s.Plain [d] → s.CanIssue [rdM m] →
      r (.viota st d m) 32 2 below ∧ r (.vmcnt st d m) 32 2 (fun _ => below 32)) ∧
    (s.Plain [⟨q.val, by omega⟩, ⟨p.val, by omega⟩] → s.CanIssue [rdV ⟨q.val, by omega⟩, rdM 0] →
      WritesV s (exec (.vmovShort st' p q) s) ⟨p.val, by omega⟩ (s.rv ⟨q.val, by omega⟩) (some 2) false) ∧
    (8 ≤ tyWidth ty → ty < 23 → s.Typed ty →
      let w := tyWidth ty
      let n := 1024 / w
      let code (v : VReg) (e : Nat) : Nat := if ty = 14 ∨ ty = 15 then elem v w e % 64 else elem v w e
      let k (old : VReg) (f : Nat → Nat) := masked (s.rm m) w old f
      (s.Plain [a, b, d] → s.CanIssue [rdV a, rdV b, rdM m] →
        r (.vperm st d a b m) w 3 (k (s.mergeV d) fun e =>
          let i := code (s.rv b) e
          if i < n then code (s.rv a) i else 0) ∧
        r (.vsldu st d a b m) w 3 (k (s.mergeV d) fun e => if lb 0 ≤ e then code (s.rv a) (e - lb 0) else 0) ∧
        r (.vsldd st d a b m) w 3 (k (s.mergeV d) fun e => if e + lb 0 < n then code (s.rv a) (e + lb 0) else 0)) ∧
      (s.Plain [a, b, d] → s.CanIssue [rdV a, rdV b, rdV d, rdM m] →
        r (.vshuf st d a b m) w 3 (k (s.rv d) fun e =>
          let i := code (s.rv d) e
          if i < n then code (s.rv a) i else if i < 2 * n then code (s.rv b) (i - n) else 0)) ∧
      (32 ≤ w → s.Plain [a, d] → s.CanIssue [rdV a, rdM m] →
        r (.vcmpr st d a m) w 3 (fun e =>
          ((((List.range n).filter (fun e => bit (32 * e / n))).map (fun e => elem (s.rv a) w e))[e]?).getD 0)))) ∧
  (∀ (s : State) (ty : Nat) (st : Fin 8) (c c2 : Fin 32) (v : Fin 64) (m : Fin 8) (g : Fin 16) (o : Fin 8),
    let w := tyWidth ty
    let n := 1024 / w
    let at_ := (s.rx c2).toNat % n
    let cut (z : Nat) : Nat := if ty = 14 ∨ ty = 15 then z % 64 else z
    (8 ≤ w → ty < 23 → s.Typed ty → s.Plain [v] →
      (s.CanIssue [rdV v, rdM 0, rdC c2] →
        let z := cut (elem (s.rv v) w at_)
        let x : Word := if tySigned ty then (BitVec.ofNat w z).signExtend 64 else BitVec.ofNat 64 z
        if c = 0 then OnlyAdvances s (exec (.vmovs st c v c2) s)
        else WritesLater s (exec (.vmovs st c v c2) s) .c c.val (x.zeroExtend 1024) 2) ∧
      (s.CanIssue [rdM 0, rdC c] → ∃ r, HasElems r w (fun _ => cut ((s.rx c).toNat % 2 ^ w)) ∧
        WritesV s (exec (.vmovx st v c) s) v r (some 2) false) ∧
      (s.CanIssue [rdV v, rdM 0, rdC c, rdC c2] →
        ∃ r, HasElems r w (fun e => if e = at_ then cut ((s.rx c).toNat % 2 ^ w) else elem (s.rv v) w e) ∧
          WritesV s (exec (.vins st v c c2) s) v r (some 2) false)) ∧
    (s.helper = false →
      (s.CanIssue [rdC c] →
        (∃ t, exec (.mset st m c) s = .next t ∧ Advanced s t ∧
          t.core = { s.core with ctxs := t.core.ctxs, evc := t.core.evc, m := t.core.m } ∧
          t.rm m = (if m = 0 then BitVec.allOnes 32 else (s.rx c).truncate 32) ∧ (∀ k, k ≠ m → t.rm k = s.rm k) ∧
          (∀ k, t.rc k = s.rc k) ∧ t.ctx.o = s.ctx.o ∧ t = { s with core := t.core }) ∧
        (∃ t, exec (.gset st g c) s = .next t ∧ Advanced s t ∧
          t.core = { s.core with ctxs := t.core.ctxs, evc := t.core.evc, g := t.core.g } ∧
          t.rg g = (if g = 0 then true else (s.rx c).getLsbD 0) ∧ (∀ k, k ≠ g → t.rg k = s.rg k) ∧
          (∀ k, t.rc k = s.rc k) ∧ t.ctx.o = s.ctx.o ∧ t = { s with core := t.core })) ∧
      (s.CanIssue [rdM m] → WritesC s (exec (.mget st c m) s) c (scalar ((s.rm m).zeroExtend 64))) ∧
      (s.CanIssue [rdG g] → WritesC s (exec (.gget st c g) s) c (scalar (if s.rg g then 1 else 0)))) ∧
    (s.CanIssue [rdC c] →
      ∃ t, exec (.oset st o c) s = .next t ∧ Advanced s t ∧ OnlyContext s t ∧ (∀ k, t.rc k = s.rc k) ∧
        t.ctx.o = s.ctx.o.set o (s.rx c)) ∧
    (s.CanIssue [rdO o] → WritesC s (exec (.oget st c o) s) c (scalar (s.ro o))))

/-- R145: a compare sets the result bits of each governed element for which it holds, clears every other bit of M[d], and is
readable two cycles after issue for integers and four for floating types; with m0 it only goes on. -/
def Obligations.VectorCompares : Prop :=
  ∀ (s : State) (ty : Nat) (st : Fin 8) (d : Fin 8) (a b : Fin 64) (m : Fin 8),
    ty ∈ [4, 5, 6, 7, 10, 11] → s.Typed ty → s.Plain [a, b] → s.CanIssue [rdV a, rdV b, rdM m] →
    let w := tyWidth ty
    let n := 1024 / w
    let x (e : Nat) := decodeTy ty (elem (s.rv a) w e)
    let y (e : Nat) := decodeTy ty (elem (s.rv b) w e)
    let lat := if ty < 8 then 2 else 4
    let r (i : Instr) (f : Val → Val → Bool) : Prop :=
      ∃ bits : BitVec 32,
        (∀ j : Nat, j < 32 → bits.getLsbD j = ((s.rm m).getLsbD (32 * (j * n / 32) / n) && f (x (j * n / 32)) (y (j * n / 32)))) ∧
        (if d = 0 then OnlyAdvances s (exec i s)
         else WritesLater s (exec i s) .m d.val (bits.zeroExtend 1024) lat)
    r (.vceq st d a b m) (fun x y => vEq x y) ∧
    r (.vcne st d a b m) (fun x y => !vEq x y) ∧
    r (.vclt st d a b m) (fun x y => vLt x y) ∧
    r (.vcle st d a b m) (fun x y => vLt x y || vEq x y)

/-- R152, R144: reductions in the fixed tree order of R152, the result in element 0 and zeros elsewhere; VDOT4 and VSAD per
lane. What lanes outside the mask keep is the model's reading (log 36). -/
def Obligations.VectorReductions : Prop :=
  ∀ (s : State) (ty ty2 : Nat) (st : Fin 8) (d a b : Fin 64) (m : Fin 8),
    (s.Typed ty → ty ≤ 11 → s.Plain [a, b, d] → s.CanIssue [rdV a, rdV b, rdM m] →
      let w := tyWidth ty
      let n := 1024 / w
      let on (e : Nat) := (s.rm m).getLsbD (32 * e / n)
      let r (i : Instr) (rounds : Bool) (z : Nat) : Prop :=
        ∃ v, HasElems v w (fun e => if e = 0 then z else 0) ∧ WritesV s (exec i s) d v (some 6) rounds
      (ty ≤ 7 →
        let num (v : VReg) (e : Nat) : Int :=
          if tySigned ty then (BitVec.ofNat w (elem v w e)).toInt else (elem v w e : Int)
        let lo : Int := if tySigned ty then -2 ^ (w - 1) else 0
        let hi : Int := if tySigned ty then 2 ^ (w - 1) - 1 else 2 ^ w - 1
        let fold (id : Int) (get : VReg → Nat → Int) (f : Int → Int → Int) : Int :=
          f ((List.range n).foldl (fun acc e => f acc (if on e then get (s.rv a) e else id)) id) (get (s.rv b) 0)
        r (.vrsum st d a b m) false (narrow ty (oSAT s.o0) (fold 0 num (fun x y => x + y))) ∧
        r (.vrmax st d a b m) false (narrow ty false (fold lo num Max.max)) ∧
        r (.vrmin st d a b m) false (narrow ty false (fold hi num Min.min)) ∧
        r (.vramax st d a b m) false (narrow ty false (fold 0 (fun v e => ((num v e).natAbs : Int)) Max.max))) ∧
      (8 ≤ ty →
        let val (v : VReg) (e : Nat) : Val := (fmtOf ty).decode (elem v w e)
        let rd : Rnd := { s.round with sat := false }
        let once (x : Val) : Val := (fmtOf ty).decode ((fmtOf ty).encode rd 0 x)
        let tree (id : Val) (get : VReg → Nat → Val) (f : Val → Val → Val) : Nat :=
          let leaves := (List.range n).map (fun e => if on e then get (s.rv a) e else id)
          (fmtOf ty).encode rd 0 (f ((treeOf f (Nat.log2 n) leaves).headD id) (get (s.rv b) 0))
        (oRND s.o0 ≠ 7 → r (.vrsum st d a b m) true (tree (.fin true 0 0) val (fun x y => once (vAdd s.rnd x y)))) ∧
        r (.vrmax st d a b m) false (tree (.inf true) val vMax) ∧
        r (.vrmin st d a b m) false (tree (.inf false) val vMin) ∧
        r (.vramax st d a b m) false (tree (.fin false 0 0) (fun v e => vAbs (val v e)) vMax))) ∧
    (s.Plain [a, b, d] → s.CanIssue [rdV a, rdV b, rdV d, rdM m] → s.Typed ty →
      let byte (v : VReg) (j k : Nat) : Nat := elem v 8 (4 * j + k)
      let num (t z : Nat) : Int := if t = 0 then (BitVec.ofNat 8 z).toInt else z
      let four (f : Nat → Nat → Int) (j : Nat) : Int :=
        f (byte (s.rv a) j 0) (byte (s.rv b) j 0) + f (byte (s.rv a) j 1) (byte (s.rv b) j 1) +
        f (byte (s.rv a) j 2) (byte (s.rv b) j 2) + f (byte (s.rv a) j 3) (byte (s.rv b) j 3)
      let r (i : Instr) (f : Nat → Nat) : Prop :=
        ∃ v, HasElems v 32 (masked (s.rm m) 32 (s.rv d) f) ∧ WritesV s (exec i s) d v (some 4) false
      (ty ≤ 1 → ty2 ≤ 1 → oVT2 s.o0 = ty2 → s.tyAllowed ty2 = true →
        r (.vdot4 st d a b m) (fun j => narrow 4 (oSAT s.o0)
          ((BitVec.ofNat 32 (elem (s.rv d) 32 j)).toInt + four (fun x y => num ty x * num ty2 y) j))) ∧
      (ty = 1 → r (.vsad st d a b m) (fun j => narrow 5 (oSAT s.o0)
          ((elem (s.rv d) 32 j : Int) + four (fun x y => (((x : Int) - y).natAbs : Int)) j))))

/-- R146, R148: VCVT and VCVTS convert segment q of the narrow side, VCVT clearing and VCVTS keeping what lies outside it; VPACK
writes one block's codes and scale, or one Q4N segment's codes, and keeps every other byte; VUNPK decodes one block or segment
and rounds each value once, without SAT (R139). What elements outside the mask keep is the model's reading (log 36), and so is
the sign of zero in a Q4N code (log 49). -/
def Obligations.VectorConversions : Prop :=
  ∀ (s : State) (t1 t2 : Nat) (st : Fin 8) (d a b : Fin 64) (m : Fin 8),
    s.Typed t1 → oVT2 s.o0 = t2 → s.tyAllowed t2 = true → s.Plain [a, b, d] →
    (cvtPair t1 t2 = true → (cvtRounds t1 t2 = true → oRND s.o0 ≠ 7) →
      let ws := tyWidth t1
      let wt := tyWidth t2
      let n := 1024 / Max.max ws wt
      let conv (q e i : Nat) : Nat :=
        let raw := elem (s.rv a) ws (if ws ≤ wt then q * n + e else e)
        encodeTy t2 s.round i (tyIntAll t1) (decodeTy t1 (if t1 = 14 ∨ t1 = 15 then raw % 64 else raw))
      let out (q : Nat) (old : VReg) (outside : Nat → Nat) (i : Nat) : Nat :=
        let at_ := if wt ≤ ws then q * n else 0
        if at_ ≤ i ∧ i - at_ < n then
          (if (s.rm m).getLsbD (32 * (i - at_) / n) then conv q (i - at_) i else elem old wt i)
        else outside i
      (s.CanIssue [rdV a, rdM m] →
        ∃ v, HasElems v wt (out 0 (s.mergeV d) (fun _ => 0)) ∧
          WritesV s (exec (.vcvt st d a m) s) d v (some 3) (cvtRounds t1 t2)) ∧
      (s.CanIssue [rdV a, rdV b, rdV d, rdM m] →
        let q := elem (s.rv b) 32 0 % (Max.max ws wt / Min.min ws wt)
        ∃ v, HasElems v wt (out q (s.rv d) (elem (s.rv d) wt)) ∧
          WritesV s (exec (.vcvts st d a b m) s) d v (some 3) (cvtRounds t1 t2))) ∧
    (t1 ∈ [8, 9, 10] →
      let w := tyWidth t1
      let src (e : Nat) : Val := (fmtOf t1).decode (elem (s.rv a) w e)
      let bytes (v : VReg) (k : Nat) : Nat := elem v 8 k
      let plain : Rnd := { s.round with sat := false }
      (t2 ∈ [12, 13, 14, 15, 16] → oRND s.o0 ≠ 7 →
        let sz := if t2 = 16 then 16 else if t2 = 14 ∨ t2 = 15 then 24 else 32
        let q := elem (s.rv b) 32 0 % (128 / (sz + 1))
        let blk := mxPack t2 s.round id ((List.range 32).map src)
        (s.CanIssue [rdV a, rdV b, rdV d, rdM 0] →
          ∃ v, (∀ e < 32, v.toNat / 2 ^ (8 * (q * sz) + tyMemBits t2 * e) % 2 ^ tyMemBits t2 =
              (blk.2[e]?).getD 0 % 2 ^ tyMemBits t2) ∧
            bytes v (127 - q) = blk.1 % 256 ∧
            (∀ k < 128, ¬ (q * sz ≤ k ∧ k < q * sz + sz) → k ≠ 127 - q → bytes v k = bytes (s.rv d) k) ∧
            WritesV s (exec (.vpack st d a b) s) d v (some 3) true) ∧
        (s.CanIssue [rdV a, rdV b, rdM 0] →
          ∃ v, HasElems v w (fun e => if e < 32 then
              encodeTy t1 plain e false (mxVal t2
                ((s.rv a).toNat / 2 ^ (8 * (q * sz) + tyMemBits t2 * e) % 2 ^ tyMemBits t2) (bytes (s.rv a) (127 - q)))
              else 0) ∧
            WritesV s (exec (.vunpk st d a b) s) d v (some 3) true)) ∧
      (t2 = 18 →
        let q := elem (s.rv b) 32 2 % 8
        let sc := elem (s.rv b) 32 0
        let sb := elem (s.rv b) 8 (4 + q / 2)
        (s.CanIssue [rdV a, rdV b, rdV d, rdM 0] →
          ∃ v, HasElems v 4 (fun i => if 32 * q ≤ i ∧ i < 32 * q + 32 then q4nCode sc sb (src (i - 32 * q))
              else elem (s.rv d) 4 i) ∧
            WritesV s (exec (.vpack st d a b) s) d v (some 3) false) ∧
        (oRND s.o0 ≠ 7 → s.CanIssue [rdV a, rdV b, rdM 0] →
          ∃ v, HasElems v w (fun e => if e < 32 then
              encodeTy t1 plain e false (q4nVal sc sb (elem (s.rv a) 4 (32 * q + e))) else 0) ∧
            WritesV s (exec (.vunpk st d a b) s) d v (some 3) true)))

/-- R154 to R158: naming a bound read port pops its next group of 128 bytes at A + IDX × STRIDE, which becomes the operand and
the register's contents, and IDX advances; a write port's result is stored there instead. An exhausted port raises STREAM_END
with its number. Of every vector instruction that takes one or two registers, a port named as a, as b or as both is popped once,
and the instruction does with the group what it does with that value in an unbound register. -/
def Obligations.StreamPorts : Prop :=
  ∀ (s s1 : State) (g : Seg) (st : Fin 8) (d a : Fin 64) (p md m : Fin 8),
    s.helper = false → (s.core.mm = true → 36 ≤ d.val ∧ 36 ≤ a.val) → (∀ n : Fin 64, s.portBusy n = false) →
    let port := s.core.sp[p]
    port.bnd = true →
    let reg : Fin 64 := ⟨56 + p.val, by omega⟩
    let addr := addr80 ((capA port.cap : Int) + port.idx.toNat * port.stride.toInt)
    (port.dir = false → s.boundPort d = false → s.CanIssue [rdM 0] →
      (port.cnt.toNat ≤ port.idx.toNat →
        Traps s (exec (.vmov st d reg 0) s) .streamEnd (BitVec.ofNat 80 p.val)) ∧
      (groupSegs reg port .load s = .ok [g] s1 → s1.Quiet g.place 128 4 →
        g.va = addr ∧ ∃ t, exec (.vmov st d reg 0) s = .next t ∧ GoesOn s t ∧
          t.core.sp = s.core.sp.set p { port with idx := port.idx + 1 } ∧
          t.core.v = s.core.v.set reg (ofVBytes (s1.getBytes g.place 128)) ∧
          (⟨.v, d.val, ofVBytes (s1.getBytes g.place 128), s.core.cyc + 2⟩ : FixPend) ∈ t.ctx.fix ∧
          (∀ q, memGet t.mem q = memGet s1.mem q) ∧ (∀ k, t.rc k = s.rc k) ∧ t.ctx.o = s.ctx.o)) ∧
    (let two (x y : Fin 64) : List Instr :=
       [.vadd st d x y m, .vsub st d x y m, .vmul st d x y m, .vmulh st d x y m, .vmin st d x y m, .vmax st d x y m,
        .vsll st d x y m, .vsrl st d x y m, .vsra st d x y m, .vrol st d x y m, .vfma st d x y m, .vfms st d x y m,
        .vdiv st d x y m, .vscl st d x y m, .vand st d x y m, .vor st d x y m, .vxor st d x y m, .vandn st d x y m,
        .vdot4 st d x y m, .vsad st d x y m, .vcvts st d x y m, .vpack st d x y, .vunpk st d x y, .vperm st d x y m,
        .vshuf st d x y m, .vsldu st d x y m, .vsldd st d x y m, .vrsum st d x y m, .vrmax st d x y m, .vrmin st d x y m,
        .vramax st d x y m, .vmrg st d x y m, .vceq st md x y m, .vcne st md x y m, .vclt st md x y m, .vcle st md x y m]
     let one : List Instr := [.vabs st d reg m, .vneg st d reg m, .vsqrt st d reg m, .vexp2 st d reg m, .vlog2 st d reg m,
        .vclz st d reg m, .vpopc st d reg m, .vmov st d reg m, .vcvt st d reg m, .vcmpr st d reg m]
     let x := ofVBytes (s1.getBytes g.place 128)
     let plain : State := { s with core := { s.core with
       sp := s.core.sp.set p { port with bnd := false }, v := s.core.v.set reg x } }
     port.dir = false → s.boundPort d = false → s.boundPort a = false → groupSegs reg port .load s = .ok [g] s1 →
       s1.Quiet g.place 128 4 → s.fixPending (rdV reg) = false → s.varPending (rdV reg) = false →
       ∀ i ∈ two reg a ++ two a reg ++ two reg reg ++ one, ∀ y, exec i plain = .next y → GoesOn plain y →
         ∃ t, exec i s = .next t ∧ GoesOn s t ∧ t.ctx.fix = y.ctx.fix ∧ t.ctx.pend = y.ctx.pend ∧ t.core.v = y.core.v ∧
           t.core.m = y.core.m ∧ t.core.g = y.core.g ∧ t.core.srctr = y.core.srctr ∧
           t.core.sp = s.core.sp.set p { port with idx := port.idx + 1 } ∧
           (∀ q, memGet t.mem q = memGet s1.mem q) ∧ (∀ k, t.rc k = s.rc k) ∧ t.ctx.o = s.ctx.o) ∧
    (port.dir = true → s.boundPort a = false → Memory.wf s.mem = true → s.CanIssue [rdV a, rdM 0] →
      groupSegs reg port .store s = .ok [g] s1 → s1.Quiet g.place 128 4 →
        g.va = addr ∧ ∃ t, exec (.vmov st reg a 0) s = .next t ∧ GoesOn s t ∧
          t.core.sp = s.core.sp.set p { port with idx := port.idx + 1 } ∧
          t.core.v = s.core.v.set reg (s.rv a) ∧ t.getBytes g.place 128 = vBytes (s.rv a) ∧
          (∀ q, ¬ within g.place 128 q → ¬ inEntry g q → memGet t.mem q = memGet s1.mem q) ∧
          (∀ k, t.rc k = s.rc k) ∧ t.ctx.o = s.ctx.o)

/-! ### Vector memory -/

/-- R265, R266: VLD and VST move an image, or its governed lanes; VLDS and VSTS take element e at A + e × C[b], VLDX and VSTX at
A + the signed lane e of V[b]. A load keeps what the mask does not govern; a store writes, of each element, its bytes where no
later element lies, and nothing outside the elements. What the mask leaves is what pending writes will have put there (log 36),
and a masked load waits for one of variable latency (log 20); that the single accesses of one access may be parted by other
threads is the cut of log 5, and here there is none. -/
def Obligations.VectorLoadsAndStores : Prop :=
  ∀ (s s1 : State) (ty : Nat) (gs : List (Nat × List Seg)) (st : Fin 8) (d vb : Fin 64) (a b : Fin 32),
    Memory.wf s.mem = true → s.split = none → s.ctx.performed.1 = 0 →
    let base : Int := capA (s.rc a)
    let w := tyWidth ty
    let msk : Fin 8 := ⟨oVMSK s.o0 % 8, by omega⟩
    let gov : List Nat := (List.range (1024 / w)).filter (fun e => (s.rm msk).getLsbD (32 * e / (1024 / w)))
    let lanes : List Nat := (List.range 32).filter (fun j => (s.rm msk).getLsbD (if w = 64 then j / 2 * 2 else j))
    let reads := [rdM 0, rdC a, rdM msk]
    let load (i : Instr) (n align : Nat) (xs : List VElem) : Prop :=
      accessMany (s.rc a) [pL] xs n align .load s = .ok gs s1 → s1.QuietAll (allSegs gs) (Min.min n 4) →
      (msk ≠ 0 → s.varPending (rdV d) = false) →
      ∃ t v, exec i s = .next t ∧ GoesOn s t ∧ OnlyVector s t ∧ t.core.v = s.core.v.set d v ∧ t.core.g = s.core.g ∧
        t.core.sp = s.core.sp ∧ (∀ p, memGet t.mem p = memGet s1.mem p) ∧ gs.map (·.1) = xs.map (·.e) ∧
        (∀ p ∈ gs, elem v (8 * n) p.1 = leNat (segRead s1 p.2)) ∧
        (∀ e < 1024 / (8 * n), e ∉ xs.map (·.e) → elem v (8 * n) e = elem (s.mergeV d) (8 * n) e)
    let store (i : Instr) (n align : Nat) (xs : List VElem) : Prop :=
      accessMany (s.rc a) [pS] xs n align .store s = .ok gs s1 → s1.QuietAll (allSegs gs) (Min.min n 4) →
      (∀ p, inSegs (allSegs gs) p → ¬ inEntries (allSegs gs) p) →
      ∃ t, exec i s = .next t ∧ GoesOn s t ∧ OnlyCaches s t ∧ (∀ k, t.rc k = s.rc k) ∧ gs.map (·.1) = xs.map (·.e) ∧
        (∀ (before after : List (Nat × List Seg)) (e : Nat) (g : Seg), gs = before ++ (e, [g]) :: after →
          (∀ p, within g.place g.len p → ¬ inSegs (allSegs after) p) →
          t.getBytes g.place n = leBytes n (elem (s.rv d) (8 * n) e)) ∧
        ∀ p, ¬ inSegs (allSegs gs) p → ¬ inEntries (allSegs gs) p → memGet t.mem p = memGet s1.mem p
    let each (f : Nat → Int) (es : List Nat) : List VElem := es.map (fun e => ⟨e, f e⟩)
    let img (f : Nat → Nat → List VElem → Prop) : Prop :=
      (o0ok s.o0 = true → oVMSK s.o0 = 0 → f 128 4 [⟨0, base⟩]) ∧
      (s.Typed ty → ty < 23 → w ≠ 0 → oVMSK s.o0 ≠ 0 → f 4 4 (each (fun j => base + 4 * j) lanes))
    let stride := (s.rx b).toInt
    let idx (e : Nat) : Int := (BitVec.ofNat 32 (elem (s.rv vb) 32 e)).toInt
    (s.Plain [d] →
      (s.CanIssue reads → img (load (.vld st d a))) ∧
      (s.CanIssue (rdV d :: reads) → img (store (.vst st d a))) ∧
      (s.Typed ty → ty < 23 → 8 ≤ w →
        (s.CanIssue (rdC b :: reads) →
          load (.vlds st d a b) (w / 8) (w / 8) (each (fun e => base + e * stride) gov)) ∧
        (s.CanIssue (rdC b :: rdV d :: reads) →
          store (.vsts st d a b) (w / 8) (w / 8) (each (fun e => base + e * stride) gov)))) ∧
    (s.Plain [vb, d] → s.Typed ty → ty < 23 → 32 ≤ w →
      (s.CanIssue (rdV vb :: reads) → load (.vldx st d a vb) (w / 8) (w / 8) (each (fun e => base + idx e) gov)) ∧
      (s.CanIssue (rdV vb :: rdV d :: reads) →
        store (.vstx st d a vb) (w / 8) (w / 8) (each (fun e => base + idx e) gov)))

/-- R267 to R273: VLDB loads packed blocks or a Q4N superblock; VLDT and VSTT move a tile's row and scale byte through its
header, or nothing under a false guard; THDR writes a header; TPRED sets guards from a bit mask; TVCLR and TVSET edit the row
masks of headers in memory. -/
def Obligations.BlocksAndTiles : Prop :=
  ∀ (s s1 s2 : State) (st : Fin 8) (d : Fin 64) (gd : Fin 16) (a b : Fin 32) (h : Hdr) (gs sc : List Seg) (g : Seg)
    (rows : List (Nat × List Seg)), Memory.wf s.mem = true → s.helper = false →
    let ca := s.rc a
    let cb := s.rc b
    let loaded (i : Instr) (u : State) (v : VReg) : Prop :=
      ∃ t, exec i s = .next t ∧ GoesOn s t ∧ OnlyVector s t ∧ t.core.v = s.core.v.set d v ∧ t.core.g = s.core.g ∧
        t.core.sp = s.core.sp ∧ ∀ p, memGet t.mem p = memGet u.mem p
    let vt2 := oVT2 s.o0
    let nb := fld (s.ro 2) 0 3
    (s.Plain [d] → o0ok s.o0 = true → s.tyAllowed vt2 = true → fld (s.ro 2) 4 60 = 0 → s.CanIssue [rdM 0, rdC a, rdC b] →
      (vt2 ∈ [12, 13, 14, 15, 16] → 1 ≤ nb → nb ≤ mxBmax vt2 →
        access ca [pL] (capA ca) (nb * mxSz vt2) 1 .load s = .ok gs s1 →
        access cb [pL] (capA cb) nb 1 .load s1 = .ok sc s2 → s2.QuietAll gs 4 → s2.QuietAll sc 1 →
        loaded (.vldb st d a b) s2 (mxImage (segRead s2 gs) (segRead s2 sc))) ∧
      (vt2 = 18 → b = 0 → access ca [pL] (capA ca) 136 1 .load s = .ok gs s1 → s1.QuietAll gs 4 →
        loaded (.vldb st d a b) s1 (BitVec.ofNat 1024 (leNat
          (if (s.ro 2).getLsbD 3 then (segRead s1 gs).take 8 else (segRead s1 gs).drop 8))))) ∧
    (let grd : Fin 16 := ⟨oGRD s.o1 % 16, by omega⟩
     let row := (s.rx b).toNat
     o1ok s.o1 = true → s.Plain [d] →
      (s.rg grd = false →
        (s.CanIssue [rdM 0, rdC a, rdC b, rdG grd] → OnlyAdvances s (exec (.vldt st d a b) s)) ∧
        (s.CanIssue [rdV d, rdM 0, rdC a, rdC b, rdG grd] → OnlyAdvances s (exec (.vstt st d a b) s))) ∧
      (s.rg grd = true → row < 32 → readHdr ca s = .ok h s1 → h.bad true = false →
        (s.CanIssue [rdM 0, rdC a, rdC b, rdG grd] →
          (h.rowv.testBit row = false → loaded (.vldt st d a b) s1 0) ∧
          (h.rowv.testBit row = true → tileAccess h row pL .load s1 = .ok (gs, sc) s2 →
            s2.QuietAll gs 4 → s2.QuietAll sc 1 →
            loaded (.vldt st d a b) s2
              (BitVec.ofNat 1024 (leNat (segRead s2 gs) + leNat (segRead s2 sc) * 2 ^ (8 * 127))))) ∧
        (s.CanIssue [rdV d, rdM 0, rdC a, rdC b, rdG grd] →
          (h.rowv.testBit row = false → ∃ t, exec (.vstt st d a b) s = .next t ∧ GoesOn s t ∧ OnlyCaches s t ∧
            (∀ k, t.rc k = s.rc k) ∧ ∀ p, memGet t.mem p = memGet s1.mem p) ∧
          (h.rowv.testBit row = true → tileAccess h row pS .store s1 = .ok ([g], sc) s2 → s2.QuietAll [g] 4 →
            s2.QuietAll sc 1 → (∀ p, within g.place g.len p → ¬ inSegs sc p ∧ ¬ inEntries sc p) →
            ∃ t, exec (.vstt st d a b) s = .next t ∧ GoesOn s t ∧ OnlyCaches s t ∧ (∀ k, t.rc k = s.rc k) ∧
              t.getBytes g.place (rowBytes h.fmt) = (vBytes (s.rv d)).take (rowBytes h.fmt) ∧
              (∀ x, sc = [x] → t.getBytes x.place 1 = (vBytes (s.rv d)).drop 127) ∧
              ∀ p, ¬ inSegs (g :: sc) p → ¬ inEntries (g :: sc) p → memGet t.mem p = memGet s2.mem p)))) ∧
    (s.thdrBad = false → s.CanIssue [rdC a, rdC b] →
      capNeed ca (if cb.tag then [pS, pSC] else [pS]) (capA ca) 32 32 s = .ok () s →
      segsOf (s.who ca) .store (pieces (capA ca) 32) s = .ok [g] s1 → (cb.tag = true → g.host = false) →
      watchNeed .store (capA ca) 32 s1 = .ok () s1 → s1.Quiet g.place 32 16 → g.place % 32 = 0 →
      ∃ t, exec (.thdr st a b) s = .next t ∧ GoesOn s t ∧ OnlyCaches s t ∧ (∀ k, t.rc k = s.rc k) ∧
        t.getBytes g.place 16 = leBytes 16 cb.bits.toNat ∧
        t.getNat (g.place + 16) 4 = fld (s.ro 2) 0 32 ∧ t.getNat (g.place + 20) 1 = oVT s.o0 ∧
        t.getNat (g.place + 21) 1 = fld (s.ro 3) 24 2 ∧ t.getNat (g.place + 24) 3 = fld (s.ro 3) 0 24 ∧
        t.getNat (g.place + 28) 4 = fld (s.ro 3) 32 32 ∧ tagGet t.tags (g.place / 16) = cb.tag ∧
        tagGet t.tags (g.place / 16 + 1) = false ∧
        ∀ p, ¬ within g.place 32 p → ¬ inEntry g p → memGet t.mem p = memGet s1.mem p) ∧
    (let v := s.rx b
     let n := fld v 48 4
     s.CanIssue [rdC a, rdC b] → 1 ≤ n → gd.val + n ≤ 16 → fld v 52 12 = 0 →
      accessMany ca [pL] ((List.range 32).map (fun y =>
        ⟨y, (capA ca : Int) + ((32 * fld v 0 16 + y) * fld v 32 16 + 4 * fld v 16 16 : Nat)⟩)) (4 * n) 4 .load s = .ok rows s1 →
      s1.QuietAll (allSegs rows) 4 →
      ∃ t, exec (.tpred st gd a b) s = .next t ∧ GoesOn s t ∧ OnlyVector s t ∧ t.core.v = s.core.v ∧ t.core.sp = s.core.sp ∧
        (∀ k < n, ∀ q : Fin 16, q.val = gd.val + k → q ≠ 0 →
          t.rg q = rows.any (fun p => leNat (segRead s1 p.2) / 2 ^ (32 * k) % 2 ^ 32 ≠ 0)) ∧
        (∀ q : Fin 16, (q.val < gd.val ∨ gd.val + n ≤ q.val) → t.rg q = s.rg q) ∧
        ∀ p, memGet t.mem p = memGet s1.mem p) ∧
    (let n := fld (s.ro 2) 0 11
     let edit (i : Instr) (f : Nat → Nat → Nat) : Prop :=
      ∃ t, exec i s = .next t ∧ GoesOn s t ∧ OnlyCaches s t ∧ (∀ k, t.rc k = s.rc k) ∧
        (∀ k < n, t.getNat (g.place + 32 * k + 16) 4 =
          f (s2.getNat (g.place + 32 * k + 16) 4) (leNat ((segRead s2 sc).drop (4 * k) |>.take 4))) ∧
        ∀ p, (∀ k < n, ¬ within (g.place + 32 * k + 16) 4 p) → ¬ inEntry g p → memGet t.mem p = memGet s2.mem p
     fld (s.ro 2) 11 53 = 0 → 1 ≤ n → n ≤ 1024 → s.CanIssue [rdC a, rdC b] →
      access ca [pL, pS, pA] (capA ca) (32 * n) 32 .atomic s = .ok [g] s1 →
      access cb [pL] (capA cb) (4 * n) 4 .load s1 = .ok sc s2 → (∀ p, within g.place g.len p → ¬ inEntry g p) →
      (∀ k < n, s2.Quiet (g.place + 32 * k + 16) 4 4) → s2.QuietAll sc 4 →
      edit (.tvclr st a b) (fun old m => old &&& (2 ^ 32 - 1 - m)) ∧ edit (.tvset st a b) (fun old m => old ||| m))

/-- R155, R156, R274, R276: SBIND binds a port whose whole range passes its checks, or with the first failing check leaves it
unbound and traps; SUNBIND unbinds, and does nothing of an unbound port. GATH and SCAT check the tile header and every element,
open a copy-unit job that samples the header, the indices and (for SCAT) the register, and write its identifier; GATH's register
waits for the job. GATHST writes half of a finished job's arrival mask, or 0 for an identifier that names no gather. -/
def Obligations.PortsAndGathers : Prop :=
  ∀ (s s1 : State) (st : Fin 8) (p : Fin 8) (a b d : Fin 32) (vb : Fin 64) (h : Hdr) (j : JobRec) (cp : Copy),
    s.helper = false →
    let c := s.rc a
    let cnt := fld (s.rx b) 0 32
    let stride := (s.ro 2).toInt
    let wr := (s.ro 3).getLsbD 0
    let span : Int := ((cnt : Int) - 1) * stride
    let lo : Int := (capA c : Int) + Min.min 0 span
    let hi : Int := (capA c : Int) + Max.max 0 span + 128
    let port (q : Port) (t : State) : Prop :=
      Advanced s t ∧ t.core = { s.core with ctxs := t.core.ctxs, evc := t.core.evc, sp := s.core.sp.set p q } ∧
        t = { s with core := t.core } ∧ (∀ k, t.rc k = s.rc k) ∧ t.ctx.o = s.ctx.o
    let off : Port := { s.core.sp[p] with bnd := false }
    let perm := capHas c (if wr then pS else pL)
    let inside : Prop := capBase c ≤ lo ∧ hi ≤ capTop c
    let even : Prop := capA c % 4 = 0 ∧ stride % 4 = 0
    let fails (x : Cause) : Prop := exec (.sbind st p a b) s = .next ((s.unbind p).trapHere ⟨x, tvalOf (capA c)⟩)
    ((s.portQuiet p = true ∨ s.core.sp[p].bnd = false) → s.CanIssue [] →
      ∃ t, exec (.sunbind st p) s = .next t ∧ port off t) ∧
    (s.portQuiet p = true →
      (fld (s.ro 3) 1 63 = 0 → s.CanIssue [rdC a, rdC b] →
        ((cnt = 0 ∨ (capValid c = true ∧ perm = true ∧ inside ∧ even)) →
          ∃ t, exec (.sbind st p a b) s = .next t ∧
            port { bnd := true, dir := wr, cap := c, stride := s.ro 2, cnt := BitVec.ofNat 32 cnt, idx := 0 } t) ∧
        (cnt ≠ 0 → (capValid c = false → fails .capTag) ∧ (capValid c = true → perm = false → fails .capPerm) ∧
          (capValid c = true → perm = true → ¬ inside → fails .capBounds) ∧
          (capValid c = true → perm = true → inside → ¬ even → fails .align)))) ∧
    (let vr : Fin 64 := ⟨fld (s.ro 2) 0 6 % 64, by omega⟩
     let n := fld (s.ro 2) 7 8
     let iw := (s.ro 2).getLsbD 6
     let es := gathEs h.fmt
     let idxs := (List.range n).map (fun e => elem (s.rv vb) (if iw then 16 else 8) e)
     let job (gath : Bool) (i : Instr) : Prop :=
      s.Plain [vb, vr] → fld (s.ro 2) 15 49 = 0 → 1 ≤ n → n ≤ (if iw then 64 else 128) →
      (gath = true → s.fixPending (rdV vr) = false ∧ s.varPending (rdV vr) = false) →
      s.CanIssue [rdV vb, rdV vr, rdM 0, rdC a] → s.core.inFlight clsCopy < 256 →
      readHdr c s = .ok h s1 → h.bad false = false → es ≠ 0 → n * es ≤ 128 → capA h.base / 2 ^ 64 ≠ 0xFFFF →
      capValid h.base = true → capHasAll h.base ((if gath then [pL] else [pS]) ++ (if h.rem then [pM] else [])) = true →
      (∀ k ∈ idxs, capBase h.base ≤ capA h.base + k * es ∧ (capA h.base + k * es + es : Int) ≤ capTop h.base) →
      capA h.base % es = 0 →
      ∃ t jr, exec i s = .next t ∧ GoesOn s t ∧ t.core.jobs = s.core.jobs ++ [jr] ∧
        jr.cls = clsCopy ∧ jr.status = stPENDING ∧ jr.ctx = 0 ∧
        jr.cp = some { kind := (if gath then .gath else .scat), dst := h.base, src := h.base, cnt := n, es := es,
                       idxs := idxs, vreg := vr.val, rem := h.rem, peer := h.peid, data := s.rv vr, y := s.pccY } ∧
        WroteC s t d (scalar jr.word) ∧ (gath = true → t.varPending (rdV vr) = true) ∧ t.core.v = s.core.v ∧
        ∀ q, memGet t.mem q = memGet s1.mem q
     job true (.gath st d a vb) ∧ job false (.scat st d a vb)) ∧
    (s.CanIssue [rdC a, rdC b] → (s.rx b).toNat ≤ 1 →
      (s.core.jobOf (s.rx a) = none → WritesC s (exec (.gathst st d a b) s) d (scalar 0)) ∧
      (s.core.jobOf (s.rx a) = some j → j.cp = some cp → (cp.kind = .gath ∨ cp.kind = .scat) → j.status ≠ stPENDING →
        WritesC s (exec (.gathst st d a b) s) d
          (scalar (BitVec.ofNat 64 (j.arrive.toNat / 2 ^ (64 * (s.rx b).toNat))))))

/-- R161 to R168: the Trestle instructions. VSORT, VTOPK, VSORTX and VRANK follow the one stable order of R161, given here as
the permutation of the lanes that is ascending in it; VMERGEK applies the merge network and VBSTEP one stage of a bitonic sort.
Under KORD 0 a NaN key sets OSTAT.NANS. -/
def Obligations.TrestleOrders : Prop :=
  ∀ (s : State) (ty : Nat) (st : Fin 8) (d a b : Fin 64), ty ∈ [4, 5, 10] → s.Typed ty →
    let o := s.ro 3
    let kord := fld o 0 2
    let idx := o.getLsbD 2
    let half := fld o 4 1
    let k := fld o 5 6
    let sd := fld o 11 3
    let sb := fld o 14 3
    let bef (x y : TElem) : Bool := before kord ty (o.getLsbD 3) x y
    let l (n : Fin 64) (j : Nat) : Nat := elem (s.rv n) 32 j
    let sorted (xs ys : List TElem) : Prop := ys.Perm xs ∧ ys.Pairwise (fun x y => bef x y = true)
    let nth (ys : List TElem) (i : Nat) : TElem := (ys[i]?).getD { }
    let nans (ns : List (Fin 64)) : Bool :=
      s.core.oc.nans || (kord == 0 && ns.any (fun n => (List.range 32).any (fun j => ty == 10 && decide (0x7F800000 < l n j % 2 ^ 31))))
    let frame (t : State) (ns : List (Fin 64)) : Prop :=
      Advanced s t ∧ t.core = { s.core with ctxs := t.core.ctxs, evc := t.core.evc, v := t.core.v,
                                            oc := { s.core.oc with nans := nans ns } } ∧
        t = { s with core := t.core } ∧ (∀ c, t.rc c = s.rc c) ∧ t.ctx.o = s.ctx.o
    let one (i : Instr) (ns : List (Fin 64)) (f : Nat → Nat) : Prop :=
      ∃ t v, exec i s = .next t ∧ frame t ns ∧ t.core.v = s.core.v.set d v ∧ HasElems v 32 f
    let two (i : Instr) (ns : List (Fin 64)) (f g : Nat → Nat) : Prop :=
      ∃ t v w, exec i s = .next t ∧ frame t ns ∧ t.core.v = (s.core.v.set d v).set (d + 1 : Fin 64) w ∧ HasElems v 32 f ∧ HasElems w 32 g
    let pays (n : Fin 64) : Fin 64 := if idx then n + 1 else n
    let lanes (n : Fin 64) (p : Nat) : List TElem := (List.range 32).map (fun j => ⟨l n j, l (pays n) j, p + j⟩)
    let xs := lanes a 0 ++ lanes b 32
    fld o 17 47 = 0 → kord ≠ 3 →
    (idx = false → s.Plain [a, b, d] → s.CanIssue [rdV a, rdV b, rdM 0] →
      (∃ ys, sorted ((List.range 32).map (fun j => ⟨l a j, l b j, j⟩)) ys ∧
        one (.vsort st d a b) [a] (fun i => (nth ys i).pay) ∧
        (1 ≤ k → k ≤ 32 → one (.vtopk st d a b) [a] (fun i => if i < k then (nth ys i).pay else 0))) ∧
      (∃ ys, sorted xs ys ∧ one (.vsortx st d a b) [a, b] (fun i => (nth ys (32 * half + i)).key)) ∧
      (1 ≤ k → k ≤ 32 → one (.vmergek st d a b) [a, b] (fun i =>
        if i < k then (nth ([32, 16, 8, 4, 2, 1].foldl (mergeStage bef) (xs.take 32 ++ (xs.drop 32).reverse))
          (32 * half + i)).key else 0)) ∧
      (sd ≤ 4 → sb ≤ 5 → sd < sb → one (.vbstep st d a b) [a] (fun i =>
        let p := i ^^^ 2 ^ sd
        let lo := Min.min i p
        let hi := Max.max i p
        let up := lo / 2 ^ sb % 2 = 0
        let sw := if up then strictKey kord ty (l a hi) (l a lo) else strictKey kord ty (l a lo) (l a hi)
        if sw then l b p else l b i))) ∧
    (idx = false → s.Plain [a, d] → s.CanIssue [rdV a, rdM 0] →
      one (.vrank st d a) [a] (fun j => (lanes a 0).countP (fun x => bef x (nth (lanes a 0) j)))) ∧
    (idx = true → d ≠ 63 → a ≠ 63 → b ≠ 63 → s.Plain [a, b, d, a + 1, b + 1, d + 1] →
      s.CanIssue [rdV a, rdV b, rdM 0, rdV (a + 1), rdV (b + 1)] →
      (∃ ys, sorted xs ys ∧ two (.vsortx st d a b) [a, b] (fun i => (nth ys (32 * half + i)).key)
        (fun i => (nth ys (32 * half + i)).pay)) ∧
      (1 ≤ k → k ≤ 32 →
        let ys := [32, 16, 8, 4, 2, 1].foldl (mergeStage bef) (xs.take 32 ++ (xs.drop 32).reverse)
        two (.vmergek st d a b) [a, b] (fun i => if i < k then (nth ys (32 * half + i)).key else 0)
          (fun i => if i < k then (nth ys (32 * half + i)).pay else 0)) ∧
      (∃ ys, sorted (lanes a 0) ys ∧ two (.vrank st d a) [a]
        (fun j => (lanes a 0).countP (fun x => bef x (nth (lanes a 0) j))) (fun i => (nth ys i).pay)))

/-! ### Order codes -/

/-- R170 to R173, R28 to R31: the words that OCEMIT and OCEMITI send on their channel. OCEMIT sends one event for each element
that is neither zero nor NaN, larger magnitudes first and lower channels first among equals, at most CUT of them; OCEMITI sends
the keys in the order given, up to the first zero or NaN, on the channels given; the end marker 0xFFFF follows unless MORE is
set. An event word is the channel with the sign in bit 15. The words leave in messages of at most 120, in order: slots for all
of them are asked for at once, and once they are granted each message goes to the peer into its slot (their bits in packets are
log 14's); with no word none goes. A refused request, more messages than the channel has slots, a handle that is no open send
end of a declared channel and a channel above 0x7FFE raise CHANNEL; the order of these checks is log 48's. A NaN met sets
OSTAT.NANS. -/
def Obligations.OrderCodeEmission : Prop :=
  ∀ (s : State) (ty k tag : Nat) (st : Fin 8) (d : Fin 32) (a b : Fin 64) (ws slots : List Nat),
    let o := s.ro 2
    let h := s.rx d
    let id := fld h 0 16
    let peer := fld h 16 24
    let base := fld o 0 15
    let cutLen := fld o 16 16
    let more := o.getLsbD 32
    let mark := if more then [] else [0xFFFF]
    let open_ : Prop := fld h 42 22 = 0 ∧ h.getLsbD 41 = true ∧ h.getLsbD 40 = true ∧ fld h 16 10 < 256
    let event (v : Val) (ch : Nat) : Nat := ch + (if vSign v then 32768 else 0)
    let live (v : Val) : Bool := v != .nan && !vZero v
    let ms := emitMsgs (ws.length + 1) ws
    let s0 : State := { s with core := { s.core with held := s.core.held.filter (fun x => x.tag != tag) } }
    let sent := (ms.zip slots).foldl (fun s x => s.sendMsg peer id tag x.2 x.1) s0
    let chan (i : Instr) : Prop := Traps s (exec i s) .channel (tvalOf id)
    let sends (i : Instr) (nan : Bool) : Prop :=
      (k < ms.length → chan i) ∧
      (ms = [] → exec i s = s.retire st.val (s.nanMet nan)) ∧
      (ms ≠ [] → ms.length ≤ k →
        ((∀ t, s.ctx.wait ≠ .slots t) → peer / 4096 = s.pkgNo →
          ∃ t, exec i s = .next t ∧ t.ctx.pcc = s.ctx.pcc ∧ t.ctx.blocked = true ∧ t.ctx.wait = .slots (s.newTag 0) ∧
            t.net = s.net ++ [{ kind := 6, deid := peer, seid := s.myEid, asid := s.asid, otag := s.newTag 0,
                                arg0 := BitVec.ofNat 64 (id + ms.length * 65536) }] ∧ t.core.ops = s.core.ops) ∧
        (s.ctx.wait = .slots tag →
          (s.core.held.find? (fun x => x.tag == tag) = none → exec i s = .next s.block) ∧
          (s.core.held.find? (fun x => x.tag == tag) = some ⟨tag, peer, id, []⟩ →
            exec i s = .next (s0.trapHere ⟨.channel, tvalOf id⟩)) ∧
          (s.core.held.find? (fun x => x.tag == tag) = some ⟨tag, peer, id, slots⟩ → slots.length = ms.length →
            exec i s = s.retire st.val (sent.nanMet nan) ∧
            (∃ xs, sent.core.ops = s.core.ops ++ xs ∧ xs.map (fun x => x.pkt.data) = ms ∧
              xs.map (fun x => x.pkt.arg0) = slots.map (fun i => BitVec.ofNat 64 (2 ^ 63 + i)) ∧
              ∀ x ∈ xs, x.pkt.kind = 1 ∧ x.pkt.handler = 9 ∧ x.pkt.deid = peer ∧ x.pkt.seid = s.myEid ∧
                x.pkt.arg1 = BitVec.ofNat 64 (id + tag * 65536)) ∧
            sent.core.v = s.core.v ∧ ∀ q, memGet sent.mem q = memGet s.mem q)))
    o.getLsbD 15 = false → fld o 33 31 = 0 → s.Typed ty →
    ((∀ e ∈ ms, e.length ≤ 240) ∧ ms.flatten = ws.flatMap (leBytes 2)) ∧
    (ty ≤ 5 ∨ (8 ≤ ty ∧ ty ≤ 10) → s.Plain [a] → s.CanIssue [rdV a, rdM 0, rdC d] →
      let i := Instr.ocemit st d a
      let n := 1024 / tyWidth ty
      let val (e : Nat) : Val := decodeTy ty (elem (s.rv a) (tyWidth ty) e)
      let ahead (x y : Nat) : Prop :=
        vCmp (vAbs (val x)) (vAbs (val y)) = .gt ∨ (vCmp (vAbs (val x)) (vAbs (val y)) = .eq ∧ x < y)
      (¬ (open_ ∧ (s.chanK s.asid id).isSome = true) ∨ 0x7FFE < base + n - 1 → chan i) ∧
      (open_ → s.chanK s.asid id = some k → base + n - 1 ≤ 0x7FFE →
        ∀ es : List Nat, es.Perm ((List.range n).filter (fun e => live (val e))) → es.Pairwise ahead →
          ws = (if cutLen = 0 then es else es.take cutLen).map (fun e => event (val e) (base + e)) ++ mark →
          sends i ((List.range n).any (fun e => val e == .nan)))) ∧
    (ty ∈ [4, 5, 10] → s.Plain [a, b] → s.CanIssue [rdV a, rdV b, rdM 0, rdC d] →
      let i := Instr.ocemiti st d a b
      let val (e : Nat) : Val := decodeTy ty (elem (s.rv a) 32 e)
      let ch (e : Nat) : Nat := elem (s.rv b) 32 e
      let lim := if cutLen = 0 then 32 else Min.min cutLen 32
      let taken := (List.range lim).takeWhile (fun e => live (val e))
      (¬ (open_ ∧ (s.chanK s.asid id).isSome = true) ∨ (∃ e ∈ taken, 0x7FFE < base + ch e) → chan i) ∧
      (open_ → s.chanK s.asid id = some k → (∀ e ∈ taken, base + ch e ≤ 0x7FFE) →
        ws = taken.map (fun e => event (val e) (base + ch e)) ++ mark →
        sends i (decide (taken.length < lim) && (val taken.length == .nan))))

/-- R32 to R38, R174 to R180, R43: OCCFG samples the receiver's parameters once every channel is open and its tables lie
readable in the scratchpad, and resets the run of a receiver that was configured; OCSTAT reads status, rank, largest weight, the
sum of the remaining F and the ended producers; OCRST resets a run. OCACC does nothing once a run has ended, ends it when every
producer has ended, waits where no event has arrived, and retires after 64 arrivals or when the stop test passes. One arrival,
of rank k = round × P + slot, adds to each active lane the signed product of weight W[ch] and F[k], clamped to 32 bits, appends
rank and event word to the log, and enters the channel in the presence map; a reserved word, a channel of NC or above and one
already present raise CHANNEL. The gradient instructions count the first NARR log entries in turn: OCGA clears its table and
then puts pol × F[K] × Σ, OCGW adds pol × F[K] × δ to row and lane, OCGF adds pol × Σ, where Σ, the products with F[K] and the
sums are each rounded once to FP32 by RNE; they complete where no error, no watchpoint and no held line stands in the way. -/
def Obligations.OrderCodeReceiver : Prop :=
  ∀ (s s1 s2 s3 s4 s5 : State) (st : Fin 8) (d a b : Fin 32) (v vb : Fin 64) (h : Nat) (gw gf gl g : List Seg) (y : Seg) (fin : Bool)
    (act : BitVec 32) (x : VReg) (neg : Bool) (row old bs : List Byte) (f w rest : Nat) (e : Word) (es : List Word),
    let r := s.core.oc
    (s.helper = false →
      (let o2 := s.ro 2
       let o3 := s.ro 3
       let p := fld o2 32 6
       let nc := fld o3 32 15
       let nf := fld o3 48 11
       let ch0 := fld (s.ro 4) 0 16
       s.occfgBad = false → s.CanIssue [rdC d, rdC a, rdC b] →
        (∀ i < p, (s.chanK s.asid (ch0 + i)).isSome = true ∧ (s.core.endOf (ch0 + i)).isSome = true) →
        access (s.rc a) [pL] (capA (s.rc a)) (32 * nc) 1 .load s = .ok gw s1 →
        (if nf = 0 then gf = [] ∧ s2 = s1 else extentNeed (s.rc b) [pL] nf .load s1 = .ok gf s2) →
        extentNeed (s.rc d) [pL, pS] (8 * nc) .store s2 = .ok gl s3 →
        s3.outOfPad gw = none → s3.outOfPad gf = none → s3.outOfPad gl = none → s3.QuietAll gw 1 →
        ∃ t, exec (.occfg st d a b) s = .next t ∧ GoesOn s t ∧ (∀ k, t.rc k = s.rc k) ∧ t.core.v = s.core.v ∧
          t.core.oc.act = o2.truncate 32 ∧ t.core.oc.p = p ∧ t.core.oc.mode = fld o2 38 2 ∧ t.core.oc.mrg = fld o3 0 31 ∧
          t.core.oc.nc = nc ∧ t.core.oc.nf = nf ∧ t.core.oc.ch0 = ch0 ∧ t.core.oc.cfg = true ∧ t.core.oc.st = 0 ∧
          t.core.oc.wcap = s.rc a ∧ t.core.oc.fcap = s.rc b ∧ t.core.oc.lcap = s.rc d ∧
          t.core.oc.wmax = wMax (o2.truncate 32) (segRead s3 gw) ∧ (∀ q, memGet t.mem q = memGet s3.mem q) ∧
          (r.cfg = true → t.core.oc.orank = 0 ∧ t.core.oc.win = 0 ∧ t.core.oc.lastk = 0xFFFFFF ∧ t.core.oc.eng = false ∧
            t.core.oc.round = 0 ∧ t.core.oc.slot = 0 ∧ t.core.oc.ended = [])) ∧
      (s.CanIssue [] →
        let from_ := if r.lastk = 0xFFFFFF then 0 else r.lastk + 1
        let reads (i : Nat) (x : Nat) : Prop := WritesC s (exec (.ocstat st d i) s) d (scalar (BitVec.ofNat 64 x))
        reads 0 (r.st % 4 + 4 * b2n r.cfg + 8 * b2n r.nans + 16 * b2n r.satf + 32 * (r.win % 32) + 1024 * b2n r.eng +
          2 ^ 32 * (r.lastk % 2 ^ 24)) ∧
        reads 1 (r.orank % 65536) ∧ reads 2 (if r.cfg then r.wmax else 0) ∧
        reads 4 (if r.cfg then (r.ended.map (2 ^ ·)).sum else 0) ∧
        (r.cfg = false ∨ r.nf ≤ from_ → reads 3 0) ∧
        (r.cfg = true → from_ < r.nf → padSegs (capA r.fcap + from_) (r.nf - from_) .load s = .ok gf s1 → s1.QuietAll gf 1 →
          ∃ t, exec (.ocstat st d 3) s = .next t ∧ GoesOn s t ∧
            WroteC s t d (scalar (BitVec.ofNat 64 ((segRead s1 gf).map (fun b => b.toNat)).sum)) ∧ t.core.v = s.core.v ∧
            t.core.oc = r ∧ ∀ q, memGet t.mem q = memGet s.mem q) ∧
        (4 < h → Traps s (exec (.ocstat st d h) s) .illegal (s.ctx.ir.zeroExtend 80))) ∧
      (s.CanIssue [] →
        let fresh : Receiver := { r with orank := 0, st := 0, win := 0, lastk := 0xFFFFFF, eng := false, present := [],
                                         round := 0, slot := 0, ended := [] }
        (r.cfg = false → OnlyAdvances s (exec (.ocrst st) s)) ∧
        (r.cfg = true → ∃ t, exec (.ocrst st) s = .next t ∧ GoesOn s t ∧ t.core.oc = fresh ∧ (∀ k, t.rc k = s.rc k) ∧
          t.core.v = s.core.v ∧ ∀ q, memGet t.mem q = memGet s.mem q) ∧
        (r.cfg = true → s.core.ends = [] →
          exec (.ocrst st) s = s.retire st.val { s with core := { s.core with oc := fresh } })) ∧
      (s.Plain [v] → s.CanIssue [rdV v, rdM 0] →
        let i := Instr.ocacc st v
        let id := r.ch0 + r.slot
        let ch := w % 32768
        let k := r.round * r.p + r.slot
        let one := addScores r.act (s.rv v) (decide (32768 ≤ w)) row f
        let log : Nat := w + k % 2 ^ 24 * 65536
        (r.cfg = false → Traps s (exec i s) .illegal (s.ctx.ir.zeroExtend 80)) ∧
        (r.cfg = true → (r.st = 2 ∨ r.st = 3) → OnlyAdvances s (exec i s)) ∧
        (r.cfg = true → r.st ≠ 2 → r.st ≠ 3 → (∀ i < r.p, i ∈ r.ended) →
          exec i s = s.retire st.val ((s.ocEnd 3 (s.rv v)).flushOca true)) ∧
        (r.cfg = true → r.st ≠ 2 → r.st ≠ 3 → (∃ i < r.p, i ∉ r.ended) → r.slot ∉ r.ended →
          (s.peekWord id = none → exec i s = .next s.block) ∧
          (s.peekWord id = some 0xFFFF → (∀ i < r.p, i ≠ r.slot → i ∈ r.ended) → s.core.tape.st ≠ .recording →
            ∃ t, exec i s = .next t ∧ GoesOn s t ∧ t.core.oc.st = 3 ∧ t.core.oc.ended = r.slot :: r.ended ∧
              t.core.oc.win = (leaders r.act (scoreOf (s.rv v))).1 ∧ t.core.v = s.core.v ∧ t.core.oc.orank = r.orank ∧
              ∀ q, memGet t.mem q = memGet s.mem q) ∧
          (s.peekWord id = some w → w ≠ 0xFFFF →
            (64 ≤ s.consumed.2.length → exec i s = s.retire st.val (s.flushOca false)) ∧
            (s.consumed.2.length < 64 → s.core.tape.st ≠ .recording →
              (w = 0x7FFF ∨ r.nc ≤ ch ∨ ch ∈ r.present →
                exec i s = .next ((s.flushOca false).trapHere ⟨.channel, tvalOf (w + id % 65536 * 65536 : Nat)⟩)) ∧
              (w ≠ 0x7FFF → ch < r.nc → ch ∉ r.present → Memory.wf s.mem = true →
                padSegs (capA r.wcap + 32 * ch) 32 .load s = .ok gw s1 →
                padSegs (capA r.lcap + 8 * r.orank) 8 .store s1 = .ok [y] s2 → loadF k s2 = .ok f s3 →
                (if r.mode = 2 then loadRest (k + 1) s3 = .ok rest s4 else rest = 0 ∧ s4 = s3) →
                loadSegs gw 1 s4 = .ok row s5 → s5.Quiet y.place y.len 8 →
                ∃ t, exec i s = .next t ∧ t.rv v = one.1 ∧ (∀ n, n ≠ v → t.rv n = s.rv n) ∧ (∀ n, t.rc n = s.rc n) ∧
                  t.core.oc.orank = r.orank + 1 ∧ t.core.oc.lastk = k ∧ t.core.oc.present = ch :: r.present ∧
                  t.core.oc.eng = true ∧ t.core.oc.satf = (r.satf || one.2) ∧
                  (if r.slot + 1 < r.p then t.core.oc.slot = r.slot + 1 ∧ t.core.oc.round = r.round
                    else t.core.oc.slot = 0 ∧ t.core.oc.round = r.round + 1) ∧
                  t.getBytes y.place y.len = leBytes 8 log ∧
                  (∀ q, ¬ within y.place y.len q → memGet t.mem q = memGet s.mem q) ∧
                  (r.stops one.1 rest = true → GoesOn s t ∧ t.core.oc.st = 2 ∧
                    t.core.oc.win = (leaders r.act (scoreOf one.1)).1) ∧
                  (r.stops one.1 rest = false → t.ctx.pcc = s.ctx.pcc ∧ t.ctx.blocked = true ∧ t.core.oc.st = 1))))) ∧
        (r.cfg = true → r.st ≠ 2 → r.st ≠ 3 → ocLoop v 8192 s = .ok fin s1 →
          exec i s = s.retire st.val (s1.flushOca fin)))) ∧
    ((r.nf ≤ h → loadF h s = .ok 0 s ∧ loadRest h s = .ok 0 s ∧ gradF h s = .ok 0 s) ∧
      (s.QuietAll gw 1 → ∃ t, loadSegs gw 1 s = .ok (segRead s gw) t ∧ ∀ q, memGet t.mem q = memGet s.mem q) ∧
      (h < r.nf → padSegs (capA r.fcap + h) 1 .load s = .ok gf s1 → s1.QuietAll gf 1 →
        ∃ t, loadF h s = .ok (leNat (segRead s1 gf)) t ∧ ∀ q, memGet t.mem q = memGet s1.mem q) ∧
      (h < r.nf → padSegs (capA r.fcap + h) (r.nf - h) .load s = .ok gf s1 → s1.QuietAll gf 1 →
        ∃ t, loadRest h s = .ok ((segRead s1 gf).map (fun b => b.toNat)).sum t ∧ ∀ q, memGet t.mem q = memGet s1.mem q) ∧
      (padArea w rest .load s = .ok gf s1 → s1.bad = [] → s1.QuietAll gf 1 →
        ∃ t, gradLoad w rest s = .ok (segRead s1 gf) t ∧ ∀ q, memGet t.mem q = memGet s1.mem q)) ∧
    (∀ j < 32,
      let old : Int := (BitVec.ofNat 32 (elem x 32 j)).toInt
      let t : Int := old + (if neg then -1 else 1) * ((row[j]?).getD 0).toInt * f
      let y : Int := Max.max (-2 ^ 31) (Min.min t (2 ^ 31 - 1))
      (BitVec.ofNat 32 (elem (addScores act x neg row f).1 32 j)).toInt = (if act.getLsbD j then y else old)) ∧
    (let bits (v : Val) : List Byte := leBytes 4 (fmtFP32.encode rndRNE 0 v)
     let r32 (v : Val) : Val := fmtFP32.decode (fmtFP32.encode rndRNE 0 v)
     let delta (j : Nat) : Val := fmtFP32.decode (elem x 32 j)
     let pol : Val := valInt (if e.getLsbD 15 then -1 else 1)
     let c := fld e 0 15
     let k := fld e 16 24
     let pf := vMul pol (valInt f)
     let lanes := (List.range 32).filter (fun j => r.act.getLsbD j)
     let sum : Val := match lanes.map (fun j => vMul (valInt ((row[j]?).getD 0).toInt) (delta j)) with
       | [] => .fin false 0 0
       | z :: zs => zs.foldl (fun u z => vAdd 1 u z) z
     let word (o : Nat) : Seg := { y with va := y.va + o, place := y.place + o, len := 4 }
     (gradLoad (capA r.wcap + 32 * c) 32 s = .ok row s1 → gradF k s1 = .ok f s2 → 4 * c + 4 ≤ y.len →
        gradEntry .a [y] x e s = .ok () (s2.storeSegs 4 [word (4 * c)] (bits (vMul pf (r32 sum))))) ∧
      (r.nf ≤ k → gradEntry .f g x e s = .ok () s) ∧
      (k < r.nf → gradLoad (capA r.wcap + 32 * c) 32 s = .ok row s1 → s1.bad = [] → loadSegs [word (4 * k)] 4 s1 = .ok old s2 →
        4 * k + 4 ≤ y.len → gradEntry .f [y] x e s =
          .ok () (s2.storeSegs 4 [word (4 * k)] (bits (vAdd 1 (fmtFP32.decode (leNat old)) (vMul pol (r32 sum)))))) ∧
      (gradF k s = .ok f s1 → gradEntry .w g x e s = gradRow g e pf x lanes s1) ∧
      gradRow g e pf x [] s = .ok () s ∧
      (∀ (j : Nat) (js : List Nat), s.bad = [] → loadSegs [word (128 * c + 4 * j)] 4 s = .ok old s1 → 128 * c + 4 * j + 4 ≤ y.len →
        gradRow [y] e pf x (j :: js) s = gradRow [y] e pf x js (s1.storeSegs 4 [word (128 * c + 4 * j)]
          (bits (vAdd 1 (fmtFP32.decode (leNat old)) (r32 (vMul pf (delta j))))))) ∧
      (∀ kind, gradEntries kind g x [] s = .ok () s ∧
        (gradEntry kind g x e s = .ok () s1 → gradEntries kind g x (e :: es) s = gradEntries kind g x es s1))) ∧
    (s.helper = false → s.Plain [vb] → s.CanIssue [rdV vb, rdM 0, rdC a] →
      let n := fld (s.ro 2) 0 24
      let c := s.rc a
      (∀ i ∈ [Instr.ocgw st a vb, .ocga st a vb, .ocgf st a vb],
        (r.cfg = false ∨ r.nc < n ∨ fld (s.ro 2) 24 40 ≠ 0 → Traps s (exec i s) .illegal (s.ctx.ir.zeroExtend 80)) ∧
        (r.cfg = true → n ≤ r.nc → fld (s.ro 2) 24 40 = 0 → padLoad (capA r.lcap) (8 * n) 8 s = .ok bs s1 →
          (h < n → r.nc ≤ fld (BitVec.ofNat 64 (leNat ((bs.drop (8 * h)).take 8))) 0 15 →
            (∀ j < h, fld (BitVec.ofNat 64 (leNat ((bs.drop (8 * j)).take 8))) 0 15 < r.nc) →
            exec i s = .next (s1.trapHere ⟨.channel, tvalOf h⟩)))) ∧
      (r.cfg = true → n ≤ r.nc → fld (s.ro 2) 24 40 = 0 → padLoad (capA r.lcap) (8 * n) 8 s = .ok bs s1 →
        es = (List.range n).map (fun i => BitVec.ofNat 64 (leNat ((bs.drop (8 * i)).take 8))) →
        (∀ e ∈ es, fld e 0 15 < r.nc) → s.bad = [] → s.groups = [] → (∀ w : Fin 4, s.core.wpc[w] = 0) →
        let done (k : Grad) (len : Nat) (ps : List Nat) (i : Instr) : Prop :=
          (if len = 0 then g = [] ∧ s2 = s1 else access c ps (capA c) len 1 .store s1 = .ok g s2) →
          (∀ x ∈ es.flatMap (k.reads r), ∃ hs, padArea x.1 x.2 .load s2 = .ok hs s2) →
          (∃ t, exec i s = .next t ∧ GoesOn s t ∧ (∀ k, t.rc k = s.rc k) ∧ t.core.v = s.core.v ∧ t.core.oc = r ∧
            (∀ q, ¬ inSegs g q → ¬ inEntries g q → memGet t.mem q = memGet s2.mem q) ∧
            (k = .a → n = 0 → g = [y] → s2.Quiet y.place y.len 4 → Memory.wf s.mem = true →
              (len ≠ 0 → t.getBytes y.place y.len = List.replicate len 0))) ∧
          (gradEntries k g (s.rv vb) es (if k = .a then s2.storeSegs 4 g (List.replicate len 0) else s2) = .ok () s3 →
            exec i s = s.retire st.val s3)
        done .w (128 * r.nc) [pL, pS] (.ocgw st a vb) ∧ done .a (4 * r.nc) [pS] (.ocga st a vb) ∧
          done .f (4 * r.nf) [pL, pS] (.ocgf st a vb)))

/-! ### Matrix mode -/

/-- R187 to R190, R198 to R201, R205, R210: entering and leaving matrix mode (nothing changes where the mode is as asked), and
what the queue takes: MOP and MSQD sample o1, o2 and the metadata binding into a job at the queue's end, or complete as SKIPPED
under a false guard; ACCZ clears the accumulator and its overflow flag once the queue is free of it; MWAIT retires once the
queue is empty and MNMB binds a metadata register; leaving the mode with jobs queued raises ACC_BUSY with their number. That
MMODE changes nothing where the mode is as asked, a binding of metadata included, is the model's reading (log 20). -/
def Obligations.MatrixQueue : Prop :=
  ∀ (s : State) (st : Fin 8) (d : Fin 32) (a b : Fin 64), s.helper = false →
    let core (c : Core) (o : Host.Outcome State Fault Refusal) : Prop := o = s.retire st.val { s with core := c }
    (s.CanIssue [] →
      (s.core.mm = false → s.accWrites = false →
        core { s.core with mm := true, meta_ := none } (exec (.mmode st 1) s)) ∧
      (s.core.mm = true → s.core.mq = [] → core { s.core with mm := false, meta_ := none } (exec (.mmode st 0) s)) ∧
      (s.core.mm = true → OnlyAdvances s (exec (.mmode st 1) s)) ∧
      (s.core.mm = false → OnlyAdvances s (exec (.mmode st 0) s)) ∧
      (s.core.mm = true → s.core.mq ≠ [] →
        Traps s (exec (.mmode st 0) s) .accBusy (BitVec.ofNat 80 s.core.mq.length)) ∧
      (s.core.mq = [] → OnlyAdvances s (exec (.mwait st 0) s)) ∧
      (s.core.mq ≠ [] → exec (.mwait st 0) s = .next s.block) ∧
      (s.core.mq = [] → OnlyAdvances s (exec (.mwait st 1) s)) ∧
      (s.core.mq ≠ [] → (∀ j ∈ s.core.mq, j.captured = false) →
        ∃ t, exec (.mwait st 1) s = .next t ∧ GoesOn s t ∧ t.core.mq = [] ∧ t.core.v = s.core.v ∧ mfrecWord t.core = 0 ∧
          (∀ r ∈ t.core.jobs, r.cls = clsMatrix → (∃ j ∈ s.core.mq, j.ri = r.ri) → r.status ≠ stPENDING)) ∧
      (s.core.mm = true → 36 ≤ a.val → s.writePort a = false → s.portBusy a = false →
        core { s.core with meta_ := some a } (exec (.mnmb st a) s)) ∧
      (s.core.mm = true → s.core.mq = [] →
        ∃ t, exec (.accz st) s = .next t ∧ Advanced s t ∧ t.core.aovf = false ∧ (∀ n : Fin 64, n.val < 36 → t.rv n = 0) ∧
          (∀ n : Fin 64, 36 ≤ n.val → t.rv n = s.rv n) ∧ (∀ k, t.rc k = s.rc k) ∧ t.mem = s.mem)) ∧
    (let o1 := s.o1
     let o2 := s.ro 2
     let grd : Fin 16 := ⟨oGRD o1 % 16, by omega⟩
     let job (kind : MatKind) (i : Instr) : Prop :=
      let j := s.matJob kind a b
      s.matBad j = false → (∀ n ∈ j.ranges s, 36 ≤ n) → s.CanIssue (s.matReads j ++ [rdG grd, rdO 1, rdO 2]) →
      (s.rg grd = true → s.core.mq.length < 4 → (∀ n ∈ j.roles, s.portBusy (Fin.ofNat 64 n) = false) →
        ∃ t r q, exec i s = .next t ∧ Advanced s t ∧ t.core.jobs = s.core.jobs ++ [r] ∧ r.cls = clsMatrix ∧
          r.status = stPENDING ∧ WroteC s t d (scalar r.word) ∧ t.core.mq = s.core.mq ++ [q] ∧ q.kind = kind ∧
          q.ri = r.ri ∧ q.ser = r.ser ∧ q.a = a.val ∧ q.b = b.val ∧ q.afmt = fld o1 0 5 ∧ q.bfmt = fld o1 5 5 ∧
          q.accf = fld o1 10 2 ∧ q.kst = fld o1 12 16 ∧ q.nm = fld o1 32 2 ∧ q.lenient = o1.getLsbD 34 ∧
          q.asr = fld o2 0 6 ∧ q.bsr = fld o2 6 6 ∧ q.amx = o2.getLsbD 12 ∧ q.bmx = o2.getLsbD 13 ∧ q.step = 0 ∧
          t.core.v = s.core.v ∧ t.mem = s.mem) ∧
      (s.rg grd = false →
        ∃ t r, exec i s = .next t ∧ Advanced s t ∧ t.core.jobs = s.core.jobs ++ [r] ∧ r.cls = clsDone ∧
          r.status = stSKIPPED ∧ WroteC s t d (scalar r.word) ∧ t.core.mq = s.core.mq ∧ t.core.v = s.core.v ∧ t.mem = s.mem)
     job .mop (.mop st d a b) ∧ job .msqd (.msqd st d a b))

/-- R57, R68, R185, R186, R192, R195, R196, R197, R199: one step of a MOP or MSQD reads its groups, then the scales and metadata
that fall due, a bound register by successive pops and an unbound one as it stands. It adds to each cell (i, c), or pair in A72,
the exact sum over the step's positions of the products of row i and column c, with Q4N and MX scales inside the values and zero
at the positions that a 2:4 operand leaves out, rounded once to A36 or A72, or exactly with wrap into A36I, where AOVF is set on
leaving the range. A job whose last step this was completes with DONE. An exhausted port, and two equal indexes of a run, pause
the job with the cells and ports as they were; that the lowest row or column is named is log 48. -/
def Obligations.MatrixStep : Prop :=
  ∀ (s s1 s2 s3 s4 s5 : State) (j : MatJob) (r : JobRec) (ia ib : Nat) (sa sb : VReg × VReg) (md x y : VReg) (n : Fin 64) (p : Port)
    (gs : List Seg) (f : Nat → VReg) (u : Nat → State) (g ty k : Nat) (mx : Bool) (old : VReg × VReg),
    let b := { j with begun := true }
    let wa := matBits j.afmt
    let wb := matBits j.bfmt
    let value (ty : Nat) (mx : Bool) (sc : VReg × VReg) (i pos code : Nat) : Val :=
      if ty = 18 then q4nVal (lane sc.1 i) (elem sc.2 8 (4 * i + pos % 256 / 64)) code
      else if mx then mxVal ty code (elem sc.1 8 (32 * (pos / 32 % 4) + i)) else decodeTy ty code
    let index (i t h : Nat) : Nat :=
      md.toNat / 2 ^ (j.step % (16 / j.e) * 64 * j.e + (i * (j.e / 2) + t / 4) * 4 + 2 * h) % 4
    let at_ (ty w : Nat) (mx sparse : Bool) (sc : VReg × VReg) (image per i t : Nat) : Option Val :=
      let v (e : Nat) : Option Val := some (value ty mx sc i (j.step * j.ek + t) (image / 2 ^ ((i * per + e) * w) % 2 ^ w))
      if sparse = false then v t
      else if index i t 0 = index i t 1 then none
      else if t % 4 = index i t 0 then v (2 * (t / 4))
      else if t % 4 = index i t 1 then v (2 * (t / 4) + 1) else none
    let av (i t : Nat) : Option Val := at_ j.afmt wa j.amx (j.nm = 1) sa ia (if j.nm = 2 then 2 * j.e else j.e) i t
    let bv (c t : Nat) : Option Val := at_ j.bfmt wb j.bmx (j.nm = 2) sb ib (if j.nm = 1 then 2 * j.e else j.e) c t
    let term (i c t : Nat) : Val :=
      match av i t, bv c t with
      | some x, some y =>
        if j.kind = .msqd then vMul (vAdd 1 x (vNeg y)) (vAdd 1 x (vNeg y)) else vMul x y
      | _, _ => .fin false 0 0
    let sum (i c : Nat) : Val := sumVals ((List.range j.ek).map (term i c))
    let cell (u : State) (i c : Nat) : Nat :=
      elem (u.rv (Fin.ofNat 64 i)) 32 c + 2 ^ 32 * elem (u.rv (Fin.ofNat 64 (32 + (i * 32 + c) / 256))) 4 ((i * 32 + c) % 256)
    let pair (u : State) (i c : Nat) : Nat := cell u i (2 * c) + 2 ^ 36 * cell u i (2 * c + 1)
    let exact (i c : Nat) : Int := (BitVec.ofNat 36 (cell s i c)).toInt + valToInt (sum i c)
    let out (z : Int) : Prop := z < -2 ^ 35 ∨ 2 ^ 35 ≤ z
    let due : Bool := j.nm ≠ 0 && j.step % (16 / j.e) = 0
    let alike (i : Nat) : Prop := ∃ h < j.e / 2, index i (4 * h) 0 = index i (4 * h) 1
    let lines := if j.nm = 2 then accCols j.accf else 32
    let pauses (tr : Trap) : Prop := ∃ t, exec (.matrixStep s.core.id) s = .next t ∧ t.core.v = s.core.v ∧ t.core.sp = s.core.sp ∧
      t.core.mfvalid = true ∧ t.core.mfcause = tr.cause.code ∧ t.core.mfstep = j.step ∧ (∀ k, t.rc k = s.rc k) ∧
      t.core.mq = s.core.mq.map (fun q => if q.ri = j.ri then { b with paused := some tr, told := false } else q)
    (s.core.cur = 0 → s.core.stopped = false → s.core.id < 4096 → Sys2Proof.isCore s.core.id = true → s.ctx.fix = [] →
      s.core.activeJob = some j → j.kind ≠ .drain → j.paused = none → j.e ≠ 0 → (j.nm = 0 ∨ 1 < j.e) →
      (matGroup b j.a j.ga s = .ok ia s1 → matGroup b j.b j.gb s1 = .ok ib s2 →
        matScales b j.afmt j.asr j.amx (j.sa, j.sa2) s2 = .ok sa s3 → matScales b j.bfmt j.bsr j.bmx (j.sb, j.sb2) s3 = .ok sb s4 →
        (if due then matRead b (Fin.ofNat 64 j.mreg) s4 = .ok md s5 else md = j.md ∧ s5 = s4) →
        (j.nm = 0 ∨ j.lenient = true ∨ (∀ i < lines, ¬ alike i) →
          ∃ t, exec (.matrixStep s.core.id) s = .next t ∧
            (j.accf = 0 → ∀ i < 32, ∀ c < 32,
              cell t i c = fmtA36.encode rndRNE 0 (vAdd 1 (fmtA36.decode (cell s i c)) (sum i c)) % 2 ^ 36) ∧
            (j.accf = 1 → ∀ i < 32, ∀ c < 32, (cell t i c : Int) = exact i c % 2 ^ 36) ∧
            (j.accf = 2 → ∀ i < 32, ∀ c < 16,
              pair t i c = fmtA72.encode rndRNE 0 (vAdd 1 (fmtA72.decode (pair s i c)) (sum i c)) % 2 ^ 72) ∧
            (t.core.aovf = true ↔ s.core.aovf = true ∨ (j.accf = 1 ∧ ∃ i < 32, ∃ c < 32, out (exact i c))) ∧
            (∀ n : Fin 64, 36 ≤ n.val → t.rv n = s5.rv n) ∧ (∀ k, t.rc k = s.rc k) ∧ t.ctx.pcc = s.ctx.pcc ∧ t.mem = s5.mem ∧
            t.core.sp = s5.core.sp ∧ t.core.evc[(5 : Fin 11)] = s5.core.evc[(5 : Fin 11)] + 1 ∧
            (j.step + 1 < j.kst → t.core.mq = s.core.mq.map (fun q => if q.ri = j.ri then
              { b with sa := sa.1, sa2 := sa.2, sb := sb.1, sb2 := sb.2, md := md, step := j.step + 1 } else q)) ∧
            (j.kst ≤ j.step + 1 → t.core.mq = s.core.mq.filter (fun q => q.ri ≠ j.ri) ∧
              (r ∈ s.core.jobs → r.cls = clsMatrix → r.ri = j.ri → r.status = stPENDING →
                { r with status := stDONE, cause := 0 } ∈ t.core.jobs))) ∧
        (j.nm ≠ 0 → j.lenient = false → k < lines → alike k → (∀ i < k, ¬ alike i) →
          pauses ⟨.sparseMeta, BitVec.ofNat 80 (j.step % 65536 + 65536 * k)⟩)) ∧
      (s.port (Fin.ofNat 64 j.a) = some p → p.cnt.toNat ≤ p.idx.toNat →
        pauses ⟨.streamEnd, BitVec.ofNat 80 ((Fin.ofNat 64 j.a).val - 56)⟩)) ∧
    (s.boundPort n = false → matRead b n s = .ok (s.rv n) s) ∧
    (s.port n = some p → p.idx.toNat < p.cnt.toNat →
      segsOf { asid := s.asid, root := s.myJob.map (·.spec.root), y := j.pcc.tag && capHas j.pcc pY, h := capHas p.cap pH } .load
        (pieces p.addr 128) s = .ok gs s1 →
      (∀ q ∈ gs, s1.badIn q.place q.len = false ∧ s1.Quiet q.place q.len 4 ∧
        ∀ z ∈ s1.recents, overlaps z.lo z.n q.place q.len = true → z.esz = 4) →
      ∃ t, matRead b n s = .ok (ofVBytes (segRead s1 gs)) t ∧ t.port n = some { p with idx := p.idx + 1 } ∧
        t.rv n = ofVBytes (segRead s1 gs) ∧ t.mem = s1.mem ∧ (∀ q, q ≠ n → t.rv q = s.rv q ∧ t.port q = s.port q) ∧
        ∀ q, t.rc q = s.rc q) ∧
    (s.boundPort n = false → n.val + g ≤ 64 → matGroup b n.val g s =
      .ok (joinElems 1024 ((List.range g).map (fun q => (s.rv (Fin.ofNat 64 (n.val + q))).toNat))) s) ∧
    (s.boundPort n = true → u 0 = s → (∀ q < g, matRead b n (u q) = .ok (f q) (u (q + 1))) →
      matGroup b n.val g s = .ok (joinElems 1024 ((List.range g).map (fun q => (f q).toNat))) (u g)) ∧
    (let sc := matScales b ty k mx old s
     let pos := j.step * j.ek
     (ty = 18 → pos % 256 = 0 → matRead b (Fin.ofNat 64 k) s = .ok x s1 → matRead b (Fin.ofNat 64 (k + 1)) s1 = .ok y s2 →
        sc = .ok (x, y) s2) ∧
      (ty ≠ 18 → mx = true → pos % 128 = 0 → matRead b (Fin.ofNat 64 k) s = .ok x s1 → sc = .ok (x, 0) s1) ∧
      ((if ty = 18 then pos % 256 ≠ 0 else mx = false ∨ pos % 128 ≠ 0) → sc = .ok old s))

/-- R202 to R204, R206 to R208: ACCRD converts one row of the accumulator, rounding once, and writes the step word to its c
register; MTOPK writes, for each row, the columns of its k largest cells, ties to the lower column; MDRAIN samples its
parameters into a job, and counts the task of a wake-up in this package (R329, R421); the capture marks the job captured and
sends its image in order, in packets of at most 2,048 bytes. -/
def Obligations.MatrixResults : Prop :=
  ∀ (s s1 : State) (st : Fin 8) (d : Fin 64) (a b : Fin 32) (da : Fin 32) (k : Nat) (j : MatJob), s.helper = false →
    let accf := oACCF s.o1
    let row (i : Nat) : List Val := accRow s.accRegs accf i
    (s.core.mm = true → o1ok s.o1 = true → s.Plain [d] → 36 ≤ d.val → s.Typed s.vt → accrdType accf s.vt = true →
      (accRounds accf s.vt = true → oRND s.o0 ≠ 7) → s.CanIssue [rdM 0, rdC a] →
      let i := (s.rx a).toNat % 32
      ∃ t v, exec (.accrd st d a b) s = .next t ∧ Advanced s t ∧ t.core.v = s.core.v.set d v ∧
        HasElems v (tyWidth s.vt) (fun e => ((row i)[e]?).elim 0 (fun x => encodeTy s.vt s.round e (accf = 1) x)) ∧
        WroteC s t b (scalar s.core.stepWord) ∧ t.mem = s.mem ∧ t.core.mq = s.core.mq ∧
        t.core.srctr = if accRounds accf s.vt = true ∧ s.rnd = 6 then s.core.srctr + 1 else s.core.srctr) ∧
    (s.core.mm = true → o1ok s.o1 = true → accf ≠ 3 → 1 ≤ k → k ≤ 8 → 36 ≤ d.val → d.val + k ≤ 64 →
      (∀ n : Fin 64, d.val ≤ n.val → n.val < d.val + k → s.boundPort n = false) → s.CanIssue [rdM 0] →
      (∀ q ∈ s.core.mq, q.kind = .drain) →
      ∃ t, exec (.mtopk st d k) s = .next t ∧ Advanced s t ∧ (∀ c, t.rc c = s.rc c) ∧ t.mem = s.mem ∧
        (∀ n : Fin 64, (n.val < d.val ∨ d.val + k ≤ n.val) → t.rv n = s.rv n) ∧
        (∀ i < 32, ∃ cols : List Nat, cols.Perm (List.range (accCols accf)) ∧
          cols.Pairwise (fun x y => accBefore ((row i).getD x .nan) ((row i).getD y .nan) = true ∨
            (accBefore ((row i).getD y .nan) ((row i).getD x .nan) = false ∧ x < y)) ∧
          ∀ q < k, ∀ n : Fin 64, n.val = d.val + q → elem (t.rv n) 32 i = (cols[q]?).getD 0)) ∧
    (let c := s.rc a
     let w := s.rx b
     let ofmt := oOFMT s.o1
     let mxo := (s.ro 2).getLsbD 1
     let n := drainBytes accf ofmt mxo
     let target := drainTarget w
     s.drainBad = false → s.CanIssue [rdC a, rdC b, rdO 0, rdO 1, rdO 2, rdO 3, rdO 4, rdO 5] → w.toNat < 2 ^ 22 →
      capCheck c ([pS] ++ if target = s.myEid then [] else [pM]) (capA c) n 128 = none → drainOut (capA c) n = none →
      ((s.ro 2).getLsbD 0 = true → (s.ro 3).toNat % 2 = 0) → s.core.mq.length < 4 →
      (if (s.ro 2).getLsbD 0 = true ∧ eidPkg target = s.pkgNo then countTask s = .ok () s1 else s1 = s) →
      ∃ t r q, exec (.mdrain st da a b) s = .next t ∧ Advanced s t ∧ t.core.jobs = s.core.jobs ++ [r] ∧ r.cls = clsMatrix ∧
        r.status = stPENDING ∧ WroteC s t da (scalar r.word) ∧ t.core.mq = s.core.mq ++ [q] ∧ q.kind = .drain ∧ q.ri = r.ri ∧
        q.accf = accf ∧ q.ofmt = ofmt ∧ q.mxo = mxo ∧ q.rnd = s.rnd ∧ q.sat = oSAT s.o0 ∧ q.target = target ∧
        q.addr = BitVec.ofNat 80 (capA c) ∧ q.wake = (s.ro 2).getLsbD 0 ∧ q.captured = false ∧ q.launch = s.myLaunch ∧
        t.core.v = s.core.v ∧ t.mem = s1.mem ∧ t.levels = s1.levels) ∧
    (s.core.cur = 0 → s.core.stopped = false → s.core.id < 4096 → Sys2Proof.isCore s.core.id = true → s.ctx.fix = [] →
      s.core.activeJob = some j → j.kind = .drain →
      let bs := drainImage j s.accRegs
      ∃ t, exec (.drainCapture s.core.id) s = .next t ∧ t.core.v = s.core.v ∧ (∀ c, t.rc c = s.rc c) ∧ t.mem = s.mem ∧
        (∀ q ∈ t.core.mq, q.ri = j.ri → q.captured = true ∧ q.out = (bs.length + 2047) / 2048) ∧
        ((t.core.ops.drop s.core.ops.length).flatMap (fun x => x.pkt.data)) = bs ∧
        ∀ x ∈ t.core.ops.drop s.core.ops.length, x.pkt.handler = 9 ∧ x.pkt.deid = j.target ∧ x.pkt.data.length ≤ 2048 ∧
          x.job = some (clsMatrix, j.ri))

/-! ### Copies -/

/-- R355, R356: what CPY, CPY2D, CPYQ and CPYX check at issue, in order, each with its cause and address; and the job that one
without a fault opens: PENDING, or DONE at once where it moves nothing, with the operands, lengths, pitches and conversion that
it sampled. A core with 256 copies in flight waits. SRCTR moves on where the copy rounds stochastically. The model's readings:
which rows of CPY2D may not share a byte (log 21), CPYQ's list as a byte offset of the own pool, which raises PAGE where it
leaves the scratchpad (log 22), and permission M of CPYX's destination but for the own endpoint (log 23). -/
def Obligations.CopyIssue : Prop :=
  ∀ (s : State) (st : Fin 8) (d a b : Fin 32), s.ctx.ahead = false →
    let dst := s.rc a
    let src := s.rc b
    let side (c : Cap) (ps : List Nat) (lo hi : Int) : Option Cause :=
      if capValid c = false then some .capTag else if capHasAll c ps = false then some .capPerm
      else if capBase c ≤ lo ∧ hi ≤ capTop c then none else some .capBounds
    let opens (i : Instr) (kind : CopyKind) (idle : Prop) (f : Copy → Prop) (rounds : Prop) : Prop :=
      (256 ≤ s.core.jobs.countP (fun j => j.cls == 0 && j.status == 0) → exec i s = .next s.block) ∧
      (s.core.jobs.countP (fun j => j.cls == 0 && j.status == 0) < 256 →
        ∃ t r k, exec i s = .next t ∧ Advanced s t ∧ OnlySends s t ∧ Opens s t d 0 r ∧ r.cp = some k ∧
          (idle → r.status = stDONE) ∧ (¬ idle → r.status = stPENDING) ∧ k.kind = kind ∧ k.dst = dst ∧ k.src = src ∧
          k.pos = 0 ∧ k.begun = false ∧ f k ∧ t.core.ops = s.core.ops ∧
          (rounds ∧ s.rnd = 6 → t.core.srctr = s.core.srctr + 1) ∧ (¬ (rounds ∧ s.rnd = 6) → t.core.srctr = s.core.srctr))
    let plain (i : Instr) (reads : List (RegFile × Nat)) (kind : CopyKind) (flags : Word) (len rows : Nat) (sp dp : Int)
        (lim : Nat) : Prop :=
      let conv := flags.getLsbD 0
      let tags := flags.getLsbD 1
      let sb := if conv then tyMemBits s.vt else 8
      let db := if conv then tyMemBits s.vt2 else 8
      let n := (len * sb + 7) / 8
      let m := (len * db + 7) / 8
      let lo (c : Cap) (p : Int) : Int := (capA c : Int) + Min.min 0 (((rows : Int) - 1) * p)
      let hi (c : Cap) (p : Int) (n : Nat) : Int := (capA c : Int) + Max.max 0 (((rows : Int) - 1) * p) + n
      let shares (x n y m : Int) : Prop := x < y + m ∧ y < x + n
      let ill : Prop := lim ≤ flags.toNat ∨
        (conv = true ∧ (s.cvtBad = true ∨ ((tyMemBits s.vt = 6 ∨ tyMemBits s.vt2 = 6) ∧ len % 32 ≠ 0)))
      let clash : Prop := len ≠ 0 ∧ rows ≠ 0 ∧
        ((1 < rows ∧ (sp.natAbs < n ∨ dp.natAbs < m)) ∨
         ∃ x < rows, ∃ y < rows, shares ((capA src : Int) + x * sp) n ((capA dst : Int) + y * dp) m)
      let ps (p q : Nat) : List Nat := [p] ++ if tags then [q] else []
      let s1 := side src (ps pL pLC) (lo src sp) (hi src sp n)
      let s2 := side dst (ps pS pSC) (lo dst dp) (hi dst dp m)
      let al (x : Int) (bits : Nat) : Prop :=
        (conv = true → x % (Max.max 1 (bits / 8) : Nat) = 0) ∧ (tags = true → x % 16 = 0)
      let alS : Prop := al (lo src sp) sb
      let alD : Prop := al (lo dst dp) db
      s.CanIssue reads →
        (ill → Traps s (exec i s) .illegal (s.ctx.ir.zeroExtend 80)) ∧
        (¬ ill → clash → Traps s (exec i s) .illegal (s.ctx.ir.zeroExtend 80)) ∧
        (¬ ill → ¬ clash → len ≠ 0 → rows ≠ 0 →
          (∀ c, s1 = some c → Traps s (exec i s) c (tvalOf (lo src sp))) ∧
          (∀ c, s1 = none → s2 = some c → Traps s (exec i s) c (tvalOf (lo dst dp))) ∧
          (s1 = none → s2 = none → ¬ alS → Traps s (exec i s) .align (tvalOf (lo src sp))) ∧
          (s1 = none → s2 = none → alS → ¬ alD → Traps s (exec i s) .align (tvalOf (lo dst dp)))) ∧
        (¬ ill → ¬ clash → (len = 0 ∨ rows = 0 ∨
            (s1 = none ∧ s2 = none ∧ alS ∧ alD ∧ (tags = true → len % 16 = 0))) →
          opens i kind (len = 0 ∨ rows = 0)
            (fun k => k.len = len ∧ k.rows = rows ∧ k.sp = sp ∧ k.dp = dp ∧ k.conv = conv ∧ k.tags = tags ∧
              (conv = true → k.vt = s.vt ∧ k.vt2 = s.vt2 ∧ k.rnd = s.rnd ∧ k.sat = oSAT s.o0 ∧ k.srT = s.core.srctr ∧
                k.srSeed = s.core.srseed))
            (conv = true ∧ cvtRounds s.vt s.vt2 = true))
    plain (.cpy st d a b) [rdC a, rdC b, rdO 0, rdO 2, rdO 3] .cpy (s.ro 3) (s.ro 2).toNat 1 0 0 3 ∧
    plain (.cpy2d st d a b) [rdC a, rdC b, rdO 0, rdO 2, rdO 3, rdO 4, rdO 5] .cpy2d (s.ro 5) (fld (s.ro 2) 0 32)
      (fld (s.ro 2) 32 32) (s.ro 3).toInt (s.ro 4).toInt 2 ∧
    (s.CanIssue [rdC a, rdC b, rdO 2, rdO 3] →
      let i := Instr.cpyq st d a b
      let list := (s.ro 2).toNat
      let n := (s.ro 3).toNat
      let inside : Prop := s.core.b0 * 1024 ≤ list ∧ list + 24 * n ≤ s.core.b1 * 1024
      (n = 0 ∨ 1024 < n → Traps s (exec i s) .illegal (s.ctx.ir.zeroExtend 80)) ∧
      (1 ≤ n → n ≤ 1024 → ¬ inside → ∃ x, Traps s (exec i s) .page (tvalOf x)) ∧
      (1 ≤ n → n ≤ 1024 → inside → list % 8 = 0 → opens i .cpyq False (fun k => k.list = list ∧ k.cnt = n) False)) ∧
    (s.CanIssue [rdC a, rdC b, rdO 2, rdO 3] →
      let i := Instr.cpyx st d a b
      let n := (s.ro 2).toNat
      let w := s.ro 3
      let e := fld w 0 24
      let pool := w.getLsbD 24
      let ps := [pS] ++ if pool && e = s.myEid then [] else [pM]
      let s1 := side src [pL] (capA src) (capA src + n)
      let s2 := side dst ps (capA dst) (capA dst + n)
      let out : Prop := if pool = true then
          capA dst < Config.LW + 0x100000 ∨ Config.LW + 0x140000 < capA dst + n
        else Config.LW < capA dst + n
      let clash : Prop := (if pool = true then e = s.myEid else e / 4096 = s.pkgNo) ∧ n ≠ 0 ∧ capA src < capA dst + n ∧ capA dst < capA src + n
      (25 ≤ Nat.log2 w.toNat ∨ (pool = false ∧ e % 4096 ≠ 0) ∨ (pool = true ∧ 256 ≤ e % 1024) ∨ clash →
        Traps s (exec i s) .illegal (s.ctx.ir.zeroExtend 80)) ∧
      (w.toNat < 2 ^ 25 → (if pool = true then e % 1024 < 256 else e % 4096 = 0) → ¬ clash →
        (n ≠ 0 → (∀ c, s1 = some c → Traps s (exec i s) c (tvalOf (capA src))) ∧
          (∀ c, s1 = none → s2 = some c → Traps s (exec i s) c (tvalOf (capA dst))) ∧
          (s1 = none → s2 = none → out → ∃ x, Traps s (exec i s) .page (tvalOf x))) ∧
        (n = 0 ∨ (s1 = none ∧ s2 = none ∧ ¬ out) →
          opens i .cpyx (n = 0) (fun k => k.len = n ∧ k.peer = e ∧ k.pool = pool) False)))

/-- R355, R353, R275: one burst of a plain CPY or CPY2D moves up to 128 bytes of its row, ascending, to the same place of the
destination row and nowhere else; the last one completes the job with DONE, and a source or destination that does not translate
ends it with FAULT and the cause. Bursts go in rotation: a job that runs moves one where none has waited longer, and is then the
last. That a burst takes a row's bytes from the lower end upwards is log 21. One element of a gather in its own package is read
into the record's result and mask. A gather whose elements are all in writes its register, if it still waits for it, and
completes. -/
def Obligations.CopyBursts : Prop :=
  ∀ (s s1 s2 : State) (j : JobRec) (c : Copy) (g h : Seg) (tr : Trap), s.Works → s.core.copies.head? = some (j, c) →
    let go (f : State → Prop) : Prop := ∃ t, exec (.copyBurst s.core.id j.ri) s = .next t ∧ KeepsRegs s t ∧ f t
    let rec_ (t : State) (f : JobRec → Prop) : Prop := ∃ r ∈ t.core.jobs, r.cls = 0 ∧ r.ri = j.ri ∧ r.ser = j.ser ∧ f r
    let n := Min.min 128 (c.len - c.pos % c.len)
    let side (x : Cap) (p : Int) : Nat := addr80 ((capA x : Int) + (c.pos / c.len : Nat) * p + (c.pos % c.len : Nat))
    (if c.begun = true then c.moves = true → ∀ x ∈ s.rotation, c.last ≤ x.last else s.copiesRunning < 16) →
    (c.kind = .cpy ∨ c.kind = .cpy2d → c.bad = 0 → c.conv = false → c.tags = false → c.pos < c.len * c.rows →
      (Memory.wf s.mem = true → s.engineSegs c c.src .load (side c.src c.sp) n = (s1, .ok [g]) →
        s1.engineSegs c c.dst .store (side c.dst c.dp) n = (s2, .ok [h]) → s2.Still g.place n 4 → s2.Still h.place n 4 →
        go (fun t => t.getBytes h.place n = s2.getBytes g.place n ∧
          (∀ p, ¬ within h.place n p → ¬ inEntry h p → memGet t.mem p = memGet s2.mem p) ∧
          rec_ t (fun r =>
            (c.len * c.rows ≤ c.pos + n → r.status = stDONE ∧ r.cause = 0 ∧ r.pos = 0) ∧
            (c.pos + n < c.len * c.rows → r.status = stPENDING ∧ ∃ k, r.cp = some k ∧ k.pos = c.pos + n ∧ k.begun = true ∧
              ∀ x ∈ s.rotation, x.last < k.last)))) ∧
      ((s.engineSegs c c.src .load (side c.src c.sp) n = (s1, .ok [g]) ∧
          s1.engineSegs c c.dst .store (side c.dst c.dp) n = (s2, .error (some tr)) ∨
        s.engineSegs c c.src .load (side c.src c.sp) n = (s1, .error (some tr)) ∧
          s1.engineSegs c c.dst .store (side c.dst c.dp) n = (s2, .ok [h])) →
        go (fun t => t.mem = s2.mem ∧ rec_ t (fun r => r.status = stFAULT ∧ r.cause = tr.cause.code)))) ∧
    (c.kind = .gath → c.pos < c.cnt → c.rem = false →
      let x := capA c.dst + c.idxs.getD c.pos 0 * c.es
      s.engineSegs c c.dst .load x c.es = (s1, .ok [g]) → s1.Still g.place c.es c.es →
      go (fun t => t.mem = s1.mem ∧ rec_ t (fun r => r.status = stPENDING ∧
        r.arrive = j.arrive ||| BitVec.ofNat 128 (2 ^ c.pos) ∧
        r.result = j.result ||| BitVec.ofNat 1024 (leNat (s1.getBytes g.place c.es) * 2 ^ (8 * c.es * c.pos))))) ∧
    (c.kind = .gath → c.cnt ≤ c.pos → c.out = 0 →
      ∃ t, exec (.gatherComplete s.core.id j.ri) s = .next t ∧ t.mem = s.mem ∧ (∀ k, t.rc k = s.rc k) ∧
        (∀ v : Fin 64, v.val ≠ c.vreg % 64 → t.rv v = s.rv v) ∧
        ((∃ p ∈ s.core.ctxs[(0 : Fin 11)].pend, p.op = jobKey 0 j.ri) → t.rv (Fin.ofNat 64 c.vreg) = j.result) ∧
        rec_ t (fun r => r.status = (if c.bad = 0 then stDONE else c.bad)))

/-! ### The tape -/

/-- R362 to R368, R373, R374, R379, R381: recording. TREC, TRECB and TRECV do nothing while no tape is open, are ILLEGAL in
playback and raise TAPE_FULL in BROKEN; in REC each extends or closes the open record as below, raises TAPE_FULL where the
result would not fit with 24 bytes to spare, and with the record to spare that an OCACC in progress will make of what it has
consumed (R374), waits while the backlog would pass 64 KiB, and puts the closed records at P. In CHECK, TRECB compares the next
branch bit. A record is its frame, its payload and its frame again. In a run-ahead helper each retires with no effect once the
first four steps of R90 have found nothing (R371). While a publication holds lines the tape thread makes no access (R310, log
5). -/
def Obligations.TapeRecording : Prop :=
  ∀ (s s1 : State) (st : Fin 8) (a : Fin 32) (v : Fin 64) (b len n : Nat) (cap : Cap) (va : Nat)
    (bs : List Byte) (g : Seg),
    let T := s.core.tape
    let fr (typ bpos pair len arg : Nat) : Word :=
      BitVec.ofNat 64 (typ + bpos * 256 + pair * 2 ^ 14 + len * 2 ^ 16 + arg * 2 ^ 32)
    let whole (f : Word) (ws : List Word) : List Word := [f] ++ ws ++ [f]
    let shut (c : OpenRec) : List Word := match c with
      | .none => []
      | .vals b vs => whole (fr 1 b 0 vs.length 0) vs
      | .zrun b n => whole (fr 2 b 0 0 n) []
    let kept : Nat := match (s.core.ctxs[(0 : Fin 11)]).wait with
      | .ocacc _ es => if es = [] then 0 else 8 * (es.length + 3)
      | _ => 0
    let full (broken : Nat) : Addr := BitVec.ofNat 80 (T.p % 2 ^ 48 + broken * 2 ^ 62)
    let puts (i : Instr) (t : Tape) (ws : List Word) : Prop :=
      let t' : Tape := { t with p := T.p + 8 * ws.length }
      let backlog := 4096 * (T.staged.length + ((T.p + 8 * ws.length) / 4096 - T.p / 4096))
      (T.cap < T.p + 8 * ws.length + kept + 8 * (shut t.cur).length + 24 → Traps s (exec i s) .tapeFull (full 0)) ∧
      (T.p + 8 * ws.length + kept + 8 * (shut t.cur).length + 24 ≤ T.cap →
        (T.spill.isSome = true ∧ 65536 < backlog → exec i s = .next s.block) ∧
        (T.spill = none ∨ backlog ≤ 65536 → exec i s = s.retire st.val (s.tapeDone (t', ws))))
    let x := s.rx a
    let rec_ := Instr.trec st a
    let bit := Instr.trecb st a
    (s.ctx.ahead = true → s.CanIssue [rdC a] → OnlyAdvances s (exec rec_ s) ∧ OnlyAdvances s (exec bit s)) ∧
    (s.ctx.ahead = false → s.tapeHeld = true → s.CanIssue [rdC a] →
      exec rec_ s = .next s.block ∧ exec bit s = .next s.block) ∧
    (s.ctx.ahead = false → s.tapeHeld = false → s.CanIssue [rdC a] →
      (T.st = .idle ∨ T.st = .ended → OnlyAdvances s (exec rec_ s) ∧ OnlyAdvances s (exec bit s)) ∧
      (T.st = .play → Traps s (exec rec_ s) .illegal (s.ctx.ir.zeroExtend 80) ∧
        Traps s (exec bit s) .illegal (s.ctx.ir.zeroExtend 80)) ∧
      (T.st = .broken → Traps s (exec rec_ s) .tapeFull (full 1) ∧ Traps s (exec bit s) .tapeFull (full 1)) ∧
      (T.st = .recording →
        (∀ b vs, T.cur = .vals b vs → x ≠ 0 → vs.length < 254 → puts rec_ { T with cur := .vals b (vs ++ [x]) } []) ∧
        (∀ b vs, T.cur = .vals b vs → x ≠ 0 → b < 64 → vs.length = 254 →
          puts rec_ { T with cur := .none } (whole (fr 1 b 0 255 0) (vs ++ [x]))) ∧
        (∀ b vs, T.cur = .vals b vs → x = 0 → b < 64 → vs.length < 256 →
          puts rec_ { T with cur := .zrun T.bn 1 } (whole (fr 1 b 0 vs.length 0) vs)) ∧
        (∀ b n, T.cur = .zrun b n → x = 0 → n + 1 < 2 ^ 32 - 1 → puts rec_ { T with cur := .zrun b (n + 1) } []) ∧
        (∀ b n, T.cur = .zrun b n → x ≠ 0 → b < 64 → n < 2 ^ 32 →
          puts rec_ { T with cur := .vals T.bn [x] } (whole (fr 2 b 0 0 n) [])) ∧
        (T.cur = .none → x = 0 → puts rec_ { T with cur := .zrun T.bn 1 } []) ∧
        (T.cur = .none → x ≠ 0 → puts rec_ { T with cur := .vals T.bn [x] } []) ∧
        (let y : Word := T.bw ||| BitVec.ofNat 64 ((if x = 0 then 0 else 1) * 2 ^ T.bn)
         (∀ b vs, T.cur = .vals b vs → b < 64 ∧ vs.length < 256) → (∀ b n, T.cur = .zrun b n → b < 64 ∧ n < 2 ^ 32) →
          (T.bn < 63 → puts bit { T with cur := .none, bw := y, bn := T.bn + 1, bits := T.bits + 1 } (shut T.cur)) ∧
          (T.bn = 63 → puts bit { T with cur := .none, bw := 0, bn := 0, bits := T.bits + 1 }
            (shut T.cur ++ whole (fr 3 0 0 1 64) [y])))) ∧
      (T.st = .check → OnlyAdvances s (exec rec_ s) ∧
        (0 < T.chkn →
          (T.chkw.getLsbD 0 = (x != 0) → ∃ t, exec bit s = .next t ∧ Advanced s t ∧
            t.core.tape = { T with chkw := T.chkw / 2, chkn := T.chkn - 1, chkd := T.chkd + 1 } ∧ (∀ k, t.rc k = s.rc k) ∧
            t.mem = s.mem) ∧
          (T.chkw.getLsbD 0 ≠ (x != 0) →
            Traps s (exec bit s) .tapeDiverge (BitVec.ofNat 80 (3 + T.chkd % 2 ^ 48 * 65536)))))) ∧
    (let named := if n = 1 then [v, v + 1] else [v]
     let reads := rdM 0 :: named.map rdV
     let i := Instr.trecv st v n
     (s.ctx.ahead = true → n ≤ 1 → (n = 1 → v ≠ 63 ∧ s.boundPort (v + 1) = false) → s.writePort v = false →
      (s.core.mm = true → ∀ r ∈ named, 36 ≤ r.val) → s.CanIssue reads → OnlyAdvances s (exec i s)) ∧
     ((s.helper && s.ctx.stopReq) = false → 1 < n ∨ (n = 1 ∧ (v = 63 ∨ s.boundPort (v + 1) = true)) →
      Traps s (exec i s) .illegal (s.ctx.ir.zeroExtend 80)) ∧
     (s.ctx.ahead = false → s.tapeHeld = false → n ≤ 1 → (n = 1 → v ≠ 63 ∧ s.boundPort (v + 1) = false) → s.Plain named →
      s.CanIssue reads →
      (T.st = .idle ∨ T.st = .ended ∨ T.st = .check → OnlyAdvances s (exec i s)) ∧
      (T.st = .recording → (∀ b vs, T.cur = .vals b vs → b < 64 ∧ vs.length < 256) →
        (∀ b n, T.cur = .zrun b n → b < 64 ∧ n < 2 ^ 32) → T.bn < 64 →
        let img := named.flatMap (fun r => (List.range 16).map (fun k => BitVec.ofNat 64 (elem (s.rv r) 64 k)))
        let nz := img.filter (· ≠ 0)
        let mask := ((List.range img.length).map (fun k => if img.getD k 0 = 0 then 0 else 2 ^ k)).sum
        puts i { T with cur := .none } (shut T.cur ++ whole (fr 4 T.bn n nz.length mask) nz)))) ∧
    ((s.tapeDone ({ T with cur := .zrun b len }, [])).mem = s.mem ∧
      (s.tapeDone ({ T with cur := .zrun b len }, [])).core.tape = { T with cur := .zrun b len }) ∧
    (Memory.wf s.mem = true → segsOf (s.tapeWho cap) .store (pieces va bs.length) s = .ok [g] s1 → s1.Still g.place bs.length 8 →
      (s.tapeWrite cap va bs).getBytes g.place bs.length = bs ∧
      ∀ p, ¬ within g.place bs.length p → ¬ inEntry g p → memGet (s.tapeWrite cap va bs).mem p = memGet s1.mem p)

/-- R362, R369, R372, R375 to R378, R380, R363: TBEGIN and TPLAY open the channel once their checks pass; TEND ends it, with the
stream's length, the bits not checked, the bytes not read, or all ones in C[d]; the pops take the next item in reverse order or
raise TAPE_DIVERGE; TSTAT reads the channel. SPILL_WRITE writes the oldest full chunk out and CHUNK_FETCH brings the next one
down back. In a run-ahead helper the instructions retire with no effect (R371), but reserved bits of o2 and o3 are ILLEGAL there
too (R90). While a publication holds lines the tape thread makes no access (R310, log 5), and TEND, which waits, takes no
interrupt. That a TEND of a recording writes the open record and what is staged at once is log 17. -/
def Obligations.TapeControlAndPlayback : Prop :=
  ∀ (s s1 s2 : State) (st : Fin 8) (d a b : Fin 32) (v : Fin 64) (it : Item) (T' : Tape) (at_ n : Nat) (cs : List Nat) (r : Cap)
    (bs : List Byte),
    let T := s.core.tape
    let sp : Option Cap := if b = 0 then none else some (s.rc b)
    let ill : Addr := s.ctx.ir.zeroExtend 80
    (s.ctx.ahead = true → s.CanIssue [rdC a, rdC b] →
      (∀ i ∈ [Instr.tend st d, .tpop st d (n % 2), .tpopb st d, .tstat st d (n % 4)], OnlyAdvances s (exec i s)) ∧
      ((s.ro 2).toNat = 0 ∨ ((s.ro 2).toNat = 1 ∧ (s.ro 3).toNat % 8 = 0) → OnlyAdvances s (exec (.tbegin st a b) s)) ∧
      ((s.ro 2).toNat % 8 = 0 → OnlyAdvances s (exec (.tplay st a b) s)) ∧
      (s.readPort v = false → (s.core.mm = true → 36 ≤ v.val) → s.CanIssue [rdM 0] →
        OnlyAdvances s (exec (.tpopv st v 0) s))) ∧
    ((s.helper && s.ctx.stopReq) = false →
      (2 ≤ (s.ro 2).toNat ∨ ((s.ro 2).toNat = 1 ∧ (s.ro 3).toNat % 8 ≠ 0) → Traps s (exec (.tbegin st a b) s) .illegal ill) ∧
      ((s.ro 2).toNat % 8 ≠ 0 → Traps s (exec (.tplay st a b) s) .illegal ill)) ∧
    (s.ctx.ahead = false →
      (s.CanIssue [rdC a, rdC b] →
        (T.st ≠ .idle → T.st ≠ .ended →
          Traps s (exec (.tbegin st a b) s) .illegal ill ∧ Traps s (exec (.tplay st a b) s) .illegal ill) ∧
        (T.st = .idle ∨ T.st = .ended → regionsOk (s.rc a) sp = true →
          ((s.ro 2).toNat = 0 → regionNeed (s.rc a) sp [pL, pS, pT] .store s = .ok () s1 →
            ∃ t, exec (.tbegin st a b) s = .next t ∧ Advanced s t ∧ (∀ k, t.rc k = s.rc k) ∧
              t.core.tape = { st := .recording, region := s.rc a, spill := sp, cap := regionCap (s.rc a) sp, asid := s.asid } ∧
              ∀ p, memGet t.mem p = memGet s1.mem p) ∧
          ((s.ro 2).toNat = 1 → (s.ro 3).toNat % 8 = 0 → (s.ro 3).toNat ≤ regionCap (s.rc a) sp →
            regionNeed (s.rc a) sp [pL, pS, pT] .load s = .ok () s1 →
            ∃ t, exec (.tbegin st a b) s = .next t ∧ Advanced s t ∧ (∀ k, t.rc k = s.rc k) ∧
              t.core.tape = { st := .check, region := s.rc a, spill := sp, cap := regionCap (s.rc a) sp,
                              len := (s.ro 3).toNat, asid := s.asid }) ∧
          ((s.ro 2).toNat % 8 = 0 → (s.ro 2).toNat ≤ regionCap (s.rc a) sp →
            regionNeed (s.rc a) sp [pL, pT] .load s = .ok () s1 →
            ∃ t, exec (.tplay st a b) s = .next t ∧ Advanced s t ∧ (∀ k, t.rc k = s.rc k) ∧
              t.core.tape = { st := .play, region := s.rc a, spill := sp, cap := regionCap (s.rc a) sp,
                              len := (s.ro 2).toNat, cursor := (s.ro 2).toNat, fetched := ((s.ro 2).toNat + 4095) / 4096,
                              asid := s.asid }))) ∧
      (s.CanIssue [] →
        let ends (st' : TapeSt) (x : Word) : Prop :=
          s.tapeHeld = false → ∃ t, exec (.tend st d) s = .next t ∧ Advanced s t ∧ WroteC s t d (scalar x) ∧
            t.core.tape = { st := st' } ∧ t.mem = s.mem
        (T.st = .idle ∨ T.st = .ended → Traps s (exec (.tend st d) s) .illegal ill) ∧
        (T.st = .play → ends .idle (BitVec.ofNat 64 T.cursor)) ∧
        (T.st = .broken → ends .idle (BitVec.allOnes 64)) ∧
        (T.st = .check → T.len ≤ T.fwd → ends .ended (BitVec.ofNat 64 T.chkn)) ∧
        (T.st = .recording → T.cur = .none → T.bn = 0 → T.spill = none → ends .ended (BitVec.ofNat 64 T.p)) ∧
        (T.st = .recording → s.tapeHeld = false →
          let u := (s.edge (tapeThread s.core.id) s.thread).endRecording.edge (tapeThread s.core.id) s.thread
          (u.core.tape.st = .broken → exec (.tend st d) s = s.retire st.val ((u.tapeTo .idle).wx d (BitVec.allOnes 64))) ∧
          (u.core.tape.st ≠ .broken → exec (.tend st d) s = s.retire st.val
            ((u.tapeTo .ended).wx d (BitVec.ofNat 64 u.core.tape.p)))) ∧
        (s.tapeHeld = true → T.st ≠ .idle → T.st ≠ .ended →
          exec (.tend st d) s = .next (s.setCtx { s.ctx with wait := .ending }).block) ∧
        (s.tapeHeld = true → exec (.tpop st d 0) s = .next s.block ∧ exec (.tpopb st d) s = .next s.block) ∧
        (s.tapeHeld = false → T.st = .play → nextItem T 4 s = .ok (it, T', at_) s1 →
          let x (i : Instr) (w : Option Word) : Prop :=
            (w = none → exec i s = .next (s1.trapHere ⟨.tapeDiverge,
              BitVec.ofNat 80 (it.typ % 256 + 256 + at_ % 2 ^ 48 * 65536)⟩)) ∧
            (∀ y, w = some y → ∃ t, exec i s = .next t ∧ Advanced s t ∧ WroteC s t d (scalar y) ∧ t.core.tape = T' ∧
              ∀ p, memGet t.mem p = memGet s1.mem p)
          x (.tpop st d 0) (match it with | .val _ y => some y | _ => none) ∧
          x (.tpopb st d) (match it with | .bit y => some (if y then 1 else 0) | _ => none) ∧
          (∀ fin first finw es, it = .oca fin first finw es → s1.core.oc.cfg = true →
            popOca d fin first finw es s1 = .ok () s2 →
            exec (.tpop st d 1) s = s.retire st.val { s2 with core := { s2.core with tape := T' } })) ∧
        (s.tapeHeld = false → T.st ≠ .play → T.st ≠ .broken →
          Traps s (exec (.tpop st d 0) s) .illegal ill ∧ Traps s (exec (.tpopb st d) s) .illegal ill) ∧
        (n ≤ 3 → WritesC s (exec (.tstat st d n) s) d (scalar (
          if n = 0 then T.stateWord
          else if n = 1 then BitVec.ofNat 64 (if T.st = .recording then T.p else if T.st = .check then T.fwd
            else if T.st = .play then T.cursor else 0)
          else if n = 2 then BitVec.ofNat 64 (4096 * T.staged.length)
          else BitVec.ofNat 64 (if T.st = .recording then T.bits else if T.st = .check then T.chkd
            else if T.st = .play then T.r + s.bitsBefore T.cursor (T.cursor / 16 + 1) else 0)))))) ∧
    (s.ctx.ahead = false → s.tapeHeld = false → s.Plain [v] → s.CanIssue [rdM 0] → T.st = .play → nextItem T 4 s = .ok (it, T', at_) s1 → s1 = s →
      ∀ x y, it = .vec false x y → ∃ t, exec (.tpopv st v 0) s = .next t ∧ Advanced s t ∧ t.core.v = s.core.v.set v x ∧
        (∀ k, t.rc k = s.rc k) ∧ t.core.tape = T' ∧ t.mem = s.mem) ∧
    (∀ b p x y, T.play = .vals b p (x ++ [y]) → T.r ≤ b →
      nextItem T 4 s = .ok (.val 1 y, { T with play := if x = [] then .none else .vals b p x }, p) s) ∧
    (∀ b p k, T.play = .zrun b p (k + 1) → T.r ≤ b →
      nextItem T 4 s = .ok (.val 2 0, { T with play := if k = 0 then .none else .zrun b p k }, p) s) ∧
    (∀ b p vs y, T.play = .vals b p (vs ++ [y]) → b < T.r →
      nextItem T 4 s = .ok (.bit (T.w.getLsbD (T.r - 1)), { T with r := T.r - 1 }, T.wAt) s) ∧
    (T.play = .none → T.r = 0 → T.cursor = 0 → nextItem T 4 s = .ok (.none, T, 0) s) ∧
    (s.Works →
      (s.tapeHeld = true → exec (.spillWrite s.core.id) s = .next s ∧ exec (.chunkFetch s.core.id) s = .next s) ∧
      (s.tapeHeld = false → T.st = .recording → T.staged = n :: cs →
        exec (.spillWrite s.core.id) s =
          .next (({ s with core := { s.core with tape := { T with staged := cs } } } : State).spillChunk n 4096)) ∧
      (T.st ≠ .recording ∨ T.staged = [] → exec (.spillWrite s.core.id) s = .next s) ∧
      (s.tapeHeld = false → T.spill = some r → T.st = .play → 0 < T.fetched → T.cursor ≤ 4096 * (T.fetched - 1 + regLen T.region / 4096) →
        let c := T.fetched - 1
        s.tapeRead r (regBase r + 4096 * c) (Min.min 4096 (T.len - 4096 * c)) = (s1, some bs) →
        let u := s1.tapeWrite T.region (T.at_ (4096 * c)) bs
        exec (.chunkFetch s.core.id) s = .next { u with core := { u.core with tape := { u.core.tape with fetched := c } } }) ∧
      (T.spill = none ∨ T.st ≠ .play → exec (.chunkFetch s.core.id) s = .next s))

/-! ### Tasks, messages and bindings -/

/-- R332 to R334, R341: TENQ counts a task on the issuer's level and puts it at the end of the list of its priority in the Hutch
it names, with the handler and o2 to o5, and writes its identifier; a full Hutch makes it wait. SEND and TFIRE open a message
job and send the user message or trigger of their operands. A handler below 64 and a reserved bit are ILLEGAL, an odd handler is
ALIGN. R338 to R340: TBIND binds a handler to a trigger address: 0 where no entry is free, 1 for a new or unbound entry, whose
pending triggers fire, 2 for a replaced one; each binding holds one count on its level. TUNBIND removes the entry and writes how
many triggers it held. -/
def Obligations.SpawningAndBindings : Prop :=
  (∀ (s u : State) (st : Fin 8) (d a b : Fin 32), s.ctx.ahead = false → s.core.id < 4096 →
    let h := s.rx a
    let v := s.rx b
    let ill (i : Instr) : Prop := Traps s (exec i s) .illegal (s.ctx.ir.zeroExtend 80)
    let odd (i : Instr) : Prop := Traps s (exec i s) .align (tvalOf h.toNat)
    let sends (i : Instr) (p : Packet → Prop) : Prop :=
      (64 ≤ s.core.inFlight 4 → exec i s = .next s.block) ∧
      (s.core.inFlight 4 < 64 → ∃ t r x, exec i s = .next t ∧ Advanced s t ∧ OnlySends u t ∧ Opens u t d 4 r ∧
        r.status = stPENDING ∧ t.core.ops = s.core.ops ++ [x] ∧ x.job = some (4, r.ri) ∧ x.tag = s.newTag x.pkt.pin ∧
        x.pkt.kind = 1 ∧ x.pkt.seid = s.myEid ∧ x.pkt.asid = s.asid ∧ x.pkt.otag = x.tag ∧ p x.pkt)
    s.CanIssue [rdC a, rdC b] →
    (let i := Instr.tenq st d a b
     let cl := if v.getLsbD 5 then clusterOf s.core.id else s.core.id / 1024 * 32 + fld v 0 5
     (2 ^ 9 ≤ v.toNat ∨ s.gangCluster cl = false → ill i) ∧
     (v.toNat < 2 ^ 9 → s.gangCluster cl = true →
       (h.toNat < 64 → ill i) ∧ (64 ≤ h.toNat → h.toNat % 2 = 1 → odd i) ∧
       (64 ≤ h.toNat → h.toNat % 2 = 0 →
         (s.hutchRoom cl s.asid = false → exec i s = .next s.block) ∧
         (s.hutchRoom cl s.asid = true → s.countUp s.asid s.myLevel = some u →
           u.levelCancelled s.asid s.myLevel = false →
           let H := s.hutch cl
           let task : Task :=
             { hnd := h.toNat, a0 := s.ro 2, a1 := s.ro 3, a2 := s.ro 4, a3 := s.ro 5, pcc := capMove s.ctx.pcc h.toNat,
               prio := fld v 6 2, pin := if v.getLsbD 8 then .cluster cl else .none, launch := s.myLaunch, asid := s.asid,
               tid := H.nextTid, enq := s.time.toNat }
           ∃ t, exec i s = .next t ∧ Advanced s t ∧ WroteC s t d (scalar (BitVec.ofNat 64 H.nextTid)) ∧
             t.hutch cl = (match fld v 6 2 with
               | 0 => { H with ser := H.ser + 1, t0 := H.t0 ++ [task] }
               | 1 => { H with ser := H.ser + 1, t1 := H.t1 ++ [task] }
               | 2 => { H with ser := H.ser + 1, t2 := H.t2 ++ [task] }
               | _ => { H with ser := H.ser + 1, t3 := H.t3 ++ [task] }) ∧
             (∀ c, c ≠ cl → t.hutch c = s.hutch c) ∧ t.mem = u.mem ∧ t.levels = u.levels ∧ t.core.v = s.core.v)))) ∧
    (let i := Instr.send st d a b
     let e := fld v 0 24
     (2 ^ 25 ≤ v.toNat ∨ 256 ≤ e % 1024 → ill i) ∧
     (v.toNat < 2 ^ 25 → e % 1024 < 256 →
       (h.toNat < 64 → ill i) ∧ (64 ≤ h.toNat → h.toNat % 2 = 1 → odd i) ∧
       (64 ≤ h.toNat → h.toNat % 2 = 0 →
         (if e / 4096 = s.pkgNo then s.countUp s.asid s.myLevel = some u else u = s) →
         sends i (fun p => p.deid = e ∧ p.handler = h.toNat ∧ p.arg0 = s.ro 2 ∧ p.arg1 = s.ro 3 ∧ p.arg2 = s.ro 4 ∧
           p.arg3 = s.ro 5 ∧ p.data = [] ∧ p.pcc = capMove s.ctx.pcc h.toNat ∧
           p.launch = (if e / 4096 = s.pkgNo then s.myLaunch else 0) ∧ p.pin = (if v.getLsbD 24 then 1 else 0))))) ∧
    (let i := Instr.tfire st d a b
     (2 ^ 24 ≤ h.toNat → ill i) ∧
     (h.toNat < 2 ^ 24 → u = s → sends i (fun p => p.deid = h.toNat ∧ p.handler = 13 ∧ p.arg0 = v ∧ p.data = [])))) ∧
  (∀ (s u : State) (st : Fin 8) (d a b : Fin 32) (old : Binding), s.ctx.ahead = false →
    let h := s.rx b
    let addr := s.rx a
    let new : Binding := { addr := addr, hnd := h.toNat, pcc := s.ctx.pcc, o2 := s.ro 2, o3 := s.ro 3, launch := s.myLaunch,
                           bnd := true }
    (s.CanIssue [rdC a, rdC b] →
      let i := Instr.tbind st d a b
      (h.toNat < 64 → Traps s (exec i s) .illegal (s.ctx.ir.zeroExtend 80)) ∧
      (64 ≤ h.toNat → h.toNat % 2 = 1 → Traps s (exec i s) .align (tvalOf h.toNat)) ∧
      (64 ≤ h.toNat → h.toNat % 2 = 0 →
        (s.core.bindOf addr = none → 64 ≤ s.core.binds.length → WritesC s (exec i s) d (scalar 0)) ∧
        (s.core.bindOf addr = none → s.core.binds.length < 64 → s.countUp s.asid s.myLevel = some u →
          ∃ t, exec i s = .next t ∧ Advanced s t ∧ WroteC s t d (scalar 1) ∧ (∃ k < 64, (∀ x ∈ s.core.binds, x.idx ≠ k) ∧
              (∀ k' < k, ∃ x ∈ s.core.binds, x.idx = k') ∧ t.core.binds = s.core.binds ++ [{ new with idx := k }]) ∧
            t.levels = u.levels ∧ t.mem = u.mem) ∧
        (s.core.bindOf addr = some old → old.bnd = true → s.countRoom s.asid s.myLevel 1 = true →
          ∃ t, exec i s = .next t ∧ Advanced s t ∧ WroteC s t d (scalar 2) ∧
            t.core.bindOf addr = some { new with seq := old.seq, idx := old.idx } ∧
            ∀ x, x ≠ addr → t.core.bindOf x = s.core.bindOf x) ∧
        (s.core.bindOf addr = some old → old.bnd = false → s.countRoom s.asid s.myLevel (1 + old.pend) = true →
          ∃ t, exec i s = .next t ∧ Advanced s t ∧ WroteC s t d (scalar 1) ∧
            (∃ x, t.core.bindOf addr = some x ∧ x.bnd = true ∧ x.hnd = h.toNat ∧ x.pend = 0 ∧
              x.seq % 2 ^ 32 = (old.seq + old.pend) % 2 ^ 32) ∧
            ∀ x, x ≠ addr → t.core.bindOf x = s.core.bindOf x))) ∧
    (s.CanIssue [rdC a] →
      let i := Instr.tunbind st d a
      (s.core.bindOf addr = none → WritesC s (exec i s) d (scalar 0)) ∧
      (s.core.bindOf addr = some old →
        ∃ t, exec i s = .next t ∧ Advanced s t ∧ WroteC s t d (scalar (BitVec.ofNat 64 old.pend)) ∧
          t.core.bindOf addr = none ∧ (∀ x, x ≠ addr → t.core.bindOf x = s.core.bindOf x) ∧
          (old.bnd = false → t.levels = s.levels ∧ t.mem = s.mem))))

/-- R336, R337: RFORK of an empty range enqueues the continuation and writes 0; otherwise it takes a join cell, divides the
range into equal consecutive parts, first the larger ones, one for each idle core of the launch but no more than grains, and
starts or enqueues them. JOIN at its cell ends the task, and the last one starts the continuation in the same core; no count
moves where it counts in the level of the task that ended, and one moves from that level to the cell's where it does not (R329).
-/
def Obligations.ForkAndJoin : Prop :=
  ∀ (s u : State) (st : Fin 8) (d a b : Fin 32) (j : Join) (run : Running) (n k : Nat) (hnd : Nat) (cell u4 : Word)
    (base : Task),
    (s.ctx.ahead = false → s.CanIssue [rdC a, rdC b] →
      let i := Instr.rfork st d a b
      let count := (s.rx a).toNat
      let sub := s.rx b
      let cont := s.ro 3
      let grain := (s.ro 2).toNat
      let cl := clusterOf s.core.id
      let idle := s.idleCores
      (grain = 0 ∨ cont.toNat < 64 ∨ sub.toNat < 64 → Traps s (exec i s) .illegal (s.ctx.ir.zeroExtend 80)) ∧
      (grain ≠ 0 → 64 ≤ cont.toNat → 64 ≤ sub.toNat →
        (sub.toNat % 2 = 1 → Traps s (exec i s) .align (tvalOf sub.toNat)) ∧
        (sub.toNat % 2 = 0 → cont.toNat % 2 = 1 → Traps s (exec i s) .align (tvalOf cont.toNat)) ∧
        (sub.toNat % 2 = 0 → cont.toNat % 2 = 0 →
          (count = 0 → s.hutchRoom cl s.asid = true → s.countUp s.asid s.myLevel = some u →
            ∃ t, exec i s = .next t ∧ Advanced s t ∧ WroteC s t d (scalar 0) ∧ t.joins = s.joins ∧
              (u.levelCancelled s.asid s.myLevel = false → ∃ x ∈ (t.hutch cl).tasks, x.hnd = cont.toNat ∧ x.a0 = s.ro 4 ∧
                x.a1 = s.ro 5 ∧ x.prio = s.myPrio ∧ x.launch = s.myLaunch ∧ x.pcc = capMove s.ctx.pcc cont.toNat)) ∧
          (count ≠ 0 → s.freeCell cl = none → exec i s = .next s.block) ∧
          (count ≠ 0 → s.freeCell cl = some k → (idle ≠ [] ∨ s.hutchRoom cl s.asid = true) →
            n = Max.max 1 (Min.min idle.length ((count + grain - 1) / grain)) → s.countRoom s.asid s.myLevel n = false →
            Traps s (exec i s) .illegal (s.ctx.ir.zeroExtend 80)) ∧
          (count ≠ 0 → s.freeCell cl = some k → (idle ≠ [] ∨ s.hutchRoom cl s.asid = true) →
            n = Max.max 1 (Min.min idle.length ((count + grain - 1) / grain)) → s.countRoom s.asid s.myLevel n = true →
            countTasks n s = .ok () u →
            let c : Join := { s.joinCell s.asid cl k with
              pcc := s.ctx.pcc, cont := cont.toNat, u4 := s.ro 4, u5 := s.ro 5, count := BitVec.ofNat 64 count,
              rem := n, vld := true, launch := s.myLaunch }
            let ts := subRanges count n sub.toNat c.ident (s.ro 4)
              { hnd := 0, prio := s.myPrio, launch := s.myLaunch, asid := s.asid, pcc := capMove s.ctx.pcc sub.toNat }
            let w := u.setJoin c
            exec i s = s.retire st.val ((if idle = [] then ts.foldl (fun s t => (s.enqueue cl false s.thread t).1) w
              else (idle.zip ts).foldl (fun s p => s.recruit p.1 p.2) w).wx d c.ident))))) ∧
    (let count := (s.rx a).toNat
     0 < n →
      let ts := subRanges count n hnd cell u4 base
      let q := count / n
      let r := count % n
      ts.length = n ∧ ∀ k < n, ∃ t ∈ ts, t.hnd = hnd ∧ t.a2 = cell ∧ t.a3 = u4 ∧ t.pcc = base.pcc ∧
        t.a0.toNat = k * q + Min.min k r ∧ t.a1.toNat = (k + 1) * q + Min.min (k + 1) r) ∧
    (s.helper = false → s.CanIssue [rdC a] →
      let i := Instr.join st a
      let lid (launch : Nat) : Nat := if launch = 0 then jobLid else launch
      (s.cellOf (s.rx a) = none → Traps s (exec i s) .illegal (s.ctx.ir.zeroExtend 80)) ∧
      (s.cellOf (s.rx a) = some j → s.core.settled = true → s.core.helpersLive = false → s.ctx.loop.lact = false →
        s.ctx.fix = [] → s.core.run = some run → s.levelCancelled s.asid s.myLevel = false →
        (2 ≤ j.rem → ∃ t, exec i s = .next t ∧ t.core.run = none ∧ t.core.jobs = [] ∧ t.core.idleSince = s.time.toNat ∧
          t.joinCell s.asid j.cl j.idx = { j with rem := j.rem - 1 }) ∧
        (j.rem ≤ 1 → j.launch ≠ run.task.launch → s.countRoom s.asid (lid j.launch) 1 = false →
          Traps s (exec i s) .illegal (s.ctx.ir.zeroExtend 80)) ∧
        (j.rem ≤ 1 → (j.launch = run.task.launch ∨ s.countRoom s.asid (lid j.launch) 1 = true) →
          ∃ t x, exec i s = .next t ∧ t.core.run = some x ∧ x.how = .continued ∧ x.task.hnd = j.cont ∧
          x.task.a0 = j.u4 ∧ x.task.a1 = j.u5 ∧ x.task.a2 = j.count ∧ x.task.a3 = j.ident ∧ x.task.prio = run.task.prio ∧
          x.task.launch = j.launch ∧ t.core.ctxs[(0 : Fin 11)].pcc = capMove (capMove j.pcc j.cont) j.cont ∧
          t.core.ctxs[(0 : Fin 11)].rc 3 = scalar j.u4 ∧ t.core.ctxs[(0 : Fin 11)].rc 6 = scalar j.ident ∧
          t.joinCell s.asid j.cl j.idx = { j with vld := false, gen := (j.gen + 1) % 2 ^ 32 } ∧
          (j.launch = run.task.launch → t.levels = s.levels) ∧
          (run.task.asid = s.asid → lid j.launch ≠ lid run.task.launch → ∀ y,
            (s.levelOf s.asid (lid j.launch) = some y →
              ∃ z, t.levelOf s.asid (lid j.launch) = some z ∧ z.cnt = y.cnt + 1) ∧
            (s.levelOf s.asid (lid run.task.launch) = some y → 1 < y.cnt →
              ∃ z, t.levelOf s.asid (lid run.task.launch) = some z ∧ z.cnt + 1 = y.cnt)))))

/-- R331, R349, R350, R222, R229: EXIT in h0 waits for everything the task began, then leaves the core idle with its job records
freed; in a helper it ends the helper with cause 0. HSTART starts a helper with a copy of the c registers, or writes 0; HSTOP
frees a slot once the helper has stopped; HSTAT reads a slot, and frees an ENDED one. CANCEL discards the queued tasks it names
and writes whether there was one. R351, R332, R348: in a run-ahead helper, stores, atomics, remote operations, copies, fences,
waits, barriers, channels, tape instructions and messages retire as no-ops: nothing changes but the program counter and the
count of instructions. -/
def Obligations.TaskEndsAndHelpersAhead : Prop :=
  (∀ (s : State) (st : Fin 8) (st' : Fin 4) (d a b : Fin 32) (run : Running) (h : Fin 11),
    let ill (i : Instr) : Prop := Traps s (exec i s) .illegal (s.ctx.ir.zeroExtend 80)
    (∀ i ∈ [Instr.exit st, .exitShort st'], s.CanIssue [] →
      (s.helper = false → s.core.settled = true → s.core.helpersLive = false → s.core.run = some run →
        ∃ t, exec i s = .next t ∧ t.core.run = none ∧ t.core.jobs = [] ∧ t.core.idleSince = s.time.toNat ∧
          t.core.mm = false ∧ t.core.ctxs[(0 : Fin 11)].nfail = 0 ∧
          ∀ h : Fin 11, h ≠ 0 → t.core.ctxs[h].slot = .free) ∧
      (s.helper = false → (s.core.settled = false ∨ s.core.helpersLive = true) →
        ∃ t, exec i s = .next t ∧ t.ctx.blocked = true ∧ t.ctx.pcc = s.ctx.pcc ∧ t.ctx.loop.lact = false ∧
          t.core.run = s.core.run ∧ (∀ h : Fin 11, s.core.ctxs[h].slot = .live → t.core.ctxs[h].stopReq = true)) ∧
      (s.helper = true →
        ∃ t, exec i s = .next t ∧ t.ctx.slot = (if s.ctx.ahead then .free else .ended) ∧ t.ctx.endCause = 0 ∧
          t.core.run = s.core.run ∧ t.mem = s.mem)) ∧
    (s.helper = true → s.ctx.stopReq = false →
      ill (.hstart st d a b) ∧ ill (.hstop st a) ∧ ill (.hstat st d a b)) ∧
    (s.helper = false →
      (s.CanIssue rdAllC →
        let v := s.rx b
        let hn := fld v 0 4
        let free (h : Fin 11) : Prop := h ≠ 0 ∧ h.val + 8 ≤ s.core.b0 ∧ s.core.ctxs[h].slot = .free
        let ok := capCheck (s.rc a) [pX] (capA (s.rc a)) 2 2 = none
        (2 ^ 5 ≤ v.toNat ∨ 10 < hn → ill (.hstart st d a b)) ∧
        (v.toNat < 2 ^ 5 → hn ≤ 10 →
          (∀ c, capCheck (s.rc a) [pX] (capA (s.rc a)) 2 2 = some c →
            Traps s (exec (.hstart st d a b) s) c (tvalOf (capA (s.rc a)))) ∧
          (ok → (∀ x : Fin 11, (hn = 0 ∨ x.val = hn) → ¬ free x) →
            WritesC s (exec (.hstart st d a b) s) d (scalar 0)) ∧
          (ok → free h → (hn = h.val ∨ (hn = 0 ∧ ∀ x : Fin 11, x < h → ¬ free x)) →
            ∃ t, exec (.hstart st d a b) s = .next t ∧ Advanced s t ∧ WroteC s t d (scalar (BitVec.ofNat 64 h.val)) ∧
              t.core.ctxs[h].readyAt = Max.max s.core.ctxs[h].readyAt (s.core.cyc + 1) ∧
              t.core.ctxs[h].pcc = s.rc a ∧ t.core.ctxs[h].slot = .live ∧ t.core.ctxs[h].ahead = v.getLsbD 4 ∧
              (∀ k, t.core.ctxs[h].rc k = s.rc k) ∧ t.core.ctxs[h].o = Vector.replicate 8 0 ∧ t.core.ctxs[h].loop.lact = false ∧
              (∀ x : Fin 11, x ≠ h → x ≠ s.core.cur → t.core.ctxs[x] = s.core.ctxs[x]) ∧ t.mem = s.mem))) ∧
      (s.CanIssue [rdC a] →
        ((s.rx a).toNat = 0 ∨ 10 < (s.rx a).toNat → ill (.hstop st a)) ∧
        ((s.rx a).toNat = h.val → h ≠ 0 →
          (s.core.ctxs[h].slot ≠ .live → ∃ t, exec (.hstop st a) s = .next t ∧ Advanced s t ∧
            t.core.ctxs[h].slot = .free ∧ (∀ k, t.rc k = s.rc k) ∧ t.mem = s.mem) ∧
          (s.core.ctxs[h].slot = .live → ∃ t, exec (.hstop st a) s = .next t ∧ t.core.ctxs[h].stopReq = true ∧
            t.ctx.blocked = true ∧ t.ctx.pcc = s.ctx.pcc))) ∧
      (s.CanIssue [rdC a, rdC b] →
        (((s.rx a).toNat = 0 ∨ 10 < (s.rx a).toNat ∨ 4 ≤ (s.rx b).toNat) → ill (.hstat st d a b)) ∧
        ((s.rx a).toNat = h.val → h ≠ 0 → (s.rx b).toNat < 4 →
          let x := s.core.ctxs[h]
          let sel := (s.rx b).toNat
          let stn := match x.slot with | .free => 0 | .live => 1 | .ended => 2
          let w : Nat := if sel = 0 then
              stn + (if x.slot = .live ∧ x.ahead = true then 4 else 0) + (if x.slot = .ended then x.endCause % 64 * 8 else 0)
            else if x.slot ≠ .ended then 0 else if sel = 1 then x.endTval.toNat % 2 ^ 64
            else if sel = 2 then x.endPc.toNat % 2 ^ 64 else x.endTval.toNat / 2 ^ 64 + x.endPc.toNat / 2 ^ 64 * 65536
          ∃ t, exec (.hstat st d a b) s = .next t ∧ Advanced s t ∧ WroteC s t d (scalar (BitVec.ofNat 64 w)) ∧
            t.core.ctxs[h].slot = (if sel = 0 ∧ x.slot = .ended then .free else x.slot) ∧ t.mem = s.mem))) ∧
    (s.CanIssue [rdC a, rdC b] →
      let i := Instr.cancel st d a b
      let lvl := fld (s.rx a) 0 3
      let hit (t : Task) : Prop := t.asid = s.asid ∧ t.tid = (s.rx b).toNat
      let live : Prop := (∃ x ∈ s.hutches, ∃ t ∈ x.tasks, hit t) ∨ ∃ c ∈ s.allCores, ∃ r, c.run = some r ∧ hit r.task
      (4 < lvl → ill i) ∧ (lvl = 4 → s.pccY = false → Traps s (exec i s) .capPerm 4) ∧
      (lvl = 0 → ∃ t, exec i s = .next t ∧ Advanced s t ∧ (live → WroteC s t d (scalar 0)) ∧
        (¬ live → WroteC s t d (scalar 1)) ∧ (∀ x ∈ t.hutches, ∀ y ∈ x.tasks, ¬ hit y) ∧
        ∀ r, t.core.run = some r → hit r.task → r.cancelled = true) ∧
      (lvl ≤ 4 → (lvl = 4 → s.pccY = true) →
        let r := s.cancel s.asid lvl (s.rx b)
        exec i s = s.retire st.val (r.1.wx d (if r.2 then 0 else 1))))) ∧
  (∀ (s : State) (st : Fin 8) (st' : Fin 4) (d a b : Fin 32) (off : Int) (n : Nat) (x y : Fin 16), s.ctx.ahead = true →
    let cx : Fin 32 := ⟨x.val, by omega⟩
    let cy : Fin 32 := ⟨y.val, by omega⟩
    let nops (reads : List (RegFile × Nat)) (is_ : List Instr) : Prop :=
      s.CanIssue reads → ∀ i ∈ is_, OnlyAdvances s (exec i s)
    nops [rdC d, rdC a] [.stB st d a off, .stH st d a off, .stW st d a off, .stD st d a off, .stC st d a off] ∧
    nops [rdC cx, rdC cy] [.stDShort st' x y, .stWShort st' x y] ∧
    nops [rdC cx, rdC 2] [.stDC2Short st' x y, .stCC2Short st' x y] ∧
    nops [rdC a, rdC b]
      [.aaddD st d a b, .aandD st d a b, .aorD st d a b, .axorD st d a b, .aminD st d a b, .amaxD st d a b,
       .aminuD st d a b, .amaxuD st d a b, .aswapD st d a b, .afaddD st d a b, .aaddW st d a b, .aandW st d a b,
       .aorW st d a b, .axorW st d a b, .aminW st d a b, .amaxW st d a b, .aminuW st d a b, .amaxuW st d a b,
       .aswapW st d a b, .afaddW st d a b, .afaddbf st d a b] ∧
    nops [rdC a, rdC b, rdO 2] [.acasD st d a b, .acasW st d a b] ∧
    (n ≤ 4 → nops [] [.fence st n, .fencer st d, .yield st, .yieldShort st']) ∧
    nops [rdC a] [.waitj st d a, .pollj st d a, .sleep st a] ∧ nops [rdC cx] [.waitjShort st' x] ∧
    nops [rdC a, rdC b] [.bari st a b, .bara st d a b, .barad st d a b, .barw st d a b] ∧
    (d ≠ 0 → d ≠ a → d ≠ b → nops [rdC d, rdC a, rdC b] [.baraw st d a b]) ∧
    nops [rdC a, rdC b] [.chopen st d a b] ∧ nops [rdC d, rdC a, rdC b] [.chsend st d a b] ∧ nops [rdC a] [.chclose st a] ∧
    (fld (s.ro 2) 1 63 = 0 → nops [rdC a, rdC b] [.chrecv st d a b]) ∧
    nops [rdC a, rdC b] [.rld st d a b] ∧ nops [rdC d, rdC a, rdC b] [.rst st d a b, .gst st d a b] ∧
    nops [rdC d, rdC a, rdC b, rdO 2] [.ramo st d a b] ∧
    nops [rdC a] [.gcommit st d a, .gabort st a, .gcstat st d a] ∧ nops [rdC a, rdO 2] [.gwait st d a] ∧
    (1 ≤ (s.ro 3).toNat → (s.ro 3).toNat ≤ 1024 → nops [rdC a, rdC b, rdO 2, rdO 3] [.cpyq st d a b]) ∧
    (s.ro 3 = 0 → nops [rdC a, rdC b, rdO 0, rdO 2, rdO 3] [.cpy st d a b]) ∧
    (s.ro 5 = 0 → nops [rdC a, rdC b, rdO 0, rdO 2, rdO 3, rdO 4, rdO 5] [.cpy2d st d a b]) ∧
    (s.ro 3 = 0 → nops [rdC a, rdC b, rdO 2, rdO 3] [.cpyx st d a b]) ∧
    (s.ro 2 = 0 → nops [rdC a, rdC b] [.tbegin st a b, .tplay st a b]) ∧ nops [rdC a] [.trec st a, .trecb st a] ∧
    nops [] [.tend st d, .tpopb st d] ∧ (n ≤ 1 → nops [] [.tpop st d n]) ∧ (n ≤ 3 → nops [] [.tstat st d n]) ∧
    nops [rdC a, rdC b] [.tenq st d a b, .send st d a b, .tbind st d a b, .tfire st d a b] ∧ nops [rdC a] [.tunbind st d a] ∧
    (s.ro 2 ≠ 0 → 64 ≤ (s.ro 3).toNat → nops [rdC a, rdC b] [.rfork st d a b]))
/-! ### Channels and barriers -/

/-- R342 to R347, R171: CHOPEN answers a send handle, or takes the lowest run of free slots for a declared channel that is not
open; CHSEND asks its peer for a slot, waits for the answer, and sends its bytes into the slot granted; CHRECV moves the oldest
message to memory, frees its slot and writes its length and sender (its capability is checked over 240 bytes, and a watchpoint
sees the message's own, R230); CHCLOSE closes an end. Handles and channels that are not as they must be raise CHANNEL with the
id. The bits of a slot request and of a message's packet are log 14. -/
def Obligations.ChannelInstructions : Prop :=
  ∀ (s s1 s2 : State) (st : Fin 8) (d a b : Fin 32) (k base i' tag peer : Nat) (e : ChanEnd) (gs hs : List Seg)
    (slots : List Nat), s.ctx.ahead = false → s.core.id < 4096 →
    let handle (id peer dir : Nat) : Word := BitVec.ofNat 64 (id + peer * 2 ^ 16 + dir * 2 ^ 40 + 2 ^ 41)
    let ill (i : Instr) : Prop := Traps s (exec i s) .illegal (s.ctx.ir.zeroExtend 80)
    let chan (i : Instr) (id : Nat) : Prop := Traps s (exec i s) .channel (tvalOf id)
    (s.CanIssue [rdC a, rdC b] →
      let i := Instr.chopen st d a b
      let v := s.rx b
      let id := (s.rx a).toNat
      let p := fld v 0 24
      let dir := v.getLsbD 24
      (2 ^ 16 ≤ id ∨ 2 ^ 25 ≤ v.toNat ∨ (dir = true ∧ 256 ≤ p % 1024) ∨ (dir = false ∧ p ≠ 0) → ill i) ∧
      (id < 2 ^ 16 → v.toNat < 2 ^ 25 → dir = true → p % 1024 < 256 → WritesC s (exec i s) d (scalar (handle id p 1))) ∧
      (id < 2 ^ 16 → v.toNat = 0 →
        (s.chanK s.asid id = none → chan i id) ∧
        (s.chanK s.asid id = some k → s.core.freeSlots k = none → chan i id) ∧
        (s.chanK s.asid id = some k → s.core.freeSlots k = some base →
          ((s.core.endOf id).isSome = true → chan i id) ∧
          (s.core.endOf id = none → s.myEid < 2 ^ 24 → ∃ t, exec i s = .next t ∧ Advanced s t ∧
            WroteC s t d (scalar (handle id s.myEid 0)) ∧
            t.core.ends = s.core.ends ++ [{ id := id, k := k, base := base, slots := List.replicate k .free }] ∧
            t.mem = s.mem ∧ t.core.v = s.core.v)))) ∧
    (s.CanIssue [rdC d, rdC a, rdC b] →
      let i := Instr.chsend st d a b
      let h := s.rx d
      let id := fld h 0 16
      let n := (s.rx b).toNat
      let good : Prop := fld h 42 22 = 0 ∧ h.getLsbD 41 = true ∧ h.getLsbD 40 = true ∧ fld h 16 10 < 256
      (n = 0 ∨ 240 < n → ill i) ∧ (1 ≤ n → n ≤ 240 → ¬ good → chan i id) ∧
      (1 ≤ n → n ≤ 240 → good → peer = fld h 16 24 → access (s.rc a) [pL] (capA (s.rc a)) n 1 .load s = .ok gs s1 →
        ((∀ t, s.ctx.wait ≠ .slots t) → peer / 4096 = s.pkgNo →
          ∃ t, exec i s = .next t ∧ t.ctx.pcc = s.ctx.pcc ∧ t.ctx.blocked = true ∧ t.ctx.wait = .slots (s.newTag 0) ∧
            t.net = s.net ++ [{ kind := 6, deid := peer, seid := s.myEid, asid := s.asid, otag := s.newTag 0,
                                arg0 := BitVec.ofNat 64 (id + 65536) }] ∧ t.core.ops = s.core.ops) ∧
        (s.ctx.wait = .slots tag → s.core.held.find? (fun x => x.tag == tag) = none →
          ∃ t, exec i s = .next t ∧ t.ctx.pcc = s.ctx.pcc ∧ t.ctx.blocked = true ∧ t.ctx.wait = s.ctx.wait ∧ t.net = s.net) ∧
        (s.ctx.wait = .slots tag → s.core.held.find? (fun x => x.tag == tag) = some ⟨tag, peer, id, slots⟩ →
          slots = i' :: [] → s1.QuietAll gs 1 →
          ∃ t x, exec i s = .next t ∧ GoesOn s t ∧ (∀ r, t.rc r = s.rc r) ∧ t.core.ops = s.core.ops ++ [x] ∧
            x.pkt.handler = 9 ∧ x.pkt.deid = peer ∧ x.pkt.data = segRead s1 gs ∧ x.pkt.arg0 = BitVec.ofNat 64 (2 ^ 63 + i') ∧
            x.pkt.arg1 = BitVec.ofNat 64 (id + tag * 65536) ∧ ∀ p, memGet t.mem p = memGet s1.mem p) ∧
        (s.ctx.wait = .slots tag → s.core.held.find? (fun x => x.tag == tag) = some ⟨tag, peer, id, []⟩ →
          exec i s = .next (({ s1 with core := { s1.core with held := s1.core.held.filter (fun x => x.tag != tag) } } :
            State).trapHere ⟨.channel, tvalOf id⟩)))) ∧
    (s.CanIssue [rdC a, rdC b] → fld (s.ro 2) 1 63 = 0 →
      let i := Instr.chrecv st d a b
      let h := s.rx a
      (s.recvEnd h = none → chan i (fld h 0 16)) ∧
      (s.recvEnd h = some e → s.core.ocOwns e.id = true → chan i e.id) ∧
      (s.recvEnd h = some e → s.core.ocOwns e.id = false →
        capCheck (s.rc b) [pS] (capA (s.rc b)) 240 1 = none →
        segsOf (s.who (s.rc b)) .store (pieces (capA (s.rc b)) 240) s = .ok hs s1 →
        (e.fifo = [] → (s.ro 2).getLsbD 0 = true → ∃ t, exec i s = .next t ∧ Advanced s t ∧ WroteC s t d (scalar 0) ∧
          t.core.ends = s.core.ends) ∧
        (e.fifo = [] → (s.ro 2).getLsbD 0 = false →
          ∃ t, exec i s = .next t ∧ t.ctx.pcc = s.ctx.pcc ∧ t.ctx.blocked = true ∧ t.core.ends = s.core.ends) ∧
        (∀ fs, e.fifo = k :: fs → Memory.wf s.mem = true →
          let hd := s.getNat (poolPlace s.core.id (1024 * s.core.b2 + 256 * (e.base + k))) 16
          let len := hd / 2 ^ 16 % 256
          segsOf (s.who (s.rc b)) .store (pieces (capA (s.rc b)) len) s1 = .ok gs s2 → s2.QuietAll gs 1 →
          watchHit s2 .store (capA (s.rc b)) len = none →
          ∃ t, exec i s = .next t ∧ GoesOn s t ∧
            WroteC s t d (scalar (BitVec.ofNat 64 (len + hd / 2 ^ 24 % 2 ^ 24 * 256 + 2 ^ 32))) ∧
            (∀ p, ¬ inSegs gs p → ¬ inEntries gs p → memGet t.mem p = memGet s2.mem p) ∧
            (∀ g, gs = [g] → (∀ p, within g.place len p → ¬ inEntry g p) → t.getBytes g.place len =
              s.getBytes (poolPlace s.core.id (1024 * s.core.b2 + 256 * (e.base + k)) + 16) len) ∧
            ∃ x ∈ t.core.ends, x.id = e.id ∧ x.k = e.k ∧ x.base = e.base ∧ k ∉ x.fifo))) ∧
    (s.CanIssue [rdC a] →
      let i := Instr.chclose st a
      let h := s.rx a
      (sendHandle h = true → OnlyAdvances s (exec i s)) ∧
      (sendHandle h = false → s.recvEnd h = none → chan i (fld h 0 16)) ∧
      (sendHandle h = false → s.recvEnd h = some e → s.core.ocOwns e.id = true → chan i e.id) ∧
      (sendHandle h = false → s.recvEnd h = some e → s.core.ocOwns e.id = false →
        ∃ t, exec i s = .next t ∧ Advanced s t ∧ (∀ r, t.rc r = s.rc r) ∧
          t.core.ends = s.core.ends.filter (fun x => x.id != e.id) ∧ t.mem = s.mem ∧
          (e.reqs = [] → t.net = s.net)))


/-- R357 to R360: BARI sets a barrier's expected count and clears its drops. BARA and BARAD count an arrival of the barrier's
present phase, and the last one expected starts the next phase, whose expected count has lost the drops; C[d] is the phase
number after it. An arrival that is over raises BARRIER_OVER. BARW waits until its phase has passed. BARAW arrives, keeps its
resume word in C[d] (from when it starts to wait: log 37), and waits. At another home each sends its request, in the packet bits
of log 14, and waits for the answer. -/
def Obligations.BarrierInstructions : Prop :=
  ∀ (s : State) (st : Fin 8) (d a b : Fin 32) (status : Nat) (val : Word), s.ctx.ahead = false → s.core.id < 4096 →
    Memory.wf s.mem = true →
    let w := s.rx a
    let n := s.rx b
    let k := w.toNat % 128
    let home := if w.getLsbD 32 then s.myEid else fld w 8 24
    let named : Prop := w.toNat < 2 ^ 33 ∧ w.getLsbD 7 = false ∧ home % 1024 < 256
    let ill (i : Instr) : Prop := Traps s (exec i s) .illegal (s.ctx.ir.zeroExtend 80)
    let B := s.bar s.core.id k
    let passed (ph m : Nat) : Prop := 1 ≤ (ph + 2 ^ 32 - m % 2 ^ 32) % 2 ^ 32 ∧ (ph + 2 ^ 32 - m % 2 ^ 32) % 2 ^ 32 < 2 ^ 31
    let next (drop : Nat) : Bar :=
      if B.cnt + 1 = B.exp then { exp := B.exp - (B.drop + drop), cnt := 0, drop := 0, vld := true, ph := (B.ph + 1) % 2 ^ 32 }
      else { exp := B.exp, cnt := B.cnt + 1, drop := B.drop + drop, vld := true, ph := B.ph }
    let live : Prop := B.vld = true ∧ B.exp ≠ 0 ∧ n.toNat = B.ph ∧ B.drop < 65535 ∧ B.cnt < 65535
    let still : Prop := s.Still (barPlace s.core.id k) 16 4
    let sets (t : State) (x : Bar) : Prop := t.bar s.core.id k = x ∧
      ∀ p, ¬ within (barPlace s.core.id k) 16 p → memGet t.mem p = memGet s.mem p
    let late (lost : Nat) : Addr := BitVec.ofNat 80 (k + 128 * lost + home * 256)
    (s.CanIssue [rdC a, rdC b] →
      (¬ named → ill (.bari st a b) ∧ (s.ctx.wait = .none → ill (.bara st d a b) ∧ ill (.barad st d a b)) ∧
        ill (.barw st d a b)) ∧
      (named → home ≠ s.myEid ∨ n.toNat = 0 ∨ 2 ^ 16 ≤ n.toNat ∨ B.cnt ≠ 0 → ill (.bari st a b)) ∧
      (named → home = s.myEid → n.toNat ≠ 0 → n.toNat < 2 ^ 16 → B.cnt = 0 → still →
        ∃ t, exec (.bari st a b) s = .next t ∧ Advanced s t ∧ (∀ r, t.rc r = s.rc r) ∧
          sets t { exp := n.toNat, cnt := 0, drop := 0, vld := true, ph := B.ph }) ∧
      (named → n.toNat < 2 ^ 32 → (∀ p ∈ [(Instr.bara st d a b, 0), (Instr.barad st d a b, 1)],
        (home = s.myEid → s.ctx.wait = .none → live → still → (∀ x ∈ s.core.barw, x.bar ≠ k) →
          ∃ t, exec p.1 s = .next t ∧ Advanced s t ∧ WroteC s t d (scalar (BitVec.ofNat 64 (next p.2).ph)) ∧ sets t (next p.2)) ∧
        (home = s.myEid → s.ctx.wait = .none → B.vld = false ∨ B.exp = 0 ∨ n.toNat ≠ B.ph →
          Traps s (exec p.1 s) .barrierOver (late 0)) ∧
        (home ≠ s.myEid → s.ctx.wait = .none →
          ∃ t x, exec p.1 s = .next t ∧ t.ctx.pcc = s.ctx.pcc ∧ t.ctx.blocked = true ∧ t.ctx.wait = .sent (s.newTag 0) ∧
            t.core.ops = s.core.ops ++ [x] ∧ x.pkt.deid = home ∧ x.pkt.handler = 8 ∧ x.pkt.arg0 = BitVec.ofNat 64 k ∧
            x.pkt.arg1 = BitVec.ofNat 64 (n.toNat + p.2 * 2 ^ 32) ∧ t.mem = s.mem) ∧
        (s.ctx.wait = .replied 0 val → fld val 32 32 ≠ 1 →
          ∃ t, exec p.1 s = .next t ∧ Advanced s t ∧ WroteC s t d (scalar (BitVec.ofNat 64 (fld val 0 32))) ∧ t.mem = s.mem) ∧
        (s.ctx.wait = .replied status val → status ≠ 0 ∨ fld val 32 32 = 1 →
          exec p.1 s = .next ((s.setCtx { s.ctx with wait := .none }).trapHere
            ⟨.barrierOver, late (if status = 0 then 0 else 1)⟩)))) ∧
      (named → home = s.myEid →
        (passed B.ph (n.toNat % 2 ^ 32) → ∃ t, exec (.barw st d a b) s = .next t ∧ Advanced s t ∧ WroteC s t d (scalar (BitVec.ofNat 64 B.ph)) ∧
            t.mem = s.mem ∧ t.core.ops = s.core.ops) ∧
        (¬ passed B.ph (n.toNat % 2 ^ 32) → exec (.barw st d a b) s = .next s.block)) ∧
      (named → home ≠ s.myEid →
        (s.ctx.wait = .none →
          ∃ t x, exec (.barw st d a b) s = .next t ∧ t.ctx.pcc = s.ctx.pcc ∧ t.ctx.wait = .barw (s.newTag 0) ∧
            t.core.ops = s.core.ops ++ [x] ∧ x.pkt.deid = home ∧ x.pkt.arg1 = BitVec.ofNat 64 (n.toNat % 2 ^ 32 + 2 ^ 33)) ∧
        (s.ctx.wait = .barwDone 0 val → fld val 32 32 ≠ 2 →
          ∃ t, exec (.barw st d a b) s = .next t ∧ Advanced s t ∧ WroteC s t d (scalar (BitVec.ofNat 64 (fld val 0 32)))))) ∧
    (d = 0 ∨ d = a ∨ d = b → (s.helper && s.ctx.stopReq) = false → s.ctx.wait = .none → ill (.baraw st d a b)) ∧
    (s.CanIssue [rdC d, rdC a, rdC b] → d ≠ 0 → d ≠ a → d ≠ b → named → home = s.myEid → n.toNat < 2 ^ 32 →
      s.ctx.wait = .none → (∀ x ∈ s.core.barw, x.bar ≠ k) →
      let resume : Word := BitVec.ofNat 64 (2 ^ 63 + n.toNat)
      (s.rx d ≠ resume → fld (s.rx d) 62 2 ≠ 2 → live → still →
        (B.cnt + 1 = B.exp → ∃ t, exec (.baraw st d a b) s = .next t ∧ Advanced s t ∧
          WroteC s t d (scalar (BitVec.ofNat 64 (next 0).ph)) ∧ sets t (next 0)) ∧
        (B.cnt + 1 ≠ B.exp → ∃ t, exec (.baraw st d a b) s = .next t ∧ t.ctx.pcc = s.ctx.pcc ∧ t.ctx.blocked = true ∧
          WroteC s t d (scalar resume) ∧ sets t (next 0))) ∧
      (s.rx d = resume →
        (passed B.ph n.toNat → ∃ t, exec (.baraw st d a b) s = .next t ∧ Advanced s t ∧
          WroteC s t d (scalar (BitVec.ofNat 64 B.ph)) ∧ t.mem = s.mem) ∧
        (¬ passed B.ph n.toNat → exec (.baraw st d a b) s = .next s.block)))

/-- R171, R344, R359, R360, R208, R297: what arrives at a core of a job. A slot request is granted at once where enough slots
are free, waits where not, and is refused with no slots by an end that is not open or too small; a grant reaches the instruction
that waits for it. A message fills its slot only where the slot is granted to it; other bytes are written only inside the
scratchpad. A barrier arrival and a wait are answered with the phase and 0, OVER or RETRY; a waiter told to retry asks again
after 1 us. A slot request that is refused on its way has no effect (R18). The bits of requests, grants, messages and answers
are log 14. -/
def Obligations.MessagesAtACore : Prop :=
  ∀ (s : State) (p : Packet) (x : ChanEnd) (e : Nat) (h : Fin 11) (since : Nat), e = eidLocal p.deid → e < 4096 →
    let u := s.took p
    let id := fld p.arg0 0 16
    let m := fld p.arg0 16 16
    let data (ph code : Nat) : List Byte := leBytes 4 ph ++ leBytes 4 code
    (s.pkg.isSome = true → eidPkg p.deid = s.pkgNo → eidPkg p.seid = s.pkgNo → p.arg1.getLsbD 0 = false → s.core.id = e →
      let off := { s with net := s.net.erase p }
      let answer (slots : List Nat) : Packet :=
        { kind := 7, deid := p.seid, seid := s.eid e, otag := p.otag, asid := p.asid, arg0 := BitVec.ofNat 64 id,
          data := slots.map (BitVec.ofNat 8) }
      (s.coreTakes e p.asid = false ∨ s.refused p = true ∨ s.core.endOf id = none → p.deid = s.eid e →
        exec (.slotreq p) s = .next { off with net := off.net ++ [answer []] }) ∧
      (s.coreTakes e p.asid = true → s.refused p = false → s.core.endOf id = some x → x.reqs = [] →
        (x.k < m → p.deid = s.eid e → exec (.slotreq p) s = .next { off with net := off.net ++ [answer []] }) ∧
        (m ≤ x.k → m ≤ x.free.length → ∃ t, exec (.slotreq p) s = .next t ∧
          t.net = off.net ++ [answer (x.free.take m)] ∧ ∃ y ∈ t.core.ends, y.id = id ∧ y.reqs = [] ∧
            ∀ n ∈ x.free.take m, y.slots[n]? = some (.granted p.seid p.otag)) ∧
        (m ≤ x.k → x.free.length < m → ∃ t, exec (.slotreq p) s = .next t ∧ t.net = off.net ∧
          ∃ y ∈ t.core.ends, y.id = id ∧ y.slots = x.slots ∧ y.reqs = [⟨p.seid, p.otag, m⟩]))) ∧
    (s.pkg.isSome = true → eidPkg p.deid = s.pkgNo → p.arg1.getLsbD 0 = true → s.refused p = true →
      exec (.slotreq p) s = .next { s with net := s.net.erase p }) ∧
    (p.kind = 7 → s.Takes p → (∃ h, (s.coreOf e).ctxs[(h : Fin 11)].wait = .slots p.otag) →
      exec (.slotgnt p) s = .next (u.mapCore e (fun c => { c with held := c.held ++
        [{ tag := p.otag, peer := p.seid, id := id, slots := p.data.map (·.toNat) }] }))) ∧
    (s.Takes p → p.kind = 1 →
      (u.coreTakes e p.asid = false → ∀ i ∈ [Instr.spwrite p, .bararr p, .barrierWaitRequest p],
        exec i s = .next (u.replyTo p 2)) ∧
      (u.coreTakes e p.asid = true → Memory.wf s.mem = true →
        (u.core.id = e →
          (p.slotMsg = true → u.core.endOf (fld p.arg1 0 16) = some x → x.discard = 0 →
            let n := p.arg0.toNat % 2 ^ 63
            let place := poolPlace e (1024 * u.core.b2 + 256 * (x.base + n))
            (x.slots[n]? = some (.granted p.seid (fld p.arg1 16 16)) → u.Still place (16 + p.data.length) 4 →
              ∃ v : State, exec (.spwrite p) s = .next (v.replyTo p 0) ∧
                v.getBytes (place + 16) p.data.length = p.data ∧
                v.getNat place 16 = fld p.arg1 0 16 + p.data.length % 256 * 2 ^ 16 + p.seid % 2 ^ 24 * 2 ^ 24 +
                  p.arg2.toNat % 65536 * 2 ^ 48 ∧
                (∀ q, ¬ within place (16 + p.data.length) q → memGet v.mem q = memGet s.mem q) ∧
                ∃ y ∈ v.core.ends, y.id = x.id ∧ y.fifo = x.fifo ++ [n] ∧ y.slots = x.slots.set n .full) ∧
            (x.slots[n]? ≠ some (.granted p.seid (fld p.arg1 16 16)) → exec (.spwrite p) s = .next (u.replyTo p 2))) ∧
          (p.slotMsg = false →
            let lo := u.core.b0 * 1024
            let hi := u.core.b1 * 1024
            let fits : Prop := lo ≤ p.arg0.toNat ∧ p.arg0.toNat + p.data.length ≤ hi ∧ lo ≤ p.arg1.toNat ∧
              p.arg1.toNat + p.arg2.toNat ≤ hi
            let place := poolPlace e p.arg0.toNat
            (fits → s.split = none → u.Still place p.data.length 4 → ∃ v : State, exec (.spwrite p) s = .next (v.replyTo p 0) ∧
              v.getBytes place p.data.length = p.data ∧
              ∀ q, ¬ within place p.data.length q → memGet v.mem q = memGet s.mem q) ∧
            (¬ fits → exec (.spwrite p) s = .next (u.replyTo p 1)))) ∧
        (let k := p.arg0.toNat % 128
         let n := fld p.arg1 0 32
         let B := u.bar e k
         (B.vld = false ∨ B.exp = 0 ∨ n ≠ B.ph → exec (.bararr p) s = .next (u.replyTo p 0 (data B.ph 1))) ∧
         (B.vld = true → B.exp ≠ 0 → n = B.ph → B.cnt + 1 < B.exp → B.drop < 65535 → u.Still (barPlace e k) 16 4 →
           ∃ v : State, exec (.bararr p) s = .next (v.replyTo p 0 (data B.ph 0)) ∧
             v.bar e k = { B with cnt := B.cnt + 1, drop := B.drop + (if p.arg1.getLsbD 32 then 1 else 0) } ∧
             ∀ q, ¬ within (barPlace e k) 16 q → memGet v.mem q = memGet s.mem q) ∧
         (let gap := (B.ph + 2 ^ 32 - n) % 2 ^ 32
          (1 ≤ gap → gap < 2 ^ 31 → exec (.barrierWaitRequest p) s = .next (u.replyTo p 0 (data B.ph 0))) ∧
          (gap = 0 ∨ 2 ^ 31 ≤ gap → (u.coreOf e).barw.length < 64 →
            exec (.barrierWaitRequest p) s =
              .next (u.mapCore e (fun c => { c with barw := c.barw ++ [⟨k, n, p.seid, p.otag⟩] }))) ∧
          (gap = 0 ∨ 2 ^ 31 ≤ gap → 64 ≤ (u.coreOf e).barw.length →
            exec (.barrierWaitRequest p) s = .next (u.replyTo p 0 (data B.ph 2))))))) ∧
    (s.Works → s.core.ctxs[h].wait = .again since → 0 < since → since + 999 ≤ s.time.toNat →
      ∃ t, exec (.barrierRetry s.core.id h.val) s = .next t ∧ t.core.ctxs[h].wait = .again 0 ∧ t.mem = s.mem ∧
        t.core.v = s.core.v)

/-! ### Remote accesses -/

/-- R301, R302, R297, R79: RLD, RST, RAMO and GST check their descriptor, capability, alignment and address in this order, and
send one packet for the package of the descriptor; RLD and RAMO leave C[d] waiting for its answer, and a GST adds itself to its
open group. The answer completes the operation, with zero for one that failed, and the result then reaches its register. The
place of a capability's tag in a reply, and unit 0 of a package as the destination, are the model's (log 14). -/
def Obligations.RemoteInstructions : Prop :=
  ∀ (s : State) (st : Fin 8) (d a b : Fin 32) (p : Packet) (x : RemOp) (n : Nat) (w : VarPend) (v : VReg) (tag : Bool)
    (k : Fin 32),
    let c := s.rc a
    let A := capA c
    let dst := s.rc d
    let z := s.rx b
    let sz := fld z 12 3
    let op := fld z 15 5
    let grp := fld z 20 16
    let tagged : Prop := sz = 4 ∧ dst.tag = true
    let hi (extra : Nat) : Word := BitVec.ofNat 64 (A / 2 ^ 64 + extra)
    let data : Word × Word :=
      let y := dst.bits.toNat % 2 ^ (8 * 2 ^ sz)
      (BitVec.ofNat 64 y, BitVec.ofNat 64 (y / 2 ^ 64))
    let sends (i : Instr) (reads : List (RegFile × Nat)) (ill : Prop) (ps : List Nat) (keeps : Prop) (reg : Bool)
        (f : Packet → Prop) (u : State) : Prop :=
      s.CanIssue reads →
        (ill → Traps s (exec i s) .illegal (s.ctx.ir.zeroExtend 80)) ∧
        (¬ ill →
          (∀ e, capCheck c ps A (2 ^ sz) (2 ^ sz) = some e → Traps s (exec i s) e (tvalOf A)) ∧
          (capCheck c ps A (2 ^ sz) (2 ^ sz) = none → A / 2 ^ 64 = 0xFFFF → Traps s (exec i s) .page (tvalOf A)) ∧
          (capCheck c ps A (2 ^ sz) (2 ^ sz) = none → A / 2 ^ 64 ≠ 0xFFFF → keeps →
            ∃ t x, exec i s = .next t ∧ Advanced s t ∧ OnlySends u t ∧ t.core.ops = s.core.ops ++ [x] ∧
              x.tag = s.newTag 0 ∧ x.ctx = s.core.cur.val ∧ x.counts = true ∧ x.job = none ∧ x.pkt.kind = 1 ∧
              x.pkt.deid = fld z 0 12 * 4096 ∧ x.pkt.seid = s.myEid ∧ x.pkt.asid = s.asid ∧ x.pkt.otag = s.newTag 0 ∧
              x.pkt.arg0 = BitVec.ofNat 64 A ∧ f x.pkt ∧ (∀ r, t.rc r = s.rc r) ∧
              (reg = true → d ≠ 0 → { file := .c, idx := d.val, op := s.newTag 0, val := none } ∈ t.ctx.pend) ∧
              (reg = false → t.ctx.pend = s.ctx.pend)))
    (s.ctx.ahead = false → s.core.id < 4096 →
      sends (.rld st d a b) [rdC a, rdC b] (2 ^ 36 ≤ z.toNat ∨ 4 < sz ∨ op ≠ 0 ∨ grp ≠ 0) [pL, pM] True true
        (fun q => q.handler = 0 ∧ q.arg1 = hi (sz * 2 ^ 16)) s ∧
      sends (.rst st d a b) [rdC d, rdC a, rdC b] (2 ^ 36 ≤ z.toNat ∨ 4 < sz ∨ op ≠ 0 ∨ grp ≠ 0)
        ([pS, pM] ++ if sz = 4 && dst.tag then [pSC] else []) True false
        (fun q => q.handler = 1 ∧ q.arg2 = data.1 ∧ q.arg3 = data.2 ∧
          (tagged → q.arg1 = hi (sz * 2 ^ 16 + 2 ^ 20)) ∧ (¬ tagged → q.arg1 = hi (sz * 2 ^ 16))) s ∧
      sends (.ramo st d a b) [rdC d, rdC a, rdC b, rdO 2]
        (2 ^ 36 ≤ z.toNat ∨ (sz ≠ 2 ∧ sz ≠ 3) ∨ 11 < op ∨ (op = 11 ∧ sz ≠ 2) ∨ grp ≠ 0) [pL, pS, pA, pM] True true
        (fun q => q.handler = 2 ∧ q.arg1 = hi (sz * 2 ^ 16 + op * 2 ^ 19) ∧ q.arg2 = s.rx d ∧ q.arg3 = s.ro 2) s ∧
      (let u := (s.openGroup s.myEid grp).mapCommit s.myEid grp (fun c => { c with wait := c.wait + 1 })
       sends (.gst st d a b) [rdC d, rdC a, rdC b]
        (2 ^ 36 ≤ z.toNat ∨ 4 < sz ∨ op ≠ 0 ∨ s.gstOk s.myEid grp = false)
        ([pS, pM, pG] ++ if sz = 4 && dst.tag then [pSC] else []) True false
        (fun q => q.handler = 3 ∧ q.arg2 = data.1 ∧ q.arg3 = data.2 ∧
          (tagged → q.arg1 = hi (sz * 2 ^ 16 + 2 ^ 20 + grp * 2 ^ 32)) ∧
          (¬ tagged → q.arg1 = hi (sz * 2 ^ 16 + grp * 2 ^ 32))) u)) ∧
    (s.Takes p → p.kind = 2 → s.core.id < 4096 → eidLocal p.deid = s.core.id → Sys2Proof.isCore s.core.id = true →
      s.core.cur.val = x.ctx →
      (s.core.opOf p.otag = none → exec (.reply p) s = .next (s.took p)) ∧
      (s.core.opOf p.otag = some x → x.job = none → x.group = none → x.pkt.handler = 0 ∨ x.pkt.handler = 2 → p.status < 5 →
        let m := 2 ^ fld x.pkt.arg1 16 3
        let got : Cap := if p.status ≠ 0 then scalar 0
          else if x.pkt.handler = 0 ∧ m = 16 then
            ⟨BitVec.ofNat 128 (leNat (p.data.take 16)), x.keepTag && (p.data.drop 16).head? == some 1⟩
          else scalar (BitVec.ofNat 64 (leNat (p.data.take m)))
        ∃ t, exec (.reply p) s = .next t ∧ t.core.ops = s.core.ops.filter (fun r => r.tag != p.otag) ∧
          (∀ q ∈ s.ctx.pend, q.op = p.otag → q.file = .c →
            { q with val := some (got.bits.zeroExtend 1024, got.tag) } ∈ t.ctx.pend) ∧
          (x.counts = true → p.status ≠ 0 → t.ctx.nfail = (if s.ctx.nfail = 0 then 1 else Min.min 65535 (s.ctx.nfail + 1)) ∧
            (s.ctx.nfail = 0 → t.ctx.fst = p.status ∧ t.ctx.fpkg = eidPkg x.pkt.deid)) ∧
          (p.status = 0 → t.ctx.nfail = s.ctx.nfail) ∧ t.mem = s.mem ∧ ∀ r, t.rc r = s.rc r)) ∧
    (s.Works → s.ctx.pend[n]? = some w → w.val = some (v, tag) → w.file = .c → w.idx = k.val → k ≠ 0 →
      ∃ t, exec (.variableLatencyResult s.core.id s.core.cur.val n) s = .next t ∧ t.rc k = ⟨v.truncate 128, tag⟩ ∧
        (∀ r, r ≠ k → t.rc r = s.rc r) ∧ w ∉ t.ctx.pend ∧ t.mem = s.mem ∧ t.core.v = s.core.v)

/-- R302, R275, R356, R297: at the destination package a packet of a job that has no part there is answered REFUSED; an address
that does not translate for the packet's job, a page that may not be written for a store or atomic, and an H page FAULT; one
whose stack is not up REFUSED, and a read of an uncorrectable granule UE; one that meets a line held by a publication waits at
its network interface (R310); else the load, store, atomic, or copied bytes take effect there alone, and are answered DONE. A
gather or scatter does so for each element its data names, each with its own status in the reply; where the places of its data
and the tag's byte stand in the packets is log 14's. Writes of an MWRITE may be performed part by part, the rest waiting (R279,
log 5). The entry walked has AC set, and D where the access writes (R258); an ACAS that fails writes nothing (R262). -/
def Obligations.RemoteHandlers : Prop :=
  ∀ (s w : State) (p : Packet) (place e i c : Nat) (gs : List (Nat × Nat)), s.Takes p → Memory.wf s.mem = true → p.kind = 1 →
    let u := s.took p
    let n := 2 ^ fld p.arg1 16 3
    let va := p.arg0.toNat + fld p.arg1 0 16 * 2 ^ 64
    let put := leBytes n (p.arg2.toNat + p.arg3.toNat * 2 ^ 64)
    let at_ (k : Acc) : Prop := u.remotePlace p.asid va n k = .ok (w, place) ∧ w.Still place n n
    let dirty := w.dirtyLeaf p.asid va
    let keeps (v : State) : Prop := ∀ q, ¬ within place n q → memGet v.mem q = memGet dirty.mem q
    let old := w.getBytes place n
    let cmp := p.arg3.toNat % 2 ^ (8 * n)
    let ends (i : Instr) (k : Acc) : Prop :=
      (u.remotePlace p.asid va n k = .error e → exec i s = .next ((u.touchLeaf p.asid va).replyTo p e)) ∧
      (u.remotePlace p.asid va n k = .ok (w, place) → w.held place n = true → exec i s = .next (w.hold p))
    ends (.rload p) .load ∧ ends (.rstore p) .store ∧ ends (.ratomic p) .atomic ∧
    (at_ .load →
      ∃ v : State, exec (.rload p) s = .next (v.replyTo p 0
          (old ++ if n = 16 then [if tagGet w.tags (place / 16) then 1 else 0] else [])) ∧ v.mem = w.mem) ∧
    (at_ .store →
      ∃ v : State, exec (.rstore p) s = .next (v.replyTo p 0) ∧ v.getBytes place n = put ∧ keeps v ∧
        (n = 16 → place % 16 = 0 → tagGet v.tags (place / 16) = p.arg1.getLsbD 20)) ∧
    (let k := fld p.arg1 24 8
     let elem (i : Nat) : Nat := va + leNat ((p.data.drop (2 * i)).take 2) * n
     let each (f : State → Nat → State × List Byte) : State × List Byte :=
       (List.range k).foldl (fun x i => ((f x.1 i).1, x.2 ++ (f x.1 i).2)) (u, [])
     let free (a : Acc) : Prop := ∀ i < k, ∀ x q, u.remotePlace p.asid (elem i) n a = .ok (x, q) → x.held q n = false
     let gath := each (fun s i => s.gathElem p i)
     let scat := each (fun s i => s.scatElem p i)
     (u.jobOf p.asid = none → exec (.rgath p) s = .next (u.replyTo p 2) ∧ exec (.rscat p) s = .next (u.replyTo p 2)) ∧
     (u.jobOf p.asid ≠ none →
       (free .load → exec (.rgath p) s = .next (gath.1.replyTo p 0 gath.2)) ∧
       (¬ free .load → exec (.rgath p) s = .next (u.hold p)) ∧
       (free .store → exec (.rscat p) s = .next (scat.1.replyTo p 0 scat.2)) ∧
       (¬ free .store → exec (.rscat p) s = .next (u.hold p))) ∧
     (let vi := elem i
      (u.remotePlace p.asid vi n .load = .error e →
        u.gathElem p i = (u.touchLeaf p.asid vi, BitVec.ofNat 8 e :: List.replicate n 0)) ∧
      (u.remotePlace p.asid vi n .store = .error e → u.scatElem p i = (u.touchLeaf p.asid vi, [BitVec.ofNat 8 e])) ∧
      (u.remotePlace p.asid vi n .load = .ok (w, place) → w.Still place n n →
        (u.gathElem p i).2 = 0 :: old ∧ (u.gathElem p i).1.mem = w.mem) ∧
      (u.remotePlace p.asid vi n .store = .ok (w, place) → w.Still place n n → (p.data.drop (2 * k + n * i)).length ≥ n →
        (u.scatElem p i).2 = [0] ∧ (u.scatElem p i).1.getBytes place n = (p.data.drop (2 * k + n * i)).take n ∧
        ∀ q, ¬ within place n q → memGet (u.scatElem p i).1.mem q = memGet (w.dirtyLeaf p.asid vi).mem q))) ∧
    (at_ .atomic → n = 4 ∨ n = 8 →
      let op := fld p.arg1 19 5
      let m := leNat old
      let x := p.arg2.toNat % 2 ^ (8 * n)
      let num (y : Nat) : Int := (BitVec.ofNat (8 * n) y).toInt
      let sum (t : Fmt) (m x : Nat) : Nat := t.encode rndRNE 0 (vAdd 1 (t.decode m) (t.decode x))
      ∃ v : State, exec (.ratomic p) s = .next (v.replyTo p 0 old) ∧ (op ≠ 9 ∨ m = cmp → keeps v) ∧
        (op = 0 → v.getBytes place n = leBytes n ((m + x) % 2 ^ (8 * n))) ∧
        (op = 1 → v.getBytes place n = leBytes n (m &&& x)) ∧ (op = 2 → v.getBytes place n = leBytes n (m ||| x)) ∧
        (op = 3 → v.getBytes place n = leBytes n (m ^^^ x)) ∧
        (op = 4 → v.getBytes place n = leBytes n (if num m < num x then m else x)) ∧
        (op = 5 → v.getBytes place n = leBytes n (if num m < num x then x else m)) ∧
        (op = 6 → v.getBytes place n = leBytes n (Min.min m x)) ∧ (op = 7 → v.getBytes place n = leBytes n (Max.max m x)) ∧
        (op = 8 → v.getBytes place n = leBytes n x) ∧
        (op = 9 → m = cmp → v.getBytes place n = leBytes n x) ∧
        (op = 9 → m ≠ cmp → v.mem = w.mem) ∧
        (op = 10 → v.getBytes place n = leBytes n (sum (if n = 8 then fmtFP64 else fmtFP32) m x)) ∧
        (op = 11 → n = 4 → v.getBytes place n =
          leBytes 2 (sum fmtBF16 (m % 65536) (x % 65536)) ++ leBytes 2 (sum fmtBF16 (m / 65536) (x / 65536)))) ∧
    (u.remotePlaces p.asid .store (pieces va p.data.length) = .error e →
      exec (.mwrite p) s =
        .next (((pieces va p.data.length).foldl (fun s q => s.touchLeaf p.asid q.1) u).replyTo p e)) ∧
    (u.remotePlaces p.asid .store (pieces va p.data.length) = .ok (w, gs) → gs.any (fun g => w.held g.1 g.2) = true →
      exec (.mwrite p) s = .next (w.hold p)) ∧
    (u.remotePlaces p.asid .store (pieces va p.data.length) = .ok (w, gs) → gs = [(place, p.data.length)] →
      w.Still place p.data.length 4 →
      (s.split = none → ∃ v : State, exec (.mwrite p) s = .next (v.replyTo p 0) ∧ v.getBytes place p.data.length = p.data ∧
        ∀ q, ¬ within place p.data.length q → memGet v.mem q = memGet dirty.mem q) ∧
      (s.split = some c → 0 < c → 4 * c < p.data.length → va % 2 ^ 64 + 4 * c < 2 ^ 64 →
        ∃ v : State, exec (.mwrite p) s =
            .next (v.hold { p with data := p.data.drop (4 * c), arg0 := p.arg0 + BitVec.ofNat 64 (4 * c) }) ∧
          v.getBytes place (4 * c) = p.data.take (4 * c) ∧ ∀ q, ¬ within place (4 * c) q → memGet v.mem q = memGet dirty.mem q)) ∧
    (u.jobOf p.asid = none → ∀ k, u.remotePlace p.asid va n k = .error 2) ∧
    (∀ j, u.jobOf p.asid = some j → ∀ k, k ≠ .fetch → va / 2 ^ 64 ≠ 0xFFFF → va % 65536 + n ≤ 65536 →
      (walkLeaf u j.spec.root va = none → u.remotePlace p.asid va n k = .error 1) ∧
      (∀ l, walkLeaf u j.spec.root va = some l →
        let at_ := ptePA l.pte + va % 2 ^ levelShift l.level
        let may : Prop := l.pte.testBit 5 = false ∧ (k = .load ∨ l.pte.testBit 2 = true)
        let up := s.stackUp (Fin.ofNat 8 (stackOf at_))
        (¬ may → u.remotePlace p.asid va n k = .error 1) ∧
        (may → up = false → u.remotePlace p.asid va n k = .error 2) ∧
        (may → up = true → k ≠ .store → u.badIn at_ n = true → u.remotePlace p.asid va n k = .error 4) ∧
        (may → up = true → k = .store ∨ u.badIn at_ n = false →
          u.remotePlace p.asid va n k = .ok ((u.pteSet l 0x80).1, at_))))

/-! ### Group commit -/

/-- R306, R307, R313, R425: GCOMMIT opens a commit job on the issuer's open group that has been asked for nothing yet; GABORT
marks an open group, discards a preparing one and otherwise does nothing; GCSTAT asks the commit agent for a record's word.
GWAIT asks too, returns the answer once it says PUBLISHED or DISCARDED, or at its limit with TLIM set, and repeats its query
when its wait has passed. -/
def Obligations.CommitInstructions : Prop :=
  ∀ (s : State) (st : Fin 8) (d a : Fin 32) (c : Commit) (arg last : Word) (tag since next wait : Nat) (ex : Bool),
    let w := s.rx a
    let g := w.toNat
    let ill (i : Instr) : Prop := Traps s (exec i s) .illegal (s.ctx.ir.zeroExtend 80)
    let src := if w.getLsbD 40 then s.myEid else fld w 16 24
    let asks (t : State) (f : RemOp → Prop) : Prop :=
      ∃ x, t.core.ops = s.core.ops ++ [x] ∧ x.pkt.handler = 7 ∧ x.pkt.deid = src / 1024 * 1024 + 256 ∧
        x.pkt.arg0 = BitVec.ofNat 64 (src % 2 ^ 24 + fld w 0 16 * 2 ^ 24) ∧ x.tag = s.newTag 0 ∧ f x
    (s.ctx.ahead = false → s.core.id < 4096 →
      (s.CanIssue [rdC a] →
        (2 ^ 16 ≤ g ∨ s.commitOf s.myEid g = none → ill (.gcommit st d a)) ∧ (2 ^ 16 ≤ g → ill (.gabort st a)) ∧
        (g < 2 ^ 16 → s.commitOf s.myEid g = some c →
          (c.st ≠ .open_ ∨ c.asked = true → ill (.gcommit st d a)) ∧
          (c.st = .open_ → c.asked = false → ∃ t r, exec (.gcommit st d a) s = .next t ∧ Advanced s t ∧ Opens s t d 3 r ∧
            r.status = stPENDING ∧ r.group = g ∧ t.commitOf s.myEid g = some { c with asked := true, job := some r.ri } ∧
            t = { s with core := t.core, commits := t.commits, recents := t.recents, known := t.known }) ∧
          (c.st = .open_ → ∃ t, exec (.gabort st a) s = .next t ∧ Advanced s t ∧ (∀ r, t.rc r = s.rc r) ∧
            t.commitOf s.myEid g = some { c with asked := true, abort := true } ∧
            t = { s with core := t.core, commits := t.commits }) ∧
          (c.st = .preparing → ∃ t e, exec (.gabort st a) s = .next t ∧ Advanced s t ∧ (∀ r, t.rc r = s.rc r) ∧
            t.commitOf s.myEid g = some e ∧ (e.st = .discarding ∨ e.st = .discarded) ∧
            e.why = (if c.why = 0 then 1 else c.why)) ∧
          (c.st ≠ .open_ → c.st ≠ .preparing → OnlyAdvances s (exec (.gabort st a) s))) ∧
        (g < 2 ^ 16 → s.commitOf s.myEid g = none → OnlyAdvances s (exec (.gabort st a) s)) ∧
        (2 ^ 41 ≤ g → ill (.gcstat st d a)) ∧
        (g < 2 ^ 41 → ∃ t, exec (.gcstat st d a) s = .next t ∧ Advanced s t ∧ OnlySends s t ∧ (∀ r, t.rc r = s.rc r) ∧
          asks t (fun _ => d ≠ 0 → { file := .c, idx := d.val, op := s.newTag 0, val := none } ∈ t.ctx.pend))) ∧
      (s.CanIssue [rdC a, rdO 2] →
        (2 ^ 41 ≤ g → ill (.gwait st d a)) ∧
        (g < 2 ^ 41 → s.ctx.wait = .none → ∃ t, exec (.gwait st d a) s = .next t ∧ t.ctx.pcc = s.ctx.pcc ∧
          t.ctx.blocked = true ∧ asks t (fun _ => t.ctx.wait = .gwait w (s.newTag 0) 0 s.time.toNat 0 200000 false)) ∧
        (g < 2 ^ 41 → s.ctx.wait = .gwait arg tag last since next wait ex →
          (fld last 0 4 = 4 ∨ fld last 0 4 = 6 → ∃ t, exec (.gwait st d a) s = .next t ∧ Advanced s t ∧
            WroteC s t d (scalar last) ∧ t.mem = s.mem ∧ t.core.ops = s.core.ops) ∧
          (fld last 0 4 ≠ 4 → fld last 0 4 ≠ 6 →
            (ex = true → WritesC s (exec (.gwait st d a) s) d (scalar (last ||| BitVec.ofNat 64 (2 ^ 40)))) ∧
            (ex = false → exec (.gwait st d a) s = .next s.block))))) ∧
    (s.Works → s.ctx.wait = .gwait arg tag last since next wait ex →
      (∃ t, exec (.gwaitTimeLimit s.core.id s.core.cur.val) s = .next t ∧ t.mem = s.mem ∧ t.core.ops = s.core.ops ∧
        t.ctx.wait = .gwait arg tag last since next wait
          (ex || (decide (0 < (s.ro 2).toNat) && decide (since + (s.ro 2).toNat ≤ s.time.toNat)))) ∧
      ((s.time.toNat < next ∨ tag ≠ 0 ∨ fld last 0 4 = 4 ∨ fld last 0 4 = 6) →
        exec (.gwaitQueryRepeat s.core.id s.core.cur.val) s = .next s) ∧
      (arg = w → tag = 0 → next ≤ s.time.toNat → fld last 0 4 ≠ 4 → fld last 0 4 ≠ 6 →
        ∃ t, exec (.gwaitQueryRepeat s.core.id s.core.cur.val) s = .next t ∧
          asks t (fun _ => t.ctx.wait = .gwait arg (s.newTag 0) last since next wait ex)))

/-- R304, R305, R309, R310, R311: at a participant's memory agent. A GSTAGE appends its store, or is answered FULL, and restarts
the second of a group that stages; PREPARE is answered READY where its count is the number staged and FAIL where not or where
the group is unknown, which also frees it (READY and FAIL are 0 and 1 in the answer's byte by log 14, FULL is bit 24 of a GST's
by log 14); PUBLISH performs every entry, one after the other in staging order, with D set on their pages, once every prepared
participant of the package has it, and is acknowledged; that the package's participants publish at one point is log 38's;
DISCARD frees the group. One second without a GSTAGE frees a staging group; the in-doubt timer of a prepared one asks the commit
agent while no question is unanswered, follows its PUBLISH or DISCARD, and doubles its wait after any other answer; an agent
whose die or stack is not online does neither (R312). -/
def Obligations.CommitParticipants : Prop :=
  ∀ (s w : State) (p : Packet) (place : Nat) (x : SbGroup) (r : RemOp),
    let u := s.took p
    let stk := (eidLocal p.deid / 1024 * 2 + eidLocal p.deid % 2) % 8
    let src := fld p.arg0 0 24
    let grp := fld p.arg0 24 16
    let mine := stk / 2 * 1024 + 256 + stk % 2
    let asked : Prop := ∃ o ∈ s.uops, o.pkt.handler = 7 ∧ o.pkt.seid = s.eid mine ∧ o.pkt.arg0 = BitVec.ofNat 64 (src + grp * 2 ^ 24)
    (s.Takes p → p.kind = 1 →
      let n := 2 ^ fld p.arg1 16 3
      let home := place / 2 ^ 36
      let agent := w.eid (home / 2 * 1024 + 256 + home % 2)
      let id := fld p.arg1 32 16
      let va := p.arg0.toNat + fld p.arg1 0 16 * 2 ^ 64
      (∀ e, u.remotePlace p.asid va n .store = .error e → exec (.gstage p) s = .next ((u.touchLeaf p.asid va).replyTo p e)) ∧
      (u.remotePlace p.asid va n .store = .ok (w, place) →
        (w.sbRoom home p.seid id = true →
          let e : SbEntry := { place := place, size := n,
                               data := BitVec.ofNat 128 (leNat (leBytes n (p.arg2.toNat + p.arg3.toNat * 2 ^ 64))),
                               tag := n = 16 && p.arg1.getLsbD 20, va := va, asid := p.asid }
          ∃ v : State, exec (.gstage p) s = .next (v.replyTo p 0 (leBytes 4 (agent % 2 ^ 24))) ∧ v.mem = w.mem ∧
            ∃ y, v.groupOf home p.seid id = some y ∧ y.since = s.time.toNat ∧
              y.es = (((w.groupOf home p.seid id).map (·.es)).getD []) ++ [e]) ∧
        (w.sbRoom home p.seid id = false →
          ∃ v : State, exec (.gstage p) s = .next (v.replyTo p 0 (leBytes 4 (agent % 2 ^ 24 + 2 ^ 24))) ∧
            v = { w with groups := v.groups } ∧ v.groupOf home p.seid id = (w.groupOf home p.seid id).map (fun y =>
              if y.st = .staging then { y with since := s.time.toNat } else y))) ∧
      (u.groupOf stk src grp = none →
        exec (.prepare p) s = .next (u.replyTo p 0 [1]) ∧ exec (.publish p) s = .next (u.replyTo p 0) ∧
        exec (.discard p) s = .next (u.replyTo p 0)) ∧
      (u.groupOf stk src grp = some x →
        (x.st = .prepared → exec (.prepare p) s = .next (u.replyTo p 0 [0])) ∧
        (x.st = .staging → x.es.length = p.arg1.toNat →
          ∃ v : State, exec (.prepare p) s = .next (v.replyTo p 0 [0]) ∧ v.mem = s.mem ∧
            v.groupOf stk src grp = some { x with st := .prepared, since := s.time.toNat, entered := s.time.toNat, wait := 200000 }) ∧
        (x.st = .staging → x.es.length ≠ p.arg1.toNat →
          ∃ v : State, exec (.prepare p) s = .next (v.replyTo p 0 [1]) ∧ v.mem = s.mem ∧ v.groupOf stk src grp = none) ∧
        (∃ v : State, exec (.discard p) s = .next (v.replyTo p 0) ∧ v.mem = s.mem ∧ v.groupOf stk src grp = none) ∧
        (x.st = .staging → exec (.publish p) s = .next (u.replyTo p 0)) ∧
        (x.st = .prepared → Memory.wf s.mem = true →
          u.groups.filter (fun g => g.src == src && g.grp == grp && (g.st == .prepared || g.stack == stk)) = [x] →
          (∀ e ∈ x.es, u.Still e.place e.size e.size) →
          (x.es.length ≤ 1 ∨ ∀ j ∈ u.jobs, j.spec.counter.tag = false ∧ j.spec.hash = none ∧ j.spec.stamp = none ∧
            j.spec.trace = []) →
          ∃ (v : State) (vs : List State), exec (.publish p) s = .next (v.replyTo p 0) ∧ v.groupOf stk src grp = none ∧
            vs.length = x.es.length + 1 ∧ vs.head?.map (fun y => y.mem) = some s.mem ∧ vs.getLast?.map (fun y => y.mem) = some v.mem ∧
            ∀ (i : Nat) (y z : State) (e : SbEntry), vs[i]? = some y → vs[i + 1]? = some z → x.es[i]? = some e →
              z.getBytes e.place e.size = leBytes e.size e.data.toNat ∧
              (e.size = 16 → e.place % 16 = 0 → tagGet z.tags (e.place / 16) = e.tag) ∧
              ∀ q, ¬ within e.place e.size q → memGet z.mem q = memGet (y.dirtyLeaf e.asid e.va).mem q) ∧
        (x.st = .prepared →
          (∃ y ∈ u.groups, y.src = src ∧ y.grp = grp ∧ y.stack ≠ stk ∧ y.st = .prepared ∧ y.holding = false) →
          ∃ t, exec (.publish p) s = .next t ∧ t.mem = s.mem ∧ t.net = u.net))) ∧
    (s.groupOf stk src grp = some x →
      (exec (.stagingTimeout stk src grp) s =
        .next (if s.unitUp mine = true ∧ x.st = .staging ∧ x.since + 1000000000 ≤ s.time.toNat then s.dropGroup stk src grp else s)) ∧
      (s.unitUp mine = false ∨ x.st = .staging ∨ x.holding = true ∨ s.time.toNat < x.since + x.wait ∨ asked →
        exec (.inDoubtTimer stk src grp) s = .next s) ∧
      (s.unitUp mine = true → ¬ asked → x.st = .prepared → x.holding = false → x.since + x.wait ≤ s.time.toNat →
        ∃ t q, exec (.inDoubtTimer stk src grp) s = .next t ∧ t.mem = s.mem ∧ t.uops = s.uops ++ [q] ∧ q.pkt.handler = 7 ∧
          q.pkt.deid = src / 1024 * 1024 + 256 ∧ q.pkt.arg0 = BitVec.ofNat 64 (src + grp * 2 ^ 24) ∧
          t.groupOf stk src grp = some x)) ∧
    (let home := (eidLocal r.pkt.seid / 1024 * 2 + eidLocal r.pkt.seid % 2) % 8
     let f := fld r.pkt.arg0 0 24
     let g := fld r.pkt.arg0 24 16
     s.Takes p → p.kind = 2 → u.unitOpOf p = some r → r.pkt.handler = 7 → u.groupOf home f g = some x → x.st = .prepared →
      let stn := leNat (p.data.take 1) % 16
      (p.status = 0 → stn = 5 ∨ stn = 6 ∨ stn = 0 →
        ∃ t, exec (.queryAnswer p) s = .next t ∧ t.mem = s.mem ∧ t.groupOf home f g = none ∧ t.uops = u.uops.erase r) ∧
      (p.status ≠ 0 ∨ stn = 1 ∨ stn = 2 →
        ∃ t, exec (.queryAnswer p) s = .next t ∧ t.mem = s.mem ∧
          t.groupOf home f g = some { x with since := s.time.toNat, wait := Min.min 10000000 (2 * x.wait) }) ∧
      (p.status = 0 → stn = 3 ∨ stn = 4 →
        exec (.queryAnswer p) s = .next (({ u with uops := u.uops.erase r } : State).publishAt home f g none)))

/-- R304, R306 to R308, R311 to R313: at the commit agent. A GST's reply counts its participant, or dooms the group. A group
asked for goes, once its GSTs are answered, to PREPARING, or to DISCARDING where it is doomed or aborted; to PUBLISHING once
every participant is ready, to DISCARDING on a FAIL or after 2 ms; and to PUBLISHED or DISCARDED, with its job complete on the
core or in the saved state of its job, once every participant has acknowledged, a discarded one also every GST its answer. Every
agent that has answered a GST is a participant, one that answers after the group is being discarded is told too (R424). A query
is answered with the record's word, held ones once it is decided. READY and FAIL as 0 and 1 and the flag bits of a GST's reply
are the model's (log 14), NAG at most 32 too (log 38). -/
def Obligations.CommitAgent : Prop :=
  ∀ (s : State) (p : Packet) (c : Commit) (r : RemOp) (src grp : Nat) (q : Participant) (j : JobRec) (k : Nat),
    let decided (x : Commit) : Prop := x.st = .published ∨ x.st = .discarded
    let to_ (i : Instr) (f : State → Commit → Prop) : Prop :=
      ∃ t x, exec i s = .next t ∧ t.mem = s.mem ∧ t.commitOf src grp = some x ∧ x.parts.map (·.agent) = c.parts.map (·.agent) ∧ f t x
    let up := s.unitUp (eidLocal (src / 1024 * 1024 + 256))
    (s.commitOf src grp = some c →
      ((c.st ≠ .open_ ∨ c.asked = false ∨ c.wait ≠ 0 ∨ up = false) → exec (.commitHandover src grp) s = .next s) ∧
      (c.st = .open_ → c.asked = true → c.wait = 0 → up = true →
        (c.abort = true ∨ 0 < c.why → c.parts ≠ [] → to_ (.commitHandover src grp) (fun _ x => x.st = .discarding ∧
          x.why = (if c.why = 0 then 1 else c.why))) ∧
        (c.abort = false → c.why = 0 → (∃ y ∈ c.parts, y.ready = false) → to_ (.commitHandover src grp) (fun t x =>
          x.st = .preparing ∧ x.since = s.time.toNat ∧
          ((t.uops.drop s.uops.length).map (fun o => (o.pkt.deid, o.pkt.handler, o.pkt.arg1)) =
            (c.parts.filter (fun y => !y.acked)).map (fun y => (y.agent, 4, BitVec.ofNat 64 y.count)))))) ∧
      (c.st ≠ .preparing ∨ s.time.toNat < c.since + 2000000 ∨ up = false → exec (.prepareTimeout src grp) s = .next s) ∧
      (c.st = .preparing → up = true → c.since + 2000000 ≤ s.time.toNat → c.parts ≠ [] → to_ (.prepareTimeout src grp) (fun _ x =>
        x.st = .discarding ∧ x.why = (if c.why = 0 then 4 else c.why) ∧
        (c.feid = 0 → x.feid = (((c.parts.filter (fun y => !y.ready)).head?).map (·.agent)).getD 0)))) ∧
    (s.Takes p → p.kind = 2 → (s.took p).unitOpOf p = some r → fld r.pkt.arg0 0 24 = src → fld r.pkt.arg0 24 16 = grp →
      s.commitOf src grp = some c → q ∈ c.parts → q.agent = r.pkt.deid → (∀ y ∈ c.parts, y.agent = q.agent → y = q) →
      (r.pkt.handler = 4 → c.st = .preparing → p.status = 0 →
        (p.data.head? = some 0 → (∃ y ∈ c.parts, y.agent ≠ q.agent ∧ y.ready = false) → to_ (.ready p) (fun _ x =>
          x.st = .preparing ∧ ∀ y ∈ x.parts, y.agent = q.agent → y.ready = true)) ∧
        (p.data.head? = some 0 → (∀ y ∈ c.parts, y.agent = q.agent ∨ y.ready = true) → to_ (.ready p) (fun _ x =>
          x.st = .publishing)) ∧
        (p.data.head? = some 1 → to_ (.ready p) (fun _ x => x.st = .discarding ∧
          x.why = (if c.why = 0 then 3 else c.why) ∧ (c.feid = 0 → x.feid = r.pkt.deid)))) ∧
      ((r.pkt.handler = 5 ∧ c.st = .publishing) ∨ (r.pkt.handler = 6 ∧ c.st = .discarding) → p.status = 0 →
        ((∃ y ∈ c.parts, y.agent ≠ q.agent ∧ y.acked = false) → to_ (.decisionAck p) (fun _ x =>
          x.st = c.st ∧ ∀ y ∈ x.parts, y.agent = q.agent → y.acked = true)) ∧
        ((∀ y ∈ c.parts, y.agent = q.agent ∨ y.acked = true) → c.st = .discarding → 0 < c.wait → to_ (.decisionAck p) (fun _ x =>
          x.st = .discarding)) ∧
        ((∀ y ∈ c.parts, y.agent = q.agent ∨ y.acked = true) → (c.st = .publishing ∨ c.wait = 0) → to_ (.decisionAck p) (fun t x =>
          x.st = (if c.st = .publishing then .published else .discarded) ∧
          (c.job = some k → s.core.id = eidLocal src → j.cls = 3 → j.ri = k → j.status = stPENDING →
            let done : JobRec := { j with status := (if c.st = .publishing then stDONE else stCANCELLED) }
            (s.core.job = some c.asid → j ∈ s.core.jobs → done ∈ t.core.jobs) ∧
            (s.core.job ≠ some c.asid → ∀ J, s.jobOf c.asid = some J → ∀ y ∈ J.saved, y.id = s.core.id → j ∈ y.jobs →
              ∃ J', t.jobOf c.asid = some J' ∧ ∃ z ∈ J'.saved, z.id = y.id ∧ done ∈ z.jobs)))))) ∧
    (s.Takes p → p.kind = 2 → s.core.id = eidLocal p.deid → s.core.opOf p.otag = some r → r.group = some grp →
      src = s.eid (eidLocal p.deid) → s.commitOf src grp = some c → c.st = .open_ →
      let agent := leNat (p.data.take 4) % 2 ^ 24
      let known : Prop := ∃ y ∈ c.parts, y.agent = agent
      let goes (f : Commit → Prop) : Prop :=
        ∃ t x, exec (.gstReply p) s = .next t ∧ t.mem = s.mem ∧ t.commitOf src grp = some x ∧ x.wait = c.wait - 1 ∧ f x ∧
          t.core.ops = s.core.ops.filter (fun o => o.tag != r.tag)
      (p.status ≠ 0 → goes (fun x => x.why = (if c.why = 0 then 5 else c.why) ∧ x.parts = c.parts)) ∧
      (p.status = 0 → (leNat (p.data.take 4)).testBit 24 = false → ¬ known → c.parts.length < 32 → goes (fun x =>
        x.parts = c.parts ++ [{ agent := agent, count := 1 }] ∧ x.why = c.why)) ∧
      (p.status = 0 → (leNat (p.data.take 4)).testBit 24 = false → ¬ known → 32 ≤ c.parts.length → goes (fun x =>
        x.parts = c.parts ++ [{ agent := agent }] ∧ x.why = (if c.why = 0 then 6 else c.why))) ∧
      (p.status = 0 → (leNat (p.data.take 4)).testBit 24 = false → known → goes (fun x => x.why = c.why ∧
        x.parts = c.parts.map (fun y => if y.agent = agent then { y with count := y.count + 1 } else y))) ∧
      (p.status = 0 → (leNat (p.data.take 4)).testBit 24 = true → goes (fun x =>
        x.why = (if c.why = 0 then 2 else c.why) ∧ x.feid = (if c.feid = 0 then agent else c.feid) ∧
        (known → x.parts = c.parts) ∧ (¬ known → x.parts = c.parts ++ [{ agent := agent }])))) ∧
    (s.Takes p → p.kind = 2 → s.core.id = eidLocal p.deid → s.core.opOf p.otag = some r → r.group = some grp →
      src = s.eid (eidLocal p.deid) → s.commitOf src grp = some c → c.st = .discarding → 0 < c.wait → p.status = 0 →
      let agent := leNat (p.data.take 4) % 2 ^ 24
      ∃ t x o, exec (.gstReply p) s = .next t ∧ t.mem = s.mem ∧ t.commitOf src grp = some x ∧ x.st = .discarding ∧
        x.wait = c.wait - 1 ∧ (∃ y ∈ x.parts, y.agent = agent ∧ y.acked = false) ∧ t.uops = s.uops ++ [o] ∧
        o.pkt.handler = 6 ∧ o.pkt.deid = agent ∧ o.pkt.arg0 = BitVec.ofNat 64 (src % 2 ^ 24 + grp % 65536 * 2 ^ 24)) ∧
    (s.Takes p → p.kind = 1 → src = fld p.arg0 0 24 → grp = fld p.arg0 24 16 →
      (s.commitOf src grp = none → p.arg1.getLsbD 0 = false →
        exec (.query p) s = .next ((s.took p).replyTo p 0 (leBytes 8 0))) ∧
      (s.commitOf src grp = some c → (p.arg1.getLsbD 0 = false ∨ decided c) →
        exec (.query p) s = .next ((s.took p).replyTo p 0 (leBytes 8 (c.st.code + c.why % 16 * 16 +
          Min.min 32 c.parts.length * 256 + c.feid % 2 ^ 24 * 2 ^ 16 + (if c.lostp = true then 2 ^ 41 else 0))))) ∧
      (s.commitOf src grp = some c → p.arg1.getLsbD 0 = true → ¬ decided c →
        exec (.query p) s = .next { s.took p with heldQ := (s.took p).heldQ ++ [p] }))

/-! ### In-network reduction -/

/-- R315 to R319, R429: NRED opens a job and sends its vector to its own router as one contribution, or, for an instance at or
before the last its core has received, completes it as STALE and sends nothing; NREDW writes the result once the job has
completed. A node holds its inputs until all that the tree expects are there or the time limit has passed since the first; a
second input at a port and what a node receives of an instance it has forwarded are discarded; a node that fires combines its
inputs in ascending port order, whatever order they came in, each later input into what the ones before gave, and passes one
packet on to its parent, or from the root to every core listed. A result completes its core's job with DONE or INCOMPLETE and
the total count; for a core that is switched out it is kept in the spill; one that is discarded still moves the core's last
instance. The model's choices: bits of a RED packet (log 14), a contribution of another instance waits while the node holds one,
and how far back a node remembers what it forwarded (log 16), the units of an offline die (log 14). -/
def Obligations.Reductions : Prop :=
  ∀ (s : State) (st : Fin 8) (d a : Fin 32) (b v : Fin 64) (j : JobRec) (nd : Node) (port tree inst k c n op mode : Nat)
    (p q : Packet) (r : RedInst) (o rest : List (Nat × Packet)) (sat : Bool),
    (let w := s.rx a
     let t := fld w 0 8
     let i := fld w 8 16
     let e := s.treeOf t
     let fits : Prop := w.toNat < 2 ^ 26 ∧ treeValid e = true ∧ treeLists e s.core.id = true ∧
      ∀ x ∈ s.core.jobs, x.cls = clsRed → x.status = stPENDING → x.ctx = 0 → x.tree = t → x.inst ≠ i
     s.core.cur = 0 → s.Plain [b] → s.core.rmode < 8 → s.CanIssue [rdV b, rdC a, rdM 0] → o0ok s.o0 = true → oRND s.o0 ≠ 7 →
      (s.rnd = 6 → Traps s (exec (.nred st d a b) s) .illegal (s.ctx.ir.zeroExtend 80)) ∧
      (s.rnd ≠ 6 → ¬ fits → Traps s (exec (.nred st d a b) s) .illegal (s.ctx.ir.zeroExtend 80)) ∧
      (s.rnd ≠ 6 → fits → 4 ≤ s.core.inFlight clsRed → exec (.nred st d a b) s = .next s.block) ∧
      (s.rnd ≠ 6 → fits → s.core.inFlight clsRed < 4 →
        ∃ u x, exec (.nred st d a b) s = .next u ∧ Advanced s u ∧ Opens s u d clsRed x ∧ x.tree = t ∧ x.inst = i ∧
          OnlySends s u ∧
          (((s.core.lastInst t).any (instBefore i) = true → x.status = stSTALE ∧ u.net = s.net) ∧
           ((s.core.lastInst t).any (instBefore i) = false → x.status = stPENDING ∧
            ∃ q : Packet, u.net = s.net ++ [q] ∧ q.kind = 9 ∧ q.deid = s.myEid ∧ q.handler = 0 ∧ q.data = vBytes (s.rv b) ∧
              redTree q = t ∧ redInst q = i ∧ redOp q = fld w 24 2 ∧ redMode q = s.rnd ∧ redSat q = oSAT s.o0 ∧
              redDown q = false ∧ redCount q = 1)))) ∧
    (s.core.cur = 0 → s.Plain [v] → s.CanIssue [rdC a, rdM 0] →
      (s.core.jobOf (s.rx a) = none → Traps s (exec (.nredw st v a) s) .illegal (s.ctx.ir.zeroExtend 80)) ∧
      (s.core.jobOf (s.rx a) = some j →
        (j.cls ≠ clsRed ∨ j.ctx ≠ 0 → Traps s (exec (.nredw st v a) s) .illegal (s.ctx.ir.zeroExtend 80)) ∧
        (j.cls = clsRed → j.ctx = 0 → j.status = stPENDING → exec (.nredw st v a) s = .next s.block) ∧
        (j.cls = clsRed → j.ctx = 0 → j.status ≠ stPENDING →
          ∃ u, exec (.nredw st v a) s = .next u ∧ Advanced s u ∧ u.core.v = s.core.v.set v j.result ∧ u.mem = s.mem ∧
            u.core.jobs = s.core.jobs ∧ ∀ k, u.rc k = s.rc k))) ∧
    (let sent (r : RedInst) : RedInst := { r with
       done := true, inputs := [], gone := (r.inst :: r.gone).filter (fun i => instBefore i (newestInst r.inst r.gone)) }
     let inOrder (o xs : List (Nat × Packet)) : Prop := o.Perm xs ∧ o.Pairwise (fun x y => x.1 < y.1) ∧ o = (k, q) :: rest
     let up := s.unitUp (nodeUnit nd)
     (nodeOk nd port = true →
      let e := s.treeOf (redTree p)
      let off := { s with net := s.net.erase p }
      let first : RedInst := { node := nd, tree := redTree p, inst := redInst p, inputs := [(port, p)],
                               first := s.time.toNat }
      (nodeOn e nd = false ∨ up = false → exec (.redContrib nd port p) s = .next off) ∧
      (nodeOn e nd = true → up = true → s.redAt nd (redTree p) = none →
        (nodeFull e nd [port] = false → exec (.redContrib nd port p) s = .next (off.setRed first)) ∧
        (nodeFull e nd [port] = true →
          exec (.redContrib nd port p) s = .next ((off.setRed (sent first)).redForward nd p))) ∧
      (nodeOn e nd = true → up = true → s.redAt nd (redTree p) = some r → r.node = nd → r.tree = redTree p →
        (r.gone.contains (redInst p) = true → exec (.redContrib nd port p) s = .next off) ∧
        (r.gone.contains (redInst p) = false → r.inst = redInst p → r.done = false → (∃ x ∈ r.inputs, x.1 = port) →
          exec (.redContrib nd port p) s = .next off) ∧
        (r.gone.contains (redInst p) = false → r.inst ≠ redInst p → r.done = false → exec (.redContrib nd port p) s = .next s) ∧
        (r.gone.contains (redInst p) = false → r.done = true → nodeFull e nd [port] = false →
          exec (.redContrib nd port p) s = .next (off.setRed { first with gone := r.gone })) ∧
        (r.gone.contains (redInst p) = false → r.inst = redInst p → r.done = false → r.inputs ≠ [] →
          (∀ x ∈ r.inputs, x.1 ≠ port) → nodeFull e nd (r.inputs.map (·.1) ++ [port]) = false →
          exec (.redContrib nd port p) s = .next (off.setRed { r with inputs := r.inputs ++ [(port, p)] })) ∧
        (r.gone.contains (redInst p) = false → r.inst = redInst p → r.done = false → r.inputs ≠ [] →
          inOrder o (r.inputs ++ [(port, p)]) → nodeFull e nd (r.inputs.map (·.1) ++ [port]) = true →
          exec (.redContrib nd port p) s =
            .next ((off.setRed (sent r)).redForward nd ((rest.map (·.2)).foldl redCombine q))))) ∧
     (nodeOk nd 0 = true →
      (s.redAt nd tree = none → exec (.nodeTimeout nd tree inst) s = .next s) ∧
      (s.redAt nd tree = some r →
        (r.inst ≠ inst ∨ r.done = true ∨ up = false ∨ s.time.toNat < r.first + treeTout (s.treeOf tree) →
          exec (.nodeTimeout nd tree inst) s = .next s) ∧
        (r.inst = inst → r.done = false → up = true → r.first + treeTout (s.treeOf tree) ≤ s.time.toNat →
          inOrder o r.inputs →
          exec (.nodeTimeout nd tree inst) s =
            .next ((s.setRed (sent r)).redForward r.node ((rest.map (·.2)).foldl redCombine q)))))) ∧
    (let m := redCombine q p
     redTree m = redTree q ∧ redInst m = redInst q ∧ redOp m = redOp q ∧ redMode m = redMode q ∧ redSat m = redSat q ∧
       redCount m = (redCount q + redCount p) % 2 ^ 16 ∧ m.data.length = 128 ∧
       ∀ x < 32, elemN (leNat m.data) 32 x =
         redLane (redOp q) (redMode q) (redSat q) (elemN (leNat q.data) 32 x) (elemN (leNat p.data) 32 x) % 2 ^ 32) ∧
    (let f := fmtFP32
     let g : Rnd := { mode := mode, sat := sat }
     redLane op mode sat k n =
       if op = 0 then f.encode g 0 (vAdd mode (f.decode k) (f.decode n))
       else if op = 1 then f.encode g 0 (vMin (f.decode k) (f.decode n))
       else if op = 2 then f.encode g 0 (vMax (f.decode k) (f.decode n))
       else putInt 4 sat (sextNat 32 k + sextNat 32 n)) ∧
    (let e := s.treeOf (redTree p)
     let par := rnode e c / 32
     let t := s.redForward (.router c) p
     (∀ x, par ≠ 5 → par ≠ 6 → meshStep c par = some x →
       t = { s with net := s.net ++ [{ p with seid := s.eid c, deid := s.eid x, handler := opposite par }] }) ∧
     (par = 6 → (∀ l < 16, (gnode e l).testBit 0 = false) →
       ∃ w, redTree { p with arg0 := w } = redTree p ∧ redInst { p with arg0 := w } = redInst p ∧
         redDown { p with arg0 := w } = true ∧ redCount { p with arg0 := w } = redCount p ∧
         t = { s with net := s.net ++ (allCoreIds.filter (treeLists e)).map (fun x =>
           { p with arg0 := w, seid := s.eid c, deid := s.eid x, handler := 0 }) })) ∧
    (s.Works → eidLocal p.deid = s.core.id →
      let t := redTree p
      let i := redInst p
      let n := redCount p
      let off := { s with net := s.net.erase p }
      (s.unitUp s.core.id = false → exec (.redResult p) s = .next off) ∧
      (s.unitUp s.core.id = true → s.core.job = some p.asid →
        (s.core.redJob t i = none → ∃ u, exec (.redResult p) s = .next u ∧ u.net = s.net.erase p ∧
          u.core.jobs = s.core.jobs ∧ u.core.lastInst t = some i) ∧
        (s.core.redJob t i = some j → (∀ x ∈ s.core.jobs, x.cls = clsRed → x.ri = j.ri → x = j) →
          ∃ u, exec (.redResult p) s = .next u ∧ u.net = s.net.erase p ∧ u.core.lastInst t = some i ∧ u.mem = s.mem ∧
            KeepsRegs s u ∧
            { j with status := if n = treeNcon (s.treeOf t) then stDONE else stINCOMPLETE, count := n,
                     result := BitVec.ofNat 1024 (leNat p.data) } ∈ u.core.jobs)) ∧
      (s.unitUp s.core.id = true → s.core.job ≠ some p.asid → ∀ g : Job, s.jobOf p.asid = some g → s.core.id ∈ g.spec.gang →
        ∃ u, exec (.redResult p) s = .next u ∧ u = off.spill p ∧ KeepsRegs s u ∧ u.net = s.net.erase p ∧
          u.jobOf p.asid = some { g with spilled := g.spilled ++ [p] }) ∧
      (s.unitUp s.core.id = true → s.core.job ≠ some p.asid → (∀ g : Job, s.jobOf p.asid = some g → s.core.id ∉ g.spec.gang) →
        (treeLists (s.treeOf t) s.core.id = false → exec (.redResult p) s = .next off) ∧
        (treeLists (s.treeOf t) s.core.id = true → ∃ u, exec (.redResult p) s = .next u ∧ u.core.lastInst t = some i ∧
          u.core.jobs = s.core.jobs ∧ u.net = s.net.erase p ∧ u.mem = s.mem ∧ KeepsRegs s u)))

/-! ### System registers and traps -/

/-- R212 to R215, R225, R241: each register of the map is read whole into C[d], a capability with its tag, and an SWR writes it,
in the classes the map gives; a write that sets a reserved bit, or gives RMODE, WPC or HWC a value out of range, changes
nothing, and read-only fields stay. An index off the map, a register of h0 in a helper and a class that is not allowed raise
ILLEGAL; class Y without permission Y raises CAP_PERM; TVAL holds the index. TIME writes TIME. -/
def Obligations.SystemRegisters : Prop :=
  ∀ (s : State) (st : Fin 8) (d : Fin 32) (p : Fin 8) (w : Fin 4) (h : Fin 2) (k : Fin 4) (n : BitVec 12),
    let c := s.core
    let x := s.ctx
    let num (v : Nat) : Cap := scalar (BitVec.ofNat 64 v)
    let bit (b : Bool) : Nat := if b then 1 else 0
    let lctl (l : Loop) : Cap :=
      num (bit l.lact + 2 * (l.llen % 16) + 32 * (l.lidx % 8) + 256 * (l.lsz % 64))
    let port := c.sp[p]
    let u : List (Nat × Cap) :=
      [(0x000, num (bit c.ie + 2 * bit c.pie + 4 * bit c.inh + 8 * bit c.schk + 16 * bit c.mm)), (0x001, num c.rmode),
       (0x002, scalar c.srseed), (0x003, scalar c.srctr), (0x004, num c.b0), (0x005, num c.b1), (0x006, num c.b2),
       (0x008, num (c.oc.orank % 2 ^ 16)),
       (0x009, num (c.oc.st % 4 + 4 * bit c.oc.cfg + 8 * bit c.oc.nans + 16 * bit c.oc.satf + 32 * (c.oc.win % 32) +
         1024 * bit c.oc.eng + 2 ^ 32 * (c.oc.lastk % 2 ^ 24))),
       (0x00A, num (c.mfstep % 2 ^ 16 + 2 ^ 16 * (c.mfcause % 64) + 2 ^ 22 * bit c.mfvalid + 2 ^ 32 * (c.mfjob % 2 ^ 32))),
       (0x010, x.pcc), (0x020, scalar (x.loop.lbeg.truncate 64)), (0x021, lctl x.loop), (0x022, scalar x.loop.lcnt),
       (0x023, scalar x.loop.liter), (0x024, scalar x.loop.lfstep), (0x025, scalar x.loop.lmstep), (0x0A0, scalar c.gscyc),
       (0x0A1, scalar c.gssent), (0x0A2, scalar c.gsrecv), (0x0A3, scalar c.gswhy), (0x0A4, num c.cyc), (0x0C0, num s.myEid),
       (0x0C1, num (bit s.semHeld + 2 * (s.semOwner % 2) + 2 ^ 32 * (s.semGen % 2 ^ 32)))]
    let uH0 : List (Nat × Cap) :=
      [(0x040 + 8 * p, num (bit port.bnd + 2 * bit port.dir)), (0x041 + 8 * p, port.cap), (0x042 + 8 * p, scalar port.stride),
       (0x043 + 8 * p, num port.cnt.toNat), (0x044 + 8 * p, num port.idx.toNat)]
    let yH0 : List (Nat × Cap) :=
      [(0x011, scalar c.tcause), (0x012, scalar (c.tval.truncate 64)), (0x013, num (c.tval.toNat / 2 ^ 64)), (0x014, c.tpc),
       (0x018 + k, c.hs[k]), (0x028, scalar (c.sloop.lbeg.truncate 64)), (0x029, lctl c.sloop), (0x02A, scalar c.sloop.lcnt),
       (0x02B, scalar c.sloop.liter), (0x02C, scalar c.sloop.lfstep), (0x02D, scalar c.sloop.lmstep)]
    let y : List (Nat × Cap) :=
      [(0x016, c.tvec), (0x030, num c.ien.toNat),
       (0x031, num (c.ipend ||| (if c.tcmp.toNat ≤ s.time.toNat then 1 else 0)).toNat), (0x032, scalar c.tcmp),
       (0x080 + 2 * w, scalar c.wpa[w]), (0x081 + 2 * w, scalar c.wpc[w]), (0x090 + 4 * h, scalar c.hwa[h]),
       (0x091 + 4 * h, scalar c.hwc[h]), (0x092 + 4 * h, scalar c.hwe[h]), (0x0B0, num (bit c.brkstop + 2 * bit c.msz))]
    let rd (i : Nat) := exec (.srd st d (BitVec.ofNat 12 i)) s
    let wr (i : Nat) := exec (.swr st d (BitVec.ofNat 12 i)) s
    let v := s.rx d
    let r := s.rc d
    let off (i : Nat) : Prop := 7 ≤ i ∧ i ≤ 0xFFF ∧ i ∉ [0x008, 0x009, 0x00A, 0x010, 0x011, 0x012, 0x013, 0x014, 0x016, 0x018, 0x019,
      0x01A, 0x01B, 0x020, 0x021, 0x022, 0x023, 0x024, 0x025, 0x028, 0x029, 0x02A, 0x02B, 0x02C, 0x02D, 0x030, 0x031, 0x032,
      0x080, 0x081, 0x082, 0x083, 0x084, 0x085, 0x086, 0x087, 0x090, 0x091, 0x092, 0x094, 0x095, 0x096, 0x0A0, 0x0A1, 0x0A2,
      0x0A3, 0x0A4, 0x0B0, 0x0C0, 0x0C1] ∧ ¬ (0x040 ≤ i ∧ i < 0x080 ∧ i % 8 < 5)
    let put (i : Nat) (e : Core) : Prop := wr i = s.retire st.val { s with core := e }
    let keep (i : Nat) : Prop := wr i = s.retire st.val s
    let lw (l : Loop) (i : Nat) : Prop := put i { c with sloop := l }
    (s.CanIssue [rdC d] →
      (∀ q ∈ u, WritesC s (rd q.1) d q.2) ∧
      (∀ q ∈ uH0, (s.helper = false → WritesC s (rd q.1) d q.2) ∧ (s.helper = true → Traps s (rd q.1) .illegal (BitVec.ofNat 80 q.1)) ∧
        Traps s (wr q.1) .illegal (BitVec.ofNat 80 q.1)) ∧
      (∀ q ∈ yH0, (s.helper = false → s.pccY = true → WritesC s (rd q.1) d q.2) ∧
        (s.helper = false → s.pccY = false → Traps s (rd q.1) .capPerm (BitVec.ofNat 80 q.1) ∧
          Traps s (wr q.1) .capPerm (BitVec.ofNat 80 q.1)) ∧
        (s.helper = true → Traps s (rd q.1) .illegal (BitVec.ofNat 80 q.1) ∧ Traps s (wr q.1) .illegal (BitVec.ofNat 80 q.1))) ∧
      (∀ q ∈ y, (s.pccY = true → WritesC s (rd q.1) d q.2) ∧
        (s.pccY = false → Traps s (rd q.1) .capPerm (BitVec.ofNat 80 q.1) ∧ Traps s (wr q.1) .capPerm (BitVec.ofNat 80 q.1))) ∧
      (off n.toNat → Traps s (exec (.srd st d n) s) .illegal (n.zeroExtend 80) ∧
        Traps s (exec (.swr st d n) s) .illegal (n.zeroExtend 80)) ∧
      (∀ i ∈ [0x008, 0x00A, 0x010, 0x020, 0x021, 0x022, 0x023, 0x024, 0x025, 0x0A0, 0x0A1, 0x0A2, 0x0A3, 0x0A4, 0x0C0, 0x0C1],
        Traps s (wr i) .illegal (BitVec.ofNat 80 i)) ∧
      WritesC s (exec (.time st d) s) d (scalar s.time) ∧
      (if 1 ≤ v.toNat ∧ v.toNat ≤ 6 then put 0x001 { c with rmode := v.toNat } else keep 0x001) ∧
      put 0x002 { c with srseed := v } ∧ put 0x003 { c with srctr := v } ∧
      (if fld v 11 21 = 0 ∧ fld v 56 8 = 0 then
        put 0x009 { c with oc := { c.oc with nans := c.oc.nans && !v.getLsbD 3, satf := c.oc.satf && !v.getLsbD 4 } }
       else keep 0x009) ∧
      (s.pccY = true →
        (if v.toNat < 32 then
          put 0x000 { c with ie := v.getLsbD 0, pie := v.getLsbD 1, inh := v.getLsbD 2, schk := v.getLsbD 3 }
         else keep 0x000) ∧
        (∀ q ∈ [(0x004, v.toNat, c.b1, c.b2), (0x005, c.b0, v.toNat, c.b2), (0x006, c.b0, c.b1, v.toNat)],
          (v.toNat < 512 → boundsOk c q.2.1 q.2.2.1 q.2.2.2 = true →
            wr q.1 = s.retire st.val (s.moveBounds q.2.1 q.2.2.1 q.2.2.2)) ∧
          (512 ≤ v.toNat ∨ boundsOk c q.2.1 q.2.2.1 q.2.2.2 = false → keep q.1)) ∧
        put 0x016 { c with tvec := r } ∧
        (if v.toNat < 4 then put 0x030 { c with ien := v.truncate 2 } else keep 0x030) ∧
        (if v.toNat < 4 then
          put 0x031 { c with ipend := (c.ipend &&& ~~~(v.truncate 2)) ||| (if c.tcmp.toNat ≤ s.time.toNat then 1 else 0) }
         else keep 0x031) ∧
        put 0x032 { c with tcmp := v } ∧ put (0x080 + 2 * w) { c with wpa := c.wpa.set w v } ∧
        (if fld v 3 6 ≤ 40 ∧ fld v 9 39 = 0 then put (0x081 + 2 * w) { c with wpc := c.wpc.set w v } else keep (0x081 + 2 * w)) ∧
        put (0x090 + 4 * h) { c with hwa := c.hwa.set h v } ∧
        (if 7 ≤ fld v 2 6 ∧ fld v 2 6 ≤ 40 ∧ fld v 8 40 = 0 then put (0x091 + 4 * h) { c with hwc := c.hwc.set h v }
         else keep (0x091 + 4 * h)) ∧
        (if v ≠ 0 ∧ fld v 33 31 = 0 then put (0x092 + 4 * h) { c with hwe := c.hwe.set h 0 } else keep (0x092 + 4 * h)) ∧
        (if v.toNat < 4 then put 0x0B0 { c with brkstop := v.getLsbD 0, msz := v.getLsbD 1 } else keep 0x0B0) ∧
        (s.helper = false →
          (if v.toNat < 128 then put 0x011 { c with tcause := v } else keep 0x011) ∧
          put 0x012 { c with tval := BitVec.ofNat 80 (c.tval.toNat / 2 ^ 64 * 2 ^ 64 + v.toNat) } ∧
          (if v.toNat < 2 ^ 16 then put 0x013 { c with tval := BitVec.ofNat 80 (v.toNat * 2 ^ 64 + c.tval.toNat % 2 ^ 64) }
           else keep 0x013) ∧
          put 0x014 { c with tpc := r } ∧ put (0x018 + k) { c with hs := c.hs.set k r } ∧
          lw { c.sloop with lbeg := BitVec.ofNat 80 (s.pc / 2 ^ 64 * 2 ^ 64 + v.toNat) } 0x028 ∧
          (if v.toNat < 2 ^ 14 then
            lw { c.sloop with lact := v.getLsbD 0, llen := fld v 1 4, lidx := fld v 5 3, lsz := fld v 8 6 } 0x029
           else keep 0x029) ∧
          lw { c.sloop with lcnt := v } 0x02A ∧ lw { c.sloop with liter := v } 0x02B ∧ lw { c.sloop with lfstep := v } 0x02C ∧
          lw { c.sloop with lmstep := v } 0x02D)))

/-- R217 to R224, R192, R354, R228, R87: a trap enters h0's handler: TPC is PCC at the restart address, TCAUSE and TVAL say why,
the saved loop state is the loop state, PIE is IE, IE is off and INH on, and PCC is TVEC; every register stays. With INH on, or
no handler to enter, the gang stops with reason 6 and TPC, TCAUSE and TVAL stay. A helper ends with the cause, value and
address. TRAP, BRK and HALT complete first; HALT ends its loop too (R132). ERET puts TPC, the saved loop state and PIE back and
clears INH. A word off the opcode table raises ILLEGAL with the word. The timer sets IPEND[0] while TIME has reached TCMP, and
wakes a sleeper at its limit. HALT going on behind itself and what an odd TVEC does are the model's (log 48). -/
def Obligations.TrapsAndReturn : Prop :=
  ∀ (s : State) (st : Fin 8) (n : BitVec 12) (c : Cause) (tv : Addr) (async : Bool) (restart : Nat) (word : BitVec 32)
    (h : Fin 11) (lim : Word) (woken : Bool) (trap : Trap) (rest : Core),
    let after := s.finish st.val s.ctx.loop.lact
    let ended := (s.setCtx { s.ctx with loop := { s.ctx.loop with lact := false } }).finish st.val s.ctx.loop.lact
    let busy : Prop := ∃ k : Fin 11, k ≠ s.core.cur ∧ s.core.ctxs[k].arriving = true
    let stops (o : Host.Outcome State Fault Refusal) (reason : Nat) : Prop := ∃ t, o = .next t ∧
      (¬ busy → t.core.stopped = true) ∧ (busy → s.core.stopped = false → t.core.stopped = false ∧ t.core.stopReq = true) ∧
      t.core.tpc = s.core.tpc ∧ t.core.tcause = s.core.tcause ∧ t.core.tval = s.core.tval ∧ (∀ r, t.rc r = s.rc r) ∧
      (s.core.stopReq = false → s.core.stopped = false → s.core.job = none → t.core.gswhy = BitVec.ofNat 64 (reason + 256 * s.myEid))
    let enters (o : Host.Outcome State Fault Refusal) (code : Nat) : Prop := ∃ t, o = .next t ∧
      t.core.evc[s.counter] = s.core.evc[s.counter] + 1 ∧ t.core.tpc = capAt after.ctx.pcc after.pc ∧
      (s.ctx.loop.lact = false → after.ctx.pcc = capMove s.ctx.pcc s.ctx.npc.toNat) ∧ t.core.tcause = BitVec.ofNat 64 code ∧
      t.core.tval = n.zeroExtend 80 ∧ t.core.sloop = after.ctx.loop ∧ t.core.pie = s.core.ie ∧ t.core.ie = false ∧
      t.core.inh = true ∧ t.ctx.pcc = s.core.tvec ∧ t.ctx.loop.lact = false ∧ (∀ r, t.rc r = s.rc r) ∧ t.ctx.o = s.ctx.o ∧
      t.core.v = s.core.v ∧ t.core.m = s.core.m ∧ t.core.g = s.core.g ∧ t.core.hs = s.core.hs ∧ (s.Untraced → t.mem = s.mem)
    (s.CanIssue [] → s.helper = false → s.core.inh = false → after.tvecOk = true → s.ctx.fix = [] →
      enters (exec (.trap st n) s) Cause.soft.code ∧
      (s.core.brkstop = false → enters (exec (.brk st n) s) Cause.brk.code)) ∧
    (c ≠ .ue → s.helper = false → s.core.inh = false → s.tvecOk = true → s.ctx.fix = [] →
      let t := s.takeTrap ⟨c, tv⟩ async restart
      t.core.tpc = capAt s.ctx.pcc restart ∧ t.core.tcause = BitVec.ofNat 64 (c.code + (if async then 64 else 0)) ∧
      t.core.tval = tv ∧ t.core.sloop = s.ctx.loop ∧ t.core.pie = s.core.ie ∧ t.core.ie = false ∧ t.core.inh = true ∧
      t.ctx.pcc = s.core.tvec ∧ t.ctx.loop = { s.ctx.loop with lact := false } ∧ (∀ r, t.rc r = s.rc r) ∧ t.ctx.o = s.ctx.o ∧
      t.core.v = s.core.v ∧ t.core.m = s.core.m ∧ t.core.g = s.core.g ∧ t.core.srctr = s.core.srctr ∧
      t.core.jobs = s.core.jobs ∧ t.core.hs = s.core.hs ∧ (s.Untraced → t.mem = s.mem)) ∧
    (c ≠ .ue → s.helper = false → s.core.inh = true ∨ s.tvecOk = false →
      stops (.next (s.takeTrap ⟨c, tv⟩ async restart)) 6) ∧
    (c ≠ .ue → s.helper = true → s.ctx.fix = [] → s.ctx.ahead = false →
      let t := s.takeTrap ⟨c, tv⟩ async restart
      t.ctx.slot = .ended ∧ t.ctx.endCause = c.code ∧ t.ctx.endTval = tv ∧ t.ctx.endPc = BitVec.ofNat 80 restart ∧
      (∀ r, t.rc r = s.rc r) ∧ t.core.tpc = s.core.tpc ∧ t.core.ie = s.core.ie ∧ t.core.inh = s.core.inh ∧ t.mem = s.mem) ∧
    (s.CanIssue [] →
      exec (.trap st n) s = .next (after.trapHere ⟨.soft, n.zeroExtend 80⟩) ∧
      (s.core.brkstop = false → exec (.brk st n) s = .next (after.trapHere ⟨.brk, n.zeroExtend 80⟩)) ∧
      (s.core.brkstop = true → exec (.brk st n) s = .next (after.stopGangHere 3) ∧ stops (exec (.brk st n) s) 3) ∧
      (s.pccY = true → exec (.halt st) s = .next (ended.stopGangHere 2) ∧ stops (exec (.halt st) s) 2 ∧
        ∃ t, exec (.halt st) s = .next t ∧ t.ctx.loop.lact = false ∧ t.ctx.pcc = capMove s.ctx.pcc s.ctx.npc.toNat) ∧
      (s.pccY = false → Traps s (exec (.halt st) s) .capPerm 0) ∧
      (s.helper = true ∨ s.ctx.loop.lact = true → Traps s (exec (.eret st) s) .illegal (s.ctx.ir.zeroExtend 80)) ∧
      (s.helper = false → s.ctx.loop.lact = false →
        (s.pccY = false → Traps s (exec (.eret st) s) .capPerm 0) ∧
        (s.pccY = true → capCheck s.core.tpc [pX] (capA s.core.tpc) 2 2 = some c →
          Traps s (exec (.eret st) s) c (tvalOf (capA s.core.tpc))) ∧
        (s.pccY = true → capCheck s.core.tpc [pX] (capA s.core.tpc) 2 2 = none →
          ∃ t, exec (.eret st) s = .next t ∧ t.ctx.pcc = s.core.tpc ∧
            t.ctx.loop = { s.core.sloop with
              lbeg := BitVec.ofNat 80 (capA s.core.tpc / 2 ^ 64 * 2 ^ 64 + s.core.sloop.lbeg.toNat % 2 ^ 64) } ∧
            t.core.ie = s.core.pie ∧ t.core.pie = s.core.pie ∧ t.core.inh = false ∧ t.core.tpc = s.core.tpc ∧
            t.core.tcause = s.core.tcause ∧ t.core.tval = s.core.tval ∧ (∀ r, t.rc r = s.rc r) ∧ t.ctx.o = s.ctx.o ∧
            t.core.v = s.core.v ∧ (s.Untraced → t.mem = s.mem)))) ∧
    ((s.helper && s.ctx.stopReq) = false →
      exec (.unallocatedWord word) s =
        .next ((s.setCtx { s.ctx with ir := word }).trapHere ⟨.illegal, word.zeroExtend 80⟩)) ∧
    (s.Works → s.core.cur = 0 → s.core.run.isSome = true → s.arriving = false → s.pausedJob = none →
      let f := s.flushOca false
      (s.boundary = none → exec (.trapEntry s.core.id) s = .next s) ∧
      (∀ u t, s.boundary.isSome = true → fetchHere s = .error (.trap u) t →
        exec (.trapEntry s.core.id) s = .next ((t.flushOca false).trapHere u)) ∧
      (s.boundary.isSome = true → (∀ u t, fetchHere s ≠ .error (.trap u) t) → f.boundary = some (trap, rest) →
        exec (.trapEntry s.core.id) s = .next (({ f with core := rest } : State).takeTrap trap true f.pc)) ∧
      ((∀ k es, s.ctx.wait ≠ .ocacc k es) → f = s)) ∧
    ((s.core.inh = true → s.core.boundary = none) ∧
     (s.core.inh = false → s.core.pTrig = [] → s.core.pWatch = [] → s.core.pMixed = [] →
      (s.core.ie = true → s.core.ipend &&& s.core.ien ≠ 0 →
        s.core.boundary = some (⟨.interrupt, (s.core.ipend &&& s.core.ien).zeroExtend 80⟩, s.core)) ∧
      (s.core.ie = false ∨ s.core.ipend &&& s.core.ien = 0 → s.core.boundary = none))) ∧
    (s.Works →
      exec (.tcmpMatch s.core.id) s = .next (if s.core.tcmp.toNat ≤ s.time.toNat then
        { s with core := { s.core with ipend := s.core.ipend ||| 1 } } else s) ∧
      (s.core.ctxs[h].wait = .sleeping lim woken →
        exec (.sleepWake s.core.id h.val) s = .next (s.mapCtx h (fun x =>
          { x with wait := .sleeping lim (woken || decide (lim.toNat ≤ s.time.toNat)) }))))

/-! ### Dispatch, messages and levels -/

/-- R322 to R328, R334, R335, R341, R297: an idle core takes the first task it may of its Hutch's head list, then of its tail
lists from level 3 down, unless a core idle before it may; a task taken leaves the Hutch and starts. A steal round makes four
attempts on the clusters of its die and gang in ring order; one that finds nothing is counted, and the last ends the round for 1
us. A message or trigger whose task its level cannot count is REFUSED, and the job's level has a number of its own (log 15). A
user message enters the head list of its core's cluster; a trigger fires its binding, waits in it, or overflows. -/
def Obligations.DispatchAndMessages : Prop :=
  ∀ (s : State) (k : Task) (cl : Nat) (p : Packet) (b : Binding) (e : Nat), e = eidLocal p.deid →
    let own := clusterOf s.core.id
    let order (H : Hutch) : List Task := H.head ++ H.t3 ++ H.t2 ++ H.t1 ++ H.t0
    let stl := s.core.steal
    let now := s.time.toNat
    let ready : Prop := s.core.run = none ∧ ∃ j, s.myJob = some j ∧ j.gang = .run
    let steals (x : Steal) : State := { s with core := { s.core with steal := x } }
    (s.core.b0 ≤ s.core.b1 → s.core.b1 ≤ 254 →
      let c := s.core.scratchCap
      capBase c = ((Config.LW + 0x100000 + 1024 * s.core.b0 : Nat) : Int) ∧
      capTop c = ((Config.LW + 0x100000 + 1024 * s.core.b1 : Nat) : Int) ∧ capA c = Config.LW + 0x100000 + 1024 * s.core.b0 ∧
      c.tag = true) ∧
    (s.Works →
      (¬ ready → exec (.taskDispatch s.core.id) s = .next s ∧ exec (.stealRound s.core.id) s = .next s ∧
        exec (.stealAttempt s.core.id) s = .next s) ∧
      (ready →
        let mine := (order (s.hutch own)).find? (s.core.mayTake false)
        let first : Prop := ∀ c ∈ s.others, clusterOf c.id = own → c.idle = true → c.mayTake false k = true →
          s.core.idleSince < c.idleSince ∨ (s.core.idleSince = c.idleSince ∧ s.core.id ≤ c.id)
        (mine = none → exec (.taskDispatch s.core.id) s = .next s) ∧
        (mine = some k → ¬ first → exec (.taskDispatch s.core.id) s = .next s) ∧
        (mine = some k → first →
          ∃ t, exec (.taskDispatch s.core.id) s = .next t ∧ Starts s t k .own ∧
            t.hutch own = (s.hutch own).keep (· != k) ∧ (∀ c, c ≠ own → t.hutch c = s.hutch c) ∧
            (k.entry = false → t.levels = s.levels) ∧
            (∀ l, k.entry = true → s.levelOf k.asid k.launch = some l → l.st = 2 →
              t.levelOf k.asid k.launch =
                some { l with entries := l.entries - 1, st := if l.entries ≤ 1 then 3 else 2 })) ∧
        (stl.left = 0 → mine = none → stl.roundAt ≤ now →
          exec (.stealRound s.core.id) s = .next (steals { stl with left := 4, issued := now })) ∧
        (stl.left ≠ 0 ∨ mine ≠ none ∨ now < stl.roundAt → exec (.stealRound s.core.id) s = .next s) ∧
        (stl.left = 0 → exec (.stealAttempt s.core.id) s = .next s) ∧
        (stl.left ≠ 0 → s.victim = none →
          exec (.stealAttempt s.core.id) s = .next (steals { stl with left := 0, roundAt := now + 1000 })) ∧
        (stl.left ≠ 0 → s.victim = some cl →
          (cl / 32 = s.core.id / 1024 ∧ s.gangCluster cl = true ∧ cl ≠ own ∧
            ∃ i < 32, cl = s.core.id / 1024 * 32 + (stl.next + i) % 32 ∧ ∀ n < i,
              let q := s.core.id / 1024 * 32 + (stl.next + n) % 32
              q = own ∨ s.gangCluster q = false) ∧
          ((order (s.hutch cl)).find? (s.core.mayTake true) = none →
            ∃ t, exec (.stealAttempt s.core.id) s = .next t ∧ t.core.run = none ∧
              t.core.evc = s.core.evc.set (8 : Fin 11) (s.core.evc[(8 : Fin 11)] + 1) ∧
              t.core.steal = { next := (cl + 1) % 32, left := stl.left - 1, issued := now,
                               roundAt := if stl.left = 1 then now + 1000 else stl.roundAt,
                               srch := stl.srch + (now - stl.issued), fails := stl.fails + 1 } ∧
              t.hutches = s.hutches ∧ t.mem = s.mem ∧ t.core.v = s.core.v) ∧
          ((order (s.hutch cl)).find? (s.core.mayTake true) = some k →
            ∃ t, exec (.stealAttempt s.core.id) s = .next t ∧ Starts s t k .stolen ∧ t.core.steal.left = 0 ∧
              t.core.evc = s.core.evc.set (7 : Fin 11) (s.core.evc[(7 : Fin 11)] + 1) ∧
              t.hutch cl = (s.hutch cl).keep (· != k)))) ∧
      (k.pin ≠ .none → s.core.mayTake true k = false)) ∧
    (s.Takes p → p.kind = 1 →
      let u := s.took p
      let c := clusterOf e
      let here : Bool := eidPkg p.seid == s.pkgNo
      let full (i : Instr) : Prop := exec i s = .next (u.cannotPlace p)
      (e % 1024 ≠ 0x300 → e % 1024 ≠ 0x301 → p.handler < 64 ∨ u.coreTakes e p.asid = false → exec (.activeMessage p) s = .next (u.replyTo p 2)) ∧
      (64 ≤ p.handler → u.coreTakes e p.asid = true →
        (u.hutchRoom c p.asid = false → full (.activeMessage p)) ∧
        (u.hutchRoom c p.asid = true → here = false → u.countRoom p.asid jobLid 1 = false →
          exec (.activeMessage p) s = .next (u.replyTo p 2)) ∧
        (u.hutchRoom c p.asid = true → (here = false → u.countRoom p.asid jobLid 1 = true) →
          u.levelCancelled p.asid (if here ∧ p.launch ≠ 0 then p.launch else jobLid) = false →
          ∃ v : State, exec (.activeMessage p) s = .next (v.replyTo p 0) ∧ ∃ x : Task,
            x.hnd = p.handler ∧ x.a0 = p.arg0 ∧ x.a1 = p.arg1 ∧ x.a2 = p.arg2 ∧ x.a3 = p.arg3 ∧ x.prio = 3 ∧
            x.asid = p.asid ∧ x.launch = (if here then p.launch else 0) ∧ (here = true → x.pcc = p.pcc) ∧
            (p.pin = 0 → x.pin = .cluster c) ∧ (p.pin = 1 → x.pin = .core e) ∧ x.tid = (s.hutch c).nextTid ∧
            v.hutch c = { s.hutch c with head := (s.hutch c).head ++ [x], ser := (s.hutch c).ser + 1 } ∧
            ∀ q, q ≠ c → v.hutch q = s.hutch q)) ∧
      (u.coreTakes e p.asid = false → exec (.trigger p) s = .next (u.replyTo p 2)) ∧
      (u.coreTakes e p.asid = true → u.core.id = e →
        let put (x : Binding) (v : State) : Prop := v.core.bindOf p.arg0 = some x ∧
          (∀ q, q ≠ p.arg0 → v.core.bindOf q = s.core.bindOf q) ∧ v.mem = s.mem ∧ v.levels = s.levels
        let spills : Prop := exec (.trigger p) s = .next (({ u with core := { u.core with
          pTrig := u.core.pTrig ++ [⟨.trigOver, p.arg0.zeroExtend 80⟩] } } : State).replyTo p 1)
        (s.core.bindOf p.arg0 = some b →
          (b.bnd = true → u.hutchRoom c p.asid = false → full (.trigger p)) ∧
          (b.bnd = true → u.hutchRoom c p.asid = true → u.countRoom p.asid (if b.launch = 0 then jobLid else b.launch) 1 = false →
            exec (.trigger p) s = .next (u.replyTo p 2)) ∧
          (b.bnd = true → u.hutchRoom c p.asid = true → u.countRoom p.asid (if b.launch = 0 then jobLid else b.launch) 1 = true →
            exec (.trigger p) s = .next ((u.fire p.arg0 p.thread).replyTo p 0)) ∧
          (b.bnd = false → b.pend < 255 →
            ∃ v : State, exec (.trigger p) s = .next (v.replyTo p 0) ∧ put { b with pend := b.pend + 1 } v) ∧
          (b.bnd = false → 255 ≤ b.pend → spills)) ∧
        (s.core.bindOf p.arg0 = none →
          (s.core.binds.length < 64 →
            ∃ v : State, exec (.trigger p) s = .next (v.replyTo p 0) ∧ put { addr := p.arg0, pend := 1, idx := u.core.freeBind } v) ∧
          (64 ≤ s.core.binds.length → spills))))

/-- R329, R330, R384, R392, R404: a PENDING launch with no dependence opens: its shape record is in the scratchpad of every core
that takes part, one entry task is in each of its clusters' Hutches, and its counter is their number; one that does not fit, or
lacks one of its six descriptors, is refused. A phase completes once its last graph has and its gang is idle. Each step of the
Bureau's run takes the next dirty page of no H, clears its D and its translations, reads one word of it, or writes its record;
with no page left it writes the launch's number and releases the successors. Its place is no part of the level's record in
memory, which these steps leave. A launch is refused by log 27's choice. -/
def Obligations.LaunchesAndPhases : Prop :=
  ∀ (s : State) (asid lid : Nat) (l : Level) (sp : LaunchSpec) (j : Job),
    (s.levelOf asid lid = some l → l.spec = some sp →
      (l.st ≠ 1 ∨ l.dep ≠ 0 ∨ l.cancelled = true ∨ l.refused = true → exec (.launchOpen asid lid) s = .next s) ∧
      (l.st = 1 → l.dep = 0 → l.cancelled = false → l.refused = false →
        let cores := s.launchCores asid sp
        let fits : Prop := (∀ n < 6, let pd := ((sp.pds[n]?).getD 0).toNat
            pd / 2 ^ 96 % 16 ≤ 3 ∧ pd / 2 ^ 64 % 2 ^ 32 ≠ 0) ∧
          ∀ e ∈ cores, (s.coreOf e).b0 * 1024 + 256 ≤ (s.coreOf e).b1 * 1024
        (¬ fits → exec (.launchOpen asid lid) s =
          .next ((s.mapLevel asid lid (fun l => { l with refused := true })).tellHost (.launchRefused asid lid))) ∧
        (fits → sp.lid = lid → lid ≠ 0 → sp.clusters.Nodup → Memory.wf s.mem = true → s.jobOf asid = some j →
          j.spec.counter.tag = false → (∀ e ∈ cores, s.Open (poolPlace e (1024 * (s.coreOf e).b0)) 256) →
          (∀ e ∈ cores, e < 4096 ∧ (s.coreOf e).b1 ≤ 254) →
          ∃ t, exec (.launchOpen asid lid) s = .next t ∧
            t.levelOf asid lid = some { l with st := 2, cnt := sp.clusters.length, entries := sp.clusters.length,
                                               topen := s.time.toNat } ∧
            (∀ e ∈ cores, t.getBytes (poolPlace e (1024 * (s.coreOf e).b0)) 256 = shapeBytes sp cores e) ∧
            (∀ q, (∀ e ∈ cores, ¬ within (poolPlace e (1024 * (s.coreOf e).b0)) 256 q) → memGet t.mem q = memGet s.mem q) ∧
            (∀ cl ∈ sp.clusters, (t.hutch cl).tasks.length = (s.hutch cl).tasks.length + 1 ∧
              ∃ k ∈ (t.hutch cl).tasks, k.entry = true ∧ k.launch = lid ∧ k.asid = asid ∧ k.pin = .none ∧
                k.prio = sp.prio ∧ k.hnd = sp.entry ∧ k.pcc = capMove j.spec.code sp.entry) ∧
            ∀ cl, cl ∉ sp.clusters → t.hutch cl = s.hutch cl))) ∧
    (s.levelOf asid lid = some l →
      let ends : Prop := lidLevel lid = 3 ∧ l.st = 2 ∧ l.cnt = 0 ∧ s.lastGraphDone asid lid = true ∧ s.gangIdle asid = true
      (¬ ends → exec (.phaseBarrier asid lid) s = .next s) ∧
      (ends → ∃ t, exec (.phaseBarrier asid lid) s = .next t ∧
        t.levelOf asid lid = some { l with st := if l.cancelled then 5 else 4, tdone := s.time.toNat } ∧
        (∀ a i, (a ≠ asid ∨ i ≠ lid) → t.levelOf a i = s.levelOf a i) ∧ t.core = s.core)) ∧
    ((s.jobOf asid = none ∨ s.levelOf asid lid = none → exec (.bureauRun asid lid) s = .next s) ∧
     (s.jobOf asid = some j → s.levelOf asid lid = some l →
      let go (u : State) (f : Level → Level) : State :=
        { u with levels := u.levels.map (fun x => if x.asid = asid ∧ x.lid = lid then f x else x) }
      (l.bureau = false → exec (.bureauRun asid lid) s = .next s) ∧
      (l.bureau = true → j.spec.hash = none → exec (.bureauRun asid lid) s =
        .next ((go s (fun l => { l with bureau := false })).releaseSucc asid lid)) ∧
      (l.bureau = true → ∀ r, j.spec.hash = some r →
        (∀ va off crc, l.hashing = some (va, off, crc) →
          (walkLeaf s j.spec.root va = none → exec (.bureauRun asid lid) s = .next (go s (fun l => { l with hashing := none, hashVa := va + 1 }))) ∧
          ∀ x, walkLeaf s j.spec.root va = some x →
            (off < 2 ^ levelShift x.level → exec (.bureauRun asid lid) s =
              .next (go (s.touch (ptePA x.pte + off) 8) (fun l => { l with
                hashing := some (va, off + 8, crc64More crc (s.getBytes (ptePA x.pte + off) 8)) }))) ∧
            (2 ^ levelShift x.level ≤ off → exec (.bureauRun asid lid) s =
              .next (go (s.ringPut asid r.base 32 (hashRecord va x.level lid (crc64End crc) asid))
                (fun l => { l with hashing := none, hashVa := va + off })))) ∧
        (l.hashing = none →
          (∀ x, s.nextDirty j.spec.root l.hashVa = some x →
            exec (.bureauRun asid lid) s = .next (go (s.clearDirty asid x.1 x.2)
              (fun l => { l with hashing := some (x.1, 0, 2 ^ 64 - 1) })) ∧
            (Memory.wf s.mem = true → ((s.clearDirty asid x.1 x.2).getNat x.2.ea 8).testBit 8 = false)) ∧
          (s.nextDirty j.spec.root l.hashVa = none → exec (.bureauRun asid lid) s =
            .next ((go (s.engineWrite asid (r.base + 12) (leBytes 4 lid) (s.dieMgr 0))
              (fun l => { l with bureau := false })).releaseSucc asid lid)))) ∧
      ((∀ c ∈ s.allCores, ∀ h : Fin 2, c.hwc[h].toNat.testBit 0 = false) →
        ∃ t, exec (.bureauRun asid lid) s = .next t ∧ t.core.ctxs = s.core.ctxs ∧ t.core.v = s.core.v)))

/-! ### Gang stops and switches -/

/-- R226, R227, R232 to R236, R278, R321: a stop asks every core of the gang, the host hears of reasons 2 to 8, and reasons 5
and 6 alone replace another. A core asked to stop records its counts and stops, but not while an arrival waits; what it was
granted of receive slots goes back. A slice that runs out stops the dispatch when its cycle ends, unless a launch completed in
that cycle; the drain begins when every core has stopped, and ends when no reply is awaited but of what a destination holds, and
the gang's messages balance; a spill that does not fit ends the switch with reason 8. The save writes its pieces in order; it is
left with reason 7 at a page fault inside the area and 8 at its end, the gang then UNSAVEABLE; one that succeeds writes VALID,
keeps every core's record and the job's join cells, and frees the cores. An uncorrectable error poisons its core's record and
stops the gang with reason 5. A lease that has run out lets its line go. The model's choices: the header's layout, the order of
the pieces, which counts the drain compares and what VALID says between two saves (log 24); that expiry and completion of one
cycle are decided at its end, and the ORIGIN of reasons 7, 8 and 9 (log 26). -/
def Obligations.GangStopsAndSwitches : Prop :=
  ∀ (s : State) (asid line reason origin : Nat) (j : Job) (c : Core),
    let now := s.time.toNat
    let still (e : Nat) : Prop := (s.coreOf e).stopped = true
    let gang (i : Instr) (g : Gang) : Prop := ∃ t, exec i s = .next t ∧ t.core = s.core ∧ t.others = s.others ∧
      t.mem = s.mem ∧ t.jobOf asid = some { j with gang := g }
    let failed (o : Host.Outcome State Fault Refusal) (why : Nat) : Prop := ∃ t x, o = .next t ∧
      t.jobOf asid = some x ∧ x.gang = .unsaveable ∧ x.valid = j.valid ∧ (∀ e ∈ j.spec.gang, fld (t.coreOf e).gswhy 0 4 = why) ∧
      t.events = s.events ++ [.jobFault asid why 0]
    let unwatched : Prop := ∀ c ∈ s.allCores, ∀ h : Fin 2, c.hwc[h].toNat.testBit 0 = false
    (let t := c.askStop reason origin now
     reason < 16 → origin < 2 ^ 24 →
      (c.stopReq = false → c.stopped = false → t.stopReq = true ∧ fld t.gswhy 0 4 = reason ∧ fld t.gswhy 8 24 = origin) ∧
      (c.stopReq = true ∨ c.stopped = true →
        let old := fld c.gswhy 0 4
        ((reason = 5 ∨ reason = 6) ∧ (old ≤ 4 ∨ old = 9) → fld t.gswhy 0 4 = reason) ∧
        (¬ ((reason = 5 ∨ reason = 6) ∧ (old ≤ 4 ∨ old = 9)) → t = c))) ∧
    (s.jobOf asid = some j → (∀ e ∈ j.spec.gang, e < 4096) →
      let t := s.gangStop asid reason origin
      (∀ e ∈ j.spec.gang, (t.coreOf e).stopReq = true ∨ (t.coreOf e).stopped = true) ∧
      (∀ e, e ∉ j.spec.gang → t.coreOf e = s.coreOf e) ∧ t.mem = s.mem ∧
      t.events = s.events ++ (if 5 ≤ reason ∧ reason ≤ 8 then [.jobFault asid reason origin]
        else if 2 ≤ reason ∧ reason ≤ 4 then [.stop asid reason origin] else [])) ∧
    (s.core.id < 4096 → Sys2Proof.isCore s.core.id = true → s.core.job = some asid → s.jobOf asid = some j →
      (s.core.stopReq = true → s.core.stopped = false → (∀ x ∈ s.core.ctxs.toList, x.arriving = false) →
        ∃ t, exec (.gangStop s.core.id) s = .next t ∧ t.core.stopped = true ∧ t.core.stopReq = false ∧
          t.core.gscyc = BitVec.ofNat 64 s.core.cyc ∧ t.core.gssent = s.core.msent ∧ t.core.gsrecv = s.core.mrecv ∧
          t.core.gswhy = s.core.gswhy ∧ t.core.ctxs = s.core.ctxs.map Ctx.ungranted ∧ t.core.v = s.core.v ∧ t.core.mq = s.core.mq ∧
          t.core.jobs = s.core.jobs) ∧
      ((∃ x ∈ s.core.ctxs.toList, x.arriving = true) → ∃ t, exec (.gangStop s.core.id) s = .next t ∧ t.core = s.core) ∧
      (let busy : Prop := ∃ x ∈ s.core.ctxs.toList, x.arriving = true
       ∃ t, exec (.eccUe s.core.id) s = .next t ∧ t.core.poisoned = true ∧ t.core.v = s.core.v ∧
        (¬ busy → t.core.stopped = true) ∧ (busy → s.core.stopped = false → t.core.stopped = false ∧ t.core.stopReq = true) ∧
        t.core.ctxs = (if s.core.stopped = false ∧ ¬ busy then s.core.ctxs.map Ctx.ungranted else s.core.ctxs) ∧
        (s.core.id ∈ j.spec.gang → s.core.stopReq = false → s.core.stopped = false → s.myEid < 2 ^ 24 →
          fld t.core.gswhy 0 4 = 5 ∧ fld t.core.gswhy 8 24 = s.myEid)) ∧
      (∃ t, exec (.leaseExpiry s.core.id line) s = .next t ∧
        t = { s with core := { s.core with l1 := t.core.l1 } } ∧
        ∀ x, x ∈ t.core.l1 ↔ x ∈ s.core.l1 ∧ ¬ (x.line = line ∧ x.until_ ≤ now))) ∧
    (s.jobOf asid = none → ∀ i ∈ [Instr.sliceExpiry asid, .gangDrain asid, .gangSave asid], exec i s = .next s) ∧
    (s.jobOf asid = some j →
      let due : Prop := j.gang = .run ∧ j.spec.slice ≠ 0 ∧ j.sliceEnd ≤ now
      (¬ due → exec (.sliceExpiry asid) s = .next s) ∧
      (due → ∃ t, exec (.sliceExpiry asid) s = .next t ∧ t.core = s.core ∧ t.others = s.others ∧ t.mem = s.mem ∧
        t.jobOf asid = some { j with expired := true }) ∧
      (let u := s.endSlice j
       let ended : Job := { j with expired := false, closed := false }
       (j.expired = false ∨ j.gang ≠ .run → u.core = s.core ∧ u.others = s.others ∧ u.jobOf asid = some ended) ∧
       (j.expired = true → j.gang = .run → j.closed = true → u.core = s.core ∧ u.others = s.others ∧
        u.jobOf asid = some { ended with sliceEnd := now + j.spec.slice }) ∧
       (j.expired = true → j.gang = .run → j.closed = false → (∀ e ∈ j.spec.gang, e < 4096) → s.eid 0x200 < 2 ^ 24 →
        u.jobOf asid = some { ended with gang := .dispatchStop } ∧ u.mem = s.mem ∧
        ∀ e ∈ j.spec.gang, ((s.coreOf e).stopReq = false → (s.coreOf e).stopped = false →
          (u.coreOf e).stopReq = true ∧ fld (u.coreOf e).gswhy 0 4 = 9))) ∧
      (let all : Prop := ∀ e ∈ j.spec.gang, still e
       let leaves : Prop := j.gang = .dispatchStop ∨ (j.gang = .stopped ∧ ∃ e ∈ j.spec.gang, (s.coreOf e).poisoned = true)
       let heldThere (r : RemOp) : Prop :=
        (r.pkt.handler = 8 ∧ r.pkt.arg1.getLsbD 33 = true) ∨ (r.pkt.handler = 7 ∧ r.pkt.arg1.getLsbD 0 = true)
       let quiet : Prop := (∀ e ∈ j.spec.gang, ∀ r ∈ (s.coreOf e).ops, heldThere r) ∧
        (j.spec.away = [] →
          (j.spec.gang.map (fun e => (s.coreOf e).msent)).sum = (j.spec.gang.map (fun e => (s.coreOf e).mrecv)).sum) ∧
        ∀ p ∈ s.net ++ s.niWait, p.asid = asid → p.kind ≠ 5 → p.kind ≠ 9 → eidLocal p.deid ∉ j.spec.gang
       let room : Prop := (j.spilled.map (fun p => (spillRecord p).length)).sum ≤ j.spec.saveSpill
       (¬ leaves → j.gang ≠ .drain → exec (.gangDrain asid) s = .next s) ∧
       (leaves → ¬ all → exec (.gangDrain asid) s = .next s) ∧
       (leaves → all → gang (.gangDrain asid) .drain) ∧
       (j.gang = .drain → (∀ e ∈ j.spec.gang, e < 4096) → unwatched → ¬ room → failed (exec (.gangDrain asid) s) 8) ∧
       (j.gang = .drain → room → ¬ quiet → exec (.gangDrain asid) s = .next s) ∧
       (j.gang = .drain → room → quiet → gang (.gangDrain asid) .save)) ∧
      (j.gang ≠ .save → exec (.gangSave asid) s = .next s) ∧
      (j.gang = .save → (∀ e ∈ j.spec.gang, e < 4096) → unwatched →
        let base := (capBase j.spec.save).toNat
        let top := (capTop j.spec.save).toNat
        let ps := s.savePieces j
        let r := s.saveRun j top ps
        let v := ({ r.1 with freeN := r.1.freeN + 1 } : State).engineWrite asid (base + 40) (leBytes 8 1) (s.dieMgr 0)
        ps.head? = some (base, leBytes 8 (asid % 65536) ++ leBytes 8 Cause.preempt.code ++ leBytes 8 j.spec.saveSpill ++
          leBytes 8 j.spilled.length ++ leBytes 8 j.spec.gang.length) ∧
        (r.2 ≠ 0 → failed (exec (.gangSave asid) s) r.2) ∧
        (r.2 = 0 → ∃ t x, exec (.gangSave asid) s = .next t ∧ t.jobOf asid = some x ∧ x.gang = .saved ∧ x.valid = true ∧
          x.saved = j.spec.gang.map (fun e => (v.coreOf e).record (j.spec.gang.map s.eid)) ∧
          x.poisoned = j.spec.gang.filter (fun e => (s.coreOf e).poisoned) ∧
          x.savedJoins = s.joins.filter (fun y => y.asid == asid) ∧ (∀ y ∈ t.joins, y.asid ≠ asid) ∧ t.mem = v.mem ∧
          (∀ e ∈ j.spec.gang, (t.coreOf e).job = none ∧ (t.coreOf e).stopped = false ∧ (t.coreOf e).run = none ∧
            (t.coreOf e).jobs = [] ∧ (t.coreOf e).mfvalid = false) ∧
          t.events = s.events ++ [.switchDone asid])) ∧
      (let top := (capTop j.spec.save).toNat
       (s.saveRun j top []).2 = 0 ∧
       ∀ p ps, let good : Prop := ∀ x ∈ pieces p.1 p.2.length, (s.jobPlace asid x.1 .store).isSome = true
        (∀ x ∈ pieces p.1 p.2.length, s.jobPlace asid x.1 .store = none →
          (∀ y ∈ pieces p.1 p.2.length, s.jobPlace asid y.1 .store = none → x.1 ≤ y.1) →
          s.saveRun j top (p :: ps) = (s, if x.1 < top then 7 else 8)) ∧
        (good → top < p.1 + p.2.length → s.saveRun j top (p :: ps) = (s, 8)) ∧
        (good → p.1 + p.2.length ≤ top →
          s.saveRun j top (p :: ps) = (s.engineWrite asid p.1 p.2 (s.dieMgr 0)).saveRun j top ps)))

/-! ### Packets and links -/

/-- R293, R295, R298, R299, R401, R414: a duplicate of a sequenced packet is only acknowledged again, and one beyond the
expected is dropped; a packet for a unit that is not there is refused. A DEMAND is granted in pieces of up to 4,096 bytes, a
grant lets waiting bytes go, an acknowledgement ends a packet's wait. The timer sends all unacknowledged packets of a pair
again, and at its sixth expiry ends every operation of the pair with LINK_FAIL. Packets leave on a link cut into flits of 56
bytes with no gaps, what is left at the end of a step filled up (log 14). A flit with a bad CRC is asked for again, the expected
one is taken, a duplicate is dropped; FACK lets held flits go. A packet of a reserved kind is counted and dropped. Eight replays
of one flit, or a failure, drop what a link held; a link of an offline die does not come back by retraining (log 35). A request
for the delay is answered; a Follow_Up of the host's domain gives the grandmaster's TIME, which steps TIME forward the first
time if no job has started, and later corrects the rate alone, by at most 100 ppm; the bits of the clock messages and the size
of a correction are the model's (log 14, log 25). -/
def Obligations.PacketsAndLinks : Prop :=
  ∀ (s : State) (p q : Packet) (f : Flit) (n src dst : Nat) (l : Fin 16),
    let off : State := { s with net := s.net.erase p }
    let all : List Instr := [.rload p, .rstore p, .ratomic p, .mwrite p, .rgath p, .rscat p, .gstage p, .prepare p, .publish p,
      .discard p, .query p, .bararr p, .barrierWaitRequest p, .spwrite p, .trigger p, .activeMessage p, .reply p, .demand p,
      .grant p]
    (s.pkg.isSome = true → eidPkg p.deid = s.pkgNo → p ∉ s.niWait → p.sequenced = true →
      let r := s.pairRx p.seid p.deid
      let gap := (p.pseq + 65536 - r.want) % 65536
      (32768 ≤ gap → ∀ i ∈ all, exec i s = .next (off.eackFor p)) ∧
      (0 < gap → gap < 32768 → ∀ i ∈ all, exec i s = .next off) ∧
      (gap = 0 → s.refused p = true → p.kind = 1 → p.rest = [] →
        ∀ i ∈ all, exec i s = .next (((off.setRx { r with want := (r.want + 1) % 65536 }).eackFor p).replyFrom
          (s.dieMgr (eidLocal p.deid)) p 2 []))) ∧
    (s.Takes p →
      let u := s.took p
      let t := u.pairTx p.deid p.seid
      let k := p.arg0.toNat
      let grant (n : Nat) : Packet :=
        { kind := 4, deid := p.seid, seid := p.deid, asid := p.asid, arg0 := BitVec.ofNat 64 n }
      (p.kind = 3 →
        (k = 0 → exec (.demand p) s = .next u) ∧
        (1 ≤ k → k ≤ 4096 → exec (.demand p) s = .next (u.send (grant k))) ∧
        (4096 < k → k ≤ 8192 → exec (.demand p) s = .next ((u.send (grant 4096)).send (grant (k - 4096))))) ∧
      (p.kind = 4 →
        (t.wait = [] → exec (.grant p) s = .next (u.setTx { t with granted := t.granted + k })) ∧
        (t.wait = [q] → q.big = true → t.unack.length < 32768 →
          (t.granted + k < q.data.length → exec (.grant p) s = .next (u.setTx { t with granted := t.granted + k })) ∧
          (q.data.length ≤ t.granted + k → exec (.grant p) s =
            .next ((u.setTx { t with wait := [], granted := t.granted + k - q.data.length }).transmit q)))) ∧
      (p.kind = 5 → t.wait = [] →
        let first : Prop := (t.unack.head?.map (·.pseq)) = some k
        ∃ v, exec (.eack p) s = .next v ∧ (∀ x, x ∈ (v.pairTx p.deid p.seid).unack ↔ x ∈ t.unack ∧ x.pseq ≠ k) ∧
          (first → (v.pairTx p.deid p.seid).since =
              ((((t.unack.zip t.sentAt).filter (fun x => x.1.pseq != k)).head?).map (·.2)).getD s.time.toNat ∧ (v.pairTx p.deid p.seid).fails = 0) ∧
          (¬ first → (v.pairTx p.deid p.seid).since = t.since ∧ (v.pairTx p.deid p.seid).fails = t.fails) ∧
          v.net = s.net.erase p ∧ v.core = s.core ∧ v.mem = s.mem) ∧
      (p.kind = 8 →
        let l : Fin 16 := Fin.ofNat 16 (eidLocal p.deid / 1024 * 4 + p.deid % 4)
        let x := s.links[l].ptp
        let typ := fld p.arg1 0 8
        let ours : Prop := fld p.arg1 8 8 = Config.syncDomain % 256
        let seq := fld p.arg1 16 16
        let came := p.arg2.toNat
        let est := k + x.delay + (s.time.toNat - x.syncAt)
        let far : Prop := 1000 < ((est : Int) - s.time.toNat).natAbs
        let sets (y : Ptp) : Prop := exec (.tsync p) s = .next (u.mapLink l (fun m => { m with ptp := y }))
        (¬ ours → exec (.tsync p) s = .next u) ∧
        (ours → typ = 2 → exec (.tsync p) s = .next ((u.sendPtp l 3 seq came).sendPtp l 10 seq s.time.toNat)) ∧
        (ours → typ = 3 → seq = x.seq → sets { x with backAt := came, farAt := k }) ∧
        (ours → typ = 10 → seq = x.seq → sets { x with delay := ((x.backAt - x.sentAt) - (k - x.farAt)) / 2 }) ∧
        (ours → typ = 3 ∨ typ = 10 → seq ≠ x.seq → exec (.tsync p) s = .next u) ∧
        (ours → typ = 0 → sets { x with sync := seq, syncAt := came }) ∧
        (ours → typ = 8 → seq ≠ x.sync ∨ s.isGrandmaster = true → exec (.tsync p) s = .next u) ∧
        (ours → typ = 8 → seq = x.sync → s.isGrandmaster = false →
          ∃ v, exec (.tsync p) s = .next v ∧ v.synced = true ∧ v.core = s.core ∧ v.mem = s.mem ∧
            (far → v.events = s.events ++ [.timeOffset]) ∧ (¬ far → v.events = s.events) ∧
            (s.synced = false → s.jobSeen = false → est < 2 ^ 64 → v.time.toNat = Max.max est s.time.toNat ∧ v.ppm = s.ppm) ∧
            (s.synced = true ∨ s.jobSeen = true → v.time = s.time ∧ -100 ≤ v.ppm ∧ v.ppm ≤ 100)))) ∧
    (let t := s.pairTx src dst
     let due : Prop := t.unack ≠ [] ∧ t.since + 20000 * 2 ^ t.fails ≤ s.time.toNat
     let mine : Prop := eidPkg src = s.pkgNo
     (¬ mine → exec (.e2eTimer src dst) s = .next { s with prx := s.prx.filter (fun u => !(u.src == src && u.dst == dst)) }) ∧
     (mine → ¬ due → exec (.e2eTimer src dst) s = .next s) ∧
     (mine → due → t.fails < 5 → (∀ x ∈ t.unack, eidPkg x.deid = s.pkgNo) → ∃ v, exec (.e2eTimer src dst) s = .next v ∧
       v.net = s.net ++ t.unack ∧ v.pairTx src dst =
         { t with since := s.time.toNat, sentAt := t.unack.map (fun _ => s.time.toNat), fails := t.fails + 1 } ∧
       v.core = s.core ∧ v.mem = s.mem) ∧
     (mine → due → 5 ≤ t.fails → eidLocal src = s.core.id → Sys2Proof.isCore s.core.id = true →
       let v : State := { s with
         ptx := s.ptx.filter (fun u => !(u.src == src && u.dst == dst))
         prx := s.prx.filter (fun u => !(u.src == src && u.dst == dst))
         net := s.net.filter (fun p => !(p.sequenced && p.seid == src && p.deid == dst)) }
       let lost := ((t.unack.filter (fun x => !s.accepted x) ++ t.wait).flatMap Packet.ops).filter s.countedHere
       let w := lost.foldl (fun v x => if x.kind = 1 then v.countDown x.asid (sentLevel x) else v) v
       exec (.e2eTimer src dst) s =
         .next ((w.core.ops.filter (fun r => r.pkt.deid == dst)).foldl (fun v r => v.opReply r 3 []) w))) ∧
    (let k := s.links[l]
     let link (i : Instr) (x : Link) : Prop := exec i s = .next { s with links := s.links.set l x }
     let covered : Link := { k with held := k.held.filter (fun g => !flitBefore g.fseq f.fack) }
     let asks (x : Link) : Link := { x with out := x.out ++ [mkFlit (List.replicate 56 0) x.rx 2 ((x.rx + 4095) % 4096)] }
     let again (x : Link) (fseq : Nat) : Link :=
       { x with out := x.out ++ x.held.filter (fun g => flitBefore fseq g.fseq),
                replays := if x.replayOf = fseq then x.replays + 1 else 1, replayOf := fseq }
     let dropped : Link := { out := k.out, retraining := true }
     let parsed := parseStream ((k.stream ++ f.pay).length + 1) (k.stream ++ f.pay)
     (k.trained = false → exec (.flit l.val f) s = .next s ∧ exec (.replayRequest l.val n) s = .next s ∧
       exec (.linkFailure l.val) s = .next s ∧ ∀ a b c, s.sendPtp l a b c = s) ∧
     (k.trained = true →
       (f.crc ≠ crc32c (flitBody f) → link (.flit l.val f) (asks k)) ∧
       (f.crc = crc32c (flitBody f) →
         (f.typ = 1 → link (.flit l.val f) covered) ∧
         (f.typ = 2 → link (.flit l.val f) (again covered f.fseq)) ∧
         (f.typ = 0 → f.fseq = k.rx →
           (parsed.1 = [] → link (.flit l.val f) { covered with rx := (k.rx + 1) % 4096, stream := parsed.2 }) ∧
           (parsed.1 = [q] → s.pkg.isSome = true →
             let links := s.links.set l { covered with rx := (k.rx + 1) % 4096, stream := parsed.2 }
             (1 ≤ q.kind → q.kind < 8 →
               exec (.flit l.val f) s = .next { s with
                 net := s.net ++ [if ctlPort (eidLocal q.deid) = true then { q with via := some l.val } else q], links := links }) ∧
             (q.kind = 0 ∨ 9 < q.kind → eidPkg q.deid = s.pkgNo →
               let d : Fin 4 := lidDie (eidLocal q.deid)
               exec (.flit l.val f) s = .next { s with links := links, dropped := s.dropped.set d (s.dropped[d] + 1) }))) ∧
         (f.typ = 0 → f.fseq ≠ k.rx → flitBefore f.fseq k.rx = true → link (.flit l.val f) covered) ∧
         (f.typ = 0 → f.fseq ≠ k.rx → flitBefore f.fseq k.rx = false → link (.flit l.val f) (asks covered))) ∧
       link (.replayRequest l.val n) (again k n) ∧ link (.linkFailure l.val) dropped ∧
       (∀ typ seq time, s.sendPtp l typ seq time = s.mapLink l (fun x => x.put
          { kind := 8, seid := s.eid (gatewayUnit l.val), arg0 := BitVec.ofNat 64 time,
            arg1 := BitVec.ofNat 64 (typ + Config.syncDomain % 256 * 256 + seq % 65536 * 65536) }))) ∧
     (let seq := (k.ptp.seq + 1) % 65536
      let now := s.time.toNat
      let u := (s.mapLink l (fun x => { x with ptp := { x.ptp with seq := seq, sentAt := now } })).sendPtp l 2 seq now
      exec (.syncTick l.val) s = .next (if s.isGrandmaster = true ∨ s.synced = true then
        (u.sendPtp l 0 seq 0).sendPtp l 8 seq now else u)) ∧
     (let sent (x : Link) (pay : List Byte) (rest : List Byte) (y : Link) : Prop := ∃ g : Flit,
        y = { x with tx := (x.tx + 1) % 4096, held := x.held ++ [g], out := x.out ++ [g], tail := rest } ∧ g.pay = pay ∧
          g.fseq = x.tx ∧ g.typ = 0 ∧ g.fack = (x.rx + 4095) % 4096 ∧ g.crc = crc32c (flitBody g)
      let bs := k.tail ++ q.bytes
      (bs.length < 56 → k.put q = { k with tail := bs }) ∧
      (56 ≤ bs.length → bs.length < 112 → sent k (bs.take 56) (bs.drop 56) (k.put q)) ∧
      (k.tail = [] → k.flush = k) ∧
      (k.tail ≠ [] → k.tail.length < 56 → sent k (k.tail ++ List.replicate (56 - k.tail.length) 0) [] k.flush)) ∧
     (8 ≤ k.replays → link (.linkReplayLimit l.val) dropped) ∧
     (k.replays < 8 → exec (.linkReplayLimit l.val) s = .next s) ∧
     (k.retraining = true → s.linkDieUp l.val = true → exec (.linkRetrainDone l.val) s = .next { s with
       links := s.links.set l { k with trained := true, retraining := false }
       events := s.events ++ [.serviceDone (32 + l.val)] }) ∧
     (k.retraining = false ∨ s.linkDieUp l.val = false → exec (.linkRetrainDone l.val) s = .next s))

/-! ### Device commands, bring-up and power -/

/-- R25, R224, R226, R227, R259, R330, R387, R396, R408 to R413: the device commands that concern the ports, identity and jobs.
A command that needs the semaphore is answered BUSY, with no effect, at a port that does not hold it. SEMACQ takes a free
semaphore and counts it; SEMREL and a lost connection free it. JOBSTART takes the gang's cores, on which every count and barrier
is fresh, its record of the last instances received its own; JOBSTOP asks the gang to stop with reason 1 and is answered once it
has; JOBRESUME lets a stopped gang go on, and a saved one go back onto its cores, whose tags and unanswered operations stay
theirs; JOBREMOVE frees the cores and answers the JOBSTOPs that wait. ATTEST gives the SHA-384 of the four images (log 30). A
command that a packet brings to a port is answered by a REPLY; a code that no table lists, and bad arguments, are refused.
GRAPHSTART queues a graph of well-formed launches behind its phase. TLBINV drops the range's entries; DOORBELL sets IPEND.HOST.
The model's: what a graph or launch must be (log 27), what JOBSTART makes fresh (log 32), SEMACQ's count (log 29), how a gang
resumes (log 26), and REFUSED arguments (log 35). -/
def Obligations.PortAndJobCommands : Prop :=
  ∀ (s : State) (port asid lo len eid : Nat) (job : JobSpec) (gr : GraphSpec) (j : Job) (nonce : List Byte) (p : Packet),
    port ≤ 1 →
    let answer (u : State) (code st : Nat) (data : List Byte) : State :=
      { u with replies := u.replies ++ [{ port := port, code := code, status := st, data := data }] }
    let ans (i : Instr) (u : State) (code st : Nat) : Prop := exec i s = .next (answer u code st [])
    let byPacket (p : Packet) (st : Nat) (data : List Byte) : State :=
      let back : Packet := { kind := 2, deid := p.seid % 2 ^ 24, seid := s.eid (0x300 + p.deid % 2), status := st, data := data }
      (s.took p).send { back with otag := p.otag % 2 ^ 16, asid := p.asid % 2 ^ 16 }
    let mine : Prop := s.semHeld = true ∧ s.semOwner = port
    let lost : Prop := ∃ t, Config.hostLostSince port s.time.toNat = some t ∧ t + 100000000 ≤ s.time.toNat
    (¬ mine →
      ans (.jobstart port job) s 0x10 5 ∧ ans (.jobstop port asid) s 0x11 5 ∧ ans (.jobresume port asid) s 0x12 5 ∧
      ans (.jobremove port asid) s 0x13 5 ∧ ans (.graphstart port gr) s 0x14 5 ∧ ans (.tlbinv port asid lo len) s 0x15 5 ∧
      ans (.semrel port) s 0x03 5 ∧ exec (.semaphoreLoss port) s = .next s ∧
      (s.semHeld = true → ans (.semacq port) s 0x02 5) ∧
      (s.semHeld = false → ans (.semacq port)
        { s with semHeld := true, semOwner := port, semGen := (s.semGen + 1) % 2 ^ 32 } 0x02 0)) ∧
    (s.Takes p → p.kind = 1 → ctlPort (eidLocal p.deid) = true →
      let holds : Prop := s.semHeld = true ∧ s.semOwner = p.deid % 2
      (p.handler ∉ [0x01, 0x02, 0x03, 0x10, 0x11, 0x12, 0x13, 0x14, 0x15, 0x16, 0x20, 0x21, 0x22, 0x23, 0x30, 0x31, 0x32, 0x33, 0x34,
        0x35, 0x36, 0x37, 0x38, 0x39, 0x3A] → exec (.activeMessage p) s = .next (byPacket p 2 [])) ∧
      (¬ holds → p.handler ∈ [0x03, 0x10, 0x11, 0x12, 0x13, 0x14, 0x15, 0x20, 0x21, 0x22, 0x23, 0x30, 0x32, 0x33, 0x34, 0x36, 0x37,
        0x39, 0x3A] → exec (.activeMessage p) s = .next (byPacket p 5 []))) ∧
    (nonce.length ≠ 32 → ans (.attest port nonce) s 0x35 2) ∧
    (∃ id : List Byte, exec (.ident port) s = .next (answer s 0x01 0 id) ∧ id.length = 144 ∧ id.take 3 = [3, 2, 1] ∧
      (s.Takes p → p.kind = 1 → ctlPort (eidLocal p.deid) = true → p.handler = 0x01 →
        exec (.activeMessage p) s = .next (byPacket p 0 id)) ∧
      (nonce.length = 32 → ∃ hashes sig : List Byte, hashes.length = 192 ∧ sig.length = 96 ∧
        hashes = s.fw.toList.flatMap (fun f => sha384 f.image) ∧
        exec (.attest port nonce) s = .next (answer { s with freeN := s.freeN + 1 } 0x35 0 (id ++ hashes ++ nonce ++ sig)))) ∧
    (let e := eidLocal eid
     let there : Prop := eidPkg eid = s.pkgNo ∧ e % 1024 < 256 ∧ s.unitUp e = true
     (¬ there → ans (.doorbell port eid) s 0x16 2) ∧
     (there → ∃ u, ans (.doorbell port eid) u 0x16 0 ∧ (u.coreOf e).ipend = (s.coreOf e).ipend ||| 2 ∧
       (∀ x, x ≠ e → u.coreOf x = s.coreOf x) ∧ u.mem = s.mem)) ∧
    (mine →
      ans (.semacq port) s 0x02 0 ∧ ans (.semrel port) { s with semHeld := false, semOwner := 0 } 0x03 0 ∧
      (lost → exec (.semaphoreLoss port) s = .next { s with semHeld := false, semOwner := 0 }) ∧
      (¬ lost → exec (.semaphoreLoss port) s = .next s) ∧
      (let free : Prop := s.jobOf job.asid = none ∧ job.gang.Nodup ∧
        (∀ e ∈ job.gang, e < 4096 ∧ e % 1024 < 256 ∧ s.unitUp e = true ∧ (s.coreOf e).job = none) ∧ s.pagesUp job = true ∧
        s.counterOk job = true
       (¬ free → ans (.jobstart port job) s 0x10 2) ∧
       (free → ∃ u, ans (.jobstart port job) u 0x10 0) ∧
       (free → (job.hash = none ∧ job.stamp = none ∨ ∀ c ∈ s.allCores, ∀ h : Fin 2, c.hwc[h].toNat.testBit 0 = false) →
         ∃ u x, ans (.jobstart port job) u 0x10 0 ∧ u.jobOf job.asid = some x ∧ x.spec = job ∧ x.gang = .run ∧
         x.sliceEnd = s.time.toNat + job.slice ∧ u.time = s.time ∧ (∀ y ∈ u.joins, y.asid ≠ job.asid) ∧
         (∃ l, u.levelOf job.asid jobLid = some l ∧ l.st = 2 ∧ l.cnt = 0) ∧
         ∀ e ∈ job.gang, let c := u.coreOf e
           c.job = some job.asid ∧ c.run = none ∧ c.stopped = false ∧ c.b0 = 24 ∧ c.b1 = 152 ∧ c.b2 = 248 ∧ c.msent = 0 ∧
           c.mrecv = 0 ∧ c.evc = Vector.replicate 11 0 ∧ c.ends = [] ∧ c.binds = [] ∧ c.jobs = [] ∧ c.mfvalid = false ∧
           c.v = (s.coreOf e).v ∧ c.redLast = (s.coreOf e).redLast)) ∧
      (s.jobOf asid = none → ans (.jobstop port asid) s 0x11 2 ∧ ans (.jobresume port asid) s 0x12 2 ∧
        ans (.jobremove port asid) s 0x13 2) ∧
      (s.jobOf asid = some j → (∀ e ∈ j.spec.gang, e < 4096) →
        (j.gang = .saved → ans (.jobstop port asid) s 0x11 0) ∧
        (j.gang ≠ .saved → ∃ u, exec (.jobstop port asid) s = .next u ∧
          (∀ e ∈ j.spec.gang, (u.coreOf e).stopReq = true ∨ (u.coreOf e).stopped = true) ∧
          ((∃ e ∈ j.spec.gang, (s.coreOf e).stopped = false) → u.replies = s.replies ∧
            (u.jobOf asid).map (·.stopPorts) = some (j.stopPorts ++ [port])) ∧
          ((∀ e ∈ j.spec.gang, (s.coreOf e).stopped = true) → j.stopPorts = [] →
            u.replies = s.replies ++ [{ port := port, code := 0x11, status := 0 }])) ∧
        (j.gang = .run → ans (.jobresume port asid) s 0x12 0) ∧
        (j.gang = .unsaveable → ans (.jobresume port asid) s 0x12 2) ∧
        (j.gang = .dispatchStop ∨ j.gang = .drain ∨ j.gang = .save → ans (.jobresume port asid) s 0x12 5) ∧
        (j.gang = .stopped → (∃ e ∈ j.spec.gang, s.unitUp e = false) → ans (.jobresume port asid) s 0x12 2) ∧
        (j.gang = .stopped → (∀ e ∈ j.spec.gang, s.unitUp e = true) → (∃ e ∈ j.spec.gang, (s.coreOf e).stopped = false) → ans (.jobresume port asid) s 0x12 5) ∧
        (j.gang = .stopped → (∀ e ∈ j.spec.gang, s.unitUp e = true ∧ (s.coreOf e).stopped = true) →
          ∃ u, ans (.jobresume port asid) u 0x12 0 ∧
            u.jobOf asid = some { j with gang := .run, sliceEnd := s.time.toNat + j.spec.slice } ∧ u.mem = s.mem ∧
            ∀ e ∈ j.spec.gang, u.coreOf e = { s.coreOf e with stopped := false, stopReq := false }) ∧
        (j.gang = .saved → j.valid = false ∨ j.poisoned ≠ [] ∨ (∃ e ∈ j.spec.gang, s.unitUp e = false) →
          ans (.jobresume port asid) s 0x12 2) ∧
        (j.gang = .saved → j.valid = true → j.poisoned = [] → (∀ e ∈ j.spec.gang, s.unitUp e = true) →
          (∃ e ∈ j.spec.gang, (s.coreOf e).job ≠ none) → ans (.jobresume port asid) s 0x12 5) ∧
        (j.gang = .saved → j.valid = true → j.poisoned = [] → (∀ e ∈ j.spec.gang, s.unitUp e = true ∧ (s.coreOf e).job = none) →
          j.spilled = [] → ∃ u, ans (.jobresume port asid) u 0x12 0 ∧ (u.jobOf asid).map (·.gang) = some .run ∧
            u.joins = j.savedJoins ++ s.joins ∧
            ∀ r ∈ j.saved, (∀ q ∈ j.saved, q.id = r.id → q = r) →
              let c := s.coreOf r.id
              let back : Core := { r with cyc := c.cyc, otag := c.otag, ops := c.ops, ctxs := r.ctxs.map Ctx.thawed }
              u.coreOf r.id = { back with redLast := c.redLast, stopped := false, stopReq := false, l1 := [], tlb := [], ic := [] }) ∧
        (∃ u, ans (.jobremove port asid) u 0x13 0 ∧ u.jobOf asid = none ∧ (∀ l ∈ u.levels, l.asid ≠ asid) ∧
          (∀ y ∈ u.joins, y.asid ≠ asid) ∧
          ((∀ g ∈ j.stopPorts, g ≤ 1) → j.spec.trace = [] → s.commits = [] →
            u.replies = s.replies ++ j.stopPorts.map (fun g => { port := g, code := 0x11, status := 0 })) ∧
          ∀ e ∈ j.spec.gang, (u.coreOf e).job ≠ some asid)) ∧
      (s.jobOf gr.asid = none → ans (.graphstart port gr) s 0x14 2) ∧
      (s.jobOf gr.asid = some j →
        let good : Prop := lidLevel gr.graph = 2 ∧ lidLevel gr.phase = 3 ∧ gr.graph < 2 ^ 32 ∧ gr.phase < 2 ^ 32 ∧
          ∀ sp ∈ gr.launches, lidLevel sp.lid = 1 ∧ sp.lid < 2 ^ 32 ∧ sp.clusters.Nodup ∧ sp.clusters.length = sp.ncl ∧
            ∀ cl ∈ sp.clusters, ∃ e ∈ j.spec.gang, clusterOf e = cl
        (¬ good → ans (.graphstart port gr) s 0x14 2) ∧
        (good → ∃ u, ans (.graphstart port gr) u 0x14 0 ∧ u.core = s.core ∧ u.hutches = s.hutches ∧
          ∃ l, u.levelOf gr.asid gr.phase = some l ∧ lidLevel l.lid = 3)) ∧
      (let hit (t : Tlb) : Bool := (t.asid == asid || t.gl) &&
        overlaps (t.vpage * 2 ^ levelShift t.level) (2 ^ levelShift t.level) lo len
       ∃ u, ans (.tlbinv port asid lo len) u 0x15 0 ∧ u.mem = s.mem ∧
         u.core = { s.core with tlb := s.core.tlb.filter (fun t => !hit t) } ∧ u.ctlb = s.ctlb.filter (fun t => !hit t.2) ∧
         u.wcache = s.wcache.filter (fun t => !hit t.2) ∧
         u.others = s.others.map (fun c => { c with tlb := c.tlb.filter (fun t => !hit t) })))

/-- R10, R16, R298, R300, R390, R391, R409 to R418: the commands that set the package up and serve it, and its bring-up. SETPKG,
ROUTEWR, RATESET and POWERCAP set what they name; TREEWR writes an entry once no instance of its tree is in flight; FWLOAD takes
a verified image that is not rolled back, for a die that is offline; LINKRETRAIN, STACKRETIRE, DIEOFF and DIEON answer BUSY
unless their precondition holds. SBRESOLVE discards what is staged at a stack and asks for the rest; SBDECIDE settles one
prepared group; SBLOST takes a lost agent's acknowledgements as given. Service rises from RESET through REDUCED and JOINING to
FULL as parts join; a hot die slows by 100 MHz, or stops its gangs with reason 5 and goes offline. A memory agent online again
asks anew (R416). The model's: FWLOAD's answers and rollback (log 30), the service states and the throttle (log 33), and REFUSED
arguments (log 35). -/
def Obligations.ServiceAndBringUp : Prop :=
  ∀ (s : State) (port pkg dst eid rate idx stk src grp watts : Nat) (ent : BitVec 16) (tree img : List Byte) (pub : Bool) (no : Nat) (l : Fin 16)
    (d : Fin 4) (k : Fin 8) (via : Option Nat) (g : SbGroup) (part : Part), port ≤ 1 →
    let answer (u : State) (code st : Nat) (data : List Byte) : State :=
      { u with replies := u.replies ++ [{ port := port, code := code, status := st, data := data }] }
    let ans (i : Instr) (u : State) (code st : Nat) : Prop := exec i s = .next (answer u code st [])
    let mine : Prop := s.semHeld = true ∧ s.semOwner = port
    let heard (p : Nat) (u : State) : State := { u with events := u.events ++ [.serviceDone p] }
    let rises (u : State) : State := { u with svc := if u.allUp then .full else .joining }
    let undecided : Prop := ∃ c ∈ s.commits, c.decided = false ∧ eidPkg c.src = s.pkgNo ∧ eidLocal c.src / 1024 = d.val
    (¬ mine →
      ans (.setpkg port pkg) s 0x20 5 ∧ ans (.routewr port dst ent) s 0x21 5 ∧
      ans (.treewr port idx tree) s 0x22 5 ∧ ans (.rateset port eid rate) s 0x23 5 ∧
      ans (.fwload port d img) s 0x30 5 ∧ ans (.stackretire port k) s 0x32 5 ∧ ans (.dieoff port d via) s 0x33 5 ∧
      ans (.dieon port d) s 0x34 5 ∧ ans (.powercap port watts) s 0x36 5 ∧ ans (.sbresolve port stk) s 0x37 5 ∧
      ans (.sbdecide port stk src grp pub) s 0x39 5 ∧ ans (.sblost port eid) s 0x3A 5) ∧
    (s.linkDieUp l.val = false → ans (.linkretrain port l) s 0x31 2) ∧
    (s.linkDieUp l.val = true → (∃ i : Fin 16, i ≠ l ∧ s.links[i].retraining = true) → ans (.linkretrain port l) s 0x31 5) ∧
    (s.linkDieUp l.val = true → (∀ i : Fin 16, i ≠ l → s.links[i].retraining = false) → ans (.linkretrain port l)
      { s with links := s.links.set l { out := s.links[l].out, retraining := true } } 0x31 0) ∧
    (16 ≤ no → ans (.linkretrain port no) s 0x31 2) ∧
    (8 ≤ stk → ans (.sblist port stk idx) s 0x38 2) ∧
    (stk < 8 → exec (.sblist port stk idx) s = .next (answer s 0x38 0
      ((((s.groups.filter (fun g => g.stack == stk)).drop idx).take 64).flatMap SbGroup.entry))) ∧
    (mine →
      (pkg < 4096 → ans (.setpkg port pkg) { s with pkg := some pkg } 0x20 0) ∧ (4096 ≤ pkg → ans (.setpkg port pkg) s 0x20 2) ∧
      (dst < 4096 → ans (.routewr port dst ent)
        { s with routes := { dst := dst, ent := ent } :: s.routes.filter (fun r => r.dst != dst) } 0x21 0) ∧
      (4096 ≤ dst → ans (.routewr port dst ent) s 0x21 2) ∧
      (4 ≤ no → ans (.fwload port no img) s 0x30 2 ∧ ans (.dieoff port no via) s 0x33 2 ∧ ans (.dieon port no) s 0x34 2) ∧
      (8 ≤ no → ans (.stackretire port no) s 0x32 2) ∧
      (tree.length ≠ 1280 ∨ 256 ≤ idx → s.treeWr = [] → ans (.treewr port idx tree) s 0x22 2) ∧
      (tree.length = 1280 → idx < 256 → s.treeWr = [] →
        (treeOk tree = false → ans (.treewr port idx tree) s 0x22 2) ∧
        (treeOk tree = true → s.treeBusy idx = true →
          exec (.treewr port idx tree) s = .next { s with treeWr := [(port, idx, tree)] }) ∧
        (treeOk tree = true → s.treeBusy idx = false →
          ∃ u, ans (.treewr port idx tree) u 0x22 0 ∧ u.treeOf idx = tree ∧ (∀ t, t ≠ idx → u.treeOf t = s.treeOf t) ∧
            (treeLists tree s.core.id = true → u.core.lastInst idx = none) ∧ u.mem = s.mem)) ∧
      ans (.rateset port eid rate) { s with rates := (eid, rate) :: s.rates.filter (fun r => r.1 != eid) } 0x23 0 ∧
      (s.dies[d] ≠ .offline → ans (.fwload port d img) s 0x30 2 ∧ ans (.dieon port d) s 0x34 5) ∧
      (s.dies[d] = .offline → ans (.dieon port d) { s with dies := s.dies.set d .joining } 0x34 0 ∧
        (let n := Config.firmwareRollback img
         let ok : Prop := Config.firmwareVerifies img = true ∧ s.fw[d].fused ≤ n
         (ok → ans (.fwload port d img) { s with fw := s.fw.set d { image := img, fused := n } } 0x30 0) ∧
         (¬ ok → ans (.fwload port d img) s 0x30 1))) ∧
      (let held : Prop := (∃ g ∈ s.groups, g.stack = k.val) ∨ (d.val = k.val / 2 ∧ k.val % 2 = 0 ∧ undecided)
       d.val = k.val / 2 → (held → ans (.stackretire port k) s 0x32 5) ∧
       (¬ held → ans (.stackretire port k) { s with retired := s.retired.set k true, stackOn := s.stackOn.set k false } 0x32 0)) ∧
      (let busy : Prop := (∃ c ∈ s.allCores, c.job ≠ none ∧ c.id / 1024 = d.val) ∨ undecided ∨
        (∃ g ∈ s.groups, g.stack / 2 = d.val) ∨
        (d = 0 ∧ ((∃ x, via = some x ∧ x ≤ 3) ∨ ∀ i : Fin 16, 4 ≤ i.val → s.links[i].trained = false))
       (busy → ans (.dieoff port d via) s 0x33 5) ∧
       (¬ busy → ∃ u, ans (.dieoff port d via) u 0x33 0 ∧ u.dies = s.dies.set d .offline ∧ u.mem = s.mem ∧
         u.svc = (if s.svc = .full then .joining else s.svc) ∧ (s.core.id / 1024 ≠ d.val → u.core = s.core) ∧
         (s.core.id / 1024 = d.val → u.core.cyc = 0 ∧ u.core.v = s.core.v ∧ u.core.evc = s.core.evc) ∧
         (∀ i : Fin 8, u.stackOn[i] = (s.stackOn[i] && i.val / 2 != d.val)) ∧
         (∀ i : Fin 16, i.val / 4 = d.val → u.links[i].trained = false) ∧
         (∀ i : Fin 16, i.val / 4 ≠ d.val → u.links[i] = s.links[i]) ∧ u.groups = s.groups ∧ u.commits = s.commits)) ∧
      ans (.powercap port watts) { s with powerCap := Min.min watts 3400 } 0x36 0 ∧
      (8 ≤ stk ∨ s.unitUp (stackAgent stk) = false → ans (.sbresolve port stk) s 0x37 2) ∧
      (stk < 8 → s.unitUp (stackAgent stk) = true → s.resolving = [] →
        ((∀ g ∈ s.groups, g.stack = stk → g.st = .staging) →
          ans (.sbresolve port stk) { s with groups := s.groups.filter (fun g => g.stack != stk) } 0x37 0) ∧
        ((∃ g ∈ s.groups, g.stack = stk ∧ g.st = .prepared) → ∃ u, exec (.sbresolve port stk) s = .next u ∧
          u.replies = s.replies ∧ u.resolving = [(stk, port, s.time.toNat)] ∧ u.mem = s.mem ∧
          ∀ g ∈ u.groups, g.stack = stk → g.st = .prepared)) ∧
      (s.groupOf stk src grp = none → ans (.sbdecide port stk src grp pub) s 0x39 2) ∧
      (s.groupOf stk src grp = some g →
        (g.st = .staging → ans (.sbdecide port stk src grp pub) s 0x39 2) ∧
        (g.st = .prepared → s.resolving = [] →
          ans (.sbdecide port stk src grp false) (s.dropGroup stk src grp) 0x39 0 ∧
          ans (.sbdecide port stk src grp true) (s.publishAt stk src grp none) 0x39 0)) ∧
      ((∀ c ∈ s.commits, c.awaits eid = false) → ans (.sblost port eid) s 0x3A 0) ∧
      (∀ c, s.commits = [c] → c.awaits eid = true →
        ∃ u x, ans (.sblost port eid) u 0x3A 0 ∧ u.commits = [x] ∧ x.lostp = true ∧ x.src = c.src ∧ x.grp = c.grp ∧
          ((∀ q ∈ c.parts, q.agent ≠ eid → q.acked = true) →
            x.st = (if c.st = .publishing then .published else .discarded)))) ∧
    ((∀ r ∈ s.resolving, r.1 = stk → (∃ g ∈ s.groups, g.stack = stk) ∧ s.time.toNat < r.2.2 + 10000000) →
      (∀ r ∈ s.resolving, ∃ g ∈ s.groups, g.stack = r.1) → exec (.sbresolveTimeout stk) s = .next s) ∧
    (∀ t, s.resolving = [(stk, port, t)] → (∃ g ∈ s.groups, g.stack = stk) → t + 10000000 ≤ s.time.toNat →
      ans (.sbresolveTimeout stk) { s with resolving := [] } 0x37 1) ∧
    (let kept : State := { State.reset with fw := s.fw, retired := s.retired, freeN := s.freeN, agenda := s.agenda }
     exec .powerOn s = .next { kept with time := s.time, timeFrac := s.timeFrac }) ∧
    (s.svc = .reset → ∃ u, exec .reducedService s = .next u ∧ u.svc = .reduced ∧ u.core = s.core ∧ u.clocks[(0 : Fin 4)] = 1000 ∧
      (∀ c < 1024, u.unitUp c = true → Sys2Proof.isCore c = true → c < 64) ∧
      (∀ c < 64, u.unitUp c = true) ∧ ∀ i : Fin 8, u.stackOn[i] = (decide (i.val < 2) && !s.retired[i])) ∧
    (s.svc ≠ .reset → exec .reducedService s = .next s) ∧
    (part.ok = true → s.svc = .reset → exec (.partJoin part) s = .next s) ∧
    (s.svc ≠ .reset →
      (s.dies[d] = .joining ∧ s.groups = [] ∧ s.commits = [] ∧ s.uops = [] ∨ s.dies[d] = .reduced → exec (.partJoin (.die d)) s =
        .next (heard d (rises { s with dies := s.dies.set d .online, clocks := s.clocks.set d 1500 }))) ∧
      (s.dies[d] = .offline ∨ s.dies[d] = .online → exec (.partJoin (.die d)) s = .next s) ∧
      (d.val = k.val / 2 → s.stackOn[k] = false → s.retired[k] = false →
        let on : State := { s with stackOn := s.stackOn.set k true }
        let asked (r : RemOp) : Bool := (r.pkt.handler == 5 || r.pkt.handler == 6 || r.pkt.handler == 7) &&
          r.pkt.seid == s.eid (stackAgent k)
        let anew (g : SbGroup) : SbGroup := if g.stack = k.val ∧ g.st = .prepared then { g with since := s.time.toNat } else g
        (s.dies[d] = .joining → exec (.partJoin (.stack k)) s = .next (heard (16 + k) (rises on))) ∧
        (s.dies[d] = .online ∨ s.dies[d] = .reduced → s.commits = [] → exec (.partJoin (.stack k)) s =
          .next (heard (16 + k) { rises on with uops := s.uops.filter (fun r => !asked r), groups := s.groups.map anew }))) ∧
      (s.dies[d] ≠ .offline → d.val = l.val / 4 → s.links[l].trained = false → s.links[l].retraining = false →
        exec (.partJoin (.link l)) s =
          .next (heard (32 + l) (rises { s with links := s.links.set l { s.links[l] with trained := true } })))) ∧
    exec (.thermalThrottle d) s = .next { s with clocks := s.clocks.set d (Max.max 100 (s.clocks[d] - 100)) } ∧
    (∃ u, exec (.thermalShutdown d) s = .next u ∧ u.dies = s.dies.set d .offline ∧
      ((∀ j ∈ s.jobs, j.spec.trace = [] ∧ j.spec.counter.tag = false) → u.mem = s.mem) ∧
      ∀ j ∈ s.jobs, j.gang ≠ .saved → s.jobOf j.spec.asid = some j → (∃ e ∈ j.spec.gang, e / 1024 = d.val) →
        (∀ e ∈ j.spec.gang, e < 4096) → ∀ e ∈ j.spec.gang,
        (e / 1024 = d.val → (u.coreOf e).stopped = true) ∧ ((u.coreOf e).stopReq = true ∨ (u.coreOf e).stopped = true))

/-! ### Steps, encodings, reset and invariants -/

/-- R22, R72, R73, R74, R87, R90, R131, R217, R220, R227, R310, R403, R409: a step of a core whose turn it is fetches, decodes
and runs. The fetch of an even address inside PCC, through a page it may execute and with nothing stale, takes the halfword
there, or the word where its bit 0 is 1. The step is then `exec` of the decoded instruction (in a loop body, of that instruction
with its fields stepped), with the address after it and its word latched; then the cycle passes, as one in which nothing issued
where no context has retired an instruction. A word off the opcode table is ILLEGAL, a fetch fault is taken, and a context that
finds itself waiting leaves the cycle to the next. A core whose stop is due stops, and one that is stopped or idle issues
nothing. An event or packet of the agenda is its own instruction; of the commands of one cycle, port 0's come first, and at a
core whose boundary cause is due the instruction about to issue is tried. A step that met a line which a publication holds is
not made; a cut is a step of its own. The agenda, its cuts and what a cycle is are the model's form (log 3, log 5, log 12), and
so is a command by packet that comes too late in a cycle (log 3); an event that names no unit stops as no such unit (log 40). -/
def Obligations.StepRunsDecoded : Prop :=
  ∀ (s t u v y : State) (h : Fin 11) (hs : List (Fin 11)) (n w : Nat) (i i' : Instr) (trap : Trap) (ms : List Move) (p : Packet)
    (k root : Nat) (l : Leaf),
    let ends (x : State) : Prop := step s = .next (if x.heldHit then s.postponed else x).afterStep
    (s.agenda = [] ∧ y = s.cycleStart [] ∨ s.agenda = .issue k :: ms ∧ y = (s.cycleStart ms).focusOn k →
      let r := y.timer
      let passes (x : State) : Prop := ends ((x.tookTurn h).cycleEnd r)
      (r.stopDue = false → r.core.stopped = false → r.core.run ≠ none → r.turns = h :: hs → u = r.turnOf h →
        u.boundaryWork = none →
        (fetchHere u = .ok (n, w) v →
          ((decodeBits n w).bind (loopInstr v.ctx.loop) = some i → exec i (v.latch n w) = .next t →
            t.core.ctxs[h].blocked = false ∨ hs = [] → passes t) ∧
          ((decodeBits n w).bind (loopInstr v.ctx.loop) = none →
            exec (.unallocatedWord (BitVec.ofNat 32 w)) (v.latch n w) = .next t → t.core.ctxs[h].blocked = false ∨ hs = [] →
            passes t) ∧
          ((decodeBits n w).bind (loopInstr v.ctx.loop) = some i → exec i (v.latch n w) = .next t →
            t.core.ctxs[h].blocked = true → ∀ x, issueFrom r hs (t.tookTurn h) = .next x → ends x)) ∧
        (fetchHere u = .error (.trap trap) v → (v.fetchTrap trap).core.ctxs[h].blocked = false → passes (v.fetchTrap trap)) ∧
        (fetchHere u = .error .wait v → hs = [] → passes v.block)) ∧
      (r.stopDue = false → r.core.stopped = false → r.core.run ≠ none → r.turns = [] → ends r.noIssue.tick) ∧
      (r.stopDue = false → r.core.stopped = true ∨ r.core.run = none → ends r.noIssue.tick) ∧
      (r.stopDue = true → ends (r.reachStop.answerStops r.asid).noIssue.tick) ∧
      (r.stopTold = false → r.turns = r.order)) ∧
    (t.cycleEnd u = if t.core.evc[0] = u.core.evc[0] ∧ t.core.evc[1] = u.core.evc[1] then t.noIssue.tick else t.tick) ∧
    (v.ctx.loop.lact = false → loopInstr v.ctx.loop i = some i) ∧
    ((v.latch n w).ctx.npc = BitVec.ofNat 80 (v.pc + n) ∧ (v.latch n w).ctx.ir = BitVec.ofNat 32 w) ∧
    (decodeBits 2 w = decode16 w ∧ decodeBits 4 w = decode32 w) ∧
    (let now := s.begun (.event i) ms
     s.arbitrate s.agenda = .event i :: ms →
      (i.wf = false → step s = .fault .noSuchUnit) ∧
      (i.wf = true → (∀ e, i = .trapEntry e → now.boundaryDue e = false) → exec i now = .next t → ends t) ∧
      (i.wf = true → i = .trapEntry k → now.boundaryDue k = true → u = (now.focusOn k).turnOf 0 → u.boundaryWork = none →
        (fetchHere u = .ok (n, w) v → (decodeBits n w).bind (loopInstr v.ctx.loop) = some i' → exec i' (v.latch n w) = .next t →
          ends (t.focusOn s.core.id)) ∧
        (fetchHere u = .error (.trap trap) v → ends ((v.fetchTrap trap).focusOn s.core.id)))) ∧
    (s.arbitrate s.agenda = .deliver k :: ms →
      (s.tooLate (.deliver k) = true ∨ s.packetAt k = none → ends { s with agenda := ms }) ∧
      (s.tooLate (.deliver k) = false → s.packetAt k = some p → exec (s.packetEvent p) (s.begun (.deliver k) ms) = .next t →
        ends t)) ∧
    (s.agenda = .cut k :: ms → step s = .next { s with agenda := ms, split := some k }) ∧
    (s.movePort (.event i) = some 1 → s.movePort (.event i') = some 0 →
      s.arbitrate (.event i :: .event i' :: ms) = .event i' :: .event i :: ms) ∧
    (∀ m, s.movePort m ≠ some 1 → s.arbitrate (m :: ms) = m :: ms) ∧
    (s.tooLate (.deliver k) = true ↔ s.portOne = true ∧ s.movePort (.deliver k) = some 0) ∧
    (s.movePort (.event i) = some 1 → (s.begun (.event i) ms).portOne = true) ∧
    (s.cycleStart ms).portOne = false ∧
    (s.agenda = .deliver k :: ms → s.movePort (.deliver k) ≠ some 1 → s.postponed = { s with agenda := ms }) ∧
    (u.ctx.pcc.tag = true → u.pc % 2 = 0 → capCheck u.ctx.pcc [pX] u.pc 4 1 = none → u.pc / 2 ^ 64 ≠ 0xFFFF →
      u.pc / 65536 = (u.pc + 3) / 65536 → u.myJob.map (·.spec.root) = some root → walkLeaf u root u.pc = some l →
      l.pte.testBit 3 = true → l.pte.testBit 4 = false → l.pte.testBit 5 = false → l.pte.testBit 7 = true →
      u.core.tlb = [] → u.ctlb = [] → u.wcache = [] → u.core.ic = [] → u.bad = [] → u.core.wpc = Vector.replicate 4 0 →
      let place := ptePA l.pte + u.pc % 2 ^ levelShift l.level
      let half := u.getNat place 2
      u.reaches place = true → u.held place 2 = false → u.held (place + 2) 2 = false →
      ∃ v, fetchHere u = .ok (if half % 2 = 0 then (2, half) else (4, u.getNat place 4)) v ∧ v.mem = u.mem ∧
        v.core.ctxs = u.core.ctxs ∧ v.core.v = u.core.v)

/-- R75, R85, R86, R89, and the worked words of the instruction chapters: these words decode to these instructions. -/
def Obligations.WordsOfTheTables : Prop :=
  (∀ x ∈ [(0x01C61405, Instr.add 2 5 6 7), (0xFC030C11, .addi 0 3 3 (BitVec.ofInt 7 (-2))), (0xFFD11071, .bne 0 4 (-6)),
      (0x31C61451, .csetb 0 5 6 7), (0x00C420C1, .ldD 0 8 4 0), (0x02820CD1, .stW 0 3 2 2), (0x01C614E1, .aaddD 0 5 6 7),
      (0x00042111, .vld 0 8 4), (0x01440A91, .vclt 0 2 4 5 0), (0x1B281551, .mop 0 5 40 44), (0x01442181, .send 0 8 4 5),
      (0x014421A1, .rld 0 8 4 5), (0x0A0615B1, .nred 0 5 6 40), (0x001215C1, .srd 0 5 0x012), (0x20A501C1, .trap 0 0xA5)],
    decode32 x.1 = some x.2) ∧
  (∀ x ∈ [(0xE330, Instr.addiShort 0 3 (-2)), (0x03F8, .loopShort 0 3 0), (0x4860, .ldDShort 0 8 4), (0x00F0, .exitShort 0)],
    decode16 x.1 = some x.2)

/-- R75 to R87, R89: every well-formed instruction that a word or a halfword encodes decodes from its bytes to itself, with
every operand at every value the encoding admits, and leaves the bytes behind it. -/
def Obligations.DecodeOfEncode : Prop :=
  ∀ (i : Instr) (rest : List Byte), i.wf = true → encode i ≠ [] → decode (encode i ++ rest) = .ok (i, rest)

/-- R213, R214, R60, R239, R402, R409, R411 (and, for c, o, v, m, g and PCC, the model's choice of log 1, for memory log 2):
after reset the package is in service state RESET with no semaphore held and no package number; every core has TCMP all ones,
RMODE 1, boundaries 24, 152 and 248, TPC null, and its other system registers zero; no loop is active and no job is held. -/
def Obligations.ResetState : Prop :=
  let s := State.reset
  s.svc = .reset ∧ s.pkg = none ∧ s.semHeld = false ∧ s.semGen = 0 ∧ s.powerCap = 3400 ∧ Memory.wf s.mem = true ∧
  ∀ e, let c := s.coreOf e
    c.id = e ∧ c.ie = false ∧ c.pie = false ∧ c.inh = false ∧ c.schk = false ∧ c.mm = false ∧ c.rmode = 1 ∧ c.srseed = 0 ∧
    c.srctr = 0 ∧ c.b0 = 24 ∧ c.b1 = 152 ∧ c.b2 = 248 ∧ c.mfvalid = false ∧ c.tcause = 0 ∧ c.tpc = Cap.null ∧
    c.sloop.lact = false ∧ c.ien = 0 ∧ c.ipend = 0 ∧ c.tcmp = BitVec.allOnes 64 ∧ c.brkstop = false ∧ c.msz = false ∧
    c.wpc = Vector.replicate 4 0 ∧ c.hwc = Vector.replicate 2 0 ∧ c.gswhy = 0 ∧ c.cyc = 0 ∧ c.job = none ∧
    (∀ h : Fin 11, c.ctxs[h].loop.lact = false) ∧ c.evc = Vector.replicate 11 0 ∧
    (∀ n : Fin 64, c.v[n] = 0) ∧ (∀ h : Fin 11, ∀ n : Fin 32, c.ctxs[h].c[n] = Cap.null) ∧
    (∀ h : Fin 11, c.ctxs[h].pcc = Cap.null)

/-- The invariant of memory: its cells stand in rising order of place, and none holds what an unlisted place reads as. Every
step keeps it. -/
def Obligations.MemoryStaysCanonical : Prop :=
  ∀ s t : State, Memory.wf s.mem = true → step s = .next t → Memory.wf t.mem = true

/-- R60, R239, R214: the boundaries of every pool stay in order, at most 254 and with a whole number of L1 sets between them,
and RMODE stays a rounding code, at every core of the package and in every saved record. Every step keeps it. -/
def Obligations.CoreSettingsStayLegal : Prop :=
  ∀ s t : State,
    let legal (c : Core) : Prop := 8 ≤ c.b0 ∧ c.b0 ≤ c.b1 ∧ c.b1 ≤ c.b2 ∧ c.b2 ≤ 254 ∧ (c.b2 - c.b1) % 4 = 0 ∧
      1 ≤ c.rmode ∧ c.rmode ≤ 6
    let all (u : State) : Prop := (∀ c ∈ u.allCores, legal c) ∧ ∀ j ∈ u.jobs, ∀ c ∈ j.saved, legal c
    all s → step s = .next t → all t
end

