-- ==== Sys2Proof/Laws/Memory.lean ====
section
/-! SUPPORT. Laws of memory: a read after a write, places a write leaves alone, and the canonical form that every memory
operation keeps. -/

namespace Sys2Proof.Laws

open Sys2Proof Sys2Proof.Machine

set_option Elab.async false

/-! ### One byte -/

theorem memWfFrom_mono (m : List Host.Cell) {lo lo' : Nat} (h : lo' ≤ lo) (hm : memWfFrom lo m = true) :
    memWfFrom lo' m = true := by
  cases m with
  | nil => rfl
  | cons x m =>
    simp only [memWfFrom, Bool.and_eq_true, decide_eq_true_eq] at hm ⊢
    exact ⟨⟨by omega, hm.1.2⟩, hm.2⟩

/-- Below the first cell nothing is listed. -/
theorem memGet_below (m : List Host.Cell) {lo a : Nat} (hm : memWfFrom lo m = true) (h : a < lo) :
    memGet m a = Config.blankByte := by
  cases m with
  | nil => rfl
  | cons x m =>
    simp only [memWfFrom, Bool.and_eq_true, decide_eq_true_eq] at hm
    have : a ≠ x.1 := by omega
    have : a < x.1 := by omega
    simp [memGet, *]

theorem memSet_wfFrom (m : List Host.Cell) (a : Nat) (v : Byte) :
    ∀ lo, lo ≤ a → memWfFrom lo m = true → memWfFrom lo (memSet m a v) = true := by
  induction m with
  | nil =>
    intro lo hlo _
    simp only [memSet]
    split
    · rfl
    · simp [memWfFrom, *]
  | cons x m ih =>
    intro lo hlo hm
    obtain ⟨k, b⟩ := x
    simp only [memWfFrom, Bool.and_eq_true, decide_eq_true_eq] at hm
    simp only [memSet]
    split
    · split
      · simp only [memWfFrom, Bool.and_eq_true, decide_eq_true_eq]
        exact hm
      · simp only [memWfFrom, Bool.and_eq_true, decide_eq_true_eq]
        exact ⟨⟨hlo, by assumption⟩, ⟨⟨by omega, hm.1.2⟩, hm.2⟩⟩
    · split
      · split
        · exact memWfFrom_mono m (by omega) hm.2
        · simp only [memWfFrom, Bool.and_eq_true, decide_eq_true_eq]
          exact ⟨⟨hlo, by assumption⟩, by subst_vars; exact hm.2⟩
      · simp only [memWfFrom, Bool.and_eq_true, decide_eq_true_eq]
        exact ⟨hm.1, ih (k + 1) (by omega) hm.2⟩

/-- Putting a byte keeps the canonical form. -/
theorem memSet_wf (m : List Host.Cell) (a : Nat) (v : Byte) (h : Memory.wf m = true) : Memory.wf (memSet m a v) = true :=
  memSet_wfFrom m a v 0 (Nat.zero_le _) h

theorem memGet_memSet_from (m : List Host.Cell) (a : Nat) (v : Byte) (x : Nat) :
    ∀ lo, memWfFrom lo m = true → memGet (memSet m a v) x = if x = a then v else memGet m x := by
  induction m with
  | nil =>
    intro lo _
    simp only [memSet]
    split
    · by_cases h : x = a <;> simp [memGet, *]
    · by_cases h : x = a <;> simp [memGet, h]
  | cons y m ih =>
    intro lo hm
    obtain ⟨k, b⟩ := y
    have hk := hm
    simp only [memWfFrom, Bool.and_eq_true, decide_eq_true_eq] at hk
    simp only [memSet]
    split
    · rename_i hak
      split
      · by_cases h : x = a
        · rw [if_pos h]
          subst h
          rw [memGet, if_neg (by omega), if_pos hak]
          exact Eq.symm (by assumption)
        · rw [if_neg h]
      · by_cases h : x = a
        · simp [memGet, h]
        · by_cases hlt : x < a
          · have h1 : x ≠ k := by omega
            have h2 : x < k := by omega
            simp [memGet, h, hlt, h1, h2]
          · simp [memGet, h, hlt]
    · split
      · rename_i hnl hak
        subst hak
        split
        · by_cases h : x = a
          · rw [if_pos h, memGet_below m hk.2 (by omega)]
            simp [*]
          · rw [if_neg h]
            by_cases hlt : x < a
            · rw [memGet_below m hk.2 (by omega)]
              simp [memGet, h, hlt]
            · simp [memGet, h, hlt]
        · by_cases h : x = a
          · simp [memGet, h]
          · simp [memGet, h]
      · have hne : k ≠ a := by omega
        by_cases hx : x = k
        · subst hx
          simp [memGet, hne]
        · by_cases hlt : x < k
          · have : x ≠ a := by omega
            simp [memGet, hx, hlt, this]
          · simp only [memGet, if_neg hx, if_neg hlt]
            exact ih (k + 1) hk.2

/-- A read after a write: the byte written at its place, and what stood there at every other place. -/
theorem memGet_memSet (m : List Host.Cell) (a : Nat) (v : Byte) (x : Nat) (h : Memory.wf m = true) :
    memGet (memSet m a v) x = if x = a then v else memGet m x :=
  memGet_memSet_from m a v x 0 h

/-! ### Several bytes -/

theorem memSets_wf (vs : List Byte) : ∀ (m : List Host.Cell) (a : Nat), Memory.wf m = true →
    Memory.wf (memSets m a vs) = true := by
  induction vs with
  | nil => exact fun _ _ h => h
  | cons v vs ih => exact fun m a h => ih _ _ (memSet_wf m a v h)

/-- Bytes put from a place upward leave every other place alone. -/
theorem memGet_memSets_other (vs : List Byte) : ∀ (m : List Host.Cell) (a x : Nat), Memory.wf m = true →
    (x < a ∨ a + vs.length ≤ x) → memGet (memSets m a vs) x = memGet m x := by
  induction vs with
  | nil => exact fun _ _ _ _ _ => rfl
  | cons v vs ih =>
    intro m a x h hx
    simp only [List.length_cons] at hx
    have := ih (memSet m a v) (a + 1) x (memSet_wf m a v h) (by omega)
    rw [memSets, this, memGet_memSet m a v x h, if_neg (by omega)]

/-- Bytes put from a place upward read back. -/
theorem memGets_memSets (vs : List Byte) : ∀ (m : List Host.Cell) (a : Nat), Memory.wf m = true →
    memGets (memSets m a vs) a vs.length = vs := by
  induction vs with
  | nil => exact fun _ _ _ => rfl
  | cons v vs ih =>
    intro m a h
    have hw := memSet_wf m a v h
    simp only [memSets, List.length_cons, memGets]
    rw [ih (memSet m a v) (a + 1) hw, memGet_memSets_other vs _ _ a hw (by omega), memGet_memSet m a v a h, if_pos rfl]

theorem filter_wfFrom (p : Host.Cell → Bool) (m : List Host.Cell) :
    ∀ lo, memWfFrom lo m = true → memWfFrom lo (m.filter p) = true := by
  induction m with
  | nil => exact fun _ _ => rfl
  | cons x m ih =>
    intro lo hm
    simp only [memWfFrom, Bool.and_eq_true, decide_eq_true_eq] at hm
    by_cases h : p x = true
    · rw [List.filter_cons_of_pos h]
      simp only [memWfFrom, Bool.and_eq_true, decide_eq_true_eq]
      exact ⟨hm.1, ih _ hm.2⟩
    · rw [List.filter_cons_of_neg h]
      exact memWfFrom_mono _ (by omega) (ih _ hm.2)

/-- Dropping cells keeps the canonical form. -/
theorem filter_wf (p : Host.Cell → Bool) (m : List Host.Cell) (h : Memory.wf m = true) : Memory.wf (m.filter p) = true :=
  filter_wfFrom p m 0 h

/-! ### Memory of a state -/

theorem putBytes_wf (s : State) (a : Nat) (bs : List Byte) (h : Memory.wf s.mem = true) :
    Memory.wf (s.putBytes a bs).mem = true := memSets_wf bs s.mem a h

/-- Equal reads everywhere make equal memories: the form is canonical. -/
theorem wf_ext_from (m n : List Host.Cell) : ∀ lo, memWfFrom lo m = true → memWfFrom lo n = true →
    (∀ a, memGet m a = memGet n a) → m = n := by
  induction m generalizing n with
  | nil =>
    intro lo _ hn h
    cases n with
    | nil => rfl
    | cons y n =>
      simp only [memWfFrom, Bool.and_eq_true, decide_eq_true_eq] at hn
      have := h y.1
      simp [memGet] at this
      exact absurd this.symm hn.1.2
  | cons x m ih =>
    intro lo hm hn h
    have hmx := hm
    simp only [memWfFrom, Bool.and_eq_true, decide_eq_true_eq] at hmx
    cases n with
    | nil =>
      have := h x.1
      simp [memGet] at this
      exact absurd this hmx.1.2
    | cons y n =>
      have hny := hn
      simp only [memWfFrom, Bool.and_eq_true, decide_eq_true_eq] at hny
      have hk : x.1 = y.1 := by
        by_contra hne
        by_cases hlt : x.1 < y.1
        · have := h x.1
          rw [memGet, if_pos rfl, memGet, if_neg hne, if_pos hlt] at this
          exact hmx.1.2 this
        · have := h y.1
          rw [memGet, if_neg (Ne.symm hne), if_pos (by omega), memGet, if_pos rfl] at this
          exact hny.1.2 this.symm
      have hv : x.2 = y.2 := by
        have := h x.1
        rwa [memGet, if_pos rfl, memGet, if_pos hk] at this
      obtain ⟨k, b⟩ := x
      obtain ⟨k', b'⟩ := y
      simp only at hk hv
      subst hk
      subst hv
      have := ih n (k + 1) hmx.2 hny.2 (fun a => by
        by_cases ha : a < k + 1
        · rw [memGet_below m hmx.2 ha, memGet_below n hny.2 ha]
        · have := h a
          rwa [memGet, memGet, if_neg (by omega), if_neg (by omega), if_neg (by omega), if_neg (by omega)] at this)
      rw [this]

theorem wf_ext (m n : List Host.Cell) (hm : Memory.wf m = true) (hn : Memory.wf n = true)
    (h : ∀ a, memGet m a = memGet n a) : m = n := wf_ext_from m n 0 hm hn h

end Sys2Proof.Laws
end

