-- ==== Sys2Proof/Laws/State.lean ====
section
/-! SUPPORT. One lemma per field per update of the state, so that no proof unfolds a record update. -/

namespace Sys2Proof.Laws

open Sys2Proof Sys2Proof.Machine

set_option Elab.async false

@[simp] theorem setCtx_mem (s : State) (x : Ctx) : (s.setCtx x).mem = s.mem := rfl
@[simp] theorem setCtx_tags (s : State) (x : Ctx) : (s.setCtx x).tags = s.tags := rfl
@[simp] theorem setCtx_bad (s : State) (x : Ctx) : (s.setCtx x).bad = s.bad := rfl
@[simp] theorem setCtx_others (s : State) (x : Ctx) : (s.setCtx x).others = s.others := rfl
@[simp] theorem setCtx_jobs (s : State) (x : Ctx) : (s.setCtx x).jobs = s.jobs := rfl
@[simp] theorem setCtx_levels (s : State) (x : Ctx) : (s.setCtx x).levels = s.levels := rfl
@[simp] theorem setCtx_hutches (s : State) (x : Ctx) : (s.setCtx x).hutches = s.hutches := rfl
@[simp] theorem setCtx_joins (s : State) (x : Ctx) : (s.setCtx x).joins = s.joins := rfl
@[simp] theorem setCtx_net (s : State) (x : Ctx) : (s.setCtx x).net = s.net := rfl
@[simp] theorem setCtx_commits (s : State) (x : Ctx) : (s.setCtx x).commits = s.commits := rfl
@[simp] theorem setCtx_groups (s : State) (x : Ctx) : (s.setCtx x).groups = s.groups := rfl
@[simp] theorem setCtx_recents (s : State) (x : Ctx) : (s.setCtx x).recents = s.recents := rfl
@[simp] theorem setCtx_freeN (s : State) (x : Ctx) : (s.setCtx x).freeN = s.freeN := rfl
@[simp] theorem setCtx_agenda (s : State) (x : Ctx) : (s.setCtx x).agenda = s.agenda := rfl
@[simp] theorem setCtx_time (s : State) (x : Ctx) : (s.setCtx x).time = s.time := rfl
@[simp] theorem setCtx_l2 (s : State) (x : Ctx) : (s.setCtx x).l2 = s.l2 := rfl
@[simp] theorem setCtx_nextNo (s : State) (x : Ctx) : (s.setCtx x).nextNo = s.nextNo := rfl
@[simp] theorem setCtx_split (s : State) (x : Ctx) : (s.setCtx x).split = s.split := rfl
@[simp] theorem setCtx_heldHit (s : State) (x : Ctx) : (s.setCtx x).heldHit = s.heldHit := rfl
@[simp] theorem setCtx_portOne (s : State) (x : Ctx) : (s.setCtx x).portOne = s.portOne := rfl
@[simp] theorem setCtx_jobSeen (s : State) (x : Ctx) : (s.setCtx x).jobSeen = s.jobSeen := rfl
@[simp] theorem setCtx_known (s : State) (x : Ctx) : (s.setCtx x).known = s.known := rfl
@[simp] theorem setCtx_dropped (s : State) (x : Ctx) : (s.setCtx x).dropped = s.dropped := rfl
@[simp] theorem setCtx_ptx (s : State) (x : Ctx) : (s.setCtx x).ptx = s.ptx := rfl
@[simp] theorem setCtx_prx (s : State) (x : Ctx) : (s.setCtx x).prx = s.prx := rfl
@[simp] theorem setCtx_links (s : State) (x : Ctx) : (s.setCtx x).links = s.links := rfl
@[simp] theorem setCtx_niWait (s : State) (x : Ctx) : (s.setCtx x).niWait = s.niWait := rfl
@[simp] theorem setCtx_uops (s : State) (x : Ctx) : (s.setCtx x).uops = s.uops := rfl
@[simp] theorem setCtx_stackOn (s : State) (x : Ctx) : (s.setCtx x).stackOn = s.stackOn := rfl
@[simp] theorem setCtx_ctlb (s : State) (x : Ctx) : (s.setCtx x).ctlb = s.ctlb := rfl
@[simp] theorem setCtx_wcache (s : State) (x : Ctx) : (s.setCtx x).wcache = s.wcache := rfl
@[simp] theorem setCtx_core_id (s : State) (x : Ctx) : (s.setCtx x).core.id = s.core.id := rfl
@[simp] theorem setCtx_core_cur (s : State) (x : Ctx) : (s.setCtx x).core.cur = s.core.cur := rfl
@[simp] theorem setCtx_core_v (s : State) (x : Ctx) : (s.setCtx x).core.v = s.core.v := rfl
@[simp] theorem setCtx_core_m (s : State) (x : Ctx) : (s.setCtx x).core.m = s.core.m := rfl
@[simp] theorem setCtx_core_g (s : State) (x : Ctx) : (s.setCtx x).core.g = s.core.g := rfl
@[simp] theorem setCtx_core_sp (s : State) (x : Ctx) : (s.setCtx x).core.sp = s.core.sp := rfl
@[simp] theorem setCtx_core_ie (s : State) (x : Ctx) : (s.setCtx x).core.ie = s.core.ie := rfl
@[simp] theorem setCtx_core_pie (s : State) (x : Ctx) : (s.setCtx x).core.pie = s.core.pie := rfl
@[simp] theorem setCtx_core_inh (s : State) (x : Ctx) : (s.setCtx x).core.inh = s.core.inh := rfl
@[simp] theorem setCtx_core_schk (s : State) (x : Ctx) : (s.setCtx x).core.schk = s.core.schk := rfl
@[simp] theorem setCtx_core_mm (s : State) (x : Ctx) : (s.setCtx x).core.mm = s.core.mm := rfl
@[simp] theorem setCtx_core_rmode (s : State) (x : Ctx) : (s.setCtx x).core.rmode = s.core.rmode := rfl
@[simp] theorem setCtx_core_tcause (s : State) (x : Ctx) : (s.setCtx x).core.tcause = s.core.tcause := rfl
@[simp] theorem setCtx_core_tval (s : State) (x : Ctx) : (s.setCtx x).core.tval = s.core.tval := rfl
@[simp] theorem setCtx_core_tpc (s : State) (x : Ctx) : (s.setCtx x).core.tpc = s.core.tpc := rfl
@[simp] theorem setCtx_core_tvec (s : State) (x : Ctx) : (s.setCtx x).core.tvec = s.core.tvec := rfl
@[simp] theorem setCtx_core_hs (s : State) (x : Ctx) : (s.setCtx x).core.hs = s.core.hs := rfl
@[simp] theorem setCtx_core_job (s : State) (x : Ctx) : (s.setCtx x).core.job = s.core.job := rfl
@[simp] theorem setCtx_core_run (s : State) (x : Ctx) : (s.setCtx x).core.run = s.core.run := rfl
@[simp] theorem setCtx_core_jobs (s : State) (x : Ctx) : (s.setCtx x).core.jobs = s.core.jobs := rfl
@[simp] theorem setCtx_core_ops (s : State) (x : Ctx) : (s.setCtx x).core.ops = s.core.ops := rfl
@[simp] theorem setCtx_core_mq (s : State) (x : Ctx) : (s.setCtx x).core.mq = s.core.mq := rfl
@[simp] theorem setCtx_core_oc (s : State) (x : Ctx) : (s.setCtx x).core.oc = s.core.oc := rfl
@[simp] theorem setCtx_core_tape (s : State) (x : Ctx) : (s.setCtx x).core.tape = s.core.tape := rfl
@[simp] theorem setCtx_core_stopped (s : State) (x : Ctx) : (s.setCtx x).core.stopped = s.core.stopped := rfl
@[simp] theorem setCtx_core_cyc (s : State) (x : Ctx) : (s.setCtx x).core.cyc = s.core.cyc := rfl
@[simp] theorem setCtx_core_l1 (s : State) (x : Ctx) : (s.setCtx x).core.l1 = s.core.l1 := rfl
@[simp] theorem setCtx_core_tlb (s : State) (x : Ctx) : (s.setCtx x).core.tlb = s.core.tlb := rfl
@[simp] theorem setCtx_core_ic (s : State) (x : Ctx) : (s.setCtx x).core.ic = s.core.ic := rfl
@[simp] theorem setCtx_core_srctr (s : State) (x : Ctx) : (s.setCtx x).core.srctr = s.core.srctr := rfl
@[simp] theorem setCtx_core_binds (s : State) (x : Ctx) : (s.setCtx x).core.binds = s.core.binds := rfl
@[simp] theorem setCtx_core_ends (s : State) (x : Ctx) : (s.setCtx x).core.ends = s.core.ends := rfl
@[simp] theorem setCtx_core_held (s : State) (x : Ctx) : (s.setCtx x).core.held = s.core.held := rfl
@[simp] theorem setCtx_core_sent (s : State) (x : Ctx) : (s.setCtx x).core.sent = s.core.sent := rfl
@[simp] theorem setCtx_core_barw (s : State) (x : Ctx) : (s.setCtx x).core.barw = s.core.barw := rfl
@[simp] theorem setCtx_core_poisoned (s : State) (x : Ctx) : (s.setCtx x).core.poisoned = s.core.poisoned := rfl
@[simp] theorem setCtx_core_mfvalid (s : State) (x : Ctx) : (s.setCtx x).core.mfvalid = s.core.mfvalid := rfl
@[simp] theorem setCtx_core_stopReq (s : State) (x : Ctx) : (s.setCtx x).core.stopReq = s.core.stopReq := rfl

@[simp] theorem count_mem (s : State) (k : Fin 11) (n : Nat) : (s.count k n).mem = s.mem := rfl
@[simp] theorem count_tags (s : State) (k : Fin 11) (n : Nat) : (s.count k n).tags = s.tags := rfl
@[simp] theorem count_bad (s : State) (k : Fin 11) (n : Nat) : (s.count k n).bad = s.bad := rfl
@[simp] theorem count_others (s : State) (k : Fin 11) (n : Nat) : (s.count k n).others = s.others := rfl
@[simp] theorem count_jobs (s : State) (k : Fin 11) (n : Nat) : (s.count k n).jobs = s.jobs := rfl
@[simp] theorem count_levels (s : State) (k : Fin 11) (n : Nat) : (s.count k n).levels = s.levels := rfl
@[simp] theorem count_hutches (s : State) (k : Fin 11) (n : Nat) : (s.count k n).hutches = s.hutches := rfl
@[simp] theorem count_joins (s : State) (k : Fin 11) (n : Nat) : (s.count k n).joins = s.joins := rfl
@[simp] theorem count_net (s : State) (k : Fin 11) (n : Nat) : (s.count k n).net = s.net := rfl
@[simp] theorem count_commits (s : State) (k : Fin 11) (n : Nat) : (s.count k n).commits = s.commits := rfl
@[simp] theorem count_groups (s : State) (k : Fin 11) (n : Nat) : (s.count k n).groups = s.groups := rfl
@[simp] theorem count_recents (s : State) (k : Fin 11) (n : Nat) : (s.count k n).recents = s.recents := rfl
@[simp] theorem count_freeN (s : State) (k : Fin 11) (n : Nat) : (s.count k n).freeN = s.freeN := rfl
@[simp] theorem count_agenda (s : State) (k : Fin 11) (n : Nat) : (s.count k n).agenda = s.agenda := rfl
@[simp] theorem count_time (s : State) (k : Fin 11) (n : Nat) : (s.count k n).time = s.time := rfl
@[simp] theorem count_l2 (s : State) (k : Fin 11) (n : Nat) : (s.count k n).l2 = s.l2 := rfl
@[simp] theorem count_nextNo (s : State) (k : Fin 11) (n : Nat) : (s.count k n).nextNo = s.nextNo := rfl
@[simp] theorem count_split (s : State) (k : Fin 11) (n : Nat) : (s.count k n).split = s.split := rfl
@[simp] theorem count_heldHit (s : State) (k : Fin 11) (n : Nat) : (s.count k n).heldHit = s.heldHit := rfl
@[simp] theorem count_portOne (s : State) (k : Fin 11) (n : Nat) : (s.count k n).portOne = s.portOne := rfl
@[simp] theorem count_jobSeen (s : State) (k : Fin 11) (n : Nat) : (s.count k n).jobSeen = s.jobSeen := rfl
@[simp] theorem count_known (s : State) (k : Fin 11) (n : Nat) : (s.count k n).known = s.known := rfl
@[simp] theorem count_dropped (s : State) (k : Fin 11) (n : Nat) : (s.count k n).dropped = s.dropped := rfl
@[simp] theorem count_ptx (s : State) (k : Fin 11) (n : Nat) : (s.count k n).ptx = s.ptx := rfl
@[simp] theorem count_prx (s : State) (k : Fin 11) (n : Nat) : (s.count k n).prx = s.prx := rfl
@[simp] theorem count_links (s : State) (k : Fin 11) (n : Nat) : (s.count k n).links = s.links := rfl
@[simp] theorem count_niWait (s : State) (k : Fin 11) (n : Nat) : (s.count k n).niWait = s.niWait := rfl
@[simp] theorem count_uops (s : State) (k : Fin 11) (n : Nat) : (s.count k n).uops = s.uops := rfl
@[simp] theorem count_stackOn (s : State) (k : Fin 11) (n : Nat) : (s.count k n).stackOn = s.stackOn := rfl
@[simp] theorem count_ctlb (s : State) (k : Fin 11) (n : Nat) : (s.count k n).ctlb = s.ctlb := rfl
@[simp] theorem count_wcache (s : State) (k : Fin 11) (n : Nat) : (s.count k n).wcache = s.wcache := rfl
@[simp] theorem count_core_id (s : State) (k : Fin 11) (n : Nat) : (s.count k n).core.id = s.core.id := rfl
@[simp] theorem count_core_cur (s : State) (k : Fin 11) (n : Nat) : (s.count k n).core.cur = s.core.cur := rfl
@[simp] theorem count_core_v (s : State) (k : Fin 11) (n : Nat) : (s.count k n).core.v = s.core.v := rfl
@[simp] theorem count_core_m (s : State) (k : Fin 11) (n : Nat) : (s.count k n).core.m = s.core.m := rfl
@[simp] theorem count_core_g (s : State) (k : Fin 11) (n : Nat) : (s.count k n).core.g = s.core.g := rfl
@[simp] theorem count_core_sp (s : State) (k : Fin 11) (n : Nat) : (s.count k n).core.sp = s.core.sp := rfl
@[simp] theorem count_core_ie (s : State) (k : Fin 11) (n : Nat) : (s.count k n).core.ie = s.core.ie := rfl
@[simp] theorem count_core_pie (s : State) (k : Fin 11) (n : Nat) : (s.count k n).core.pie = s.core.pie := rfl
@[simp] theorem count_core_inh (s : State) (k : Fin 11) (n : Nat) : (s.count k n).core.inh = s.core.inh := rfl
@[simp] theorem count_core_schk (s : State) (k : Fin 11) (n : Nat) : (s.count k n).core.schk = s.core.schk := rfl
@[simp] theorem count_core_mm (s : State) (k : Fin 11) (n : Nat) : (s.count k n).core.mm = s.core.mm := rfl
@[simp] theorem count_core_rmode (s : State) (k : Fin 11) (n : Nat) : (s.count k n).core.rmode = s.core.rmode := rfl
@[simp] theorem count_core_tcause (s : State) (k : Fin 11) (n : Nat) : (s.count k n).core.tcause = s.core.tcause := rfl
@[simp] theorem count_core_tval (s : State) (k : Fin 11) (n : Nat) : (s.count k n).core.tval = s.core.tval := rfl
@[simp] theorem count_core_tpc (s : State) (k : Fin 11) (n : Nat) : (s.count k n).core.tpc = s.core.tpc := rfl
@[simp] theorem count_core_tvec (s : State) (k : Fin 11) (n : Nat) : (s.count k n).core.tvec = s.core.tvec := rfl
@[simp] theorem count_core_hs (s : State) (k : Fin 11) (n : Nat) : (s.count k n).core.hs = s.core.hs := rfl
@[simp] theorem count_core_job (s : State) (k : Fin 11) (n : Nat) : (s.count k n).core.job = s.core.job := rfl
@[simp] theorem count_core_run (s : State) (k : Fin 11) (n : Nat) : (s.count k n).core.run = s.core.run := rfl
@[simp] theorem count_core_jobs (s : State) (k : Fin 11) (n : Nat) : (s.count k n).core.jobs = s.core.jobs := rfl
@[simp] theorem count_core_ops (s : State) (k : Fin 11) (n : Nat) : (s.count k n).core.ops = s.core.ops := rfl
@[simp] theorem count_core_mq (s : State) (k : Fin 11) (n : Nat) : (s.count k n).core.mq = s.core.mq := rfl
@[simp] theorem count_core_oc (s : State) (k : Fin 11) (n : Nat) : (s.count k n).core.oc = s.core.oc := rfl
@[simp] theorem count_core_tape (s : State) (k : Fin 11) (n : Nat) : (s.count k n).core.tape = s.core.tape := rfl
@[simp] theorem count_core_stopped (s : State) (k : Fin 11) (n : Nat) : (s.count k n).core.stopped = s.core.stopped := rfl
@[simp] theorem count_core_cyc (s : State) (k : Fin 11) (n : Nat) : (s.count k n).core.cyc = s.core.cyc := rfl
@[simp] theorem count_core_l1 (s : State) (k : Fin 11) (n : Nat) : (s.count k n).core.l1 = s.core.l1 := rfl
@[simp] theorem count_core_tlb (s : State) (k : Fin 11) (n : Nat) : (s.count k n).core.tlb = s.core.tlb := rfl
@[simp] theorem count_core_ic (s : State) (k : Fin 11) (n : Nat) : (s.count k n).core.ic = s.core.ic := rfl
@[simp] theorem count_core_srctr (s : State) (k : Fin 11) (n : Nat) : (s.count k n).core.srctr = s.core.srctr := rfl
@[simp] theorem count_core_binds (s : State) (k : Fin 11) (n : Nat) : (s.count k n).core.binds = s.core.binds := rfl
@[simp] theorem count_core_ends (s : State) (k : Fin 11) (n : Nat) : (s.count k n).core.ends = s.core.ends := rfl
@[simp] theorem count_core_held (s : State) (k : Fin 11) (n : Nat) : (s.count k n).core.held = s.core.held := rfl
@[simp] theorem count_core_sent (s : State) (k : Fin 11) (n : Nat) : (s.count k n).core.sent = s.core.sent := rfl
@[simp] theorem count_core_barw (s : State) (k : Fin 11) (n : Nat) : (s.count k n).core.barw = s.core.barw := rfl
@[simp] theorem count_core_poisoned (s : State) (k : Fin 11) (n : Nat) : (s.count k n).core.poisoned = s.core.poisoned := rfl
@[simp] theorem count_core_mfvalid (s : State) (k : Fin 11) (n : Nat) : (s.count k n).core.mfvalid = s.core.mfvalid := rfl
@[simp] theorem count_core_stopReq (s : State) (k : Fin 11) (n : Nat) : (s.count k n).core.stopReq = s.core.stopReq := rfl
@[simp] theorem count_core_ctxs (s : State) (k : Fin 11) (n : Nat) : (s.count k n).core.ctxs = s.core.ctxs := rfl

@[simp] theorem wc_mem (s : State) (n : Fin 32) (v : Cap) : (s.wc n v).mem = s.mem := rfl
@[simp] theorem wc_tags (s : State) (n : Fin 32) (v : Cap) : (s.wc n v).tags = s.tags := rfl
@[simp] theorem wc_bad (s : State) (n : Fin 32) (v : Cap) : (s.wc n v).bad = s.bad := rfl
@[simp] theorem wc_others (s : State) (n : Fin 32) (v : Cap) : (s.wc n v).others = s.others := rfl
@[simp] theorem wc_jobs (s : State) (n : Fin 32) (v : Cap) : (s.wc n v).jobs = s.jobs := rfl
@[simp] theorem wc_levels (s : State) (n : Fin 32) (v : Cap) : (s.wc n v).levels = s.levels := rfl
@[simp] theorem wc_hutches (s : State) (n : Fin 32) (v : Cap) : (s.wc n v).hutches = s.hutches := rfl
@[simp] theorem wc_joins (s : State) (n : Fin 32) (v : Cap) : (s.wc n v).joins = s.joins := rfl
@[simp] theorem wc_net (s : State) (n : Fin 32) (v : Cap) : (s.wc n v).net = s.net := rfl
@[simp] theorem wc_commits (s : State) (n : Fin 32) (v : Cap) : (s.wc n v).commits = s.commits := rfl
@[simp] theorem wc_groups (s : State) (n : Fin 32) (v : Cap) : (s.wc n v).groups = s.groups := rfl
@[simp] theorem wc_recents (s : State) (n : Fin 32) (v : Cap) : (s.wc n v).recents = s.recents := rfl
@[simp] theorem wc_freeN (s : State) (n : Fin 32) (v : Cap) : (s.wc n v).freeN = s.freeN := rfl
@[simp] theorem wc_agenda (s : State) (n : Fin 32) (v : Cap) : (s.wc n v).agenda = s.agenda := rfl
@[simp] theorem wc_time (s : State) (n : Fin 32) (v : Cap) : (s.wc n v).time = s.time := rfl
@[simp] theorem wc_l2 (s : State) (n : Fin 32) (v : Cap) : (s.wc n v).l2 = s.l2 := rfl
@[simp] theorem wc_nextNo (s : State) (n : Fin 32) (v : Cap) : (s.wc n v).nextNo = s.nextNo := rfl
@[simp] theorem wc_split (s : State) (n : Fin 32) (v : Cap) : (s.wc n v).split = s.split := rfl
@[simp] theorem wc_heldHit (s : State) (n : Fin 32) (v : Cap) : (s.wc n v).heldHit = s.heldHit := rfl
@[simp] theorem wc_portOne (s : State) (n : Fin 32) (v : Cap) : (s.wc n v).portOne = s.portOne := rfl
@[simp] theorem wc_jobSeen (s : State) (n : Fin 32) (v : Cap) : (s.wc n v).jobSeen = s.jobSeen := rfl
@[simp] theorem wc_known (s : State) (n : Fin 32) (v : Cap) : (s.wc n v).known = s.known := rfl
@[simp] theorem wc_dropped (s : State) (n : Fin 32) (v : Cap) : (s.wc n v).dropped = s.dropped := rfl
@[simp] theorem wc_ptx (s : State) (n : Fin 32) (v : Cap) : (s.wc n v).ptx = s.ptx := rfl
@[simp] theorem wc_prx (s : State) (n : Fin 32) (v : Cap) : (s.wc n v).prx = s.prx := rfl
@[simp] theorem wc_links (s : State) (n : Fin 32) (v : Cap) : (s.wc n v).links = s.links := rfl
@[simp] theorem wc_niWait (s : State) (n : Fin 32) (v : Cap) : (s.wc n v).niWait = s.niWait := rfl
@[simp] theorem wc_uops (s : State) (n : Fin 32) (v : Cap) : (s.wc n v).uops = s.uops := rfl
@[simp] theorem wc_stackOn (s : State) (n : Fin 32) (v : Cap) : (s.wc n v).stackOn = s.stackOn := rfl
@[simp] theorem wc_ctlb (s : State) (n : Fin 32) (v : Cap) : (s.wc n v).ctlb = s.ctlb := rfl
@[simp] theorem wc_wcache (s : State) (n : Fin 32) (v : Cap) : (s.wc n v).wcache = s.wcache := rfl
@[simp] theorem wc_core_id (s : State) (n : Fin 32) (v : Cap) : (s.wc n v).core.id = s.core.id := rfl
@[simp] theorem wc_core_cur (s : State) (n : Fin 32) (v : Cap) : (s.wc n v).core.cur = s.core.cur := rfl
@[simp] theorem wc_core_v (s : State) (n : Fin 32) (v : Cap) : (s.wc n v).core.v = s.core.v := rfl
@[simp] theorem wc_core_m (s : State) (n : Fin 32) (v : Cap) : (s.wc n v).core.m = s.core.m := rfl
@[simp] theorem wc_core_g (s : State) (n : Fin 32) (v : Cap) : (s.wc n v).core.g = s.core.g := rfl
@[simp] theorem wc_core_sp (s : State) (n : Fin 32) (v : Cap) : (s.wc n v).core.sp = s.core.sp := rfl
@[simp] theorem wc_core_ie (s : State) (n : Fin 32) (v : Cap) : (s.wc n v).core.ie = s.core.ie := rfl
@[simp] theorem wc_core_pie (s : State) (n : Fin 32) (v : Cap) : (s.wc n v).core.pie = s.core.pie := rfl
@[simp] theorem wc_core_inh (s : State) (n : Fin 32) (v : Cap) : (s.wc n v).core.inh = s.core.inh := rfl
@[simp] theorem wc_core_schk (s : State) (n : Fin 32) (v : Cap) : (s.wc n v).core.schk = s.core.schk := rfl
@[simp] theorem wc_core_mm (s : State) (n : Fin 32) (v : Cap) : (s.wc n v).core.mm = s.core.mm := rfl
@[simp] theorem wc_core_rmode (s : State) (n : Fin 32) (v : Cap) : (s.wc n v).core.rmode = s.core.rmode := rfl
@[simp] theorem wc_core_tcause (s : State) (n : Fin 32) (v : Cap) : (s.wc n v).core.tcause = s.core.tcause := rfl
@[simp] theorem wc_core_tval (s : State) (n : Fin 32) (v : Cap) : (s.wc n v).core.tval = s.core.tval := rfl
@[simp] theorem wc_core_tpc (s : State) (n : Fin 32) (v : Cap) : (s.wc n v).core.tpc = s.core.tpc := rfl
@[simp] theorem wc_core_tvec (s : State) (n : Fin 32) (v : Cap) : (s.wc n v).core.tvec = s.core.tvec := rfl
@[simp] theorem wc_core_hs (s : State) (n : Fin 32) (v : Cap) : (s.wc n v).core.hs = s.core.hs := rfl
@[simp] theorem wc_core_job (s : State) (n : Fin 32) (v : Cap) : (s.wc n v).core.job = s.core.job := rfl
@[simp] theorem wc_core_run (s : State) (n : Fin 32) (v : Cap) : (s.wc n v).core.run = s.core.run := rfl
@[simp] theorem wc_core_jobs (s : State) (n : Fin 32) (v : Cap) : (s.wc n v).core.jobs = s.core.jobs := rfl
@[simp] theorem wc_core_ops (s : State) (n : Fin 32) (v : Cap) : (s.wc n v).core.ops = s.core.ops := rfl
@[simp] theorem wc_core_mq (s : State) (n : Fin 32) (v : Cap) : (s.wc n v).core.mq = s.core.mq := rfl
@[simp] theorem wc_core_oc (s : State) (n : Fin 32) (v : Cap) : (s.wc n v).core.oc = s.core.oc := rfl
@[simp] theorem wc_core_tape (s : State) (n : Fin 32) (v : Cap) : (s.wc n v).core.tape = s.core.tape := rfl
@[simp] theorem wc_core_stopped (s : State) (n : Fin 32) (v : Cap) : (s.wc n v).core.stopped = s.core.stopped := rfl
@[simp] theorem wc_core_cyc (s : State) (n : Fin 32) (v : Cap) : (s.wc n v).core.cyc = s.core.cyc := rfl
@[simp] theorem wc_core_l1 (s : State) (n : Fin 32) (v : Cap) : (s.wc n v).core.l1 = s.core.l1 := rfl
@[simp] theorem wc_core_tlb (s : State) (n : Fin 32) (v : Cap) : (s.wc n v).core.tlb = s.core.tlb := rfl
@[simp] theorem wc_core_ic (s : State) (n : Fin 32) (v : Cap) : (s.wc n v).core.ic = s.core.ic := rfl
@[simp] theorem wc_core_srctr (s : State) (n : Fin 32) (v : Cap) : (s.wc n v).core.srctr = s.core.srctr := rfl
@[simp] theorem wc_core_binds (s : State) (n : Fin 32) (v : Cap) : (s.wc n v).core.binds = s.core.binds := rfl
@[simp] theorem wc_core_ends (s : State) (n : Fin 32) (v : Cap) : (s.wc n v).core.ends = s.core.ends := rfl
@[simp] theorem wc_core_held (s : State) (n : Fin 32) (v : Cap) : (s.wc n v).core.held = s.core.held := rfl
@[simp] theorem wc_core_sent (s : State) (n : Fin 32) (v : Cap) : (s.wc n v).core.sent = s.core.sent := rfl
@[simp] theorem wc_core_barw (s : State) (n : Fin 32) (v : Cap) : (s.wc n v).core.barw = s.core.barw := rfl
@[simp] theorem wc_core_poisoned (s : State) (n : Fin 32) (v : Cap) : (s.wc n v).core.poisoned = s.core.poisoned := rfl
@[simp] theorem wc_core_mfvalid (s : State) (n : Fin 32) (v : Cap) : (s.wc n v).core.mfvalid = s.core.mfvalid := rfl
@[simp] theorem wc_core_stopReq (s : State) (n : Fin 32) (v : Cap) : (s.wc n v).core.stopReq = s.core.stopReq := rfl

@[simp] theorem wx_mem (s : State) (n : Fin 32) (v : Word) : (s.wx n v).mem = s.mem := rfl
@[simp] theorem wx_tags (s : State) (n : Fin 32) (v : Word) : (s.wx n v).tags = s.tags := rfl
@[simp] theorem wx_bad (s : State) (n : Fin 32) (v : Word) : (s.wx n v).bad = s.bad := rfl
@[simp] theorem wx_others (s : State) (n : Fin 32) (v : Word) : (s.wx n v).others = s.others := rfl
@[simp] theorem wx_jobs (s : State) (n : Fin 32) (v : Word) : (s.wx n v).jobs = s.jobs := rfl
@[simp] theorem wx_levels (s : State) (n : Fin 32) (v : Word) : (s.wx n v).levels = s.levels := rfl
@[simp] theorem wx_hutches (s : State) (n : Fin 32) (v : Word) : (s.wx n v).hutches = s.hutches := rfl
@[simp] theorem wx_joins (s : State) (n : Fin 32) (v : Word) : (s.wx n v).joins = s.joins := rfl
@[simp] theorem wx_net (s : State) (n : Fin 32) (v : Word) : (s.wx n v).net = s.net := rfl
@[simp] theorem wx_commits (s : State) (n : Fin 32) (v : Word) : (s.wx n v).commits = s.commits := rfl
@[simp] theorem wx_groups (s : State) (n : Fin 32) (v : Word) : (s.wx n v).groups = s.groups := rfl
@[simp] theorem wx_recents (s : State) (n : Fin 32) (v : Word) : (s.wx n v).recents = s.recents := rfl
@[simp] theorem wx_freeN (s : State) (n : Fin 32) (v : Word) : (s.wx n v).freeN = s.freeN := rfl
@[simp] theorem wx_agenda (s : State) (n : Fin 32) (v : Word) : (s.wx n v).agenda = s.agenda := rfl
@[simp] theorem wx_time (s : State) (n : Fin 32) (v : Word) : (s.wx n v).time = s.time := rfl
@[simp] theorem wx_l2 (s : State) (n : Fin 32) (v : Word) : (s.wx n v).l2 = s.l2 := rfl
@[simp] theorem wx_nextNo (s : State) (n : Fin 32) (v : Word) : (s.wx n v).nextNo = s.nextNo := rfl
@[simp] theorem wx_split (s : State) (n : Fin 32) (v : Word) : (s.wx n v).split = s.split := rfl
@[simp] theorem wx_heldHit (s : State) (n : Fin 32) (v : Word) : (s.wx n v).heldHit = s.heldHit := rfl
@[simp] theorem wx_portOne (s : State) (n : Fin 32) (v : Word) : (s.wx n v).portOne = s.portOne := rfl
@[simp] theorem wx_jobSeen (s : State) (n : Fin 32) (v : Word) : (s.wx n v).jobSeen = s.jobSeen := rfl
@[simp] theorem wx_known (s : State) (n : Fin 32) (v : Word) : (s.wx n v).known = s.known := rfl
@[simp] theorem wx_dropped (s : State) (n : Fin 32) (v : Word) : (s.wx n v).dropped = s.dropped := rfl
@[simp] theorem wx_ptx (s : State) (n : Fin 32) (v : Word) : (s.wx n v).ptx = s.ptx := rfl
@[simp] theorem wx_prx (s : State) (n : Fin 32) (v : Word) : (s.wx n v).prx = s.prx := rfl
@[simp] theorem wx_links (s : State) (n : Fin 32) (v : Word) : (s.wx n v).links = s.links := rfl
@[simp] theorem wx_niWait (s : State) (n : Fin 32) (v : Word) : (s.wx n v).niWait = s.niWait := rfl
@[simp] theorem wx_uops (s : State) (n : Fin 32) (v : Word) : (s.wx n v).uops = s.uops := rfl
@[simp] theorem wx_stackOn (s : State) (n : Fin 32) (v : Word) : (s.wx n v).stackOn = s.stackOn := rfl
@[simp] theorem wx_ctlb (s : State) (n : Fin 32) (v : Word) : (s.wx n v).ctlb = s.ctlb := rfl
@[simp] theorem wx_wcache (s : State) (n : Fin 32) (v : Word) : (s.wx n v).wcache = s.wcache := rfl
@[simp] theorem wx_core_id (s : State) (n : Fin 32) (v : Word) : (s.wx n v).core.id = s.core.id := rfl
@[simp] theorem wx_core_cur (s : State) (n : Fin 32) (v : Word) : (s.wx n v).core.cur = s.core.cur := rfl
@[simp] theorem wx_core_v (s : State) (n : Fin 32) (v : Word) : (s.wx n v).core.v = s.core.v := rfl
@[simp] theorem wx_core_m (s : State) (n : Fin 32) (v : Word) : (s.wx n v).core.m = s.core.m := rfl
@[simp] theorem wx_core_g (s : State) (n : Fin 32) (v : Word) : (s.wx n v).core.g = s.core.g := rfl
@[simp] theorem wx_core_sp (s : State) (n : Fin 32) (v : Word) : (s.wx n v).core.sp = s.core.sp := rfl
@[simp] theorem wx_core_ie (s : State) (n : Fin 32) (v : Word) : (s.wx n v).core.ie = s.core.ie := rfl
@[simp] theorem wx_core_pie (s : State) (n : Fin 32) (v : Word) : (s.wx n v).core.pie = s.core.pie := rfl
@[simp] theorem wx_core_inh (s : State) (n : Fin 32) (v : Word) : (s.wx n v).core.inh = s.core.inh := rfl
@[simp] theorem wx_core_schk (s : State) (n : Fin 32) (v : Word) : (s.wx n v).core.schk = s.core.schk := rfl
@[simp] theorem wx_core_mm (s : State) (n : Fin 32) (v : Word) : (s.wx n v).core.mm = s.core.mm := rfl
@[simp] theorem wx_core_rmode (s : State) (n : Fin 32) (v : Word) : (s.wx n v).core.rmode = s.core.rmode := rfl
@[simp] theorem wx_core_tcause (s : State) (n : Fin 32) (v : Word) : (s.wx n v).core.tcause = s.core.tcause := rfl
@[simp] theorem wx_core_tval (s : State) (n : Fin 32) (v : Word) : (s.wx n v).core.tval = s.core.tval := rfl
@[simp] theorem wx_core_tpc (s : State) (n : Fin 32) (v : Word) : (s.wx n v).core.tpc = s.core.tpc := rfl
@[simp] theorem wx_core_tvec (s : State) (n : Fin 32) (v : Word) : (s.wx n v).core.tvec = s.core.tvec := rfl
@[simp] theorem wx_core_hs (s : State) (n : Fin 32) (v : Word) : (s.wx n v).core.hs = s.core.hs := rfl
@[simp] theorem wx_core_job (s : State) (n : Fin 32) (v : Word) : (s.wx n v).core.job = s.core.job := rfl
@[simp] theorem wx_core_run (s : State) (n : Fin 32) (v : Word) : (s.wx n v).core.run = s.core.run := rfl
@[simp] theorem wx_core_jobs (s : State) (n : Fin 32) (v : Word) : (s.wx n v).core.jobs = s.core.jobs := rfl
@[simp] theorem wx_core_ops (s : State) (n : Fin 32) (v : Word) : (s.wx n v).core.ops = s.core.ops := rfl
@[simp] theorem wx_core_mq (s : State) (n : Fin 32) (v : Word) : (s.wx n v).core.mq = s.core.mq := rfl
@[simp] theorem wx_core_oc (s : State) (n : Fin 32) (v : Word) : (s.wx n v).core.oc = s.core.oc := rfl
@[simp] theorem wx_core_tape (s : State) (n : Fin 32) (v : Word) : (s.wx n v).core.tape = s.core.tape := rfl
@[simp] theorem wx_core_stopped (s : State) (n : Fin 32) (v : Word) : (s.wx n v).core.stopped = s.core.stopped := rfl
@[simp] theorem wx_core_cyc (s : State) (n : Fin 32) (v : Word) : (s.wx n v).core.cyc = s.core.cyc := rfl
@[simp] theorem wx_core_l1 (s : State) (n : Fin 32) (v : Word) : (s.wx n v).core.l1 = s.core.l1 := rfl
@[simp] theorem wx_core_tlb (s : State) (n : Fin 32) (v : Word) : (s.wx n v).core.tlb = s.core.tlb := rfl
@[simp] theorem wx_core_ic (s : State) (n : Fin 32) (v : Word) : (s.wx n v).core.ic = s.core.ic := rfl
@[simp] theorem wx_core_srctr (s : State) (n : Fin 32) (v : Word) : (s.wx n v).core.srctr = s.core.srctr := rfl
@[simp] theorem wx_core_binds (s : State) (n : Fin 32) (v : Word) : (s.wx n v).core.binds = s.core.binds := rfl
@[simp] theorem wx_core_ends (s : State) (n : Fin 32) (v : Word) : (s.wx n v).core.ends = s.core.ends := rfl
@[simp] theorem wx_core_held (s : State) (n : Fin 32) (v : Word) : (s.wx n v).core.held = s.core.held := rfl
@[simp] theorem wx_core_sent (s : State) (n : Fin 32) (v : Word) : (s.wx n v).core.sent = s.core.sent := rfl
@[simp] theorem wx_core_barw (s : State) (n : Fin 32) (v : Word) : (s.wx n v).core.barw = s.core.barw := rfl
@[simp] theorem wx_core_poisoned (s : State) (n : Fin 32) (v : Word) : (s.wx n v).core.poisoned = s.core.poisoned := rfl
@[simp] theorem wx_core_mfvalid (s : State) (n : Fin 32) (v : Word) : (s.wx n v).core.mfvalid = s.core.mfvalid := rfl
@[simp] theorem wx_core_stopReq (s : State) (n : Fin 32) (v : Word) : (s.wx n v).core.stopReq = s.core.stopReq := rfl

@[simp] theorem wo_mem (s : State) (n : Fin 8) (v : Word) : (s.wo n v).mem = s.mem := rfl
@[simp] theorem wo_tags (s : State) (n : Fin 8) (v : Word) : (s.wo n v).tags = s.tags := rfl
@[simp] theorem wo_bad (s : State) (n : Fin 8) (v : Word) : (s.wo n v).bad = s.bad := rfl
@[simp] theorem wo_others (s : State) (n : Fin 8) (v : Word) : (s.wo n v).others = s.others := rfl
@[simp] theorem wo_jobs (s : State) (n : Fin 8) (v : Word) : (s.wo n v).jobs = s.jobs := rfl
@[simp] theorem wo_levels (s : State) (n : Fin 8) (v : Word) : (s.wo n v).levels = s.levels := rfl
@[simp] theorem wo_hutches (s : State) (n : Fin 8) (v : Word) : (s.wo n v).hutches = s.hutches := rfl
@[simp] theorem wo_joins (s : State) (n : Fin 8) (v : Word) : (s.wo n v).joins = s.joins := rfl
@[simp] theorem wo_net (s : State) (n : Fin 8) (v : Word) : (s.wo n v).net = s.net := rfl
@[simp] theorem wo_commits (s : State) (n : Fin 8) (v : Word) : (s.wo n v).commits = s.commits := rfl
@[simp] theorem wo_groups (s : State) (n : Fin 8) (v : Word) : (s.wo n v).groups = s.groups := rfl
@[simp] theorem wo_recents (s : State) (n : Fin 8) (v : Word) : (s.wo n v).recents = s.recents := rfl
@[simp] theorem wo_freeN (s : State) (n : Fin 8) (v : Word) : (s.wo n v).freeN = s.freeN := rfl
@[simp] theorem wo_agenda (s : State) (n : Fin 8) (v : Word) : (s.wo n v).agenda = s.agenda := rfl
@[simp] theorem wo_time (s : State) (n : Fin 8) (v : Word) : (s.wo n v).time = s.time := rfl
@[simp] theorem wo_l2 (s : State) (n : Fin 8) (v : Word) : (s.wo n v).l2 = s.l2 := rfl
@[simp] theorem wo_nextNo (s : State) (n : Fin 8) (v : Word) : (s.wo n v).nextNo = s.nextNo := rfl
@[simp] theorem wo_split (s : State) (n : Fin 8) (v : Word) : (s.wo n v).split = s.split := rfl
@[simp] theorem wo_heldHit (s : State) (n : Fin 8) (v : Word) : (s.wo n v).heldHit = s.heldHit := rfl
@[simp] theorem wo_portOne (s : State) (n : Fin 8) (v : Word) : (s.wo n v).portOne = s.portOne := rfl
@[simp] theorem wo_jobSeen (s : State) (n : Fin 8) (v : Word) : (s.wo n v).jobSeen = s.jobSeen := rfl
@[simp] theorem wo_known (s : State) (n : Fin 8) (v : Word) : (s.wo n v).known = s.known := rfl
@[simp] theorem wo_dropped (s : State) (n : Fin 8) (v : Word) : (s.wo n v).dropped = s.dropped := rfl
@[simp] theorem wo_ptx (s : State) (n : Fin 8) (v : Word) : (s.wo n v).ptx = s.ptx := rfl
@[simp] theorem wo_prx (s : State) (n : Fin 8) (v : Word) : (s.wo n v).prx = s.prx := rfl
@[simp] theorem wo_links (s : State) (n : Fin 8) (v : Word) : (s.wo n v).links = s.links := rfl
@[simp] theorem wo_niWait (s : State) (n : Fin 8) (v : Word) : (s.wo n v).niWait = s.niWait := rfl
@[simp] theorem wo_uops (s : State) (n : Fin 8) (v : Word) : (s.wo n v).uops = s.uops := rfl
@[simp] theorem wo_stackOn (s : State) (n : Fin 8) (v : Word) : (s.wo n v).stackOn = s.stackOn := rfl
@[simp] theorem wo_ctlb (s : State) (n : Fin 8) (v : Word) : (s.wo n v).ctlb = s.ctlb := rfl
@[simp] theorem wo_wcache (s : State) (n : Fin 8) (v : Word) : (s.wo n v).wcache = s.wcache := rfl
@[simp] theorem wo_core_id (s : State) (n : Fin 8) (v : Word) : (s.wo n v).core.id = s.core.id := rfl
@[simp] theorem wo_core_cur (s : State) (n : Fin 8) (v : Word) : (s.wo n v).core.cur = s.core.cur := rfl
@[simp] theorem wo_core_v (s : State) (n : Fin 8) (v : Word) : (s.wo n v).core.v = s.core.v := rfl
@[simp] theorem wo_core_m (s : State) (n : Fin 8) (v : Word) : (s.wo n v).core.m = s.core.m := rfl
@[simp] theorem wo_core_g (s : State) (n : Fin 8) (v : Word) : (s.wo n v).core.g = s.core.g := rfl
@[simp] theorem wo_core_sp (s : State) (n : Fin 8) (v : Word) : (s.wo n v).core.sp = s.core.sp := rfl
@[simp] theorem wo_core_ie (s : State) (n : Fin 8) (v : Word) : (s.wo n v).core.ie = s.core.ie := rfl
@[simp] theorem wo_core_pie (s : State) (n : Fin 8) (v : Word) : (s.wo n v).core.pie = s.core.pie := rfl
@[simp] theorem wo_core_inh (s : State) (n : Fin 8) (v : Word) : (s.wo n v).core.inh = s.core.inh := rfl
@[simp] theorem wo_core_schk (s : State) (n : Fin 8) (v : Word) : (s.wo n v).core.schk = s.core.schk := rfl
@[simp] theorem wo_core_mm (s : State) (n : Fin 8) (v : Word) : (s.wo n v).core.mm = s.core.mm := rfl
@[simp] theorem wo_core_rmode (s : State) (n : Fin 8) (v : Word) : (s.wo n v).core.rmode = s.core.rmode := rfl
@[simp] theorem wo_core_tcause (s : State) (n : Fin 8) (v : Word) : (s.wo n v).core.tcause = s.core.tcause := rfl
@[simp] theorem wo_core_tval (s : State) (n : Fin 8) (v : Word) : (s.wo n v).core.tval = s.core.tval := rfl
@[simp] theorem wo_core_tpc (s : State) (n : Fin 8) (v : Word) : (s.wo n v).core.tpc = s.core.tpc := rfl
@[simp] theorem wo_core_tvec (s : State) (n : Fin 8) (v : Word) : (s.wo n v).core.tvec = s.core.tvec := rfl
@[simp] theorem wo_core_hs (s : State) (n : Fin 8) (v : Word) : (s.wo n v).core.hs = s.core.hs := rfl
@[simp] theorem wo_core_job (s : State) (n : Fin 8) (v : Word) : (s.wo n v).core.job = s.core.job := rfl
@[simp] theorem wo_core_run (s : State) (n : Fin 8) (v : Word) : (s.wo n v).core.run = s.core.run := rfl
@[simp] theorem wo_core_jobs (s : State) (n : Fin 8) (v : Word) : (s.wo n v).core.jobs = s.core.jobs := rfl
@[simp] theorem wo_core_ops (s : State) (n : Fin 8) (v : Word) : (s.wo n v).core.ops = s.core.ops := rfl
@[simp] theorem wo_core_mq (s : State) (n : Fin 8) (v : Word) : (s.wo n v).core.mq = s.core.mq := rfl
@[simp] theorem wo_core_oc (s : State) (n : Fin 8) (v : Word) : (s.wo n v).core.oc = s.core.oc := rfl
@[simp] theorem wo_core_tape (s : State) (n : Fin 8) (v : Word) : (s.wo n v).core.tape = s.core.tape := rfl
@[simp] theorem wo_core_stopped (s : State) (n : Fin 8) (v : Word) : (s.wo n v).core.stopped = s.core.stopped := rfl
@[simp] theorem wo_core_cyc (s : State) (n : Fin 8) (v : Word) : (s.wo n v).core.cyc = s.core.cyc := rfl
@[simp] theorem wo_core_l1 (s : State) (n : Fin 8) (v : Word) : (s.wo n v).core.l1 = s.core.l1 := rfl
@[simp] theorem wo_core_tlb (s : State) (n : Fin 8) (v : Word) : (s.wo n v).core.tlb = s.core.tlb := rfl
@[simp] theorem wo_core_ic (s : State) (n : Fin 8) (v : Word) : (s.wo n v).core.ic = s.core.ic := rfl
@[simp] theorem wo_core_srctr (s : State) (n : Fin 8) (v : Word) : (s.wo n v).core.srctr = s.core.srctr := rfl
@[simp] theorem wo_core_binds (s : State) (n : Fin 8) (v : Word) : (s.wo n v).core.binds = s.core.binds := rfl
@[simp] theorem wo_core_ends (s : State) (n : Fin 8) (v : Word) : (s.wo n v).core.ends = s.core.ends := rfl
@[simp] theorem wo_core_held (s : State) (n : Fin 8) (v : Word) : (s.wo n v).core.held = s.core.held := rfl
@[simp] theorem wo_core_sent (s : State) (n : Fin 8) (v : Word) : (s.wo n v).core.sent = s.core.sent := rfl
@[simp] theorem wo_core_barw (s : State) (n : Fin 8) (v : Word) : (s.wo n v).core.barw = s.core.barw := rfl
@[simp] theorem wo_core_poisoned (s : State) (n : Fin 8) (v : Word) : (s.wo n v).core.poisoned = s.core.poisoned := rfl
@[simp] theorem wo_core_mfvalid (s : State) (n : Fin 8) (v : Word) : (s.wo n v).core.mfvalid = s.core.mfvalid := rfl
@[simp] theorem wo_core_stopReq (s : State) (n : Fin 8) (v : Word) : (s.wo n v).core.stopReq = s.core.stopReq := rfl

@[simp] theorem wv_mem (s : State) (n : Fin 64) (v : VReg) : (s.wv n v).mem = s.mem := rfl
@[simp] theorem wv_tags (s : State) (n : Fin 64) (v : VReg) : (s.wv n v).tags = s.tags := rfl
@[simp] theorem wv_bad (s : State) (n : Fin 64) (v : VReg) : (s.wv n v).bad = s.bad := rfl
@[simp] theorem wv_others (s : State) (n : Fin 64) (v : VReg) : (s.wv n v).others = s.others := rfl
@[simp] theorem wv_jobs (s : State) (n : Fin 64) (v : VReg) : (s.wv n v).jobs = s.jobs := rfl
@[simp] theorem wv_levels (s : State) (n : Fin 64) (v : VReg) : (s.wv n v).levels = s.levels := rfl
@[simp] theorem wv_hutches (s : State) (n : Fin 64) (v : VReg) : (s.wv n v).hutches = s.hutches := rfl
@[simp] theorem wv_joins (s : State) (n : Fin 64) (v : VReg) : (s.wv n v).joins = s.joins := rfl
@[simp] theorem wv_net (s : State) (n : Fin 64) (v : VReg) : (s.wv n v).net = s.net := rfl
@[simp] theorem wv_commits (s : State) (n : Fin 64) (v : VReg) : (s.wv n v).commits = s.commits := rfl
@[simp] theorem wv_groups (s : State) (n : Fin 64) (v : VReg) : (s.wv n v).groups = s.groups := rfl
@[simp] theorem wv_recents (s : State) (n : Fin 64) (v : VReg) : (s.wv n v).recents = s.recents := rfl
@[simp] theorem wv_freeN (s : State) (n : Fin 64) (v : VReg) : (s.wv n v).freeN = s.freeN := rfl
@[simp] theorem wv_agenda (s : State) (n : Fin 64) (v : VReg) : (s.wv n v).agenda = s.agenda := rfl
@[simp] theorem wv_time (s : State) (n : Fin 64) (v : VReg) : (s.wv n v).time = s.time := rfl
@[simp] theorem wv_l2 (s : State) (n : Fin 64) (v : VReg) : (s.wv n v).l2 = s.l2 := rfl
@[simp] theorem wv_nextNo (s : State) (n : Fin 64) (v : VReg) : (s.wv n v).nextNo = s.nextNo := rfl
@[simp] theorem wv_split (s : State) (n : Fin 64) (v : VReg) : (s.wv n v).split = s.split := rfl
@[simp] theorem wv_heldHit (s : State) (n : Fin 64) (v : VReg) : (s.wv n v).heldHit = s.heldHit := rfl
@[simp] theorem wv_portOne (s : State) (n : Fin 64) (v : VReg) : (s.wv n v).portOne = s.portOne := rfl
@[simp] theorem wv_jobSeen (s : State) (n : Fin 64) (v : VReg) : (s.wv n v).jobSeen = s.jobSeen := rfl
@[simp] theorem wv_known (s : State) (n : Fin 64) (v : VReg) : (s.wv n v).known = s.known := rfl
@[simp] theorem wv_dropped (s : State) (n : Fin 64) (v : VReg) : (s.wv n v).dropped = s.dropped := rfl
@[simp] theorem wv_ptx (s : State) (n : Fin 64) (v : VReg) : (s.wv n v).ptx = s.ptx := rfl
@[simp] theorem wv_prx (s : State) (n : Fin 64) (v : VReg) : (s.wv n v).prx = s.prx := rfl
@[simp] theorem wv_links (s : State) (n : Fin 64) (v : VReg) : (s.wv n v).links = s.links := rfl
@[simp] theorem wv_niWait (s : State) (n : Fin 64) (v : VReg) : (s.wv n v).niWait = s.niWait := rfl
@[simp] theorem wv_uops (s : State) (n : Fin 64) (v : VReg) : (s.wv n v).uops = s.uops := rfl
@[simp] theorem wv_stackOn (s : State) (n : Fin 64) (v : VReg) : (s.wv n v).stackOn = s.stackOn := rfl
@[simp] theorem wv_ctlb (s : State) (n : Fin 64) (v : VReg) : (s.wv n v).ctlb = s.ctlb := rfl
@[simp] theorem wv_wcache (s : State) (n : Fin 64) (v : VReg) : (s.wv n v).wcache = s.wcache := rfl
@[simp] theorem wv_core_id (s : State) (n : Fin 64) (v : VReg) : (s.wv n v).core.id = s.core.id := rfl
@[simp] theorem wv_core_cur (s : State) (n : Fin 64) (v : VReg) : (s.wv n v).core.cur = s.core.cur := rfl
@[simp] theorem wv_core_m (s : State) (n : Fin 64) (v : VReg) : (s.wv n v).core.m = s.core.m := rfl
@[simp] theorem wv_core_g (s : State) (n : Fin 64) (v : VReg) : (s.wv n v).core.g = s.core.g := rfl
@[simp] theorem wv_core_sp (s : State) (n : Fin 64) (v : VReg) : (s.wv n v).core.sp = s.core.sp := rfl
@[simp] theorem wv_core_ie (s : State) (n : Fin 64) (v : VReg) : (s.wv n v).core.ie = s.core.ie := rfl
@[simp] theorem wv_core_pie (s : State) (n : Fin 64) (v : VReg) : (s.wv n v).core.pie = s.core.pie := rfl
@[simp] theorem wv_core_inh (s : State) (n : Fin 64) (v : VReg) : (s.wv n v).core.inh = s.core.inh := rfl
@[simp] theorem wv_core_schk (s : State) (n : Fin 64) (v : VReg) : (s.wv n v).core.schk = s.core.schk := rfl
@[simp] theorem wv_core_mm (s : State) (n : Fin 64) (v : VReg) : (s.wv n v).core.mm = s.core.mm := rfl
@[simp] theorem wv_core_rmode (s : State) (n : Fin 64) (v : VReg) : (s.wv n v).core.rmode = s.core.rmode := rfl
@[simp] theorem wv_core_tcause (s : State) (n : Fin 64) (v : VReg) : (s.wv n v).core.tcause = s.core.tcause := rfl
@[simp] theorem wv_core_tval (s : State) (n : Fin 64) (v : VReg) : (s.wv n v).core.tval = s.core.tval := rfl
@[simp] theorem wv_core_tpc (s : State) (n : Fin 64) (v : VReg) : (s.wv n v).core.tpc = s.core.tpc := rfl
@[simp] theorem wv_core_tvec (s : State) (n : Fin 64) (v : VReg) : (s.wv n v).core.tvec = s.core.tvec := rfl
@[simp] theorem wv_core_hs (s : State) (n : Fin 64) (v : VReg) : (s.wv n v).core.hs = s.core.hs := rfl
@[simp] theorem wv_core_job (s : State) (n : Fin 64) (v : VReg) : (s.wv n v).core.job = s.core.job := rfl
@[simp] theorem wv_core_run (s : State) (n : Fin 64) (v : VReg) : (s.wv n v).core.run = s.core.run := rfl
@[simp] theorem wv_core_jobs (s : State) (n : Fin 64) (v : VReg) : (s.wv n v).core.jobs = s.core.jobs := rfl
@[simp] theorem wv_core_ops (s : State) (n : Fin 64) (v : VReg) : (s.wv n v).core.ops = s.core.ops := rfl
@[simp] theorem wv_core_mq (s : State) (n : Fin 64) (v : VReg) : (s.wv n v).core.mq = s.core.mq := rfl
@[simp] theorem wv_core_oc (s : State) (n : Fin 64) (v : VReg) : (s.wv n v).core.oc = s.core.oc := rfl
@[simp] theorem wv_core_tape (s : State) (n : Fin 64) (v : VReg) : (s.wv n v).core.tape = s.core.tape := rfl
@[simp] theorem wv_core_stopped (s : State) (n : Fin 64) (v : VReg) : (s.wv n v).core.stopped = s.core.stopped := rfl
@[simp] theorem wv_core_cyc (s : State) (n : Fin 64) (v : VReg) : (s.wv n v).core.cyc = s.core.cyc := rfl
@[simp] theorem wv_core_l1 (s : State) (n : Fin 64) (v : VReg) : (s.wv n v).core.l1 = s.core.l1 := rfl
@[simp] theorem wv_core_tlb (s : State) (n : Fin 64) (v : VReg) : (s.wv n v).core.tlb = s.core.tlb := rfl
@[simp] theorem wv_core_ic (s : State) (n : Fin 64) (v : VReg) : (s.wv n v).core.ic = s.core.ic := rfl
@[simp] theorem wv_core_srctr (s : State) (n : Fin 64) (v : VReg) : (s.wv n v).core.srctr = s.core.srctr := rfl
@[simp] theorem wv_core_binds (s : State) (n : Fin 64) (v : VReg) : (s.wv n v).core.binds = s.core.binds := rfl
@[simp] theorem wv_core_ends (s : State) (n : Fin 64) (v : VReg) : (s.wv n v).core.ends = s.core.ends := rfl
@[simp] theorem wv_core_held (s : State) (n : Fin 64) (v : VReg) : (s.wv n v).core.held = s.core.held := rfl
@[simp] theorem wv_core_sent (s : State) (n : Fin 64) (v : VReg) : (s.wv n v).core.sent = s.core.sent := rfl
@[simp] theorem wv_core_barw (s : State) (n : Fin 64) (v : VReg) : (s.wv n v).core.barw = s.core.barw := rfl
@[simp] theorem wv_core_poisoned (s : State) (n : Fin 64) (v : VReg) : (s.wv n v).core.poisoned = s.core.poisoned := rfl
@[simp] theorem wv_core_mfvalid (s : State) (n : Fin 64) (v : VReg) : (s.wv n v).core.mfvalid = s.core.mfvalid := rfl
@[simp] theorem wv_core_stopReq (s : State) (n : Fin 64) (v : VReg) : (s.wv n v).core.stopReq = s.core.stopReq := rfl

@[simp] theorem wm_mem (s : State) (n : Fin 8) (v : BitVec 32) : (s.wm n v).mem = s.mem := by unfold State.wm; split <;> rfl
@[simp] theorem wm_tags (s : State) (n : Fin 8) (v : BitVec 32) : (s.wm n v).tags = s.tags := by unfold State.wm; split <;> rfl
@[simp] theorem wm_bad (s : State) (n : Fin 8) (v : BitVec 32) : (s.wm n v).bad = s.bad := by unfold State.wm; split <;> rfl
@[simp] theorem wm_others (s : State) (n : Fin 8) (v : BitVec 32) : (s.wm n v).others = s.others := by unfold State.wm; split <;> rfl
@[simp] theorem wm_jobs (s : State) (n : Fin 8) (v : BitVec 32) : (s.wm n v).jobs = s.jobs := by unfold State.wm; split <;> rfl
@[simp] theorem wm_levels (s : State) (n : Fin 8) (v : BitVec 32) : (s.wm n v).levels = s.levels := by unfold State.wm; split <;> rfl
@[simp] theorem wm_hutches (s : State) (n : Fin 8) (v : BitVec 32) : (s.wm n v).hutches = s.hutches := by unfold State.wm; split <;> rfl
@[simp] theorem wm_joins (s : State) (n : Fin 8) (v : BitVec 32) : (s.wm n v).joins = s.joins := by unfold State.wm; split <;> rfl
@[simp] theorem wm_net (s : State) (n : Fin 8) (v : BitVec 32) : (s.wm n v).net = s.net := by unfold State.wm; split <;> rfl
@[simp] theorem wm_commits (s : State) (n : Fin 8) (v : BitVec 32) : (s.wm n v).commits = s.commits := by unfold State.wm; split <;> rfl
@[simp] theorem wm_groups (s : State) (n : Fin 8) (v : BitVec 32) : (s.wm n v).groups = s.groups := by unfold State.wm; split <;> rfl
@[simp] theorem wm_recents (s : State) (n : Fin 8) (v : BitVec 32) : (s.wm n v).recents = s.recents := by unfold State.wm; split <;> rfl
@[simp] theorem wm_freeN (s : State) (n : Fin 8) (v : BitVec 32) : (s.wm n v).freeN = s.freeN := by unfold State.wm; split <;> rfl
@[simp] theorem wm_agenda (s : State) (n : Fin 8) (v : BitVec 32) : (s.wm n v).agenda = s.agenda := by unfold State.wm; split <;> rfl
@[simp] theorem wm_time (s : State) (n : Fin 8) (v : BitVec 32) : (s.wm n v).time = s.time := by unfold State.wm; split <;> rfl
@[simp] theorem wm_l2 (s : State) (n : Fin 8) (v : BitVec 32) : (s.wm n v).l2 = s.l2 := by unfold State.wm; split <;> rfl
@[simp] theorem wm_nextNo (s : State) (n : Fin 8) (v : BitVec 32) : (s.wm n v).nextNo = s.nextNo := by unfold State.wm; split <;> rfl
@[simp] theorem wm_split (s : State) (n : Fin 8) (v : BitVec 32) : (s.wm n v).split = s.split := by unfold State.wm; split <;> rfl
@[simp] theorem wm_heldHit (s : State) (n : Fin 8) (v : BitVec 32) : (s.wm n v).heldHit = s.heldHit := by unfold State.wm; split <;> rfl
@[simp] theorem wm_portOne (s : State) (n : Fin 8) (v : BitVec 32) : (s.wm n v).portOne = s.portOne := by unfold State.wm; split <;> rfl
@[simp] theorem wm_jobSeen (s : State) (n : Fin 8) (v : BitVec 32) : (s.wm n v).jobSeen = s.jobSeen := by unfold State.wm; split <;> rfl
@[simp] theorem wm_known (s : State) (n : Fin 8) (v : BitVec 32) : (s.wm n v).known = s.known := by unfold State.wm; split <;> rfl
@[simp] theorem wm_dropped (s : State) (n : Fin 8) (v : BitVec 32) : (s.wm n v).dropped = s.dropped := by unfold State.wm; split <;> rfl
@[simp] theorem wm_ptx (s : State) (n : Fin 8) (v : BitVec 32) : (s.wm n v).ptx = s.ptx := by unfold State.wm; split <;> rfl
@[simp] theorem wm_prx (s : State) (n : Fin 8) (v : BitVec 32) : (s.wm n v).prx = s.prx := by unfold State.wm; split <;> rfl
@[simp] theorem wm_links (s : State) (n : Fin 8) (v : BitVec 32) : (s.wm n v).links = s.links := by unfold State.wm; split <;> rfl
@[simp] theorem wm_niWait (s : State) (n : Fin 8) (v : BitVec 32) : (s.wm n v).niWait = s.niWait := by unfold State.wm; split <;> rfl
@[simp] theorem wm_uops (s : State) (n : Fin 8) (v : BitVec 32) : (s.wm n v).uops = s.uops := by unfold State.wm; split <;> rfl
@[simp] theorem wm_stackOn (s : State) (n : Fin 8) (v : BitVec 32) : (s.wm n v).stackOn = s.stackOn := by unfold State.wm; split <;> rfl
@[simp] theorem wm_ctlb (s : State) (n : Fin 8) (v : BitVec 32) : (s.wm n v).ctlb = s.ctlb := by unfold State.wm; split <;> rfl
@[simp] theorem wm_wcache (s : State) (n : Fin 8) (v : BitVec 32) : (s.wm n v).wcache = s.wcache := by unfold State.wm; split <;> rfl
@[simp] theorem wm_core_id (s : State) (n : Fin 8) (v : BitVec 32) : (s.wm n v).core.id = s.core.id := by unfold State.wm; split <;> rfl
@[simp] theorem wm_core_cur (s : State) (n : Fin 8) (v : BitVec 32) : (s.wm n v).core.cur = s.core.cur := by unfold State.wm; split <;> rfl
@[simp] theorem wm_core_v (s : State) (n : Fin 8) (v : BitVec 32) : (s.wm n v).core.v = s.core.v := by unfold State.wm; split <;> rfl
@[simp] theorem wm_core_g (s : State) (n : Fin 8) (v : BitVec 32) : (s.wm n v).core.g = s.core.g := by unfold State.wm; split <;> rfl
@[simp] theorem wm_core_sp (s : State) (n : Fin 8) (v : BitVec 32) : (s.wm n v).core.sp = s.core.sp := by unfold State.wm; split <;> rfl
@[simp] theorem wm_core_ie (s : State) (n : Fin 8) (v : BitVec 32) : (s.wm n v).core.ie = s.core.ie := by unfold State.wm; split <;> rfl
@[simp] theorem wm_core_pie (s : State) (n : Fin 8) (v : BitVec 32) : (s.wm n v).core.pie = s.core.pie := by unfold State.wm; split <;> rfl
@[simp] theorem wm_core_inh (s : State) (n : Fin 8) (v : BitVec 32) : (s.wm n v).core.inh = s.core.inh := by unfold State.wm; split <;> rfl
@[simp] theorem wm_core_schk (s : State) (n : Fin 8) (v : BitVec 32) : (s.wm n v).core.schk = s.core.schk := by unfold State.wm; split <;> rfl
@[simp] theorem wm_core_mm (s : State) (n : Fin 8) (v : BitVec 32) : (s.wm n v).core.mm = s.core.mm := by unfold State.wm; split <;> rfl
@[simp] theorem wm_core_rmode (s : State) (n : Fin 8) (v : BitVec 32) : (s.wm n v).core.rmode = s.core.rmode := by unfold State.wm; split <;> rfl
@[simp] theorem wm_core_tcause (s : State) (n : Fin 8) (v : BitVec 32) : (s.wm n v).core.tcause = s.core.tcause := by unfold State.wm; split <;> rfl
@[simp] theorem wm_core_tval (s : State) (n : Fin 8) (v : BitVec 32) : (s.wm n v).core.tval = s.core.tval := by unfold State.wm; split <;> rfl
@[simp] theorem wm_core_tpc (s : State) (n : Fin 8) (v : BitVec 32) : (s.wm n v).core.tpc = s.core.tpc := by unfold State.wm; split <;> rfl
@[simp] theorem wm_core_tvec (s : State) (n : Fin 8) (v : BitVec 32) : (s.wm n v).core.tvec = s.core.tvec := by unfold State.wm; split <;> rfl
@[simp] theorem wm_core_hs (s : State) (n : Fin 8) (v : BitVec 32) : (s.wm n v).core.hs = s.core.hs := by unfold State.wm; split <;> rfl
@[simp] theorem wm_core_job (s : State) (n : Fin 8) (v : BitVec 32) : (s.wm n v).core.job = s.core.job := by unfold State.wm; split <;> rfl
@[simp] theorem wm_core_run (s : State) (n : Fin 8) (v : BitVec 32) : (s.wm n v).core.run = s.core.run := by unfold State.wm; split <;> rfl
@[simp] theorem wm_core_jobs (s : State) (n : Fin 8) (v : BitVec 32) : (s.wm n v).core.jobs = s.core.jobs := by unfold State.wm; split <;> rfl
@[simp] theorem wm_core_ops (s : State) (n : Fin 8) (v : BitVec 32) : (s.wm n v).core.ops = s.core.ops := by unfold State.wm; split <;> rfl
@[simp] theorem wm_core_mq (s : State) (n : Fin 8) (v : BitVec 32) : (s.wm n v).core.mq = s.core.mq := by unfold State.wm; split <;> rfl
@[simp] theorem wm_core_oc (s : State) (n : Fin 8) (v : BitVec 32) : (s.wm n v).core.oc = s.core.oc := by unfold State.wm; split <;> rfl
@[simp] theorem wm_core_tape (s : State) (n : Fin 8) (v : BitVec 32) : (s.wm n v).core.tape = s.core.tape := by unfold State.wm; split <;> rfl
@[simp] theorem wm_core_stopped (s : State) (n : Fin 8) (v : BitVec 32) : (s.wm n v).core.stopped = s.core.stopped := by unfold State.wm; split <;> rfl
@[simp] theorem wm_core_cyc (s : State) (n : Fin 8) (v : BitVec 32) : (s.wm n v).core.cyc = s.core.cyc := by unfold State.wm; split <;> rfl
@[simp] theorem wm_core_l1 (s : State) (n : Fin 8) (v : BitVec 32) : (s.wm n v).core.l1 = s.core.l1 := by unfold State.wm; split <;> rfl
@[simp] theorem wm_core_tlb (s : State) (n : Fin 8) (v : BitVec 32) : (s.wm n v).core.tlb = s.core.tlb := by unfold State.wm; split <;> rfl
@[simp] theorem wm_core_ic (s : State) (n : Fin 8) (v : BitVec 32) : (s.wm n v).core.ic = s.core.ic := by unfold State.wm; split <;> rfl
@[simp] theorem wm_core_srctr (s : State) (n : Fin 8) (v : BitVec 32) : (s.wm n v).core.srctr = s.core.srctr := by unfold State.wm; split <;> rfl
@[simp] theorem wm_core_binds (s : State) (n : Fin 8) (v : BitVec 32) : (s.wm n v).core.binds = s.core.binds := by unfold State.wm; split <;> rfl
@[simp] theorem wm_core_ends (s : State) (n : Fin 8) (v : BitVec 32) : (s.wm n v).core.ends = s.core.ends := by unfold State.wm; split <;> rfl
@[simp] theorem wm_core_held (s : State) (n : Fin 8) (v : BitVec 32) : (s.wm n v).core.held = s.core.held := by unfold State.wm; split <;> rfl
@[simp] theorem wm_core_sent (s : State) (n : Fin 8) (v : BitVec 32) : (s.wm n v).core.sent = s.core.sent := by unfold State.wm; split <;> rfl
@[simp] theorem wm_core_barw (s : State) (n : Fin 8) (v : BitVec 32) : (s.wm n v).core.barw = s.core.barw := by unfold State.wm; split <;> rfl
@[simp] theorem wm_core_poisoned (s : State) (n : Fin 8) (v : BitVec 32) : (s.wm n v).core.poisoned = s.core.poisoned := by unfold State.wm; split <;> rfl
@[simp] theorem wm_core_mfvalid (s : State) (n : Fin 8) (v : BitVec 32) : (s.wm n v).core.mfvalid = s.core.mfvalid := by unfold State.wm; split <;> rfl
@[simp] theorem wm_core_stopReq (s : State) (n : Fin 8) (v : BitVec 32) : (s.wm n v).core.stopReq = s.core.stopReq := by unfold State.wm; split <;> rfl

@[simp] theorem wg_mem (s : State) (n : Fin 16) (v : Bool) : (s.wg n v).mem = s.mem := by unfold State.wg; split <;> rfl
@[simp] theorem wg_tags (s : State) (n : Fin 16) (v : Bool) : (s.wg n v).tags = s.tags := by unfold State.wg; split <;> rfl
@[simp] theorem wg_bad (s : State) (n : Fin 16) (v : Bool) : (s.wg n v).bad = s.bad := by unfold State.wg; split <;> rfl
@[simp] theorem wg_others (s : State) (n : Fin 16) (v : Bool) : (s.wg n v).others = s.others := by unfold State.wg; split <;> rfl
@[simp] theorem wg_jobs (s : State) (n : Fin 16) (v : Bool) : (s.wg n v).jobs = s.jobs := by unfold State.wg; split <;> rfl
@[simp] theorem wg_levels (s : State) (n : Fin 16) (v : Bool) : (s.wg n v).levels = s.levels := by unfold State.wg; split <;> rfl
@[simp] theorem wg_hutches (s : State) (n : Fin 16) (v : Bool) : (s.wg n v).hutches = s.hutches := by unfold State.wg; split <;> rfl
@[simp] theorem wg_joins (s : State) (n : Fin 16) (v : Bool) : (s.wg n v).joins = s.joins := by unfold State.wg; split <;> rfl
@[simp] theorem wg_net (s : State) (n : Fin 16) (v : Bool) : (s.wg n v).net = s.net := by unfold State.wg; split <;> rfl
@[simp] theorem wg_commits (s : State) (n : Fin 16) (v : Bool) : (s.wg n v).commits = s.commits := by unfold State.wg; split <;> rfl
@[simp] theorem wg_groups (s : State) (n : Fin 16) (v : Bool) : (s.wg n v).groups = s.groups := by unfold State.wg; split <;> rfl
@[simp] theorem wg_recents (s : State) (n : Fin 16) (v : Bool) : (s.wg n v).recents = s.recents := by unfold State.wg; split <;> rfl
@[simp] theorem wg_freeN (s : State) (n : Fin 16) (v : Bool) : (s.wg n v).freeN = s.freeN := by unfold State.wg; split <;> rfl
@[simp] theorem wg_agenda (s : State) (n : Fin 16) (v : Bool) : (s.wg n v).agenda = s.agenda := by unfold State.wg; split <;> rfl
@[simp] theorem wg_time (s : State) (n : Fin 16) (v : Bool) : (s.wg n v).time = s.time := by unfold State.wg; split <;> rfl
@[simp] theorem wg_l2 (s : State) (n : Fin 16) (v : Bool) : (s.wg n v).l2 = s.l2 := by unfold State.wg; split <;> rfl
@[simp] theorem wg_nextNo (s : State) (n : Fin 16) (v : Bool) : (s.wg n v).nextNo = s.nextNo := by unfold State.wg; split <;> rfl
@[simp] theorem wg_split (s : State) (n : Fin 16) (v : Bool) : (s.wg n v).split = s.split := by unfold State.wg; split <;> rfl
@[simp] theorem wg_heldHit (s : State) (n : Fin 16) (v : Bool) : (s.wg n v).heldHit = s.heldHit := by unfold State.wg; split <;> rfl
@[simp] theorem wg_portOne (s : State) (n : Fin 16) (v : Bool) : (s.wg n v).portOne = s.portOne := by unfold State.wg; split <;> rfl
@[simp] theorem wg_jobSeen (s : State) (n : Fin 16) (v : Bool) : (s.wg n v).jobSeen = s.jobSeen := by unfold State.wg; split <;> rfl
@[simp] theorem wg_known (s : State) (n : Fin 16) (v : Bool) : (s.wg n v).known = s.known := by unfold State.wg; split <;> rfl
@[simp] theorem wg_dropped (s : State) (n : Fin 16) (v : Bool) : (s.wg n v).dropped = s.dropped := by unfold State.wg; split <;> rfl
@[simp] theorem wg_ptx (s : State) (n : Fin 16) (v : Bool) : (s.wg n v).ptx = s.ptx := by unfold State.wg; split <;> rfl
@[simp] theorem wg_prx (s : State) (n : Fin 16) (v : Bool) : (s.wg n v).prx = s.prx := by unfold State.wg; split <;> rfl
@[simp] theorem wg_links (s : State) (n : Fin 16) (v : Bool) : (s.wg n v).links = s.links := by unfold State.wg; split <;> rfl
@[simp] theorem wg_niWait (s : State) (n : Fin 16) (v : Bool) : (s.wg n v).niWait = s.niWait := by unfold State.wg; split <;> rfl
@[simp] theorem wg_uops (s : State) (n : Fin 16) (v : Bool) : (s.wg n v).uops = s.uops := by unfold State.wg; split <;> rfl
@[simp] theorem wg_stackOn (s : State) (n : Fin 16) (v : Bool) : (s.wg n v).stackOn = s.stackOn := by unfold State.wg; split <;> rfl
@[simp] theorem wg_ctlb (s : State) (n : Fin 16) (v : Bool) : (s.wg n v).ctlb = s.ctlb := by unfold State.wg; split <;> rfl
@[simp] theorem wg_wcache (s : State) (n : Fin 16) (v : Bool) : (s.wg n v).wcache = s.wcache := by unfold State.wg; split <;> rfl
@[simp] theorem wg_core_id (s : State) (n : Fin 16) (v : Bool) : (s.wg n v).core.id = s.core.id := by unfold State.wg; split <;> rfl
@[simp] theorem wg_core_cur (s : State) (n : Fin 16) (v : Bool) : (s.wg n v).core.cur = s.core.cur := by unfold State.wg; split <;> rfl
@[simp] theorem wg_core_v (s : State) (n : Fin 16) (v : Bool) : (s.wg n v).core.v = s.core.v := by unfold State.wg; split <;> rfl
@[simp] theorem wg_core_m (s : State) (n : Fin 16) (v : Bool) : (s.wg n v).core.m = s.core.m := by unfold State.wg; split <;> rfl
@[simp] theorem wg_core_sp (s : State) (n : Fin 16) (v : Bool) : (s.wg n v).core.sp = s.core.sp := by unfold State.wg; split <;> rfl
@[simp] theorem wg_core_ie (s : State) (n : Fin 16) (v : Bool) : (s.wg n v).core.ie = s.core.ie := by unfold State.wg; split <;> rfl
@[simp] theorem wg_core_pie (s : State) (n : Fin 16) (v : Bool) : (s.wg n v).core.pie = s.core.pie := by unfold State.wg; split <;> rfl
@[simp] theorem wg_core_inh (s : State) (n : Fin 16) (v : Bool) : (s.wg n v).core.inh = s.core.inh := by unfold State.wg; split <;> rfl
@[simp] theorem wg_core_schk (s : State) (n : Fin 16) (v : Bool) : (s.wg n v).core.schk = s.core.schk := by unfold State.wg; split <;> rfl
@[simp] theorem wg_core_mm (s : State) (n : Fin 16) (v : Bool) : (s.wg n v).core.mm = s.core.mm := by unfold State.wg; split <;> rfl
@[simp] theorem wg_core_rmode (s : State) (n : Fin 16) (v : Bool) : (s.wg n v).core.rmode = s.core.rmode := by unfold State.wg; split <;> rfl
@[simp] theorem wg_core_tcause (s : State) (n : Fin 16) (v : Bool) : (s.wg n v).core.tcause = s.core.tcause := by unfold State.wg; split <;> rfl
@[simp] theorem wg_core_tval (s : State) (n : Fin 16) (v : Bool) : (s.wg n v).core.tval = s.core.tval := by unfold State.wg; split <;> rfl
@[simp] theorem wg_core_tpc (s : State) (n : Fin 16) (v : Bool) : (s.wg n v).core.tpc = s.core.tpc := by unfold State.wg; split <;> rfl
@[simp] theorem wg_core_tvec (s : State) (n : Fin 16) (v : Bool) : (s.wg n v).core.tvec = s.core.tvec := by unfold State.wg; split <;> rfl
@[simp] theorem wg_core_hs (s : State) (n : Fin 16) (v : Bool) : (s.wg n v).core.hs = s.core.hs := by unfold State.wg; split <;> rfl
@[simp] theorem wg_core_job (s : State) (n : Fin 16) (v : Bool) : (s.wg n v).core.job = s.core.job := by unfold State.wg; split <;> rfl
@[simp] theorem wg_core_run (s : State) (n : Fin 16) (v : Bool) : (s.wg n v).core.run = s.core.run := by unfold State.wg; split <;> rfl
@[simp] theorem wg_core_jobs (s : State) (n : Fin 16) (v : Bool) : (s.wg n v).core.jobs = s.core.jobs := by unfold State.wg; split <;> rfl
@[simp] theorem wg_core_ops (s : State) (n : Fin 16) (v : Bool) : (s.wg n v).core.ops = s.core.ops := by unfold State.wg; split <;> rfl
@[simp] theorem wg_core_mq (s : State) (n : Fin 16) (v : Bool) : (s.wg n v).core.mq = s.core.mq := by unfold State.wg; split <;> rfl
@[simp] theorem wg_core_oc (s : State) (n : Fin 16) (v : Bool) : (s.wg n v).core.oc = s.core.oc := by unfold State.wg; split <;> rfl
@[simp] theorem wg_core_tape (s : State) (n : Fin 16) (v : Bool) : (s.wg n v).core.tape = s.core.tape := by unfold State.wg; split <;> rfl
@[simp] theorem wg_core_stopped (s : State) (n : Fin 16) (v : Bool) : (s.wg n v).core.stopped = s.core.stopped := by unfold State.wg; split <;> rfl
@[simp] theorem wg_core_cyc (s : State) (n : Fin 16) (v : Bool) : (s.wg n v).core.cyc = s.core.cyc := by unfold State.wg; split <;> rfl
@[simp] theorem wg_core_l1 (s : State) (n : Fin 16) (v : Bool) : (s.wg n v).core.l1 = s.core.l1 := by unfold State.wg; split <;> rfl
@[simp] theorem wg_core_tlb (s : State) (n : Fin 16) (v : Bool) : (s.wg n v).core.tlb = s.core.tlb := by unfold State.wg; split <;> rfl
@[simp] theorem wg_core_ic (s : State) (n : Fin 16) (v : Bool) : (s.wg n v).core.ic = s.core.ic := by unfold State.wg; split <;> rfl
@[simp] theorem wg_core_srctr (s : State) (n : Fin 16) (v : Bool) : (s.wg n v).core.srctr = s.core.srctr := by unfold State.wg; split <;> rfl
@[simp] theorem wg_core_binds (s : State) (n : Fin 16) (v : Bool) : (s.wg n v).core.binds = s.core.binds := by unfold State.wg; split <;> rfl
@[simp] theorem wg_core_ends (s : State) (n : Fin 16) (v : Bool) : (s.wg n v).core.ends = s.core.ends := by unfold State.wg; split <;> rfl
@[simp] theorem wg_core_held (s : State) (n : Fin 16) (v : Bool) : (s.wg n v).core.held = s.core.held := by unfold State.wg; split <;> rfl
@[simp] theorem wg_core_sent (s : State) (n : Fin 16) (v : Bool) : (s.wg n v).core.sent = s.core.sent := by unfold State.wg; split <;> rfl
@[simp] theorem wg_core_barw (s : State) (n : Fin 16) (v : Bool) : (s.wg n v).core.barw = s.core.barw := by unfold State.wg; split <;> rfl
@[simp] theorem wg_core_poisoned (s : State) (n : Fin 16) (v : Bool) : (s.wg n v).core.poisoned = s.core.poisoned := by unfold State.wg; split <;> rfl
@[simp] theorem wg_core_mfvalid (s : State) (n : Fin 16) (v : Bool) : (s.wg n v).core.mfvalid = s.core.mfvalid := by unfold State.wg; split <;> rfl
@[simp] theorem wg_core_stopReq (s : State) (n : Fin 16) (v : Bool) : (s.wg n v).core.stopReq = s.core.stopReq := by unfold State.wg; split <;> rfl

@[simp] theorem later_mem (s : State) (f : RegFile) (i : Nat) (v : VReg) (l : Nat) : (s.later f i v l).mem = s.mem := rfl
@[simp] theorem later_tags (s : State) (f : RegFile) (i : Nat) (v : VReg) (l : Nat) : (s.later f i v l).tags = s.tags := rfl
@[simp] theorem later_bad (s : State) (f : RegFile) (i : Nat) (v : VReg) (l : Nat) : (s.later f i v l).bad = s.bad := rfl
@[simp] theorem later_others (s : State) (f : RegFile) (i : Nat) (v : VReg) (l : Nat) : (s.later f i v l).others = s.others := rfl
@[simp] theorem later_jobs (s : State) (f : RegFile) (i : Nat) (v : VReg) (l : Nat) : (s.later f i v l).jobs = s.jobs := rfl
@[simp] theorem later_levels (s : State) (f : RegFile) (i : Nat) (v : VReg) (l : Nat) : (s.later f i v l).levels = s.levels := rfl
@[simp] theorem later_hutches (s : State) (f : RegFile) (i : Nat) (v : VReg) (l : Nat) : (s.later f i v l).hutches = s.hutches := rfl
@[simp] theorem later_joins (s : State) (f : RegFile) (i : Nat) (v : VReg) (l : Nat) : (s.later f i v l).joins = s.joins := rfl
@[simp] theorem later_net (s : State) (f : RegFile) (i : Nat) (v : VReg) (l : Nat) : (s.later f i v l).net = s.net := rfl
@[simp] theorem later_commits (s : State) (f : RegFile) (i : Nat) (v : VReg) (l : Nat) : (s.later f i v l).commits = s.commits := rfl
@[simp] theorem later_groups (s : State) (f : RegFile) (i : Nat) (v : VReg) (l : Nat) : (s.later f i v l).groups = s.groups := rfl
@[simp] theorem later_recents (s : State) (f : RegFile) (i : Nat) (v : VReg) (l : Nat) : (s.later f i v l).recents = s.recents := rfl
@[simp] theorem later_freeN (s : State) (f : RegFile) (i : Nat) (v : VReg) (l : Nat) : (s.later f i v l).freeN = s.freeN := rfl
@[simp] theorem later_agenda (s : State) (f : RegFile) (i : Nat) (v : VReg) (l : Nat) : (s.later f i v l).agenda = s.agenda := rfl
@[simp] theorem later_time (s : State) (f : RegFile) (i : Nat) (v : VReg) (l : Nat) : (s.later f i v l).time = s.time := rfl
@[simp] theorem later_l2 (s : State) (f : RegFile) (i : Nat) (v : VReg) (l : Nat) : (s.later f i v l).l2 = s.l2 := rfl
@[simp] theorem later_nextNo (s : State) (f : RegFile) (i : Nat) (v : VReg) (l : Nat) : (s.later f i v l).nextNo = s.nextNo := rfl
@[simp] theorem later_split (s : State) (f : RegFile) (i : Nat) (v : VReg) (l : Nat) : (s.later f i v l).split = s.split := rfl
@[simp] theorem later_heldHit (s : State) (f : RegFile) (i : Nat) (v : VReg) (l : Nat) : (s.later f i v l).heldHit = s.heldHit := rfl
@[simp] theorem later_portOne (s : State) (f : RegFile) (i : Nat) (v : VReg) (l : Nat) : (s.later f i v l).portOne = s.portOne := rfl
@[simp] theorem later_jobSeen (s : State) (f : RegFile) (i : Nat) (v : VReg) (l : Nat) : (s.later f i v l).jobSeen = s.jobSeen := rfl
@[simp] theorem later_known (s : State) (f : RegFile) (i : Nat) (v : VReg) (l : Nat) : (s.later f i v l).known = s.known := rfl
@[simp] theorem later_dropped (s : State) (f : RegFile) (i : Nat) (v : VReg) (l : Nat) : (s.later f i v l).dropped = s.dropped := rfl
@[simp] theorem later_ptx (s : State) (f : RegFile) (i : Nat) (v : VReg) (l : Nat) : (s.later f i v l).ptx = s.ptx := rfl
@[simp] theorem later_prx (s : State) (f : RegFile) (i : Nat) (v : VReg) (l : Nat) : (s.later f i v l).prx = s.prx := rfl
@[simp] theorem later_links (s : State) (f : RegFile) (i : Nat) (v : VReg) (l : Nat) : (s.later f i v l).links = s.links := rfl
@[simp] theorem later_niWait (s : State) (f : RegFile) (i : Nat) (v : VReg) (l : Nat) : (s.later f i v l).niWait = s.niWait := rfl
@[simp] theorem later_uops (s : State) (f : RegFile) (i : Nat) (v : VReg) (l : Nat) : (s.later f i v l).uops = s.uops := rfl
@[simp] theorem later_stackOn (s : State) (f : RegFile) (i : Nat) (v : VReg) (l : Nat) : (s.later f i v l).stackOn = s.stackOn := rfl
@[simp] theorem later_ctlb (s : State) (f : RegFile) (i : Nat) (v : VReg) (l : Nat) : (s.later f i v l).ctlb = s.ctlb := rfl
@[simp] theorem later_wcache (s : State) (f : RegFile) (i : Nat) (v : VReg) (l : Nat) : (s.later f i v l).wcache = s.wcache := rfl
@[simp] theorem later_core_id (s : State) (f : RegFile) (i : Nat) (v : VReg) (l : Nat) : (s.later f i v l).core.id = s.core.id := rfl
@[simp] theorem later_core_cur (s : State) (f : RegFile) (i : Nat) (v : VReg) (l : Nat) : (s.later f i v l).core.cur = s.core.cur := rfl
@[simp] theorem later_core_v (s : State) (f : RegFile) (i : Nat) (v : VReg) (l : Nat) : (s.later f i v l).core.v = s.core.v := rfl
@[simp] theorem later_core_m (s : State) (f : RegFile) (i : Nat) (v : VReg) (l : Nat) : (s.later f i v l).core.m = s.core.m := rfl
@[simp] theorem later_core_g (s : State) (f : RegFile) (i : Nat) (v : VReg) (l : Nat) : (s.later f i v l).core.g = s.core.g := rfl
@[simp] theorem later_core_sp (s : State) (f : RegFile) (i : Nat) (v : VReg) (l : Nat) : (s.later f i v l).core.sp = s.core.sp := rfl
@[simp] theorem later_core_ie (s : State) (f : RegFile) (i : Nat) (v : VReg) (l : Nat) : (s.later f i v l).core.ie = s.core.ie := rfl
@[simp] theorem later_core_pie (s : State) (f : RegFile) (i : Nat) (v : VReg) (l : Nat) : (s.later f i v l).core.pie = s.core.pie := rfl
@[simp] theorem later_core_inh (s : State) (f : RegFile) (i : Nat) (v : VReg) (l : Nat) : (s.later f i v l).core.inh = s.core.inh := rfl
@[simp] theorem later_core_schk (s : State) (f : RegFile) (i : Nat) (v : VReg) (l : Nat) : (s.later f i v l).core.schk = s.core.schk := rfl
@[simp] theorem later_core_mm (s : State) (f : RegFile) (i : Nat) (v : VReg) (l : Nat) : (s.later f i v l).core.mm = s.core.mm := rfl
@[simp] theorem later_core_rmode (s : State) (f : RegFile) (i : Nat) (v : VReg) (l : Nat) : (s.later f i v l).core.rmode = s.core.rmode := rfl
@[simp] theorem later_core_tcause (s : State) (f : RegFile) (i : Nat) (v : VReg) (l : Nat) : (s.later f i v l).core.tcause = s.core.tcause := rfl
@[simp] theorem later_core_tval (s : State) (f : RegFile) (i : Nat) (v : VReg) (l : Nat) : (s.later f i v l).core.tval = s.core.tval := rfl
@[simp] theorem later_core_tpc (s : State) (f : RegFile) (i : Nat) (v : VReg) (l : Nat) : (s.later f i v l).core.tpc = s.core.tpc := rfl
@[simp] theorem later_core_tvec (s : State) (f : RegFile) (i : Nat) (v : VReg) (l : Nat) : (s.later f i v l).core.tvec = s.core.tvec := rfl
@[simp] theorem later_core_hs (s : State) (f : RegFile) (i : Nat) (v : VReg) (l : Nat) : (s.later f i v l).core.hs = s.core.hs := rfl
@[simp] theorem later_core_job (s : State) (f : RegFile) (i : Nat) (v : VReg) (l : Nat) : (s.later f i v l).core.job = s.core.job := rfl
@[simp] theorem later_core_run (s : State) (f : RegFile) (i : Nat) (v : VReg) (l : Nat) : (s.later f i v l).core.run = s.core.run := rfl
@[simp] theorem later_core_jobs (s : State) (f : RegFile) (i : Nat) (v : VReg) (l : Nat) : (s.later f i v l).core.jobs = s.core.jobs := rfl
@[simp] theorem later_core_ops (s : State) (f : RegFile) (i : Nat) (v : VReg) (l : Nat) : (s.later f i v l).core.ops = s.core.ops := rfl
@[simp] theorem later_core_mq (s : State) (f : RegFile) (i : Nat) (v : VReg) (l : Nat) : (s.later f i v l).core.mq = s.core.mq := rfl
@[simp] theorem later_core_oc (s : State) (f : RegFile) (i : Nat) (v : VReg) (l : Nat) : (s.later f i v l).core.oc = s.core.oc := rfl
@[simp] theorem later_core_tape (s : State) (f : RegFile) (i : Nat) (v : VReg) (l : Nat) : (s.later f i v l).core.tape = s.core.tape := rfl
@[simp] theorem later_core_stopped (s : State) (f : RegFile) (i : Nat) (v : VReg) (l : Nat) : (s.later f i v l).core.stopped = s.core.stopped := rfl
@[simp] theorem later_core_cyc (s : State) (f : RegFile) (i : Nat) (v : VReg) (l : Nat) : (s.later f i v l).core.cyc = s.core.cyc := rfl
@[simp] theorem later_core_l1 (s : State) (f : RegFile) (i : Nat) (v : VReg) (l : Nat) : (s.later f i v l).core.l1 = s.core.l1 := rfl
@[simp] theorem later_core_tlb (s : State) (f : RegFile) (i : Nat) (v : VReg) (l : Nat) : (s.later f i v l).core.tlb = s.core.tlb := rfl
@[simp] theorem later_core_ic (s : State) (f : RegFile) (i : Nat) (v : VReg) (l : Nat) : (s.later f i v l).core.ic = s.core.ic := rfl
@[simp] theorem later_core_srctr (s : State) (f : RegFile) (i : Nat) (v : VReg) (l : Nat) : (s.later f i v l).core.srctr = s.core.srctr := rfl
@[simp] theorem later_core_binds (s : State) (f : RegFile) (i : Nat) (v : VReg) (l : Nat) : (s.later f i v l).core.binds = s.core.binds := rfl
@[simp] theorem later_core_ends (s : State) (f : RegFile) (i : Nat) (v : VReg) (l : Nat) : (s.later f i v l).core.ends = s.core.ends := rfl
@[simp] theorem later_core_held (s : State) (f : RegFile) (i : Nat) (v : VReg) (l : Nat) : (s.later f i v l).core.held = s.core.held := rfl
@[simp] theorem later_core_sent (s : State) (f : RegFile) (i : Nat) (v : VReg) (l : Nat) : (s.later f i v l).core.sent = s.core.sent := rfl
@[simp] theorem later_core_barw (s : State) (f : RegFile) (i : Nat) (v : VReg) (l : Nat) : (s.later f i v l).core.barw = s.core.barw := rfl
@[simp] theorem later_core_poisoned (s : State) (f : RegFile) (i : Nat) (v : VReg) (l : Nat) : (s.later f i v l).core.poisoned = s.core.poisoned := rfl
@[simp] theorem later_core_mfvalid (s : State) (f : RegFile) (i : Nat) (v : VReg) (l : Nat) : (s.later f i v l).core.mfvalid = s.core.mfvalid := rfl
@[simp] theorem later_core_stopReq (s : State) (f : RegFile) (i : Nat) (v : VReg) (l : Nat) : (s.later f i v l).core.stopReq = s.core.stopReq := rfl

@[simp] theorem finish_mem (s : State) (st : Nat) (b : Bool) : (s.finish st b).mem = s.mem := by unfold State.finish; rfl
@[simp] theorem finish_tags (s : State) (st : Nat) (b : Bool) : (s.finish st b).tags = s.tags := by unfold State.finish; rfl
@[simp] theorem finish_bad (s : State) (st : Nat) (b : Bool) : (s.finish st b).bad = s.bad := by unfold State.finish; rfl
@[simp] theorem finish_others (s : State) (st : Nat) (b : Bool) : (s.finish st b).others = s.others := by unfold State.finish; rfl
@[simp] theorem finish_jobs (s : State) (st : Nat) (b : Bool) : (s.finish st b).jobs = s.jobs := by unfold State.finish; rfl
@[simp] theorem finish_levels (s : State) (st : Nat) (b : Bool) : (s.finish st b).levels = s.levels := by unfold State.finish; rfl
@[simp] theorem finish_hutches (s : State) (st : Nat) (b : Bool) : (s.finish st b).hutches = s.hutches := by unfold State.finish; rfl
@[simp] theorem finish_joins (s : State) (st : Nat) (b : Bool) : (s.finish st b).joins = s.joins := by unfold State.finish; rfl
@[simp] theorem finish_net (s : State) (st : Nat) (b : Bool) : (s.finish st b).net = s.net := by unfold State.finish; rfl
@[simp] theorem finish_commits (s : State) (st : Nat) (b : Bool) : (s.finish st b).commits = s.commits := by unfold State.finish; rfl
@[simp] theorem finish_groups (s : State) (st : Nat) (b : Bool) : (s.finish st b).groups = s.groups := by unfold State.finish; rfl
@[simp] theorem finish_recents (s : State) (st : Nat) (b : Bool) : (s.finish st b).recents = s.recents := by unfold State.finish; rfl
@[simp] theorem finish_freeN (s : State) (st : Nat) (b : Bool) : (s.finish st b).freeN = s.freeN := by unfold State.finish; rfl
@[simp] theorem finish_agenda (s : State) (st : Nat) (b : Bool) : (s.finish st b).agenda = s.agenda := by unfold State.finish; rfl
@[simp] theorem finish_time (s : State) (st : Nat) (b : Bool) : (s.finish st b).time = s.time := by unfold State.finish; rfl
@[simp] theorem finish_l2 (s : State) (st : Nat) (b : Bool) : (s.finish st b).l2 = s.l2 := by unfold State.finish; rfl
@[simp] theorem finish_nextNo (s : State) (st : Nat) (b : Bool) : (s.finish st b).nextNo = s.nextNo := by unfold State.finish; rfl
@[simp] theorem finish_split (s : State) (st : Nat) (b : Bool) : (s.finish st b).split = s.split := by unfold State.finish; rfl
@[simp] theorem finish_heldHit (s : State) (st : Nat) (b : Bool) : (s.finish st b).heldHit = s.heldHit := by unfold State.finish; rfl
@[simp] theorem finish_portOne (s : State) (st : Nat) (b : Bool) : (s.finish st b).portOne = s.portOne := by unfold State.finish; rfl
@[simp] theorem finish_jobSeen (s : State) (st : Nat) (b : Bool) : (s.finish st b).jobSeen = s.jobSeen := by unfold State.finish; rfl
@[simp] theorem finish_known (s : State) (st : Nat) (b : Bool) : (s.finish st b).known = s.known := by unfold State.finish; rfl
@[simp] theorem finish_dropped (s : State) (st : Nat) (b : Bool) : (s.finish st b).dropped = s.dropped := by unfold State.finish; rfl
@[simp] theorem finish_ptx (s : State) (st : Nat) (b : Bool) : (s.finish st b).ptx = s.ptx := by unfold State.finish; rfl
@[simp] theorem finish_prx (s : State) (st : Nat) (b : Bool) : (s.finish st b).prx = s.prx := by unfold State.finish; rfl
@[simp] theorem finish_links (s : State) (st : Nat) (b : Bool) : (s.finish st b).links = s.links := by unfold State.finish; rfl
@[simp] theorem finish_niWait (s : State) (st : Nat) (b : Bool) : (s.finish st b).niWait = s.niWait := by unfold State.finish; rfl
@[simp] theorem finish_uops (s : State) (st : Nat) (b : Bool) : (s.finish st b).uops = s.uops := by unfold State.finish; rfl
@[simp] theorem finish_stackOn (s : State) (st : Nat) (b : Bool) : (s.finish st b).stackOn = s.stackOn := by unfold State.finish; rfl
@[simp] theorem finish_ctlb (s : State) (st : Nat) (b : Bool) : (s.finish st b).ctlb = s.ctlb := by unfold State.finish; rfl
@[simp] theorem finish_wcache (s : State) (st : Nat) (b : Bool) : (s.finish st b).wcache = s.wcache := by unfold State.finish; rfl
@[simp] theorem finish_core_id (s : State) (st : Nat) (b : Bool) : (s.finish st b).core.id = s.core.id := by unfold State.finish; rfl
@[simp] theorem finish_core_cur (s : State) (st : Nat) (b : Bool) : (s.finish st b).core.cur = s.core.cur := by unfold State.finish; rfl
@[simp] theorem finish_core_v (s : State) (st : Nat) (b : Bool) : (s.finish st b).core.v = s.core.v := by unfold State.finish; rfl
@[simp] theorem finish_core_m (s : State) (st : Nat) (b : Bool) : (s.finish st b).core.m = s.core.m := by unfold State.finish; rfl
@[simp] theorem finish_core_g (s : State) (st : Nat) (b : Bool) : (s.finish st b).core.g = s.core.g := by unfold State.finish; rfl
@[simp] theorem finish_core_sp (s : State) (st : Nat) (b : Bool) : (s.finish st b).core.sp = s.core.sp := by unfold State.finish; rfl
@[simp] theorem finish_core_ie (s : State) (st : Nat) (b : Bool) : (s.finish st b).core.ie = s.core.ie := by unfold State.finish; rfl
@[simp] theorem finish_core_pie (s : State) (st : Nat) (b : Bool) : (s.finish st b).core.pie = s.core.pie := by unfold State.finish; rfl
@[simp] theorem finish_core_inh (s : State) (st : Nat) (b : Bool) : (s.finish st b).core.inh = s.core.inh := by unfold State.finish; rfl
@[simp] theorem finish_core_schk (s : State) (st : Nat) (b : Bool) : (s.finish st b).core.schk = s.core.schk := by unfold State.finish; rfl
@[simp] theorem finish_core_mm (s : State) (st : Nat) (b : Bool) : (s.finish st b).core.mm = s.core.mm := by unfold State.finish; rfl
@[simp] theorem finish_core_rmode (s : State) (st : Nat) (b : Bool) : (s.finish st b).core.rmode = s.core.rmode := by unfold State.finish; rfl
@[simp] theorem finish_core_tcause (s : State) (st : Nat) (b : Bool) : (s.finish st b).core.tcause = s.core.tcause := by unfold State.finish; rfl
@[simp] theorem finish_core_tval (s : State) (st : Nat) (b : Bool) : (s.finish st b).core.tval = s.core.tval := by unfold State.finish; rfl
@[simp] theorem finish_core_tpc (s : State) (st : Nat) (b : Bool) : (s.finish st b).core.tpc = s.core.tpc := by unfold State.finish; rfl
@[simp] theorem finish_core_tvec (s : State) (st : Nat) (b : Bool) : (s.finish st b).core.tvec = s.core.tvec := by unfold State.finish; rfl
@[simp] theorem finish_core_hs (s : State) (st : Nat) (b : Bool) : (s.finish st b).core.hs = s.core.hs := by unfold State.finish; rfl
@[simp] theorem finish_core_job (s : State) (st : Nat) (b : Bool) : (s.finish st b).core.job = s.core.job := by unfold State.finish; rfl
@[simp] theorem finish_core_run (s : State) (st : Nat) (b : Bool) : (s.finish st b).core.run = s.core.run := by unfold State.finish; rfl
@[simp] theorem finish_core_jobs (s : State) (st : Nat) (b : Bool) : (s.finish st b).core.jobs = s.core.jobs := by unfold State.finish; rfl
@[simp] theorem finish_core_ops (s : State) (st : Nat) (b : Bool) : (s.finish st b).core.ops = s.core.ops := by unfold State.finish; rfl
@[simp] theorem finish_core_mq (s : State) (st : Nat) (b : Bool) : (s.finish st b).core.mq = s.core.mq := by unfold State.finish; rfl
@[simp] theorem finish_core_oc (s : State) (st : Nat) (b : Bool) : (s.finish st b).core.oc = s.core.oc := by unfold State.finish; rfl
@[simp] theorem finish_core_tape (s : State) (st : Nat) (b : Bool) : (s.finish st b).core.tape = s.core.tape := by unfold State.finish; rfl
@[simp] theorem finish_core_stopped (s : State) (st : Nat) (b : Bool) : (s.finish st b).core.stopped = s.core.stopped := by unfold State.finish; rfl
@[simp] theorem finish_core_cyc (s : State) (st : Nat) (b : Bool) : (s.finish st b).core.cyc = s.core.cyc := by unfold State.finish; rfl
@[simp] theorem finish_core_l1 (s : State) (st : Nat) (b : Bool) : (s.finish st b).core.l1 = s.core.l1 := by unfold State.finish; rfl
@[simp] theorem finish_core_tlb (s : State) (st : Nat) (b : Bool) : (s.finish st b).core.tlb = s.core.tlb := by unfold State.finish; rfl
@[simp] theorem finish_core_ic (s : State) (st : Nat) (b : Bool) : (s.finish st b).core.ic = s.core.ic := by unfold State.finish; rfl
@[simp] theorem finish_core_srctr (s : State) (st : Nat) (b : Bool) : (s.finish st b).core.srctr = s.core.srctr := by unfold State.finish; rfl
@[simp] theorem finish_core_binds (s : State) (st : Nat) (b : Bool) : (s.finish st b).core.binds = s.core.binds := by unfold State.finish; rfl
@[simp] theorem finish_core_ends (s : State) (st : Nat) (b : Bool) : (s.finish st b).core.ends = s.core.ends := by unfold State.finish; rfl
@[simp] theorem finish_core_held (s : State) (st : Nat) (b : Bool) : (s.finish st b).core.held = s.core.held := by unfold State.finish; rfl
@[simp] theorem finish_core_sent (s : State) (st : Nat) (b : Bool) : (s.finish st b).core.sent = s.core.sent := by unfold State.finish; rfl
@[simp] theorem finish_core_barw (s : State) (st : Nat) (b : Bool) : (s.finish st b).core.barw = s.core.barw := by unfold State.finish; rfl
@[simp] theorem finish_core_poisoned (s : State) (st : Nat) (b : Bool) : (s.finish st b).core.poisoned = s.core.poisoned := by unfold State.finish; rfl
@[simp] theorem finish_core_mfvalid (s : State) (st : Nat) (b : Bool) : (s.finish st b).core.mfvalid = s.core.mfvalid := by unfold State.finish; rfl
@[simp] theorem finish_core_stopReq (s : State) (st : Nat) (b : Bool) : (s.finish st b).core.stopReq = s.core.stopReq := by unfold State.finish; rfl

@[simp] theorem block_mem (s : State)  : (s.block).mem = s.mem := rfl
@[simp] theorem block_tags (s : State)  : (s.block).tags = s.tags := rfl
@[simp] theorem block_bad (s : State)  : (s.block).bad = s.bad := rfl
@[simp] theorem block_others (s : State)  : (s.block).others = s.others := rfl
@[simp] theorem block_jobs (s : State)  : (s.block).jobs = s.jobs := rfl
@[simp] theorem block_levels (s : State)  : (s.block).levels = s.levels := rfl
@[simp] theorem block_hutches (s : State)  : (s.block).hutches = s.hutches := rfl
@[simp] theorem block_joins (s : State)  : (s.block).joins = s.joins := rfl
@[simp] theorem block_net (s : State)  : (s.block).net = s.net := rfl
@[simp] theorem block_commits (s : State)  : (s.block).commits = s.commits := rfl
@[simp] theorem block_groups (s : State)  : (s.block).groups = s.groups := rfl
@[simp] theorem block_recents (s : State)  : (s.block).recents = s.recents := rfl
@[simp] theorem block_freeN (s : State)  : (s.block).freeN = s.freeN := rfl
@[simp] theorem block_agenda (s : State)  : (s.block).agenda = s.agenda := rfl
@[simp] theorem block_time (s : State)  : (s.block).time = s.time := rfl
@[simp] theorem block_l2 (s : State)  : (s.block).l2 = s.l2 := rfl
@[simp] theorem block_nextNo (s : State)  : (s.block).nextNo = s.nextNo := rfl
@[simp] theorem block_split (s : State)  : (s.block).split = s.split := rfl
@[simp] theorem block_heldHit (s : State)  : (s.block).heldHit = s.heldHit := rfl
@[simp] theorem block_portOne (s : State)  : (s.block).portOne = s.portOne := rfl
@[simp] theorem block_jobSeen (s : State)  : (s.block).jobSeen = s.jobSeen := rfl
@[simp] theorem block_known (s : State)  : (s.block).known = s.known := rfl
@[simp] theorem block_dropped (s : State)  : (s.block).dropped = s.dropped := rfl
@[simp] theorem block_ptx (s : State)  : (s.block).ptx = s.ptx := rfl
@[simp] theorem block_prx (s : State)  : (s.block).prx = s.prx := rfl
@[simp] theorem block_links (s : State)  : (s.block).links = s.links := rfl
@[simp] theorem block_niWait (s : State)  : (s.block).niWait = s.niWait := rfl
@[simp] theorem block_uops (s : State)  : (s.block).uops = s.uops := rfl
@[simp] theorem block_stackOn (s : State)  : (s.block).stackOn = s.stackOn := rfl
@[simp] theorem block_ctlb (s : State)  : (s.block).ctlb = s.ctlb := rfl
@[simp] theorem block_wcache (s : State)  : (s.block).wcache = s.wcache := rfl
@[simp] theorem block_core_id (s : State)  : (s.block).core.id = s.core.id := rfl
@[simp] theorem block_core_cur (s : State)  : (s.block).core.cur = s.core.cur := rfl
@[simp] theorem block_core_v (s : State)  : (s.block).core.v = s.core.v := rfl
@[simp] theorem block_core_m (s : State)  : (s.block).core.m = s.core.m := rfl
@[simp] theorem block_core_g (s : State)  : (s.block).core.g = s.core.g := rfl
@[simp] theorem block_core_sp (s : State)  : (s.block).core.sp = s.core.sp := rfl
@[simp] theorem block_core_ie (s : State)  : (s.block).core.ie = s.core.ie := rfl
@[simp] theorem block_core_pie (s : State)  : (s.block).core.pie = s.core.pie := rfl
@[simp] theorem block_core_inh (s : State)  : (s.block).core.inh = s.core.inh := rfl
@[simp] theorem block_core_schk (s : State)  : (s.block).core.schk = s.core.schk := rfl
@[simp] theorem block_core_mm (s : State)  : (s.block).core.mm = s.core.mm := rfl
@[simp] theorem block_core_rmode (s : State)  : (s.block).core.rmode = s.core.rmode := rfl
@[simp] theorem block_core_tcause (s : State)  : (s.block).core.tcause = s.core.tcause := rfl
@[simp] theorem block_core_tval (s : State)  : (s.block).core.tval = s.core.tval := rfl
@[simp] theorem block_core_tpc (s : State)  : (s.block).core.tpc = s.core.tpc := rfl
@[simp] theorem block_core_tvec (s : State)  : (s.block).core.tvec = s.core.tvec := rfl
@[simp] theorem block_core_hs (s : State)  : (s.block).core.hs = s.core.hs := rfl
@[simp] theorem block_core_job (s : State)  : (s.block).core.job = s.core.job := rfl
@[simp] theorem block_core_run (s : State)  : (s.block).core.run = s.core.run := rfl
@[simp] theorem block_core_jobs (s : State)  : (s.block).core.jobs = s.core.jobs := rfl
@[simp] theorem block_core_ops (s : State)  : (s.block).core.ops = s.core.ops := rfl
@[simp] theorem block_core_mq (s : State)  : (s.block).core.mq = s.core.mq := rfl
@[simp] theorem block_core_oc (s : State)  : (s.block).core.oc = s.core.oc := rfl
@[simp] theorem block_core_tape (s : State)  : (s.block).core.tape = s.core.tape := rfl
@[simp] theorem block_core_stopped (s : State)  : (s.block).core.stopped = s.core.stopped := rfl
@[simp] theorem block_core_cyc (s : State)  : (s.block).core.cyc = s.core.cyc := rfl
@[simp] theorem block_core_l1 (s : State)  : (s.block).core.l1 = s.core.l1 := rfl
@[simp] theorem block_core_tlb (s : State)  : (s.block).core.tlb = s.core.tlb := rfl
@[simp] theorem block_core_ic (s : State)  : (s.block).core.ic = s.core.ic := rfl
@[simp] theorem block_core_srctr (s : State)  : (s.block).core.srctr = s.core.srctr := rfl
@[simp] theorem block_core_binds (s : State)  : (s.block).core.binds = s.core.binds := rfl
@[simp] theorem block_core_ends (s : State)  : (s.block).core.ends = s.core.ends := rfl
@[simp] theorem block_core_held (s : State)  : (s.block).core.held = s.core.held := rfl
@[simp] theorem block_core_sent (s : State)  : (s.block).core.sent = s.core.sent := rfl
@[simp] theorem block_core_barw (s : State)  : (s.block).core.barw = s.core.barw := rfl
@[simp] theorem block_core_poisoned (s : State)  : (s.block).core.poisoned = s.core.poisoned := rfl
@[simp] theorem block_core_mfvalid (s : State)  : (s.block).core.mfvalid = s.core.mfvalid := rfl
@[simp] theorem block_core_stopReq (s : State)  : (s.block).core.stopReq = s.core.stopReq := rfl

/-- The issuing context after it is replaced. -/
@[simp] theorem ctx_setCtx (s : State) (x : Ctx) : (s.setCtx x).ctx = x := by
  simp [State.ctx, State.setCtx]

@[simp] theorem ctx_count (s : State) (k : Fin 11) (n : Nat) : (s.count k n).ctx = s.ctx := rfl

/-- Reading a c register after a write to one (R110). -/
@[simp] theorem rc_wc_same (s : State) (n : Fin 32) (v : Cap) (h : n ≠ 0) : (s.wc n v).rc n = v := by
  simp [State.rc, State.wc, Ctx.wc, Ctx.rc, Ctx.drop, h]

@[simp] theorem rc_wc_other (s : State) (n k : Fin 32) (v : Cap) (h : k ≠ n) : (s.wc n v).rc k = s.rc k := by
  by_cases hn : n = 0
  · simp [State.rc, State.wc, Ctx.wc, hn]
  · have : n.val ≠ k.val := fun e => h (Fin.ext e.symm)
    simp [State.rc, State.wc, Ctx.wc, Ctx.rc, Ctx.drop, hn, this]

/-- c0 reads as the null capability whatever is written to it (R110). -/
@[simp] theorem rc_zero (s : State) : s.rc 0 = Cap.null := by simp [State.rc, Ctx.rc]

@[simp] theorem wc_zero (s : State) (v : Cap) : (s.wc 0 v).ctx = s.ctx := by simp [State.wc, Ctx.wc]

/-- A retired context keeps its c registers. -/
@[simp] theorem rc_finish (s : State) (st : Nat) (b : Bool) (n : Fin 32) : (s.finish st b).rc n = s.rc n := by
  simp [State.finish, State.rc, Ctx.rc]

end Sys2Proof.Laws
end

