-- ==== Sys2Proof/Laws/Ops.lean ====
section
/-! SUPPORT. One law for each shared operation: what the frame of every instruction does, what a retired instruction
leaves, and what the shared checks answer. -/

namespace Sys2Proof.Laws

open Sys2Proof Sys2Proof.Machine

set_option Elab.async false

/-! ### The frame of an instruction (R90, R220) -/

/-- A context that may issue meets no fault of steps 2 to 4 where its instruction decodes and its mode allows it. -/
theorem gateTrap_none {s : State} {g : Gate} (h : s.CanIssue g.reads) (hi : g.ill = false) (ha : g.acc = none) :
    s.gateTrap g = none := by
  unfold State.gateTrap
  rw [if_neg (by simp [hi]), ha]
  dsimp only
  split
  · rename_i hs
    rw [List.find?_eq_none.mpr (fun r hr => by simp [h.fixReady hs r hr])]
    rfl
  · rfl

/-- An instruction of a context that may issue is its operation, and what follows its retirement. -/
theorem issueThen_canIssue {s : State} {g : Gate} (body : Op Unit) (after : State → State) (h : s.CanIssue g.reads)
    (hi : g.ill = false) (ha : g.acc = none) : issueThen g body after s = s.conclude g.st after (body s) := by
  unfold issueThen
  rw [if_neg (by simp [h.notStopped]), gateTrap_none h hi ha]
  have hv : g.reads.any s.varPending = false := by
    rw [List.any_eq_false]
    exact fun r hr => by simp [h.varReady r hr]
  dsimp only
  split <;> simp_all [h.noCause]

/-- It retires where its operation answers. -/
theorem issue_retires {s t : State} {g : Gate} {body : Op Unit} (h : s.CanIssue g.reads) (hi : g.ill = false)
    (ha : g.acc = none) (hb : body s = .ok () t) : issue g body s = s.retire g.st t := by
  unfold issue
  rw [issueThen_canIssue body id h hi ha, hb]
  rfl

/-- It traps where its operation raises a cause. -/
theorem issue_traps {s t : State} {g : Gate} {body : Op Unit} {c : Trap} (h : s.CanIssue g.reads) (hi : g.ill = false)
    (ha : g.acc = none) (hb : body s = .error (.trap c) t) : issue g body s = .next (t.trapHere c) := by
  unfold issue
  rw [issueThen_canIssue body id h hi ha, hb]
  rfl

/-- It waits where its operation waits. -/
theorem issue_waits {s t : State} {g : Gate} {body : Op Unit} (h : s.CanIssue g.reads) (hi : g.ill = false)
    (ha : g.acc = none) (hb : body s = .error .wait t) : issue g body s = .next t.block := by
  unfold issue
  rw [issueThen_canIssue body id h hi ha, hb]
  rfl

/-- An ILLEGAL of decoding comes before everything but a stop (R90). -/
theorem issue_illegal {s : State} {g : Gate} (body : Op Unit) (h : (s.helper && s.ctx.stopReq) = false)
    (hi : g.ill = true) : issue g body s = .next (s.trapHere s.illegal) := by
  unfold issue issueThen
  rw [if_neg (by simp [h])]
  simp [State.gateTrap, hi]

/-- Whatever an instruction's operation answers, the frame answers a state, unless the operation faults. -/
theorem issueThen_next {s : State} {g : Gate} {body : Op Unit} {after : State → State}
    (hb : ∀ f t, body s ≠ .error (.fault f) t) : ∃ t, issueThen g body after s = .next t := by
  unfold issueThen
  split
  · exact ⟨_, rfl⟩
  · split
    · exact ⟨_, rfl⟩
    · split
      · exact ⟨_, rfl⟩
      · split
        · exact ⟨_, rfl⟩
        · unfold State.conclude
          split
          · exact ⟨_, rfl⟩
          · exact ⟨_, rfl⟩
          · exact ⟨_, rfl⟩
          · rename_i f t heq
            exact absurd heq (hb f t)

/-! ### Shared operations -/

/-- A state change answers. -/
@[simp] theorem upd_run (f : State → State) (s : State) : upd f s = .ok () (f s) := rfl

/-- `need` answers where its condition holds. -/
theorem need_true (c : Cause) (v : Int) (s : State) : need true c v s = .ok () s := rfl

/-- `need` raises its cause where the condition fails. -/
theorem need_false (c : Cause) (v : Int) (s : State) :
    need false c v s = .error (.trap ⟨c, BitVec.ofNat 80 (addr80 v)⟩) s := rfl

/-- The four checks of R115 answer exactly where no cause is named, and change nothing. -/
theorem capNeed_ok {c : Cap} {ps : List Nat} {a : Int} {n al : Nat} (s : State) (h : capCheck c ps a n al = none) :
    capNeed c ps a n al s = .ok () s := by
  unfold capNeed
  rw [h]
  rfl

theorem capNeed_raises {c : Cap} {ps : List Nat} {a : Int} {n al : Nat} {k : Cause} (s : State)
    (h : capCheck c ps a n al = some k) : capNeed c ps a n al s = .error (.trap ⟨k, BitVec.ofNat 80 (addr80 a)⟩) s := by
  unfold capNeed
  rw [h]
  rfl

/-- A retired instruction: only the issuing context and the count of instructions differ from what it left. -/
theorem finish_onlyContext (s : State) (st : Nat) (b : Bool) : OnlyContext s (s.finish st b) := by
  refine ⟨?_, fun h hh => ?_, fun a => by simp⟩
  · unfold State.finish
    rcases (if b && s.ctx.loop.lact then s.ctx.loop.advance s.ctx.npc else (s.ctx.loop, s.ctx.npc)) with ⟨l, npc⟩
    rfl
  · have : s.core.cur.val ≠ h.val := fun e => hh (Fin.ext e.symm)
    simp [State.finish, State.setCtx, State.count, this]

/-- A write to a c register differs in the issuing context alone. -/
theorem wc_onlyContext (s : State) (n : Fin 32) (v : Cap) : OnlyContext s (s.wc n v) := by
  refine ⟨by simp [State.wc, State.setCtx], fun h hh => ?_, fun a => by simp⟩
  have : s.core.cur.val ≠ h.val := fun e => hh (Fin.ext e.symm)
  simp [State.wc, State.setCtx, this]

/-! ### What a retired instruction leaves -/

theorem finish_count (s : State) (st : Nat) (b : Bool) :
    (s.finish st b).core.evc = s.core.evc.set s.counter (s.core.evc[s.counter] + 1) := rfl

theorem finish_pcc (s : State) (st : Nat) (b : Bool) (h : (b && s.ctx.loop.lact) = false) :
    (s.finish st b).ctx.pcc = capMove s.ctx.pcc s.ctx.npc.toNat ∧ (s.finish st b).ctx.loop = s.ctx.loop := by
  unfold State.finish
  rw [ctx_count, ctx_setCtx]
  simp [h]

theorem finish_o (s : State) (st : Nat) (b : Bool) : (s.finish st b).ctx.o = s.ctx.o := by
  unfold State.finish
  rw [ctx_count, ctx_setCtx]

theorem finish_fix (s : State) (st : Nat) (b : Bool) : (s.finish st b).ctx.fix = s.ctx.fix := by
  unfold State.finish
  rw [ctx_count, ctx_setCtx]

theorem finish_pend (s : State) (st : Nat) (b : Bool) : (s.finish st b).ctx.pend = s.ctx.pend := by
  unfold State.finish
  rw [ctx_count, ctx_setCtx]

/-- A state reached by replacing the issuing context, with its program counter and loop as they were, then retired. -/
theorem setCtx_retired (s : State) (x : Ctx) (st : Nat) (hp : x.pcc = s.ctx.pcc) (hn : x.npc = s.ctx.npc)
    (hl : x.loop = s.ctx.loop) :
    Advanced s ((s.setCtx x).finish st s.ctx.loop.lact) ∧ OnlyContext s ((s.setCtx x).finish st s.ctx.loop.lact) := by
  have hf := finish_onlyContext (s.setCtx x) st s.ctx.loop.lact
  refine ⟨⟨rfl, fun h => ?_, fun h => ?_⟩, ⟨?_, fun k hk => ?_, fun a => by simp⟩⟩
  · rw [(finish_pcc _ _ _ (by simp [h])).1, ctx_setCtx, hp, hn]
  · rw [(finish_pcc _ _ _ (by simp [h])).2, ctx_setCtx, hl]
  · rw [hf.rest]
    rfl
  · have hk' : s.core.cur.val ≠ k.val := fun e => hk (Fin.ext e.symm)
    rw [hf.others k hk]
    simp [State.setCtx, hk']

theorem wc_pcc (x : Ctx) (d : Fin 32) (v : Cap) : (x.wc d v).pcc = x.pcc ∧ (x.wc d v).npc = x.npc ∧
    (x.wc d v).loop = x.loop ∧ (x.wc d v).o = x.o := by
  unfold Ctx.wc
  split <;> exact ⟨rfl, rfl, rfl, rfl⟩

/-- An instruction that retires after one write to a c register. -/
theorem writesC_of {s : State} {st : Nat} {d : Fin 32} {v : Cap} {o : Host.Outcome State Fault Refusal}
    (h : o = s.retire st (s.wc d v)) : WritesC s o d v := by
  have hw := wc_pcc s.ctx d v
  have hr := setCtx_retired s (s.ctx.wc d v) st hw.1 hw.2.1 hw.2.2.1
  refine ⟨_, h, hr.1, hr.2, ?_, fun n hn => ?_, ?_⟩
  · rw [rc_finish]
    by_cases h0 : d = 0
    · subst h0
      simp
    · rw [if_neg h0]
      exact rc_wc_same s d v h0
  · rw [rc_finish]
    exact rc_wc_other s d n v hn
  · rw [finish_o]
    exact (congrArg Ctx.o (ctx_setCtx s _)).trans hw.2.2.2

/-- An instruction that retires with a result on its way. -/
theorem writesLater_of {s : State} {st : Nat} {f : RegFile} {d : Nat} {v : VReg} {l : Nat}
    {o : Host.Outcome State Fault Refusal} (h : o = s.retire st (s.later f d v l)) : WritesLater s o f d v l := by
  have hr := setCtx_retired s { s.ctx with fix := s.ctx.fix ++ [{ file := f, idx := d, val := v, ready := s.core.cyc + l }]
                                           pend := s.ctx.pend.filter (fun p => !p.isFor f d) } st rfl rfl rfl
  refine ⟨_, h, hr.1, hr.2, ?_, ?_, fun n => ?_, ?_⟩
  · rw [finish_fix, State.later, ctx_setCtx]
  · rw [finish_pend, State.later, ctx_setCtx]
  · rw [rc_finish]
    simp [State.rc, State.later, Ctx.rc]
  · rw [finish_o, State.later, ctx_setCtx]

/-- An instruction that retires with nothing done. -/
theorem onlyAdvances_of {s : State} {st : Nat} {o : Host.Outcome State Fault Refusal} (h : o = s.retire st s) :
    OnlyAdvances s o := by
  have hs : s.setCtx s.ctx = s := by
    simp [State.setCtx, State.ctx]
  have hr := setCtx_retired s s.ctx st rfl rfl rfl
  rw [hs] at hr
  exact ⟨_, h, hr.1, hr.2, fun n => rc_finish s st _ n, finish_o s st _⟩

/-! ### Operations in sequence -/

/-- An operation that answers hands its answer and state on. -/
theorem bind_ok {α β : Type} {f : Op α} {k : α → Op β} {s t : State} {a : α} (h : f s = .ok a t) :
    (f >>= k) s = k a t := by
  show EStateM.bind f k s = _
  unfold EStateM.bind
  rw [h]

/-- One that stops ends the whole. -/
theorem bind_error {α β : Type} {f : Op α} {k : α → Op β} {s t : State} {e : Stop} (h : f s = .error e t) :
    (f >>= k) s = .error e t := by
  show EStateM.bind f k s = _
  unfold EStateM.bind
  rw [h]

theorem get_run (s : State) : (get : Op State) s = .ok s s := rfl
theorem set_run (s t : State) : (set t : Op PUnit) s = .ok ⟨⟩ t := rfl
theorem pure_run {α : Type} (a : α) (s : State) : (pure a : Op α) s = .ok a s := rfl

/-- A state reached by replacing the issuing context, then retired outside a loop body. -/
theorem setCtx_went (s : State) (x : Ctx) (st : Nat) (b : Bool) (h : (b && x.loop.lact) = false) (ho : x.o = s.ctx.o) :
    WentTo s ((s.setCtx x).finish st b) (capMove x.pcc x.npc.toNat) x.loop := by
  have hf := finish_onlyContext (s.setCtx x) st b
  have hp := finish_pcc (s.setCtx x) st b (by rw [ctx_setCtx]; exact h)
  rw [ctx_setCtx] at hp
  refine ⟨rfl, hp.1, hp.2, (finish_o _ _ _).trans ((congrArg Ctx.o (ctx_setCtx s x)).trans ho), ?_, fun k hk => ?_, fun a => by simp⟩
  · rw [hf.rest]; rfl
  · have hk' : s.core.cur.val ≠ k.val := fun e => hk (Fin.ext e.symm)
    rw [hf.others k hk]
    simp [State.setCtx, hk']

/-- A transfer that writes no register. -/
theorem jumpsTo_of {s : State} {st : Nat} {x : Ctx} {o : Host.Outcome State Fault Refusal}
    (h : o = s.retire st (s.setCtx x)) (hl : (s.ctx.loop.lact && x.loop.lact) = false) (ho : x.o = s.ctx.o) (hc : x.c = s.ctx.c) :
    JumpsTo s o (capMove x.pcc x.npc.toNat) x.loop := by
  refine ⟨_, h, setCtx_went s x st _ hl ho, fun n => ?_⟩
  rw [rc_finish, State.rc, ctx_setCtx]
  simp [State.rc, Ctx.rc, hc]

/-- A capability is its fields (R109). -/
theorem capBits_self (c : Cap) : capBits (capA c) (capP c) (capE c) (capB c) (capL c) = c.bits := by
  apply BitVec.eq_of_toNat_eq
  have h := c.bits.isLt
  simp only [capBits, capA, capP, capE, capB, capL, BitVec.toNat_ofNat]
  omega

theorem capAt_self (c : Cap) : capAt c (capA c) = c := by
  unfold capAt
  rw [capBits_self]

theorem capA_lt (c : Cap) : capA c < 2 ^ 80 := by
  have h := c.bits.isLt
  simp only [capA]
  omega

end Sys2Proof.Laws
end

