-- ==== Sys2Proof/Laws/PerInstr.lean ====
section
/-! SUPPORT. The family Coded: the fields that the encoder gives an instruction decode to it, and each lies in its place
(R75, R85, R86, R89). One lemma for each constructor. -/

namespace Sys2Proof.Laws

set_option Elab.async false
set_option linter.unusedSimpArgs false

/-- The encoder's fields of an instruction decode to it and fit their places. -/
def Coded.Statement (i : Instr) : Prop :=
  i.wf = true →
    (∀ w, encodeFields i = some w →
      decodeFields w = some i ∧ w.s < 8 ∧ w.op < 64 ∧ w.d < 64 ∧ w.a < 64 ∧ w.b < 64 ∧ w.f < 16) ∧
    (∀ h, encodeShort i = some h → decodeShort h = some i ∧ h.s < 4 ∧ h.op < 32 ∧ h.x < 16 ∧ h.y < 16)

theorem c?_val (x : Fin 32) : c? x.val = some x := by simp [c?]
theorem g?_val (x : Fin 16) : g? x.val = some x := by simp [g?]
theorem m?_val (x : Fin 8) : m? x.val = some x := by simp [m?]
theorem h?_val (x : Fin 2) : h? x.val = some x := by simp [h?, x.isLt]
theorem fin4_val (x : Fin 4) : fin4 x.val = x := by simp [fin4, Nat.mod_eq_of_lt x.isLt]
theorem fin8_val (x : Fin 8) : fin8 x.val = x := by simp [fin8, Nat.mod_eq_of_lt x.isLt]
theorem fin8_mask (x : Fin 8) : fin8 (x.val + 8) = x := by simp [fin8, Nat.mod_eq_of_lt x.isLt]
theorem fin16_val (x : Fin 16) : fin16 x.val = x := by simp [fin16, Nat.mod_eq_of_lt x.isLt]
theorem fin32_val (x : Fin 32) : fin32 x.val = x := by simp [fin32, Nat.mod_eq_of_lt x.isLt]
theorem fin32_high (x : Fin 32) : fin32 (x.val + 32) = x := by simp [fin32, Nat.mod_eq_of_lt x.isLt]
theorem fin64_val (x : Fin 64) : fin64 x.val = x := by simp [fin64, Nat.mod_eq_of_lt x.isLt]
theorem low_div (x : Fin 32) : x.val / 32 = 0 := by omega
theorem high_div (x : Fin 32) : (x.val + 32) / 32 = 1 := by omega
theorem mask_div (x : Fin 8) : x.val / 8 = 0 := by omega
theorem two_parts (n : Nat) : n % 8 + 8 * (n / 8) = n := by omega
theorem nib_parts (n : Nat) : n % 16 + 16 * (n / 16) = n := by omega
theorem imm_sel (k n : Nat) (h : k < 8) : (k + 8 * n) % 8 = k := by omega
theorem imm_rest (k n : Nat) (h : k < 8) : (k + 8 * n) / 8 = n := by omega
theorem mem_sel (k n : Nat) (h : k < 4) : (k + 4 * n) % 4 = k := by omega
theorem mem_rest (k n : Nat) (h : k < 4) : (k + 4 * n) / 4 = n := by omega
theorem branch_parts (n : Nat) : n % 8 + 8 * (n / 8 % 64) + 512 * (n / 512) = n := by omega
theorem const_parts (n : Nat) : n % 64 + 64 * (n / 64 % 64) + 4096 * (n / 4096) = n := by omega
theorem jump_parts (n : Nat) : n % 64 + 64 * (n / 64 % 64) + 4096 * (n / 4096 % 64) + 262144 * (n / 262144) = n := by
  omega
theorem code_parts (n : Nat) : n % 64 + 64 * (n / 64) = n := by omega
theorem off_back (x : Int) (h1 : -128 ≤ x) (h2 : x ≤ 127) : s8 (u8 x) = x := by
  have e : u8 x = if 0 ≤ x then x.toNat else (x + 256).toNat := by
    unfold u8 utrunc
    by_cases h : 0 ≤ x
    · rw [if_pos h]; omega
    · rw [if_neg h]; omega
  rw [e]
  unfold s8 sextNat
  by_cases h : 0 ≤ x
  · rw [if_pos h, if_pos (by omega)]; omega
  · rw [if_neg h, if_neg (by omega)]; omega
theorem off_lt (x : Int) : u8 x < 256 := by
  simp only [u8, utrunc]
  omega

theorem Coded.add (st : Fin 8) (d : Fin 32) (a : Fin 32) (b : Fin 32) : Coded.Statement (.add st d a b) := by
  intro _
  refine ⟨fun w h => ?_, fun w h => ?_⟩ <;> cases h
  simp [decodeFields, maj00, fin8_val, c?_val]
  try omega

theorem Coded.sub (st : Fin 8) (d : Fin 32) (a : Fin 32) (b : Fin 32) : Coded.Statement (.sub st d a b) := by
  intro _
  refine ⟨fun w h => ?_, fun w h => ?_⟩ <;> cases h
  simp [decodeFields, maj00, fin8_val, c?_val]
  try omega

theorem Coded.andr (st : Fin 8) (d : Fin 32) (a : Fin 32) (b : Fin 32) : Coded.Statement (.andr st d a b) := by
  intro _
  refine ⟨fun w h => ?_, fun w h => ?_⟩ <;> cases h
  simp [decodeFields, maj00, fin8_val, c?_val]
  try omega

theorem Coded.orr (st : Fin 8) (d : Fin 32) (a : Fin 32) (b : Fin 32) : Coded.Statement (.orr st d a b) := by
  intro _
  refine ⟨fun w h => ?_, fun w h => ?_⟩ <;> cases h
  simp [decodeFields, maj00, fin8_val, c?_val]
  try omega

theorem Coded.xorr (st : Fin 8) (d : Fin 32) (a : Fin 32) (b : Fin 32) : Coded.Statement (.xorr st d a b) := by
  intro _
  refine ⟨fun w h => ?_, fun w h => ?_⟩ <;> cases h
  simp [decodeFields, maj00, fin8_val, c?_val]
  try omega

theorem Coded.andn (st : Fin 8) (d : Fin 32) (a : Fin 32) (b : Fin 32) : Coded.Statement (.andn st d a b) := by
  intro _
  refine ⟨fun w h => ?_, fun w h => ?_⟩ <;> cases h
  simp [decodeFields, maj00, fin8_val, c?_val]
  try omega

theorem Coded.sll (st : Fin 8) (d : Fin 32) (a : Fin 32) (b : Fin 32) : Coded.Statement (.sll st d a b) := by
  intro _
  refine ⟨fun w h => ?_, fun w h => ?_⟩ <;> cases h
  simp [decodeFields, maj00, fin8_val, c?_val]
  try omega

theorem Coded.srl (st : Fin 8) (d : Fin 32) (a : Fin 32) (b : Fin 32) : Coded.Statement (.srl st d a b) := by
  intro _
  refine ⟨fun w h => ?_, fun w h => ?_⟩ <;> cases h
  simp [decodeFields, maj00, fin8_val, c?_val]
  try omega

theorem Coded.sra (st : Fin 8) (d : Fin 32) (a : Fin 32) (b : Fin 32) : Coded.Statement (.sra st d a b) := by
  intro _
  refine ⟨fun w h => ?_, fun w h => ?_⟩ <;> cases h
  simp [decodeFields, maj00, fin8_val, c?_val]
  try omega

theorem Coded.slt (st : Fin 8) (d : Fin 32) (a : Fin 32) (b : Fin 32) : Coded.Statement (.slt st d a b) := by
  intro _
  refine ⟨fun w h => ?_, fun w h => ?_⟩ <;> cases h
  simp [decodeFields, maj00, fin8_val, c?_val]
  try omega

theorem Coded.sltu (st : Fin 8) (d : Fin 32) (a : Fin 32) (b : Fin 32) : Coded.Statement (.sltu st d a b) := by
  intro _
  refine ⟨fun w h => ?_, fun w h => ?_⟩ <;> cases h
  simp [decodeFields, maj00, fin8_val, c?_val]
  try omega

theorem Coded.min (st : Fin 8) (d : Fin 32) (a : Fin 32) (b : Fin 32) : Coded.Statement (.min st d a b) := by
  intro _
  refine ⟨fun w h => ?_, fun w h => ?_⟩ <;> cases h
  simp [decodeFields, maj00, fin8_val, c?_val]
  try omega

theorem Coded.max (st : Fin 8) (d : Fin 32) (a : Fin 32) (b : Fin 32) : Coded.Statement (.max st d a b) := by
  intro _
  refine ⟨fun w h => ?_, fun w h => ?_⟩ <;> cases h
  simp [decodeFields, maj00, fin8_val, c?_val]
  try omega

theorem Coded.minu (st : Fin 8) (d : Fin 32) (a : Fin 32) (b : Fin 32) : Coded.Statement (.minu st d a b) := by
  intro _
  refine ⟨fun w h => ?_, fun w h => ?_⟩ <;> cases h
  simp [decodeFields, maj00, fin8_val, c?_val]
  try omega

theorem Coded.maxu (st : Fin 8) (d : Fin 32) (a : Fin 32) (b : Fin 32) : Coded.Statement (.maxu st d a b) := by
  intro _
  refine ⟨fun w h => ?_, fun w h => ?_⟩ <;> cases h
  simp [decodeFields, maj00, fin8_val, c?_val]
  try omega

theorem Coded.sel (st : Fin 8) (d : Fin 32) (a : Fin 32) (b : Fin 32) : Coded.Statement (.sel st d a b) := by
  intro _
  refine ⟨fun w h => ?_, fun w h => ?_⟩ <;> cases h
  simp [decodeFields, maj00, fin8_val, c?_val]
  try omega

theorem Coded.addi (st : Fin 8) (d : Fin 32) (a : Fin 32) (i : BitVec 7) : Coded.Statement (.addi st d a i) := by
  intro _
  refine ⟨fun w h => ?_, fun w h => ?_⟩ <;> cases h
  simp [decodeFields, maj01, fin8_val, c?_val, imm_sel, imm_rest, two_parts, bv7]
  try omega

theorem Coded.andi (st : Fin 8) (d : Fin 32) (a : Fin 32) (i : BitVec 7) : Coded.Statement (.andi st d a i) := by
  intro _
  refine ⟨fun w h => ?_, fun w h => ?_⟩ <;> cases h
  simp [decodeFields, maj01, fin8_val, c?_val, imm_sel, imm_rest, two_parts, bv7]
  try omega

theorem Coded.ori (st : Fin 8) (d : Fin 32) (a : Fin 32) (i : BitVec 7) : Coded.Statement (.ori st d a i) := by
  intro _
  refine ⟨fun w h => ?_, fun w h => ?_⟩ <;> cases h
  simp [decodeFields, maj01, fin8_val, c?_val, imm_sel, imm_rest, two_parts, bv7]
  try omega

theorem Coded.xori (st : Fin 8) (d : Fin 32) (a : Fin 32) (i : BitVec 7) : Coded.Statement (.xori st d a i) := by
  intro _
  refine ⟨fun w h => ?_, fun w h => ?_⟩ <;> cases h
  simp [decodeFields, maj01, fin8_val, c?_val, imm_sel, imm_rest, two_parts, bv7]
  try omega

theorem Coded.slli (st : Fin 8) (d : Fin 32) (a : Fin 32) (i : BitVec 7) : Coded.Statement (.slli st d a i) := by
  intro _
  refine ⟨fun w h => ?_, fun w h => ?_⟩ <;> cases h
  simp [decodeFields, maj01, fin8_val, c?_val, imm_sel, imm_rest, two_parts, bv7]
  try omega

theorem Coded.srli (st : Fin 8) (d : Fin 32) (a : Fin 32) (i : BitVec 7) : Coded.Statement (.srli st d a i) := by
  intro _
  refine ⟨fun w h => ?_, fun w h => ?_⟩ <;> cases h
  simp [decodeFields, maj01, fin8_val, c?_val, imm_sel, imm_rest, two_parts, bv7]
  try omega

theorem Coded.srai (st : Fin 8) (d : Fin 32) (a : Fin 32) (i : BitVec 7) : Coded.Statement (.srai st d a i) := by
  intro _
  refine ⟨fun w h => ?_, fun w h => ?_⟩ <;> cases h
  simp [decodeFields, maj01, fin8_val, c?_val, imm_sel, imm_rest, two_parts, bv7]
  try omega

theorem Coded.slti (st : Fin 8) (d : Fin 32) (a : Fin 32) (i : BitVec 7) : Coded.Statement (.slti st d a i) := by
  intro _
  refine ⟨fun w h => ?_, fun w h => ?_⟩ <;> cases h
  simp [decodeFields, maj01, fin8_val, c?_val, imm_sel, imm_rest, two_parts, bv7]
  try omega

theorem Coded.mul (st : Fin 8) (d : Fin 32) (a : Fin 32) (b : Fin 32) : Coded.Statement (.mul st d a b) := by
  intro _
  refine ⟨fun w h => ?_, fun w h => ?_⟩ <;> cases h
  simp [decodeFields, maj02, fin8_val, c?_val]
  try omega

theorem Coded.mulh (st : Fin 8) (d : Fin 32) (a : Fin 32) (b : Fin 32) : Coded.Statement (.mulh st d a b) := by
  intro _
  refine ⟨fun w h => ?_, fun w h => ?_⟩ <;> cases h
  simp [decodeFields, maj02, fin8_val, c?_val]
  try omega

theorem Coded.mulhu (st : Fin 8) (d : Fin 32) (a : Fin 32) (b : Fin 32) : Coded.Statement (.mulhu st d a b) := by
  intro _
  refine ⟨fun w h => ?_, fun w h => ?_⟩ <;> cases h
  simp [decodeFields, maj02, fin8_val, c?_val]
  try omega

theorem Coded.div (st : Fin 8) (d : Fin 32) (a : Fin 32) (b : Fin 32) : Coded.Statement (.div st d a b) := by
  intro _
  refine ⟨fun w h => ?_, fun w h => ?_⟩ <;> cases h
  simp [decodeFields, maj02, fin8_val, c?_val]
  try omega

theorem Coded.divu (st : Fin 8) (d : Fin 32) (a : Fin 32) (b : Fin 32) : Coded.Statement (.divu st d a b) := by
  intro _
  refine ⟨fun w h => ?_, fun w h => ?_⟩ <;> cases h
  simp [decodeFields, maj02, fin8_val, c?_val]
  try omega

theorem Coded.rem (st : Fin 8) (d : Fin 32) (a : Fin 32) (b : Fin 32) : Coded.Statement (.rem st d a b) := by
  intro _
  refine ⟨fun w h => ?_, fun w h => ?_⟩ <;> cases h
  simp [decodeFields, maj02, fin8_val, c?_val]
  try omega

theorem Coded.remu (st : Fin 8) (d : Fin 32) (a : Fin 32) (b : Fin 32) : Coded.Statement (.remu st d a b) := by
  intro _
  refine ⟨fun w h => ?_, fun w h => ?_⟩ <;> cases h
  simp [decodeFields, maj02, fin8_val, c?_val]
  try omega

theorem Coded.clz (st : Fin 8) (d : Fin 32) (a : Fin 32) : Coded.Statement (.clz st d a) := by
  intro _
  refine ⟨fun w h => ?_, fun w h => ?_⟩ <;> cases h
  simp [decodeFields, maj02, fin8_val, c?_val]
  try omega

theorem Coded.ctz (st : Fin 8) (d : Fin 32) (a : Fin 32) : Coded.Statement (.ctz st d a) := by
  intro _
  refine ⟨fun w h => ?_, fun w h => ?_⟩ <;> cases h
  simp [decodeFields, maj02, fin8_val, c?_val]
  try omega

theorem Coded.popc (st : Fin 8) (d : Fin 32) (a : Fin 32) : Coded.Statement (.popc st d a) := by
  intro _
  refine ⟨fun w h => ?_, fun w h => ?_⟩ <;> cases h
  simp [decodeFields, maj02, fin8_val, c?_val]
  try omega

theorem Coded.bswap (st : Fin 8) (d : Fin 32) (a : Fin 32) : Coded.Statement (.bswap st d a) := by
  intro _
  refine ⟨fun w h => ?_, fun w h => ?_⟩ <;> cases h
  simp [decodeFields, maj02, fin8_val, c?_val]
  try omega

theorem Coded.lis (st : Fin 8) (d : Fin 32) (i : BitVec 16) : Coded.Statement (.lis st d i) := by
  intro _
  refine ⟨fun w h => ?_, fun w h => ?_⟩ <;> cases h
  simp [decodeFields, maj03, fin8_val, c?_val, const_parts, bv16]
  try omega

theorem Coded.lik (st : Fin 8) (d : Fin 32) (i : BitVec 16) : Coded.Statement (.lik st d i) := by
  intro _
  refine ⟨fun w h => ?_, fun w h => ?_⟩ <;> cases h
  simp [decodeFields, maj04, fin8_val, c?_val, const_parts, bv16]
  try omega

theorem Coded.cmov (st : Fin 8) (d : Fin 32) (a : Fin 32) : Coded.Statement (.cmov st d a) := by
  intro _
  refine ⟨fun w h => ?_, fun w h => ?_⟩ <;> cases h
  simp [decodeFields, maj05, fin8_val, c?_val]
  try omega

theorem Coded.cinc (st : Fin 8) (d : Fin 32) (a : Fin 32) (b : Fin 32) : Coded.Statement (.cinc st d a b) := by
  intro _
  refine ⟨fun w h => ?_, fun w h => ?_⟩ <;> cases h
  simp [decodeFields, maj05, fin8_val, c?_val]
  try omega

theorem Coded.cseta (st : Fin 8) (d : Fin 32) (a : Fin 32) (b : Fin 32) : Coded.Statement (.cseta st d a b) := by
  intro _
  refine ⟨fun w h => ?_, fun w h => ?_⟩ <;> cases h
  simp [decodeFields, maj05, fin8_val, c?_val]
  try omega

theorem Coded.csetb (st : Fin 8) (d : Fin 32) (a : Fin 32) (b : Fin 32) : Coded.Statement (.csetb st d a b) := by
  intro _
  refine ⟨fun w h => ?_, fun w h => ?_⟩ <;> cases h
  simp [decodeFields, maj05, fin8_val, c?_val]
  try omega

theorem Coded.csetbx (st : Fin 8) (d : Fin 32) (a : Fin 32) (b : Fin 32) : Coded.Statement (.csetbx st d a b) := by
  intro _
  refine ⟨fun w h => ?_, fun w h => ?_⟩ <;> cases h
  simp [decodeFields, maj05, fin8_val, c?_val]
  try omega

theorem Coded.candp (st : Fin 8) (d : Fin 32) (a : Fin 32) (b : Fin 32) : Coded.Statement (.candp st d a b) := by
  intro _
  refine ⟨fun w h => ?_, fun w h => ?_⟩ <;> cases h
  simp [decodeFields, maj05, fin8_val, c?_val]
  try omega

theorem Coded.cgeta (st : Fin 8) (d : Fin 32) (a : Fin 32) (h : Fin 2) : Coded.Statement (.cgeta st d a h) := by
  intro _
  refine ⟨fun w h => ?_, fun w h => ?_⟩ <;> cases h
  simp [decodeFields, maj05, fin8_val, c?_val, h?_val]
  try omega

theorem Coded.cgetb (st : Fin 8) (d : Fin 32) (a : Fin 32) (h : Fin 2) : Coded.Statement (.cgetb st d a h) := by
  intro _
  refine ⟨fun w h => ?_, fun w h => ?_⟩ <;> cases h
  simp [decodeFields, maj05, fin8_val, c?_val, h?_val]
  try omega

theorem Coded.cgett (st : Fin 8) (d : Fin 32) (a : Fin 32) (h : Fin 2) : Coded.Statement (.cgett st d a h) := by
  intro _
  refine ⟨fun w h => ?_, fun w h => ?_⟩ <;> cases h
  simp [decodeFields, maj05, fin8_val, c?_val, h?_val]
  try omega

theorem Coded.cgetp (st : Fin 8) (d : Fin 32) (a : Fin 32) : Coded.Statement (.cgetp st d a) := by
  intro _
  refine ⟨fun w h => ?_, fun w h => ?_⟩ <;> cases h
  simp [decodeFields, maj05, fin8_val, c?_val]
  try omega

theorem Coded.cgettag (st : Fin 8) (d : Fin 32) (a : Fin 32) : Coded.Statement (.cgettag st d a) := by
  intro _
  refine ⟨fun w h => ?_, fun w h => ?_⟩ <;> cases h
  simp [decodeFields, maj05, fin8_val, c?_val]
  try omega

theorem Coded.cclrtag (st : Fin 8) (d : Fin 32) (a : Fin 32) : Coded.Statement (.cclrtag st d a) := by
  intro _
  refine ⟨fun w h => ?_, fun w h => ?_⟩ <;> cases h
  simp [decodeFields, maj05, fin8_val, c?_val]
  try omega

theorem Coded.csub (st : Fin 8) (d : Fin 32) (a : Fin 32) (b : Fin 32) : Coded.Statement (.csub st d a b) := by
  intro _
  refine ⟨fun w h => ?_, fun w h => ?_⟩ <;> cases h
  simp [decodeFields, maj05, fin8_val, c?_val]
  try omega

theorem Coded.ctest (st : Fin 8) (d : Fin 32) (a : Fin 32) (b : Fin 32) : Coded.Statement (.ctest st d a b) := by
  intro _
  refine ⟨fun w h => ?_, fun w h => ?_⟩ <;> cases h
  simp [decodeFields, maj05, fin8_val, c?_val]
  try omega

theorem Coded.cinci (st : Fin 8) (d : Fin 32) (a : Fin 32) (i : BitVec 7) : Coded.Statement (.cinci st d a i) := by
  intro _
  refine ⟨fun w h => ?_, fun w h => ?_⟩ <;> cases h
  simp [decodeFields, maj06, fin8_val, c?_val, imm_sel, imm_rest, two_parts, bv7]
  try omega

theorem Coded.csetbi (st : Fin 8) (d : Fin 32) (a : Fin 32) (i : BitVec 7) : Coded.Statement (.csetbi st d a i) := by
  intro _
  refine ⟨fun w h => ?_, fun w h => ?_⟩ <;> cases h
  simp [decodeFields, maj06, fin8_val, c?_val, imm_sel, imm_rest, two_parts, bv7]
  try omega

theorem Coded.beq (st : Fin 8) (a : Fin 32) (off : BitVec 13) : Coded.Statement (.beq st a off) := by
  intro _
  refine ⟨fun w h => ?_, fun w h => ?_⟩ <;> cases h
  simp [decodeFields, maj07, fin8_val, c?_val, imm_sel, imm_rest, branch_parts, bv13]
  try omega

theorem Coded.bne (st : Fin 8) (a : Fin 32) (off : BitVec 13) : Coded.Statement (.bne st a off) := by
  intro _
  refine ⟨fun w h => ?_, fun w h => ?_⟩ <;> cases h
  simp [decodeFields, maj07, fin8_val, c?_val, imm_sel, imm_rest, branch_parts, bv13]
  try omega

theorem Coded.blt (st : Fin 8) (a : Fin 32) (off : BitVec 13) : Coded.Statement (.blt st a off) := by
  intro _
  refine ⟨fun w h => ?_, fun w h => ?_⟩ <;> cases h
  simp [decodeFields, maj07, fin8_val, c?_val, imm_sel, imm_rest, branch_parts, bv13]
  try omega

theorem Coded.bge (st : Fin 8) (a : Fin 32) (off : BitVec 13) : Coded.Statement (.bge st a off) := by
  intro _
  refine ⟨fun w h => ?_, fun w h => ?_⟩ <;> cases h
  simp [decodeFields, maj07, fin8_val, c?_val, imm_sel, imm_rest, branch_parts, bv13]
  try omega

theorem Coded.ble (st : Fin 8) (a : Fin 32) (off : BitVec 13) : Coded.Statement (.ble st a off) := by
  intro _
  refine ⟨fun w h => ?_, fun w h => ?_⟩ <;> cases h
  simp [decodeFields, maj07, fin8_val, c?_val, imm_sel, imm_rest, branch_parts, bv13]
  try omega

theorem Coded.bgt (st : Fin 8) (a : Fin 32) (off : BitVec 13) : Coded.Statement (.bgt st a off) := by
  intro _
  refine ⟨fun w h => ?_, fun w h => ?_⟩ <;> cases h
  simp [decodeFields, maj07, fin8_val, c?_val, imm_sel, imm_rest, branch_parts, bv13]
  try omega

theorem Coded.btag (st : Fin 8) (a : Fin 32) (off : BitVec 13) : Coded.Statement (.btag st a off) := by
  intro _
  refine ⟨fun w h => ?_, fun w h => ?_⟩ <;> cases h
  simp [decodeFields, maj07, fin8_val, c?_val, imm_sel, imm_rest, branch_parts, bv13]
  try omega

theorem Coded.bntag (st : Fin 8) (a : Fin 32) (off : BitVec 13) : Coded.Statement (.bntag st a off) := by
  intro _
  refine ⟨fun w h => ?_, fun w h => ?_⟩ <;> cases h
  simp [decodeFields, maj07, fin8_val, c?_val, imm_sel, imm_rest, branch_parts, bv13]
  try omega

theorem Coded.j (st : Fin 8) (off : BitVec 22) : Coded.Statement (.j st off) := by
  intro _
  refine ⟨fun w h => ?_, fun w h => ?_⟩ <;> cases h
  simp [decodeFields, maj08, fin8_val, jump_parts, bv22]
  try omega

theorem Coded.call (st : Fin 8) (off : BitVec 22) : Coded.Statement (.call st off) := by
  intro _
  refine ⟨fun w h => ?_, fun w h => ?_⟩ <;> cases h
  simp [decodeFields, maj09, fin8_val, jump_parts, bv22]
  try omega

theorem Coded.jr (st : Fin 8) (a : Fin 32) : Coded.Statement (.jr st a) := by
  intro _
  refine ⟨fun w h => ?_, fun w h => ?_⟩ <;> cases h
  simp [decodeFields, maj0A, fin8_val, c?_val]
  try omega

theorem Coded.callr (st : Fin 8) (d : Fin 32) (a : Fin 32) : Coded.Statement (.callr st d a) := by
  intro _
  refine ⟨fun w h => ?_, fun w h => ?_⟩ <;> cases h
  simp [decodeFields, maj0A, fin8_val, c?_val]
  try omega

theorem Coded.ret (st : Fin 8) (a : Fin 32) : Coded.Statement (.ret st a) := by
  intro _
  refine ⟨fun w h => ?_, fun w h => ?_⟩ <;> cases h
  simp [decodeFields, maj0A, fin8_val, c?_val]
  try omega

theorem Coded.lexit (st : Fin 8) (a : Fin 32) : Coded.Statement (.lexit st a) := by
  intro _
  refine ⟨fun w h => ?_, fun w h => ?_⟩ <;> cases h
  simp [decodeFields, maj0A, fin8_val, c?_val]
  try omega

theorem Coded.loop (st : Fin 8) (a : Fin 32) (n : Fin 8) : Coded.Statement (.loop st a n) := by
  intro _
  refine ⟨fun w h => ?_, fun w h => ?_⟩ <;> cases h
  simp [decodeFields, maj0B, fin8_val, c?_val]
  try omega

theorem Coded.ldB (st : Fin 8) (d : Fin 32) (a : Fin 32) (off : Int) : Coded.Statement (.ldB st d a off) := by
  intro w
  have w : -128 ≤ off ∧ off ≤ 127 := by simpa [Instr.wf] using w
  have l := off_lt off
  refine ⟨fun w h => ?_, fun w h => ?_⟩ <;> cases h
  simp [decodeFields, maj0C, fin8_val, c?_val, fin32_val, fin32_val, fin32_high, low_div, high_div, mem_sel, mem_rest, nib_parts, off_back off w.1 w.2]
  try omega

theorem Coded.ldBu (st : Fin 8) (d : Fin 32) (a : Fin 32) (off : Int) : Coded.Statement (.ldBu st d a off) := by
  intro w
  have w : -128 ≤ off ∧ off ≤ 127 := by simpa [Instr.wf] using w
  have l := off_lt off
  refine ⟨fun w h => ?_, fun w h => ?_⟩ <;> cases h
  simp [decodeFields, maj0C, fin8_val, c?_val, fin32_val, fin32_val, fin32_high, low_div, high_div, mem_sel, mem_rest, nib_parts, off_back off w.1 w.2]
  try omega

theorem Coded.ldH (st : Fin 8) (d : Fin 32) (a : Fin 32) (off : Int) : Coded.Statement (.ldH st d a off) := by
  intro w
  have w : -128 ≤ off ∧ off ≤ 127 := by simpa [Instr.wf] using w
  have l := off_lt off
  refine ⟨fun w h => ?_, fun w h => ?_⟩ <;> cases h
  simp [decodeFields, maj0C, fin8_val, c?_val, fin32_val, fin32_val, fin32_high, low_div, high_div, mem_sel, mem_rest, nib_parts, off_back off w.1 w.2]
  try omega

theorem Coded.ldHu (st : Fin 8) (d : Fin 32) (a : Fin 32) (off : Int) : Coded.Statement (.ldHu st d a off) := by
  intro w
  have w : -128 ≤ off ∧ off ≤ 127 := by simpa [Instr.wf] using w
  have l := off_lt off
  refine ⟨fun w h => ?_, fun w h => ?_⟩ <;> cases h
  simp [decodeFields, maj0C, fin8_val, c?_val, fin32_val, fin32_val, fin32_high, low_div, high_div, mem_sel, mem_rest, nib_parts, off_back off w.1 w.2]
  try omega

theorem Coded.ldW (st : Fin 8) (d : Fin 32) (a : Fin 32) (off : Int) : Coded.Statement (.ldW st d a off) := by
  intro w
  have w : -128 ≤ off ∧ off ≤ 127 := by simpa [Instr.wf] using w
  have l := off_lt off
  refine ⟨fun w h => ?_, fun w h => ?_⟩ <;> cases h
  simp [decodeFields, maj0C, fin8_val, c?_val, fin32_val, fin32_val, fin32_high, low_div, high_div, mem_sel, mem_rest, nib_parts, off_back off w.1 w.2]
  try omega

theorem Coded.ldWu (st : Fin 8) (d : Fin 32) (a : Fin 32) (off : Int) : Coded.Statement (.ldWu st d a off) := by
  intro w
  have w : -128 ≤ off ∧ off ≤ 127 := by simpa [Instr.wf] using w
  have l := off_lt off
  refine ⟨fun w h => ?_, fun w h => ?_⟩ <;> cases h
  simp [decodeFields, maj0C, fin8_val, c?_val, fin32_val, fin32_val, fin32_high, low_div, high_div, mem_sel, mem_rest, nib_parts, off_back off w.1 w.2]
  try omega

theorem Coded.ldD (st : Fin 8) (d : Fin 32) (a : Fin 32) (off : Int) : Coded.Statement (.ldD st d a off) := by
  intro w
  have w : -128 ≤ off ∧ off ≤ 127 := by simpa [Instr.wf] using w
  have l := off_lt off
  refine ⟨fun w h => ?_, fun w h => ?_⟩ <;> cases h
  simp [decodeFields, maj0C, fin8_val, c?_val, fin32_val, fin32_val, fin32_high, low_div, high_div, mem_sel, mem_rest, nib_parts, off_back off w.1 w.2]
  try omega

theorem Coded.ldC (st : Fin 8) (d : Fin 32) (a : Fin 32) (off : Int) : Coded.Statement (.ldC st d a off) := by
  intro w
  have w : -128 ≤ off ∧ off ≤ 127 := by simpa [Instr.wf] using w
  have l := off_lt off
  refine ⟨fun w h => ?_, fun w h => ?_⟩ <;> cases h
  simp [decodeFields, maj0C, fin8_val, c?_val, fin32_val, fin32_val, fin32_high, low_div, high_div, mem_sel, mem_rest, nib_parts, off_back off w.1 w.2]
  try omega

theorem Coded.stB (st : Fin 8) (d : Fin 32) (a : Fin 32) (off : Int) : Coded.Statement (.stB st d a off) := by
  intro w
  have w : -128 ≤ off ∧ off ≤ 127 := by simpa [Instr.wf] using w
  have l := off_lt off
  refine ⟨fun w h => ?_, fun w h => ?_⟩ <;> cases h
  simp [decodeFields, maj0D, fin8_val, c?_val, fin32_val, fin32_val, fin32_high, low_div, high_div, mem_sel, mem_rest, nib_parts, off_back off w.1 w.2]
  try omega

theorem Coded.stH (st : Fin 8) (d : Fin 32) (a : Fin 32) (off : Int) : Coded.Statement (.stH st d a off) := by
  intro w
  have w : -128 ≤ off ∧ off ≤ 127 := by simpa [Instr.wf] using w
  have l := off_lt off
  refine ⟨fun w h => ?_, fun w h => ?_⟩ <;> cases h
  simp [decodeFields, maj0D, fin8_val, c?_val, fin32_val, fin32_val, fin32_high, low_div, high_div, mem_sel, mem_rest, nib_parts, off_back off w.1 w.2]
  try omega

theorem Coded.stW (st : Fin 8) (d : Fin 32) (a : Fin 32) (off : Int) : Coded.Statement (.stW st d a off) := by
  intro w
  have w : -128 ≤ off ∧ off ≤ 127 := by simpa [Instr.wf] using w
  have l := off_lt off
  refine ⟨fun w h => ?_, fun w h => ?_⟩ <;> cases h
  simp [decodeFields, maj0D, fin8_val, c?_val, fin32_val, fin32_val, fin32_high, low_div, high_div, mem_sel, mem_rest, nib_parts, off_back off w.1 w.2]
  try omega

theorem Coded.stD (st : Fin 8) (d : Fin 32) (a : Fin 32) (off : Int) : Coded.Statement (.stD st d a off) := by
  intro w
  have w : -128 ≤ off ∧ off ≤ 127 := by simpa [Instr.wf] using w
  have l := off_lt off
  refine ⟨fun w h => ?_, fun w h => ?_⟩ <;> cases h
  simp [decodeFields, maj0D, fin8_val, c?_val, fin32_val, fin32_val, fin32_high, low_div, high_div, mem_sel, mem_rest, nib_parts, off_back off w.1 w.2]
  try omega

theorem Coded.stC (st : Fin 8) (d : Fin 32) (a : Fin 32) (off : Int) : Coded.Statement (.stC st d a off) := by
  intro w
  have w : -128 ≤ off ∧ off ≤ 127 := by simpa [Instr.wf] using w
  have l := off_lt off
  refine ⟨fun w h => ?_, fun w h => ?_⟩ <;> cases h
  simp [decodeFields, maj0D, fin8_val, c?_val, fin32_val, fin32_val, fin32_high, low_div, high_div, mem_sel, mem_rest, nib_parts, off_back off w.1 w.2]
  try omega

theorem Coded.aaddD (st : Fin 8) (d : Fin 32) (a : Fin 32) (b : Fin 32) : Coded.Statement (.aaddD st d a b) := by
  intro _
  refine ⟨fun w h => ?_, fun w h => ?_⟩ <;> cases h
  simp [decodeFields, maj0E, fin8_val, c?_val]
  try omega

theorem Coded.aandD (st : Fin 8) (d : Fin 32) (a : Fin 32) (b : Fin 32) : Coded.Statement (.aandD st d a b) := by
  intro _
  refine ⟨fun w h => ?_, fun w h => ?_⟩ <;> cases h
  simp [decodeFields, maj0E, fin8_val, c?_val]
  try omega

theorem Coded.aorD (st : Fin 8) (d : Fin 32) (a : Fin 32) (b : Fin 32) : Coded.Statement (.aorD st d a b) := by
  intro _
  refine ⟨fun w h => ?_, fun w h => ?_⟩ <;> cases h
  simp [decodeFields, maj0E, fin8_val, c?_val]
  try omega

theorem Coded.axorD (st : Fin 8) (d : Fin 32) (a : Fin 32) (b : Fin 32) : Coded.Statement (.axorD st d a b) := by
  intro _
  refine ⟨fun w h => ?_, fun w h => ?_⟩ <;> cases h
  simp [decodeFields, maj0E, fin8_val, c?_val]
  try omega

theorem Coded.aminD (st : Fin 8) (d : Fin 32) (a : Fin 32) (b : Fin 32) : Coded.Statement (.aminD st d a b) := by
  intro _
  refine ⟨fun w h => ?_, fun w h => ?_⟩ <;> cases h
  simp [decodeFields, maj0E, fin8_val, c?_val]
  try omega

theorem Coded.amaxD (st : Fin 8) (d : Fin 32) (a : Fin 32) (b : Fin 32) : Coded.Statement (.amaxD st d a b) := by
  intro _
  refine ⟨fun w h => ?_, fun w h => ?_⟩ <;> cases h
  simp [decodeFields, maj0E, fin8_val, c?_val]
  try omega

theorem Coded.aminuD (st : Fin 8) (d : Fin 32) (a : Fin 32) (b : Fin 32) : Coded.Statement (.aminuD st d a b) := by
  intro _
  refine ⟨fun w h => ?_, fun w h => ?_⟩ <;> cases h
  simp [decodeFields, maj0E, fin8_val, c?_val]
  try omega

theorem Coded.amaxuD (st : Fin 8) (d : Fin 32) (a : Fin 32) (b : Fin 32) : Coded.Statement (.amaxuD st d a b) := by
  intro _
  refine ⟨fun w h => ?_, fun w h => ?_⟩ <;> cases h
  simp [decodeFields, maj0E, fin8_val, c?_val]
  try omega

theorem Coded.aswapD (st : Fin 8) (d : Fin 32) (a : Fin 32) (b : Fin 32) : Coded.Statement (.aswapD st d a b) := by
  intro _
  refine ⟨fun w h => ?_, fun w h => ?_⟩ <;> cases h
  simp [decodeFields, maj0E, fin8_val, c?_val]
  try omega

theorem Coded.acasD (st : Fin 8) (d : Fin 32) (a : Fin 32) (b : Fin 32) : Coded.Statement (.acasD st d a b) := by
  intro _
  refine ⟨fun w h => ?_, fun w h => ?_⟩ <;> cases h
  simp [decodeFields, maj0E, fin8_val, c?_val]
  try omega

theorem Coded.afaddD (st : Fin 8) (d : Fin 32) (a : Fin 32) (b : Fin 32) : Coded.Statement (.afaddD st d a b) := by
  intro _
  refine ⟨fun w h => ?_, fun w h => ?_⟩ <;> cases h
  simp [decodeFields, maj0E, fin8_val, c?_val]
  try omega

theorem Coded.aaddW (st : Fin 8) (d : Fin 32) (a : Fin 32) (b : Fin 32) : Coded.Statement (.aaddW st d a b) := by
  intro _
  refine ⟨fun w h => ?_, fun w h => ?_⟩ <;> cases h
  simp [decodeFields, maj0F, fin8_val, c?_val]
  try omega

theorem Coded.aandW (st : Fin 8) (d : Fin 32) (a : Fin 32) (b : Fin 32) : Coded.Statement (.aandW st d a b) := by
  intro _
  refine ⟨fun w h => ?_, fun w h => ?_⟩ <;> cases h
  simp [decodeFields, maj0F, fin8_val, c?_val]
  try omega

theorem Coded.aorW (st : Fin 8) (d : Fin 32) (a : Fin 32) (b : Fin 32) : Coded.Statement (.aorW st d a b) := by
  intro _
  refine ⟨fun w h => ?_, fun w h => ?_⟩ <;> cases h
  simp [decodeFields, maj0F, fin8_val, c?_val]
  try omega

theorem Coded.axorW (st : Fin 8) (d : Fin 32) (a : Fin 32) (b : Fin 32) : Coded.Statement (.axorW st d a b) := by
  intro _
  refine ⟨fun w h => ?_, fun w h => ?_⟩ <;> cases h
  simp [decodeFields, maj0F, fin8_val, c?_val]
  try omega

theorem Coded.aminW (st : Fin 8) (d : Fin 32) (a : Fin 32) (b : Fin 32) : Coded.Statement (.aminW st d a b) := by
  intro _
  refine ⟨fun w h => ?_, fun w h => ?_⟩ <;> cases h
  simp [decodeFields, maj0F, fin8_val, c?_val]
  try omega

theorem Coded.amaxW (st : Fin 8) (d : Fin 32) (a : Fin 32) (b : Fin 32) : Coded.Statement (.amaxW st d a b) := by
  intro _
  refine ⟨fun w h => ?_, fun w h => ?_⟩ <;> cases h
  simp [decodeFields, maj0F, fin8_val, c?_val]
  try omega

theorem Coded.aminuW (st : Fin 8) (d : Fin 32) (a : Fin 32) (b : Fin 32) : Coded.Statement (.aminuW st d a b) := by
  intro _
  refine ⟨fun w h => ?_, fun w h => ?_⟩ <;> cases h
  simp [decodeFields, maj0F, fin8_val, c?_val]
  try omega

theorem Coded.amaxuW (st : Fin 8) (d : Fin 32) (a : Fin 32) (b : Fin 32) : Coded.Statement (.amaxuW st d a b) := by
  intro _
  refine ⟨fun w h => ?_, fun w h => ?_⟩ <;> cases h
  simp [decodeFields, maj0F, fin8_val, c?_val]
  try omega

theorem Coded.aswapW (st : Fin 8) (d : Fin 32) (a : Fin 32) (b : Fin 32) : Coded.Statement (.aswapW st d a b) := by
  intro _
  refine ⟨fun w h => ?_, fun w h => ?_⟩ <;> cases h
  simp [decodeFields, maj0F, fin8_val, c?_val]
  try omega

theorem Coded.acasW (st : Fin 8) (d : Fin 32) (a : Fin 32) (b : Fin 32) : Coded.Statement (.acasW st d a b) := by
  intro _
  refine ⟨fun w h => ?_, fun w h => ?_⟩ <;> cases h
  simp [decodeFields, maj0F, fin8_val, c?_val]
  try omega

theorem Coded.afaddW (st : Fin 8) (d : Fin 32) (a : Fin 32) (b : Fin 32) : Coded.Statement (.afaddW st d a b) := by
  intro _
  refine ⟨fun w h => ?_, fun w h => ?_⟩ <;> cases h
  simp [decodeFields, maj0F, fin8_val, c?_val]
  try omega

theorem Coded.afaddbf (st : Fin 8) (d : Fin 32) (a : Fin 32) (b : Fin 32) : Coded.Statement (.afaddbf st d a b) := by
  intro _
  refine ⟨fun w h => ?_, fun w h => ?_⟩ <;> cases h
  simp [decodeFields, maj0F, fin8_val, c?_val]
  try omega

theorem Coded.fence (st : Fin 8) (n : Nat) : Coded.Statement (.fence st n) := by
  intro w
  have w : n < 64 := by simpa [Instr.wf] using w
  refine ⟨fun w h => ?_, fun w h => ?_⟩ <;> cases h
  simp [decodeFields, maj10, fin8_val]
  try omega

theorem Coded.fencer (st : Fin 8) (d : Fin 32) : Coded.Statement (.fencer st d) := by
  intro _
  refine ⟨fun w h => ?_, fun w h => ?_⟩ <;> cases h
  simp [decodeFields, maj10, fin8_val, c?_val]
  try omega

theorem Coded.clean (st : Fin 8) (a : Fin 32) (b : Fin 32) : Coded.Statement (.clean st a b) := by
  intro _
  refine ⟨fun w h => ?_, fun w h => ?_⟩ <;> cases h
  simp [decodeFields, maj10, fin8_val, c?_val]
  try omega

theorem Coded.inval (st : Fin 8) (a : Fin 32) (b : Fin 32) : Coded.Statement (.inval st a b) := by
  intro _
  refine ⟨fun w h => ?_, fun w h => ?_⟩ <;> cases h
  simp [decodeFields, maj10, fin8_val, c?_val]
  try omega

theorem Coded.waitj (st : Fin 8) (d : Fin 32) (a : Fin 32) : Coded.Statement (.waitj st d a) := by
  intro _
  refine ⟨fun w h => ?_, fun w h => ?_⟩ <;> cases h
  simp [decodeFields, maj10, fin8_val, c?_val]
  try omega

theorem Coded.pollj (st : Fin 8) (d : Fin 32) (a : Fin 32) : Coded.Statement (.pollj st d a) := by
  intro _
  refine ⟨fun w h => ?_, fun w h => ?_⟩ <;> cases h
  simp [decodeFields, maj10, fin8_val, c?_val]
  try omega

theorem Coded.sleep (st : Fin 8) (a : Fin 32) : Coded.Statement (.sleep st a) := by
  intro _
  refine ⟨fun w h => ?_, fun w h => ?_⟩ <;> cases h
  simp [decodeFields, maj10, fin8_val, c?_val]
  try omega

theorem Coded.yield (st : Fin 8) : Coded.Statement (.yield st) := by
  intro _
  refine ⟨fun w h => ?_, fun w h => ?_⟩ <;> cases h
  simp [decodeFields, maj10, fin8_val]
  try omega

theorem Coded.vld (st : Fin 8) (d : Fin 64) (a : Fin 32) : Coded.Statement (.vld st d a) := by
  intro _
  refine ⟨fun w h => ?_, fun w h => ?_⟩ <;> cases h
  simp [decodeFields, maj11, fin8_val, fin64_val, c?_val]
  try omega

theorem Coded.vst (st : Fin 8) (d : Fin 64) (a : Fin 32) : Coded.Statement (.vst st d a) := by
  intro _
  refine ⟨fun w h => ?_, fun w h => ?_⟩ <;> cases h
  simp [decodeFields, maj11, fin8_val, fin64_val, c?_val]
  try omega

theorem Coded.vlds (st : Fin 8) (d : Fin 64) (a : Fin 32) (b : Fin 32) : Coded.Statement (.vlds st d a b) := by
  intro _
  refine ⟨fun w h => ?_, fun w h => ?_⟩ <;> cases h
  simp [decodeFields, maj11, fin8_val, fin64_val, c?_val]
  try omega

theorem Coded.vsts (st : Fin 8) (d : Fin 64) (a : Fin 32) (b : Fin 32) : Coded.Statement (.vsts st d a b) := by
  intro _
  refine ⟨fun w h => ?_, fun w h => ?_⟩ <;> cases h
  simp [decodeFields, maj11, fin8_val, fin64_val, c?_val]
  try omega

theorem Coded.vldx (st : Fin 8) (d : Fin 64) (a : Fin 32) (b : Fin 64) : Coded.Statement (.vldx st d a b) := by
  intro _
  refine ⟨fun w h => ?_, fun w h => ?_⟩ <;> cases h
  simp [decodeFields, maj11, fin8_val, fin64_val, c?_val]
  try omega

theorem Coded.vstx (st : Fin 8) (d : Fin 64) (a : Fin 32) (b : Fin 64) : Coded.Statement (.vstx st d a b) := by
  intro _
  refine ⟨fun w h => ?_, fun w h => ?_⟩ <;> cases h
  simp [decodeFields, maj11, fin8_val, fin64_val, c?_val]
  try omega

theorem Coded.vldt (st : Fin 8) (d : Fin 64) (a : Fin 32) (b : Fin 32) : Coded.Statement (.vldt st d a b) := by
  intro _
  refine ⟨fun w h => ?_, fun w h => ?_⟩ <;> cases h
  simp [decodeFields, maj11, fin8_val, fin64_val, c?_val]
  try omega

theorem Coded.vstt (st : Fin 8) (d : Fin 64) (a : Fin 32) (b : Fin 32) : Coded.Statement (.vstt st d a b) := by
  intro _
  refine ⟨fun w h => ?_, fun w h => ?_⟩ <;> cases h
  simp [decodeFields, maj11, fin8_val, fin64_val, c?_val]
  try omega

theorem Coded.sbind (st : Fin 8) (d : Fin 8) (a : Fin 32) (b : Fin 32) : Coded.Statement (.sbind st d a b) := by
  intro _
  refine ⟨fun w h => ?_, fun w h => ?_⟩ <;> cases h
  simp [decodeFields, maj11, fin8_val, m?_val, c?_val]
  try omega

theorem Coded.sunbind (st : Fin 8) (d : Fin 8) : Coded.Statement (.sunbind st d) := by
  intro _
  refine ⟨fun w h => ?_, fun w h => ?_⟩ <;> cases h
  simp [decodeFields, maj11, fin8_val, m?_val]
  try omega

theorem Coded.vldb (st : Fin 8) (d : Fin 64) (a : Fin 32) (b : Fin 32) : Coded.Statement (.vldb st d a b) := by
  intro _
  refine ⟨fun w h => ?_, fun w h => ?_⟩ <;> cases h
  simp [decodeFields, maj11, fin8_val, fin64_val, c?_val]
  try omega

theorem Coded.tpred (st : Fin 8) (d : Fin 16) (a : Fin 32) (b : Fin 32) : Coded.Statement (.tpred st d a b) := by
  intro _
  refine ⟨fun w h => ?_, fun w h => ?_⟩ <;> cases h
  simp [decodeFields, maj12, fin8_val, g?_val, c?_val]
  try omega

theorem Coded.tvclr (st : Fin 8) (a : Fin 32) (b : Fin 32) : Coded.Statement (.tvclr st a b) := by
  intro _
  refine ⟨fun w h => ?_, fun w h => ?_⟩ <;> cases h
  simp [decodeFields, maj12, fin8_val, c?_val]
  try omega

theorem Coded.tvset (st : Fin 8) (a : Fin 32) (b : Fin 32) : Coded.Statement (.tvset st a b) := by
  intro _
  refine ⟨fun w h => ?_, fun w h => ?_⟩ <;> cases h
  simp [decodeFields, maj12, fin8_val, c?_val]
  try omega

theorem Coded.thdr (st : Fin 8) (a : Fin 32) (b : Fin 32) : Coded.Statement (.thdr st a b) := by
  intro _
  refine ⟨fun w h => ?_, fun w h => ?_⟩ <;> cases h
  simp [decodeFields, maj12, fin8_val, c?_val]
  try omega

theorem Coded.gath (st : Fin 8) (d : Fin 32) (a : Fin 32) (b : Fin 64) : Coded.Statement (.gath st d a b) := by
  intro _
  refine ⟨fun w h => ?_, fun w h => ?_⟩ <;> cases h
  simp [decodeFields, maj12, fin8_val, c?_val, fin64_val]
  try omega

theorem Coded.scat (st : Fin 8) (d : Fin 32) (a : Fin 32) (b : Fin 64) : Coded.Statement (.scat st d a b) := by
  intro _
  refine ⟨fun w h => ?_, fun w h => ?_⟩ <;> cases h
  simp [decodeFields, maj12, fin8_val, c?_val, fin64_val]
  try omega

theorem Coded.gathst (st : Fin 8) (d : Fin 32) (a : Fin 32) (b : Fin 32) : Coded.Statement (.gathst st d a b) := by
  intro _
  refine ⟨fun w h => ?_, fun w h => ?_⟩ <;> cases h
  simp [decodeFields, maj12, fin8_val, c?_val]
  try omega

theorem Coded.vsort (st : Fin 8) (d : Fin 64) (a : Fin 64) (b : Fin 64) : Coded.Statement (.vsort st d a b) := by
  intro _
  refine ⟨fun w h => ?_, fun w h => ?_⟩ <;> cases h
  simp [decodeFields, maj13, fin8_val, fin64_val]
  try omega

theorem Coded.vsortx (st : Fin 8) (d : Fin 64) (a : Fin 64) (b : Fin 64) : Coded.Statement (.vsortx st d a b) := by
  intro _
  refine ⟨fun w h => ?_, fun w h => ?_⟩ <;> cases h
  simp [decodeFields, maj13, fin8_val, fin64_val]
  try omega

theorem Coded.vbstep (st : Fin 8) (d : Fin 64) (a : Fin 64) (b : Fin 64) : Coded.Statement (.vbstep st d a b) := by
  intro _
  refine ⟨fun w h => ?_, fun w h => ?_⟩ <;> cases h
  simp [decodeFields, maj13, fin8_val, fin64_val]
  try omega

theorem Coded.vtopk (st : Fin 8) (d : Fin 64) (a : Fin 64) (b : Fin 64) : Coded.Statement (.vtopk st d a b) := by
  intro _
  refine ⟨fun w h => ?_, fun w h => ?_⟩ <;> cases h
  simp [decodeFields, maj13, fin8_val, fin64_val]
  try omega

theorem Coded.vmergek (st : Fin 8) (d : Fin 64) (a : Fin 64) (b : Fin 64) : Coded.Statement (.vmergek st d a b) := by
  intro _
  refine ⟨fun w h => ?_, fun w h => ?_⟩ <;> cases h
  simp [decodeFields, maj13, fin8_val, fin64_val]
  try omega

theorem Coded.vrank (st : Fin 8) (d : Fin 64) (a : Fin 64) : Coded.Statement (.vrank st d a) := by
  intro _
  refine ⟨fun w h => ?_, fun w h => ?_⟩ <;> cases h
  simp [decodeFields, maj13, fin8_val, fin64_val]
  try omega

theorem Coded.occfg (st : Fin 8) (d : Fin 32) (a : Fin 32) (b : Fin 32) : Coded.Statement (.occfg st d a b) := by
  intro _
  refine ⟨fun w h => ?_, fun w h => ?_⟩ <;> cases h
  simp [decodeFields, maj14, fin8_val, c?_val]
  try omega

theorem Coded.ocemit (st : Fin 8) (d : Fin 32) (a : Fin 64) : Coded.Statement (.ocemit st d a) := by
  intro _
  refine ⟨fun w h => ?_, fun w h => ?_⟩ <;> cases h
  simp [decodeFields, maj14, fin8_val, c?_val, fin64_val]
  try omega

theorem Coded.ocemiti (st : Fin 8) (d : Fin 32) (a : Fin 64) (b : Fin 64) : Coded.Statement (.ocemiti st d a b) := by
  intro _
  refine ⟨fun w h => ?_, fun w h => ?_⟩ <;> cases h
  simp [decodeFields, maj14, fin8_val, c?_val, fin64_val]
  try omega

theorem Coded.ocacc (st : Fin 8) (d : Fin 64) : Coded.Statement (.ocacc st d) := by
  intro _
  refine ⟨fun w h => ?_, fun w h => ?_⟩ <;> cases h
  simp [decodeFields, maj14, fin8_val, fin64_val]
  try omega

theorem Coded.ocstat (st : Fin 8) (d : Fin 32) (h : Nat) : Coded.Statement (.ocstat st d h) := by
  intro w
  have w : h < 64 := by simpa [Instr.wf] using w
  refine ⟨fun w h => ?_, fun w h => ?_⟩ <;> cases h
  simp [decodeFields, maj14, fin8_val, c?_val]
  try omega

theorem Coded.ocrst (st : Fin 8) : Coded.Statement (.ocrst st) := by
  intro _
  refine ⟨fun w h => ?_, fun w h => ?_⟩ <;> cases h
  simp [decodeFields, maj14, fin8_val]
  try omega

theorem Coded.ocgw (st : Fin 8) (a : Fin 32) (b : Fin 64) : Coded.Statement (.ocgw st a b) := by
  intro _
  refine ⟨fun w h => ?_, fun w h => ?_⟩ <;> cases h
  simp [decodeFields, maj14, fin8_val, c?_val, fin64_val]
  try omega

theorem Coded.ocga (st : Fin 8) (a : Fin 32) (b : Fin 64) : Coded.Statement (.ocga st a b) := by
  intro _
  refine ⟨fun w h => ?_, fun w h => ?_⟩ <;> cases h
  simp [decodeFields, maj14, fin8_val, c?_val, fin64_val]
  try omega

theorem Coded.ocgf (st : Fin 8) (a : Fin 32) (b : Fin 64) : Coded.Statement (.ocgf st a b) := by
  intro _
  refine ⟨fun w h => ?_, fun w h => ?_⟩ <;> cases h
  simp [decodeFields, maj14, fin8_val, c?_val, fin64_val]
  try omega

theorem Coded.mmode (st : Fin 8) (n : Nat) : Coded.Statement (.mmode st n) := by
  intro w
  have w : n < 64 := by simpa [Instr.wf] using w
  refine ⟨fun w h => ?_, fun w h => ?_⟩ <;> cases h
  simp [decodeFields, maj15, fin8_val]
  try omega

theorem Coded.mop (st : Fin 8) (d : Fin 32) (a : Fin 64) (b : Fin 64) : Coded.Statement (.mop st d a b) := by
  intro _
  refine ⟨fun w h => ?_, fun w h => ?_⟩ <;> cases h
  simp [decodeFields, maj15, fin8_val, c?_val, fin64_val]
  try omega

theorem Coded.msqd (st : Fin 8) (d : Fin 32) (a : Fin 64) (b : Fin 64) : Coded.Statement (.msqd st d a b) := by
  intro _
  refine ⟨fun w h => ?_, fun w h => ?_⟩ <;> cases h
  simp [decodeFields, maj15, fin8_val, c?_val, fin64_val]
  try omega

theorem Coded.mtopk (st : Fin 8) (d : Fin 64) (k : Nat) : Coded.Statement (.mtopk st d k) := by
  intro w
  have w : k < 64 := by simpa [Instr.wf] using w
  refine ⟨fun w h => ?_, fun w h => ?_⟩ <;> cases h
  simp [decodeFields, maj15, fin8_val, fin64_val]
  try omega

theorem Coded.accrd (st : Fin 8) (d : Fin 64) (a : Fin 32) (b : Fin 32) : Coded.Statement (.accrd st d a b) := by
  intro _
  refine ⟨fun w h => ?_, fun w h => ?_⟩ <;> cases h
  simp [decodeFields, maj15, fin8_val, fin64_val, c?_val]
  try omega

theorem Coded.accz (st : Fin 8) : Coded.Statement (.accz st) := by
  intro _
  refine ⟨fun w h => ?_, fun w h => ?_⟩ <;> cases h
  simp [decodeFields, maj15, fin8_val]
  try omega

theorem Coded.mdrain (st : Fin 8) (d : Fin 32) (a : Fin 32) (b : Fin 32) : Coded.Statement (.mdrain st d a b) := by
  intro _
  refine ⟨fun w h => ?_, fun w h => ?_⟩ <;> cases h
  simp [decodeFields, maj15, fin8_val, c?_val]
  try omega

theorem Coded.mwait (st : Fin 8) (n : Nat) : Coded.Statement (.mwait st n) := by
  intro w
  have w : n < 64 := by simpa [Instr.wf] using w
  refine ⟨fun w h => ?_, fun w h => ?_⟩ <;> cases h
  simp [decodeFields, maj15, fin8_val]
  try omega

theorem Coded.mnmb (st : Fin 8) (a : Fin 64) : Coded.Statement (.mnmb st a) := by
  intro _
  refine ⟨fun w h => ?_, fun w h => ?_⟩ <;> cases h
  simp [decodeFields, maj15, fin8_val, fin64_val]
  try omega

theorem Coded.cpy (st : Fin 8) (d : Fin 32) (a : Fin 32) (b : Fin 32) : Coded.Statement (.cpy st d a b) := by
  intro _
  refine ⟨fun w h => ?_, fun w h => ?_⟩ <;> cases h
  simp [decodeFields, maj16, fin8_val, c?_val]
  try omega

theorem Coded.cpy2d (st : Fin 8) (d : Fin 32) (a : Fin 32) (b : Fin 32) : Coded.Statement (.cpy2d st d a b) := by
  intro _
  refine ⟨fun w h => ?_, fun w h => ?_⟩ <;> cases h
  simp [decodeFields, maj16, fin8_val, c?_val]
  try omega

theorem Coded.cpyq (st : Fin 8) (d : Fin 32) (a : Fin 32) (b : Fin 32) : Coded.Statement (.cpyq st d a b) := by
  intro _
  refine ⟨fun w h => ?_, fun w h => ?_⟩ <;> cases h
  simp [decodeFields, maj16, fin8_val, c?_val]
  try omega

theorem Coded.cpyx (st : Fin 8) (d : Fin 32) (a : Fin 32) (b : Fin 32) : Coded.Statement (.cpyx st d a b) := by
  intro _
  refine ⟨fun w h => ?_, fun w h => ?_⟩ <;> cases h
  simp [decodeFields, maj16, fin8_val, c?_val]
  try omega

theorem Coded.tbegin (st : Fin 8) (a : Fin 32) (b : Fin 32) : Coded.Statement (.tbegin st a b) := by
  intro _
  refine ⟨fun w h => ?_, fun w h => ?_⟩ <;> cases h
  simp [decodeFields, maj17, fin8_val, c?_val]
  try omega

theorem Coded.trec (st : Fin 8) (a : Fin 32) : Coded.Statement (.trec st a) := by
  intro _
  refine ⟨fun w h => ?_, fun w h => ?_⟩ <;> cases h
  simp [decodeFields, maj17, fin8_val, c?_val]
  try omega

theorem Coded.trecb (st : Fin 8) (a : Fin 32) : Coded.Statement (.trecb st a) := by
  intro _
  refine ⟨fun w h => ?_, fun w h => ?_⟩ <;> cases h
  simp [decodeFields, maj17, fin8_val, c?_val]
  try omega

theorem Coded.trecv (st : Fin 8) (a : Fin 64) (n : Nat) : Coded.Statement (.trecv st a n) := by
  intro w
  have w : n < 64 := by simpa [Instr.wf] using w
  refine ⟨fun w h => ?_, fun w h => ?_⟩ <;> cases h
  simp [decodeFields, maj17, fin8_val, fin64_val]
  try omega

theorem Coded.tend (st : Fin 8) (d : Fin 32) : Coded.Statement (.tend st d) := by
  intro _
  refine ⟨fun w h => ?_, fun w h => ?_⟩ <;> cases h
  simp [decodeFields, maj17, fin8_val, c?_val]
  try omega

theorem Coded.tplay (st : Fin 8) (a : Fin 32) (b : Fin 32) : Coded.Statement (.tplay st a b) := by
  intro _
  refine ⟨fun w h => ?_, fun w h => ?_⟩ <;> cases h
  simp [decodeFields, maj17, fin8_val, c?_val]
  try omega

theorem Coded.tpop (st : Fin 8) (d : Fin 32) (n : Nat) : Coded.Statement (.tpop st d n) := by
  intro w
  have w : n < 64 := by simpa [Instr.wf] using w
  refine ⟨fun w h => ?_, fun w h => ?_⟩ <;> cases h
  simp [decodeFields, maj17, fin8_val, c?_val]
  try omega

theorem Coded.tpopb (st : Fin 8) (d : Fin 32) : Coded.Statement (.tpopb st d) := by
  intro _
  refine ⟨fun w h => ?_, fun w h => ?_⟩ <;> cases h
  simp [decodeFields, maj17, fin8_val, c?_val]
  try omega

theorem Coded.tpopv (st : Fin 8) (d : Fin 64) (n : Nat) : Coded.Statement (.tpopv st d n) := by
  intro w
  have w : n < 64 := by simpa [Instr.wf] using w
  refine ⟨fun w h => ?_, fun w h => ?_⟩ <;> cases h
  simp [decodeFields, maj17, fin8_val, fin64_val]
  try omega

theorem Coded.tstat (st : Fin 8) (d : Fin 32) (n : Nat) : Coded.Statement (.tstat st d n) := by
  intro w
  have w : n < 64 := by simpa [Instr.wf] using w
  refine ⟨fun w h => ?_, fun w h => ?_⟩ <;> cases h
  simp [decodeFields, maj17, fin8_val, c?_val]
  try omega

theorem Coded.send (st : Fin 8) (d : Fin 32) (a : Fin 32) (b : Fin 32) : Coded.Statement (.send st d a b) := by
  intro _
  refine ⟨fun w h => ?_, fun w h => ?_⟩ <;> cases h
  simp [decodeFields, maj18, fin8_val, c?_val]
  try omega

theorem Coded.tenq (st : Fin 8) (d : Fin 32) (a : Fin 32) (b : Fin 32) : Coded.Statement (.tenq st d a b) := by
  intro _
  refine ⟨fun w h => ?_, fun w h => ?_⟩ <;> cases h
  simp [decodeFields, maj18, fin8_val, c?_val]
  try omega

theorem Coded.rfork (st : Fin 8) (d : Fin 32) (a : Fin 32) (b : Fin 32) : Coded.Statement (.rfork st d a b) := by
  intro _
  refine ⟨fun w h => ?_, fun w h => ?_⟩ <;> cases h
  simp [decodeFields, maj18, fin8_val, c?_val]
  try omega

theorem Coded.join (st : Fin 8) (a : Fin 32) : Coded.Statement (.join st a) := by
  intro _
  refine ⟨fun w h => ?_, fun w h => ?_⟩ <;> cases h
  simp [decodeFields, maj18, fin8_val, c?_val]
  try omega

theorem Coded.tbind (st : Fin 8) (d : Fin 32) (a : Fin 32) (b : Fin 32) : Coded.Statement (.tbind st d a b) := by
  intro _
  refine ⟨fun w h => ?_, fun w h => ?_⟩ <;> cases h
  simp [decodeFields, maj18, fin8_val, c?_val]
  try omega

theorem Coded.tunbind (st : Fin 8) (d : Fin 32) (a : Fin 32) : Coded.Statement (.tunbind st d a) := by
  intro _
  refine ⟨fun w h => ?_, fun w h => ?_⟩ <;> cases h
  simp [decodeFields, maj18, fin8_val, c?_val]
  try omega

theorem Coded.tfire (st : Fin 8) (d : Fin 32) (a : Fin 32) (b : Fin 32) : Coded.Statement (.tfire st d a b) := by
  intro _
  refine ⟨fun w h => ?_, fun w h => ?_⟩ <;> cases h
  simp [decodeFields, maj18, fin8_val, c?_val]
  try omega

theorem Coded.chopen (st : Fin 8) (d : Fin 32) (a : Fin 32) (b : Fin 32) : Coded.Statement (.chopen st d a b) := by
  intro _
  refine ⟨fun w h => ?_, fun w h => ?_⟩ <;> cases h
  simp [decodeFields, maj18, fin8_val, c?_val]
  try omega

theorem Coded.chclose (st : Fin 8) (a : Fin 32) : Coded.Statement (.chclose st a) := by
  intro _
  refine ⟨fun w h => ?_, fun w h => ?_⟩ <;> cases h
  simp [decodeFields, maj18, fin8_val, c?_val]
  try omega

theorem Coded.chsend (st : Fin 8) (d : Fin 32) (a : Fin 32) (b : Fin 32) : Coded.Statement (.chsend st d a b) := by
  intro _
  refine ⟨fun w h => ?_, fun w h => ?_⟩ <;> cases h
  simp [decodeFields, maj18, fin8_val, c?_val]
  try omega

theorem Coded.chrecv (st : Fin 8) (d : Fin 32) (a : Fin 32) (b : Fin 32) : Coded.Statement (.chrecv st d a b) := by
  intro _
  refine ⟨fun w h => ?_, fun w h => ?_⟩ <;> cases h
  simp [decodeFields, maj18, fin8_val, c?_val]
  try omega

theorem Coded.exit (st : Fin 8) : Coded.Statement (.exit st) := by
  intro _
  refine ⟨fun w h => ?_, fun w h => ?_⟩ <;> cases h
  simp [decodeFields, maj18, fin8_val]
  try omega

theorem Coded.hstart (st : Fin 8) (d : Fin 32) (a : Fin 32) (b : Fin 32) : Coded.Statement (.hstart st d a b) := by
  intro _
  refine ⟨fun w h => ?_, fun w h => ?_⟩ <;> cases h
  simp [decodeFields, maj19, fin8_val, c?_val]
  try omega

theorem Coded.hstop (st : Fin 8) (a : Fin 32) : Coded.Statement (.hstop st a) := by
  intro _
  refine ⟨fun w h => ?_, fun w h => ?_⟩ <;> cases h
  simp [decodeFields, maj19, fin8_val, c?_val]
  try omega

theorem Coded.hstat (st : Fin 8) (d : Fin 32) (a : Fin 32) (b : Fin 32) : Coded.Statement (.hstat st d a b) := by
  intro _
  refine ⟨fun w h => ?_, fun w h => ?_⟩ <;> cases h
  simp [decodeFields, maj19, fin8_val, c?_val]
  try omega

theorem Coded.bari (st : Fin 8) (a : Fin 32) (b : Fin 32) : Coded.Statement (.bari st a b) := by
  intro _
  refine ⟨fun w h => ?_, fun w h => ?_⟩ <;> cases h
  simp [decodeFields, maj19, fin8_val, c?_val]
  try omega

theorem Coded.bara (st : Fin 8) (d : Fin 32) (a : Fin 32) (b : Fin 32) : Coded.Statement (.bara st d a b) := by
  intro _
  refine ⟨fun w h => ?_, fun w h => ?_⟩ <;> cases h
  simp [decodeFields, maj19, fin8_val, c?_val]
  try omega

theorem Coded.barad (st : Fin 8) (d : Fin 32) (a : Fin 32) (b : Fin 32) : Coded.Statement (.barad st d a b) := by
  intro _
  refine ⟨fun w h => ?_, fun w h => ?_⟩ <;> cases h
  simp [decodeFields, maj19, fin8_val, c?_val]
  try omega

theorem Coded.barw (st : Fin 8) (d : Fin 32) (a : Fin 32) (b : Fin 32) : Coded.Statement (.barw st d a b) := by
  intro _
  refine ⟨fun w h => ?_, fun w h => ?_⟩ <;> cases h
  simp [decodeFields, maj19, fin8_val, c?_val]
  try omega

theorem Coded.baraw (st : Fin 8) (d : Fin 32) (a : Fin 32) (b : Fin 32) : Coded.Statement (.baraw st d a b) := by
  intro _
  refine ⟨fun w h => ?_, fun w h => ?_⟩ <;> cases h
  simp [decodeFields, maj19, fin8_val, c?_val]
  try omega

theorem Coded.rld (st : Fin 8) (d : Fin 32) (a : Fin 32) (b : Fin 32) : Coded.Statement (.rld st d a b) := by
  intro _
  refine ⟨fun w h => ?_, fun w h => ?_⟩ <;> cases h
  simp [decodeFields, maj1A, fin8_val, c?_val]
  try omega

theorem Coded.rst (st : Fin 8) (d : Fin 32) (a : Fin 32) (b : Fin 32) : Coded.Statement (.rst st d a b) := by
  intro _
  refine ⟨fun w h => ?_, fun w h => ?_⟩ <;> cases h
  simp [decodeFields, maj1A, fin8_val, c?_val]
  try omega

theorem Coded.ramo (st : Fin 8) (d : Fin 32) (a : Fin 32) (b : Fin 32) : Coded.Statement (.ramo st d a b) := by
  intro _
  refine ⟨fun w h => ?_, fun w h => ?_⟩ <;> cases h
  simp [decodeFields, maj1A, fin8_val, c?_val]
  try omega

theorem Coded.gst (st : Fin 8) (d : Fin 32) (a : Fin 32) (b : Fin 32) : Coded.Statement (.gst st d a b) := by
  intro _
  refine ⟨fun w h => ?_, fun w h => ?_⟩ <;> cases h
  simp [decodeFields, maj1A, fin8_val, c?_val]
  try omega

theorem Coded.gcommit (st : Fin 8) (d : Fin 32) (a : Fin 32) : Coded.Statement (.gcommit st d a) := by
  intro _
  refine ⟨fun w h => ?_, fun w h => ?_⟩ <;> cases h
  simp [decodeFields, maj1A, fin8_val, c?_val]
  try omega

theorem Coded.gabort (st : Fin 8) (a : Fin 32) : Coded.Statement (.gabort st a) := by
  intro _
  refine ⟨fun w h => ?_, fun w h => ?_⟩ <;> cases h
  simp [decodeFields, maj1A, fin8_val, c?_val]
  try omega

theorem Coded.gcstat (st : Fin 8) (d : Fin 32) (a : Fin 32) : Coded.Statement (.gcstat st d a) := by
  intro _
  refine ⟨fun w h => ?_, fun w h => ?_⟩ <;> cases h
  simp [decodeFields, maj1A, fin8_val, c?_val]
  try omega

theorem Coded.gwait (st : Fin 8) (d : Fin 32) (a : Fin 32) : Coded.Statement (.gwait st d a) := by
  intro _
  refine ⟨fun w h => ?_, fun w h => ?_⟩ <;> cases h
  simp [decodeFields, maj1A, fin8_val, c?_val]
  try omega

theorem Coded.nred (st : Fin 8) (d : Fin 32) (a : Fin 32) (b : Fin 64) : Coded.Statement (.nred st d a b) := by
  intro _
  refine ⟨fun w h => ?_, fun w h => ?_⟩ <;> cases h
  simp [decodeFields, maj1B, fin8_val, c?_val, fin64_val]
  try omega

theorem Coded.nredw (st : Fin 8) (d : Fin 64) (a : Fin 32) : Coded.Statement (.nredw st d a) := by
  intro _
  refine ⟨fun w h => ?_, fun w h => ?_⟩ <;> cases h
  simp [decodeFields, maj1B, fin8_val, fin64_val, c?_val]
  try omega

theorem Coded.srd (st : Fin 8) (d : Fin 32) (n : BitVec 12) : Coded.Statement (.srd st d n) := by
  intro _
  refine ⟨fun w h => ?_, fun w h => ?_⟩ <;> cases h
  simp [decodeFields, maj1C, fin8_val, c?_val, code_parts, bv12]
  try omega

theorem Coded.swr (st : Fin 8) (d : Fin 32) (n : BitVec 12) : Coded.Statement (.swr st d n) := by
  intro _
  refine ⟨fun w h => ?_, fun w h => ?_⟩ <;> cases h
  simp [decodeFields, maj1C, fin8_val, c?_val, code_parts, bv12]
  try omega

theorem Coded.trap (st : Fin 8) (n : BitVec 12) : Coded.Statement (.trap st n) := by
  intro _
  refine ⟨fun w h => ?_, fun w h => ?_⟩ <;> cases h
  simp [decodeFields, maj1C, fin8_val, code_parts, bv12]
  try omega

theorem Coded.eret (st : Fin 8) : Coded.Statement (.eret st) := by
  intro _
  refine ⟨fun w h => ?_, fun w h => ?_⟩ <;> cases h
  simp [decodeFields, maj1C, fin8_val]
  try omega

theorem Coded.brk (st : Fin 8) (n : BitVec 12) : Coded.Statement (.brk st n) := by
  intro _
  refine ⟨fun w h => ?_, fun w h => ?_⟩ <;> cases h
  simp [decodeFields, maj1C, fin8_val, code_parts, bv12]
  try omega

theorem Coded.time (st : Fin 8) (d : Fin 32) : Coded.Statement (.time st d) := by
  intro _
  refine ⟨fun w h => ?_, fun w h => ?_⟩ <;> cases h
  simp [decodeFields, maj1C, fin8_val, c?_val]
  try omega

theorem Coded.halt (st : Fin 8) : Coded.Statement (.halt st) := by
  intro _
  refine ⟨fun w h => ?_, fun w h => ?_⟩ <;> cases h
  simp [decodeFields, maj1C, fin8_val]
  try omega

theorem Coded.cancel (st : Fin 8) (d : Fin 32) (a : Fin 32) (b : Fin 32) : Coded.Statement (.cancel st d a b) := by
  intro _
  refine ⟨fun w h => ?_, fun w h => ?_⟩ <;> cases h
  simp [decodeFields, maj1C, fin8_val, c?_val]
  try omega

theorem Coded.vmovs (st : Fin 8) (d : Fin 32) (a : Fin 64) (b : Fin 32) : Coded.Statement (.vmovs st d a b) := by
  intro _
  refine ⟨fun w h => ?_, fun w h => ?_⟩ <;> cases h
  simp [decodeFields, maj1D, fin8_val, c?_val, fin64_val]
  try omega

theorem Coded.vmovx (st : Fin 8) (d : Fin 64) (a : Fin 32) : Coded.Statement (.vmovx st d a) := by
  intro _
  refine ⟨fun w h => ?_, fun w h => ?_⟩ <;> cases h
  simp [decodeFields, maj1D, fin8_val, fin64_val, c?_val]
  try omega

theorem Coded.vins (st : Fin 8) (d : Fin 64) (a : Fin 32) (b : Fin 32) : Coded.Statement (.vins st d a b) := by
  intro _
  refine ⟨fun w h => ?_, fun w h => ?_⟩ <;> cases h
  simp [decodeFields, maj1D, fin8_val, fin64_val, c?_val]
  try omega

theorem Coded.mset (st : Fin 8) (d : Fin 8) (a : Fin 32) : Coded.Statement (.mset st d a) := by
  intro _
  refine ⟨fun w h => ?_, fun w h => ?_⟩ <;> cases h
  simp [decodeFields, maj1D, fin8_val, m?_val, c?_val]
  try omega

theorem Coded.mget (st : Fin 8) (d : Fin 32) (a : Fin 8) : Coded.Statement (.mget st d a) := by
  intro _
  refine ⟨fun w h => ?_, fun w h => ?_⟩ <;> cases h
  simp [decodeFields, maj1D, fin8_val, c?_val, m?_val]
  try omega

theorem Coded.gset (st : Fin 8) (d : Fin 16) (a : Fin 32) : Coded.Statement (.gset st d a) := by
  intro _
  refine ⟨fun w h => ?_, fun w h => ?_⟩ <;> cases h
  simp [decodeFields, maj1D, fin8_val, g?_val, c?_val]
  try omega

theorem Coded.gget (st : Fin 8) (d : Fin 32) (a : Fin 16) : Coded.Statement (.gget st d a) := by
  intro _
  refine ⟨fun w h => ?_, fun w h => ?_⟩ <;> cases h
  simp [decodeFields, maj1D, fin8_val, c?_val, g?_val]
  try omega

theorem Coded.oset (st : Fin 8) (d : Fin 8) (a : Fin 32) : Coded.Statement (.oset st d a) := by
  intro _
  refine ⟨fun w h => ?_, fun w h => ?_⟩ <;> cases h
  simp [decodeFields, maj1D, fin8_val, m?_val, c?_val]
  try omega

theorem Coded.oget (st : Fin 8) (d : Fin 32) (a : Fin 8) : Coded.Statement (.oget st d a) := by
  intro _
  refine ⟨fun w h => ?_, fun w h => ?_⟩ <;> cases h
  simp [decodeFields, maj1D, fin8_val, c?_val, m?_val]
  try omega

theorem Coded.bmany (st : Fin 8) (a : Fin 8) (off : BitVec 13) : Coded.Statement (.bmany st a off) := by
  intro _
  refine ⟨fun w h => ?_, fun w h => ?_⟩ <;> cases h
  simp [decodeFields, maj1E, fin8_val, m?_val, imm_sel, imm_rest, branch_parts, bv13]
  try omega

theorem Coded.bmnone (st : Fin 8) (a : Fin 8) (off : BitVec 13) : Coded.Statement (.bmnone st a off) := by
  intro _
  refine ⟨fun w h => ?_, fun w h => ?_⟩ <;> cases h
  simp [decodeFields, maj1E, fin8_val, m?_val, imm_sel, imm_rest, branch_parts, bv13]
  try omega

theorem Coded.bmall (st : Fin 8) (a : Fin 8) (off : BitVec 13) : Coded.Statement (.bmall st a off) := by
  intro _
  refine ⟨fun w h => ?_, fun w h => ?_⟩ <;> cases h
  simp [decodeFields, maj1E, fin8_val, m?_val, imm_sel, imm_rest, branch_parts, bv13]
  try omega

theorem Coded.bgds (st : Fin 8) (a : Fin 16) (off : BitVec 13) : Coded.Statement (.bgds st a off) := by
  intro _
  refine ⟨fun w h => ?_, fun w h => ?_⟩ <;> cases h
  simp [decodeFields, maj1E, fin8_val, g?_val, imm_sel, imm_rest, branch_parts, bv13]
  try omega

theorem Coded.bgdc (st : Fin 8) (a : Fin 16) (off : BitVec 13) : Coded.Statement (.bgdc st a off) := by
  intro _
  refine ⟨fun w h => ?_, fun w h => ?_⟩ <;> cases h
  simp [decodeFields, maj1E, fin8_val, g?_val, imm_sel, imm_rest, branch_parts, bv13]
  try omega

theorem Coded.vadd (st : Fin 8) (d : Fin 64) (a : Fin 64) (b : Fin 64) (m : Fin 8) : Coded.Statement (.vadd st d a b m) := by
  intro _
  refine ⟨fun w h => ?_, fun w h => ?_⟩ <;> cases h
  simp [decodeFields, maj20, fin8_val, fin64_val, fin8_mask, mask_div]
  try omega

theorem Coded.vsub (st : Fin 8) (d : Fin 64) (a : Fin 64) (b : Fin 64) (m : Fin 8) : Coded.Statement (.vsub st d a b m) := by
  intro _
  refine ⟨fun w h => ?_, fun w h => ?_⟩ <;> cases h
  simp [decodeFields, maj20, fin8_val, fin64_val, fin8_mask, mask_div]
  try omega

theorem Coded.vmul (st : Fin 8) (d : Fin 64) (a : Fin 64) (b : Fin 64) (m : Fin 8) : Coded.Statement (.vmul st d a b m) := by
  intro _
  refine ⟨fun w h => ?_, fun w h => ?_⟩ <;> cases h
  simp [decodeFields, maj21, fin8_val, fin64_val, fin8_mask, mask_div]
  try omega

theorem Coded.vmulh (st : Fin 8) (d : Fin 64) (a : Fin 64) (b : Fin 64) (m : Fin 8) : Coded.Statement (.vmulh st d a b m) := by
  intro _
  refine ⟨fun w h => ?_, fun w h => ?_⟩ <;> cases h
  simp [decodeFields, maj21, fin8_val, fin64_val, fin8_mask, mask_div]
  try omega

theorem Coded.vfma (st : Fin 8) (d : Fin 64) (a : Fin 64) (b : Fin 64) (m : Fin 8) : Coded.Statement (.vfma st d a b m) := by
  intro _
  refine ⟨fun w h => ?_, fun w h => ?_⟩ <;> cases h
  simp [decodeFields, maj22, fin8_val, fin64_val, fin8_mask, mask_div]
  try omega

theorem Coded.vfms (st : Fin 8) (d : Fin 64) (a : Fin 64) (b : Fin 64) (m : Fin 8) : Coded.Statement (.vfms st d a b m) := by
  intro _
  refine ⟨fun w h => ?_, fun w h => ?_⟩ <;> cases h
  simp [decodeFields, maj22, fin8_val, fin64_val, fin8_mask, mask_div]
  try omega

theorem Coded.vmin (st : Fin 8) (d : Fin 64) (a : Fin 64) (b : Fin 64) (m : Fin 8) : Coded.Statement (.vmin st d a b m) := by
  intro _
  refine ⟨fun w h => ?_, fun w h => ?_⟩ <;> cases h
  simp [decodeFields, maj23, fin8_val, fin64_val, fin8_mask, mask_div]
  try omega

theorem Coded.vmax (st : Fin 8) (d : Fin 64) (a : Fin 64) (b : Fin 64) (m : Fin 8) : Coded.Statement (.vmax st d a b m) := by
  intro _
  refine ⟨fun w h => ?_, fun w h => ?_⟩ <;> cases h
  simp [decodeFields, maj23, fin8_val, fin64_val, fin8_mask, mask_div]
  try omega

theorem Coded.vand (st : Fin 8) (d : Fin 64) (a : Fin 64) (b : Fin 64) (m : Fin 8) : Coded.Statement (.vand st d a b m) := by
  intro _
  refine ⟨fun w h => ?_, fun w h => ?_⟩ <;> cases h
  simp [decodeFields, maj24, fin8_val, fin64_val, fin8_mask, mask_div]
  try omega

theorem Coded.vor (st : Fin 8) (d : Fin 64) (a : Fin 64) (b : Fin 64) (m : Fin 8) : Coded.Statement (.vor st d a b m) := by
  intro _
  refine ⟨fun w h => ?_, fun w h => ?_⟩ <;> cases h
  simp [decodeFields, maj24, fin8_val, fin64_val, fin8_mask, mask_div]
  try omega

theorem Coded.vxor (st : Fin 8) (d : Fin 64) (a : Fin 64) (b : Fin 64) (m : Fin 8) : Coded.Statement (.vxor st d a b m) := by
  intro _
  refine ⟨fun w h => ?_, fun w h => ?_⟩ <;> cases h
  simp [decodeFields, maj25, fin8_val, fin64_val, fin8_mask, mask_div]
  try omega

theorem Coded.vandn (st : Fin 8) (d : Fin 64) (a : Fin 64) (b : Fin 64) (m : Fin 8) : Coded.Statement (.vandn st d a b m) := by
  intro _
  refine ⟨fun w h => ?_, fun w h => ?_⟩ <;> cases h
  simp [decodeFields, maj25, fin8_val, fin64_val, fin8_mask, mask_div]
  try omega

theorem Coded.vsll (st : Fin 8) (d : Fin 64) (a : Fin 64) (b : Fin 64) (m : Fin 8) : Coded.Statement (.vsll st d a b m) := by
  intro _
  refine ⟨fun w h => ?_, fun w h => ?_⟩ <;> cases h
  simp [decodeFields, maj26, fin8_val, fin64_val, fin8_mask, mask_div]
  try omega

theorem Coded.vsrl (st : Fin 8) (d : Fin 64) (a : Fin 64) (b : Fin 64) (m : Fin 8) : Coded.Statement (.vsrl st d a b m) := by
  intro _
  refine ⟨fun w h => ?_, fun w h => ?_⟩ <;> cases h
  simp [decodeFields, maj26, fin8_val, fin64_val, fin8_mask, mask_div]
  try omega

theorem Coded.vsra (st : Fin 8) (d : Fin 64) (a : Fin 64) (b : Fin 64) (m : Fin 8) : Coded.Statement (.vsra st d a b m) := by
  intro _
  refine ⟨fun w h => ?_, fun w h => ?_⟩ <;> cases h
  simp [decodeFields, maj27, fin8_val, fin64_val, fin8_mask, mask_div]
  try omega

theorem Coded.vrol (st : Fin 8) (d : Fin 64) (a : Fin 64) (b : Fin 64) (m : Fin 8) : Coded.Statement (.vrol st d a b m) := by
  intro _
  refine ⟨fun w h => ?_, fun w h => ?_⟩ <;> cases h
  simp [decodeFields, maj27, fin8_val, fin64_val, fin8_mask, mask_div]
  try omega

theorem Coded.vceq (st : Fin 8) (d : Fin 8) (a : Fin 64) (b : Fin 64) (m : Fin 8) : Coded.Statement (.vceq st d a b m) := by
  intro _
  refine ⟨fun w h => ?_, fun w h => ?_⟩ <;> cases h
  simp [decodeFields, maj28, fin8_val, m?_val, fin64_val, fin8_mask, mask_div]
  try omega

theorem Coded.vcne (st : Fin 8) (d : Fin 8) (a : Fin 64) (b : Fin 64) (m : Fin 8) : Coded.Statement (.vcne st d a b m) := by
  intro _
  refine ⟨fun w h => ?_, fun w h => ?_⟩ <;> cases h
  simp [decodeFields, maj28, fin8_val, m?_val, fin64_val, fin8_mask, mask_div]
  try omega

theorem Coded.vclt (st : Fin 8) (d : Fin 8) (a : Fin 64) (b : Fin 64) (m : Fin 8) : Coded.Statement (.vclt st d a b m) := by
  intro _
  refine ⟨fun w h => ?_, fun w h => ?_⟩ <;> cases h
  simp [decodeFields, maj29, fin8_val, m?_val, fin64_val, fin8_mask, mask_div]
  try omega

theorem Coded.vcle (st : Fin 8) (d : Fin 8) (a : Fin 64) (b : Fin 64) (m : Fin 8) : Coded.Statement (.vcle st d a b m) := by
  intro _
  refine ⟨fun w h => ?_, fun w h => ?_⟩ <;> cases h
  simp [decodeFields, maj29, fin8_val, m?_val, fin64_val, fin8_mask, mask_div]
  try omega

theorem Coded.vcvt (st : Fin 8) (d : Fin 64) (a : Fin 64) (m : Fin 8) : Coded.Statement (.vcvt st d a m) := by
  intro _
  refine ⟨fun w h => ?_, fun w h => ?_⟩ <;> cases h
  simp [decodeFields, maj2A, fin8_val, fin64_val, fin8_mask, mask_div]
  try omega

theorem Coded.vcvts (st : Fin 8) (d : Fin 64) (a : Fin 64) (b : Fin 64) (m : Fin 8) : Coded.Statement (.vcvts st d a b m) := by
  intro _
  refine ⟨fun w h => ?_, fun w h => ?_⟩ <;> cases h
  simp [decodeFields, maj2A, fin8_val, fin64_val, fin8_mask, mask_div]
  try omega

theorem Coded.vpack (st : Fin 8) (d : Fin 64) (a : Fin 64) (b : Fin 64) : Coded.Statement (.vpack st d a b) := by
  intro _
  refine ⟨fun w h => ?_, fun w h => ?_⟩ <;> cases h
  simp [decodeFields, maj2B, fin8_val, fin64_val]
  try omega

theorem Coded.vunpk (st : Fin 8) (d : Fin 64) (a : Fin 64) (b : Fin 64) : Coded.Statement (.vunpk st d a b) := by
  intro _
  refine ⟨fun w h => ?_, fun w h => ?_⟩ <;> cases h
  simp [decodeFields, maj2B, fin8_val, fin64_val]
  try omega

theorem Coded.vperm (st : Fin 8) (d : Fin 64) (a : Fin 64) (b : Fin 64) (m : Fin 8) : Coded.Statement (.vperm st d a b m) := by
  intro _
  refine ⟨fun w h => ?_, fun w h => ?_⟩ <;> cases h
  simp [decodeFields, maj2C, fin8_val, fin64_val, fin8_mask, mask_div]
  try omega

theorem Coded.vshuf (st : Fin 8) (d : Fin 64) (a : Fin 64) (b : Fin 64) (m : Fin 8) : Coded.Statement (.vshuf st d a b m) := by
  intro _
  refine ⟨fun w h => ?_, fun w h => ?_⟩ <;> cases h
  simp [decodeFields, maj2C, fin8_val, fin64_val, fin8_mask, mask_div]
  try omega

theorem Coded.vsldu (st : Fin 8) (d : Fin 64) (a : Fin 64) (b : Fin 64) (m : Fin 8) : Coded.Statement (.vsldu st d a b m) := by
  intro _
  refine ⟨fun w h => ?_, fun w h => ?_⟩ <;> cases h
  simp [decodeFields, maj2D, fin8_val, fin64_val, fin8_mask, mask_div]
  try omega

theorem Coded.vsldd (st : Fin 8) (d : Fin 64) (a : Fin 64) (b : Fin 64) (m : Fin 8) : Coded.Statement (.vsldd st d a b m) := by
  intro _
  refine ⟨fun w h => ?_, fun w h => ?_⟩ <;> cases h
  simp [decodeFields, maj2D, fin8_val, fin64_val, fin8_mask, mask_div]
  try omega

theorem Coded.vrsum (st : Fin 8) (d : Fin 64) (a : Fin 64) (b : Fin 64) (m : Fin 8) : Coded.Statement (.vrsum st d a b m) := by
  intro _
  refine ⟨fun w h => ?_, fun w h => ?_⟩ <;> cases h
  simp [decodeFields, maj2E, fin8_val, fin64_val, fin8_mask, mask_div]
  try omega

theorem Coded.vrmax (st : Fin 8) (d : Fin 64) (a : Fin 64) (b : Fin 64) (m : Fin 8) : Coded.Statement (.vrmax st d a b m) := by
  intro _
  refine ⟨fun w h => ?_, fun w h => ?_⟩ <;> cases h
  simp [decodeFields, maj2E, fin8_val, fin64_val, fin8_mask, mask_div]
  try omega

theorem Coded.vrmin (st : Fin 8) (d : Fin 64) (a : Fin 64) (b : Fin 64) (m : Fin 8) : Coded.Statement (.vrmin st d a b m) := by
  intro _
  refine ⟨fun w h => ?_, fun w h => ?_⟩ <;> cases h
  simp [decodeFields, maj2F, fin8_val, fin64_val, fin8_mask, mask_div]
  try omega

theorem Coded.vramax (st : Fin 8) (d : Fin 64) (a : Fin 64) (b : Fin 64) (m : Fin 8) : Coded.Statement (.vramax st d a b m) := by
  intro _
  refine ⟨fun w h => ?_, fun w h => ?_⟩ <;> cases h
  simp [decodeFields, maj2F, fin8_val, fin64_val, fin8_mask, mask_div]
  try omega

theorem Coded.vmrg (st : Fin 8) (d : Fin 64) (a : Fin 64) (b : Fin 64) (m : Fin 8) : Coded.Statement (.vmrg st d a b m) := by
  intro _
  refine ⟨fun w h => ?_, fun w h => ?_⟩ <;> cases h
  simp [decodeFields, maj30, fin8_val, fin64_val, fin8_mask, mask_div]
  try omega

theorem Coded.vcmpr (st : Fin 8) (d : Fin 64) (a : Fin 64) (m : Fin 8) : Coded.Statement (.vcmpr st d a m) := by
  intro _
  refine ⟨fun w h => ?_, fun w h => ?_⟩ <;> cases h
  simp [decodeFields, maj30, fin8_val, fin64_val, fin8_mask, mask_div]
  try omega

theorem Coded.vabs (st : Fin 8) (d : Fin 64) (a : Fin 64) (m : Fin 8) : Coded.Statement (.vabs st d a m) := by
  intro _
  refine ⟨fun w h => ?_, fun w h => ?_⟩ <;> cases h
  simp [decodeFields, maj31, fin8_val, fin64_val, fin8_mask, mask_div]
  try omega

theorem Coded.vneg (st : Fin 8) (d : Fin 64) (a : Fin 64) (m : Fin 8) : Coded.Statement (.vneg st d a m) := by
  intro _
  refine ⟨fun w h => ?_, fun w h => ?_⟩ <;> cases h
  simp [decodeFields, maj31, fin8_val, fin64_val, fin8_mask, mask_div]
  try omega

theorem Coded.vdiv (st : Fin 8) (d : Fin 64) (a : Fin 64) (b : Fin 64) (m : Fin 8) : Coded.Statement (.vdiv st d a b m) := by
  intro _
  refine ⟨fun w h => ?_, fun w h => ?_⟩ <;> cases h
  simp [decodeFields, maj32, fin8_val, fin64_val, fin8_mask, mask_div]
  try omega

theorem Coded.vsqrt (st : Fin 8) (d : Fin 64) (a : Fin 64) (m : Fin 8) : Coded.Statement (.vsqrt st d a m) := by
  intro _
  refine ⟨fun w h => ?_, fun w h => ?_⟩ <;> cases h
  simp [decodeFields, maj32, fin8_val, fin64_val, fin8_mask, mask_div]
  try omega

theorem Coded.vexp2 (st : Fin 8) (d : Fin 64) (a : Fin 64) (m : Fin 8) : Coded.Statement (.vexp2 st d a m) := by
  intro _
  refine ⟨fun w h => ?_, fun w h => ?_⟩ <;> cases h
  simp [decodeFields, maj33, fin8_val, fin64_val, fin8_mask, mask_div]
  try omega

theorem Coded.vlog2 (st : Fin 8) (d : Fin 64) (a : Fin 64) (m : Fin 8) : Coded.Statement (.vlog2 st d a m) := by
  intro _
  refine ⟨fun w h => ?_, fun w h => ?_⟩ <;> cases h
  simp [decodeFields, maj33, fin8_val, fin64_val, fin8_mask, mask_div]
  try omega

theorem Coded.vdot4 (st : Fin 8) (d : Fin 64) (a : Fin 64) (b : Fin 64) (m : Fin 8) : Coded.Statement (.vdot4 st d a b m) := by
  intro _
  refine ⟨fun w h => ?_, fun w h => ?_⟩ <;> cases h
  simp [decodeFields, maj34, fin8_val, fin64_val, fin8_mask, mask_div]
  try omega

theorem Coded.vsad (st : Fin 8) (d : Fin 64) (a : Fin 64) (b : Fin 64) (m : Fin 8) : Coded.Statement (.vsad st d a b m) := by
  intro _
  refine ⟨fun w h => ?_, fun w h => ?_⟩ <;> cases h
  simp [decodeFields, maj34, fin8_val, fin64_val, fin8_mask, mask_div]
  try omega

theorem Coded.viota (st : Fin 8) (d : Fin 64) (m : Fin 8) : Coded.Statement (.viota st d m) := by
  intro _
  refine ⟨fun w h => ?_, fun w h => ?_⟩ <;> cases h
  simp [decodeFields, maj35, fin8_val, fin64_val, fin8_mask, mask_div]
  try omega

theorem Coded.vmcnt (st : Fin 8) (d : Fin 64) (m : Fin 8) : Coded.Statement (.vmcnt st d m) := by
  intro _
  refine ⟨fun w h => ?_, fun w h => ?_⟩ <;> cases h
  simp [decodeFields, maj35, fin8_val, fin64_val, fin8_mask, mask_div]
  try omega

theorem Coded.vclz (st : Fin 8) (d : Fin 64) (a : Fin 64) (m : Fin 8) : Coded.Statement (.vclz st d a m) := by
  intro _
  refine ⟨fun w h => ?_, fun w h => ?_⟩ <;> cases h
  simp [decodeFields, maj36, fin8_val, fin64_val, fin8_mask, mask_div]
  try omega

theorem Coded.vpopc (st : Fin 8) (d : Fin 64) (a : Fin 64) (m : Fin 8) : Coded.Statement (.vpopc st d a m) := by
  intro _
  refine ⟨fun w h => ?_, fun w h => ?_⟩ <;> cases h
  simp [decodeFields, maj36, fin8_val, fin64_val, fin8_mask, mask_div]
  try omega

theorem Coded.vscl (st : Fin 8) (d : Fin 64) (a : Fin 64) (b : Fin 64) (m : Fin 8) : Coded.Statement (.vscl st d a b m) := by
  intro _
  refine ⟨fun w h => ?_, fun w h => ?_⟩ <;> cases h
  simp [decodeFields, maj37, fin8_val, fin64_val, fin8_mask, mask_div]
  try omega

theorem Coded.vmov (st : Fin 8) (d : Fin 64) (a : Fin 64) (m : Fin 8) : Coded.Statement (.vmov st d a m) := by
  intro _
  refine ⟨fun w h => ?_, fun w h => ?_⟩ <;> cases h
  simp [decodeFields, maj37, fin8_val, fin64_val, fin8_mask, mask_div]
  try omega

theorem Coded.addShort (st : Fin 4) (x : Fin 16) (y : Fin 16) : Coded.Statement (.addShort st x y) := by
  intro _
  refine ⟨fun w h => ?_, fun w h => ?_⟩ <;> cases h
  simp [decodeShort, fin4_val, fin8_val, fin16_val]
  try omega

theorem Coded.subShort (st : Fin 4) (x : Fin 16) (y : Fin 16) : Coded.Statement (.subShort st x y) := by
  intro _
  refine ⟨fun w h => ?_, fun w h => ?_⟩ <;> cases h
  simp [decodeShort, fin4_val, fin8_val, fin16_val]
  try omega

theorem Coded.andShort (st : Fin 4) (x : Fin 16) (y : Fin 16) : Coded.Statement (.andShort st x y) := by
  intro _
  refine ⟨fun w h => ?_, fun w h => ?_⟩ <;> cases h
  simp [decodeShort, fin4_val, fin8_val, fin16_val]
  try omega

theorem Coded.orShort (st : Fin 4) (x : Fin 16) (y : Fin 16) : Coded.Statement (.orShort st x y) := by
  intro _
  refine ⟨fun w h => ?_, fun w h => ?_⟩ <;> cases h
  simp [decodeShort, fin4_val, fin8_val, fin16_val]
  try omega

theorem Coded.xorShort (st : Fin 4) (x : Fin 16) (y : Fin 16) : Coded.Statement (.xorShort st x y) := by
  intro _
  refine ⟨fun w h => ?_, fun w h => ?_⟩ <;> cases h
  simp [decodeShort, fin4_val, fin8_val, fin16_val]
  try omega

theorem Coded.cmovShort (st : Fin 4) (x : Fin 16) (y : Fin 16) : Coded.Statement (.cmovShort st x y) := by
  intro _
  refine ⟨fun w h => ?_, fun w h => ?_⟩ <;> cases h
  simp [decodeShort, fin4_val, fin8_val, fin16_val]
  try omega

theorem Coded.addiShort (st : Fin 4) (x : Fin 16) (y : Fin 16) : Coded.Statement (.addiShort st x y) := by
  intro _
  refine ⟨fun w h => ?_, fun w h => ?_⟩ <;> cases h
  simp [decodeShort, fin4_val, fin8_val, fin16_val]
  try omega

theorem Coded.slliShort (st : Fin 4) (x : Fin 16) (y : Fin 16) : Coded.Statement (.slliShort st x y) := by
  intro _
  refine ⟨fun w h => ?_, fun w h => ?_⟩ <;> cases h
  simp [decodeShort, fin4_val, fin8_val, fin16_val]
  try omega

theorem Coded.srliShort (st : Fin 4) (x : Fin 16) (y : Fin 16) : Coded.Statement (.srliShort st x y) := by
  intro _
  refine ⟨fun w h => ?_, fun w h => ?_⟩ <;> cases h
  simp [decodeShort, fin4_val, fin8_val, fin16_val]
  try omega

theorem Coded.sraiShort (st : Fin 4) (x : Fin 16) (y : Fin 16) : Coded.Statement (.sraiShort st x y) := by
  intro _
  refine ⟨fun w h => ?_, fun w h => ?_⟩ <;> cases h
  simp [decodeShort, fin4_val, fin8_val, fin16_val]
  try omega

theorem Coded.lisShort (st : Fin 4) (x : Fin 16) (y : Fin 16) : Coded.Statement (.lisShort st x y) := by
  intro _
  refine ⟨fun w h => ?_, fun w h => ?_⟩ <;> cases h
  simp [decodeShort, fin4_val, fin8_val, fin16_val]
  try omega

theorem Coded.cinciShort (st : Fin 4) (x : Fin 16) (y : Fin 16) : Coded.Statement (.cinciShort st x y) := by
  intro _
  refine ⟨fun w h => ?_, fun w h => ?_⟩ <;> cases h
  simp [decodeShort, fin4_val, fin8_val, fin16_val]
  try omega

theorem Coded.ldDShort (st : Fin 4) (x : Fin 16) (y : Fin 16) : Coded.Statement (.ldDShort st x y) := by
  intro _
  refine ⟨fun w h => ?_, fun w h => ?_⟩ <;> cases h
  simp [decodeShort, fin4_val, fin8_val, fin16_val]
  try omega

theorem Coded.stDShort (st : Fin 4) (x : Fin 16) (y : Fin 16) : Coded.Statement (.stDShort st x y) := by
  intro _
  refine ⟨fun w h => ?_, fun w h => ?_⟩ <;> cases h
  simp [decodeShort, fin4_val, fin8_val, fin16_val]
  try omega

theorem Coded.ldWShort (st : Fin 4) (x : Fin 16) (y : Fin 16) : Coded.Statement (.ldWShort st x y) := by
  intro _
  refine ⟨fun w h => ?_, fun w h => ?_⟩ <;> cases h
  simp [decodeShort, fin4_val, fin8_val, fin16_val]
  try omega

theorem Coded.stWShort (st : Fin 4) (x : Fin 16) (y : Fin 16) : Coded.Statement (.stWShort st x y) := by
  intro _
  refine ⟨fun w h => ?_, fun w h => ?_⟩ <;> cases h
  simp [decodeShort, fin4_val, fin8_val, fin16_val]
  try omega

theorem Coded.ldDC2Short (st : Fin 4) (x : Fin 16) (y : Fin 16) : Coded.Statement (.ldDC2Short st x y) := by
  intro _
  refine ⟨fun w h => ?_, fun w h => ?_⟩ <;> cases h
  simp [decodeShort, fin4_val, fin8_val, fin16_val]
  try omega

theorem Coded.stDC2Short (st : Fin 4) (x : Fin 16) (y : Fin 16) : Coded.Statement (.stDC2Short st x y) := by
  intro _
  refine ⟨fun w h => ?_, fun w h => ?_⟩ <;> cases h
  simp [decodeShort, fin4_val, fin8_val, fin16_val]
  try omega

theorem Coded.ldCC2Short (st : Fin 4) (x : Fin 16) (y : Fin 16) : Coded.Statement (.ldCC2Short st x y) := by
  intro _
  refine ⟨fun w h => ?_, fun w h => ?_⟩ <;> cases h
  simp [decodeShort, fin4_val, fin8_val, fin16_val]
  try omega

theorem Coded.stCC2Short (st : Fin 4) (x : Fin 16) (y : Fin 16) : Coded.Statement (.stCC2Short st x y) := by
  intro _
  refine ⟨fun w h => ?_, fun w h => ?_⟩ <;> cases h
  simp [decodeShort, fin4_val, fin8_val, fin16_val]
  try omega

theorem Coded.beqShort (st : Fin 4) (x : Fin 16) (y : Fin 16) : Coded.Statement (.beqShort st x y) := by
  intro _
  refine ⟨fun w h => ?_, fun w h => ?_⟩ <;> cases h
  simp [decodeShort, fin4_val, fin8_val, fin16_val]
  try omega

theorem Coded.bneShort (st : Fin 4) (x : Fin 16) (y : Fin 16) : Coded.Statement (.bneShort st x y) := by
  intro _
  refine ⟨fun w h => ?_, fun w h => ?_⟩ <;> cases h
  simp [decodeShort, fin4_val, fin8_val, fin16_val]
  try omega

theorem Coded.jShort (st : Fin 4) (o : BitVec 8) : Coded.Statement (.jShort st o) := by
  intro _
  refine ⟨fun w h => ?_, fun w h => ?_⟩ <;> cases h
  simp [decodeShort, fin4_val, fin8_val, fin16_val, nib_parts, bv8]
  try omega

theorem Coded.retShort (st : Fin 4) (x : Fin 16) : Coded.Statement (.retShort st x) := by
  intro _
  refine ⟨fun w h => ?_, fun w h => ?_⟩ <;> cases h
  simp [decodeShort, fin4_val, fin8_val, fin16_val]
  try omega

theorem Coded.callrShort (st : Fin 4) (x : Fin 16) : Coded.Statement (.callrShort st x) := by
  intro _
  refine ⟨fun w h => ?_, fun w h => ?_⟩ <;> cases h
  simp [decodeShort, fin4_val, fin8_val, fin16_val]
  try omega

theorem Coded.vaddShort (st : Fin 4) (x : Fin 16) (y : Fin 16) : Coded.Statement (.vaddShort st x y) := by
  intro _
  refine ⟨fun w h => ?_, fun w h => ?_⟩ <;> cases h
  simp [decodeShort, fin4_val, fin8_val, fin16_val]
  try omega

theorem Coded.vmulShort (st : Fin 4) (x : Fin 16) (y : Fin 16) : Coded.Statement (.vmulShort st x y) := by
  intro _
  refine ⟨fun w h => ?_, fun w h => ?_⟩ <;> cases h
  simp [decodeShort, fin4_val, fin8_val, fin16_val]
  try omega

theorem Coded.vmovShort (st : Fin 4) (x : Fin 16) (y : Fin 16) : Coded.Statement (.vmovShort st x y) := by
  intro _
  refine ⟨fun w h => ?_, fun w h => ?_⟩ <;> cases h
  simp [decodeShort, fin4_val, fin8_val, fin16_val]
  try omega

theorem Coded.yieldShort (st : Fin 4) : Coded.Statement (.yieldShort st) := by
  intro _
  refine ⟨fun w h => ?_, fun w h => ?_⟩ <;> cases h
  simp [decodeShort, fin4_val, fin8_val, fin16_val]
  try omega

theorem Coded.waitjShort (st : Fin 4) (x : Fin 16) : Coded.Statement (.waitjShort st x) := by
  intro _
  refine ⟨fun w h => ?_, fun w h => ?_⟩ <;> cases h
  simp [decodeShort, fin4_val, fin8_val, fin16_val]
  try omega

theorem Coded.exitShort (st : Fin 4) : Coded.Statement (.exitShort st) := by
  intro _
  refine ⟨fun w h => ?_, fun w h => ?_⟩ <;> cases h
  simp [decodeShort, fin4_val, fin8_val, fin16_val]
  try omega

theorem Coded.loopShort (st : Fin 4) (x : Fin 16) (y : Fin 8) : Coded.Statement (.loopShort st x y) := by
  intro _
  refine ⟨fun w h => ?_, fun w h => ?_⟩ <;> cases h
  simp [decodeShort, fin4_val, fin8_val, fin16_val]
  try omega

theorem Coded.trapEntry (e : Nat) : Coded.Statement (.trapEntry e) := by
  intro _
  refine ⟨fun w h => ?_, fun w h => ?_⟩ <;> cases h

theorem Coded.tcmpMatch (e : Nat) : Coded.Statement (.tcmpMatch e) := by
  intro _
  refine ⟨fun w h => ?_, fun w h => ?_⟩ <;> cases h

theorem Coded.sleepWake (e : Nat) (h : Nat) : Coded.Statement (.sleepWake e h) := by
  intro _
  refine ⟨fun w h => ?_, fun w h => ?_⟩ <;> cases h

theorem Coded.matrixStep (e : Nat) : Coded.Statement (.matrixStep e) := by
  intro _
  refine ⟨fun w h => ?_, fun w h => ?_⟩ <;> cases h

theorem Coded.drainCapture (e : Nat) : Coded.Statement (.drainCapture e) := by
  intro _
  refine ⟨fun w h => ?_, fun w h => ?_⟩ <;> cases h

theorem Coded.copyBurst (e : Nat) (rec : Nat) : Coded.Statement (.copyBurst e rec) := by
  intro _
  refine ⟨fun w h => ?_, fun w h => ?_⟩ <;> cases h

theorem Coded.gatherComplete (e : Nat) (rec : Nat) : Coded.Statement (.gatherComplete e rec) := by
  intro _
  refine ⟨fun w h => ?_, fun w h => ?_⟩ <;> cases h

theorem Coded.taskDispatch (e : Nat) : Coded.Statement (.taskDispatch e) := by
  intro _
  refine ⟨fun w h => ?_, fun w h => ?_⟩ <;> cases h

theorem Coded.stealRound (e : Nat) : Coded.Statement (.stealRound e) := by
  intro _
  refine ⟨fun w h => ?_, fun w h => ?_⟩ <;> cases h

theorem Coded.stealAttempt (e : Nat) : Coded.Statement (.stealAttempt e) := by
  intro _
  refine ⟨fun w h => ?_, fun w h => ?_⟩ <;> cases h

theorem Coded.launchOpen (asid : Nat) (lid : Nat) : Coded.Statement (.launchOpen asid lid) := by
  intro _
  refine ⟨fun w h => ?_, fun w h => ?_⟩ <;> cases h

theorem Coded.phaseBarrier (asid : Nat) (ph : Nat) : Coded.Statement (.phaseBarrier asid ph) := by
  intro _
  refine ⟨fun w h => ?_, fun w h => ?_⟩ <;> cases h

theorem Coded.bureauRun (asid : Nat) (lid : Nat) : Coded.Statement (.bureauRun asid lid) := by
  intro _
  refine ⟨fun w h => ?_, fun w h => ?_⟩ <;> cases h

theorem Coded.sliceExpiry (asid : Nat) : Coded.Statement (.sliceExpiry asid) := by
  intro _
  refine ⟨fun w h => ?_, fun w h => ?_⟩ <;> cases h

theorem Coded.gangStop (e : Nat) : Coded.Statement (.gangStop e) := by
  intro _
  refine ⟨fun w h => ?_, fun w h => ?_⟩ <;> cases h

theorem Coded.gangDrain (asid : Nat) : Coded.Statement (.gangDrain asid) := by
  intro _
  refine ⟨fun w h => ?_, fun w h => ?_⟩ <;> cases h

theorem Coded.gangSave (asid : Nat) : Coded.Statement (.gangSave asid) := by
  intro _
  refine ⟨fun w h => ?_, fun w h => ?_⟩ <;> cases h

theorem Coded.leaseExpiry (e : Nat) (line : Nat) : Coded.Statement (.leaseExpiry e line) := by
  intro _
  refine ⟨fun w h => ?_, fun w h => ?_⟩ <;> cases h

theorem Coded.eccUe (e : Nat) : Coded.Statement (.eccUe e) := by
  intro _
  refine ⟨fun w h => ?_, fun w h => ?_⟩ <;> cases h

theorem Coded.activeMessage (p : Packet) : Coded.Statement (.activeMessage p) := by
  intro _
  refine ⟨fun w h => ?_, fun w h => ?_⟩ <;> cases h

theorem Coded.rload (p : Packet) : Coded.Statement (.rload p) := by
  intro _
  refine ⟨fun w h => ?_, fun w h => ?_⟩ <;> cases h

theorem Coded.rstore (p : Packet) : Coded.Statement (.rstore p) := by
  intro _
  refine ⟨fun w h => ?_, fun w h => ?_⟩ <;> cases h

theorem Coded.ratomic (p : Packet) : Coded.Statement (.ratomic p) := by
  intro _
  refine ⟨fun w h => ?_, fun w h => ?_⟩ <;> cases h

theorem Coded.gstage (p : Packet) : Coded.Statement (.gstage p) := by
  intro _
  refine ⟨fun w h => ?_, fun w h => ?_⟩ <;> cases h

theorem Coded.prepare (p : Packet) : Coded.Statement (.prepare p) := by
  intro _
  refine ⟨fun w h => ?_, fun w h => ?_⟩ <;> cases h

theorem Coded.publish (p : Packet) : Coded.Statement (.publish p) := by
  intro _
  refine ⟨fun w h => ?_, fun w h => ?_⟩ <;> cases h

theorem Coded.discard (p : Packet) : Coded.Statement (.discard p) := by
  intro _
  refine ⟨fun w h => ?_, fun w h => ?_⟩ <;> cases h

theorem Coded.query (p : Packet) : Coded.Statement (.query p) := by
  intro _
  refine ⟨fun w h => ?_, fun w h => ?_⟩ <;> cases h

theorem Coded.bararr (p : Packet) : Coded.Statement (.bararr p) := by
  intro _
  refine ⟨fun w h => ?_, fun w h => ?_⟩ <;> cases h

theorem Coded.barrierRetry (e : Nat) (h : Nat) : Coded.Statement (.barrierRetry e h) := by
  intro _
  refine ⟨fun w h => ?_, fun w h => ?_⟩ <;> cases h

theorem Coded.spwrite (p : Packet) : Coded.Statement (.spwrite p) := by
  intro _
  refine ⟨fun w h => ?_, fun w h => ?_⟩ <;> cases h

theorem Coded.mwrite (p : Packet) : Coded.Statement (.mwrite p) := by
  intro _
  refine ⟨fun w h => ?_, fun w h => ?_⟩ <;> cases h

theorem Coded.rgath (p : Packet) : Coded.Statement (.rgath p) := by
  intro _
  refine ⟨fun w h => ?_, fun w h => ?_⟩ <;> cases h

theorem Coded.rscat (p : Packet) : Coded.Statement (.rscat p) := by
  intro _
  refine ⟨fun w h => ?_, fun w h => ?_⟩ <;> cases h

theorem Coded.trigger (p : Packet) : Coded.Statement (.trigger p) := by
  intro _
  refine ⟨fun w h => ?_, fun w h => ?_⟩ <;> cases h

theorem Coded.reply (p : Packet) : Coded.Statement (.reply p) := by
  intro _
  refine ⟨fun w h => ?_, fun w h => ?_⟩ <;> cases h

theorem Coded.gstReply (p : Packet) : Coded.Statement (.gstReply p) := by
  intro _
  refine ⟨fun w h => ?_, fun w h => ?_⟩ <;> cases h

theorem Coded.commitHandover (src : Nat) (grp : Nat) : Coded.Statement (.commitHandover src grp) := by
  intro _
  refine ⟨fun w h => ?_, fun w h => ?_⟩ <;> cases h

theorem Coded.ready (p : Packet) : Coded.Statement (.ready p) := by
  intro _
  refine ⟨fun w h => ?_, fun w h => ?_⟩ <;> cases h

theorem Coded.decisionAck (p : Packet) : Coded.Statement (.decisionAck p) := by
  intro _
  refine ⟨fun w h => ?_, fun w h => ?_⟩ <;> cases h

theorem Coded.queryAnswer (p : Packet) : Coded.Statement (.queryAnswer p) := by
  intro _
  refine ⟨fun w h => ?_, fun w h => ?_⟩ <;> cases h

theorem Coded.prepareTimeout (src : Nat) (grp : Nat) : Coded.Statement (.prepareTimeout src grp) := by
  intro _
  refine ⟨fun w h => ?_, fun w h => ?_⟩ <;> cases h

theorem Coded.stagingTimeout (stk : Nat) (src : Nat) (grp : Nat) : Coded.Statement (.stagingTimeout stk src grp) := by
  intro _
  refine ⟨fun w h => ?_, fun w h => ?_⟩ <;> cases h

theorem Coded.inDoubtTimer (stk : Nat) (src : Nat) (grp : Nat) : Coded.Statement (.inDoubtTimer stk src grp) := by
  intro _
  refine ⟨fun w h => ?_, fun w h => ?_⟩ <;> cases h

theorem Coded.gwaitTimeLimit (e : Nat) (h : Nat) : Coded.Statement (.gwaitTimeLimit e h) := by
  intro _
  refine ⟨fun w h => ?_, fun w h => ?_⟩ <;> cases h

theorem Coded.demand (p : Packet) : Coded.Statement (.demand p) := by
  intro _
  refine ⟨fun w h => ?_, fun w h => ?_⟩ <;> cases h

theorem Coded.grant (p : Packet) : Coded.Statement (.grant p) := by
  intro _
  refine ⟨fun w h => ?_, fun w h => ?_⟩ <;> cases h

theorem Coded.eack (p : Packet) : Coded.Statement (.eack p) := by
  intro _
  refine ⟨fun w h => ?_, fun w h => ?_⟩ <;> cases h

theorem Coded.slotreq (p : Packet) : Coded.Statement (.slotreq p) := by
  intro _
  refine ⟨fun w h => ?_, fun w h => ?_⟩ <;> cases h

theorem Coded.slotgnt (p : Packet) : Coded.Statement (.slotgnt p) := by
  intro _
  refine ⟨fun w h => ?_, fun w h => ?_⟩ <;> cases h

theorem Coded.redContrib (nd : Node) (port : Nat) (p : Packet) : Coded.Statement (.redContrib nd port p) := by
  intro _
  refine ⟨fun w h => ?_, fun w h => ?_⟩ <;> cases h

theorem Coded.nodeTimeout (nd : Node) (tree : Nat) (inst : Nat) : Coded.Statement (.nodeTimeout nd tree inst) := by
  intro _
  refine ⟨fun w h => ?_, fun w h => ?_⟩ <;> cases h

theorem Coded.redResult (p : Packet) : Coded.Statement (.redResult p) := by
  intro _
  refine ⟨fun w h => ?_, fun w h => ?_⟩ <;> cases h

theorem Coded.flit (l : Nat) (f : Flit) : Coded.Statement (.flit l f) := by
  intro _
  refine ⟨fun w h => ?_, fun w h => ?_⟩ <;> cases h

theorem Coded.replayRequest (l : Nat) (fseq : Nat) : Coded.Statement (.replayRequest l fseq) := by
  intro _
  refine ⟨fun w h => ?_, fun w h => ?_⟩ <;> cases h

theorem Coded.linkReplayLimit (l : Nat) : Coded.Statement (.linkReplayLimit l) := by
  intro _
  refine ⟨fun w h => ?_, fun w h => ?_⟩ <;> cases h

theorem Coded.e2eTimer (src : Nat) (dst : Nat) : Coded.Statement (.e2eTimer src dst) := by
  intro _
  refine ⟨fun w h => ?_, fun w h => ?_⟩ <;> cases h

theorem Coded.linkFailure (l : Nat) : Coded.Statement (.linkFailure l) := by
  intro _
  refine ⟨fun w h => ?_, fun w h => ?_⟩ <;> cases h

theorem Coded.tsync (p : Packet) : Coded.Statement (.tsync p) := by
  intro _
  refine ⟨fun w h => ?_, fun w h => ?_⟩ <;> cases h

theorem Coded.syncTick (l : Nat) : Coded.Statement (.syncTick l) := by
  intro _
  refine ⟨fun w h => ?_, fun w h => ?_⟩ <;> cases h

theorem Coded.spillWrite (e : Nat) : Coded.Statement (.spillWrite e) := by
  intro _
  refine ⟨fun w h => ?_, fun w h => ?_⟩ <;> cases h

theorem Coded.chunkFetch (e : Nat) : Coded.Statement (.chunkFetch e) := by
  intro _
  refine ⟨fun w h => ?_, fun w h => ?_⟩ <;> cases h

theorem Coded.ident (port : Nat) : Coded.Statement (.ident port) := by
  intro _
  refine ⟨fun w h => ?_, fun w h => ?_⟩ <;> cases h

theorem Coded.semacq (port : Nat) : Coded.Statement (.semacq port) := by
  intro _
  refine ⟨fun w h => ?_, fun w h => ?_⟩ <;> cases h

theorem Coded.semrel (port : Nat) : Coded.Statement (.semrel port) := by
  intro _
  refine ⟨fun w h => ?_, fun w h => ?_⟩ <;> cases h

theorem Coded.semaphoreLoss (port : Nat) : Coded.Statement (.semaphoreLoss port) := by
  intro _
  refine ⟨fun w h => ?_, fun w h => ?_⟩ <;> cases h

theorem Coded.jobstart (port : Nat) (job : JobSpec) : Coded.Statement (.jobstart port job) := by
  intro _
  refine ⟨fun w h => ?_, fun w h => ?_⟩ <;> cases h

theorem Coded.jobstop (port : Nat) (asid : Nat) : Coded.Statement (.jobstop port asid) := by
  intro _
  refine ⟨fun w h => ?_, fun w h => ?_⟩ <;> cases h

theorem Coded.jobresume (port : Nat) (asid : Nat) : Coded.Statement (.jobresume port asid) := by
  intro _
  refine ⟨fun w h => ?_, fun w h => ?_⟩ <;> cases h

theorem Coded.jobremove (port : Nat) (asid : Nat) : Coded.Statement (.jobremove port asid) := by
  intro _
  refine ⟨fun w h => ?_, fun w h => ?_⟩ <;> cases h

theorem Coded.graphstart (port : Nat) (gr : GraphSpec) : Coded.Statement (.graphstart port gr) := by
  intro _
  refine ⟨fun w h => ?_, fun w h => ?_⟩ <;> cases h

theorem Coded.tlbinv (port : Nat) (asid : Nat) (lo : Nat) (len : Nat) : Coded.Statement (.tlbinv port asid lo len) := by
  intro _
  refine ⟨fun w h => ?_, fun w h => ?_⟩ <;> cases h

theorem Coded.doorbell (port : Nat) (eid : Nat) : Coded.Statement (.doorbell port eid) := by
  intro _
  refine ⟨fun w h => ?_, fun w h => ?_⟩ <;> cases h

theorem Coded.setpkg (port : Nat) (pkg : Nat) : Coded.Statement (.setpkg port pkg) := by
  intro _
  refine ⟨fun w h => ?_, fun w h => ?_⟩ <;> cases h

theorem Coded.routewr (port : Nat) (dst : Nat) (ent : BitVec 16) : Coded.Statement (.routewr port dst ent) := by
  intro _
  refine ⟨fun w h => ?_, fun w h => ?_⟩ <;> cases h

theorem Coded.treewr (port : Nat) (idx : Nat) (ent : List Byte) : Coded.Statement (.treewr port idx ent) := by
  intro _
  refine ⟨fun w h => ?_, fun w h => ?_⟩ <;> cases h

theorem Coded.rateset (port : Nat) (eid : Nat) (rate : Nat) : Coded.Statement (.rateset port eid rate) := by
  intro _
  refine ⟨fun w h => ?_, fun w h => ?_⟩ <;> cases h

theorem Coded.fwload (port : Nat) (die : Nat) (img : List Byte) : Coded.Statement (.fwload port die img) := by
  intro _
  refine ⟨fun w h => ?_, fun w h => ?_⟩ <;> cases h

theorem Coded.linkretrain (port : Nat) (l : Nat) : Coded.Statement (.linkretrain port l) := by
  intro _
  refine ⟨fun w h => ?_, fun w h => ?_⟩ <;> cases h

theorem Coded.stackretire (port : Nat) (stk : Nat) : Coded.Statement (.stackretire port stk) := by
  intro _
  refine ⟨fun w h => ?_, fun w h => ?_⟩ <;> cases h

theorem Coded.dieoff (port : Nat) (die : Nat) (via : Option Nat) : Coded.Statement (.dieoff port die via) := by
  intro _
  refine ⟨fun w h => ?_, fun w h => ?_⟩ <;> cases h

theorem Coded.dieon (port : Nat) (die : Nat) : Coded.Statement (.dieon port die) := by
  intro _
  refine ⟨fun w h => ?_, fun w h => ?_⟩ <;> cases h

theorem Coded.attest (port : Nat) (nonce : List Byte) : Coded.Statement (.attest port nonce) := by
  intro _
  refine ⟨fun w h => ?_, fun w h => ?_⟩ <;> cases h

theorem Coded.powercap (port : Nat) (watts : Nat) : Coded.Statement (.powercap port watts) := by
  intro _
  refine ⟨fun w h => ?_, fun w h => ?_⟩ <;> cases h

theorem Coded.sbresolve (port : Nat) (stk : Nat) : Coded.Statement (.sbresolve port stk) := by
  intro _
  refine ⟨fun w h => ?_, fun w h => ?_⟩ <;> cases h

theorem Coded.sbresolveTimeout (stk : Nat) : Coded.Statement (.sbresolveTimeout stk) := by
  intro _
  refine ⟨fun w h => ?_, fun w h => ?_⟩ <;> cases h

theorem Coded.sblist (port : Nat) (stk : Nat) (off : Nat) : Coded.Statement (.sblist port stk off) := by
  intro _
  refine ⟨fun w h => ?_, fun w h => ?_⟩ <;> cases h

theorem Coded.sbdecide (port : Nat) (stk : Nat) (src : Nat) (grp : Nat) (pub : Bool) : Coded.Statement (.sbdecide port stk src grp pub) := by
  intro _
  refine ⟨fun w h => ?_, fun w h => ?_⟩ <;> cases h

theorem Coded.sblost (port : Nat) (eid : Nat) : Coded.Statement (.sblost port eid) := by
  intro _
  refine ⟨fun w h => ?_, fun w h => ?_⟩ <;> cases h

theorem Coded.powerOn : Coded.Statement (.powerOn) := by
  intro _
  refine ⟨fun w h => ?_, fun w h => ?_⟩ <;> cases h

theorem Coded.reducedService : Coded.Statement (.reducedService) := by
  intro _
  refine ⟨fun w h => ?_, fun w h => ?_⟩ <;> cases h

theorem Coded.partJoin (part : Part) : Coded.Statement (.partJoin part) := by
  intro _
  refine ⟨fun w h => ?_, fun w h => ?_⟩ <;> cases h

theorem Coded.thermalThrottle (die : Nat) : Coded.Statement (.thermalThrottle die) := by
  intro _
  refine ⟨fun w h => ?_, fun w h => ?_⟩ <;> cases h

theorem Coded.thermalShutdown (die : Nat) : Coded.Statement (.thermalShutdown die) := by
  intro _
  refine ⟨fun w h => ?_, fun w h => ?_⟩ <;> cases h

theorem Coded.variableLatencyResult (e : Nat) (h : Nat) (n : Nat) : Coded.Statement (.variableLatencyResult e h n) := by
  intro _
  refine ⟨fun w h => ?_, fun w h => ?_⟩ <;> cases h

theorem Coded.unallocatedWord (w : BitVec 32) : Coded.Statement (.unallocatedWord w) := by
  intro _
  refine ⟨fun w h => ?_, fun w h => ?_⟩ <;> cases h

theorem Coded.barrierWaitRequest (p : Packet) : Coded.Statement (.barrierWaitRequest p) := by
  intro _
  refine ⟨fun w h => ?_, fun w h => ?_⟩ <;> cases h

theorem Coded.gwaitQueryRepeat (e : Nat) (h : Nat) : Coded.Statement (.gwaitQueryRepeat e h) := by
  intro _
  refine ⟨fun w h => ?_, fun w h => ?_⟩ <;> cases h

theorem Coded.linkRetrainDone (l : Nat) : Coded.Statement (.linkRetrainDone l) := by
  intro _
  refine ⟨fun w h => ?_, fun w h => ?_⟩ <;> cases h

end Sys2Proof.Laws
end

