-- ==== Sys2Proof/Tests/Slice0.lean ====
section
/-! SUPPORT. Own tests: ill-formed terms refused, words of the tables decoded, single steps with results worked from the
spec, and for every statement with hypotheses a state and operands that meet them. -/

namespace Sys2Proof.Tests

open Sys2Proof Sys2Proof.Machine

set_option Elab.async false

/-! ### Small states -/

/-- The machine after reset with some c registers holding scalars. -/
def regs (l : List (Fin 32 × Word)) : State := l.foldl (fun s p => s.wx p.1 p.2) State.reset

/-- With some c registers holding capabilities. -/
def caps (l : List (Fin 32 × Cap)) (s : State) : State := l.foldl (fun s p => s.wc p.1 p.2) s

/-- The capability of the worked example of R113, and the same with A moved by one byte (R123). -/
def cap113 : Cap := ⟨BitVec.ofNat 128 (0x103000 * 2 ^ 48 + 0x3086004000), true⟩
def cap123 : Cap := ⟨BitVec.ofNat 128 (0x103001 * 2 ^ 48 + 0x3086004000), true⟩

/-- With some o registers set. -/
def os (l : List (Fin 8 × Word)) (s : State) : State :=
  l.foldl (fun s p => s.setCtx { s.ctx with o := s.ctx.o.set p.1 p.2 }) s

/-- With some v registers set. -/
def vs (l : List (Fin 64 × VReg)) (s : State) : State :=
  l.foldl (fun s p => { s with core := { s.core with v := s.core.v.set p.1 p.2 } }) s

/-- With code at 0x40_0000 and a trap vector that names it (R221). -/
def armed (s : State) : State :=
  let s := s.withFetchWord 32 0x300001C1
  { s with core := { s.core with tvec := capOf 0x400000 0x4000 (2 ^ pX + 2 ^ pY) } }

/-- The next state of an outcome. -/
def nextOf (o : Host.Outcome State Fault Refusal) : Option State :=
  match o with
  | .next s => some s
  | _ => none

/-- What one instruction leaves, looked at by `f`. -/
def after {α : Type} (i : Instr) (s : State) (f : State → α) : Option α := (nextOf (exec i s)).map f

/-- The cause and value of the trap that one instruction takes. -/
def trapOf (i : Instr) (s : State) : Option (Nat × Addr) := after i s (fun t => (t.core.tcause.toNat % 64, t.core.tval))

/-- An operation that answers, with what it answers and leaves. -/
def okThat {α : Type} (r : EStateM.Result Stop State α) (f : α → State → Bool) : Bool :=
  match r with
  | .ok x t => f x t
  | .error _ _ => false

theorem exists_of_okThat {α : Type} {r : EStateM.Result Stop State α} {f : α → State → Bool} (h : okThat r f = true) :
    ∃ x t, r = .ok x t ∧ f x t = true := by
  cases r with
  | ok x t => exact ⟨x, t, rfl, h⟩
  | error _ _ => exact absurd h (by simp [okThat])

/-- Nothing on its way to a register of the issuing context. -/
def clean (s : State) : Bool :=
  !(s.helper && s.ctx.stopReq) && s.boundary.isNone && s.ctx.fix.isEmpty && s.ctx.pend.isEmpty

theorem canIssue_of_clean {s : State} (h : clean s = true) (l : List (RegFile × Nat)) : s.CanIssue l := by
  simp only [clean, Bool.and_eq_true, Bool.not_eq_true', Option.isNone_iff_eq_none, List.isEmpty_iff] at h
  obtain ⟨⟨⟨h1, h2⟩, h3⟩, h4⟩ := h
  exact ⟨h1, h2, fun _ _ _ => by simp [State.fixPending, h3], fun _ _ => by simp [State.varPending, h4]⟩

/-- The machine at 0x40_0000 as package 0, with every stack in use (R16, R18) and some c registers set, as an instruction of four bytes there issues. -/
def booted (l : List (Fin 32 × Word)) : State :=
  let s := armed (regs l)
  let s := { s with pkg := some 0, stackOn := Vector.replicate _ true }
  s.setCtx { s.ctx with npc := 0x400004, ir := 0x300001C1 }

theorem reset_canIssue (l : List (RegFile × Nat)) : State.reset.CanIssue l := canIssue_of_clean (by decide +kernel) l

/-- The conditions of `State.Open`, `State.Quiet` and `State.Still`, tried out. -/
def openB (s : State) (lo n : Nat) : Bool :=
  s.reaches lo && !s.held lo n && s.ringHeaders.all (fun h => !overlaps h 64 lo n) &&
    s.deviceOnly.all (fun r => !overlaps r.1 r.2 lo n) &&
    s.allCores.all (fun c => (List.finRange 2).all (fun h => !c.hwc[h].toNat.testBit 0))
def quietB (s : State) (lo n esz : Nat) : Bool :=
  openB s lo n &&
    s.recents.all (fun r => (r.core, r.ctx) == s.thread || !overlaps r.lo r.n lo n || r.esz == esz) &&
    s.core.l1.all (fun x => !(linesOf lo n).contains x.line || s.l1Current x)
def stillB (s : State) (lo n esz : Nat) : Bool :=
  openB s lo n && s.recents.all (fun r => !overlaps r.lo r.n lo n || r.esz == esz)

theorem open_of_openB {s : State} {lo n : Nat} (h : openB s lo n = true) : s.Open lo n := by
  simp only [openB, Bool.and_eq_true, List.all_eq_true, Bool.not_eq_true'] at h
  exact ⟨h.1.1.1.1, h.1.1.1.2, h.1.1.2, h.1.2, fun c hc k => h.2 c hc k (List.mem_finRange k)⟩

theorem quiet_of_quietB {s : State} {lo n esz : Nat} (h : quietB s lo n esz = true) : s.Quiet lo n esz := by
  simp only [quietB, Bool.and_eq_true, List.all_eq_true, Bool.or_eq_true, beq_iff_eq, Bool.not_eq_true',
    List.contains_eq_mem, decide_eq_false_iff_not] at h
  refine ⟨open_of_openB h.1.1, fun r hr ht ho => ?_, fun x hx hl => ?_⟩
  · rcases h.1.2 r hr with (h1 | h1) | h1
    · exact absurd h1 ht
    · simp [ho] at h1
    · exact h1
  · rcases h.2 x hx with h1 | h1
    · exact absurd hl h1
    · exact h1

theorem still_of_stillB {s : State} {lo n esz : Nat} (h : stillB s lo n esz = true) : s.Still lo n esz := by
  simp only [stillB, Bool.and_eq_true, List.all_eq_true, Bool.or_eq_true, beq_iff_eq, Bool.not_eq_true'] at h
  refine ⟨open_of_openB h.1, fun r hr ho => ?_⟩
  rcases h.2 r hr with h1 | h1
  · simp [ho] at h1
  · exact h1

def quietAllB (s : State) (gs : List Seg) (esz : Nat) : Bool := gs.all (fun g => quietB s g.place g.len esz)

theorem quietAll_of_quietAllB {s : State} {gs : List Seg} {esz : Nat} (h : quietAllB s gs esz = true) : s.QuietAll gs esz :=
  fun g hg => quiet_of_quietB (List.all_eq_true.mp h g hg)

/-! ### Scalar and capability work -/

theorem test_capability_example_decodes : capA cap113 = 0x103000 ∧ capE cap113 = 2 ∧ capB cap113 = 0x0C00 ∧
    capL cap113 = 0x4000 ∧ capBase cap113 = 0x103000 ∧ capTop cap113 = 0x113000 := by decide +kernel

theorem test_add_wraps : after (.add 0 5 6 7) (regs [(6, 0xFFFFFFFFFFFFFFFF), (7, 2)]) (·.rx 5) = some 1 := by
  decide +kernel
theorem test_sub_order : after (.sub 0 5 6 7) (regs [(6, 3), (7, 5)]) (·.rx 5) = some 0xFFFFFFFFFFFFFFFE := by decide +kernel
theorem test_andn_complements_b : after (.andn 0 5 6 7) (regs [(6, 0xFF), (7, 0x0F)]) (·.rx 5) = some 0xF0 := by
  decide +kernel
theorem test_sll_takes_six_bits : after (.sll 0 5 6 7) (regs [(6, 1), (7, 65)]) (·.rx 5) = some 2 := by decide +kernel
theorem test_sra_shifts_sign_in : after (.sra 0 5 6 7) (regs [(6, 0x8000000000000000), (7, 63)]) (·.rx 5) =
    some 0xFFFFFFFFFFFFFFFF := by decide +kernel
theorem test_slt_is_signed : after (.slt 0 5 6 7) (regs [(6, 0xFFFFFFFFFFFFFFFF), (7, 1)]) (·.rx 5) = some 1 := by
  decide +kernel
theorem test_sltu_is_unsigned : after (.sltu 0 5 6 7) (regs [(6, 0xFFFFFFFFFFFFFFFF), (7, 1)]) (·.rx 5) = some 0 := by
  decide +kernel
theorem test_minu_is_unsigned : after (.minu 0 5 6 7) (regs [(6, 0xFFFFFFFFFFFFFFFF), (7, 1)]) (·.rx 5) = some 1 := by
  decide +kernel
theorem test_sel_keeps_tag : after (.sel 0 5 6 7) (caps [(6, cap113)] (regs [(5, 1)])) (·.rc 5) = some cap113 := by
  decide +kernel
theorem test_c0_discards : after (.add 0 0 6 7) (regs [(6, 1), (7, 2)]) (·.rc 0) = some Cap.null := by decide +kernel
theorem test_lik_shifts_in : after (.lik 0 4 0x4567) (regs [(4, 0x0123)]) (·.rx 4) = some 0x01234567 := by decide +kernel
theorem test_lis_extends_sign : after (.lis 0 4 0x8000) State.reset (·.rx 4) = some 0xFFFFFFFFFFFF8000 := by decide +kernel
theorem test_slli_negative_illegal : (trapOf (.slli 0 4 5 0x40) (booted [])).map (·.1) = some 1 := by decide +kernel
theorem test_addi_short_minus_two : after (.addiShort 0 3 14) (regs [(3, 1)]) (·.rx 3) = some 0xFFFFFFFFFFFFFFFF := by
  decide +kernel
theorem test_halfword_zero_illegal : (trapOf (.addShort 0 0 0) (booted [])).map (·.1) = some 1 := by decide +kernel
theorem test_mul_ready_in_three : after (.mul 0 5 6 7) (regs [(6, 3), (7, 0xFFFFFFFFFFFFFFFF)])
    (fun t => (t.rx 5, t.ctx.fix.map (fun p => (p.idx, p.val, p.ready)))) =
    some (0, [(5, 0xFFFFFFFFFFFFFFFD, 3)]) := by decide +kernel
theorem test_div_truncates : after (.div 0 5 6 7) (regs [(6, 0xFFFFFFFFFFFFFFF9), (7, 2)]) (·.rx 5) =
    some 0xFFFFFFFFFFFFFFFD := by decide +kernel
theorem test_div_borderline : after (.div 0 5 6 7) (regs [(6, 0x8000000000000000), (7, 0xFFFFFFFFFFFFFFFF)]) (·.rx 5) =
    some 0x8000000000000000 := by decide +kernel
theorem test_rem_by_zero : after (.rem 0 5 6 0) (regs [(6, 9)]) (·.rx 5) = some 9 := by decide +kernel
theorem test_clz_of_one : after (.clz 0 5 6) (regs [(6, 1)]) (·.rx 5) = some 63 := by decide +kernel
theorem test_ctz_of_zero : after (.ctz 0 5 6) State.reset (·.rx 5) = some 64 := by decide +kernel
theorem test_bswap : after (.bswap 0 5 6) (regs [(6, 0x0102030405060708)]) (·.rx 5) = some 0x0807060504030201 := by
  decide +kernel

/-- Worked example of R123: length 0x9001 at A = 0x10_3001. -/
theorem test_csetb_example : after (.csetb 0 5 6 7) (caps [(6, cap123)] (regs [(7, 0x9001)]))
    (fun t => ((t.rc 5).tag, capL (t.rc 5), capBase (t.rc 5), capTop (t.rc 5))) =
    some (true, 0x4801, 0x103000, 0x10C002) := by decide +kernel
theorem test_csetbx_example : after (.csetbx 0 5 6 7) (caps [(6, cap123)] (regs [(7, 0x9001)]))
    (fun t => ((t.rc 5).tag, capL (t.rc 5))) = some (false, 0x4801) := by decide +kernel
theorem test_csetb_beyond_parent : after (.csetb 0 5 6 7) (caps [(6, cap123)] (regs [(7, 0x10000)]))
    (fun t => ((t.rc 5).tag, capE (t.rc 5), capL (t.rc 5))) = some (false, 2, 0x4001) := by decide +kernel
theorem test_cinc_leaves_window : after (.cinc 0 5 6 7) (caps [(6, cap113)] (regs [(7, 0x20000)]))
    (fun t => ((t.rc 5).tag, capA (t.rc 5))) = some (false, 0x123000) := by decide +kernel
theorem test_cgett_high_half : after (.cgett 0 5 6 1) (caps [(6, capOf (2 ^ 80 - 2 ^ 60) (2 ^ 60) 3)] (regs [])) (·.rx 5) =
    some 0x10000 := by decide +kernel
theorem test_candp_masks : after (.candp 0 5 6 7) (caps [(6, capOf 0x1000 64 3)] (regs [(7, 1)]))
    (fun t => ((t.rc 5).tag, capP (t.rc 5))) = some (true, 1) := by decide +kernel
theorem test_ctest_contains : after (.ctest 0 5 6 7) (caps [(6, cap113), (7, cap113)] (regs [])) (·.rx 5) = some 1 := by
  decide +kernel

/-- ScalarResults, its clause for SEL too. -/
theorem witness_scalarResults : State.reset.CanIssue [rdC 6, rdC 7] ∧ State.reset.CanIssue [rdC 5, rdC 6, rdC 7] :=
  ⟨reset_canIssue _, reset_canIssue _⟩

/-- ImmediatesAndShortForms: immediates on both sides of the sign, and x = 0 as well as x ≠ 0. -/
theorem witness_immediates : State.reset.CanIssue [rdC 6] ∧ State.reset.CanIssue [] ∧
    State.reset.CanIssue [rdC 3, rdC 4] ∧ (0x3F#7).msb = false ∧ (0x40#7).msb = true ∧
    (State.reset.helper && State.reset.ctx.stopReq) = false ∧ (1 : Fin 16) ≠ 0 :=
  ⟨reset_canIssue _, reset_canIssue _, reset_canIssue _, by decide, by decide, by decide +kernel, by decide⟩

/-- ProductsDivisionsAndBitCounts: a divisor of one and a divisor of zero. -/
theorem witness_products : (regs [(7, 1)]).CanIssue [rdC 6, rdC 7] ∧ ((regs [(7, 1)]).rx 7).toNat ≠ 0 ∧
    State.reset.CanIssue [rdC 6, rdC 7] ∧ (State.reset.rx 7).toNat = 0 :=
  ⟨canIssue_of_clean (by decide +kernel) _, by decide +kernel, reset_canIssue _,
    by decide +kernel⟩

/-- CapabilityInstructions and AuthorityNeverGrows: tagged sources, and lengths of CSETBI on both sides of the sign. -/
theorem witness_capabilities :
    let s := caps [(6, cap123), (7, cap113)] (regs [])
    s.CanIssue ([6, 7].map rdC) ∧ s.CanIssue ([5, 6, 7].map rdC) ∧ s.CanIssue ([6].map rdC) ∧ (s.rc 6).tag = true ∧
      (0x3F#7).msb = false ∧ (0x40#7).msb = true :=
  ⟨canIssue_of_clean (by decide +kernel) _,
    canIssue_of_clean (by decide +kernel) _,
    canIssue_of_clean (by decide +kernel) _, by decide +kernel, by decide, by decide⟩


/-! ### Control transfers and loops -/

theorem test_bne_back_taken : after (.bne 0 4 0x1FFA) (booted [(4, 1)]) (fun t => capA t.ctx.pcc) =
    some 0x3FFFF4 := by decide +kernel
theorem test_beq_forward : after (.beq 0 0 4) (booted []) (fun t => capA t.ctx.pcc) = some 0x400008 := by decide +kernel
theorem test_beq_not_taken : after (.beq 0 4 4) (booted [(4, 1)]) (fun t => capA t.ctx.pcc) = some 0x400004 := by
  decide +kernel
theorem test_blt_is_signed : after (.blt 0 4 4) (booted [(4, 0xFFFFFFFFFFFFFFFF)]) (fun t => capA t.ctx.pcc) =
    some 0x400008 := by decide +kernel
theorem test_btag : after (.btag 0 9 10) (caps [(9, cap113)] (booted [])) (fun t => capA t.ctx.pcc) = some 0x400014 := by
  decide +kernel
theorem test_call_links : after (.call 0 8) (booted []) (fun t => (capA t.ctx.pcc, capA (t.rc 1), (t.rc 1).tag)) =
    some (0x400010, 0x400004, true) := by decide +kernel
theorem test_jr_odd_align : trapOf (.jr 0 4) (armed (caps [(4, capAt bootPcc 0x400009)] (booted []))) =
    some (5, 0x400009) := by decide +kernel
theorem test_ret_untagged : trapOf (.ret 0 4) (armed (booted [(4, 0x400008)])) = some (2, 0) := by decide +kernel
theorem test_loop_zero_passes_body : after (.loop 0 3 0) (booted []) (fun t => (capA t.ctx.pcc, t.ctx.loop.lact)) =
    some (0x400006, false) := by decide +kernel
theorem test_loop_starts : after (.loop 0 3 0) (booted [(3, 5)])
    (fun t => (capA t.ctx.pcc, t.ctx.loop.lact, t.ctx.loop.llen, t.ctx.loop.lsz, t.ctx.loop.lcnt)) =
    some (0x400004, true, 1, 2, 5) := by decide +kernel

/-- A loop at 0x40_0000 of `len` instructions at index `idx` of its last but `left` iteration. -/
def looping (l : List (Fin 32 × Word)) (len idx : Nat) (left : Word) : State :=
  let s := booted l
  s.setCtx { s.ctx with loop := { lact := true, llen := len, lidx := idx, lsz := 4 * len, lbeg := 0x400000,
                                  lcnt := 2 + left, liter := 1 } }

theorem test_loop_end_counts : after (.add 0 5 5 5) (looping [] 2 1 0)
    (fun t => (capA t.ctx.pcc, t.ctx.loop.lact, t.ctx.loop.liter)) = some (0x400008, false, 2) := by decide +kernel
theorem test_lexit_leaves : after (.lexit 0 4) (looping [(4, 1)] 3 1 5) (fun t => (capA t.ctx.pcc, t.ctx.loop.lact)) =
    some (0x40000C, false) := by decide +kernel
theorem test_branch_in_loop_illegal : (trapOf (.beq 0 0 4) (looping [] 2 0 0)).map (·.1) = some 1 := by decide +kernel

/-- BranchesJumpsAndCalls: no loop; conditions of both outcomes; targets inside and outside PCC. -/
theorem witness_branches :
    let s := caps [(9, cap113), (10, capOf 0x400000 4 4)] (booted [(4, 1), (5, 0xFFFFFFFFFFFFFFFF)])
    let s := { s with core := { s.core with m := (s.core.m.set 1 5).set 2 0xFFFFFFFF, g := s.core.g.set 1 true } }
    let small := s.setCtx { s.ctx with pcc := capOf 0x400000 4 4 }
    (clean s = true ∧ clean small = true ∧ s.ctx.loop.lact = false ∧ s.helper = false) ∧
      ((s.rx 4).toInt > 0 ∧ (s.rx 5).toInt < 0 ∧ (s.rx 0).toInt = 0 ∧ (s.rc 9).tag = true ∧ (s.rc 4).tag = false) ∧
      (s.rm 3 = 0 ∧ (s.rm 1).getLsbD 0 = true ∧ s.rm 2 = 0xFFFFFFFF ∧ s.rg 1 = true ∧ s.rg 2 = false) ∧
      (capBase s.ctx.pcc ≤ (capA s.ctx.pcc : Int) + 2 * 4 ∧ (capA s.ctx.pcc : Int) + 2 * 4 + 2 ≤ capTop s.ctx.pcc) ∧
      ¬ ((capA small.ctx.pcc : Int) + 2 * 2 + 2 ≤ capTop small.ctx.pcc) ∧
      (capA small.ctx.pcc : Int) + 2 * 1 + 2 ≤ capTop small.ctx.pcc := by decide +kernel

/-- BranchesJumpsAndCalls, jumps through a register: one that may be taken, and one for each check. -/
theorem witness_jumps :
    let ok := capOf 0x400000 4 4
    let odd := capAt ok 0x400001
    let past := capAt ok 0x400004
    let plain := capOf 0x400000 4 2
    (ok.tag = true ∧ capE ok ≤ 50 ∧ capHas ok 11 = false ∧ capHas ok pX = true ∧ capBase ok ≤ capA ok ∧
      (capA ok : Int) + 2 ≤ capTop ok ∧ capA ok % 2 = 0) ∧ (Cap.null).tag = false ∧
      (capValid plain = true ∧ capHas plain pX = false) ∧
      (capValid past = true ∧ capHas past pX = true ∧ ¬ ((capA past : Int) + 2 ≤ capTop past)) ∧
      (capValid odd = true ∧ capHas odd pX = true ∧ capBase odd ≤ capA odd ∧ (capA odd : Int) + 2 ≤ capTop odd ∧
        capA odd % 2 = 1) := by decide +kernel

/-- Loops: a body that can be fetched, with a count of zero and of five; and every place in a body. -/
theorem witness_loop_starts :
    (∃ z u, bodySize 1 0x400004 (booted [(3, 5)]) = .ok z u ∧ u.ctx = (booted [(3, 5)]).ctx) ∧
      clean (booted [(3, 5)]) = true ∧ (booted [(3, 5)]).ctx.loop.lact = false ∧ (booted [(3, 5)]).ctx.npc = 0x400004 ∧
      (booted [(3, 5)]).rx 3 ≠ 0 ∧ (booted [(3, 5)]).rx 0 = 0 := by
  refine ⟨?_, by decide +kernel⟩
  obtain ⟨z, u, h, hu⟩ := exists_of_okThat (r := bodySize 1 0x400004 (booted [(3, 5)]))
    (f := fun _ u => decide (u.ctx = (booted [(3, 5)]).ctx)) (by decide +kernel)
  exact ⟨z, u, h, of_decide_eq_true hu⟩

theorem witness_loop_bodies :
    let p := looping [(4, 1)] 2 0 1
    let q := looping [(4, 1)] 2 1 1
    let e := looping [(4, 1)] 2 1 0
    (clean p = true ∧ clean q = true ∧ clean e = true ∧ p.ctx.loop.lact = true ∧ q.ctx.loop.lact = true ∧
      e.ctx.loop.lact = true ∧ (p.helper && p.ctx.stopReq) = false) ∧
      p.ctx.loop.lidx + 1 ≠ p.ctx.loop.llen ∧
      (q.ctx.loop.lidx + 1 = q.ctx.loop.llen ∧ q.ctx.loop.liter + 1 ≠ q.ctx.loop.lcnt) ∧
      (e.ctx.loop.lidx + 1 = e.ctx.loop.llen ∧ e.ctx.loop.liter + 1 = e.ctx.loop.lcnt) ∧
      (p.rx 4 ≠ 0 ∧ p.rx 5 = 0 ∧ (5 : Fin 32) ≠ 0) ∧ (booted []).ctx.loop.lact = false := by decide +kernel


/-! ### Loads, stores and atomics -/

/-- A page that may be written, mapped at 0x50_0000 (R256). -/
def mapped (s : State) : State := { s with mem := memSets s.mem (0x240000 + 8 * 0x50) (leBytes 8 0x300007) }

def poolCap (p : Nat) : Cap := capOf (Config.LW + 0x106000) 0x1000 p
def pageCap (p : Nat) : Cap := capOf 0x500000 0x1000 p

/-- c4 and c2 name the scratchpad, c5 the page, each with every permission; data stands at the start of each. -/
def memory (l : List (Fin 32 × Word)) : State :=
  let s := caps [(2, poolCap 0x7FF), (4, poolCap 0x7FF), (5, pageCap 0x7FF)] (mapped (booted l))
  let m := memSets s.mem (poolPlace 0 0x6000) (leBytes 16 0x8877665544332211FFEEDDCCBBAA9988)
  { s with mem := memSets m 0x300000 (leBytes 16 0xF0E0D0C0B0A090807060504030201000) }

/-- With a job record of the core. -/
def withJob (j : JobRec) (s : State) : State := { s with core := { s.core with jobs := [j] } }

/-- With results on their way to c6 (fixed latency) and c7 (variable latency), and the scoreboard check as given. -/
def busy (schk : Bool) (s : State) : State :=
  let s := { s with core := { s.core with schk := schk } }
  if schk then s.setCtx { s.ctx with fix := [{ file := .c, idx := 6, val := 1, ready := 100 }] }
  else s.setCtx { s.ctx with pend := [{ file := .c, idx := 7, op := 5, val := none }] }

/-- As helper 1 runs on a core. -/
def inHelper (s : State) : State :=
  { s with core := { s.core with cur := 1, ctxs := s.core.ctxs.set 1 { s.core.ctxs[(0 : Fin 11)] with slot := .live } } }

/-- With a core of the same cluster whose L1 still holds a lease on a line that this context wrote. -/
def leased (s : State) : State :=
  { s with core := { s.core with l1 := [{ line := 0x6000, until_ := 400, wrote := [(s.core.id, s.core.cur.val)] }] } }

/-- With a remote operation without its reply. -/
def remoteWait (s : State) : State :=
  { s with core := { s.core with ops := [{ tag := 3, ctx := s.core.cur.val, pkt := {}, counts := true }] } }

theorem test_ldb_extends_sign : after (.ldB 0 6 4 0) (memory []) (·.rx 6) = some 0xFFFFFFFFFFFFFF88 := by decide +kernel
theorem test_ldbu_extends_zero : after (.ldBu 0 6 4 0) (memory []) (·.rx 6) = some 0x88 := by decide +kernel
theorem test_ldh_scales_offset : after (.ldH 0 6 5 3) (memory []) (·.rx 6) = some 0x7060 := by decide +kernel
theorem test_ldd_little_endian : after (.ldD 0 6 5 1) (memory []) (·.rx 6) = some 0xF0E0D0C0B0A09080 := by decide +kernel
theorem test_stw_keeps_neighbours : after (.stW 0 6 5 1) (memory [(6, 0xAAAAAAAA99999999)])
    (fun t => (t.getNat 0x300000 8, t.getNat 0x300008 8)) = some (0x9999999930201000, 0xF0E0D0C0B0A09080) := by
  decide +kernel
theorem test_store_marks_page_dirty : after (.stB 0 6 5 0) (memory []) (fun t => t.getNat (0x240000 + 8 * 0x50) 8) =
    some 0x300187 := by decide +kernel
theorem test_stc_then_ldc_keeps_tag :
    (after (.stC 0 5 4 1) (memory []) id).bind (fun t => after (.ldC 0 8 4 1) t (fun u => (u.rc 8).tag)) = some true := by
  decide +kernel
theorem test_std_clears_tag :
    ((after (.stC 0 5 4 1) (memory []) id).bind (fun t => after (.stD 0 6 4 3) t id)).bind
      (fun t => after (.ldC 0 8 4 1) t (fun u => (u.rc 8).tag)) = some false := by decide +kernel
theorem test_aadd_returns_old : after (.aaddD 0 8 5 7) (memory [(7, 1)]) (fun t => (t.rx 8, t.getNat 0x300000 8)) =
    some (0x7060504030201000, 0x7060504030201001) := by decide +kernel
theorem test_acas_compares_o2 : after (.acasW 0 8 5 7) (os [(2, 0x30201000)] (memory [(7, 5)]))
    (fun t => (t.rx 8, t.getNat 0x300000 8)) = some (0x30201000, 0x7060504000000005) := by decide +kernel
theorem test_amin_is_signed : after (.aminW 0 8 4 7) (memory [(7, 1)]) (fun t => t.getNat (poolPlace 0 0x6000) 4) =
    some 0xBBAA9988 := by decide +kernel
theorem test_load_beyond_bounds : trapOf (.ldD 0 6 5 0) (caps [(5, capOf 0x500000 4 0x7FF)] (memory [])) =
    some (3, 0x500000) := by decide +kernel
theorem test_load_unaligned : trapOf (.ldW 0 6 5 0) (caps [(5, capAt (pageCap 0x7FF) 0x500002)] (memory [])) =
    some (5, 0x500002) := by decide +kernel
theorem test_store_without_permission : trapOf (.stB 0 6 5 0) (caps [(5, pageCap 1)] (memory [])) = some (4, 0x500000) := by
  decide +kernel
theorem test_load_unmapped : trapOf (.ldB 0 6 5 0) (caps [(5, capOf 0x700000 16 0x7FF)] (memory [])) =
    some (6, 0x700000) := by decide +kernel
theorem test_stall_short_names_register : (trapOf (.add 0 5 6 7) (busy true (booted []))).map (·.2) = some 6 := by
  decide +kernel
theorem test_fence_waits_for_lease : after (.fence 0 1) (leased (memory [])) (·.ctx.blocked) = some true := by decide +kernel
theorem test_pollj_of_no_job : after (.pollj 0 5 6) (memory []) (·.rx 5) = some 15 := by decide +kernel

/-- AccessChecks: a capability for each check, and one that passes all of them. -/
theorem witness_access_checks :
    let c := capOf 0x500001 0x20 0x7FF
    let none_ := capOf 0x500000 0x20 0
    clean (memory []) = true ∧ (memory []).ctx.ahead = false ∧ capValid Cap.null = false ∧
      (capValid none_ = true ∧ capHasAll none_ [pL] = false ∧ capHasAll none_ [pS, pSC] = false) ∧
      (capValid c = true ∧ capHasAll c [pL, pS, pA, pSC] = true ∧ ¬ (capBase c ≤ (capA c : Int) - 1)) ∧
      (¬ ((capA c : Int) + 0x1F + 2 ≤ capTop c)) ∧
      (capBase c ≤ (capA c : Int) ∧ (capA c : Int) + 2 ≤ capTop c ∧ (capA c : Int) % 2 ≠ 0) := by decide +kernel

/-- Whether an access has one piece, which is quiet after its translation. -/
def onePiece (r : EStateM.Result Stop State (List Seg)) (n : Nat) (esz : Nat := n) : Bool :=
  okThat r (fun gs t => match gs with | [g] => quietB t g.place n esz | _ => false)

theorem exists_of_onePiece {r : EStateM.Result Stop State (List Seg)} {n esz : Nat} (h : onePiece r n esz = true) :
    ∃ g t, r = .ok [g] t ∧ t.Quiet g.place n esz := by
  obtain ⟨gs, t, hr, hl⟩ := exists_of_okThat h
  match gs, hl with
  | [g], hl => exact ⟨g, t, hr, quiet_of_quietB hl⟩

/-- LoadResults, StoreResults and AtomicResults: accesses of each size, in the scratchpad and in a page, at the first and
the last place of the capability. -/
theorem witness_accesses :
    let s := memory [(7, 3)]
    clean s = true ∧ s.ctx.ahead = false ∧ Memory.wf s.mem = true ∧
      (∀ n ∈ [(1 : Nat), 2, 4, 8, 16], ∀ c ∈ [(4 : Fin 32), 5], ∀ k ∈ [0, (0x1000 / n - 1 : Nat)],
        onePiece (access (s.rc c) [pL] ((capA (s.rc c) : Int) + (k : Int) * n) n n .load s) n = true ∧
        onePiece (access (s.rc c) [pS] ((capA (s.rc c) : Int) + (k : Int) * n) n n .store s) n = true) := by decide +kernel
theorem witness_atomics :
    let s := memory [(7, 3)]
    (∀ n ∈ [4, 8], ∀ c ∈ [(4 : Fin 32), 5],
        onePiece (access (s.rc c) [pL, pS, pA] (capA (s.rc c)) n n .atomic s) n = true) ∧
      (∀ c ∈ [(4 : Fin 32), 5], ∀ v ∈ [(5 : Fin 32), 7],
        onePiece (capStoreAccess (s.rc c) (s.rc v) ((capA (s.rc c) : Int)) s) 16 = true) ∧
      (s.rc 5).tag = true ∧ (s.rc 7).tag = false := by decide +kernel

/-- ScoreboardAndVectorFaults: results on their way, a helper, an o0 with a bad type, and matrix mode. -/
theorem witness_scoreboard :
    let f := busy true (booted [])
    let v := busy false (booted [])
    let h := inHelper (booted [])
    let m := { booted [] with core := { (booted []).core with mm := true } }
    ((f.helper && f.ctx.stopReq) = false ∧ f.core.schk = true ∧ f.fixPending (rdC 6) = true ∧ f.fixPending (rdC 5) = false) ∧
      (v.core.schk = false ∧ v.boundary = none ∧ v.varPending (rdC 7) = true) ∧
      (h.helper = true ∧ (h.helper && h.ctx.stopReq) = false) ∧
      (12 ≤ oVT (os [(0, 12)] (booted [])).o0 ∧ o0ok (os [(0, 0x8000000000000000)] (booted [])).o0 = false) ∧
      (m.helper = false ∧ m.core.mm = true ∧ m.boundPort 40 = false ∧ m.boundPort 12 = false ∧ m.boundPort 11 = false ∧
        (∀ k ∈ [(12 : Fin 64), 11, 40], (11 : Fin 64).val ≤ k.val)) := by decide +kernel

/-- FencesAndCaches: with and without a lease, with and without a remote operation, scopes 4 and 5, and a range. -/
theorem witness_fences :
    let s := memory [(6, 300)]
    clean s = true ∧ clean (leased s) = true ∧ clean (remoteWait s) = true ∧ s.ctx.ahead = false ∧
      s.leaseHeld 4 = false ∧ s.remoteOut = false ∧ (leased s).leaseHeld 1 = true ∧ (leased s).leaseHeld 0 = false ∧
      (remoteWait s).remoteOut = true ∧ (s.helper && s.ctx.stopReq) = false ∧
      okThat (cacheRange (s.rc 5) (s.rx 6).toNat s) (fun gs _ => gs.length == 1 && gs.all Seg.cached) = true ∧
      okThat (cacheRange (s.rc 5) (s.rx 0).toNat s) (fun gs _ => gs.isEmpty) = true := by decide +kernel

/-- JobWaits: a job that has its final status, one that has not, and none. -/
theorem witness_jobs :
    let j (n : Nat) : JobRec := { cls := 2, ri := 3, ser := 4, ctx := 0, status := n }
    let s (n : Nat) : State := (withJob (j n) (booted [])).wx 9 (j n).word
    (∀ n ∈ [0, 1, 15], clean (s n) = true ∧ (s n).core.jobs.find? (fun k => k.word == (s n).rx 9) = some (j n)) ∧
      (s 1).core.jobs.find? (fun k => k.word == (s 1).rx 8) = none ∧ (s 1).ctx.ahead = false ∧
      ((s 1).rx 8).toNat ≤ (s 1).time.toNat ∧ ((s 1).ctx.wait = .none ∧ (s 1).readyOthers = []) := by decide +kernel


/-! ### Vector work -/

/-- A v register of many bit patterns. -/
def bitsOf (k : Nat) : VReg := BitVec.ofNat 1024 (0x9E3779B97F4A7C15F39CC0605CEDC83 ^ (9 + k) / (2 * k + 3))

/-- v40, v41 and v42 (and v8, v9, v10) hold bit patterns; o0 is as given, and m1 holds a mask. -/
def vectors (o0 : Word) : State :=
  let s := os [(0, o0)] (vs [(40, bitsOf 0), (41, bitsOf 1), (42, bitsOf 2), (8, bitsOf 3), (9, bitsOf 4)] (booted []))
  { s with core := { s.core with m := s.core.m.set 1 0xA5C3F00F } }

/-- Lanes of a v register, the others zero. -/
def lanes (l : List Nat) : VReg := BitVec.ofNat 1024 (l.foldr (fun x r => x + 2 ^ 32 * r) 0)

/-- What an instruction of fixed latency is about to write. -/
def coming (t : State) : List (Nat × VReg) := t.ctx.fix.map (fun p => (p.idx, p.val))

theorem test_vadd_saturates : after (.vadd 0 8 40 41 0) (os [(0, 0x2004)] (vs [(40, lanes [0x7FFFFFFF, 1]), (41, lanes [1, 2])]
    (booted []))) coming = some [(8, lanes [0x7FFFFFFF, 3])] := by decide +kernel
theorem test_vsub_order : after (.vsub 0 8 40 41 0) (os [(0, 4)] (vs [(40, lanes [5]), (41, lanes [7])] (booted [])))
    coming = some [(8, lanes [0xFFFFFFFE])] := by decide +kernel
theorem test_vfma_fp32 : after (.vfma 0 8 40 41 0) (os [(0, 10)] (vs [(40, lanes [0x40000000]), (41, lanes [0x40400000]),
    (8, lanes [0x3F800000])] (booted []))) coming = some [(8, lanes [0x40E00000])] := by decide +kernel
theorem test_vmulh_signed : after (.vmulh 0 8 40 41 0) (os [(0, 4)] (vs [(40, lanes [0x80000000]), (41, lanes [2])]
    (booted []))) coming = some [(8, lanes [0xFFFFFFFF])] := by decide +kernel

/-- Worked example of R148: three values packed into E2M1, and unpacked again. -/
theorem test_vpack_e2m1 : after (.vpack 0 8 40 41) (os [(0, 10 + 32 * 16)] (vs [(40, lanes [0x40400000, 0xBF333333, 0x3E99999A])]
    (booted []))) coming = some [(8, BitVec.ofNat 1024 (0x01B7 + 0x7E * 2 ^ 1016))] := by decide +kernel
theorem test_vunpk_e2m1 : after (.vunpk 0 8 40 41) (os [(0, 10 + 32 * 16)]
    (vs [(40, BitVec.ofNat 1024 (0x01B7 + 0x7E * 2 ^ 1016))] (booted []))) coming =
    some [(8, lanes [0x40400000, 0xBF400000, 0x3E800000])] := by decide +kernel
/-- Worked example of R55: elements 70 and 71 of a superblock, in byte 35 of its codes. -/
theorem test_vunpk_q4n : after (.vunpk 0 8 40 41) (os [(0, 10 + 32 * 18)]
    (vs [(40, BitVec.ofNat 1024 (0x5E * 2 ^ 280)), (41, lanes [0x3F000000, 0x0300, 2])] (booted [])))
    (fun t => t.ctx.fix.map (fun p => elem p.val 32 6)) = some [0x3B888000] := by decide +kernel
/-- Worked example of R152: the order of a sum decides its result. -/
theorem test_vrsum_tree_rounds : after (.vrsum 0 8 40 41 0) (os [(0, 10)] (vs [(40, lanes [0x4B800000, 0x3F800000, 0x3F800000])]
    (booted []))) coming = some [(8, lanes [0x4B800000])] := by decide +kernel
theorem test_vrsum_tree_exact : after (.vrsum 0 8 40 41 0) (os [(0, 10)] (vs [(40, lanes [0x4B800000, 0, 0x3F800000, 0x3F800000])]
    (booted []))) coming = some [(8, lanes [0x4B800001])] := by decide +kernel
/-- Worked lane of R67: a stochastic rounding that goes up, and the counter that it advances. -/
theorem test_stochastic_lane :
    let s := os [(0, 10 + 32 * 9 + 0x1800)] (vs [(40, lanes [0, 0x3F800001])] (booted []))
    let s := { s with core := { s.core with srseed := 0x2E4AB5CD2E6D12FD, srctr := 0 } }
    after (.vcvt 0 8 40 0) s (fun t => (t.ctx.fix.map (fun p => elem p.val 16 1), t.core.srctr)) = some ([0x3F81], 1) := by
  decide +kernel
theorem test_vclt_writes_mask : after (.vclt 0 2 40 41 0) (os [(0, 10)] (vs [(40, lanes [0xBF800000]), (41, 0)] (booted [])))
    coming = some [(2, 1)] := by decide +kernel
theorem test_viota_counts : after (.viota 0 8 1) (vectors 0) (fun t => t.ctx.fix.map (fun p => elem p.val 32 31)) =
    some [15] := by decide +kernel
theorem test_vmov_masks : after (.vmov 0 8 40 1) (vs [(40, lanes [7, 7, 7, 7, 7])] (vectors 0 |> vs [(8, lanes [1, 2, 3, 4, 5])]))
    coming = some [(8, lanes [7, 7, 7, 7, 5])] := by decide +kernel
theorem test_vsldu_slides_up : after (.vsldu 0 8 40 41 0) (os [(0, 4)] (vs [(40, lanes [1, 2]), (41, lanes [3])] (booted [])))
    coming = some [(8, lanes [0, 0, 0, 1, 2])] := by decide +kernel
theorem test_vmovs_extends_sign : after (.vmovs 0 5 40 6) (os [(0, 4)] (vs [(40, lanes [1, 0xFFFFFFFF])] (booted [(6, 33)])))
    coming = some [(5, 0xFFFFFFFFFFFFFFFF)] := by decide +kernel
theorem test_mset_m0_discards : after (.mset 0 0 5) (booted [(5, 7)]) (fun t => t.rm 0) = some (BitVec.allOnes 32) := by
  decide +kernel
theorem test_oset_takes_word : after (.oset 0 2 7) (booted [(7, 0x123456789)]) (fun t => t.ro 2) = some 0x123456789 := by
  decide +kernel
theorem test_vector_in_helper_illegal : after (.vadd 0 8 40 41 0) (inHelper (booted []))
    (fun t => (t.ctx.slot == .ended, t.ctx.endCause)) = some (true, 1) := by decide +kernel

theorem plain_of_free {s : State} (hh : s.helper = false) (hm : s.core.mm = false)
    (hb : (List.finRange 64).all (fun n => !s.boundPort n) = true) (l : List (Fin 64)) : s.Plain l :=
  ⟨hh, fun n _ => by simpa using List.all_eq_true.mp hb n (List.mem_finRange n), fun h => by simp [hm] at h⟩

theorem plain_vectors (l : List (Fin 64)) : (vectors 0).Plain l :=
  plain_of_free (by decide +kernel) (by decide +kernel) (by decide +kernel) l

theorem canIssue_vectors (l : List (RegFile × Nat)) : (vectors 0).CanIssue l := canIssue_of_clean (by decide +kernel) l

/-- The vector statements: every type that an o0 may name, alone and with each second type, and a rounding mode but SR's
neighbour 7. -/
theorem witness_vector_types :
    (∀ ty ∈ [0, 1, 2, 3, 4, 5, 6, 7, 8, 9, 10, 11, 12, 13, 14, 15],
      let s := vectors (BitVec.ofNat 64 ty)
      clean s = true ∧ (o0ok s.o0 = true ∧ oVT s.o0 = ty ∧ s.tyAllowed ty = true) ∧ oRND s.o0 ≠ 7 ∧ s.helper = false) := by
  decide +kernel
theorem witness_vector_lists : (11 : Nat) ∈ [4, 5, 6, 7, 10, 11] ∧ (4 : Nat) ∈ [4, 5, 6, 7, 10, 11] ∧ tyWidth 4 = 32 ∧
    tyWidth 14 = 8 ∧ 32 ≤ tyWidth 11 := by decide

/-- VectorConversions: a pair of each kind, and each packed type. -/
theorem witness_conversions :
    (cvtPair 4 10 = true ∧ cvtPair 10 0 = true ∧ cvtPair 12 10 = true) ∧
      (∀ t ∈ [12, 13, 14, 15, 16, 18],
        let s := vectors (BitVec.ofNat 64 (10 + 32 * t))
        o0ok s.o0 = true ∧ oVT s.o0 = 10 ∧ oVT2 s.o0 = t ∧ s.tyAllowed t = true ∧ clean s = true ∧ oRND s.o0 ≠ 7) := by
  decide +kernel
/-- VectorReductions, VDOT4 and VSAD. -/
theorem witness_dot4 : ∀ p ∈ [(0, 0), (0, 1), (1, 0), (1, 1)],
    let s := vectors (BitVec.ofNat 64 (p.1 + 32 * p.2))
    oVT s.o0 = p.1 ∧ oVT2 s.o0 = p.2 ∧ s.tyAllowed p.2 = true := by decide +kernel

/-- Port 3 bound to the page in one direction, at a group of four. -/
def ported (dir : Bool) (idx : BitVec 32) (s : State) : State :=
  let p : Port := { bnd := true, dir := dir, cap := pageCap 0x7FF, stride := 128, cnt := 4, idx := idx }
  { s with core := { s.core with sp := s.core.sp.set 3 p } }

theorem test_port_pops_group : after (.vmov 0 8 59 0) (ported false 0 (memory []))
    (fun t => (t.ctx.fix.map (fun p => elem p.val 32 1), t.core.sp[(3 : Fin 8)].idx)) = some ([0x70605040], 1) := by
  decide +kernel
theorem test_port_end_traps : (trapOf (.vmov 0 8 59 0) (ported false 4 (memory []))).map (·.2) = some 3 := by decide +kernel

/-- StreamPorts: both directions, the first and the last group, and an exhausted port. -/
def portReady (dir : Bool) (i : BitVec 32) : Bool :=
  let s := ported dir i (memory [])
  let p := s.core.sp[(3 : Fin 8)]
  clean s && !s.helper && !s.core.mm && (List.finRange 64).all (fun n => !s.portBusy n) && p.bnd && p.dir == dir &&
    !s.boundPort 8 && Memory.wf s.mem && onePiece (groupSegs 59 p (if dir then .store else .load) s) 128 4
theorem witness_ports_out : portReady true 0 = true ∧ portReady true 3 = true := by decide +kernel
theorem witness_ports_in : portReady false 0 = true ∧ portReady false 3 = true := by decide +kernel
theorem witness_ports_end : let p := (ported false 4 (memory [])).core.sp[(3 : Fin 8)]
    p.cnt.toNat ≤ p.idx.toNat := by decide +kernel

/-- The instruction has gone on, from a state in which no loop runs. -/
def wentOn (i : Instr) (s : State) : Bool :=
  !s.ctx.loop.lact && after i s (fun t => t.core.evc[s.counter] == s.core.evc[s.counter] + 1 &&
    t.ctx.pcc == capMove s.ctx.pcc s.ctx.npc.toNat && t.ctx.loop == s.ctx.loop) == some true

theorem goesOn_of_wentOn {i : Instr} {s : State} (h : wentOn i s = true) : ∃ y, exec i s = .next y ∧ GoesOn s y := by
  unfold wentOn after at h
  cases e : exec i s <;> simp_all [nextOf]
  exact ⟨h.2.1.1, fun _ => h.2.1.2, fun _ => h.2.2⟩

theorem test_port_in_both_pops_once : after (.vadd 0 8 59 59 0) (os [(0, 4)] (ported false 0 (memory [])))
    (fun t => (t.ctx.fix.map (fun p => elem p.val 32 1), t.core.sp[(3 : Fin 8)].idx)) = some ([0xE0C0A080], 1) := by
  decide +kernel

/-- The port's register as a plain one that holds what the port would take. -/
def unported (s : State) : State :=
  let p := s.core.sp[(3 : Fin 8)]
  match groupSegs 59 p .load s with
  | .ok (g :: _) u =>
    { s with core := { s.core with
      sp := s.core.sp.set 3 { p with bnd := false }, v := s.core.v.set 59 (ofVBytes (u.getBytes g.place 128)) } }
  | _ => s

/-- StreamPorts: an instruction that takes from the port goes on with a plain register. -/
theorem witness_ports_taken : ∃ y, exec (.vadd 0 8 59 9 0) (unported (os [(0, 4)] (ported false 0 (memory [])))) = .next y ∧
    GoesOn (unported (os [(0, 4)] (ported false 0 (memory [])))) y := goesOn_of_wentOn (by decide +kernel)
theorem witness_ports_settled : let s := os [(0, 4)] (ported false 0 (memory []))
    s.boundPort 9 = false ∧ s.fixPending (rdV 59) = false ∧ s.varPending (rdV 59) = false := by decide +kernel

/-! ### Vector memory -/

/-- v40 holds bit patterns, v41 small offsets; c8 names the middle of the page, and c6 a stride of 16. -/
def vmem (o0 : Word) : State :=
  let s := memory [(6, 16)]
  let s := caps [(8, capAt (pageCap 0x7FF) 0x500800)] s
  let s := vs [(40, bitsOf 0), (41, lanes ((List.range 32).map (fun j => j * 24 % 200 / 8 * 8))), (42, bitsOf 2)] s
  let s := os [(0, o0)] s
  { s with core := { s.core with m := s.core.m.set 1 0xA5C3F00F } }

/-- A tile header in the scratchpad, at c4: a tagged base and its upper 16 bytes (R268). -/
def headed (base : Cap) (hi : Nat) (s : State) : State :=
  let p := poolPlace 0 0x6000
  { s with mem := memSets s.mem p (leBytes 16 base.bits.toNat ++ leBytes 16 hi), tags := tagSet s.tags (p / 16) }

/-- Rows 0 and 2 of a tile at c5, of E2M1 with scale bytes 0x800 behind the base, or of FP32 without. -/
def tile (mx : Bool) (s : State) : State :=
  headed (pageCap 0x7FF) (5 + (if mx then 16 else 10) * 2 ^ 32 + (if mx then 2 ^ 41 + 0x800 * 2 ^ 96 else 0)) s

/-- Worked example of R169. -/
def sortKeys : VReg := lanes [0x3F000000, 0xC0000000, 0, 0x3FC00000, 0xBFC00000, 0x3E800000]
def sorting : State := os [(0, 10), (3, 0)] (vs [(4, sortKeys), (5, lanes (List.range 32))] (booted []))

theorem test_vsort_keys : after (.vsort 0 10 4 4) sorting (fun t => (List.range 8).map (elem t.core.v[(10 : Fin 64)] 32)) =
    some [0xC0000000, 0x3FC00000, 0xBFC00000, 0x3F000000, 0x3E800000, 0, 0, 0] := by decide +kernel
theorem test_vsort_payload : after (.vsort 0 10 4 5) sorting (fun t => (List.range 8).map (elem t.core.v[(10 : Fin 64)] 32)) =
    some [1, 3, 4, 0, 5, 2, 6, 7] := by decide +kernel
theorem test_vrank : after (.vrank 0 10 4) sorting (fun t => (List.range 8).map (elem t.core.v[(10 : Fin 64)] 32)) =
    some [3, 0, 5, 1, 2, 4, 6, 7] := by decide +kernel

/-- Worked example of R272: bit 2 of byte 5 of row 7. -/
theorem test_tpred_example :
    let s := (memory []).wx 6 (8 * 2 ^ 32 + 2 * 2 ^ 48)
    let s := { s with mem := memSets s.mem 0x300000 (leBytes 256 (4 * 2 ^ (8 * (7 * 8 + 5)))) }
    after (.tpred 0 3 5 6) s (fun t => (t.rg 3, t.rg 4)) = some (false, true) := by decide +kernel
theorem test_vld_image : after (.vld 0 43 5) (vmem 4) (fun t => elem t.core.v[(43 : Fin 64)] 32 2) = some 0xB0A09080 := by
  decide +kernel
theorem test_vlds_stride : after (.vlds 0 43 5 7) (caps [] ((vmem 4).wx 7 4)) (fun t => elem t.core.v[(43 : Fin 64)] 32 3) =
    some 0xF0E0D0C0 := by decide +kernel
theorem test_vstx_scatters : after (.vstx 0 40 8 41) (vmem 4) (fun t => t.getNat (0x300800 + 24) 4) =
    some (elem (bitsOf 0) 32 26) := by decide +kernel
theorem test_vldt_invalid_row_zero : after (.vldt 0 43 4 6) ((tile true (vmem 10)).wx 6 1)
    (fun t => t.core.v[(43 : Fin 64)]) = some 0 := by decide +kernel
theorem test_vldt_row : after (.vldt 0 43 4 6) ((tile false (vmem 10)).wx 6 0)
    (fun t => elem t.core.v[(43 : Fin 64)] 32 1) = some 0x70605040 := by decide +kernel
theorem test_sbind_binds : after (.sbind 0 3 8 6) (os [(2, 128)] ((vmem 4).wx 6 4))
    (fun t => (t.core.sp[(3 : Fin 8)].bnd, t.core.sp[(3 : Fin 8)].cnt)) = some (true, 4) := by decide +kernel

/-- VectorLoadsAndStores: whole images, masked lanes, strides and lane offsets, with disjoint entries. -/
def manyOk (s : State) (p : Nat) (k : Acc) (n align : Nat) (es : List Nat) (f : Nat → Int) : Bool :=
  okThat (accessMany (s.rc 8) [p] (es.map (fun e => ⟨e, f e⟩)) n align k s) (fun gs u => quietAllB u (allSegs gs) (min n 4) &&
    (allSegs gs).all (fun g => g.leaf.any (fun l => l.ea + 8 ≤ 0x300000) && 0x300000 ≤ g.place))
theorem witness_vector_memory :
    let s := vmem 4
    let t := vmem (10 + 0x4000)
    let b : Int := capA (s.rc 8)
    (clean s && clean t && Memory.wf s.mem && o0ok s.o0 && o0ok t.o0 && oVT s.o0 == 4 && oVT t.o0 == 10 &&
      oVMSK s.o0 == 0 && oVMSK t.o0 == 1 && s.tyAllowed 4 && t.tyAllowed 10 && s.recents.isEmpty &&
      s.split.isNone && t.split.isNone && s.ctx.performed.1 == 0 && t.ctx.performed.1 == 0 && !t.varPending (rdV 43) &&
      (List.finRange 64).all (fun n => !s.boundPort n) && !s.helper && !s.core.mm &&
      manyOk s pL .load 128 4 [0] (fun _ => b) && manyOk s pS .store 128 4 [0] (fun _ => b) &&
      manyOk s pL .load 4 4 (List.range 32) (fun e => b + e * 16) && manyOk s pS .store 4 4 (List.range 32) (fun e => b + e * 16) &&
      manyOk s pL .load 4 4 (List.range 32) (fun e => b + (BitVec.ofNat 32 (elem (s.rv 41) 32 e)).toInt) &&
      manyOk s pS .store 4 4 (List.range 32) (fun e => b + (BitVec.ofNat 32 (elem (s.rv 41) 32 e)).toInt)) = true := by
  decide +kernel

/-- BlocksAndTiles: blocks of a packed type and a superblock; a valid and an invalid row of a tile, and a false guard; a
header to write; a mask to test; and row masks to edit. -/
theorem witness_blocks :
    let s := os [(2, 2)] (vmem (32 * 16))
    let q := os [(2, 8)] (vmem (32 * 18))
    (clean s && oVT2 s.o0 == 16 && decide (2 ≤ mxBmax 16) && fld (s.ro 2) 4 60 == 0 && s.tyAllowed 16 &&
      okThat (access (s.rc 5) [pL] (capA (s.rc 5)) (2 * mxSz 16) 1 .load s) (fun gs u =>
        okThat (access (s.rc 8) [pL] (capA (s.rc 8)) 2 1 .load u) (fun sc v => quietAllB v gs 4 && quietAllB v sc 1)) &&
      clean q && oVT2 q.o0 == 18 && fld (q.ro 2) 4 60 == 0 && q.tyAllowed 18 &&
      okThat (access (q.rc 5) [pL] (capA (q.rc 5)) 136 1 .load q) (fun gs u => quietAllB u gs 4)) = true := by decide +kernel
theorem witness_tiles :
    let s := tile true (vmem 10)
    (clean s && !s.helper && Memory.wf s.mem && o1ok s.o1 && s.rg s.grd && o1ok (os [(1, 0x30000000)] s).o1 &&
      !(os [(1, 0x30000000)] s).rg (os [(1, 0x30000000)] s).grd &&
      okThat (readHdr (s.rc 4) s) (fun h u => !h.bad true && h.rowv.testBit 0 && !h.rowv.testBit 1 && !h.rowv.testBit 31 &&
        okThat (tileAccess h 0 pL .load u) (fun p v => quietAllB v p.1 4 && quietAllB v p.2 1) &&
        okThat (tileAccess h 2 pS .store u) (fun p v => p.1.length == 1 && p.2.length == 1 && quietAllB v p.1 4 && quietAllB v p.2 1))) = true := by decide +kernel
theorem witness_headers :
    let s := os [(2, 0x80000005), (3, 0x0000080001000123)] (vmem 16)
    let t := (vmem 4).wx 6 (0 + 1 * 2 ^ 16 + 8 * 2 ^ 32 + 2 * 2 ^ 48)
    let v := os [(2, 2)] (vmem 4)
    (clean s && !s.thdrBad && (s.rc 4).tag && okThat (capNeed (s.rc 5) [pS, pSC] (capA (s.rc 5)) 32 32 s) (fun _ u => u == s) &&
      okThat (segsOf (s.who (s.rc 5)) .store (pieces (capA (s.rc 5)) 32) s) (fun gs u =>
        gs.all (fun g => !g.host && g.place % 32 == 0 && quietB u g.place 32 16) && okThat (watchNeed .store (capA (s.rc 5)) 32 u) (fun _ w => w == u)) &&
      clean t && fld (t.rx 6) 48 4 == 2 && fld (t.rx 6) 52 12 == 0 &&
      okThat (accessMany (t.rc 5) [pL] ((List.range 32).map (fun y => ⟨y, (capA (t.rc 5) : Int) + ((y * 8 + 4 : Nat) : Int)⟩))
        8 4 .load t) (fun gs u => quietAllB u (allSegs gs) 4) &&
      clean v && okThat (access (v.rc 5) [pL, pS, pA] (capA (v.rc 5)) 64 32 .atomic v) (fun gs u =>
        gs.length == 1 && okThat (access (v.rc 8) [pL] (capA (v.rc 8)) 8 4 .load u) (fun sc w => quietAllB w sc 4 &&
          gs.all (fun g => quietB w (g.place + 16) 4 4 && quietB w (g.place + 48) 4 4)))) = true := by decide +kernel

/-- PortsAndGathers: a range that passes in both directions, an untagged one; a gather of five elements; a finished job and
none. -/
theorem witness_gathers :
    let s := os [(2, 128)] ((vmem 10).wx 6 4)
    let w := os [(2, 42 + 5 * 128)] (tile false (vmem 10))
    (clean s && s.portQuiet 3 && fld (s.ro 3) 1 63 == 0 && capValid (s.rc 8) && capHas (s.rc 8) pS && capHas (s.rc 8) pL &&
      decide (capBase (s.rc 8) ≤ capA (s.rc 8)) && decide ((capA (s.rc 8) : Int) + 3 * 128 + 128 ≤ capTop (s.rc 8)) &&
      !(s.rc 1).tag && clean w && fld (w.ro 2) 15 49 == 0 && fld (w.ro 2) 7 8 == 5 &&
      okThat (readHdr (w.rc 4) w) (fun h _ => !h.bad false && gathEs h.fmt == 4 && capValid h.base &&
        capHasAll h.base [pL, pS, pM] && decide (capA h.base / 2 ^ 64 ≠ 0xFFFF) && capA h.base % 4 == 0 &&
        (List.range 5).all (fun e => let k := elem (w.rv 41) 8 e
          decide (capBase h.base ≤ capA h.base + k * 4) && decide ((capA h.base + k * 4 + 4 : Int) ≤ capTop h.base)))) = true := by
  decide +kernel
theorem witness_gathst :
    let cp : Copy := { kind := .gath, dst := Cap.null, src := Cap.null }
    let j : JobRec := { cls := 0, ri := 3, ser := 4, ctx := 0, status := 1, cp := some cp }
    let s := (withJob j (vmem 10)).wx 9 j.word
    (clean s && decide (s.core.jobOf (s.rx 9) = some j) && decide (s.core.jobOf (s.rx 8) = none) &&
      decide ((s.rx 3).toNat ≤ 1)) = true := by decide +kernel

/-- TrestleOrders: integer and floating keys, one register and pairs, at the first and last count. -/
theorem witness_orders :
    (∀ p ∈ [(4, 0, 1), (5, 1, 32), (10, 2, 7)],
      let s := os [(3, BitVec.ofNat 64 (p.2.1 + 32 * p.2.2 + 2 * 0x800 + 3 * 0x4000))] (vectors (BitVec.ofNat 64 p.1))
      (clean s && o0ok s.o0 && oVT s.o0 == p.1 && s.tyAllowed p.1 && fld (s.ro 3) 17 47 == 0 && fld (s.ro 3) 0 2 == p.2.1 &&
        !(s.ro 3).getLsbD 2 && fld (s.ro 3) 5 6 == p.2.2 && !s.helper) = true) ∧
      ((os [(3, 36)] (vectors 4)).ro 3).getLsbD 2 = true := by decide +kernel


/-! ### Order codes -/

/-- With declared channels (R343). -/
def withChans (l : List (Nat × Nat)) (s : State) : State :=
  { s with jobs := s.jobs.map (fun j => { j with spec := { j.spec with chans := l } }) }

/-- With slots of channel 7 at core 5 granted to the waiting emission, and its send handle in c4. -/
def granted (n : Nat) (s : State) : State :=
  let s := withChans [(7, 4)] (s.wx 4 (chanHandle 7 5 true))
  let s := s.setCtx { s.ctx with wait := .slots 9 }
  { s with core := { s.core with held := [{ tag := 9, peer := 5, id := 7, slots := List.range n }] } }

/-- Receive ends of channels 0 and 1 open at this core, with weights, codes and log at places of the scratchpad. -/
def receiving (s : State) : State :=
  let e (i : Nat) : ChanEnd := { id := i, k := 1, base := i, slots := [] }
  let s := withChans [(0, 1), (1, 1)] s
  let s := caps [(8, capAt (poolCap 0x7FF) (Config.LW + 0x106100)), (9, capAt (poolCap 0x7FF) (Config.LW + 0x106200))] s
  { s with core := { s.core with ends := [e 0, e 1] } }

/-- Operands of OCCFG: lanes 0 to 3 active, two producers, eight channels and four codes. -/
def configuring (s : State) : State := receiving (os [(2, 0xF + 2 * 2 ^ 32), (3, 8 * 2 ^ 32 + 4 * 2 ^ 48), (4, 0)] s)

/-- A configured receiver of those channels. -/
def configured (f : Receiver → Receiver) (s : State) : State :=
  let s := receiving s
  let r : Receiver := { act := 0xF, p := 2, nc := 8, nf := 4, wcap := poolCap 0x7FF, fcap := s.rc 8, lcap := s.rc 9, cfg := true }
  { s with core := { s.core with oc := f r } }

/-- With words of channel 0 arrived in one full slot (R342). -/
def arrived (ws : List Nat) (s : State) : State :=
  let s := { s with mem := memSets s.mem (s.core.slotPlace 0) (leBytes 16 (2 * ws.length * 2 ^ 16) ++ ws.flatMap (leBytes 2)) }
  { s with core := s.core.mapEnd 0 (fun e => { e with slots := [.full], fifo := [0] }) }

/-- Worked example of R173: the stream of the six keys, in one message to the granted slot. -/
theorem test_ocemit_stream : after (.ocemit 0 4 4) (granted 1 (os [(2, 0)] sorting))
    (fun t => (t.core.ops.drop 0).flatMap (fun x => x.pkt.data)) =
    some ([0x8001, 0x0003, 0x8004, 0x0000, 0x0005, 0xFFFF].flatMap (leBytes 2)) := by decide +kernel
theorem test_ocemit_asks_for_slots : after (.ocemit 0 4 4) (withChans [(7, 4)] ((os [(2, 0)] sorting).wx 4 (chanHandle 7 5 true)))
    (fun t => (t.ctx.blocked, t.net.map (fun p => (p.kind, p.deid)))) = some (true, [(6, 5)]) := by decide +kernel
theorem test_occfg_starts : after (.occfg 0 9 4 8) (configuring (memory []))
    (fun t => (t.core.oc.cfg, t.core.oc.p, t.core.oc.nc, t.core.oc.wmax)) = some (true, 2, 8, 120) := by decide +kernel
theorem test_score_clamps : (elem (addScores 1 (BitVec.ofNat 1024 0x7FFFFFF0) false [1] 100).1 32 0) = 0x7FFFFFFF := by
  decide +kernel
theorem test_score_negative_event : (elem (addScores 1 0 true [3] 5).1 32 0) = 0xFFFFFFF1 := by decide +kernel

/-- OrderCodeEmission: a granted emission of each kind, with the permutation of its events; one that asks, one that waits, one whose
request was refused, one of no word, and what the checks turn away. -/
theorem witness_emission :
    let s := granted 1 (os [(2, 0)] sorting)
    let h := s.rx 4
    let ws := [0x8001, 0x0003, 0x8004, 0x0000, 0x0005, 0xFFFF]
    let val (e : Nat) : Val := decodeTy 10 (elem (s.rv 4) 32 e)
    let es := [1, 3, 4, 0, 5]
    (clean s && !(s.ro 2).getLsbD 15 && fld (s.ro 2) 33 31 == 0 && o0ok s.o0 && oVT s.o0 == 10 && s.tyAllowed 10 &&
      fld h 42 22 == 0 && h.getLsbD 41 && h.getLsbD 40 && fld h 16 10 == 5 && s.chanK s.asid (fld h 0 16) == some 4 &&
      !s.boundPort 4 && !s.boundPort 5 && !s.helper && !s.core.mm &&
      decide (es.Perm ((List.range 32).filter (fun e => val e != .nan && !vZero (val e)))) &&
      decide (es.Pairwise (fun x y => vCmp (vAbs (val x)) (vAbs (val y)) = .gt ∨
        (vCmp (vAbs (val x)) (vAbs (val y)) = .eq ∧ x < y))) && s.ctx.wait == .slots 9 &&
      s.core.held.find? (fun x => x.tag == 9) == some ⟨9, 5, 7, [0]⟩ && (emitMsgs 7 ws).length == 1) = true := by decide +kernel
theorem witness_emission_others :
    let s := os [(2, 0)] sorting
    let asks := (withChans [(7, 4)] s).wx 4 (chanHandle 7 5 true)
    let waits := asks.setCtx { asks.ctx with wait := .slots 9 }
    let none_ := granted 0 s
    let keys := granted 1 (vs [(4, lanes [0x3F000000, 0xC0000000, 0x7FC00000]), (5, lanes [9, 8, 7])] s)
    (clean asks && asks.ctx.wait == .none && fld (asks.rx 4) 16 24 / 4096 == asks.pkgNo && clean waits &&
      waits.core.held.isEmpty && none_.core.held == [⟨9, 5, 7, []⟩] && (emitMsgs 1 []).isEmpty &&
      (emitMsgs 602 (List.replicate 601 1)).length == 6 && s.chanK s.asid 7 == none && clean keys &&
      (List.range 32).takeWhile (fun e => decodeTy 10 (elem (keys.rv 4) 32 e) != .nan) == [0, 1] &&
      elem (keys.rv 5) 32 1 == 8 && decide (0x7FFE < 0x7FFF + 1)) = true := by decide +kernel

/-- OrderCodeReceiver: a receiver to configure, with and without a table F; an unconfigured one; a configured one running, one whose
producers have ended, one that has ended, and one that receives an event or an end; and log entries for the gradients. -/
theorem witness_occfg :
    let s := configuring (memory [])
    let bare := os [(3, 8 * 2 ^ 32)] s
    (clean s && !s.helper && !s.occfgBad && !bare.occfgBad && fld (bare.ro 3) 48 11 == 0 && !s.core.oc.cfg &&
      (List.range 2).all (fun i => (s.chanK s.asid i).isSome && (s.core.endOf i).isSome) &&
      okThat (access (s.rc 4) [pL] (capA (s.rc 4)) 256 1 .load s) (fun gw u =>
        okThat (extentNeed (s.rc 8) [pL] 4 .load u) (fun gf v =>
          okThat (extentNeed (s.rc 9) [pL, pS] 64 .store v) (fun gl w =>
            (w.outOfPad gw).isNone && (w.outOfPad gf).isNone && (w.outOfPad gl).isNone && quietAllB w gw 1)))) = true := by
  decide +kernel
theorem witness_ocacc :
    let run := configured id (memory [])
    let ended := configured (fun r => { r with ended := [0, 1] }) (memory [])
    let over_ := configured (fun r => { r with st := 2 }) (memory [])
    let last := arrived [0xFFFF] (configured (fun r => { r with ended := [1] }) (memory []))
    (clean run && run.core.oc.cfg && run.core.oc.st == 0 && !((List.range 2).all (fun i => run.core.oc.ended.contains i)) &&
      !run.boundPort 40 && run.core.tape.st != .recording &&
      clean ended && (List.range 2).all (fun i => ended.core.oc.ended.contains i) && ended.core.oc.st == 0 &&
      okThat (ocLoop 40 8192 ended) (fun fin _ => fin) && clean over_ && over_.core.oc.st == 2 &&
      !(memory []).core.oc.cfg && clean last && last.peekWord 0 == some 0xFFFF && run.peekWord 0 == none) = true := by decide +kernel
theorem witness_ocacc_event :
    let one := arrived [0x8001] (configured (fun r => { r with mode := 2 }) (memory []))
    (clean one && one.peekWord 0 == some 0x8001 && one.consumed.2.isEmpty && Memory.wf one.mem &&
      okThat (padSegs (capA one.core.oc.wcap + 32) 32 .load one) (fun gw u =>
        okThat (padSegs (capA one.core.oc.lcap) 8 .store u) (fun gl v =>
          okThat (loadF 0 v) (fun _ w => okThat (loadRest 1 w) (fun _ x =>
            okThat (loadSegs gw 1 x) (fun _ y => match gl with | [g] => quietB y g.place g.len 8 | _ => false)))))) = true := by
  decide +kernel
theorem witness_receiver_tables :
    let s := configured id (memory [])
    let f := capA s.core.oc.fcap
    let quiet (r : Op (List Seg)) : Bool := okThat (r s) (fun gs u => u.bad.isEmpty && quietAllB u gs 1)
    (quiet (padSegs f 4 .load) && quiet (padSegs (f + 2) 1 .load) && quiet (padArea f 4 .load) && s.core.oc.nf == 4 &&
      s.core.oc.lastk == 0xFFFFFF) = true := by decide +kernel
theorem witness_gradients :
    let s := os [(2, 2)] (configured (fun r => { r with st := 2 }) (memory []))
    let bare := os [(2, 0)] s
    let r := s.core.oc
    let len (k : Grad) : Nat := match k with
      | .w => 1024
      | .a => 32
      | .f => 16
    let ps (k : Grad) : List Nat := if k = .a then [pS] else [pL, pS]
    (clean s && !s.helper && r.cfg && fld (s.ro 2) 24 40 == 0 && decide (fld (s.ro 2) 0 24 ≤ r.nc) && s.bad.isEmpty &&
      s.groups.isEmpty && (List.finRange 4).all (fun w => s.core.wpc[w] == 0) && !s.boundPort 41 &&
      okThat (padLoad (capA r.lcap) 16 8 s) (fun bs v => (logEntries 2 bs).all (fun e => decide (leCh e < r.nc)) &&
        [Grad.w, .a, .f].all (fun k => okThat (access (s.rc 5) (ps k) (capA (s.rc 5)) (len k) 1 .store v) (fun g u =>
          ((logEntries 2 bs).flatMap (k.reads r)).all (fun x => okThat (padArea x.1 x.2 .load u) (fun _ t => t == u)) &&
          okThat (gradEntries k g (s.rv 41) (logEntries 2 bs)
            (if k = .a then u.storeSegs 4 g (List.replicate (len k) 0) else u)) (fun _ _ => true)))) &&
      okThat (padLoad (capA r.lcap) 0 8 bare) (fun _ v => okThat (access (s.rc 5) [pS] (capA (s.rc 5)) 32 1 .store v) (fun g u =>
        match g with | [y] => quietB u y.place y.len 4 | _ => false))) = true := by
  decide +kernel
theorem witness_gradient_entry :
    let s := configured (fun r => { r with st := 2 }) (memory [])
    let y : Seg := { va := 0x500000, place := 0x300000, len := 1024 }
    (okThat (gradLoad (capA s.core.oc.wcap + 32) 32 s) (fun _ u => u.bad.isEmpty && okThat (gradF 1 u) (fun _ _ => true) &&
        okThat (loadSegs [{ y with va := y.va + 4, place := y.place + 4, len := 4 }] 4 u) (fun old _ => old.length == 4)) &&
      okThat (loadSegs [{ y with va := y.va + 132, place := y.place + 132, len := 4 }] 4 s) (fun old _ => old.length == 4) &&
      okThat (gradF 1 s) (fun _ _ => true) && okThat (gradEntry .w [y] (s.rv 41) 0x18001 s) (fun _ _ => true)) = true := by
  decide +kernel
theorem test_gradient_a_entry :
    let s := vs [(41, lanes [0x3F800000])] (configured (fun r => { r with st := 2 }) (memory []))
    let y : Seg := { va := 0x500000, place := 0x300000, len := 1024 }
    let s := { s with mem := memSets (memSets s.mem (poolPlace 0 0x6020) [5]) (poolPlace 0 0x6101) [3] }
    okThat (gradEntry .a [y] (s.rv 41) 0x18001 s) (fun _ t => t.getNat 0x300004 4 == 0xC1700000) = true := by decide +kernel

/-! ### Matrix mode -/

/-- In matrix mode, with o1 as given and rows 1, 2, … of FP32 in v40 and columns in v44. -/
def matrix (o1 : Nat) : State :=
  let s := os [(1, BitVec.ofNat 64 o1)] (vs [(40, lanes [0x3F800000, 0x40000000, 0xC0400000]), (44, lanes [0x3F800000, 0x40800000]),
    (1, lanes [0xFE0000, 7]), (32, lanes [0x30])] (memory []))
  { s with core := { s.core with mm := true } }

/-- With a dense FP32 job queued, of the given kind and number of steps, and its record. -/
def matJobOf (kind : MatKind) (kst : Nat) : MatJob :=
  { kind := kind, ri := 3, ser := 9, a := 40, b := 44, afmt := 10, bfmt := 10, accf := 0, kst := kst }
def matRec : JobRec := { cls := clsMatrix, ri := 3, ser := 9, ctx := 0, status := stPENDING }
def queued (j : MatJob) (s : State) : State := { s with core := { s.core with mq := [j], jobs := [matRec] } }

/-- A drain into this core's own scratchpad with a wake-up, ready to issue. -/
def draining : State :=
  os [(0, 10), (2, 1), (3, 64)] ((caps [(8, capAt (poolCap 0x7FF) (Config.LW + 0x106000))] (matrix (10 * 2 ^ 35))).wx 6 0)

/-- Snapshot of ch. 20: 2.0 × 4.0 adds 8.0, and MSQD (2.0 − 4.0)² = 4.0, each in A36. -/
theorem test_mop_cell : after (.matrixStep 0) (queued (matJobOf .mop 1) (matrix (10 + 10 * 32 + 4096)))
    (fun t => (cellAt t.accRegs 1 1, t.core.jobs.map (·.status))) = some (0x404000000, [stDONE]) := by decide +kernel
theorem test_msqd_cell : after (.matrixStep 0) (queued (matJobOf .msqd 2) (matrix (10 + 10 * 32 + 2 * 4096)))
    (fun t => (cellAt t.accRegs 1 1, t.core.mq.map (·.step))) = some (0x402000000, [1]) := by decide +kernel
theorem test_mmode_busy : trapOf (.mmode 0 0) (queued (matJobOf .mop 1) (matrix 0)) = some (Cause.accBusy.code, 1) := by
  decide +kernel
theorem test_mdrain_odd_handler : trapOf (.mdrain 0 7 8 6) (os [(3, 65)] draining) = some (Cause.align.code, 65) := by
  decide +kernel

/-- MatrixQueue: out of the mode; in it with a free queue; with a job, and with a drain that has been captured; a true and a
false guard. -/
theorem witness_matrix_queue :
    let s := matrix (10 + 10 * 32 + 2 * 4096)
    let f := matrix (10 + 10 * 32 + 2 * 4096 + 0x90000000)
    let out : State := { s with core := { s.core with mm := false } }
    let q := queued (matJobOf .mop 2) s
    let job (s : State) (k : MatKind) : Bool :=
      let j := s.matJob k 40 44
      !s.matBad j && (j.ranges s).all (36 ≤ ·) && j.roles.all (fun n => !s.portBusy (Fin.ofNat 64 n))
    (clean s && !s.helper && !out.core.mm && !out.accWrites && clean out && s.core.mm && s.core.mq.isEmpty && clean q &&
      !q.core.mq.isEmpty && q.core.mm && q.core.mq.all (fun j => !j.captured) && !s.writePort 40 && !s.portBusy 40 &&
      [MatKind.mop, .msqd].all (fun k => job s k && job f k) && s.rg s.matGuard && clean f && !f.rg f.matGuard) = true := by
  decide +kernel

/-- MatrixStep: the first and the last step of a job. -/
theorem witness_matrix_step : ∀ p ∈ [(MatKind.mop, 1), (.msqd, 2)],
    let j := matJobOf p.1 p.2
    let s := queued j (matrix 0)
    (s.core.cur == 0 && !s.core.stopped && s.ctx.fix.isEmpty && decide (s.core.activeJob = some j) && j.e == 1 &&
      j.paused.isNone && (j.ranges s).all (fun n => 36 ≤ n && n < 64 && !s.boundPort (Fin.ofNat 64 n)) &&
      Sys2Proof.isCore s.core.id) = true := by decide +kernel

/-- MatrixResults: a row to read, columns to rank, a drain to issue, and one to capture. -/
theorem witness_matrix_results :
    let s := os [(0, 10)] (matrix (10 * 2 ^ 35))
    let d := draining
    let q : MatJob := { matJobOf .drain 0 with ofmt := 10, target := 5, addr := BitVec.ofNat 80 (Config.LW + 0x106000) }
    (clean s && !s.helper && s.core.mm && o0ok s.o0 && o1ok s.o1 && s.tyAllowed s.vt && accrdType (oACCF s.o1) s.vt &&
      oRND s.o0 != 7 && (List.finRange 64).all (fun n => !s.boundPort n) && s.core.mq.isEmpty &&
      clean d && !d.drainBad && decide ((d.rx 6).toNat < 2 ^ 22) && drainTarget (d.rx 6) == d.myEid &&
      (capCheck (d.rc 8) [pS] (capA (d.rc 8)) (drainBytes 0 10 false) 128).isNone &&
      (drainOut (capA (d.rc 8)) (drainBytes 0 10 false)).isNone && (d.ro 3).toNat % 2 == 0 &&
      decide ((queued q s).core.activeJob = some q)) = true := by decide +kernel

/-- R68, R186: a step of INT8 into A36I: 2 × 5 + 3 × 7. -/
theorem test_mop_int8 : let j : MatJob := { matJobOf .mop 1 with afmt := 0, bfmt := 0, accf := 1 }
    after (.matrixStep 0) (queued j (vs [(40, lanes [0x0302]), (44, lanes [0x0705])] (matrix 0)))
      (fun t => (cellAt t.accRegs 0 0, t.core.aovf)) = some (31, false) := by decide +kernel
/-- R192, R197: the metadata gives row 0 the indexes 2 and 3, and every other row twice 0: the job pauses. -/
theorem test_mop_sparse_meta : let j : MatJob := { matJobOf .mop 1 with afmt := 8, bfmt := 8, nm := 1, mreg := 60 }
    after (.matrixStep 0) (queued j (vs [(40, lanes [0x3F80]), (44, lanes [0, 0x4000]), (60, BitVec.ofNat 1024 0xE)]
        { matrix 0 with core := { (matrix 0).core with v := (matrix 0).core.v.map (fun _ => 0) } }))
      (fun t => t.core.mq.map (·.paused.isSome)) = some [true] := by decide +kernel

/-- MatrixStep: jobs of every kind of step (integers, pairs, a sparse operand, scales of MX and Q4N), a bound operand with a group to
pop and one at its end, and metadata with equal indexes. -/
theorem witness_matrix_kinds :
    let s := matrix 0
    let kind (a b acc nm : Nat) : MatJob := { matJobOf .mop 2 with afmt := a, bfmt := b, accf := acc, nm := nm, mreg := 60, asr := 56, bsr := 58 }
    let reads (j : MatJob) : Bool := okThat (matGroup j j.a j.ga s) (fun _ u => okThat (matGroup j j.b j.gb u) (fun _ u =>
      okThat (matScales j j.afmt j.asr j.amx (j.sa, j.sa2) u) (fun _ u => okThat (matScales j j.bfmt j.bsr j.bmx (j.sb, j.sb2) u)
        (fun _ u => okThat (matRead j 60 u) (fun _ _ => true)))))
    (reads (kind 0 0 1 0) && (kind 0 0 1 0).e == 8 && reads (kind 11 11 2 0) && (kind 11 11 2 0).e == 1 &&
      reads { kind 8 8 0 1 with lenient := true } && (kind 8 8 0 1).e == 4 && reads { kind 8 8 0 2 with lenient := true } &&
      reads { kind 16 16 0 0 with amx := true, bmx := true } && (kind 16 16 0 0).e == 16 && reads (kind 18 18 0 0) &&
      (kind 18 18 0 0).e == 16 && (kind 8 8 0 1).nibble 0 0 % 4 == (kind 8 8 0 1).nibble 0 0 / 4) = true := by decide +kernel
theorem witness_matrix_ports :
    let s (i : BitVec 32) := queued { matJobOf .mop 2 with a := 59 } (ported false i (matrix 0))
    let j : MatJob := { matJobOf .mop 2 with a := 59 }
    let next : Bool := match (s 1).port 59 with
      | some p => p.idx.toNat < p.cnt.toNat &&
        okThat (segsOf { asid := (s 1).asid, root := (s 1).myJob.map (·.spec.root), y := j.pcc.tag && capHas j.pcc pY, h := capHas p.cap pH }
          .load (pieces p.addr 128) (s 1)) (fun gs u => gs.all (fun q => !u.badIn q.place q.len && quietB u q.place q.len 4 &&
            u.recents.all (fun z => !overlaps z.lo z.n q.place q.len || z.esz == 4)))
      | none => false
    (next && okThat (matGroup j 59 1 (s 1)) (fun _ t => t.boundPort 59) && decide ((s 4).core.activeJob = some j) &&
      ((s 4).port 59).any (fun p => p.cnt.toNat ≤ p.idx.toNat) && !(s 1).boundPort 44 && clean (s 1)) = true := by decide +kernel
/-- MatrixQueue and MatrixResults: MWAIT 1 with nothing queued; a drain whose wake-up the job's count can take. -/
theorem witness_drain_counts : (okThat (countTask draining) (fun _ u => u.levels.length == draining.levels.length) &&
    eidPkg draining.myEid == draining.pkgNo && (draining.ro 2).getLsbD 0 && (matrix 0).core.mq.isEmpty && (matrix 0).core.mm) = true := by
  decide +kernel

/-! ### Copies -/

/-- Operands of a copy from the page (c5, with c11 past its middle) to the scratchpad (c4): flags in o3 or o5. -/
def copying (o2 o3 o4 o5 : Nat) : State :=
  let s := caps [(11, capAt (pageCap 0x7FF) 0x500800), (12, pageCap 0)] (memory [])
  os [(0, 10), (2, BitVec.ofNat 64 o2), (3, BitVec.ofNat 64 o3), (4, BitVec.ofNat 64 o4), (5, BitVec.ofNat 64 o5)] s

/-- A job of the copy unit under way, and its record. -/
def copyRec (c : Copy) : JobRec := { cls := 0, ri := 3, ser := 9, ctx := 0, status := stPENDING, cp := some c }
def copyJob (c : Copy) : State := withJob (copyRec c) (memory [])
def plainCopy : Copy := { kind := .cpy2d, dst := poolCap 0x7FF, src := pageCap 0x7FF, len := 160, rows := 2, sp := 256, dp := 512, y := true }
def gather : Copy := { kind := .gath, dst := pageCap 0x7FF, src := Cap.null, cnt := 3, es := 4, idxs := [2, 0, 1], vreg := 40, y := true }

/-- One piece of an engine's access, still after its translation, and an access that traps. -/
def engineOk (s : State) (c : Copy) (x : Cap) (k : Acc) (a n esz : Nat) : Bool :=
  match s.engineSegs c x k a n with
  | (t, .ok [g]) => stillB t g.place n esz
  | _ => false
def engineTraps (s : State) (c : Copy) (x : Cap) (k : Acc) (a n : Nat) : Bool :=
  match s.engineSegs c x k a n with
  | (_, .error (some _)) => true
  | _ => false

/-- R355: a copy of 100 bytes is PENDING; one of no bytes completes at once; overlap is ILLEGAL. -/
theorem test_cpy_opens : after (.cpy 0 20 4 5) (copying 100 0 0 0) (fun t => t.core.jobs.map (fun j => (j.cls, j.status))) =
    some [(0, stPENDING)] := by decide +kernel
theorem test_cpy_overlap : (trapOf (.cpy 0 20 5 5) (copying 100 0 0 0)).map (·.1) = some Cause.illegal.code := by decide +kernel
theorem test_cpy_of_nothing : after (.cpy 0 20 5 5) (copying 0 0 0 0) (fun t => t.core.jobs.map (·.status)) = some [stDONE] := by
  decide +kernel
theorem test_burst_moves : after (.copyBurst 0 3) (copyJob plainCopy)
    (fun t => (t.getNat (poolPlace 0 0x6000) 4, t.core.copies.map (fun p => p.2.pos))) = some (0x30201000, [128]) := by
  decide +kernel

/-- CopyIssue: operands without a fault, of each instruction; with a reserved flag; overlapping; without authority; and a core
with 256 copies in flight. -/
theorem witness_copy_issue :
    let s := copying 64 0 0 0
    let full : State := { s with core := { s.core with jobs := List.replicate 256 (copyRec plainCopy) } }
    let ok (c : Cap) (p : Nat) : Bool := capValid c && capHasAll c [p] && decide ((capBase c : Int) ≤ capA c) &&
      decide ((capA c + 160 : Int) ≤ capTop c)
    ([s, copying (24 * 1024) 4 0 0, copying 64 5 0 7, copying 64 (2 ^ 24 + 5) 0 0].all clean && !s.ctx.ahead &&
      ok (s.rc 5) pL && ok (s.rc 4) pS && ok (s.rc 11) pL && !capHas (s.rc 12) pL && s.core.jobs.isEmpty && clean full &&
      full.core.jobs.countP (fun j => j.cls == 0 && j.status == 0) == 256 && s.core.b0 == 24 && s.core.b1 == 152) = true := by
  decide +kernel

/-- CopyBursts: the first and the last burst of a copy; one whose destination is not mapped; an element of a gather; and a
gather whose elements are in, before its register. -/
theorem witness_copy_bursts :
    let s := copyJob plainCopy
    let last : Copy := { plainCopy with begun := true, pos := 288 }
    let bad : Copy := { plainCopy with dst := capOf 0x600000 0x1000 0x7FF }
    let g := copyJob gather
    let fin : Copy := { gather with pos := 3 }
    let f := copyJob fin
    let w : Ctx := { f.ctx with pend := [{ file := .v, idx := 40, op := jobKey 0 3, val := none }] }
    let head (s : State) (c : Copy) : Bool := decide (s.core.copies.head? = some (copyRec c, c)) && !s.core.stopped &&
      Sys2Proof.isCore s.core.id && decide (c.begun = true ∨ s.copiesRunning < 16)
    (head s plainCopy && head (copyJob last) last && head (copyJob bad) bad && head g gather && head f fin &&
      (f.setCtx w).core.ctxs[(0 : Fin 11)].pend.any (fun p => p.op == jobKey 0 3) && Memory.wf s.mem &&
      engineOk s plainCopy plainCopy.src .load 0x500000 128 4 &&
      engineOk s plainCopy plainCopy.dst .store (Config.LW + 0x106000) 128 4 &&
      engineOk (copyJob last) last last.src .load 0x500180 32 4 &&
      engineOk (copyJob last) last last.dst .store (Config.LW + 0x106280) 32 4 &&
      engineOk (copyJob bad) bad bad.src .load 0x500000 128 4 && engineTraps (copyJob bad) bad bad.dst .store 0x600000 128 &&
      engineOk g gather gather.dst .load 0x500008 4 4) = true := by decide +kernel

/-- CPYX within the own pool, apart and clashing; and a job whose turn has come, beside one that has waited less. -/
theorem witness_copy_turns :
    let s := caps [(11, capAt (poolCap 0x7FF) (Config.LW + 0x106400))] (copying 64 (2 ^ 24) 0 0)
    let last : Copy := { plainCopy with begun := true, pos := 128, last := 3 }
    let t : State := { copyJob last with others := [{ (copyJob last).coreOf 1 with
      jobs := [{ copyRec { last with last := 5 } with ri := 4 }] }] }
    (clean s && s.myEid == fld (s.ro 3) 0 24 && (s.ro 3).getLsbD 24 && capA (s.rc 4) == capA (s.rc 2) &&
      decide (capA (s.rc 4) + 64 ≤ capA (s.rc 11)) && last.moves && t.rotation.all (fun x => decide (last.last ≤ x.last)) &&
      t.rotation.length == 2 && decide (t.core.copies.head? = some (copyRec last, last))) = true := by decide +kernel

/-! ### The tape -/

/-- With the tape channel as given, over the page of c5; c7 is nonzero and c8 zero. -/
def taping (f : Tape → Tape) : State :=
  let s := memory [(7, 0x71), (8, 0)]
  { s with core := { s.core with tape := f { st := .recording, region := pageCap 0x7FF, cap := 4096, asid := s.asid } } }

/-- Nearly full, and with a spill region and a long backlog. -/
def spilled (s : State) : State :=
  { s with core := { s.core with tape := { s.core.tape with spill := some (pageCap 0x7FF), staged := List.range 17, cap := 2 ^ 20 } } }

/-- Playing the stream, before its item as given. -/
def playing (c : CurRec) (r : Nat) : State :=
  let s := taping (fun t => { t with st := .play, len := 64, cursor := 32, r := r, w := 1, play := c })
  { s with core := { s.core with oc := { s.core.oc with cfg := true, nc := 8, lcap := capOf 0x500800 0x400 0x7FF } } }

def nextIs (s : State) (f : Item → State → Bool) : Bool := okThat (nextItem s.core.tape 4 s) (fun x t => f x.1 t)

/-- R365: the frame of one value stands at the stream's start once a branch bit closes its record. -/
theorem test_tape_frame : after (.trecb 0 7) (taping (fun t => { t with cur := .vals 0 [9] }))
    (fun t => ((List.range 3).map (fun k => t.getNat (0x300000 + 8 * k) 8), t.core.tape.p, t.core.tape.bn)) =
    some ([0x10001, 9, 0x10001], 24, 1) := by decide +kernel
theorem test_trec_zero_run : after (.trec 0 8) (taping (fun t => { t with cur := .zrun 0 6 })) (fun t => t.core.tape.cur) =
    some (.zrun 0 7) := by decide +kernel
theorem test_trec_full : trapOf (.trec 0 7) (taping (fun t => { t with p := 4056 })) = some (Cause.tapeFull.code, 4056) := by
  decide +kernel
theorem test_tpop_reverse : after (.tpop 0 9 0) (playing (.vals 0 0 [5, 6]) 0) (fun t => (t.rx 9, t.core.tape.play)) =
    some (6, .vals 0 0 [5]) := by decide +kernel
theorem test_tpopb_bit : after (.tpopb 0 9) (playing (.vals 0 0 [5, 6]) 1) (fun t => (t.rx 9, t.core.tape.r)) = some (1, 0) := by
  decide +kernel

/-- TapeRecording: no tape, playback, a broken tape, check mode, and the forms of an open record, at their limits; a full tape
and a long backlog; and a write of a region. -/
theorem witness_tape_recording :
    let st (x : TapeSt) := taping (fun t => { t with st := x, chkw := 1, chkn := 2 })
    let cur (c : OpenRec) (n : Nat) := taping (fun t => { t with cur := c, bn := n })
    ([TapeSt.idle, .ended, .play, .broken, .check].all (fun x => clean (st x) && !(st x).ctx.ahead) &&
      [OpenRec.none, .vals 0 [4], .vals 5 (List.replicate 254 4), .zrun 3 9].all (fun c => clean (cur c 63)) &&
      clean (spilled (cur .none 0)) && (List.finRange 64).all (fun n => !(cur .none 0).boundPort n) && (st .idle).rx 7 != 0 &&
      (st .idle).rx 8 == 0 && Memory.wf (st .idle).mem && (st .idle).recents.isEmpty &&
      onePiece (segsOf ((st .idle).tapeWho (pageCap 0x7FF)) .store (pieces 0x500100 24) (st .idle)) 24 8) = true := by
  decide +kernel

/-- TapeControlAndPlayback: regions and offsets that a tape may begin or play with; each state that TEND ends; items of every
kind next in playback; and a chunk to spill or to fetch. -/
theorem witness_tape_control :
    let z := taping (fun _ => {})
    let need (ps : List Nat) (k : Acc) : Bool := okThat (regionNeed (z.rc 5) none ps k z) (fun _ _ => true)
    (clean z && regionsOk (z.rc 5) none && need [pL, pS, pT] .store && need [pL, pS, pT] .load && need [pL, pT] .load &&
      clean (os [(2, 1), (3, 64)] z) && clean (os [(2, 64)] z) && regionCap (z.rc 5) none == 4096 &&
      [(CurRec.vals 3 40 [5, 6], 1), (.zrun 3 40 2, 0), (.vals 0 40 [5], 2), (.vec 3 40 false (bitsOf 3) 0, 0),
        (.oca 3 40 false 2 0 [1, 2], 0)].all (fun p => nextIs (playing p.1 p.2) (fun _ t => t == playing p.1 p.2)) &&
      nextIs (playing (.oca 3 40 false 2 0 [1, 2]) 0)
        (fun _ t => okThat (popOca 9 false 2 0 [1, 2] t) (fun _ _ => true))) = true := by decide +kernel
theorem witness_tape_chunks :
    let s := taping (fun t => { t with staged := [0, 1], spill := some (pageCap 0x7FF) })
    let t := taping (fun t => { t with st := .play, len := 64, cursor := 16, fetched := 1, spill := some (pageCap 0x7FF) })
    (s.core.tape.st == .recording && Sys2Proof.isCore s.core.id && !s.core.stopped &&
      (t.tapeRead (pageCap 0x7FF) 0x500000 64).2.isSome) = true := by decide +kernel

/-- With a group whose publication holds lines (R310). -/
def withHeldLines (s : State) : State :=
  { s with groups := [{ stack := 0, src := 5, grp := 7, st := .prepared, holding := true }] }

/-- Both: while a publication holds lines; a run-ahead helper, with and without a reserved bit of o2; an OCACC that has consumed
two values; and a recording that TEND ends. -/
theorem witness_tape_held :
    let a (n : Nat) := let s := inHelper (os [(2, BitVec.ofNat 64 n)] (taping id))
      s.setCtx { s.ctx with ahead := true }
    let o := let s := inHelper (taping id)
      { s with core := { s.core with ctxs := s.core.ctxs.set 0 { s.core.ctxs[(0 : Fin 11)] with wait := .ocacc 3 [4, 5] } } }
    (clean (withHeldLines (taping id)) && (withHeldLines (taping id)).tapeHeld && !(taping id).tapeHeld && clean (a 0) && (a 0).ctx.ahead &&
      !(a 0).ctx.stopReq && (a 4).helper && !(a 4).ctx.stopReq && clean o &&
      decide ((o.core.ctxs[(0 : Fin 11)]).wait = .ocacc 3 [4, 5]) &&
      (((taping id).edge (tapeThread 0) (taping id).thread).endRecording.core.tape.st != .broken)) = true := by decide +kernel
theorem test_tbegin_ahead_reserved : let s := inHelper (os [(2, 4)] (taping id))
    after (.tbegin 0 5 0) (s.setCtx { s.ctx with ahead := true }) (fun t => (t.ctx.slot == .live, t.ctx.endCause)) =
    some (false, 1) := by decide +kernel

/-! ### Tasks, messages and bindings -/

/-- c6 holds a handler's address, c7 and c8 as given; the job's gang is cores 0 to 3, and its launch 5 counts two tasks. -/
def tasking (b x : Nat) : State :=
  let s := memory [(6, 0x400100), (7, BitVec.ofNat 64 b), (8, BitVec.ofNat 64 x)]
  let s := os [(2, 8), (3, 0x400200), (4, 44), (5, 55)] s
  let sp : LaunchSpec := { lid := 5, entry := 0x400000, ncl := 1, prio := 2, clusters := [clusterOf s.core.id] }
  let lv : Level := { asid := 1, lid := 5, cnt := 2, spec := some sp }
  let jobs := s.jobs.map (fun j => { j with spec := { j.spec with gang := [0, 1, 2, 3] } })
  { s with
    jobs := jobs
    levels := [lv]
    core := { s.core with run := some { task := { hnd := 0x400000, asid := 1, launch := 5, prio := 2, tid := 77 } } } }

/-- With cores 1 to 3 idle in the same job. -/
def idlers (s : State) : State :=
  { s with others := [1, 2, 3].map (fun e => { s.coreOf e with job := some 1, run := none }) }

/-- With an entry bound to the address in c7. -/
def bound (bnd : Bool) (pend : Nat) (s : State) : State :=
  let b : Binding := { addr := s.rx 7, hnd := 0x400300, launch := 5, seq := 9, pend := pend, bnd := bnd }
  { s with core := { s.core with binds := [b] } }

/-- A join cell with n sub-ranges left, its identifier in c10. -/
def cell11 (n : Nat) : Join :=
  { cl := 0, idx := 4, pcc := bootPcc, cont := 0x400200, u4 := 4, u5 := 5, count := 17, rem := n, gen := 3, vld := true,
    launch := 5, asid := 1 }
def joining (n : Nat) : State := ((tasking 0 0).setJoin (cell11 n)).wx 10 (cell11 n).ident

/-- Starting helpers: an entry point in c6, and slot 3 as given. -/
def helping (k : Slot) (n : Nat) : State :=
  let s := caps [(8, bootPcc)] ((tasking n 0).wx 6 3)
  { s with core := { s.core with ctxs := s.core.ctxs.set 3 { s.core.ctxs[(3 : Fin 11)] with slot := k } } }

/-- As a run-ahead helper runs (R351). -/
def running_ahead (s : State) : State := let s := inHelper s
  s.setCtx { s.ctx with ahead := true }

/-- Worked example of R336: 103 items in grains of 16 over 5 idle cores. -/
theorem test_rfork_ranges : (subRanges 103 5 0x400100 0 0 { hnd := 0 }).map (fun t => (t.a0.toNat, t.a1.toNat)) =
    [(0, 21), (21, 42), (42, 63), (63, 83), (83, 103)] := by decide +kernel
theorem test_rfork_recruits : after (.rfork 0 9 10 6) ((idlers (tasking 0 0)).wx 10 17)
    (fun t => t.others.map (fun c => c.run.map (fun r => (r.task.a0.toNat, r.task.a1.toNat)))) =
    some [some (0, 6), some (6, 12), some (12, 17)] := by decide +kernel
theorem test_join_continues : after (.join 0 10) (joining 1) (fun t => t.core.run.map (fun r => (r.task.hnd, r.task.a2))) =
    some (some (0x400200, 17)) := by decide +kernel
theorem test_tenq_priority : after (.tenq 0 9 6 7) (tasking (0x20 + 3 * 64) 0) (fun t => (t.hutch 0).t3.map (·.hnd)) =
    some [0x400100] := by decide +kernel
theorem test_send_packet : after (.send 0 9 6 7) (tasking 0x1005 0)
    (fun t => t.core.ops.map (fun x => (x.pkt.deid, x.pkt.handler, x.pkt.arg3, x.pkt.launch))) =
    some [(0x1005, 0x400100, 55, 0)] := by decide +kernel
theorem test_tbind_replaces : after (.tbind 0 9 7 6) (bound true 0 (tasking 9 0)) (fun t => t.rx 9) = some 2 := by decide +kernel
theorem test_tunbind_counts : after (.tunbind 0 9 7) (bound false 3 (tasking 9 0)) (fun t => (t.rx 9, t.core.binds.length)) =
    some (3, 0) := by decide +kernel
theorem test_hstart_lowest : after (.hstart 0 9 8 7) (helping .free 0) (fun t => (t.rx 9, t.core.ctxs[(1 : Fin 11)].slot)) =
    some (1, .live) := by decide +kernel
theorem test_hstat_frees : after (.hstat 0 9 6 7) (helping .ended 0) (fun t => (t.rx 9, t.core.ctxs[(3 : Fin 11)].slot)) =
    some (2, .free) := by decide +kernel

/-- SpawningAndBindings: a task with room and without; a message to this package and to another; a message queue that is full;
a trigger; and no entry, a bound one, one that holds triggers, and a full table. -/
theorem witness_spawning :
    let s := tasking (0x20 + 3 * 64) 0
    let m := tasking (2 ^ 24 + 4096 + 5) 0
    let full : State := { m with core := { m.core with jobs := (List.range 64).map (fun i => { cls := 4, ri := i, ser := i }) } }
    let crowd : State := { s with hutches := [{ cl := 0, t1 := List.replicate 1024 { hnd := 0 } }] }
    let table : State := { s with core := { s.core with
      binds := (List.range 64).map (fun i => { addr := BitVec.ofNat 64 (2 ^ 32 + i) }) } }
    (clean s && !s.ctx.ahead && s.gangCluster (clusterOf s.core.id) && s.hutchRoom 0 s.asid && !crowd.hutchRoom 0 crowd.asid &&
      clean crowd && (s.countUp s.asid s.myLevel).isSome && clean m && decide (m.core.inFlight 4 < 64) &&
      full.core.inFlight 4 == 64 && clean full && (tasking 5 0).rx 7 == 5 && (s.core.bindOf (s.rx 7)).isNone &&
      ((bound true 0 s).core.bindOf (s.rx 7)).any (·.bnd) && ((bound false 3 s).core.bindOf (s.rx 7)).any (fun b => !b.bnd) &&
      table.core.binds.length == 64 && (table.core.bindOf (table.rx 7)).isNone && clean (bound false 3 s) && clean table &&
      !((s.countUp s.asid s.myLevel).any (fun u => u.levelCancelled s.asid s.myLevel))) = true := by decide +kernel

/-- ForkAndJoin: an empty range; idle cores and none; a cell with two parts left and with one; and a number that names none. -/
theorem witness_fork :
    let s := (tasking 0 0).wx 10 17
    let j := joining 2
    (clean s && !s.ctx.ahead && s.ro 2 == 8 && (s.freeCell 0).isSome && s.idleCores.isEmpty && s.hutchRoom 0 s.asid &&
      (idlers s).idleCores == [1, 2, 3] && okThat (countTasks 3 (idlers s)) (fun _ _ => true) &&
      okThat (countTasks 1 s) (fun _ _ => true) && clean (idlers s) && clean j && !j.helper && (s.cellOf (s.rx 10)).isNone &&
      decide (j.cellOf (j.rx 10) = some (cell11 2)) && decide ((joining 1).cellOf ((joining 1).rx 10) = some (cell11 1)) &&
      j.core.settled && !j.core.helpersLive && !j.ctx.loop.lact && j.core.run.isSome &&
      !j.levelCancelled j.asid j.myLevel) = true := by decide +kernel

/-- TaskEndsAndHelpersAhead: a task that has settled, and one that still has a helper; slots in each state; a helper; a queued
task to cancel; and a run-ahead helper. -/
theorem witness_ends :
    let s := helping .free 0
    let l := helping .live 2
    let h := inHelper s
    let q : State := { s with hutches := [{ cl := 0, t1 := [{ hnd := 0x400000, asid := 1, tid := 88 }] }] }
    let r := os [(2, 1), (3, 64), (5, 0)] (running_ahead s)
    (clean s && !s.helper && s.core.settled && !s.core.helpersLive && s.core.run.isSome && clean l && l.core.helpersLive &&
      clean (helping .ended 0) && clean h && h.helper && !h.ctx.stopReq && (capCheck (s.rc 8) [pX] (capA (s.rc 8)) 2 2).isNone &&
      s.core.b0 == 24 && clean q && clean r && r.ctx.ahead && clean (os [(3, 0)] r) && fld (r.ro 2) 1 63 == 0) = true := by
  decide +kernel

/-- ForkAndJoin: a cell of another launch than the task's, with room in its level and without. -/
theorem witness_join_elsewhere :
    let s (n : Nat) : State :=
      let t := joining 1
      { t with
        levels := { asid := 1, lid := 6, cnt := 2 } :: t.levels.map (fun l => { l with cnt := n })
        core := { t.core with run := t.core.run.map (fun r => { r with task := { r.task with launch := 6 } }) } }
    (clean (s 2) && decide ((s 2).cellOf ((s 2).rx 10) = some (cell11 1)) && (s 2).countRoom (s 2).asid 5 1 &&
      !(s (2 ^ 32 - 1)).countRoom (s 2).asid 5 1 && (s 2).core.run.all (fun r => r.task.launch == 6 && r.task.asid == (s 2).asid) &&
      (s 2).core.settled && !(s 2).core.helpersLive && !(s 2).ctx.loop.lact && !(s 2).levelCancelled (s 2).asid (s 2).myLevel &&
      decide (((s 2).levelOf 1 6).map (·.cnt) = some 2) && clean (os [(2, 0)] (running_ahead (helping .free 0)))) = true := by
  decide +kernel
theorem test_join_moves_count :
    let t := joining 1
    let s : State := { t with
      levels := { asid := 1, lid := 6, cnt := 2 } :: t.levels
      core := { t.core with run := t.core.run.map (fun r => { r with task := { r.task with launch := 6 } }) } }
    after (.join 0 10) s (fun u => ((u.levelOf 1 5).map (·.cnt), (u.levelOf 1 6).map (·.cnt))) = some (some 3, some 1) := by
  decide +kernel

/-! ### Channels -/

/-- Channel 7 of four slots declared; a send handle in c9, a receive handle in c10, a length in c7, and what the context waits
for. Core 0 receives on it, with messages of the given slots. -/
def channel (len : Nat) (fifo : List Nat) (w : Wait) : State :=
  let s := withChans [(7, 4), (8, 4)] (memory [(6, 7), (7, BitVec.ofNat 64 len), (9, chanHandle 7 5 true)])
  let s := s.wx 10 (chanHandle 7 s.myEid false)
  let e : ChanEnd := { id := 7, k := 4, base := 0, slots := (List.range 4).map (fun i => if i ∈ fifo then .full else .free), fifo := fifo }
  let h : List Byte := leBytes 16 (7 + 20 * 2 ^ 16 + 5 * 2 ^ 24)
  let s := s.setCtx { s.ctx with wait := w }
  { s with
    mem := memSets s.mem (poolPlace 0 (1024 * s.core.b2 + 256)) (h ++ leBytes 20 0x1122334455)
    core := { s.core with ends := [e] } }

/-- With slots of the channel granted to the waiting send. -/
def grantedTo (slots : List Nat) (s : State) : State :=
  { s with core := { s.core with held := [⟨9, 5, 7, slots⟩] } }

theorem test_chopen_handle : after (.chopen 0 9 6 7) ((channel 0 [] .none).wx 7 (2 ^ 24 + 5)) (fun t => t.rx 9) =
    some (7 + 5 * 2 ^ 16 + 2 ^ 40 + 2 ^ 41) := by decide +kernel
theorem test_chsend_slot : after (.chsend 0 9 4 7) (grantedTo [2] (channel 20 [] (.slots 9)))
    (fun t => t.core.ops.map (fun x => (x.pkt.deid, x.pkt.arg0, x.pkt.data.length))) = some [(5, 2 ^ 63 + 2, 20)] := by
  decide +kernel
theorem test_chrecv_length : after (.chrecv 0 9 10 4) (channel 20 [1] .none) (fun t => (t.rx 9, t.getNat (poolPlace 0 0x6000) 5)) =
    some (20 + 5 * 256 + 2 ^ 32, 0x1122334455) := by decide +kernel
theorem test_chrecv_bad_handle : trapOf (.chrecv 0 9 0 4) (channel 20 [] .none) = some (Cause.channel.code, 0) := by
  decide +kernel

/-- ChannelInstructions: a channel to open; one not declared; a send that asks, that waits, and that has its slot or none; an
empty and a full channel; and handles that are not as they must be. -/
theorem witness_channels :
    let s := channel 20 [] .none
    let w := channel 20 [] (.slots 9)
    let r := channel 20 [1, 3] .none
    (clean s && !s.ctx.ahead && (s.chanK s.asid 8).isSome && ((s.chanK s.asid 8).bind (s.core.freeSlots)).isSome &&
      (s.core.endOf 8).isNone && (s.chanK s.asid 9).isNone && (s.core.endOf 7).isSome &&
      okThat (access (s.rc 4) [pL] (capA (s.rc 4)) 20 1 .load s) (fun gs u => gs.length == 1 && u.recents.isEmpty) &&
      clean w && w.core.held.isEmpty && clean (grantedTo [2] w) && clean (grantedTo [] w) && fld (s.rx 9) 16 24 == 5 &&
      (s.recvEnd (s.rx 10)).any (fun e => e.fifo.isEmpty && !s.core.ocOwns e.id) &&
      (r.recvEnd (r.rx 10)).any (fun e => e.fifo == [1, 3] && !r.core.ocOwns e.id) && (s.recvEnd (s.rx 4)).isNone &&
      Memory.wf r.mem && (s.ro 2).getLsbD 0 == false && ((os [(2, 1)] s).ro 2).getLsbD 0 && sendHandle (s.rx 9) &&
      !sendHandle (s.rx 10) && (configured id (memory [])).core.ocOwns 0 &&
      okThat (access (r.rc 4) [pS] (capA (r.rc 4)) 240 1 .store r) (fun _ u =>
        okThat (segsOf (r.who (r.rc 4)) .store (pieces (capA (r.rc 4)) 20) u) (fun gs v =>
          gs.length == 1 && v.recents.isEmpty))) = true := by decide +kernel

/-- ChannelInstructions: a message's bytes that no watchpoint names, in a capability of 240 bytes. -/
theorem witness_chrecv_bytes :
    let r := channel 20 [1, 3] .none
    (capCheck (r.rc 4) [pS] (capA (r.rc 4)) 240 1).isNone && (watchHit r .store (capA (r.rc 4)) 20).isNone &&
      okThat (segsOf (r.who (r.rc 4)) .store (pieces (capA (r.rc 4)) 240) r) (fun gs _ => gs.length != 0) = true := by decide +kernel

/-! ### Barriers, and what arrives at a core -/

/-- Barrier 3 of core 0 as given; its name in c6 (at another home with `far`), a number in c7, a resume word in c10. -/
def barrier (far : Bool) (n : Nat) (b : Bar) (w : Wait) : State :=
  let s := memory [(6, 3 + (if far then 5 * 256 else 2 ^ 32)), (7, BitVec.ofNat 64 n), (10, BitVec.ofNat 64 (2 ^ 63 + n))]
  let s := s.setCtx { s.ctx with wait := w }
  { s with mem := memSets s.mem (barPlace 0 3) (leBytes 16 b.num) }

def bar3 (exp cnt drop ph : Nat) : Bar := { exp := exp, cnt := cnt, drop := drop, vld := true, ph := ph }

/-- With every die and unit answering (R411). -/
def online (s : State) : State := { s with dies := Vector.replicate 4 .online, stackOn := Vector.replicate 8 true }

/-- A packet from core 5 on its way to core 0. -/
def arriving (p : Packet) : Packet := { p with kind := 1, deid := 0, seid := 5, asid := 1, otag := 4 }
def sent (p : Packet) (s : State) : State := { online s with net := [p] }

/-- A packet that its destination accepts and performs (Takes). -/
def accepted (s : State) (p : Packet) : Bool :=
  s.pkg.isSome && p.rest.isEmpty && eidPkg p.deid == s.pkgNo && !s.refused p && s.niWait.isEmpty && (s.pairRx p.seid p.deid).want == p.pseq

theorem takes_of_accepted {s : State} {p : Packet} (h : accepted s p = true) : s.Takes p := by
  simp only [accepted, Bool.and_eq_true, beq_iff_eq, List.isEmpty_iff, Bool.not_eq_true'] at h
  obtain ⟨⟨⟨⟨⟨h5, h6⟩, h1⟩, h2⟩, h3⟩, h4⟩ := h
  refine ⟨h5, h6, h1, h2, by simp [h3], fun _ => ?_, by simp [h3]⟩
  rw [h4]
  omega

/-- Table of R360: the last of three arrivals starts the next phase, its expected count less the drops. -/
theorem test_bara_last : after (.bara 0 9 6 7) (barrier false 4 (bar3 3 2 1 4) .none) (fun t => (t.rx 9, t.bar 0 3)) =
    some (5, bar3 2 0 0 5) := by decide +kernel
theorem test_barad_drops : after (.barad 0 9 6 7) (barrier false 4 (bar3 3 0 0 4) .none) (fun t => t.bar 0 3) =
    some (bar3 3 1 1 4) := by decide +kernel
theorem test_bara_late : (trapOf (.bara 0 9 6 7) (barrier false 5 (bar3 3 0 0 4) .none)).map (·.1) =
    some Cause.barrierOver.code := by decide +kernel
theorem test_barw_waits : after (.barw 0 9 6 7) (barrier false 4 (bar3 3 0 0 4) .none) (fun t => t.ctx.blocked) = some true := by
  decide +kernel
theorem test_baraw_resume : after (.baraw 0 9 6 7) (barrier false 4 (bar3 3 0 0 4) .none)
    (fun t => (t.rx 9, t.ctx.blocked, (t.bar 0 3).cnt)) = some (2 ^ 63 + 4, true, 1) := by decide +kernel

/-- BarrierInstructions: a barrier here with arrivals to come and with its last; one passed; one elsewhere, before and after its
answer; and a resume word. -/
theorem witness_barriers :
    let s := barrier false 4 (bar3 3 1 0 4) .none
    let f (w : Wait) := barrier true 4 (bar3 3 0 1 5) w
    (clean s && !s.ctx.ahead && Memory.wf s.mem && s.recents.isEmpty && decide ((s.rx 6).toNat < 2 ^ 33) && (s.rx 6).getLsbD 32 &&
      s.core.barw.isEmpty && decide (s.bar 0 3 = bar3 3 1 0 4) && clean (barrier false 4 (bar3 3 2 1 4) .none) &&
      clean (barrier false 4 (bar3 3 0 1 5) .none) && clean (barrier false 7 (bar3 3 0 0 4) .none) && clean (f .none) &&
      fld ((f .none).rx 6) 8 24 == 5 && (f .none).myEid == 0 && clean (f (.replied 0 5)) && clean (f (.replied 0 (2 ^ 32 + 5))) &&
      clean (f (.barwDone 0 5)) && (s.rx 10) == BitVec.ofNat 64 (2 ^ 63 + 4)) = true := by decide +kernel

/-- MessagesAtACore: a request with slots free, with too few, and one too large; a grant; a message with its slot and without;
bytes inside the scratchpad and outside; an arrival in time and one late; and a waiter that asks again. -/
theorem witness_messages :
    let ask (m : Nat) : Packet := { kind := 6, deid := 0, seid := 5, asid := 1, otag := 4, arg0 := BitVec.ofNat 64 (7 + 65536 * m) }
    let gnt : Packet := { kind := 7, deid := 0, seid := 5, asid := 1, otag := 9, arg0 := 7, data := [2, 3] }
    let msg := arriving { handler := 9, arg0 := BitVec.ofNat 64 (2 ^ 63 + 2), arg1 := 7 + 9 * 65536, arg2 := 3, data := [1, 2, 3] }
    let byt (o : Nat) := arriving { handler := 9, arg0 := BitVec.ofNat 64 o, arg1 := BitVec.ofNat 64 o, arg2 := 3, data := [1, 2, 3] }
    let arr (n : Nat) := arriving { handler := 8, arg0 := 3, arg1 := BitVec.ofNat 64 n }
    let c := channel 20 [1] .none
    let b := barrier false 0 (bar3 3 0 1 4) .none
    let r : State := { barrier false 4 (bar3 3 0 1 5) (.again 10) with time := 2000 }
    ((sent (ask 2) c).coreTakes 0 1 && !(sent (ask 2) c).refused (ask 2) && (c.core.endOf 7).any (fun x => x.reqs.isEmpty && x.k == 4 &&
        x.free.length == 3) && accepted (sent gnt (channel 20 [] (.slots 9))) gnt && accepted (sent msg c) msg &&
      msg.slotMsg && !(byt 0x6000).slotMsg && accepted (sent (byt 0x6000) c) (byt 0x6000) &&
      accepted (sent (byt 0x25FFE) c) (byt 0x25FFE) && Memory.wf c.mem && c.recents.isEmpty &&
      accepted (sent (arr 4) b) (arr 4) && accepted (sent (arr 3) b) (arr 3) && ((sent (arr 4) b).coreOf 0).barw.isEmpty &&
      !(sent (arr 4) b).coreTakes 0 2 && !r.core.stopped && Sys2Proof.isCore r.core.id && decide (r.ctx.wait = .again 10)) = true := by
  decide +kernel

/-- MessagesAtACore: a returned grant that is refused on its way; and no access under way in parts. -/
theorem witness_refused_grant :
    let p : Packet := { kind := 6, deid := 1024, seid := 5, asid := 1, otag := 4, arg0 := 7, arg1 := 1 }
    let s : State := { memory [] with net := [p] }
    (s.pkg.isSome && eidPkg p.deid == s.pkgNo && p.arg1.getLsbD 0 && s.refused p && s.split.isNone) = true := by decide +kernel

/-! ### Remote accesses -/

/-- A descriptor for package 3 in c7 (R301), the page in c5, data in c6. -/
def remote (z : Nat) : State :=
  let s := memory [(6, 0x99AA), (7, BitVec.ofNat 64 (3 + z))]
  caps [(8, capOf 0x500000 0x1000 0)] s

/-- With an operation of this context without its answer, and the register that waits for it. -/
def asked (p : Packet) (s : State) : State :=
  let s := { s with core := { s.core with ops := [{ tag := 4, ctx := s.core.cur.val, pkt := p, counts := true }] } }
  s.setCtx { s.ctx with pend := [{ file := .c, idx := 9, op := 4, val := none }] }

/-- A request from core 5 for bytes of the page. -/
def request (va sz op : Nat) (x y : Word) : Packet :=
  arriving { arg0 := BitVec.ofNat 64 va, arg1 := BitVec.ofNat 64 (sz * 65536 + op * 2 ^ 19), arg2 := x, arg3 := y }
def placeOk (s : State) (p : Packet) (k : Acc) : Bool :=
  match (s.took p).remotePlace p.asid p.arg0.toNat (2 ^ fld p.arg1 16 3) k with
  | .ok (w, q) => stillB w q (2 ^ fld p.arg1 16 3) (2 ^ fld p.arg1 16 3)
  | .error _ => false
def placeErr (s : State) (p : Packet) (k : Acc) : Nat :=
  match (s.took p).remotePlace p.asid p.arg0.toNat (2 ^ fld p.arg1 16 3) k with
  | .ok _ => 99
  | .error e => e

theorem test_rld_request : after (.rld 0 9 5 7) (remote (3 * 4096))
    (fun t => (t.core.ops.map (fun x => (x.pkt.handler, x.pkt.deid, x.pkt.arg0, x.pkt.arg1)), t.ctx.pend.length)) =
    some ([(0, 3 * 4096, 0x500000, 0x30000)], 1) := by decide +kernel
theorem test_ramo_bad_operation : (trapOf (.ramo 0 9 5 7) (remote (2 * 4096 + 12 * 2 ^ 15))).map (·.1) =
    some Cause.illegal.code := by decide +kernel
theorem test_ratomic_max : after (.ratomic (request 0x500004 2 5 0x7FFFFFFF 0)) (sent (request 0x500004 2 5 0x7FFFFFFF 0) (memory []))
    (fun t => (t.getNat 0x300004 4, t.net.map (fun q => (q.kind, q.status, leNat q.data)))) =
    some (0x7FFFFFFF, [(5, 0, 0), (2, 0, 0x70605040)]) := by decide +kernel

/-- RemoteInstructions: descriptors of each instruction; a capability without permission, and one of the local window; a reply
of an operation in flight, done and failed, and of none; and a result that reaches its register. -/
theorem witness_remote :
    let s := remote (3 * 4096)
    let rp (st : Nat) : Packet := { kind := 2, deid := 0, seid := 5, asid := 1, otag := 4, status := st, data := leBytes 16 77 }
    let q := asked { kind := 1, handler := 0, arg1 := 3 * 65536, deid := 3 * 4096 } (memory [])
    let v := (memory []).setCtx { (memory []).ctx with pend := [{ file := .c, idx := 9, op := 4, val := some (77, false) }] }
    (clean s && !s.ctx.ahead && (capCheck (s.rc 5) [pL, pS, pA, pM, pG] (capA (s.rc 5)) 8 8).isNone &&
      (capCheck (s.rc 8) [pL] (capA (s.rc 8)) 8 8).isSome && capA (s.rc 4) / 2 ^ 64 == 0xFFFF && s.gstOk s.myEid 0 &&
      accepted (sent (rp 0) q) (rp 0) && accepted (sent (rp 3) q) (rp 3) && ((sent (rp 0) q).core.opOf 4).any (fun x =>
        x.job.isNone && x.group.isNone && x.ctx == 0) && ((memory []).core.opOf 4).isNone && v.ctx.pend.length == 1 &&
      Sys2Proof.isCore v.core.id && !v.core.stopped) = true := by decide +kernel

/-- With the page's entry as given; with a group under publication that writes the page at 8. -/
def paged (x : Nat) (s : State) : State := { s with mem := memSets s.mem (0x240000 + 8 * 0x50) (leBytes 8 x) }
def publishing (s : State) : State :=
  { s with groups := [{ stack := 0, src := 5, grp := 7, st := .prepared, holding := true
                        es := [{ place := 0x300008, size := 8, data := 0, tag := false }] }] }

/-- A gather or scatter of three words of the page, and bytes to write there. -/
def spread : Packet :=
  { request 0x500000 2 0 0 0 with
    arg1 := BitVec.ofNat 64 (2 * 65536 + 3 * 2 ^ 24)
    data := [2, 0, 0, 0, 1, 0] ++ (List.range 12).map (BitVec.ofNat 8) }
def bytesTo : Packet := { request 0x500010 0 0 0 0 with data := (List.range 12).map (BitVec.ofNat 8), handler := 15 }

/-- RemoteHandlers: an access of each kind that finds its place, one that meets a held line; one to no page, and one for no job. -/
theorem witness_handlers :
    let s (p : Packet) := sent p (memory [])
    let p := request 0x500008 3 5 7 8
    let q := request 0x500000 4 2 7 8
    let b := request 0x600000 3 0 0 0
    (accepted (s p) p && Memory.wf (s p).mem && placeOk (s p) p .load && placeOk (s p) p .store && placeOk (s p) p .atomic &&
      accepted (s q) q && placeOk (s q) q .store && accepted (s b) b && placeErr (s b) b .load == 1 &&
      placeErr (s { b with asid := 7 }) { b with asid := 7 } .load == 2 && (publishing (s p)).held 0x300008 8 &&
      placeErr (publishing (s p)) p .load == 99 && (s p).split.isNone &&
      (match ((s bytesTo).took bytesTo).remotePlaces 1 .store (pieces 0x500010 12) with
        | .ok (w, gs) => gs == [(0x300010, 12)] && stillB w 0x300010 12 4
        | .error _ => false)) = true := by decide +kernel

/-- RemoteHandlers: what each failing access meets (a page that may not be written, one of H, a stack that is down, an uncorrectable
granule), and the elements of a gather or scatter, with one held. -/
theorem witness_handler_errors :
    let s (p : Packet) := sent p (memory [])
    let p := request 0x500008 3 5 7 8
    let down : State := { s p with stackOn := Vector.replicate _ false }
    let pte (x : State) : Nat := ((walkLeaf x ((x.jobs.map (·.spec.root)).headD 0) 0x500008).map (·.pte)).getD 0
    (placeErr (paged 0x300003 (s p)) p .store == 1 && !(pte (paged 0x300003 (s p))).testBit 2 &&
      placeErr down p .load == 2 && !down.stackUp 0 &&
      placeErr { s p with bad := [0x30000] } p .load == 4 && placeErr { s p with bad := [0x30000] } p .store == 99 &&
      (paged 0x300023 (s p)).jobs.length == 1 && accepted (s spread) spread && fld spread.arg1 24 8 == 3 &&
      spread.data.length == 6 + 4 * 3 &&
      (match ((s spread).took spread).remotePlace 1 0x500008 4 .store with
        | .ok (w, q) => q == 0x300008 && stillB w q 4 4 && (publishing w).held q 4
        | .error _ => false)) = true := by decide +kernel
theorem test_handler_h_page : let p := request 0x500008 3 0 7 8
    placeErr (paged 0x300021 (sent p (memory []))) p .load = 1 := by decide +kernel
theorem test_mwrite_in_parts : after (.mwrite bytesTo) { sent bytesTo (memory []) with split := some 1 }
    (fun t => (t.getBytes 0x300010 8, t.niWait.map (fun q => (q.arg0, q.data.length)))) =
    some ([0, 1, 2, 3, 0, 0, 0, 0], [(0x500014, 8)]) := by decide +kernel
theorem test_ratomic_fadd : let p := request 0x500004 2 10 0x3F800000 0
    after (.ratomic p) (sent p { memory [] with mem := memSets (memory []).mem 0x300004 (leBytes 4 0x40000000) })
      (fun t => t.getNat 0x300004 4) = some 0x40400000 := by decide +kernel

/-! ### Group commit -/

/-- Core 0's commit record of group 7 as given; 7 in c6, and the record's name for a query in c7. -/
def committing (c : Commit) : State :=
  let s := memory [(6, 7), (7, 7 + 2 ^ 40)]
  { s with commits := [{ c with src := 0, grp := 7, asid := 1 }], time := 5000000 }

/-- Two participants, at memory agents 0x100 and 0x101. -/
def parts (r1 r2 a1 a2 : Bool) : List Participant :=
  [{ agent := 0x100, count := 2, ready := r1, acked := a1 }, { agent := 0x101, count := 3, ready := r2, acked := a2 }]

/-- An operation of the commit agent 0x100 under way, to the memory agent 0x101. -/
def unitOp (h : Nat) : RemOp :=
  { tag := 4, ctx := 0, pkt := { kind := 1, deid := 0x101, seid := 0x100, handler := h, arg0 := BitVec.ofNat 64 (7 * 2 ^ 24) } }
def answer (st : Nat) (data : List Byte) : Packet := { kind := 2, deid := 0x100, seid := 0x101, asid := 1, otag := 4, status := st, data := data }
def deciding (c : Commit) (h st : Nat) (data : List Byte) : State :=
  { sent (answer st data) (committing c) with uops := [unitOp h] }

/-- A group of core 5 staged or prepared at stack 0. -/
def staged (g : SbGroup) (s : State) : State := { s with groups := [{ g with stack := 0, src := 5, grp := 7 }], time := 3000000000 }
def entry : SbEntry := { place := 0x300008, size := 8, data := 0x1122334455667788, tag := false }
def toAgent (a0 a1 : Nat) : Packet := { arriving { arg0 := BitVec.ofNat 64 a0, arg1 := BitVec.ofNat 64 a1 } with deid := 0x100 }


/-- R306, R304: GCOMMIT's job, a group staged at its agent, and the decision once the last participant is ready. -/
theorem test_gcommit_opens : after (.gcommit 0 9 6) (committing { src := 0, grp := 7, parts := parts false false false false })
    (fun t => (t.core.jobs.map (fun j => (j.cls, j.status, j.group)), t.commits.map (·.asked))) =
    some ([(3, 0, 7)], [true]) := by decide +kernel
theorem test_prepare_count : after (.prepare (toAgent (5 + 7 * 2 ^ 24) 2))
    (staged { stack := 0, src := 5, grp := 7, es := [entry] } (sent (toAgent (5 + 7 * 2 ^ 24) 2) (memory [])))
    (fun t => (t.groups.length, t.net.map (fun q => (q.kind, q.data)))) = some (0, [(5, []), (2, [1])]) := by decide +kernel
theorem test_publish_stores : after (.publish (toAgent (5 + 7 * 2 ^ 24) 0))
    (staged { stack := 0, src := 5, grp := 7, st := .prepared, es := [entry] } (sent (toAgent (5 + 7 * 2 ^ 24) 0) (memory [])))
    (fun t => (t.groups.length, t.getNat 0x300008 8)) = some (0, 0x1122334455667788) := by decide +kernel

/-- CommitInstructions: the issuer's record open, asked for, preparing and decided; no such record; and a wait whose answer has
come, decided or not, with its limit passed or not. -/
theorem witness_commit :
    let c : Commit := { src := 0, grp := 7, asid := 1, parts := parts false false false false }
    let f (c : Commit) := committing c
    let s := f c
    let w (last : Word) (tag : Nat) (ex : Bool) : State :=
      (os [(2, 77)] s).setCtx { s.ctx with wait := .gwait (s.rx 7) tag last 100 4000000 200000 ex }
    (clean s && !s.ctx.ahead && decide (s.core.id < 4096) && decide (s.commitOf s.myEid 7 = some c) &&
      (s.commitOf s.myEid 8).isNone && (f { c with asked := true }).commits.all (·.asked) &&
      decide (((f { c with st := .preparing }).commitOf 0 7).map (·.st) = some .preparing) &&
      decide (((f { c with st := .published }).commitOf 0 7).map (·.st) = some .published) && fld (s.rx 7) 0 41 == (s.rx 7).toNat &&
      clean (w 4 0 false) && clean (w 3 0 true) && !(w 3 0 false).core.stopped && Sys2Proof.isCore s.core.id &&
      decide (4000000 ≤ (w 3 0 false).time.toNat)) = true := by decide +kernel

/-- CommitParticipants: a group staging with its count right and wrong, prepared, and none; a store that finds its place, with
room and without; one in a package's other stack; the two timers; and the answers of a query. -/
theorem witness_participants :
    let g : SbGroup := { stack := 0, src := 5, grp := 7, es := [entry], since := 1000 }
    let p (n : Nat) := toAgent (5 + 7 * 2 ^ 24) n
    let s (g : SbGroup) (q : Packet) := staged g (sent q (memory []))
    let x (st : CommitSt) : Nat := st.code
    let m (id : Nat) : Packet := { toAgent 0x500010 (3 * 65536 + id * 2 ^ 32) with arg2 := 0x77 }
    let room (g : SbGroup) (q : Packet) (id : Nat) : Bool :=
      match ((s g q).took q).remotePlace 1 0x500010 8 .store with
      | .ok (w, place) => w.sbRoom (place / 2 ^ 36) 5 id && place == 0x300010
      | .error _ => false
    let q : RemOp := { tag := 4, ctx := 0, pkt := { kind := 1, deid := 0x101, seid := 0x100, handler := 7, arg0 := BitVec.ofNat 64 (5 + 7 * 2 ^ 24) } }
    let r (a : Packet) : State := { s { g with st := .prepared } a with uops := [q] }
    (accepted (s g (p 1)) (p 1) && decide (((s g (p 1)).took (p 1)).groupOf 0 5 7 = some g) && Memory.wf (s g (p 1)).mem &&
      ((s g (p 1)).took (p 1)).recents.isEmpty && (((s g (p 1)).took (p 1)).groupOf 0 5 8).isNone &&
      accepted (s g (m 7)) (m 7) && room g (m 9) 9 && room g (m 7) 7 && !room { g with st := .prepared } (m 7) 7 &&
      decide (g.since + 1000000000 ≤ (s g (p 1)).time.toNat) && x .open_ == 1 &&
      accepted (r (answer 0 [5])) (answer 0 [5]) && decide (((r (answer 0 [5])).took (answer 0 [5])).unitOpOf (answer 0 [5]) = some q) &&
      accepted (r (answer 3 [])) (answer 3 [])) = true := by decide +kernel

/-- CommitAgent: a group asked for, aborted and doomed; its timer; a participant's answers with others still to come and as
the last; a GST's reply with its participant new and known; and a query. -/
theorem witness_agent :
    let c : Commit := { src := 0, grp := 7, asid := 1, since := 1000000, asked := true, parts := parts false false false false }
    let f (c : Commit) := committing c
    let d (c : Commit) (h : Nat) (l : List Byte) := deciding c h 0 l
    let k (p1 p2 a1 a2 : Bool) (st : CommitSt) : Commit := { c with st := st, parts := parts p1 p2 a1 a2 }
    let a := answer 0 [0]
    let op : RemOp := { tag := 4, ctx := 0, pkt := { kind := 1, deid := 3 * 4096, seid := 0 }, counts := true, group := some 7 }
    let gr (n : Nat) : Packet := { kind := 2, deid := 0, seid := 3 * 4096 + 0x101, asid := 1, otag := 4, data := leBytes 4 n }
    let s (n : Nat) : State :=
      let s := sent (gr n) (f { c with wait := 3 })
      { s with core := { s.core with ops := [op] } }
    let qu : Packet := toAgent (7 * 2 ^ 24) 1
    (decide ((f c).commitOf 0 7 = some c) && c.wait == 0 && c.parts.length == 2 && (c.parts.map (·.agent)).Nodup &&
      decide (c.since + 2000000 ≤ (f c).time.toNat) && accepted (d (k true false false false .preparing) 4 [0]) a &&
      decide (((d (k true false false false .preparing) 4 [0]).took a).unitOpOf a = some (unitOp 4)) &&
      fld (unitOp 4).pkt.arg0 24 16 == 7 && (c.parts.map (·.agent)).contains (unitOp 4).pkt.deid &&
      accepted (d (k true true false false .publishing) 5 [0]) a && accepted (d (k true true true false .discarding) 6 [0]) a &&
      accepted (s 0x101) (gr 0x101) && accepted (s 0x109) (gr 0x109) && decide ((s 0x109).core.opOf 4 = some op) &&
      accepted (sent qu (f c)) qu && ((sent qu (f c)).commitOf 0 8).isNone) = true := by decide +kernel

/-- R304, R310: two entries of a group in staging order, the later over the earlier. -/
theorem test_publish_in_order : after (.publish (toAgent (5 + 7 * 2 ^ 24) 0))
    (staged { stack := 0, src := 5, grp := 7, st := .prepared, es := [entry, { entry with place := 0x300009, size := 1, data := 0xEE }] }
      (sent (toAgent (5 + 7 * 2 ^ 24) 0) (memory [])))
    (fun t => t.getNat 0x300008 8) = some 0x112233445566EE88 := by decide +kernel
/-- R424: a participant that answers while the group is being discarded is told to discard. -/
theorem test_late_gst_is_told : let p : Packet := { kind := 2, deid := 0, seid := 3 * 4096 + 0x101, asid := 1, otag := 4, data := leBytes 4 0x109 }
    after (.gstReply p) (let s := sent p (committing { src := 0, grp := 7, st := .discarding, wait := 2, parts := parts true true true true })
        { s with core := { s.core with ops := [{ tag := 4, ctx := 0, pkt := { kind := 1, deid := 3 * 4096, seid := 0 }, counts := true, group := some 7 }] } })
      (fun t => (t.commits.map (fun c => (c.st.code, c.wait, c.parts.length)), t.uops.map (fun o => (o.pkt.handler, o.pkt.deid)))) =
      some ([(5, 1, 3)], [(6, 0x109)]) := by decide +kernel

/-- CommitParticipants: a prepared group of two entries, alone in its package, whose lines nothing else has touched; an agent that is
off line; and a question that has no answer yet. -/
theorem witness_publish :
    let g : SbGroup := { stack := 0, src := 5, grp := 7, st := .prepared, es := [entry, { entry with place := 0x300009, size := 1 }], since := 1000 }
    let p := toAgent (5 + 7 * 2 ^ 24) 0
    let s := staged g (sent p (memory []))
    let u := s.took p
    let off : State := { s with dies := Vector.replicate _ .offline }
    let q : RemOp := { tag := 4, ctx := 0, pkt := { kind := 1, deid := 0x100, seid := 0x100, handler := 7, arg0 := BitVec.ofNat 64 (5 + 7 * 2 ^ 24) } }
    (accepted s p && u.groups == [g] && g.es.all (fun e => stillB u e.place e.size e.size) && Memory.wf s.mem &&
      u.jobs.all (fun j => !j.spec.counter.tag && j.spec.hash.isNone && j.spec.stamp.isNone && j.spec.trace.isEmpty) &&
      s.unitUp 0x100 && !off.unitUp 0x100 && decide (g.since + g.wait ≤ s.time.toNat) && s.uops.isEmpty &&
      ({ s with uops := [q] } : State).asking 0 5 7) = true := by decide +kernel

/-- CommitAgent: a discarded group that still lacks a GST's answer or a participant's, and one whose last has come. -/
theorem witness_discarding :
    let c : Commit := { src := 0, grp := 7, asid := 1, asked := true, st := .discarding, parts := parts true true true false }
    let late : Packet := { kind := 2, deid := 0, seid := 3 * 4096 + 0x101, asid := 1, otag := 4, data := leBytes 4 0x109 }
    let op : RemOp := { tag := 4, ctx := 0, pkt := { kind := 1, deid := 3 * 4096, seid := 0 }, counts := true, group := some 7 }
    let s (n : Nat) := deciding { c with wait := n } 6 0 [0]
    let g := sent late (committing { c with wait := 2 })
    let g : State := { g with core := { g.core with ops := [op] } }
    (accepted (s 0) (answer 0 [0]) && accepted (s 2) (answer 0 [0]) && (c.parts.filter (fun y => !y.acked)).length == 1 &&
      accepted g late && g.core.id == 0 && decide (g.core.opOf 4 = some op) && decide (g.commitOf 0 7 = some { c with wait := 2 }) &&
      s 0 != s 2) = true := by decide +kernel

/-! ### In-network reduction -/

/-- Tree 7: cores 0 and 1 of die 0 contribute; core 1's router is below core 0's, which is the root (R390). -/
def treeEntry : List Byte :=
  [1, 0, 100, 0, 2, 0] ++ List.replicate 58 0 ++ [3] ++ List.replicate 127 0 ++ [0xC5, 0x81]

/-- The tree's entry; a reduction word in c6, an FP32 type in o0 and values in v40. -/
def reducing (w : Nat) : State :=
  let s := os [(0, 10)] (vs [(40, lanes [0x3F800000, 0x40000000])] (online (memory [(6, BitVec.ofNat 64 w)])))
  { s with trees := [(7, treeEntry)] }

/-- A contribution of values for an instance. -/
def contrib (inst n : Nat) (l : List Nat) : Packet :=
  { kind := 9, asid := 1, arg0 := redArg 7 inst 0 1 false false n, data := vBytes (lanes l) }

def redHeld (inst : Nat) (done : Bool) (l : List (Nat × Packet)) : RedInst :=
  { node := .router 0, tree := 7, inst := inst, inputs := l, first := 1000, done := done, gone := if done then [inst] else [] }
def atNode (r : RedInst) (p : Packet) : State := { reducing 0 with reds := [r], net := [p] }

/-- An NRED's job record, its name in c7. -/
def redRec (st : Nat) : JobRec := { cls := clsRed, ri := 2, ser := 9, status := st, tree := 7, inst := 3, result := lanes [5, 6] }
def redWait (st : Nat) : State := (withJob (redRec st) (reducing 0)).wx 7 (redRec st).word

theorem test_nred_contributes : after (.nred 0 9 6 40) (reducing (7 + 3 * 256 + 2 ^ 24))
    (fun t => t.net.map (fun q => (q.kind, redTree q, redInst q, redOp q, leNat q.data))) =
    some [(9, 7, 3, 1, 0x400000003F800000)] := by decide +kernel
/-- R316: the ports in order, own core first; 1.0 + 3.0 and 2.0 + 1.0. -/
theorem test_node_combines : after (.redContrib (.router 0) 2 (contrib 3 4 [0x40400000, 0x3F800000]))
    (atNode (redHeld 3 false [(0, contrib 3 1 [0x3F800000, 0x40000000])]) (contrib 3 4 [0x40400000, 0x3F800000]))
    (fun t => t.net.map (fun q => (q.deid, redDown q, redCount q, leNat q.data))) =
    some [(0, true, 5, 0x4040000040800000), (1, true, 5, 0x4040000040800000)] := by decide +kernel

/-- Reductions: a word the tree fits, one it does not, a core at its limit and one past the instance; a wait on a job in
flight and one complete; a node with nothing, a first input, one forwarded, an older instance and a later one; its timer; and a
result here and for a job switched out. -/
theorem witness_reductions :
    let s := reducing (7 + 3 * 256)
    let p := contrib 3 4 [1]
    let h := redHeld 3 false [(0, contrib 3 1 [2])]
    let r (n : Nat) : State := { redWait 0 with net := [contrib 3 n [1]] }
    let js := (r 1).jobs.map (fun j => { j with spec := { j.spec with gang := [0] } })
    let out : State := { r 1 with core := { (r 1).core with job := none }, jobs := js }
    (clean s && !s.helper && s.core.cur == 0 && !s.core.mm && decide (s.core.rmode < 8) && o0ok s.o0 && oRND s.o0 != 7 && s.rnd != 6 &&
      treeValid treeEntry && treeLists treeEntry s.core.id && !treeLists treeEntry 2 && s.core.jobs.isEmpty && s.boundPort 40 == false &&
      (s.core.setLast 7 3).lastInst 7 == some 3 && instBefore 3 3 && !instBefore 4 3 && clean (redWait 0) &&
      decide ((redWait 1).core.jobOf ((redWait 1).rx 7) = some (redRec 1)) && nodeOk (.router 0) 2 && s.unitUp (nodeUnit (.router 0)) && nodeOn treeEntry (.router 0) &&
      !nodeOn treeEntry (.router 3) && !nodeFull treeEntry (.router 0) [0] && nodeFull treeEntry (.router 0) [0, 2] &&
      decide ((atNode h p).redAt (.router 0) 7 = some h) && decide ((redHeld 3 true []).done = true) &&
      h.first + treeTout treeEntry == 101000 && treeNcon treeEntry == 2 && Sys2Proof.isCore (r 1).core.id && !(r 1).core.stopped &&
      (r 1).core.job == some 1 && ((r 1).core.redJob 7 3).isSome && ((r 1).core.redJob 7 4).isNone &&
      (out.jobOf 1).any (fun j => j.spec.gang.contains out.core.id)) = true := by decide +kernel

/-- R316: an input that comes later from a lower port is combined first, and its operation holds. -/
theorem test_node_combines_lower_port : after (.redContrib (.router 0) 0 (contrib 3 1 [0x3F800000]))
    (atNode (redHeld 3 false [(2, { contrib 3 4 [0xBF800000] with arg0 := redArg 7 3 3 1 false false 4 })]) (contrib 3 1 [0x3F800000]))
    (fun t => t.net.map (fun q => (redOp q, redCount q, leNat q.data))) = some [(0, 5, 0), (0, 5, 0)] := by decide +kernel

/-- Reductions: nodes that hold inputs out of port order, one that has forwarded two instances, one of an offline die, one below the
root, and results that a core discards. -/
theorem witness_reduction_orders :
    let p := contrib 3 4 [1]
    let q := contrib 3 1 [2]
    let low := redHeld 3 false [(2, q)]
    let two := { redHeld 5 true [] with gone := [5, 3] }
    let s := atNode low p
    let off : State := { s with dies := Vector.replicate _ .offline }
    let away : State := { s with core := { s.core with job := none }, jobs := [] }
    let ascends (xs : List (Nat × Packet)) : Bool := decide (xs.Pairwise (fun x y => x.1 < y.1))
    (decide ([(0, p), (2, q)].Perm (low.inputs ++ [(0, p)])) && ascends [(0, p), (2, q)] &&
      nodeFull treeEntry (.router 0) (low.inputs.map (·.1) ++ [0]) &&
      decide ([(0, p), (1, q), (4, p)].Perm [(4, p), (0, p), (1, q)]) && ascends [(0, p), (1, q), (4, p)] &&
      two.gone.contains 3 && !two.gone.contains 4 && !nodeFull treeEntry (.router 0) [2] &&
      !off.unitUp (nodeUnit (.router 0)) && !off.unitUp 0 && rnode treeEntry 0 / 32 == 6 && rnode treeEntry 1 / 32 == 4 &&
      meshStep 1 4 == some 0 && (List.range 16).all (fun l => !(gnode treeEntry l).testBit 0) &&
      treeLists (away.treeOf 7) away.core.id && !treeLists (away.treeOf 8) away.core.id && (away.jobOf 1).isNone) = true := by
  decide +kernel

/-! ### System registers and traps -/

def onCore (f : Core → Core) (s : State) : State := { s with core := f s.core }

/-- Execution as `booted` has it, without permission Y, and with it. -/
def noY (l : List (Fin 32 × Word)) : State := booted l
def withY (l : List (Fin 32 × Word)) : State :=
  let s := booted l
  s.setCtx { s.ctx with pcc := capOf 0x400000 0x4000 (2 ^ pX + 2 ^ pY) }

/-- An interrupt pending and enabled, at 0x40_0000. -/
def interrupted : State := onCore (fun c => { c with ie := true, ien := 3, ipend := 2 }) (withY [(9, 5)])

/-- A handler about to return to 0x40_0100 (R224). -/
def returning : State :=
  let r := capOf 0x400100 0x4000 (2 ^ pX + 2 ^ pY)
  onCore (fun c => { c with tpc := r, pie := true, inh := true, sloop := { c.sloop with lbeg := 0x400020, lact := true, llen := 3, lcnt := 4 } })
    (withY [])

theorem test_swr_rmode : (after (.swr 0 9 1) (withY [(9, 6)]) (fun t => t.core.rmode), after (.swr 0 9 1) (withY [(9, 7)]) (fun t => t.core.rmode)) =
    (some 6, some 0x1) := by decide +kernel
theorem test_srd_off_map : trapOf (.srd 0 9 0x007) (booted []) = some (Cause.illegal.code, 7) := by decide +kernel
theorem test_srd_needs_y : trapOf (.srd 0 9 0x011) (noY []) = some (Cause.capPerm.code, 0x11) := by decide +kernel
theorem test_trap_saves : after (.trap 0 0x123) (booted []) (fun t => (capA t.core.tpc, t.core.tcause.toNat, t.core.tval.toNat, t.core.inh)) =
    some (0x400004, Cause.soft.code, 0x123, true) := by decide +kernel
theorem test_eret_returns : after (.eret 0) returning (fun t => (t.pc, t.core.ie, t.core.inh, t.ctx.loop.lcnt)) =
    some (0x400100, true, false, 4) := by decide +kernel

/-- SystemRegisters: in h0 with permission Y and without, in a helper, and values in and out of the ranges that are checked. -/
theorem witness_registers :
    let s := withY [(9, 5)]
    let v (w : Word) : Nat × Nat := ((booted [(9, w)]).rx 9 |>.toNat, fld w 2 6)
    (clean s && s.pccY && !s.helper && !(noY []).pccY && clean (noY []) && (inHelper s).helper && clean (inHelper s) && (inHelper s).pccY &&
      v 5 == (5, 1) && v 0x80 == (0x80, 32) && boundsOk s.core 20 200 232 && !boundsOk s.core 0 0x1FF 3 &&
      fld (0x20 : Word) 3 6 == 4  && (0xFFF : BitVec 12).toNat == 0xFFF) = true := by decide +kernel

/-- TrapsAndReturn: a handler to enter, INH set, none, and a helper; an ERET with a restart capability and a null one; loops
active; an interrupt at a boundary; and a sleeper. -/
theorem witness_traps :
    let s := withY [(9, 5)]
    let l := s.setCtx { s.ctx with loop := { s.ctx.loop with lact := true } }
    let z := onCore (fun c => { c with ctxs := c.ctxs.set 3 { c.ctxs[(3 : Fin 11)] with wait := .sleeping 500 false } }) s
    (!s.helper && !s.core.inh && s.tvecOk && s.ctx.fix.isEmpty && s.myJob.all (fun j => j.spec.trace.isEmpty) && (inHelper s).helper && !(inHelper s).ctx.ahead &&
      !(onCore (fun c => { c with tvec := Cap.null }) s).tvecOk && clean s && s.pccY && !(noY []).pccY && !s.core.stopReq && !s.core.stopped &&
      clean l && l.ctx.loop.lact && clean returning && (capCheck returning.core.tpc [pX] (capA returning.core.tpc) 2 2).isNone &&
      (capCheck s.core.tpc [pX] (capA s.core.tpc) 2 2).isSome && decide (interrupted.core.boundary = some (⟨.interrupt, 2⟩, interrupted.core)) &&
      s.core.boundary.isNone && interrupted.core.pTrig.isEmpty && !z.core.stopped && Sys2Proof.isCore z.core.id &&
      decide ((z.core.ctxs[(3 : Fin 11)]).wait = .sleeping 500 false)) = true := by decide +kernel

/-! ### Dispatch, messages and launches -/

/-- Core 0 idle in its gang of cores 0 to 3 and 8; tasks in the Hutches of clusters 0 and 1. -/
def waiting (own other : List Task) : State :=
  let s := tasking 0 0
  let jobs := s.jobs.map (fun j => { j with spec := { j.spec with gang := [0, 1, 2, 3, 8] } })
  { s with
    jobs := jobs, core := { s.core with run := none, idleSince := 50 }, time := 9000
    hutches := [{ cl := 0, t2 := own, ser := 7 }, { cl := 1, t1 := other }] }

def task18 : Task := { hnd := 0x400100, a0 := 11, a1 := 12, a2 := 13, a3 := 14, pcc := bootPcc, prio := 2, tid := 88, launch := 5, asid := 1 }

/-- As `waiting`, with a steal round under way. -/
def stealing (n next : Nat) (own other : List Task) : State :=
  let s := waiting own other
  { s with core := { s.core with steal := { s.core.steal with left := n, next := next } } }

/-- A message from core 5 of this package with a user handler. -/
def message (h pin : Nat) : Packet := arriving { handler := h, arg0 := 1, arg1 := 2, arg2 := 3, arg3 := 4, launch := 5, pcc := bootPcc, pin := pin }

/-- A trigger's address bound, or waiting with counts. -/
def triggered (l : List Binding) (s : State) : State := { s with core := { s.core with binds := l } }
def trig : Packet := arriving { handler := 12, arg0 := 0x500040 }
def bind18 (bnd : Bool) (pend : Nat) : Binding := { addr := 0x500040, hnd := 0x400300, launch := 5, seq := 9, pend := pend, bnd := bnd }

/-- Launch 6 of job 1, with a specification for cluster 0. -/
def spec18 : LaunchSpec := { lid := 6, entry := 0x400000, ncl := 1, prio := 2, clusters := [0], pds := List.replicate 6 (BitVec.ofNat 256 (2 ^ 64)) }
def launching (l : Level) : State :=
  let s := waiting [] []
  { s with levels := l :: s.levels }

theorem test_dispatch_head_first : after (.taskDispatch 0) { waiting [task18] [] with
      hutches := [{ cl := 0, head := [{ task18 with hnd := 0x400200, tid := 99 }], t2 := [task18] }] }
    (fun t => t.core.run.map (fun r => r.task.tid)) = some (some 99) := by decide +kernel
theorem test_steal_takes : after (.stealAttempt 0) (stealing 4 0 [] [task18])
    (fun t => (t.core.run.map (fun r => r.task.tid), (t.hutch 1).t1.length, t.core.evc[(7 : Fin 11)].toNat)) = some (some 88, 0, 1) := by
  decide +kernel
theorem test_trigger_counts : after (.trigger trig) (triggered [bind18 false 3] (sent trig (waiting [] [])))
    (fun t => (t.core.binds.map (·.pend), t.net.map (fun q => (q.kind, q.status)))) = some ([4], [(5, 0), (2, 0)]) := by
  decide +kernel
theorem test_launch_opens : after (.launchOpen 1 6) (launching { asid := 1, lid := 6, st := 1, spec := some spec18 })
    (fun t => ((t.hutch 0).tasks.map (·.entry), (t.levelOf 1 6).map (fun l => (l.st, l.cnt)))) = some ([true], some (2, 1)) := by
  decide +kernel

/-- DispatchAndMessages: an idle core with a task of its own, none, and another core idle longer; a steal round with a victim and
none; a message accepted, for a job elsewhere, to a full Hutch, from another package to a level that is full; a trigger bound, held,
at its limit, unbound and with a full table. -/
theorem witness_dispatch :
    let w := waiting [task18] []
    let older : State := { w with others := [{ w.coreOf 1 with job := some 1, run := none, idleSince := 20 }] }
    let entry : State := { waiting [{ task18 with entry := true }] [] with levels := [{ asid := 1, lid := 5, st := 2, entries := 2 }] }
    let m := message 0x400100 0
    let s := sent m (waiting [] [])
    let far : Packet := { m with seid := 4096 * 3 + 5 }
    let full : State := { s with hutches := [{ cl := 0, t1 := List.replicate 1024 { hnd := 0 } }] }
    let top : State := { sent far (waiting [] []) with levels := [{ asid := 1, lid := jobLid, cnt := 2 ^ 32 - 1 }] }
    let tr (l : List Binding) := triggered l (sent trig (waiting [] []))
    let mine (s : State) : Bool := ((s.hutch 0).tasks.find? (s.core.mayTake false)).isSome
    (w.core.run.isNone && decide ((w.myJob.map (·.gang)) = some .run) && mine w && !mine (waiting [] []) && !w.core.stopped &&
      w.core.id == 0 && w.core.b0 == 24 && w.core.b1 == 152 && older.others.all (fun c => c.idle && c.mayTake false task18) &&
      decide ((entry.levelOf 1 5).map (·.st) = some 2) && (waiting [] []).core.steal.left == 0 && (waiting [] []).core.steal.roundAt == 0 &&
      (stealing 4 0 [] [task18]).victim == some 1 && (stealing 4 0 [] []).victim == some 1 &&
      accepted s m && m.kind == 1 && (s.took m).coreTakes 0 1 && !(s.took m).coreTakes 0 7 && (s.took m).hutchRoom 0 1 &&
      !(full.took m).hutchRoom 0 1 && accepted full m && accepted top far && !(top.took far).countRoom 1 jobLid 1 &&
      !(s.took m).levelCancelled 1 5 && accepted (tr [bind18 true 0]) trig && ((tr [bind18 true 0]).took trig).countRoom 1 5 1 &&
      ((tr [bind18 false 255]).core.bindOf trig.arg0).isSome && ((tr []).core.bindOf trig.arg0).isNone) = true := by decide +kernel

/-- LaunchesAndPhases: a launch that is pending and fits, one without a GRAIN, one that waits; a phase that ends and one that does
not; and the Bureau with no ring, between pages, in the middle of one and at its end. -/
theorem witness_launches :
    let l : Level := { asid := 1, lid := 6, st := 1, spec := some spec18 }
    let s := launching l
    let ph := 3 * 2 ^ 29 + 1
    let p : State :=
      let s := launching { asid := 1, lid := ph, st := 2 }
      { s with
        levels := { asid := 1, lid := 2 * 2 ^ 29 + 1, st := 4, parent := ph } :: s.levels
        others := [1, 2, 3, 8].map (fun e => { s.coreOf e with job := some 1, run := none }) }
    let h (x : Option (Nat × Nat × Nat)) : State :=
      let s := launching { l with st := 4, bureau := true, hashing := x }
      { s with jobs := s.jobs.map (fun j => { j with spec := { j.spec with hash := some { base := 0x500100, nrec := 4 } } }) }
    let root (s : State) : Nat := (s.myJob.map (·.spec.root)).getD 0
    (decide ((s.levelOf 1 6).map (·.spec) = some (some spec18)) && s.launchCores 1 spec18 == [0, 1, 2, 3] && spec18.lid == 6 &&
      Memory.wf s.mem && [0, 1, 2, 3].all (fun e => openB s (poolPlace e 24576) 256) && spec18.clusters.Nodup &&
      spec18.pds.length == 6 && spec18.pds.all pdOk && s.myJob.all (fun j => !j.spec.counter.tag) &&
      p.lastGraphDone 1 ph && p.gangIdle 1 && lidLevel ph == 3 && (h none).myJob.all (fun j => j.spec.hash.isSome) &&
      (walkLeaf (h none) (root s) 0x500000).isSome && (walkLeaf (h none) (root s) 0x900000).isNone &&
      (h (some (0x500000, 8, 1))).levels.any (fun l => l.hashing == some (0x500000, 8, 1))) = true := by decide +kernel

/-! ### Gang stops and switches -/

/-- Cores 0 and 1 the gang of the job as given, core 0 stopped or not, core 1 stopped or not. -/
def ganged (f : Job → Job) (stop0 stop1 : Bool) : State :=
  let s := waiting [] []
  { s with
    jobs := s.jobs.map (fun j => f { j with spec := { j.spec with gang := [0, 1], slice := 100 } })
    core := { s.core with stopped := stop0, gswhy := 1 + 5 * 256 }
    others := [{ s.coreOf 1 with job := some 1, stopped := stop1 }] }

theorem test_ecc_stops : after (.eccUe 0) (ganged id false false)
    (fun t => (t.core.stopped, t.core.poisoned, fld t.core.gswhy 0 4, (t.coreOf 1).stopReq)) = some (true, true, 5, true) := by
  decide +kernel
theorem test_slice_expires : after (.sliceExpiry 1) (ganged (fun j => { j with sliceEnd := 10 }) false false)
    (fun t => t.jobs.map (·.expired)) = some [true] := by decide +kernel
theorem test_drain_begins : after (.gangDrain 1) (ganged (fun j => { j with gang := .dispatchStop }) true true)
    (fun t => t.jobs.map (·.gang)) = some [.drain] := by decide +kernel
theorem test_spill_too_long : after (.gangDrain 1)
    (ganged (fun j => { j with gang := .drain, spilled := [message 0x400100 0] }) true true)
    (fun t => (t.jobs.map (·.gang), fld t.core.gswhy 0 4)) = some ([.unsaveable], 8) := by decide +kernel

/-- GangStopsAndSwitches: a core asked to stop, one with an arrival that waits; an expired slice with a completion and without; a
drain with everything quiet, with a reply awaited and with a spill too long; and a save. -/
theorem witness_gang :
    let s := ganged id false false
    let told : State := { s with core := { s.core with stopReq := true } }
    let x : Job → Job := fun j => { j with sliceEnd := 10, expired := true }
    let d := ganged (fun j => { j with gang := .drain }) true true
    let busy : State := { d with core := { d.core with ops := [{ tag := 4, ctx := 0, pkt := message 3 0 }] } }
    (s.core.id == 0 && s.core.job == some 1 && (s.jobOf 1).isSome && (s.jobOf 2).isNone && s.core.gswhy.toNat % 16 == 1 &&
      told.core.ctxs.toList.all (fun c => !c.arriving) && s.myEid == 0 && s.eid 0x200 == 0x200 &&
      (ganged x false false).jobs.all (fun j => j.expired && j.gang == .run) &&
      decide (10 ≤ (ganged id false false).time.toNat) && d.jobs.all (fun j => d.drained j) && busy.jobs.all (fun j => !busy.drained j) &&
      d.allCores.all (fun c => c.hwc == Vector.replicate 2 0) && d.jobs.all (fun j => j.spec.away.isEmpty && j.spec.saveSpill == 0) &&
      (ganged (fun j => { j with gang := .save }) true true).jobs.all (fun j => j.gang == .save)) = true := by decide +kernel

/-! ### Packets and links -/

/-- A packet of a kind from core 5 of package 3. -/
def fromFar (kind n pseq : Nat) : Packet :=
  { kind := kind, deid := 0, seid := 3 * 4096 + 5, asid := 1, arg0 := BitVec.ofNat 64 n, pseq := pseq }

/-- Two packets to core 5 without an acknowledgement, the timer having run out f times. -/
def unacked (f : Nat) : State :=
  let s := memory []
  let p (n : Nat) : Packet := { kind := 1, deid := 5, seid := 0, asid := 1, handler := 70, pseq := n }
  { s with
    time := 10000000
    ptx := [{ src := 0, dst := 5, unack := [p 7, p 8], sentAt := [100, 200], since := 100, fails := f, next := 9 }]
    core := { s.core with ops := [{ tag := 4, ctx := 0, pkt := p 7, counts := true }] } }

/-- Link 3 trained, with two flits held. -/
def linked (f : Link → Link) : State :=
  let s := memory []
  let k : Link := { trained := true, tx := 4002, held := [mkFlit (List.replicate 56 0) 4000 0 1, mkFlit (List.replicate 56 0) 4001 0 1] }
  { s with links := s.links.set 3 (f k) }

/-- R299: a DEMAND of 5,000 bytes is granted in pieces; the packets are sent again; a flit with a bad CRC is asked for again. -/
theorem test_grants : after (.demand (fromFar 3 5000 0)) (sent (fromFar 3 5000 0) { memory [] with
      routes := [{ dst := 3, ent := 0x103 }], links := (memory []).links.set 3 { trained := true } })
    (fun t => (t.ptx.filter (fun x => x.src == 0)).map (fun x => x.unack.map (fun p => (p.kind, p.arg0.toNat)))) =
    some [[(4, 4096), (4, 904)]] := by decide +kernel
theorem test_timer_resends : after (.e2eTimer 0 5) (unacked 1) (fun t => (t.net.map (·.pseq), t.ptx.map (·.fails))) =
    some ([7, 8], [2]) := by decide +kernel
theorem test_bad_crc : after (.flit 3 { pay := List.replicate 56 0, fseq := 0, typ := 0, fack := 1, crc := 7 }) (linked id)
    (fun t => t.links[(3 : Fin 16)].out.map (fun g => (g.typ, g.fseq))) = some [(2, 0)] := by decide +kernel
/-- The CRC-32C of "123456789" (R293). -/
theorem test_crc32c : crc32c [0x31, 0x32, 0x33, 0x34, 0x35, 0x36, 0x37, 0x38, 0x39] = 0xE3069283 := by decide +kernel

/-- PacketsAndLinks: the expected packet, a duplicate and one beyond; one for no unit; a demand, a grant and an acknowledgement;
a timer due and at its end; a link trained and not, with flits of each kind. -/
theorem witness_packets :
    let s (p : Packet) := sent p (memory [])
    let p := fromFar 3 100 0
    let g : Packet := { fromFar 4 300 0 with kind := 4 }
    let e : Packet := fromFar 5 7 0
    let c : Packet := fromFar 8 7 0
    let q : Packet := { kind := 1, deid := 3 * 4096 + 5, seid := 0, data := List.replicate 300 1, handler := 70 }
    let gap (p : Packet) : Nat := (p.pseq + 65536 - ((s p).pairRx p.seid p.deid).want) % 65536
    let no : Packet := { fromFar 1 0 0 with deid := 0x3FF }
    let bs := q.bytes
    (accepted (s p) p && gap p == 0 && gap (fromFar 3 1 5) == 5 && 32768 ≤ gap (fromFar 3 1 65530) && (s no).refused no && no.sequenced &&
      accepted (s g) g && q.big && accepted (s e) e && accepted (s c) c && ((s g).pairTx 0 g.seid).wait.isEmpty && (s e).pkg.isSome &&
      (unacked 1).ptx.all (fun t => decide (t.since + 40000 ≤ (unacked 1).time.toNat)) && eidLocal 0 == (unacked 5).core.id &&
      (linked id).links[(3 : Fin 16)].trained && !(memory []).links[(3 : Fin 16)].trained && 112 ≤ bs.length &&
      (({ p with kind := 5 } : Packet).bytes).length < 56 && flitBefore 8 9 && !flitBefore 10 9 &&
      (parseStream 57 (List.replicate 56 0)).1.isEmpty && (parseStream 57 ((p.bytes ++ List.replicate 56 0).take 56)).1 == [p]) = true := by
  decide +kernel

/-- PacketsAndLinks: before any job and after one; a packet from a link for a port; and a link whose die is up, and is not. -/
theorem witness_links_and_time :
    let s := memory []
    let u : State := { s with synced := false, jobSeen := false }
    let v : State := { u with jobSeen := true }
    let r := linked (fun k => { k with trained := false, retraining := true })
    (!u.synced && !u.jobSeen && v.jobSeen && ctlPort (eidLocal 0x301) && !ctlPort (eidLocal 5) && r.links[(3 : Fin 16)].retraining &&
      (online r).linkDieUp 3 && !({ r with dies := r.dies.set 0 .offline } : State).linkDieUp 3) = true := by decide +kernel

/-! ### Device commands, bring-up and power -/

/-- Port 1 holds the semaphore; every die and stack is online, and no core has a job. -/
def serving : State :=
  let s := online (memory [])
  { s with semHeld := true, semOwner := 1, jobs := [], core := { s.core with job := none, run := none }, time := 50000000 }

def jobOf21 : JobSpec := { asid := 5, root := 0x200000, gang := [0, 3], slice := 100, bars := [(2, 7)] }
def graph21 : GraphSpec := { asid := 1, graph := 2 * 2 ^ 29 + 1, phase := 3 * 2 ^ 29 + 1, launches := [] }

/-- A job of cores 0 and 3 in a state, its cores stopped or not. -/
def placed21 (f : Job → Job) (a b : Bool) : State :=
  let s := online (memory [])
  let jobs := s.jobs.map (fun j => f { j with spec := { j.spec with gang := [0, 3] } })
  { s with
    semHeld := true, semOwner := 1, jobs := jobs, core := { s.core with stopped := a }
    others := [{ s.coreOf 3 with job := some 1, stopped := b }] }

def command21 (code : Nat) : Packet := { kind := 1, deid := 0x301, seid := 5, asid := 1, otag := 77, handler := code }

/-- A group at stack 2 of source 5. -/
def group21 (st : PartSt) : SbGroup := { stack := 2, src := 5, grp := 7, st := st }

theorem test_semaphore_busy : after (.setpkg 0 3) serving (fun t => (t.pkg, t.replies.map (·.status))) = some (some 0, [5]) := by
  decide +kernel
theorem test_jobstart_busy : after (.jobstart 1 jobOf21) (placed21 id false false) (fun t => (t.core.job, t.replies.map (·.status))) =
    some (some 1, [2]) := by decide +kernel
theorem test_jobstop_waits : after (.jobstop 1 1) (placed21 id false false) (fun t => (t.replies.length, t.core.stopReq)) =
    some (0, true) := by decide +kernel
theorem test_port_unlisted : after (.activeMessage (command21 0x0F)) (sent (command21 0x0F) serving)
    (fun t => t.net.map (fun q => (q.kind, q.deid, q.status))) = some [(5, 5, 0), (2, 5, 2)] := by decide +kernel
theorem test_powercap_limit : after (.powercap 1 4000) serving (fun t => t.powerCap) = some 3400 := by decide +kernel
theorem test_throttle : after (.thermalThrottle 2) serving (fun t => t.clocks[(2 : Fin 4)]) = some 900 := by decide +kernel
theorem test_join_full : after (.partJoin (.die 1)) { serving with svc := .joining, dies := serving.dies.set 1 .joining }
    (fun t => (t.dies[(1 : Fin 4)], t.clocks[(1 : Fin 4)])) = some (.online, 1500) := by decide +kernel

/-- PortAndJobCommands: a port with the semaphore and one without; a job whose cores are free, and one whose are not; a job that
runs, has stopped, is saved with every core free, poisoned and unsaveable; a graph; and commands by packet. -/
theorem witness_ports :
    let s := serving
    let p := placed21
    let saved (bad : List Nat) : State :=
      let s := p (fun j => { j with gang := .saved, valid := true, poisoned := bad, saved := [{ (p id false false).core with cyc := 99 }] }) false false
      { s with core := { s.core with job := none }, others := [] }
    (s.semHeld && s.semOwner == 1 && s.jobOk jobOf21 && !(p id false false).jobOk jobOf21 && jobOf21.hash.isNone && jobOf21.stamp.isNone &&
      (s.jobOf 1).isNone && s.unitUp 3 && !s.unitUp 0x3FF && eidPkg 3 == s.pkgNo && ((p id false false).jobOf 1).any (fun j => j.gang == .run) &&
      (p (fun j => { j with gang := .stopped }) true true).jobs.all (fun j => (p (fun j => { j with gang := .stopped }) true true).gangStopped j) &&
      ((saved []).jobOf 1).any (fun j => j.valid && j.poisoned.isEmpty && j.spilled.isEmpty && j.spec.gang.all (saved []).unitUp &&
        j.spec.gang.all (fun e => ((saved []).coreOf e).job.isNone)) && ((saved [3]).jobOf 1).any (fun j => !j.poisoned.isEmpty) &&
      ((p id false false).jobOf graph21.asid).any (fun j => j.graphOk graph21) && lidLevel graph21.phase == 3 &&
      accepted (sent (command21 1) s) (command21 1) && ctlPort (eidLocal (command21 1).deid)) = true := by decide +kernel

/-- An entry of zeros is one that TREEWR takes (R390). -/
theorem entNat_zeros (n o k : Nat) : entNat (List.replicate n 0#8) o k = 0 := by
  have zeros : ∀ m, leNat (List.replicate m 0#8) = 0 := by
    intro m
    induction m with
    | zero => rfl
    | succ m ih => simp [List.replicate_succ, leNat, ih]
  simp [entNat, List.drop_replicate, List.take_replicate, zeros]
theorem witness_tree : (List.replicate 1280 0#8).length = 1280 ∧ treeOk (List.replicate 1280 0#8) = true :=
  ⟨List.length_replicate, by simp [treeOk, rnode, gnode, treeLists, offPackage, entNat_zeros, -List.reduceReplicate]⟩

/-- ServiceAndBringUp: a stack that holds a group and one that does not, staging and prepared; a die that is offline, joining and in
use; a link that retrains; a tree that is well formed and free; an SBRESOLVE under way; a lost agent; and parts that join. -/
theorem witness_service :
    let s := serving
    let g (st : PartSt) : State := { s with groups := [group21 st] }
    let off : State := { s with dies := s.dies.set 1 .offline, links := s.links.set 5 { retraining := true } }
    let c : Commit := { src := 3 * 4096, grp := 7, st := .publishing, parts := [{ agent := 77, count := 1, ready := true }] }
    let part : State := { s with svc := .joining, dies := s.dies.set 1 .joining, stackOn := s.stackOn.set 2 false }
    (!s.treeBusy 4 && s.treeWr.isEmpty && !treeOk (List.replicate 2 255) &&
      off.dies[(1 : Fin 4)] == .offline && s.dies[(1 : Fin 4)] == .online && off.links[(5 : Fin 16)].retraining &&
      s.allCores.all (fun c => c.job.isNone) && (g .staging).groups.all (fun x => x.st == .staging) && s.resolving.isEmpty &&
      decide (((g .prepared).groupOf 2 5 7).map (·.st) = some .prepared) && (s.groupOf 2 5 7).isNone && s.unitUp (stackAgent 2) &&
      !off.unitUp (stackAgent 2) && c.awaits 77 && !c.awaits 78 && decide (100 + 10000000 ≤ s.time.toNat) && State.reset.svc == .reset &&
      s.svc != .full && part.dies[(1 : Fin 4)] == .joining && !part.stackOn[(2 : Fin 8)] && !part.retired[(2 : Fin 8)] &&
      !part.links[(5 : Fin 16)].trained && !s.cutsHost 1 none && s.cutsHost 0 (some 2)) = true := by decide +kernel

/-- The digest of "abc" in FIPS 180-4. -/
theorem test_sha384_abc : beNat (sha384 [0x61, 0x62, 0x63]) =
    0xcb00753f45a35e8bb5a03d699ac65007272c32ab0eded1631a8b605a43ff5bed8086072ba1e7cc2358baeca134c825a7 := by decide +kernel

/-- PortAndJobCommands and ServiceAndBringUp: a stopped gang of which a core is not there; JOBSTOPs that wait; a link of an offline
die; a die that joins with nothing in doubt, or is reduced; and a stack of a die that joins, and of one that is there. -/
theorem witness_offline_parts :
    let p := placed21 (fun j => { j with gang := .stopped, stopPorts := [1] }) true true
    let off : State := { p with dies := p.dies.set 0 .offline }
    let d (x : DieSt) : State := { serving with svc := .joining, dies := serving.dies.set 1 x, stackOn := serving.stackOn.set 2 false }
    ((off.jobOf 1).any (fun j => j.spec.gang.any (fun e => !off.unitUp e)) &&
      (p.jobOf 1).any (fun j => j.spec.gang.all (fun e => p.unitUp e && (p.coreOf e).stopped) && j.stopPorts.all (fun g => g ≤ 1) &&
        j.stopPorts.length == 1 && j.spec.trace.isEmpty) && p.commits.isEmpty && !off.linkDieUp 2 && p.linkDieUp 2 &&
      (List.finRange 16).all (fun i => !p.links[i].retraining) && (d .joining).groups.isEmpty && (d .joining).commits.isEmpty &&
      (d .joining).uops.isEmpty && (d .joining).dies[(1 : Fin 4)] == .joining && (d .reduced).dies[(1 : Fin 4)] == .reduced &&
      !(d .online).stackOn[(2 : Fin 8)] && !(d .online).retired[(2 : Fin 8)]) = true := by decide +kernel
theorem test_jobresume_offline : let p := placed21 (fun j => { j with gang := .stopped }) true true
    after (.jobresume 1 1) { p with dies := p.dies.set 0 .offline } (fun t => t.replies.map (·.status)) = some [2] := by decide +kernel

/-! ### Steps -/

/-- The word of the worked example of R75 at 0x40_0000, to be fetched next. -/
def fetching : State := (booted [(6, 20), (7, 5)]).withFetchWord 32 0x01C61405

/-- R72, R75: the step fetches ADD c5, c6, c7, runs it, and goes on behind it. -/
theorem test_step_add : (nextOf (step fetching)).map (fun t => (t.rx 5, t.pc, t.core.cyc)) =
    some (25, 0x400004, fetching.core.cyc + 1) := by decide +kernel
/-- R409: port 0's command of one cycle comes first. -/
theorem test_step_arbiter : (nextOf (step { State.reset with agenda := [.event (.semacq 1), .event (.semacq 0)] })).map
    (fun t => (t.semHeld, t.semOwner)) = some (true, 0) := by decide +kernel

/-- StepRunsDecoded: a core whose turn it is, with a word to fetch; one stopped, and one whose stop is due; an event that is well
formed, one that is not, a boundary cause that is due, and a packet in flight. -/
theorem witness_step :
    let s := fetching
    let r := (s.cycleStart []).timer
    let u := r.turnOf 0
    let due : State := { s with core := { s.core with stopReq := true } }
    let irq : State := { s with core := { s.core with ie := true, ien := 3, ipend := 2 } }
    let e : Packet := { kind := 5, deid := 0, seid := 4096 * 3, arg0 := 4 }
    (s.agenda.isEmpty && !r.stopDue && !r.stopTold && !r.core.stopped && r.core.run.isSome && r.turns == [0] && u.boundaryWork.isNone &&
      okThat (fetchHere u) (fun x v => x == (4, 0x01C61405) && !v.ctx.loop.lact) && due.timer.stopDue && irq.boundaryDue 0 && !s.boundaryDue 0 &&
      (Instr.semacq 1).wf && !(Instr.semacq 2).wf && (({ s with net := [e] } : State).packetAt 0).isSome && (s.packetAt 0).isNone &&
      u.ctx.pcc.tag && (capCheck u.ctx.pcc [pX] u.pc 4 1).isNone && (walkLeaf u bootRoot u.pc).isSome && u.core.tlb.isEmpty &&
      u.ctlb.isEmpty && u.wcache.isEmpty && u.core.ic.isEmpty && u.bad.isEmpty && u.core.wpc == Vector.replicate 4 0 && u.reaches bootCode &&
      !u.held bootCode 2 && !u.held (bootCode + 2) 2) = true := by decide +kernel

/-- StepRunsDecoded: a cycle that the agenda gives a core, a cut before the next move, a line held where the core fetches, and commands
by packet at each port, one of them too late. -/
theorem witness_step_moves :
    let s := fetching
    let cmd (port : Nat) : Packet := { kind := 1, deid := 0x300 + port, seid := 5, handler := 1 }
    let given (port : Nat) : State := { s with agenda := [.deliver 0], net := [cmd port], portOne := true }
    let turn : State := { s with agenda := [.issue 0, .deliver 3] }
    let r := ((turn.cycleStart [.deliver 3]).focusOn 0).timer
    let held : State := { s with groups := [{ stack := 0, src := 5, grp := 7, st := .prepared, holding := true
                                              es := [{ place := bootCode, size := 8, data := 0, tag := false }] }] }
    let u := ((held.cycleStart []).timer).turnOf 0
    (r.turns == [0] && !r.stopDue && u.boundaryWork.isNone && (match fetchHere u with | .error .wait _ => true | _ => false) &&
      (given 0).tooLate (.deliver 0) && !(given 1).tooLate (.deliver 0) && (given 1).movePort (.deliver 0) == some 1 &&
      s.movePort (.event (.semacq 1)) == some 1 && s.movePort (.event (.semacq 0)) == some 0 && s.movePort (.cut 1) == none) = true := by
  decide +kernel
theorem test_cut_is_a_step : (nextOf (step { fetching with agenda := [.cut 3] })).map (fun t => (t.split, t.core.cyc == fetching.core.cyc)) =
    some (some 3, true) := by decide +kernel

/-- MemoryStaysCanonical and CoreSettingsStayLegal: the premises hold at the reset state, and a step follows. -/
theorem witness_invariants :
    (Memory.wf State.reset.mem && State.reset.allCores.all (fun c => decide (8 ≤ c.b0 ∧ c.b0 ≤ c.b1 ∧ c.b1 ≤ c.b2 ∧ c.b2 ≤ 254) &&
      (c.b2 - c.b1) % 4 == 0 && decide (1 ≤ c.rmode ∧ c.rmode ≤ 6)) && State.reset.jobs.isEmpty && (nextOf (step State.reset)).isSome) =
    true := by decide +kernel

/-- DecodeOfEncode: a well-formed instruction that a word encodes, and one that a halfword does. -/
theorem witness_decode_of_encode : ((Instr.add 2 5 6 7).wf && encode (.add 2 5 6 7) != [] && (Instr.lisShort 0 3 4).wf &&
    encode (.lisShort 0 3 4) != []) = true := by decide +kernel

/-! ### Words of the tables

One word of every instruction, laid out from the match and the fields of its row in the opcode table (04_encoding.md),
with operands that use high and low bits of each field. -/

theorem test_words32_1 : ([
    (0x6D2240B, .add 5 9 18 27),
    (0x16D2240B, .sub 5 9 18 27),
    (0x26D2240B, .andr 5 9 18 27),
    (0x36D2240B, .orr 5 9 18 27),
    (0x46D2240B, .xorr 5 9 18 27),
    (0x56D2240B, .andn 5 9 18 27),
    (0x66D2240B, .sll 5 9 18 27),
    (0x76D2240B, .srl 5 9 18 27),
    (0x86D2240B, .sra 5 9 18 27),
    (0x96D2240B, .slt 5 9 18 27),
    (0xA6D2240B, .sltu 5 9 18 27),
    (0xB6D2240B, .min 5 9 18 27),
    (0xC6D2240B, .max 5 9 18 27),
    (0xD6D2240B, .minu 5 9 18 27),
    (0xE6D2240B, .maxu 5 9 18 27),
    (0xF6D2240B, .sel 5 9 18 27),
    (0xB212241B, .addi 5 9 18 0x59),
    (0xB252241B, .andi 5 9 18 0x59),
    (0xB292241B, .ori 5 9 18 0x59),
    (0xB2D2241B, .xori 5 9 18 0x59)] : List (Nat × Instr)).all (fun x => decode32 x.1 == some x.2) = true := by
  decide +kernel

theorem test_words32_2 : ([
    (0xB312241B, .slli 5 9 18 0x59),
    (0xB352241B, .srli 5 9 18 0x59),
    (0xB392241B, .srai 5 9 18 0x59),
    (0xB3D2241B, .slti 5 9 18 0x59),
    (0x6D2242B, .mul 5 9 18 27),
    (0x16D2242B, .mulh 5 9 18 27),
    (0x26D2242B, .mulhu 5 9 18 27),
    (0x36D2242B, .div 5 9 18 27),
    (0x46D2242B, .divu 5 9 18 27),
    (0x56D2242B, .rem 5 9 18 27),
    (0x66D2242B, .remu 5 9 18 27),
    (0x7012242B, .clz 5 9 18),
    (0x8012242B, .ctz 5 9 18),
    (0x9012242B, .popc 5 9 18),
    (0xA012242B, .bswap 5 9 18),
    (0xB5E9243B, .lis 5 9 0xB5E9),
    (0xB5E9244B, .lik 5 9 0xB5E9),
    (0x12245B, .cmov 5 9 18),
    (0x16D2245B, .cinc 5 9 18 27),
    (0x26D2245B, .cseta 5 9 18 27)] : List (Nat × Instr)).all (fun x => decode32 x.1 == some x.2) = true := by
  decide +kernel

theorem test_words32_3 : ([
    (0x36D2245B, .csetb 5 9 18 27),
    (0x46D2245B, .csetbx 5 9 18 27),
    (0x56D2245B, .candp 5 9 18 27),
    (0x6052245B, .cgeta 5 9 18 1),
    (0x7052245B, .cgetb 5 9 18 1),
    (0x8052245B, .cgett 5 9 18 1),
    (0x9012245B, .cgetp 5 9 18),
    (0xA012245B, .cgettag 5 9 18),
    (0xB012245B, .cclrtag 5 9 18),
    (0xC6D2245B, .csub 5 9 18 27),
    (0xD6D2245B, .ctest 5 9 18 27),
    (0xB212246B, .cinci 5 9 18 0x59),
    (0xB252246B, .csetbi 5 9 18 0x59),
    (0xD298487B, .beq 5 18 0x1A53),
    (0xD299487B, .bne 5 18 0x1A53),
    (0xD29A487B, .blt 5 18 0x1A53),
    (0xD29B487B, .bge 5 18 0x1A53),
    (0xD29C487B, .ble 5 18 0x1A53),
    (0xD29D487B, .bgt 5 18 0x1A53),
    (0xD29E487B, .btag 5 18 0x1A53)] : List (Nat × Instr)).all (fun x => decode32 x.1 == some x.2) = true := by
  decide +kernel

theorem test_words32_4 : ([
    (0xD29F487B, .bntag 5 18 0x1A53),
    (0xB168E48B, .j 5 0x2C5A39),
    (0xB168E49B, .call 5 0x2C5A39),
    (0x1200AB, .jr 5 18),
    (0x101224AB, .callr 5 9 18),
    (0x201200AB, .ret 5 18),
    (0x301200AB, .lexit 5 18),
    (0x548BB, .loop 5 18 5),
    (0xA61224CB, .ldB 5 9 18 (-90)),
    (0xA63224CB, .ldBu 5 9 18 (-90)),
    (0xA65224CB, .ldH 5 9 18 (-90)),
    (0xA67224CB, .ldHu 5 9 18 (-90)),
    (0xA69224CB, .ldW 5 9 18 (-90)),
    (0xA6B224CB, .ldWu 5 9 18 (-90)),
    (0xA6D224CB, .ldD 5 9 18 (-90)),
    (0xA6F224CB, .ldC 5 9 18 (-90)),
    (0xA61224DB, .stB 5 9 18 (-90)),
    (0xA65224DB, .stH 5 9 18 (-90)),
    (0xA69224DB, .stW 5 9 18 (-90)),
    (0xA6D224DB, .stD 5 9 18 (-90))] : List (Nat × Instr)).all (fun x => decode32 x.1 == some x.2) = true := by
  decide +kernel

theorem test_words32_5 : ([
    (0xA6F224DB, .stC 5 9 18 (-90)),
    (0x6D224EB, .aaddD 5 9 18 27),
    (0x16D224EB, .aandD 5 9 18 27),
    (0x26D224EB, .aorD 5 9 18 27),
    (0x36D224EB, .axorD 5 9 18 27),
    (0x46D224EB, .aminD 5 9 18 27),
    (0x56D224EB, .amaxD 5 9 18 27),
    (0x66D224EB, .aminuD 5 9 18 27),
    (0x76D224EB, .amaxuD 5 9 18 27),
    (0x86D224EB, .aswapD 5 9 18 27),
    (0x96D224EB, .acasD 5 9 18 27),
    (0xA6D224EB, .afaddD 5 9 18 27),
    (0x6D224FB, .aaddW 5 9 18 27),
    (0x16D224FB, .aandW 5 9 18 27),
    (0x26D224FB, .aorW 5 9 18 27),
    (0x36D224FB, .axorW 5 9 18 27),
    (0x46D224FB, .aminW 5 9 18 27),
    (0x56D224FB, .amaxW 5 9 18 27),
    (0x66D224FB, .aminuW 5 9 18 27),
    (0x76D224FB, .amaxuW 5 9 18 27)] : List (Nat × Instr)).all (fun x => decode32 x.1 == some x.2) = true := by
  decide +kernel

theorem test_words32_6 : ([
    (0x86D224FB, .aswapW 5 9 18 27),
    (0x96D224FB, .acasW 5 9 18 27),
    (0xA6D224FB, .afaddW 5 9 18 27),
    (0xB6D224FB, .afaddbf 5 9 18 27),
    (0x940010B, .fence 5 37),
    (0x1000250B, .fencer 5 9),
    (0x26D2010B, .clean 5 18 27),
    (0x36D2010B, .inval 5 18 27),
    (0x4012250B, .waitj 5 9 18),
    (0x5012250B, .pollj 5 9 18),
    (0x6012010B, .sleep 5 18),
    (0x7000010B, .yield 5),
    (0x12A51B, .vld 5 41 18),
    (0x1012A51B, .vst 5 41 18),
    (0x26D2A51B, .vlds 5 41 18 27),
    (0x36D2A51B, .vsts 5 41 18 27),
    (0x48D2A51B, .vldx 5 41 18 35),
    (0x58D2A51B, .vstx 5 41 18 35),
    (0x66D2A51B, .vldt 5 41 18 27),
    (0x76D2A51B, .vstt 5 41 18 27)] : List (Nat × Instr)).all (fun x => decode32 x.1 == some x.2) = true := by
  decide +kernel

theorem test_words32_7 : ([
    (0x86D2191B, .sbind 5 6 18 27),
    (0x9000191B, .sunbind 5 6),
    (0xA6D2A51B, .vldb 5 41 18 27),
    (0x6D22D2B, .tpred 5 11 18 27),
    (0x16D2012B, .tvclr 5 18 27),
    (0x26D2012B, .tvset 5 18 27),
    (0x36D2012B, .thdr 5 18 27),
    (0x48D2252B, .gath 5 9 18 35),
    (0x58D2252B, .scat 5 9 18 35),
    (0x66D2252B, .gathst 5 9 18 27),
    (0x8F4A53B, .vsort 5 41 52 35),
    (0x18F4A53B, .vsortx 5 41 52 35),
    (0x28F4A53B, .vbstep 5 41 52 35),
    (0x38F4A53B, .vtopk 5 41 52 35),
    (0x48F4A53B, .vmergek 5 41 52 35),
    (0x5034A53B, .vrank 5 41 52),
    (0x6D2254B, .occfg 5 9 18 27),
    (0x1034254B, .ocemit 5 9 52),
    (0x28F4254B, .ocemiti 5 9 52 35),
    (0x3000A54B, .ocacc 5 41)] : List (Nat × Instr)).all (fun x => decode32 x.1 == some x.2) = true := by
  decide +kernel

theorem test_words32_8 : ([
    (0x4940254B, .ocstat 5 9 37),
    (0x5000014B, .ocrst 5),
    (0x68D2014B, .ocgw 5 18 35),
    (0x78D2014B, .ocga 5 18 35),
    (0x88D2014B, .ocgf 5 18 35),
    (0x940015B, .mmode 5 37),
    (0x18F4255B, .mop 5 9 52 35),
    (0x28F4255B, .msqd 5 9 52 35),
    (0x3940A55B, .mtopk 5 41 37),
    (0x46D2A55B, .accrd 5 41 18 27),
    (0x5000015B, .accz 5),
    (0x66D2255B, .mdrain 5 9 18 27),
    (0x7940015B, .mwait 5 37),
    (0x8034015B, .mnmb 5 52),
    (0x6D2256B, .cpy 5 9 18 27),
    (0x16D2256B, .cpy2d 5 9 18 27),
    (0x26D2256B, .cpyq 5 9 18 27),
    (0x36D2256B, .cpyx 5 9 18 27),
    (0x6D2017B, .tbegin 5 18 27),
    (0x1012017B, .trec 5 18)] : List (Nat × Instr)).all (fun x => decode32 x.1 == some x.2) = true := by
  decide +kernel

theorem test_words32_9 : ([
    (0x2012017B, .trecb 5 18),
    (0x3974017B, .trecv 5 52 37),
    (0x4000257B, .tend 5 9),
    (0x56D2017B, .tplay 5 18 27),
    (0x6940257B, .tpop 5 9 37),
    (0x7000257B, .tpopb 5 9),
    (0x8940A57B, .tpopv 5 41 37),
    (0x9940257B, .tstat 5 9 37),
    (0x6D2258B, .send 5 9 18 27),
    (0x16D2258B, .tenq 5 9 18 27),
    (0x26D2258B, .rfork 5 9 18 27),
    (0x3012018B, .join 5 18),
    (0x46D2258B, .tbind 5 9 18 27),
    (0x5012258B, .tunbind 5 9 18),
    (0x66D2258B, .tfire 5 9 18 27),
    (0x76D2258B, .chopen 5 9 18 27),
    (0x8012018B, .chclose 5 18),
    (0x96D2258B, .chsend 5 9 18 27),
    (0xA6D2258B, .chrecv 5 9 18 27),
    (0xB000018B, .exit 5)] : List (Nat × Instr)).all (fun x => decode32 x.1 == some x.2) = true := by
  decide +kernel

theorem test_words32_10 : ([
    (0x6D2259B, .hstart 5 9 18 27),
    (0x1012019B, .hstop 5 18),
    (0x26D2259B, .hstat 5 9 18 27),
    (0x36D2019B, .bari 5 18 27),
    (0x46D2259B, .bara 5 9 18 27),
    (0x56D2259B, .barad 5 9 18 27),
    (0x66D2259B, .barw 5 9 18 27),
    (0x76D2259B, .baraw 5 9 18 27),
    (0x6D225AB, .rld 5 9 18 27),
    (0x16D225AB, .rst 5 9 18 27),
    (0x26D225AB, .ramo 5 9 18 27),
    (0x36D225AB, .gst 5 9 18 27),
    (0x401225AB, .gcommit 5 9 18),
    (0x501201AB, .gabort 5 18),
    (0x601225AB, .gcstat 5 9 18),
    (0x701225AB, .gwait 5 9 18),
    (0x8D225BB, .nred 5 9 18 35),
    (0x1012A5BB, .nredw 5 41 18),
    (0xA9325CB, .srd 5 9 0xA93),
    (0x1A9325CB, .swr 5 9 0xA93)] : List (Nat × Instr)).all (fun x => decode32 x.1 == some x.2) = true := by
  decide +kernel

theorem test_words32_11 : ([
    (0x2A9301CB, .trap 5 0xA93),
    (0x300001CB, .eret 5),
    (0x4A9301CB, .brk 5 0xA93),
    (0x500025CB, .time 5 9),
    (0x600001CB, .halt 5),
    (0x76D225CB, .cancel 5 9 18 27),
    (0x6F425DB, .vmovs 5 9 52 27),
    (0x1012A5DB, .vmovx 5 41 18),
    (0x26D2A5DB, .vins 5 41 18 27),
    (0x301219DB, .mset 5 6 18),
    (0x400325DB, .mget 5 9 3),
    (0x50122DDB, .gset 5 11 18),
    (0x600D25DB, .gget 5 9 13),
    (0x701219DB, .oset 5 6 18),
    (0x800325DB, .oget 5 9 3),
    (0xD2980DEB, .bmany 5 3 0x1A53),
    (0xD2990DEB, .bmnone 5 3 0x1A53),
    (0xD29A0DEB, .bmall 5 3 0x1A53),
    (0xD29B35EB, .bgds 5 13 0x1A53),
    (0xD29C35EB, .bgdc 5 13 0x1A53)] : List (Nat × Instr)).all (fun x => decode32 x.1 == some x.2) = true := by
  decide +kernel

theorem test_words32_12 : ([
    (0x38F4A60B, .vadd 5 41 52 35 3),
    (0xB8F4A60B, .vsub 5 41 52 35 3),
    (0x38F4A61B, .vmul 5 41 52 35 3),
    (0xB8F4A61B, .vmulh 5 41 52 35 3),
    (0x38F4A62B, .vfma 5 41 52 35 3),
    (0xB8F4A62B, .vfms 5 41 52 35 3),
    (0x38F4A63B, .vmin 5 41 52 35 3),
    (0xB8F4A63B, .vmax 5 41 52 35 3),
    (0x38F4A64B, .vand 5 41 52 35 3),
    (0xB8F4A64B, .vor 5 41 52 35 3),
    (0x38F4A65B, .vxor 5 41 52 35 3),
    (0xB8F4A65B, .vandn 5 41 52 35 3),
    (0x38F4A66B, .vsll 5 41 52 35 3),
    (0xB8F4A66B, .vsrl 5 41 52 35 3),
    (0x38F4A67B, .vsra 5 41 52 35 3),
    (0xB8F4A67B, .vrol 5 41 52 35 3),
    (0x38F41A8B, .vceq 5 6 52 35 3),
    (0xB8F41A8B, .vcne 5 6 52 35 3),
    (0x38F41A9B, .vclt 5 6 52 35 3),
    (0xB8F41A9B, .vcle 5 6 52 35 3)] : List (Nat × Instr)).all (fun x => decode32 x.1 == some x.2) = true := by
  decide +kernel

theorem test_words32_13 : ([
    (0x3034A6AB, .vcvt 5 41 52 3),
    (0xB8F4A6AB, .vcvts 5 41 52 35 3),
    (0x8F4A6BB, .vpack 5 41 52 35),
    (0x88F4A6BB, .vunpk 5 41 52 35),
    (0x38F4A6CB, .vperm 5 41 52 35 3),
    (0xB8F4A6CB, .vshuf 5 41 52 35 3),
    (0x38F4A6DB, .vsldu 5 41 52 35 3),
    (0xB8F4A6DB, .vsldd 5 41 52 35 3),
    (0x38F4A6EB, .vrsum 5 41 52 35 3),
    (0xB8F4A6EB, .vrmax 5 41 52 35 3),
    (0x38F4A6FB, .vrmin 5 41 52 35 3),
    (0xB8F4A6FB, .vramax 5 41 52 35 3),
    (0x38F4A70B, .vmrg 5 41 52 35 3),
    (0xB034A70B, .vcmpr 5 41 52 3),
    (0x3034A71B, .vabs 5 41 52 3),
    (0xB034A71B, .vneg 5 41 52 3),
    (0x38F4A72B, .vdiv 5 41 52 35 3),
    (0xB034A72B, .vsqrt 5 41 52 3),
    (0x3034A73B, .vexp2 5 41 52 3),
    (0xB034A73B, .vlog2 5 41 52 3)] : List (Nat × Instr)).all (fun x => decode32 x.1 == some x.2) = true := by
  decide +kernel

theorem test_words32_14 : ([
    (0x38F4A74B, .vdot4 5 41 52 35 3),
    (0xB8F4A74B, .vsad 5 41 52 35 3),
    (0x3000A75B, .viota 5 41 3),
    (0xB000A75B, .vmcnt 5 41 3),
    (0x3034A76B, .vclz 5 41 52 3),
    (0xB034A76B, .vpopc 5 41 52 3),
    (0x38F4A77B, .vscl 5 41 52 35 3),
    (0xB034A77B, .vmov 5 41 52 3)] : List (Nat × Instr)).all (fun x => decode32 x.1 == some x.2) = true := by
  decide +kernel

theorem test_words16_1 : ([
    (0x6B04, .addShort 2 11 6),
    (0x6B0C, .subShort 2 11 6),
    (0x6B14, .andShort 2 11 6),
    (0x6B1C, .orShort 2 11 6),
    (0x6B24, .xorShort 2 11 6),
    (0x6B2C, .cmovShort 2 11 6),
    (0x6B34, .addiShort 2 11 6),
    (0x6B3C, .slliShort 2 11 6),
    (0x6B44, .srliShort 2 11 6),
    (0x6B4C, .sraiShort 2 11 6),
    (0x6B54, .lisShort 2 11 6),
    (0x6B5C, .cinciShort 2 11 6),
    (0x6B64, .ldDShort 2 11 6),
    (0x6B6C, .stDShort 2 11 6),
    (0x6B74, .ldWShort 2 11 6),
    (0x6B7C, .stWShort 2 11 6),
    (0x6B84, .ldDC2Short 2 11 6),
    (0x6B8C, .stDC2Short 2 11 6),
    (0x6B94, .ldCC2Short 2 11 6),
    (0x6B9C, .stCC2Short 2 11 6)] : List (Nat × Instr)).all (fun x => decode16 x.1 == some x.2) = true := by
  decide +kernel

theorem test_words16_2 : ([
    (0x6BA4, .beqShort 2 11 6),
    (0x6BAC, .bneShort 2 11 6),
    (0xB5B4, .jShort 2 0xB5),
    (0xBBC, .retShort 2 11),
    (0xBC4, .callrShort 2 11),
    (0x6BCC, .vaddShort 2 11 6),
    (0x6BD4, .vmulShort 2 11 6),
    (0x6BDC, .vmovShort 2 11 6),
    (0xE4, .yieldShort 2),
    (0xBEC, .waitjShort 2 11),
    (0xF4, .exitShort 2),
    (0x3BFC, .loopShort 2 11 3)] : List (Nat × Instr)).all (fun x => decode16 x.1 == some x.2) = true := by
  decide +kernel

/-! ### Ill-formed terms (R77, R16, R293, R294, R411)

Each check of `Instr.wf` refuses a term just outside its range and takes one just inside. -/

theorem test_wf_operands : ([
    .ldB 1 2 3 128, .ldBu 1 2 3 (-129), .ldH 1 2 3 128, .ldHu 1 2 3 128, .ldW 1 2 3 (-129), .ldWu 1 2 3 128, .ldD 1 2 3 128,
    .ldC 1 2 3 (-129), .stB 1 2 3 128, .stH 1 2 3 (-129), .stW 1 2 3 128, .stD 1 2 3 128, .stC 1 2 3 128, .fence 1 64,
    .ocstat 1 2 64, .mmode 1 64, .mtopk 1 2 64, .mwait 1 64, .trecv 1 2 64, .tpop 1 2 64, .tpopv 1 2 64,
    .tstat 1 2 64] : List Instr).all (fun i => !i.wf) = true ∧
    ([.ldB 1 2 3 127, .stC 1 2 3 (-128), .fence 1 63, .tstat 1 2 63] : List Instr).all Instr.wf = true := by decide +kernel

theorem test_wf_units : ([
    .trapEntry 256, .tcmpMatch 4096, .sleepWake 0 11, .matrixStep 1023, .drainCapture 256, .copyBurst 5120 0,
    .gatherComplete 256 0, .taskDispatch 256, .stealRound 256, .stealAttempt 256, .gangStop 256, .leaseExpiry 256 0,
    .eccUe 256, .barrierRetry 0 11, .gwaitTimeLimit 256 0, .gwaitQueryRepeat 0 11, .variableLatencyResult 0 11 0,
    .spillWrite 256, .chunkFetch 256, .stagingTimeout 8 0 0, .inDoubtTimer 8 0 0, .sbresolveTimeout 8,
    .replayRequest 16 0, .linkReplayLimit 16, .linkFailure 16, .linkRetrainDone 16, .syncTick 16, .thermalThrottle 4,
    .thermalShutdown 4, .partJoin (.die 4), .partJoin (.stack 8), .partJoin (.link 16), .ident 2, .semacq 2, .semrel 2,
    .semaphoreLoss 2, .dieon 2 0, .sblost 2 0] : List Instr).all (fun i => !i.wf) = true ∧
    ([.trapEntry 3327, .sleepWake 255 10, .stagingTimeout 7 0 0, .syncTick 15, .partJoin (.die 3),
      .ident 1] : List Instr).all Instr.wf = true := by decide +kernel

theorem test_wf_packets : ([
    .rload { kind := 64 }, .rstore { deid := 2 ^ 24 }, .ratomic { seid := 2 ^ 24 }, .demand { pseq := 2 ^ 16 },
    .grant { asid := 2 ^ 16 }, .reply { otag := 2 ^ 16 }, .flit 16 ⟨List.replicate 56 0, 0, 0, 0, 0⟩,
    .flit 0 ⟨[], 0, 0, 0, 0⟩, .flit 0 ⟨List.replicate 56 0, 2 ^ 12, 0, 0, 0⟩, .flit 0 ⟨List.replicate 56 0, 0, 16, 0, 0⟩,
    .flit 0 ⟨List.replicate 56 0, 0, 0, 2 ^ 12, 0⟩,
    .flit 0 ⟨List.replicate 56 0, 0, 0, 0, 2 ^ 32⟩] : List Instr).all (fun i => !i.wf) = true ∧
    ([.rload {}, .flit 15 ⟨List.replicate 56 0, 4095, 15, 4095, 0xFFFFFFFF⟩] : List Instr).all Instr.wf = true := by
  decide +kernel

end Sys2Proof.Tests
end

section
/-! PROOFS. Scalar work and control transfers: what the shared operations of these instructions answer where they may issue,
the exact values of the word operations, and the statements about them. -/

namespace Sys2Proof.Proofs

open Sys2Proof Sys2Proof.Machine Sys2Proof.Laws

set_option Elab.async false

/-! ### Instructions that write one c register (R90, R108, R116) -/

/-- An instruction whose operation is one write to a c register, of a value computed from the state it issues in. -/
theorem issue_writesC {s : State} {g : Gate} {d : Fin 32} (f : State → Cap) (h : s.CanIssue g.reads)
    (hi : g.ill = false) (ha : g.acc = none) : WritesC s (issue g (upd fun s => s.wc d (f s)) s) d (f s) :=
  writesC_of (issue_retires h hi ha (upd_run _ s))

theorem scalar2_writesC {s : State} {st : Nat} {d a b : Fin 32} {ill : Bool} {f : Word → Word → Word} {v : Word}
    (h : s.CanIssue [rdC a, rdC b]) (hi : ill = false) (hv : f (s.rx a) (s.rx b) = v) :
    WritesC s (scalar2 st d a b ill f s) d (scalar v) := by
  subst hv
  exact issue_writesC (fun s => scalar (f (s.rx a) (s.rx b))) h hi rfl

theorem scalarI_writesC {s : State} {st : Nat} {d a : Fin 32} {ill : Bool} {f : Word → Word} {v : Word}
    (h : s.CanIssue [rdC a]) (hi : ill = false) (hv : f (s.rx a) = v) :
    WritesC s (scalarI st d a ill f s) d (scalar v) := by
  subst hv
  exact issue_writesC (fun s => scalar (f (s.rx a))) h hi rfl

theorem loadConst_writesC {s : State} {st : Nat} {d : Fin 32} {c v : Word} (h : s.CanIssue []) (hv : c = v) :
    WritesC s (loadConst st d c s) d (scalar v) := by
  subst hv
  exact issue_writesC (fun _ => scalar c) h rfl rfl

theorem derive1_writesC {s : State} {st : Nat} {d a : Fin 32} {ill : Bool} {f : Cap → Cap} {v : Cap}
    (h : s.CanIssue [rdC a]) (hi : ill = false) (hv : f (s.rc a) = v) : WritesC s (derive1 st d a ill f s) d v := by
  subst hv
  exact issue_writesC (fun s => f (s.rc a)) h hi rfl

/-- An ILLEGAL of decoding raises its cause with the instruction's word (R87, R90). -/
theorem issue_traps_illegal {s : State} {g : Gate} (body : Op Unit) (h : (s.helper && s.ctx.stopReq) = false)
    (hi : g.ill = true) : Traps s (issue g body s) .illegal (s.ctx.ir.zeroExtend 80) :=
  issue_illegal body h hi

/-! ### Word operations as exact arithmetic (R117, R119, R121) -/

theorem shl_eq (x : Word) (n : Nat) : shl x n = BitVec.ofNat 64 (x.toNat * 2 ^ n) := by
  apply BitVec.eq_of_toNat_eq
  rw [shl, BitVec.toNat_shiftLeft, Nat.shiftLeft_eq, BitVec.toNat_ofNat]

theorem shr_eq (x : Word) (n : Nat) : shr x n = BitVec.ofNat 64 (x.toNat / 2 ^ n) := by
  have hlt : x.toNat / 2 ^ n < 2 ^ 64 := (Nat.div_le_self _ _).trans_lt x.isLt
  apply BitVec.eq_of_toNat_eq
  rw [shr, BitVec.toNat_ushiftRight, Nat.shiftRight_eq_div_pow, BitVec.toNat_ofNat, Nat.mod_eq_of_lt hlt]

theorem sar_eq (x : Word) (n : Nat) : sar x n = BitVec.ofInt 64 (x.toInt / 2 ^ n) := by
  have h : (sar x n).toInt = x.toInt / 2 ^ n := by
    rw [sar, BitVec.toInt_sshiftRight, Int.shiftRight_eq_div_pow, Nat.cast_pow, Nat.cast_ofNat]
  rw [← h, BitVec.ofInt_toInt]

theorem wb_slt (x y : Word) : wb (x.slt y) = if x.toInt < y.toInt then 1 else 0 := by
  simp [wb, BitVec.slt]

theorem wb_ult (x y : Word) : wb (x.ult y) = if x.toNat < y.toNat then 1 else 0 := by
  simp [wb, BitVec.ult]

theorem min_signed (x y : Word) : (if x.slt y then x else y) = BitVec.ofInt 64 (Min.min x.toInt y.toInt) := by
  by_cases h : x.toInt < y.toInt
  · rw [if_pos (BitVec.slt_iff_toInt_lt.mpr h), min_eq_left h.le, BitVec.ofInt_toInt]
  · rw [if_neg (mt BitVec.slt_iff_toInt_lt.mp h), min_eq_right (not_lt.mp h), BitVec.ofInt_toInt]

theorem max_signed (x y : Word) : (if x.slt y then y else x) = BitVec.ofInt 64 (Max.max x.toInt y.toInt) := by
  by_cases h : x.toInt < y.toInt
  · rw [if_pos (BitVec.slt_iff_toInt_lt.mpr h), max_eq_right h.le, BitVec.ofInt_toInt]
  · rw [if_neg (mt BitVec.slt_iff_toInt_lt.mp h), max_eq_left (not_lt.mp h), BitVec.ofInt_toInt]

theorem min_unsigned (x y : Word) : (if x.ult y then x else y) = BitVec.ofNat 64 (Min.min x.toNat y.toNat) := by
  by_cases h : x.toNat < y.toNat
  · rw [if_pos (BitVec.ult_iff_toNat_lt.mpr h), min_eq_left h.le, BitVec.ofNat_toNat, BitVec.setWidth_eq]
  · rw [if_neg (mt BitVec.ult_iff_toNat_lt.mp h), min_eq_right (not_lt.mp h), BitVec.ofNat_toNat, BitVec.setWidth_eq]

theorem max_unsigned (x y : Word) : (if x.ult y then y else x) = BitVec.ofNat 64 (Max.max x.toNat y.toNat) := by
  by_cases h : x.toNat < y.toNat
  · rw [if_pos (BitVec.ult_iff_toNat_lt.mpr h), max_eq_right h.le, BitVec.ofNat_toNat, BitVec.setWidth_eq]
  · rw [if_neg (mt BitVec.ult_iff_toNat_lt.mp h), max_eq_left (not_lt.mp h), BitVec.ofNat_toNat, BitVec.setWidth_eq]

/-! ### Major 0x00 (R117, R118) -/

/-- SEL reads its destination as the condition (R118). -/
theorem sel_writesC {s : State} {st : Fin 8} {d a b : Fin 32} (h : s.CanIssue [rdC d, rdC a, rdC b]) :
    WritesC s (execSel st d a b s) d (if s.rx d = 0 then s.rc b else s.rc a) := by
  have hw := issue_writesC (d := d) (g := { st := st.val, reads := [rdC d, rdC a, rdC b] })
    (fun s => if s.rx d ≠ 0 then s.rc a else s.rc b) h rfl rfl
  rwa [ite_not] at hw

/-- Settles O1: each function is its shared operation, which writes one register, with its value in exact arithmetic. -/
theorem scalarResults : Obligations.ScalarResults := by
  intro s st d a b h x y r
  exact ⟨(scalar2_writesC h rfl rfl : WritesC s (execAdd st d a b s) d _),
    (scalar2_writesC h rfl rfl : WritesC s (execSub st d a b s) d _),
    (scalar2_writesC h rfl rfl : WritesC s (execAndr st d a b s) d _),
    (scalar2_writesC h rfl rfl : WritesC s (execOrr st d a b s) d _),
    (scalar2_writesC h rfl rfl : WritesC s (execXorr st d a b s) d _),
    (scalar2_writesC h rfl rfl : WritesC s (execAndn st d a b s) d _),
    (scalar2_writesC h rfl (shl_eq x _) : WritesC s (execSll st d a b s) d _),
    (scalar2_writesC h rfl (shr_eq x _) : WritesC s (execSrl st d a b s) d _),
    (scalar2_writesC h rfl (sar_eq x _) : WritesC s (execSra st d a b s) d _),
    (scalar2_writesC h rfl (wb_slt x y) : WritesC s (execSlt st d a b s) d _),
    (scalar2_writesC h rfl (wb_ult x y) : WritesC s (execSltu st d a b s) d _),
    (scalar2_writesC h rfl (min_signed x y) : WritesC s (execMin st d a b s) d _),
    (scalar2_writesC h rfl (max_signed x y) : WritesC s (execMax st d a b s) d _),
    (scalar2_writesC h rfl (min_unsigned x y) : WritesC s (execMinu st d a b s) d _),
    (scalar2_writesC h rfl (max_unsigned x y) : WritesC s (execMaxu st d a b s) d _),
    sel_writesC⟩

/-! ### Majors 0x01 and 0x04 and the short forms (R89, R119, R121) -/

theorem add_imm7 (x : Word) (i : BitVec 7) : x + imm7 i = BitVec.ofInt 64 (x.toInt + i.toInt) := by
  rw [BitVec.ofInt_add, BitVec.ofInt_toInt]
  rfl

theorem wb_slt_imm7 (x : Word) (i : BitVec 7) : wb (x.slt (imm7 i)) = if x.toInt < i.toInt then 1 else 0 := by
  rw [wb_slt, imm7, BitVec.toInt_signExtend_of_le (by decide)]

/-- LIK's OR is an addition: the 16 bits it puts in are clear after the shift (R121). -/
theorem shiftLeft_or_low (x : Word) (k : BitVec 16) :
    x <<< 16 ||| k.zeroExtend 64 = BitVec.ofNat 64 (x.toNat * 65536 + k.toNat) := by
  have hk : (k.zeroExtend 64).toNat = k.toNat := BitVec.toNat_setWidth_of_le (by decide)
  have hx : x.toNat <<< 16 % 2 ^ 64 = (x.toNat % 2 ^ 48) <<< 16 := by
    rw [Nat.shiftLeft_eq, Nat.shiftLeft_eq]
    omega
  apply BitVec.eq_of_toNat_eq
  rw [BitVec.toNat_or, BitVec.toNat_shiftLeft, hk, hx, ← Nat.shiftLeft_add_eq_or_of_lt k.isLt, Nat.shiftLeft_eq,
    BitVec.toNat_ofNat]
  omega

theorem toInt_sx7 (y : Fin 16) : (sx7 y).toInt = sextNat 4 y.val := by
  revert y
  decide

theorem signExtend_sx16 (y : Fin 16) : (sx16 y).signExtend 64 = BitVec.ofInt 64 (sextNat 4 y.val) := by
  revert y
  decide

/-- A shift by a negative amount raises ILLEGAL (R119). -/
theorem shiftI_traps {s : State} {st : Nat} {d a : Fin 32} {i : BitVec 7} {f : Word → Word}
    (h : (s.helper && s.ctx.stopReq) = false) (hi : i.msb = true) :
    Traps s (scalarI st d a i.msb f s) .illegal (s.ctx.ir.zeroExtend 80) :=
  issue_traps_illegal _ h hi

/-- Settles O2: as O1, with the immediate and the fields of a short form as numbers. The signed y of a short form is
`sextNat 4 y`. -/
theorem immediatesAndShortForms : Obligations.ImmediatesAndShortForms := by
  refine ⟨fun s st d a i k => ?_, fun s st x y => ?_⟩
  · intro x r
    refine ⟨fun h => ?_, fun hi h => ?_, fun h => ?_, fun h => ?_⟩
    · exact ⟨(scalarI_writesC h rfl (add_imm7 x i) : WritesC s (execAddi st d a i s) d _),
        (scalarI_writesC h rfl rfl : WritesC s (execAndi st d a i s) d _),
        (scalarI_writesC h rfl rfl : WritesC s (execOri st d a i s) d _),
        (scalarI_writesC h rfl rfl : WritesC s (execXori st d a i s) d _),
        (scalarI_writesC h rfl (wb_slt_imm7 x i) : WritesC s (execSlti st d a i s) d _),
        fun hi => ⟨(scalarI_writesC h hi (shl_eq x _) : WritesC s (execSlli st d a i s) d _),
          (scalarI_writesC h hi (shr_eq x _) : WritesC s (execSrli st d a i s) d _),
          (scalarI_writesC h hi (sar_eq x _) : WritesC s (execSrai st d a i s) d _)⟩⟩
    · simp only [List.mem_cons, List.not_mem_nil, or_false]
      rintro n (rfl | rfl | rfl)
      · exact (shiftI_traps h hi : Traps s (execSlli st d a i s) _ _)
      · exact (shiftI_traps h hi : Traps s (execSrli st d a i s) _ _)
      · exact (shiftI_traps h hi : Traps s (execSrai st d a i s) _ _)
    · exact (loadConst_writesC h rfl : WritesC s (execLis st d k s) d _)
    · exact (scalarI_writesC h rfl (shiftLeft_or_low _ k) : WritesC s (execLik st d k s) d _)
  · intro d b vx vy k r
    refine ⟨fun h => ?_, fun hx h => ?_, fun h => ?_, fun h => ?_, fun h => ?_⟩
    · exact ⟨fun hx => (scalar2_writesC h (decide_eq_false hx) rfl : WritesC s (execAddShort st x y s) d _),
        (scalar2_writesC h rfl rfl : WritesC s (execSubShort st x y s) d _),
        (scalar2_writesC h rfl rfl : WritesC s (execAndShort st x y s) d _),
        (scalar2_writesC h rfl rfl : WritesC s (execOrShort st x y s) d _),
        (scalar2_writesC h rfl rfl : WritesC s (execXorShort st x y s) d _)⟩
    · exact (issue_traps_illegal _ h (decide_eq_true hx) : Traps s (execAddShort st x y s) _ _)
    · have haddi : vx + imm7 (sx7 y) = BitVec.ofInt 64 (vx.toInt + k) := by
        rw [add_imm7, toInt_sx7]
        rfl
      exact ⟨(scalarI_writesC h rfl haddi : WritesC s (execAddiShort st x y s) d _),
        (scalarI_writesC h rfl (shl_eq vx _) : WritesC s (execSlliShort st x y s) d _),
        (scalarI_writesC h rfl (shr_eq vx _) : WritesC s (execSrliShort st x y s) d _),
        (scalarI_writesC h rfl (sar_eq vx _) : WritesC s (execSraiShort st x y s) d _),
        (derive1_writesC h rfl rfl : WritesC s (execCinciShort st x y s) d _)⟩
    · exact (derive1_writesC h rfl rfl : WritesC s (execCmovShort st x y s) d _)
    · exact (loadConst_writesC h (signExtend_sx16 y) : WritesC s (execLisShort st x y s) d _)

/-! ### Control transfers: the places they go to (R113, R125, R126, R128) -/

theorem addr80_lt (t : Int) : addr80 t < 2 ^ 80 := by
  unfold addr80
  omega

theorem addr80_natCast {n : Nat} (h : n < 2 ^ 80) : addr80 n = n := by
  unfold addr80
  omega

theorem toNat_ofNat_addr80 (t : Int) : (BitVec.ofNat 80 (addr80 t)).toNat = addr80 t := by
  rw [BitVec.toNat_ofNat, Nat.mod_eq_of_lt (addr80_lt t)]

theorem setCtx_ctx (s : State) : s.setCtx s.ctx = s := by
  simp [State.setCtx, State.ctx]

theorem setCtx_setCtx (s : State) (x y : Ctx) : (s.setCtx x).setCtx y = s.setCtx y := by
  simp [State.setCtx]

/-- Whether a halfword fits at a target inside a capability's bounds (R125). -/
def Inside (c : Cap) (t : Int) : Prop := capBase c ≤ t ∧ t + 2 ≤ capTop c

theorem Inside.test {c : Cap} {t : Int} (h : Inside c t) :
    (decide (capBase c ≤ t) && decide (t + 2 ≤ capTop c)) = true := by
  rw [← Bool.decide_and]
  exact decide_eq_true h

theorem test_outside {c : Cap} {t : Int} (h : ¬ Inside c t) :
    (decide (capBase c ≤ t) && decide (t + 2 ≤ capTop c)) = false := by
  rw [← Bool.decide_and]
  exact decide_eq_false h

/-- The issuing context with its next address at a target. -/
def toward (x : Ctx) (t : Int) : Ctx := { x with npc := BitVec.ofNat 80 (addr80 t) }

theorem toward_npc (x : Ctx) (t : Int) : (toward x t).npc.toNat = addr80 t := toNat_ofNat_addr80 t

theorem goTo_inside {s : State} {t : Int} (h : Inside s.ctx.pcc t) : goTo t s = .ok () (s.setCtx (toward s.ctx t)) := by
  unfold goTo
  rw [bind_ok (get_run s), h.test]
  rfl

theorem goTo_outside {s : State} {t : Int} (h : ¬ Inside s.ctx.pcc t) :
    goTo t s = .error (.trap ⟨.capBounds, tvalOf t⟩) s := by
  unfold goTo
  rw [bind_ok (get_run s), test_outside h]
  rfl

/-- The operation of a conditional branch. -/
def branchBody (cond : State → Bool) (off : Int) : Op Unit := do
  if cond (← get) then goTo ((← get).rel off) else pure ()

section Branches

variable {s : State} {st : Nat} {ill : Bool} {reads : List (RegFile × Nat)} {cond : State → Bool} {off : Int}

theorem branch_eq : branch st ill reads cond off s =
    issue { st := st, ill := ill || s.ctx.loop.lact, reads := reads } (branchBody cond off) s := rfl

theorem branchBody_untaken (hc : cond s = false) : branchBody cond off s = .ok () (s.setCtx s.ctx) := by
  unfold branchBody
  rw [bind_ok (get_run s), hc, setCtx_ctx]
  rfl

theorem branchBody_taken (hc : cond s = true) : branchBody cond off s = goTo (s.rel off) s := by
  unfold branchBody
  rw [bind_ok (get_run s), hc]
  rfl

variable (h : s.CanIssue reads) (hl : s.ctx.loop.lact = false) (hi : ill = false)
include h hl hi

/-- An untaken branch goes on behind itself, whatever its target (R125, R126). -/
theorem branch_untaken (hc : cond s = false) :
    JumpsTo s (branch st ill reads cond off s) (capMove s.ctx.pcc s.ctx.npc.toNat) s.ctx.loop := by
  rw [branch_eq]
  exact jumpsTo_of (issue_retires h (by simp [hl, hi]) rfl (branchBody_untaken hc)) (by simp [hl]) rfl rfl

theorem branch_taken (hc : cond s = true) (ht : Inside s.ctx.pcc (s.rel off)) :
    JumpsTo s (branch st ill reads cond off s) (capMove s.ctx.pcc (addr80 (s.rel off))) s.ctx.loop := by
  rw [branch_eq, ← toward_npc s.ctx]
  have hb := (branchBody_taken hc).trans (goTo_inside ht)
  exact jumpsTo_of (issue_retires h (by simp [hl, hi]) rfl hb) (by simp [hl]) rfl rfl

theorem branch_outside (hc : cond s = true) (ht : ¬ Inside s.ctx.pcc (s.rel off)) :
    Traps s (branch st ill reads cond off s) .capBounds (tvalOf (s.rel off)) := by
  rw [branch_eq]
  exact issue_traps h (by simp [hl, hi]) rfl ((branchBody_taken hc).trans (goTo_outside ht))

end Branches

/-- What a conditional branch answers (R125, R126): it goes on where it is not taken, and otherwise to its target or, where that
is outside PCC, nowhere. -/
def Branches (s : State) (o : Host.Outcome State Fault Refusal) (off : Int) (taken : Prop) : Prop :=
  (¬ taken → JumpsTo s o (capMove s.ctx.pcc s.ctx.npc.toNat) s.ctx.loop) ∧
  (taken → Inside s.ctx.pcc (s.rel off) → JumpsTo s o (capMove s.ctx.pcc (addr80 (s.rel off))) s.ctx.loop) ∧
  (taken → ¬ Inside s.ctx.pcc (s.rel off) → Traps s o .capBounds (tvalOf (s.rel off)))

theorem branch_branches {s : State} {st : Nat} {ill : Bool} {reads : List (RegFile × Nat)} {cond : State → Bool} {off : Int}
    {taken : Prop} (hl : s.ctx.loop.lact = false) (hi : ill = false) (hc : cond s = true ↔ taken) (h : s.CanIssue reads) :
    Branches s (branch st ill reads cond off s) off taken :=
  ⟨fun ht => branch_untaken h hl hi (Bool.eq_false_iff.mpr (mt hc.mp ht)), fun ht => branch_taken h hl hi (hc.mpr ht),
    fun ht => branch_outside h hl hi (hc.mpr ht)⟩

theorem branchC_branches {s : State} {st : Nat} {a : Fin 32} {cond : Cap → Bool} {off : Int} {taken : Prop}
    (hl : s.ctx.loop.lact = false) (hc : cond (s.rc a) = true ↔ taken) (h : s.CanIssue [rdC a]) :
    Branches s (branchC st a cond off s) off taken :=
  branch_branches hl rfl hc h

/-! ### The conditions of c and mask registers (R126, R127) -/

theorem capInt_eq_zero_iff (s : State) (a : Fin 32) : capInt (s.rc a) = 0 ↔ s.rx a = 0 := by
  show (s.rx a).toInt = 0 ↔ _
  rw [← BitVec.toInt_inj]
  rfl

theorem eq_zero_iff_lanes (m : BitVec 32) : m = 0 ↔ ∀ i : Fin 32, m.getLsbD i = false := by
  refine ⟨fun h i => by simp [h], fun h => BitVec.eq_of_getLsbD_eq fun i hi => ?_⟩
  rw [h ⟨i, hi⟩, BitVec.ofNat_eq_ofNat, BitVec.getLsbD_zero]

theorem eq_allOnes_iff_lanes (m : BitVec 32) : m = BitVec.allOnes 32 ↔ ∀ i : Fin 32, m.getLsbD i = true := by
  refine ⟨fun h i => ?_, fun h => BitVec.eq_of_getLsbD_eq fun i hi => ?_⟩
  · rw [h, BitVec.getLsbD_allOnes, decide_eq_true i.isLt]
  · rw [h ⟨i, hi⟩, BitVec.getLsbD_allOnes, decide_eq_true hi]

theorem ne_zero_iff_lanes (m : BitVec 32) : m ≠ 0 ↔ ∃ i : Fin 32, m.getLsbD i = true := by
  rw [Ne, eq_zero_iff_lanes, not_forall]
  simp only [Bool.not_eq_false]

/-! ### PCC taken from a register (R125, R129) -/

/-- A capability that execution may be handed to (R111, R125). -/
def Enterable (c : Cap) : Prop :=
  c.tag = true ∧ capE c ≤ 50 ∧ capHas c 11 = false ∧ capHas c pX = true ∧ capBase c ≤ capA c ∧
    (capA c : Int) + 2 ≤ capTop c ∧ capA c % 2 = 0

section JumpChecks

variable {c : Cap}

theorem jumpCheck_untagged (h : c.tag = false) : capCheck c [pX] (capA c) 2 2 = some .capTag := by
  simp [capCheck, capValid, h]

theorem jumpCheck_noX (hv : capValid c = true) (hx : capHas c pX = false) :
    capCheck c [pX] (capA c) 2 2 = some .capPerm := by
  simp [capCheck, capHasAll, hv, hx]

/-- Behind tag and permission the checks are those of bounds and of alignment. -/
theorem jumpCheck_valid (hv : capValid c = true) (hx : capHas c pX = true) : capCheck c [pX] (capA c) 2 2 =
    if !(decide (capBase c ≤ capA c) && decide ((capA c : Int) + 2 ≤ capTop c)) then some .capBounds
    else if (capA c : Int) % 2 ≠ 0 then some .align else none := by
  simp [capCheck, capHasAll, hv, hx]

theorem jumpCheck_outside (hv : capValid c = true) (hx : capHas c pX = true) (h : ¬ Inside c (capA c)) :
    capCheck c [pX] (capA c) 2 2 = some .capBounds := by
  rw [jumpCheck_valid hv hx, test_outside h]
  rfl

theorem jumpCheck_odd (hv : capValid c = true) (hx : capHas c pX = true) (h : Inside c (capA c)) (ha : capA c % 2 = 1) :
    capCheck c [pX] (capA c) 2 2 = some .align := by
  rw [jumpCheck_valid hv hx, h.test, if_neg (by decide), if_pos (by omega)]

theorem Enterable.check (h : Enterable c) : capCheck c [pX] (capA c) 2 2 = none := by
  obtain ⟨htag, hE, hP, hx, hb, ht, ha⟩ := h
  have hv : capValid c = true := by simp [capValid, htag, hE, hP]
  rw [jumpCheck_valid hv hx, Inside.test ⟨hb, ht⟩, if_neg (by decide), if_neg (by omega)]

end JumpChecks

/-- The top is at most one length mantissa above the base, which is inside the window of R113. -/
theorem capTop_le_window (c : Cap) : capTop c ≤ capBase c + ((2 ^ (capE c + 15) : Nat) : Int) := by
  have hL : capL c * 2 ^ capE c ≤ 2 ^ (capE c + 15) := by
    rw [pow_add, mul_comm]
    exact Nat.mul_le_mul_left _ (Nat.mod_lt _ (by decide)).le
  simp only [capTop]
  split <;> omega

/-- Where it stands inside its own bounds a capability keeps its tag (R113): PCC takes it whole. -/
theorem Enterable.move_self {c : Cap} (h : Enterable c) : capMove c (capA c) = c := by
  obtain ⟨-, -, -, -, hb, ht, -⟩ := h
  have hw := capTop_le_window c
  have hA := capA_lt c
  have hwin : inWindow c (capA c) = true := by
    simp only [inWindow, Bool.and_eq_true, decide_eq_true_eq]
    omega
  unfold capMove
  rw [addr80_natCast hA, capAt_self, hwin, Bool.and_true]

/-! ### JR, RET, CALL and CALLR (R128, R129) -/

theorem rc_ctx_wc_same (x : Ctx) (d : Fin 32) (v : Cap) : (x.wc d v).rc d = if d = 0 then Cap.null else v := by
  by_cases h : d = 0
  · simp [Ctx.rc, h]
  · simp [Ctx.wc, Ctx.rc, Ctx.drop, h]

theorem rc_ctx_wc_other (x : Ctx) {d n : Fin 32} (v : Cap) (h : n ≠ d) : (x.wc d v).rc n = x.rc n := by
  by_cases hd : d = 0
  · simp [Ctx.wc, hd]
  · have : d.val ≠ n.val := fun e => h (Fin.ext e.symm)
    simp [Ctx.wc, Ctx.rc, Ctx.drop, hd, this]

theorem rc_setCtx_finish (s : State) (x : Ctx) (st : Nat) (b : Bool) (n : Fin 32) :
    ((s.setCtx x).finish st b).rc n = x.rc n := by
  rw [rc_finish, State.rc, ctx_setCtx]

/-- A transfer that writes a link register beside the next address. -/
theorem jumpsLinking_of {s : State} {st : Nat} {x : Ctx} {d : Fin 32} {v : Cap} {o : Host.Outcome State Fault Refusal}
    (h : o = s.retire st (s.setCtx (x.wc d v))) (hl : s.ctx.loop.lact = false) (hx : x.loop = s.ctx.loop)
    (ho : x.o = s.ctx.o) (hc : x.c = s.ctx.c) : JumpsLinking s o (capMove x.pcc x.npc.toNat) d v := by
  obtain ⟨hp, hn, hlo, hoo⟩ := wc_pcc x d v
  have hw := setCtx_went s (x.wc d v) st s.ctx.loop.lact (by rw [hl]; rfl) (hoo.trans ho)
  rw [hp, hn, hlo, hx] at hw
  refine ⟨_, h, hw, ?_, fun n hne => ?_⟩
  · rw [rc_setCtx_finish, rc_ctx_wc_same]
  · rw [rc_setCtx_finish, rc_ctx_wc_other x v hne]
    simp only [State.rc, Ctx.rc, hc]

/-- The return capability: PCC at the next instruction (R128). -/
def linkOf (s : State) : Cap := capAt s.ctx.pcc s.ctx.npc.toNat

theorem jump_wc (x : Ctx) (c : Cap) (d : Fin 32) (v : Cap) : (x.wc d v).jump c = (x.jump c).wc d v := by
  unfold Ctx.wc
  split <;> rfl

theorem jump_npc (x : Ctx) (c : Cap) : (x.jump c).npc.toNat = capA c := by
  show (BitVec.ofNat 80 (capA c)).toNat = capA c
  rw [BitVec.toNat_ofNat, Nat.mod_eq_of_lt (capA_lt c)]

/-- PCC and the next address of a jump are the capability itself. -/
theorem Enterable.jump_place {c : Cap} (h : Enterable c) (x : Ctx) : capMove (x.jump c).pcc (x.jump c).npc.toNat = c := by
  rw [jump_npc]
  exact h.move_self

/-- The operation of JR and RET. -/
def jumpBody (a : Fin 32) : Op Unit := do
  let c := (← get).rc a
  jumpNeed c
  upd fun s => s.setCtx (s.ctx.jump c)

/-- The operation of CALLR. -/
def callRegBody (d a : Fin 32) : Op Unit := do
  let s ← get
  let c := s.rc a
  let link := capAt s.ctx.pcc s.ctx.npc.toNat
  jumpNeed c
  upd fun s => s.wc d link
  upd fun s => s.setCtx (s.ctx.jump c)

/-- The operation of CALL. -/
def callBody (off : Int) : Op Unit := do
  let s ← get
  let link := capAt s.ctx.pcc s.ctx.npc.toNat
  goTo (s.rel off)
  upd fun s => s.wc 1 link

section Transfers

variable {s : State} {st : Nat} {d a : Fin 32}

theorem jumpReg_eq :
    jumpReg st a s = issue { st := st, ill := s.ctx.loop.lact, reads := [rdC a] } (jumpBody a) s := rfl

theorem callReg_eq :
    callReg st d a s = issue { st := st, ill := s.ctx.loop.lact, reads := [rdC a] } (callRegBody d a) s := rfl

theorem execCall_eq {st : Fin 8} {off : BitVec 22} :
    execCall st off s = issue { st := st.val, ill := s.ctx.loop.lact } (callBody off.toInt) s := rfl

theorem jumpBody_enters (hc : Enterable (s.rc a)) : jumpBody a s = .ok () (s.setCtx (s.ctx.jump (s.rc a))) := by
  unfold jumpBody
  rw [bind_ok (get_run s)]
  exact bind_ok (capNeed_ok s hc.check)

theorem jumpBody_raises {k : Cause} (hk : capCheck (s.rc a) [pX] (capA (s.rc a)) 2 2 = some k) :
    jumpBody a s = .error (.trap ⟨k, tvalOf (capA (s.rc a))⟩) s := by
  unfold jumpBody
  rw [bind_ok (get_run s)]
  exact bind_error (capNeed_raises s hk)

theorem callRegBody_enters (hc : Enterable (s.rc a)) :
    callRegBody d a s = .ok () (s.setCtx ((s.ctx.jump (s.rc a)).wc d (linkOf s))) := by
  have hs : s.setCtx ((s.ctx.jump (s.rc a)).wc d (linkOf s)) =
      (s.wc d (linkOf s)).setCtx ((s.wc d (linkOf s)).ctx.jump (s.rc a)) := by
    rw [State.wc, ctx_setCtx, setCtx_setCtx, jump_wc]
  unfold callRegBody
  rw [bind_ok (get_run s), hs]
  exact bind_ok (capNeed_ok s hc.check)

theorem callRegBody_raises {k : Cause} (hk : capCheck (s.rc a) [pX] (capA (s.rc a)) 2 2 = some k) :
    callRegBody d a s = .error (.trap ⟨k, tvalOf (capA (s.rc a))⟩) s := by
  unfold callRegBody
  rw [bind_ok (get_run s)]
  exact bind_error (capNeed_raises s hk)

theorem callBody_inside {off : Int} (ht : Inside s.ctx.pcc (s.rel off)) :
    callBody off s = .ok () (s.setCtx ((toward s.ctx (s.rel off)).wc 1 (linkOf s))) := by
  have hs : s.setCtx ((toward s.ctx (s.rel off)).wc 1 (linkOf s)) =
      (s.setCtx (toward s.ctx (s.rel off))).wc 1 (linkOf s) := by
    rw [State.wc, ctx_setCtx, setCtx_setCtx]
  unfold callBody
  rw [bind_ok (get_run s), hs]
  exact bind_ok (goTo_inside ht)

theorem callBody_outside {off : Int} (ht : ¬ Inside s.ctx.pcc (s.rel off)) :
    callBody off s = .error (.trap ⟨.capBounds, tvalOf (s.rel off)⟩) s := by
  unfold callBody
  rw [bind_ok (get_run s)]
  exact bind_error (goTo_outside ht)

variable (hl : s.ctx.loop.lact = false)
include hl

theorem jumpReg_enters (h : s.CanIssue [rdC a]) (hc : Enterable (s.rc a)) :
    JumpsTo s (jumpReg st a s) (s.rc a) s.ctx.loop := by
  have hj := jumpsTo_of (issue_retires (g := { st := st, ill := s.ctx.loop.lact, reads := [rdC a] }) h hl rfl
    (jumpBody_enters hc)) (by rw [hl]; rfl) rfl rfl
  rw [hc.jump_place] at hj
  exact hj

theorem jumpReg_raises {k : Cause} (h : s.CanIssue [rdC a]) (hk : capCheck (s.rc a) [pX] (capA (s.rc a)) 2 2 = some k) :
    Traps s (jumpReg st a s) k (tvalOf (capA (s.rc a))) := by
  rw [jumpReg_eq]
  exact issue_traps h hl rfl (jumpBody_raises hk)

theorem callReg_enters (h : s.CanIssue [rdC a]) (hc : Enterable (s.rc a)) :
    JumpsLinking s (callReg st d a s) (s.rc a) d (linkOf s) := by
  have hj := jumpsLinking_of (issue_retires (g := { st := st, ill := s.ctx.loop.lact, reads := [rdC a] }) h hl rfl
    (callRegBody_enters (d := d) hc)) hl rfl rfl rfl
  rw [hc.jump_place] at hj
  exact hj

theorem callReg_raises {k : Cause} (h : s.CanIssue [rdC a]) (hk : capCheck (s.rc a) [pX] (capA (s.rc a)) 2 2 = some k) :
    Traps s (callReg st d a s) k (tvalOf (capA (s.rc a))) := by
  rw [callReg_eq]
  exact issue_traps h hl rfl (callRegBody_raises hk)

theorem call_inside {st : Fin 8} {off : BitVec 22} (h : s.CanIssue []) (ht : Inside s.ctx.pcc (s.rel off.toInt)) :
    JumpsLinking s (execCall st off s) (capMove s.ctx.pcc (addr80 (s.rel off.toInt))) 1 (linkOf s) := by
  rw [execCall_eq, ← toward_npc s.ctx]
  exact jumpsLinking_of (issue_retires h hl rfl (callBody_inside ht)) hl rfl rfl rfl

theorem call_outside {st : Fin 8} {off : BitVec 22} (h : s.CanIssue []) (ht : ¬ Inside s.ctx.pcc (s.rel off.toInt)) :
    Traps s (execCall st off s) .capBounds (tvalOf (s.rel off.toInt)) := by
  rw [execCall_eq]
  exact issue_traps h hl rfl (callBody_outside ht)

end Transfers

/-- The checks of a jump through a register, in their order (R125): `raises` is what an instruction answers where one fails. -/
theorem jumpCauses {s : State} {o : Host.Outcome State Fault Refusal} {c : Cap}
    (raises : ∀ k, capCheck c [pX] (capA c) 2 2 = some k → Traps s o k (tvalOf (capA c))) :
    (c.tag = false → Traps s o .capTag (tvalOf (capA c))) ∧
    (capValid c = true → capHas c pX = false → Traps s o .capPerm (tvalOf (capA c))) ∧
    (capValid c = true → capHas c pX = true → ¬ (capBase c ≤ capA c ∧ (capA c : Int) + 2 ≤ capTop c) →
      Traps s o .capBounds (tvalOf (capA c))) ∧
    (capValid c = true → capHas c pX = true → capBase c ≤ capA c → (capA c : Int) + 2 ≤ capTop c →
      capA c % 2 = 1 → Traps s o .align (tvalOf (capA c))) :=
  ⟨fun h => raises _ (jumpCheck_untagged h), fun hv hx => raises _ (jumpCheck_noX hv hx),
    fun hv hx h => raises _ (jumpCheck_outside hv hx h), fun hv hx hb ht ha => raises _ (jumpCheck_odd hv hx ⟨hb, ht⟩ ha)⟩

/-- Settles O6: a branch is decided by its condition alone, a transfer by the checks of its target; PCC is inside its own bounds
where it is taken whole. -/
theorem branchesJumpsAndCalls : Obligations.BranchesJumpsAndCalls := by
  refine ⟨fun s st st' a m g off x y hl => ?_, fun s st st' a d off o x hl => ?_⟩
  · intro v c k r
    refine ⟨fun h => (branchC_branches hl beq_iff_eq h : Branches s (execBeq st a off s) _ _),
      fun h => (branchC_branches hl bne_iff_ne h : Branches s (execBne st a off s) _ _),
      fun h => (branchC_branches hl decide_eq_true_iff h : Branches s (execBlt st a off s) _ _),
      fun h => (branchC_branches hl decide_eq_true_iff h : Branches s (execBge st a off s) _ _),
      fun h => (branchC_branches hl decide_eq_true_iff h : Branches s (execBle st a off s) _ _),
      fun h => (branchC_branches hl decide_eq_true_iff h : Branches s (execBgt st a off s) _ _),
      fun h => (branchC_branches hl Iff.rfl h : Branches s (execBtag st a off s) _ _),
      fun h => (branchC_branches hl (iff_of_eq (Bool.not_eq_true' _)) h : Branches s (execBntag st a off s) _ _),
      fun h => (branchC_branches hl (beq_iff_eq.trans (capInt_eq_zero_iff s c)) h : Branches s (execBeqShort st' x y s) _ _),
      fun h => (branchC_branches hl (bne_iff_ne.trans (not_congr (capInt_eq_zero_iff s c))) h :
        Branches s (execBneShort st' x y s) _ _), fun hh => ?_⟩
    exact ⟨fun h => (branch_branches hl hh (bne_iff_ne.trans (ne_zero_iff_lanes _)) h :
        Branches s (execBmany st m off s) _ _),
      fun h => (branch_branches hl hh (beq_iff_eq.trans (eq_zero_iff_lanes _)) h : Branches s (execBmnone st m off s) _ _),
      fun h => (branch_branches hl hh (beq_iff_eq.trans (eq_allOnes_iff_lanes _)) h : Branches s (execBmall st m off s) _ _),
      fun h => (branch_branches hl hh Iff.rfl h : Branches s (execBgds st g off s) _ _),
      fun h => (branch_branches hl hh (iff_of_eq (Bool.not_eq_true' _)) h : Branches s (execBgdc st g off s) _ _)⟩
  · intro link here inside cx ok
    refine ⟨fun h => ⟨fun ht => ⟨?_, ?_⟩, fun ht => ?_, fun ht => ⟨?_, ?_⟩⟩,
      fun h => ⟨fun hc => ⟨?_, ?_, ?_⟩, ?_⟩, fun h hc => ⟨?_, ?_⟩⟩
    · exact (branch_taken h hl rfl rfl ht : JumpsTo s (execJ st off s) _ _)
    · exact (call_inside hl h ht : JumpsLinking s (execCall st off s) _ _ _)
    · exact (branch_taken h hl rfl rfl ht : JumpsTo s (execJShort st' o s) _ _)
    · exact (branch_outside h hl rfl rfl ht : Traps s (execJ st off s) _ _)
    · exact (call_outside hl h ht : Traps s (execCall st off s) _ _)
    · exact (jumpReg_enters hl h hc : JumpsTo s (execJr st a s) _ _)
    · exact (jumpReg_enters hl h hc : JumpsTo s (execRet st a s) _ _)
    · exact (callReg_enters hl h hc : JumpsLinking s (execCallr st d a s) _ _ _)
    · simp only [List.mem_cons, List.not_mem_nil, or_false]
      rintro n (rfl | rfl | rfl)
      · exact jumpCauses (o := execJr st a s) fun _ => jumpReg_raises hl h
      · exact jumpCauses (o := execRet st a s) fun _ => jumpReg_raises hl h
      · exact jumpCauses (o := execCallr st d a s) fun _ => callReg_raises hl h
    · exact (jumpReg_enters hl h hc : JumpsTo s (execRetShort st' x s) _ _)
    · exact (callReg_enters hl h hc : JumpsLinking s (execCallrShort st' x s) _ _ _)

end Sys2Proof.Proofs
end

section
/-! PROOFS. Vector compares: what the frame of a vector instruction answers where its registers are plain, the number whose
bits are the results of the elements, and the statement about them. -/

namespace Sys2Proof.Proofs

open Sys2Proof Sys2Proof.Machine Sys2Proof.Laws

set_option Elab.async false

/-! ### Vector instructions over plain registers (R157, R187) -/

section PlainRegisters

variable {s : State} {n : Fin 64} {ns : List (Fin 64)}

theorem port_none (h : s.boundPort n = false) : s.port n = none := by
  simpa [State.boundPort] using h

theorem readPort_unbound (h : s.boundPort n = false) : s.readPort n = false := by
  rw [State.readPort, port_none h]

theorem writePort_unbound (h : s.boundPort n = false) : s.writePort n = false := by
  rw [State.writePort, port_none h]

theorem portBusy_unbound (h : s.boundPort n = false) : s.portBusy n = false := by
  rw [State.portBusy, h, Bool.false_and]

theorem mem_of_mem_dedupV (h : n ∈ dedupV ns) : n ∈ ns := by
  induction ns with
  | nil => exact h
  | cons x xs ih =>
    rcases List.mem_cons.mp h with rfl | hx
    · exact List.mem_cons_self
    · exact List.mem_cons_of_mem _ (ih (List.mem_of_mem_filter hx))

theorem await_true (s : State) : await true s = .ok () s := rfl

/-- No group is popped where no register is a bound port. -/
theorem popSegs_unbound (h : ∀ n ∈ ns, s.boundPort n = false) : popSegs ns s = .ok [] s := by
  induction ns with
  | nil => rfl
  | cons x xs ih =>
    unfold popSegs
    rw [bind_ok (get_run s), port_none (h x List.mem_cons_self)]
    exact ih fun n hn => h n (List.mem_cons_of_mem _ hn)

/-- Matrix mode owns none of the registers from v36 on (R187). -/
theorem owned_free (h : s.core.mm = true → ∀ n ∈ ns, 36 ≤ n.val) : s.owned ns = none := by
  unfold State.owned
  split
  · rename_i hm
    have hnil : (ns.map (·.val)).filter (· < 36) = [] := by
      simpa [List.filter_eq_nil_iff] using h hm
    rw [hnil]
    rfl
  · rfl

/-- An operation without a v destination runs over the registers as they stand. -/
theorem vecRun_unbound {u : VUse} {lat : Option Nat} {body : (Fin 64 → VReg) → Op (Option VReg)} {t : State}
    {r : Option VReg} (hd : u.dst = none) (hu : ∀ n ∈ u.named, s.boundPort n = false) (hb : body s.rv s = .ok r t) :
    vecRun u lat body s = .ok () t := by
  have hbusy : u.named.any s.portBusy = false :=
    List.any_eq_false.mpr fun n hn => by simp [portBusy_unbound (hu n hn)]
  have hsrc : ∀ n ∈ dedupV u.srcs, s.boundPort n = false := fun n hn =>
    hu n (by simp [VUse.named, mem_of_mem_dedupV hn])
  unfold vecRun
  rw [bind_ok (get_run s), hbusy, Bool.not_false, bind_ok (await_true s), bind_ok (popSegs_unbound hsrc), hd]
  exact (bind_ok hb : (body s.rv >>= fun _ => pure ()) s = _)

end PlainRegisters

/-- The gate of an instruction that only reads two plain v registers, under a mask (R90, R157, R187). -/
theorem gate_twoSources {s : State} {a b : Fin 64} (m : Fin 8) (st : Nat) {ill : Bool} (h : s.Plain [a, b])
    (hi : ill = false) : ({ srcs := [a, b], m := m } : VUse).gate st ill [] s =
      { st := st, ill := false, acc := none, reads := [rdV a, rdV b, rdM m] } := by
  have ha := h.unbound a (by simp)
  have hb := h.unbound b (by simp)
  have hown : s.owned [a, b] = none := owned_free h.free
  simp [VUse.gate, VUse.portBad, VUse.named, VUse.reads, h.h0, hi, ha, hb, hown, writePort_unbound]

theorem vtBad_typed {s : State} {t : Nat} {ok : Nat → Bool} (h : s.Typed t) (hok : ok t = true) : s.vtBad ok = false := by
  obtain ⟨hres, hvt, hall⟩ := h
  simp [State.vtBad, State.vt, hres, hvt, hall, hok]

/-! ### The result bits of a compare (R145) -/

/-- What elements below `n` that satisfy `p` contribute together. -/
def sumWhere (c : Nat → Nat) (p : Nat → Bool) (n : Nat) : Nat :=
  (List.range n).foldl (fun acc e => if p e then acc + c e else acc) 0

theorem sumWhere_succ (c : Nat → Nat) (p : Nat → Bool) (n : Nat) :
    sumWhere c p (n + 1) = if p n then sumWhere c p n + c n else sumWhere c p n := by
  rw [sumWhere, List.range_succ, List.foldl_append]
  rfl

/-- Where element e contributes the `k` bits from k·e on, bit j of the sum is the answer for element j / k. -/
theorem testBit_sumWhere {k : Nat} {c : Nat → Nat} (p : Nat → Bool) (hc : ∀ e, c e = 2 ^ (k * e) * (2 ^ k - 1))
    (n j : Nat) : (sumWhere c p n).testBit j = (decide (j < k * n) && p (j / k)) := by
  induction n generalizing j with
  | zero => simp [sumWhere]
  | succ n ih =>
    have hlt : sumWhere c p n < 2 ^ (k * n) := Nat.lt_pow_two_of_testBit _ fun i hi => by
      rw [ih, decide_eq_false (not_lt.mpr hi), Bool.false_and]
    rw [sumWhere_succ, Nat.mul_succ]
    by_cases hlow : j < k * n
    · have hadd : (sumWhere c p n + c n).testBit j = (sumWhere c p n).testBit j := by
        rw [hc, Nat.add_comm, Nat.testBit_two_pow_mul_add _ hlt, if_pos hlow]
      rw [apply_ite (Nat.testBit · j), hadd, ite_self, ih, decide_eq_true hlow, decide_eq_true (by omega)]
    · have hadd : (sumWhere c p n + c n).testBit j = decide (j < k * n + k) := by
        rw [hc, Nat.add_comm, Nat.testBit_two_pow_mul_add _ hlt, if_neg hlow, Nat.testBit_two_pow_sub_one]
        exact decide_eq_decide.mpr (by omega)
      have hold : (sumWhere c p n).testBit j = false := by
        rw [ih, decide_eq_false hlow, Bool.false_and]
      rw [apply_ite (Nat.testBit · j), hadd, hold]
      by_cases hhigh : j < k * n + k
      · have hj : j / k = n := Nat.div_eq_of_lt_le (by rw [Nat.mul_comm]; omega) (by rw [Nat.mul_comm, Nat.mul_succ]; omega)
        cases hp : p n <;> simp [hj, hp, hhigh]
      · simp [hhigh]

/-- Bit j of a compare's result is the answer for the element that lane j belongs to: one bit for each of 32 elements, two
for each of 16. -/
theorem testBit_cmpBits (p : Nat → Bool) {n j : Nat} (hn : n = 32 ∨ n = 16) (hj : j < 32) :
    (sumWhere (cmpBits n) p n).testBit j = p (j * n / 32) := by
  rcases hn with rfl | rfl
  · rw [testBit_sumWhere (k := 1) p (fun e => by simp [cmpBits]), decide_eq_true (by omega), Bool.true_and]
    exact congrArg p (by omega)
  · rw [testBit_sumWhere (k := 2) p (fun e => by simp [cmpBits, Nat.mul_comm]), decide_eq_true (by omega), Bool.true_and]
    exact congrArg p (by omega)

/-! ### Compares (R145) -/

/-- The types of a compare: accepted, with 32 or 16 elements, readable later where they are floating. -/
theorem compared_types {ty : Nat} (h : ty ∈ [4, 5, 6, 7, 10, 11]) :
    tyCmp ty = true ∧ (1024 / tyWidth ty = 32 ∨ 1024 / tyWidth ty = 16) ∧
      (if tyFloat ty then 4 else 2) = if ty < 8 then 2 else 4 := by
  revert ty
  decide

/-- A mask result on its way (R78); with m0 nothing is (R137). -/
theorem laterM_answers {s : State} {st : Nat} {d : Fin 8} {v : BitVec 32} {l : Nat}
    {o : Host.Outcome State Fault Refusal} (h : o = s.retire st (s.laterM d v l)) :
    if d = 0 then OnlyAdvances s o else WritesLater s o .m d.val (v.zeroExtend 1024) l := by
  unfold State.laterM at h
  split
  · rename_i hd
    exact onlyAdvances_of (h.trans (by rw [if_pos hd]))
  · rename_i hd
    exact writesLater_of (h.trans (by rw [if_neg hd]))

/-- Whether element e is governed and the compare holds of it. -/
def holdsAt (s : State) (f : Val → Val → Bool) (a b : Fin 64) (m : Fin 8) (e : Nat) : Bool :=
  let w := tyWidth s.vt
  governed (s.rm m) (1024 / w) e && f (decodeTy s.vt (elem (s.rv a) w e)) (decodeTy s.vt (elem (s.rv b) w e))

/-- The mask that a compare computes. -/
def compareMask (s : State) (f : Val → Val → Bool) (a b : Fin 64) (m : Fin 8) : BitVec 32 :=
  let n := 1024 / tyWidth s.vt
  BitVec.ofNat 32 (sumWhere (cmpBits n) (holdsAt s f a b m) n)

/-- Each lane's bit is the answer for its element, whose governing bit is that of R138. -/
theorem compareMask_getLsbD {s : State} (f : Val → Val → Bool) (a b : Fin 64) (m : Fin 8)
    (hn : 1024 / tyWidth s.vt = 32 ∨ 1024 / tyWidth s.vt = 16) {j : Nat} (hj : j < 32) :
    (compareMask s f a b m).getLsbD j = holdsAt s f a b m (j * (1024 / tyWidth s.vt) / 32) := by
  rw [compareMask, BitVec.getLsbD_ofNat, decide_eq_true hj, Bool.true_and, testBit_cmpBits _ hn hj]

/-- A compare that may issue over plain registers retires with its mask on its way. -/
theorem vecCmp_retires {s : State} {st : Nat} (d : Fin 8) {a b : Fin 64} {m : Fin 8} (f : Val → Val → Bool)
    (hc : s.vtBad tyCmp = false) (hp : s.Plain [a, b]) (hi : s.CanIssue [rdV a, rdV b, rdM m]) :
    vecCmp st d a b m f s =
      s.retire st (s.laterM d (compareMask s f a b m) (if tyFloat s.vt then 4 else 2)) := by
  unfold vecCmp
  dsimp only
  rw [gate_twoSources m st hp hc]
  refine issue_retires hi rfl rfl (vecRun_unbound (r := none) rfl (by simpa [VUse.named] using hp.unbound) ?_)
  rw [bind_ok (get_run s)]
  rfl

/-- What R145 says of one compare `f` of type `ty`, answered with `o`: the bits of each governed element for which it holds,
on their way to M[d]. -/
def ComparesInto (s : State) (ty : Nat) (d : Fin 8) (a b : Fin 64) (m : Fin 8) (f : Val → Val → Bool)
    (o : Host.Outcome State Fault Refusal) : Prop :=
  let w := tyWidth ty
  let n := 1024 / w
  ∃ bits : BitVec 32,
    (∀ j : Nat, j < 32 → bits.getLsbD j = ((s.rm m).getLsbD (32 * (j * n / 32) / n) &&
      f (decodeTy ty (elem (s.rv a) w (j * n / 32))) (decodeTy ty (elem (s.rv b) w (j * n / 32))))) ∧
    (if d = 0 then OnlyAdvances s o else WritesLater s o .m d.val (bits.zeroExtend 1024) (if ty < 8 then 2 else 4))

theorem vecCmp_comparesInto {s : State} {ty st : Nat} {d : Fin 8} {a b : Fin 64} {m : Fin 8} (f : Val → Val → Bool)
    (hty : ty ∈ [4, 5, 6, 7, 10, 11]) (ht : s.Typed ty) (hp : s.Plain [a, b]) (hi : s.CanIssue [rdV a, rdV b, rdM m]) :
    ComparesInto s ty d a b m f (vecCmp st d a b m f s) := by
  obtain ⟨hcmp, hn, hlat⟩ := compared_types hty
  obtain rfl : s.vt = ty := ht.2.1
  refine ⟨compareMask s f a b m, fun j hj => compareMask_getLsbD f a b m hn hj, ?_⟩
  rw [← hlat]
  exact laterM_answers (vecCmp_retires d f (vtBad_typed ht hcmp) hp hi)

/-- Settles O18: the four compares are one shared operation, whose result is a sum of the elements' bits. -/
theorem vectorCompares : Obligations.VectorCompares := by
  intro s ty st d a b m hty ht hp hi w n x y lat r
  exact ⟨(vecCmp_comparesInto vEq hty ht hp hi : ComparesInto s ty d a b m _ (execVceq st d a b m s)),
    (vecCmp_comparesInto _ hty ht hp hi : ComparesInto s ty d a b m _ (execVcne st d a b m s)),
    (vecCmp_comparesInto vLt hty ht hp hi : ComparesInto s ty d a b m _ (execVclt st d a b m s)),
    (vecCmp_comparesInto _ hty ht hp hi : ComparesInto s ty d a b m _ (execVcle st d a b m s))⟩

end Sys2Proof.Proofs
end

section
/-! PROOFS. Decoding of encoded instructions (R75 to R87, R89): every instruction's fields decode to it, by the law of its
constructor, and the fields come back from the bytes they are joined into. -/
namespace Sys2Proof.Proofs
open Sys2Proof Sys2Proof.Machine Sys2Proof.Laws
set_option Elab.async false

/-- Every instruction is coded: one law for each constructor. -/
theorem coded (i : Instr) : Coded.Statement i :=
  Instr.rec (motive := Coded.Statement)
    Coded.add Coded.sub Coded.andr Coded.orr Coded.xorr Coded.andn Coded.sll Coded.srl Coded.sra Coded.slt Coded.sltu
    Coded.min Coded.max Coded.minu Coded.maxu Coded.sel Coded.addi Coded.andi Coded.ori Coded.xori Coded.slli
    Coded.srli Coded.srai Coded.slti Coded.mul Coded.mulh Coded.mulhu Coded.div Coded.divu Coded.rem Coded.remu
    Coded.clz Coded.ctz Coded.popc Coded.bswap Coded.lis Coded.lik Coded.cmov Coded.cinc Coded.cseta Coded.csetb
    Coded.csetbx Coded.candp Coded.cgeta Coded.cgetb Coded.cgett Coded.cgetp Coded.cgettag Coded.cclrtag Coded.csub
    Coded.ctest Coded.cinci Coded.csetbi Coded.beq Coded.bne Coded.blt Coded.bge Coded.ble Coded.bgt Coded.btag
    Coded.bntag Coded.j Coded.call Coded.jr Coded.callr Coded.ret Coded.lexit Coded.loop Coded.ldB Coded.ldBu
    Coded.ldH Coded.ldHu Coded.ldW Coded.ldWu Coded.ldD Coded.ldC Coded.stB Coded.stH Coded.stW Coded.stD Coded.stC
    Coded.aaddD Coded.aandD Coded.aorD Coded.axorD Coded.aminD Coded.amaxD Coded.aminuD Coded.amaxuD Coded.aswapD
    Coded.acasD Coded.afaddD Coded.aaddW Coded.aandW Coded.aorW Coded.axorW Coded.aminW Coded.amaxW Coded.aminuW
    Coded.amaxuW Coded.aswapW Coded.acasW Coded.afaddW Coded.afaddbf Coded.fence Coded.fencer Coded.clean Coded.inval
    Coded.waitj Coded.pollj Coded.sleep Coded.yield Coded.vld Coded.vst Coded.vlds Coded.vsts Coded.vldx Coded.vstx
    Coded.vldt Coded.vstt Coded.sbind Coded.sunbind Coded.vldb Coded.tpred Coded.tvclr Coded.tvset Coded.thdr
    Coded.gath Coded.scat Coded.gathst Coded.vsort Coded.vsortx Coded.vbstep Coded.vtopk Coded.vmergek Coded.vrank
    Coded.occfg Coded.ocemit Coded.ocemiti Coded.ocacc Coded.ocstat Coded.ocrst Coded.ocgw Coded.ocga Coded.ocgf
    Coded.mmode Coded.mop Coded.msqd Coded.mtopk Coded.accrd Coded.accz Coded.mdrain Coded.mwait Coded.mnmb Coded.cpy
    Coded.cpy2d Coded.cpyq Coded.cpyx Coded.tbegin Coded.trec Coded.trecb Coded.trecv Coded.tend Coded.tplay
    Coded.tpop Coded.tpopb Coded.tpopv Coded.tstat Coded.send Coded.tenq Coded.rfork Coded.join Coded.tbind
    Coded.tunbind Coded.tfire Coded.chopen Coded.chclose Coded.chsend Coded.chrecv Coded.exit Coded.hstart Coded.hstop
    Coded.hstat Coded.bari Coded.bara Coded.barad Coded.barw Coded.baraw Coded.rld Coded.rst Coded.ramo Coded.gst
    Coded.gcommit Coded.gabort Coded.gcstat Coded.gwait Coded.nred Coded.nredw Coded.srd Coded.swr Coded.trap
    Coded.eret Coded.brk Coded.time Coded.halt Coded.cancel Coded.vmovs Coded.vmovx Coded.vins Coded.mset Coded.mget
    Coded.gset Coded.gget Coded.oset Coded.oget Coded.bmany Coded.bmnone Coded.bmall Coded.bgds Coded.bgdc Coded.vadd
    Coded.vsub Coded.vmul Coded.vmulh Coded.vfma Coded.vfms Coded.vmin Coded.vmax Coded.vand Coded.vor Coded.vxor
    Coded.vandn Coded.vsll Coded.vsrl Coded.vsra Coded.vrol Coded.vceq Coded.vcne Coded.vclt Coded.vcle Coded.vcvt
    Coded.vcvts Coded.vpack Coded.vunpk Coded.vperm Coded.vshuf Coded.vsldu Coded.vsldd Coded.vrsum Coded.vrmax
    Coded.vrmin Coded.vramax Coded.vmrg Coded.vcmpr Coded.vabs Coded.vneg Coded.vdiv Coded.vsqrt Coded.vexp2
    Coded.vlog2 Coded.vdot4 Coded.vsad Coded.viota Coded.vmcnt Coded.vclz Coded.vpopc Coded.vscl Coded.vmov
    Coded.addShort Coded.subShort Coded.andShort Coded.orShort Coded.xorShort Coded.cmovShort Coded.addiShort
    Coded.slliShort Coded.srliShort Coded.sraiShort Coded.lisShort Coded.cinciShort Coded.ldDShort Coded.stDShort
    Coded.ldWShort Coded.stWShort Coded.ldDC2Short Coded.stDC2Short Coded.ldCC2Short Coded.stCC2Short Coded.beqShort
    Coded.bneShort Coded.jShort Coded.retShort Coded.callrShort Coded.vaddShort Coded.vmulShort Coded.vmovShort
    Coded.yieldShort Coded.waitjShort Coded.exitShort Coded.loopShort Coded.trapEntry Coded.tcmpMatch Coded.sleepWake
    Coded.matrixStep Coded.drainCapture Coded.copyBurst Coded.gatherComplete Coded.taskDispatch Coded.stealRound
    Coded.stealAttempt Coded.launchOpen Coded.phaseBarrier Coded.bureauRun Coded.sliceExpiry Coded.gangStop
    Coded.gangDrain Coded.gangSave Coded.leaseExpiry Coded.eccUe Coded.activeMessage Coded.rload Coded.rstore
    Coded.ratomic Coded.gstage Coded.prepare Coded.publish Coded.discard Coded.query Coded.bararr Coded.barrierRetry
    Coded.spwrite Coded.mwrite Coded.rgath Coded.rscat Coded.trigger Coded.reply Coded.gstReply Coded.commitHandover
    Coded.ready Coded.decisionAck Coded.queryAnswer Coded.prepareTimeout Coded.stagingTimeout Coded.inDoubtTimer
    Coded.gwaitTimeLimit Coded.demand Coded.grant Coded.eack Coded.slotreq Coded.slotgnt Coded.redContrib
    Coded.nodeTimeout Coded.redResult Coded.flit Coded.replayRequest Coded.linkReplayLimit Coded.e2eTimer
    Coded.linkFailure Coded.tsync Coded.syncTick Coded.spillWrite Coded.chunkFetch Coded.ident Coded.semacq
    Coded.semrel Coded.semaphoreLoss Coded.jobstart Coded.jobstop Coded.jobresume Coded.jobremove Coded.graphstart
    Coded.tlbinv Coded.doorbell Coded.setpkg Coded.routewr Coded.treewr Coded.rateset Coded.fwload Coded.linkretrain
    Coded.stackretire Coded.dieoff Coded.dieon Coded.attest Coded.powercap Coded.sbresolve Coded.sbresolveTimeout
    Coded.sblist Coded.sbdecide Coded.sblost Coded.powerOn Coded.reducedService Coded.partJoin Coded.thermalThrottle
    Coded.thermalShutdown Coded.variableLatencyResult Coded.unallocatedWord Coded.barrierWaitRequest
    Coded.gwaitQueryRepeat Coded.linkRetrainDone i

/-- A word's fields come back from the word (R75). -/
theorem split32_join32 {x : Fields} (hs : x.s < 8) (hop : x.op < 64) (hd : x.d < 64) (ha : x.a < 64) (hb : x.b < 64)
    (hf : x.f < 16) : split32 (join32 x) = x := by
  obtain ⟨s, op, d, a, b, f⟩ := x
  simp only [split32, join32, Fields.mk.injEq] at *
  omega

theorem split16_join16 {x : Short} (hs : x.s < 4) (hop : x.op < 32) (hx : x.x < 16) (hy : x.y < 16) :
    split16 (join16 x) = x := by
  obtain ⟨s, op, a, b⟩ := x
  simp only [split16, join16, Short.mk.injEq] at *
  omega

/-- A halfword's bytes decode as the halfword, and the bytes behind them stay (R72). -/
theorem decode_halfword {h : Nat} {i : Instr} (rest : List Byte) (heven : h % 2 = 0) (hlt : h < 65536)
    (hi : decode16 h = some i) : decode (leBytes 2 h ++ rest) = .ok (i, rest) := by
  have hh : (BitVec.ofNat 8 h).toNat + 256 * (BitVec.ofNat 8 (h / 256)).toNat = h := by
    simp only [BitVec.toNat_ofNat]
    omega
  simp only [leBytes, List.cons_append, List.nil_append, decode, hh, heven, hi, if_true]

/-- A word's bytes decode as the word. -/
theorem decode_word {w : Nat} {i : Instr} (rest : List Byte) (hodd : w % 2 = 1) (hlt : w < 4294967296)
    (hi : decode32 w = some i) : decode (leBytes 4 w ++ rest) = .ok (i, rest) := by
  have hlow : ((BitVec.ofNat 8 w).toNat + 256 * (BitVec.ofNat 8 (w / 256)).toNat) % 2 = 1 := by
    simp only [BitVec.toNat_ofNat]
    omega
  have hw : (BitVec.ofNat 8 w).toNat + 256 * (BitVec.ofNat 8 (w / 256)).toNat +
      65536 * (BitVec.ofNat 8 (w / 256 / 256)).toNat + 16777216 * (BitVec.ofNat 8 (w / 256 / 256 / 256)).toNat = w := by
    simp only [BitVec.toNat_ofNat]
    omega
  simp only [leBytes, List.cons_append, List.nil_append, decode, hlow, hw, hi, if_neg one_ne_zero]

theorem decode_join32 {x : Fields} {i : Instr} (rest : List Byte) (hs : x.s < 8) (hop : x.op < 64) (hd : x.d < 64)
    (ha : x.a < 64) (hb : x.b < 64) (hf : x.f < 16) (hi : decodeFields x = some i) :
    decode (leBytes 4 (join32 x) ++ rest) = .ok (i, rest) := by
  have hodd : join32 x % 2 = 1 := by simp only [join32]; omega
  refine decode_word rest hodd (by simp only [join32]; omega) ?_
  rw [decode32, if_pos hodd, split32_join32 hs hop hd ha hb hf, hi]

theorem decode_join16 {x : Short} {i : Instr} (rest : List Byte) (hs : x.s < 4) (hop : x.op < 32) (hx : x.x < 16)
    (hy : x.y < 16) (hi : decodeShort x = some i) : decode (leBytes 2 (join16 x) ++ rest) = .ok (i, rest) := by
  have heven : join16 x % 2 = 0 := by simp only [join16]; omega
  refine decode_halfword rest heven (by simp only [join16]; omega) ?_
  rw [decode16, if_pos heven, split16_join16 hs hop hx hy, hi]

/-- Settles O57: the fields of every instruction decode to it (`coded`), and fields come back from the bytes of their word. -/
theorem decodeOfEncode : Obligations.DecodeOfEncode := by
  intro i rest hwf hne
  obtain ⟨hword, hshort⟩ := coded i hwf
  unfold encode at hne ⊢
  cases hf : encodeFields i with
  | some x =>
    obtain ⟨hi, hs, hop, hd, ha, hb, hlt⟩ := hword x hf
    exact decode_join32 rest hs hop hd ha hb hlt hi
  | none =>
    cases hh : encodeShort i with
    | some x =>
      obtain ⟨hi, hs, hop, hx, hy⟩ := hshort x hh
      exact decode_join16 rest hs hop hx hy hi
    | none => simp [hf, hh] at hne

end Sys2Proof.Proofs
end

section
/-! PROOFS. What a step keeps: memory in its canonical form, and legal boundaries and RMODE at every core and in every saved
record. First the relation `Keeps` between two states and its rules, then the rules for operations and outcomes. -/
namespace Sys2Proof.Proofs
open Sys2Proof Sys2Proof.Machine Sys2Proof.Laws
set_option Elab.async false

/-- The settings that R60, R214 and R239 bind: the boundaries and RMODE. -/
def settings (c : Core) : Nat × Nat × Nat × Nat := (c.b0, c.b1, c.b2, c.rmode)

/-- R60, R214, R239: boundaries in order and RMODE a rounding code. -/
def Legal (c : Core) : Prop :=
  8 ≤ c.b0 ∧ c.b0 ≤ c.b1 ∧ c.b1 ≤ c.b2 ∧ c.b2 ≤ 254 ∧ (c.b2 - c.b1) % 4 = 0 ∧ 1 ≤ c.rmode ∧ c.rmode ≤ 6

theorem Legal.of_settings {c d : Core} (h : Legal c) (hs : settings d = settings c) : Legal d := by
  simp only [settings, Prod.mk.injEq] at hs
  obtain ⟨h0, h1, h2, hr⟩ := hs
  unfold Legal
  rw [h0, h1, h2, hr]
  exact h

theorem legal_reset (e : Nat) : Legal { id := e } := by
  simp [Legal]

/-- Every core of the package and every saved record is legal. -/
structure AllLegal (s : State) : Prop where
  core   : Legal s.core
  others : ∀ c ∈ s.others, Legal c
  saved  : ∀ j ∈ s.jobs, ∀ c ∈ j.saved, Legal c

/-- `t` keeps what the two invariants say where `s` meets them: memory in its canonical form, every setting legal. -/
structure Keeps (s t : State) : Prop where
  mem   : Memory.wf s.mem = true → Memory.wf t.mem = true
  legal : AllLegal s → AllLegal t

variable {s₀ s t : State}

theorem Keeps.refl (s : State) : Keeps s s := ⟨id, id⟩

theorem Keeps.trans (h : Keeps s₀ s) (h' : Keeps s t) : Keeps s₀ t := ⟨h'.mem ∘ h.mem, h'.legal ∘ h.legal⟩

/-- Nothing that the invariants speak of has changed. -/
theorem Keeps.same (h : Keeps s₀ s) (hm : t.mem = s.mem) (hc : settings t.core = settings s.core) (ho : t.others = s.others)
    (hj : t.jobs = s.jobs) : Keeps s₀ t :=
  h.trans ⟨fun w => by rw [hm]; exact w, fun l => ⟨l.core.of_settings hc, by rw [ho]; exact l.others, by rw [hj]; exact l.saved⟩⟩

/-- As `Keeps.same`, with every core changed in a way that leaves its settings. -/
theorem Keeps.cores {f : Core → Core} (h : Keeps s₀ s) (hm : t.mem = s.mem) (hc : settings t.core = settings s.core)
    (ho : t.others = s.others.map f) (hj : t.jobs = s.jobs) (hf : ∀ c, settings (f c) = settings c) : Keeps s₀ t := by
  refine h.trans ⟨fun w => by rw [hm]; exact w, fun l => ⟨l.core.of_settings hc, fun c hcm => ?_, by rw [hj]; exact l.saved⟩⟩
  rw [ho] at hcm
  obtain ⟨d, hd, rfl⟩ := List.mem_map.mp hcm
  exact (l.others d hd).of_settings (hf d)

/-- As `Keeps.same`, with the jobs' saved records among those that were there. -/
theorem Keeps.jobs (h : Keeps s₀ s) (hm : t.mem = s.mem) (hc : settings t.core = settings s.core) (ho : t.others = s.others)
    (hj : ∀ j ∈ t.jobs, ∀ c ∈ j.saved, ∃ k ∈ s.jobs, c ∈ k.saved) : Keeps s₀ t := by
  refine h.trans ⟨fun w => by rw [hm]; exact w, fun l => ⟨l.core.of_settings hc, by rw [ho]; exact l.others, fun j hjm c hcm => ?_⟩⟩
  obtain ⟨k, hk, hck⟩ := hj j hjm c hcm
  exact l.saved k hk c hck

theorem AllLegal.coreOf (l : AllLegal s) (e : Nat) : Legal (s.coreOf e) := by
  unfold State.coreOf
  split
  · exact l.core
  · cases hf : s.others.find? (fun c => c.id == e) with
    | none => exact legal_reset e
    | some c => exact l.others c (List.mem_of_find?_eq_some hf)

theorem mem_insCore {c d : Core} {l : List Core} (h : d ∈ insCore c l) : d = c ∨ d ∈ l := by
  induction l with
  | nil => simpa [insCore] using h
  | cons x xs ih =>
    unfold insCore at h
    split at h
    · simpa using h
    · split at h <;> simp only [List.mem_cons] at h ⊢ <;> tauto

theorem mapCore_keeps {e : Nat} {f : Core → Core} (hf : ∀ c, settings (f c) = settings c) (h : Keeps s₀ s) :
    Keeps s₀ (s.mapCore e f) := by
  unfold State.mapCore
  split
  · exact h.same rfl (hf _) rfl rfl
  · refine h.trans ⟨id, fun l => ⟨l.core, fun c hc => ?_, l.saved⟩⟩
    rcases mem_insCore hc with rfl | hc
    · exact (l.coreOf e).of_settings (hf _)
    · exact l.others c hc

theorem focusOn_keeps {e : Nat} (h : Keeps s₀ s) : Keeps s₀ (s.focusOn e) := by
  unfold State.focusOn
  split
  · exact h
  · refine h.trans ⟨id, fun l => ⟨l.coreOf e, fun c hc => ?_, l.saved⟩⟩
    rcases mem_insCore hc with rfl | hc
    · exact l.core
    · exact l.others c (List.mem_of_mem_filter hc)

theorem at_keeps {e : Nat} {f : State → State} (hf : ∀ s, Keeps s₀ s → Keeps s₀ (f s)) (h : Keeps s₀ s) :
    Keeps s₀ (s.at e f) := focusOn_keeps (hf _ (focusOn_keeps h))

theorem mapJob_keeps {asid : Nat} {f : Job → Job} (hf : ∀ j, (f j).saved = j.saved) (h : Keeps s₀ s) :
    Keeps s₀ (s.mapJob asid f) := by
  refine h.jobs rfl rfl rfl fun j hj c hc => ?_
  obtain ⟨k, hk, rfl⟩ := List.mem_map.mp hj
  refine ⟨k, hk, ?_⟩
  split at hc
  · rwa [hf] at hc
  · exact hc

/-- Saved records changed in a way that leaves their settings. -/
theorem mapSaved_keeps {asid : Nat} {f : Core → Core} (hf : ∀ c, settings (f c) = settings c) (h : Keeps s₀ s) :
    Keeps s₀ (s.mapJob asid (fun j => { j with saved := j.saved.map f })) := by
  refine ⟨h.mem, fun l => ⟨(h.legal l).core, (h.legal l).others, fun j hj c hc => ?_⟩⟩
  obtain ⟨k, hk, rfl⟩ := List.mem_map.mp hj
  split at hc
  · obtain ⟨d, hd, rfl⟩ := List.mem_map.mp hc
    exact ((h.legal l).saved k hk d hd).of_settings (hf d)
  · exact (h.legal l).saved k hk c hc

/-- A core given a record of its own. -/
theorem mapCore_legal {e : Nat} {f : Core → Core} (hf : AllLegal s₀ → ∀ c, Legal (f c)) (h : Keeps s₀ s) :
    Keeps s₀ (s.mapCore e f) := by
  unfold State.mapCore
  split
  · exact ⟨h.mem, fun l => ⟨hf l _, (h.legal l).others, (h.legal l).saved⟩⟩
  · refine ⟨h.mem, fun l => ⟨(h.legal l).core, fun c hc => ?_, (h.legal l).saved⟩⟩
    rcases mem_insCore hc with rfl | hc
    · exact hf l _
    · exact (h.legal l).others c hc

theorem putBytes_keeps {a : Nat} {bs : List Byte} (h : Keeps s₀ s) : Keeps s₀ (s.putBytes a bs) :=
  h.trans ⟨memSets_wf bs s.mem a, fun l => ⟨l.core, l.others, l.saved⟩⟩

theorem foldl_keeps {α : Type} {f : State → α → State} (hf : ∀ s a, Keeps s₀ s → Keeps s₀ (f s a)) (xs : List α)
    (h : Keeps s₀ s) : Keeps s₀ (xs.foldl f s) := by
  induction xs generalizing s with
  | nil => exact h
  | cons x xs ih => exact ih (hf s x h)

/-- As `foldl_keeps`, with an answer beside the state. -/
theorem foldl_fst_keeps {α β : Type} {f : State × β → α → State × β} (hf : ∀ x a, Keeps s₀ x.1 → Keeps s₀ (f x a).1)
    (xs : List α) {x : State × β} (h : Keeps s₀ x.1) : Keeps s₀ (xs.foldl f x).1 := by
  induction xs generalizing x with
  | nil => exact h
  | cons a xs ih => exact ih (hf x a h)

/-- The first part of a pair that was taken apart. -/
theorem Keeps.fst {α : Type} {p : State × α} {a : α} (h : Keeps s₀ p.1) (hp : p = (t, a)) : Keeps s₀ t := by
  subst hp
  exact h

theorem getD_keeps {o : Option State} (h : Keeps s₀ s) (ho : ∀ t, o = some t → Keeps s₀ t) : Keeps s₀ (o.getD s) := by
  cases o with
  | none => exact h
  | some t => exact ho t rfl

/-! ### Operations and outcomes -/

/-- The state that an operation ends in. -/
def endOf {α : Type} : EStateM.Result Stop State α → State
  | .ok _ t => t
  | .error _ t => t

/-- An operation keeps the invariants from a state on. -/
def KeepsAt {α : Type} (f : Op α) (s : State) : Prop := Keeps s (endOf (f s))

theorem pure_keeps {α : Type} {a : α} : KeepsAt (pure a) s := .refl s
theorem raise_keeps {α : Type} {c : Cause} {v : Int} : KeepsAt (raise (α := α) c v) s := .refl s
theorem waitHere_keeps {α : Type} : KeepsAt (waitHere (α := α)) s := .refl s
theorem throw_keeps {α : Type} {e : Stop} : KeepsAt (throw e : Op α) s := .refl s
theorem get_keeps : KeepsAt get s := .refl s
theorem set_keeps (h : Keeps s t) : KeepsAt (set t) s := h
theorem upd_keeps {f : State → State} (h : ∀ s, Keeps s (f s)) : KeepsAt (upd f) s := h s

theorem bind_keeps {α β : Type} {f : Op α} {k : α → Op β} (hf : KeepsAt f s) (hk : ∀ a t, KeepsAt (k a) t) :
    KeepsAt (f >>= k) s := by
  unfold KeepsAt at *
  show Keeps s (endOf (EStateM.bind f k s))
  unfold EStateM.bind
  cases hr : f s with
  | ok a t =>
    rw [hr] at hf
    exact hf.trans (hk a t)
  | error e t =>
    rw [hr] at hf
    exact hf

/-- The state that is read is the one that stands. -/
theorem get_bind_keeps {β : Type} {k : State → Op β} (hk : KeepsAt (k s) s) : KeepsAt (get >>= k) s := hk

theorem set_bind_keeps {β : Type} {k : PUnit → Op β} (h : Keeps s t) (hk : KeepsAt (k ⟨⟩) t) : KeepsAt (set t >>= k) s :=
  h.trans hk

theorem need_keeps {b : Bool} {c : Cause} {v : Int} : KeepsAt (need b c v) s := by
  unfold need
  split
  · exact pure_keeps
  · exact raise_keeps

theorem await_keeps {b : Bool} : KeepsAt (await b) s := by
  unfold await
  split
  · exact pure_keeps
  · exact waitHere_keeps

/-! Checks leave the state. -/

theorem need_bind_keeps {β : Type} {b : Bool} {c : Cause} {v : Int} {k : Unit → Op β} (hk : KeepsAt (k ()) s) :
    KeepsAt (need b c v >>= k) s := by
  cases b
  · exact Keeps.refl s
  · exact hk

theorem legal_bind_keeps {β : Type} {b : Bool} {k : Unit → Op β} (hk : KeepsAt (k ()) s) : KeepsAt (legal b >>= k) s := by
  cases b
  · exact Keeps.refl s
  · exact hk

theorem await_bind_keeps {β : Type} {b : Bool} {k : Unit → Op β} (hk : KeepsAt (k ()) s) : KeepsAt (await b >>= k) s := by
  cases b
  · exact Keeps.refl s
  · exact hk

/-- An operation that leaves the state where it answers. -/
theorem check_bind_keeps {α β : Type} {f : Op α} {k : α → Op β} (hf : KeepsAt f s) (hs : ∀ a t, f s = .ok a t → t = s)
    (hk : ∀ a, KeepsAt (k a) s) : KeepsAt (f >>= k) s := by
  unfold KeepsAt at *
  show Keeps s (endOf (EStateM.bind f k s))
  unfold EStateM.bind
  cases hr : f s with
  | ok a t =>
    cases hs a t hr
    exact hk a
  | error e t =>
    rw [hr] at hf
    exact hf

theorem foldlM_keeps {α β : Type} {f : β → α → Op β} (hf : ∀ b a s, KeepsAt (f b a) s) (xs : List α) {b : β} :
    KeepsAt (xs.foldlM f b) s := by
  induction xs generalizing b s with
  | nil => exact pure_keeps
  | cons x xs ih => exact bind_keeps (hf b x s) fun _ _ => ih

/-- Where an operation has ended. -/
theorem KeepsAt.ok {α : Type} {f : Op α} {a : α} (hf : KeepsAt f s) (h : Keeps s₀ s) (hr : f s = .ok a t) : Keeps s₀ t := by
  unfold KeepsAt at hf
  rw [hr] at hf
  exact h.trans hf

theorem KeepsAt.error {α : Type} {f : Op α} {e : Stop} (hf : KeepsAt f s) (h : Keeps s₀ s) (hr : f s = .error e t) :
    Keeps s₀ t := by
  unfold KeepsAt at hf
  rw [hr] at hf
  exact h.trans hf

/-- Where the machine has a next state, it keeps the invariants. -/
def KeepsNext (s : State) (o : Host.Outcome State Fault Refusal) : Prop := ∀ t, o = .next t → Keeps s t

theorem next_keeps (h : Keeps s t) : KeepsNext s (.next t) := by
  rintro _ ⟨⟩
  exact h

theorem fault_keeps {f : Fault} : KeepsNext s (.fault f) := by
  rintro _ ⟨⟩

/-- What has been done before counts too. -/
theorem KeepsNext.from {o : Host.Outcome State Fault Refusal} (h : Keeps s₀ s) (ho : KeepsNext s o) : KeepsNext s₀ o :=
  fun t ht => h.trans (ho t ht)

theorem done_keeps (h : Keeps s t) : KeepsNext s (done t) := next_keeps h

end Sys2Proof.Proofs
end

section
/-! PROOFS. One rule for each operation of the model, in the model's order: it keeps what `Keeps` says. The last are those of an
instruction, a move and a step, and the two invariants follow. -/
namespace Sys2Proof.Proofs
open Sys2Proof Sys2Proof.Machine Sys2Proof.Laws
set_option Elab.async false

variable {s₀ s t : State}

theorem putNat_keeps {a n x : Nat} (h : Keeps s₀ s) : Keeps s₀ (s.putNat a n x) :=
  putBytes_keeps h

theorem putCap_keeps {a : Nat} {c : Cap} (h : Keeps s₀ s) : Keeps s₀ (s.putCap a c) := by
  unfold State.putCap
  extract_lets s1
  have h1 : Keeps s₀ s1 := putNat_keeps h
  clear_value s1
  split
  · exact .same h1 rfl rfl rfl rfl
  · exact h1

theorem setCtx_keeps {x : Ctx} (h : Keeps s₀ s) : Keeps s₀ (s.setCtx x) :=
  .same h rfl rfl rfl rfl

theorem wc_keeps {n : Fin 32} {v : Cap} (h : Keeps s₀ s) : Keeps s₀ (s.wc n v) :=
  setCtx_keeps h

theorem wx_keeps {n : Fin 32} {v : Word} (h : Keeps s₀ s) : Keeps s₀ (s.wx n v) :=
  wc_keeps h

theorem wo_keeps {n : Fin 8} {v : Word} (h : Keeps s₀ s) : Keeps s₀ (s.wo n v) :=
  setCtx_keeps h

theorem dropH0_keeps {f : RegFile} {i : Nat} (h : Keeps s₀ s) : Keeps s₀ (s.dropH0 f i) :=
  .same h rfl rfl rfl rfl

theorem wv_keeps {n : Fin 64} {v : VReg} (h : Keeps s₀ s) : Keeps s₀ (s.wv n v) := by
  unfold State.wv
  extract_lets s1 v1
  have h1 : Keeps s₀ s1 := dropH0_keeps h
  exact .same h1 rfl rfl rfl rfl

theorem wm_keeps {n : Fin 8} {v : BitVec 32} (h : Keeps s₀ s) : Keeps s₀ (s.wm n v) := by
  unfold State.wm
  split
  · exact h
  · extract_lets s1 v1
    have h1 : Keeps s₀ s1 := dropH0_keeps h
    exact .same h1 rfl rfl rfl rfl

theorem wg_keeps {n : Fin 16} {v : Bool} (h : Keeps s₀ s) : Keeps s₀ (s.wg n v) := by
  unfold State.wg
  split
  · exact h
  · extract_lets s1 v1
    have h1 : Keeps s₀ s1 := dropH0_keeps h
    exact .same h1 rfl rfl rfl rfl

theorem later_keeps {f : RegFile} {i : Nat} {v : VReg} {l : Nat} (h : Keeps s₀ s) : Keeps s₀ (s.later f i v l) :=
  setCtx_keeps h

theorem laterX_keeps {n : Fin 32} {v : Word} {l : Nat} (h : Keeps s₀ s) : Keeps s₀ (s.laterX n v l) := by
  unfold State.laterX
  split
  · exact h
  · exact later_keeps h

theorem laterV_keeps {n : Fin 64} {v : VReg} {l : Nat} (h : Keeps s₀ s) : Keeps s₀ (s.laterV n v l) :=
  later_keeps h

theorem laterM_keeps {n : Fin 8} {v : BitVec 32} {l : Nat} (h : Keeps s₀ s) : Keeps s₀ (s.laterM n v l) := by
  unfold State.laterM
  split
  · exact h
  · exact later_keeps h

theorem wAny_keeps {f : RegFile} {i : Nat} {v : VReg} (h : Keeps s₀ s) : Keeps s₀ (s.wAny f i v) := by
  unfold State.wAny
  split
  · split
    · split
      · exact h
      · exact setCtx_keeps h
    · exact h
  · split
    · exact .same h rfl rfl rfl rfl
    · exact h
  · split
    · split
      · exact h
      · exact .same h rfl rfl rfl rfl
    · exact h
  · split
    · split
      · exact h
      · exact .same h rfl rfl rfl rfl
    · exact h
  · split
    · exact setCtx_keeps h
    · exact h

theorem applyFix_keeps {cyc : Nat} {a1 : List FixPend} (h : Keeps s₀ s) : Keeps s₀ (applyFix cyc a1 s) := by
  induction a1 generalizing s cyc with
  | nil => exact h
  | cons x xs ih =>
    refine ih ?_
    split
    · exact wAny_keeps h
    · exact h

theorem settleAt_keeps {cyc : Nat} (h : Keeps s₀ s) : Keeps s₀ (s.settleAt cyc) := by
  unfold State.settleAt
  extract_lets ps s1 v1
  have h1 : Keeps s₀ s1 := applyFix_keeps h
  exact setCtx_keeps h1

theorem settle_keeps (h : Keeps s₀ s) : Keeps s₀ s.settle :=
  settleAt_keeps h

theorem settleAll_keeps (h : Keeps s₀ s) : Keeps s₀ s.settleAll :=
  settleAt_keeps h

theorem mapCtx_keeps {h' : Fin 11} {f : Ctx → Ctx} (h : Keeps s₀ s) : Keeps s₀ (s.mapCtx h' f) :=
  .same h rfl rfl rfl rfl

theorem count_keeps {k : Fin 11} {n : Nat} (h : Keeps s₀ s) : Keeps s₀ (s.count k n) :=
  .same h rfl rfl rfl rfl

theorem tlbFill_keeps {a1 : Tlb} (h : Keeps s₀ s) : Keeps s₀ (s.tlbFill a1) :=
  .same h rfl rfl rfl rfl

theorem numbered_keeps (h : Keeps s₀ s) : Keeps s₀ s.numbered :=
  .same h rfl rfl rfl rfl

theorem setKnown_keeps {k : Known} (h : Keeps s₀ s) : Keeps s₀ (s.setKnown k) :=
  .same h rfl rfl rfl rfl

theorem learn_keeps {a1 : Nat × Nat} {ns : List Nat} (h : Keeps s₀ s) : Keeps s₀ (s.learn a1 ns) :=
  setKnown_keeps h

theorem edge_keeps {from_ to_ : Nat × Nat} (h : Keeps s₀ s) : Keeps s₀ (s.edge from_ to_) :=
  setKnown_keeps h

theorem noteDevice_keeps {past : List Nat} {va a n : Nat} (h : Keeps s₀ s) : Keeps s₀ (s.noteDevice past va a n) :=
  numbered_keeps (.same h rfl rfl rfl rfl)

theorem keepSource_keeps {me : Nat × Nat} {va a n : Nat} (h : Keeps s₀ s) : Keeps s₀ (s.keepSource me va a n) :=
  noteDevice_keeps h

theorem tellHost_keeps {e : HostEvent} (h : Keeps s₀ s) : Keeps s₀ (s.tellHost e) :=
  .same h rfl rfl rfl rfl

theorem trace_keeps {typ cause data : Nat} (h : Keeps s₀ s) : Keeps s₀ (s.trace typ cause data) := by
  unfold State.trace
  split
  · exact h
  · dsimp only
    split
    · exact mapJob_keeps (fun j => rfl) h
    · exact h

theorem stopNow_settings {c : Core} : settings c.stopNow = settings c := by
  unfold Core.stopNow
  split
  · exact rfl
  · exact rfl

theorem askStop_settings {c : Core} {reason origin now : Nat} : settings (c.askStop reason origin now) = settings c := by
  unfold Core.askStop
  split
  · exact by split <;> rfl
  · exact rfl

theorem gangStop_keeps {asid reason origin : Nat} (h : Keeps s₀ s) : Keeps s₀ (s.gangStop asid reason origin) := by
  unfold State.gangStop
  split
  · exact h
  · extract_lets s1 s2
    have h1 : Keeps s₀ s1 := foldl_keeps (fun s3 b h => mapCore_keeps (fun c => askStop_settings) h) _ h
    have h2 : Keeps s₀ s2 := mapJob_keeps (fun j => by split <;> rfl) h1
    split
    · exact tellHost_keeps h2
    · split
      · exact tellHost_keeps h2
      · exact h2

theorem homeHit_keeps {e : Nat} {h' : Fin 2} {va writer : Nat} (h : Keeps s₀ s) : Keeps s₀ (s.homeHit e h' va writer) := by
  unfold State.homeHit
  extract_lets c old hits s1 s2
  have h1 : Keeps s₀ s1 := at_keeps (fun s3 h => trace_keeps h) h
  have h2 : Keeps s₀ s2 := mapCore_keeps (fun c1 => rfl) h1
  split
  · exact mapCore_keeps (fun c1 => rfl) h1
  · split
    · split
      · exact gangStop_keeps h2
      · exact h2
    · exact h2

theorem homeWatch_keeps {a n writer : Nat} (h : Keeps s₀ s) : Keeps s₀ (s.homeWatch a n writer) := by
  refine foldl_keeps ?_ _ h
  intro s1 c h
  refine foldl_keeps ?_ _ h
  intro s2 b h
  split
  · exact homeHit_keeps h
  · exact h

theorem l2Fill_keeps {slice line : Nat} {dirty : Bool} (h : Keeps s₀ s) : Keeps s₀ (s.l2Fill slice line dirty) :=
  .same h rfl rfl rfl rfl

theorem l2Read_keeps {die line : Nat} (h : Keeps s₀ s) : Keeps s₀ (s.l2Read die line) := by
  unfold State.l2Read
  split
  · exact h
  · split
    · exact l2Fill_keeps h
    · exact l2Fill_keeps (l2Fill_keeps h)

theorem l2Write_keeps {line : Nat} (h : Keeps s₀ s) : Keeps s₀ (s.l2Write line) := by
  unfold State.l2Write
  split
  · exact h
  · exact l2Fill_keeps (.same h rfl rfl rfl rfl)

theorem l2Drop_keeps {line : Nat} (h : Keeps s₀ s) : Keeps s₀ (s.l2Drop line) :=
  .same h rfl rfl rfl rfl

theorem l2Store_keeps {cached : Bool} {line : Nat} (h : Keeps s₀ s) : Keeps s₀ (s.l2Store cached line) := by
  unfold State.l2Store
  split
  · exact l2Write_keeps h
  · exact l2Drop_keeps h

theorem l2Fetch_keeps {cached : Bool} {a n : Nat} (h : Keeps s₀ s) : Keeps s₀ (s.l2Fetch cached a n) := by
  unfold State.l2Fetch
  split
  · exact foldl_keeps (fun s1 b h => l2Read_keeps h) _ h
  · exact h

theorem cutAt_settings {c : Core} {lines : List Nat} {no at_ : Nat} : settings (c.cutAt lines no at_) = settings c :=
  rfl

theorem cutLines_keeps {lines : List Nat} {at_ : Nat} (h : Keeps s₀ s) : Keeps s₀ (s.cutLines lines at_) :=
  .cores h rfl rfl rfl rfl (fun _ => rfl)

theorem touch_keeps {a n : Nat} (h : Keeps s₀ s) : Keeps s₀ (s.touch a n) := by
  unfold State.touch
  split
  · exact .same h rfl rfl rfl rfl
  · exact h

theorem pteWrite_keeps {ea x writer : Nat} (h : Keeps s₀ s) : Keeps s₀ (s.pteWrite ea x writer) := by
  unfold State.pteWrite
  extract_lets s1
  have h1 : Keeps s₀ s1 := l2Drop_keeps (putNat_keeps (cutLines_keeps h))
  exact noteDevice_keeps (homeWatch_keeps h1)

theorem pteSet_keeps {l : Leaf} {mask : Nat} (h : Keeps s₀ s) : Keeps s₀ (s.pteSet l mask).1 := by
  unfold State.pteSet
  extract_lets s1 now
  have h1 : Keeps s₀ s1 := touch_keeps h
  split
  · exact h1
  · exact pteWrite_keeps h1

theorem wcacheFill_keeps {asid va : Nat} {path : List (Nat × Nat × Nat)} (h : Keeps s₀ s) : Keeps s₀
    (s.wcacheFill asid va path) :=
  .same h rfl rfl rfl rfl

theorem walk_keeps {asid root va : Nat} (h : Keeps s₀ s) : Keeps s₀ (s.walk asid root va).1 := by
  have hp {xs : List (Nat × Nat × Nat)} : Keeps s₀
      ((xs.foldl (fun (s : State) x => (s.l2Read (dieOf s.core.id) (x.2.1 / 128)).touch x.2.1 8)
        { s with freeN := s.freeN + (s.oldPointers asid va).length }).wcacheFill asid va xs) :=
    wcacheFill_keeps (foldl_keeps (fun s a h => touch_keeps (l2Read_keeps h)) _ (.same h rfl rfl rfl rfl))
  unfold State.walk
  dsimp only
  split
  · exact pteSet_keeps hp
  · exact hp

theorem leafOf_keeps {asid root va : Nat} (h : Keeps s₀ s) : Keeps s₀ (s.leafOf asid root va).1 := by
  unfold State.leafOf
  extract_lets fill
  have hfill {u : State} (hu : Keeps s₀ u) : Keeps s₀ (fill u).1 := by
    unfold fill
    split
    · rename_i hw
      exact tlbFill_keeps (.fst (walk_keeps hu) hw)
    · rename_i hw
      exact .fst (walk_keeps hu) hw
  clear_value fill
  split
  · exact hfill h
  extract_lets held
  split
  · exact h
  split
  · exact .same h rfl rfl rfl rfl
  · exact hfill (.same h rfl rfl rfl rfl)

theorem segOf_keeps {w : Who} {k : Machine.Acc} {va len : Nat} : KeepsAt (segOf w k va len) s := by
  refine get_bind_keeps ?_
  split
  · split
    · exact pure_keeps
    · exact raise_keeps
  · split
    · exact raise_keeps
    · split
      refine set_bind_keeps ?_ ?_
      · rename_i he
        exact .fst (leafOf_keeps (.refl _)) he
      · split
        · exact raise_keeps
        · split
          · exact pure_keeps
          · exact raise_keeps

theorem segsOf_keeps {w : Who} {k : Machine.Acc} {a2 : List (Nat × Nat)} : KeepsAt (segsOf w k a2) s := by
  induction a2 generalizing w k s with
  | nil => exact pure_keeps
  | cons x xs ih => exact bind_keeps segOf_keeps (fun a s1 => bind_keeps ih (fun a1 s2 => pure_keeps))

theorem capNeed_keeps {c : Cap} {ps : List Nat} {a : Int} {n align : Nat} : KeepsAt (capNeed c ps a n align) s := by
  unfold capNeed
  split
  · exact raise_keeps
  · exact pure_keeps

theorem blockNeed_keeps {c : Cap} {ps : List Nat} {a : Int} {n align : Nat} : KeepsAt (blockNeed c ps a n align) s := by
  unfold blockNeed
  split
  · exact raise_keeps
  · exact raise_keeps
  · exact pure_keeps

theorem watchNeed_keeps {k : Machine.Acc} {va n : Nat} : KeepsAt (watchNeed k va n) s := by
  refine get_bind_keeps ?_
  split
  · exact raise_keeps
  · exact pure_keeps

theorem errorNeed_keeps {k : Machine.Acc} {gs : List Seg} : KeepsAt (errorNeed k gs) s := by
  refine get_bind_keeps ?_
  split
  · exact need_keeps
  · exact pure_keeps

theorem goodNeed_keeps {k : Machine.Acc} {gs : List Seg} : KeepsAt (goodNeed k gs) s :=
  bind_keeps errorNeed_keeps (fun _ _ => get_bind_keeps await_keeps)

theorem access_keeps {c : Cap} {ps : List Nat} {a : Int} {n align : Nat} {k : Machine.Acc} : KeepsAt (access c ps a n align k)
    s :=
  bind_keeps capNeed_keeps (fun _ _ => get_bind_keeps
      (bind_keeps segsOf_keeps (fun _ _ => bind_keeps goodNeed_keeps
          (fun _ _ => bind_keeps watchNeed_keeps (fun _ _ => pure_keeps)))))

theorem l1Fill_keeps {line : Nat} (h : Keeps s₀ s) : Keeps s₀ (s.l1Fill line) := by
  unfold State.l1Fill
  extract_lets s1 sets rest v1
  have h1 : Keeps s₀ s1 := l2Read_keeps (count_keeps h)
  split
  split
  · exact h1
  · exact .same h1 rfl rfl rfl rfl

theorem l1Load_keeps {a1 : Nat × Nat} {a n : Nat} (h : Keeps s₀ s) : Keeps s₀ (s.l1Load a1 a n).1 := by
  unfold State.l1Load
  dsimp only
  split
  · exact l1Fill_keeps h
  · split
    · exact count_keeps h
    · split
      · exact count_keeps (.same h rfl rfl rfl rfl)
      · exact l1Fill_keeps (.same h rfl rfl rfl rfl)

theorem l1Lines_keeps {a1 : Nat × Nat} {a2 : List (Nat × Nat)} (h : Keeps s₀ s) : Keeps s₀ (s.l1Lines a1 a2).1 := by
  induction a2 generalizing s a1 with
  | nil => exact h
  | cons x xs ih =>
    refine ih ?_
    split
    · exact l1Fill_keeps h
    · split
      · exact count_keeps h
      · extract_lets s1
        have h1 : Keeps s₀ s1 := .same h rfl rfl rfl rfl
        split
        · exact count_keeps h1
        · exact l1Fill_keeps h1

theorem markLines_settings {c : Core} {lines : List Nat} {a2 : Nat × Nat} : settings (c.markLines lines a2) = settings c :=
  rfl

theorem markLines_keeps {lines : List Nat} {a2 : Nat × Nat} (h : Keeps s₀ s) : Keeps s₀ (s.markLines lines a2) :=
  .cores h rfl rfl rfl rfl (fun _ => rfl)

theorem reportMixed_settings {c : Core} {va : Nat} : settings (c.reportMixed va) = settings c := by
  unfold Core.reportMixed
  split
  · exact rfl
  · exact rfl

theorem reportMixed_keeps {e va : Nat} (h : Keeps s₀ s) : Keeps s₀ (s.reportMixed e va) := by
  unfold State.reportMixed
  split
  · exact mapCore_keeps (fun c => reportMixed_settings) h
  · exact h

theorem learnSources_keeps {me : Nat × Nat} {a n esz : Nat} {old : List L1Line} (h : Keeps s₀ s) : Keeps s₀
    (s.learnSources me a n esz old) := by
  unfold State.learnSources
  split
  · exact h
  · exact learn_keeps h

theorem noteAs_keeps {me : Nat × Nat} {va a n esz : Nat} {write : Bool} {at_ : Nat} (h : Keeps s₀ s) : Keeps s₀
    (s.noteAs me va a n esz write at_) := by
  unfold State.noteAs
  extract_lets s1 k r
  have h1 : Keeps s₀ s1 := foldl_keeps (fun s2 b h => reportMixed_keeps h) _ h
  exact numbered_keeps (setKnown_keeps (.same h1 rfl rfl rfl rfl))

theorem bytesAt_keeps {a n : Nat} (h : Keeps s₀ s) : Keeps s₀ (s.bytesAt a n).1 := by
  unfold State.bytesAt
  split
  · exact h
  · exact .same h rfl rfl rfl rfl

theorem readAt_keeps {me : Nat × Nat} {va a n esz : Nat} {old : List L1Line} {at_ : Nat} (h : Keeps s₀ s) : Keeps s₀
    (s.readAt me va a n esz old at_).1 := by
  unfold State.readAt
  extract_lets s1 rs
  have h1 : Keeps s₀ s1 := learnSources_keeps h
  split
  extract_lets bs s2
  have h2 : Keeps s₀ s2 := by
    unfold s2
    split
    · rename_i he _
      exact .fst (bytesAt_keeps h1) he
    · rename_i s' _ _ _
      refine .same (s := s') ?_ rfl rfl rfl rfl
      rename_i he _
      exact .fst (bytesAt_keeps h1) he
  exact noteAs_keeps h2

theorem readAs_keeps {me : Nat × Nat} {va a n esz : Nat} (h : Keeps s₀ s) : Keeps s₀ (s.readAs me va a n esz).1 :=
  readAt_keeps h

theorem throughL1_keeps {a1 : Nat × Nat} {g : Seg} (h : Keeps s₀ s) : Keeps s₀ (s.throughL1 a1 g).1 := by
  unfold State.throughL1
  split
  · exact l1Lines_keeps h
  · exact h

theorem loadSegOld_keeps {esz : Nat} {g : Seg} (h : Keeps s₀ s) : Keeps s₀ (s.loadSegOld esz g).1 := by
  unfold State.loadSegOld
  split
  split
  · rename_i he _
    exact .fst (throughL1_keeps h) he
  · split
    rename_i he
    refine .fst ?_ he
    refine readAt_keeps ?_
    rename_i he1 _ _ _ _
    exact .fst (throughL1_keeps h) he1

theorem loadSeg_keeps {esz : Nat} {g : Seg} (h : Keeps s₀ s) : Keeps s₀ (s.loadSeg esz g).1 := by
  unfold State.loadSeg
  split
  rename_i he
  exact .fst (loadSegOld_keeps h) he

theorem loadSegs_keeps {a0 : List Seg} {a1 : Nat} : KeepsAt (loadSegs a0 a1) s := by
  induction a0 generalizing a1 s with
  | nil => exact pure_keeps
  | cons x xs ih =>
    refine get_bind_keeps ?_
    split
    refine set_bind_keeps ?_ (bind_keeps ih (fun a s1 => pure_keeps))
    rename_i he
    exact .fst (loadSeg_keeps (.refl _)) he

theorem loadEach_keeps {esz : Nat} {a1 : List Seg} {a2 a3 : Nat} {a4 : List Byte} : KeepsAt (loadEach esz a1 a2 a3 a4) s := by
  induction a1 generalizing esz a2 a3 a4 s with
  | nil => exact pure_keeps
  | cons x xs ih =>
    unfold loadEach
    split
    · exact bind_keeps (upd_keeps (fun s1 => setCtx_keeps (.refl _))) (fun a s1 => waitHere_keeps)
    · refine get_bind_keeps ?_
      split
      refine set_bind_keeps ?_ ih
      rename_i he
      exact .fst (loadSeg_keeps (.refl _)) he

theorem loadParts_keeps {gs : List Seg} {esz : Nat} : KeepsAt (loadParts gs esz) s := by
  refine get_bind_keeps ?_
  split
  · split
    · exact loadSegs_keeps
    · exact loadEach_keeps
  · split
    · exact loadEach_keeps
    · exact loadEach_keeps
    · exact loadSegs_keeps

theorem jobWalk_keeps {asid va : Nat} {k : Machine.Acc} (h : Keeps s₀ s) : Keeps s₀ (s.jobWalk asid va k).1 := by
  unfold State.jobWalk
  split
  · exact h
  · split
    · rename_i he
      exact .fst (walk_keeps h) he
    · split
      · split
        · refine pteSet_keeps ?_
          rename_i he _ _
          exact .fst (walk_keeps h) he
        · rename_i he _ _
          exact .fst (walk_keeps h) he
      · rename_i he _
        exact .fst (walk_keeps h) he

theorem engineRead_keeps {asid va n : Nat} (h : Keeps s₀ s) : Keeps s₀ (s.engineRead asid va n).1 := by
  refine foldl_fst_keeps ?_ _ h
  intro a b h
  split
  · extract_lets s1
    have h1 : Keeps s₀ s1 := by
      refine touch_keeps ?_
      rename_i he
      exact .fst (jobWalk_keeps h) he
    exact l2Fetch_keeps h1
  · rename_i he
    exact .fst (jobWalk_keeps h) he

theorem put_keeps {at_ : Nat} {cached : Bool} {a : Nat} {bs : List Byte} {writer : Nat} (h : Keeps s₀ s) : Keeps s₀
    (s.put at_ cached a bs writer) := by
  unfold State.put
  split
  · exact homeWatch_keeps (foldl_keeps (fun s1 b h => l2Store_keeps h) _ (putBytes_keeps (cutLines_keeps h)))
  · exact h

theorem store_keeps {at_ : Nat} {cached : Bool} {a : Nat} {bs : List Byte} {writer : Nat} (h : Keeps s₀ s) : Keeps s₀
    (s.store at_ cached a bs writer) :=
  put_keeps h

theorem write_keeps {a : Nat} {bs : List Byte} {writer : Nat} (h : Keeps s₀ s) : Keeps s₀ (s.write a bs writer) :=
  noteDevice_keeps (store_keeps h)

theorem engineWriteAs_keeps {past : List Nat} {asid va : Nat} {bs : List Byte} {writer : Nat} (h : Keeps s₀ s) : Keeps s₀
    (s.engineWriteAs past asid va bs writer) := by
  refine foldl_keeps ?_ _ h
  intro s1 b h
  split
  · extract_lets s2
    have h2 : Keeps s₀ s2 := by
      refine touch_keeps ?_
      rename_i he
      exact .fst (jobWalk_keeps h) he
    exact noteDevice_keeps (put_keeps h2)
  · rename_i he
    exact .fst (jobWalk_keeps h) he

theorem engineWrite_keeps {asid va : Nat} {bs : List Byte} {writer : Nat} (h : Keeps s₀ s) : Keeps s₀
    (s.engineWrite asid va bs writer) :=
  engineWriteAs_keeps h

theorem tracePut_keeps {asid cl : Nat} {r : Ring} {w : Nat} (h : Keeps s₀ s) : Keeps s₀ (s.tracePut asid cl r w) := by
  unfold State.tracePut
  split
  · exact h
  · dsimp only
    split
    · exact h
    · exact mapJob_keeps (fun j => rfl) (engineWrite_keeps h)

theorem traceTurn_keeps {asid cl : Nat} {r : Ring} {stop : Bool} {w : Nat} (h : Keeps s₀ s) : Keeps s₀
    (s.traceTurn asid cl r stop w) := by
  unfold State.traceTurn
  extract_lets lost setLost s1 note
  have h1 : Keeps s₀ s1 := .same h rfl rfl rfl rfl
  split
  · exact tracePut_keeps h
  · split
    · exact mapJob_keeps (fun j => rfl) h1
    · split
      · exact tracePut_keeps h1
      · exact tracePut_keeps (tracePut_keeps (mapJob_keeps (fun j => rfl) h1))

theorem flushRecs_keeps {asid cl : Nat} {r : Ring} {due : Nat → Bool} {a5 : List (Nat × Nat)} (h : Keeps s₀ s) : Keeps s₀
    (s.flushRecs asid cl r due a5) := by
  induction a5 generalizing s asid cl r due with
  | nil => exact h
  | cons x xs ih =>
    unfold State.flushRecs
    split
    · exact h
    · split
      · exact h
      · extract_lets s1
        have h1 : Keeps s₀ s1 := mapJob_keeps (fun j => rfl) h
        exact ih (traceTurn_keeps h1)

theorem flushJob_keeps {j : Job} {due : Nat → Bool} (h : Keeps s₀ s) : Keeps s₀ (s.flushJob j due) :=
  foldl_keeps (fun _ _ h => flushRecs_keeps h) _ h

theorem flushTrace_keeps (h : Keeps s₀ s) : Keeps s₀ s.flushTrace :=
  foldl_keeps (fun _ _ h => flushJob_keeps h) _ h

theorem snapCounters_keeps {me : Nat × Nat} {asid e : Nat} (h : Keeps s₀ s) : Keeps s₀ (s.snapCounters me asid e) := by
  unfold State.snapCounters
  split
  · exact h
  · split
    · exact engineWriteAs_keeps h
    · exact h

theorem stopKnown_keeps {e : Nat} (h : Keeps s₀ s) : Keeps s₀ (s.stopKnown e) :=
  foldl_keeps (fun _ _ h => edge_keeps h) _ h

theorem stopCore_keeps {reason origin : Nat} (h : Keeps s₀ s) : Keeps s₀ (s.stopCore reason origin) := by
  unfold State.stopCore
  extract_lets s1 s2 s3
  have h1 : Keeps s₀ s1 := stopKnown_keeps (.same h rfl stopNow_settings rfl rfl)
  have h2 : Keeps s₀ s2 := snapCounters_keeps h1
  have h3 : Keeps s₀ s3 := trace_keeps h2
  split
  · exact trace_keeps h3
  · exact h3

theorem stopGangHere_keeps {reason : Nat} (h : Keeps s₀ s) : Keeps s₀ (s.stopGangHere reason) := by
  unfold State.stopGangHere
  extract_lets s1 v1 s2 v2
  have h1 : Keeps s₀ s1 := gangStop_keeps h
  have h2 : Keeps s₀ s2 := .same h1 rfl rfl rfl rfl
  split
  · exact .same h2 rfl rfl rfl rfl
  · exact stopCore_keeps h2

theorem dirty_keeps {g : Seg} (h : Keeps s₀ s) : Keeps s₀ (s.dirty g) := by
  unfold State.dirty
  split
  · exact h
  · split
    · exact h
    · extract_lets s1 f v1
      have h1 : Keeps s₀ s1 := pteSet_keeps h
      exact .same h1 rfl rfl rfl rfl

theorem writeAs_keeps {me : Nat × Nat} {writer va a esz : Nat} {cached : Bool} {bs : List Byte} (h : Keeps s₀ s) : Keeps s₀
    (s.writeAs me writer va a esz cached bs) := by
  unfold State.writeAs
  extract_lets at_ rs bs' s1
  have h1 : Keeps s₀ s1 := by
    unfold s1
    split
    · exact h
    · exact .same h rfl rfl rfl rfl
  exact noteAs_keeps (store_keeps h1)

theorem l1Renew_keeps {ls : List Nat} (h : Keeps s₀ s) : Keeps s₀ (s.l1Renew ls) :=
  .same h rfl rfl rfl rfl

theorem storeSeg_keeps {read : Bool} {esz : Nat} {g : Seg} {bs : List Byte} (h : Keeps s₀ s) : Keeps s₀
    (s.storeSeg read esz g bs) := by
  unfold State.storeSeg
  extract_lets ls s1 s2
  have h1 : Keeps s₀ s1 := dirty_keeps h
  have h2 : Keeps s₀ s2 := l1Renew_keeps (writeAs_keeps h1)
  split
  · exact markLines_keeps h2
  · exact h2

theorem storeSegs_keeps {esz : Nat} {a2 : List Seg} {a3 : List Byte} (h : Keeps s₀ s) : Keeps s₀ (s.storeSegs esz a2 a3) := by
  induction a2 generalizing s esz a3 with
  | nil => exact h
  | cons x xs ih => exact ih (storeSeg_keeps h)

theorem storeEach_keeps {esz : Nat} {a1 : List Seg} {a2 : List Byte} {a3 a4 : Nat} : KeepsAt (storeEach esz a1 a2 a3 a4) s := by
  induction a1 generalizing esz a2 a3 a4 s with
  | nil => exact pure_keeps
  | cons x xs ih =>
    unfold storeEach
    split
    · exact bind_keeps (upd_keeps (fun s1 => setCtx_keeps (.refl _))) (fun a s1 => waitHere_keeps)
    · exact bind_keeps (upd_keeps (fun s1 => storeSeg_keeps (.refl _))) (fun a s1 => ih)

theorem storeParts_keeps {gs : List Seg} {esz : Nat} {bs : List Byte} : KeepsAt (storeParts gs esz bs) s := by
  refine get_bind_keeps ?_
  split
  · split
    · exact upd_keeps (fun s1 => storeSegs_keeps (.refl _))
    · exact storeEach_keeps
  · split
    · exact storeEach_keeps
    · exact storeEach_keeps
    · exact upd_keeps (fun s1 => storeSegs_keeps (.refl _))

theorem fetchHalf_keeps {place : Nat} (h : Keeps s₀ s) : Keeps s₀ (s.fetchHalf place).1 := by
  unfold State.fetchHalf
  dsimp only
  split
  · exact .same (s := (s.bytesAt (place / 128 * 128) 128).1.l2Read (dieOf (s.bytesAt (place / 128 * 128) 128).1.core.id)
        (place / 128)) (l2Read_keeps (bytesAt_keeps h)) rfl rfl rfl rfl
  · split
    · exact bytesAt_keeps h
    · split
      · exact .same (s := (s.bytesAt (place / 128 * 128) 128).1) (bytesAt_keeps h) rfl rfl rfl rfl
      · refine .same (s := { (s.bytesAt (place / 128 * 128) 128).1 with freeN := (s.bytesAt (place / 128 * 128) 128).1.freeN
            + 1 }.l2Read (dieOf (s.bytesAt (place / 128 * 128) 128).1.core.id) (place / 128)) ?_ rfl rfl rfl rfl
        refine l2Read_keeps ?_
        extract_lets s1
        have h1 : Keeps s₀ s1 := bytesAt_keeps h
        exact .same h1 rfl rfl rfl rfl

theorem fetchBounds_keeps {c : Cap} {a n : Nat} : KeepsAt (fetchBounds c a n) s := by
  unfold fetchBounds
  split
  · exact raise_keeps
  · exact raise_keeps
  · exact pure_keeps

theorem fetchSeg_keeps {a : Nat} : KeepsAt (fetchSeg a) s :=
  get_bind_keeps (bind_keeps segOf_keeps (fun _ _ => await_bind_keeps pure_keeps))

theorem fetchAt_keeps {g : Seg} : KeepsAt (fetchAt g) s := by
  refine get_bind_keeps ?_
  split
  refine set_bind_keeps ?_ pure_keeps
  rename_i he
  exact .fst (fetchHalf_keeps (.refl _)) he

theorem fetchSecond_keeps {c : Cap} {a : Nat} {g : Seg} : KeepsAt (fetchSecond c a g) s :=
  bind_keeps fetchBounds_keeps (fun _ _ => bind_keeps fetchSeg_keeps
      (fun _ _ => bind_keeps goodNeed_keeps (fun _ _ => fetchAt_keeps)))

theorem fetchInstr_keeps {c : Cap} {a : Nat} : KeepsAt (fetchInstr c a) s := by
  refine bind_keeps fetchBounds_keeps ?_
  intro a1 s1
  refine get_bind_keeps ?_
  split
  · refine set_bind_keeps ?_ waitHere_keeps
    rename_i he
    exact KeepsAt.error fetchSeg_keeps (.refl _) he
  · refine set_bind_keeps ?_ (bind_keeps fetchBounds_keeps (fun a2 s2 => throw_keeps))
    rename_i he
    exact KeepsAt.error fetchSeg_keeps (.refl _) he
  · refine set_bind_keeps ?_ ?_
    · rename_i he
      exact KeepsAt.ok fetchSeg_keeps (.refl _) he
    · split
      · exact bind_keeps fetchSecond_keeps (fun a2 s2 => pure_keeps)
      · refine bind_keeps fetchAt_keeps ?_
        intro a2 s2
        split
        · exact pure_keeps
        · exact bind_keeps fetchSecond_keeps (fun a3 s3 => pure_keeps)

theorem trapEntry_keeps {a1 : Trap} {async : Bool} {restart : Nat} (h : Keeps s₀ s) : Keeps s₀
    (s.trapEntry a1 async restart) := by
  unfold State.trapEntry
  extract_lets s1 x v1 s2 v2
  have h1 : Keeps s₀ s1 := settleAll_keeps h
  have h2 : Keeps s₀ s2 := setCtx_keeps h1
  exact .same h2 rfl rfl rfl rfl

theorem takeTrap_keeps {a1 : Trap} {async : Bool} {restart : Nat} (h : Keeps s₀ s) : Keeps s₀ (s.takeTrap a1 async restart) :=
    by
  unfold State.takeTrap
  split
  · exact stopGangHere_keeps h
  · split
    · exact setCtx_keeps h
    · split
      · exact stopGangHere_keeps (setCtx_keeps h)
      · split
        · exact stopGangHere_keeps (setCtx_keeps h)
        · extract_lets s1
          have h1 : Keeps s₀ s1 := trapEntry_keeps h
          exact trace_keeps h1

theorem trapHere_keeps {a1 : Trap} (h : Keeps s₀ s) : Keeps s₀ (s.trapHere a1) :=
  takeTrap_keeps h

theorem block_keeps (h : Keeps s₀ s) : Keeps s₀ s.block :=
  setCtx_keeps h

theorem finish_keeps {st : Nat} {inBody : Bool} (h : Keeps s₀ s) : Keeps s₀ (s.finish st inBody) :=
  count_keeps (setCtx_keeps h)

theorem stopHelper_keeps (h : Keeps s₀ s) : Keeps s₀ s.stopHelper := by
  unfold State.stopHelper
  extract_lets s1 v1
  have h1 : Keeps s₀ s1 := settleAll_keeps h
  exact setCtx_keeps h1

/-- A boundary cause that is taken leaves the core's settings. -/
theorem boundary_settings {x : Trap × Core} (h : s.boundary = some x) : settings x.2 = settings s.core := by
  unfold State.boundary Core.boundary at h
  repeat' split at h
  all_goals cases h
  all_goals rfl

theorem conclude_keeps {st : Nat} {after : State → State} {f : Op Unit} (hf : KeepsAt f s)
    (hafter : ∀ s₀ s, Keeps s₀ s → Keeps s₀ (after s)) : KeepsNext s (s.conclude st after (f s)) := by
  unfold State.conclude
  split
  · rename_i he
    exact next_keeps (hafter _ _ (finish_keeps (hf.ok (.refl s) he)))
  · rename_i he
    exact next_keeps (trapHere_keeps (hf.error (.refl s) he))
  · rename_i he
    exact next_keeps (block_keeps (hf.error (.refl s) he))
  · exact fault_keeps

theorem issueThen_keeps {g : Gate} {body : Op Unit} {after : State → State} (hbody : KeepsAt body s)
    (hafter : ∀ s₀ s, Keeps s₀ s → Keeps s₀ (after s)) : KeepsNext s (issueThen g body after s) := by
  unfold issueThen
  split
  · exact next_keeps (stopHelper_keeps (.refl s))
  split
  · exact next_keeps (trapHere_keeps (.refl s))
  split
  · rename_i u c hb
    have hc : s.boundary = some (u, c) := by
      split at hb
      · cases hb
      · exact hb
    exact next_keeps (takeTrap_keeps (.same (.refl s) rfl (boundary_settings hc) rfl rfl))
  split
  · exact next_keeps (block_keeps (.refl s))
  · exact conclude_keeps hbody hafter

theorem issue_keeps {g : Gate} {body : Op Unit} (hbody : KeepsAt body s) : KeepsNext s (issue g body s) :=
  issueThen_keeps hbody fun _ _ h => h

theorem jumpNeed_keeps {c : Cap} : KeepsAt (jumpNeed c) s :=
  capNeed_keeps

theorem resumeJobs_settings {c : Core} : settings c.resumeJobs = settings c :=
  rfl

theorem returnFromTrap_keeps (h : Keeps s₀ s) : Keeps s₀ s.returnFromTrap := by
  unfold State.returnFromTrap
  extract_lets p l l1 v1 s1 v2
  have h1 : Keeps s₀ s1 := setCtx_keeps h
  exact trace_keeps (.same h1 rfl rfl rfl rfl)

theorem joinAnswers_keeps (h : Keeps s₀ s) : Keeps s₀ s.joinAnswers :=
  edge_keeps h

theorem mapRec_settings {c : Core} {cls ri : Nat} {f : JobRec → JobRec} : settings (c.mapRec cls ri f) = settings c :=
  rfl

theorem wake_settings {c : Core} : settings c.wake = settings c :=
  rfl

theorem wakeH0_settings {c : Core} : settings c.wakeH0 = settings c :=
  rfl

theorem openJob_keeps {cls : Nat} {f : JobRec → JobRec} (h : Keeps s₀ s) : Keeps s₀ (s.openJob cls f).1 := by
  unfold State.openJob
  extract_lets j s1 v1 c
  have h1 : Keeps s₀ s1 := edge_keeps h
  exact .same h1 rfl (by split <;> rfl) rfl rfl

theorem completeJob_settings {c : Core} {cls ri : Nat} {f : JobRec → JobRec} : settings (c.completeJob cls ri f) = settings c :=
  rfl

theorem abandonMatrix_settings {c : Core} : settings c.abandonMatrix = settings c := by
  unfold Core.abandonMatrix
  dsimp only
  split
  · exact rfl
  · exact rfl

theorem freeJob_settings {c : Core} {id : Word} : settings (c.freeJob id) = settings c :=
  rfl

theorem mapLink_keeps {l : Fin 16} {f : Link → Link} (h : Keeps s₀ s) : Keeps s₀ (s.mapLink l f) :=
  .same h rfl rfl rfl rfl

theorem flushLinks_keeps (h : Keeps s₀ s) : Keeps s₀ s.flushLinks := by
  unfold State.flushLinks
  split
  · exact .same h rfl rfl rfl rfl
  · exact h

theorem wire_keeps {p : Packet} (h : Keeps s₀ s) (ho : s.wire p = some t) : Keeps s₀ t := by
  unfold State.wire at ho
  split at ho
  · cases ho
    exact .same h rfl rfl rfl rfl
  · obtain ⟨l, -, rfl⟩ := Option.map_eq_some_iff.mp ho
    exact mapLink_keeps h

theorem setTx_keeps {a1 : PairTx} (h : Keeps s₀ s) : Keeps s₀ (s.setTx a1) :=
  .same h rfl rfl rfl rfl

theorem setRx_keeps {a1 : PairRx} (h : Keeps s₀ s) : Keeps s₀ (s.setRx a1) :=
  .same h rfl rfl rfl rfl

theorem refuseHere_keeps {p : Packet} (h : Keeps s₀ s) : Keeps s₀ (s.refuseHere p) := by
  refine foldl_keeps ?_ _ h
  intro s1 b h
  dsimp only
  split
  · exact setTx_keeps h
  · exact .same (s := s1.setTx ((s1.pairTx (s.dieMgr (eidLocal p.seid)) b.seid).keep
        { kind := 2, deid := b.seid, seid := s.dieMgr (eidLocal p.seid), pseq :=
            (s1.pairTx (s.dieMgr (eidLocal p.seid)) b.seid).next, asid := b.asid, otag := b.otag, status := rsREFUSED }
                (BitVec.toNat s1.time))) (setTx_keeps h) rfl rfl rfl rfl

theorem transmit_keeps {p : Packet} (h : Keeps s₀ s) : Keeps s₀ (s.transmit p) := by
  unfold State.transmit
  split
  · dsimp only
    split
    · split
      · refine mapCore_keeps (fun c => by split <;> rfl) ?_
        refine setTx_keeps ?_
        rename_i he _
        exact wire_keeps h he
      · refine setTx_keeps ?_
        rename_i he _
        exact wire_keeps h he
    · exact refuseHere_keeps h
  · dsimp only
    split
    · split
      · refine mapCore_keeps (fun c => by split <;> rfl) ?_
        refine setTx_keeps ?_
        rename_i he _
        exact wire_keeps h he
      · refine setTx_keeps ?_
        rename_i he _
        exact wire_keeps h he
    · exact setTx_keeps h

theorem send_keeps {p : Packet} (h : Keeps s₀ s) : Keeps s₀ (s.send p) := by
  unfold State.send
  split
  · dsimp only
    split
    · exact transmit_keeps h
    · split
      · exact transmit_keeps (setTx_keeps h)
      · exact setTx_keeps h
  · exact getD_keeps h (fun s1 ho => wire_keeps h ho)

theorem releaseN_keeps {src dst a3 : Nat} (h : Keeps s₀ s) : Keeps s₀ (s.releaseN src dst a3) := by
  induction a3 generalizing s src dst with
  | zero => exact h
  | succ n ih =>
    unfold State.releaseN
    dsimp only
    split
    · exact h
    · split
      · exact ih (transmit_keeps (setTx_keeps h))
      · split
        · exact h
        · split
          · split
            · exact ih (transmit_keeps (setTx_keeps h))
            · exact h
          · split
            · exact h
            · exact ih (transmit_keeps (setTx_keeps h))

theorem release_keeps {src dst : Nat} (h : Keeps s₀ s) : Keeps s₀ (s.release src dst) :=
  releaseN_keeps h

theorem acked_keeps {src dst pseq : Nat} (h : Keeps s₀ s) : Keeps s₀ (s.acked src dst pseq) :=
  release_keeps (setTx_keeps h)

theorem eackFor_keeps {p : Packet} (h : Keeps s₀ s) : Keeps s₀ (s.eackFor p) :=
  getD_keeps h (fun _ ho => wire_keeps h ho)

theorem replyFrom_keeps {me : Nat} {p : Packet} {status : Nat} {data : List Byte} (h : Keeps s₀ s) : Keeps s₀
    (s.replyFrom me p status data) :=
  send_keeps h

theorem replyTo_keeps {p : Packet} {status : Nat} {data : List Byte} (h : Keeps s₀ s) : Keeps s₀ (s.replyTo p status data) :=
  replyFrom_keeps h

theorem refuse_keeps {p : Packet} (h : Keeps s₀ s) : Keeps s₀ (s.refuse p) := by
  unfold State.refuse
  split
  · exact foldl_keeps (fun s1 b h => replyFrom_keeps h) _ h
  · exact h

theorem forward_keeps {p : Packet} (h : Keeps s₀ s) : Keeps s₀ (s.forward p) := by
  unfold State.forward
  split
  · rename_i he
    exact wire_keeps h he
  · split
    · exact foldl_keeps (fun s1 b h => replyFrom_keeps h) _ h
    · exact h

theorem accept_keeps {p : Packet} (h : Keeps s₀ s) : Keeps s₀ (s.accept p) := by
  unfold State.accept
  extract_lets r s1
  have h1 : Keeps s₀ s1 := eackFor_keeps (setRx_keeps h)
  split
  · exact mapCore_keeps (fun c => by split <;> rfl) h1
  · exact h1

theorem arrive_keeps {p : Packet} {f : State → State} (hf : ∀ s, Keeps s₀ s → Keeps s₀ (f s)) (h : Keeps s₀ s) : Keeps s₀
    (s.arrive p f) := by
  unfold State.arrive
  extract_lets s1 gap s2
  have h1 : Keeps s₀ s1 := .same h rfl rfl rfl rfl
  have h2 : Keeps s₀ s2 := accept_keeps h1
  split
  · split
    · exact hf _ (.same h1 rfl rfl rfl rfl)
    · exact h1
  · split
    · exact h1
    · split
      · exact forward_keeps h1
      · split
        · split
          · exact h1
          · exact hf _ h1
        · split
          · split
            · exact refuse_keeps h2
            · split
              · exact .same h2 rfl rfl rfl rfl
              · exact hf _ (.same h2 rfl rfl rfl rfl)
          · split
            · exact eackFor_keeps h1
            · exact h1

theorem spill_keeps {p : Packet} (h : Keeps s₀ s) : Keeps s₀ (s.spill p) := by
  unfold State.spill
  split
  · exact h
  · extract_lets r s1 s2
    have h1 : Keeps s₀ s1 := by
      unfold s1
      split
      · exact engineWrite_keeps h
      · exact h
    have h2 : Keeps s₀ s2 := by
      unfold s2
      split
      · exact engineWrite_keeps h1
      · exact h1
    exact mapJob_keeps (fun j => rfl) h2

theorem hold_keeps {p : Packet} (h : Keeps s₀ s) : Keeps s₀ (s.hold p) :=
  .same h rfl rfl rfl rfl

theorem sendFrom_keeps {me : Nat × Nat} {p : Packet} {f : RemOp → RemOp} (h : Keeps s₀ s) : Keeps s₀ (s.sendFrom me p f).1 := by
  unfold State.sendFrom
  extract_lets tag p1 s1 v1 s2
  have h1 : Keeps s₀ s1 := edge_keeps (edge_keeps h)
  have h2 : Keeps s₀ s2 := .same h1 rfl rfl rfl rfl
  dsimp only
  exact send_keeps h2

theorem sendOp_keeps {p : Packet} {f : RemOp → RemOp} (h : Keeps s₀ s) : Keeps s₀ (s.sendOp p f).1 :=
  sendFrom_keeps h

theorem unitOp_keeps {p : Packet} (h : Keeps s₀ s) : Keeps s₀ (s.unitOp p) :=
  send_keeps (.same h rfl rfl rfl rfl)

theorem dropOp_settings {c : Core} {tag : Nat} : settings (c.dropOp tag) = settings c :=
  rfl

theorem mapCtxNo_settings {c : Core} {h' : Nat} {f : Ctx → Ctx} : settings (c.mapCtxNo h' f) = settings c := by
  unfold Core.mapCtxNo
  split
  · exact rfl
  · exact rfl

theorem showLevel_keeps {l : Level} (h : Keeps s₀ s) : Keeps s₀ (s.showLevel l) := by
  unfold State.showLevel
  split
  · split
    · extract_lets va s1
      have h1 : Keeps s₀ s1 := engineWrite_keeps h
      split
      · split
        · exact keepSource_keeps h1
        · exact h1
      · exact h1
    · exact h
  · exact h

theorem putLevel_keeps {l : Level} (h : Keeps s₀ s) : Keeps s₀ (s.putLevel l) :=
  showLevel_keeps (.same h rfl rfl rfl rfl)

theorem mapLevel_keeps {asid lid : Nat} {f : Level → Level} (h : Keeps s₀ s) : Keeps s₀ (s.mapLevel asid lid f) := by
  unfold State.mapLevel
  split
  · exact putLevel_keeps h
  · exact h

theorem countUp_keeps {asid lid : Nat} (h : Keeps s₀ s) (ho : s.countUp asid lid = some t) : Keeps s₀ t := by
  unfold State.countUp at ho
  split at ho
  · split at ho
    · cases ho
    · cases ho
      exact putLevel_keeps h
  · cases ho
    exact h

theorem closeLevel_keeps {asid lid : Nat} (h : Keeps s₀ s) : Keeps s₀ (s.closeLevel asid lid) := by
  unfold State.closeLevel
  extract_lets s1
  have h1 : Keeps s₀ s1 := mapLevel_keeps h
  split
  · exact edge_keeps h1
  · exact h1

theorem openLevel_keeps {l : Level} (h : Keeps s₀ s) : Keeps s₀ (s.openLevel l) :=
  putLevel_keeps h

theorem addLaunch_keeps {asid graph : Nat} {sp : LaunchSpec} (h : Keeps s₀ s) : Keeps s₀ (s.addLaunch asid graph sp) :=
  openLevel_keeps h

theorem startGraph_keeps {g : GraphSpec} (h : Keeps s₀ s) : Keeps s₀ (s.startGraph g) := by
  unfold State.startGraph
  split
  · exact mapLevel_keeps (openLevel_keeps h)
  · extract_lets s1
    have h1 : Keeps s₀ s1 := openLevel_keeps h
    exact foldl_keeps (fun s2 b h => edge_keeps (addLaunch_keeps h)) _ h1

theorem nextGraphs_keeps {asid phase : Nat} {a3 : List GraphSpec} (h : Keeps s₀ s) : Keeps s₀ (s.nextGraphs asid phase a3) := by
  induction a3 generalizing s asid phase with
  | nil => exact h
  | cons x xs ih =>
    unfold State.nextGraphs
    split
    · exact h
    · exact ih (startGraph_keeps (mapJob_keeps (fun j => rfl) h))

theorem nextGraph_keeps {asid phase : Nat} (h : Keeps s₀ s) : Keeps s₀ (s.nextGraph asid phase) :=
  nextGraphs_keeps h

theorem graphDone_keeps {asid graph : Nat} (h : Keeps s₀ s) : Keeps s₀ (s.graphDone asid graph) := by
  unfold State.graphDone
  extract_lets phase s1 s2
  have h1 : Keeps s₀ s1 := closeLevel_keeps h
  have h2 : Keeps s₀ s2 := mapLevel_keeps h1
  split
  · split
    · split
      · exact closeLevel_keeps h2
      · exact h2
    · exact nextGraph_keeps h2
  · exact h2

theorem graphDown_keeps {asid graph : Nat} (h : Keeps s₀ s) : Keeps s₀ (s.graphDown asid graph) := by
  unfold State.graphDown
  extract_lets s1
  have h1 : Keeps s₀ s1 := mapLevel_keeps h
  split
  · split
    · exact graphDone_keeps h1
    · exact h1
  · exact h1

theorem releaseSucc_keeps {asid lid : Nat} (h : Keeps s₀ s) : Keeps s₀ (s.releaseSucc asid lid) := by
  unfold State.releaseSucc
  split
  · exact foldl_keeps (fun s1 b h => edge_keeps (mapLevel_keeps h)) _ h
  · exact h

theorem launchDone_keeps {asid lid : Nat} (h : Keeps s₀ s) : Keeps s₀ (s.launchDone asid lid) := by
  unfold State.launchDone
  split
  · exact h
  · extract_lets s1 s2 s3 hash s4
    have h1 : Keeps s₀ s1 := by
      unfold s1
      split
      · split
        · exact h
        · exact foldl_keeps (fun s5 b h => snapCounters_keeps h) _ h
      · exact h
    have h2 : Keeps s₀ s2 := closeLevel_keeps h1
    have h3 : Keeps s₀ s3 := mapJob_keeps (fun j => rfl) h2
    have h4 : Keeps s₀ s4 := by
      unfold s4
      split
      · exact h3
      · split
        · exact mapLevel_keeps h3
        · exact releaseSucc_keeps h3
    exact graphDown_keeps h4

theorem countDown_keeps {asid lid : Nat} (h : Keeps s₀ s) : Keeps s₀ (s.countDown asid lid) := by
  unfold State.countDown
  extract_lets s1
  have h1 : Keeps s₀ s1 := mapLevel_keeps h
  split
  · exact h1
  · split
    · split
      · exact launchDone_keeps h1
      · split
        · exact closeLevel_keeps h1
        · exact h1
    · exact h1

theorem ringField_keeps {asid base o : Nat} (h : Keeps s₀ s) : Keeps s₀ (s.ringField asid base o).1 := by
  unfold State.ringField
  split
  rename_i he
  exact .fst (engineRead_keeps h) he

theorem ringPut_keeps {asid base size : Nat} {bs : List Byte} (h : Keeps s₀ s) : Keeps s₀ (s.ringPut asid base size bs) := by
  unfold State.ringPut
  split
  split
  split
  split
  · refine engineWrite_keeps ?_
    rename_i he _
    refine .fst ?_ he
    refine ringField_keeps ?_
    rename_i he1 _ _ _ _
    refine .fst ?_ he1
    refine ringField_keeps ?_
    rename_i he2 _ _ _ _ _ _ _
    exact .fst (ringField_keeps h) he2
  · refine engineWrite_keeps ?_
    refine engineWrite_keeps ?_
    rename_i he _
    refine .fst ?_ he
    refine ringField_keeps ?_
    rename_i he1 _ _ _ _
    refine .fst ?_ he1
    refine ringField_keeps ?_
    rename_i he2 _ _ _ _ _ _ _
    exact .fst (ringField_keeps h) he2

theorem startRings_keeps {sp : JobSpec} (h : Keeps s₀ s) : Keeps s₀ (s.startRings sp) :=
  foldl_keeps (fun _ _ h => engineWrite_keeps h) _ h

theorem stamp_keeps {a1 : Machine.Task} {deq srch fails core : Nat} {how : How} {disc : Bool} (h : Keeps s₀ s) : Keeps s₀
    (s.stamp a1 deq srch fails core how disc) := by
  unfold State.stamp
  split
  · exact h
  · exact ringPut_keeps h

theorem setHutch_keeps {h' : Hutch} (h : Keeps s₀ s) : Keeps s₀ (s.setHutch h') :=
  .same h rfl rfl rfl rfl

theorem discard_keeps {a1 : Machine.Task} (h : Keeps s₀ s) : Keeps s₀ (s.discard a1) :=
  countDown_keeps (stamp_keeps h)

theorem wakeCluster_keeps {cl : Nat} (h : Keeps s₀ s) : Keeps s₀ (s.wakeCluster cl) := by
  have hf (c : Core) : settings (if clusterOf c.id = cl then c.wakeH0 else c) = settings c := by
    split
    · rfl
    · rfl
  exact .cores h rfl (hf _) rfl rfl hf

theorem enqueue_keeps {cl : Nat} {head : Bool} {from_ : Nat × Nat} {a4 : Machine.Task} (h : Keeps s₀ s) : Keeps s₀
    (s.enqueue cl head from_ a4).1 := by
  unfold State.enqueue
  extract_lets h1 t s1
  have h1 : Keeps s₀ s1 := edge_keeps (setHutch_keeps h)
  split
  · exact discard_keeps h1
  · exact wakeCluster_keeps (setHutch_keeps h1)

theorem startTask_settings {c : Core} {a1 : Machine.Task} {r : Running} : settings (c.startTask a1 r) = settings c :=
  rfl

theorem start_keeps {a1 : Machine.Task} {how : How} (h : Keeps s₀ s) : Keeps s₀ (s.start a1 how) := by
  unfold State.start
  extract_lets st r s1 s2
  have h1 : Keeps s₀ s1 := edge_keeps h
  have h2 : Keeps s₀ s2 := .same h1 rfl rfl rfl rfl
  exact trace_keeps h2

theorem entryTaken_keeps {a1 : Machine.Task} (h : Keeps s₀ s) : Keeps s₀ (s.entryTaken a1) := by
  unfold State.entryTaken
  split
  · extract_lets s1
    have h1 : Keeps s₀ s1 := mapLevel_keeps h
    exact h1
  · exact h

theorem take_keeps {cl : Nat} {a2 : Machine.Task} {how : How} (h : Keeps s₀ s) : Keeps s₀ (s.take cl a2 how) := by
  unfold State.take
  extract_lets s1
  have h1 : Keeps s₀ s1 := setHutch_keeps h
  exact start_keeps (entryTaken_keeps h1)

theorem taskBefore_keeps {to_ : Nat × Nat} (h : Keeps s₀ s) : Keeps s₀ (s.taskBefore to_) :=
  foldl_keeps (fun _ _ h => edge_keeps h) _ h

theorem stopHelpers_settings {c : Core} : settings c.stopHelpers = settings c :=
  rfl

theorem endTask_settings {c : Core} {now : Nat} : settings (c.endTask now) = settings c :=
  rfl

theorem abandonMatrix_keeps (h : Keeps s₀ s) : Keeps s₀ s.abandonMatrix :=
  foldl_keeps (fun _ _ h => countDown_keeps h) _ (.same h rfl abandonMatrix_settings rfl rfl)

theorem endTask_keeps (h : Keeps s₀ s) : Keeps s₀ s.endTask := by
  unfold State.endTask
  split
  · exact h
  · extract_lets s1 s2 s3 s4
    have h1 : Keeps s₀ s1 := trace_keeps h
    have h2 : Keeps s₀ s2 := stamp_keeps h1
    have h3 : Keeps s₀ s3 := taskBefore_keeps h2
    have h4 : Keeps s₀ s4 := .same h3 rfl rfl rfl rfl
    exact countDown_keeps h4

theorem unlessAhead_keeps {body : Op Unit} (hbody : ∀ s, KeepsAt body s) : KeepsAt (unlessAhead body) s := by
  refine get_bind_keeps ?_
  split
  · exact pure_keeps
  · exact hbody _

theorem loadX_keeps {st : Nat} {d a : Fin 32} {off : Int} {n : Nat} {sx : Bool} : KeepsNext s (loadX st d a off n sx s) :=
  issue_keeps (get_bind_keeps (bind_keeps access_keeps
      (fun _ _ => bind_keeps loadSegs_keeps (fun _ _ => upd_keeps (fun _ => wx_keeps (.refl _))))))

theorem loadGranule_keeps {g : Seg} (h : Keeps s₀ s) : Keeps s₀ (s.loadGranule g).1 := by
  unfold State.loadGranule
  extract_lets s1
  have h1 : Keeps s₀ s1 := h
  split
  rename_i he
  exact .fst (loadSegOld_keeps h1) he

theorem loadGranules_keeps {gs : List Seg} : KeepsAt (loadGranules gs) s := by
  unfold loadGranules
  split
  · refine get_bind_keeps ?_
    split
    refine set_bind_keeps ?_ pure_keeps
    rename_i he
    exact .fst (loadGranule_keeps (.refl _)) he
  · exact pure_keeps

theorem loadCap_keeps {st : Nat} {d a : Fin 32} {off : Int} : KeepsNext s (loadCap st d a off s) :=
  issue_keeps (get_bind_keeps (bind_keeps access_keeps
      (fun _ _ => bind_keeps loadGranules_keeps (fun _ _ => upd_keeps (fun _ => wc_keeps (.refl _))))))

theorem storeX_keeps {st : Nat} {d a : Fin 32} {off : Int} {n : Nat} : KeepsNext s (storeX st d a off n s) :=
  issue_keeps (unlessAhead_keeps (fun _ => get_bind_keeps
      (bind_keeps access_keeps (fun _ _ => upd_keeps (fun _ => storeSegs_keeps (.refl _))))))

theorem tagSegs_keeps {gs : List Seg} (h : Keeps s₀ s) : Keeps s₀ (s.tagSegs gs) := by
  refine foldl_keeps ?_ _ h
  intro s1 b h
  split
  · exact h
  · exact .same h rfl rfl rfl rfl

theorem noTagToHost_keeps {gs : List Seg} : KeepsAt (noTagToHost gs) s := by
  unfold noTagToHost
  split
  · exact raise_keeps
  · exact pure_keeps

theorem capStoreAccess_keeps {c v : Cap} {a : Int} : KeepsAt (capStoreAccess c v a) s := by
  refine bind_keeps capNeed_keeps ?_
  intro a1 s1
  refine get_bind_keeps ?_
  refine bind_keeps segsOf_keeps ?_
  intro a2 s2
  split
  · exact bind_keeps noTagToHost_keeps (fun a3 s3 => bind_keeps watchNeed_keeps (fun a4 s4 => pure_keeps))
  · exact bind_keeps watchNeed_keeps (fun a3 s3 => pure_keeps)

theorem storeCapSegs_keeps {gs : List Seg} {v : Cap} (h : Keeps s₀ s) : Keeps s₀ (s.storeCapSegs gs v) := by
  unfold State.storeCapSegs
  extract_lets s1
  have h1 : Keeps s₀ s1 := storeSegs_keeps h
  split
  · exact l1Renew_keeps (tagSegs_keeps h1)
  · exact h1

theorem storeCap_keeps {st : Nat} {d a : Fin 32} {off : Int} : KeepsNext s (storeCap st d a off s) :=
  issue_keeps (unlessAhead_keeps (fun _ => get_bind_keeps
      (bind_keeps capStoreAccess_keeps (fun _ _ => upd_keeps (fun _ => storeCapSegs_keeps (.refl _))))))

theorem execLdB_keeps {st : Fin 8} {d a : Fin 32} {off : Int} : KeepsNext s (execLdB st d a off s) :=
  loadX_keeps

theorem execLdBu_keeps {st : Fin 8} {d a : Fin 32} {off : Int} : KeepsNext s (execLdBu st d a off s) :=
  loadX_keeps

theorem execLdH_keeps {st : Fin 8} {d a : Fin 32} {off : Int} : KeepsNext s (execLdH st d a off s) :=
  loadX_keeps

theorem execLdHu_keeps {st : Fin 8} {d a : Fin 32} {off : Int} : KeepsNext s (execLdHu st d a off s) :=
  loadX_keeps

theorem execLdW_keeps {st : Fin 8} {d a : Fin 32} {off : Int} : KeepsNext s (execLdW st d a off s) :=
  loadX_keeps

theorem execLdWu_keeps {st : Fin 8} {d a : Fin 32} {off : Int} : KeepsNext s (execLdWu st d a off s) :=
  loadX_keeps

theorem execLdD_keeps {st : Fin 8} {d a : Fin 32} {off : Int} : KeepsNext s (execLdD st d a off s) :=
  loadX_keeps

theorem execLdC_keeps {st : Fin 8} {d a : Fin 32} {off : Int} : KeepsNext s (execLdC st d a off s) :=
  loadCap_keeps

theorem execStB_keeps {st : Fin 8} {d a : Fin 32} {off : Int} : KeepsNext s (execStB st d a off s) :=
  storeX_keeps

theorem execStH_keeps {st : Fin 8} {d a : Fin 32} {off : Int} : KeepsNext s (execStH st d a off s) :=
  storeX_keeps

theorem execStW_keeps {st : Fin 8} {d a : Fin 32} {off : Int} : KeepsNext s (execStW st d a off s) :=
  storeX_keeps

theorem execStD_keeps {st : Fin 8} {d a : Fin 32} {off : Int} : KeepsNext s (execStD st d a off s) :=
  storeX_keeps

theorem execStC_keeps {st : Fin 8} {d a : Fin 32} {off : Int} : KeepsNext s (execStC st d a off s) :=
  storeCap_keeps

theorem execLdDShort_keeps {st : Fin 4} {x y : Fin 16} : KeepsNext s (execLdDShort st x y s) :=
  loadX_keeps

theorem execStDShort_keeps {st : Fin 4} {x y : Fin 16} : KeepsNext s (execStDShort st x y s) :=
  storeX_keeps

theorem execLdWShort_keeps {st : Fin 4} {x y : Fin 16} : KeepsNext s (execLdWShort st x y s) :=
  loadX_keeps

theorem execStWShort_keeps {st : Fin 4} {x y : Fin 16} : KeepsNext s (execStWShort st x y s) :=
  storeX_keeps

theorem execLdDC2Short_keeps {st : Fin 4} {x y : Fin 16} : KeepsNext s (execLdDC2Short st x y s) :=
  loadX_keeps

theorem execStDC2Short_keeps {st : Fin 4} {x y : Fin 16} : KeepsNext s (execStDC2Short st x y s) :=
  storeX_keeps

theorem execLdCC2Short_keeps {st : Fin 4} {x y : Fin 16} : KeepsNext s (execLdCC2Short st x y s) :=
  loadCap_keeps

theorem execStCC2Short_keeps {st : Fin 4} {x y : Fin 16} : KeepsNext s (execStCC2Short st x y s) :=
  storeCap_keeps

theorem bypass_keeps {g : Seg} (h : Keeps s₀ s) : Keeps s₀ (s.bypass g) := by
  unfold State.bypass
  extract_lets ls v1 s1
  have h1 : Keeps s₀ s1 := .same h rfl rfl rfl rfl
  exact foldl_keeps (fun s2 b h => l2Drop_keeps h) _ h1

theorem atomicSegs_keeps {n : Nat} {gs : List Seg} {f : Nat → Option Nat} : KeepsAt (atomicSegs n gs f) s := by
  unfold atomicSegs
  split
  · refine get_bind_keeps ?_
    split
    refine set_bind_keeps ?_ pure_keeps
    split
    · refine storeSeg_keeps ?_
      rename_i he _ _ _
      exact .fst (readAs_keeps (bypass_keeps (.refl _))) he
    · rename_i he _ _
      exact .fst (readAs_keeps (bypass_keeps (.refl _))) he
  · exact pure_keeps

theorem atomicRmw_keeps {st : Nat} {d a b : Fin 32} {n : Nat} {reads : List (RegFile × Nat)}
    {f : State → Nat → Nat → Option Nat} : KeepsNext s (atomicRmw st d a b n reads f s) :=
  issue_keeps (unlessAhead_keeps (fun _ => get_bind_keeps
      (bind_keeps access_keeps (fun _ _ => bind_keeps atomicSegs_keeps
          (fun _ _ => upd_keeps (fun _ => wx_keeps (.refl _)))))))

theorem atomicOp_keeps {st : Nat} {d a b : Fin 32} {n f : Nat} : KeepsNext s (atomicOp st d a b n f s) :=
  atomicRmw_keeps

theorem atomicCas_keeps {st : Nat} {d a b : Fin 32} {n : Nat} : KeepsNext s (atomicCas st d a b n s) :=
  atomicRmw_keeps

theorem execAaddD_keeps {st : Fin 8} {d a b : Fin 32} : KeepsNext s (execAaddD st d a b s) :=
  atomicOp_keeps

theorem execAandD_keeps {st : Fin 8} {d a b : Fin 32} : KeepsNext s (execAandD st d a b s) :=
  atomicOp_keeps

theorem execAorD_keeps {st : Fin 8} {d a b : Fin 32} : KeepsNext s (execAorD st d a b s) :=
  atomicOp_keeps

theorem execAxorD_keeps {st : Fin 8} {d a b : Fin 32} : KeepsNext s (execAxorD st d a b s) :=
  atomicOp_keeps

theorem execAminD_keeps {st : Fin 8} {d a b : Fin 32} : KeepsNext s (execAminD st d a b s) :=
  atomicOp_keeps

theorem execAmaxD_keeps {st : Fin 8} {d a b : Fin 32} : KeepsNext s (execAmaxD st d a b s) :=
  atomicOp_keeps

theorem execAminuD_keeps {st : Fin 8} {d a b : Fin 32} : KeepsNext s (execAminuD st d a b s) :=
  atomicOp_keeps

theorem execAmaxuD_keeps {st : Fin 8} {d a b : Fin 32} : KeepsNext s (execAmaxuD st d a b s) :=
  atomicOp_keeps

theorem execAswapD_keeps {st : Fin 8} {d a b : Fin 32} : KeepsNext s (execAswapD st d a b s) :=
  atomicOp_keeps

theorem execAcasD_keeps {st : Fin 8} {d a b : Fin 32} : KeepsNext s (execAcasD st d a b s) :=
  atomicCas_keeps

theorem execAfaddD_keeps {st : Fin 8} {d a b : Fin 32} : KeepsNext s (execAfaddD st d a b s) :=
  atomicOp_keeps

theorem execAaddW_keeps {st : Fin 8} {d a b : Fin 32} : KeepsNext s (execAaddW st d a b s) :=
  atomicOp_keeps

theorem execAandW_keeps {st : Fin 8} {d a b : Fin 32} : KeepsNext s (execAandW st d a b s) :=
  atomicOp_keeps

theorem execAorW_keeps {st : Fin 8} {d a b : Fin 32} : KeepsNext s (execAorW st d a b s) :=
  atomicOp_keeps

theorem execAxorW_keeps {st : Fin 8} {d a b : Fin 32} : KeepsNext s (execAxorW st d a b s) :=
  atomicOp_keeps

theorem execAminW_keeps {st : Fin 8} {d a b : Fin 32} : KeepsNext s (execAminW st d a b s) :=
  atomicOp_keeps

theorem execAmaxW_keeps {st : Fin 8} {d a b : Fin 32} : KeepsNext s (execAmaxW st d a b s) :=
  atomicOp_keeps

theorem execAminuW_keeps {st : Fin 8} {d a b : Fin 32} : KeepsNext s (execAminuW st d a b s) :=
  atomicOp_keeps

theorem execAmaxuW_keeps {st : Fin 8} {d a b : Fin 32} : KeepsNext s (execAmaxuW st d a b s) :=
  atomicOp_keeps

theorem execAswapW_keeps {st : Fin 8} {d a b : Fin 32} : KeepsNext s (execAswapW st d a b s) :=
  atomicOp_keeps

theorem execAcasW_keeps {st : Fin 8} {d a b : Fin 32} : KeepsNext s (execAcasW st d a b s) :=
  atomicCas_keeps

theorem execAfaddW_keeps {st : Fin 8} {d a b : Fin 32} : KeepsNext s (execAfaddW st d a b s) :=
  atomicOp_keeps

theorem execAfaddbf_keeps {st : Fin 8} {d a b : Fin 32} : KeepsNext s (execAfaddbf st d a b s) :=
  atomicOp_keeps

theorem fenceAwait_keeps {b : Bool} : KeepsAt (fenceAwait b) s := by
  unfold fenceAwait
  split
  · exact pure_keeps
  · exact bind_keeps (upd_keeps (fun s1 => setCtx_keeps (.refl _))) (fun a s1 => waitHere_keeps)

theorem execFence_keeps {st : Fin 8} {n : Nat} : KeepsNext s (execFence st n s) := by
  refine issue_keeps ?_
  refine unlessAhead_keeps ?_
  intro s1
  refine get_bind_keeps ?_
  refine bind_keeps fenceAwait_keeps ?_
  intro a s2
  refine upd_keeps ?_
  intro s3
  split
  · exact joinAnswers_keeps (.refl _)
  · exact .refl _

theorem execFencer_keeps {st : Fin 8} {d : Fin 32} : KeepsNext s (execFencer st d s) :=
  issue_keeps (unlessAhead_keeps (fun _ => get_bind_keeps
      (bind_keeps fenceAwait_keeps (fun _ _ => upd_keeps (fun _ => joinAnswers_keeps (wx_keeps (setCtx_keeps (.refl _))))))))

theorem cacheRange_keeps {c : Cap} {n : Nat} : KeepsAt (cacheRange c n) s := by
  unfold cacheRange
  split
  · exact pure_keeps
  · exact need_bind_keeps (need_bind_keeps (bind_keeps capNeed_keeps (fun a s1 => get_bind_keeps segsOf_keeps)))

theorem cleanLines_keeps {g : Seg} (h : Keeps s₀ s) : Keeps s₀ (s.cleanLines g) :=
  .same h rfl rfl rfl rfl

theorem execClean_keeps {st : Fin 8} {a b : Fin 32} : KeepsNext s (execClean st a b s) :=
  issue_keeps (get_bind_keeps (bind_keeps cacheRange_keeps
      (fun _ _ => upd_keeps (fun _ => foldl_keeps (fun _ _ h => cleanLines_keeps h) _ (.refl _)))))

theorem dropLines_keeps {g : Seg} (h : Keeps s₀ s) : Keeps s₀ (s.dropLines g) :=
  .same h rfl rfl rfl rfl

theorem execInval_keeps {st : Fin 8} {a b : Fin 32} : KeepsNext s (execInval st a b s) :=
  issue_keeps (get_bind_keeps (bind_keeps cacheRange_keeps
      (fun _ _ => upd_keeps (fun _ => foldl_keeps (fun _ _ h => dropLines_keeps h) _ (.refl _)))))

theorem joinJob_keeps {j : JobRec} (h : Keeps s₀ s) : Keeps s₀ (s.joinJob j) := by
  unfold State.joinJob
  extract_lets s1
  have h1 : Keeps s₀ s1 := edge_keeps h
  exact .same h1 rfl rfl rfl rfl

theorem waitJob_keeps {st : Nat} {d a : Fin 32} : KeepsNext s (waitJob st d a s) := by
  refine issue_keeps ?_
  refine unlessAhead_keeps ?_
  intro s1
  refine get_bind_keeps ?_
  split
  · exact upd_keeps (fun s2 => wx_keeps (.refl _))
  · exact await_bind_keeps (upd_keeps (fun s2 => wx_keeps (joinJob_keeps (.refl _))))

theorem execWaitj_keeps {st : Fin 8} {d a : Fin 32} : KeepsNext s (execWaitj st d a s) :=
  waitJob_keeps

theorem execWaitjShort_keeps {st : Fin 4} {x : Fin 16} : KeepsNext s (execWaitjShort st x s) :=
  waitJob_keeps

theorem execPollj_keeps {st : Fin 8} {d a : Fin 32} : KeepsNext s (execPollj st d a s) := by
  refine issue_keeps ?_
  refine unlessAhead_keeps ?_
  intro s1
  refine get_bind_keeps ?_
  split
  · exact upd_keeps (fun s2 => wx_keeps (.refl _))
  · split
    · exact upd_keeps (fun s2 => wx_keeps (.refl _))
    · exact upd_keeps (fun s2 => wx_keeps (joinJob_keeps (.refl _)))

theorem execSleep_keeps {st : Fin 8} {a : Fin 32} : KeepsNext s (execSleep st a s) := by
  refine issue_keeps ?_
  refine unlessAhead_keeps ?_
  intro s1
  refine get_bind_keeps ?_
  split
  · exact pure_keeps
  · split
    · split
      · exact pure_keeps
      · exact set_bind_keeps (.same (.refl _) rfl rfl rfl rfl) await_keeps
    · exact bind_keeps (upd_keeps (fun s2 => setCtx_keeps (.refl _))) (fun a1 s2 => waitHere_keeps)

theorem yieldOp_keeps {st : Nat} : KeepsNext s (yieldOp st s) := by
  refine issue_keeps ?_
  refine unlessAhead_keeps ?_
  intro s1
  refine get_bind_keeps ?_
  split
  · exact await_keeps
  · dsimp only
    split
    · exact pure_keeps
    · exact bind_keeps (upd_keeps (fun s2 => setCtx_keeps (.refl _))) (fun a s2 => waitHere_keeps)

theorem execYield_keeps {st : Fin 8} : KeepsNext s (execYield st s) :=
  yieldOp_keeps

theorem execYieldShort_keeps {st : Fin 4} : KeepsNext s (execYieldShort st s) :=
  yieldOp_keeps

theorem legal_keeps {b : Bool} : KeepsAt (legal b) s := by
  unfold legal
  split
  · exact pure_keeps
  · exact get_bind_keeps throw_keeps

theorem handlerNeed_keeps {h' : Word} : KeepsAt (handlerNeed h') s :=
  legal_bind_keeps need_keeps

theorem countTask_keeps : KeepsAt countTask s := by
  refine get_bind_keeps ?_
  split
  · refine set_keeps ?_
    rename_i he
    exact countUp_keeps (.refl _) he
  · exact legal_keeps

theorem execTenq_keeps {st : Fin 8} {d a b : Fin 32} : KeepsNext s (execTenq st d a b s) := by
  refine issue_keeps (unlessAhead_keeps fun s => get_bind_keeps ?_)
  refine legal_bind_keeps (bind_keeps handlerNeed_keeps fun _ s => await_bind_keeps (bind_keeps countTask_keeps fun _ s => ?_))
  exact get_bind_keeps (set_keeps (wx_keeps (enqueue_keeps (.refl _))))

theorem awaitMessage_keeps : KeepsAt awaitMessage s :=
  get_bind_keeps await_keeps

theorem messageJob_keeps {d : Fin 32} {p : Packet} : KeepsAt (messageJob d p) s := by
  refine get_bind_keeps ?_
  split
  split
  refine set_keeps ?_
  refine wx_keeps ?_
  rename_i he
  refine .fst ?_ he
  refine sendOp_keeps ?_
  rename_i he1 _ _ _
  exact .fst (openJob_keeps (.refl _)) he1

theorem execSend_keeps {st : Fin 8} {d a b : Fin 32} : KeepsNext s (execSend st d a b s) := by
  refine issue_keeps ?_
  refine unlessAhead_keeps ?_
  intro s1
  refine get_bind_keeps ?_
  refine legal_bind_keeps ?_
  refine bind_keeps handlerNeed_keeps ?_
  intro a1 s2
  refine bind_keeps awaitMessage_keeps ?_
  intro a2 s3
  dsimp only
  split
  · exact bind_keeps countTask_keeps (fun a3 s4 => get_bind_keeps messageJob_keeps)
  · exact get_bind_keeps messageJob_keeps

theorem cannotPlace_keeps {p : Packet} (h : Keeps s₀ s) : Keeps s₀ (s.cannotPlace p) := by
  unfold State.cannotPlace
  split
  · exact spill_keeps h
  · exact hold_keeps h

theorem takeMessage_keeps {p : Packet} (h : Keeps s₀ s) : Keeps s₀ (s.takeMessage p) := by
  have hc (t : State) (ho : (if eidPkg p.seid == s.pkgNo then some s else s.countUp p.asid jobLid) = some t) : Keeps s₀ t := by
    split at ho
    · cases ho
      exact h
    · exact countUp_keeps h ho
  unfold State.takeMessage
  dsimp only
  split
  · exact replyTo_keeps h
  split
  · exact cannotPlace_keeps h
  split
  · rename_i ho
    exact replyTo_keeps (enqueue_keeps (hc _ ho))
  · exact replyTo_keeps h

theorem awaitEnd_keeps : KeepsAt awaitEnd s :=
  bind_keeps (upd_keeps (fun _ => setCtx_keeps (.refl _)))
      (fun _ _ => bind_keeps (upd_keeps (fun _ => .same (.refl _) rfl rfl rfl rfl)) (fun _ _ => get_bind_keeps await_keeps))

theorem exitAfter_keeps (h : Keeps s₀ s) : Keeps s₀ s.exitAfter := by
  unfold State.exitAfter
  extract_lets s1
  have h1 : Keeps s₀ s1 := settleAll_keeps h
  split
  · exact setCtx_keeps h1
  · exact endTask_keeps h1

theorem exitTask_keeps {st : Nat} : KeepsNext s (exitTask st s) := by
  refine issueThen_keeps ?_ (fun _ s1 h => exitAfter_keeps h)
  refine get_bind_keeps ?_
  split
  · exact pure_keeps
  · exact awaitEnd_keeps

theorem execExit_keeps {st : Fin 8} : KeepsNext s (execExit st s) :=
  exitTask_keeps

theorem execExitShort_keeps {st : Fin 4} : KeepsNext s (execExitShort st s) :=
  exitTask_keeps

theorem setJoin_keeps {j : Join} (h : Keeps s₀ s) : Keeps s₀ (s.setJoin j) :=
  .same h rfl rfl rfl rfl

theorem countTasks_keeps {a0 : Nat} : KeepsAt (countTasks a0) s := by
  induction a0 generalizing s with
  | zero => exact pure_keeps
  | succ n ih => exact bind_keeps countTask_keeps (fun a s1 => ih)

theorem recruit_keeps {e : Nat} {a2 : Machine.Task} (h : Keeps s₀ s) : Keeps s₀ (s.recruit e a2) := by
  unfold State.recruit
  extract_lets cl h1 t s1
  have h1 : Keeps s₀ s1 := edge_keeps (setHutch_keeps h)
  exact at_keeps (fun s2 h => start_keeps h) h1

theorem execRfork_keeps {st : Fin 8} {d a b : Fin 32} : KeepsNext s (execRfork st d a b s) := by
  refine issue_keeps ?_
  refine unlessAhead_keeps ?_
  intro s1
  refine get_bind_keeps ?_
  refine bind_keeps handlerNeed_keeps ?_
  intro a1 s2
  refine bind_keeps handlerNeed_keeps ?_
  intro a2 s3
  split
  · exact await_bind_keeps (bind_keeps countTask_keeps
        (fun a3 s4 => get_bind_keeps (set_keeps (wx_keeps (enqueue_keeps (.refl _))))))
  · dsimp only
    split
    · exact waitHere_keeps
    · refine await_bind_keeps ?_
      refine legal_bind_keeps ?_
      refine bind_keeps countTasks_keeps ?_
      intro a3 s4
      refine get_bind_keeps ?_
      refine set_keeps ?_
      refine wx_keeps ?_
      split
      · exact foldl_keeps (fun s5 b1 h => enqueue_keeps h) _ (setJoin_keeps (.refl _))
      · exact foldl_keeps (fun s5 b1 h => recruit_keeps h) _ (setJoin_keeps (.refl _))

theorem continue_keeps {j : Join} (h : Keeps s₀ s) : Keeps s₀ (s.continue_ j) := by
  unfold State.continue_
  extract_lets s1
  have h1 : Keeps s₀ s1 := setJoin_keeps h
  split
  · exact h1
  · extract_lets s2 s3 s4 s5 s6 h2 t s7 s8
    have h2 : Keeps s₀ s2 := trace_keeps h1
    have h3 : Keeps s₀ s3 := stamp_keeps h2
    have h4 : Keeps s₀ s4 := taskBefore_keeps h3
    have h5 : Keeps s₀ s5 := .same h4 rfl rfl rfl rfl
    have h6 : Keeps s₀ s6 := by
      unfold s6
      split
      · exact h5
      · exact getD_keeps h5 (fun s9 ho => countUp_keeps h5 ho)
    have h7 : Keeps s₀ s7 := edge_keeps (setHutch_keeps h6)
    have h8 : Keeps s₀ s8 := start_keeps h7
    split
    · exact h8
    · exact countDown_keeps h8

theorem joinAfter_keeps {id : Word} (h : Keeps s₀ s) : Keeps s₀ (State.joinAfter id s) := by
  unfold State.joinAfter
  extract_lets s1
  have h1 : Keeps s₀ s1 := settleAll_keeps h
  split
  · exact h1
  · extract_lets s2 s3
    have h2 : Keeps s₀ s2 := taskBefore_keeps h1
    have h3 : Keeps s₀ s3 := setJoin_keeps h2
    split
    · exact continue_keeps h2
    · exact endTask_keeps h3

theorem execJoin_keeps {st : Fin 8} {a : Fin 32} : KeepsNext s (execJoin st a s) :=
  issueThen_keeps (get_bind_keeps (legal_bind_keeps (bind_keeps awaitEnd_keeps (fun _ _ => get_bind_keeps legal_keeps))))
      (fun _ _ h => joinAfter_keeps h)

theorem putBind_settings {c : Core} {b : Binding} : settings (c.putBind b) = settings c :=
  rfl

theorem fire_keeps {addr : Word} {from_ : Nat × Nat} (h : Keeps s₀ s) : Keeps s₀ (s.fire addr from_) := by
  unfold State.fire
  split
  · exact h
  · extract_lets cl t s1 s2
    have h1 : Keeps s₀ s1 := .same h rfl rfl rfl rfl
    have h2 : Keeps s₀ s2 := getD_keeps h1 (fun s3 ho => countUp_keeps h1 ho)
    exact enqueue_keeps h2

theorem firePending_keeps {addr : Word} {a2 : Nat} (h : Keeps s₀ s) : Keeps s₀ (s.firePending addr a2) := by
  induction a2 generalizing s addr with
  | zero => exact h
  | succ n ih => exact ih (fire_keeps h)

theorem execTbind_keeps {st : Fin 8} {d a b : Fin 32} : KeepsNext s (execTbind st d a b s) := by
  refine issue_keeps ?_
  refine unlessAhead_keeps ?_
  intro s1
  refine get_bind_keeps ?_
  refine bind_keeps handlerNeed_keeps ?_
  intro a1 s2
  split
  · split
    · exact upd_keeps (fun s3 => wx_keeps (.refl _))
    · exact bind_keeps countTask_keeps (fun a2 s3 => upd_keeps (fun s4 => wx_keeps (.same (.refl _) rfl rfl rfl rfl)))
  · refine legal_bind_keeps ?_
    refine bind_keeps countTask_keeps ?_
    intro a2 s3
    split
    · exact upd_keeps (fun s4 => wx_keeps (countDown_keeps (.same (.refl _) rfl rfl rfl rfl)))
    · exact upd_keeps (fun s4 => wx_keeps (firePending_keeps (.same (.refl _) rfl rfl rfl rfl)))

theorem execTunbind_keeps {st : Fin 8} {d a : Fin 32} : KeepsNext s (execTunbind st d a s) := by
  refine issue_keeps ?_
  refine unlessAhead_keeps ?_
  intro s1
  refine get_bind_keeps ?_
  dsimp only
  split
  · exact upd_keeps (fun s2 => wx_keeps (.refl _))
  · refine upd_keeps ?_
    intro s2
    refine wx_keeps ?_
    split
    · exact countDown_keeps (.same (.refl _) rfl rfl rfl rfl)
    · exact .same (.refl _) rfl rfl rfl rfl

theorem execTfire_keeps {st : Fin 8} {d a b : Fin 32} : KeepsNext s (execTfire st d a b s) :=
  issue_keeps (unlessAhead_keeps (fun _ => get_bind_keeps
      (legal_bind_keeps (bind_keeps awaitMessage_keeps (fun _ _ => messageJob_keeps)))))

theorem trigger_keeps {p : Packet} (h : Keeps s₀ s) : Keeps s₀ (s.trigger p).1 := by
  unfold State.trigger
  split
  · dsimp only
    split
    · split
      · split
        · exact fire_keeps h
        · exact h
      · split
        · exact edge_keeps (.same h rfl rfl rfl rfl)
        · exact .same h rfl rfl rfl rfl
    · exact edge_keeps (.same h rfl rfl rfl rfl)
  · dsimp only
    split
    · split
      · split
        · exact fire_keeps h
        · exact h
      · split
        · exact edge_keeps (.same h rfl rfl rfl rfl)
        · exact .same h rfl rfl rfl rfl
    · exact .same h rfl rfl rfl rfl

theorem takeTrigger_keeps {p : Packet} (h : Keeps s₀ s) : Keeps s₀ (s.takeTrigger p) := by
  unfold State.takeTrigger
  dsimp only
  split
  · exact replyTo_keeps h
  · split
    · exact cannotPlace_keeps h
    · exact replyTo_keeps (at_keeps (fun s1 h => trigger_keeps h) h)

theorem execTrigger_keeps {p : Packet} : KeepsNext s (execTrigger p s) :=
  done_keeps (arrive_keeps (fun _ h => takeTrigger_keeps h) (.refl _))

theorem execHstart_keeps {st : Fin 8} {d a b : Fin 32} : KeepsNext s (execHstart st d a b s) := by
  refine issue_keeps ?_
  refine get_bind_keeps ?_
  refine legal_bind_keeps ?_
  refine bind_keeps jumpNeed_keeps ?_
  intro a1 s1
  split
  · dsimp only
    split
    · exact upd_keeps (fun s2 => wx_keeps (.refl _))
    · exact upd_keeps (fun s2 => wx_keeps (.same (.refl _) rfl mapCtxNo_settings rfl rfl))
  · split
    · exact upd_keeps (fun s2 => wx_keeps (.same (.refl _) rfl mapCtxNo_settings rfl rfl))
    · exact upd_keeps (fun s2 => wx_keeps (.refl _))

theorem slotNeed_keeps {x : Word} : KeepsAt (slotNeed x) s :=
  legal_bind_keeps pure_keeps

theorem execHstop_keeps {st : Fin 8} {a : Fin 32} : KeepsNext s (execHstop st a s) := by
  refine issue_keeps ?_
  refine bind_keeps slotNeed_keeps ?_
  intro a1 s1
  refine get_bind_keeps ?_
  split
  · exact bind_keeps (upd_keeps (fun s2 => .same (.refl _) rfl mapCtxNo_settings rfl rfl)) (fun a2 s2 => waitHere_keeps)
  · exact upd_keeps (fun s2 => .same (.refl _) rfl mapCtxNo_settings rfl rfl)

theorem execHstat_keeps {st : Fin 8} {d a b : Fin 32} : KeepsNext s (execHstat st d a b s) := by
  refine issue_keeps ?_
  refine bind_keeps slotNeed_keeps ?_
  intro a1 s1
  refine legal_bind_keeps ?_
  refine upd_keeps ?_
  intro s2
  refine wx_keeps ?_
  split
  · exact .same (.refl _) rfl mapCtxNo_settings rfl rfl
  · exact .refl _

theorem discardQueued_keeps {p : Machine.Task → Bool} (h : Keeps s₀ s) : Keeps s₀ (s.discardQueued p) := by
  unfold State.discardQueued
  extract_lets dead s1
  have h1 : Keeps s₀ s1 := .same h rfl rfl rfl rfl
  exact foldl_keeps (fun s2 b h => discard_keeps h) _ h1

theorem cancelRun_settings {p : Machine.Task → Bool} {c : Core} : settings (Core.cancelRun p c) = settings c :=
  rfl

theorem cancelRunning_keeps {p : Machine.Task → Bool} (h : Keeps s₀ s) : Keeps s₀ (s.cancelRunning p) :=
  .cores h rfl rfl rfl rfl (fun _ => rfl)

theorem dropGraphs_keeps {asid phase : Nat} (h : Keeps s₀ s) : Keeps s₀ (s.dropGraphs asid phase) := by
  unfold State.dropGraphs
  split
  · exact h
  · exact mapLevel_keeps (mapJob_keeps (fun j => rfl) h)

theorem cancelLevel_keeps {asid lid : Nat} (h : Keeps s₀ s) : Keeps s₀ (s.cancelLevel asid lid) := by
  unfold State.cancelLevel
  extract_lets s1
  have h1 : Keeps s₀ s1 := by
    unfold s1
    split
    · exact dropGraphs_keeps h
    · exact h
  split
  · exact h1
  · split
    · exact h1
    · split
      · exact launchDone_keeps h1
      · split
        · exact graphDone_keeps h1
        · exact closeLevel_keeps h1

theorem cancelAll_keeps {asid lid : Nat} (h : Keeps s₀ s) : Keeps s₀ (s.cancelAll asid lid) := by
  unfold State.cancelAll
  extract_lets set_ inSet s1 s2 s3
  have h1 : Keeps s₀ s1 := foldl_keeps (fun s4 b h => mapLevel_keeps h) _ h
  have h2 : Keeps s₀ s2 := .same h1 rfl rfl rfl rfl
  have h3 : Keeps s₀ s3 := discardQueued_keeps (cancelRunning_keeps h2)
  exact foldl_keeps (fun s4 b h => cancelLevel_keeps h) _ h3

theorem cancelTask_keeps {asid tid : Nat} (h : Keeps s₀ s) : Keeps s₀ (s.cancelTask asid tid).1 :=
  discardQueued_keeps (cancelRunning_keeps h)

theorem cancel_keeps {asid lvl : Nat} {id : Word} (h : Keeps s₀ s) : Keeps s₀ (s.cancel asid lvl id).1 := by
  unfold State.cancel
  split
  · exact cancelTask_keeps h
  · split
    · split
      · exact cancelAll_keeps h
      · exact h
    · exact h

theorem execCancel_keeps {st : Fin 8} {d a b : Fin 32} : KeepsNext s (execCancel st d a b s) := by
  refine issue_keeps ?_
  refine get_bind_keeps ?_
  refine legal_bind_keeps ?_
  refine need_bind_keeps ?_
  split
  refine set_keeps ?_
  refine wx_keeps ?_
  rename_i he
  exact .fst (cancel_keeps (.refl _)) he

theorem abandonCopies_settings {c : Core} : settings c.abandonCopies = settings c :=
  rfl

theorem endCancelled_keeps (h : Keeps s₀ s) : Keeps s₀ s.endCancelled := by
  unfold State.endCancelled
  extract_lets s1 s2 v1 v2 s3
  have h1 : Keeps s₀ s1 := abandonMatrix_keeps h
  have h2 : Keeps s₀ s2 := .same h1 rfl rfl rfl rfl
  have h3 : Keeps s₀ s3 := setCtx_keeps h2
  split
  · exact endTask_keeps (settleAll_keeps h3)
  · exact block_keeps h3

theorem dispatch_keeps (h : Keeps s₀ s) : Keeps s₀ s.dispatch := by
  unfold State.dispatch
  split
  · dsimp only
    split
    · split
      · exact h
      · exact take_keeps h
    · exact h
  · exact h

theorem atCore_keeps {e : Nat} {f : State → State} (hf : ∀ s₀ s, Keeps s₀ s → Keeps s₀ (f s)) : KeepsNext s (atCore e s f) := by
  unfold atCore
  split
  · exact next_keeps (at_keeps (fun s1 h => hf _ _ h) (.refl _))
  · exact next_keeps (.refl _)

theorem execTaskDispatch_keeps {e : Nat} : KeepsNext s (execTaskDispatch e s) :=
  atCore_keeps (fun _ _ h => dispatch_keeps h)

theorem execStealRound_keeps {e : Nat} : KeepsNext s (execStealRound e s) := by
  refine atCore_keeps ?_
  intro _ s1 h
  dsimp only
  split
  · exact .same h rfl rfl rfl rfl
  · exact h

theorem execStealAttempt_keeps {e : Nat} : KeepsNext s (execStealAttempt e s) := by
  refine atCore_keeps ?_
  intro _ s1 h
  split
  · dsimp only
    split
    · exact h
    · exact .same h rfl rfl rfl rfl
  · split
    · dsimp only
      split
      · exact h
      · exact take_keeps (.same (s := s1.count 7) (count_keeps h) rfl rfl rfl rfl)
    · dsimp only
      split
      · exact h
      · exact .same (s := s1.count 8) (count_keeps h) rfl rfl rfl rfl

theorem openLaunch_keeps {asid : Nat} {sp : LaunchSpec} (h : Keeps s₀ s) : Keeps s₀ (s.openLaunch asid sp) := by
  unfold State.openLaunch
  extract_lets cores s1 s2 code t
  have h1 : Keeps s₀ s1 := foldl_keeps (fun s3 b h => write_keeps h) _ h
  have h2 : Keeps s₀ s2 := mapLevel_keeps h1
  exact foldl_keeps (fun s3 b h => enqueue_keeps h) _ h2

theorem execLaunchOpen_keeps {asid lid : Nat} : KeepsNext s (execLaunchOpen asid lid s) := by
  unfold execLaunchOpen
  split
  · exact done_keeps (.refl _)
  · split
    · exact done_keeps (.refl _)
    · split
      · split
        · exact done_keeps (openLaunch_keeps (.refl _))
        · exact done_keeps (tellHost_keeps (mapLevel_keeps (.refl _)))
      · exact done_keeps (.refl _)

theorem execPhaseBarrier_keeps {asid ph : Nat} : KeepsNext s (execPhaseBarrier asid ph s) := by
  unfold execPhaseBarrier
  split
  · exact done_keeps (.refl _)
  · split
    · exact done_keeps (closeLevel_keeps (.refl _))
    · exact done_keeps (.refl _)

theorem remoteNeed_keeps {c : Cap} {ps : List Nat} {n : Nat} : KeepsAt (remoteNeed c ps n) s :=
  bind_keeps capNeed_keeps (fun _ _ => need_keeps)

theorem remoteNeed_state {c : Cap} {ps : List Nat} {n : Nat} (x : Unit) (t : State) (h : remoteNeed c ps n s = .ok x t) : t
    = s := by
  unfold remoteNeed at h
  cases hc : capCheck c ps (capA c) n n with
  | none =>
    rw [bind_ok (capNeed_ok s hc)] at h
    by_cases hp : capA c / 2 ^ 64 ≠ 0xFFFF
    · rw [decide_eq_true hp] at h
      cases h
      rfl
    · rw [decide_eq_false hp] at h
      cases h
  | some k =>
    rw [bind_error (capNeed_raises s hc)] at h
    cases h

theorem awaitReg_keeps {d : Fin 32} {tag : Nat} (h : Keeps s₀ s) : Keeps s₀ (s.awaitReg d tag) := by
  unfold State.awaitReg
  split
  · exact h
  · exact setCtx_keeps h

theorem execRld_keeps {st : Fin 8} {d a b : Fin 32} : KeepsNext s (execRld st d a b s) := by
  refine issue_keeps ?_
  refine unlessAhead_keeps ?_
  intro s1
  refine get_bind_keeps ?_
  refine legal_bind_keeps ?_
  refine check_bind_keeps remoteNeed_keeps remoteNeed_state ?_
  intro a1
  split
  refine set_keeps ?_
  refine awaitReg_keeps ?_
  rename_i he
  exact .fst (sendOp_keeps (.refl _)) he

theorem execRst_keeps {st : Fin 8} {d a b : Fin 32} : KeepsNext s (execRst st d a b s) := by
  refine issue_keeps ?_
  refine unlessAhead_keeps ?_
  intro s1
  refine get_bind_keeps ?_
  refine legal_bind_keeps ?_
  refine check_bind_keeps remoteNeed_keeps remoteNeed_state ?_
  intro a1
  split
  refine set_keeps ?_
  rename_i he
  exact .fst (sendOp_keeps (.refl _)) he

theorem execRamo_keeps {st : Fin 8} {d a b : Fin 32} : KeepsNext s (execRamo st d a b s) := by
  refine issue_keeps (unlessAhead_keeps fun s => get_bind_keeps (legal_bind_keeps ?_))
  refine check_bind_keeps remoteNeed_keeps remoteNeed_state fun _ => ?_
  extract_lets p
  split
  rename_i hs
  exact set_keeps (awaitReg_keeps (.fst (sendOp_keeps (.refl s)) hs))

theorem remotePlace_keeps {asid va n place : Nat} {k : Machine.Acc} (h : Keeps s₀ s)
    (ho : s.remotePlace asid va n k = .ok (t, place)) : Keeps s₀ t := by
  unfold State.remotePlace at ho
  split at ho
  · cases ho
  split at ho
  · cases ho
  split at ho
  · cases ho
  dsimp only at ho
  split at ho
  · cases ho
  split at ho
  · cases ho
  split at ho
  · cases ho
  · cases ho
    exact pteSet_keeps h

theorem touchLeaf_keeps {asid va : Nat} (h : Keeps s₀ s) : Keeps s₀ (s.touchLeaf asid va) := by
  unfold State.touchLeaf
  split
  · exact pteSet_keeps h
  · exact h

theorem dirtyLeaf_keeps {asid va : Nat} (h : Keeps s₀ s) : Keeps s₀ (s.dirtyLeaf asid va) := by
  unfold State.dirtyLeaf
  split
  · exact pteSet_keeps h
  · exact h

theorem remoteDo_keeps {p : Packet} {va n : Nat} {k : Machine.Acc} {f : State → Nat → State}
    (hf : ∀ s a1, Keeps s₀ s → Keeps s₀ (f s a1)) (h : Keeps s₀ s) : Keeps s₀ (s.remoteDo p va n k f) := by
  unfold State.remoteDo
  split
  · exact replyTo_keeps (touchLeaf_keeps h)
  · split
    · refine hold_keeps ?_
      rename_i he _
      exact remotePlace_keeps h he
    · refine hf _ _ ?_
      rename_i he _
      exact remotePlace_keeps h he

theorem execRload_keeps {p : Packet} : KeepsNext s (execRload p s) := by
  refine done_keeps ?_
  refine arrive_keeps ?_ (.refl _)
  intro s1 h
  refine remoteDo_keeps ?_ h
  intro s2 b h
  split
  refine replyTo_keeps ?_
  rename_i he
  exact .fst (readAs_keeps (l2Fetch_keeps h)) he

theorem tagAt_keeps {place : Nat} {tag : Bool} (h : Keeps s₀ s) : Keeps s₀ (s.tagAt place tag) := by
  unfold State.tagAt
  split
  · exact .same h rfl rfl rfl rfl
  · exact h

theorem execRstore_keeps {p : Packet} : KeepsNext s (execRstore p s) :=
  done_keeps (arrive_keeps (fun _ h => remoteDo_keeps
      (fun _ _ h => replyTo_keeps (tagAt_keeps (writeAs_keeps (dirtyLeaf_keeps h)))) h) (.refl _))

theorem execRatomic_keeps {p : Packet} : KeepsNext s (execRatomic p s) := by
  refine done_keeps ?_
  refine arrive_keeps ?_ (.refl _)
  intro s1 h
  refine remoteDo_keeps ?_ h
  intro s2 b h
  split
  extract_lets s3
  have h3 : Keeps s s3 := by
    unfold s3
    split
    · refine writeAs_keeps ?_
      refine dirtyLeaf_keeps ?_
      rename_i he _ _ _
      exact .fst (readAs_keeps h) he
    · refine foldl_keeps (fun s4 b1 h => l2Drop_keeps h) _ ?_
      rename_i he _ _
      exact .fst (readAs_keeps h) he
  exact replyTo_keeps h3

theorem remotePlaces_keeps {asid : Nat} {k : Machine.Acc} {ps rest : List (Nat × Nat)} (h : Keeps s₀ s)
    (ho : s.remotePlaces asid k ps = .ok (t, rest)) : Keeps s₀ t := by
  induction ps generalizing s rest with
  | nil =>
    cases ho
    exact h
  | cons p ps ih =>
    unfold State.remotePlaces at ho
    split at ho
    · cases ho
    · rename_i hp
      split at ho
      · cases ho
      · rename_i hps
        cases ho
        exact ih (remotePlace_keeps h hp) hps

theorem writePieces_keeps {p : Packet} {va : Nat} {a3 : List (Nat × Nat)} {a4 : List Byte} (h : Keeps s₀ s) : Keeps s₀
    (s.writePieces p va a3 a4) := by
  induction a3 generalizing s p va a4 with
  | nil => exact h
  | cons x xs ih => exact ih (writeAs_keeps (dirtyLeaf_keeps h))

theorem partDone_keeps {p : Packet} {n : Nat} (h : Keeps s₀ s) : Keeps s₀ (s.partDone p n) := by
  unfold State.partDone
  split
  · exact hold_keeps h
  · exact replyTo_keeps h

theorem execMwrite_keeps {p : Packet} : KeepsNext s (execMwrite p s) := by
  refine done_keeps ?_
  refine arrive_keeps ?_ (.refl _)
  intro s1 h
  split
  · exact replyTo_keeps (foldl_keeps (fun s2 b h => touchLeaf_keeps h) _ h)
  · split
    · refine hold_keeps ?_
      rename_i he _
      exact remotePlaces_keeps h he
    · refine partDone_keeps ?_
      split
      · refine writePieces_keeps ?_
        rename_i he _ _
        exact remotePlaces_keeps h he
      · split
        · refine writePieces_keeps ?_
          rename_i he
          refine remotePlaces_keeps ?_ he
          rename_i he1 _ _ _ _ _
          exact remotePlaces_keeps h he1
        · rename_i he _ _ _ _ _
          exact remotePlaces_keeps h he

theorem gathElem_keeps {p : Packet} {i : Nat} (h : Keeps s₀ s) : Keeps s₀ (s.gathElem p i).1 := by
  unfold State.gathElem
  dsimp only
  split
  · exact touchLeaf_keeps h
  · refine readAs_keeps ?_
    refine l2Fetch_keeps ?_
    rename_i he
    exact remotePlace_keeps h he

theorem scatElem_keeps {p : Packet} {i : Nat} (h : Keeps s₀ s) : Keeps s₀ (s.scatElem p i).1 := by
  unfold State.scatElem
  dsimp only
  split
  · exact touchLeaf_keeps h
  · refine writeAs_keeps ?_
    refine dirtyLeaf_keeps ?_
    rename_i he
    exact remotePlace_keeps h he

theorem elemsDo_keeps {p : Packet} {k : Machine.Acc} {f : State → Nat → State × List Byte}
    (hf : ∀ s a1, Keeps s₀ s → Keeps s₀ (f s a1).1) (h : Keeps s₀ s) : Keeps s₀ (s.elemsDo p k f) := by
  unfold State.elemsDo
  split
  · exact replyTo_keeps h
  · dsimp only
    split
    · exact hold_keeps h
    · refine replyTo_keeps (foldl_fst_keeps ?_ _ h)
      exact fun x i hx => hf x.1 i hx

theorem execRgath_keeps {p : Packet} : KeepsNext s (execRgath p s) :=
  done_keeps (arrive_keeps (fun _ h => elemsDo_keeps (fun _ _ h => gathElem_keeps h) h) (.refl _))

theorem execRscat_keeps {p : Packet} : KeepsNext s (execRscat p s) :=
  done_keeps (arrive_keeps (fun _ h => elemsDo_keeps (fun _ _ h => scatElem_keeps h) h) (.refl _))

theorem putCommit_keeps {c : Commit} (h : Keeps s₀ s) : Keeps s₀ (s.putCommit c) :=
  .same h rfl rfl rfl rfl

theorem mapCommit_keeps {src grp : Nat} {f : Commit → Commit} (h : Keeps s₀ s) : Keeps s₀ (s.mapCommit src grp f) :=
  .same h rfl rfl rfl rfl

theorem openGroup_keeps {src grp : Nat} (h : Keeps s₀ s) : Keeps s₀ (s.openGroup src grp) := by
  unfold State.openGroup
  split
  · split
    · exact h
    · exact putCommit_keeps h
  · extract_lets mine s1
    have h1 : Keeps s₀ s1 := by
      unfold s1
      split
      · exact h
      · split
        · exact .same h rfl rfl rfl rfl
        · exact h
    exact putCommit_keeps h1

theorem execGst_keeps {st : Fin 8} {d a b : Fin 32} : KeepsNext s (execGst st d a b s) := by
  refine issue_keeps (unlessAhead_keeps fun s => get_bind_keeps (legal_bind_keeps ?_))
  refine check_bind_keeps remoteNeed_keeps remoteNeed_state fun _ => ?_
  extract_lets u p q
  split
  rename_i hs
  have hu : Keeps s u := mapCommit_keeps (openGroup_keeps (.refl s))
  exact set_keeps (edge_keeps (.fst (sendOp_keeps hu) hs))

theorem mapGroup_keeps {stk src grp : Nat} {f : SbGroup → SbGroup} (h : Keeps s₀ s) : Keeps s₀ (s.mapGroup stk src grp f) :=
  .same h rfl rfl rfl rfl

theorem dropGroup_keeps {stk src grp : Nat} (h : Keeps s₀ s) : Keeps s₀ (s.dropGroup stk src grp) :=
  .same h rfl rfl rfl rfl

theorem stage_keeps {stk src grp : Nat} {e : SbEntry} (h : Keeps s₀ s) : Keeps s₀ (s.stage stk src grp e) := by
  unfold State.stage
  split
  · exact mapGroup_keeps h
  · exact .same h rfl rfl rfl rfl

theorem restage_keeps {stk src grp : Nat} (h : Keeps s₀ s) : Keeps s₀ (s.restage stk src grp) :=
  mapGroup_keeps h

theorem execGstage_keeps {p : Packet} : KeepsNext s (execGstage p s) := by
  refine done_keeps ?_
  refine arrive_keeps ?_ (.refl _)
  intro s1 h
  split
  · exact replyTo_keeps (touchLeaf_keeps h)
  · dsimp only
    split
    · refine replyTo_keeps ?_
      refine stage_keeps ?_
      rename_i he _
      exact remotePlace_keeps h he
    · refine replyTo_keeps ?_
      refine restage_keeps ?_
      rename_i he _
      exact remotePlace_keeps h he

theorem execPrepare_keeps {p : Packet} : KeepsNext s (execPrepare p s) := by
  refine done_keeps ?_
  refine arrive_keeps ?_ (.refl _)
  intro s1 h
  dsimp only
  split
  · exact replyTo_keeps h
  · split
    · exact replyTo_keeps h
    · split
      · exact replyTo_keeps (mapGroup_keeps h)
      · exact replyTo_keeps (dropGroup_keeps h)

theorem publishEntry_keeps {src grp : Nat} {e : SbEntry} (h : Keeps s₀ s) : Keeps s₀ (s.publishEntry src grp e) :=
  tagAt_keeps (writeAs_keeps (dirtyLeaf_keeps h))

theorem publishHere_keeps {src grp : Nat} (h : Keeps s₀ s) : Keeps s₀ (s.publishHere src grp) := by
  unfold State.publishHere
  dsimp only
  split
  · refine foldl_keeps ?_ _ (foldl_keeps (fun s1 b h => foldl_keeps (fun s2 b1 h => publishEntry_keeps h) _ h) _
        (.same h rfl rfl rfl rfl))
    intro s1 b h
    split
    · exact replyTo_keeps h
    · exact h
  · exact h

theorem publishAt_keeps {stk src grp : Nat} {p : Option Packet} (h : Keeps s₀ s) : Keeps s₀ (s.publishAt stk src grp p) :=
  publishHere_keeps (mapGroup_keeps h)

theorem execPublish_keeps {p : Packet} : KeepsNext s (execPublish p s) := by
  refine done_keeps ?_
  refine arrive_keeps ?_ (.refl _)
  intro s1 h
  split
  · exact replyTo_keeps h
  · split
    · exact replyTo_keeps h
    · exact publishAt_keeps h

theorem execDiscard_keeps {p : Packet} : KeepsNext s (execDiscard p s) :=
  done_keeps (arrive_keeps (fun _ h => replyTo_keeps (dropGroup_keeps h)) (.refl _))

theorem execStagingTimeout_keeps {stk src grp : Nat} : KeepsNext s (execStagingTimeout stk src grp s) := by
  unfold execStagingTimeout
  split
  · exact done_keeps (.refl _)
  · refine done_keeps ?_
    split
    · exact dropGroup_keeps (.refl _)
    · exact .refl _

theorem askCommit_keeps {stk src grp : Nat} (h : Keeps s₀ s) : Keeps s₀ (s.askCommit stk src grp) :=
  unitOp_keeps h

theorem execInDoubtTimer_keeps {stk src grp : Nat} : KeepsNext s (execInDoubtTimer stk src grp s) := by
  unfold execInDoubtTimer
  split
  · exact done_keeps (.refl _)
  · refine done_keeps ?_
    split
    · exact askCommit_keeps (.refl _)
    · exact .refl _

theorem answerHeld_keeps {src grp : Nat} {w : Word} (h : Keeps s₀ s) : Keeps s₀ (s.answerHeld src grp w) :=
  foldl_keeps (fun _ _ h => replyTo_keeps h) _ (.same h rfl rfl rfl rfl)

theorem completeFor_keeps {asid e cls ri : Nat} {f : JobRec → JobRec} (h : Keeps s₀ s) : Keeps s₀
    (s.completeFor asid e cls ri f) := by
  unfold State.completeFor
  dsimp only
  split
  · exact mapCore_keeps (fun _ => completeJob_settings) h
  · refine mapSaved_keeps (fun c => ?_) h
    split
    · exact completeJob_settings
    · rfl

theorem commitDone_keeps {c : Commit} {st : CommitSt} (h : Keeps s₀ s) : Keeps s₀ (s.commitDone c st) := by
  unfold State.commitDone
  extract_lets c1 e s1 s2
  have h1 : Keeps s₀ s1 := mapCommit_keeps h
  have h2 : Keeps s₀ s2 := by
    unfold s2
    split
    · extract_lets s3
      have h3 : Keeps s₀ s3 := by
        unfold s3
        split
        · exact edge_keeps h1
        · exact h1
      exact completeFor_keeps h3
    · exact h1
  exact answerHeld_keeps h2

theorem finishCommit_keeps {src grp : Nat} (h : Keeps s₀ s) : Keeps s₀ (s.finishCommit src grp) := by
  unfold State.finishCommit
  split
  · exact h
  · split
    · exact h
    · split
      · exact commitDone_keeps h
      · split
        · exact commitDone_keeps h
        · exact h

theorem tellPart_keeps {src grp handler : Nat} {q : Participant} (h : Keeps s₀ s) : Keeps s₀ (s.tellPart src grp handler q) :=
  unitOp_keeps h

theorem tellParts_keeps {src grp handler : Nat} (h : Keeps s₀ s) : Keeps s₀ (s.tellParts src grp handler) := by
  unfold State.tellParts
  split
  · exact h
  · exact foldl_keeps (fun s1 b h => tellPart_keeps h) _ h

theorem discardGroup_keeps {src grp : Nat} {f : Commit → Commit} (h : Keeps s₀ s) : Keeps s₀ (s.discardGroup src grp f) := by
  unfold State.discardGroup
  extract_lets s1
  have h1 : Keeps s₀ s1 := mapCommit_keeps h
  exact finishCommit_keeps (tellParts_keeps h1)

theorem publishGroup_keeps {src grp : Nat} (h : Keeps s₀ s) : Keeps s₀ (s.publishGroup src grp) := by
  unfold State.publishGroup
  extract_lets s1
  have h1 : Keeps s₀ s1 := mapCommit_keeps h
  exact finishCommit_keeps (tellParts_keeps h1)

theorem checkReady_keeps {src grp : Nat} (h : Keeps s₀ s) : Keeps s₀ (s.checkReady src grp) := by
  unfold State.checkReady
  split
  · split
    · exact publishGroup_keeps h
    · exact h
  · exact h

theorem execCommitHandover_keeps {src grp : Nat} : KeepsNext s (execCommitHandover src grp s) := by
  unfold execCommitHandover
  split
  · exact done_keeps (.refl _)
  · split
    · exact done_keeps (.refl _)
    · split
      · exact done_keeps (discardGroup_keeps (.refl _))
      · extract_lets s1
        have h1 : Keeps s s1 := mapCommit_keeps (.refl _)
        exact done_keeps (checkReady_keeps (tellParts_keeps h1))

theorem dropUnitOp_keeps {r : RemOp} (h : Keeps s₀ s) : Keeps s₀ (s.dropUnitOp r) :=
  .same h rfl rfl rfl rfl

theorem takeReady_keeps {r : RemOp} {status : Nat} {data : List Byte} (h : Keeps s₀ s) : Keeps s₀
    (s.takeReady r status data) := by
  unfold State.takeReady
  extract_lets src grp s1
  have h1 : Keeps s₀ s1 := dropUnitOp_keeps h
  split
  · exact h1
  · split
    · exact h1
    · split
      · exact checkReady_keeps (mapCommit_keeps h1)
      · exact discardGroup_keeps h1

theorem takeAck_keeps {r : RemOp} {status : Nat} (h : Keeps s₀ s) : Keeps s₀ (s.takeAck r status) := by
  unfold State.takeAck
  extract_lets src grp s1 v1
  have h1 : Keeps s₀ s1 := dropUnitOp_keeps h
  split
  · exact h1
  · split
    · exact h1
    · split
      · exact unitOp_keeps h1
      · exact finishCommit_keeps (mapCommit_keeps h1)

theorem takeAnswer_keeps {r : RemOp} {status : Nat} {data : List Byte} (h : Keeps s₀ s) : Keeps s₀
    (s.takeAnswer r status data) := by
  unfold State.takeAnswer
  extract_lets src grp stk s1 st
  have h1 : Keeps s₀ s1 := dropUnitOp_keeps h
  split
  · exact h1
  · split
    · exact h1
    · split
      · exact publishAt_keeps h1
      · split
        · exact dropGroup_keeps h1
        · exact mapGroup_keeps h1

theorem unitReply_keeps {r : RemOp} {status : Nat} {data : List Byte} (h : Keeps s₀ s) : Keeps s₀
    (s.unitReply r status data) := by
  unfold State.unitReply
  split
  · exact takeReady_keeps h
  · exact takeAck_keeps h
  · exact takeAck_keeps h
  · exact takeAnswer_keeps h
  · exact dropUnitOp_keeps h

theorem unitReplyEvent_keeps {p : Packet} : KeepsNext s (unitReplyEvent p s) := by
  refine done_keeps ?_
  refine arrive_keeps ?_ (.refl _)
  intro s1 h
  split
  · exact unitReply_keeps h
  · exact h

theorem execReady_keeps {p : Packet} : KeepsNext s (execReady p s) :=
  unitReplyEvent_keeps

theorem execDecisionAck_keeps {p : Packet} : KeepsNext s (execDecisionAck p s) :=
  unitReplyEvent_keeps

theorem execQueryAnswer_keeps {p : Packet} : KeepsNext s (execQueryAnswer p s) :=
  unitReplyEvent_keeps

theorem execPrepareTimeout_keeps {src grp : Nat} : KeepsNext s (execPrepareTimeout src grp s) := by
  unfold execPrepareTimeout
  split
  · exact done_keeps (.refl _)
  · split
    · exact done_keeps (discardGroup_keeps (.refl _))
    · exact done_keeps (.refl _)

theorem execQuery_keeps {p : Packet} : KeepsNext s (execQuery p s) := by
  refine done_keeps ?_
  refine arrive_keeps ?_ (.refl _)
  intro s1 h
  dsimp only
  split
  · exact .same h rfl rfl rfl rfl
  · exact replyTo_keeps h

theorem closeOp_keeps {e : Nat} {r : RemOp} {status : Nat} (h : Keeps s₀ s) : Keeps s₀ (s.closeOp e r status) := by
  unfold State.closeOp
  extract_lets s1 s2
  have h1 : Keeps s₀ s1 := by
    refine mapCore_keeps ?_ h
    intro c
    split
    · exact mapCtxNo_settings
    · exact rfl
  have h2 : Keeps s₀ s2 := edge_keeps h1
  split
  · exact edge_keeps h2
  · exact h2

theorem lateStage_keeps {c : Commit} {status : Nat} {data : List Byte} (h : Keeps s₀ s) : Keeps s₀
    (s.lateStage c status data) := by
  unfold State.lateStage
  split
  · exact finishCommit_keeps (mapCommit_keeps h)
  · exact tellPart_keeps (mapCommit_keeps h)

theorem gstDone_keeps {e : Nat} {r : RemOp} {status : Nat} {data : List Byte} (h : Keeps s₀ s) : Keeps s₀
    (s.gstDone e r status data) := by
  unfold State.gstDone
  extract_lets s1
  have h1 : Keeps s₀ s1 := closeOp_keeps h
  split
  · split
    · exact mapCommit_keeps h1
    · split
      · exact lateStage_keeps h1
      · exact h1
  · exact h1

theorem execGstReply_keeps {p : Packet} : KeepsNext s (execGstReply p s) := by
  refine done_keeps ?_
  refine arrive_keeps ?_ (.refl _)
  intro s1 h
  split
  · exact gstDone_keeps h
  · exact h

theorem resumeAgent_keeps {stk : Nat} (h : Keeps s₀ s) : Keeps s₀ (s.resumeAgent stk) := by
  unfold State.resumeAgent
  split
  · exact h
  · extract_lets s1 s2
    have h1 : Keeps s₀ s1 := .same h rfl rfl rfl rfl
    have h2 : Keeps s₀ s2 := .same h1 rfl rfl rfl rfl
    refine foldl_keeps ?_ _ h2
    intro s3 b h
    split
    · split
      · exact tellParts_keeps h
      · split
        · exact tellParts_keeps h
        · exact h
    · exact h

theorem execGcommit_keeps {st : Fin 8} {d a : Fin 32} : KeepsNext s (execGcommit st d a s) := by
  refine issue_keeps ?_
  refine unlessAhead_keeps ?_
  intro s1
  refine get_bind_keeps ?_
  refine legal_bind_keeps ?_
  split
  extract_lets s2
  have h2 : Keeps s1 s2 := by
    refine mapCommit_keeps ?_
    rename_i he
    exact .fst (openJob_keeps (.refl _)) he
  exact set_keeps (wx_keeps (edge_keeps h2))

theorem execGabort_keeps {st : Fin 8} {a : Fin 32} : KeepsNext s (execGabort st a s) := by
  refine issue_keeps ?_
  refine unlessAhead_keeps ?_
  intro s1
  refine get_bind_keeps ?_
  refine legal_bind_keeps ?_
  split
  · exact pure_keeps
  · split
    · exact set_keeps (mapCommit_keeps (.refl _))
    · split
      · exact set_keeps (discardGroup_keeps (.refl _))
      · exact pure_keeps

theorem queryOp_keeps {w : Word} (h : Keeps s₀ s) : Keeps s₀ (s.queryOp w).1 :=
  sendOp_keeps h

theorem execGcstat_keeps {st : Fin 8} {d a : Fin 32} : KeepsNext s (execGcstat st d a s) := by
  refine issue_keeps ?_
  refine unlessAhead_keeps ?_
  intro s1
  refine get_bind_keeps ?_
  refine legal_bind_keeps ?_
  split
  refine set_keeps ?_
  refine awaitReg_keeps ?_
  rename_i he
  exact .fst (queryOp_keeps (.refl _)) he

theorem gwaitReturn_keeps {d : Fin 32} {a w : Word} (h : Keeps s₀ s) : Keeps s₀ (s.gwaitReturn d a w) := by
  unfold State.gwaitReturn
  extract_lets g s1
  have h1 : Keeps s₀ s1 := by
    unfold s1
    split
    · exact edge_keeps h
    · exact h
  exact wx_keeps h1

theorem execGwait_keeps {st : Fin 8} {d a : Fin 32} : KeepsNext s (execGwait st d a s) := by
  refine issue_keeps ?_
  refine unlessAhead_keeps ?_
  intro s1
  refine get_bind_keeps ?_
  refine legal_bind_keeps ?_
  split
  · split
    · exact set_keeps (gwaitReturn_keeps (.refl _))
    · split
      · exact set_keeps (wx_keeps (.refl _))
      · exact waitHere_keeps
  · split
    refine set_bind_keeps ?_ waitHere_keeps
    refine setCtx_keeps ?_
    rename_i he
    exact .fst (queryOp_keeps (.refl _)) he

theorem execGwaitTimeLimit_keeps {e h' : Nat} : KeepsNext s (execGwaitTimeLimit e h' s) :=
  atCore_keeps (fun _ _ h => .same h rfl mapCtxNo_settings rfl rfl)

theorem asCtx_keeps {h' : Nat} {f : State → State} (hf : ∀ s, Keeps s₀ s → Keeps s₀ (f s)) (h : Keeps s₀ s) : Keeps s₀
    (s.asCtx h' f) := by
  unfold State.asCtx
  extract_lets cur v1 s1 v2
  have h1 : Keeps s₀ s1 := hf _ (.same h rfl rfl rfl rfl)
  exact .same h1 rfl rfl rfl rfl

theorem execGwaitQueryRepeat_keeps {e h' : Nat} : KeepsNext s (execGwaitQueryRepeat e h' s) := by
  refine atCore_keeps ?_
  intro _ s1 h
  split
  · split
    · refine asCtx_keeps ?_ h
      intro s2 h
      split
      refine setCtx_keeps ?_
      rename_i he
      exact .fst (queryOp_keeps h) he
    · exact h
  · exact h

theorem mapEnd_settings {c : Core} {id : Nat} {f : ChanEnd → ChanEnd} : settings (c.mapEnd id f) = settings c :=
  rfl

theorem execChopen_keeps {st : Fin 8} {d a b : Fin 32} : KeepsNext s (execChopen st d a b s) := by
  refine issue_keeps ?_
  refine unlessAhead_keeps ?_
  intro s1
  refine get_bind_keeps ?_
  refine legal_bind_keeps ?_
  split
  · exact upd_keeps (fun s2 => wx_keeps (.refl _))
  · dsimp only
    split
    · exact need_bind_keeps (upd_keeps (fun s2 => wx_keeps (.same (.refl _) rfl rfl rfl rfl)))
    · exact raise_keeps

theorem slotAnswer_keeps {me deid tag id asid : Nat} {is_ : List Nat} (h : Keeps s₀ s) : Keeps s₀
    (s.slotAnswer me deid tag id asid is_) :=
  send_keeps h

theorem grantEnd_keeps {e id a3 : Nat} (h : Keeps s₀ s) : Keeps s₀ (s.grantEnd e id a3) := by
  induction a3 generalizing s e id with
  | zero => exact h
  | succ n ih =>
    unfold State.grantEnd
    split
    · exact h
    · split
      · exact h
      · split
        · extract_lets is_ asid s1
          have h1 : Keeps s₀ s1 := mapCore_keeps (fun c => rfl) h
          exact ih (slotAnswer_keeps h1)
        · exact h

theorem grants_keeps {e id : Nat} (h : Keeps s₀ s) : Keeps s₀ (s.grants_ e id) :=
  grantEnd_keeps h

theorem slotReq_keeps {p : Packet} (h : Keeps s₀ s) : Keeps s₀ (s.slotReq p) := by
  unfold State.slotReq
  split
  · split
    · exact h
    · exact slotAnswer_keeps h
  · split
    · exact grants_keeps (mapCore_keeps (fun c => rfl) h)
    · dsimp only
      split
      · exact slotAnswer_keeps h
      · split
        · exact slotAnswer_keeps h
        · split
          · exact slotAnswer_keeps h
          · exact grants_keeps (mapCore_keeps (fun c => rfl) h)

theorem execSlotreq_keeps {p : Packet} : KeepsNext s (execSlotreq p s) := by
  unfold execSlotreq
  extract_lets s1
  have h1 : Keeps s s1 := .same (.refl _) rfl rfl rfl rfl
  refine done_keeps ?_
  split
  · exact h1
  · split
    · split
      · rename_i he
        exact wire_keeps h1 he
      · exact slotAnswer_keeps h1
    · exact slotReq_keeps h1

theorem handBack_keeps {e asid : Nat} {h' : HeldGrant} (h : Keeps s₀ s) : Keeps s₀ (s.handBack e asid h') := by
  unfold State.handBack
  split
  · exact h
  · exact send_keeps h

theorem execSlotgnt_keeps {p : Packet} : KeepsNext s (execSlotgnt p s) := by
  refine done_keeps ?_
  refine arrive_keeps ?_ (.refl _)
  intro s1 h
  dsimp only
  split
  · exact mapCore_keeps (fun c => rfl) h
  · exact handBack_keeps h

theorem dropStaleOf_keeps {c : Core} (h : Keeps s₀ s) : Keeps s₀ (s.dropStaleOf c) := by
  unfold State.dropStaleOf
  split
  · exact h
  · exact foldl_keeps (fun s1 b h => handBack_keeps h) _ (mapCore_keeps (fun c1 => rfl) h)

theorem dropStale_keeps (h : Keeps s₀ s) : Keeps s₀ s.dropStale :=
  foldl_keeps (fun _ _ h => dropStaleOf_keeps h) _ h

theorem askSlots_keeps {peer id m : Nat} (h : Keeps s₀ s) : Keeps s₀ (s.askSlots peer id m) := by
  unfold State.askSlots
  extract_lets tag v1 s1 v2 s2 v3
  have h1 : Keeps s₀ s1 := .same h rfl rfl rfl rfl
  have h2 : Keeps s₀ s2 := setCtx_keeps h1
  split
  · rename_i he
    exact wire_keeps h2 he
  · exact .same h2 rfl rfl rfl rfl

theorem takeSlots_keeps {peer id m : Nat} : KeepsAt (takeSlots peer id m) s := by
  refine get_bind_keeps ?_
  split
  · split
    · exact waitHere_keeps
    · exact bind_keeps (upd_keeps (fun s1 => .same (.refl _) rfl rfl rfl rfl)) (fun a s1 => need_bind_keeps pure_keeps)
  · exact set_bind_keeps (askSlots_keeps (.refl _)) waitHere_keeps

theorem freeSlot_keeps {id i : Nat} (h : Keeps s₀ s) : Keeps s₀ (s.freeSlot id i) := by
  unfold State.freeSlot
  extract_lets s1
  have h1 : Keeps s₀ s1 := .same h rfl rfl rfl rfl
  exact grants_keeps h1

theorem takeWord_keeps {id : Nat} (h : Keeps s₀ s) : Keeps s₀ (s.takeWord id) := by
  unfold State.takeWord
  split
  · exact h
  · split
    · exact h
    · split
      · exact freeSlot_keeps h
      · exact .same h rfl rfl rfl rfl

theorem joinSlot_keeps {id : Nat} (h : Keeps s₀ s) : Keeps s₀ (s.joinSlot id) := by
  unfold State.joinSlot
  split
  · split
    · exact edge_keeps h
    · exact h
  · exact h

theorem drain_keeps {id a2 : Nat} (h : Keeps s₀ s) : Keeps s₀ (s.drain id a2) := by
  induction a2 generalizing s id with
  | zero => exact h
  | succ n ih =>
    unfold State.drain
    split
    · exact h
    · split
      · exact h
      · extract_lets s1
        have h1 : Keeps s₀ s1 := takeWord_keeps h
        refine ih ?_
        split
        · exact .same h1 rfl rfl rfl rfl
        · exact h1

theorem drainAll_keeps {id : Nat} (h : Keeps s₀ s) : Keeps s₀ (s.drainAll id) :=
  drain_keeps h

theorem sendMsg_keeps {peer id tag slot : Nat} {bs : List Byte} (h : Keeps s₀ s) : Keeps s₀ (s.sendMsg peer id tag slot bs) :=
    by
  unfold State.sendMsg
  extract_lets n v1 s1
  have h1 : Keeps s₀ s1 := .same h rfl rfl rfl rfl
  exact sendOp_keeps h1

theorem execChsend_keeps {st : Fin 8} {d a b : Fin 32} : KeepsNext s (execChsend st d a b s) :=
  issue_keeps (unlessAhead_keeps (fun _ => get_bind_keeps
      (legal_bind_keeps (need_bind_keeps (bind_keeps access_keeps
          (fun _ _ => bind_keeps takeSlots_keeps
              (fun _ _ => bind_keeps loadSegs_keeps (fun _ _ => upd_keeps (fun _ => sendMsg_keeps (.refl _))))))))))

theorem fillSlot_keeps {p : Packet} (h : Keeps s₀ s) : Keeps s₀ (s.fillSlot p).1 := by
  unfold State.fillSlot
  extract_lets id tag i
  cases s.core.endOf id with
  | none => exact h
  | some e =>
    dsimp only
    split
    · have h1 : Keeps s₀ (s.write (s.core.slotPlace (e.base + i))
          (slotHeader id p.data.length p.seid p.arg2.toNat ++ p.data) p.seid) := write_keeps h
      generalize s.write (s.core.slotPlace (e.base + i)) (slotHeader id p.data.length p.seid p.arg2.toNat ++ p.data) p.seid = u
        at h1 ⊢
      exact .same (edge_keeps h1) rfl (wake_settings.trans mapEnd_settings) rfl rfl
    · exact h

theorem fillPool_keeps {p : Packet} {n : Nat} (h : Keeps s₀ s) : Keeps s₀ (s.fillPool p n) :=
  writeAs_keeps h

theorem smear_keeps {place n writer : Nat} (h : Keeps s₀ s) : Keeps s₀ (s.smear place n writer) :=
  write_keeps (.same h rfl rfl rfl rfl)

theorem smearPool_keeps {eid off n : Nat} (h : Keeps s₀ s) : Keeps s₀ (s.smearPool eid off n) := by
  unfold State.smearPool
  dsimp only
  split
  · exact smear_keeps h
  · exact h

theorem execSpwrite_keeps {p : Packet} : KeepsNext s (execSpwrite p s) := by
  refine done_keeps ?_
  refine arrive_keeps ?_ (.refl _)
  intro s1 h
  split
  · dsimp only
    split
    · exact replyTo_keeps h
    · exact replyTo_keeps (at_keeps (fun s2 h => drainAll_keeps (fillSlot_keeps h)) h)
  · dsimp only
    split
    · exact replyTo_keeps h
    · split
      · exact replyTo_keeps h
      · exact partDone_keeps (at_keeps (fun s2 h => fillPool_keeps h) h)

theorem execChrecv_keeps {st : Fin 8} {d a b : Fin 32} : KeepsNext s (execChrecv st d a b s) := by
  refine issue_keeps ?_
  refine unlessAhead_keeps ?_
  intro s1
  refine get_bind_keeps ?_
  split
  · dsimp only
    split
    · exact raise_keeps
    · refine need_bind_keeps ?_
      refine bind_keeps capNeed_keeps ?_
      intro a1 s2
      refine bind_keeps segsOf_keeps ?_
      intro a2 s3
      split
      · exact upd_keeps (fun s4 => wx_keeps (.refl _))
      · exact bind_keeps segsOf_keeps (fun a3 s4 => bind_keeps goodNeed_keeps
            (fun a4 s5 => bind_keeps watchNeed_keeps
                (fun a5 s6 => upd_keeps (fun s7 => wx_keeps (freeSlot_keeps (storeSegs_keeps (edge_keeps (.refl _))))))))
  · dsimp only
    split
    · exact raise_keeps
    · refine need_bind_keeps ?_
      refine bind_keeps capNeed_keeps ?_
      intro a1 s2
      refine bind_keeps segsOf_keeps ?_
      intro a2 s3
      split
      · exact waitHere_keeps
      · exact bind_keeps segsOf_keeps (fun a3 s4 => bind_keeps goodNeed_keeps
            (fun a4 s5 => bind_keeps watchNeed_keeps
                (fun a5 s6 => upd_keeps (fun s7 => wx_keeps (freeSlot_keeps (storeSegs_keeps (edge_keeps (.refl _))))))))

theorem closeEnd_keeps {e : ChanEnd} (h : Keeps s₀ s) : Keeps s₀ (s.closeEnd e) := by
  unfold State.closeEnd
  extract_lets me asid v1 s1
  have h1 : Keeps s₀ s1 := .same h rfl rfl rfl rfl
  exact foldl_keeps (fun s2 b h => slotAnswer_keeps h) _ h1

theorem execChclose_keeps {st : Fin 8} {a : Fin 32} : KeepsNext s (execChclose st a s) := by
  refine issue_keeps ?_
  refine unlessAhead_keeps ?_
  intro s1
  refine get_bind_keeps ?_
  dsimp only
  split
  · exact pure_keeps
  · split
    · exact raise_keeps
    · exact need_bind_keeps (upd_keeps (fun s2 => closeEnd_keeps (.refl _)))

theorem setBar_keeps {e i writer : Nat} {b : Bar} (h : Keeps s₀ s) : Keeps s₀ (s.setBar e i writer b) :=
  write_keeps h

theorem releaseBar_keeps {e i : Nat} (h : Keeps s₀ s) : Keeps s₀ (s.releaseBar e i) := by
  unfold State.releaseBar
  extract_lets ph go ws asid s1
  have h1 : Keeps s₀ s1 := mapCore_keeps (fun c => rfl) h
  exact foldl_keeps (fun s2 b h => send_keeps h) _ h1

theorem barArrive_keeps {e i n : Nat} {drop : Bool} {writer : Nat} {thr : Nat × Nat} (h : Keeps s₀ s) : Keeps s₀
    (s.barArrive e i n drop writer thr).1 := by
  unfold State.barArrive
  split
  · exact h
  · extract_lets s1
    have h1 : Keeps s₀ s1 := edge_keeps (setBar_keeps h)
    split
    · exact h1
    · exact releaseBar_keeps h1

theorem execBararr_keeps {p : Packet} : KeepsNext s (execBararr p s) := by
  refine done_keeps ?_
  refine arrive_keeps ?_ (.refl _)
  intro s1 h
  dsimp only
  split
  · exact replyTo_keeps h
  · split
    · refine replyTo_keeps ?_
      rename_i he
      exact .fst (barArrive_keeps h) he
    · refine replyTo_keeps ?_
      rename_i he
      exact .fst (barArrive_keeps h) he

theorem execBarrierWaitRequest_keeps {p : Packet} : KeepsNext s (execBarrierWaitRequest p s) := by
  refine done_keeps ?_
  refine arrive_keeps ?_ (.refl _)
  intro s1 h
  dsimp only
  split
  · exact replyTo_keeps h
  · split
    · exact replyTo_keeps h
    · split
      · exact mapCore_keeps (fun c => rfl) h
      · exact replyTo_keeps h

theorem execBarrierRetry_keeps {e h' : Nat} : KeepsNext s (execBarrierRetry e h' s) := by
  refine done_keeps ?_
  split
  · exact mapCore_keeps (fun c => mapCtxNo_settings) (.refl _)
  · exact .refl _

theorem barNeed_keeps {w : Word} : KeepsAt (barNeed w) s := by
  refine get_bind_keeps ?_
  split
  · exact pure_keeps
  · exact get_bind_keeps throw_keeps

theorem barNeed_state {w : Word} (x : Nat × Nat) (t : State) (h : barNeed w s = .ok x t) : t = s := by
  unfold barNeed at h
  rw [bind_ok (get_run s)] at h
  cases hw : s.barOperand w with
  | some y =>
    rw [hw] at h
    cases h
    rfl
  | none =>
    rw [hw] at h
    cases h

theorem barOver_keeps {α : Type} {i home : Nat} {lost : Bool} : KeepsAt (barOver (α := α) i home lost) s :=
  raise_keeps

theorem execBari_keeps {st : Fin 8} {a b : Fin 32} : KeepsNext s (execBari st a b s) :=
  issue_keeps (unlessAhead_keeps (fun _ => get_bind_keeps
      (check_bind_keeps barNeed_keeps barNeed_state (fun _ => legal_bind_keeps (set_keeps (setBar_keeps (.refl _)))))))

theorem arriveAt_keeps {i home n : Nat} {drop : Bool} : KeepsAt (arriveAt i home n drop) s := by
  refine get_bind_keeps ?_
  split
  · exact waitHere_keeps
  · refine bind_keeps (upd_keeps (fun s1 => setCtx_keeps (.refl _))) ?_
    intro a s1
    split
    · exact barOver_keeps
    · split
      · exact barOver_keeps
      · exact pure_keeps
  · split
    · split
      · exact barOver_keeps
      · refine set_bind_keeps ?_ pure_keeps
        rename_i he
        exact .fst (barArrive_keeps (.refl _)) he
    · split
      refine set_bind_keeps ?_ waitHere_keeps
      refine setCtx_keeps ?_
      rename_i he
      exact .fst (sendOp_keeps (.refl _)) he

theorem barArriveOp_keeps {st : Nat} {d a b : Fin 32} {drop : Bool} : KeepsNext s (barArriveOp st d a b drop s) :=
  issue_keeps (unlessAhead_keeps (fun _ => get_bind_keeps
      (check_bind_keeps barNeed_keeps barNeed_state
          (fun _ => legal_bind_keeps (bind_keeps arriveAt_keeps (fun _ _ => upd_keeps (fun _ => wx_keeps (.refl _))))))))

theorem execBara_keeps {st : Fin 8} {d a b : Fin 32} : KeepsNext s (execBara st d a b s) :=
  barArriveOp_keeps

theorem execBarad_keeps {st : Fin 8} {d a b : Fin 32} : KeepsNext s (execBarad st d a b s) :=
  barArriveOp_keeps

theorem askBar_keeps {i home n : Nat} : KeepsAt (askBar i home n) s := by
  refine get_bind_keeps ?_
  split
  refine set_bind_keeps ?_ waitHere_keeps
  refine setCtx_keeps ?_
  rename_i he
  exact .fst (sendOp_keeps (.refl _)) he

theorem awaitPhase_keeps {i home n : Nat} : KeepsAt (awaitPhase i home n) s := by
  refine get_bind_keeps ?_
  split
  · exact await_bind_keeps pure_keeps
  · split
    · exact waitHere_keeps
    · split
      · exact barOver_keeps
      · split
        · exact set_bind_keeps (setCtx_keeps (.refl _)) waitHere_keeps
        · exact pure_keeps
    · split
      · exact askBar_keeps
      · exact waitHere_keeps
    · exact askBar_keeps

theorem barReleased_keeps {home i : Nat} {d : Fin 32} {ph : Nat} (h : Keeps s₀ s) : Keeps s₀ (s.barReleased home i d ph) :=
  wx_keeps (edge_keeps h)

theorem execBarw_keeps {st : Fin 8} {d a b : Fin 32} : KeepsNext s (execBarw st d a b s) :=
  issue_keeps (unlessAhead_keeps (fun _ => get_bind_keeps
      (check_bind_keeps barNeed_keeps barNeed_state
          (fun _ => bind_keeps awaitPhase_keeps (fun _ _ => upd_keeps (fun _ => barReleased_keeps (.refl _)))))))

theorem execBaraw_keeps {st : Fin 8} {d a b : Fin 32} : KeepsNext s (execBaraw st d a b s) := by
  refine issue_keeps ?_
  refine unlessAhead_keeps ?_
  intro s1
  refine get_bind_keeps ?_
  refine check_bind_keeps barNeed_keeps barNeed_state ?_
  intro a1
  refine legal_bind_keeps ?_
  dsimp only
  split
  · exact bind_keeps arriveAt_keeps (fun a2 s2 => bind_keeps (upd_keeps (fun s3 => wx_keeps (.refl _)))
        (fun a3 s3 => bind_keeps awaitPhase_keeps (fun a4 s4 => upd_keeps (fun s5 => barReleased_keeps (.refl _)))))
  · exact bind_keeps awaitPhase_keeps (fun a2 s2 => upd_keeps (fun s3 => barReleased_keeps (.refl _)))

theorem goTo_keeps {a0 : Int} : KeepsAt (goTo a0) s :=
  get_bind_keeps (need_bind_keeps (upd_keeps (fun _ => setCtx_keeps (.refl _))))

theorem branch_keeps {st : Nat} {ill : Bool} {reads : List (RegFile × Nat)} {cond : State → Bool} {off : Int} : KeepsNext s
    (branch st ill reads cond off s) := by
  refine issue_keeps ?_
  refine get_bind_keeps ?_
  split
  · exact get_bind_keeps goTo_keeps
  · exact pure_keeps

theorem branchC_keeps {st : Nat} {a : Fin 32} {cond : Cap → Bool} {off : Int} : KeepsNext s (branchC st a cond off s) :=
  branch_keeps

theorem execBeq_keeps {st : Fin 8} {a : Fin 32} {off : BitVec 13} : KeepsNext s (execBeq st a off s) :=
  branchC_keeps

theorem execBne_keeps {st : Fin 8} {a : Fin 32} {off : BitVec 13} : KeepsNext s (execBne st a off s) :=
  branchC_keeps

theorem execBlt_keeps {st : Fin 8} {a : Fin 32} {off : BitVec 13} : KeepsNext s (execBlt st a off s) :=
  branchC_keeps

theorem execBge_keeps {st : Fin 8} {a : Fin 32} {off : BitVec 13} : KeepsNext s (execBge st a off s) :=
  branchC_keeps

theorem execBle_keeps {st : Fin 8} {a : Fin 32} {off : BitVec 13} : KeepsNext s (execBle st a off s) :=
  branchC_keeps

theorem execBgt_keeps {st : Fin 8} {a : Fin 32} {off : BitVec 13} : KeepsNext s (execBgt st a off s) :=
  branchC_keeps

theorem execBtag_keeps {st : Fin 8} {a : Fin 32} {off : BitVec 13} : KeepsNext s (execBtag st a off s) :=
  branchC_keeps

theorem execBntag_keeps {st : Fin 8} {a : Fin 32} {off : BitVec 13} : KeepsNext s (execBntag st a off s) :=
  branchC_keeps

theorem execBmany_keeps {st a : Fin 8} {off : BitVec 13} : KeepsNext s (execBmany st a off s) :=
  branch_keeps

theorem execBmnone_keeps {st a : Fin 8} {off : BitVec 13} : KeepsNext s (execBmnone st a off s) :=
  branch_keeps

theorem execBmall_keeps {st a : Fin 8} {off : BitVec 13} : KeepsNext s (execBmall st a off s) :=
  branch_keeps

theorem execBgds_keeps {st : Fin 8} {a : Fin 16} {off : BitVec 13} : KeepsNext s (execBgds st a off s) :=
  branch_keeps

theorem execBgdc_keeps {st : Fin 8} {a : Fin 16} {off : BitVec 13} : KeepsNext s (execBgdc st a off s) :=
  branch_keeps

theorem execJ_keeps {st : Fin 8} {off : BitVec 22} : KeepsNext s (execJ st off s) :=
  branch_keeps

theorem execCall_keeps {st : Fin 8} {off : BitVec 22} : KeepsNext s (execCall st off s) :=
  issue_keeps (get_bind_keeps (bind_keeps goTo_keeps (fun _ _ => upd_keeps (fun _ => wc_keeps (.refl _)))))

theorem jumpReg_keeps {st : Nat} {a : Fin 32} : KeepsNext s (jumpReg st a s) :=
  issue_keeps (get_bind_keeps (bind_keeps jumpNeed_keeps (fun _ _ => upd_keeps (fun _ => setCtx_keeps (.refl _)))))

theorem execJr_keeps {st : Fin 8} {a : Fin 32} : KeepsNext s (execJr st a s) :=
  jumpReg_keeps

theorem execRet_keeps {st : Fin 8} {a : Fin 32} : KeepsNext s (execRet st a s) :=
  jumpReg_keeps

theorem callReg_keeps {st : Nat} {d a : Fin 32} : KeepsNext s (callReg st d a s) :=
  issue_keeps (get_bind_keeps (bind_keeps jumpNeed_keeps
      (fun _ _ => bind_keeps (upd_keeps (fun _ => wc_keeps (.refl _)))
          (fun _ _ => upd_keeps (fun _ => setCtx_keeps (.refl _))))))

theorem execCallr_keeps {st : Fin 8} {d a : Fin 32} : KeepsNext s (execCallr st d a s) :=
  callReg_keeps

theorem execLexit_keeps {st : Fin 8} {a : Fin 32} : KeepsNext s (execLexit st a s) := by
  refine issue_keeps ?_
  refine upd_keeps ?_
  intro s1
  split
  · exact setCtx_keeps (.refl _)
  · exact .refl _

theorem bodySize_keeps {a0 a1 : Nat} : KeepsAt (bodySize a0 a1) s := by
  induction a0 generalizing a1 s with
  | zero => exact pure_keeps
  | succ n ih => exact get_bind_keeps (bind_keeps fetchBounds_keeps
      (fun a s1 => bind_keeps fetchSeg_keeps (fun a2 s2 => bind_keeps goodNeed_keeps
          (fun a3 s3 => bind_keeps fetchAt_keeps (fun a4 s4 => bind_keeps ih (fun a5 s5 => pure_keeps))))))

theorem loopStart_keeps {st : Nat} {c : Fin 32} {n : Nat} : KeepsNext s (loopStart st c n s) := by
  refine issue_keeps ?_
  refine get_bind_keeps ?_
  refine bind_keeps bodySize_keeps ?_
  intro a s1
  refine upd_keeps ?_
  intro s2
  split
  · exact setCtx_keeps (.refl _)
  · exact setCtx_keeps (.refl _)

theorem execLoop_keeps {st : Fin 8} {a : Fin 32} {n : Fin 8} : KeepsNext s (execLoop st a n s) :=
  loopStart_keeps

theorem execBeqShort_keeps {st : Fin 4} {x y : Fin 16} : KeepsNext s (execBeqShort st x y s) :=
  branchC_keeps

theorem execBneShort_keeps {st : Fin 4} {x y : Fin 16} : KeepsNext s (execBneShort st x y s) :=
  branchC_keeps

theorem execJShort_keeps {st : Fin 4} {o : BitVec 8} : KeepsNext s (execJShort st o s) :=
  branch_keeps

theorem execRetShort_keeps {st : Fin 4} {x : Fin 16} : KeepsNext s (execRetShort st x s) :=
  jumpReg_keeps

theorem execCallrShort_keeps {st : Fin 4} {x : Fin 16} : KeepsNext s (execCallrShort st x s) :=
  callReg_keeps

theorem execLoopShort_keeps {st : Fin 4} {x : Fin 16} {y : Fin 8} : KeepsNext s (execLoopShort st x y s) :=
  loopStart_keeps

theorem derive1_keeps {st : Nat} {d a : Fin 32} {ill : Bool} {f : Cap → Cap} : KeepsNext s (derive1 st d a ill f s) :=
  issue_keeps (upd_keeps (fun _ => wc_keeps (.refl _)))

theorem derive2_keeps {st : Nat} {d a b : Fin 32} {f : Cap → Cap → Cap} : KeepsNext s (derive2 st d a b f s) :=
  issue_keeps (upd_keeps (fun _ => wc_keeps (.refl _)))

theorem execCmov_keeps {st : Fin 8} {d a : Fin 32} : KeepsNext s (execCmov st d a s) :=
  derive1_keeps

theorem execCinc_keeps {st : Fin 8} {d a b : Fin 32} : KeepsNext s (execCinc st d a b s) :=
  derive2_keeps

theorem execCseta_keeps {st : Fin 8} {d a b : Fin 32} : KeepsNext s (execCseta st d a b s) :=
  derive2_keeps

theorem execCsetb_keeps {st : Fin 8} {d a b : Fin 32} : KeepsNext s (execCsetb st d a b s) :=
  derive2_keeps

theorem execCsetbx_keeps {st : Fin 8} {d a b : Fin 32} : KeepsNext s (execCsetbx st d a b s) :=
  derive2_keeps

theorem execCandp_keeps {st : Fin 8} {d a b : Fin 32} : KeepsNext s (execCandp st d a b s) :=
  derive2_keeps

theorem execCgeta_keeps {st : Fin 8} {d a : Fin 32} {h' : Fin 2} : KeepsNext s (execCgeta st d a h' s) :=
  derive1_keeps

theorem execCgetb_keeps {st : Fin 8} {d a : Fin 32} {h' : Fin 2} : KeepsNext s (execCgetb st d a h' s) :=
  derive1_keeps

theorem execCgett_keeps {st : Fin 8} {d a : Fin 32} {h' : Fin 2} : KeepsNext s (execCgett st d a h' s) :=
  derive1_keeps

theorem execCgetp_keeps {st : Fin 8} {d a : Fin 32} : KeepsNext s (execCgetp st d a s) :=
  derive1_keeps

theorem execCgettag_keeps {st : Fin 8} {d a : Fin 32} : KeepsNext s (execCgettag st d a s) :=
  derive1_keeps

theorem execCclrtag_keeps {st : Fin 8} {d a : Fin 32} : KeepsNext s (execCclrtag st d a s) :=
  derive1_keeps

theorem execCsub_keeps {st : Fin 8} {d a b : Fin 32} : KeepsNext s (execCsub st d a b s) :=
  derive2_keeps

theorem execCtest_keeps {st : Fin 8} {d a b : Fin 32} : KeepsNext s (execCtest st d a b s) :=
  derive2_keeps

theorem execCinci_keeps {st : Fin 8} {d a : Fin 32} {i : BitVec 7} : KeepsNext s (execCinci st d a i s) :=
  derive1_keeps

theorem execCsetbi_keeps {st : Fin 8} {d a : Fin 32} {i : BitVec 7} : KeepsNext s (execCsetbi st d a i s) :=
  derive1_keeps

theorem execCmovShort_keeps {st : Fin 4} {x y : Fin 16} : KeepsNext s (execCmovShort st x y s) :=
  derive1_keeps

theorem execCinciShort_keeps {st : Fin 4} {x y : Fin 16} : KeepsNext s (execCinciShort st x y s) :=
  derive1_keeps

theorem srDone_keeps {rounds : Bool} (h : Keeps s₀ s) : Keeps s₀ (s.srDone rounds) := by
  unfold State.srDone
  split
  · exact .same h rfl rfl rfl rfl
  · exact h

theorem groupSegs_keeps {n : Fin 64} {p : Port} {k : Machine.Acc} : KeepsAt (groupSegs n p k) s :=
  need_bind_keeps (get_bind_keeps (bind_keeps segsOf_keeps
      (fun _ _ => bind_keeps goodNeed_keeps (fun _ _ => bind_keeps watchNeed_keeps (fun _ _ => pure_keeps)))))

theorem advance_keeps {n : Fin 64} {v : VReg} (h : Keeps s₀ s) : Keeps s₀ (s.advance n v) := by
  unfold State.advance
  split
  · exact wv_keeps (.same h rfl rfl rfl rfl)
  · exact h

theorem popSegs_keeps {a0 : List (Fin 64)} : KeepsAt (popSegs a0) s := by
  induction a0 generalizing s with
  | nil => exact pure_keeps
  | cons x xs ih =>
    refine get_bind_keeps ?_
    split
    · exact bind_keeps groupSegs_keeps (fun a s1 => bind_keeps ih (fun a1 s2 => pure_keeps))
    · exact ih

theorem popLoad_keeps {a0 : List (Fin 64 × List Seg)} : KeepsAt (popLoad a0) s := by
  induction a0 generalizing s with
  | nil => exact pure_keeps
  | cons x xs ih => exact bind_keeps loadSegs_keeps (fun a s1 => bind_keeps ih (fun a1 s2 => pure_keeps))

theorem vecRun_keeps {u : VUse} {lat : Option Nat} {body : (Fin 64 → VReg) → Op (Option VReg)}
    (hbody : ∀ a0 s, KeepsAt (body a0) s) : KeepsAt (vecRun u lat body) s := by
  refine get_bind_keeps ?_
  refine await_bind_keeps ?_
  refine bind_keeps popSegs_keeps ?_
  intro a s1
  split
  · split
    · refine bind_keeps ?_ ?_
      · split
        · exact bind_keeps groupSegs_keeps (fun a1 s2 => pure_keeps)
        · exact pure_keeps
      · intro a1 s2
        refine bind_keeps popLoad_keeps ?_
        intro a2 s3
        refine get_bind_keeps ?_
        refine bind_keeps (hbody _ _) ?_
        intro a3 s4
        refine bind_keeps (upd_keeps (fun s5 => foldl_keeps (fun s6 b h => advance_keeps h) _ (.refl _))) ?_
        intro a4 s5
        split
        · split
          · exact upd_keeps (fun s6 => advance_keeps (storeSegs_keeps (.refl _)))
          · exact upd_keeps (fun s6 => laterV_keeps (.refl _))
        · exact pure_keeps
    · refine bind_keeps pure_keeps ?_
      intro a1 s2
      refine bind_keeps popLoad_keeps ?_
      intro a2 s3
      refine get_bind_keeps ?_
      refine bind_keeps (hbody _ _) ?_
      intro a3 s4
      refine bind_keeps (upd_keeps (fun s5 => foldl_keeps (fun s6 b h => advance_keeps h) _ (.refl _))) ?_
      intro a4 s5
      split
      · split
        · exact upd_keeps (fun s6 => advance_keeps (storeSegs_keeps (.refl _)))
        · exact upd_keeps (fun s6 => laterV_keeps (.refl _))
      · exact pure_keeps
  · split
    · refine bind_keeps ?_ ?_
      · split
        · exact bind_keeps groupSegs_keeps (fun a1 s2 => pure_keeps)
        · exact pure_keeps
      · intro a1 s2
        refine bind_keeps popLoad_keeps ?_
        intro a2 s3
        refine get_bind_keeps ?_
        refine bind_keeps (hbody _ _) ?_
        intro a3 s4
        refine bind_keeps (upd_keeps (fun s5 => foldl_keeps (fun s6 b h => advance_keeps h) _ (.refl _))) ?_
        intro a4 s5
        split
        · split
          · exact upd_keeps (fun s6 => advance_keeps (storeSegs_keeps (.refl _)))
          · exact upd_keeps (fun s6 => wv_keeps (.refl _))
        · exact pure_keeps
    · refine bind_keeps pure_keeps ?_
      intro a1 s2
      refine bind_keeps popLoad_keeps ?_
      intro a2 s3
      refine get_bind_keeps ?_
      refine bind_keeps (hbody _ _) ?_
      intro a3 s4
      refine bind_keeps (upd_keeps (fun s5 => foldl_keeps (fun s6 b h => advance_keeps h) _ (.refl _))) ?_
      intro a4 s5
      split
      · split
        · exact upd_keeps (fun s6 => advance_keeps (storeSegs_keeps (.refl _)))
        · exact upd_keeps (fun s6 => wv_keeps (.refl _))
      · exact pure_keeps

theorem vecOp_keeps {st : Nat} {u : VUse} {ill : Bool} {lat : Option Nat} {rounds : Bool}
    {f : State → (Fin 64 → VReg) → VReg → VReg} : KeepsNext s (vecOp st u ill lat rounds f s) :=
  issue_keeps (get_bind_keeps (await_bind_keeps
      (bind_keeps (vecRun_keeps (fun _ _ => pure_keeps)) (fun _ _ => upd_keeps (fun _ => srDone_keeps (.refl _))))))

theorem scalar2_keeps {st : Nat} {d a b : Fin 32} {ill : Bool} {f : Word → Word → Word} : KeepsNext s
    (scalar2 st d a b ill f s) :=
  issue_keeps (upd_keeps (fun _ => wx_keeps (.refl _)))

theorem scalarI_keeps {st : Nat} {d a : Fin 32} {ill : Bool} {f : Word → Word} : KeepsNext s (scalarI st d a ill f s) :=
  issue_keeps (upd_keeps (fun _ => wx_keeps (.refl _)))

theorem scalarMul_keeps {st : Nat} {d a b : Fin 32} {f : Word → Word → Word} : KeepsNext s (scalarMul st d a b f s) :=
  issue_keeps (upd_keeps (fun _ => laterX_keeps (.refl _)))

theorem execAdd_keeps {st : Fin 8} {d a b : Fin 32} : KeepsNext s (execAdd st d a b s) :=
  scalar2_keeps

theorem execSub_keeps {st : Fin 8} {d a b : Fin 32} : KeepsNext s (execSub st d a b s) :=
  scalar2_keeps

theorem execAndr_keeps {st : Fin 8} {d a b : Fin 32} : KeepsNext s (execAndr st d a b s) :=
  scalar2_keeps

theorem execOrr_keeps {st : Fin 8} {d a b : Fin 32} : KeepsNext s (execOrr st d a b s) :=
  scalar2_keeps

theorem execXorr_keeps {st : Fin 8} {d a b : Fin 32} : KeepsNext s (execXorr st d a b s) :=
  scalar2_keeps

theorem execAndn_keeps {st : Fin 8} {d a b : Fin 32} : KeepsNext s (execAndn st d a b s) :=
  scalar2_keeps

theorem execSll_keeps {st : Fin 8} {d a b : Fin 32} : KeepsNext s (execSll st d a b s) :=
  scalar2_keeps

theorem execSrl_keeps {st : Fin 8} {d a b : Fin 32} : KeepsNext s (execSrl st d a b s) :=
  scalar2_keeps

theorem execSra_keeps {st : Fin 8} {d a b : Fin 32} : KeepsNext s (execSra st d a b s) :=
  scalar2_keeps

theorem execSlt_keeps {st : Fin 8} {d a b : Fin 32} : KeepsNext s (execSlt st d a b s) :=
  scalar2_keeps

theorem execSltu_keeps {st : Fin 8} {d a b : Fin 32} : KeepsNext s (execSltu st d a b s) :=
  scalar2_keeps

theorem execMin_keeps {st : Fin 8} {d a b : Fin 32} : KeepsNext s (execMin st d a b s) :=
  scalar2_keeps

theorem execMax_keeps {st : Fin 8} {d a b : Fin 32} : KeepsNext s (execMax st d a b s) :=
  scalar2_keeps

theorem execMinu_keeps {st : Fin 8} {d a b : Fin 32} : KeepsNext s (execMinu st d a b s) :=
  scalar2_keeps

theorem execMaxu_keeps {st : Fin 8} {d a b : Fin 32} : KeepsNext s (execMaxu st d a b s) :=
  scalar2_keeps

theorem execSel_keeps {st : Fin 8} {d a b : Fin 32} : KeepsNext s (execSel st d a b s) :=
  issue_keeps (upd_keeps (fun _ => wc_keeps (.refl _)))

theorem execAddi_keeps {st : Fin 8} {d a : Fin 32} {i : BitVec 7} : KeepsNext s (execAddi st d a i s) :=
  scalarI_keeps

theorem execAndi_keeps {st : Fin 8} {d a : Fin 32} {i : BitVec 7} : KeepsNext s (execAndi st d a i s) :=
  scalarI_keeps

theorem execOri_keeps {st : Fin 8} {d a : Fin 32} {i : BitVec 7} : KeepsNext s (execOri st d a i s) :=
  scalarI_keeps

theorem execXori_keeps {st : Fin 8} {d a : Fin 32} {i : BitVec 7} : KeepsNext s (execXori st d a i s) :=
  scalarI_keeps

theorem execSlti_keeps {st : Fin 8} {d a : Fin 32} {i : BitVec 7} : KeepsNext s (execSlti st d a i s) :=
  scalarI_keeps

theorem execSlli_keeps {st : Fin 8} {d a : Fin 32} {i : BitVec 7} : KeepsNext s (execSlli st d a i s) :=
  scalarI_keeps

theorem execSrli_keeps {st : Fin 8} {d a : Fin 32} {i : BitVec 7} : KeepsNext s (execSrli st d a i s) :=
  scalarI_keeps

theorem execSrai_keeps {st : Fin 8} {d a : Fin 32} {i : BitVec 7} : KeepsNext s (execSrai st d a i s) :=
  scalarI_keeps

theorem execMul_keeps {st : Fin 8} {d a b : Fin 32} : KeepsNext s (execMul st d a b s) :=
  scalarMul_keeps

theorem execMulh_keeps {st : Fin 8} {d a b : Fin 32} : KeepsNext s (execMulh st d a b s) :=
  scalarMul_keeps

theorem execMulhu_keeps {st : Fin 8} {d a b : Fin 32} : KeepsNext s (execMulhu st d a b s) :=
  scalarMul_keeps

theorem execDiv_keeps {st : Fin 8} {d a b : Fin 32} : KeepsNext s (execDiv st d a b s) :=
  scalar2_keeps

theorem execDivu_keeps {st : Fin 8} {d a b : Fin 32} : KeepsNext s (execDivu st d a b s) :=
  scalar2_keeps

theorem execRem_keeps {st : Fin 8} {d a b : Fin 32} : KeepsNext s (execRem st d a b s) :=
  scalar2_keeps

theorem execRemu_keeps {st : Fin 8} {d a b : Fin 32} : KeepsNext s (execRemu st d a b s) :=
  scalar2_keeps

theorem execClz_keeps {st : Fin 8} {d a : Fin 32} : KeepsNext s (execClz st d a s) :=
  scalarI_keeps

theorem execCtz_keeps {st : Fin 8} {d a : Fin 32} : KeepsNext s (execCtz st d a s) :=
  scalarI_keeps

theorem execPopc_keeps {st : Fin 8} {d a : Fin 32} : KeepsNext s (execPopc st d a s) :=
  scalarI_keeps

theorem execBswap_keeps {st : Fin 8} {d a : Fin 32} : KeepsNext s (execBswap st d a s) :=
  scalarI_keeps

theorem loadConst_keeps {st : Nat} {d : Fin 32} {v : Word} : KeepsNext s (loadConst st d v s) :=
  issue_keeps (upd_keeps (fun _ => wx_keeps (.refl _)))

theorem execLis_keeps {st : Fin 8} {d : Fin 32} {i : BitVec 16} : KeepsNext s (execLis st d i s) :=
  loadConst_keeps

theorem execLik_keeps {st : Fin 8} {d : Fin 32} {i : BitVec 16} : KeepsNext s (execLik st d i s) :=
  scalarI_keeps

theorem execAddShort_keeps {st : Fin 4} {x y : Fin 16} : KeepsNext s (execAddShort st x y s) :=
  scalar2_keeps

theorem execSubShort_keeps {st : Fin 4} {x y : Fin 16} : KeepsNext s (execSubShort st x y s) :=
  scalar2_keeps

theorem execAndShort_keeps {st : Fin 4} {x y : Fin 16} : KeepsNext s (execAndShort st x y s) :=
  scalar2_keeps

theorem execOrShort_keeps {st : Fin 4} {x y : Fin 16} : KeepsNext s (execOrShort st x y s) :=
  scalar2_keeps

theorem execXorShort_keeps {st : Fin 4} {x y : Fin 16} : KeepsNext s (execXorShort st x y s) :=
  scalar2_keeps

theorem execAddiShort_keeps {st : Fin 4} {x y : Fin 16} : KeepsNext s (execAddiShort st x y s) :=
  scalarI_keeps

theorem execSlliShort_keeps {st : Fin 4} {x y : Fin 16} : KeepsNext s (execSlliShort st x y s) :=
  scalarI_keeps

theorem execSrliShort_keeps {st : Fin 4} {x y : Fin 16} : KeepsNext s (execSrliShort st x y s) :=
  scalarI_keeps

theorem execSraiShort_keeps {st : Fin 4} {x y : Fin 16} : KeepsNext s (execSraiShort st x y s) :=
  scalarI_keeps

theorem execLisShort_keeps {st : Fin 4} {x y : Fin 16} : KeepsNext s (execLisShort st x y s) :=
  loadConst_keeps

theorem vecArith_keeps {st : Nat} {d a b : Fin 64} {m : Fin 8} {f : Arith} {rdD : Bool} {lat : Nat → Option Nat} : KeepsNext
    s (vecArith st d a b m f rdD lat s) :=
  vecOp_keeps

theorem vecArith1_keeps {st : Nat} {d a : Fin 64} {m : Fin 8} {f : Arith} {lat : Nat → Option Nat} : KeepsNext s
    (vecArith1 st d a m f lat s) :=
  vecOp_keeps

theorem execVadd_keeps {st : Fin 8} {d a b : Fin 64} {m : Fin 8} : KeepsNext s (execVadd st d a b m s) :=
  vecArith_keeps

theorem execVsub_keeps {st : Fin 8} {d a b : Fin 64} {m : Fin 8} : KeepsNext s (execVsub st d a b m s) :=
  vecArith_keeps

theorem execVmul_keeps {st : Fin 8} {d a b : Fin 64} {m : Fin 8} : KeepsNext s (execVmul st d a b m s) :=
  vecArith_keeps

theorem execVmulh_keeps {st : Fin 8} {d a b : Fin 64} {m : Fin 8} : KeepsNext s (execVmulh st d a b m s) :=
  vecArith_keeps

theorem execVfma_keeps {st : Fin 8} {d a b : Fin 64} {m : Fin 8} : KeepsNext s (execVfma st d a b m s) :=
  vecArith_keeps

theorem execVfms_keeps {st : Fin 8} {d a b : Fin 64} {m : Fin 8} : KeepsNext s (execVfms st d a b m s) :=
  vecArith_keeps

theorem execVmin_keeps {st : Fin 8} {d a b : Fin 64} {m : Fin 8} : KeepsNext s (execVmin st d a b m s) :=
  vecArith_keeps

theorem execVmax_keeps {st : Fin 8} {d a b : Fin 64} {m : Fin 8} : KeepsNext s (execVmax st d a b m s) :=
  vecArith_keeps

theorem execVdiv_keeps {st : Fin 8} {d a b : Fin 64} {m : Fin 8} : KeepsNext s (execVdiv st d a b m s) :=
  vecArith_keeps

theorem execVabs_keeps {st : Fin 8} {d a : Fin 64} {m : Fin 8} : KeepsNext s (execVabs st d a m s) :=
  vecArith1_keeps

theorem execVneg_keeps {st : Fin 8} {d a : Fin 64} {m : Fin 8} : KeepsNext s (execVneg st d a m s) :=
  vecArith1_keeps

theorem execVsqrt_keeps {st : Fin 8} {d a : Fin 64} {m : Fin 8} : KeepsNext s (execVsqrt st d a m s) :=
  vecArith1_keeps

theorem execVexp2_keeps {st : Fin 8} {d a : Fin 64} {m : Fin 8} : KeepsNext s (execVexp2 st d a m s) :=
  vecArith1_keeps

theorem execVlog2_keeps {st : Fin 8} {d a : Fin 64} {m : Fin 8} : KeepsNext s (execVlog2 st d a m s) :=
  vecArith1_keeps

theorem execVclz_keeps {st : Fin 8} {d a : Fin 64} {m : Fin 8} : KeepsNext s (execVclz st d a m s) :=
  vecArith1_keeps

theorem execVpopc_keeps {st : Fin 8} {d a : Fin 64} {m : Fin 8} : KeepsNext s (execVpopc st d a m s) :=
  vecArith1_keeps

theorem execVsll_keeps {st : Fin 8} {d a b : Fin 64} {m : Fin 8} : KeepsNext s (execVsll st d a b m s) :=
  vecArith_keeps

theorem execVsrl_keeps {st : Fin 8} {d a b : Fin 64} {m : Fin 8} : KeepsNext s (execVsrl st d a b m s) :=
  vecArith_keeps

theorem execVsra_keeps {st : Fin 8} {d a b : Fin 64} {m : Fin 8} : KeepsNext s (execVsra st d a b m s) :=
  vecArith_keeps

theorem execVrol_keeps {st : Fin 8} {d a b : Fin 64} {m : Fin 8} : KeepsNext s (execVrol st d a b m s) :=
  vecArith_keeps

theorem execVscl_keeps {st : Fin 8} {d a b : Fin 64} {m : Fin 8} : KeepsNext s (execVscl st d a b m s) :=
  vecOp_keeps

theorem vecLogic_keeps {st : Nat} {d a b : Fin 64} {m : Fin 8} {f : Lane → Lane → Lane} : KeepsNext s
    (vecLogic st d a b m f s) :=
  vecOp_keeps

theorem execVand_keeps {st : Fin 8} {d a b : Fin 64} {m : Fin 8} : KeepsNext s (execVand st d a b m s) :=
  vecLogic_keeps

theorem execVor_keeps {st : Fin 8} {d a b : Fin 64} {m : Fin 8} : KeepsNext s (execVor st d a b m s) :=
  vecLogic_keeps

theorem execVxor_keeps {st : Fin 8} {d a b : Fin 64} {m : Fin 8} : KeepsNext s (execVxor st d a b m s) :=
  vecLogic_keeps

theorem execVandn_keeps {st : Fin 8} {d a b : Fin 64} {m : Fin 8} : KeepsNext s (execVandn st d a b m s) :=
  vecLogic_keeps

theorem vecMove_keeps {st : Nat} {d a : Fin 64} {m : Fin 8} : KeepsNext s (vecMove st d a m s) :=
  vecOp_keeps

theorem execVmov_keeps {st : Fin 8} {d a : Fin 64} {m : Fin 8} : KeepsNext s (execVmov st d a m s) :=
  vecMove_keeps

theorem execVaddShort_keeps {st : Fin 4} {x y : Fin 16} : KeepsNext s (execVaddShort st x y s) :=
  vecArith_keeps

theorem execVmulShort_keeps {st : Fin 4} {x y : Fin 16} : KeepsNext s (execVmulShort st x y s) :=
  vecArith_keeps

theorem execVmovShort_keeps {st : Fin 4} {x y : Fin 16} : KeepsNext s (execVmovShort st x y s) :=
  vecMove_keeps

theorem vecDot_keeps {st : Nat} {d a b : Fin 64} {m : Fin 8} {ill : Bool} {a6 : Nat} {f : State → Nat → Nat → Int} : KeepsNext
    s (vecDot st d a b m ill a6 f s) :=
  vecOp_keeps

theorem execVdot4_keeps {st : Fin 8} {d a b : Fin 64} {m : Fin 8} : KeepsNext s (execVdot4 st d a b m s) :=
  vecDot_keeps

theorem execVsad_keeps {st : Fin 8} {d a b : Fin 64} {m : Fin 8} : KeepsNext s (execVsad st d a b m s) :=
  vecDot_keeps

theorem vecCmp_keeps {st : Nat} {d : Fin 8} {a b : Fin 64} {m : Fin 8} {f : Val → Val → Bool} : KeepsNext s
    (vecCmp st d a b m f s) :=
  issue_keeps (vecRun_keeps (fun _ _ => get_bind_keeps
      (bind_keeps (upd_keeps (fun _ => laterM_keeps (.refl _))) (fun _ _ => pure_keeps))))

theorem execVceq_keeps {st d : Fin 8} {a b : Fin 64} {m : Fin 8} : KeepsNext s (execVceq st d a b m s) :=
  vecCmp_keeps

theorem execVcne_keeps {st d : Fin 8} {a b : Fin 64} {m : Fin 8} : KeepsNext s (execVcne st d a b m s) :=
  vecCmp_keeps

theorem execVclt_keeps {st d : Fin 8} {a b : Fin 64} {m : Fin 8} : KeepsNext s (execVclt st d a b m s) :=
  vecCmp_keeps

theorem execVcle_keeps {st d : Fin 8} {a b : Fin 64} {m : Fin 8} : KeepsNext s (execVcle st d a b m s) :=
  vecCmp_keeps

theorem execVcvt_keeps {st : Fin 8} {d a : Fin 64} {m : Fin 8} : KeepsNext s (execVcvt st d a m s) :=
  vecOp_keeps

theorem execVcvts_keeps {st : Fin 8} {d a b : Fin 64} {m : Fin 8} : KeepsNext s (execVcvts st d a b m s) :=
  vecOp_keeps

theorem execVpack_keeps {st : Fin 8} {d a b : Fin 64} : KeepsNext s (execVpack st d a b s) :=
  vecOp_keeps

theorem execVunpk_keeps {st : Fin 8} {d a b : Fin 64} : KeepsNext s (execVunpk st d a b s) :=
  vecOp_keeps

theorem vecPerm_keeps {st : Nat} {d a b : Fin 64} {m : Fin 8} {rdD : Bool}
    {f : Nat → Nat → (Nat → Nat) → (Nat → Nat) → (Nat → Nat) → Nat → Nat} : KeepsNext s (vecPerm st d a b m rdD f s) :=
  vecOp_keeps

theorem execVperm_keeps {st : Fin 8} {d a b : Fin 64} {m : Fin 8} : KeepsNext s (execVperm st d a b m s) :=
  vecPerm_keeps

theorem execVshuf_keeps {st : Fin 8} {d a b : Fin 64} {m : Fin 8} : KeepsNext s (execVshuf st d a b m s) :=
  vecPerm_keeps

theorem execVsldu_keeps {st : Fin 8} {d a b : Fin 64} {m : Fin 8} : KeepsNext s (execVsldu st d a b m s) :=
  vecPerm_keeps

theorem execVsldd_keeps {st : Fin 8} {d a b : Fin 64} {m : Fin 8} : KeepsNext s (execVsldd st d a b m s) :=
  vecPerm_keeps

theorem execVmrg_keeps {st : Fin 8} {d a b : Fin 64} {m : Fin 8} : KeepsNext s (execVmrg st d a b m s) :=
  vecOp_keeps

theorem execVcmpr_keeps {st : Fin 8} {d a : Fin 64} {m : Fin 8} : KeepsNext s (execVcmpr st d a m s) :=
  vecOp_keeps

theorem execViota_keeps {st : Fin 8} {d : Fin 64} {m : Fin 8} : KeepsNext s (execViota st d m s) :=
  vecOp_keeps

theorem execVmcnt_keeps {st : Fin 8} {d : Fin 64} {m : Fin 8} : KeepsNext s (execVmcnt st d m s) :=
  vecOp_keeps

theorem vecRed_keeps {st : Nat} {d a b : Fin 64} {m : Fin 8} {f : Redn} : KeepsNext s (vecRed st d a b m f s) := by
  unfold vecRed
  exact vecOp_keeps

theorem execVrsum_keeps {st : Fin 8} {d a b : Fin 64} {m : Fin 8} : KeepsNext s (execVrsum st d a b m s) :=
  vecRed_keeps

theorem execVrmax_keeps {st : Fin 8} {d a b : Fin 64} {m : Fin 8} : KeepsNext s (execVrmax st d a b m s) :=
  vecRed_keeps

theorem execVrmin_keeps {st : Fin 8} {d a b : Fin 64} {m : Fin 8} : KeepsNext s (execVrmin st d a b m s) :=
  vecRed_keeps

theorem execVramax_keeps {st : Fin 8} {d a b : Fin 64} {m : Fin 8} : KeepsNext s (execVramax st d a b m s) :=
  vecRed_keeps

theorem execVmovs_keeps {st : Fin 8} {d : Fin 32} {a : Fin 64} {b : Fin 32} : KeepsNext s (execVmovs st d a b s) :=
  issue_keeps (vecRun_keeps (fun _ _ => get_bind_keeps
      (bind_keeps (upd_keeps (fun _ => laterX_keeps (.refl _))) (fun _ _ => pure_keeps))))

theorem execVmovx_keeps {st : Fin 8} {d : Fin 64} {a : Fin 32} : KeepsNext s (execVmovx st d a s) :=
  issue_keeps (vecRun_keeps (fun _ _ => get_bind_keeps pure_keeps))

theorem execVins_keeps {st : Fin 8} {d : Fin 64} {a b : Fin 32} : KeepsNext s (execVins st d a b s) :=
  issue_keeps (vecRun_keeps (fun _ _ => get_bind_keeps pure_keeps))

theorem execMset_keeps {st d : Fin 8} {a : Fin 32} : KeepsNext s (execMset st d a s) :=
  issue_keeps (upd_keeps (fun _ => wm_keeps (.refl _)))

theorem execMget_keeps {st : Fin 8} {d : Fin 32} {a : Fin 8} : KeepsNext s (execMget st d a s) :=
  issue_keeps (upd_keeps (fun _ => wx_keeps (.refl _)))

theorem execGset_keeps {st : Fin 8} {d : Fin 16} {a : Fin 32} : KeepsNext s (execGset st d a s) :=
  issue_keeps (upd_keeps (fun _ => wg_keeps (.refl _)))

theorem execGget_keeps {st : Fin 8} {d : Fin 32} {a : Fin 16} : KeepsNext s (execGget st d a s) :=
  issue_keeps (upd_keeps (fun _ => wx_keeps (.refl _)))

theorem execOset_keeps {st d : Fin 8} {a : Fin 32} : KeepsNext s (execOset st d a s) :=
  issue_keeps (upd_keeps (fun _ => wo_keeps (.refl _)))

theorem execOget_keeps {st : Fin 8} {d : Fin 32} {a : Fin 8} : KeepsNext s (execOget st d a s) :=
  issue_keeps (upd_keeps (fun _ => wx_keeps (.refl _)))

theorem needAll_keeps {as : List Int} {ok : Int → Bool} {c : Cause} : KeepsAt (needAll as ok c) s := by
  unfold needAll
  split
  · exact raise_keeps
  · exact pure_keeps

theorem boundsAll_keeps {c : Cap} {n : Nat} {as : List Int} : KeepsAt (boundsAll c n as) s := by
  unfold boundsAll
  split
  · exact raise_keeps
  · exact pure_keeps

theorem elemSegs_keeps {w : Who} {k : Machine.Acc} {n : Nat} {a3 : List VElem} : KeepsAt (elemSegs w k n a3) s := by
  induction a3 generalizing w k n s with
  | nil => exact pure_keeps
  | cons x xs ih => exact bind_keeps segsOf_keeps (fun a s1 => bind_keeps ih (fun a1 s2 => pure_keeps))

theorem elemLast_keeps {k : Machine.Acc} {n : Nat} {xs : List VElem} {gs : List (Nat × List Seg)} :
    KeepsAt (elemLast k n xs gs) s := by
  induction xs generalizing gs s with
  | nil => exact pure_keeps
  | cons x xs ih =>
    cases gs with
    | nil => exact pure_keeps
    | cons g gs => exact bind_keeps goodNeed_keeps fun _ _ => bind_keeps watchNeed_keeps fun _ _ => ih

theorem accessMany_keeps {c : Cap} {ps : List Nat} {xs : List VElem} {n align : Nat} {k : Machine.Acc} : KeepsAt
    (accessMany c ps xs n align k) s :=
  bind_keeps needAll_keeps (fun _ _ => bind_keeps needAll_keeps
      (fun _ _ => bind_keeps boundsAll_keeps
          (fun _ _ => bind_keeps needAll_keeps
              (fun _ _ => get_bind_keeps (bind_keeps elemSegs_keeps
                  (fun _ _ => bind_keeps elemLast_keeps (fun _ _ => pure_keeps)))))))

theorem vecLoad_keeps {st : Nat} {d : Fin 64} {a : Fin 32} {srcs : List (Fin 64)} {reads : List (RegFile × Nat)}
    {ill : Bool} {plan : State → (Fin 64 → VReg) → VPlan} : KeepsNext s (vecLoad st d a srcs reads ill plan s) := by
  refine issue_keeps ?_
  refine vecRun_keeps ?_
  intro a1 s1
  refine get_bind_keeps ?_
  refine await_bind_keeps ?_
  refine bind_keeps accessMany_keeps ?_
  intro a2 s2
  split
  · exact bind_keeps loadSegs_keeps (fun a3 s3 => pure_keeps)
  · exact bind_keeps loadParts_keeps (fun a3 s3 => pure_keeps)

theorem vecStore_keeps {st : Nat} {d : Fin 64} {a : Fin 32} {srcs : List (Fin 64)} {reads : List (RegFile × Nat)}
    {ill : Bool} {plan : State → (Fin 64 → VReg) → VPlan} : KeepsNext s (vecStore st d a srcs reads ill plan s) := by
  refine issue_keeps ?_
  refine vecRun_keeps ?_
  intro a1 s1
  refine get_bind_keeps ?_
  refine bind_keeps accessMany_keeps ?_
  intro a2 s2
  split
  · exact bind_keeps (upd_keeps (fun s3 => storeSegs_keeps (.refl _))) (fun a3 s3 => pure_keeps)
  · exact bind_keeps storeParts_keeps (fun a3 s3 => pure_keeps)

theorem execVld_keeps {st : Fin 8} {d : Fin 64} {a : Fin 32} : KeepsNext s (execVld st d a s) :=
  vecLoad_keeps

theorem execVst_keeps {st : Fin 8} {d : Fin 64} {a : Fin 32} : KeepsNext s (execVst st d a s) :=
  vecStore_keeps

theorem execVlds_keeps {st : Fin 8} {d : Fin 64} {a b : Fin 32} : KeepsNext s (execVlds st d a b s) :=
  vecLoad_keeps

theorem execVsts_keeps {st : Fin 8} {d : Fin 64} {a b : Fin 32} : KeepsNext s (execVsts st d a b s) :=
  vecStore_keeps

theorem execVldx_keeps {st : Fin 8} {d : Fin 64} {a : Fin 32} {b : Fin 64} : KeepsNext s (execVldx st d a b s) :=
  vecLoad_keeps

theorem execVstx_keeps {st : Fin 8} {d : Fin 64} {a : Fin 32} {b : Fin 64} : KeepsNext s (execVstx st d a b s) :=
  vecStore_keeps

theorem blockAccess_keeps {c : Cap} {ps : List Nat} {a : Int} {n : Nat} {k : Machine.Acc} : KeepsAt (blockAccess c ps a n k) s :=
  bind_keeps blockNeed_keeps (fun _ _ => access_keeps)

theorem execVldb_keeps {st : Fin 8} {d : Fin 64} {a b : Fin 32} : KeepsNext s (execVldb st d a b s) := by
  refine issue_keeps ?_
  refine vecRun_keeps ?_
  intro a1 s1
  refine get_bind_keeps ?_
  split
  · exact bind_keeps blockAccess_keeps (fun a2 s2 => bind_keeps loadSegs_keeps (fun a3 s3 => pure_keeps))
  · exact bind_keeps blockAccess_keeps (fun a2 s2 => bind_keeps blockAccess_keeps
        (fun a3 s3 => bind_keeps loadSegs_keeps (fun a4 s4 => bind_keeps loadSegs_keeps (fun a5 s5 => pure_keeps))))

theorem readHdr_keeps {c : Cap} : KeepsAt (readHdr c) s :=
  bind_keeps access_keeps (fun _ _ => bind_keeps loadGranules_keeps
      (fun _ _ => bind_keeps loadSegs_keeps (fun _ _ => pure_keeps)))

theorem tileAccess_keeps {h' : Hdr} {r p : Nat} {k : Machine.Acc} : KeepsAt (tileAccess h' r p k) s := by
  unfold tileAccess
  split
  · exact bind_keeps access_keeps (fun a s1 => pure_keeps)
  · split
    · refine need_bind_keeps ?_
      refine need_bind_keeps ?_
      split
      · split
        · split
          · dsimp only
            split
            · exact bind_keeps raise_keeps (fun a s1 => bind_keeps access_keeps
                  (fun a1 s2 => bind_keeps access_keeps (fun a2 s3 => pure_keeps)))
            · exact bind_keeps access_keeps (fun a s1 => bind_keeps access_keeps (fun a1 s2 => pure_keeps))
          · dsimp only
            split
            · exact bind_keeps raise_keeps (fun a s1 => bind_keeps access_keeps
                  (fun a1 s2 => bind_keeps access_keeps (fun a2 s3 => pure_keeps)))
            · exact bind_keeps access_keeps (fun a s1 => bind_keeps access_keeps (fun a1 s2 => pure_keeps))
        · split
          · dsimp only
            split
            · exact bind_keeps raise_keeps (fun a s1 => bind_keeps access_keeps
                  (fun a1 s2 => bind_keeps access_keeps (fun a2 s3 => pure_keeps)))
            · exact bind_keeps access_keeps (fun a s1 => bind_keeps access_keeps (fun a1 s2 => pure_keeps))
          · dsimp only
            split
            · exact bind_keeps raise_keeps (fun a s1 => bind_keeps access_keeps
                  (fun a1 s2 => bind_keeps access_keeps (fun a2 s3 => pure_keeps)))
            · exact bind_keeps access_keeps (fun a s1 => bind_keeps access_keeps (fun a1 s2 => pure_keeps))
      · split
        · split
          · split
            · dsimp only
              split
              · exact bind_keeps raise_keeps (fun a s1 => bind_keeps access_keeps
                    (fun a1 s2 => bind_keeps access_keeps (fun a2 s3 => pure_keeps)))
              · exact bind_keeps access_keeps (fun a s1 => bind_keeps access_keeps (fun a1 s2 => pure_keeps))
            · dsimp only
              split
              · exact bind_keeps raise_keeps (fun a s1 => bind_keeps access_keeps
                    (fun a1 s2 => bind_keeps access_keeps (fun a2 s3 => pure_keeps)))
              · exact bind_keeps access_keeps (fun a s1 => bind_keeps access_keeps (fun a1 s2 => pure_keeps))
          · split
            · dsimp only
              split
              · exact bind_keeps raise_keeps (fun a s1 => bind_keeps access_keeps
                    (fun a1 s2 => bind_keeps access_keeps (fun a2 s3 => pure_keeps)))
              · exact bind_keeps access_keeps (fun a s1 => bind_keeps access_keeps (fun a1 s2 => pure_keeps))
            · dsimp only
              split
              · exact bind_keeps raise_keeps (fun a s1 => bind_keeps access_keeps
                    (fun a1 s2 => bind_keeps access_keeps (fun a2 s3 => pure_keeps)))
              · exact bind_keeps access_keeps (fun a s1 => bind_keeps access_keeps (fun a1 s2 => pure_keeps))
        · split
          · split
            · dsimp only
              split
              · exact bind_keeps raise_keeps (fun a s1 => bind_keeps access_keeps
                    (fun a1 s2 => bind_keeps access_keeps (fun a2 s3 => pure_keeps)))
              · exact bind_keeps access_keeps (fun a s1 => bind_keeps access_keeps (fun a1 s2 => pure_keeps))
            · dsimp only
              split
              · exact bind_keeps raise_keeps (fun a s1 => bind_keeps access_keeps
                    (fun a1 s2 => bind_keeps access_keeps (fun a2 s3 => pure_keeps)))
              · exact bind_keeps access_keeps (fun a s1 => bind_keeps access_keeps (fun a1 s2 => pure_keeps))
          · split
            · dsimp only
              split
              · exact bind_keeps raise_keeps (fun a s1 => bind_keeps access_keeps
                    (fun a1 s2 => bind_keeps access_keeps (fun a2 s3 => pure_keeps)))
              · exact bind_keeps access_keeps (fun a s1 => bind_keeps access_keeps (fun a1 s2 => pure_keeps))
            · dsimp only
              split
              · exact bind_keeps raise_keeps (fun a s1 => bind_keeps access_keeps
                    (fun a1 s2 => bind_keeps access_keeps (fun a2 s3 => pure_keeps)))
              · exact bind_keeps access_keeps (fun a s1 => bind_keeps access_keeps (fun a1 s2 => pure_keeps))
    · exact bind_keeps blockAccess_keeps (fun a s1 => pure_keeps)

theorem tileRow_keeps {a b : Fin 32} : KeepsAt (tileRow a b) s := by
  refine get_bind_keeps ?_
  dsimp only
  split
  · exact bind_keeps throw_keeps (fun a1 s1 => bind_keeps readHdr_keeps (fun a2 s2 => need_bind_keeps pure_keeps))
  · exact bind_keeps readHdr_keeps (fun a1 s1 => need_bind_keeps pure_keeps)

theorem execVldt_keeps {st : Fin 8} {d : Fin 64} {a b : Fin 32} : KeepsNext s (execVldt st d a b s) := by
  refine issue_keeps ?_
  refine get_bind_keeps ?_
  refine get_bind_keeps ?_
  split
  · refine vecRun_keeps ?_
    intro a1 s1
    refine bind_keeps tileRow_keeps ?_
    intro a2 s2
    split
    split
    · exact bind_keeps tileAccess_keeps (fun a2 s3 => bind_keeps loadSegs_keeps
          (fun a3 s4 => bind_keeps loadSegs_keeps (fun a4 s5 => pure_keeps)))
    · exact pure_keeps
  · exact pure_keeps

theorem execVstt_keeps {st : Fin 8} {d : Fin 64} {a b : Fin 32} : KeepsNext s (execVstt st d a b s) := by
  refine issue_keeps ?_
  refine get_bind_keeps ?_
  refine get_bind_keeps ?_
  split
  · refine vecRun_keeps ?_
    intro a1 s1
    refine bind_keeps tileRow_keeps ?_
    intro a2 s2
    split
    split
    · exact bind_keeps tileAccess_keeps (fun a2 s3 => get_bind_keeps
          (bind_keeps (upd_keeps (fun s4 => storeSegs_keeps (storeSegs_keeps (.refl _)))) (fun a3 s4 => pure_keeps)))
    · exact pure_keeps
  · exact pure_keeps

theorem execThdr_keeps {st : Fin 8} {a b : Fin 32} : KeepsNext s (execThdr st a b s) := by
  refine issue_keeps ?_
  refine get_bind_keeps ?_
  refine bind_keeps capNeed_keeps ?_
  intro a1 s1
  refine bind_keeps segsOf_keeps ?_
  intro a2 s2
  split
  · exact bind_keeps noTagToHost_keeps (fun a3 s3 => bind_keeps watchNeed_keeps
        (fun a4 s4 => upd_keeps (fun s5 => storeSegs_keeps (storeCapSegs_keeps (.refl _)))))
  · exact bind_keeps watchNeed_keeps (fun a3 s3 => upd_keeps (fun s4 => storeSegs_keeps (storeCapSegs_keeps (.refl _))))

theorem execTpred_keeps {st : Fin 8} {d : Fin 16} {a b : Fin 32} : KeepsNext s (execTpred st d a b s) := by
  refine issue_keeps ?_
  refine get_bind_keeps ?_
  dsimp only
  split
  · refine bind_keeps throw_keeps ?_
    intro a1 s1
    refine bind_keeps accessMany_keeps ?_
    intro a2 s2
    refine bind_keeps loadSegs_keeps ?_
    intro a3 s3
    refine upd_keeps ?_
    intro s4
    refine foldl_keeps ?_ _ (.refl _)
    intro s5 b1 h
    split
    · exact wg_keeps h
    · exact h
  · refine bind_keeps accessMany_keeps ?_
    intro a1 s1
    refine bind_keeps loadSegs_keeps ?_
    intro a2 s2
    refine upd_keeps ?_
    intro s3
    refine foldl_keeps ?_ _ (.refl _)
    intro s4 b1 h
    split
    · exact wg_keeps h
    · exact h

theorem rowMasks_keeps {f : Nat → Nat → Nat} {gs : List Seg} {words : Nat} {a3 : List Nat} : KeepsAt
    (rowMasks f gs words a3) s := by
  induction a3 generalizing f gs words s with
  | nil => exact pure_keeps
  | cons x xs ih => exact bind_keeps atomicSegs_keeps (fun a s1 => ih)

theorem rowEdit_keeps {st : Nat} {a b : Fin 32} {f : Nat → Nat → Nat} : KeepsNext s (rowEdit st a b f s) :=
  issue_keeps (get_bind_keeps (bind_keeps access_keeps
      (fun _ _ => bind_keeps access_keeps (fun _ _ => bind_keeps loadSegs_keeps (fun _ _ => rowMasks_keeps)))))

theorem execTvclr_keeps {st : Fin 8} {a b : Fin 32} : KeepsNext s (execTvclr st a b s) :=
  rowEdit_keeps

theorem execTvset_keeps {st : Fin 8} {a b : Fin 32} : KeepsNext s (execTvset st a b s) :=
  rowEdit_keeps

theorem unbind_keeps {p : Fin 8} (h : Keeps s₀ s) : Keeps s₀ (s.unbind p) :=
  .same h rfl rfl rfl rfl

theorem execSbind_keeps {st d : Fin 8} {a b : Fin 32} : KeepsNext s (execSbind st d a b s) := by
  refine issue_keeps ?_
  refine get_bind_keeps ?_
  refine await_bind_keeps ?_
  refine bind_keeps (upd_keeps (fun s1 => unbind_keeps (.refl _))) ?_
  intro a1 s1
  dsimp only
  split
  · exact need_bind_keeps (need_bind_keeps (need_bind_keeps
        (need_bind_keeps (upd_keeps (fun s2 => .same (.refl _) rfl rfl rfl rfl)))))
  · exact upd_keeps (fun s2 => .same (.refl _) rfl rfl rfl rfl)

theorem execSunbind_keeps {st d : Fin 8} : KeepsNext s (execSunbind st d s) := by
  refine issue_keeps ?_
  refine get_bind_keeps ?_
  split
  · exact get_bind_keeps (await_bind_keeps (upd_keeps (fun s1 => unbind_keeps (.refl _))))
  · exact pure_keeps

theorem gather_keeps {st : Nat} {d a : Fin 32} {b : Fin 64} {gath : Bool} : KeepsNext s (gather st d a b gath s) := by
  refine issue_keeps ?_
  refine get_bind_keeps ?_
  refine await_bind_keeps ?_
  refine vecRun_keeps ?_
  intro a1 s1
  refine get_bind_keeps ?_
  refine bind_keeps readHdr_keeps ?_
  intro a2 s2
  split
  · split
    · split
      · dsimp only
        split
        · exact bind_keeps throw_keeps (fun a3 s3 => need_bind_keeps
              (bind_keeps needAll_keeps (fun a4 s4 => bind_keeps needAll_keeps
                  (fun a5 s5 => bind_keeps needAll_keeps
                      (fun a6 s6 => need_bind_keeps
                          (get_bind_keeps (set_bind_keeps (openJob_keeps (.refl _))
                              (bind_keeps (upd_keeps (fun s7 => setCtx_keeps (.refl _)))
                                  (fun a7 s7 => bind_keeps (upd_keeps (fun s8 => wx_keeps (.refl _)))
                                      (fun a8 s8 => pure_keeps))))))))))
        · exact need_bind_keeps (bind_keeps needAll_keeps
              (fun a3 s3 => bind_keeps needAll_keeps
                  (fun a4 s4 => bind_keeps needAll_keeps
                      (fun a5 s5 => need_bind_keeps
                          (get_bind_keeps (set_bind_keeps (openJob_keeps (.refl _))
                              (bind_keeps (upd_keeps (fun s6 => setCtx_keeps (.refl _)))
                                  (fun a6 s6 => bind_keeps (upd_keeps (fun s7 => wx_keeps (.refl _)))
                                      (fun a7 s7 => pure_keeps)))))))))
      · dsimp only
        split
        · exact bind_keeps throw_keeps (fun a3 s3 => need_bind_keeps
              (bind_keeps needAll_keeps (fun a4 s4 => bind_keeps needAll_keeps
                  (fun a5 s5 => bind_keeps needAll_keeps
                      (fun a6 s6 => need_bind_keeps
                          (get_bind_keeps (set_bind_keeps (openJob_keeps (.refl _))
                              (bind_keeps (upd_keeps (fun s7 => setCtx_keeps (.refl _)))
                                  (fun a7 s7 => bind_keeps (upd_keeps (fun s8 => wx_keeps (.refl _)))
                                      (fun a8 s8 => pure_keeps))))))))))
        · exact need_bind_keeps (bind_keeps needAll_keeps
              (fun a3 s3 => bind_keeps needAll_keeps
                  (fun a4 s4 => bind_keeps needAll_keeps
                      (fun a5 s5 => need_bind_keeps
                          (get_bind_keeps (set_bind_keeps (openJob_keeps (.refl _))
                              (bind_keeps (upd_keeps (fun s6 => setCtx_keeps (.refl _)))
                                  (fun a6 s6 => bind_keeps (upd_keeps (fun s7 => wx_keeps (.refl _)))
                                      (fun a7 s7 => pure_keeps)))))))))
    · split
      · dsimp only
        split
        · exact bind_keeps throw_keeps (fun a3 s3 => need_bind_keeps
              (bind_keeps needAll_keeps (fun a4 s4 => bind_keeps needAll_keeps
                  (fun a5 s5 => bind_keeps needAll_keeps
                      (fun a6 s6 => need_bind_keeps
                          (get_bind_keeps (set_bind_keeps (openJob_keeps (.refl _))
                              (bind_keeps (upd_keeps (fun s7 => wx_keeps (.refl _))) (fun a7 s7 => pure_keeps)))))))))
        · exact need_bind_keeps (bind_keeps needAll_keeps
              (fun a3 s3 => bind_keeps needAll_keeps
                  (fun a4 s4 => bind_keeps needAll_keeps
                      (fun a5 s5 => need_bind_keeps
                          (get_bind_keeps (set_bind_keeps (openJob_keeps (.refl _))
                              (bind_keeps (upd_keeps (fun s6 => wx_keeps (.refl _))) (fun a6 s6 => pure_keeps))))))))
      · dsimp only
        split
        · exact bind_keeps throw_keeps (fun a3 s3 => need_bind_keeps
              (bind_keeps needAll_keeps (fun a4 s4 => bind_keeps needAll_keeps
                  (fun a5 s5 => bind_keeps needAll_keeps
                      (fun a6 s6 => need_bind_keeps
                          (get_bind_keeps (set_bind_keeps (openJob_keeps (.refl _))
                              (bind_keeps (upd_keeps (fun s7 => wx_keeps (.refl _))) (fun a7 s7 => pure_keeps)))))))))
        · exact need_bind_keeps (bind_keeps needAll_keeps
              (fun a3 s3 => bind_keeps needAll_keeps
                  (fun a4 s4 => bind_keeps needAll_keeps
                      (fun a5 s5 => need_bind_keeps
                          (get_bind_keeps (set_bind_keeps (openJob_keeps (.refl _))
                              (bind_keeps (upd_keeps (fun s6 => wx_keeps (.refl _))) (fun a6 s6 => pure_keeps))))))))
  · split
    · split
      · dsimp only
        split
        · exact bind_keeps throw_keeps (fun a3 s3 => need_bind_keeps
              (bind_keeps needAll_keeps (fun a4 s4 => bind_keeps needAll_keeps
                  (fun a5 s5 => bind_keeps needAll_keeps
                      (fun a6 s6 => need_bind_keeps
                          (get_bind_keeps (set_bind_keeps (openJob_keeps (.refl _))
                              (bind_keeps (upd_keeps (fun s7 => setCtx_keeps (.refl _)))
                                  (fun a7 s7 => bind_keeps (upd_keeps (fun s8 => wx_keeps (.refl _)))
                                      (fun a8 s8 => pure_keeps))))))))))
        · exact need_bind_keeps (bind_keeps needAll_keeps
              (fun a3 s3 => bind_keeps needAll_keeps
                  (fun a4 s4 => bind_keeps needAll_keeps
                      (fun a5 s5 => need_bind_keeps
                          (get_bind_keeps (set_bind_keeps (openJob_keeps (.refl _))
                              (bind_keeps (upd_keeps (fun s6 => setCtx_keeps (.refl _)))
                                  (fun a6 s6 => bind_keeps (upd_keeps (fun s7 => wx_keeps (.refl _)))
                                      (fun a7 s7 => pure_keeps)))))))))
      · dsimp only
        split
        · exact bind_keeps throw_keeps (fun a3 s3 => need_bind_keeps
              (bind_keeps needAll_keeps (fun a4 s4 => bind_keeps needAll_keeps
                  (fun a5 s5 => bind_keeps needAll_keeps
                      (fun a6 s6 => need_bind_keeps
                          (get_bind_keeps (set_bind_keeps (openJob_keeps (.refl _))
                              (bind_keeps (upd_keeps (fun s7 => setCtx_keeps (.refl _)))
                                  (fun a7 s7 => bind_keeps (upd_keeps (fun s8 => wx_keeps (.refl _)))
                                      (fun a8 s8 => pure_keeps))))))))))
        · exact need_bind_keeps (bind_keeps needAll_keeps
              (fun a3 s3 => bind_keeps needAll_keeps
                  (fun a4 s4 => bind_keeps needAll_keeps
                      (fun a5 s5 => need_bind_keeps
                          (get_bind_keeps (set_bind_keeps (openJob_keeps (.refl _))
                              (bind_keeps (upd_keeps (fun s6 => setCtx_keeps (.refl _)))
                                  (fun a6 s6 => bind_keeps (upd_keeps (fun s7 => wx_keeps (.refl _)))
                                      (fun a7 s7 => pure_keeps)))))))))
    · split
      · dsimp only
        split
        · exact bind_keeps throw_keeps (fun a3 s3 => need_bind_keeps
              (bind_keeps needAll_keeps (fun a4 s4 => bind_keeps needAll_keeps
                  (fun a5 s5 => bind_keeps needAll_keeps
                      (fun a6 s6 => need_bind_keeps
                          (get_bind_keeps (set_bind_keeps (openJob_keeps (.refl _))
                              (bind_keeps (upd_keeps (fun s7 => wx_keeps (.refl _))) (fun a7 s7 => pure_keeps)))))))))
        · exact need_bind_keeps (bind_keeps needAll_keeps
              (fun a3 s3 => bind_keeps needAll_keeps
                  (fun a4 s4 => bind_keeps needAll_keeps
                      (fun a5 s5 => need_bind_keeps
                          (get_bind_keeps (set_bind_keeps (openJob_keeps (.refl _))
                              (bind_keeps (upd_keeps (fun s6 => wx_keeps (.refl _))) (fun a6 s6 => pure_keeps))))))))
      · dsimp only
        split
        · exact bind_keeps throw_keeps (fun a3 s3 => need_bind_keeps
              (bind_keeps needAll_keeps (fun a4 s4 => bind_keeps needAll_keeps
                  (fun a5 s5 => bind_keeps needAll_keeps
                      (fun a6 s6 => need_bind_keeps
                          (get_bind_keeps (set_bind_keeps (openJob_keeps (.refl _))
                              (bind_keeps (upd_keeps (fun s7 => wx_keeps (.refl _))) (fun a7 s7 => pure_keeps)))))))))
        · exact need_bind_keeps (bind_keeps needAll_keeps
              (fun a3 s3 => bind_keeps needAll_keeps
                  (fun a4 s4 => bind_keeps needAll_keeps
                      (fun a5 s5 => need_bind_keeps
                          (get_bind_keeps (set_bind_keeps (openJob_keeps (.refl _))
                              (bind_keeps (upd_keeps (fun s6 => wx_keeps (.refl _))) (fun a6 s6 => pure_keeps))))))))

theorem execGath_keeps {st : Fin 8} {d a : Fin 32} {b : Fin 64} : KeepsNext s (execGath st d a b s) :=
  gather_keeps

theorem execScat_keeps {st : Fin 8} {d a : Fin 32} {b : Fin 64} : KeepsNext s (execScat st d a b s) :=
  gather_keeps

theorem execGathst_keeps {st : Fin 8} {d a b : Fin 32} : KeepsNext s (execGathst st d a b s) := by
  refine issue_keeps ?_
  refine get_bind_keeps ?_
  split
  · split
    · split
      · exact bind_keeps throw_keeps (fun a1 s1 => await_bind_keeps (upd_keeps (fun s2 => wx_keeps (.refl _))))
      · exact await_bind_keeps (upd_keeps (fun s1 => wx_keeps (.refl _)))
    · split
      · exact bind_keeps throw_keeps (fun a1 s1 => upd_keeps (fun s2 => wx_keeps (.refl _)))
      · exact upd_keeps (fun s1 => wx_keeps (.refl _))
  · split
    · exact bind_keeps throw_keeps (fun a1 s1 => upd_keeps (fun s2 => wx_keeps (.refl _)))
    · exact upd_keeps (fun s1 => wx_keeps (.refl _))

theorem sideNeed_keeps {c : Cap} {ps : List Nat} {lo hi : Int} : KeepsAt (sideNeed c ps lo hi) s :=
  need_bind_keeps (need_bind_keeps need_keeps)

theorem alignNeed_keeps {c : Copy} {a : Int} {bits : Nat} : KeepsAt (alignNeed c a bits) s :=
  need_bind_keeps need_keeps

theorem openCopy_keeps {d : Fin 32} {c : Copy} {empty : Bool} : KeepsAt (openCopy d c empty) s := by
  refine get_bind_keeps ?_
  refine await_bind_keeps ?_
  split
  refine set_keeps ?_
  refine srDone_keeps ?_
  refine wx_keeps ?_
  rename_i he
  exact .fst (openJob_keeps (.refl _)) he

theorem copyIssue_keeps {d : Fin 32} {c : Copy} {clash : Bool} : KeepsAt (copyIssue d c clash) s := by
  refine legal_bind_keeps ?_
  split
  · exact bind_keeps sideNeed_keeps (fun a s1 => bind_keeps sideNeed_keeps
        (fun a1 s2 => bind_keeps alignNeed_keeps
            (fun a2 s3 => bind_keeps alignNeed_keeps (fun a3 s4 => need_bind_keeps openCopy_keeps))))
  · exact openCopy_keeps

theorem execCpy_keeps {st : Fin 8} {d a b : Fin 32} : KeepsNext s (execCpy st d a b s) :=
  issue_keeps (unlessAhead_keeps (fun _ => copyIssue_keeps))

theorem execCpy2d_keeps {st : Fin 8} {d a b : Fin 32} : KeepsNext s (execCpy2d st d a b s) :=
  issue_keeps (unlessAhead_keeps (fun _ => copyIssue_keeps))

theorem execCpyq_keeps {st : Fin 8} {d a b : Fin 32} : KeepsNext s (execCpyq st d a b s) := by
  refine issue_keeps ?_
  refine unlessAhead_keeps ?_
  intro s1
  refine get_bind_keeps ?_
  dsimp only
  split
  · exact bind_keeps raise_keeps (fun a1 s2 => need_bind_keeps openCopy_keeps)
  · exact need_bind_keeps openCopy_keeps

theorem execCpyx_keeps {st : Fin 8} {d a b : Fin 32} : KeepsNext s (execCpyx st d a b s) := by
  refine issue_keeps ?_
  refine unlessAhead_keeps ?_
  intro s1
  refine get_bind_keeps ?_
  refine legal_bind_keeps ?_
  split
  · refine bind_keeps sideNeed_keeps ?_
    intro a1 s2
    refine bind_keeps sideNeed_keeps ?_
    intro a2 s3
    split
    · exact bind_keeps raise_keeps (fun a3 s4 => openCopy_keeps)
    · exact openCopy_keeps
  · exact openCopy_keeps

theorem engineSegs_keeps {c : Copy} {cap : Cap} {k : Machine.Acc} {a n : Nat} (h : Keeps s₀ s) : Keeps s₀
    (s.engineSegs c cap k a n).1 := by
  unfold State.engineSegs
  dsimp only
  split
  · rename_i he
    exact KeepsAt.ok (bind_keeps segsOf_keeps (fun a1 s1 => bind_keeps goodNeed_keeps (fun a2 s2 => pure_keeps))) h he
  · rename_i he
    exact KeepsAt.error (bind_keeps segsOf_keeps (fun a1 s1 => bind_keeps goodNeed_keeps (fun a2 s2 => pure_keeps))) h he
  · rename_i he
    exact KeepsAt.error (bind_keeps segsOf_keeps (fun a1 s1 => bind_keeps goodNeed_keeps (fun a2 s2 => pure_keeps))) h he

theorem loadAs_keeps {me : Nat × Nat} {esz : Nat} {a3 : List Seg} (h : Keeps s₀ s) : Keeps s₀ (s.loadAs me esz a3).1 := by
  induction a3 generalizing s me esz with
  | nil => exact h
  | cons x xs ih => exact ih (readAs_keeps (l2Fetch_keeps h))

theorem storeAs_keeps {me : Nat × Nat} {esz : Nat} {a3 : List Seg} {a4 : List Byte} (h : Keeps s₀ s) : Keeps s₀
    (s.storeAs me esz a3 a4) := by
  induction a3 generalizing s me esz a4 with
  | nil => exact h
  | cons x xs ih =>
    refine ih ?_
    split
    · exact markLines_keeps (writeAs_keeps (dirty_keeps h))
    · exact writeAs_keeps (dirty_keeps h)

theorem copyBurst_keeps {me : Nat × Nat} {c : Copy} (h : Keeps s₀ s) : Keeps s₀ (s.copyBurst me c).1 := by
  unfold State.copyBurst
  split
  · split
    · dsimp only
      split
      · rename_i he
        exact .fst (engineSegs_keeps h) he
      · split
        · rename_i he
          refine .fst ?_ he
          refine engineSegs_keeps ?_
          rename_i he1 _ _ _
          exact .fst (engineSegs_keeps h) he1
        · rename_i he
          refine .fst ?_ he
          refine engineSegs_keeps ?_
          rename_i he1 _ _ _ _
          exact .fst (engineSegs_keeps h) he1
      · split
        · rename_i he
          refine .fst ?_ he
          refine engineSegs_keeps ?_
          rename_i he1 _ _
          exact .fst (engineSegs_keeps h) he1
        · rename_i he
          refine .fst ?_ he
          refine engineSegs_keeps ?_
          rename_i he1 _ _ _
          exact .fst (engineSegs_keeps h) he1
        · split
          · rename_i he _ _ _
            refine .fst ?_ he
            refine engineSegs_keeps ?_
            rename_i he1 _ _ _ _ _ _
            exact .fst (engineSegs_keeps h) he1
          · refine foldl_keeps ?_ _ ?_
            · intro s1 b h
              split
              · exact .same h rfl rfl rfl rfl
              · exact h
            · refine storeAs_keeps ?_
              refine loadAs_keeps ?_
              rename_i he _ _
              refine .fst ?_ he
              refine engineSegs_keeps ?_
              rename_i he1 _ _ _ _ _
              exact .fst (engineSegs_keeps h) he1
    · dsimp only
      split
      · rename_i he
        exact .fst (engineSegs_keeps h) he
      · split
        · rename_i he
          refine .fst ?_ he
          refine engineSegs_keeps ?_
          rename_i he1 _ _ _
          exact .fst (engineSegs_keeps h) he1
        · rename_i he
          refine .fst ?_ he
          refine engineSegs_keeps ?_
          rename_i he1 _ _ _ _
          exact .fst (engineSegs_keeps h) he1
      · split
        · rename_i he
          refine .fst ?_ he
          refine engineSegs_keeps ?_
          rename_i he1 _ _
          exact .fst (engineSegs_keeps h) he1
        · rename_i he
          refine .fst ?_ he
          refine engineSegs_keeps ?_
          rename_i he1 _ _ _
          exact .fst (engineSegs_keeps h) he1
        · split
          · rename_i he _ _ _
            refine .fst ?_ he
            refine engineSegs_keeps ?_
            rename_i he1 _ _ _ _ _ _
            exact .fst (engineSegs_keeps h) he1
          · refine foldl_keeps ?_ _ ?_
            · intro s1 b h
              split
              · exact .same h rfl rfl rfl rfl
              · exact h
            · refine storeAs_keeps ?_
              refine loadAs_keeps ?_
              rename_i he _ _
              refine .fst ?_ he
              refine engineSegs_keeps ?_
              rename_i he1 _ _ _ _ _
              exact .fst (engineSegs_keeps h) he1
  · split
    · dsimp only
      split
      · rename_i he
        exact .fst (engineSegs_keeps h) he
      · split
        · rename_i he
          refine .fst ?_ he
          refine engineSegs_keeps ?_
          rename_i he1 _ _ _
          exact .fst (engineSegs_keeps h) he1
        · rename_i he
          refine .fst ?_ he
          refine engineSegs_keeps ?_
          rename_i he1 _ _ _ _
          exact .fst (engineSegs_keeps h) he1
      · split
        · rename_i he
          refine .fst ?_ he
          refine engineSegs_keeps ?_
          rename_i he1 _ _
          exact .fst (engineSegs_keeps h) he1
        · rename_i he
          refine .fst ?_ he
          refine engineSegs_keeps ?_
          rename_i he1 _ _ _
          exact .fst (engineSegs_keeps h) he1
        · split
          · rename_i he _ _ _
            refine .fst ?_ he
            refine engineSegs_keeps ?_
            rename_i he1 _ _ _ _ _ _
            exact .fst (engineSegs_keeps h) he1
          · refine foldl_keeps ?_ _ ?_
            · intro s1 b h
              split
              · exact .same h rfl rfl rfl rfl
              · exact h
            · refine storeAs_keeps ?_
              refine loadAs_keeps ?_
              rename_i he _ _
              refine .fst ?_ he
              refine engineSegs_keeps ?_
              rename_i he1 _ _ _ _ _
              exact .fst (engineSegs_keeps h) he1
    · dsimp only
      split
      · rename_i he
        exact .fst (engineSegs_keeps h) he
      · split
        · rename_i he
          refine .fst ?_ he
          refine engineSegs_keeps ?_
          rename_i he1 _ _ _
          exact .fst (engineSegs_keeps h) he1
        · rename_i he
          refine .fst ?_ he
          refine engineSegs_keeps ?_
          rename_i he1 _ _ _ _
          exact .fst (engineSegs_keeps h) he1
      · split
        · rename_i he
          refine .fst ?_ he
          refine engineSegs_keeps ?_
          rename_i he1 _ _
          exact .fst (engineSegs_keeps h) he1
        · rename_i he
          refine .fst ?_ he
          refine engineSegs_keeps ?_
          rename_i he1 _ _ _
          exact .fst (engineSegs_keeps h) he1
        · split
          · rename_i he _ _ _
            refine .fst ?_ he
            refine engineSegs_keeps ?_
            rename_i he1 _ _ _ _ _ _
            exact .fst (engineSegs_keeps h) he1
          · refine foldl_keeps ?_ _ ?_
            · intro s1 b h
              split
              · exact .same h rfl rfl rfl rfl
              · exact h
            · refine storeAs_keeps ?_
              refine loadAs_keeps ?_
              rename_i he _ _
              refine .fst ?_ he
              refine engineSegs_keeps ?_
              rename_i he1 _ _ _ _ _
              exact .fst (engineSegs_keeps h) he1

theorem nextDesc_keeps {me : Nat × Nat} {c : Copy} (h : Keeps s₀ s) : Keeps s₀ (s.nextDesc me c).1 := by
  unfold State.nextDesc
  dsimp only
  split
  · rename_i he
    exact .fst (engineSegs_keeps h) he
  · rename_i he
    exact .fst (engineSegs_keeps h) he
  · split
    · refine loadAs_keeps ?_
      rename_i he _ _ _
      exact .fst (engineSegs_keeps h) he
    · split
      · refine loadAs_keeps ?_
        rename_i he _ _ _
        exact .fst (engineSegs_keeps h) he
      · refine loadAs_keeps ?_
        rename_i he _ _ _
        exact .fst (engineSegs_keeps h) he

theorem queueBurst_keeps {me : Nat × Nat} {c : Copy} (h : Keeps s₀ s) : Keeps s₀ (s.queueBurst me c).1 := by
  unfold State.queueBurst
  split
  · exact nextDesc_keeps h
  · split
    split
    · rename_i he _
      exact .fst (copyBurst_keeps h) he
    · split
      · rename_i he _ _
        exact .fst (copyBurst_keeps h) he
      · rename_i he _ _
        exact .fst (copyBurst_keeps h) he

theorem xBurst_keeps {me : Nat × Nat} {ri : Nat} {c : Copy} (h : Keeps s₀ s) : Keeps s₀ (s.xBurst me ri c).1 := by
  unfold State.xBurst
  split
  · dsimp only
    split
    · rename_i he
      exact .fst (engineSegs_keeps h) he
    · rename_i he
      exact .fst (engineSegs_keeps h) he
    · split
      · refine loadAs_keeps ?_
        rename_i he _
        exact .fst (engineSegs_keeps h) he
      · dsimp only
        refine sendFrom_keeps ?_
        refine loadAs_keeps ?_
        rename_i he _
        exact .fst (engineSegs_keeps h) he
  · dsimp only
    split
    · rename_i he
      exact .fst (engineSegs_keeps h) he
    · rename_i he
      exact .fst (engineSegs_keeps h) he
    · split
      · refine loadAs_keeps ?_
        rename_i he _
        exact .fst (engineSegs_keeps h) he
      · dsimp only
        refine sendFrom_keeps ?_
        refine loadAs_keeps ?_
        rename_i he _
        exact .fst (engineSegs_keeps h) he

theorem elemStep_keeps {me : Nat × Nat} {ri : Nat} {c : Copy} (h : Keeps s₀ s) : Keeps s₀ (s.elemStep me ri c).1 := by
  unfold State.elemStep
  split
  · extract_lets es s1
    have h1 : Keeps s₀ s1 := .same h rfl rfl rfl rfl
    dsimp only
    exact sendFrom_keeps h1
  · split
    · dsimp only
      split
      · rename_i he
        exact .fst (engineSegs_keeps h) he
      · rename_i he
        exact .fst (engineSegs_keeps h) he
      · rename_i s' hs _
        refine .same (s := (s'.loadAs me c.es hs).1) ?_ rfl rfl rfl rfl
        refine loadAs_keeps ?_
        rename_i he
        exact .fst (engineSegs_keeps h) he
    · dsimp only
      split
      · rename_i he
        exact .fst (engineSegs_keeps h) he
      · rename_i he
        exact .fst (engineSegs_keeps h) he
      · rename_i s' hs _
        refine .same (s := s'.storeAs me c.es hs (leBytes c.es (c.elemData c.pos))) ?_ rfl rfl rfl rfl
        refine storeAs_keeps ?_
        rename_i he
        exact .fst (engineSegs_keeps h) he

theorem copyEnd_keeps {ri : Nat} {c : Copy} (h : Keeps s₀ s) : Keeps s₀ (s.copyEnd ri c) :=
  .same h rfl rfl rfl rfl

theorem copyPut_keeps {ri : Nat} {c : Copy} (h : Keeps s₀ s) : Keeps s₀ (s.copyPut ri c) := by
  unfold State.copyPut
  extract_lets s1
  have h1 : Keeps s₀ s1 := .same h rfl rfl rfl rfl
  split
  · exact copyEnd_keeps h1
  · exact h1

theorem runBurst_keeps {j : JobRec} {c : Copy} (h : Keeps s₀ s) : Keeps s₀ (s.runBurst j c) := by
  unfold State.runBurst
  dsimp only
  cases c.kind with
  | cpy =>
    dsimp only
    split
    · exact copyPut_keeps h
    · exact copyPut_keeps (copyBurst_keeps h)
  | cpy2d =>
    dsimp only
    split
    · exact copyPut_keeps h
    · exact copyPut_keeps (copyBurst_keeps h)
  | cpyq =>
    dsimp only
    split
    · exact copyPut_keeps h
    · exact copyPut_keeps (queueBurst_keeps h)
  | cpyx =>
    dsimp only
    split
    · exact copyPut_keeps (xBurst_keeps h)
    · exact copyPut_keeps h
  | gath =>
    dsimp only
    split
    · exact copyPut_keeps (elemStep_keeps h)
    · exact copyPut_keeps h
  | scat =>
    dsimp only
    split
    · exact copyPut_keeps (elemStep_keeps h)
    · exact copyPut_keeps h

theorem burst_keeps {ri : Nat} (h : Keeps s₀ s) : Keeps s₀ (s.burst ri) := by
  unfold State.burst
  split
  · exact h
  · split
    · exact runBurst_keeps h
    · exact h

theorem execCopyBurst_keeps {e rec : Nat} : KeepsNext s (execCopyBurst e rec s) :=
  atCore_keeps (fun _ _ h => burst_keeps h)

theorem jobReg_keeps {n key : Nat} {v : VReg} (h : Keeps s₀ s) : Keeps s₀ (s.jobReg n key v) := by
  unfold State.jobReg
  dsimp only
  split
  · exact wv_keeps (.same h rfl rfl rfl rfl)
  · exact h

theorem gatherEnd_keeps {ri : Nat} (h : Keeps s₀ s) : Keeps s₀ (s.gatherEnd ri) := by
  unfold State.gatherEnd
  split
  · split
    · extract_lets s1
      have h1 : Keeps s₀ s1 := by
        unfold s1
        split
        · exact jobReg_keeps h
        · exact h
      exact copyEnd_keeps (edge_keeps h1)
    · exact h
  · exact h

theorem execGatherComplete_keeps {e rec : Nat} : KeepsNext s (execGatherComplete e rec s) :=
  atCore_keeps (fun _ _ h => gatherEnd_keeps h)

theorem copyLost_keeps {c : Copy} (h : Keeps s₀ s) : Keeps s₀ (s.copyLost c) := by
  unfold State.copyLost
  split
  · exact smearPool_keeps h
  · split
    · split
      · refine foldl_keeps (fun s1 b h => smear_keeps h) _ ?_
        rename_i he
        exact remotePlaces_keeps h he
      · exact h
    · exact h

theorem copyReply_keeps {op : RemOp} {ri status : Nat} {data : List Byte} (h : Keeps s₀ s) : Keeps s₀
    (s.copyReply op ri status data) := by
  unfold State.copyReply
  split
  · exact h
  · split
    · dsimp only
      split
      · refine copyPut_keeps ?_
        split
        · exact copyLost_keeps h
        · exact h
      · exact .same h rfl rfl rfl rfl
    · split
      · dsimp only
        split
        · refine copyPut_keeps ?_
          split
          · exact copyLost_keeps h
          · exact h
        · exact .same h rfl rfl rfl rfl
      · dsimp only
        split
        · refine copyPut_keeps ?_
          split
          · exact copyLost_keeps h
          · exact h
        · exact .same h rfl rfl rfl rfl

theorem tookTurn_keeps {h' : Fin 11} (h : Keeps s₀ s) : Keeps s₀ (s.tookTurn h') :=
  .same h rfl rfl rfl rfl

theorem endSlice_keeps {j : Job} (h : Keeps s₀ s) : Keeps s₀ (s.endSlice j) := by
  unfold State.endSlice
  extract_lets s1 s2
  have h1 : Keeps s₀ s1 := mapJob_keeps (fun j1 => rfl) h
  have h2 : Keeps s₀ s2 := foldl_keeps (fun s3 b h => mapCore_keeps (fun c => askStop_settings) h) _ h1
  split
  · exact h1
  · split
    · exact mapJob_keeps (fun j1 => rfl) h1
    · exact mapJob_keeps (fun j1 => rfl) h2

theorem passTime_keeps (h : Keeps s₀ s) : Keeps s₀ s.passTime := by
  unfold State.passTime
  extract_lets s1 unit acc s2
  have h1 : Keeps s₀ s1 := by
    refine foldl_keeps ?_ _ h
    intro s3 j h
    split
    · exact endSlice_keeps h
    · exact h
  have h2 : Keeps s₀ s2 := .same h1 rfl rfl rfl rfl
  split
  · exact h2
  · exact flushTrace_keeps h2

theorem timer_keeps (h : Keeps s₀ s) : Keeps s₀ s.timer := by
  unfold State.timer
  split
  · exact .same h rfl rfl rfl rfl
  · exact h

theorem tick_keeps (h : Keeps s₀ s) : Keeps s₀ s.tick := by
  unfold State.tick
  extract_lets s1 v1
  have h1 : Keeps s₀ s1 := by
    unfold s1
    split
    · exact count_keeps (count_keeps h)
    · exact h
  exact passTime_keeps (.same h1 rfl rfl rfl rfl)

theorem noIssue_keeps (h : Keeps s₀ s) : Keeps s₀ s.noIssue := by
  unfold State.noIssue
  split
  · exact count_keeps h
  · exact h

theorem cycleEnd_keeps {a1 : State} (h : Keeps s₀ s) : Keeps s₀ (s.cycleEnd a1) := by
  refine tick_keeps ?_
  split
  · exact noIssue_keeps h
  · exact h

theorem pausedTrap_keeps {a1 : Trap} (h : Keeps s₀ s) : Keeps s₀ (s.pausedTrap a1) := by
  unfold State.pausedTrap
  extract_lets s1 v1
  have h1 : Keeps s₀ s1 := takeTrap_keeps h
  split
  · exact h1
  · exact .same h1 rfl rfl rfl rfl

theorem turnOf_keeps {h' : Fin 11} (h : Keeps s₀ s) : Keeps s₀ (s.turnOf h') := by
  unfold State.turnOf
  extract_lets v1 s1 s2 v2
  have h1 : Keeps s₀ s1 := .same h rfl rfl rfl rfl
  have h2 : Keeps s₀ s2 := settle_keeps h1
  exact setCtx_keeps h2

theorem latch_keeps {n w : Nat} (h : Keeps s₀ s) : Keeps s₀ (s.latch n w) :=
  setCtx_keeps h

theorem fetchHere_keeps : KeepsAt fetchHere s :=
  get_bind_keeps (bind_keeps fetchInstr_keeps (fun _ _ => bind_keeps watchNeed_keeps (fun _ _ => pure_keeps)))

theorem redTo_keeps {p : Packet} {unit port : Nat} (h : Keeps s₀ s) : Keeps s₀ (s.redTo p unit port) :=
  .same h rfl rfl rfl rfl

theorem redSpread_keeps {p : Packet} (h : Keeps s₀ s) : Keeps s₀ (s.redSpread p) := by
  unfold State.redSpread
  extract_lets e p1 s1
  have h1 : Keeps s₀ s1 := foldl_keeps (fun s2 b h => redTo_keeps h) _ h
  refine foldl_keeps ?_ _ h1
  intro s2 b h
  split
  · exact mapLink_keeps h
  · exact h

theorem redForward_keeps {nd : Node} {p : Packet} (h : Keeps s₀ s) : Keeps s₀ (s.redForward nd p) := by
  unfold State.redForward
  split
  · dsimp only
    split
    · exact redSpread_keeps h
    · split
      · exact redTo_keeps h
      · split
        · exact redTo_keeps h
        · exact h
  · dsimp only
    split
    · exact redSpread_keeps h
    · split
      · exact redTo_keeps h
      · split
        · exact mapLink_keeps h
        · exact h

theorem setRed_keeps {r : RedInst} (h : Keeps s₀ s) : Keeps s₀ (s.setRed r) :=
  .same h rfl rfl rfl rfl

theorem redFire_keeps {r : RedInst} (h : Keeps s₀ s) : Keeps s₀ (s.redFire r) := by
  unfold State.redFire
  extract_lets s1
  have h1 : Keeps s₀ s1 := setRed_keeps h
  split
  · exact h1
  · exact redForward_keeps h1

theorem redInput_keeps {r : RedInst} {port : Nat} {p : Packet} (h : Keeps s₀ s) : Keeps s₀ (s.redInput r port p) := by
  unfold State.redInput
  split
  · exact h
  · split
    · dsimp only
      split
      · exact redFire_keeps h
      · exact setRed_keeps h
    · dsimp only
      split
      · exact redFire_keeps h
      · exact setRed_keeps h

theorem redContrib_keeps {nd : Node} {port : Nat} {p : Packet} (h : Keeps s₀ s) : Keeps s₀ (s.redContrib nd port p) := by
  unfold State.redContrib
  extract_lets s1 fresh
  have h1 : Keeps s₀ s1 := .same h rfl rfl rfl rfl
  split
  · exact h1
  · split
    · exact redInput_keeps h1
    · split
      · exact h1
      · split
        · exact redInput_keeps h1
        · split
          · exact redInput_keeps h1
          · exact h

theorem execRedContrib_keeps {nd : Node} {port : Nat} {p : Packet} : KeepsNext s (execRedContrib nd port p s) := by
  unfold execRedContrib
  split
  · exact done_keeps (redContrib_keeps (.refl _))
  · exact done_keeps (.refl _)

theorem execNodeTimeout_keeps {nd : Node} {tree inst : Nat} : KeepsNext s (execNodeTimeout nd tree inst s) := by
  unfold execNodeTimeout
  split
  · exact done_keeps (.refl _)
  · split
    · exact done_keeps (.refl _)
    · refine done_keeps ?_
      split
      · exact redFire_keeps (.refl _)
      · exact .refl _

theorem setLast_settings {c : Core} {tree inst : Nat} : settings (c.setLast tree inst) = settings c :=
  rfl

theorem takeResult_keeps {p : Packet} (h : Keeps s₀ s) : Keeps s₀ (s.takeResult p) := by
  have h1 : Keeps s₀ { s with core := s.core.setLast (redTree p) (redInst p) } := .same h rfl setLast_settings rfl rfl
  unfold State.takeResult
  dsimp only
  cases s.core.redJob (redTree p) (redInst p) with
  | none => exact h1
  | some j => exact .same (edge_keeps h1) rfl completeJob_settings rfl rfl

theorem passResult_keeps {p : Packet} (h : Keeps s₀ s) : Keeps s₀ (s.passResult p) := by
  unfold State.passResult
  split
  · exact .same h rfl rfl rfl rfl
  · exact h

theorem execRedResult_keeps {p : Packet} : KeepsNext s (execRedResult p s) := by
  refine atCore_keeps ?_
  intro _ s1 h
  dsimp only
  split
  · exact .same h rfl rfl rfl rfl
  · split
    · exact takeResult_keeps (.same h rfl rfl rfl rfl)
    · split
      · split
        · exact spill_keeps (.same h rfl rfl rfl rfl)
        · exact passResult_keeps (.same h rfl rfl rfl rfl)
      · exact passResult_keeps (.same h rfl rfl rfl rfl)

theorem execNred_keeps {st : Fin 8} {d a : Fin 32} {b : Fin 64} : KeepsNext s (execNred st d a b s) := by
  refine issue_keeps ?_
  refine get_bind_keeps ?_
  refine legal_bind_keeps ?_
  refine await_bind_keeps ?_
  refine vecRun_keeps ?_
  intro a1 s1
  refine get_bind_keeps ?_
  dsimp only
  split
  · exact set_bind_keeps (wx_keeps (openJob_keeps (.refl _))) pure_keeps
  · exact set_bind_keeps (wx_keeps (redTo_keeps (edge_keeps (openJob_keeps (.refl _))))) pure_keeps

theorem execNredw_keeps {st : Fin 8} {d : Fin 64} {a : Fin 32} : KeepsNext s (execNredw st d a s) := by
  refine issue_keeps ?_
  refine get_bind_keeps ?_
  split
  · exact legal_keeps
  · exact await_bind_keeps (vecRun_keeps (fun a1 s1 => bind_keeps (upd_keeps (fun s2 => edge_keeps (.refl _)))
        (fun a2 s2 => pure_keeps)))

theorem writeTree_keeps {n : Nat} {e : List Byte} (h : Keeps s₀ s) : Keeps s₀ (s.writeTree n e) := by
  unfold State.writeTree
  have hf (c : Core) :
      settings (if treeLists e c.id then { c with redLast := c.redLast.filter (fun x => x.1 ≠ n) } else c) = settings c := by
    split <;> rfl
  refine ⟨h.mem, fun l => ⟨(h.legal l).core.of_settings (hf _), fun c hc => ?_, fun j hj c hc => ?_⟩⟩
  · obtain ⟨d, hd, rfl⟩ := List.mem_map.mp hc
    exact ((h.legal l).others d hd).of_settings (hf d)
  · obtain ⟨k, hk, rfl⟩ := List.mem_map.mp hj
    obtain ⟨d, hd, rfl⟩ := List.mem_map.mp hc
    exact ((h.legal l).saved k hk d hd).of_settings (hf d)

theorem setAcc_keeps {cells : List Nat} (h : Keeps s₀ s) : Keeps s₀ (s.setAcc cells) :=
  .same h rfl rfl rfl rfl

theorem matIssue_keeps {st : Nat} {kind : MatKind} {d : Fin 32} {a b : Fin 64} : KeepsNext s (matIssue st kind d a b s) := by
  refine issue_keeps ?_
  refine get_bind_keeps ?_
  split
  · refine await_bind_keeps ?_
    split
    extract_lets v1 s1
    have h1 : Keeps s s1 := by
      rename_i s' _ _
      refine .same (s := s') ?_ rfl rfl rfl rfl
      rename_i he
      exact .fst (openJob_keeps (.refl _)) he
    exact set_keeps (wx_keeps h1)
  · split
    refine set_keeps ?_
    refine wx_keeps ?_
    rename_i he
    exact .fst (openJob_keeps (.refl _)) he

theorem execMop_keeps {st : Fin 8} {d : Fin 32} {a b : Fin 64} : KeepsNext s (execMop st d a b s) :=
  matIssue_keeps

theorem execMsqd_keeps {st : Fin 8} {d : Fin 32} {a b : Fin 64} : KeepsNext s (execMsqd st d a b s) :=
  matIssue_keeps

theorem popBytes_keeps {me : Nat × Nat} {a2 : List Seg} (h : Keeps s₀ s) : Keeps s₀ (s.popBytes me a2).1 := by
  induction a2 generalizing s me with
  | nil => exact h
  | cons x xs ih => exact ih (readAt_keeps (throughL1_keeps h))

theorem matRead_keeps {j : MatJob} {n : Fin 64} : KeepsAt (matRead j n) s := by
  refine get_bind_keeps ?_
  split
  · exact pure_keeps
  · refine need_bind_keeps ?_
    refine bind_keeps segsOf_keeps ?_
    intro a s1
    refine bind_keeps goodNeed_keeps ?_
    intro a1 s2
    refine get_bind_keeps ?_
    split
    refine set_bind_keeps ?_ pure_keeps
    refine advance_keeps ?_
    rename_i he
    exact .fst (popBytes_keeps (.refl _)) he

theorem matGroup_go_keeps {j : MatJob} {x k n : Nat} {pops : Bool} : KeepsAt (matGroup.go j x pops k n) s := by
  induction n generalizing s k with
  | zero => exact pure_keeps
  | succ n ih => exact bind_keeps matRead_keeps fun _ _ => bind_keeps ih fun _ _ => pure_keeps

theorem matGroup_keeps {j : MatJob} {x g : Nat} : KeepsAt (matGroup j x g) s :=
  get_bind_keeps (bind_keeps matGroup_go_keeps (fun _ _ => pure_keeps))

theorem matScales_keeps {j : MatJob} {ty r : Nat} {mx : Bool} {old : VReg × VReg} : KeepsAt (matScales j ty r mx old) s := by
  unfold matScales
  split
  · dsimp only
    split
    · exact bind_keeps matRead_keeps (fun a s1 => bind_keeps matRead_keeps (fun a1 s2 => pure_keeps))
    · exact pure_keeps
  · dsimp only
    split
    · exact bind_keeps matRead_keeps (fun a s1 => pure_keeps)
    · exact pure_keeps

theorem metaNeed_keeps {j : MatJob} : KeepsAt (metaNeed j) s := by
  unfold metaNeed
  split
  · dsimp only
    split
    · exact need_keeps
    · exact pure_keeps
  · dsimp only
    split
    · exact need_keeps
    · exact pure_keeps

theorem matStep_keeps {j : MatJob} : KeepsAt (matStep j) s := by
  refine bind_keeps matGroup_keeps ?_
  intro a s1
  refine bind_keeps matGroup_keeps ?_
  intro a1 s2
  refine bind_keeps matScales_keeps ?_
  intro a2 s3
  refine bind_keeps matScales_keeps ?_
  intro a3 s4
  split
  · refine bind_keeps matRead_keeps ?_
    intro a4 s5
    refine bind_keeps metaNeed_keeps ?_
    intro a5 s6
    refine get_bind_keeps ?_
    extract_lets out s7 v1
    have h7 : Keeps s6 s7 := count_keeps (setAcc_keeps (.refl _))
    exact set_bind_keeps (.same h7 rfl rfl rfl rfl) pure_keeps
  · refine bind_keeps pure_keeps ?_
    intro a4 s5
    refine bind_keeps metaNeed_keeps ?_
    intro a5 s6
    refine get_bind_keeps ?_
    extract_lets out s7 v1
    have h7 : Keeps s6 s7 := count_keeps (setAcc_keeps (.refl _))
    exact set_bind_keeps (.same h7 rfl rfl rfl rfl) pure_keeps

theorem setMat_settings {c : Core} {j : MatJob} : settings (c.setMat j) = settings c :=
  rfl

theorem endMat_settings {c : Core} {ri status cause : Nat} : settings (c.endMat ri status cause) = settings c :=
  rfl

theorem pauseMat_settings {c : Core} {j : MatJob} {a2 : Trap} : settings (c.pauseMat j a2) = settings c := by
  unfold Core.pauseMat
  split
  · exact rfl
  · exact rfl

theorem matAdvance_keeps (h : Keeps s₀ s) : Keeps s₀ s.matAdvance := by
  unfold State.matAdvance
  split
  · exact h
  split
  · exact h
  dsimp only
  split
  · exact h
  split
  · rename_i hr
    have h1 := matStep_keeps.ok h hr
    split
    · exact .same h1 rfl endMat_settings rfl rfl
    · exact .same h1 rfl rfl rfl rfl
  · rename_i hr
    have h1 := matStep_keeps.error h hr
    exact ⟨h1.mem, fun l => ⟨(h.legal l).core.of_settings pauseMat_settings, (h1.legal l).others, (h1.legal l).saved⟩⟩
  · exact h

theorem execMatrixStep_keeps {e : Nat} : KeepsNext s (execMatrixStep e s) :=
  atCore_keeps (fun _ _ h => asCtx_keeps (fun _ h => matAdvance_keeps (settle_keeps h)) h)

theorem execMdrain_keeps {st : Fin 8} {d a b : Fin 32} : KeepsNext s (execMdrain st d a b s) := by
  refine issue_keeps ?_
  refine get_bind_keeps ?_
  refine legal_bind_keeps ?_
  refine bind_keeps capNeed_keeps ?_
  intro a1 s1
  split
  · split
    · refine bind_keeps raise_keeps ?_
      intro a2 s2
      refine need_bind_keeps ?_
      refine await_bind_keeps ?_
      refine bind_keeps countTask_keeps ?_
      intro a3 s3
      refine get_bind_keeps ?_
      split
      extract_lets j v1 s4
      have h4 : Keeps s3 s4 := by
        rename_i s' _ _
        refine .same (s := s') ?_ rfl rfl rfl rfl
        rename_i he
        exact .fst (openJob_keeps (.refl _)) he
      exact set_keeps (srDone_keeps (wx_keeps h4))
    · refine need_bind_keeps ?_
      refine await_bind_keeps ?_
      refine bind_keeps countTask_keeps ?_
      intro a2 s2
      refine get_bind_keeps ?_
      split
      extract_lets j v1 s3
      have h3 : Keeps s2 s3 := by
        rename_i s' _ _
        refine .same (s := s') ?_ rfl rfl rfl rfl
        rename_i he
        exact .fst (openJob_keeps (.refl _)) he
      exact set_keeps (srDone_keeps (wx_keeps h3))
  · split
    · refine bind_keeps raise_keeps ?_
      intro a2 s2
      refine need_bind_keeps ?_
      refine await_bind_keeps ?_
      refine get_bind_keeps ?_
      split
      extract_lets j v1 s3
      have h3 : Keeps s2 s3 := by
        rename_i s' _ _
        refine .same (s := s') ?_ rfl rfl rfl rfl
        rename_i he
        exact .fst (openJob_keeps (.refl _)) he
      exact set_keeps (srDone_keeps (wx_keeps h3))
    · refine need_bind_keeps ?_
      refine await_bind_keeps ?_
      refine get_bind_keeps ?_
      split
      extract_lets j v1 s2
      have h2 : Keeps s1 s2 := by
        rename_i s' _ _
        refine .same (s := s') ?_ rfl rfl rfl rfl
        rename_i he
        exact .fst (openJob_keeps (.refl _)) he
      exact set_keeps (srDone_keeps (wx_keeps h2))

theorem capture_keeps (h : Keeps s₀ s) : Keeps s₀ s.capture := by
  unfold State.capture
  split
  · exact h
  · split
    · exact h
    · split
      · exact h
      · extract_lets bs off ps s1
        have h1 : Keeps s₀ s1 := .same h rfl rfl rfl rfl
        exact foldl_keeps (fun s2 b h => sendFrom_keeps h) _ h1

theorem execDrainCapture_keeps {e : Nat} : KeepsNext s (execDrainCapture e s) :=
  atCore_keeps (fun _ _ h => asCtx_keeps (fun _ h => capture_keeps (settle_keeps h)) h)

theorem drainWake_keeps {j : MatJob} (h : Keeps s₀ s) : Keeps s₀ (s.drainWake j) := by
  unfold State.drainWake
  extract_lets here n pcc s1
  have h1 : Keeps s₀ s1 := .same h rfl rfl rfl rfl
  exact sendFrom_keeps h1

theorem drainEnd_keeps {j : MatJob} {status cause : Nat} (h : Keeps s₀ s) : Keeps s₀ (s.drainEnd j status cause) := by
  unfold State.drainEnd
  extract_lets s1
  have h1 : Keeps s₀ s1 := by
    unfold s1
    split
    · exact countDown_keeps h
    · exact h
  exact .same h1 rfl (by split <;> rfl) rfl rfl

theorem drainReply_keeps {ri status : Nat} (h : Keeps s₀ s) : Keeps s₀ (s.drainReply ri status) := by
  unfold State.drainReply
  split
  · exact h
  · split
    · extract_lets s1
      have h1 : Keeps s₀ s1 := by
        unfold s1
        split
        · exact countDown_keeps h
        · exact h
      exact drainEnd_keeps h1
    · extract_lets j s1
      have h1 : Keeps s₀ s1 := .same h rfl rfl rfl rfl
      split
      · exact h1
      · split
        · split
          · exact drainWake_keeps h1
          · exact drainEnd_keeps h1
        · split
          · exact drainEnd_keeps (smearPool_keeps h1)
          · exact drainEnd_keeps h1

theorem execMmode_keeps {st : Fin 8} {n : Nat} : KeepsNext s (execMmode st n s) := by
  refine issue_keeps ?_
  refine get_bind_keeps ?_
  split
  · refine await_bind_keeps ?_
    refine upd_keeps ?_
    intro s1
    split
    · exact .refl _
    · exact .same (.refl _) rfl rfl rfl rfl
  · refine upd_keeps ?_
    intro s1
    split
    · exact .refl _
    · exact .same (.refl _) rfl rfl rfl rfl

theorem execAccz_keeps {st : Fin 8} : KeepsNext s (execAccz st s) :=
  issue_keeps (get_bind_keeps (await_bind_keeps
      (upd_keeps (fun s1 => .same (s := s1.setAcc []) (setAcc_keeps (.refl _)) rfl rfl rfl rfl))))

theorem execMwait_keeps {st : Fin 8} {n : Nat} : KeepsNext s (execMwait st n s) := by
  refine issue_keeps ?_
  split
  · refine bind_keeps ?_ (fun a s1 => get_bind_keeps await_keeps)
    refine upd_keeps ?_
    intro s1
    split
    · exact .refl _
    · exact abandonMatrix_keeps (.refl _)
  · exact get_bind_keeps await_keeps

theorem execMnmb_keeps {st : Fin 8} {a : Fin 64} : KeepsNext s (execMnmb st a s) :=
  issue_keeps (get_bind_keeps (await_bind_keeps (upd_keeps (fun _ => .same (.refl _) rfl rfl rfl rfl))))

theorem execAccrd_keeps {st : Fin 8} {d : Fin 64} {a b : Fin 32} : KeepsNext s (execAccrd st d a b s) :=
  issue_keeps (get_bind_keeps (upd_keeps (fun _ => srDone_keeps (wx_keeps (wv_keeps (.refl _))))))

theorem execMtopk_keeps {st : Fin 8} {d : Fin 64} {k : Nat} : KeepsNext s (execMtopk st d k s) :=
  issue_keeps (get_bind_keeps (await_bind_keeps (upd_keeps (fun _ => foldl_keeps (fun _ _ h => wv_keeps h) _ (.refl _)))))

theorem tapeWait_keeps : KeepsAt tapeWait s :=
  get_bind_keeps await_keeps

theorem breakTape_keeps {ue : Bool} (h : Keeps s₀ s) : Keeps s₀ (s.breakTape ue) :=
  .same h rfl rfl rfl rfl

theorem tapeWrite_keeps {c : Cap} {va : Nat} {bs : List Byte} (h : Keeps s₀ s) : Keeps s₀ (s.tapeWrite c va bs) := by
  unfold State.tapeWrite
  split
  · refine breakTape_keeps ?_
    rename_i he
    exact KeepsAt.error segsOf_keeps h he
  · refine breakTape_keeps ?_
    rename_i he
    exact KeepsAt.error segsOf_keeps h he
  · refine foldl_fst_keeps (fun a b h => writeAs_keeps (dirty_keeps h)) _ ?_
    rename_i he
    exact KeepsAt.ok segsOf_keeps h he

theorem tapeRead_keeps {c : Cap} {va n : Nat} (h : Keeps s₀ s) : Keeps s₀ (s.tapeRead c va n).1 := by
  unfold State.tapeRead
  split
  · refine breakTape_keeps ?_
    rename_i he
    exact KeepsAt.error (bind_keeps segsOf_keeps (fun a s1 => bind_keeps errorNeed_keeps (fun a1 s2 => pure_keeps))) h he
  · refine breakTape_keeps ?_
    rename_i he
    exact KeepsAt.error (bind_keeps segsOf_keeps (fun a s1 => bind_keeps errorNeed_keeps (fun a1 s2 => pure_keeps))) h he
  · refine foldl_fst_keeps ?_ _ ?_
    · exact fun a b h => readAs_keeps (l2Fetch_keeps h)
    rename_i he
    exact KeepsAt.ok (bind_keeps segsOf_keeps (fun a s1 => bind_keeps errorNeed_keeps (fun a1 s2 => pure_keeps))) h he

theorem tapePut_keeps {off : Nat} {a2 : List Word} (h : Keeps s₀ s) : Keeps s₀ (s.tapePut off a2) := by
  induction a2 generalizing s off with
  | nil => exact h
  | cons x xs ih =>
    unfold State.tapePut
    dsimp only
    split
    · exact h
    · exact ih (tapeWrite_keeps h)

theorem tapeDone_keeps {x : TapeOut} (h : Keeps s₀ s) : Keeps s₀ (s.tapeDone x) := by
  unfold State.tapeDone
  extract_lets old full v1 v2 s1
  have h1 : Keeps s₀ s1 := .same h rfl rfl rfl rfl
  exact tapePut_keeps h1

theorem tapeFull_keeps {α : Type} : KeepsAt (tapeFull (α := α)) s :=
  get_bind_keeps raise_keeps

theorem tapeRecord_keeps {f : Tape → TapeOut} : KeepsAt (tapeRecord f) s := by
  refine get_bind_keeps ?_
  dsimp only
  split
  · exact await_bind_keeps (upd_keeps (fun s1 => tapeDone_keeps (.refl _)))
  · exact bind_keeps tapeFull_keeps (fun a s1 => await_bind_keeps (upd_keeps (fun s2 => tapeDone_keeps (.refl _))))

theorem spillNeed_keeps {root : Option Nat} {a1 : List (Nat × Nat)} : KeepsAt (spillNeed root a1) s := by
  induction a1 generalizing root s with
  | nil => exact pure_keeps
  | cons x xs ih =>
    refine get_bind_keeps ?_
    split
    · exact need_bind_keeps ih
    · exact ih

theorem regionNeed_keeps {a : Cap} {b : Option Cap} {ps : List Nat} {k : Machine.Acc} : KeepsAt (regionNeed a b ps k) s := by
  refine bind_keeps capNeed_keeps ?_
  intro a1 s1
  split
  · split
    · exact need_bind_keeps (get_bind_keeps (bind_keeps segsOf_keeps (fun a2 s2 => pure_keeps)))
    · exact bind_keeps capNeed_keeps (fun a2 s2 => need_bind_keeps
          (need_bind_keeps (get_bind_keeps (bind_keeps segsOf_keeps (fun a3 s3 => need_bind_keeps spillNeed_keeps)))))
  · split
    · exact need_bind_keeps (get_bind_keeps (bind_keeps segsOf_keeps (fun a2 s2 => pure_keeps)))
    · exact bind_keeps capNeed_keeps (fun a2 s2 => need_bind_keeps
          (need_bind_keeps (get_bind_keeps (bind_keeps segsOf_keeps (fun a3 s3 => need_bind_keeps spillNeed_keeps)))))

theorem execTbegin_keeps {st : Fin 8} {a b : Fin 32} : KeepsNext s (execTbegin st a b s) :=
  issue_keeps (unlessAhead_keeps (fun _ => get_bind_keeps
      (legal_bind_keeps (bind_keeps regionNeed_keeps
          (fun _ _ => upd_keeps (fun _ => edge_keeps (.same (.refl _) rfl rfl rfl rfl)))))))

theorem execTplay_keeps {st : Fin 8} {a b : Fin 32} : KeepsNext s (execTplay st a b s) :=
  issue_keeps (unlessAhead_keeps (fun _ => get_bind_keeps
      (legal_bind_keeps (bind_keeps regionNeed_keeps
          (fun _ _ => upd_keeps (fun _ => edge_keeps (.same (.refl _) rfl rfl rfl rfl)))))))

theorem diverge_keeps {α : Type} {typ : Nat} {playing malformed : Bool} {at_ : Nat} : KeepsAt
    (diverge (α := α) typ playing malformed at_) s :=
  raise_keeps

theorem checkWord_keeps {off : Nat} : KeepsAt (checkWord off) s := by
  refine get_bind_keeps ?_
  refine set_bind_keeps ?_ ?_
  · split
    · exact tapeRead_keeps (.refl _)
    · exact tapeRead_keeps (.refl _)
  · split
    · exact pure_keeps
    · exact tapeFull_keeps

theorem nextBits_keeps {off a1 : Nat} : KeepsAt (nextBits off a1) s := by
  induction a1 generalizing off s with
  | zero => exact diverge_keeps
  | succ n ih =>
    refine get_bind_keeps ?_
    dsimp only
    split
    · exact diverge_keeps
    · refine bind_keeps checkWord_keeps ?_
      intro a s1
      split
      · exact diverge_keeps
      · split
        · exact bind_keeps checkWord_keeps (fun a1 s2 => pure_keeps)
        · exact ih

theorem checkBit_keeps {b : Bool} : KeepsAt (checkBit b) s := by
  refine get_bind_keeps ?_
  dsimp only
  split
  · refine bind_keeps nextBits_keeps ?_
    intro a s1
    split
    · exact upd_keeps (fun s2 => .same (.refl _) rfl rfl rfl rfl)
    · exact diverge_keeps
  · refine bind_keeps pure_keeps ?_
    intro a s1
    split
    · exact upd_keeps (fun s2 => .same (.refl _) rfl rfl rfl rfl)
    · exact diverge_keeps

theorem recording_keeps {check rec_ : Op Unit} (hcheck : ∀ s, KeepsAt check s) (hrec_ : ∀ s, KeepsAt rec_ s) : KeepsAt
    (recording check rec_) s := by
  refine bind_keeps tapeWait_keeps ?_
  intro a s1
  refine get_bind_keeps ?_
  split
  · exact pure_keeps
  · exact pure_keeps
  · exact hrec_ _
  · exact hcheck _
  · exact legal_keeps
  · exact tapeFull_keeps

theorem execTrec_keeps {st : Fin 8} {a : Fin 32} : KeepsNext s (execTrec st a s) :=
  issue_keeps (unlessAhead_keeps (fun _ => get_bind_keeps
      (recording_keeps (fun _ => pure_keeps) (fun _ => tapeRecord_keeps))))

theorem execTrecb_keeps {st : Fin 8} {a : Fin 32} : KeepsNext s (execTrecb st a s) :=
  issue_keeps (unlessAhead_keeps (fun _ => get_bind_keeps
      (recording_keeps (fun _ => checkBit_keeps) (fun _ => tapeRecord_keeps))))

theorem execTrecv_keeps {st : Fin 8} {a : Fin 64} {n : Nat} : KeepsNext s (execTrecv st a n s) :=
  issue_keeps (unlessAhead_keeps (fun _ => recording_keeps (fun _ => pure_keeps)
      (fun _ => vecRun_keeps (fun _ _ => get_bind_keeps (bind_keeps tapeRecord_keeps (fun _ _ => pure_keeps))))))

theorem spillChunk_keeps {c n : Nat} (h : Keeps s₀ s) : Keeps s₀ (s.spillChunk c n) := by
  unfold State.spillChunk
  dsimp only
  split
  · exact h
  · split
    · exact h
    · split
      · refine tapeWrite_keeps ?_
        rename_i he
        exact .fst (tapeRead_keeps h) he
      · rename_i he
        exact .fst (tapeRead_keeps h) he

theorem endRecording_keeps (h : Keeps s₀ s) : Keeps s₀ s.endRecording := by
  unfold State.endRecording
  extract_lets s1 t s2
  have h1 : Keeps s₀ s1 := tapeDone_keeps h
  have h2 : Keeps s₀ s2 := foldl_keeps (fun s3 b h => spillChunk_keeps h) _ h1
  split
  · split
    · exact h2
    · exact spillChunk_keeps h2
  · exact h1

theorem tapeTo_keeps {st : TapeSt} (h : Keeps s₀ s) : Keeps s₀ (s.tapeTo st) :=
  .same h rfl rfl rfl rfl

theorem tendWait_keeps : KeepsAt tendWait s := by
  refine get_bind_keeps ?_
  split
  · exact bind_keeps (upd_keeps (fun s1 => setCtx_keeps (.refl _))) (fun a s1 => waitHere_keeps)
  · exact pure_keeps

theorem tendWait_state (x : Unit) (t : State) (h : tendWait s = .ok x t) : t = s := by
  unfold tendWait at h
  rw [bind_ok (get_run s)] at h
  split at h
  · cases h
  · cases h
    rfl

theorem execTend_keeps {st : Fin 8} {d : Fin 32} : KeepsNext s (execTend st d s) := by
  refine issue_keeps ?_
  refine unlessAhead_keeps ?_
  intro s1
  refine get_bind_keeps ?_
  refine legal_bind_keeps ?_
  refine check_bind_keeps tendWait_keeps tendWait_state ?_
  intro a
  split
  · extract_lets s2 s3
    have h2 : Keeps s1 s2 := edge_keeps (.refl _)
    have h3 : Keeps s1 s3 := edge_keeps (endRecording_keeps h2)
    split
    · exact set_keeps (wx_keeps (tapeTo_keeps h3))
    · exact set_keeps (wx_keeps (tapeTo_keeps h3))
  · extract_lets s2
    have h2 : Keeps s1 s2 := edge_keeps (.refl _)
    exact set_keeps (wx_keeps (tapeTo_keeps h2))
  · extract_lets s2
    have h2 : Keeps s1 s2 := edge_keeps (.refl _)
    exact set_keeps (wx_keeps (tapeTo_keeps h2))
  · extract_lets s2
    have h2 : Keeps s1 s2 := edge_keeps (.refl _)
    exact set_keeps (wx_keeps (tapeTo_keeps h2))

theorem playWords_keeps {off n : Nat} : KeepsAt (playWords off n) s := by
  refine get_bind_keeps ?_
  dsimp only
  split
  · refine await_bind_keeps ?_
    refine foldlM_keeps ?_ _
    intro a b s1
    refine get_bind_keeps ?_
    refine set_bind_keeps (tapeRead_keeps (.refl _)) ?_
    split
    · exact pure_keeps
    · exact tapeFull_keeps
  · refine foldlM_keeps ?_ _
    intro a b s1
    refine get_bind_keeps ?_
    refine set_bind_keeps (tapeRead_keeps (.refl _)) ?_
    split
    · exact pure_keeps
    · exact tapeFull_keeps

theorem loadRecord_keeps {a0 : Tape} : KeepsAt (loadRecord a0) s := by
  refine bind_keeps playWords_keeps ?_
  intro a s1
  split
  · dsimp only
    split
    · exact diverge_keeps
    · refine bind_keeps playWords_keeps ?_
      intro a1 s2
      split
      · exact diverge_keeps
      · split
        · exact pure_keeps
        · exact pure_keeps
        · exact diverge_keeps
        · exact pure_keeps
        · exact pure_keeps
  · dsimp only
    split
    · exact diverge_keeps
    · refine bind_keeps playWords_keeps ?_
      intro a1 s2
      split
      · exact diverge_keeps
      · split
        · exact pure_keeps
        · exact pure_keeps
        · exact pure_keeps
        · exact pure_keeps
        · exact pure_keeps

theorem nextItem_keeps {a0 : Tape} {a1 : Nat} : KeepsAt (nextItem a0 a1) s := by
  induction a1 generalizing a0 s with
  | zero => exact pure_keeps
  | succ n ih =>
    unfold nextItem
    split
    · split
      · exact pure_keeps
      · exact pure_keeps
    · split
      · split
        · refine bind_keeps pure_keeps ?_
          intro a s1
          dsimp only
          split
          · exact pure_keeps
          · exact pure_keeps
        · refine bind_keeps pure_keeps ?_
          intro a s1
          dsimp only
          split
          · exact pure_keeps
          · exact pure_keeps
      · split
        · refine bind_keeps pure_keeps ?_
          intro a s1
          dsimp only
          split
          · exact pure_keeps
          · exact bind_keeps loadRecord_keeps (fun a1 s2 => ih)
        · refine bind_keeps playWords_keeps ?_
          intro a s1
          refine bind_keeps pure_keeps ?_
          intro a1 s2
          dsimp only
          split
          · exact pure_keeps
          · exact bind_keeps loadRecord_keeps (fun a2 s3 => ih)

theorem pop_keeps {f : Item → Op Bool} (hf : ∀ a0 s, KeepsAt (f a0) s) : KeepsAt (pop f) s := by
  refine bind_keeps tapeWait_keeps ?_
  intro a s1
  refine get_bind_keeps ?_
  dsimp only
  split
  · refine bind_keeps nextItem_keeps ?_
    intro a1 s2
    refine bind_keeps (hf _ _) ?_
    intro a2 s3
    split
    · exact upd_keeps (fun s4 => .same (.refl _) rfl rfl rfl rfl)
    · exact diverge_keeps
  · exact tapeFull_keeps
  · exact legal_keeps

theorem popOca_keeps {d : Fin 32} {fin : Bool} {first : Nat} {finw : Word} {es : List Word} : KeepsAt
    (popOca d fin first finw es) s := by
  refine get_bind_keeps ?_
  refine need_bind_keeps ?_
  split
  · exact bind_keeps raise_keeps (fun a s1 => bind_keeps segsOf_keeps
        (fun a1 s2 => bind_keeps goodNeed_keeps
            (fun a2 s3 => bind_keeps watchNeed_keeps
                (fun a3 s4 => upd_keeps (fun s5 => wx_keeps (storeSegs_keeps (.refl _)))))))
  · exact bind_keeps segsOf_keeps (fun a s1 => bind_keeps goodNeed_keeps
        (fun a1 s2 => bind_keeps watchNeed_keeps (fun a2 s3 => upd_keeps (fun s4 => wx_keeps (storeSegs_keeps (.refl _))))))

theorem execTpop_keeps {st : Fin 8} {d : Fin 32} {n : Nat} : KeepsNext s (execTpop st d n s) := by
  refine issue_keeps ?_
  refine unlessAhead_keeps ?_
  intro s1
  refine pop_keeps ?_
  intro a s2
  split
  · split
    · split
      · exact get_bind_keeps (legal_bind_keeps (bind_keeps (upd_keeps (fun s3 => wx_keeps (.refl _))) (fun a s3 => pure_keeps)))
      · exact bind_keeps (upd_keeps (fun s3 => wx_keeps (.refl _))) (fun a s3 => pure_keeps)
    · split
      · exact get_bind_keeps (legal_bind_keeps pure_keeps)
      · exact pure_keeps
  · split
    · exact get_bind_keeps (legal_bind_keeps (bind_keeps popOca_keeps (fun a s3 => pure_keeps)))
    · exact pure_keeps
  · split
    · exact get_bind_keeps (legal_bind_keeps pure_keeps)
    · exact pure_keeps

theorem execTpopb_keeps {st : Fin 8} {d : Fin 32} : KeepsNext s (execTpopb st d s) := by
  refine issue_keeps ?_
  refine unlessAhead_keeps ?_
  intro s1
  refine pop_keeps ?_
  intro a s2
  split
  · exact bind_keeps (upd_keeps (fun s3 => wx_keeps (.refl _))) (fun a s3 => pure_keeps)
  · exact pure_keeps

theorem execTpopv_keeps {st : Fin 8} {d : Fin 64} {n : Nat} : KeepsNext s (execTpopv st d n s) := by
  refine issue_keeps ?_
  refine unlessAhead_keeps ?_
  intro s1
  refine pop_keeps ?_
  intro a s2
  split
  · split
    · split
      · exact bind_keeps (upd_keeps (fun s3 => wv_keeps (wv_keeps (.refl _)))) (fun a s3 => pure_keeps)
      · exact bind_keeps (vecRun_keeps (fun a s3 => pure_keeps)) (fun a s3 => pure_keeps)
    · exact pure_keeps
  · exact pure_keeps

theorem execTstat_keeps {st : Fin 8} {d : Fin 32} {n : Nat} : KeepsNext s (execTstat st d n s) :=
  issue_keeps (unlessAhead_keeps (fun _ => upd_keeps (fun _ => wx_keeps (.refl _))))

theorem flushOca_keeps {fin : Bool} (h : Keeps s₀ s) : Keeps s₀ (s.flushOca fin) := by
  unfold State.flushOca
  split
  extract_lets v1 s1
  have h1 : Keeps s₀ s1 := by
    unfold s1
    split
    · exact setCtx_keeps h
    · exact h
  split
  · exact tapeDone_keeps h1
  · exact h1

theorem execSpillWrite_keeps {e : Nat} : KeepsNext s (execSpillWrite e s) := by
  refine atCore_keeps ?_
  intro _ s1 h
  split
  · dsimp only
    split
    · exact h
    · exact h
  · dsimp only
    split
    · exact spillChunk_keeps (.same h rfl rfl rfl rfl)
    · exact h

theorem execChunkFetch_keeps {e : Nat} : KeepsNext s (execChunkFetch e s) := by
  refine atCore_keeps ?_
  intro _ s1 h
  dsimp only
  split
  · exact h
  · split
    · split
      · rename_i s' bs _
        refine .same (s := s'.tapeWrite s1.core.tape.region (s1.core.tape.at_ (4096 * (s1.core.tape.fetched - 1))) bs) ?_
            rfl rfl rfl rfl
        refine tapeWrite_keeps ?_
        rename_i he
        exact .fst (tapeRead_keeps h) he
      · rename_i he
        exact .fst (tapeRead_keeps h) he
    · exact h

theorem nanMet_keeps {b : Bool} (h : Keeps s₀ s) : Keeps s₀ (s.nanMet b) := by
  unfold State.nanMet
  split
  · exact .same h rfl rfl rfl rfl
  · exact h

theorem trestle_keeps {st : Nat} {d : Fin 64} {srcs payOf : List (Fin 64)} {ill idx : Bool} {keys : List (Fin 64)}
    {f : State → (Fin 64 → VReg) → VReg × VReg} : KeepsNext s (trestle st d srcs payOf ill idx keys f s) := by
  refine issue_keeps ?_
  refine vecRun_keeps ?_
  intro a s1
  refine get_bind_keeps ?_
  refine bind_keeps (upd_keeps (fun s2 => nanMet_keeps (.refl _))) ?_
  intro a1 s2
  split
  · exact bind_keeps (upd_keeps (fun s3 => wv_keeps (wv_keeps (.refl _)))) (fun a2 s3 => pure_keeps)
  · exact pure_keeps

theorem execVsort_keeps {st : Fin 8} {d a b : Fin 64} : KeepsNext s (execVsort st d a b s) := by
  unfold execVsort
  exact trestle_keeps

theorem execVtopk_keeps {st : Fin 8} {d a b : Fin 64} : KeepsNext s (execVtopk st d a b s) := by
  unfold execVtopk
  exact trestle_keeps

theorem execVsortx_keeps {st : Fin 8} {d a b : Fin 64} : KeepsNext s (execVsortx st d a b s) := by
  unfold execVsortx
  exact trestle_keeps

theorem execVmergek_keeps {st : Fin 8} {d a b : Fin 64} : KeepsNext s (execVmergek st d a b s) := by
  unfold execVmergek
  exact trestle_keeps

theorem execVrank_keeps {st : Fin 8} {d a : Fin 64} : KeepsNext s (execVrank st d a s) := by
  unfold execVrank
  exact trestle_keeps

theorem execVbstep_keeps {st : Fin 8} {d a b : Fin 64} : KeepsNext s (execVbstep st d a b s) := by
  unfold execVbstep
  exact trestle_keeps

theorem emit_keeps {h' : Word} {ws : List Nat} : KeepsAt (emit h' ws) s := by
  refine get_bind_keeps ?_
  refine need_bind_keeps ?_
  split
  · exact pure_keeps
  · exact bind_keeps takeSlots_keeps (fun a s1 => upd_keeps (fun s2 => foldl_keeps (fun s3 b h => sendMsg_keeps h) _ (.refl _)))

theorem emitNeed_keeps {h' : Word} : KeepsAt (emitNeed h') s :=
  get_bind_keeps need_keeps

theorem execOcemit_keeps {st : Fin 8} {d : Fin 32} {a : Fin 64} : KeepsNext s (execOcemit st d a s) :=
  issue_keeps (get_bind_keeps (bind_keeps emitNeed_keeps
      (fun _ _ => need_bind_keeps (vecRun_keeps
          (fun _ _ => bind_keeps emit_keeps
              (fun _ _ => bind_keeps (upd_keeps (fun _ => nanMet_keeps (.refl _))) (fun _ _ => pure_keeps)))))))

theorem execOcemiti_keeps {st : Fin 8} {d : Fin 32} {a b : Fin 64} : KeepsNext s (execOcemiti st d a b s) := by
  refine issue_keeps ?_
  refine get_bind_keeps ?_
  refine bind_keeps emitNeed_keeps ?_
  intro a1 s1
  refine vecRun_keeps ?_
  intro a2 s2
  split
  · dsimp only
    split
    · exact raise_keeps
    · exact bind_keeps emit_keeps (fun a3 s3 => bind_keeps (upd_keeps (fun s4 => nanMet_keeps (.refl _)))
          (fun a4 s4 => pure_keeps))
  · dsimp only
    split
    · exact raise_keeps
    · exact bind_keeps emit_keeps (fun a3 s3 => bind_keeps (upd_keeps (fun s4 => nanMet_keeps (.refl _)))
          (fun a4 s4 => pure_keeps))

theorem ocReset_keeps (h : Keeps s₀ s) : Keeps s₀ s.ocReset := by
  unfold State.ocReset
  extract_lets r mark v1 s1
  have h1 : Keeps s₀ s1 := .same h rfl rfl rfl rfl
  exact foldl_keeps (fun s2 b h => drainAll_keeps h) _ h1

theorem execOcrst_keeps {st : Fin 8} : KeepsNext s (execOcrst st s) := by
  refine issue_keeps ?_
  refine upd_keeps ?_
  intro s1
  split
  · exact ocReset_keeps (.refl _)
  · exact .refl _

theorem extentNeed_keeps {c : Cap} {ps : List Nat} {n : Nat} {k : Machine.Acc} : KeepsAt (extentNeed c ps n k) s :=
  bind_keeps capNeed_keeps (fun _ _ => get_bind_keeps segsOf_keeps)

theorem execOccfg_keeps {st : Fin 8} {d a b : Fin 32} : KeepsNext s (execOccfg st d a b s) := by
  refine issue_keeps ?_
  refine get_bind_keeps ?_
  dsimp only
  split
  · refine bind_keeps raise_keeps ?_
    intro a1 s1
    refine bind_keeps access_keeps ?_
    intro a2 s2
    split
    · refine bind_keeps pure_keeps ?_
      intro a3 s3
      refine bind_keeps extentNeed_keeps ?_
      intro a4 s4
      refine get_bind_keeps ?_
      split
      · refine bind_keeps raise_keeps ?_
        intro a5 s5
        refine bind_keeps loadSegs_keeps ?_
        intro a6 s6
        refine upd_keeps ?_
        intro s7
        refine .same (s := if s7.core.oc.cfg = true then s7.ocReset else s7) ?_ rfl rfl rfl rfl
        split
        · exact ocReset_keeps (.refl _)
        · exact .refl _
      · refine bind_keeps loadSegs_keeps ?_
        intro a5 s5
        refine upd_keeps ?_
        intro s6
        refine .same (s := if s6.core.oc.cfg = true then s6.ocReset else s6) ?_ rfl rfl rfl rfl
        split
        · exact ocReset_keeps (.refl _)
        · exact .refl _
    · refine bind_keeps extentNeed_keeps ?_
      intro a3 s3
      refine bind_keeps extentNeed_keeps ?_
      intro a4 s4
      refine get_bind_keeps ?_
      split
      · refine bind_keeps raise_keeps ?_
        intro a5 s5
        refine bind_keeps loadSegs_keeps ?_
        intro a6 s6
        refine upd_keeps ?_
        intro s7
        refine .same (s := if s7.core.oc.cfg = true then s7.ocReset else s7) ?_ rfl rfl rfl rfl
        split
        · exact ocReset_keeps (.refl _)
        · exact .refl _
      · refine bind_keeps loadSegs_keeps ?_
        intro a5 s5
        refine upd_keeps ?_
        intro s6
        refine .same (s := if s6.core.oc.cfg = true then s6.ocReset else s6) ?_ rfl rfl rfl rfl
        split
        · exact ocReset_keeps (.refl _)
        · exact .refl _
  · refine bind_keeps access_keeps ?_
    intro a1 s1
    split
    · refine bind_keeps pure_keeps ?_
      intro a2 s2
      refine bind_keeps extentNeed_keeps ?_
      intro a3 s3
      refine get_bind_keeps ?_
      split
      · refine bind_keeps raise_keeps ?_
        intro a4 s4
        refine bind_keeps loadSegs_keeps ?_
        intro a5 s5
        refine upd_keeps ?_
        intro s6
        refine .same (s := if s6.core.oc.cfg = true then s6.ocReset else s6) ?_ rfl rfl rfl rfl
        split
        · exact ocReset_keeps (.refl _)
        · exact .refl _
      · refine bind_keeps loadSegs_keeps ?_
        intro a4 s4
        refine upd_keeps ?_
        intro s5
        refine .same (s := if s5.core.oc.cfg = true then s5.ocReset else s5) ?_ rfl rfl rfl rfl
        split
        · exact ocReset_keeps (.refl _)
        · exact .refl _
    · refine bind_keeps extentNeed_keeps ?_
      intro a2 s2
      refine bind_keeps extentNeed_keeps ?_
      intro a3 s3
      refine get_bind_keeps ?_
      split
      · refine bind_keeps raise_keeps ?_
        intro a4 s4
        refine bind_keeps loadSegs_keeps ?_
        intro a5 s5
        refine upd_keeps ?_
        intro s6
        refine .same (s := if s6.core.oc.cfg = true then s6.ocReset else s6) ?_ rfl rfl rfl rfl
        split
        · exact ocReset_keeps (.refl _)
        · exact .refl _
      · refine bind_keeps loadSegs_keeps ?_
        intro a4 s4
        refine upd_keeps ?_
        intro s5
        refine .same (s := if s5.core.oc.cfg = true then s5.ocReset else s5) ?_ rfl rfl rfl rfl
        split
        · exact ocReset_keeps (.refl _)
        · exact .refl _

theorem padArea_keeps {va n : Nat} {k : Machine.Acc} : KeepsAt (padArea va n k) s := by
  refine get_bind_keeps ?_
  refine bind_keeps segsOf_keeps ?_
  intro a s1
  refine get_bind_keeps ?_
  split
  · exact raise_keeps
  · exact pure_keeps

theorem padSegs_keeps {va n : Nat} {k : Machine.Acc} : KeepsAt (padSegs va n k) s :=
  bind_keeps padArea_keeps (fun _ _ => bind_keeps goodNeed_keeps
      (fun _ _ => bind_keeps watchNeed_keeps (fun _ _ => pure_keeps)))

theorem padLoad_keeps {va n esz : Nat} : KeepsAt (padLoad va n esz) s :=
  bind_keeps padSegs_keeps (fun _ _ => loadSegs_keeps)

theorem loadF_keeps {k : Nat} : KeepsAt (loadF k) s := by
  refine get_bind_keeps ?_
  dsimp only
  split
  · exact pure_keeps
  · exact bind_keeps padLoad_keeps (fun a s1 => pure_keeps)

theorem loadRest_keeps {k : Nat} : KeepsAt (loadRest k) s := by
  refine get_bind_keeps ?_
  dsimp only
  split
  · exact pure_keeps
  · exact bind_keeps padLoad_keeps (fun a s1 => pure_keeps)

theorem mapOc_keeps {f : Receiver → Receiver} (h : Keeps s₀ s) : Keeps s₀ (s.mapOc f) :=
  .same h rfl rfl rfl rfl

theorem ocEnd_keeps {st : Nat} {v : VReg} (h : Keeps s₀ s) : Keeps s₀ (s.ocEnd st v) :=
  mapOc_keeps h

theorem ocRoom_keeps {first : Nat} {es : List Word} : KeepsAt (ocRoom first es) s := by
  refine get_bind_keeps ?_
  dsimp only
  split
  · split
    · exact await_keeps
    · exact bind_keeps tapeFull_keeps (fun a s1 => await_keeps)
  · exact pure_keeps

theorem consumeEvent_keeps {d : Fin 64} {w : Nat} : KeepsAt (consumeEvent d w) s := by
  refine get_bind_keeps ?_
  refine need_bind_keeps ?_
  refine bind_keeps ocRoom_keeps ?_
  intro a s1
  refine bind_keeps padSegs_keeps ?_
  intro a1 s2
  refine bind_keeps padSegs_keeps ?_
  intro a2 s3
  refine bind_keeps loadF_keeps ?_
  intro a3 s4
  split
  · split
    · exact bind_keeps loadRest_keeps (fun a4 s5 => bind_keeps loadSegs_keeps
          (fun a5 s6 => bind_keeps (upd_keeps
              (fun s7 => setCtx_keeps (mapOc_keeps
                  (takeWord_keeps (storeSegs_keeps (wv_keeps (joinSlot_keeps (.refl _)))))))) (fun a6 s7 => pure_keeps)))
    · exact bind_keeps pure_keeps (fun a4 s5 => bind_keeps loadSegs_keeps
          (fun a5 s6 => bind_keeps (upd_keeps
              (fun s7 => setCtx_keeps (mapOc_keeps
                  (takeWord_keeps (storeSegs_keeps (wv_keeps (joinSlot_keeps (.refl _)))))))) (fun a6 s7 => pure_keeps)))
  · split
    · exact bind_keeps loadRest_keeps (fun a4 s5 => bind_keeps loadSegs_keeps
          (fun a5 s6 => bind_keeps (upd_keeps
              (fun s7 => setCtx_keeps (mapOc_keeps
                  (takeWord_keeps (storeSegs_keeps (wv_keeps (joinSlot_keeps (.refl _)))))))) (fun a6 s7 => pure_keeps)))
    · exact bind_keeps pure_keeps (fun a4 s5 => bind_keeps loadSegs_keeps
          (fun a5 s6 => bind_keeps (upd_keeps
              (fun s7 => setCtx_keeps (mapOc_keeps
                  (takeWord_keeps (storeSegs_keeps (wv_keeps (joinSlot_keeps (.refl _)))))))) (fun a6 s7 => pure_keeps)))

theorem ocLoop_keeps {d : Fin 64} {a1 : Nat} : KeepsAt (ocLoop d a1) s := by
  induction a1 generalizing d s with
  | zero => exact pure_keeps
  | succ n ih =>
    refine get_bind_keeps ?_
    split
    split
    · dsimp only
      split
      · exact bind_keeps (upd_keeps (fun s1 => ocEnd_keeps (.refl _))) (fun a s1 => pure_keeps)
      · split
        · exact bind_keeps (upd_keeps (fun s1 => mapOc_keeps (.refl _))) (fun a s1 => ih)
        · split
          · exact waitHere_keeps
          · split
            · split
              · exact bind_keeps ocRoom_keeps
                    (fun a s1 => bind_keeps (upd_keeps (fun s2 => mapOc_keeps (takeWord_keeps (.refl _)))) (fun a1 s2 => ih))
              · exact bind_keeps (upd_keeps (fun s1 => mapOc_keeps (takeWord_keeps (.refl _)))) (fun a s1 => ih)
            · exact pure_keeps
    · dsimp only
      split
      · exact bind_keeps (upd_keeps (fun s1 => ocEnd_keeps (.refl _))) (fun a s1 => pure_keeps)
      · split
        · exact bind_keeps (upd_keeps (fun s1 => mapOc_keeps (.refl _))) (fun a s1 => ih)
        · split
          · exact waitHere_keeps
          · split
            · split
              · exact bind_keeps ocRoom_keeps
                    (fun a s1 => bind_keeps (upd_keeps (fun s2 => mapOc_keeps (takeWord_keeps (.refl _)))) (fun a1 s2 => ih))
              · exact bind_keeps (upd_keeps (fun s1 => mapOc_keeps (takeWord_keeps (.refl _)))) (fun a s1 => ih)
            · refine bind_keeps consumeEvent_keeps ?_
              intro a s1
              refine get_bind_keeps ?_
              split
              · exact set_bind_keeps (ocEnd_keeps (.refl _)) pure_keeps
              · exact waitHere_keeps

theorem execOcacc_keeps {st : Fin 8} {d : Fin 64} : KeepsNext s (execOcacc st d s) := by
  unfold execOcacc
  extract_lets u g s1
  have h1 : Keeps s s1 := by
    unfold s1
    split
    · exact flushOca_keeps (.refl _)
    · exact .refl _
  refine .from h1 (issue_keeps ?_)
  refine get_bind_keeps ?_
  refine legal_bind_keeps ?_
  split
  · exact pure_keeps
  · split
    · refine set_keeps ?_
      refine flushOca_keeps ?_
      rename_i he
      exact KeepsAt.ok ocLoop_keeps (.refl _) he
    · refine set_bind_keeps ?_ waitHere_keeps
      rename_i he
      exact KeepsAt.error ocLoop_keeps (.refl _) he
    · refine set_bind_keeps ?_ throw_keeps
      refine flushOca_keeps ?_
      rename_i he
      exact KeepsAt.error ocLoop_keeps (.refl _) he

theorem ocStat_keeps {h' : Nat} : KeepsAt (ocStat h') s := by
  refine get_bind_keeps ?_
  split
  · exact pure_keeps
  · exact pure_keeps
  · exact pure_keeps
  · dsimp only
    split
    · exact bind_keeps loadRest_keeps (fun a s1 => pure_keeps)
    · exact pure_keeps
  · exact pure_keeps

theorem execOcstat_keeps {st : Fin 8} {d : Fin 32} {h' : Nat} : KeepsNext s (execOcstat st d h' s) :=
  issue_keeps (bind_keeps ocStat_keeps (fun _ _ => upd_keeps (fun _ => wx_keeps (.refl _))))

theorem gradLoad_keeps {va n : Nat} : KeepsAt (gradLoad va n) s :=
  bind_keeps padArea_keeps (fun _ _ => bind_keeps errorNeed_keeps (fun _ _ => loadSegs_keeps))

theorem gradF_keeps {k : Nat} : KeepsAt (gradF k) s := by
  refine get_bind_keeps ?_
  dsimp only
  split
  · exact pure_keeps
  · exact bind_keeps gradLoad_keeps (fun a s1 => pure_keeps)

theorem gradPut_keeps {gs : List Seg} {o : Nat} {f : Option (Val → Val)} {v : Val} : KeepsAt (gradPut gs o f v) s := by
  unfold gradPut
  split
  · exact upd_keeps (fun s1 => storeSegs_keeps (.refl _))
  · exact bind_keeps errorNeed_keeps (fun a s1 => bind_keeps loadSegs_keeps
        (fun a1 s2 => upd_keeps (fun s3 => storeSegs_keeps (.refl _))))

theorem gradRow_keeps {gs : List Seg} {e : Word} {f : Val} {delta : VReg} {a4 : List Nat} : KeepsAt
    (gradRow gs e f delta a4) s := by
  induction a4 generalizing gs e f delta s with
  | nil => exact pure_keeps
  | cons x xs ih => exact bind_keeps gradPut_keeps (fun a s1 => ih)

theorem readsNeed_keeps {a0 : List (Nat × Nat)} : KeepsAt (readsNeed a0) s := by
  induction a0 generalizing s with
  | nil => exact pure_keeps
  | cons x xs ih => exact bind_keeps padArea_keeps (fun a s1 => bind_keeps watchNeed_keeps (fun a1 s2 => ih))

theorem touchNeed_keeps {gs : List Seg} {a : Nat} {loads : Bool} {a3 : List Nat} : KeepsAt (touchNeed gs a loads a3) s := by
  induction a3 generalizing gs a loads s with
  | nil => exact pure_keeps
  | cons x xs ih =>
    refine get_bind_keeps ?_
    refine await_bind_keeps ?_
    split
    · exact bind_keeps watchNeed_keeps (fun a1 s1 => bind_keeps watchNeed_keeps (fun a2 s2 => ih))
    · exact bind_keeps watchNeed_keeps (fun a1 s1 => ih)

theorem gradEntry_keeps {g : Grad} {gs : List Seg} {delta : VReg} {e : Word} : KeepsAt (gradEntry g gs delta e) s := by
  refine get_bind_keeps ?_
  split
  · exact bind_keeps gradF_keeps (fun a s1 => gradRow_keeps)
  · exact bind_keeps gradLoad_keeps (fun a s1 => bind_keeps gradF_keeps (fun a1 s2 => gradPut_keeps))
  · dsimp only
    split
    · exact bind_keeps gradLoad_keeps (fun a s1 => gradPut_keeps)
    · exact pure_keeps

theorem gradEntries_keeps {g : Grad} {gs : List Seg} {delta : VReg} {a3 : List Word} : KeepsAt (gradEntries g gs delta a3) s :=
    by
  induction a3 generalizing g gs delta s with
  | nil => exact pure_keeps
  | cons x xs ih => exact bind_keeps gradEntry_keeps (fun a s1 => ih)

theorem gradient_keeps {g : Grad} {st : Nat} {a : Fin 32} {b : Fin 64} : KeepsNext s (Machine.gradient g st a b s) := by
  refine issue_keeps ?_
  refine get_bind_keeps ?_
  refine legal_bind_keeps ?_
  refine bind_keeps padLoad_keeps ?_
  intro a1 s1
  split
  split
  · split
    · dsimp only
      split
      · exact bind_keeps raise_keeps (fun a2 s2 => bind_keeps pure_keeps
            (fun a3 s3 => bind_keeps readsNeed_keeps
                (fun a4 s4 => bind_keeps touchNeed_keeps
                    (fun a5 s5 => vecRun_keeps
                        (fun a6 s6 => bind_keeps (upd_keeps (fun s7 => storeSegs_keeps (.refl _)))
                            (fun a7 s7 => bind_keeps gradEntries_keeps (fun a8 s8 => pure_keeps)))))))
      · exact bind_keeps pure_keeps (fun a2 s2 => bind_keeps readsNeed_keeps
            (fun a3 s3 => bind_keeps touchNeed_keeps
                (fun a4 s4 => vecRun_keeps (fun a5 s5 => bind_keeps (upd_keeps (fun s6 => storeSegs_keeps (.refl _)))
                    (fun a6 s6 => bind_keeps gradEntries_keeps (fun a7 s7 => pure_keeps))))))
    · dsimp only
      split
      · exact bind_keeps raise_keeps (fun a2 s2 => bind_keeps extentNeed_keeps
            (fun a3 s3 => bind_keeps readsNeed_keeps
                (fun a4 s4 => bind_keeps touchNeed_keeps
                    (fun a5 s5 => vecRun_keeps
                        (fun a6 s6 => bind_keeps (upd_keeps (fun s7 => storeSegs_keeps (.refl _)))
                            (fun a7 s7 => bind_keeps gradEntries_keeps (fun a8 s8 => pure_keeps)))))))
      · exact bind_keeps extentNeed_keeps (fun a2 s2 => bind_keeps readsNeed_keeps
            (fun a3 s3 => bind_keeps touchNeed_keeps
                (fun a4 s4 => vecRun_keeps (fun a5 s5 => bind_keeps (upd_keeps (fun s6 => storeSegs_keeps (.refl _)))
                    (fun a6 s6 => bind_keeps gradEntries_keeps (fun a7 s7 => pure_keeps))))))
  · split
    · dsimp only
      split
      · exact bind_keeps raise_keeps (fun a2 s2 => bind_keeps pure_keeps
            (fun a3 s3 => bind_keeps readsNeed_keeps
                (fun a4 s4 => bind_keeps touchNeed_keeps
                    (fun a5 s5 => vecRun_keeps (fun a6 s6 => bind_keeps gradEntries_keeps (fun a7 s7 => pure_keeps))))))
      · exact bind_keeps pure_keeps (fun a2 s2 => bind_keeps readsNeed_keeps
            (fun a3 s3 => bind_keeps touchNeed_keeps
                (fun a4 s4 => vecRun_keeps (fun a5 s5 => bind_keeps gradEntries_keeps (fun a6 s6 => pure_keeps)))))
    · dsimp only
      split
      · exact bind_keeps raise_keeps (fun a2 s2 => bind_keeps extentNeed_keeps
            (fun a3 s3 => bind_keeps readsNeed_keeps
                (fun a4 s4 => bind_keeps touchNeed_keeps
                    (fun a5 s5 => vecRun_keeps (fun a6 s6 => bind_keeps gradEntries_keeps (fun a7 s7 => pure_keeps))))))
      · exact bind_keeps extentNeed_keeps (fun a2 s2 => bind_keeps readsNeed_keeps
            (fun a3 s3 => bind_keeps touchNeed_keeps
                (fun a4 s4 => vecRun_keeps (fun a5 s5 => bind_keeps gradEntries_keeps (fun a6 s6 => pure_keeps)))))

theorem execOcgw_keeps {st : Fin 8} {a : Fin 32} {b : Fin 64} : KeepsNext s (execOcgw st a b s) :=
  gradient_keeps

theorem execOcga_keeps {st : Fin 8} {a : Fin 32} {b : Fin 64} : KeepsNext s (execOcga st a b s) :=
  gradient_keeps

theorem execOcgf_keeps {st : Fin 8} {a : Fin 32} {b : Fin 64} : KeepsNext s (execOcgf st a b s) :=
  gradient_keeps

theorem msgReply_keeps {r : RemOp} {ri status : Nat} (h : Keeps s₀ s) : Keeps s₀ (s.msgReply r ri status) := by
  unfold State.msgReply
  extract_lets k s1
  have h1 : Keeps s₀ s1 := by
    unfold s1
    split
    · exact countDown_keeps h
    · exact h
  exact .same h1 rfl rfl rfl rfl

theorem jobReply_keeps {r : RemOp} {cls ri status : Nat} {data : List Byte} (h : Keeps s₀ s) : Keeps s₀
    (s.jobReply r cls ri status data) := by
  unfold State.jobReply
  extract_lets s1 s2
  have h1 : Keeps s₀ s1 := .same h rfl rfl rfl rfl
  have h2 : Keeps s₀ s2 := by
    unfold s2
    split
    · exact edge_keeps h1
    · exact h1
  split
  · exact msgReply_keeps h2
  · split
    · exact drainReply_keeps h2
    · split
      · exact copyReply_keeps h2
      · exact h2

theorem queryReply_keeps {r : RemOp} {status : Nat} {data : List Byte} (h : Keeps s₀ s) : Keeps s₀
    (s.queryReply r status data) := by
  unfold State.queryReply
  extract_lets w s1 now
  have h1 : Keeps s₀ s1 := by
    unfold s1
    split
    · exact h
    · exact .same h rfl rfl rfl rfl
  exact .same h1 rfl mapCtxNo_settings rfl rfl

theorem unwait_keeps {r : RemOp} (h : Keeps s₀ s) : Keeps s₀ (s.unwait r) := by
  unfold State.unwait
  dsimp only
  split
  · exact setTx_keeps h
  · exact h

theorem opReply_keeps {r : RemOp} {status : Nat} {data : List Byte} (h : Keeps s₀ s) : Keeps s₀ (s.opReply r status data) := by
  unfold State.opReply
  extract_lets s1 s2
  have h1 : Keeps s₀ s1 := by
    unfold s1
    split
    · exact h
    · exact unwait_keeps h
  have h2 : Keeps s₀ s2 := closeOp_keeps h1
  split
  · exact jobReply_keeps h1
  · split
    · exact gstDone_keeps h1
    · split
      · exact .same h2 rfl mapCtxNo_settings rfl rfl
      · exact .same h2 rfl mapCtxNo_settings rfl rfl
      · exact queryReply_keeps h2
      · exact .same h2 rfl mapCtxNo_settings rfl rfl
      · exact h2

theorem takeReply_keeps {p : Packet} (h : Keeps s₀ s) : Keeps s₀ (s.takeReply p) := by
  unfold State.takeReply
  split
  · dsimp only
    split
    · refine at_keeps ?_ h
      intro s1 h
      split
      · exact opReply_keeps h
      · exact h
    · exact unitReply_keeps h
  · dsimp only
    split
    · refine at_keeps ?_ h
      intro s1 h
      split
      · exact opReply_keeps h
      · exact h
    · exact h

theorem execReply_keeps {p : Packet} : KeepsNext s (execReply p s) :=
  done_keeps (arrive_keeps (fun _ h => takeReply_keeps h) (.refl _))

theorem grantAll_keeps {p : Packet} {a2 a3 : Nat} (h : Keeps s₀ s) : Keeps s₀ (s.grantAll p a2 a3) := by
  induction a2 generalizing s p a3 with
  | zero => exact h
  | succ n ih =>
    unfold State.grantAll
    split
    · exact h
    · exact ih (send_keeps h)

theorem execDemand_keeps {p : Packet} : KeepsNext s (execDemand p s) :=
  done_keeps (arrive_keeps (fun _ h => grantAll_keeps h) (.refl _))

theorem execGrant_keeps {p : Packet} : KeepsNext s (execGrant p s) :=
  done_keeps (arrive_keeps (fun _ h => release_keeps (setTx_keeps h)) (.refl _))

theorem execEack_keeps {p : Packet} : KeepsNext s (execEack p s) :=
  done_keeps (arrive_keeps (fun _ h => acked_keeps h) (.refl _))

theorem resend_keeps {p : Packet} (h : Keeps s₀ s) : Keeps s₀ (s.resend p) :=
  getD_keeps h (fun _ ho => wire_keeps h ho)

theorem pairFail_keeps {a1 : PairTx} (h : Keeps s₀ s) : Keeps s₀ (s.pairFail a1) := by
  unfold State.pairFail
  extract_lets lost s1 s2 e
  have h1 : Keeps s₀ s1 := .same h rfl rfl rfl rfl
  have h2 : Keeps s₀ s2 := by
    refine foldl_keeps ?_ _ h1
    intro s3 b h
    split
    · exact countDown_keeps h
    · exact h
  split
  · exact at_keeps (fun s3 h => foldl_keeps (fun s4 b h => opReply_keeps h) _ h) h2
  · exact foldl_keeps (fun s3 b h => unitReply_keeps h) _ h2

theorem execE2eTimer_keeps {src dst : Nat} : KeepsNext s (execE2eTimer src dst s) := by
  unfold execE2eTimer
  split
  · exact done_keeps (.same (.refl _) rfl rfl rfl rfl)
  · dsimp only
    split
    · exact done_keeps (.refl _)
    · split
      · exact done_keeps (pairFail_keeps (.refl _))
      · exact done_keeps (foldl_keeps (fun s1 b h => resend_keeps h) _ (setTx_keeps (.refl _)))

theorem dropKind_keeps {p : Packet} (h : Keeps s₀ s) : Keeps s₀ (s.dropKind p) := by
  unfold State.dropKind
  split
  · exact .same h rfl rfl rfl rfl
  · exact getD_keeps h (fun s1 ho => wire_keeps h ho)

theorem linkIn_keeps {l : Nat} {p : Packet} (h : Keeps s₀ s) : Keeps s₀ (s.linkIn l p) := by
  unfold State.linkIn
  split
  · exact h
  · split
    · exact dropKind_keeps h
    · split
      · split
        · exact redSpread_keeps h
        · exact redTo_keeps h
      · split
        · exact .same h rfl rfl rfl rfl
        · exact .same h rfl rfl rfl rfl

theorem takePay_keeps {l : Fin 16} {pay : List Byte} (h : Keeps s₀ s) : Keeps s₀ (s.takePay l pay) := by
  unfold State.takePay
  extract_lets bs r s1
  have h1 : Keeps s₀ s1 := mapLink_keeps h
  exact foldl_keeps (fun s2 b h => linkIn_keeps h) _ h1

theorem takeFlit_keeps {l : Fin 16} {f : Flit} (h : Keeps s₀ s) : Keeps s₀ (s.takeFlit l f) := by
  unfold State.takeFlit
  split
  · exact h
  · split
    · exact mapLink_keeps h
    · extract_lets s1
      have h1 : Keeps s₀ s1 := mapLink_keeps h
      split
      · exact mapLink_keeps h1
      · split
        · exact h1
        · split
          · exact takePay_keeps h1
          · split
            · exact h1
            · exact mapLink_keeps h1

theorem atLink_keeps {l : Nat} {f : Fin 16 → State} (hf : ∀ a0, Keeps s (f a0)) : KeepsNext s (atLink l s f) := by
  unfold atLink
  split
  · exact done_keeps (hf _)
  · exact done_keeps (.refl _)

theorem execFlit_keeps {l : Nat} {f : Flit} : KeepsNext s (execFlit l f s) :=
  atLink_keeps (fun _ => takeFlit_keeps (.refl _))

theorem execReplayRequest_keeps {l fseq : Nat} : KeepsNext s (execReplayRequest l fseq s) := by
  refine atLink_keeps ?_
  intro a
  split
  · exact mapLink_keeps (.refl _)
  · exact .refl _

theorem execLinkReplayLimit_keeps {l : Nat} : KeepsNext s (execLinkReplayLimit l s) := by
  refine atLink_keeps ?_
  intro a
  split
  · exact mapLink_keeps (.refl _)
  · exact .refl _

theorem execLinkFailure_keeps {l : Nat} : KeepsNext s (execLinkFailure l s) := by
  refine atLink_keeps ?_
  intro a
  split
  · exact mapLink_keeps (.refl _)
  · exact .refl _

theorem execLinkRetrainDone_keeps {l : Nat} : KeepsNext s (execLinkRetrainDone l s) := by
  refine atLink_keeps ?_
  intro a
  split
  · exact tellHost_keeps (mapLink_keeps (.refl _))
  · exact .refl _

theorem takeSync_keeps {est : Nat} (h : Keeps s₀ s) : Keeps s₀ (s.takeSync est) := by
  unfold State.takeSync
  extract_lets off s1
  have h1 : Keeps s₀ s1 := by
    unfold s1
    split
    · exact tellHost_keeps h
    · exact h
  split
  · exact .same h1 rfl rfl rfl rfl
  · exact .same h1 rfl rfl rfl rfl

theorem sendPtp_keeps {l : Fin 16} {typ seq time : Nat} (h : Keeps s₀ s) : Keeps s₀ (s.sendPtp l typ seq time) := by
  unfold State.sendPtp
  split
  · exact mapLink_keeps h
  · exact h

theorem takePtp_keeps {l : Fin 16} {p : Packet} (h : Keeps s₀ s) : Keeps s₀ (s.takePtp l p) := by
  unfold State.takePtp
  split
  · exact h
  · dsimp only
    split
    · exact sendPtp_keeps (sendPtp_keeps h)
    · split
      · split
        · exact mapLink_keeps h
        · exact h
      · split
        · split
          · exact mapLink_keeps h
          · exact h
        · split
          · exact mapLink_keeps h
          · split
            · exact takeSync_keeps h
            · exact h

theorem execTsync_keeps {p : Packet} : KeepsNext s (execTsync p s) :=
  done_keeps (arrive_keeps (fun _ h => takePtp_keeps h) (.refl _))

theorem execSyncTick_keeps {l : Nat} : KeepsNext s (execSyncTick l s) := by
  refine atLink_keeps ?_
  intro a
  dsimp only
  split
  · exact sendPtp_keeps (sendPtp_keeps (sendPtp_keeps (mapLink_keeps (.refl _))))
  · exact sendPtp_keeps (mapLink_keeps (.refl _))

theorem takeBoundary_keeps (h : Keeps s₀ s) : Keeps s₀ s.takeBoundary := by
  unfold State.takeBoundary
  split
  · exact h
  split
  · exact pausedTrap_keeps (flushOca_keeps h)
  split
  · exact h
  split
  · rename_i hf
    exact trapHere_keeps (flushOca_keeps (fetchHere_keeps.error h hf))
  dsimp only
  split
  · rename_i hb
    exact takeTrap_keeps (.same (flushOca_keeps h) rfl (boundary_settings hb) rfl rfl)
  · exact flushOca_keeps h

theorem execTrapEntry_keeps {e : Nat} : KeepsNext s (execTrapEntry e s) :=
  atCore_keeps (fun _ _ h => asCtx_keeps (fun _ h => takeBoundary_keeps h) h)

theorem execTcmpMatch_keeps {e : Nat} : KeepsNext s (execTcmpMatch e s) :=
  atCore_keeps (fun _ _ h => timer_keeps h)

theorem execSleepWake_keeps {e h' : Nat} : KeepsNext s (execSleepWake e h' s) :=
  atCore_keeps (fun _ _ h => .same h rfl mapCtxNo_settings rfl rfl)

theorem resultReady_keeps {h' n : Nat} (h : Keeps s₀ s) : Keeps s₀ (s.resultReady h' n) := by
  unfold State.resultReady
  extract_lets s1
  have h1 : Keeps s₀ s1 := by
    unfold s1
    split
    · split
      · exact edge_keeps h
      · exact h
    · exact h
  exact .same h1 rfl mapCtxNo_settings rfl rfl

theorem execVariableLatencyResult_keeps {e h' n : Nat} : KeepsNext s (execVariableLatencyResult e h' n s) :=
  atCore_keeps (fun _ _ h => resultReady_keeps h)

theorem execLeaseExpiry_keeps {e line : Nat} : KeepsNext s (execLeaseExpiry e line s) :=
  atCore_keeps (fun _ _ h => .same h rfl rfl rfl rfl)

theorem execEccUe_keeps {e : Nat} : KeepsNext s (execEccUe e s) := by
  refine atCore_keeps ?_
  intro _ s1 h
  split
  · exact stopGangHere_keeps h
  · exact h

theorem reachStop_keeps (h : Keeps s₀ s) : Keeps s₀ s.reachStop := by
  unfold State.reachStop
  split
  · exact stopCore_keeps h
  · exact h

theorem portReply_keeps {giver code status : Nat} {data : List Byte} (h : Keeps s₀ s) : Keeps s₀
    (s.portReply giver code status data) := by
  unfold State.portReply
  split
  · exact .same h rfl rfl rfl rfl
  · exact send_keeps h

theorem answerStops_keeps {asid : Nat} (h : Keeps s₀ s) : Keeps s₀ (s.answerStops asid) := by
  unfold State.answerStops
  split
  · exact h
  · split
    · exact foldl_keeps (fun s1 b h => portReply_keeps h) _ (mapJob_keeps (fun j => rfl) h)
    · exact h

theorem execGangStop_keeps {e : Nat} : KeepsNext s (execGangStop e s) :=
  atCore_keeps (fun _ _ h => answerStops_keeps (reachStop_keeps h))

theorem execSliceExpiry_keeps {asid : Nat} : KeepsNext s (execSliceExpiry asid s) := by
  unfold execSliceExpiry
  split
  · exact done_keeps (.refl _)
  · refine done_keeps ?_
    split
    · exact .refl _
    · exact mapJob_keeps (fun j => rfl) (.refl _)

theorem traceFault_keeps {j : Job} {reason : Nat} (h : Keeps s₀ s) : Keeps s₀ (s.traceFault j reason) := by
  refine foldl_keeps ?_ _ h
  intro s1 b h
  split
  · exact at_keeps (fun s2 h => trace_keeps h) h
  · exact h

theorem unsaveable_keeps {j : Job} {reason : Nat} (h : Keeps s₀ s) : Keeps s₀ (s.unsaveable j reason) := by
  unfold State.unsaveable
  refine tellHost_keeps (mapJob_keeps (fun _ => rfl) (traceFault_keeps (foldl_keeps ?_ _ h)))
  exact fun s e h => mapCore_keeps (fun _ => rfl) h

theorem execGangDrain_keeps {asid : Nat} : KeepsNext s (execGangDrain asid s) := by
  unfold execGangDrain
  split
  · exact done_keeps (.refl _)
  · split
    · split
      · dsimp only
        split
        · exact done_keeps (mapJob_keeps (fun j => rfl) (.refl _))
        · exact done_keeps (unsaveable_keeps (.refl _))
      · split
        · dsimp only
          split
          · exact done_keeps (mapJob_keeps (fun j => rfl) (.refl _))
          · exact done_keeps (mapJob_keeps (fun j => rfl) (.refl _))
        · dsimp only
          split
          · exact done_keeps (mapJob_keeps (fun j => rfl) (.refl _))
          · exact done_keeps (.refl _)
    · dsimp only
      split
      · exact done_keeps (mapJob_keeps (fun j => rfl) (.refl _))
      · exact done_keeps (.refl _)

theorem vacated_settings {c : Core} : settings c.vacated = settings c :=
  rfl

theorem record_settings {c : Core} {gang : List Nat} : settings (c.record gang) = settings c :=
  rfl

theorem saveGang_keeps {j : Job} (h : Keeps s₀ s) : Keeps s₀ (s.saveGang j) := by
  unfold State.saveGang
  refine tellHost_keeps (foldl_keeps (fun s e => mapCore_keeps fun _ => vacated_settings) _ ?_)
  refine ⟨h.mem, fun l => ⟨(h.legal l).core, (h.legal l).others, fun k hk c hc => ?_⟩⟩
  obtain ⟨i, hi, rfl⟩ := List.mem_map.mp hk
  split at hc
  · obtain ⟨d, hd, rfl⟩ := List.mem_map.mp hc
    obtain ⟨e, -, rfl⟩ := List.mem_map.mp hd
    exact ((h.legal l).coreOf e).of_settings rfl
  · exact (h.legal l).saved i hi c hc

theorem saveRun_keeps {j : Job} {top : Nat} {a3 : List (Nat × List Byte)} (h : Keeps s₀ s) : Keeps s₀ (s.saveRun j top a3).1 :=
    by
  induction a3 generalizing s j top with
  | nil => exact h
  | cons x xs ih =>
    unfold State.saveRun
    split
    · exact h
    · split
      · exact h
      · exact ih (engineWrite_keeps h)

theorem doSave_keeps {j : Job} (h : Keeps s₀ s) : Keeps s₀ (s.doSave j) := by
  unfold State.doSave
  extract_lets base r s1 s2
  have h1 : Keeps s₀ s1 := saveRun_keeps h
  have h2 : Keeps s₀ s2 := .same h1 rfl rfl rfl rfl
  split
  · exact saveGang_keeps (engineWrite_keeps h2)
  · exact unsaveable_keeps h2

theorem execGangSave_keeps {asid : Nat} : KeepsNext s (execGangSave asid s) := by
  unfold execGangSave
  split
  · refine done_keeps ?_
    split
    · exact doSave_keeps (.refl _)
    · exact .refl _
  · exact done_keeps (.refl _)

theorem unspill_keeps {p : Packet} (h : Keeps s₀ s) : Keeps s₀ (s.unspill p) := by
  unfold State.unspill
  split
  · exact at_keeps (fun s1 h => takeResult_keeps h) h
  · split
    · exact takeTrigger_keeps h
    · exact takeMessage_keeps h

theorem restored_settings {r c : Core} : settings (r.restored c) = settings r :=
  rfl

theorem putCells_wf {m : List Host.Cell} (cs : List Host.Cell) (h : Memory.wf m = true) : Memory.wf (putCells m cs) = true := by
  induction cs generalizing m with
  | nil => exact h
  | cons x xs ih => exact ih (memSet_wf m x.1 x.2 h)

/-- The records that a restore puts back are saved ones. -/
theorem restoreGang_keeps {j : Job} (hj : ∀ c ∈ j.saved, AllLegal s₀ → Legal c) (h : Keeps s₀ s) : Keeps s₀
    (s.restoreGang j) := by
  unfold State.restoreGang
  have hcores : Keeps s₀ (j.saved.foldl (fun s r => s.mapCore r.id r.restored) s) := by
    generalize j.saved = rs at hj
    induction rs generalizing s with
    | nil => exact h
    | cons r rs ih =>
      exact ih (mapCore_legal (fun l c => (hj r List.mem_cons_self l).of_settings rfl) h)
        fun c hc => hj c (List.mem_cons_of_mem _ hc)
  refine foldl_keeps (fun s p => unspill_keeps) _ ?_
  refine ⟨fun w => putCells_wf _ (filter_wf _ _ (hcores.mem w)),
    fun l => ⟨(hcores.legal l).core, (hcores.legal l).others, fun k hk c hc => ?_⟩⟩
  obtain ⟨i, hi, rfl⟩ := List.mem_map.mp hk
  split at hc
  · cases hc
  · exact (hcores.legal l).saved i hi c hc

theorem tlbDrop_keeps {f : Tlb → Bool} (h : Keeps s₀ s) : Keeps s₀ (s.tlbDrop f) :=
  .cores h rfl rfl rfl rfl (fun _ => rfl)

theorem clearDirty_keeps {asid va : Nat} {l : Leaf} (h : Keeps s₀ s) : Keeps s₀ (s.clearDirty asid va l) := by
  unfold State.clearDirty
  extract_lets s1 now s2
  have h1 : Keeps s₀ s1 := touch_keeps h
  have h2 : Keeps s₀ s2 := pteWrite_keeps h1
  exact tlbDrop_keeps h2

theorem bureauAt_keeps {asid lid : Nat} {f : Level → Level} (h : Keeps s₀ s) : Keeps s₀ (s.bureauAt asid lid f) :=
  .same h rfl rfl rfl rfl

theorem hashStep_keeps {j : Job} {base : Nat} {l : Level} {va off crc : Nat} (h : Keeps s₀ s) :
    Keeps s₀ (s.hashStep j base l va off crc) := by
  unfold State.hashStep
  dsimp only
  split
  · exact bureauAt_keeps h
  split
  · exact bureauAt_keeps (touch_keeps h)
  · exact bureauAt_keeps (ringPut_keeps h)

theorem bureau_keeps {asid lid : Nat} (h : Keeps s₀ s) : Keeps s₀ (s.bureau asid lid) := by
  unfold State.bureau
  split
  · split
    · exact h
    · split
      · exact releaseSucc_keeps (bureauAt_keeps h)
      · exact hashStep_keeps h
      · split
        · exact bureauAt_keeps (clearDirty_keeps h)
        · exact releaseSucc_keeps (bureauAt_keeps (engineWrite_keeps h))
  · exact h

theorem execBureauRun_keeps {asid lid : Nat} : KeepsNext s (execBureauRun asid lid s) :=
  done_keeps (bureau_keeps (.refl _))

theorem moveBounds_keeps {b0 b1 b2 : Nat} (hb : 8 ≤ b0 ∧ b0 ≤ b1 ∧ b1 ≤ b2 ∧ b2 ≤ 254 ∧ (b2 - b1) % 4 = 0) (h : Keeps s₀ s) :
    Keeps s₀ (s.moveBounds b0 b1 b2) := by
  refine ⟨fun w => filter_wf _ _ (h.mem w), fun l => ⟨?_, (h.legal l).others, (h.legal l).saved⟩⟩
  obtain ⟨-, -, -, -, -, hr⟩ := (h.legal l).core
  obtain ⟨h0, h1, h2, h3, h4⟩ := hb
  exact ⟨h0, h1, h2, h3, h4, hr⟩

theorem setBounds_keeps {b0 b1 b2 : Nat} (h : Keeps s₀ s) : Keeps s₀ (s.setBounds b0 b1 b2) := by
  unfold State.setBounds
  split
  · rename_i hb
    simp only [boundsOk, Bool.and_eq_true, decide_eq_true_eq, beq_iff_eq] at hb
    obtain ⟨⟨⟨h0, h1, h2, h3⟩, h4⟩, -⟩ := hb
    exact moveBounds_keeps ⟨by omega, h1, h2, h3, h4⟩ h
  · exact h

theorem lt_eight_of_srReserved {v : Word} (h : srReserved 1 v = false) : v.toNat < 8 := by
  have hf : fld v 3 61 = 0 := by simpa [srReserved] using h
  simp only [fld] at hf
  have hv := v.isLt
  rw [Nat.mod_eq_of_lt (by omega)] at hf
  omega

theorem ite_settings {p : Prop} [Decidable p] {a b d : Core} (ha : settings a = settings d) (hb : settings b = settings d) :
    settings (if p then a else b) = settings d := by
  split
  · exact ha
  · exact hb

/-- A system register but RMODE leaves the settings. -/
theorem srWrite_settings {c : Core} {hi n : Nat} {r : Cap} (hn : n ≠ 1) : settings (c.srWrite hi n r) = settings c := by
  unfold Core.srWrite
  apply ite_settings rfl
  rw [if_neg hn]
  repeat' apply ite_settings
  all_goals rfl

/-- RMODE takes a rounding code where its reserved bits are clear (R214). -/
theorem srWrite_legal {c : Core} {hi n : Nat} {r : Cap} (hr : srReserved n (r.bits.truncate 64) = false) (h : Legal c) :
    Legal (c.srWrite hi n r) := by
  by_cases hn : n = 1
  · subst hn
    show Legal (if (decide ((r.bits.truncate 64 : Word) = 0) || decide ((r.bits.truncate 64 : Word) = 7)) = true then c
      else { c with rmode := (r.bits.truncate 64 : Word).toNat })
    split
    · exact h
    · rename_i hv
      have hlt : (r.bits.truncate 64 : Word).toNat < 8 := lt_eight_of_srReserved hr
      obtain ⟨h0, h1, h2, h3, h4, -, -⟩ := h
      simp only [Bool.or_eq_true, decide_eq_true_eq, not_or] at hv
      refine ⟨h0, h1, h2, h3, h4, ?_, ?_⟩ <;> dsimp only <;> clear hr <;> generalize (r.bits.truncate 64 : Word) = v at *
          <;> bv_omega
  · exact h.of_settings (srWrite_settings hn)

theorem srWrite_keeps {n : Nat} {r : Cap} (h : Keeps s₀ s) : Keeps s₀ (s.srWrite n r) := by
  unfold State.srWrite
  dsimp only
  split
  · exact h
  split
  · exact setBounds_keeps h
  split
  · exact setBounds_keeps h
  split
  · exact setBounds_keeps h
  · rename_i hr _ _ _
    have h1 : Keeps s₀ { s with core := s.core.srWrite (s.pc / 2 ^ 64) n r } :=
      ⟨h.mem, fun l => ⟨srWrite_legal (by simpa using hr) (h.legal l).core, (h.legal l).others, (h.legal l).saved⟩⟩
    split
    · exact timer_keeps h1
    · exact h1

theorem srNeed_keeps {n : Nat} {cls : SrRow → SrClass} : KeepsAt (srNeed n cls) s := by
  unfold srNeed
  split
  · exact get_bind_keeps need_keeps
  · exact pure_keeps

theorem execSrd_keeps {st : Fin 8} {d : Fin 32} {n : BitVec 12} : KeepsNext s (execSrd st d n s) :=
  issue_keeps (bind_keeps srNeed_keeps (fun _ _ => upd_keeps (fun _ => wc_keeps (.refl _))))

theorem execSwr_keeps {st : Fin 8} {d : Fin 32} {n : BitVec 12} : KeepsNext s (execSwr st d n s) :=
  issue_keeps (bind_keeps srNeed_keeps (fun _ _ => upd_keeps (fun _ => srWrite_keeps (.refl _))))

theorem execTrap_keeps {st : Fin 8} {n : BitVec 12} : KeepsNext s (execTrap st n s) :=
  issueThen_keeps pure_keeps (fun _ _ h => trapHere_keeps h)

theorem execBrk_keeps {st : Fin 8} {n : BitVec 12} : KeepsNext s (execBrk st n s) := by
  refine issueThen_keeps pure_keeps ?_
  intro _ s1 h
  split
  · exact stopGangHere_keeps h
  · exact trapHere_keeps h

theorem execEret_keeps {st : Fin 8} : KeepsNext s (execEret st s) :=
  issue_keeps (get_bind_keeps (need_bind_keeps
      (bind_keeps jumpNeed_keeps (fun _ _ => upd_keeps (fun _ => returnFromTrap_keeps (.refl _))))))

theorem execTime_keeps {st : Fin 8} {d : Fin 32} : KeepsNext s (execTime st d s) :=
  issue_keeps (upd_keeps (fun _ => wx_keeps (.refl _)))

theorem execHalt_keeps {st : Fin 8} : KeepsNext s (execHalt st s) :=
  issueThen_keeps (get_bind_keeps (need_bind_keeps (upd_keeps (fun _ => setCtx_keeps (.refl _)))))
      (fun _ _ h => stopGangHere_keeps h)

theorem execUnallocatedWord_keeps {w : BitVec 32} : KeepsNext s (execUnallocatedWord w s) := by
  unfold execUnallocatedWord
  extract_lets v1 s1
  have h1 : Keeps s s1 := setCtx_keeps (.refl _)
  exact .from h1 (issue_keeps pure_keeps)

theorem command_keeps {giver code : Nat} {sem : Bool} {f : State → State} (hf : ∀ s, Keeps s₀ s → Keeps s₀ (f s))
    (h : Keeps s₀ s) : Keeps s₀ (s.command giver code sem f) := by
  unfold State.command
  split
  · exact portReply_keeps h
  · exact hf _ h

theorem atPort_keeps {port : Nat} {f : State → State} (hf : ∀ s₀ s, Keeps s₀ s → Keeps s₀ (f s)) : KeepsNext s
    (atPort port s f) := by
  unfold atPort
  split
  · exact next_keeps (hf _ _ (.refl _))
  · exact next_keeps (.refl _)

theorem semacq_keeps {giver : Nat} (h : Keeps s₀ s) : Keeps s₀ (s.semacq giver) := by
  refine command_keeps ?_ h
  intro s1 h
  split
  · exact portReply_keeps h
  · split
    · exact portReply_keeps h
    · extract_lets s2
      have h2 : Keeps s₀ s2 := .same h rfl rfl rfl rfl
      exact portReply_keeps h2

theorem execSemacq_keeps {port : Nat} : KeepsNext s (execSemacq port s) :=
  atPort_keeps (fun _ _ h => semacq_keeps h)

theorem freeSem_keeps (h : Keeps s₀ s) : Keeps s₀ s.freeSem :=
  .same h rfl rfl rfl rfl

theorem semrel_keeps {giver : Nat} (h : Keeps s₀ s) : Keeps s₀ (s.semrel giver) := by
  refine command_keeps ?_ h
  intro s1 h
  split
  · exact portReply_keeps (freeSem_keeps h)
  · exact portReply_keeps h

theorem execSemrel_keeps {port : Nat} : KeepsNext s (execSemrel port s) :=
  atPort_keeps (fun _ _ h => semrel_keeps h)

theorem execSemaphoreLoss_keeps {port : Nat} : KeepsNext s (execSemaphoreLoss port s) := by
  refine done_keeps ?_
  split
  · split
    · exact freeSem_keeps (.refl _)
    · exact .refl _
  · exact .refl _

theorem ident_keeps {giver : Nat} (h : Keeps s₀ s) : Keeps s₀ (s.ident giver) :=
  command_keeps (fun _ h => portReply_keeps h) h

theorem execIdent_keeps {port : Nat} : KeepsNext s (execIdent port s) :=
  atPort_keeps (fun _ _ h => ident_keeps h)

theorem attest_keeps {giver : Nat} {nonce : List Byte} (h : Keeps s₀ s) : Keeps s₀ (s.attest giver nonce) := by
  refine command_keeps ?_ h
  intro s1 h
  split
  · exact portReply_keeps h
  · exact portReply_keeps (.same h rfl rfl rfl rfl)

theorem execAttest_keeps {port : Nat} {nonce : List Byte} : KeepsNext s (execAttest port nonce s) :=
  atPort_keeps (fun _ _ h => attest_keeps h)

theorem begin_settings {c : Core} {asid now : Nat} : settings (c.begin asid now) = settings c :=
  rfl

theorem takeCore_keeps {j : JobSpec} {e : Nat} (h : Keeps s₀ s) : Keeps s₀ (s.takeCore j e) := by
  unfold State.takeCore
  extract_lets s1 s2 s3
  have h1 : Keeps s₀ s1 := at_keeps (fun s4 h => moveBounds_keeps ((by decide)) h) h
  have h2 : Keeps s₀ s2 := mapCore_keeps (fun c => rfl) h1
  have h3 : Keeps s₀ s3 := putBytes_keeps h2
  exact foldl_keeps (fun s4 b h => putBytes_keeps h) _ h3

theorem dropJoins_keeps {asid : Nat} (h : Keeps s₀ s) : Keeps s₀ (s.dropJoins asid) :=
  .same h rfl rfl rfl rfl

theorem dropAsid_keeps {asid : Nat} (h : Keeps s₀ s) : Keeps s₀ (s.dropAsid asid) :=
  h.jobs rfl rfl rfl fun j hj _ hc => ⟨j, List.mem_of_mem_filter hj, hc⟩

theorem startJob_keeps {j : JobSpec} (h : Keeps s₀ s) : Keeps s₀ (s.startJob j) := by
  unfold State.startJob
  refine openLevel_keeps (startRings_keeps (foldl_keeps (fun s e => takeCore_keeps) _ ?_))
  refine (dropAsid_keeps (asid := j.asid) (dropJoins_keeps (asid := j.asid) h)).jobs rfl rfl rfl fun k hk c hc => ?_
  rcases List.mem_append.mp hk with hk | hk
  · exact ⟨k, hk, hc⟩
  · cases List.mem_singleton.mp hk
    cases hc

theorem jobstart_keeps {giver : Nat} {job : JobSpec} (h : Keeps s₀ s) : Keeps s₀ (s.jobstart giver job) := by
  refine command_keeps ?_ h
  intro s1 h
  split
  · exact portReply_keeps (startJob_keeps h)
  · exact portReply_keeps h

theorem execJobstart_keeps {port : Nat} {job : JobSpec} : KeepsNext s (execJobstart port job s) :=
  atPort_keeps (fun _ _ h => jobstart_keeps h)

theorem jobstop_keeps {giver asid : Nat} (h : Keeps s₀ s) : Keeps s₀ (s.jobstop giver asid) := by
  refine command_keeps ?_ h
  intro s1 h
  split
  · exact portReply_keeps h
  · split
    · exact portReply_keeps h
    · exact answerStops_keeps (mapJob_keeps (fun j => rfl) (gangStop_keeps h))

theorem unstop_keeps {j : Job} (h : Keeps s₀ s) : Keeps s₀ (s.unstop j) := by
  unfold State.unstop
  refine mapJob_keeps (fun _ => rfl) (foldl_keeps ?_ _ h)
  exact fun s e h => mapCore_keeps (fun _ => rfl) h

theorem jobresume_keeps {giver asid : Nat} (h : Keeps s₀ s) : Keeps s₀ (s.jobresume giver asid) := by
  refine command_keeps (fun s h => ?_) h
  split
  · exact portReply_keeps h
  · rename_i j hj
    have hsaved (c : Core) (hc : c ∈ j.saved) (l : AllLegal s₀) : Legal c :=
      (h.legal l).saved j (List.mem_of_find?_eq_some hj) c hc
    split
    · exact portReply_keeps h
    · exact portReply_keeps h
    · split
      · exact portReply_keeps h
      split
      · exact portReply_keeps (unstop_keeps h)
      · exact portReply_keeps h
    · split
      · exact portReply_keeps h
      split
      · exact portReply_keeps h
      · exact portReply_keeps (restoreGang_keeps hsaved h)
    · exact portReply_keeps h

theorem execJobstop_keeps {port asid : Nat} : KeepsNext s (execJobstop port asid s) :=
  atPort_keeps (fun _ _ h => jobstop_keeps h)

theorem execJobresume_keeps {port asid : Nat} : KeepsNext s (execJobresume port asid s) :=
  atPort_keeps (fun _ _ h => jobresume_keeps h)

theorem dropOpen_keeps {asid : Nat} (h : Keeps s₀ s) : Keeps s₀ (s.dropOpen asid) :=
  foldl_keeps (fun _ _ h => discardGroup_keeps h) _ h

theorem lastTrace_keeps {j : Job} (h : Keeps s₀ s) : Keeps s₀ (s.lastTrace j) := by
  unfold State.lastTrace
  extract_lets s1 left
  have h1 : Keeps s₀ s1 := flushJob_keeps h
  split
  · exact .same h1 rfl rfl rfl rfl
  · exact h1

theorem removeJob_keeps {j : Job} (h : Keeps s₀ s) : Keeps s₀ (s.removeJob j) := by
  unfold State.removeJob
  extract_lets asid s1 s2 s3
  have h1 : Keeps s₀ s1 := foldl_keeps (fun s4 b h => portReply_keeps h) _ h
  have h2 : Keeps s₀ s2 := dropOpen_keeps (lastTrace_keeps h1)
  have h3 : Keeps s₀ s3 := foldl_keeps (fun s4 b h => mapCore_keeps (fun c => by split <;> rfl) h) _ h2
  exact dropJoins_keeps (dropAsid_keeps h3)

theorem jobremove_keeps {giver asid : Nat} (h : Keeps s₀ s) : Keeps s₀ (s.jobremove giver asid) := by
  refine command_keeps ?_ h
  intro s1 h
  split
  · exact portReply_keeps h
  · exact portReply_keeps (removeJob_keeps h)

theorem execJobremove_keeps {port asid : Nat} : KeepsNext s (execJobremove port asid s) :=
  atPort_keeps (fun _ _ h => jobremove_keeps h)

theorem openPhase_keeps {asid phase : Nat} (h : Keeps s₀ s) : Keeps s₀ (s.openPhase asid phase) := by
  unfold State.openPhase
  split
  · split
    · exact h
    · exact openLevel_keeps h
  · exact openLevel_keeps h

theorem addGraph_keeps {g : GraphSpec} (h : Keeps s₀ s) : Keeps s₀ (s.addGraph g) := by
  unfold State.addGraph
  extract_lets s1
  have h1 : Keeps s₀ s1 := mapLevel_keeps (openPhase_keeps h)
  exact nextGraph_keeps (mapJob_keeps (fun j => rfl) h1)

theorem graphstart_keeps {giver : Nat} {gr : GraphSpec} (h : Keeps s₀ s) : Keeps s₀ (s.graphstart giver gr) := by
  refine command_keeps ?_ h
  intro s1 h
  split
  · exact portReply_keeps h
  · split
    · exact portReply_keeps (addGraph_keeps h)
    · exact portReply_keeps h

theorem execGraphstart_keeps {port : Nat} {gr : GraphSpec} : KeepsNext s (execGraphstart port gr s) :=
  atPort_keeps (fun _ _ h => graphstart_keeps h)

theorem tlbinv_keeps {giver asid lo len : Nat} (h : Keeps s₀ s) : Keeps s₀ (s.tlbinv giver asid lo len) :=
  command_keeps (fun _ h => portReply_keeps (tlbDrop_keeps h)) h

theorem execTlbinv_keeps {port asid lo len : Nat} : KeepsNext s (execTlbinv port asid lo len s) :=
  atPort_keeps (fun _ _ h => tlbinv_keeps h)

theorem doorbell_keeps {giver eid : Nat} (h : Keeps s₀ s) : Keeps s₀ (s.doorbell giver eid) := by
  refine command_keeps ?_ h
  intro s1 h
  dsimp only
  split
  · exact portReply_keeps (mapCore_keeps (fun c => rfl) h)
  · exact portReply_keeps h

theorem execDoorbell_keeps {port eid : Nat} : KeepsNext s (execDoorbell port eid s) :=
  atPort_keeps (fun _ _ h => doorbell_keeps h)

theorem setpkg_keeps {giver pkg : Nat} (h : Keeps s₀ s) : Keeps s₀ (s.setpkg giver pkg) := by
  refine command_keeps ?_ h
  intro s1 h
  split
  · exact portReply_keeps (.same h rfl rfl rfl rfl)
  · exact portReply_keeps h

theorem execSetpkg_keeps {port pkg : Nat} : KeepsNext s (execSetpkg port pkg s) :=
  atPort_keeps (fun _ _ h => setpkg_keeps h)

theorem routewr_keeps {giver dst : Nat} {ent : BitVec 16} (h : Keeps s₀ s) : Keeps s₀ (s.routewr giver dst ent) := by
  refine command_keeps ?_ h
  intro s1 h
  split
  · exact portReply_keeps (.same h rfl rfl rfl rfl)
  · exact portReply_keeps h

theorem execRoutewr_keeps {port dst : Nat} {ent : BitVec 16} : KeepsNext s (execRoutewr port dst ent s) :=
  atPort_keeps (fun _ _ h => routewr_keeps h)

theorem settleTrees_keeps (h : Keeps s₀ s) : Keeps s₀ s.settleTrees := by
  refine foldl_keeps ?_ _ h
  intro s1 b h
  split
  · exact h
  · exact portReply_keeps (writeTree_keeps (.same h rfl rfl rfl rfl))

theorem treewr_keeps {giver idx : Nat} {ent : List Byte} (h : Keeps s₀ s) : Keeps s₀ (s.treewr giver idx ent) := by
  refine command_keeps ?_ h
  intro s1 h
  split
  · exact settleTrees_keeps (.same h rfl rfl rfl rfl)
  · exact portReply_keeps h

theorem execTreewr_keeps {port idx : Nat} {ent : List Byte} : KeepsNext s (execTreewr port idx ent s) :=
  atPort_keeps (fun _ _ h => treewr_keeps h)

theorem rateset_keeps {giver eid rate : Nat} (h : Keeps s₀ s) : Keeps s₀ (s.rateset giver eid rate) :=
  command_keeps (fun _ h => portReply_keeps (.same h rfl rfl rfl rfl)) h

theorem execRateset_keeps {port eid rate : Nat} : KeepsNext s (execRateset port eid rate s) :=
  atPort_keeps (fun _ _ h => rateset_keeps h)

theorem setFw_keeps {d : Fin 4} {f : Firmware} (h : Keeps s₀ s) : Keeps s₀ (s.setFw d f) :=
  .same h rfl rfl rfl rfl

theorem fwload_keeps {giver die : Nat} {img : List Byte} (h : Keeps s₀ s) : Keeps s₀ (s.fwload giver die img) := by
  refine command_keeps ?_ h
  intro s1 h
  split
  · dsimp only
    split
    · exact portReply_keeps h
    · split
      · exact portReply_keeps (setFw_keeps h)
      · exact portReply_keeps h
  · exact portReply_keeps h

theorem execFwload_keeps {port die : Nat} {img : List Byte} : KeepsNext s (execFwload port die img s) :=
  atPort_keeps (fun _ _ h => fwload_keeps h)

theorem linkretrain_keeps {giver l : Nat} (h : Keeps s₀ s) : Keeps s₀ (s.linkretrain giver l) := by
  refine command_keeps ?_ h
  intro s1 h
  split
  · split
    · exact portReply_keeps h
    · dsimp only
      split
      · exact portReply_keeps h
      · exact portReply_keeps (mapLink_keeps h)
  · exact portReply_keeps h

theorem execLinkretrain_keeps {port l : Nat} : KeepsNext s (execLinkretrain port l s) :=
  atPort_keeps (fun _ _ h => linkretrain_keeps h)

theorem stackretire_keeps {giver stk : Nat} (h : Keeps s₀ s) : Keeps s₀ (s.stackretire giver stk) := by
  refine command_keeps ?_ h
  intro s1 h
  split
  · split
    · exact portReply_keeps h
    · exact portReply_keeps (.same h rfl rfl rfl rfl)
  · exact portReply_keeps h

theorem execStackretire_keeps {port stk : Nat} : KeepsNext s (execStackretire port stk s) :=
  atPort_keeps (fun _ _ h => stackretire_keeps h)

theorem dieReset_settings {c : Core} {d : Nat} : settings (c.dieReset d) = settings c := by
  unfold Core.dieReset
  split
  · exact rfl
  · exact rfl

theorem dieDown_keeps {d : Fin 4} (h : Keeps s₀ s) : Keeps s₀ (s.dieDown d) :=
  .cores h rfl dieReset_settings rfl rfl (fun _ => dieReset_settings)

theorem dieoff_keeps {giver die : Nat} {via : Option Nat} (h : Keeps s₀ s) : Keeps s₀ (s.dieoff giver die via) := by
  refine command_keeps ?_ h
  intro s1 h
  split
  · dsimp only
    split
    · exact portReply_keeps h
    · exact portReply_keeps (dieDown_keeps h)
  · exact portReply_keeps h

theorem execDieoff_keeps {port die : Nat} {via : Option Nat} : KeepsNext s (execDieoff port die via s) :=
  atPort_keeps (fun _ _ h => dieoff_keeps h)

theorem dieon_keeps {giver die : Nat} (h : Keeps s₀ s) : Keeps s₀ (s.dieon giver die) := by
  refine command_keeps ?_ h
  intro s1 h
  split
  · dsimp only
    split
    · exact portReply_keeps (.same h rfl rfl rfl rfl)
    · exact portReply_keeps h
  · exact portReply_keeps h

theorem execDieon_keeps {port die : Nat} : KeepsNext s (execDieon port die s) :=
  atPort_keeps (fun _ _ h => dieon_keeps h)

theorem powercap_keeps {giver watts : Nat} (h : Keeps s₀ s) : Keeps s₀ (s.powercap giver watts) :=
  command_keeps (fun _ h => portReply_keeps (.same h rfl rfl rfl rfl)) h

theorem execPowercap_keeps {port watts : Nat} : KeepsNext s (execPowercap port watts s) :=
  atPort_keeps (fun _ _ h => powercap_keeps h)

theorem settleResolves_keeps (h : Keeps s₀ s) : Keeps s₀ s.settleResolves := by
  refine foldl_keeps ?_ _ h
  intro s1 b h
  split
  · exact h
  · exact portReply_keeps (.same h rfl rfl rfl rfl)

theorem sbresolve_keeps {giver stk : Nat} (h : Keeps s₀ s) : Keeps s₀ (s.sbresolve giver stk) := by
  refine command_keeps ?_ h
  intro s1 h
  split
  · exact portReply_keeps h
  · extract_lets s2 asks s3
    have h2 : Keeps s₀ s2 := .same h rfl rfl rfl rfl
    have h3 : Keeps s₀ s3 := foldl_keeps (fun s4 b h => askCommit_keeps h) _ h2
    exact settleResolves_keeps (.same h3 rfl rfl rfl rfl)

theorem execSbresolve_keeps {port stk : Nat} : KeepsNext s (execSbresolve port stk s) :=
  atPort_keeps (fun _ _ h => sbresolve_keeps h)

theorem execSbresolveTimeout_keeps {stk : Nat} : KeepsNext s (execSbresolveTimeout stk s) := by
  unfold execSbresolveTimeout
  extract_lets s1 late
  have h1 : Keeps s s1 := settleResolves_keeps (.refl _)
  exact done_keeps (foldl_keeps (fun s2 b h => portReply_keeps h) _ (.same h1 rfl rfl rfl rfl))

theorem sblist_keeps {giver stk off : Nat} (h : Keeps s₀ s) : Keeps s₀ (s.sblist giver stk off) := by
  refine command_keeps ?_ h
  intro s1 h
  split
  · exact portReply_keeps h
  · exact portReply_keeps h

theorem execSblist_keeps {port stk off : Nat} : KeepsNext s (execSblist port stk off s) :=
  atPort_keeps (fun _ _ h => sblist_keeps h)

theorem sbdecide_keeps {giver stk src grp : Nat} {pub : Bool} (h : Keeps s₀ s) : Keeps s₀ (s.sbdecide giver stk src grp pub) :=
    by
  refine command_keeps ?_ h
  intro s1 h
  split
  · split
    · refine portReply_keeps ?_
      refine settleResolves_keeps ?_
      split
      · exact publishAt_keeps h
      · exact dropGroup_keeps h
    · exact portReply_keeps h
  · exact portReply_keeps h

theorem execSbdecide_keeps {port stk src grp : Nat} {pub : Bool} : KeepsNext s (execSbdecide port stk src grp pub s) :=
  atPort_keeps (fun _ _ h => sbdecide_keeps h)

theorem sblost_keeps {giver eid : Nat} (h : Keeps s₀ s) : Keeps s₀ (s.sblost giver eid) :=
  command_keeps (fun _ h => portReply_keeps (foldl_keeps (fun _ _ h => finishCommit_keeps (mapCommit_keeps h)) _ h)) h

theorem execSblost_keeps {port eid : Nat} : KeepsNext s (execSblost port eid s) :=
  atPort_keeps (fun _ _ h => sblost_keeps h)

theorem execPowerOn_keeps : KeepsNext s (execPowerOn s) :=
  done_keeps ⟨fun _ => rfl, fun _ => ⟨legal_reset 0, fun _ hc => (nomatch hc), fun _ hj => (nomatch hj)⟩⟩

theorem execReducedService_keeps : KeepsNext s (execReducedService s) := by
  refine done_keeps ?_
  split
  · exact .same (.refl _) rfl rfl rfl rfl
  · exact .refl _

theorem rise_keeps (h : Keeps s₀ s) : Keeps s₀ s.rise :=
  .same h rfl rfl rfl rfl

theorem join_keeps {part : Part} (h : Keeps s₀ s) : Keeps s₀ (s.join part) := by
  unfold State.join
  split
  · extract_lets up k s1
    have h1 : Keeps s₀ s1 := .same h rfl rfl rfl rfl
    split
    · exact tellHost_keeps (resumeAgent_keeps (resumeAgent_keeps (rise_keeps h1)))
    · split
      · exact tellHost_keeps (rise_keeps h1)
      · exact h
  · dsimp only
    split
    · exact tellHost_keeps (resumeAgent_keeps (rise_keeps (.same h rfl rfl rfl rfl)))
    · exact h
  · dsimp only
    split
    · exact tellHost_keeps (rise_keeps (mapLink_keeps h))
    · exact h

theorem execPartJoin_keeps {part : Part} : KeepsNext s (execPartJoin part s) := by
  refine done_keeps ?_
  split
  · exact .refl _
  · exact join_keeps (.refl _)

theorem execThermalThrottle_keeps {die : Nat} : KeepsNext s (execThermalThrottle die s) := by
  unfold execThermalThrottle
  split
  · exact done_keeps (.same (.refl _) rfl rfl rfl rfl)
  · exact done_keeps (.refl _)

theorem execThermalShutdown_keeps {die : Nat} : KeepsNext s (execThermalShutdown die s) := by
  unfold execThermalShutdown
  split
  · extract_lets me on s1
    have h1 : Keeps s s1 := by
      refine foldl_keeps ?_ _ (.refl _)
      intro s2 j h
      extract_lets s3 s4
      have h3 : Keeps s s3 := gangStop_keeps h
      have h4 : Keeps s s4 := by
        refine foldl_keeps ?_ _ (traceFault_keeps h3)
        intro s5 b h
        refine at_keeps ?_ h
        intro s6 h
        split
        · exact h
        · exact stopCore_keeps h
      exact answerStops_keeps h4
    exact done_keeps (dieDown_keeps h1)
  · exact done_keeps (.refl _)

theorem packetCommand_keeps {p : Packet} (h : Keeps s₀ s) : Keeps s₀ (s.packetCommand p) := by
  unfold State.packetCommand
  split
  · exact ident_keeps h
  · exact semacq_keeps h
  · exact semrel_keeps h
  · split
    · exact jobstart_keeps h
    · exact command_keeps (fun s1 h => portReply_keeps h) h
  · exact jobstop_keeps h
  · exact jobresume_keeps h
  · exact jobremove_keeps h
  · split
    · exact graphstart_keeps h
    · exact command_keeps (fun s1 h => portReply_keeps h) h
  · exact tlbinv_keeps h
  · exact doorbell_keeps h
  · exact setpkg_keeps h
  · exact routewr_keeps h
  · exact treewr_keeps h
  · exact rateset_keeps h
  · exact fwload_keeps h
  · exact linkretrain_keeps h
  · exact stackretire_keeps h
  · exact dieoff_keeps h
  · exact dieon_keeps h
  · exact attest_keeps h
  · exact powercap_keeps h
  · exact sbresolve_keeps h
  · exact sblist_keeps h
  · exact sbdecide_keeps h
  · exact sblost_keeps h
  · exact portReply_keeps h

theorem execActiveMessage_keeps {p : Packet} : KeepsNext s (execActiveMessage p s) := by
  refine done_keeps ?_
  refine arrive_keeps ?_ (.refl _)
  intro s1 h
  split
  · exact packetCommand_keeps h
  · exact takeMessage_keeps h

theorem boundaryWork_keeps (h : Keeps s₀ s) (ho : s.boundaryWork = some t) : Keeps s₀ t := by
  unfold State.boundaryWork at ho
  split at ho
  · cases ho
  split at ho
  · cases ho
    exact stopHelper_keeps h
  split at ho
  · cases ho
    exact endCancelled_keeps (flushOca_keeps h)
  · obtain ⟨l, -, rfl⟩ := Option.map_eq_some_iff.mp ho
    exact pausedTrap_keeps (flushOca_keeps h)

theorem fetchTrap_keeps {a1 : Trap} (h : Keeps s₀ s) : Keeps s₀ (s.fetchTrap a1) :=
  trapHere_keeps (flushOca_keeps h)

theorem begun_keeps {m : Move} {ms : List Move} (h : Keeps s₀ s) : Keeps s₀ (s.begun m ms) :=
  .same h rfl rfl rfl rfl

theorem cycleStart_keeps {ms : List Move} (h : Keeps s₀ s) : Keeps s₀ (s.cycleStart ms) :=
  .same h rfl rfl rfl rfl

theorem postponed_keeps (h : Keeps s₀ s) : Keeps s₀ s.postponed := by
  unfold State.postponed
  split
  · exact tick_keeps (noIssue_keeps (timer_keeps (cycleStart_keeps h)))
  · exact tick_keeps (noIssue_keeps (timer_keeps (focusOn_keeps (cycleStart_keeps h))))
  · exact .same h rfl rfl rfl rfl

theorem afterStep_keeps (h : Keeps s₀ s) : Keeps s₀ s.afterStep := by
  unfold State.afterStep
  extract_lets s1
  have h1 : Keeps s₀ s1 := flushLinks_keeps (settleResolves_keeps (settleTrees_keeps (dropStale_keeps h)))
  exact .same h1 rfl rfl rfl rfl

/-- Every instruction and event keeps the invariants: one rule for each constructor. -/
theorem exec_keeps (i : Instr) : KeepsNext s (exec i s) :=
  Instr.rec (motive := fun i => KeepsNext s (exec i s))
    (fun _ _ _ _ => execAdd_keeps) (fun _ _ _ _ => execSub_keeps) (fun _ _ _ _ => execAndr_keeps)
    (fun _ _ _ _ => execOrr_keeps) (fun _ _ _ _ => execXorr_keeps) (fun _ _ _ _ => execAndn_keeps)
    (fun _ _ _ _ => execSll_keeps) (fun _ _ _ _ => execSrl_keeps) (fun _ _ _ _ => execSra_keeps)
    (fun _ _ _ _ => execSlt_keeps) (fun _ _ _ _ => execSltu_keeps) (fun _ _ _ _ => execMin_keeps)
    (fun _ _ _ _ => execMax_keeps) (fun _ _ _ _ => execMinu_keeps) (fun _ _ _ _ => execMaxu_keeps)
    (fun _ _ _ _ => execSel_keeps) (fun _ _ _ _ => execAddi_keeps) (fun _ _ _ _ => execAndi_keeps)
    (fun _ _ _ _ => execOri_keeps) (fun _ _ _ _ => execXori_keeps) (fun _ _ _ _ => execSlli_keeps)
    (fun _ _ _ _ => execSrli_keeps) (fun _ _ _ _ => execSrai_keeps) (fun _ _ _ _ => execSlti_keeps)
    (fun _ _ _ _ => execMul_keeps) (fun _ _ _ _ => execMulh_keeps) (fun _ _ _ _ => execMulhu_keeps)
    (fun _ _ _ _ => execDiv_keeps) (fun _ _ _ _ => execDivu_keeps) (fun _ _ _ _ => execRem_keeps)
    (fun _ _ _ _ => execRemu_keeps) (fun _ _ _ => execClz_keeps) (fun _ _ _ => execCtz_keeps) (fun _ _ _ => execPopc_keeps)
    (fun _ _ _ => execBswap_keeps) (fun _ _ _ => execLis_keeps) (fun _ _ _ => execLik_keeps) (fun _ _ _ => execCmov_keeps)
    (fun _ _ _ _ => execCinc_keeps) (fun _ _ _ _ => execCseta_keeps) (fun _ _ _ _ => execCsetb_keeps)
    (fun _ _ _ _ => execCsetbx_keeps) (fun _ _ _ _ => execCandp_keeps) (fun _ _ _ _ => execCgeta_keeps)
    (fun _ _ _ _ => execCgetb_keeps) (fun _ _ _ _ => execCgett_keeps) (fun _ _ _ => execCgetp_keeps)
    (fun _ _ _ => execCgettag_keeps) (fun _ _ _ => execCclrtag_keeps) (fun _ _ _ _ => execCsub_keeps)
    (fun _ _ _ _ => execCtest_keeps) (fun _ _ _ _ => execCinci_keeps) (fun _ _ _ _ => execCsetbi_keeps)
    (fun _ _ _ => execBeq_keeps) (fun _ _ _ => execBne_keeps) (fun _ _ _ => execBlt_keeps) (fun _ _ _ => execBge_keeps)
    (fun _ _ _ => execBle_keeps) (fun _ _ _ => execBgt_keeps) (fun _ _ _ => execBtag_keeps) (fun _ _ _ => execBntag_keeps)
    (fun _ _ => execJ_keeps) (fun _ _ => execCall_keeps) (fun _ _ => execJr_keeps) (fun _ _ _ => execCallr_keeps)
    (fun _ _ => execRet_keeps) (fun _ _ => execLexit_keeps) (fun _ _ _ => execLoop_keeps) (fun _ _ _ _ => execLdB_keeps)
    (fun _ _ _ _ => execLdBu_keeps) (fun _ _ _ _ => execLdH_keeps) (fun _ _ _ _ => execLdHu_keeps)
    (fun _ _ _ _ => execLdW_keeps) (fun _ _ _ _ => execLdWu_keeps) (fun _ _ _ _ => execLdD_keeps)
    (fun _ _ _ _ => execLdC_keeps) (fun _ _ _ _ => execStB_keeps) (fun _ _ _ _ => execStH_keeps)
    (fun _ _ _ _ => execStW_keeps) (fun _ _ _ _ => execStD_keeps) (fun _ _ _ _ => execStC_keeps)
    (fun _ _ _ _ => execAaddD_keeps) (fun _ _ _ _ => execAandD_keeps) (fun _ _ _ _ => execAorD_keeps)
    (fun _ _ _ _ => execAxorD_keeps) (fun _ _ _ _ => execAminD_keeps) (fun _ _ _ _ => execAmaxD_keeps)
    (fun _ _ _ _ => execAminuD_keeps) (fun _ _ _ _ => execAmaxuD_keeps) (fun _ _ _ _ => execAswapD_keeps)
    (fun _ _ _ _ => execAcasD_keeps) (fun _ _ _ _ => execAfaddD_keeps) (fun _ _ _ _ => execAaddW_keeps)
    (fun _ _ _ _ => execAandW_keeps) (fun _ _ _ _ => execAorW_keeps) (fun _ _ _ _ => execAxorW_keeps)
    (fun _ _ _ _ => execAminW_keeps) (fun _ _ _ _ => execAmaxW_keeps) (fun _ _ _ _ => execAminuW_keeps)
    (fun _ _ _ _ => execAmaxuW_keeps) (fun _ _ _ _ => execAswapW_keeps) (fun _ _ _ _ => execAcasW_keeps)
    (fun _ _ _ _ => execAfaddW_keeps) (fun _ _ _ _ => execAfaddbf_keeps) (fun _ _ => execFence_keeps)
    (fun _ _ => execFencer_keeps) (fun _ _ _ => execClean_keeps) (fun _ _ _ => execInval_keeps) (fun _ _ _ => execWaitj_keeps)
    (fun _ _ _ => execPollj_keeps) (fun _ _ => execSleep_keeps) (fun _ => execYield_keeps) (fun _ _ _ => execVld_keeps)
    (fun _ _ _ => execVst_keeps) (fun _ _ _ _ => execVlds_keeps) (fun _ _ _ _ => execVsts_keeps)
    (fun _ _ _ _ => execVldx_keeps) (fun _ _ _ _ => execVstx_keeps) (fun _ _ _ _ => execVldt_keeps)
    (fun _ _ _ _ => execVstt_keeps) (fun _ _ _ _ => execSbind_keeps) (fun _ _ => execSunbind_keeps)
    (fun _ _ _ _ => execVldb_keeps) (fun _ _ _ _ => execTpred_keeps) (fun _ _ _ => execTvclr_keeps)
    (fun _ _ _ => execTvset_keeps) (fun _ _ _ => execThdr_keeps) (fun _ _ _ _ => execGath_keeps)
    (fun _ _ _ _ => execScat_keeps) (fun _ _ _ _ => execGathst_keeps) (fun _ _ _ _ => execVsort_keeps)
    (fun _ _ _ _ => execVsortx_keeps) (fun _ _ _ _ => execVbstep_keeps) (fun _ _ _ _ => execVtopk_keeps)
    (fun _ _ _ _ => execVmergek_keeps) (fun _ _ _ => execVrank_keeps) (fun _ _ _ _ => execOccfg_keeps)
    (fun _ _ _ => execOcemit_keeps) (fun _ _ _ _ => execOcemiti_keeps) (fun _ _ => execOcacc_keeps)
    (fun _ _ _ => execOcstat_keeps) (fun _ => execOcrst_keeps) (fun _ _ _ => execOcgw_keeps) (fun _ _ _ => execOcga_keeps)
    (fun _ _ _ => execOcgf_keeps) (fun _ _ => execMmode_keeps) (fun _ _ _ _ => execMop_keeps) (fun _ _ _ _ => execMsqd_keeps)
    (fun _ _ _ => execMtopk_keeps) (fun _ _ _ _ => execAccrd_keeps) (fun _ => execAccz_keeps)
    (fun _ _ _ _ => execMdrain_keeps) (fun _ _ => execMwait_keeps) (fun _ _ => execMnmb_keeps) (fun _ _ _ _ => execCpy_keeps)
    (fun _ _ _ _ => execCpy2d_keeps) (fun _ _ _ _ => execCpyq_keeps) (fun _ _ _ _ => execCpyx_keeps)
    (fun _ _ _ => execTbegin_keeps) (fun _ _ => execTrec_keeps) (fun _ _ => execTrecb_keeps) (fun _ _ _ => execTrecv_keeps)
    (fun _ _ => execTend_keeps) (fun _ _ _ => execTplay_keeps) (fun _ _ _ => execTpop_keeps) (fun _ _ => execTpopb_keeps)
    (fun _ _ _ => execTpopv_keeps) (fun _ _ _ => execTstat_keeps) (fun _ _ _ _ => execSend_keeps)
    (fun _ _ _ _ => execTenq_keeps) (fun _ _ _ _ => execRfork_keeps) (fun _ _ => execJoin_keeps)
    (fun _ _ _ _ => execTbind_keeps) (fun _ _ _ => execTunbind_keeps) (fun _ _ _ _ => execTfire_keeps)
    (fun _ _ _ _ => execChopen_keeps) (fun _ _ => execChclose_keeps) (fun _ _ _ _ => execChsend_keeps)
    (fun _ _ _ _ => execChrecv_keeps) (fun _ => execExit_keeps) (fun _ _ _ _ => execHstart_keeps) (fun _ _ => execHstop_keeps)
    (fun _ _ _ _ => execHstat_keeps) (fun _ _ _ => execBari_keeps) (fun _ _ _ _ => execBara_keeps)
    (fun _ _ _ _ => execBarad_keeps) (fun _ _ _ _ => execBarw_keeps) (fun _ _ _ _ => execBaraw_keeps)
    (fun _ _ _ _ => execRld_keeps) (fun _ _ _ _ => execRst_keeps) (fun _ _ _ _ => execRamo_keeps)
    (fun _ _ _ _ => execGst_keeps) (fun _ _ _ => execGcommit_keeps) (fun _ _ => execGabort_keeps)
    (fun _ _ _ => execGcstat_keeps) (fun _ _ _ => execGwait_keeps) (fun _ _ _ _ => execNred_keeps)
    (fun _ _ _ => execNredw_keeps) (fun _ _ _ => execSrd_keeps) (fun _ _ _ => execSwr_keeps) (fun _ _ => execTrap_keeps)
    (fun _ => execEret_keeps) (fun _ _ => execBrk_keeps) (fun _ _ => execTime_keeps) (fun _ => execHalt_keeps)
    (fun _ _ _ _ => execCancel_keeps) (fun _ _ _ _ => execVmovs_keeps) (fun _ _ _ => execVmovx_keeps)
    (fun _ _ _ _ => execVins_keeps) (fun _ _ _ => execMset_keeps) (fun _ _ _ => execMget_keeps) (fun _ _ _ => execGset_keeps)
    (fun _ _ _ => execGget_keeps) (fun _ _ _ => execOset_keeps) (fun _ _ _ => execOget_keeps) (fun _ _ _ => execBmany_keeps)
    (fun _ _ _ => execBmnone_keeps) (fun _ _ _ => execBmall_keeps) (fun _ _ _ => execBgds_keeps) (fun _ _ _ => execBgdc_keeps)
    (fun _ _ _ _ _ => execVadd_keeps) (fun _ _ _ _ _ => execVsub_keeps) (fun _ _ _ _ _ => execVmul_keeps)
    (fun _ _ _ _ _ => execVmulh_keeps) (fun _ _ _ _ _ => execVfma_keeps) (fun _ _ _ _ _ => execVfms_keeps)
    (fun _ _ _ _ _ => execVmin_keeps) (fun _ _ _ _ _ => execVmax_keeps) (fun _ _ _ _ _ => execVand_keeps)
    (fun _ _ _ _ _ => execVor_keeps) (fun _ _ _ _ _ => execVxor_keeps) (fun _ _ _ _ _ => execVandn_keeps)
    (fun _ _ _ _ _ => execVsll_keeps) (fun _ _ _ _ _ => execVsrl_keeps) (fun _ _ _ _ _ => execVsra_keeps)
    (fun _ _ _ _ _ => execVrol_keeps) (fun _ _ _ _ _ => execVceq_keeps) (fun _ _ _ _ _ => execVcne_keeps)
    (fun _ _ _ _ _ => execVclt_keeps) (fun _ _ _ _ _ => execVcle_keeps) (fun _ _ _ _ => execVcvt_keeps)
    (fun _ _ _ _ _ => execVcvts_keeps) (fun _ _ _ _ => execVpack_keeps) (fun _ _ _ _ => execVunpk_keeps)
    (fun _ _ _ _ _ => execVperm_keeps) (fun _ _ _ _ _ => execVshuf_keeps) (fun _ _ _ _ _ => execVsldu_keeps)
    (fun _ _ _ _ _ => execVsldd_keeps) (fun _ _ _ _ _ => execVrsum_keeps) (fun _ _ _ _ _ => execVrmax_keeps)
    (fun _ _ _ _ _ => execVrmin_keeps) (fun _ _ _ _ _ => execVramax_keeps) (fun _ _ _ _ _ => execVmrg_keeps)
    (fun _ _ _ _ => execVcmpr_keeps) (fun _ _ _ _ => execVabs_keeps) (fun _ _ _ _ => execVneg_keeps)
    (fun _ _ _ _ _ => execVdiv_keeps) (fun _ _ _ _ => execVsqrt_keeps) (fun _ _ _ _ => execVexp2_keeps)
    (fun _ _ _ _ => execVlog2_keeps) (fun _ _ _ _ _ => execVdot4_keeps) (fun _ _ _ _ _ => execVsad_keeps)
    (fun _ _ _ => execViota_keeps) (fun _ _ _ => execVmcnt_keeps) (fun _ _ _ _ => execVclz_keeps)
    (fun _ _ _ _ => execVpopc_keeps) (fun _ _ _ _ _ => execVscl_keeps) (fun _ _ _ _ => execVmov_keeps)
    (fun _ _ _ => execAddShort_keeps) (fun _ _ _ => execSubShort_keeps) (fun _ _ _ => execAndShort_keeps)
    (fun _ _ _ => execOrShort_keeps) (fun _ _ _ => execXorShort_keeps) (fun _ _ _ => execCmovShort_keeps)
    (fun _ _ _ => execAddiShort_keeps) (fun _ _ _ => execSlliShort_keeps) (fun _ _ _ => execSrliShort_keeps)
    (fun _ _ _ => execSraiShort_keeps) (fun _ _ _ => execLisShort_keeps) (fun _ _ _ => execCinciShort_keeps)
    (fun _ _ _ => execLdDShort_keeps) (fun _ _ _ => execStDShort_keeps) (fun _ _ _ => execLdWShort_keeps)
    (fun _ _ _ => execStWShort_keeps) (fun _ _ _ => execLdDC2Short_keeps) (fun _ _ _ => execStDC2Short_keeps)
    (fun _ _ _ => execLdCC2Short_keeps) (fun _ _ _ => execStCC2Short_keeps) (fun _ _ _ => execBeqShort_keeps)
    (fun _ _ _ => execBneShort_keeps) (fun _ _ => execJShort_keeps) (fun _ _ => execRetShort_keeps)
    (fun _ _ => execCallrShort_keeps) (fun _ _ _ => execVaddShort_keeps) (fun _ _ _ => execVmulShort_keeps)
    (fun _ _ _ => execVmovShort_keeps) (fun _ => execYieldShort_keeps) (fun _ _ => execWaitjShort_keeps)
    (fun _ => execExitShort_keeps) (fun _ _ _ => execLoopShort_keeps) (fun _ => execTrapEntry_keeps)
    (fun _ => execTcmpMatch_keeps) (fun _ _ => execSleepWake_keeps) (fun _ => execMatrixStep_keeps)
    (fun _ => execDrainCapture_keeps) (fun _ _ => execCopyBurst_keeps) (fun _ _ => execGatherComplete_keeps)
    (fun _ => execTaskDispatch_keeps) (fun _ => execStealRound_keeps) (fun _ => execStealAttempt_keeps)
    (fun _ _ => execLaunchOpen_keeps) (fun _ _ => execPhaseBarrier_keeps) (fun _ _ => execBureauRun_keeps)
    (fun _ => execSliceExpiry_keeps) (fun _ => execGangStop_keeps) (fun _ => execGangDrain_keeps)
    (fun _ => execGangSave_keeps) (fun _ _ => execLeaseExpiry_keeps) (fun _ => execEccUe_keeps)
    (fun _ => execActiveMessage_keeps) (fun _ => execRload_keeps) (fun _ => execRstore_keeps) (fun _ => execRatomic_keeps)
    (fun _ => execGstage_keeps) (fun _ => execPrepare_keeps) (fun _ => execPublish_keeps) (fun _ => execDiscard_keeps)
    (fun _ => execQuery_keeps) (fun _ => execBararr_keeps) (fun _ _ => execBarrierRetry_keeps) (fun _ => execSpwrite_keeps)
    (fun _ => execMwrite_keeps) (fun _ => execRgath_keeps) (fun _ => execRscat_keeps) (fun _ => execTrigger_keeps)
    (fun _ => execReply_keeps) (fun _ => execGstReply_keeps) (fun _ _ => execCommitHandover_keeps) (fun _ => execReady_keeps)
    (fun _ => execDecisionAck_keeps) (fun _ => execQueryAnswer_keeps) (fun _ _ => execPrepareTimeout_keeps)
    (fun _ _ _ => execStagingTimeout_keeps) (fun _ _ _ => execInDoubtTimer_keeps) (fun _ _ => execGwaitTimeLimit_keeps)
    (fun _ => execDemand_keeps) (fun _ => execGrant_keeps) (fun _ => execEack_keeps) (fun _ => execSlotreq_keeps)
    (fun _ => execSlotgnt_keeps) (fun _ _ _ => execRedContrib_keeps) (fun _ _ _ => execNodeTimeout_keeps)
    (fun _ => execRedResult_keeps) (fun _ _ => execFlit_keeps) (fun _ _ => execReplayRequest_keeps)
    (fun _ => execLinkReplayLimit_keeps) (fun _ _ => execE2eTimer_keeps) (fun _ => execLinkFailure_keeps)
    (fun _ => execTsync_keeps) (fun _ => execSyncTick_keeps) (fun _ => execSpillWrite_keeps) (fun _ => execChunkFetch_keeps)
    (fun _ => execIdent_keeps) (fun _ => execSemacq_keeps) (fun _ => execSemrel_keeps) (fun _ => execSemaphoreLoss_keeps)
    (fun _ _ => execJobstart_keeps) (fun _ _ => execJobstop_keeps) (fun _ _ => execJobresume_keeps)
    (fun _ _ => execJobremove_keeps) (fun _ _ => execGraphstart_keeps) (fun _ _ _ _ => execTlbinv_keeps)
    (fun _ _ => execDoorbell_keeps) (fun _ _ => execSetpkg_keeps) (fun _ _ _ => execRoutewr_keeps)
    (fun _ _ _ => execTreewr_keeps) (fun _ _ _ => execRateset_keeps) (fun _ _ _ => execFwload_keeps)
    (fun _ _ => execLinkretrain_keeps) (fun _ _ => execStackretire_keeps) (fun _ _ _ => execDieoff_keeps)
    (fun _ _ => execDieon_keeps) (fun _ _ => execAttest_keeps) (fun _ _ => execPowercap_keeps)
    (fun _ _ => execSbresolve_keeps) (fun _ => execSbresolveTimeout_keeps) (fun _ _ _ => execSblist_keeps)
    (fun _ _ _ _ _ => execSbdecide_keeps) (fun _ _ => execSblost_keeps) execPowerOn_keeps execReducedService_keeps
    (fun _ => execPartJoin_keeps) (fun _ => execThermalThrottle_keeps) (fun _ => execThermalShutdown_keeps)
    (fun _ _ _ => execVariableLatencyResult_keeps) (fun _ => execUnallocatedWord_keeps)
    (fun _ => execBarrierWaitRequest_keeps) (fun _ _ => execGwaitQueryRepeat_keeps) (fun _ => execLinkRetrainDone_keeps) i

theorem runFetched_keeps {n w : Nat} : KeepsNext s (runFetched n w s) := by
  unfold runFetched
  split
  · exact .from (latch_keeps (.refl s)) (exec_keeps _)
  · exact .from (latch_keeps (.refl s)) (exec_keeps _)

theorem attempt_keeps {h : Fin 11} : KeepsNext s (attempt h s) := by
  have ht : Keeps s (s.turnOf h) := turnOf_keeps (.refl s)
  unfold attempt
  dsimp only
  split
  · rename_i ho
    exact next_keeps (boundaryWork_keeps ht ho)
  split
  · rename_i hf
    exact .from (fetchHere_keeps.ok ht hf) runFetched_keeps
  · rename_i hf
    exact next_keeps (fetchTrap_keeps (fetchHere_keeps.error ht hf))
  · rename_i hf
    exact next_keeps (block_keeps (fetchHere_keeps.error ht hf))
  · exact fault_keeps

theorem issueFrom_keeps {u : State} {hs : List (Fin 11)} (h : Keeps s₀ s) : KeepsNext s₀ (issueFrom u hs s) := by
  induction hs generalizing s with
  | nil => exact next_keeps (cycleEnd_keeps h)
  | cons x xs ih =>
    unfold issueFrom
    split
    · rename_i ha
      have h1 := h.trans (attempt_keeps _ ha)
      split
      · exact ih (tookTurn_keeps h1)
      · exact next_keeps (cycleEnd_keeps (tookTurn_keeps h1))
    · exact .from h attempt_keeps

theorem cycle_keeps : KeepsNext s (cycle s) := by
  have ht : Keeps s s.timer := timer_keeps (.refl s)
  unfold cycle
  dsimp only
  split
  · exact next_keeps (tick_keeps (noIssue_keeps (answerStops_keeps (reachStop_keeps ht))))
  split
  · exact next_keeps (tick_keeps (noIssue_keeps ht))
  · exact issueFrom_keeps ht

theorem event_keeps {i : Instr} : KeepsNext s (event i s) := by
  unfold event
  split
  · exact fault_keeps
  split
  · split
    · split
      · rename_i ha
        exact next_keeps (focusOn_keeps ((focusOn_keeps (.refl s)).trans (attempt_keeps _ ha)))
      · exact .from (focusOn_keeps (.refl s)) attempt_keeps
    · exact exec_keeps _
  · exact exec_keeps _

theorem move_keeps : KeepsNext s (move s) := by
  unfold move
  split
  · exact .from (cycleStart_keeps (.refl s)) cycle_keeps
  · exact .from (focusOn_keeps (cycleStart_keeps (.refl s))) cycle_keeps
  · exact .from (begun_keeps (.refl s)) event_keeps
  · split
    · exact next_keeps (.same (.refl s) rfl rfl rfl rfl)
    split
    · exact .from (begun_keeps (.refl s)) (exec_keeps _)
    · exact next_keeps (.same (.refl s) rfl rfl rfl rfl)
  · exact next_keeps (.same (.refl s) rfl rfl rfl rfl)

theorem step_keeps : KeepsNext s (step s) := by
  have hm : KeepsNext s (move s) := move_keeps
  unfold step
  split
  · exact hm
  · rename_i ho _
    refine next_keeps (afterStep_keeps ?_)
    split
    · exact postponed_keeps (.refl s)
    · exact hm _ ho
  · exact hm

/-! ### The two invariants -/

/-- Settles O59: memory changes only through operations that keep its form (`step_keeps`). -/
theorem memoryStaysCanonical : Obligations.MemoryStaysCanonical :=
  fun _ _ hm hs => (step_keeps _ hs).mem hm

/-- The cores of the package, and the records saved, that the obligation speaks of. -/
theorem allLegal_iff : AllLegal s ↔ (∀ c ∈ s.allCores, Legal c) ∧ ∀ j ∈ s.jobs, ∀ c ∈ j.saved, Legal c := by
  constructor
  · rintro ⟨hc, ho, hs⟩
    exact ⟨List.forall_mem_cons.mpr ⟨hc, ho⟩, hs⟩
  · rintro ⟨hc, hs⟩
    obtain ⟨hc, ho⟩ := List.forall_mem_cons.mp hc
    exact ⟨hc, ho, hs⟩

/-- Settles O60: the boundaries and RMODE change only through writes that check them, a start of a job, and a restore of saved
records (`step_keeps`). -/
theorem coreSettingsStayLegal : Obligations.CoreSettingsStayLegal := by
  intro s t legal all hall hs
  exact allLegal_iff.mp ((step_keeps t hs).legal (allLegal_iff.mpr hall))

end Sys2Proof.Proofs
end

section
/-! PROOFS. Products, divisions and bit counts (R120): the exact numbers behind the word operations, and bytes of numbers. -/
namespace Sys2Proof.Proofs
open Sys2Proof Sys2Proof.Machine Sys2Proof.Laws
set_option Elab.async false

/-! ### Bytes of a number (R72) -/

theorem length_leBytes (n x : Nat) : (leBytes n x).length = n := by
  induction n generalizing x with
  | zero => rfl
  | succ n ih => simp [leBytes, ih]

theorem leBytes_getElem? {n k : Nat} (x : Nat) (h : k < n) : (leBytes n x)[k]? = some (BitVec.ofNat 8 (x / 256 ^ k)) := by
  induction n generalizing x k with
  | zero => omega
  | succ n ih =>
    cases k with
    | zero => simp [leBytes]
    | succ k =>
      rw [leBytes, List.getElem?_cons_succ, ih (x / 256) (by omega), Nat.div_div_eq_div_mul, pow_succ']

theorem leNat_div_mod (bs : List Byte) (k : Nat) : leNat bs / 256 ^ k % 256 = (bs[k]?.getD 0).toNat := by
  induction bs generalizing k with
  | nil => simp [leNat]
  | cons b bs ih =>
    have hb := b.isLt
    cases k with
    | zero =>
      simp only [leNat, pow_zero, List.getElem?_cons_zero, Option.getD_some]
      omega
    | succ k =>
      rw [List.getElem?_cons_succ, ← ih k, leNat, pow_succ', ← Nat.div_div_eq_div_mul,
        show (b.toNat + 256 * leNat bs) / 256 = leNat bs by omega]

theorem leNat_lt (bs : List Byte) : leNat bs < 256 ^ bs.length := by
  induction bs with
  | nil => simp [leNat]
  | cons b bs ih =>
    have hb := b.isLt
    rw [leNat, List.length_cons, pow_succ']
    omega

theorem byte_eq (x : Word) (k : Nat) : ((x >>> (8 * k)).truncate 8).toNat = x.toNat / 256 ^ k % 256 := by
  rw [BitVec.truncate_eq_setWidth, BitVec.toNat_setWidth, BitVec.toNat_ushiftRight, Nat.shiftRight_eq_div_pow, pow_mul]
  norm_num

/-- BSWAP puts byte 7 - k where byte k was (R120). -/
theorem bswap64_byte (x : Word) (k : Fin 8) :
    (bswap64 x >>> (8 * k.val)).truncate 8 = (x >>> (8 * (7 - k.val))).truncate 8 := by
  have hk := k.isLt
  have hlt : leNat (leBytes 8 x.toNat).reverse < 2 ^ 64 := by
    have h := leNat_lt (leBytes 8 x.toNat).reverse
    rw [List.length_reverse, length_leBytes] at h
    exact h.trans_eq (by norm_num)
  have hget : (leBytes 8 x.toNat).reverse[k.val]? = some (BitVec.ofNat 8 (x.toNat / 256 ^ (7 - k.val))) := by
    rw [List.getElem?_reverse (by rw [length_leBytes]; exact hk), length_leBytes]
    exact leBytes_getElem? _ (by omega)
  apply BitVec.eq_of_toNat_eq
  rw [byte_eq, byte_eq, bswap64, BitVec.toNat_ofNat, Nat.mod_eq_of_lt hlt, leNat_div_mod, hget]
  simp

/-! ### Products (R79, R120) -/

/-- A product is on its way for three cycles; one for c0 is discarded. -/
theorem scalarMul_later {s : State} {st : Nat} {d a b : Fin 32} {f : Word → Word → Word} {v : Word}
    (h : s.CanIssue [rdC a, rdC b]) (hv : f (s.rx a) (s.rx b) = v) :
    if d = 0 then OnlyAdvances s (scalarMul st d a b f s)
    else WritesLater s (scalarMul st d a b f s) .c d.val (v.zeroExtend 1024) 3 := by
  have hr : scalarMul st d a b f s = s.retire st (s.laterX d v 3) := by
    subst hv
    exact issue_retires h rfl rfl (upd_run _ s)
  unfold State.laterX at hr
  split
  · rename_i hd
    rw [if_pos hd] at hr
    exact onlyAdvances_of hr
  · rename_i hd
    rw [if_neg hd] at hr
    exact writesLater_of hr

theorem mul_eq (x y : Word) : x * y = BitVec.ofInt 64 (x.toInt * y.toInt) := by
  rw [BitVec.ofInt_mul, BitVec.ofInt_toInt, BitVec.ofInt_toInt]

/-! ### Divisions (R120) -/

theorem toNat_eq_zero_iff (y : Word) : y.toNat = 0 ↔ y = 0 := BitVec.toNat_inj (y := 0)

theorem divS_eq {x y : Word} (hy : y.toNat ≠ 0) : divS x y = BitVec.ofInt 64 (x.toInt.tdiv y.toInt) := by
  rw [divS, if_neg (mt (toNat_eq_zero_iff y).mpr hy)]
  apply BitVec.eq_of_toInt_eq
  rw [BitVec.toInt_sdiv, BitVec.toInt_ofInt]

theorem remS_eq {x y : Word} (hy : y.toNat ≠ 0) : remS x y = BitVec.ofInt 64 (x.toInt.tmod y.toInt) := by
  rw [remS, if_neg (mt (toNat_eq_zero_iff y).mpr hy), ← BitVec.toInt_srem, BitVec.ofInt_toInt]

theorem divU_eq {x y : Word} (hy : y.toNat ≠ 0) : divU x y = BitVec.ofNat 64 (x.toNat / y.toNat) := by
  rw [divU, if_neg (mt (toNat_eq_zero_iff y).mpr hy)]
  apply BitVec.eq_of_toNat_eq
  rw [BitVec.toNat_udiv, BitVec.toNat_ofNat, Nat.mod_eq_of_lt ((Nat.div_le_self _ _).trans_lt x.isLt)]

theorem remU_eq {x y : Word} (hy : y.toNat ≠ 0) : remU x y = BitVec.ofNat 64 (x.toNat % y.toNat) := by
  rw [remU, if_neg (mt (toNat_eq_zero_iff y).mpr hy)]
  apply BitVec.eq_of_toNat_eq
  rw [BitVec.toNat_umod, BitVec.toNat_ofNat, Nat.mod_eq_of_lt ((Nat.mod_le _ _).trans_lt x.isLt)]

/-! ### Bit counts (R120) -/

theorem clzNat_bounds (x : Nat) (hx : x < 2 ^ 64) :
    x < 2 ^ (64 - clzNat 64 x) ∧ (x ≠ 0 → 2 ^ (63 - clzNat 64 x) ≤ x) ∧ (x = 0 → clzNat 64 x = 64) := by
  unfold clzNat
  by_cases h0 : x = 0
  · simp [h0]
  · have hl : Nat.log2 x < 64 := (Nat.log2_lt h0).mpr hx
    rw [if_neg h0, show 64 - (64 - (Nat.log2 x + 1)) = Nat.log2 x + 1 by omega,
      show 63 - (64 - (Nat.log2 x + 1)) = Nat.log2 x by omega]
    exact ⟨Nat.lt_log2_self, fun _ => Nat.log2_self_le h0, fun h => absurd h h0⟩

theorem ctzFrom_le (x i w : Nat) : ctzFrom x i w ≤ w := by
  induction w generalizing i with
  | zero => exact le_rfl
  | succ w ih =>
    rw [ctzFrom]
    split
    · omega
    · have := ih (i + 1)
      omega

theorem testBit_below_ctzFrom {x i w k : Nat} (h : k < ctzFrom x i w) : x.testBit (i + k) = false := by
  induction w generalizing i k with
  | zero => simp [ctzFrom] at h
  | succ w ih =>
    rw [ctzFrom] at h
    split at h
    · omega
    · rename_i hb
      cases k with
      | zero => simpa using hb
      | succ k =>
        rw [show i + (k + 1) = i + 1 + k by omega]
        exact ih (by omega)

theorem testBit_ctzFrom {x i w : Nat} (h : ctzFrom x i w < w) : x.testBit (i + ctzFrom x i w) = true := by
  induction w generalizing i with
  | zero => omega
  | succ w ih =>
    rw [ctzFrom] at h ⊢
    split
    · rename_i hb
      exact hb
    · rename_i hb
      rw [if_neg hb] at h
      rw [show i + (1 + ctzFrom x (i + 1) w) = i + 1 + ctzFrom x (i + 1) w by omega]
      exact ih (by omega)

theorem popcNat_eq (x n : Nat) : popcNat x n = ((List.range n).filter (fun k => x.testBit k)).length := by
  induction n with
  | zero => rfl
  | succ n ih =>
    rw [popcNat, List.range_succ, List.filter_append, List.length_append, ih, b2n]
    cases hb : x.testBit n <;> simp [hb, Nat.add_comm]

/-! ### The statement -/

/-- A bit count: its number is at most 64. -/
theorem count_writesC {s : State} {st : Nat} {d a : Fin 32} {f : Word → Word} {p : Nat → Prop} (v : Nat)
    (h : s.CanIssue [rdC a]) (hv : f (s.rx a) = BitVec.ofNat 64 v) (hp : p v) (hle : v ≤ 64) :
    ∃ v, p v ∧ v ≤ 64 ∧ WritesC s (scalarI st d a false f s) d (scalar (BitVec.ofNat 64 v)) :=
  ⟨v, hp, hle, scalarI_writesC h rfl hv⟩

/-- Settles O3: each function is its shared operation, with its value in exact arithmetic. -/
theorem productsDivisionsAndBitCounts : Obligations.ProductsDivisionsAndBitCounts := by
  refine ⟨fun s st d a b h => ?_, fun s st d a h => ?_⟩
  · intro x y m r
    refine ⟨(scalarMul_later h (mul_eq x y) :), (scalarMul_later h rfl :), (scalarMul_later h rfl :), fun hy => ?_, fun hy => ?_⟩
    · exact ⟨(scalar2_writesC h rfl (divS_eq hy) : WritesC s (execDiv st d a b s) d _),
        (scalar2_writesC h rfl (divU_eq hy) : WritesC s (execDivu st d a b s) d _),
        (scalar2_writesC h rfl (remS_eq hy) : WritesC s (execRem st d a b s) d _),
        (scalar2_writesC h rfl (remU_eq hy) : WritesC s (execRemu st d a b s) d _)⟩
    · have h0 : y = 0 := (toNat_eq_zero_iff y).mp hy
      exact ⟨(scalar2_writesC h rfl (if_pos h0) : WritesC s (execDiv st d a b s) d _),
        (scalar2_writesC h rfl (if_pos h0) : WritesC s (execDivu st d a b s) d _),
        (scalar2_writesC h rfl (if_pos h0) : WritesC s (execRem st d a b s) d _),
        (scalar2_writesC h rfl (if_pos h0) : WritesC s (execRemu st d a b s) d _)⟩
  · intro x r
    obtain ⟨hlt, hge, hz⟩ := clzNat_bounds x.toNat x.isLt
    refine ⟨?_, ?_, ?_, bswap64 x, bswap64_byte x, (scalarI_writesC h rfl rfl : WritesC s (execBswap st d a s) d _)⟩
    · exact count_writesC (f := clz64) (clzNat 64 x.toNat) h rfl
        ⟨hlt, hge, fun h0 => hz ((toNat_eq_zero_iff x).mpr h0)⟩ (Nat.sub_le _ _)
    · refine count_writesC (f := ctz64) (ctzFrom x.toNat 0 64) h rfl ⟨fun k hk => ?_, fun hk => ?_⟩ (ctzFrom_le _ _ _)
      · rw [BitVec.getLsbD, ← Nat.zero_add k]
        exact testBit_below_ctzFrom hk
      · have hb := testBit_ctzFrom hk
        rwa [Nat.zero_add] at hb
    · refine count_writesC (f := popc64) (popcNat x.toNat 64) h rfl (popcNat_eq _ _) ?_
      rw [popcNat_eq]
      exact (List.length_filter_le _ _).trans_eq List.length_range

end Sys2Proof.Proofs
end

section
/-! PROOFS. Capability instructions (R109 to R113, R122 to R124): the fields, bounds and windows of derived capabilities, the
smallest exponent that fits, and what no derivation adds. -/
namespace Sys2Proof.Proofs
open Sys2Proof Sys2Proof.Machine Sys2Proof.Laws
set_option Elab.async false

/-! ### Fields (R109) -/

theorem capA_capBits (a p e b l : Nat) (t : Bool) : capA ⟨capBits a p e b l, t⟩ = a % 2 ^ 80 := by
  simp only [capA, capBits, BitVec.toNat_ofNat]
  omega

theorem capP_capBits (a p e b l : Nat) (t : Bool) : capP ⟨capBits a p e b l, t⟩ = p % 4096 := by
  simp only [capP, capBits, BitVec.toNat_ofNat]
  omega

theorem capE_capBits (a p e b l : Nat) (t : Bool) : capE ⟨capBits a p e b l, t⟩ = e % 64 := by
  simp only [capE, capBits, BitVec.toNat_ofNat]
  omega

theorem capB_capBits (a p e b l : Nat) (t : Bool) : capB ⟨capBits a p e b l, t⟩ = b % 32768 := by
  simp only [capB, capBits, BitVec.toNat_ofNat]
  omega

theorem capL_capBits (a p e b l : Nat) (t : Bool) : capL ⟨capBits a p e b l, t⟩ = l % 32768 := by
  simp only [capL, capBits, BitVec.toNat_ofNat]
  omega

theorem capP_lt (c : Cap) : capP c < 4096 := Nat.mod_lt _ (by decide)
theorem capE_lt (c : Cap) : capE c < 64 := Nat.mod_lt _ (by decide)
theorem capB_lt (c : Cap) : capB c < 32768 := Nat.mod_lt _ (by decide)
theorem capL_lt (c : Cap) : capL c < 32768 := Nat.mod_lt _ (by decide)

/-! ### The base stands in the window of every address (R112, R113) -/

/-- An address splits at the base's exponent. -/
theorem address_split (a e : Nat) :
    (a : Int) = (a / 2 ^ (e + 15) : Nat) * ((2 ^ (e + 15) : Nat) : Int) + ((a / 2 ^ e % 32768 * 2 ^ e + a % 2 ^ e : Nat) : Int) := by
  have h1 := Nat.div_add_mod a (2 ^ e)
  have h2 := Nat.div_add_mod (a / 2 ^ e) 32768
  have h3 : a / 2 ^ (e + 15) = a / 2 ^ e / 32768 := by
    rw [Nat.div_div_eq_div_mul, pow_add]
    norm_num
  rw [h3]
  push_cast
  zify at h1 h2
  rw [pow_add]
  linear_combination -h1 - 2 ^ e * h2

/-- The decoded base is at or below the address, and less than a window below it. -/
theorem capBase_window (c : Cap) : capBase c ≤ capA c ∧ (capA c : Int) < capBase c + ((2 ^ (capE c + 15) : Nat) : Int) := by
  have hs := address_split (capA c) (capE c)
  have hr : capA c % 2 ^ capE c < 2 ^ capE c := Nat.mod_lt _ (Nat.two_pow_pos _)
  have hg : 2 ^ (capE c + 15) = 32768 * 2 ^ capE c := by
    rw [pow_add, mul_comm]
    norm_num
  have hm : capA c / 2 ^ capE c % 32768 < 32768 := Nat.mod_lt _ (by decide)
  have hb := capB_lt c
  simp only [capBase]
  generalize (capA c / 2 ^ (capE c + 15) : Nat) = hi at *
  generalize capA c / 2 ^ capE c % 32768 = mid at *
  generalize capA c % 2 ^ capE c = r at *
  rw [hs, hg]
  generalize 2 ^ capE c = u at *
  by_cases hk : mid < capB c
  · have h1 : (mid + 1) * u ≤ capB c * u := Nat.mul_le_mul_right _ hk
    have h2 : capB c * u ≤ 32768 * u := Nat.mul_le_mul_right _ hb.le
    rw [if_pos hk]
    push_cast
    zify at h1 h2 hr
    constructor <;> nlinarith
  · have h1 : capB c * u ≤ mid * u := Nat.mul_le_mul_right _ (not_lt.mp hk)
    have h2 : (mid + 1) * u ≤ 32768 * u := Nat.mul_le_mul_right _ hm
    rw [if_neg hk]
    push_cast
    zify at h1 h2 hr
    constructor <;> nlinarith

/-- Two capabilities of one base field and exponent decode to the same base where each address is in the other's window. -/
theorem capBase_eq {c d : Cap} (he : capE d = capE c) (hb : capB d = capB c) (hlo : capBase c ≤ capA d)
    (hhi : (capA d : Int) < capBase c + ((2 ^ (capE c + 15) : Nat) : Int)) : capBase d = capBase c := by
  obtain ⟨hdl, hdh⟩ := capBase_window d
  rw [he] at hdh
  have hc : ∃ q : Int, capBase c = q * ((2 ^ (capE c + 15) : Nat) : Int) + ((capB c * 2 ^ capE c : Nat) : Int) := ⟨_, rfl⟩
  have hd : ∃ q : Int, capBase d = q * ((2 ^ (capE d + 15) : Nat) : Int) + ((capB d * 2 ^ capE d : Nat) : Int) := ⟨_, rfl⟩
  obtain ⟨q, hq⟩ := hc
  obtain ⟨r, hr⟩ := hd
  rw [he, hb] at hr
  have hpos : (0 : Int) < ((2 ^ (capE c + 15) : Nat) : Int) := by exact_mod_cast Nat.two_pow_pos _
  generalize ((2 ^ (capE c + 15) : Nat) : Int) = g at *
  have hqr : q = r := by nlinarith
  rw [hq, hr, hqr]

theorem capTop_eq {c d : Cap} (he : capE d = capE c) (hl : capL d = capL c) (hb : capBase d = capBase c) : capTop d = capTop c := by
  simp only [capTop]
  rw [he, hl, hb]

/-! ### Moves (R113, R122) -/

theorem inWindow_eq (c : Cap) (p : Int) :
    inWindow c p = decide (capBase c ≤ p ∧ p < capBase c + 2 ^ (capE c + 15) ∧ 0 ≤ p ∧ p < 2 ^ 80) := by
  rw [Bool.eq_iff_iff]
  simp only [inWindow, Bool.and_eq_true, decide_eq_true_eq]
  push_cast
  tauto

theorem capMove_eq (c : Cap) (p : Int) : capMove c p =
    ⟨capBits (p % 2 ^ 80).toNat (capP c) (capE c) (capB c) (capL c),
      c.tag && decide (capBase c ≤ p ∧ p < capBase c + 2 ^ (capE c + 15) ∧ 0 ≤ p ∧ p < 2 ^ 80)⟩ := by
  rw [capMove, inWindow_eq]
  rfl

/-- What bounds a capability's authority: base, top and permissions. -/
def Covers (x y : Cap) : Prop := capBase x ≤ capBase y ∧ capTop y ≤ capTop x ∧ ∀ k, capHas y k → capHas x k

theorem Covers.refl (x : Cap) : Covers x x := ⟨le_rfl, le_rfl, fun _ h => h⟩

/-- A move inside the window keeps base, top and permissions. -/
theorem capMove_covered {c : Cap} {p : Int} (h : (capMove c p).tag = true) : c.tag = true ∧ Covers c (capMove c p) := by
  simp only [capMove, Bool.and_eq_true, inWindow, decide_eq_true_eq] at h
  obtain ⟨ht, ⟨⟨h0, hlo⟩, hhi⟩, hlt⟩ := h
  have hp : addr80 p = p.toNat := by
    rw [addr80, Int.emod_eq_of_lt h0 (by exact_mod_cast hlt)]
  have hA : (capA (capMove c p) : Int) = p := by
    rw [show capA (capMove c p) = addr80 p % 2 ^ 80 from capA_capBits _ _ _ _ _ _, hp]
    omega
  have hE : capE (capMove c p) = capE c := (capE_capBits _ _ _ _ _ _).trans (Nat.mod_eq_of_lt (capE_lt c))
  have hB : capB (capMove c p) = capB c := (capB_capBits _ _ _ _ _ _).trans (Nat.mod_eq_of_lt (capB_lt c))
  have hL : capL (capMove c p) = capL c := (capL_capBits _ _ _ _ _ _).trans (Nat.mod_eq_of_lt (capL_lt c))
  have hP : capP (capMove c p) = capP c := (capP_capBits _ _ _ _ _ _).trans (Nat.mod_eq_of_lt (capP_lt c))
  have hbase : capBase (capMove c p) = capBase c := capBase_eq hE hB (by rw [hA]; exact hlo) (by rw [hA]; exact hhi)
  refine ⟨ht, hbase.ge, (capTop_eq hE hL hbase).le, fun k hk => ?_⟩
  rwa [capHas, hP] at hk

/-! ### Halves of exact numbers (R122) -/

theorem half_eq (h : Fin 2) (x : Int) : half h x = BitVec.ofInt 64 (if h = 0 then x % 2 ^ 64 else x % 2 ^ 81 / 2 ^ 64) := by
  unfold half
  split
  · rw [← BitVec.toInt_inj, BitVec.toInt_ofInt, BitVec.toInt_ofInt]
    exact (Int.emod_bmod x (2 ^ 64)).symm
  · have h0 : (0 : Int) ≤ x % 2 ^ 81 := Int.emod_nonneg _ (by norm_num)
    have h1 : ((x % ((2 ^ 81 : Nat) : Int)).toNat : Int) = x % 2 ^ 81 := Int.toNat_of_nonneg h0
    rw [utrunc, ← BitVec.ofInt_natCast, Int.natCast_ediv, h1]
    rfl

/-! ### CTEST (R124) -/

theorem capWithin_iff (x y : Cap) : capWithin x y = true ↔
    x.tag ∧ y.tag ∧ capBase x ≤ capBase y ∧ capTop y ≤ capTop x ∧ ∀ k : Fin 12, capHas y k → capHas x k := by
  have hand : capP y &&& capP x = capP y ↔ ∀ k : Fin 12, capHas y k → capHas x k := by
    constructor
    · intro h k hk
      rw [capHas, ← h, Nat.testBit_and] at hk
      exact (Bool.and_eq_true_iff.mp hk).2
    · intro h
      apply Nat.eq_of_testBit_eq
      intro k
      rw [Nat.testBit_and]
      by_cases hk : k < 12
      · cases hy : (capP y).testBit k with
        | false => rfl
        | true =>
          rw [Bool.true_and]
          exact h ⟨k, hk⟩ hy
      · rw [Nat.testBit_lt_two_pow (x := capP y) ((capP_lt y).trans_le (Nat.pow_le_pow_right (by decide : 0 < 2) (show 12 ≤ k by omega)))]
        rfl
  simp only [capWithin, Bool.and_eq_true, decide_eq_true_eq, beq_iff_eq, hand, and_assoc]

/-! ### Bounds (R123) -/

/-- The length mantissa that an exponent needs. -/
def mantissa (lo hi e : Nat) : Nat := (hi + 2 ^ e - 1) / 2 ^ e - lo / 2 ^ e

theorem roundedLength (lo hi e : Nat) :
    ((hi + 2 ^ e - 1) / 2 ^ e * 2 ^ e - lo / 2 ^ e * 2 ^ e) / 2 ^ e = mantissa lo hi e := by
  rw [← Nat.sub_mul, Nat.mul_div_cancel _ (Nat.two_pow_pos e), mantissa]

/-- An exponent of 50 fits every length of 64 bits. -/
theorem mantissa_fifty (lo n : Nat) (hn : n < 2 ^ 64) : mantissa lo (lo + n) 50 ≤ 0x7FFF := by
  unfold mantissa
  omega

/-- The search returns the smallest exponent that fits. -/
theorem fitBounds_smallest (lo n : Nat) (hn : n < 2 ^ 64) : ∃ e ≤ 50, mantissa lo (lo + n) e ≤ 0x7FFF ∧
    (∀ e' < e, ¬ mantissa lo (lo + n) e' ≤ 0x7FFF) ∧
    fitBounds lo (lo + n) = some (lo / 2 ^ e * 2 ^ e, (lo + n + 2 ^ e - 1) / 2 ^ e * 2 ^ e, e) := by
  have hex : ∃ e, mantissa lo (lo + n) e ≤ 0x7FFF := ⟨50, mantissa_fifty lo n hn⟩
  have hle : Nat.find hex ≤ 50 := Nat.find_min' hex (mantissa_fifty lo n hn)
  refine ⟨Nat.find hex, hle, Nat.find_spec hex, fun e' he' => Nat.find_min hex he', ?_⟩
  unfold fitBounds
  obtain ⟨l, r, hlr, hl⟩ : ∃ l r, List.range 51 = l ++ Nat.find hex :: r ∧ ∀ e ∈ l, e < Nat.find hex := by
    refine ⟨List.range (Nat.find hex), (List.range (50 - Nat.find hex)).map (Nat.find hex + 1 + ·), ?_, fun e he => List.mem_range.mp he⟩
    rw [show 51 = Nat.find hex + 1 + (50 - Nat.find hex) by omega, List.range_add, List.range_succ, List.append_assoc]
    rfl
  rw [hlr, List.findSome?_append, List.findSome?_eq_none_iff.mpr, Option.none_or, List.findSome?_cons]
  · dsimp only
    rw [roundedLength, if_pos (Nat.find_spec hex)]
  · intro e he
    dsimp only
    rw [roundedLength, if_neg (Nat.find_min hex (hl e he))]

/-- What CSETB, CSETBX and CSETBI leave: the smallest exponent's fields, and the tag where the rounded bounds lie within. -/
theorem capSetBounds_eq (c : Cap) (n : Nat) (hn : n < 2 ^ 64) (x : Bool) : ∃ e ≤ 50,
    mantissa (capA c) (capA c + n) e ≤ 0x7FFF ∧ (∀ e' < e, ¬ mantissa (capA c) (capA c + n) e' ≤ 0x7FFF) ∧
    ∃ tag : Bool,
      capSetBounds c n x = ⟨capBits (capA c) (capP c) e (capA c / 2 ^ e % 32768) (mantissa (capA c) (capA c + n) e), tag⟩ ∧
      (tag = true ↔ c.tag = true ∧ (capA c + n + 2 ^ e - 1) / 2 ^ e * 2 ^ e ≤ 2 ^ 80 ∧
        capBase c ≤ (capA c / 2 ^ e * 2 ^ e : Nat) ∧ ((capA c + n + 2 ^ e - 1) / 2 ^ e * 2 ^ e : Nat) ≤ capTop c ∧
        (x = true → capA c / 2 ^ e * 2 ^ e = capA c ∧ (capA c + n + 2 ^ e - 1) / 2 ^ e * 2 ^ e = capA c + n)) := by
  obtain ⟨e, he, hfit, hmin, hb⟩ := fitBounds_smallest (capA c) n hn
  refine ⟨e, he, hfit, hmin, ?_⟩
  unfold capSetBounds
  dsimp only
  rw [hb]
  dsimp only
  rw [roundedLength]
  refine ⟨_, rfl, ?_⟩
  cases x <;> simp [and_assoc]

/-- Where they are tagged, their base and top are the rounded ones. -/
theorem capSetBounds_covered {c : Cap} {n : Nat} (hn : n < 2 ^ 64) {x : Bool} (h : (capSetBounds c n x).tag = true) :
    c.tag = true ∧ Covers c (capSetBounds c n x) := by
  obtain ⟨e, he, hfit, -, tag, hc, htag⟩ := capSetBounds_eq c n hn x
  rw [hc] at h ⊢
  obtain ⟨ht, htop, hlo, hhi, -⟩ := htag.mp h
  have hE : e % 64 = e := Nat.mod_eq_of_lt (by omega)
  have hA : capA c % 2 ^ 80 = capA c := Nat.mod_eq_of_lt (capA_lt c)
  have hbase : capBase ⟨capBits (capA c) (capP c) e (capA c / 2 ^ e % 32768) (mantissa (capA c) (capA c + n) e), tag⟩ =
      (capA c / 2 ^ e * 2 ^ e : Nat) := by
    have hs := address_split (capA c) e
    have hd := Nat.div_add_mod (capA c) (2 ^ e)
    simp only [capBase, capA_capBits, capB_capBits, capE_capBits, hE, hA, Nat.mod_mod, lt_irrefl, if_false]
    push_cast at hs ⊢
    zify at hd
    linear_combination -hs - hd
  have hL : capTop ⟨capBits (capA c) (capP c) e (capA c / 2 ^ e % 32768) (mantissa (capA c) (capA c + n) e), tag⟩ =
      ((capA c + n + 2 ^ e - 1) / 2 ^ e * 2 ^ e : Nat) := by
    have hle : capA c / 2 ^ e ≤ (capA c + n + 2 ^ e - 1) / 2 ^ e :=
      Nat.div_le_div_right (by have := Nat.two_pow_pos e; omega)
    have hsum : (capA c / 2 ^ e * 2 ^ e : Nat) + (mantissa (capA c) (capA c + n) e * 2 ^ e : Nat) =
        (capA c + n + 2 ^ e - 1) / 2 ^ e * 2 ^ e := by
      rw [← Nat.add_mul, mantissa, Nat.add_sub_cancel' hle]
    have hm : mantissa (capA c) (capA c + n) e % 32768 = mantissa (capA c) (capA c + n) e := Nat.mod_eq_of_lt (by omega)
    simp only [capTop]
    rw [hbase, capL_capBits, capE_capBits, hE, hm, ← Nat.cast_add, hsum]
    split
    · rfl
    · rename_i hge
      exact congrArg _ (le_antisymm (Nat.le_of_not_lt (mt Int.ofNat_lt.mpr hge)) htop)
  refine ⟨ht, hbase ▸ hlo, hL ▸ hhi, fun k hk => ?_⟩
  rwa [capHas, capP_capBits, Nat.mod_eq_of_lt (capP_lt c)] at hk

/-! ### The statements -/

theorem derive2_writesC {s : State} {st : Nat} {d a b : Fin 32} {f : Cap → Cap → Cap} {v : Cap}
    (h : s.CanIssue [rdC a, rdC b]) (hv : f (s.rc a) (s.rc b) = v) : WritesC s (derive2 st d a b f s) d v := by
  subst hv
  exact issue_writesC (fun s => f (s.rc a) (s.rc b)) h rfl rfl

/-- A context that may issue reading more registers may issue reading fewer. -/
theorem canIssue_subset {s : State} {rs qs : List (RegFile × Nat)} (h : s.CanIssue rs) (hq : ∀ r ∈ qs, r ∈ rs) : s.CanIssue qs :=
  ⟨h.notStopped, h.noCause, fun hs r hr => h.fixReady hs r (hq r hr), fun r hr => h.varReady r (hq r hr)⟩

theorem derive1_writesC' {s : State} {st : Nat} {d a b : Fin 32} {ill : Bool} {f : Cap → Cap} {v : Cap}
    (h : s.CanIssue [rdC a, rdC b]) (hi : ill = false) (hv : f (s.rc a) = v) : WritesC s (derive1 st d a ill f s) d v :=
  derive1_writesC (canIssue_subset h (by simp)) hi hv

/-- What a bounds-setting instruction leaves, as its statement says it. -/
theorem setBounds_writesC {s : State} {o : Host.Outcome State Fault Refusal} {d a : Fin 32} {n : Nat} (x : Bool)
    {exact_ : Prop → Prop} (hx : ∀ p, exact_ p ↔ (x = true → p)) (hn : n < 2 ^ 64)
    (hw : WritesC s o d (capSetBounds (s.rc a) n x)) :
    let lo := capA (s.rc a)
    let fits (n e : Nat) : Prop := ((lo + n + 2 ^ e - 1) / 2 ^ e - lo / 2 ^ e) ≤ 0x7FFF
    ∃ e ≤ 50, fits n e ∧ (∀ e' < e, ¬ fits n e') ∧
      let b2 := lo / 2 ^ e * 2 ^ e
      let t2 := (lo + n + 2 ^ e - 1) / 2 ^ e * 2 ^ e
      ∃ tag : Bool, WritesC s o d ⟨capBits lo (capP (s.rc a)) e (lo / 2 ^ e % 32768) ((t2 - b2) / 2 ^ e), tag⟩ ∧
        (tag = true ↔ (s.rc a).tag = true ∧ t2 ≤ 2 ^ 80 ∧ capBase (s.rc a) ≤ b2 ∧ t2 ≤ capTop (s.rc a) ∧
          exact_ (b2 = lo ∧ t2 = lo + n)) := by
  intro lo fits
  obtain ⟨e, he, hfit, hmin, tag, hc, htag⟩ := capSetBounds_eq (s.rc a) n hn x
  refine ⟨e, he, hfit, hmin, tag, ?_, ?_⟩
  · rw [roundedLength, ← hc]
    exact hw
  · rw [hx]
    exact htag

theorem execCsetb_writesC {s : State} {st : Fin 8} {d a b : Fin 32} (h : s.CanIssue [rdC a, rdC b]) :
    WritesC s (execCsetb st d a b s) d (capSetBounds (s.rc a) (s.rx b).toNat false) :=
  issue_writesC (fun s => capSetBounds (s.rc a) (capX (s.rc b)).toNat false) h rfl rfl

theorem execCsetbx_writesC {s : State} {st : Fin 8} {d a b : Fin 32} (h : s.CanIssue [rdC a, rdC b]) :
    WritesC s (execCsetbx st d a b s) d (capSetBounds (s.rc a) (s.rx b).toNat true) :=
  issue_writesC (fun s => capSetBounds (s.rc a) (capX (s.rc b)).toNat true) h rfl rfl

theorem execCsetbi_writesC {s : State} {st : Fin 8} {d a : Fin 32} {i : BitVec 7} (h : s.CanIssue [rdC a]) (hi : i.msb = false) :
    WritesC s (execCsetbi st d a i s) d (capSetBounds (s.rc a) i.toNat false) :=
  issue_writesC (fun s => capSetBounds (s.rc a) i.toNat false) h hi rfl

/-- Settles O4: each row is a shared operation on one or two registers, with its value; the smallest exponent that fits is the one
the search of R123 finds. -/
theorem capabilityInstructions : Obligations.CapabilityInstructions := by
  refine ⟨fun s st d a b h i hi => ?_, fun s st d a b i hi => ?_⟩
  · intro x y v w moved part
    refine ⟨(derive1_writesC' hi rfl rfl : WritesC s (execCmov st d a s) d _),
      (derive2_writesC hi (capMove_eq x _) : WritesC s (execCinc st d a b s) d _),
      (derive1_writesC' hi rfl (capMove_eq x _) : WritesC s (execCinci st d a i s) d _),
      ?_, (derive2_writesC hi rfl : WritesC s (execCandp st d a b s) d _),
      (derive1_writesC' hi rfl (congrArg scalar (half_eq h _)) : WritesC s (execCgeta st d a h s) d _),
      (derive1_writesC' hi rfl (congrArg scalar (half_eq h _)) : WritesC s (execCgetb st d a h s) d _),
      (derive1_writesC' hi rfl (congrArg scalar (half_eq h _)) : WritesC s (execCgett st d a h s) d _),
      (derive1_writesC' hi rfl rfl : WritesC s (execCgetp st d a s) d _),
      (derive1_writesC' hi rfl rfl : WritesC s (execCgettag st d a s) d _),
      (derive1_writesC' hi rfl rfl : WritesC s (execCclrtag st d a s) d _),
      (derive2_writesC hi rfl : WritesC s (execCsub st d a b s) d _), ?_⟩
    · refine (derive2_writesC hi ?_ : WritesC s (execCseta st d a b s) d _)
      rw [capMove_eq]
      rfl
    · refine (derive2_writesC hi ?_ : WritesC s (execCtest st d a b s) d _)
      congr 1
      unfold wb
      exact if_congr (capWithin_iff x y) rfl rfl
  · intro x lo fits set
    refine ⟨setBounds_writesC (exact_ := fun _ => True) false (fun _ => by simp) (s.rx b).isLt (execCsetb_writesC hi),
      setBounds_writesC (exact_ := fun p => p) true (fun _ => by simp) (s.rx b).isLt (execCsetbx_writesC hi),
      fun hp => setBounds_writesC (exact_ := fun _ => True) false (fun _ => by simp) (i.isLt.trans (by decide))
        (execCsetbi_writesC (canIssue_subset hi (by simp)) hp),
      fun hp => issue_traps_illegal _ hi.notStopped hp⟩

/-- An instruction whose one register holds a capability that a source covers adds no authority. -/
theorem writesC_covered {s : State} {o : Host.Outcome State Fault Refusal} {d : Fin 32} {v : Cap} {srcs : List (Fin 32)}
    (hw : WritesC s o d v) (hv : v.tag = true → ∃ q ∈ srcs, (s.rc q).tag = true ∧ Covers (s.rc q) v) :
    ∃ t, o = .next t ∧ ((t.rc d).tag = true → ∃ q ∈ srcs, (s.rc q).tag = true ∧ capBase (s.rc q) ≤ capBase (t.rc d) ∧
      capTop (t.rc d) ≤ capTop (s.rc q) ∧ ∀ k : Nat, capHas (t.rc d) k → capHas (s.rc q) k) := by
  obtain ⟨t, ho, -, -, hd, -⟩ := hw
  refine ⟨t, ho, fun ht => ?_⟩
  rw [hd] at ht ⊢
  split at ht
  · cases ht
  · rename_i h0
    rw [if_neg h0]
    exact hv ht

theorem candp_covers (x : Cap) (n : Nat) :
    Covers x ⟨capBits (capA x) (capP x &&& n % 4096) (capE x) (capB x) (capL x), x.tag⟩ := by
  have hE : capE ⟨capBits (capA x) (capP x &&& n % 4096) (capE x) (capB x) (capL x), x.tag⟩ = capE x :=
    (capE_capBits _ _ _ _ _ _).trans (Nat.mod_eq_of_lt (capE_lt x))
  have hB : capB ⟨capBits (capA x) (capP x &&& n % 4096) (capE x) (capB x) (capL x), x.tag⟩ = capB x :=
    (capB_capBits _ _ _ _ _ _).trans (Nat.mod_eq_of_lt (capB_lt x))
  have hL : capL ⟨capBits (capA x) (capP x &&& n % 4096) (capE x) (capB x) (capL x), x.tag⟩ = capL x :=
    (capL_capBits _ _ _ _ _ _).trans (Nat.mod_eq_of_lt (capL_lt x))
  have hA : capA ⟨capBits (capA x) (capP x &&& n % 4096) (capE x) (capB x) (capL x), x.tag⟩ = capA x :=
    (capA_capBits _ _ _ _ _ _).trans (Nat.mod_eq_of_lt (capA_lt x))
  obtain ⟨hlo, hhi⟩ := capBase_window x
  have hbase := capBase_eq hE hB (by rw [hA]; exact hlo) (by rw [hA]; exact hhi)
  refine ⟨hbase.ge, (capTop_eq hE hL hbase).le, fun k hk => ?_⟩
  have hlt : capP x &&& n % 4096 < 4096 := Nat.and_le_left.trans_lt (capP_lt x)
  rw [capHas, capP_capBits, Nat.mod_eq_of_lt hlt, Nat.testBit_and] at hk
  exact (Bool.and_eq_true_iff.mp hk).1

theorem writesC_covered_by {s : State} {q r : Fin 32} {o : Host.Outcome State Fault Refusal} {srcs : List (Fin 32)} {v : Cap}
    (hq : q ∈ srcs) (hw : WritesC s o r v) (hv : v.tag = true → (s.rc q).tag = true ∧ Covers (s.rc q) v) :
    ∃ t, o = .next t ∧ ((t.rc r).tag = true → ∃ q ∈ srcs, (s.rc q).tag = true ∧ capBase (s.rc q) ≤ capBase (t.rc r) ∧
      capTop (t.rc r) ≤ capTop (s.rc q) ∧ ∀ k : Nat, capHas (t.rc r) k → capHas (s.rc q) k) :=
  writesC_covered hw fun ht => ⟨q, hq, hv ht⟩

theorem execCandp_writesC {s : State} {st : Fin 8} {d a b : Fin 32} (h : s.CanIssue [rdC a, rdC b]) :
    WritesC s (execCandp st d a b s) d
      ⟨capBits (capA (s.rc a)) (capP (s.rc a) &&& (s.rx b).toNat % 4096) (capE (s.rc a)) (capB (s.rc a)) (capL (s.rc a)), (s.rc a).tag⟩ :=
  issue_writesC (fun s => ⟨capBits (capA (s.rc a)) (capP (s.rc a) &&& (capX (s.rc b)).toNat % 4096) (capE (s.rc a)) (capB (s.rc a))
    (capL (s.rc a)), (s.rc a).tag⟩) h rfl rfl

theorem execCinc_writesC {s : State} {st : Fin 8} {d a b : Fin 32} (h : s.CanIssue [rdC a, rdC b]) :
    WritesC s (execCinc st d a b s) d (capMove (s.rc a) ((capA (s.rc a) : Int) + (s.rx b).toInt)) :=
  issue_writesC (fun s => capInc (s.rc a) (capX (s.rc b)).toInt) h rfl rfl

theorem execCseta_writesC {s : State} {st : Fin 8} {d a b : Fin 32} (h : s.CanIssue [rdC a, rdC b]) :
    WritesC s (execCseta st d a b s) d (capMove (s.rc a) ((capA (s.rc a) / 2 ^ 64 * 2 ^ 64 + (s.rx b).toNat : Nat) : Int)) :=
  issue_writesC (fun s => capMove (s.rc a) ((capA (s.rc a) / 2 ^ 64 * 2 ^ 64 + (capX (s.rc b)).toNat : Nat) : Int)) h rfl rfl

/-- Settles O5: every capability written is untagged, one read, or one that a source covers. -/
theorem authorityNeverGrows : Obligations.AuthorityNeverGrows := by
  intro s st st' d a b i x y holds
  refine ⟨fun h => writesC_covered_by (q := a) (by simp) (derive1_writesC h rfl rfl : WritesC s (execCmov st d a s) d _) fun ht => ⟨ht, .refl _⟩,
    fun h => writesC_covered_by (q := a) (by simp) (execCinc_writesC h) capMove_covered,
    fun h => writesC_covered_by (q := a) (by simp) (execCseta_writesC h) capMove_covered,
    fun h => writesC_covered_by (q := a) (by simp) (execCsetb_writesC h) (capSetBounds_covered (s.rx b).isLt),
    fun h => writesC_covered_by (q := a) (by simp) (execCsetbx_writesC h) (capSetBounds_covered (s.rx b).isLt),
    fun h => writesC_covered_by (q := a) (by simp) (execCandp_writesC h) fun ht => ⟨ht, candp_covers _ _⟩,
    fun h => writesC_covered_by (q := a) (by simp) (derive1_writesC h rfl rfl : WritesC s (execCinci st d a i s) d _)
      capMove_covered,
    fun hp h => writesC_covered_by (q := a) (by simp) (execCsetbi_writesC h hp) (capSetBounds_covered (n := i.toNat) (i.isLt.trans (by decide))),
    fun h => writesC_covered_by (q := a) (by simp) (derive1_writesC h rfl rfl : WritesC s (execCclrtag st d a s) d _)
      (nomatch ·),
    fun h => writesC_covered (sel_writesC h) fun ht => ?_,
    fun h => writesC_covered_by (q := ⟨y.val, by omega⟩) (by simp) (derive1_writesC h rfl rfl : WritesC s (execCmovShort st' x y s) _ _)
      fun ht => ⟨ht, .refl _⟩,
    fun h => writesC_covered_by (q := ⟨x.val, by omega⟩) (by simp) (derive1_writesC h rfl rfl : WritesC s (execCinciShort st' x y s) _ _)
      capMove_covered⟩
  by_cases h0 : s.rx d = 0
  · rw [if_pos h0] at ht ⊢
    exact ⟨b, by simp, ht, .refl _⟩
  · rw [if_neg h0] at ht ⊢
    exact ⟨a, by simp, ht, .refl _⟩

end Sys2Proof.Proofs
end

section
/-! PROOFS. The counted loop (R130 to R133): where a body instruction leaves the loop, LOOP, LEXIT, and what a body forbids. -/
namespace Sys2Proof.Proofs
open Sys2Proof Sys2Proof.Machine Sys2Proof.Laws
set_option Elab.async false

variable {s t u : State} {st : Nat}

/-! ### A body instruction retires (R131) -/

/-- Inside a body the loop steps, and PCC goes where it says. -/
theorem finish_inBody (h : t.ctx.loop.lact = true) :
    (t.finish st true).ctx.loop = (t.ctx.loop.advance t.ctx.npc).1 ∧
    (t.finish st true).ctx.pcc = capMove t.ctx.pcc (t.ctx.loop.advance t.ctx.npc).2.toNat := by
  unfold State.finish
  rw [ctx_count, ctx_setCtx]
  simp [h]

theorem advance_inside {l : Loop} (npc : Addr) (h : l.lidx + 1 ≠ l.llen) : l.advance npc = ({ l with lidx := l.lidx + 1 }, npc) :=
  if_neg h

theorem advance_around {l : Loop} (npc : Addr) (h : l.lidx + 1 = l.llen) (hc : l.liter + 1 ≠ l.lcnt) :
    l.advance npc = ({ l with lidx := 0, liter := l.liter + 1 }, l.lbeg) :=
  (if_pos h).trans (if_neg hc)

theorem advance_over {l : Loop} (npc : Addr) (h : l.lidx + 1 = l.llen) (hc : l.liter + 1 = l.lcnt) :
    l.advance npc = ({ l with lidx := 0, liter := l.liter + 1, lact := false }, l.lbeg + BitVec.ofNat 80 l.lsz) :=
  (if_pos h).trans (if_pos hc)

theorem wc_ctx_places (s : State) (d : Fin 32) (v : Cap) :
    (s.wc d v).ctx.pcc = s.ctx.pcc ∧ (s.wc d v).ctx.npc = s.ctx.npc ∧ (s.wc d v).ctx.loop = s.ctx.loop := by
  obtain ⟨hp, hn, hl, -⟩ := wc_pcc s.ctx d v
  rw [State.wc, ctx_setCtx]
  exact ⟨hp, hn, hl⟩

/-- ADD in a body writes its sum and steps the loop. -/
theorem add_inBody {st : Fin 8} {d a b : Fin 32} (h : s.CanIssue [rdC a, rdC b]) (hl : s.ctx.loop.lact = true) :
    ∃ t, execAdd st d a b s = .next t ∧ t.ctx.loop = (s.ctx.loop.advance s.ctx.npc).1 ∧
      t.ctx.pcc = capMove s.ctx.pcc (s.ctx.loop.advance s.ctx.npc).2.toNat := by
  have hr : execAdd st d a b s = s.retire st.val (s.wx d (s.rx a + s.rx b)) := issue_retires h rfl rfl (upd_run _ s)
  obtain ⟨hp, hn, hlo⟩ := wc_ctx_places s d (scalar (s.rx a + s.rx b))
  rw [State.retire, hl] at hr
  have hf := finish_inBody (st := st.val) (t := s.wx d (s.rx a + s.rx b)) (by rw [State.wx, hlo]; exact hl)
  rw [State.wx, hp, hn, hlo] at hf
  exact ⟨_, hr, hf⟩

/-! ### LOOP (R130) -/

/-- The operation of LOOP with `n` instructions in its body. -/
def loopBody (c : Fin 32) (n : Nat) : Op Unit := do
  let s ← get
  let cnt := s.rx c
  let beg := s.ctx.npc
  let size ← bodySize n beg.toNat
  upd fun s =>
    if cnt = 0 then s.setCtx { s.ctx with npc := beg + BitVec.ofNat 80 size }
    else s.setCtx { s.ctx with loop := { lact := true, llen := n, lidx := 0, lsz := size, lbeg := beg,
                                         lcnt := cnt, liter := 0, lfstep := s.ro 6, lmstep := s.ro 7 } }

theorem loopStart_eq (c : Fin 32) (n : Nat) :
    loopStart st c n s = issue { st := st, ill := s.ctx.loop.lact, reads := [rdC c] } (loopBody c n) s := rfl

theorem loopBody_passes {c : Fin 32} {n size : Nat} (hb : bodySize n s.ctx.npc.toNat s = .ok size u) (h0 : s.rx c = 0) :
    loopBody c n s = .ok () (u.setCtx { u.ctx with npc := s.ctx.npc + BitVec.ofNat 80 size }) := by
  unfold loopBody
  rw [bind_ok (get_run s), bind_ok hb, upd_run, if_pos h0]

theorem loopBody_starts {c : Fin 32} {n size : Nat} (hb : bodySize n s.ctx.npc.toNat s = .ok size u) (h0 : s.rx c ≠ 0) :
    loopBody c n s = .ok () (u.setCtx { u.ctx with loop := { lact := true, llen := n, lidx := 0, lsz := size, lbeg := s.ctx.npc,
                                                             lcnt := s.rx c, liter := 0, lfstep := u.ro 6, lmstep := u.ro 7 } }) := by
  unfold loopBody
  rw [bind_ok (get_run s), bind_ok hb, upd_run, if_neg h0]

theorem rc_of_ctx_c {x y : State} (h : x.ctx.c = y.ctx.c) (k : Fin 32) : x.rc k = y.rc k := by
  simp [State.rc, Ctx.rc, h]

/-- What a retired instruction that only replaced the place and the loop of its context leaves. -/
theorem setCtx_finish_places (u : State) (x : Ctx) :
    ((u.setCtx x).finish st false).ctx.loop = x.loop ∧ ((u.setCtx x).finish st false).ctx.pcc = capMove x.pcc x.npc.toNat ∧
    ((u.setCtx x).finish st false).ctx.o = x.o ∧ ((u.setCtx x).finish st false).mem = u.mem ∧
    ∀ k, ((u.setCtx x).finish st false).rc k = x.rc k := by
  obtain ⟨hp, hl⟩ := finish_pcc (u.setCtx x) st false rfl
  rw [ctx_setCtx] at hp hl
  refine ⟨hl, hp, ?_, by simp, fun k => ?_⟩
  · rw [finish_o, ctx_setCtx]
  · rw [rc_finish, State.rc, ctx_setCtx]

/-- LOOP where the first halfwords of its body can be fetched. -/
theorem loopStart_loops {c : Fin 32} {n size : Nat} (hl : s.ctx.loop.lact = false) (h : s.CanIssue [rdC c])
    (hb : bodySize n s.ctx.npc.toNat s = .ok size u) (hu : u.ctx = s.ctx) :
    ∃ t, loopStart st c n s = .next t ∧ (∀ k, t.rc k = s.rc k) ∧ t.ctx.o = s.ctx.o ∧ (∀ p, memGet t.mem p = memGet u.mem p) ∧
      (s.rx c = 0 → t.ctx.loop = s.ctx.loop ∧ t.ctx.pcc = capMove s.ctx.pcc (s.ctx.npc + BitVec.ofNat 80 size).toNat) ∧
      (s.rx c ≠ 0 → t.ctx.loop = { lact := true, llen := n, lidx := 0, lsz := size, lbeg := s.ctx.npc, lcnt := s.rx c, liter := 0,
                                   lfstep := s.ro 6, lmstep := s.ro 7 } ∧ t.ctx.pcc = capMove s.ctx.pcc s.ctx.npc.toNat) := by
  have hro (k : Fin 8) : u.ro k = s.ro k := by simp [State.ro, hu]
  by_cases h0 : s.rx c = 0
  · have hr := (loopStart_eq (st := st) c n).trans (issue_retires h hl rfl (loopBody_passes hb h0))
    rw [State.retire, hl, hu] at hr
    obtain ⟨hlo, hp, ho, hm, hc⟩ := setCtx_finish_places (st := st) u { s.ctx with npc := s.ctx.npc + BitVec.ofNat 80 size }
    exact ⟨_, hr, hc, ho, fun p => by rw [hm], fun _ => ⟨hlo, hp⟩, fun hn => absurd h0 hn⟩
  · have hr := (loopStart_eq (st := st) c n).trans (issue_retires h hl rfl (loopBody_starts hb h0))
    rw [State.retire, hl, hu, hro, hro] at hr
    obtain ⟨hlo, hp, ho, hm, hc⟩ := setCtx_finish_places (st := st) u
      { s.ctx with loop := { lact := true, llen := n, lidx := 0, lsz := size, lbeg := s.ctx.npc, lcnt := s.rx c, liter := 0,
                             lfstep := s.ro 6, lmstep := s.ro 7 } }
    exact ⟨_, hr, hc, ho, fun p => by rw [hm], fun hz => absurd hz h0, fun _ => ⟨hlo, hp⟩⟩

/-! ### LEXIT (R133) -/

/-- The context with its loop left: behind the body, the loop not active. -/
def loopLeft (x : Ctx) : Ctx :=
  { x with loop := { x.loop with lact := false }, npc := x.loop.lbeg + BitVec.ofNat 80 x.loop.lsz }

theorem execLexit_eq (st : Fin 8) (a : Fin 32) (s : State) :
    execLexit st a s = issue { st := st.val, ill := !s.ctx.loop.lact, reads := [rdC a] }
      (upd fun s => if s.rx a ≠ 0 || a = 0 then s.setCtx (loopLeft s.ctx) else s) s := rfl

theorem lexit_leaves {st : Fin 8} {a : Fin 32} (h : s.CanIssue [rdC a]) (hl : s.ctx.loop.lact = true) (ha : s.rx a ≠ 0 ∨ a = 0) :
    JumpsTo s (execLexit st a s) (capMove s.ctx.pcc (s.ctx.loop.lbeg + BitVec.ofNat 80 s.ctx.loop.lsz).toNat)
      { s.ctx.loop with lact := false } := by
  have hc : (decide (s.rx a ≠ 0) || decide (a = 0)) = true := by simpa using ha
  have hr : execLexit st a s = s.retire st.val (s.setCtx (loopLeft s.ctx)) := by
    rw [execLexit_eq]
    exact issue_retires h (by simp [hl]) rfl ((upd_run _ s).trans (by rw [if_pos hc]))
  exact jumpsTo_of (x := loopLeft s.ctx) hr (Bool.and_false _) rfl rfl

/-- An instruction that does nothing but retire inside a body. -/
theorem jumpsTo_inBody {o : Host.Outcome State Fault Refusal} (hl : s.ctx.loop.lact = true) (h : o = s.retire st s) :
    JumpsTo s o (capMove s.ctx.pcc (s.ctx.loop.advance s.ctx.npc).2.toNat) (s.ctx.loop.advance s.ctx.npc).1 := by
  rw [State.retire, hl] at h
  obtain ⟨hlo, hp⟩ := finish_inBody (st := st) hl
  exact ⟨_, h, ⟨rfl, hp, hlo, finish_o s st true, finish_onlyContext s st true⟩, fun n => rc_finish s st true n⟩

theorem lexit_stays {st : Fin 8} {a : Fin 32} (h : s.CanIssue [rdC a]) (hl : s.ctx.loop.lact = true) (ha : s.rx a = 0) (h0 : a ≠ 0) :
    execLexit st a s = s.retire st.val s := by
  have hc : ¬ (decide (s.rx a ≠ 0) || decide (a = 0)) = true := by simp [ha, h0]
  exact issue_retires h (by simp [hl]) rfl ((upd_run _ s).trans (by rw [if_neg hc]))

/-! ### What a body forbids (R132) -/

theorem branch_inBody {ill : Bool} {reads : List (RegFile × Nat)} {cond : State → Bool} {off : Int}
    (h : (s.helper && s.ctx.stopReq) = false) (hl : s.ctx.loop.lact = true) :
    Traps s (branch st ill reads cond off s) .illegal (s.ctx.ir.zeroExtend 80) :=
  issue_traps_illegal _ h (by simp [hl])

theorem jumpReg_inBody {a : Fin 32} (h : (s.helper && s.ctx.stopReq) = false) (hl : s.ctx.loop.lact = true) :
    Traps s (jumpReg st a s) .illegal (s.ctx.ir.zeroExtend 80) := issue_traps_illegal _ h hl

theorem callReg_inBody {d a : Fin 32} (h : (s.helper && s.ctx.stopReq) = false) (hl : s.ctx.loop.lact = true) :
    Traps s (callReg st d a s) .illegal (s.ctx.ir.zeroExtend 80) := issue_traps_illegal _ h hl

theorem loopStart_inBody {c : Fin 32} {n : Nat} (h : (s.helper && s.ctx.stopReq) = false) (hl : s.ctx.loop.lact = true) :
    Traps s (loopStart st c n s) .illegal (s.ctx.ir.zeroExtend 80) := issue_traps_illegal _ h hl

theorem call_inBody {st : Fin 8} {off : BitVec 22} (h : (s.helper && s.ctx.stopReq) = false) (hl : s.ctx.loop.lact = true) :
    Traps s (execCall st off s) .illegal (s.ctx.ir.zeroExtend 80) := issue_traps_illegal _ h hl

theorem eret_inBody {st : Fin 8} (h : (s.helper && s.ctx.stopReq) = false) (hl : s.ctx.loop.lact = true) :
    Traps s (execEret st s) .illegal (s.ctx.ir.zeroExtend 80) := issue_traps_illegal _ h (by simp [hl])

/-- Settles O7: LOOP, a body instruction, LEXIT and the forbidden transfers, each by its rule. -/
theorem loops : Obligations.Loops := by
  refine ⟨fun s u st st' a n x y size hl => ?_, fun s st d a b h hl => ?_, fun s st a h => ?_,
    fun s st st' d a m n g x y off o p hl h => ?_⟩
  · exact ⟨fun h hb hu => loopStart_loops hl h hb hu, fun h hb hu => loopStart_loops hl h hb hu⟩
  · obtain ⟨t, ht, hlo, hp⟩ := add_inBody (st := st) (d := d) h hl
    refine ⟨t, ht, fun h1 => ?_, fun h1 h2 => ?_, fun h1 h2 => ?_⟩
    · rw [advance_inside _ h1] at hlo hp
      exact ⟨hlo, hp⟩
    · rw [advance_around _ h1 h2] at hlo hp
      exact ⟨hlo, hp⟩
    · rw [advance_over _ h1 h2] at hlo hp
      exact ⟨hlo, hp⟩
  · refine ⟨fun hl ha => lexit_leaves h hl ha, fun hl ha h0 hi => ?_, fun hl => issue_traps_illegal _ h.notStopped (by simp [hl])⟩
    have hj := jumpsTo_inBody hl (lexit_stays (st := st) h hl ha h0)
    rwa [advance_inside _ hi] at hj
  · simp only [List.forall_mem_cons]
    exact ⟨(branch_inBody h hl : Traps s (execBeq st a off s) _ _), (branch_inBody h hl : Traps s (execBne st a off s) _ _),
      (branch_inBody h hl : Traps s (execBlt st a off s) _ _), (branch_inBody h hl : Traps s (execBge st a off s) _ _),
      (branch_inBody h hl : Traps s (execBle st a off s) _ _), (branch_inBody h hl : Traps s (execBgt st a off s) _ _),
      (branch_inBody h hl : Traps s (execBtag st a off s) _ _), (branch_inBody h hl : Traps s (execBntag st a off s) _ _),
      (branch_inBody h hl : Traps s (execJ st o s) _ _), call_inBody h hl, (jumpReg_inBody h hl : Traps s (execJr st a s) _ _),
      (callReg_inBody h hl : Traps s (execCallr st d a s) _ _), (jumpReg_inBody h hl : Traps s (execRet st a s) _ _),
      (loopStart_inBody h hl : Traps s (execLoop st a n s) _ _), (branch_inBody h hl : Traps s (execBmany st m off s) _ _),
      (branch_inBody h hl : Traps s (execBmnone st m off s) _ _), (branch_inBody h hl : Traps s (execBmall st m off s) _ _),
      (branch_inBody h hl : Traps s (execBgds st g off s) _ _), (branch_inBody h hl : Traps s (execBgdc st g off s) _ _),
      eret_inBody h hl, (branch_inBody h hl : Traps s (execBeqShort st' x y s) _ _),
      (branch_inBody h hl : Traps s (execBneShort st' x y s) _ _), (branch_inBody h hl : Traps s (execJShort st' p s) _ _),
      (jumpReg_inBody h hl : Traps s (execRetShort st' x s) _ _), (callReg_inBody h hl : Traps s (execCallrShort st' x s) _ _),
      (loopStart_inBody h hl : Traps s (execLoopShort st' x n s) _ _), fun _ hi => nomatch hi⟩

end Sys2Proof.Proofs
end

section
/-! PROOFS. The worked words of the encoding tables (R85, R86), and the state after reset (R213, R409). -/
namespace Sys2Proof.Proofs
open Sys2Proof Sys2Proof.Machine Sys2Proof.Laws
set_option Elab.async false

/-- Settles O56: each word is a literal, and decoding it is a computation on its fields. -/
theorem wordsOfTheTables : Obligations.WordsOfTheTables := by
  unfold Obligations.WordsOfTheTables
  exact ⟨by decide, by decide⟩

/-- A core of the package after reset is a core with its number and reset values. -/
theorem coreOf_reset (e : Nat) : State.reset.coreOf e = { id := e } := by
  unfold State.coreOf
  split
  · next h =>
    subst h
    rfl
  · rfl

/-- A context after reset has nothing in its registers; h0 alone is live. -/
theorem ctx_reset (e : Nat) (h : Fin 11) :
    ({ id := e } : Core).ctxs[h] = { slot := if h = 0 then .live else .free } := by
  show ({} : Core).ctxs[h] = _
  revert h
  decide

/-- Settles O58: the state and its cores hold the values that their fields default to. -/
theorem resetState : Obligations.ResetState := by
  unfold Obligations.ResetState
  intro s
  refine ⟨rfl, rfl, rfl, rfl, rfl, rfl, fun e => ?_⟩
  rw [coreOf_reset]
  refine ⟨rfl, rfl, rfl, rfl, rfl, rfl, rfl, rfl, rfl, rfl, rfl, rfl, rfl, rfl, rfl, rfl, rfl, rfl, rfl, rfl, rfl, rfl,
    rfl, rfl, rfl, rfl, fun h => ?_, rfl, fun n => ?_, fun h n => ?_, fun h => ?_⟩
  · rw [ctx_reset]
  · simp
  · rw [ctx_reset]
    simp
  · rw [ctx_reset]

end Sys2Proof.Proofs
end

section
/-! PROOFS. The checks of an access through a capability (R115): which cause fails first, and that loads, stores and atomics
raise it before they translate anything. -/
namespace Sys2Proof.Proofs
open Sys2Proof Sys2Proof.Machine Sys2Proof.Laws
set_option Elab.async false

/-- What R115 says of an access of `n` bytes at `p`: each cause is raised where it is the first that fails. -/
def ChecksInOrder (s : State) (o : Host.Outcome State Fault Refusal) (c : Cap) (ps : List Nat) (p : Int) (n : Nat) : Prop :=
    (capValid c = false → Traps s o .capTag (tvalOf p)) ∧
    (capValid c = true → capHasAll c ps = false → Traps s o .capPerm (tvalOf p)) ∧
    (capValid c = true → capHasAll c ps = true → ¬ (capBase c ≤ p ∧ p + n ≤ capTop c) → Traps s o .capBounds (tvalOf p)) ∧
    (capValid c = true → capHasAll c ps = true → capBase c ≤ p → p + n ≤ capTop c → p % n ≠ 0 →
      Traps s o .align (tvalOf p))

/-- An operation that raises what the check names raises the causes in their order. -/
theorem checksInOrder_of {s : State} {o : Host.Outcome State Fault Refusal} {c : Cap} {ps : List Nat} {p : Int} {n : Nat}
    (raises : ∀ k, capCheck c ps p n n = some k → Traps s o k (tvalOf p)) : ChecksInOrder s o c ps p n := by
  refine ⟨fun hv => raises _ ?_, fun hv hp => raises _ ?_, fun hv hp hb => raises _ ?_,
    fun hv hp hlo hhi ha => raises _ ?_⟩
  · simp [capCheck, hv]
  · simp [capCheck, hv, hp]
  · have hb' : (decide (capBase c ≤ p) && decide (p + n ≤ capTop c)) = false := by
      rw [← Bool.decide_and]
      exact decide_eq_false hb
    simp [capCheck, hv, hp, hb']
  · simp [capCheck, hv, hp, hlo, hhi, ha]

section Raises

variable {s : State} {c v : Cap} {ps : List Nat} {p : Int} {n al : Nat} {k : Cause}

/-- An access stops at its first failing check, before any translation. -/
theorem access_raises (acc : Acc) (h : capCheck c ps p n al = some k) :
    access c ps p n al acc s = .error (.trap ⟨k, tvalOf p⟩) s :=
  bind_error (capNeed_raises s h)

theorem capStoreAccess_raises (h : capCheck c (if v.tag then [pS, pSC] else [pS]) p 16 16 = some k) :
    capStoreAccess c v p s = .error (.trap ⟨k, tvalOf p⟩) s :=
  bind_error (capNeed_raises s h)

variable {st : Nat} {d a b : Fin 32} {off : Int}

theorem loadX_raises {sx : Bool} (hi : s.CanIssue [rdC a]) (h : capCheck (s.rc a) [pL] (s.ea a off n) n n = some k) :
    Traps s (loadX st d a off n sx s) k (tvalOf (s.ea a off n)) :=
  issue_traps hi rfl rfl ((bind_ok (get_run s)).trans (bind_error (access_raises .load h)))

theorem loadCap_raises (hi : s.CanIssue [rdC a]) (h : capCheck (s.rc a) [pL] (s.ea a off 16) 16 16 = some k) :
    Traps s (loadCap st d a off s) k (tvalOf (s.ea a off 16)) :=
  issue_traps hi rfl rfl ((bind_ok (get_run s)).trans (bind_error (access_raises .load h)))

/-- Outside a run-ahead helper an operation is performed (R351). -/
theorem unlessAhead_run (body : Op Unit) (h : s.ctx.ahead = false) : unlessAhead body s = body s := by
  unfold unlessAhead
  rw [bind_ok (get_run s), h]
  rfl

variable (ha : s.ctx.ahead = false)
include ha

theorem storeX_raises (hi : s.CanIssue [rdC d, rdC a]) (h : capCheck (s.rc a) [pS] (s.ea a off n) n n = some k) :
    Traps s (storeX st d a off n s) k (tvalOf (s.ea a off n)) :=
  issue_traps hi rfl rfl ((unlessAhead_run _ ha).trans
    ((bind_ok (get_run s)).trans (bind_error (access_raises .store h))))

theorem storeCap_raises (hi : s.CanIssue [rdC d, rdC a])
    (h : capCheck (s.rc a) (if (s.rc d).tag then [pS, pSC] else [pS]) (s.ea a off 16) 16 16 = some k) :
    Traps s (storeCap st d a off s) k (tvalOf (s.ea a off 16)) :=
  issue_traps hi rfl rfl ((unlessAhead_run _ ha).trans
    ((bind_ok (get_run s)).trans (bind_error (capStoreAccess_raises h))))

theorem atomicRmw_raises {reads : List (RegFile × Nat)} {f : State → Nat → Nat → Option Nat}
    (hi : s.CanIssue ([rdC a, rdC b] ++ reads))
    (h : capCheck (s.rc a) [pL, pS, pA] (capA (s.rc a)) n n = some k) :
    Traps s (atomicRmw st d a b n reads f s) k (tvalOf (capA (s.rc a))) :=
  issue_traps hi rfl rfl ((unlessAhead_run _ ha).trans
    ((bind_ok (get_run s)).trans (bind_error (access_raises .atomic h))))

end Raises

section Checked

variable {s : State} {st : Fin 8} {d a b : Fin 32} {off : Int}

theorem loadX_checked {i : Instr} (n : Nat) (sx : Bool) (he : exec i s = loadX st.val d a off n sx s)
    (hi : s.CanIssue [rdC a]) : ChecksInOrder s (exec i s) (s.rc a) [pL] ((capA (s.rc a) : Int) + off * n) n := by
  rw [he]
  exact checksInOrder_of fun _ => loadX_raises hi

theorem storeX_checked (ha : s.ctx.ahead = false) {i : Instr} (n : Nat) (he : exec i s = storeX st.val d a off n s)
    (hi : s.CanIssue [rdC d, rdC a]) :
    ChecksInOrder s (exec i s) (s.rc a) [pS] ((capA (s.rc a) : Int) + off * n) n := by
  rw [he]
  exact checksInOrder_of fun _ => storeX_raises ha hi

/-- Atomics other than ACAS are one shared operation, whatever their function (R262). -/
theorem atomicOp_checked (ha : s.ctx.ahead = false) {i : Instr} (n f : Nat) (he : exec i s = atomicOp st.val d a b n f s)
    (hi : s.CanIssue [rdC a, rdC b]) : ChecksInOrder s (exec i s) (s.rc a) [pL, pS, pA] (capA (s.rc a)) n := by
  rw [he]
  exact checksInOrder_of fun _ => atomicRmw_raises ha hi

theorem atomicCas_checked (ha : s.ctx.ahead = false) {i : Instr} (n : Nat) (he : exec i s = atomicCas st.val d a b n s)
    (hi : s.CanIssue [rdC a, rdC b, rdO 2]) : ChecksInOrder s (exec i s) (s.rc a) [pL, pS, pA] (capA (s.rc a)) n := by
  rw [he]
  exact checksInOrder_of fun _ => atomicRmw_raises (reads := [rdO 2]) ha hi

theorem atomicsD_checked (ha : s.ctx.ahead = false) :
    ∀ i ∈ [Instr.aaddD st d a b, .aandD st d a b, .aorD st d a b, .axorD st d a b, .aminD st d a b, .amaxD st d a b,
        .aminuD st d a b, .amaxuD st d a b, .aswapD st d a b, .afaddD st d a b],
      s.CanIssue [rdC a, rdC b] → ChecksInOrder s (exec i s) (s.rc a) [pL, pS, pA] (capA (s.rc a)) 8 := by
  simp only [List.forall_mem_cons]
  exact ⟨atomicOp_checked ha 8 0 rfl, atomicOp_checked ha 8 1 rfl, atomicOp_checked ha 8 2 rfl, atomicOp_checked ha 8 3 rfl,
    atomicOp_checked ha 8 4 rfl, atomicOp_checked ha 8 5 rfl, atomicOp_checked ha 8 6 rfl, atomicOp_checked ha 8 7 rfl,
    atomicOp_checked ha 8 8 rfl, atomicOp_checked ha 8 10 rfl, fun _ hi => nomatch hi⟩

theorem atomicsW_checked (ha : s.ctx.ahead = false) :
    ∀ i ∈ [Instr.aaddW st d a b, .aandW st d a b, .aorW st d a b, .axorW st d a b, .aminW st d a b, .amaxW st d a b,
        .aminuW st d a b, .amaxuW st d a b, .aswapW st d a b, .afaddW st d a b, .afaddbf st d a b],
      s.CanIssue [rdC a, rdC b] → ChecksInOrder s (exec i s) (s.rc a) [pL, pS, pA] (capA (s.rc a)) 4 := by
  simp only [List.forall_mem_cons]
  exact ⟨atomicOp_checked ha 4 0 rfl, atomicOp_checked ha 4 1 rfl, atomicOp_checked ha 4 2 rfl, atomicOp_checked ha 4 3 rfl,
    atomicOp_checked ha 4 4 rfl, atomicOp_checked ha 4 5 rfl, atomicOp_checked ha 4 6 rfl, atomicOp_checked ha 4 7 rfl,
    atomicOp_checked ha 4 8 rfl, atomicOp_checked ha 4 10 rfl, atomicOp_checked ha 4 11 rfl, fun _ hi => nomatch hi⟩

end Checked

/-- Settles O8: each instruction is one of five shared operations, and each of these begins with the checks. -/
theorem accessChecks : Obligations.AccessChecks := by
  unfold Obligations.AccessChecks
  intro s st d a b off ha c bad at_
  refine ⟨loadX_checked 1 true rfl, loadX_checked 1 false rfl, loadX_checked 2 true rfl, loadX_checked 2 false rfl,
    loadX_checked 4 true rfl, loadX_checked 4 false rfl, loadX_checked 8 false rfl, fun hi => ?_,
    storeX_checked ha 1 rfl, storeX_checked ha 2 rfl, storeX_checked ha 4 rfl, storeX_checked ha 8 rfl, fun hi => ?_,
    atomicsD_checked ha, atomicsW_checked ha, atomicCas_checked ha 8 rfl, atomicCas_checked ha 4 rfl⟩
  · exact checksInOrder_of (o := execLdC st d a off s) fun _ => loadCap_raises hi
  · exact checksInOrder_of (o := execStC st d a off s) fun _ => storeCap_raises ha hi

end Sys2Proof.Proofs
end

section
/-! PROOFS. The faults and waits at issue (R79, R80, R90): registers on their way, ILLEGAL of vector instructions, and registers
that the accumulators own (R187). -/
namespace Sys2Proof.Proofs
open Sys2Proof Sys2Proof.Machine Sys2Proof.Laws
set_option Elab.async false

section AtIssue

variable {s : State} {g : Gate}

/-- A fault of steps 2 to 4 is taken before anything else but a stop (R90). -/
theorem issue_gateTrap {t : Trap} (body : Op Unit) (h : (s.helper && s.ctx.stopReq) = false) (hg : s.gateTrap g = some t) :
    issue g body s = .next (s.trapHere t) := by
  unfold issue issueThen
  rw [if_neg (by simp [h]), hg]

/-- With SCHK, the first register read whose result is not ready is named (R80). -/
theorem gateTrap_stallShort {r : RegFile × Nat} (hi : g.ill = false) (ha : g.acc = none) (hs : s.core.schk = true)
    (hr : g.reads.find? s.fixPending = some r) :
    s.gateTrap g = some ⟨.stallShort, BitVec.ofNat 80 (r.2 + 64 * r.1.code)⟩ := by
  simp [State.gateTrap, hi, ha, hs, hr]

/-- Without SCHK an operand of variable latency that is not ready is waited for (R79). -/
theorem issue_waits_operand (body : Op Unit) (h : (s.helper && s.ctx.stopReq) = false) (hi : g.ill = false)
    (ha : g.acc = none) (hs : s.core.schk = false) (hb : s.boundary = none) (hv : g.reads.any s.varPending = true) :
    issue g body s = .next s.block := by
  have hg : s.gateTrap g = none := by simp [State.gateTrap, hi, ha, hs]
  have hn : (if s.unbroken g then none else s.boundary) = none := by rw [hb, ite_self]
  unfold issue issueThen
  rw [if_neg (by simp [h]), hg]
  dsimp only
  rw [hn]
  dsimp only
  rw [if_pos hv]

end AtIssue

/-- What R79 and R80 say of an instruction that reads C[a] and C[b]. -/
def Scoreboards (s : State) (a b : Fin 32) (o : Host.Outcome State Fault Refusal) : Prop :=
  (s.core.schk = true → s.fixPending (rdC a) = true → Traps s o .stallShort (BitVec.ofNat 80 a.val)) ∧
  (s.core.schk = true → s.fixPending (rdC a) = false → s.fixPending (rdC b) = true →
    Traps s o .stallShort (BitVec.ofNat 80 b.val)) ∧
  (s.core.schk = false → s.boundary = none → (s.varPending (rdC a) = true ∨ s.varPending (rdC b) = true) →
    o = .next s.block)

theorem issue_scoreboards {s : State} {a b : Fin 32} (st : Nat) (body : Op Unit)
    (h : (s.helper && s.ctx.stopReq) = false) :
    Scoreboards s a b (issue { st := st, reads := [rdC a, rdC b] } body s) := by
  refine ⟨fun hs ha => ?_, fun hs ha hb => ?_, fun hs hn hv => ?_⟩
  · exact issue_gateTrap body h (gateTrap_stallShort (r := rdC a) rfl rfl hs (List.find?_cons_of_pos ha))
  · exact issue_gateTrap body h (gateTrap_stallShort (r := rdC b) rfl rfl hs
      ((List.find?_cons_of_neg (by simp [ha])).trans (List.find?_cons_of_pos hb)))
  · exact issue_waits_operand body h rfl rfl hs hn (by simpa using hv)

/-! ### Vector instructions that are ILLEGAL (R83, R88, R139) -/

section Illegal

variable {s : State} {st : Fin 8} {d a b : Fin 64} {m : Fin 8} {i : Instr}

/-- o0 may not stand for an element type of the vector instructions of numbers. -/
def NoNumberType (s : State) : Prop := o0ok s.o0 = false ∨ 12 ≤ oVT s.o0

theorem vtBad_noNumber {ok : Nat → Bool} (hok : ∀ t, 12 ≤ t → ok t = false) (h : NoNumberType s) : s.vtBad ok = true := by
  rcases h with h | h
  · simp [State.vtBad, h]
  · simp [State.vtBad, State.vt, hok _ h]

theorem tyInt_none {t : Nat} (h : 12 ≤ t) : tyInt t = false := decide_eq_false (by omega)
theorem tyFloat_none {t : Nat} (h : 12 ≤ t) : tyFloat t = false := by
  rw [tyFloat, decide_eq_false (by omega : ¬ t ≤ 11), Bool.and_false]

theorem arith_bad (f : Arith) (h : NoNumberType s) : f.bad s = true := by
  have hok : ∀ t, 12 ≤ t → f.accepts t = false := fun t ht => by simp [Arith.accepts, tyInt_none ht, tyFloat_none ht]
  rw [Arith.bad, vtBad_noNumber hok h, Bool.true_or]

variable (h : (s.helper && s.ctx.stopReq) = false)
include h

/-- A vector instruction is ILLEGAL in a helper, and where decoding says so (R88). -/
theorem vgate_illegal {u : VUse} {n : Nat} {ill : Bool} {reads : List (RegFile × Nat)} (body : Op Unit)
    (hb : s.helper = true ∨ ill = true) :
    Traps s (issue (u.gate n ill reads s) body s) .illegal (s.ctx.ir.zeroExtend 80) :=
  issue_traps_illegal body h (by rcases hb with hb | hb <;> simp [VUse.gate, hb])

theorem vecArith_illegal (f : Arith) {rdD : Bool} {lat : Nat → Option Nat}
    (hb : s.helper = true ∨ NoNumberType s) (he : exec i s = vecArith st.val d a b m f rdD lat s) :
    Traps s (exec i s) .illegal (s.ctx.ir.zeroExtend 80) := by
  rw [he]
  exact vgate_illegal h _ (hb.imp id (arith_bad f))

theorem vecRed_illegal (f : Redn) (hb : s.helper = true ∨ NoNumberType s) (he : exec i s = vecRed st.val d a b m f s) :
    Traps s (exec i s) .illegal (s.ctx.ir.zeroExtend 80) := by
  have hok : ∀ t, 12 ≤ t → tyNum t = false := fun t ht => by simp [tyNum, tyInt_none ht, tyFloat_none ht]
  rw [he]
  exact vgate_illegal h _ (hb.imp id fun hb => by rw [vtBad_noNumber hok hb, Bool.true_or])

theorem vscl_illegal (hb : s.helper = true ∨ NoNumberType s) :
    Traps s (execVscl st d a b m s) .illegal (s.ctx.ir.zeroExtend 80) :=
  vgate_illegal h _ (hb.imp id fun hb => by rw [vtBad_noNumber (fun _ => tyFloat_none) hb, Bool.true_or])

/-- The vector instructions of numbers are ILLEGAL in a helper and without a type of theirs. -/
theorem numeric_illegal (hb : s.helper = true ∨ NoNumberType s) :
    ∀ i ∈ [Instr.vadd st d a b m, .vsub st d a b m, .vmul st d a b m, .vmulh st d a b m, .vmin st d a b m,
      .vmax st d a b m, .vsll st d a b m, .vsrl st d a b m, .vsra st d a b m, .vrol st d a b m, .vfma st d a b m,
      .vfms st d a b m, .vdiv st d a b m, .vscl st d a b m, .vrsum st d a b m, .vrmax st d a b m],
      Traps s (exec i s) .illegal (s.ctx.ir.zeroExtend 80) := by
  simp only [List.forall_mem_cons]
  exact ⟨vecArith_illegal h arAdd hb rfl, vecArith_illegal h arSub hb rfl, vecArith_illegal h arMul hb rfl,
    vecArith_illegal h arMulh hb rfl, vecArith_illegal h arMin hb rfl, vecArith_illegal h arMax hb rfl,
    vecArith_illegal h arSll hb rfl, vecArith_illegal h arSrl hb rfl, vecArith_illegal h arSra hb rfl,
    vecArith_illegal h arRol hb rfl, vecArith_illegal h arFma hb rfl, vecArith_illegal h arFms hb rfl,
    vecArith_illegal h arDiv hb rfl, vscl_illegal h hb, vecRed_illegal h rdSum hb rfl, vecRed_illegal h rdMax hb rfl,
    fun _ hi => nomatch hi⟩

/-- So are, in a helper, those that read no type, and a move into a mask register. -/
theorem untyped_illegal {c : Fin 32} (hh : s.helper = true) :
    ∀ i ∈ [Instr.vand st d a b m, .vmrg st d a b m, .vmov st d a m, .mset st m c, .vmovx st d c],
      Traps s (exec i s) .illegal (s.ctx.ir.zeroExtend 80) := by
  simp only [List.forall_mem_cons]
  exact ⟨(vgate_illegal h _ (.inl hh) : Traps s (execVand st d a b m s) _ _),
    (vgate_illegal h _ (.inl hh) : Traps s (execVmrg st d a b m s) _ _),
    (vgate_illegal h _ (.inl hh) : Traps s (execVmov st d a m s) _ _),
    (issue_traps_illegal _ h hh : Traps s (execMset st m c s) _ _),
    (vgate_illegal h _ (.inl hh) : Traps s (execVmovx st d c s) _ _), fun _ hi => nomatch hi⟩

end Illegal

/-! ### Registers of the accumulators (R187) -/

/-- In matrix mode the lowest register named of v0 to v35 is the one of the fault. -/
theorem owned_lowest {s : State} {ns : List (Fin 64)} {n : Fin 64} (hm : s.core.mm = true) (hn : n ∈ ns) (hlt : n.val < 36)
    (hle : ∀ k ∈ ns, n.val ≤ k.val) : s.owned ns = some ⟨.accOwned, BitVec.ofNat 80 n.val⟩ := by
  have hmin : ((ns.map (·.val)).filter (· < 36)).min? = some n.val := by
    rw [List.min?_eq_some_iff]
    refine ⟨List.mem_filter.mpr ⟨List.mem_map_of_mem hn, decide_eq_true hlt⟩, fun x hx => ?_⟩
    obtain ⟨k, hk, rfl⟩ := List.mem_map.mp (List.mem_filter.mp hx).1
    exact hle k hk
  rw [State.owned, if_pos hm, hmin]
  rfl

theorem twoSources_owned {s : State} {d a b n : Fin 64} (m : Fin 8) (st : Nat) (body : Op Unit) (hh : s.helper = false)
    (hd : s.boundPort d = false) (ha : s.boundPort a = false) (hb : s.boundPort b = false)
    (hown : s.owned [a, b, d] = some ⟨.accOwned, BitVec.ofNat 80 n.val⟩) :
    Traps s (issue (({ srcs := [a, b], dst := some d, m := m } : VUse).gate st false [] s) body s) .accOwned
      (BitVec.ofNat 80 n.val) := by
  refine issue_gateTrap body (by simp [hh]) ?_
  have hill : ({ srcs := [a, b], dst := some d, m := m } : VUse).portBad s = false := by
    simp [VUse.portBad, writePort_unbound, readPort_unbound, ha, hb, hd]
  simp [State.gateTrap, VUse.gate, VUse.named, hh, hill, hown]

/-- Settles O12: the frame of every instruction looks at what decoding says, then at who owns a register named, then at the
scoreboard. -/
theorem scoreboardAndVectorFaults : Obligations.ScoreboardAndVectorFaults := by
  unfold Obligations.ScoreboardAndVectorFaults
  refine ⟨fun s st d a b h => ?_, fun s st d a b m c h => ⟨fun hh => ?_, fun hh ho => ?_, ?_⟩⟩
  · simp only [List.forall_mem_cons]
    exact ⟨(issue_scoreboards _ _ h : Scoreboards s a b (execAdd st d a b s)),
      (issue_scoreboards _ _ h : Scoreboards s a b (execCinc st d a b s)),
      (issue_scoreboards _ _ h : Scoreboards s a b (execMul st d a b s)), fun _ hi => nomatch hi⟩
  · exact List.forall_mem_append.mpr ⟨numeric_illegal h (.inl hh), untyped_illegal h hh⟩
  · exact numeric_illegal h (.inr ho)
  · intro hh hd ha hb hm n hn hlt hle
    have hown := owned_lowest hm hn hlt hle
    exact ⟨(twoSources_owned m _ _ hh hd ha hb hown : Traps s (execVand st d a b m s) _ _),
      (twoSources_owned m _ _ hh hd ha hb hown : Traps s (execVmrg st d a b m s) _ _)⟩

end Sys2Proof.Proofs
end

section
/-! PROOFS. Waiting for and polling jobs, SLEEP and YIELD (R352 to R354); and where an instruction that leaves its context in
place goes on. -/
namespace Sys2Proof.Proofs
open Sys2Proof Sys2Proof.Machine Sys2Proof.Laws
set_option Elab.async false

/-! ### Instructions that change other things than their context -/

/-- The issuing context stands where it stood: an operation has not moved it. -/
structure Stands (s t : State) : Prop where
  cur  : t.core.cur = s.core.cur
  pcc  : t.ctx.pcc = s.ctx.pcc
  npc  : t.ctx.npc = s.ctx.npc
  loop : t.ctx.loop = s.ctx.loop

theorem Stands.refl (s : State) : Stands s s := ⟨rfl, rfl, rfl, rfl⟩

theorem Stands.trans {s t u : State} (h : Stands s t) (h' : Stands t u) : Stands s u :=
  ⟨h'.cur.trans h.cur, h'.pcc.trans h.pcc, h'.npc.trans h.npc, h'.loop.trans h.loop⟩

section Standing

variable {s t : State}

theorem stands_of_ctx (hc : t.core.cur = s.core.cur) (hx : t.ctx = s.ctx) : Stands s t :=
  ⟨hc, by rw [hx], by rw [hx], by rw [hx]⟩

theorem stands_wc (s : State) (d : Fin 32) (v : Cap) : Stands s (s.wc d v) := by
  obtain ⟨hp, hn, hl, _⟩ := wc_pcc s.ctx d v
  exact ⟨rfl, by rw [State.wc, ctx_setCtx, hp], by rw [State.wc, ctx_setCtx, hn], by rw [State.wc, ctx_setCtx, hl]⟩

theorem Stands.counter (h : Stands s t) : t.counter = s.counter := by
  unfold State.counter State.helper
  rw [h.cur]

theorem Stands.next (h : Stands s t) (st : Nat) (hl : s.ctx.loop.lact = false) :
    (t.finish st s.ctx.loop.lact).ctx.pcc = capMove s.ctx.pcc s.ctx.npc.toNat ∧
      (t.finish st s.ctx.loop.lact).ctx.loop = s.ctx.loop := by
  obtain ⟨hp, hl'⟩ := finish_pcc t st s.ctx.loop.lact (by simp [hl])
  exact ⟨by rw [hp, h.pcc, h.npc], hl'.trans h.loop⟩

/-- It is counted and goes on, where its operation counted nothing (R403). -/
theorem advanced_finish (h : Stands s t) (st : Nat) (he : t.core.evc = s.core.evc) :
    Advanced s (t.finish st s.ctx.loop.lact) := by
  refine ⟨?_, fun hl => (h.next st hl).1, fun hl => (h.next st hl).2⟩
  rw [finish_count]
  simp only [h.counter, he]

/-- It goes on where its operation counted other events. -/
theorem goesOn_finish (h : Stands s t) (st : Nat) (he : t.core.evc[s.counter] = s.core.evc[s.counter]) :
    GoesOn s (t.finish st s.ctx.loop.lact) := by
  refine ⟨?_, fun hl => (h.next st hl).1, fun hl => (h.next st hl).2⟩
  rw [finish_count]
  simp [h.counter, he]

/-- A write of C[d] to a context whose registers are those of `s`. -/
theorem wroteC_wc (d : Fin 32) (v : Cap) (h : ∀ n, t.rc n = s.rc n) : WroteC s (t.wc d v) d v := by
  refine ⟨?_, fun n hn => (rc_wc_other t d n v hn).trans (h n)⟩
  by_cases h0 : d = 0
  · subst h0
    simp
  · rw [if_neg h0]
    exact rc_wc_same t d v h0

theorem wroteC_finish {d : Fin 32} {v : Cap} (st : Nat) (b : Bool) (h : WroteC s t d v) : WroteC s (t.finish st b) d v :=
  ⟨(rc_finish t st b d).trans h.1, fun n hn => (rc_finish t st b n).trans (h.2 n hn)⟩

end Standing

/-! ### The wait for a job (R354) -/

section Jobs

variable {s : State} {st : Nat} {d a : Fin 32} {j : JobRec}

/-- What WAITJ and POLLJ leave once a record has its final status: the record freed and its word in C[d]. -/
def answerJob (d : Fin 32) (j : JobRec) (s : State) : State := (s.joinJob j).wx d j.statusWord

/-- The operation of WAITJ. -/
def waitBody (d a : Fin 32) : Op Unit := do
  let s ← get
  match s.core.jobOf (s.rx a) with
  | none => upd fun s => s.wx d (BitVec.ofNat 64 stUNKNOWN)
  | some j =>
    await (j.status != stPENDING)
    upd (answerJob d j)

/-- The operation of POLLJ. -/
def pollBody (d a : Fin 32) : Op Unit := do
  let s ← get
  match s.core.jobOf (s.rx a) with
  | none => upd fun s => s.wx d (BitVec.ofNat 64 stUNKNOWN)
  | some j => if j.status = stPENDING then upd fun s => s.wx d j.statusWord else upd (answerJob d j)

theorem waitJob_eq : waitJob st d a s = issue { st := st, reads := [rdC a] } (unlessAhead (waitBody d a)) s := rfl

theorem execPollj_eq (st : Fin 8) :
    execPollj st d a s = issue { st := st.val, reads := [rdC a] } (unlessAhead (pollBody d a)) s := rfl

theorem statusWord_eq (j : JobRec) : j.statusWord =
    BitVec.ofNat 64 (j.status % 16 + j.cause % 64 * 16 + j.count % 65536 * 1024 + j.pos % 2 ^ 38 * 2 ^ 26) := rfl

theorem waitBody_none (h : s.core.jobOf (s.rx a) = none) :
    waitBody d a s = .ok () (s.wc d (scalar (BitVec.ofNat 64 stUNKNOWN))) := by
  unfold waitBody
  rw [bind_ok (get_run s), h]
  rfl

theorem waitBody_final (h : s.core.jobOf (s.rx a) = some j) (hj : j.status ≠ 0) :
    waitBody d a s = .ok () (answerJob d j s) := by
  have hb : (j.status != stPENDING) = true := by simpa [stPENDING] using hj
  unfold waitBody
  rw [bind_ok (get_run s), h]
  dsimp only
  rw [hb, bind_ok (await_true s)]
  rfl

theorem waitBody_pending (h : s.core.jobOf (s.rx a) = some j) (hj : j.status = 0) : waitBody d a s = .error .wait s := by
  have hb : (j.status != stPENDING) = false := by simp [stPENDING, hj]
  unfold waitBody
  rw [bind_ok (get_run s), h]
  dsimp only
  rw [hb]
  rfl

theorem pollBody_none (h : s.core.jobOf (s.rx a) = none) :
    pollBody d a s = .ok () (s.wc d (scalar (BitVec.ofNat 64 stUNKNOWN))) := by
  unfold pollBody
  rw [bind_ok (get_run s), h]
  rfl

theorem pollBody_final (h : s.core.jobOf (s.rx a) = some j) (hj : j.status ≠ 0) :
    pollBody d a s = .ok () (answerJob d j s) := by
  unfold pollBody
  rw [bind_ok (get_run s), h]
  dsimp only
  rw [if_neg (show ¬ j.status = stPENDING from hj)]
  rfl

theorem pollBody_pending (h : s.core.jobOf (s.rx a) = some j) (hj : j.status = 0) :
    pollBody d a s = .ok () (s.wc d (scalar j.statusWord)) := by
  unfold pollBody
  rw [bind_ok (get_run s), h]
  dsimp only
  rw [if_pos (show j.status = stPENDING from hj)]
  rfl

/-- What R352 and R354 say of an instruction that asks for the job that C[a] names, where it does not wait. -/
def AnswersJob (s : State) (d a : Fin 32) (o : Host.Outcome State Fault Refusal) : Prop :=
  (∀ j, s.core.jobOf (s.rx a) = some j → j.status ≠ 0 →
    ∃ t, o = .next t ∧ Advanced s t ∧ t.core.jobs = s.core.jobs.filter (fun k => k.word != j.word) ∧ t.mem = s.mem ∧
      WroteC s t d (scalar j.statusWord)) ∧
  (s.core.jobOf (s.rx a) = none → WritesC s o d (scalar 15))

/-- The answer to a job leaves the context in place, its record freed and its word written. -/
theorem answerJob_retired (d : Fin 32) (j : JobRec) (s : State) (st : Nat) :
    let t := (answerJob d j s).finish st s.ctx.loop.lact
    Advanced s t ∧ t.core.jobs = s.core.jobs.filter (fun k => k.word != j.word) ∧ t.mem = s.mem ∧
      WroteC s t d (scalar j.statusWord) := by
  have hj : Stands s (s.joinJob j) := stands_of_ctx rfl rfl
  have hw : Stands s (answerJob d j s) := hj.trans (stands_wc _ _ _)
  exact ⟨advanced_finish hw st rfl, by rw [finish_core_jobs]; rfl, by rw [finish_mem]; rfl,
    wroteC_finish st _ (wroteC_wc d _ fun _ => rfl)⟩

theorem issue_answersJob {body : Op Unit} (hi : s.CanIssue [rdC a])
    (hn : s.core.jobOf (s.rx a) = none → body s = .ok () (s.wc d (scalar (BitVec.ofNat 64 stUNKNOWN))))
    (hf : ∀ j, s.core.jobOf (s.rx a) = some j → j.status ≠ 0 → body s = .ok () (answerJob d j s)) :
    AnswersJob s d a (issue { st := st, reads := [rdC a] } body s) :=
  ⟨fun j h hj => ⟨_, issue_retires hi rfl rfl (hf j h hj), answerJob_retired d j s st⟩,
    fun h => writesC_of (issue_retires hi rfl rfl (hn h))⟩

theorem waitJob_answers (ha : s.ctx.ahead = false) (hi : s.CanIssue [rdC a]) : AnswersJob s d a (waitJob st d a s) := by
  rw [waitJob_eq]
  exact issue_answersJob hi (fun h => (unlessAhead_run _ ha).trans (waitBody_none h))
    (fun _ h hj => (unlessAhead_run _ ha).trans (waitBody_final h hj))

theorem pollj_answers (st : Fin 8) (ha : s.ctx.ahead = false) (hi : s.CanIssue [rdC a]) :
    AnswersJob s d a (execPollj st d a s) := by
  rw [execPollj_eq]
  exact issue_answersJob hi (fun h => (unlessAhead_run _ ha).trans (pollBody_none h))
    (fun _ h hj => (unlessAhead_run _ ha).trans (pollBody_final h hj))

end Jobs

/-! ### SLEEP and YIELD (R354) -/

section Sleeping

variable {s : State} {a : Fin 32}

/-- The operation of SLEEP. -/
def sleepBody (a : Fin 32) : Op Unit := do
  let s ← get
  if (s.rx a).toNat ≤ s.time.toNat then pure ()
  else
    match s.ctx.wait with
    | .sleeping _ woken =>
      if woken || s.core.causePending then pure ()
      else
        set { s with freeN := s.freeN + 1 }
        await (Config.sleepEndsEarly s.freeN)
    | _ =>
      upd fun s => s.setCtx { s.ctx with wait := .sleeping (s.rx a) false }
      waitHere

theorem sleepBody_over (h : (s.rx a).toNat ≤ s.time.toNat) : sleepBody a s = .ok () s := by
  unfold sleepBody
  rw [bind_ok (get_run s), if_pos h]
  rfl

theorem sleep_onlyAdvances (st : Fin 8) (ha : s.ctx.ahead = false) (hi : s.CanIssue [rdC a])
    (h : (s.rx a).toNat ≤ s.time.toNat) : OnlyAdvances s (execSleep st a s) :=
  onlyAdvances_of (issue_retires hi rfl rfl ((unlessAhead_run (sleepBody a) ha).trans (sleepBody_over h)))

/-- What YIELD does in a state, by what its context waits for. -/
def yieldFrom (s : State) : Wait → Op Unit
  | .yielding owe => await owe.isEmpty
  | _ =>
    let owe := s.readyOthers
    if owe.isEmpty then pure ()
    else do
      upd fun s => s.setCtx { s.ctx with wait := .yielding owe }
      waitHere

/-- The operation of YIELD. -/
def yieldBody : Op Unit := do
  let s ← get
  yieldFrom s s.ctx.wait

theorem yieldOp_eq (st : Nat) : yieldOp st s = issue { st := st } (unlessAhead yieldBody) s := rfl

theorem yieldBody_over (h : s.ctx.wait = .yielding [] ∨ ((∀ owe, s.ctx.wait ≠ .yielding owe) ∧ s.readyOthers = [])) :
    yieldBody s = .ok () s := by
  unfold yieldBody
  rw [bind_ok (get_run s)]
  rcases h with h | ⟨hw, hr⟩
  · rw [h]
    rfl
  · rw [yieldFrom.eq_2 _ _ hw, hr]
    rfl

theorem yield_onlyAdvances (st : Nat) (ha : s.ctx.ahead = false) (hi : s.CanIssue [])
    (h : s.ctx.wait = .yielding [] ∨ ((∀ owe, s.ctx.wait ≠ .yielding owe) ∧ s.readyOthers = [])) :
    OnlyAdvances s (yieldOp st s) :=
  onlyAdvances_of ((yieldOp_eq st).trans
    (issue_retires hi rfl rfl ((unlessAhead_run yieldBody ha).trans (yieldBody_over h))))

end Sleeping

/-- Settles O14. -/
theorem jobWaits : Obligations.JobWaits := by
  unfold Obligations.JobWaits
  intro s st st' d a x j ha final
  have answered {i : Instr} {d a : Fin 32} (h : s.CanIssue [rdC a] → AnswersJob s d a (exec i s)) : final i d a :=
    fun hi => ⟨fun hj => (h hi).1 j hj, (h hi).2⟩
  refine ⟨answered (waitJob_answers ha), answered (pollj_answers st ha), answered (waitJob_answers ha),
    fun hi hj hs => ⟨?_, ?_⟩, fun hi hle => ?_, fun hi hw => ⟨?_, ?_⟩⟩
  · have hv : j.statusWord = BitVec.ofNat 64 (j.cause % 64 * 16 + j.count % 65536 * 1024 + j.pos % 2 ^ 38 * 2 ^ 26) := by
      rw [statusWord_eq, hs, Nat.zero_mod, Nat.zero_add]
    rw [← hv]
    exact (writesC_of (issue_retires hi rfl rfl ((unlessAhead_run _ ha).trans (pollBody_pending hj hs))) :
      WritesC s (execPollj st d a s) d _)
  · exact (issue_waits hi rfl rfl ((unlessAhead_run _ ha).trans (waitBody_pending hj hs)) :
      execWaitj st d a s = .next s.block)
  · exact (sleep_onlyAdvances st ha hi hle : OnlyAdvances s (execSleep st a s))
  · exact (yield_onlyAdvances _ ha hi hw : OnlyAdvances s (execYield st s))
  · exact (yield_onlyAdvances _ ha hi hw : OnlyAdvances s (execYieldShort st' s))

end Sys2Proof.Proofs
end

section
/-! PROOFS. CLEAN over a page whose entry a home watchpoint of the issuing core watches (R231, R258, R264): the walk sets AC in
the entry, and the hit is recorded in the core's HWE. -/
namespace Sys2Proof.Proofs
open Sys2Proof Sys2Proof.Machine Sys2Proof.Laws
set_option Elab.async false

/-- c1 covers 128 bytes of the second page with permission L, and c2 is the length 1. -/
def watchedCtx : Ctx :=
  { c := ((Vector.replicate 32 Cap.null).set 1 (capOf 65536 128 (2 ^ pL))).set 2 (scalar 1) }

/-- Its home watchpoint 0 is enabled over the 64 KiB of the second page. -/
def watchedCore : Core :=
  { job := some 0, ctxs := (Vector.replicate 11 {}).set 0 watchedCtx
    hwc := (Vector.replicate 2 0).set 0 (1 + 4 * 16), hwa := (Vector.replicate 2 0).set 0 65536 }

/-- One node holds the tables: its entry 0 leads to itself, and its entry 1 is the leaf of the second page, whose place is the
node's own. -/
def watchedTables : State :=
  { core := watchedCore, jobs := [{ spec := { asid := 0, root := 0, gang := [] } }], mem := [(0, 1), (8, 3)] }

theorem watchedTables_canIssue : watchedTables.CanIssue [rdC 1, rdC 2] :=
  ⟨by decide, by decide, by decide, by decide⟩

/-- Whether an operation has answered. -/
def answered {α : Type} : EStateM.Result Stop State α → Bool
  | .ok _ _ => true
  | .error _ _ => false

theorem watchedTables_passes :
    answered (cacheRange (watchedTables.rc 1) (watchedTables.rx 2).toNat watchedTables) = true := by
  decide

/-- The recorded hits of the focused core's first home watchpoint after an answer. -/
def firstHit : Host.Outcome State Fault Refusal → Word
  | .next t => t.core.hwe[0]
  | _ => 0

theorem watchedTables_hit : firstHit (exec (.clean 0 1 2) watchedTables) ≠ 0 := by
  decide

/-- Refutes O13: CLEAN over a range that passes records the walk's write of AC in HWE, where the statement has nothing of the
core but caches and the translation buffer change; nothing in it excludes home watchpoints on the tables. -/
theorem not_fencesAndCaches : ¬ Obligations.FencesAndCaches := by
  unfold Obligations.FencesAndCaches
  intro h
  obtain ⟨gs, s1, hpass⟩ : ∃ gs s1, cacheRange (watchedTables.rc 1) (watchedTables.rx 2).toNat watchedTables = .ok gs s1 := by
    have hok := watchedTables_passes
    revert hok
    cases cacheRange (watchedTables.rc 1) (watchedTables.rx 2).toNat watchedTables with
    | ok gs s1 => exact fun _ => ⟨gs, s1, rfl⟩
    | error e t => exact fun hok => nomatch hok
  obtain ⟨-, -, hrange⟩ := h watchedTables s1 0 0 0 1 2 gs
  obtain ⟨⟨t, hexec, -, hcaches, -⟩, -⟩ := hrange watchedTables_canIssue hpass
  have hhit := watchedTables_hit
  rw [hexec, firstHit, hcaches.core] at hhit
  exact hhit rfl

end Sys2Proof.Proofs
end

section
/-! PROOFS. A masked vector instruction waits for a result of variable latency that is on its way to its destination (R79, log 36):
statements that list only the registers it reads do not exclude that wait. -/
namespace Sys2Proof.Proofs
open Sys2Proof Sys2Proof.Machine Sys2Proof.Laws
set_option Elab.async false

/-- h0 with o0 as given, and a gather's result on its way to v5. -/
def gatherCtx (o0 : Word) : Ctx :=
  { slot := .live, o := (Vector.replicate 8 0).set 0 o0, pend := [{ file := .v, idx := 5, op := 0 }] }

/-- The machine after reset but for that context. -/
def gatherToV5 (o0 : Word) : State := { core := { ctxs := (Vector.replicate 11 {}).set 0 (gatherCtx o0) } }

/-- A context that waits has not gone on: no instruction has been counted. -/
theorem not_writesV_block (s : State) (d : Fin 64) (v : VReg) (lat : Option Nat) (r : Bool) :
    ¬ WritesV s (.next s.block) d v lat r := by
  rintro ⟨t, ht, hframe, -⟩
  obtain rfl := Host.Outcome.next.inj ht
  have hcount : s.core.evc = s.core.evc.set s.counter (s.core.evc[s.counter] + 1) := hframe.adv.count
  have hself : s.core.evc[s.counter] = s.core.evc[s.counter] + 1 := by
    conv_lhs => rw [hcount]
    simp
  generalize s.core.evc[s.counter] = x at hself
  bv_omega

section Hypotheses

variable (o0 : Word)

theorem gatherToV5_plain (named : List (Fin 64)) (h : ∀ n ∈ named, n.val < 56) : (gatherToV5 o0).Plain named := by
  refine ⟨rfl, fun n hn => ?_, (nomatch ·)⟩
  have hport : portNo n = none := dif_neg (by have := h n hn; omega)
  simp [State.boundPort, State.port, hport]

/-- An instruction that reads v0 and m1 may issue. -/
theorem gatherToV5_canIssue (reads : List (RegFile × Nat)) (h : (RegFile.v, 5) ∉ reads) :
    (gatherToV5 o0).CanIssue reads := by
  refine ⟨rfl, rfl, (nomatch ·), fun r hr => ?_⟩
  have hne : ¬ (RegFile.v = r.1 ∧ 5 = r.2) := fun ⟨hf, hi⟩ => h (by rw [hf, hi]; exact hr)
  simpa [State.varPending, gatherToV5, gatherCtx, State.ctx, VarPend.isFor] using hne

end Hypotheses

/-- Refutes O15: VADD under m1 into v5. -/
theorem not_vectorIntegers : ¬ Obligations.VectorIntegers := by
  unfold Obligations.VectorIntegers
  intro h
  obtain ⟨hthree, -⟩ := h (gatherToV5 0) 0 0 0 5 0 0 1 0 0 (by decide) ⟨by decide, by decide, by decide⟩
  obtain ⟨⟨v, -, hw⟩, -⟩ := hthree (gatherToV5_plain 0 _ (by decide)) (gatherToV5_canIssue 0 _ (by decide))
  have hwait : exec (.vadd 0 5 0 0 1) (gatherToV5 0) = .next (gatherToV5 0).block := rfl
  rw [hwait] at hw
  exact not_writesV_block _ _ _ _ _ hw

/-- Refutes O16: VADD of FP16 under m1 into v5. -/
theorem not_vectorFloats : ¬ Obligations.VectorFloats := by
  unfold Obligations.VectorFloats
  intro h
  obtain ⟨hthree, -⟩ := h (gatherToV5 8) 8 0 0 5 0 0 1 0 0 (by decide) (by decide) ⟨by decide, by decide, by decide⟩ (by decide)
  obtain ⟨⟨v, -, hw⟩, -⟩ := hthree (gatherToV5_plain 8 _ (by decide)) (gatherToV5_canIssue 8 _ (by decide))
  have hwait : exec (.vadd 0 5 0 0 1) (gatherToV5 8) = .next (gatherToV5 8).block := rfl
  rw [hwait] at hw
  exact not_writesV_block _ _ _ _ _ hw

/-- Refutes O17: VAND under m1 into v5. -/
theorem not_vectorAndRegisterMoves : ¬ Obligations.VectorAndRegisterMoves := by
  unfold Obligations.VectorAndRegisterMoves
  intro h
  obtain ⟨hthree, -⟩ := h.1 (gatherToV5 0) 0 0 0 5 0 0 1 0 0
  obtain ⟨⟨v, -, hw⟩, -⟩ := hthree (gatherToV5_plain 0 _ (by decide)) (gatherToV5_canIssue 0 _ (by decide))
  have hwait : exec (.vand 0 5 0 0 1) (gatherToV5 0) = .next (gatherToV5 0).block := rfl
  rw [hwait] at hw
  exact not_writesV_block _ _ _ _ _ hw

/-- Refutes O19: VRSUM under m1 into v5. -/
theorem not_vectorReductions : ¬ Obligations.VectorReductions := by
  unfold Obligations.VectorReductions
  intro h
  obtain ⟨hred, -⟩ := h (gatherToV5 0) 0 0 0 5 0 0 1
  obtain ⟨hint, -⟩ := hred ⟨by decide, by decide, by decide⟩ (by decide) (gatherToV5_plain 0 _ (by decide))
    (gatherToV5_canIssue 0 _ (by decide))
  obtain ⟨⟨v, -, hw⟩, -⟩ := hint (by decide)
  have hwait : exec (.vrsum 0 5 0 0 1) (gatherToV5 0) = .next (gatherToV5 0).block := rfl
  rw [hwait] at hw
  exact not_writesV_block _ _ _ _ _ hw

/-- Refutes O20: VCVT of INT8 to INT8 under m1 into v5. -/
theorem not_vectorConversions : ¬ Obligations.VectorConversions := by
  unfold Obligations.VectorConversions
  intro h
  obtain ⟨hcvt, -⟩ := h (gatherToV5 0) 0 0 0 5 0 0 1 ⟨by decide, by decide, by decide⟩ (by decide) (by decide)
    (gatherToV5_plain 0 _ (by decide))
  obtain ⟨hto, -⟩ := hcvt (by decide) (fun hr => absurd hr (by decide))
  obtain ⟨v, -, hw⟩ := hto (gatherToV5_canIssue 0 _ (by decide))
  have hwait : exec (.vcvt 0 5 0 1) (gatherToV5 0) = .next (gatherToV5 0).block := rfl
  rw [hwait] at hw
  exact not_writesV_block _ _ _ _ _ hw

end Sys2Proof.Proofs
end

section
/-! PROOFS. VLDT of a row that its tile leaves out, where a home watchpoint of the issuing core watches the entry that translates
the header (R231, R258, R270): the walk sets AC in the entry, and the hit is recorded in the core's HWE. -/
namespace Sys2Proof.Proofs
open Sys2Proof Sys2Proof.Machine Sys2Proof.Laws
set_option Elab.async false

/-- c1 is a capability for a tile header of zeros, and c0 is the row 0. -/
def headerCtx : Ctx :=
  { c := (Vector.replicate 32 Cap.null).set 1 (capOf (65536 + 128) 128 (2 ^ pL + 2 ^ pLC)) }

/-- The watched tables with that context. -/
def watchedHeader : State :=
  { watchedTables with stackOn := Vector.replicate 8 true, core := { watchedCore with ctxs := (Vector.replicate 11 {}).set 0 headerCtx } }

theorem watchedHeader_canIssue : watchedHeader.CanIssue [rdM 0, rdC 1, rdC 0, rdG 0] :=
  ⟨by decide, by decide, by decide, by decide⟩

theorem watchedHeader_plain : watchedHeader.Plain [5] :=
  ⟨by decide, by decide, by decide⟩

/-- Whether a tile header was read that is valid and leaves out row 0. -/
def leavesOut : EStateM.Result Stop State Hdr → Bool
  | .ok h _ => !h.bad true && !h.rowv.testBit 0
  | .error _ _ => false

theorem watchedHeader_leavesOut : leavesOut (readHdr (watchedHeader.rc 1) watchedHeader) = true := by
  decide +kernel

theorem watchedHeader_hit : firstHit (exec (.vldt 0 5 1 0) watchedHeader) ≠ 0 := by
  decide +kernel

/-- Refutes O23: VLDT of a row that the tile leaves out records in HWE the walk's write of AC for the header, where the statement
has nothing of the core but its registers, ports, caches and translation buffer change; nothing in that clause excludes home
watchpoints on the tables. -/
theorem not_blocksAndTiles : ¬ Obligations.BlocksAndTiles := by
  unfold Obligations.BlocksAndTiles
  intro h
  obtain ⟨hd, s1, hread, hbad, hrow⟩ : ∃ hd s1, readHdr (watchedHeader.rc 1) watchedHeader = .ok hd s1 ∧
      hd.bad true = false ∧ hd.rowv.testBit 0 = false := by
    have hok := watchedHeader_leavesOut
    revert hok
    cases readHdr (watchedHeader.rc 1) watchedHeader with
    | ok hd s1 => 
      intro hok
      obtain ⟨hbad, hrow⟩ := Bool.and_eq_true_iff.mp hok
      exact ⟨hd, s1, rfl, by simpa using hbad, by simpa using hrow⟩
    | error e t => exact fun hok => nomatch hok
  obtain ⟨-, htiles, -⟩ := h watchedHeader s1 s1 0 5 0 1 0 hd [] [] ⟨0, 0, 0, none⟩ [] (by decide) (by decide)
  obtain ⟨-, hguarded⟩ := htiles (by decide) watchedHeader_plain
  obtain ⟨hloads, -⟩ := hguarded (by decide) (by decide) hread hbad
  obtain ⟨hskips, -⟩ := hloads watchedHeader_canIssue
  obtain ⟨t, hexec, -, honly, -⟩ := hskips hrow
  have hhit := watchedHeader_hit
  rw [hexec, firstHit, honly.core] at hhit
  exact hhit rfl

end Sys2Proof.Proofs
end

section
/-! PROOFS. What the device's own work leaves as it was: the walks of its engines, their writes of level records, stamps and
counters with the watchpoints they meet, and the counting of tasks on levels (R231, R258, R329, R393, R397 to R404). -/
namespace Sys2Proof.Proofs
open Sys2Proof Sys2Proof.Machine Sys2Proof.Laws
set_option Elab.async false

/-- A core without what a home watchpoint, a gang's stop and a write elsewhere may change of it. -/
def kept (c : Core) : Core :=
  { c with hwe := Vector.replicate 2 0, pWatch := [], stopReq := false, stopBy := 0, gswhy := 0, l1 := [] }

/-- A job without its state of run, its traces and the graphs that wait. -/
def keptJob (j : Job) : Job := { j with gang := .run, closed := false, traces := [], pendGraphs := [] }

/-- A state without its cores and jobs, and without memory and what follows its accesses. -/
def bare (s : State) : State :=
  { s with core := {}, others := [], jobs := [], mem := [], tags := [], bad := [], l2 := [], wcache := [], recents := [], known := [], freeN := 0
           nextNo := 0, heldHit := false, events := [], levels := [] }

/-- From `s` to `t` only the device has worked: of every core at most its watchpoints' record, its order to stop and what its L1
has become old of differ, and nothing beside memory, levels and the books of accesses. -/
structure Device (s t : State) : Prop where
  core  : kept t.core = kept s.core
  cores : ∀ e, kept (t.coreOf e) = kept (s.coreOf e)
  jobs  : t.jobs.map keptJob = s.jobs.map keptJob
  rest  : bare t = bare s

section
variable {s₀ s t : State}

theorem Device.refl (s : State) : Device s s := ⟨rfl, fun _ => rfl, rfl, rfl⟩

theorem Device.trans (h : Device s₀ s) (h' : Device s t) : Device s₀ t :=
  ⟨h'.core.trans h.core, fun e => (h'.cores e).trans (h.cores e), h'.jobs.trans h.jobs, h'.rest.trans h.rest⟩

/-- A part of a core that the device leaves. -/
theorem eq_of_kept {α : Type} (part : Core → α) {c d : Core} (h : kept c = kept d)
    (hpart : ∀ c, part (kept c) = part c := by intro; rfl) : part c = part d :=
  (hpart c).symm.trans ((congrArg part h).trans (hpart d))

/-- A part of a state that the device leaves. -/
theorem eq_of_bare {α : Type} (part : State → α) {s t : State} (h : bare s = bare t)
    (hpart : ∀ s, part (bare s) = part s := by intro; rfl) : part s = part t :=
  (hpart s).symm.trans ((congrArg part h).trans (hpart t))

theorem Device.id (h : Device s t) : t.core.id = s.core.id := eq_of_kept Core.id h.core

theorem coreOf_same {t : State} (hc : kept t.core = kept s.core) (ho : t.others = s.others) (e : Nat) :
    kept (t.coreOf e) = kept (s.coreOf e) := by
  have hid : t.core.id = s.core.id := eq_of_kept Core.id hc
  unfold State.coreOf
  rw [hid, ho]
  split
  · exact hc
  · rfl

/-- Only the focused core has changed, and of it only what the device may change. -/
theorem Device.same (h : Device s₀ s) (hc : kept t.core = kept s.core) (ho : t.others = s.others) (hj : t.jobs = s.jobs)
    (hr : bare t = bare s) : Device s₀ t :=
  h.trans ⟨hc, coreOf_same hc ho, by rw [hj], hr⟩

theorem find?_map_kept {f : Core → Core} (hf : ∀ c, kept (f c) = kept c) (e : Nat) (l : List Core) :
    (l.map f).find? (fun c => c.id == e) = (l.find? (fun c => c.id == e)).map f := by
  have hid (c : Core) : (f c).id = c.id := eq_of_kept Core.id (hf c)
  rw [List.find?_map]
  congr 2
  funext c
  exact congrArg (· == e) (hid c)

/-- Every core has changed in a way the device may. -/
theorem Device.cores_map {f : Core → Core} (h : Device s₀ s) (hc : kept t.core = kept s.core)
    (ho : t.others = s.others.map f) (hj : t.jobs = s.jobs) (hr : bare t = bare s) (hf : ∀ c, kept (f c) = kept c) :
    Device s₀ t := by
  refine h.trans ⟨hc, fun e => ?_, by rw [hj], hr⟩
  have hid : t.core.id = s.core.id := eq_of_kept Core.id hc
  unfold State.coreOf
  rw [hid, ho, find?_map_kept hf]
  split
  · exact hc
  · cases s.others.find? (fun c => c.id == e) with
    | none => rfl
    | some c => exact hf c

theorem find?_insCore_same (c : Core) (l : List Core) : (insCore c l).find? (fun x => x.id == c.id) = some c := by
  induction l with
  | nil => simp [insCore]
  | cons x xs ih =>
    unfold insCore
    split
    · simp
    · split
      · simp
      · rename_i hne
        simp [Ne.symm hne, ih]

theorem find?_insCore_other {c : Core} {e : Nat} (he : c.id ≠ e) (l : List Core) :
    (insCore c l).find? (fun x => x.id == e) = l.find? (fun x => x.id == e) := by
  induction l with
  | nil => simp [insCore, he]
  | cons x xs ih =>
    unfold insCore
    split
    · simp [he]
    · split
      · rename_i hx
        simp [he, hx ▸ he]
      · simp only [List.find?_cons, ih]

theorem coreOf_id (s : State) (e : Nat) : (s.coreOf e).id = e := by
  unfold State.coreOf
  split
  · assumption
  · cases hf : s.others.find? (fun c => c.id == e) with
    | none => rfl
    | some c => simpa using List.find?_some hf

/-- One core has changed in a way the device may. -/
theorem mapCore_device {e : Nat} {f : Core → Core} (hf : ∀ c, kept (f c) = kept c) (h : Device s₀ s) :
    Device s₀ (s.mapCore e f) := by
  unfold State.mapCore
  split
  · exact h.same (hf _) rfl rfl rfl
  · rename_i hne
    have hid : (f (s.coreOf e)).id = e := (eq_of_kept Core.id (hf (s.coreOf e))).trans (coreOf_id s e)
    refine h.trans ⟨rfl, fun e' => ?_, rfl, rfl⟩
    by_cases heq : e' = e
    · subst heq
      have hthis : State.coreOf { s with others := insCore (f (s.coreOf e')) s.others } e' = f (s.coreOf e') := by
        have hfind := find?_insCore_same (f (s.coreOf e')) s.others
        rw [hid] at hfind
        rw [State.coreOf, if_neg hne]
        exact congrArg (fun o => Option.getD o { id := e' }) hfind
      rw [hthis, hf]
    · have hfind := find?_insCore_other (e := e') (hid.trans_ne (Ne.symm heq)) s.others
      unfold State.coreOf at hfind ⊢
      dsimp only
      rw [hfind]

theorem focusOn_core (s : State) (e : Nat) : (s.focusOn e).core = s.coreOf e := by
  unfold State.focusOn State.coreOf
  split <;> rfl

theorem find?_filter_id {e e' : Nat} (he : e' ≠ e) (l : List Core) :
    (l.filter (fun c => c.id != e)).find? (fun c => c.id == e') = l.find? (fun c => c.id == e') := by
  rw [List.find?_filter]
  congr 1
  funext c
  by_cases hc : c.id = e'
  · simp [hc, he]
  · simp [hc]

/-- Moving the focus moves no core's state. -/
theorem coreOf_focusOn (s : State) (e e' : Nat) : (s.focusOn e).coreOf e' = s.coreOf e' := by
  by_cases he : s.core.id = e
  · rw [State.focusOn, if_pos he]
  · rw [State.focusOn, if_neg he]
    by_cases h : e' = e
    · subst h
      rw [State.coreOf, if_pos (coreOf_id s e')]
    · rw [State.coreOf, if_neg (by rw [coreOf_id]; exact Ne.symm h)]
      dsimp only
      by_cases h0 : s.core.id = e'
      · subst h0
        rw [find?_insCore_same, State.coreOf, if_pos rfl]
        rfl
      · rw [find?_insCore_other h0, find?_filter_id h, State.coreOf, if_neg h0]

theorem focusOn_device {e : Nat} (s : State) : bare (s.focusOn e) = bare s ∧ (s.focusOn e).jobs = s.jobs := by
  unfold State.focusOn
  split <;> exact ⟨rfl, rfl⟩

/-- What is done with another core in focus. -/
theorem at_device {e : Nat} {f : State → State} (hf : ∀ s, Device s (f s)) (h : Device s₀ s) : Device s₀ (s.at e f) := by
  refine h.trans ?_
  obtain ⟨-, hcores, hjobs, hrest⟩ := hf (s.focusOn e)
  refine ⟨?_, fun e' => ?_, ?_, ?_⟩
  · rw [State.at, focusOn_core, hcores, coreOf_focusOn, State.coreOf, if_pos rfl]
  · rw [State.at, coreOf_focusOn, hcores, coreOf_focusOn]
  · rw [State.at, (focusOn_device _).2, hjobs, (focusOn_device s).2]
  · rw [State.at, (focusOn_device _).1, hrest, (focusOn_device s).1]

theorem mapJob_device {asid : Nat} {f : Job → Job} (hf : ∀ j, keptJob (f j) = keptJob j) (h : Device s₀ s) :
    Device s₀ (s.mapJob asid f) := by
  refine h.trans ⟨rfl, fun _ => rfl, ?_, rfl⟩
  rw [State.mapJob, List.map_map]
  refine List.map_congr_left fun j _ => ?_
  dsimp only [Function.comp]
  split
  · exact hf j
  · rfl

theorem foldl_device {α : Type} {f : State → α → State} (hf : ∀ s a, Device s₀ s → Device s₀ (f s a)) (xs : List α)
    (h : Device s₀ s) : Device s₀ (xs.foldl f s) := by
  induction xs generalizing s with
  | nil => exact h
  | cons x xs ih => exact ih (hf s x h)

/-- As `foldl_device`, with an answer beside the state. -/
theorem foldl_fst_device {α β : Type} {f : State × β → α → State × β} (hf : ∀ x a, Device s₀ x.1 → Device s₀ (f x a).1)
    (xs : List α) {x : State × β} (h : Device s₀ x.1) : Device s₀ (xs.foldl f x).1 := by
  induction xs generalizing x with
  | nil => exact h
  | cons a xs ih => exact ih (hf x a h)

/-- The first part of a pair that was taken apart. -/
theorem Device.fst {α : Type} {p : State × α} {a : α} (h : Device s₀ p.1) (hp : p = (t, a)) : Device s₀ t := by
  subst hp
  exact h

theorem putBytes_device {a : Nat} {bs : List Byte} (h : Device s₀ s) : Device s₀ (s.putBytes a bs) :=
  .same h rfl rfl rfl rfl

theorem putNat_device {a n x : Nat} (h : Device s₀ s) : Device s₀ (s.putNat a n x) :=
  putBytes_device h

theorem numbered_device (h : Device s₀ s) : Device s₀ s.numbered :=
  .same h rfl rfl rfl rfl

theorem setKnown_device {k : Known} (h : Device s₀ s) : Device s₀ (s.setKnown k) :=
  .same h rfl rfl rfl rfl

theorem learn_device {a1 : Nat × Nat} {ns : List Nat} (h : Device s₀ s) : Device s₀ (s.learn a1 ns) :=
  setKnown_device h

theorem edge_device {from_ to_ : Nat × Nat} (h : Device s₀ s) : Device s₀ (s.edge from_ to_) :=
  setKnown_device h

theorem noteDevice_device {past : List Nat} {va a n : Nat} (h : Device s₀ s) : Device s₀ (s.noteDevice past va a n) :=
  numbered_device (.same h rfl rfl rfl rfl)

theorem keepSource_device {me : Nat × Nat} {va a n : Nat} (h : Device s₀ s) : Device s₀ (s.keepSource me va a n) :=
  noteDevice_device h

theorem tellHost_device {e : HostEvent} (h : Device s₀ s) : Device s₀ (s.tellHost e) :=
  .same h rfl rfl rfl rfl

theorem trace_device {typ cause data : Nat} (h : Device s₀ s) : Device s₀ (s.trace typ cause data) := by
  unfold State.trace
  split
  · exact h
  · dsimp only
    split
    · exact mapJob_device (fun j => rfl) h
    · exact h

theorem askStop_kept {c : Core} {reason origin now : Nat} : kept (c.askStop reason origin now) = kept c := by
  unfold Core.askStop
  split
  · exact by split <;> rfl
  · exact rfl

theorem gangStop_device {asid reason origin : Nat} (h : Device s₀ s) : Device s₀ (s.gangStop asid reason origin) := by
  unfold State.gangStop
  split
  · exact h
  · extract_lets s1 s2
    have h1 : Device s₀ s1 := foldl_device (fun s3 b h => mapCore_device (fun c => askStop_kept) h) _ h
    have h2 : Device s₀ s2 := mapJob_device (fun j => by split <;> rfl) h1
    split
    · exact tellHost_device h2
    · split
      · exact tellHost_device h2
      · exact h2

theorem homeHit_device {e : Nat} {h' : Fin 2} {va writer : Nat} (h : Device s₀ s) : Device s₀ (s.homeHit e h' va writer) := by
  unfold State.homeHit
  extract_lets c old hits s1 s2
  have h1 : Device s₀ s1 := at_device (fun s3 => trace_device (.refl s3)) h
  have h2 : Device s₀ s2 := mapCore_device (fun c1 => rfl) h1
  split
  · exact mapCore_device (fun c1 => rfl) h1
  · split
    · split
      · exact gangStop_device h2
      · exact h2
    · exact h2

theorem homeWatch_device {a n writer : Nat} (h : Device s₀ s) : Device s₀ (s.homeWatch a n writer) := by
  refine foldl_device ?_ _ h
  intro s1 c h
  refine foldl_device ?_ _ h
  intro s2 b h
  split
  · exact homeHit_device h
  · exact h

theorem l2Fill_device {slice line : Nat} {dirty : Bool} (h : Device s₀ s) : Device s₀ (s.l2Fill slice line dirty) :=
  .same h rfl rfl rfl rfl

theorem l2Read_device {die line : Nat} (h : Device s₀ s) : Device s₀ (s.l2Read die line) := by
  unfold State.l2Read
  split
  · exact h
  · split
    · exact l2Fill_device h
    · exact l2Fill_device (l2Fill_device h)

theorem l2Write_device {line : Nat} (h : Device s₀ s) : Device s₀ (s.l2Write line) := by
  unfold State.l2Write
  split
  · exact h
  · exact l2Fill_device (.same h rfl rfl rfl rfl)

theorem l2Drop_device {line : Nat} (h : Device s₀ s) : Device s₀ (s.l2Drop line) :=
  .same h rfl rfl rfl rfl

theorem l2Store_device {cached : Bool} {line : Nat} (h : Device s₀ s) : Device s₀ (s.l2Store cached line) := by
  unfold State.l2Store
  split
  · exact l2Write_device h
  · exact l2Drop_device h

theorem l2Fetch_device {cached : Bool} {a n : Nat} (h : Device s₀ s) : Device s₀ (s.l2Fetch cached a n) := by
  unfold State.l2Fetch
  split
  · exact foldl_device (fun s1 b h => l2Read_device h) _ h
  · exact h

theorem cutAt_kept {c : Core} {lines : List Nat} {no at_ : Nat} : kept (c.cutAt lines no at_) = kept c :=
  rfl

theorem cutLines_device {lines : List Nat} {at_ : Nat} (h : Device s₀ s) : Device s₀ (s.cutLines lines at_) :=
  .cores_map h rfl rfl rfl rfl (fun _ => rfl)

theorem touch_device {a n : Nat} (h : Device s₀ s) : Device s₀ (s.touch a n) := by
  unfold State.touch
  split
  · exact .same h rfl rfl rfl rfl
  · exact h

theorem pteWrite_device {ea x writer : Nat} (h : Device s₀ s) : Device s₀ (s.pteWrite ea x writer) := by
  unfold State.pteWrite
  extract_lets s1
  have h1 : Device s₀ s1 := l2Drop_device (putNat_device (cutLines_device h))
  exact noteDevice_device (homeWatch_device h1)

theorem pteSet_device {l : Leaf} {mask : Nat} (h : Device s₀ s) : Device s₀ (s.pteSet l mask).1 := by
  unfold State.pteSet
  extract_lets s1 now
  have h1 : Device s₀ s1 := touch_device h
  split
  · exact h1
  · exact pteWrite_device h1

theorem wcacheFill_device {asid va : Nat} {path : List (Nat × Nat × Nat)} (h : Device s₀ s) : Device s₀
    (s.wcacheFill asid va path) :=
  .same h rfl rfl rfl rfl

theorem walk_device {asid root va : Nat} (h : Device s₀ s) : Device s₀ (s.walk asid root va).1 := by
  have hp {xs : List (Nat × Nat × Nat)} : Device s₀
      ((xs.foldl (fun (s : State) x => (s.l2Read (dieOf s.core.id) (x.2.1 / 128)).touch x.2.1 8)
        { s with freeN := s.freeN + (s.oldPointers asid va).length }).wcacheFill asid va xs) :=
    wcacheFill_device (foldl_device (fun s a h => touch_device (l2Read_device h)) _ (.same h rfl rfl rfl rfl))
  unfold State.walk
  dsimp only
  split
  · exact pteSet_device hp
  · exact hp

theorem jobWalk_device {asid va : Nat} {k : Machine.Acc} (h : Device s₀ s) : Device s₀ (s.jobWalk asid va k).1 := by
  unfold State.jobWalk
  split
  · exact h
  · split
    · rename_i he
      exact .fst (walk_device h) he
    · split
      · split
        · refine pteSet_device ?_
          rename_i he _ _
          exact .fst (walk_device h) he
        · rename_i he _ _
          exact .fst (walk_device h) he
      · rename_i he _
        exact .fst (walk_device h) he

theorem engineRead_device {asid va n : Nat} (h : Device s₀ s) : Device s₀ (s.engineRead asid va n).1 := by
  refine foldl_fst_device ?_ _ h
  intro a b h
  split
  · extract_lets s1
    have h1 : Device s₀ s1 := by
      refine touch_device ?_
      rename_i he
      exact .fst (jobWalk_device h) he
    exact l2Fetch_device h1
  · rename_i he
    exact .fst (jobWalk_device h) he

theorem put_device {at_ : Nat} {cached : Bool} {a : Nat} {bs : List Byte} {writer : Nat} (h : Device s₀ s) : Device s₀
    (s.put at_ cached a bs writer) := by
  unfold State.put
  split
  · exact homeWatch_device (foldl_device (fun s1 b h => l2Store_device h) _ (putBytes_device (cutLines_device h)))
  · exact h

theorem engineWriteAs_device {past : List Nat} {asid va : Nat} {bs : List Byte} {writer : Nat} (h : Device s₀ s) : Device s₀
    (s.engineWriteAs past asid va bs writer) := by
  refine foldl_device ?_ _ h
  intro s1 b h
  split
  · extract_lets s2
    have h2 : Device s₀ s2 := by
      refine touch_device ?_
      rename_i he
      exact .fst (jobWalk_device h) he
    exact noteDevice_device (put_device h2)
  · rename_i he
    exact .fst (jobWalk_device h) he

theorem engineWrite_device {asid va : Nat} {bs : List Byte} {writer : Nat} (h : Device s₀ s) : Device s₀
    (s.engineWrite asid va bs writer) :=
  engineWriteAs_device h

theorem snapCounters_device {me : Nat × Nat} {asid e : Nat} (h : Device s₀ s) : Device s₀ (s.snapCounters me asid e) := by
  unfold State.snapCounters
  split
  · exact h
  · split
    · exact engineWriteAs_device h
    · exact h

theorem showLevel_device {l : Level} (h : Device s₀ s) : Device s₀ (s.showLevel l) := by
  unfold State.showLevel
  split
  · split
    · extract_lets va s1
      have h1 : Device s₀ s1 := engineWrite_device h
      split
      · split
        · exact keepSource_device h1
        · exact h1
      · exact h1
    · exact h
  · exact h

theorem putLevel_device {l : Level} (h : Device s₀ s) : Device s₀ (s.putLevel l) :=
  showLevel_device (.same h rfl rfl rfl rfl)

theorem mapLevel_device {asid lid : Nat} {f : Level → Level} (h : Device s₀ s) : Device s₀ (s.mapLevel asid lid f) := by
  unfold State.mapLevel
  split
  · exact putLevel_device h
  · exact h

theorem countUp_device {asid lid : Nat} (h : Device s₀ s) (ho : s.countUp asid lid = some t) : Device s₀ t := by
  unfold State.countUp at ho
  split at ho
  · split at ho
    · cases ho
    · cases ho
      exact putLevel_device h
  · cases ho
    exact h

theorem closeLevel_device {asid lid : Nat} (h : Device s₀ s) : Device s₀ (s.closeLevel asid lid) := by
  unfold State.closeLevel
  extract_lets s1
  have h1 : Device s₀ s1 := mapLevel_device h
  split
  · exact edge_device h1
  · exact h1

theorem openLevel_device {l : Level} (h : Device s₀ s) : Device s₀ (s.openLevel l) :=
  putLevel_device h

theorem addLaunch_device {asid graph : Nat} {sp : LaunchSpec} (h : Device s₀ s) : Device s₀ (s.addLaunch asid graph sp) :=
  openLevel_device h

theorem startGraph_device {g : GraphSpec} (h : Device s₀ s) : Device s₀ (s.startGraph g) := by
  unfold State.startGraph
  split
  · exact mapLevel_device (openLevel_device h)
  · extract_lets s1
    have h1 : Device s₀ s1 := openLevel_device h
    exact foldl_device (fun s2 b h => edge_device (addLaunch_device h)) _ h1

theorem nextGraphs_device {asid phase : Nat} {a3 : List GraphSpec} (h : Device s₀ s) : Device s₀ (s.nextGraphs asid phase a3) := by
  induction a3 generalizing s asid phase with
  | nil => exact h
  | cons x xs ih =>
    unfold State.nextGraphs
    split
    · exact h
    · exact ih (startGraph_device (mapJob_device (fun j => rfl) h))

theorem nextGraph_device {asid phase : Nat} (h : Device s₀ s) : Device s₀ (s.nextGraph asid phase) :=
  nextGraphs_device h

theorem graphDone_device {asid graph : Nat} (h : Device s₀ s) : Device s₀ (s.graphDone asid graph) := by
  unfold State.graphDone
  extract_lets phase s1 s2
  have h1 : Device s₀ s1 := closeLevel_device h
  have h2 : Device s₀ s2 := mapLevel_device h1
  split
  · split
    · split
      · exact closeLevel_device h2
      · exact h2
    · exact nextGraph_device h2
  · exact h2

theorem graphDown_device {asid graph : Nat} (h : Device s₀ s) : Device s₀ (s.graphDown asid graph) := by
  unfold State.graphDown
  extract_lets s1
  have h1 : Device s₀ s1 := mapLevel_device h
  split
  · split
    · exact graphDone_device h1
    · exact h1
  · exact h1

theorem releaseSucc_device {asid lid : Nat} (h : Device s₀ s) : Device s₀ (s.releaseSucc asid lid) := by
  unfold State.releaseSucc
  split
  · exact foldl_device (fun s1 b h => edge_device (mapLevel_device h)) _ h
  · exact h

theorem launchDone_device {asid lid : Nat} (h : Device s₀ s) : Device s₀ (s.launchDone asid lid) := by
  unfold State.launchDone
  split
  · exact h
  · extract_lets s1 s2 s3 hash s4
    have h1 : Device s₀ s1 := by
      unfold s1
      split
      · split
        · exact h
        · exact foldl_device (fun s5 b h => snapCounters_device h) _ h
      · exact h
    have h2 : Device s₀ s2 := closeLevel_device h1
    have h3 : Device s₀ s3 := mapJob_device (fun j => rfl) h2
    have h4 : Device s₀ s4 := by
      unfold s4
      split
      · exact h3
      · split
        · exact mapLevel_device h3
        · exact releaseSucc_device h3
    exact graphDown_device h4

theorem countDown_device {asid lid : Nat} (h : Device s₀ s) : Device s₀ (s.countDown asid lid) := by
  unfold State.countDown
  extract_lets s1
  have h1 : Device s₀ s1 := mapLevel_device h
  split
  · exact h1
  · split
    · split
      · exact launchDone_device h1
      · split
        · exact closeLevel_device h1
        · exact h1
    · exact h1

theorem ringField_device {asid base o : Nat} (h : Device s₀ s) : Device s₀ (s.ringField asid base o).1 := by
  unfold State.ringField
  split
  rename_i he
  exact .fst (engineRead_device h) he

theorem ringPut_device {asid base size : Nat} {bs : List Byte} (h : Device s₀ s) : Device s₀ (s.ringPut asid base size bs) := by
  unfold State.ringPut
  split
  split
  split
  split
  · refine engineWrite_device ?_
    rename_i he _
    refine .fst ?_ he
    refine ringField_device ?_
    rename_i he1 _ _ _ _
    refine .fst ?_ he1
    refine ringField_device ?_
    rename_i he2 _ _ _ _ _ _ _
    exact .fst (ringField_device h) he2
  · refine engineWrite_device ?_
    refine engineWrite_device ?_
    rename_i he _
    refine .fst ?_ he
    refine ringField_device ?_
    rename_i he1 _ _ _ _
    refine .fst ?_ he1
    refine ringField_device ?_
    rename_i he2 _ _ _ _ _ _ _
    exact .fst (ringField_device h) he2

theorem stamp_device {a1 : Machine.Task} {deq srch fails core : Nat} {how : How} {disc : Bool} (h : Device s₀ s) : Device s₀
    (s.stamp a1 deq srch fails core how disc) := by
  unfold State.stamp
  split
  · exact h
  · exact ringPut_device h

theorem discard_device {a1 : Machine.Task} (h : Device s₀ s) : Device s₀ (s.discard a1) :=
  countDown_device (stamp_device h)

end

end Sys2Proof.Proofs
end

section
/-! PROOFS. Operations run: what the parts of an operation answer, written for `simp`; and what the results that become readable
change (R79, R81). -/
namespace Sys2Proof.Proofs
open Sys2Proof Sys2Proof.Machine Sys2Proof.Laws
set_option Elab.async false

/-! ### Operations in sequence -/

section Running
variable {α β : Type} {s t : State}

/-- What follows an answer. -/
def andThen (r : EStateM.Result Stop State α) (k : α → Op β) : EStateM.Result Stop State β :=
  match r with
  | .ok a t => k a t
  | .error e t => .error e t

@[simp] theorem andThen_ok (a : α) (t : State) (k : α → Op β) : andThen (.ok a t) k = k a t := rfl
@[simp] theorem andThen_error (e : Stop) (t : State) (k : α → Op β) : andThen (.error e t) k = .error e t := rfl

theorem run_bind (f : Op α) (k : α → Op β) (s : State) : (f >>= k) s = andThen (f s) k := by
  show EStateM.bind f k s = _
  unfold EStateM.bind andThen
  cases f s <;> rfl

theorem run_map (f : Op α) (g : α → β) (s : State) : (g <$> f) s = andThen (f s) (fun a => pure (g a)) := by
  show EStateM.map g f s = _
  unfold EStateM.map andThen
  cases f s <;> rfl

theorem run_legal (b : Bool) (s : State) :
    legal b s = if b = true then .ok () s else .error (.trap s.illegal) s := by
  cases b <;> rfl

theorem run_need (b : Bool) (c : Cause) (v : Int) (s : State) :
    need b c v s = if b = true then .ok () s else .error (.trap ⟨c, BitVec.ofNat 80 (addr80 v)⟩) s := by
  cases b <;> rfl

theorem run_await (b : Bool) (s : State) : await b s = if b = true then .ok () s else .error .wait s := by
  cases b <;> rfl

theorem run_raise (c : Cause) (v : Int) (s : State) :
    (raise c v : Op α) s = .error (.trap ⟨c, BitVec.ofNat 80 (addr80 v)⟩) s := rfl

theorem run_wait (s : State) : (waitHere : Op α) s = .error .wait s := rfl

theorem run_throw (e : Stop) (s : State) : (throw e : Op α) s = .error e s := rfl

theorem run_capNeed (c : Cap) (ps : List Nat) (a : Int) (n al : Nat) (s : State) :
    capNeed c ps a n al s = match capCheck c ps a n al with
      | none => .ok () s
      | some k => .error (.trap ⟨k, BitVec.ofNat 80 (addr80 a)⟩) s := by
  unfold capNeed
  cases capCheck c ps a n al <;> rfl

end Running

/-- No bits of a word stand above bit n. -/
theorem hiClear_iff (x : Word) (n : Nat) : hiClear x n = true ↔ x.toNat < 2 ^ n := by
  unfold hiClear
  rw [beq_iff_eq, Nat.div_eq_zero_iff]
  have : (2 : Nat) ^ n ≠ 0 := by positivity
  tauto

theorem hiClear_false_iff (x : Word) (n : Nat) : hiClear x n = false ↔ 2 ^ n ≤ x.toNat := by
  rw [← Bool.not_eq_true, hiClear_iff, not_lt]

/-! ### Results that become readable -/

section Settling
variable {s t u : State}

/-- From `s` to `t` at most results have become readable: of the issuing context its c and o registers and its pending results,
of the core its v, mask and guard registers. -/
structure Settles (s t : State) : Prop where
  rest   : t = { s with core := { s.core with ctxs := t.core.ctxs, v := t.core.v, m := t.core.m, g := t.core.g } }
  others : ∀ h : Fin 11, h ≠ s.core.cur → t.core.ctxs[h] = s.core.ctxs[h]
  ctx    : t.ctx = { s.ctx with c := t.ctx.c, o := t.ctx.o, fix := t.ctx.fix }

theorem Settles.refl (s : State) : Settles s s := ⟨rfl, fun _ _ => rfl, rfl⟩

theorem Settles.cur (h : Settles s t) : t.core.cur = s.core.cur := by
  rw [h.rest]

theorem Settles.trans (h : Settles s t) (h' : Settles t u) : Settles s u := by
  refine ⟨?_, fun k hk => ?_, ?_⟩
  · rw [h'.rest, h.rest]
  · rw [h'.others k (by rw [h.cur]; exact hk), h.others k hk]
  · rw [h'.ctx, h.ctx]

theorem settles_setCtx (x : Ctx) (hx : x = { s.ctx with c := x.c, o := x.o, fix := x.fix }) : Settles s (s.setCtx x) := by
  refine ⟨rfl, fun k hk => ?_, ?_⟩
  · have : s.core.cur.val ≠ k.val := fun e => hk (Fin.ext e.symm)
    simp [State.setCtx, this]
  · rw [ctx_setCtx]
    exact hx

theorem wAny_settles (f : RegFile) (i : Nat) (v : VReg) : Settles s (s.wAny f i v) := by
  unfold State.wAny
  cases f with
  | c =>
    dsimp only
    split
    · split
      · exact .refl s
      · exact settles_setCtx _ rfl
    · exact .refl s
  | v =>
    dsimp only
    split
    · exact ⟨rfl, fun _ _ => rfl, rfl⟩
    · exact .refl s
  | m =>
    dsimp only
    split
    · split
      · exact .refl s
      · exact ⟨rfl, fun _ _ => rfl, rfl⟩
    · exact .refl s
  | g =>
    dsimp only
    split
    · split
      · exact .refl s
      · exact ⟨rfl, fun _ _ => rfl, rfl⟩
    · exact .refl s
  | o =>
    dsimp only
    split
    · exact settles_setCtx _ rfl
    · exact .refl s

theorem applyFix_settles (cyc : Nat) (ps : List FixPend) (s : State) : Settles s (applyFix cyc ps s) := by
  induction ps generalizing s with
  | nil => exact .refl s
  | cons p ps ih =>
    refine Settles.trans ?_ (ih _)
    split
    · exact wAny_settles _ _ _
    · exact .refl s

theorem settleAt_settles (s : State) (cyc : Nat) : Settles s (s.settleAt cyc) :=
  (applyFix_settles cyc s.ctx.fix s).trans (settles_setCtx _ rfl)

theorem settleAll_settles (s : State) : Settles s s.settleAll := settleAt_settles s _

end Settling

/-! ### Contexts by number -/

theorem ctxNo_fin (c : Core) (h : Fin 11) : c.ctxNo h.val = c.ctxs[h] := dif_pos h.isLt

theorem mapCtxNo_fin (c : Core) (h : Fin 11) (f : Ctx → Ctx) :
    c.mapCtxNo h.val f = { c with ctxs := c.ctxs.set h (f c.ctxs[h]) } := dif_pos h.isLt

theorem slotFree_iff (c : Core) (h : Fin 11) :
    c.slotFree h.val = true ↔ h ≠ 0 ∧ h.val + 8 ≤ c.b0 ∧ c.ctxs[h].slot = .free := by
  have h0 : (1 ≤ h.val) ↔ h ≠ 0 := by
    rw [Nat.one_le_iff_ne_zero, ne_eq, ne_eq, Fin.ext_iff]
    rfl
  unfold Core.slotFree
  rw [dif_pos h.isLt]
  simp only [Bool.and_eq_true, decide_eq_true_eq, beq_iff_eq, h0, and_assoc, Fin.getElem_fin]

/-- Changing another context of the core leaves the issuing one. -/
theorem ctx_setOther (s : State) (h : Fin 11) (x : Ctx) (hh : h ≠ s.core.cur) :
    State.ctx { s with core := { s.core with ctxs := s.core.ctxs.set h x } } = s.ctx := by
  have : h.val ≠ s.core.cur.val := fun e => hh (Fin.ext e)
  simp [State.ctx, this]

end Sys2Proof.Proofs
end

section
/-! PROOFS. Ends of tasks, helper slots and CANCEL (R229, R331, R349, R350), and what retires as a no-op in a run-ahead helper
(R351). -/
namespace Sys2Proof.Proofs
open Sys2Proof Sys2Proof.Machine Sys2Proof.Laws
set_option Elab.async false

section Ahead
variable {s : State}

/-- An instruction whose operation a run-ahead helper leaves out, with the registers it reads and no fault of steps 2 and 3. -/
def LeftOut (s : State) (reads : List (RegFile × Nat)) (i : Instr) : Prop :=
  ∃ (g : Gate) (body : Op Unit), exec i s = issue g (unlessAhead body) s ∧ g.reads = reads ∧ g.ill = false ∧ g.acc = none

theorem unlessAhead_skips (body : Op Unit) (h : s.ctx.ahead = true) : unlessAhead body s = .ok () s := by
  unfold unlessAhead
  rw [bind_ok (get_run s), h]
  rfl

theorem LeftOut.onlyAdvances {reads : List (RegFile × Nat)} {i : Instr} (h : LeftOut s reads i) (ha : s.ctx.ahead = true)
    (hi : s.CanIssue reads) : OnlyAdvances s (exec i s) := by
  obtain ⟨g, body, he, rfl, hill, hacc⟩ := h
  rw [he]
  exact onlyAdvances_of (issue_retires hi hill hacc (unlessAhead_skips body ha))

theorem leftOut_all {reads : List (RegFile × Nat)} {is_ : List Instr} (ha : s.ctx.ahead = true)
    (h : ∀ i ∈ is_, LeftOut s reads i) : s.CanIssue reads → ∀ i ∈ is_, OnlyAdvances s (exec i s) :=
  fun hi i hm => (h i hm).onlyAdvances ha hi

variable {st : Fin 8} {st' : Fin 4} {d a b cx : Fin 32} {x y : Fin 16} {off : Int} {n : Nat}

theorem stores_leftOut : ∀ i ∈ [Instr.stB st d a off, .stH st d a off, .stW st d a off, .stD st d a off, .stC st d a off],
    LeftOut s [rdC d, rdC a] i := by
  simp only [List.forall_mem_cons]
  exact ⟨⟨_, _, rfl, rfl, rfl, rfl⟩, ⟨_, _, rfl, rfl, rfl, rfl⟩, ⟨_, _, rfl, rfl, rfl, rfl⟩, ⟨_, _, rfl, rfl, rfl, rfl⟩,
    ⟨_, _, rfl, rfl, rfl, rfl⟩, fun _ hi => nomatch hi⟩

theorem atomicsD_leftOut : ∀ i ∈ [Instr.aaddD st d a b, .aandD st d a b, .aorD st d a b, .axorD st d a b, .aminD st d a b,
      .amaxD st d a b, .aminuD st d a b, .amaxuD st d a b, .aswapD st d a b, .afaddD st d a b],
    LeftOut s [rdC a, rdC b] i := by
  simp only [List.forall_mem_cons]
  exact ⟨⟨_, _, rfl, rfl, rfl, rfl⟩, ⟨_, _, rfl, rfl, rfl, rfl⟩, ⟨_, _, rfl, rfl, rfl, rfl⟩, ⟨_, _, rfl, rfl, rfl, rfl⟩,
    ⟨_, _, rfl, rfl, rfl, rfl⟩, ⟨_, _, rfl, rfl, rfl, rfl⟩, ⟨_, _, rfl, rfl, rfl, rfl⟩, ⟨_, _, rfl, rfl, rfl, rfl⟩,
    ⟨_, _, rfl, rfl, rfl, rfl⟩, ⟨_, _, rfl, rfl, rfl, rfl⟩, fun _ hi => nomatch hi⟩

theorem atomicsW_leftOut : ∀ i ∈ [Instr.aaddW st d a b, .aandW st d a b, .aorW st d a b, .axorW st d a b, .aminW st d a b,
      .amaxW st d a b, .aminuW st d a b, .amaxuW st d a b, .aswapW st d a b, .afaddW st d a b, .afaddbf st d a b],
    LeftOut s [rdC a, rdC b] i := by
  simp only [List.forall_mem_cons]
  exact ⟨⟨_, _, rfl, rfl, rfl, rfl⟩, ⟨_, _, rfl, rfl, rfl, rfl⟩, ⟨_, _, rfl, rfl, rfl, rfl⟩, ⟨_, _, rfl, rfl, rfl, rfl⟩,
    ⟨_, _, rfl, rfl, rfl, rfl⟩, ⟨_, _, rfl, rfl, rfl, rfl⟩, ⟨_, _, rfl, rfl, rfl, rfl⟩, ⟨_, _, rfl, rfl, rfl, rfl⟩,
    ⟨_, _, rfl, rfl, rfl, rfl⟩, ⟨_, _, rfl, rfl, rfl, rfl⟩, ⟨_, _, rfl, rfl, rfl, rfl⟩, fun _ hi => nomatch hi⟩

theorem bars_leftOut : ∀ i ∈ [Instr.bari st a b, .bara st d a b, .barad st d a b, .barw st d a b],
    LeftOut s [rdC a, rdC b] i := by
  simp only [List.forall_mem_cons]
  exact ⟨⟨_, _, rfl, rfl, rfl, rfl⟩, ⟨_, _, rfl, rfl, rfl, rfl⟩, ⟨_, _, rfl, rfl, rfl, rfl⟩, ⟨_, _, rfl, rfl, rfl, rfl⟩,
    fun _ hi => nomatch hi⟩

/-- What a run-ahead helper leaves out (R351, R332, R348), by the registers read. -/
theorem ahead_memory_onlyAdvances (ha : s.ctx.ahead = true) {cy : Fin 32} (hcx : cx = ⟨x.val, by omega⟩) (hcy : cy = ⟨y.val, by omega⟩) :
    let nops (reads : List (RegFile × Nat)) (is_ : List Instr) : Prop := s.CanIssue reads → ∀ i ∈ is_, OnlyAdvances s (exec i s)
    nops [rdC cx, rdC cy] [.stDShort st' x y, .stWShort st' x y] ∧
    nops [rdC cx, rdC 2] [.stDC2Short st' x y, .stCC2Short st' x y] ∧
    nops [rdC a, rdC b, rdO 2] [.acasD st d a b, .acasW st d a b] ∧
    (n ≤ 4 → nops [] [.fence st n, .fencer st d, .yield st, .yieldShort st']) ∧
    nops [rdC a] [.waitj st d a, .pollj st d a, .sleep st a] ∧ nops [rdC cx] [.waitjShort st' x] := by
  subst hcx hcy
  refine ⟨leftOut_all ha ?_, leftOut_all ha ?_, leftOut_all ha ?_, fun hn => leftOut_all ha ?_, leftOut_all ha ?_, leftOut_all ha ?_⟩
    <;> simp only [List.forall_mem_cons]
  · exact ⟨⟨_, _, rfl, rfl, rfl, rfl⟩, ⟨_, _, rfl, rfl, rfl, rfl⟩, fun _ hi => nomatch hi⟩
  · exact ⟨⟨_, _, rfl, rfl, rfl, rfl⟩, ⟨_, _, rfl, rfl, rfl, rfl⟩, fun _ hi => nomatch hi⟩
  · exact ⟨⟨_, _, rfl, rfl, rfl, rfl⟩, ⟨_, _, rfl, rfl, rfl, rfl⟩, fun _ hi => nomatch hi⟩
  · exact ⟨⟨_, _, rfl, rfl, decide_eq_false (by omega), rfl⟩, ⟨_, _, rfl, rfl, rfl, rfl⟩, ⟨_, _, rfl, rfl, rfl, rfl⟩,
      ⟨_, _, rfl, rfl, rfl, rfl⟩, fun _ hi => nomatch hi⟩
  · exact ⟨⟨_, _, rfl, rfl, rfl, rfl⟩, ⟨_, _, rfl, rfl, rfl, rfl⟩, ⟨_, _, rfl, rfl, rfl, rfl⟩, fun _ hi => nomatch hi⟩
  · exact ⟨⟨_, _, rfl, rfl, rfl, rfl⟩, fun _ hi => nomatch hi⟩

theorem ahead_channels_onlyAdvances (ha : s.ctx.ahead = true) :
    let nops (reads : List (RegFile × Nat)) (is_ : List Instr) : Prop := s.CanIssue reads → ∀ i ∈ is_, OnlyAdvances s (exec i s)
    (d ≠ 0 → d ≠ a → d ≠ b → nops [rdC d, rdC a, rdC b] [.baraw st d a b]) ∧
    nops [rdC a, rdC b] [.chopen st d a b] ∧ nops [rdC d, rdC a, rdC b] [.chsend st d a b] ∧ nops [rdC a] [.chclose st a] ∧
    (fld (s.ro 2) 1 63 = 0 → nops [rdC a, rdC b] [.chrecv st d a b]) ∧
    nops [rdC a, rdC b] [.rld st d a b] ∧ nops [rdC d, rdC a, rdC b] [.rst st d a b, .gst st d a b] ∧
    nops [rdC d, rdC a, rdC b, rdO 2] [.ramo st d a b] ∧
    nops [rdC a] [.gcommit st d a, .gabort st a, .gcstat st d a] ∧ nops [rdC a, rdO 2] [.gwait st d a] := by
  refine ⟨fun h0 h1 h2 => leftOut_all ha ?_, leftOut_all ha ?_, leftOut_all ha ?_, leftOut_all ha ?_, fun h => leftOut_all ha ?_,
    leftOut_all ha ?_, leftOut_all ha ?_, leftOut_all ha ?_, leftOut_all ha ?_, leftOut_all ha ?_⟩
    <;> simp only [List.forall_mem_cons]
  · exact ⟨⟨_, _, rfl, rfl, by simp [h0, h1, h2], rfl⟩, fun _ hi => nomatch hi⟩
  · exact ⟨⟨_, _, rfl, rfl, rfl, rfl⟩, fun _ hi => nomatch hi⟩
  · exact ⟨⟨_, _, rfl, rfl, rfl, rfl⟩, fun _ hi => nomatch hi⟩
  · exact ⟨⟨_, _, rfl, rfl, rfl, rfl⟩, fun _ hi => nomatch hi⟩
  · exact ⟨⟨_, _, rfl, rfl, decide_eq_false (not_not_intro h), rfl⟩, fun _ hi => nomatch hi⟩
  · exact ⟨⟨_, _, rfl, rfl, rfl, rfl⟩, fun _ hi => nomatch hi⟩
  · exact ⟨⟨_, _, rfl, rfl, rfl, rfl⟩, ⟨_, _, rfl, rfl, rfl, rfl⟩, fun _ hi => nomatch hi⟩
  · exact ⟨⟨_, _, rfl, rfl, rfl, rfl⟩, fun _ hi => nomatch hi⟩
  · exact ⟨⟨_, _, rfl, rfl, rfl, rfl⟩, ⟨_, _, rfl, rfl, rfl, rfl⟩, ⟨_, _, rfl, rfl, rfl, rfl⟩, fun _ hi => nomatch hi⟩
  · exact ⟨⟨_, _, rfl, rfl, rfl, rfl⟩, fun _ hi => nomatch hi⟩

theorem ahead_copies_onlyAdvances (ha : s.ctx.ahead = true) :
    let nops (reads : List (RegFile × Nat)) (is_ : List Instr) : Prop := s.CanIssue reads → ∀ i ∈ is_, OnlyAdvances s (exec i s)
    (1 ≤ (s.ro 3).toNat → (s.ro 3).toNat ≤ 1024 → nops [rdC a, rdC b, rdO 2, rdO 3] [.cpyq st d a b]) ∧
    (s.ro 3 = 0 → nops [rdC a, rdC b, rdO 0, rdO 2, rdO 3] [.cpy st d a b]) ∧
    (s.ro 5 = 0 → nops [rdC a, rdC b, rdO 0, rdO 2, rdO 3, rdO 4, rdO 5] [.cpy2d st d a b]) ∧
    (s.ro 3 = 0 → nops [rdC a, rdC b, rdO 2, rdO 3] [.cpyx st d a b]) := by
  refine ⟨fun h1 h2 => leftOut_all ha ?_, fun h => leftOut_all ha ?_, fun h => leftOut_all ha ?_, fun h => leftOut_all ha ?_⟩
    <;> simp only [List.forall_mem_cons]
  · exact ⟨⟨_, _, rfl, rfl, by simp; omega, rfl⟩, fun _ hi => nomatch hi⟩
  · exact ⟨⟨_, _, rfl, rfl, by simp [h, State.copyConv, Copy.convOk], rfl⟩, fun _ hi => nomatch hi⟩
  · exact ⟨⟨_, _, rfl, rfl, by simp [h, State.copyConv, Copy.convOk], rfl⟩, fun _ hi => nomatch hi⟩
  · exact ⟨⟨_, _, rfl, rfl, by simp [h, fld, eidLocal], rfl⟩, fun _ hi => nomatch hi⟩

theorem ahead_tape_onlyAdvances (ha : s.ctx.ahead = true) :
    let nops (reads : List (RegFile × Nat)) (is_ : List Instr) : Prop := s.CanIssue reads → ∀ i ∈ is_, OnlyAdvances s (exec i s)
    (s.ro 2 = 0 → nops [rdC a, rdC b] [.tbegin st a b, .tplay st a b]) ∧ nops [rdC a] [.trec st a, .trecb st a] ∧
    nops [] [.tend st d, .tpopb st d] ∧ (n ≤ 1 → nops [] [.tpop st d n]) ∧ (n ≤ 3 → nops [] [.tstat st d n]) ∧
    nops [rdC a, rdC b] [.tenq st d a b, .send st d a b, .tbind st d a b, .tfire st d a b] ∧ nops [rdC a] [.tunbind st d a] ∧
    (s.ro 2 ≠ 0 → 64 ≤ (s.ro 3).toNat → nops [rdC a, rdC b] [.rfork st d a b]) := by
  refine ⟨fun h => leftOut_all ha ?_, leftOut_all ha ?_, leftOut_all ha ?_, fun h => leftOut_all ha ?_, fun h => leftOut_all ha ?_,
    leftOut_all ha ?_, leftOut_all ha ?_, fun h1 h2 => leftOut_all ha ?_⟩
    <;> simp only [List.forall_mem_cons]
  · exact ⟨⟨_, _, rfl, rfl, by simp [h, hiClear], rfl⟩, ⟨_, _, rfl, rfl, by simp [h], rfl⟩, fun _ hi => nomatch hi⟩
  · exact ⟨⟨_, _, rfl, rfl, rfl, rfl⟩, ⟨_, _, rfl, rfl, rfl, rfl⟩, fun _ hi => nomatch hi⟩
  · exact ⟨⟨_, _, rfl, rfl, rfl, rfl⟩, ⟨_, _, rfl, rfl, rfl, rfl⟩, fun _ hi => nomatch hi⟩
  · exact ⟨⟨_, _, rfl, rfl, decide_eq_false (by omega), rfl⟩, fun _ hi => nomatch hi⟩
  · exact ⟨⟨_, _, rfl, rfl, decide_eq_false (by omega), rfl⟩, fun _ hi => nomatch hi⟩
  · exact ⟨⟨_, _, rfl, rfl, rfl, rfl⟩, ⟨_, _, rfl, rfl, rfl, rfl⟩, ⟨_, _, rfl, rfl, rfl, rfl⟩, ⟨_, _, rfl, rfl, rfl, rfl⟩,
      fun _ hi => nomatch hi⟩
  · exact ⟨⟨_, _, rfl, rfl, rfl, rfl⟩, fun _ hi => nomatch hi⟩
  · exact ⟨⟨_, _, rfl, rfl, Bool.or_eq_false_iff.mpr ⟨decide_eq_false h1, decide_eq_false (by omega)⟩, rfl⟩, fun _ hi => nomatch hi⟩

end Ahead

/-! ### Ends of tasks (R331) -/

section Ends
variable {s : State}

theorem finish_core_run (s : State) (st : Nat) (b : Bool) :
    (s.finish st b).core.run = s.core.run ∧ (s.finish st b).core.cur = s.core.cur ∧ (s.finish st b).time = s.time ∧
      (s.finish st b).mem = s.mem ∧ (s.finish st b).ctx.ahead = s.ctx.ahead := by
  refine ⟨?_, ?_, ?_, by simp, ?_⟩
  · rw [(finish_onlyContext s st b).rest]
  · rw [(finish_onlyContext s st b).rest]
  · rw [(finish_onlyContext s st b).rest]
  · unfold State.finish
    rw [ctx_count, ctx_setCtx]

theorem settleAll_core_run (s : State) :
    s.settleAll.core.run = s.core.run ∧ s.settleAll.core.cur = s.core.cur ∧ s.settleAll.time = s.time ∧
      s.settleAll.mem = s.mem ∧ s.settleAll.ctx.ahead = s.ctx.ahead := by
  obtain ⟨hrest, -, hctx⟩ := settleAll_settles s
  refine ⟨?_, ?_, ?_, ?_, ?_⟩
  · rw [hrest]
  · rw [hrest]
  · rw [hrest]
  · rw [hrest]
  · rw [hctx]

theorem taskBefore_device {s₀ : State} {to_ : Nat × Nat} (h : Device s₀ s) : Device s₀ (s.taskBefore to_) :=
  foldl_device (fun _ _ h => edge_device h) _ h

/-- What a core's end of task leaves, whatever it held (R331). -/
structure Ended (c : Core) (now : Nat) : Prop where
  run   : c.run = none
  jobs  : c.jobs = []
  idle  : c.idleSince = now
  mm    : c.mm = false
  nfail : c.ctxs[(0 : Fin 11)].nfail = 0
  slots : ∀ h : Fin 11, h ≠ 0 → c.ctxs[h].slot = .free

theorem endTask_ended (c : Core) (now : Nat) : Ended (c.endTask now) now := by
  refine ⟨rfl, rfl, rfl, rfl, by simp [Core.endTask], fun h hh => ?_⟩
  have : (0 : Nat) ≠ h.val := fun e => hh (Fin.ext e.symm)
  simp [Core.endTask, this]

theorem Ended.of_kept {c d : Core} {now : Nat} (h : Ended c now) (hk : kept d = kept c) : Ended d now := by
  have hctxs : d.ctxs = c.ctxs := eq_of_kept Core.ctxs hk
  exact ⟨(eq_of_kept Core.run hk).trans h.run, (eq_of_kept Core.jobs hk).trans h.jobs, (eq_of_kept Core.idleSince hk).trans h.idle,
    (eq_of_kept Core.mm hk).trans h.mm, by rw [hctxs]; exact h.nfail, by rw [hctxs]; exact h.slots⟩

/-- The focused core's task has ended: the core is idle, with its records freed (R331). -/
theorem state_endTask_ended {r : Running} (h : s.core.run = some r) : Ended s.endTask.core s.time.toNat := by
  unfold State.endTask
  split
  · rename_i hnone
    rw [h] at hnone
    cases hnone
  · extract_lets s1 s2 s3 s4
    have hdev : Device s s3 := taskBefore_device (stamp_device (trace_device (.refl s)))
    have htime : s3.time = s.time := eq_of_bare State.time hdev.rest
    rw [← htime]
    exact Ended.of_kept (endTask_ended s3.core s3.time.toNat) (countDown_device (.refl s4)).core

/-- The state in which EXIT waits, or from which it retires: its loop is over and the helpers are asked to stop. -/
def exitAsked (s : State) : State :=
  let u := s.setCtx { s.ctx with loop := { s.ctx.loop with lact := false } }
  { u with core := u.core.stopHelpers }

theorem exitAsked_ctx (s : State) (h : Fin 11) : (exitAsked s).core.ctxs[h] =
    let x := if s.core.cur = h then { s.ctx with loop := { s.ctx.loop with lact := false } } else s.core.ctxs[h]
    if x.slot == .live then { x with stopReq := true } else x := by
  simp only [exitAsked, Core.stopHelpers, State.setCtx, Fin.getElem_fin, Vector.getElem_map, Vector.getElem_set, Fin.ext_iff]

/-- Neither changes what EXIT waits for. -/
theorem exitAsked_settled (s : State) :
    (exitAsked s).core.settled = s.core.settled ∧ (exitAsked s).core.helpersLive = s.core.helpersLive := by
  have hpend (h : Fin 11) : ((exitAsked s).core.ctxs[h]).pend = (s.core.ctxs[h]).pend := by
    rw [exitAsked_ctx]
    dsimp only
    split <;> split <;> simp_all [State.ctx]
  have hslot (h : Fin 11) : ((exitAsked s).core.ctxs[h]).slot = (s.core.ctxs[h]).slot := by
    rw [exitAsked_ctx]
    dsimp only
    split <;> split <;> simp_all [State.ctx]
  refine ⟨?_, ?_⟩
  · unfold Core.settled
    rw [hpend]
    rfl
  · unfold Core.helpersLive
    simp only [hslot]

theorem awaitEnd_run (s : State) :
    awaitEnd s = if (s.core.settled && !s.core.helpersLive) = true then .ok () (exitAsked s) else .error .wait (exitAsked s) := by
  obtain ⟨hs, hl⟩ := exitAsked_settled s
  rw [← hs, ← hl]
  exact run_await _ (exitAsked s)

theorem exitTask_run (st : Nat) (hi : s.CanIssue []) :
    exitTask st s = s.conclude st State.exitAfter ((do if (← get).helper then pure () else awaitEnd : Op Unit) s) :=
  issueThen_canIssue _ _ hi rfl rfl

theorem exit_helper (st : Nat) (hi : s.CanIssue []) (hh : s.helper = true) :
    ∃ t, exitTask st s = .next t ∧ t.ctx.slot = (if s.ctx.ahead then .free else .ended) ∧ t.ctx.endCause = 0 ∧
      t.core.run = s.core.run ∧ t.mem = s.mem := by
  have hbody : (do if (← get).helper then pure () else awaitEnd : Op Unit) s = .ok () s := by
    rw [run_bind, get_run, andThen_ok, if_pos hh]
    rfl
  obtain ⟨hrun, hcur, -, hmem, hahead⟩ := finish_core_run s st s.ctx.loop.lact
  obtain ⟨hrun', hcur', -, hmem', hahead'⟩ := settleAll_core_run (s.finish st s.ctx.loop.lact)
  have hh' : ((s.finish st s.ctx.loop.lact).settleAll).helper = true := by
    rw [State.helper, hcur', hcur]
    exact hh
  rw [exitTask_run st hi, hbody]
  refine ⟨(s.finish st s.ctx.loop.lact).exitAfter, rfl, ?_⟩
  rw [State.exitAfter, if_pos hh', ctx_setCtx]
  refine ⟨?_, rfl, hrun'.trans hrun, hmem'.trans hmem⟩
  rw [Ctx.endHelper, hahead', hahead]

theorem exit_waits (st : Nat) (hi : s.CanIssue []) (hh : s.helper = false)
    (hw : s.core.settled = false ∨ s.core.helpersLive = true) :
    ∃ t, exitTask st s = .next t ∧ t.ctx.blocked = true ∧ t.ctx.pcc = s.ctx.pcc ∧ t.ctx.loop.lact = false ∧
      t.core.run = s.core.run ∧ (∀ h : Fin 11, s.core.ctxs[h].slot = .live → t.core.ctxs[h].stopReq = true) := by
  have hbody : (do if (← get).helper then pure () else awaitEnd : Op Unit) s = .error .wait (exitAsked s) := by
    rw [run_bind, get_run, andThen_ok, if_neg (by simp [hh]), awaitEnd_run, if_neg]
    rcases hw with hw | hw <;> simp [hw]
  rw [exitTask_run st hi, hbody]
  have hctx : (exitAsked s).ctx = _ := exitAsked_ctx s s.core.cur
  refine ⟨(exitAsked s).block, rfl, ?_, ?_, ?_, rfl, fun h hlive => ?_⟩
  · rw [State.block, ctx_setCtx]
  · rw [State.block, ctx_setCtx, hctx]
    dsimp only
    rw [if_pos rfl]
    split <;> rfl
  · rw [State.block, ctx_setCtx, hctx]
    dsimp only
    rw [if_pos rfl]
    split <;> rfl
  · have hstop : ((exitAsked s).core.ctxs[h]).stopReq = true := by
      rw [exitAsked_ctx]
      dsimp only
      split
      · rename_i hcur
        rw [if_pos]
        rw [← hcur] at hlive
        simpa [State.ctx] using hlive
      · rw [if_pos (beq_iff_eq.mpr hlive)]
    simp only [State.block, State.setCtx, Fin.getElem_fin, Vector.getElem_set]
    split
    · rename_i hc
      have hcur : s.core.cur = h := Fin.ext hc
      subst hcur
      exact hstop
    · exact hstop

theorem exit_ends (st : Nat) {run : Running} (hi : s.CanIssue []) (hh : s.helper = false) (hs : s.core.settled = true)
    (hl : s.core.helpersLive = false) (hrun : s.core.run = some run) :
    ∃ t, exitTask st s = .next t ∧ Ended t.core s.time.toNat := by
  have hbody : (do if (← get).helper then pure () else awaitEnd : Op Unit) s = .ok () (exitAsked s) := by
    rw [run_bind, get_run, andThen_ok, if_neg (by simp [hh]), awaitEnd_run, if_pos (by simp [hs, hl])]
  obtain ⟨hrun1, hcur1, htime1, -, -⟩ := finish_core_run (exitAsked s) st s.ctx.loop.lact
  obtain ⟨hrun2, hcur2, htime2, -, -⟩ := settleAll_core_run ((exitAsked s).finish st s.ctx.loop.lact)
  rw [exitTask_run st hi, hbody]
  refine ⟨((exitAsked s).finish st s.ctx.loop.lact).exitAfter, rfl, ?_⟩
  have hh' : (((exitAsked s).finish st s.ctx.loop.lact).settleAll).helper = false := by
    rw [State.helper, hcur2, hcur1]
    exact hh
  have htime : (((exitAsked s).finish st s.ctx.loop.lact).settleAll).time = s.time := htime2.trans htime1
  rw [State.exitAfter, if_neg (by simp [hh']), ← htime]
  exact state_endTask_ended (hrun2.trans (hrun1.trans hrun))

/-- EXIT of either form: its end, its wait, and the end of a helper (R331, R350). -/
theorem exit_obliged (st : Nat) {run : Running} : s.CanIssue [] →
    (s.helper = false → s.core.settled = true → s.core.helpersLive = false → s.core.run = some run →
      ∃ t, exitTask st s = .next t ∧ t.core.run = none ∧ t.core.jobs = [] ∧ t.core.idleSince = s.time.toNat ∧
        t.core.mm = false ∧ t.core.ctxs[(0 : Fin 11)].nfail = 0 ∧ ∀ h : Fin 11, h ≠ 0 → t.core.ctxs[h].slot = .free) ∧
    (s.helper = false → (s.core.settled = false ∨ s.core.helpersLive = true) →
      ∃ t, exitTask st s = .next t ∧ t.ctx.blocked = true ∧ t.ctx.pcc = s.ctx.pcc ∧ t.ctx.loop.lact = false ∧
        t.core.run = s.core.run ∧ (∀ h : Fin 11, s.core.ctxs[h].slot = .live → t.core.ctxs[h].stopReq = true)) ∧
    (s.helper = true →
      ∃ t, exitTask st s = .next t ∧ t.ctx.slot = (if s.ctx.ahead then .free else .ended) ∧ t.ctx.endCause = 0 ∧
        t.core.run = s.core.run ∧ t.mem = s.mem) := by
  refine fun hi => ⟨fun hh hs hl hrun => ?_, exit_waits st hi, exit_helper st hi⟩
  obtain ⟨t, hexec, ⟨hrun', hjobs, hidle, hmm, hnfail, hslots⟩⟩ := exit_ends st hi hh hs hl hrun
  exact ⟨t, hexec, hrun', hjobs, hidle, hmm, hnfail, hslots⟩

end Ends

/-! ### Helper slots (R349, R350) -/

section Slots
variable {s : State} {st : Fin 8} {d a b : Fin 32} {h : Fin 11}

/-- A slot of the core in focus that HSTART may take. -/
def SlotFree (s : State) (h : Fin 11) : Prop := h ≠ 0 ∧ h.val + 8 ≤ s.core.b0 ∧ s.core.ctxs[h].slot = .free

/-- HSTART's operation. -/
def hstartBody (d a b : Fin 32) : Op Unit := do
  let s ← get
  let hn := fld (s.rx b) 0 4
  legal (hiClear (s.rx b) 5 && decide (hn ≤ 10))
  jumpNeed (s.rc a)
  let pick := if hn = 0 then (List.range 11).find? s.core.slotFree
    else if s.core.slotFree hn then some hn else none
  match pick with
  | none => upd fun s => s.wx d 0
  | some h =>
    let x : Ctx := { c := s.ctx.c.set 0 Cap.null, pcc := s.rc a, slot := .live, ahead := (s.rx b).getLsbD 4,
                     readyAt := max (s.core.ctxNo h).readyAt (s.core.cyc + 1) }
    upd fun s => ({ s with core := s.core.mapCtxNo h (fun _ => x) } : State).wx d (BitVec.ofNat 64 h)

theorem execHstart_eq (s : State) :
    exec (.hstart st d a b) s = issue { st := st.val, ill := s.helper, reads := rdAllC } (hstartBody d a b) s := rfl

/-- The slot that HSTART picks. -/
def hstartPick (s : State) (hn : Nat) : Option Nat :=
  if hn = 0 then (List.range 11).find? s.core.slotFree else if s.core.slotFree hn then some hn else none

theorem hstartPick_none {hn : Nat} (hle : hn ≤ 10) (h : ∀ x : Fin 11, (hn = 0 ∨ x.val = hn) → ¬ SlotFree s x) :
    hstartPick s hn = none := by
  have hnot (x : Fin 11) (hx : hn = 0 ∨ x.val = hn) : s.core.slotFree x.val = false := by
    rw [← Bool.not_eq_true, slotFree_iff]
    exact h x hx
  unfold hstartPick
  split
  · rename_i h0
    refine List.find?_eq_none.mpr fun x hx => ?_
    rw [List.mem_range] at hx
    rw [hnot ⟨x, hx⟩ (.inl h0)]
    exact Bool.false_ne_true
  · rw [if_neg]
    rw [hnot ⟨hn, by omega⟩ (.inr rfl)]
    exact Bool.false_ne_true

theorem hstartPick_some {hn : Nat} (hf : SlotFree s h) (hs : hn = h.val ∨ (hn = 0 ∧ ∀ x : Fin 11, x < h → ¬ SlotFree s x)) :
    hstartPick s hn = some h.val := by
  have hfree : s.core.slotFree h.val = true := (slotFree_iff _ _).mpr hf
  have hne : h.val ≠ 0 := fun e => hf.1 (Fin.ext e)
  unfold hstartPick
  rcases hs with rfl | ⟨rfl, hlow⟩
  · rw [if_neg hne, if_pos hfree]
  · rw [if_pos rfl, List.find?_range_eq_some]
    refine ⟨hfree, List.mem_range.mpr h.isLt, fun j hj => ?_⟩
    rw [Bool.not_eq_true', ← Bool.not_eq_true, slotFree_iff _ ⟨j, by omega⟩]
    exact hlow ⟨j, by omega⟩ hj

theorem hstartBody_run (s : State) : hstartBody d a b s =
    if ((s.rx b).toNat < 2 ^ 5 ∧ fld (s.rx b) 0 4 ≤ 10) then
      match capCheck (s.rc a) [pX] (capA (s.rc a)) 2 2 with
      | some k => .error (.trap ⟨k, tvalOf (capA (s.rc a))⟩) s
      | none =>
        match hstartPick s (fld (s.rx b) 0 4) with
        | none => .ok () (s.wx d 0)
        | some h => .ok () (({ s with core := s.core.mapCtxNo h (fun _ =>
            { c := s.ctx.c.set 0 Cap.null, pcc := s.rc a, slot := .live, ahead := (s.rx b).getLsbD 4,
              readyAt := max (s.core.ctxNo h).readyAt (s.core.cyc + 1) }) } : State).wx d (BitVec.ofNat 64 h))
    else .error (.trap s.illegal) s := by
  unfold hstartBody
  have hlegal : (hiClear (s.rx b) 5 && decide (fld (s.rx b) 0 4 ≤ 10)) = true ↔
      ((s.rx b).toNat < 2 ^ 5 ∧ fld (s.rx b) 0 4 ≤ 10) := by
    rw [Bool.and_eq_true, hiClear_iff, decide_eq_true_eq]
  rw [run_bind, get_run, andThen_ok]
  dsimp only
  rw [run_bind, run_legal]
  by_cases hok : (s.rx b).toNat < 2 ^ 5 ∧ fld (s.rx b) 0 4 ≤ 10
  · rw [if_pos (hlegal.mpr hok), if_pos hok, andThen_ok, run_bind, jumpNeed, run_capNeed]
    cases capCheck (s.rc a) [pX] (capA (s.rc a)) 2 2 with
    | some k => rfl
    | none =>
      rw [andThen_ok, ← hstartPick]
      cases hstartPick s (fld (s.rx b) 0 4) <;> rfl
  · rw [if_neg (fun h => hok (hlegal.mp h)), if_neg hok, andThen_error]

/-- A context other than the issuing one, once the instruction has written C[d] and retired. -/
theorem other_written (u : State) (d : Fin 32) (v : Cap) (st : Nat) (b : Bool) (hh : h ≠ u.core.cur) :
    ((u.wc d v).finish st b).core.ctxs[h] = u.core.ctxs[h] :=
  ((finish_onlyContext (u.wc d v) st b).others h hh).trans ((wc_onlyContext u d v).others h hh)

theorem mem_written (u : State) (d : Fin 32) (v : Cap) (st : Nat) (b : Bool) : ((u.wc d v).finish st b).mem = u.mem := by
  simp

/-- Another context of the core replaced, C[d] written, and the instruction retired. -/
theorem otherCtx_retires {s : State} {x : Ctx} {v : Cap} (hh : h ≠ s.core.cur) :
    let u : State := { s with core := { s.core with ctxs := s.core.ctxs.set h x } }
    let t := (u.wc d v).finish st.val s.ctx.loop.lact
    Advanced s t ∧ WroteC s t d v ∧ t.core.ctxs[h] = x ∧
      (∀ y : Fin 11, y ≠ h → y ≠ s.core.cur → t.core.ctxs[y] = s.core.ctxs[y]) ∧ t.mem = s.mem := by
  intro u t
  have hctx : u.ctx = s.ctx := ctx_setOther s h x hh
  have hrc (n : Fin 32) : u.rc n = s.rc n := by rw [State.rc, hctx]; rfl
  have hstands : Stands s (u.wc d v) := (stands_of_ctx (s := s) (t := u) rfl hctx).trans (stands_wc u d v)
  refine ⟨advanced_finish hstands st.val rfl, wroteC_finish _ _ (wroteC_wc d v hrc), ?_,
    fun y hy hy' => ?_, mem_written u d v _ _⟩
  · rw [other_written u d v _ _ hh]
    simp [u]
  · rw [other_written u d v _ _ hy']
    have : h.val ≠ y.val := fun e => hy (Fin.ext e.symm)
    simp [u, this]

theorem hstart_fails (hi : s.CanIssue rdAllC) (hh : s.helper = false) {tr : Trap} {o : Host.Outcome State Fault Refusal}
    (ho : o = exec (.hstart st d a b) s) (hb : hstartBody d a b s = .error (.trap tr) s) : o = .next (s.trapHere tr) := by
  rw [ho, execHstart_eq]
  exact issue_traps hi hh rfl hb

theorem hstart_finds_none (hi : s.CanIssue rdAllC) (hh : s.helper = false) (hv : (s.rx b).toNat < 2 ^ 5)
    (hn : fld (s.rx b) 0 4 ≤ 10) (hc : capCheck (s.rc a) [pX] (capA (s.rc a)) 2 2 = none)
    (hf : ∀ x : Fin 11, (fld (s.rx b) 0 4 = 0 ∨ x.val = fld (s.rx b) 0 4) → ¬ SlotFree s x) :
    WritesC s (exec (.hstart st d a b) s) d (scalar 0) := by
  refine writesC_of (st := st.val) ?_
  rw [execHstart_eq]
  refine issue_retires hi hh rfl ?_
  rw [hstartBody_run, if_pos ⟨hv, hn⟩, hc]
  dsimp only
  rw [hstartPick_none hn hf]
  rfl

theorem hstart_starts (hi : s.CanIssue rdAllC) (hh : s.helper = false) (hv : (s.rx b).toNat < 2 ^ 5)
    (hn : fld (s.rx b) 0 4 ≤ 10) (hc : capCheck (s.rc a) [pX] (capA (s.rc a)) 2 2 = none) (hf : SlotFree s h)
    (hs : fld (s.rx b) 0 4 = h.val ∨ (fld (s.rx b) 0 4 = 0 ∧ ∀ x : Fin 11, x < h → ¬ SlotFree s x)) :
    ∃ t, exec (.hstart st d a b) s = .next t ∧ Advanced s t ∧ WroteC s t d (scalar (BitVec.ofNat 64 h.val)) ∧
      t.core.ctxs[h].readyAt = Max.max s.core.ctxs[h].readyAt (s.core.cyc + 1) ∧
      t.core.ctxs[h].pcc = s.rc a ∧ t.core.ctxs[h].slot = .live ∧ t.core.ctxs[h].ahead = (s.rx b).getLsbD 4 ∧
      (∀ k, t.core.ctxs[h].rc k = s.rc k) ∧ t.core.ctxs[h].o = Vector.replicate 8 0 ∧ t.core.ctxs[h].loop.lact = false ∧
      (∀ x : Fin 11, x ≠ h → x ≠ s.core.cur → t.core.ctxs[x] = s.core.ctxs[x]) ∧ t.mem = s.mem := by
  have hcur : s.core.cur = 0 := by simpa [State.helper] using hh
  obtain ⟨hadv, hw, hx, hothers, hmem⟩ := otherCtx_retires (s := s) (st := st) (d := d) (h := h)
    (x := { c := s.ctx.c.set 0 Cap.null, pcc := s.rc a, slot := .live, ahead := (s.rx b).getLsbD 4,
            readyAt := max (s.core.ctxNo h.val).readyAt (s.core.cyc + 1) })
    (v := scalar (BitVec.ofNat 64 h.val)) (by rw [hcur]; exact hf.1)
  refine ⟨_, ?_, hadv, hw, ?_, ?_, ?_, ?_, fun k => ?_, ?_, ?_, hothers, hmem⟩
  · rw [execHstart_eq]
    refine issue_retires hi hh rfl ?_
    rw [hstartBody_run, if_pos ⟨hv, hn⟩, hc]
    dsimp only
    rw [hstartPick_some hf hs]
    dsimp only
    rw [mapCtxNo_fin]
    rfl
  all_goals rw [hx]
  · dsimp only
    rw [ctxNo_fin]
  · unfold Ctx.rc State.rc Ctx.rc
    split
    · rfl
    · rename_i hk
      have : (0 : Nat) ≠ k.val := fun e => hk (Fin.ext e.symm)
      simp [this]

theorem slotNeed_run (x : Word) (s : State) :
    slotNeed x s = if 1 ≤ x.toNat ∧ x.toNat ≤ 10 then .ok x.toNat s else .error (.trap s.illegal) s := by
  have hlegal : (hiClear x 4 && (1 ≤ x.toNat) && decide (x.toNat ≤ 10)) = true ↔ 1 ≤ x.toNat ∧ x.toNat ≤ 10 := by
    rw [Bool.and_eq_true, Bool.and_eq_true, hiClear_iff, decide_eq_true_eq, decide_eq_true_eq]
    omega
  unfold slotNeed
  rw [run_bind, run_legal]
  by_cases hok : 1 ≤ x.toNat ∧ x.toNat ≤ 10
  · rw [if_pos (hlegal.mpr hok), if_pos hok]
    rfl
  · rw [if_neg (fun h => hok (hlegal.mp h)), if_neg hok]
    rfl

theorem slot_range (hx : (s.rx a).toNat = h.val) (h0 : h ≠ 0) : 1 ≤ (s.rx a).toNat ∧ (s.rx a).toNat ≤ 10 := by
  have hne : h.val ≠ 0 := fun e => h0 (Fin.ext e)
  have := h.isLt
  omega

theorem hstop_illegal (hi : s.CanIssue [rdC a]) (hh : s.helper = false) (hx : (s.rx a).toNat = 0 ∨ 10 < (s.rx a).toNat) :
    Traps s (exec (.hstop st a) s) .illegal (s.ctx.ir.zeroExtend 80) := by
  refine issue_traps (s := s) (t := s) (c := s.illegal) (g := { st := st.val, ill := s.helper, reads := [rdC a] }) hi hh rfl ?_
  rw [run_bind, slotNeed_run, if_neg (by omega), andThen_error]

theorem hstop_frees (hi : s.CanIssue [rdC a]) (hh : s.helper = false) (hx : (s.rx a).toNat = h.val) (h0 : h ≠ 0)
    (hs : s.core.ctxs[h].slot ≠ .live) : ∃ t, exec (.hstop st a) s = .next t ∧ Advanced s t ∧
      t.core.ctxs[h].slot = .free ∧ (∀ k, t.rc k = s.rc k) ∧ t.mem = s.mem := by
  have hcur : h ≠ s.core.cur := by
    have : s.core.cur = 0 := by simpa [State.helper] using hh
    rw [this]
    exact h0
  obtain ⟨u, hu⟩ : ∃ u : State, u = { s with core := { s.core with
      ctxs := s.core.ctxs.set h { s.core.ctxs[h] with slot := .free } } } := ⟨_, rfl⟩
  have hctx : u.ctx = s.ctx := by rw [hu]; exact ctx_setOther s h _ hcur
  have hstands : Stands s u := stands_of_ctx (by rw [hu]) hctx
  refine ⟨u.finish st.val s.ctx.loop.lact, ?_, advanced_finish hstands _ (by rw [hu]), ?_, fun k => ?_, ?_⟩
  · refine issue_retires (g := { st := st.val, ill := s.helper, reads := [rdC a] }) hi hh rfl ?_
    rw [run_bind, slotNeed_run, if_pos (slot_range hx h0), andThen_ok, run_bind, get_run, andThen_ok, hx, ctxNo_fin,
      if_neg (by simpa using hs), upd_run, mapCtxNo_fin, hu]
  · rw [(finish_onlyContext u _ _).others h (by rw [hstands.cur]; exact hcur), hu]
    simp
  · rw [rc_finish, State.rc, hctx]
    rfl
  · rw [hu]
    simp

theorem hstop_waits (hi : s.CanIssue [rdC a]) (hh : s.helper = false) (hx : (s.rx a).toNat = h.val) (h0 : h ≠ 0)
    (hs : s.core.ctxs[h].slot = .live) : ∃ t, exec (.hstop st a) s = .next t ∧ t.core.ctxs[h].stopReq = true ∧
      t.ctx.blocked = true ∧ t.ctx.pcc = s.ctx.pcc := by
  have hcur : h ≠ s.core.cur := by
    have : s.core.cur = 0 := by simpa [State.helper] using hh
    rw [this]
    exact h0
  obtain ⟨u, hu⟩ : ∃ u : State, u = { s with core := { s.core with
      ctxs := s.core.ctxs.set h { s.core.ctxs[h] with stopReq := true } } } := ⟨_, rfl⟩
  have hctx : u.ctx = s.ctx := by rw [hu]; exact ctx_setOther s h _ hcur
  have hcur' : u.core.cur.val ≠ h.val := by rw [hu]; exact fun e => hcur (Fin.ext e.symm)
  refine ⟨u.block, ?_, ?_, ?_, ?_⟩
  · refine issue_waits (g := { st := st.val, ill := s.helper, reads := [rdC a] }) hi hh rfl ?_
    rw [run_bind, slotNeed_run, if_pos (slot_range hx h0), andThen_ok, run_bind, get_run, andThen_ok, hx, ctxNo_fin,
      if_pos (by simpa using hs), run_bind, upd_run, andThen_ok, mapCtxNo_fin, hu]
    rfl
  · have : u.block.core.ctxs[h] = u.core.ctxs[h] := by simp [State.block, State.setCtx, hcur']
    rw [this, hu]
    simp
  · rw [State.block, ctx_setCtx]
  · rw [State.block, ctx_setCtx, hctx]

theorem hstat_illegal (hi : s.CanIssue [rdC a, rdC b]) (hh : s.helper = false)
    (hx : (s.rx a).toNat = 0 ∨ 10 < (s.rx a).toNat ∨ 4 ≤ (s.rx b).toNat) :
    Traps s (exec (.hstat st d a b) s) .illegal (s.ctx.ir.zeroExtend 80) := by
  refine issue_traps (s := s) (t := s) (c := s.illegal) (g := { st := st.val, ill := s.helper, reads := [rdC a, rdC b] }) hi hh rfl ?_
  rw [run_bind, slotNeed_run]
  by_cases hslot : 1 ≤ (s.rx a).toNat ∧ (s.rx a).toNat ≤ 10
  · rw [if_pos hslot, andThen_ok, run_bind, run_legal, if_neg, andThen_error]
    rw [hiClear_iff]
    omega
  · rw [if_neg hslot, andThen_error]

/-- HSTAT's word as the statement writes it. -/
theorem stat_eq (x : Ctx) {sel : Nat} (hs : sel < 4) : x.stat sel = BitVec.ofNat 64
    (if sel = 0 then
        (match x.slot with | .free => 0 | .live => 1 | .ended => 2) + (if x.slot = .live ∧ x.ahead = true then 4 else 0) +
          (if x.slot = .ended then x.endCause % 64 * 8 else 0)
      else if x.slot ≠ .ended then 0 else if sel = 1 then x.endTval.toNat % 2 ^ 64
      else if sel = 2 then x.endPc.toNat % 2 ^ 64 else x.endTval.toNat / 2 ^ 64 + x.endPc.toNat / 2 ^ 64 * 65536) := by
  have htrunc (y : Addr) : BitVec.ofNat 64 (y.toNat % 2 ^ 64) = y.truncate 64 := by
    apply BitVec.eq_of_toNat_eq
    simp
  obtain rfl | rfl | rfl | rfl : sel = 0 ∨ sel = 1 ∨ sel = 2 ∨ sel = 3 := by omega
  · cases hslot : x.slot <;> cases hahead : x.ahead <;> simp [Ctx.stat, hslot, hahead, b2n, Nat.mul_comm]
  · cases hslot : x.slot with
    | ended => simpa [Ctx.stat, hslot] using (htrunc x.endTval).symm
    | free => simp [Ctx.stat, hslot]
    | live => simp [Ctx.stat, hslot]
  · cases hslot : x.slot with
    | ended => simpa [Ctx.stat, hslot] using (htrunc x.endPc).symm
    | free => simp [Ctx.stat, hslot]
    | live => simp [Ctx.stat, hslot]
  · cases hslot : x.slot <;> simp [Ctx.stat, hslot]

theorem hstat_reads (hi : s.CanIssue [rdC a, rdC b]) (hh : s.helper = false) (hx : (s.rx a).toNat = h.val) (h0 : h ≠ 0)
    (hb : (s.rx b).toNat < 4) :
    ∃ t, exec (.hstat st d a b) s = .next t ∧ Advanced s t ∧ WroteC s t d (scalar (s.core.ctxs[h].stat (s.rx b).toNat)) ∧
      t.core.ctxs[h].slot = (if (s.rx b).toNat = 0 ∧ s.core.ctxs[h].slot = .ended then .free else s.core.ctxs[h].slot) ∧
      t.mem = s.mem := by
  have hcur : h ≠ s.core.cur := by
    have : s.core.cur = 0 := by simpa [State.helper] using hh
    rw [this]
    exact h0
  have hsel : fld (s.rx b) 0 2 = (s.rx b).toNat := by
    unfold fld
    omega
  obtain ⟨y, hy⟩ : ∃ y : Ctx, y = if (s.rx b).toNat = 0 ∧ s.core.ctxs[h].slot = .ended then { s.core.ctxs[h] with slot := .free }
      else s.core.ctxs[h] := ⟨_, rfl⟩
  have hstate : (if (decide ((s.rx b).toNat = 0) && s.core.ctxs[h].slot == .ended) = true then
        { s with core := s.core.mapCtxNo h.val (fun x => { x with slot := .free }) } else s) =
      { s with core := { s.core with ctxs := s.core.ctxs.set h y } } := by
    rw [hy, mapCtxNo_fin]
    by_cases hc : (s.rx b).toNat = 0 ∧ s.core.ctxs[h].slot = .ended
    · rw [if_pos hc, if_pos (by simpa using hc)]
    · rw [if_neg hc, if_neg (by simpa using hc)]
      simp
  obtain ⟨hadv, hw, hget, -, hmem⟩ := otherCtx_retires (st := st) (d := d) (x := y)
    (v := scalar (s.core.ctxs[h].stat (s.rx b).toNat)) hcur
  refine ⟨_, ?_, hadv, hw, ?_, hmem⟩
  · refine issue_retires (g := { st := st.val, ill := s.helper, reads := [rdC a, rdC b] }) hi hh rfl ?_
    rw [run_bind, slotNeed_run, if_pos (slot_range hx h0), andThen_ok, run_bind, run_legal, if_pos ((hiClear_iff _ _).mpr hb),
      andThen_ok, upd_run, hsel, hx, ctxNo_fin]
    dsimp only
    rw [hstate]
    rfl
  · rw [hget, hy]
    split <;> rfl

end Slots

/-! ### CANCEL (R229) -/

section Cancel
variable {s : State} {st : Fin 8} {d a b : Fin 32}

/-- CANCEL's operation. -/
def cancelBody (d a b : Fin 32) : Op Unit := do
  let s ← get
  let lvl := fld (s.rx a) 0 3
  legal (decide (lvl ≤ 4))
  need (lvl ≠ 4 || s.pccY) .capPerm 4
  let (s', live) := s.cancel s.asid lvl (s.rx b)
  set (s'.wx d (if live then 0 else 1))

theorem execCancel_eq (s : State) :
    exec (.cancel st d a b) s = issue { st := st.val, reads := [rdC a, rdC b] } (cancelBody d a b) s := rfl

theorem cancelBody_run (s : State) : cancelBody d a b s =
    if fld (s.rx a) 0 3 ≤ 4 then
      if (fld (s.rx a) 0 3 = 4 → s.pccY = true) then
        .ok () ((s.cancel s.asid (fld (s.rx a) 0 3) (s.rx b)).1.wx d (if (s.cancel s.asid (fld (s.rx a) 0 3) (s.rx b)).2 then 0 else 1))
      else .error (.trap ⟨.capPerm, 4⟩) s
    else .error (.trap s.illegal) s := by
  unfold cancelBody
  rw [run_bind, get_run, andThen_ok]
  dsimp only
  rw [run_bind, run_legal]
  by_cases hl : fld (s.rx a) 0 3 ≤ 4
  · rw [if_pos (decide_eq_true hl), if_pos hl, andThen_ok, run_bind, run_need]
    by_cases hy : fld (s.rx a) 0 3 = 4 → s.pccY = true
    · rw [if_pos hy, if_pos, andThen_ok]
      · rfl
      · rw [Bool.or_eq_true, decide_eq_true_eq]
        tauto
    · rw [if_neg hy, if_neg, andThen_error]
      · rfl
      · rw [Bool.or_eq_true, decide_eq_true_eq]
        tauto
  · rw [if_neg (fun h => hl (of_decide_eq_true h)), if_neg hl, andThen_error]

/-- The task that an identifier of the issuer's job names. -/
def isTask (s : State) (b : Fin 32) (t : Machine.Task) : Bool := t.asid == s.asid && t.tid == (s.rx b).toNat

theorem discards_device {s₀ : State} (ts : List Machine.Task) (h : Device s₀ s) : Device s₀ (ts.foldl State.discard s) :=
  foldl_device (fun _ _ h => discard_device h) ts h

/-- The tasks named have left every Hutch, and one that runs is told. -/
def tasksGone (s : State) (b : Fin 32) : State :=
  { s.cancelRunning (isTask s b) with hutches := s.hutches.map (fun h => h.keep (fun t => !isTask s b t)) }

theorem cancelTask_device (s : State) (b : Fin 32) : Device (tasksGone s b) (s.cancel s.asid 0 (s.rx b)).1 :=
  discards_device _ (.refl _)

theorem mem_keep_tasks {h : Hutch} {p : Machine.Task → Bool} {t : Machine.Task} (ht : t ∈ (h.keep p).tasks) : p t = true := by
  simp only [Hutch.tasks, Hutch.keep, List.mem_append, List.mem_filter] at ht
  tauto

theorem cancelTask_live (s : State) (b : Fin 32) : (s.cancel s.asid 0 (s.rx b)).2 = true ↔
    (∃ x ∈ s.hutches, ∃ t ∈ x.tasks, isTask s b t = true) ∨ ∃ c ∈ s.allCores, ∃ r, c.run = some r ∧ isTask s b r.task = true := by
  show (s.hutches.any (fun h => h.tasks.any (isTask s b)) || s.allCores.any (fun c => c.run.any (fun r => isTask s b r.task))) = true ↔ _
  simp only [Bool.or_eq_true, List.any_eq_true, Option.any_eq_true]

theorem cancel_illegal (hi : s.CanIssue [rdC a, rdC b]) (hl : 4 < fld (s.rx a) 0 3) :
    Traps s (exec (.cancel st d a b) s) .illegal (s.ctx.ir.zeroExtend 80) := by
  rw [execCancel_eq]
  refine issue_traps (s := s) (t := s) (c := s.illegal) hi rfl rfl ?_
  rw [cancelBody_run, if_neg (by omega)]

theorem cancel_forbidden (hi : s.CanIssue [rdC a, rdC b]) (hl : fld (s.rx a) 0 3 = 4) (hy : s.pccY = false) :
    Traps s (exec (.cancel st d a b) s) .capPerm 4 := by
  rw [execCancel_eq]
  refine issue_traps (s := s) (t := s) (c := ⟨.capPerm, 4⟩) hi rfl rfl ?_
  rw [cancelBody_run, if_pos (by omega), if_neg (by simp [hl, hy])]

theorem cancel_retires (hi : s.CanIssue [rdC a, rdC b]) (hl : fld (s.rx a) 0 3 ≤ 4) (hy : fld (s.rx a) 0 3 = 4 → s.pccY = true) :
    exec (.cancel st d a b) s = s.retire st.val ((s.cancel s.asid (fld (s.rx a) 0 3) (s.rx b)).1.wx d
      (if (s.cancel s.asid (fld (s.rx a) 0 3) (s.rx b)).2 then 0 else 1)) := by
  rw [execCancel_eq]
  refine issue_retires hi rfl rfl ?_
  rw [cancelBody_run, if_pos hl, if_pos hy]

/-- What the work of the device leaves of the issuing context. -/
theorem Device.stands {t : State} (h : Device s t) : Stands s t := by
  have hcur : t.core.cur = s.core.cur := eq_of_kept Core.cur h.core
  refine stands_of_ctx hcur ?_
  have hctxs : t.core.ctxs = s.core.ctxs := eq_of_kept Core.ctxs h.core
  unfold State.ctx
  rw [hctxs]
  congr

theorem Device.rc {t : State} (h : Device s t) (n : Fin 32) : t.rc n = s.rc n := by
  have hcur : t.core.cur = s.core.cur := eq_of_kept Core.cur h.core
  have hctxs : t.core.ctxs = s.core.ctxs := eq_of_kept Core.ctxs h.core
  unfold State.rc State.ctx
  rw [hctxs]
  congr 2

theorem cancel_task (hi : s.CanIssue [rdC a, rdC b]) (hl : fld (s.rx a) 0 3 = 0) :
    ∃ t, exec (.cancel st d a b) s = .next t ∧ Advanced s t ∧
      WroteC s t d (if (s.cancel s.asid 0 (s.rx b)).2 then scalar 0 else scalar 1) ∧
      (∀ x ∈ t.hutches, ∀ y ∈ x.tasks, isTask s b y = false) ∧
      ∀ r, t.core.run = some r → isTask s b r.task = true → r.cancelled = true := by
  have hdev := cancelTask_device s b
  obtain ⟨u, hu⟩ : ∃ u, u = (s.cancel s.asid 0 (s.rx b)).1 := ⟨_, rfl⟩
  rw [← hu] at hdev
  have hstands : Stands s u := (⟨rfl, rfl, rfl, rfl⟩ : Stands s (tasksGone s b)).trans hdev.stands
  have hrc (n : Fin 32) : u.rc n = s.rc n := hdev.rc n
  have hevc : u.core.evc = (tasksGone s b).core.evc := eq_of_kept Core.evc hdev.core
  refine ⟨_, cancel_retires hi (by omega) (fun h => absurd h (by omega)), ?_⟩
  rw [hl, ← hu]
  obtain ⟨w, hw⟩ : ∃ w : Word, w = if (s.cancel s.asid 0 (s.rx b)).2 then 0 else 1 := ⟨_, rfl⟩
  have hw' : (if (s.cancel s.asid 0 (s.rx b)).2 = true then scalar 0 else scalar 1) = scalar w := by
    rw [hw]
    split <;> rfl
  rw [hw', ← hw]
  refine ⟨advanced_finish (hstands.trans (stands_wc u d _)) st.val hevc, wroteC_finish _ _ (wroteC_wc d _ hrc), ?_, fun r hr hit => ?_⟩
  · have hhutches : ((u.wx d w).finish st.val s.ctx.loop.lact).hutches = s.hutches.map (fun h => h.keep (fun t => !isTask s b t)) := by
      rw [finish_hutches]
      exact eq_of_bare State.hutches hdev.rest
    intro x hx y hy
    rw [hhutches, List.mem_map] at hx
    obtain ⟨z, -, rfl⟩ := hx
    simpa using mem_keep_tasks hy
  · have hrun : ((u.wx d w).finish st.val s.ctx.loop.lact).core.run = (s.core.cancelRun (isTask s b)).run := by
      have hu : u.core.run = (tasksGone s b).core.run := eq_of_kept Core.run hdev.core
      exact ((finish_core_run _ _ _).1).trans hu
    rw [hrun] at hr
    simp only [Core.cancelRun, Option.map_eq_some_iff] at hr
    obtain ⟨r', -, rfl⟩ := hr
    split at hit <;> simp_all

end Cancel

/-- Settles O37: EXIT's end and wait go through `endTask_ended`, kept by the counting that follows; the helper slots through what
replacing another context leaves; CANCEL through `cancelTask_device`; and a run-ahead helper's no-ops are all left out alike. -/
theorem taskEndsAndHelpersAhead : Obligations.TaskEndsAndHelpersAhead := by
  refine ⟨fun s st st' d a b run h => ?_, fun s st st' d a b off n x y ha => ?_⟩
  · intro ill
    refine ⟨?_, fun hh hs => ?_, fun hh => ⟨fun hi => ?_, fun hi => ?_, fun hi => ?_⟩, fun hi => ?_⟩
    · simp only [List.forall_mem_cons]
      exact ⟨exit_obliged st.val, exit_obliged st'.val, fun _ hi => nomatch hi⟩
    · exact ⟨issue_traps_illegal _ (by simp [hs]) hh, issue_traps_illegal _ (by simp [hs]) hh, issue_traps_illegal _ (by simp [hs]) hh⟩
    · intro v hn free ok
      have hillegal (hbad : ¬ (v.toNat < 2 ^ 5 ∧ hn ≤ 10)) : ill (.hstart st d a b) :=
        hstart_fails hi hh rfl ((hstartBody_run s).trans (if_neg hbad))
      refine ⟨fun hbad => hillegal (by omega), fun hv hle => ⟨fun c hc => ?_, fun hok hnone => ?_, fun hok hf hs => ?_⟩⟩
      · refine hstart_fails hi hh rfl ((hstartBody_run s).trans ?_)
        rw [if_pos ⟨hv, hle⟩, hc]
      · exact hstart_finds_none hi hh hv hle hok hnone
      · exact hstart_starts hi hh hv hle hok hf hs
    · exact ⟨hstop_illegal hi hh, fun hx h0 => ⟨hstop_frees hi hh hx h0, hstop_waits hi hh hx h0⟩⟩
    · refine ⟨hstat_illegal hi hh, fun hx h0 hb => ?_⟩
      have hread := hstat_reads (st := st) (d := d) hi hh hx h0 hb
      rw [stat_eq _ hb] at hread
      exact hread
    · intro i lvl hit live
      have hlive : (s.cancel s.asid 0 (s.rx b)).2 = true ↔ live := by
        rw [cancelTask_live]
        simp only [isTask, Bool.and_eq_true, beq_iff_eq, live, hit]
      refine ⟨cancel_illegal hi, cancel_forbidden hi, fun hl => ?_, fun hl hy => cancel_retires hi hl hy⟩
      obtain ⟨t, hexec, hadv, hw, hqueue, hrun⟩ := cancel_task (st := st) (d := d) hi hl
      refine ⟨t, hexec, hadv, fun h => ?_, fun h => ?_, fun x hx y hy hyh => ?_, fun r hr hrh => hrun r hr ?_⟩
      · rwa [if_pos (hlive.mpr h)] at hw
      · rwa [if_neg (fun h' => h (hlive.mp h'))] at hw
      · have hno := hqueue x hx y hy
        simp only [isTask, hyh.1, hyh.2, beq_self_eq_true, Bool.and_self] at hno
        cases hno
      · simp [isTask, hrh.1, hrh.2]
  · intro cx cy nops
    obtain ⟨h1, h2, h3, h4, h5, h6⟩ := ahead_memory_onlyAdvances (st := st) (st' := st') (d := d) (a := a) (b := b) (n := n)
      (x := x) (y := y) ha rfl rfl
    obtain ⟨h7, h8, h9, h10, h11, h12, h13, h14, h15, h16⟩ := ahead_channels_onlyAdvances (st := st) (d := d) (a := a) (b := b) ha
    obtain ⟨h17, h18, h19, h20⟩ := ahead_copies_onlyAdvances (st := st) (d := d) (a := a) (b := b) ha
    obtain ⟨h21, h22, h23, h24, h25, h26, h27, h28⟩ := ahead_tape_onlyAdvances (st := st) (d := d) (a := a) (b := b) (n := n) ha
    have hatomics : nops [rdC a, rdC b]
        ([.aaddD st d a b, .aandD st d a b, .aorD st d a b, .axorD st d a b, .aminD st d a b, .amaxD st d a b, .aminuD st d a b,
          .amaxuD st d a b, .aswapD st d a b, .afaddD st d a b] ++
         [.aaddW st d a b, .aandW st d a b, .aorW st d a b, .axorW st d a b, .aminW st d a b, .amaxW st d a b, .aminuW st d a b,
          .amaxuW st d a b, .aswapW st d a b, .afaddW st d a b, .afaddbf st d a b]) :=
      fun hi i hm => (List.mem_append.mp hm).elim (leftOut_all ha atomicsD_leftOut hi i) (leftOut_all ha atomicsW_leftOut hi i)
    exact ⟨leftOut_all ha stores_leftOut, h1, h2, hatomics, h3, h4, h5, h6, leftOut_all ha bars_leftOut, h7, h8, h9, h10, h11, h12,
      h13, h14, h15, h16, h17, h18, h19, h20, h21, h22, h23, h24, h25, h26, h27, h28⟩

end Sys2Proof.Proofs
end

section
/-! PROOFS. A message between two cores of a gang that reaches a core which does not hold the gang's job: the machine does not count
it at that core (R395, R402), and `State.took`, by which the statements say what has been accepted, does. -/
namespace Sys2Proof.Proofs
open Sys2Proof Sys2Proof.Machine Sys2Proof.Laws
set_option Elab.async false

/-- A package with its number, whose job 1 has core 1 and a unit in its gang; no core holds a job. -/
def strayGang (unit : Nat) : State :=
  { pkg := some 0, dies := Vector.replicate 4 .online, stackOn := Vector.replicate 8 true, jobs := [{ spec := { asid := 1, root := 0, gang := [unit, 1] } }] }

/-- A user message of job 1 from core 1 to that unit. -/
def strayMessage (unit : Nat) : Packet := { deid := unit, seid := 1, asid := 1, handler := 64 }

/-- What an answer has counted as received at a core. -/
def receivedAt (e : Nat) : Host.Outcome State Fault Refusal → Word
  | .next t => (t.coreOf e).mrecv
  | _ => 0

theorem stray_takes {unit : Nat} (hu : unit = 0 ∨ unit = 0x300) : (strayGang unit).Takes (strayMessage unit) := by
  rcases hu with rfl | rfl <;>
    exact ⟨by decide, by decide, by decide, by decide, by decide, by decide, fun q hq => nomatch hq⟩

/-- Two outcomes that differ in what a core has received are two. -/
theorem ne_of_received {o o' : Host.Outcome State Fault Refusal} (e : Nat) (h : receivedAt e o ≠ receivedAt e o') (he : o = o') :
    False := h (congrArg (receivedAt e) he)

/-- Refutes O40: SPWRITE for a core that does not hold the job counts nothing there, and `took` counts the message. -/
theorem not_messagesAtACore : ¬ Obligations.MessagesAtACore := by
  unfold Obligations.MessagesAtACore
  intro h
  have hall := h (strayGang 0) (strayMessage 0) default 0 0 0 (by decide) (by decide)
  obtain ⟨-, -, -, hcore, -⟩ := hall
  obtain ⟨hrefused, -⟩ := hcore (stray_takes (.inl rfl)) rfl
  exact ne_of_received 0 (by decide) (hrefused (by decide) (.spwrite (strayMessage 0)) (List.mem_cons_self ..))

/-- The same message with an address that lies in no job's memory. -/
def strayLoad : Packet := { strayMessage 0 with arg1 := 0xFFFF }

/-- An address outside the job's memory is a fault. -/
theorem remotePlace_outside (s : State) {asid va : Nat} (n : Nat) (k : Acc) (hjob : (s.jobOf asid).isSome = true)
    (hva : va / 2 ^ 64 = 0xFFFF) : s.remotePlace asid va n k = .error rsFAULT := by
  unfold State.remotePlace
  obtain ⟨j, hj⟩ := Option.isSome_iff_exists.mp hjob
  rw [hj]
  exact if_pos (Bool.or_eq_true_iff.mpr (.inl (beq_iff_eq.mpr hva)))

/-- Refutes O42: a remote load outside the job's memory is answered FAULT, and the core it is addressed to counts nothing. -/
theorem not_remoteHandlers : ¬ Obligations.RemoteHandlers := by
  unfold Obligations.RemoteHandlers
  intro h
  have htakes : (strayGang 0).Takes strayLoad :=
    ⟨by decide, by decide, by decide, by decide, by decide, by decide, fun q hq => nomatch hq⟩
  obtain ⟨⟨hfault, -⟩, -⟩ := h (strayGang 0) (strayGang 0) strayLoad 0 rsFAULT 0 0 [] htakes (by decide) rfl
  exact ne_of_received 0 (by decide +kernel) (hfault (remotePlace_outside _ _ _ (by decide) (by decide)))

/-- Refutes O44: PREPARE of a group that is not held is answered FAIL, and the unit it is addressed to counts nothing. -/
theorem not_commitParticipants : ¬ Obligations.CommitParticipants := by
  unfold Obligations.CommitParticipants
  intro h
  obtain ⟨hhandled, -⟩ := h (strayGang 0) (strayGang 0) (strayMessage 0) 0 { stack := 0, src := 0, grp := 0 } default
  obtain ⟨-, -, hnone, -⟩ := hhandled (stray_takes (.inl rfl)) rfl
  exact ne_of_received 0 (by decide) (hnone rfl).1

/-- Refutes O45: a query about a group without a record is answered NONE, and the unit it is addressed to counts nothing. -/
theorem not_commitAgent : ¬ Obligations.CommitAgent := by
  unfold Obligations.CommitAgent
  intro h
  have hall := h (strayGang 0) (strayMessage 0) default default 0 0 default default 0
  obtain ⟨-, -, -, -, hquery⟩ := hall
  exact ne_of_received 0 (by decide) ((hquery (stray_takes (.inl rfl)) rfl rfl rfl).1 rfl rfl)

/-- Refutes O49: a user message for a core that does not hold the job is REFUSED and not counted. -/
theorem not_dispatchAndMessages : ¬ Obligations.DispatchAndMessages := by
  unfold Obligations.DispatchAndMessages
  intro h
  obtain ⟨-, -, hmessage⟩ := h (strayGang 0) default 0 (strayMessage 0) default 0 (by decide)
  obtain ⟨hrefused, -⟩ := hmessage (stray_takes (.inl rfl)) rfl
  exact ne_of_received 0 (by decide) (hrefused (by decide) (by decide) (.inr (by decide)))

end Sys2Proof.Proofs
end

section
/-! PROOFS. JOIN of the last task of a launch, at a cell whose continuation counts in the launch's graph (R329, R330, R337): the
graph takes the continuation's count and, the launch being complete, gives one back. -/
namespace Sys2Proof.Proofs
open Sys2Proof Sys2Proof.Machine Sys2Proof.Laws
set_option Elab.async false

/-- A launch and a graph by their identifiers (R396). -/
def joinLaunch : Nat := 2 ^ 29
def joinGraph : Nat := 2 * 2 ^ 29

/-- What the core runs: the last task of the launch. -/
def joinRun : Running := { task := { hnd := 64, launch := joinLaunch } }

/-- The cell that the core joins at. -/
def joinAt : Join := { cl := 0, idx := 0, cont := 64, rem := 1, vld := true, launch := joinGraph }

/-- A core that runs the last task of a CLOSED launch, in a graph of five. -/
def joinState : State :=
  { core := { job := some 0, run := some joinRun }, jobs := [{ spec := { asid := 0, root := 0, gang := [] } }], joins := [joinAt]
    levels := [{ asid := 0, lid := joinLaunch, cnt := 1, st := lvCLOSED, parent := joinGraph },
      { asid := 0, lid := joinGraph, cnt := 5 }] }

/-- The count of the graph after an answer. -/
def graphCount : Host.Outcome State Fault Refusal → Option Nat
  | .next t => (t.levelOf 0 joinGraph).map (·.cnt)
  | _ => none

theorem joinState_canIssue : joinState.CanIssue [rdC 0] :=
  ⟨by decide, by decide, by decide, by decide⟩

theorem joinState_count : graphCount (exec (.join 0 0) joinState) = some 5 := by
  decide +kernel

/-- Refutes O36: the count that the continuation takes on its cell's level is there no more once the end of the launch has taken
one from the same level, its graph. -/
theorem not_forkAndJoin : ¬ Obligations.ForkAndJoin := by
  unfold Obligations.ForkAndJoin
  intro h
  obtain ⟨-, -, hjoin⟩ := h joinState joinState 0 0 0 0 joinAt joinRun 0 0 0 0 0 default
  obtain ⟨-, hcell⟩ := hjoin (by decide) joinState_canIssue
  obtain ⟨-, -, hlast⟩ := hcell (by decide) (by decide) (by decide) (by decide) (by decide) rfl (by decide)
  obtain ⟨t, x, hexec, -, -, -, -, -, -, -, -, -, -, -, -, -, -, hcounts⟩ := hlast (by decide) (.inr (by decide))
  obtain ⟨htaken, -⟩ := hcounts (by decide) (by decide) { asid := 0, lid := joinGraph, cnt := 5 }
  obtain ⟨z, hz, hcnt⟩ := htaken (by decide)
  have hcount := joinState_count
  rw [hexec, graphCount] at hcount
  have htwice : (t.levelOf joinState.asid joinGraph).map (·.cnt) = some (5 + 1) := (congrArg (Option.map (·.cnt)) hz).trans (congrArg some hcnt)
  exact absurd (hcount.symm.trans htwice) (by decide)

end Sys2Proof.Proofs
end

section
/-! PROOFS. The result of a reduction for a core that has been switched out, where a watchpoint that stops its gang watches the
tables of the save area (R226, R231, R232, R258): the walk of the spill's write stops the gang. -/
namespace Sys2Proof.Proofs
open Sys2Proof Sys2Proof.Machine Sys2Proof.Laws
set_option Elab.async false

/-- Core 1 holds job 0 and stops its gang where the second page is written. -/
def stopWatcher : Core :=
  { id := 1, job := some 0, hwc := (Vector.replicate 2 0).set 0 (1 + 2 + 4 * 16), hwa := (Vector.replicate 2 0).set 0 65536 }

/-- Job 0 has core 0 in its gang, which it does not hold, and its save area in the second page. -/
def savedJob : Job :=
  { spec := { asid := 0, root := 0, gang := [0], save := capOf 65536 4096 0, saveSpill := 4096 } }

/-- The tables of `watchedTables`, with core 0 idle. -/
def spillState : State :=
  { pkg := some 0, dies := Vector.replicate 4 .online, others := [stopWatcher], jobs := [savedJob], mem := [(0, 1), (8, 3)] }

/-- A result for core 0. -/
def spilledResult : Packet := { kind := 9 }

/-- The state of job 0's gang after an answer. -/
def gangAfter : Host.Outcome State Fault Refusal → Option Gang
  | .next t => (t.jobOf 0).map (·.gang)
  | _ => none

theorem spillState_stops : gangAfter (exec (.redResult spilledResult) spillState) = some .stopped := by
  decide +kernel

theorem spillState_works : spillState.Works := ⟨by decide, rfl⟩

/-- Refutes O46: the write of the spilled result walks the save area's tables, and a watchpoint on their pages stops the gang, so
the job is not the one before with the packet added (R226, R231, R258). -/
theorem not_reductions : ¬ Obligations.Reductions := by
  unfold Obligations.Reductions
  intro h
  obtain ⟨-, -, -, -, -, -, hresult⟩ := h spillState 0 0 0 0 0
    { cls := 0, ri := 0, ser := 0 } (.router 0) 0 0 0 0 0 0 0 0 spilledResult {}
    { node := .router 0, tree := 0, inst := 0 } [] [] false
  obtain ⟨-, -, hspilled, -⟩ := hresult spillState_works rfl
  obtain ⟨u, hexec, -, -, -, hjob⟩ := hspilled (by decide) (by decide) savedJob rfl (by decide)
  have hrun : gangAfter (exec (.redResult spilledResult) spillState) = some .run := by
    rw [hexec]
    exact congrArg (Option.map Job.gang) hjob
  rw [spillState_stops] at hrun
  contradiction

end Sys2Proof.Proofs
end

section
/-! PROOFS. The end of a phase whose counter record lies in a page that the core in focus watches (R226, R258, R330, R397). -/
namespace Sys2Proof.Proofs
open Sys2Proof Sys2Proof.Machine Sys2Proof.Laws
set_option Elab.async false

/-- Job 0 counts its levels in the second page. -/
def countedJob : Job := { spec := { asid := 0, root := 0, gang := [], counter := capOf 65536 4096 0 } }

/-- A phase whose counter is zero. -/
def endedPhase : Level := { asid := 0, lid := 3 * 2 ^ 29 }

/-- The phase's last graph, which is complete. -/
def lastGraph : Level := { asid := 0, lid := 2 * 2 ^ 29, st := lvCOMPLETE, parent := 3 * 2 ^ 29 }

/-- The tables and the watching core of `watchedTables`, with a phase that ends. -/
def phaseState : State := { watchedTables with jobs := [countedJob], levels := [endedPhase, lastGraph] }

theorem phaseState_hit : firstHit (exec (.phaseBarrier 0 (3 * 2 ^ 29)) phaseState) ≠ 0 := by
  decide +kernel

/-- Refutes O50: the phase's record is written to memory, and HWE records the walk's write, where the statement has the core in
focus unchanged; nothing in it excludes home watchpoints on the job's counter records. -/
theorem not_launchesAndPhases : ¬ Obligations.LaunchesAndPhases := by
  unfold Obligations.LaunchesAndPhases
  intro h
  obtain ⟨-, hphase, -⟩ := h phaseState 0 (3 * 2 ^ 29) endedPhase
    { lid := 0, entry := 0, ncl := 0, prio := 0, clusters := [] } countedJob
  obtain ⟨-, hends⟩ := hphase (by decide +kernel)
  obtain ⟨t, hexec, -, -, hcore⟩ := hends ⟨by decide, rfl, rfl, by decide +kernel, by decide⟩
  have hhit := phaseState_hit
  rw [hexec, firstHit, hcore] at hhit
  exact hhit rfl

end Sys2Proof.Proofs
end

section
/-! PROOFS. SBLOST for the last agent of a group that is being discarded while a GST of it has no answer yet (R416, R424). -/
namespace Sys2Proof.Proofs
open Sys2Proof Sys2Proof.Machine Sys2Proof.Laws
set_option Elab.async false

/-- A group that is being discarded, with one participant that has not acknowledged and one GST without an answer. -/
def unansweredGroup : Commit := { src := 0, grp := 0, st := .discarding, parts := [{ agent := 256 }], wait := 1 }

/-- The holder of port 0 has the semaphore. -/
def unansweredState : State := { semHeld := true, commits := [unansweredGroup] }

/-- The states of the commit records after an answer. -/
def commitStates : Host.Outcome State Fault Refusal → List CommitSt
  | .next t => t.commits.map (·.st)
  | _ => []

theorem sblost_keeps_discarding : commitStates (exec (.sblost 0 256) unansweredState) = [.discarding] := by
  decide

/-- Refutes O54: SBLOST takes the last missing acknowledgement as given, and the group still waits for its GST's answer (R424),
where the statement has it DISCARDED. -/
theorem not_serviceAndBringUp : ¬ Obligations.ServiceAndBringUp := by
  unfold Obligations.ServiceAndBringUp
  intro h
  obtain ⟨-, -, -, -, -, -, -, hmine, -⟩ := h unansweredState 0 0 0 256 0 0 0 0 0 0 0 [] [] false 0 0 0 0 none
    { stack := 0, src := 0, grp := 0 } (.die 0) (by decide)
  obtain ⟨-, -, -, -, -, -, -, -, -, -, -, -, -, -, -, -, -, -, -, hlost⟩ := hmine ⟨rfl, rfl⟩
  obtain ⟨u, x, hexec, hcommits, -, -, -, hdecided⟩ := hlost unansweredGroup rfl (by decide)
  have hst : x.st = .discarded := hdecided (by decide)
  have hstates := sblost_keeps_discarding
  rw [hexec, commitStates, hcommits, List.map_cons, hst] at hstates
  contradiction

end Sys2Proof.Proofs
end

section
/-! PROOFS. A store whose D bit lies in an entry of another job's tables, whose root is no multiple of eight: the write of D moves
that job's ring header under the store (R258, R393). -/
namespace Sys2Proof.Proofs
open Sys2Proof Sys2Proof.Machine Sys2Proof.Laws
set_option Elab.async false

/-- c1 leads to a writable page, c2 and c3 hold ones. -/
def shiftCtx : Ctx :=
  { c := ((((Vector.replicate 32 Cap.null).set 1 (capOf (2 * 65536 + 4096) 4096 (2 ^ pL + 2 ^ pS + 2 ^ pA))).set 2
      (scalar (2 ^ 64 - 1))).set 3 (scalar 4)) }

/-- The leaf of that page, with AC set and D clear, which lies in entry 2 of the node at 0. -/
def shiftLeaf : Leaf := ⟨16, 0x87, 0⟩

/-- The core that stores; its translation buffer holds the leaf. -/
def shiftCore : Core :=
  { job := some 0, ctxs := (Vector.replicate 11 {}).set 0 shiftCtx
    tlb := [{ asid := 0, gl := false, vpage := 2, level := 0, pte := 0x87, ea := 16 }] }

/-- Job 1 has its root at 14, so that byte 17, which holds D of the leaf, is part of the address in its first entry; its stamp
ring's header is in its second page. -/
def shiftedJob : Job :=
  { spec := { asid := 1, root := 14, gang := [], stamp := some { base := 65536 + 4096, nrec := 0 } } }

/-- Node 0x1870000, to which job 1's first entry leads once D is set, leads to itself, and its leaf leads to the page of c1. -/
def shiftState : State :=
  { pkg := some 0, dies := Vector.replicate 4 .online, stackOn := Vector.replicate 8 true, core := shiftCore
    jobs := [{ spec := { asid := 0, root := 0, gang := [] } }, shiftedJob]
    mem := [(0, 1), (14, 1), (16, 0x87), (0x1870000, 1), (0x1870002, 0x87), (0x1870003, 1), (0x1870008, 3)] }

/-- The piece that an access of `n` bytes at `i` in the page touches. -/
def shiftSeg (i n : Nat) : Seg := ⟨2 * 65536 + 4096 + i, 4096 + i, n, some shiftLeaf⟩

theorem shiftState_store : access (shiftState.rc 1) [pS] ((capA (shiftState.rc 1) : Int) + 4 * (1 : Nat)) 1 1 .store shiftState =
    .ok [shiftSeg 4 1] shiftState := by
  rfl

/-- The byte at a place after an answer. -/
def byteAt (p : Nat) : Host.Outcome State Fault Refusal → Byte
  | .next t => memGet t.mem p
  | _ => 0

theorem shiftState_stB : byteAt 4100 (exec (.stB 0 2 1 4) shiftState) = 0 := by
  decide +kernel

theorem shiftState_canIssue : shiftState.CanIssue [rdC 2, rdC 1] :=
  ⟨by decide, by decide, by decide, by decide⟩

theorem shiftState_canIssue' : shiftState.CanIssue [rdC 1, rdC 2] :=
  ⟨by decide, by decide, by decide, by decide⟩

theorem shiftState_noHeaders : shiftState.ringHeaders = [] := by decide +kernel

theorem shiftState_noRecords : shiftState.deviceOnly = [] := by decide +kernel

/-- Every place of memory below 2^20 is quiet, in single accesses of every size. -/
theorem shiftState_quiet (lo n esz : Nat) (hup : shiftState.reaches lo = true) : shiftState.Quiet lo n esz where
  up := hup
  loose := rfl
  rings h hh := by rw [shiftState_noHeaders] at hh; exact nomatch hh
  own r hr := by rw [shiftState_noRecords] at hr; exact nomatch hr
  homes := by decide +kernel
  sizes _ hr := nomatch hr
  fresh _ hx := nomatch hx

theorem shiftState_stored : leBytes 1 (shiftState.rc 2).bits.toNat = [255] := by decide +kernel

/-- Refutes O10: the byte stored is at an offset of the header that keeps its value (R393), where the statement has it written. -/
theorem not_storeResults : ¬ Obligations.StoreResults := by
  unfold Obligations.StoreResults
  intro h
  obtain ⟨hbyte, -⟩ := h shiftState shiftState (shiftSeg 4 1) 0 0 2 1 4 0 0 rfl (by decide)
  obtain ⟨t, hexec, -, -, -, hbytes, -⟩ :=
    hbyte shiftState_canIssue shiftState_store (shiftState_quiet 4100 1 1 (by decide +kernel))
  have hkept := shiftState_stB
  rw [hexec, byteAt] at hkept
  have hwritten : [memGet t.mem 4100] = [255] := hbytes.trans shiftState_stored
  rw [hkept] at hwritten
  contradiction

theorem shiftState_atomic : access (shiftState.rc 1) [pL, pS, pA] (capA (shiftState.rc 1)) 8 8 .atomic shiftState =
    .ok [shiftSeg 0 8] shiftState := by
  rfl

theorem shiftState_aaddD : byteAt 4100 (exec (.aaddD 0 4 1 2) shiftState) = 0 := by
  decide +kernel

theorem shiftState_sum :
    leBytes 8 ((leNat (shiftState.getBytes 4096 8) + (shiftState.rx 2).toNat % 2 ^ (8 * 8)) % 2 ^ (8 * 8)) =
      List.replicate 8 255 := by
  decide +kernel

/-- Refutes O11: the middle of the sum is at offsets of the header that keep their value (R393), where the statement has the whole
sum written. -/
theorem not_atomicResults : ¬ Obligations.AtomicResults := by
  unfold Obligations.AtomicResults
  intro h
  obtain ⟨⟨hadd, -⟩, -⟩ := h shiftState shiftState (shiftSeg 0 8) 0 4 1 2 rfl (by decide)
  obtain ⟨t, hexec, -, -, -, hbytes, -⟩ :=
    hadd shiftState_canIssue' shiftState_atomic (shiftState_quiet 4096 8 8 (by decide +kernel))
  have hkept := shiftState_aaddD
  rw [hexec, byteAt] at hkept
  beta_reduce at hbytes
  rw [show (shiftSeg 0 8).place = 4096 from rfl, shiftState_sum] at hbytes
  have hwritten : (t.getBytes 4096 8)[4]? = some 255 := by rw [hbytes]; rfl
  have hread : (t.getBytes 4096 8)[4]? = some (memGet t.mem 4100) := rfl
  rw [hread, hkept] at hwritten
  contradiction

end Sys2Proof.Proofs
end

section
/-! PROOFS. Vector stores in the state of `shiftState`: to the window of a write port, and of a register's image. -/
namespace Sys2Proof.Proofs
open Sys2Proof Sys2Proof.Machine Sys2Proof.Laws
set_option Elab.async false

/-- Port 0 appends to the page of c1. -/
def shiftPort : Port := { bnd := true, dir := true, cap := shiftState.rc 1, stride := 128, cnt := 1 }

/-- The state of `shiftState`, with port 0 bound and ones in v0. -/
def vecShiftState : State :=
  { shiftState with core := { shiftCore with v := (Vector.replicate 64 0).set 0 (BitVec.allOnes 1024)
                                             sp := (Vector.replicate 8 {}).set 0 shiftPort } }

theorem vecShiftState_noHeaders : vecShiftState.ringHeaders = [] := by decide +kernel

theorem vecShiftState_noRecords : vecShiftState.deviceOnly = [] := by decide +kernel

theorem vecShiftState_quiet (lo n esz : Nat) (hup : vecShiftState.reaches lo = true) : vecShiftState.Quiet lo n esz where
  up := hup
  loose := rfl
  rings h hh := by rw [vecShiftState_noHeaders] at hh; exact nomatch hh
  own r hr := by rw [vecShiftState_noRecords] at hr; exact nomatch hr
  homes := by decide +kernel
  sizes _ hr := nomatch hr
  fresh _ hx := nomatch hx

theorem vecShiftState_append : groupSegs 56 shiftPort .store vecShiftState = .ok [shiftSeg 0 128] vecShiftState := by
  rfl

theorem vecShiftState_vmov : byteAt 4100 (exec (.vmov 0 56 0 0) vecShiftState) = 0 := by
  decide +kernel

theorem vecShiftState_ones : vBytes (vecShiftState.rv 0) = List.replicate 128 255 := by
  decide +kernel

theorem vecShiftState_access : accessMany (vecShiftState.rc 1) [pS] [⟨0, capA (vecShiftState.rc 1)⟩] 128 4 .store vecShiftState =
    .ok [(0, [shiftSeg 0 128])] vecShiftState := by
  rfl

theorem vecShiftState_vst : byteAt 4100 (exec (.vst 0 0 1) vecShiftState) = 0 := by
  decide +kernel

/-- Byte 4 of an image that is all ones. -/
theorem byte4_of_ones {t : State} {p : Nat} (h : t.getBytes p 128 = List.replicate 128 255) : memGet t.mem (p + 4) = 255 := by
  have hread : (t.getBytes p 128)[4]? = some (memGet t.mem (p + 4)) := rfl
  rw [h] at hread
  exact (Option.some.inj hread).symm

/-- Refutes O21: the group appended lies over a header that keeps some of its bytes (R393), where the statement has the whole group
written. -/
theorem not_streamPorts : ¬ Obligations.StreamPorts := by
  unfold Obligations.StreamPorts
  intro h
  obtain ⟨-, -, happend⟩ := h vecShiftState vecShiftState (shiftSeg 0 128) 0 0 0 0 0 0 rfl (nofun) (by decide +kernel) rfl
  obtain ⟨-, t, hexec, -, -, -, hbytes, -⟩ := happend rfl (by decide) (by decide)
    ⟨by decide, by decide, by decide, by decide⟩ vecShiftState_append (vecShiftState_quiet 4096 128 4 (by decide +kernel))
  have hkept := vecShiftState_vmov
  rw [show exec (.vmov 0 56 0 0) vecShiftState = .next t from hexec, byteAt,
    byte4_of_ones (p := 4096) (hbytes.trans vecShiftState_ones)] at hkept
  contradiction

theorem vecShiftState_image : elem (vecShiftState.rv 0) (8 * 128) 0 = 2 ^ 1024 - 1 := by
  decide +kernel

theorem leBytes_ones : leBytes 128 (2 ^ 1024 - 1) = List.replicate 128 255 := by
  decide +kernel

/-- Refutes O22: the image that VST writes lies over that header too. -/
theorem not_vectorLoadsAndStores : ¬ Obligations.VectorLoadsAndStores := by
  unfold Obligations.VectorLoadsAndStores
  intro h
  obtain ⟨hplain, -⟩ := h vecShiftState vecShiftState 0 [(0, [shiftSeg 0 128])] 0 0 0 1 0 (by decide) rfl rfl
  obtain ⟨-, hstore, -⟩ := hplain ⟨rfl, by decide, nofun⟩
  obtain ⟨himage, -⟩ := hstore ⟨by decide, by decide, by decide, by decide⟩
  obtain ⟨t, hexec, -, -, -, -, hpieces, -⟩ := himage (by decide) (by decide) vecShiftState_access
    (fun g hg => by
      rw [List.mem_singleton.mp hg]
      exact vecShiftState_quiet 4096 128 _ (by decide +kernel))
    (fun p hp hin => by
      obtain ⟨g, hg, hp⟩ := hp
      obtain ⟨g', hg', l, hl, hin⟩ := hin
      rw [List.mem_singleton.mp hg] at hp
      rw [List.mem_singleton.mp hg'] at hl
      obtain rfl : shiftLeaf = l := Option.some.inj hl
      have hlow : p < 16 + 8 := hin.2
      have hhigh : 4096 ≤ p := hp.1
      omega)
  have hbytes := hpieces [] [] 0 (shiftSeg 0 128) rfl (fun _ _ hs => nomatch hs)
  rw [vecShiftState_image, leBytes_ones] at hbytes
  have hkept := vecShiftState_vst
  rw [hexec, byteAt, byte4_of_ones (p := 4096) hbytes] at hkept
  contradiction

end Sys2Proof.Proofs
end

section
/-! PROOFS. OCGA over an empty log in the state of `shiftState`: the table that it clears lies over bytes that a header keeps. -/
namespace Sys2Proof.Proofs
open Sys2Proof Sys2Proof.Machine Sys2Proof.Laws
set_option Elab.async false

/-- c1 leads to four bytes of the header's place. -/
def clearCtx : Ctx := { c := (Vector.replicate 32 Cap.null).set 1 (capOf (2 * 65536 + 4100) 4 (2 ^ pS)) }

/-- c1 leads to offset 4 of the header of `shiftState`, where memory holds 5; a receiver of one channel is configured. -/
def clearState : State :=
  { shiftState with
    core := { shiftCore with ctxs := (Vector.replicate 11 {}).set 0 clearCtx, oc := { cfg := true, nc := 1 } }
    mem := [(0, 1), (14, 1), (16, 0x87), (4100, 5), (0x1870000, 1), (0x1870002, 0x87), (0x1870003, 1), (0x1870008, 3)] }

theorem clearState_noHeaders : clearState.ringHeaders = [] := by decide +kernel

theorem clearState_noRecords : clearState.deviceOnly = [] := by decide +kernel

theorem clearState_quiet : clearState.Quiet 4100 4 4 where
  up := by decide +kernel
  loose := rfl
  rings h hh := by rw [clearState_noHeaders] at hh; exact nomatch hh
  own r hr := by rw [clearState_noRecords] at hr; exact nomatch hr
  homes := by decide +kernel
  sizes _ hr := nomatch hr
  fresh _ hx := nomatch hx

theorem clearState_table :
    access (clearState.rc 1) [pS] (capA (clearState.rc 1)) (4 * 1) 1 .store clearState = .ok [shiftSeg 4 4] clearState := by
  rfl

theorem clearState_log : padLoad (capA clearState.core.oc.lcap) (8 * 0) 8 clearState = .ok [] clearState := by
  rfl

theorem clearState_ocga : byteAt 4100 (exec (.ocga 0 1 0) clearState) = 5 := by
  decide +kernel

/-- Refutes O27: OCGA's zeros do not reach the bytes that the header keeps (R393), where the statement has the whole table zero. -/
theorem not_orderCodeReceiver : ¬ Obligations.OrderCodeReceiver := by
  unfold Obligations.OrderCodeReceiver
  intro h
  obtain ⟨-, -, -, -, hgrad⟩ := h clearState clearState clearState clearState clearState clearState 0 0 1 0 0 0 0 [] [] []
    [shiftSeg 4 4] (shiftSeg 4 4) false 0 0 false [] [] [] 0 0 0 0 []
  obtain ⟨-, hdone⟩ := hgrad rfl ⟨rfl, by decide, nofun⟩ ⟨by decide, by decide, by decide, by decide⟩
  obtain ⟨-, hocga, -⟩ := hdone rfl (by decide) (by decide) clearState_log (by rfl) (nofun) rfl rfl (by decide +kernel)
  obtain ⟨⟨t, hexec, -, -, -, -, -, hzero⟩, -⟩ := hocga clearState_table (nofun)
  have hbytes := hzero rfl (by decide) rfl clearState_quiet (by decide) (by decide)
  have hkept := clearState_ocga
  rw [hexec, byteAt] at hkept
  have hread : (t.getBytes 4100 4)[0]? = some (memGet t.mem 4100) := rfl
  rw [show t.getBytes 4100 4 = List.replicate 4 0 from hbytes, hkept] at hread
  contradiction

end Sys2Proof.Proofs
end

section
/-! PROOFS. A burst of a copy in the state of `shiftState`: its destination lies over bytes that a header keeps. -/
namespace Sys2Proof.Proofs
open Sys2Proof Sys2Proof.Machine Sys2Proof.Laws
set_option Elab.async false

/-- Eight zeros are copied to the header's place of `shiftState`. -/
def shiftCopy : Copy :=
  { kind := .cpy, dst := capOf (2 * 65536 + 4096) 8 (2 ^ pS), src := capOf (2 * 65536 + 8192) 8 (2 ^ pL), len := 8 }

/-- The job of that copy, which has not begun. -/
def shiftCopyJob : JobRec := { cls := 0, ri := 0, ser := 0, cp := some shiftCopy }

/-- The state of `shiftState` with that job, and 5 at offset 4 of the header's place. -/
def copyState : State := { clearState with core := { shiftCore with jobs := [shiftCopyJob] } }

theorem copyState_noHeaders : copyState.ringHeaders = [] := by decide +kernel

theorem copyState_noRecords : copyState.deviceOnly = [] := by decide +kernel

theorem copyState_still (lo n esz : Nat) (hup : copyState.reaches lo = true) : copyState.Still lo n esz where
  up := hup
  loose := rfl
  rings h hh := by rw [copyState_noHeaders] at hh; exact nomatch hh
  own r hr := by rw [copyState_noRecords] at hr; exact nomatch hr
  homes := by decide +kernel
  sizes _ hr := nomatch hr

theorem copyState_source : copyState.engineSegs shiftCopy shiftCopy.src .load (2 * 65536 + 8192) 8 =
    (copyState, .ok [shiftSeg 4096 8]) := by
  rfl

theorem copyState_target : copyState.engineSegs shiftCopy shiftCopy.dst .store (2 * 65536 + 4096) 8 =
    (copyState, .ok [shiftSeg 0 8]) := by
  rfl

theorem copyState_burst : byteAt 4100 (exec (.copyBurst 0 0) copyState) = 5 := by
  decide +kernel

theorem copyState_zeros : copyState.getBytes 8192 8 = List.replicate 8 0 := by
  decide +kernel

/-- Refutes O32: the burst's zeros do not reach the bytes that the header keeps (R393), where the statement has all of them
copied. -/
theorem not_copyBursts : ¬ Obligations.CopyBursts := by
  unfold Obligations.CopyBursts
  intro h
  obtain ⟨hcopy, -⟩ := h copyState copyState copyState shiftCopyJob shiftCopy (shiftSeg 4096 8) (shiftSeg 0 8) ⟨.page, 0⟩
    ⟨by decide, rfl⟩ rfl
    (by rw [if_neg (by decide)]; decide)
  obtain ⟨hmoves, -⟩ := hcopy (.inl rfl) rfl rfl rfl (by decide)
  obtain ⟨t, hexec, -, hbytes, -⟩ := hmoves (by decide) copyState_source copyState_target
    (copyState_still 8192 8 4 (by decide +kernel)) (copyState_still 4096 8 4 (by decide +kernel))
  have hkept := copyState_burst
  rw [show exec (.copyBurst 0 0) copyState = .next t from hexec, byteAt] at hkept
  have hread : (t.getBytes 4096 8)[4]? = some (memGet t.mem 4100) := rfl
  rw [show t.getBytes 4096 8 = List.replicate 8 0 from hbytes.trans copyState_zeros, hkept] at hread
  contradiction

end Sys2Proof.Proofs
end

section
/-! PROOFS. What the tape thread writes in the state of `shiftState`: it lies over bytes that a header keeps. -/
namespace Sys2Proof.Proofs
open Sys2Proof Sys2Proof.Machine Sys2Proof.Laws
set_option Elab.async false

/-- One word of ones. -/
def onesWord : List Byte := List.replicate 8 255

theorem shiftState_tape : segsOf (shiftState.tapeWho (shiftState.rc 1)) .store (pieces (2 * 65536 + 4096) onesWord.length)
    shiftState = .ok [shiftSeg 0 8] shiftState := by
  rfl

theorem shiftState_tapeWrite : memGet (shiftState.tapeWrite (shiftState.rc 1) (2 * 65536 + 4096) onesWord).mem 4100 = 0 := by
  decide +kernel

/-- Refutes O33: the word that the tape thread writes does not reach the bytes that the header keeps (R393), where the statement
has the whole of it written. -/
theorem not_tapeRecording : ¬ Obligations.TapeRecording := by
  unfold Obligations.TapeRecording
  intro h
  obtain ⟨-, -, -, -, -, hwrite⟩ := h shiftState shiftState 0 0 0 0 0 0 (shiftState.rc 1) (2 * 65536 + 4096) onesWord (shiftSeg 0 8)
  obtain ⟨hbytes, -⟩ := hwrite (by decide) shiftState_tape 
    { toOpen := (shiftState_quiet 4096 8 8 (by decide +kernel)).toOpen, sizes := fun _ hr => nomatch hr }
  have hread : ∀ t : State, (t.getBytes 4096 8)[4]? = some (memGet t.mem 4100) := fun _ => rfl
  have hbyte := hread (shiftState.tapeWrite (shiftState.rc 1) (2 * 65536 + 4096) onesWord)
  rw [show (shiftState.tapeWrite (shiftState.rc 1) (2 * 65536 + 4096) onesWord).getBytes 4096 8 = onesWord from hbytes,
    shiftState_tapeWrite] at hbyte
  contradiction

end Sys2Proof.Proofs
end

section
/-! PROOFS. A message received in the state of `shiftState`: its eight zeros lie over bytes that a header keeps. -/
namespace Sys2Proof.Proofs
open Sys2Proof Sys2Proof.Machine Sys2Proof.Laws
set_option Elab.async false

/-- c1 leads to the header's place, c2 is the handle of channel 0's receive end. -/
def receiveCtx : Ctx :=
  { c := ((Vector.replicate 32 Cap.null).set 1 (capOf (2 * 65536 + 4096) 4096 (2 ^ pS))).set 2 (scalar (chanHandle 0 0 false)) }

/-- Channel 0 holds one message. -/
def receiveEnd : ChanEnd := { id := 0, k := 1, base := 0, slots := [.full], fifo := [0] }

/-- The message is of eight bytes, and memory holds 5 at offset 4 of the header's place. -/
def receiveState : State :=
  { clearState with
    core := { shiftCore with ctxs := (Vector.replicate 11 {}).set 0 receiveCtx, ends := [receiveEnd] }
    mem := [(0, 1), (14, 1), (16, 0x87), (4100, 5), (0x1870000, 1), (0x1870002, 0x87), (0x1870003, 1), (0x1870008, 3),
      (poolPlace 0 (1024 * 248) + 2, 8)] }

theorem receiveState_noHeaders : receiveState.ringHeaders = [] := by decide +kernel

theorem receiveState_noRecords : receiveState.deviceOnly = [] := by decide +kernel

theorem receiveState_quiet : receiveState.Quiet 4096 8 1 where
  up := by decide +kernel
  loose := rfl
  rings h hh := by rw [receiveState_noHeaders] at hh; exact nomatch hh
  own r hr := by rw [receiveState_noRecords] at hr; exact nomatch hr
  homes := by decide +kernel
  sizes _ hr := nomatch hr
  fresh _ hx := nomatch hx

theorem receiveState_room : segsOf (receiveState.who (receiveState.rc 1)) .store (pieces (capA (receiveState.rc 1)) 240)
    receiveState = .ok [shiftSeg 0 240] receiveState := by
  rfl

theorem receiveState_target : segsOf (receiveState.who (receiveState.rc 1)) .store (pieces (capA (receiveState.rc 1)) 8)
    receiveState = .ok [shiftSeg 0 8] receiveState := by
  rfl

theorem receiveState_length :
    receiveState.getNat (poolPlace receiveState.core.id (1024 * receiveState.core.b2 + 256 * (receiveEnd.base + 0))) 16 / 2 ^ 16 %
      256 = 8 := by
  decide +kernel

theorem receiveState_data :
    receiveState.getBytes (poolPlace receiveState.core.id (1024 * receiveState.core.b2 + 256 * (receiveEnd.base + 0)) + 16) 8 =
      List.replicate 8 0 := by
  decide +kernel

theorem receiveState_chrecv : byteAt 4100 (exec (.chrecv 0 3 2 1) receiveState) = 5 := by
  decide +kernel

/-- Refutes O38: the message's zeros do not reach the bytes that the header keeps (R393), where the statement has the whole message
there. -/
theorem not_channelInstructions : ¬ Obligations.ChannelInstructions := by
  unfold Obligations.ChannelInstructions
  intro h
  obtain ⟨-, -, hreceive, -⟩ := h receiveState receiveState receiveState 0 3 2 1 0 0 0 0 0 receiveEnd [shiftSeg 0 8]
    [shiftSeg 0 240] [] rfl (by decide)
  obtain ⟨-, -, hmessage⟩ := hreceive ⟨by decide, by decide, by decide, by decide⟩ (by decide)
  obtain ⟨-, -, hfull⟩ := hmessage (by decide) (by decide) (by decide) receiveState_room
  obtain ⟨t, hexec, -, -, -, hbytes, -⟩ := hfull [] rfl (by decide +kernel) (by rw [receiveState_length]; exact receiveState_target)
    (fun g hg => by rw [List.mem_singleton.mp hg]; exact receiveState_quiet) (by rw [receiveState_length]; decide)
  have hzeros := hbytes (shiftSeg 0 8) rfl (fun p hp hin => by
    obtain ⟨l, hl, hin⟩ := hin
    obtain rfl : shiftLeaf = l := Option.some.inj hl
    have hlow : p < 16 + 8 := hin.2
    have hhigh : 4096 ≤ p := hp.1
    omega)
  rw [receiveState_length, receiveState_data] at hzeros
  have hkept := receiveState_chrecv
  rw [hexec, byteAt] at hkept
  have hread : (t.getBytes 4096 8)[4]? = some (memGet t.mem 4100) := rfl
  rw [show t.getBytes 4096 8 = List.replicate 8 0 from hzeros, hkept] at hread
  contradiction

end Sys2Proof.Proofs
end

section
/-! PROOFS. What opening a job and sending a packet leave as they were (R298, R299, R352); and matrix mode with its queue (R187 to
R190, R198 to R201, R205, R210). -/
namespace Sys2Proof.Proofs
open Sys2Proof Sys2Proof.Machine Sys2Proof.Laws
set_option Elab.async false

/-! ### A packet sent by the core in focus -/

/-- A state without its cores and what is on its way. -/
def unsent (s : State) : State := { s with core := {}, net := [], ptx := [], links := Vector.replicate 16 {} }

/-- A core without its count of messages sent. -/
def uncounted (c : Core) : Core := { c with msent := 0 }

/-- From `s` to `t` packets have gone on their way, and the core in focus has counted those it sent to its gang. -/
structure Sent (s t : State) : Prop where
  rest : unsent t = unsent s
  core : uncounted t.core = uncounted s.core

section Sending

variable {s₀ s t : State}

theorem Sent.refl (s : State) : Sent s s := ⟨rfl, rfl⟩

theorem Sent.trans (h : Sent s₀ s) (h' : Sent s t) : Sent s₀ t := ⟨h'.rest.trans h.rest, h'.core.trans h.core⟩

/-- A part of the state that sending leaves. -/
theorem Sent.part {α : Type} (h : Sent s t) (part : State → α) (hp : ∀ s, part (unsent s) = part s := by intro; rfl) :
    part t = part s := (hp t).symm.trans ((congrArg part h.rest).trans (hp s))

/-- A part of the core that sending leaves. -/
theorem Sent.corePart {α : Type} (h : Sent s t) (part : Core → α) (hp : ∀ c, part (uncounted c) = part c := by intro; rfl) :
    part t.core = part s.core := (hp _).symm.trans ((congrArg part h.core).trans (hp _))

theorem Sent.rest_eq (h : Sent s t) : t = { s with core := t.core, net := t.net, ptx := t.ptx, links := t.links } :=
  congrArg (fun x : State => { x with core := t.core, net := t.net, ptx := t.ptx, links := t.links }) h.rest

theorem Sent.core_eq (h : Sent s t) : t.core = { s.core with msent := t.core.msent } :=
  congrArg (fun c : Core => { c with msent := t.core.msent }) h.core

theorem setTx_sent (x : PairTx) (h : Sent s₀ s) : Sent s₀ (s.setTx x) := ⟨h.rest, h.core⟩

theorem wire_sent {p : Packet} (h : Sent s₀ s) (hw : s.wire p = some t) : Sent s₀ t := by
  unfold State.wire at hw
  split at hw
  · obtain rfl := Option.some.inj hw
    exact ⟨h.rest, h.core⟩
  · obtain ⟨l, -, rfl⟩ := Option.map_eq_some_iff.mp hw
    exact ⟨h.rest, h.core⟩

theorem foldl_sent {α : Type} {f : State → α → State} (hf : ∀ s a, Sent s₀ s → Sent s₀ (f s a)) (xs : List α) (h : Sent s₀ s) :
    Sent s₀ (xs.foldl f s) := by
  induction xs generalizing s with
  | nil => exact h
  | cons x xs ih => exact ih (hf s x h)

theorem refuseHere_sent (p : Packet) (h : Sent s₀ s) : Sent s₀ (s.refuseHere p) := by
  unfold State.refuseHere
  refine foldl_sent (fun u q hu => ?_) _ h
  dsimp only
  split
  · exact setTx_sent _ hu
  · exact ⟨hu.rest, hu.core⟩

/-- A packet that is counted where it goes within the gang is one of the core in focus. -/
def FromFocus (s : State) (p : Packet) : Prop := p.kind = 1 → p.ops.any Packet.toCore = true → eidLocal p.seid = s.core.id

theorem transmit_sent {p : Packet} (hp : FromFocus s p) (h : Sent s₀ s) : Sent s₀ (s.transmit p) := by
  unfold State.transmit
  dsimp only
  split
  case h_1 u hw =>
    have hu := wire_sent h hw
    have hid : u.core.id = s.core.id := (wire_sent (Sent.refl s) hw).corePart Core.id
    split
    case isTrue hg =>
      simp only [State.gangMessage, Bool.and_eq_true, beq_iff_eq] at hg
      unfold State.mapCore
      have hme : u.core.id = eidLocal p.seid := hid.trans (hp hg.1.1 hg.1.2).symm
      rw [if_pos (show (u.setTx _).core.id = eidLocal p.seid from hme)]
      refine ⟨hu.rest, .trans ?_ hu.core⟩
      dsimp only [uncounted, State.setTx]
      split <;> rfl
    case isFalse => exact setTx_sent _ hu
  case h_2 =>
    split
    · exact refuseHere_sent p h
    · exact setTx_sent _ h

theorem send_sent {p : Packet} (hp : FromFocus s p) (h : Sent s₀ s) : Sent s₀ (s.send p) := by
  unfold State.send
  split
  · dsimp only
    split
    · exact transmit_sent hp h
    · split
      · exact transmit_sent (fun h1 => absurd h1 (show (3 : Nat) ≠ 1 by decide)) (setTx_sent _ h)
      · exact setTx_sent _ h
  · cases hw : s.wire p with
    | none => exact h
    | some u => exact wire_sent h hw

theorem eidLocal_myEid (hid : s.core.id < 4096) : eidLocal s.myEid = s.core.id := by
  unfold eidLocal State.myEid State.eid
  omega

/-- The operation that an AM of the core in focus opens, as its books have it. -/
def sentOp (s : State) (p : Packet) (f : RemOp → RemOp) : RemOp :=
  f { tag := s.newTag p.pin, ctx := s.core.cur.val,
      pkt := { p with kind := 1, seid := s.myEid, asid := s.asid, otag := s.newTag p.pin } }

/-- The core in focus has opened the operation of an AM, and its thread has told the message what it follows. -/
def opOpened (s : State) (me : Nat × Nat) (p : Packet) (f : RemOp → RemOp) : State :=
  let q := (sentOp s p id).pkt
  let s' := (s.edge me q.thread).edge me q.memThread
  { s' with core := { s.core with otag := nextRun s.core.tagRun, ops := s.core.ops ++ [sentOp s p f] } }

/-- An AM of the core in focus goes on its way after its operation is opened. -/
theorem sendFrom_sent {me : Nat × Nat} {p : Packet} {f : RemOp → RemOp} (hr : p.rest = [])
    (hid : s.core.id < 4096 ∨ p.handler < 8 ∨ 10 ≤ p.handler ∧ p.handler ≤ 12) :
    Sent (opOpened s me p f) (s.sendFrom me p f).1 := by
  refine show Sent _ ((opOpened s me p f).send (sentOp s p id).pkt) from send_sent (fun _ hc => ?_) (Sent.refl _)
  rcases hid with hid | hh
  · exact eidLocal_myEid hid
  · have hrest : (sentOp s p id).pkt.rest = [] := hr
    have hhan : (sentOp s p id).pkt.handler = p.handler := rfl
    simp only [Packet.ops, hrest, hhan, Packet.first, List.map_nil, List.any_cons, List.any_nil, Bool.or_false, Packet.toCore,
      Bool.and_eq_true, Bool.or_eq_true, decide_eq_true_eq, beq_iff_eq] at hc
    omega

end Sending

/-! ### A job opened -/

section Opening

variable {s : State} {cls : Nat} {f : JobRec → JobRec}

theorem wakeUp_eq (x : Ctx) : x.wakeUp = { x with wait := x.wakeUp.wait } := by
  unfold Ctx.wakeUp
  split <;> rfl

theorem wakeUp_rc (x : Ctx) (n : Fin 32) : x.wakeUp.rc n = x.rc n := by
  rw [wakeUp_eq]
  rfl

theorem wake_ctxs (c : Core) (h : Fin 11) : c.wake.ctxs[h] = c.ctxs[h].wakeUp := by
  simp [Core.wake]

/-- The record that a job begins with. -/
def newRec (s : State) (cls : Nat) (f : JobRec → JobRec) : JobRec :=
  f { cls := cls, ri := s.core.nextRi, ser := s.core.nextSer, ctx := s.core.cur.val }

theorem openJob_snd : (s.openJob cls f).2 = newRec s cls f := rfl

/-- The state in which a job stands open: its record at the end of the core's, its thread told what it follows. -/
def jobOpened (s : State) (cls : Nat) (f : JobRec → JobRec) : State :=
  let s' := s.edge s.thread ((newRec s cls f).thread s.core.id)
  { s' with core := { s.core with jobs := s.core.jobs ++ [newRec s cls f], ser := s.core.ser + 1 } }

theorem openJob_pending (hp : (newRec s cls f).status = stPENDING) : (s.openJob cls f).1 = jobOpened s cls f := by
  unfold State.openJob
  dsimp only
  rw [if_pos (show (f _).status = stPENDING from hp)]
  rfl

theorem openJob_final (hp : (newRec s cls f).status ≠ stPENDING) :
    (s.openJob cls f).1 = { jobOpened s cls f with core := (jobOpened s cls f).core.wake } := by
  unfold State.openJob
  dsimp only
  rw [if_neg (show ¬ (f _).status = stPENDING from hp)]
  rfl

theorem stands_wake (s : State) : Stands s { s with core := s.core.wake } := by
  have hx : State.ctx { s with core := s.core.wake } = s.ctx.wakeUp := wake_ctxs s.core s.core.cur
  refine ⟨rfl, ?_, ?_, ?_⟩ <;> rw [hx, wakeUp_eq]

theorem openJob_stands : Stands s (s.openJob cls f).1 := by
  by_cases hp : (newRec s cls f).status = stPENDING
  · rw [openJob_pending hp]
    exact stands_of_ctx rfl rfl
  · rw [openJob_final hp]
    exact (stands_of_ctx rfl rfl : Stands s (jobOpened s cls f)).trans (stands_wake _)

theorem openJob_rc (n : Fin 32) : (s.openJob cls f).1.rc n = s.rc n := by
  by_cases hp : (newRec s cls f).status = stPENDING
  · rw [openJob_pending hp]
    rfl
  · rw [openJob_final hp]
    exact (congrArg (fun x : Ctx => x.rc n) (wake_ctxs s.core s.core.cur)).trans (wakeUp_rc _ n)

/-- Of the core, only its records and what wakes differ. -/
theorem openJob_core : (s.openJob cls f).1.core =
    { s.core with jobs := s.core.jobs ++ [newRec s cls f], ser := s.core.ser + 1, ctxs := (s.openJob cls f).1.core.ctxs } := by
  by_cases hp : (newRec s cls f).status = stPENDING
  · rw [openJob_pending hp]
    rfl
  · rw [openJob_final hp]
    rfl

theorem openJob_ctxs (h : Fin 11) : (s.openJob cls f).1.core.ctxs[h] = s.core.ctxs[h] ∨
    (s.openJob cls f).1.core.ctxs[h] = s.core.ctxs[h].wakeUp := by
  by_cases hp : (newRec s cls f).status = stPENDING
  · rw [openJob_pending hp]
    exact .inl rfl
  · rw [openJob_final hp]
    exact .inr (wake_ctxs s.core h)

theorem openJob_rest : (s.openJob cls f).1 = { s with core := (s.openJob cls f).1.core, known := (s.openJob cls f).1.known } := rfl

end Opening

/-! ### The mode and the queue (R188, R189, R201, R205, R210) -/

/-- Of the core, a retired instruction leaves all but its contexts and counters. -/
theorem finish_core_eq (s : State) (st : Nat) (b : Bool) :
    (s.finish st b).core = { s.core with ctxs := (s.finish st b).core.ctxs, evc := (s.finish st b).core.evc } :=
  congrArg State.core (finish_onlyContext s st b).rest

theorem finish_mem (s : State) (st : Nat) (b : Bool) : (s.finish st b).mem = s.mem := by
  rw [(finish_onlyContext s st b).rest]

section Mode

variable {s : State} (st : Fin 8)

/-- The operation of MMODE. -/
def mmodeBody (n : Nat) : Op Unit := do
  let s ← get
  if n = 1 && !s.core.mm then await (!s.accWrites)
  upd fun s => if s.core.mm = decide (n = 1) then s else { s with core := { s.core with mm := n = 1, meta_ := none } }

/-- The gate of MMODE. -/
def mmodeGate (n : Nat) (s : State) : Gate :=
  { st := st.val, ill := s.helper || decide (1 < n)
    acc := if n = 0 && s.core.mm && !s.core.mq.isEmpty then some ⟨.accBusy, BitVec.ofNat 80 s.core.mq.length⟩ else none }

theorem execMmode_eq (n : Nat) : execMmode st n s = issue (mmodeGate st n s) (mmodeBody n) s := rfl

theorem mmode_enters (hi : s.CanIssue []) (hh : s.helper = false) (hm : s.core.mm = false) (ha : s.accWrites = false) :
    execMmode st 1 s = s.retire st.val { s with core := { s.core with mm := true, meta_ := none } } := by
  rw [execMmode_eq]
  refine issue_retires hi (by simp [mmodeGate, hh]) rfl ?_
  simp [mmodeBody, run_bind, andThen, get_run, hm, ha, await, pure_run]

theorem mmode_leaves (hi : s.CanIssue []) (hh : s.helper = false) (hm : s.core.mm = true) (hq : s.core.mq = []) :
    execMmode st 0 s = s.retire st.val { s with core := { s.core with mm := false, meta_ := none } } := by
  rw [execMmode_eq]
  refine issue_retires hi (by simp [mmodeGate, hh]) (by simp [mmodeGate, hq]) ?_
  simp [mmodeBody, run_bind, andThen, get_run, hm]

/-- No effect where the mode is as asked. -/
theorem mmode_stays {n : Nat} (hi : s.CanIssue []) (hh : s.helper = false) (hn : n ≤ 1) (hm : s.core.mm = decide (n = 1)) :
    OnlyAdvances s (execMmode st n s) := by
  rw [execMmode_eq]
  refine onlyAdvances_of (st := st.val) (issue_retires hi (by simp [mmodeGate, hh]; omega) ?_ ?_)
  · by_cases h0 : n = 0
    · simp [mmodeGate, hm, h0]
    · simp [mmodeGate, h0]
  · by_cases h1 : n = 1 <;> simp [mmodeBody, run_bind, andThen, get_run, hm, h1]

theorem mmode_busy (hi : s.CanIssue []) (hh : s.helper = false) (hm : s.core.mm = true) (hq : s.core.mq ≠ []) :
    Traps s (execMmode st 0 s) .accBusy (BitVec.ofNat 80 s.core.mq.length) := by
  have hg : s.gateTrap (mmodeGate st 0 s) = some ⟨.accBusy, BitVec.ofNat 80 s.core.mq.length⟩ := by
    simp [State.gateTrap, mmodeGate, hh, hm, hq]
  rw [execMmode_eq]
  unfold issue issueThen
  rw [if_neg (by simp [hi.notStopped]), hg]
  rfl

/-- The operation of MWAIT. -/
def mwaitBody (n : Nat) : Op Unit := do
  if n = 1 then upd fun s => if s.core.mq.isEmpty then s else s.abandonMatrix
  await (← get).core.mq.isEmpty

theorem execMwait_eq (n : Nat) :
    execMwait st n s = issue { st := st.val, ill := s.helper || decide (1 < n) } (mwaitBody n) s := rfl

theorem mwait_empty {n : Nat} (hi : s.CanIssue []) (hh : s.helper = false) (hn : n ≤ 1) (hq : s.core.mq = []) :
    OnlyAdvances s (execMwait st n s) := by
  rw [execMwait_eq]
  refine onlyAdvances_of (st := st.val) (issue_retires hi (by simp [hh]; omega) rfl ?_)
  by_cases h1 : n = 1 <;> simp [mwaitBody, run_bind, andThen, get_run, hq, h1, pure_run, await]

theorem mwait_waits (hi : s.CanIssue []) (hh : s.helper = false) (hq : s.core.mq ≠ []) :
    execMwait st 0 s = .next s.block := by
  rw [execMwait_eq]
  refine issue_waits hi (by simp [hh]) rfl ?_
  simp [mwaitBody, run_bind, andThen, get_run, hq, run_await]

theorem abandonMatrix_device (s : State) : Device { s with core := s.core.abandonMatrix } s.abandonMatrix :=
  foldl_device (fun _ _ h => countDown_device h) _ (Device.refl _)

/-- Abandoning the queue moves no context on, though one that sleeps may wake. -/
theorem abandon_stands (s : State) : Stands s { s with core := s.core.abandonMatrix } := by
  unfold Core.abandonMatrix
  dsimp only
  split
  · exact stands_of_ctx rfl rfl
  · exact (stands_wake s).trans (stands_of_ctx rfl rfl)

theorem abandon_evc (c : Core) : c.abandonMatrix.evc = c.evc ∧ c.abandonMatrix.v = c.v := by
  unfold Core.abandonMatrix
  dsimp only
  split <;> exact ⟨rfl, rfl⟩

theorem abandon_mq (c : Core) (h : ∀ j ∈ c.mq, j.captured = false) : c.abandonMatrix.mq = [] := by
  unfold Core.abandonMatrix
  dsimp only
  have hf (c' : Core) (hc : c'.mq = c.mq) : c'.mq.filter (·.captured) = [] := by
    rw [hc, List.filter_eq_nil_iff]
    exact fun j hj => by simp [h j hj]
  rw [hf _ (by split <;> rfl)]
  rfl

theorem abandon_mfrec (c : Core) : mfrecWord c.abandonMatrix = 0 := rfl

/-- A job of the queue that was not captured is pending no longer. -/
theorem abandon_jobs (c : Core) (h : ∀ j ∈ c.mq, j.captured = false) {r : JobRec} (hr : r ∈ c.abandonMatrix.jobs)
    (hc : r.cls = clsMatrix) (hj : ∃ j ∈ c.mq, j.ri = r.ri) : r.status ≠ stPENDING := by
  obtain ⟨j, hj, hri⟩ := hj
  have hjobs : c.abandonMatrix.jobs = c.jobs.map (fun x =>
      if x.cls == clsMatrix && x.status == stPENDING && ((c.mq.filter (fun j => !j.captured)).map (·.ri)).contains x.ri
      then { x with status := stCANCELLED } else x) := by
    unfold Core.abandonMatrix
    dsimp only
    split <;> rfl
  rw [hjobs, List.mem_map] at hr
  obtain ⟨x, -, rfl⟩ := hr
  split at hc <;> rename_i hx
  · rw [if_pos hx]
    exact show stCANCELLED ≠ stPENDING by decide
  · rw [if_neg hx] at hri ⊢
    intro hp
    refine hx ?_
    simp only [hc, hp, beq_self_eq_true, Bool.true_and, List.contains_iff_mem, List.mem_map, List.mem_filter]
    exact ⟨j, ⟨hj, by simp [h j hj]⟩, hri⟩

theorem mwait_abandons (hi : s.CanIssue []) (hh : s.helper = false) (hq : s.core.mq ≠ [])
    (hj : ∀ j ∈ s.core.mq, j.captured = false) : ∃ t, execMwait st 1 s = .next t ∧ GoesOn s t ∧ t.core.mq = [] ∧
      t.core.v = s.core.v ∧ mfrecWord t.core = 0 ∧
      (∀ r ∈ t.core.jobs, r.cls = clsMatrix → (∃ j ∈ s.core.mq, j.ri = r.ri) → r.status ≠ stPENDING) := by
  have hd := abandonMatrix_device s
  have hmq : s.abandonMatrix.core.mq = [] := (eq_of_kept Core.mq hd.core).trans (abandon_mq s.core hj)
  have hv := finish_core_eq s.abandonMatrix st.val s.ctx.loop.lact
  have hstands : Stands s s.abandonMatrix := (abandon_stands s).trans hd.stands
  have hevc : s.abandonMatrix.core.evc = s.core.evc := (eq_of_kept Core.evc hd.core).trans (abandon_evc s.core).1
  refine ⟨s.abandonMatrix.finish st.val s.ctx.loop.lact, ?_, goesOn_finish hstands st.val (by rw [hevc]), ?_, ?_, ?_, ?_⟩
  · rw [execMwait_eq]
    refine issue_retires (t := s.abandonMatrix) hi (by simp [hh]) rfl ?_
    simp [mwaitBody, run_bind, andThen, get_run, hq, hmq, await, pure_run]
  · rw [hv]
    exact hmq
  · rw [hv]
    exact (eq_of_kept Core.v hd.core).trans (abandon_evc s.core).2
  · rw [hv]
    exact (eq_of_kept mfrecWord hd.core).trans (abandon_mfrec s.core)
  · rw [hv]
    intro r hr
    exact abandon_jobs s.core hj ((eq_of_kept Core.jobs hd.core) ▸ hr)

theorem owned_none {vs : List (Fin 64)} (h : ∀ n ∈ vs, 36 ≤ n.val) : s.owned vs = none := by
  unfold State.owned
  have hf : (vs.map (·.val)).filter (· < 36) = [] := by
    rw [List.filter_eq_nil_iff]
    intro n hn
    obtain ⟨m, hm, rfl⟩ := List.mem_map.mp hn
    simp [h m hm]
  rw [hf]
  split <;> rfl

theorem mnmb_binds {a : Fin 64} (hi : s.CanIssue []) (hh : s.helper = false) (hm : s.core.mm = true) (ha : 36 ≤ a.val)
    (hw : s.writePort a = false) (hp : s.portBusy a = false) :
    execMnmb st a s = s.retire st.val { s with core := { s.core with meta_ := some a } } := by
  refine issue_retires (g := { st := st.val, ill := s.helper || !s.core.mm || s.writePort a, acc := s.owned [a] })
    hi (by simp [hh, hm, hw]) (owned_none (by simpa using ha)) ?_
  simp [run_bind, andThen, get_run, hp, await, pure_run]

/-- The accumulator cleared. -/
def accCleared (s : State) : State := { s.setAcc [] with core := { (s.setAcc []).core with aovf := false } }

theorem accz_clears (hi : s.CanIssue []) (hh : s.helper = false) (hm : s.core.mm = true) (hq : s.core.mq = []) :
    ∃ t, execAccz st s = .next t ∧ Advanced s t ∧ t.core.aovf = false ∧ (∀ n : Fin 64, n.val < 36 → t.rv n = 0) ∧
      (∀ n : Fin 64, 36 ≤ n.val → t.rv n = s.rv n) ∧ (∀ k, t.rc k = s.rc k) ∧ t.mem = s.mem := by
  have hcur : s.core.cur = 0 := by simpa [State.helper] using hh
  have hx : (accCleared s).ctx = { s.ctx with fix := (accCleared s).ctx.fix } := by
    simp [accCleared, State.setAcc, State.ctx, hcur]
  have hstands : Stands s (accCleared s) := ⟨rfl, by rw [hx], by rw [hx], by rw [hx]⟩
  have hrv (n : Fin 64) : ((accCleared s).finish st.val s.ctx.loop.lact).rv n =
      if n.val < 36 then accReg [] n.val else s.core.v[n] := by
    unfold State.rv
    rw [finish_core_eq]
    simp [accCleared, State.setAcc]
  refine ⟨(accCleared s).finish st.val s.ctx.loop.lact, ?_, advanced_finish hstands st.val rfl, ?_, fun n hn => ?_,
    fun n hn => ?_, fun k => ?_, ?_⟩
  · refine issue_retires (g := { st := st.val, ill := s.helper || !s.core.mm }) (t := accCleared s) hi (by simp [hh, hm]) rfl ?_
    simp [run_bind, andThen, get_run, Core.accFree, hq, await, pure_run, accCleared]
  · rw [finish_core_eq]
    rfl
  · rw [hrv, if_pos hn]
    have hz : ∀ n < 36, accReg [] n = 0 := by decide +kernel
    exact hz n.val hn
  · rw [hrv, if_neg (by omega)]
    rfl
  · rw [rc_finish]
    unfold State.rc
    rw [hx]
    rfl
  · exact finish_mem _ _ _

end Mode

/-! ### Jobs for the matrix engine (R199, R200) -/

section Issue

variable {s : State} (st : Fin 8) (d : Fin 32) (a b : Fin 64) (kind : MatKind)

/-- The operation of MOP and MSQD. -/
def matBody (j : MatJob) (d : Fin 32) : Op Unit := do
  let s ← get
  if s.rg s.matGuard then
    await (decide (s.core.mq.length < 4) && !(j.roles.any (fun n => s.portBusy (Fin.ofNat 64 n))))
    let (s, r) := s.openJob clsMatrix id
    let s := { s with core := { s.core with mq := s.core.mq ++ [{ j with ri := r.ri, ser := r.ser }] } }
    set (s.wx d r.word)
  else
    let (s, r) := s.openJob clsDone (fun r => { r with status := stSKIPPED })
    set (s.wx d r.word)

theorem matIssue_eq (st : Nat) : matIssue st kind d a b s =
    issue { st := st, ill := s.matBad (s.matJob kind a b)
            acc := s.owned (((s.matJob kind a b).ranges s).map (Fin.ofNat 64))
            reads := s.matReads (s.matJob kind a b) ++ [rdG s.matGuard, rdO 1, rdO 2] }
      (matBody (s.matJob kind a b) d) s := rfl

/-- The job at the queue's end. -/
def matQueued (s : State) (j : MatJob) : State :=
  let r := newRec s clsMatrix id
  let s := (s.openJob clsMatrix id).1
  { s with core := { s.core with mq := s.core.mq ++ [{ j with ri := r.ri, ser := r.ser }] } }

/-- What a job of the matrix engine is known not to be once it is well formed (R195, R199). -/
theorem matBad_ranges {j : MatJob} (h : s.matBad j = false) : ∀ n ∈ j.ranges s, n ≤ 63 := by
  simp only [State.matBad, MatJob.portBad, Bool.or_eq_false_iff, List.any_eq_false, decide_eq_true_eq, Nat.not_lt] at h
  obtain ⟨-, ⟨hr, -⟩, -⟩ := h
  exact hr

theorem matRanges_free {j : MatJob} (h : s.matBad j = false) (h36 : ∀ n ∈ j.ranges s, 36 ≤ n) :
    s.owned ((j.ranges s).map (Fin.ofNat 64)) = none := by
  refine owned_none fun n hn => ?_
  obtain ⟨m, hm, rfl⟩ := List.mem_map.mp hn
  have h63 := matBad_ranges h m hm
  show 36 ≤ m % 64
  rw [Nat.mod_eq_of_lt (by omega)]
  exact h36 m hm

theorem mat_queues (hbad : s.matBad (s.matJob kind a b) = false) (h36 : ∀ n ∈ (s.matJob kind a b).ranges s, 36 ≤ n)
    (hi : s.CanIssue (s.matReads (s.matJob kind a b) ++ [rdG s.matGuard, rdO 1, rdO 2])) (hg : s.rg s.matGuard = true)
    (hq : s.core.mq.length < 4) (hp : ∀ n ∈ (s.matJob kind a b).roles, s.portBusy (Fin.ofNat 64 n) = false) :
    matIssue st.val kind d a b s =
      s.retire st.val ((matQueued s (s.matJob kind a b)).wx d (newRec s clsMatrix id).word) := by
  rw [matIssue_eq]
  refine issue_retires hi hbad (matRanges_free hbad h36) ?_
  have hbusy : (s.matJob kind a b).roles.any (fun n => s.portBusy (Fin.ofNat 64 n)) = false :=
    List.any_eq_false.mpr fun n hn => by rw [hp n hn]; exact Bool.false_ne_true
  rw [matBody, run_bind, get_run, andThen, if_pos hg, run_bind, run_await, hbusy, if_pos (by simpa using hq)]
  rfl

theorem mat_skips (hbad : s.matBad (s.matJob kind a b) = false) (h36 : ∀ n ∈ (s.matJob kind a b).ranges s, 36 ≤ n)
    (hi : s.CanIssue (s.matReads (s.matJob kind a b) ++ [rdG s.matGuard, rdO 1, rdO 2])) (hg : s.rg s.matGuard = false) :
    matIssue st.val kind d a b s = s.retire st.val ((s.openJob clsDone (fun r => { r with status := stSKIPPED })).1.wx d
      (newRec s clsDone (fun r => { r with status := stSKIPPED })).word) := by
  rw [matIssue_eq]
  refine issue_retires hi hbad (matRanges_free hbad h36) ?_
  rw [matBody, run_bind, get_run, andThen, if_neg (by simp [hg])]
  rfl

/-- The job that MOP or MSQD opens, what it samples, and what stays. -/
theorem mat_opens (hbad : s.matBad (s.matJob kind a b) = false) (h36 : ∀ n ∈ (s.matJob kind a b).ranges s, 36 ≤ n)
    (hi : s.CanIssue (s.matReads (s.matJob kind a b) ++ [rdG s.matGuard, rdO 1, rdO 2])) (hg : s.rg s.matGuard = true)
    (hq : s.core.mq.length < 4) (hp : ∀ n ∈ (s.matJob kind a b).roles, s.portBusy (Fin.ofNat 64 n) = false) :
    ∃ t r q, matIssue st.val kind d a b s = .next t ∧ Advanced s t ∧ t.core.jobs = s.core.jobs ++ [r] ∧ r.cls = clsMatrix ∧
      r.status = stPENDING ∧ WroteC s t d (scalar r.word) ∧ t.core.mq = s.core.mq ++ [q] ∧
      q = { s.matJob kind a b with ri := r.ri, ser := r.ser } ∧ t.core.v = s.core.v ∧ t.mem = s.mem := by
  have hopen := openJob_core (s := s) (cls := clsMatrix) (f := id)
  have hstands : Stands s (matQueued s (s.matJob kind a b)) :=
    openJob_stands.trans (stands_of_ctx (s := (s.openJob clsMatrix id).1) rfl rfl)
  have hrc (n : Fin 32) : (matQueued s (s.matJob kind a b)).rc n = s.rc n := openJob_rc n
  refine ⟨_, newRec s clsMatrix id, _, mat_queues st d a b kind hbad h36 hi hg hq hp,
    advanced_finish (hstands.trans (stands_wc _ _ _)) st.val rfl, ?_, rfl, rfl,
    wroteC_finish _ _ (wroteC_wc d _ hrc), ?_, rfl, ?_, ?_⟩
  · rw [finish_core_eq]
    exact congrArg Core.jobs hopen
  · rw [finish_core_eq]
    rfl
  · rw [finish_core_eq]
    rfl
  · exact finish_mem _ _ _

/-- A job whose guard is false is complete at once. -/
theorem mat_skipped (hbad : s.matBad (s.matJob kind a b) = false) (h36 : ∀ n ∈ (s.matJob kind a b).ranges s, 36 ≤ n)
    (hi : s.CanIssue (s.matReads (s.matJob kind a b) ++ [rdG s.matGuard, rdO 1, rdO 2])) (hg : s.rg s.matGuard = false) :
    ∃ t r, matIssue st.val kind d a b s = .next t ∧ Advanced s t ∧ t.core.jobs = s.core.jobs ++ [r] ∧ r.cls = clsDone ∧
      r.status = stSKIPPED ∧ WroteC s t d (scalar r.word) ∧ t.core.mq = s.core.mq ∧ t.core.v = s.core.v ∧ t.mem = s.mem := by
  refine ⟨_, newRec s clsDone (fun r => { r with status := stSKIPPED }), mat_skips st d a b kind hbad h36 hi hg,
    advanced_finish (openJob_stands.trans (stands_wc _ _ _)) st.val rfl, ?_, rfl, rfl,
    wroteC_finish _ _ (wroteC_wc d _ openJob_rc), ?_, ?_, ?_⟩
  · rw [finish_core_eq]
    exact congrArg Core.jobs openJob_core
  · rw [finish_core_eq]
    rfl
  · rw [finish_core_eq]
    rfl
  · exact finish_mem _ _ _

end Issue

/-- Settles O28: each instruction of the mode is its operation under a gate that passes, abandoning the queue ends its jobs, and
MOP and MSQD put what they sample at the queue's end. -/
theorem matrixQueue : Obligations.MatrixQueue := by
  unfold Obligations.MatrixQueue
  intro s st d a b hh core
  refine ⟨fun hi => ⟨mmode_enters st hi hh, mmode_leaves st hi hh, fun hm => mmode_stays st hi hh (by decide) (by simp [hm]),
    fun hm => mmode_stays st hi hh (by decide) (by simp [hm]), mmode_busy st hi hh, mwait_empty st hi hh (by decide),
    mwait_waits st hi hh, mwait_empty st hi hh (by decide), mwait_abandons st hi hh, mnmb_binds st hi hh,
    accz_clears st hi hh⟩, ?_⟩
  intro o1 o2 grd job
  have opens (kind : MatKind) (i : Instr) (he : exec i s = matIssue st.val kind d a b s) : job kind i := by
    dsimp only [job]
    intro hbad h36 hi
    refine ⟨fun hg hq hp => ?_, fun hg => ?_⟩
    · rw [he]
      obtain ⟨t, r, q, hx, hadv, hjobs, hcls, hstat, hc, hmq, rfl, hv, hmem⟩ := mat_opens st d a b kind hbad h36 hi hg hq hp
      exact ⟨t, r, _, hx, hadv, hjobs, hcls, hstat, hc, hmq, rfl, rfl, rfl, rfl, rfl, rfl, rfl, rfl, rfl, rfl, rfl, rfl, rfl,
        rfl, rfl, rfl, hv, hmem⟩
    · rw [he]
      exact mat_skipped st d a b kind hbad h36 hi hg
  exact ⟨opens .mop _ rfl, opens .msqd _ rfl⟩

end Sys2Proof.Proofs
end

section
/-! PROOFS. A step fetches, decodes and runs (R22, R72 to R74, R87, R90, R131, R220, R227, R310, R409). -/
namespace Sys2Proof.Proofs
open Sys2Proof Sys2Proof.Machine Sys2Proof.Laws
set_option Elab.async false

/-! ### What a fetch leaves as it was -/

/-- A state without what a fetch may fill: translations, the instruction cache, the slices, and the count of free values. -/
def unfetched (s : State) : State :=
  { s with core := { s.core with tlb := [], ic := [] }, ctlb := [], wcache := [], l2 := [], freeN := 0, heldHit := false }

/-- From `s` to `t` only buffers and caches have been filled. -/
def Fills (s t : State) : Prop := unfetched t = unfetched s

section Fetch

variable {s₀ s t u : State}

theorem Fills.refl (s : State) : Fills s s := rfl

theorem Fills.trans (h : Fills s₀ s) (h' : Fills s t) : Fills s₀ t := Eq.trans h' h

/-- A part of the state that filling leaves. -/
theorem Fills.part {α : Type} (h : Fills s t) (part : State → α) (hp : ∀ s, part (unfetched s) = part s := by intro; rfl) :
    part t = part s := (hp t).symm.trans ((congrArg part h).trans (hp s))

theorem touch_fills (a n : Nat) : Fills s (s.touch a n) ∧ (s.touch a n).core = s.core := by
  unfold State.touch
  split <;> exact ⟨rfl, rfl⟩

theorem l2Read_fills (die line : Nat) : Fills s (s.l2Read die line) ∧ (s.l2Read die line).core = s.core := by
  unfold State.l2Read
  split
  · exact ⟨rfl, rfl⟩
  · split <;> exact ⟨rfl, rfl⟩

/-- The entries of a walk read through the slices. -/
def readPath (s : State) (path : List (Nat × Nat × Nat)) : State :=
  path.foldl (fun s x => (s.l2Read (dieOf s.core.id) (x.2.1 / 128)).touch x.2.1 8) s

theorem readPath_fills (path : List (Nat × Nat × Nat)) (hs : Fills s₀ s ∧ s.core = s₀.core) :
    Fills s₀ (readPath s path) ∧ (readPath s path).core = s₀.core := by
  induction path generalizing s with
  | nil => exact hs
  | cons x path ih =>
    obtain ⟨hl, hlc⟩ := l2Read_fills (s := s) (dieOf s.core.id) (x.2.1 / 128)
    obtain ⟨ht, htc⟩ := touch_fills (s := s.l2Read (dieOf s.core.id) (x.2.1 / 128)) x.2.1 8
    exact ih ⟨(hs.1.trans hl).trans ht, (htc.trans hlc).trans hs.2⟩

theorem memGets_length (m : List Host.Cell) (a n : Nat) : (memGets m a n).length = n := by
  induction n generalizing a with
  | zero => rfl
  | succ n ih => simp [memGets, ih]

/-! ### The walk of a page that has been accessed (R255, R258) -/

/-- A walk ends at an entry as it is read. -/
theorem walkBy_reads {rd : Nat → Nat} {va n node : Nat} {l : Leaf} (h : walkBy rd va n node = some l) : l.pte = rd l.ea := by
  induction n generalizing node with
  | zero =>
    simp only [walkBy, Option.ite_none_right_eq_some, Option.some.injEq] at h
    obtain ⟨-, -, rfl⟩ := h
    rfl
  | succ n ih =>
    simp only [walkBy, Option.ite_none_right_eq_some] at h
    obtain ⟨-, -, h⟩ := h
    split at h
    · simp only [Option.ite_none_right_eq_some, Option.some.injEq] at h
      obtain ⟨-, rfl⟩ := h
      rfl
    · exact ih h

/-- Addresses of one page have one walk. -/
theorem walkBy_page {rd : Nat → Nat} {va va' n node : Nat} (h : va / 65536 = va' / 65536) :
    walkBy rd va n node = walkBy rd va' n node := by
  have hlev (l : Nat) : va / 2 ^ levelShift l = va' / 2 ^ levelShift l := by
    rw [levelShift, Nat.pow_add, ← Nat.div_div_eq_div_mul, ← Nat.div_div_eq_div_mul]
    exact congrArg (· / 2 ^ (13 * l)) h
  induction n generalizing node with
  | zero =>
    have h0 : va / 2 ^ 16 = va' / 2 ^ 16 := h
    simp only [walkBy, h0]
  | succ n ih => simp only [walkBy, hlev, ih]

theorem or_testBit_self {p k : Nat} (h : p.testBit k = true) : p ||| 2 ^ k = p := by
  apply Nat.eq_of_testBit_eq
  intro i
  rw [Nat.testBit_or, Nat.testBit_two_pow]
  by_cases hi : k = i
  · subst hi
    simp [h]
  · simp [hi]

/-- An accessed entry is not written again. -/
theorem pteSet_accessed {l : Leaf} (hr : l.pte = s.getNat l.ea 8) (hb : l.pte.testBit 7 = true) :
    s.pteSet l 0x80 = (s.touch l.ea 8, l) := by
  have hg : (s.touch l.ea 8).getNat l.ea 8 = l.pte := by
    rw [hr]
    unfold State.touch
    split <;> rfl
  have hor : l.pte ||| 0x80 = l.pte := or_testBit_self (k := 7) hb
  unfold State.pteSet
  dsimp only
  rw [hg, hor, if_pos rfl]

/-- The entry that a walk leaves in the translation buffer. -/
def entryOf (s : State) (va : Nat) (l : Leaf) : Tlb :=
  { asid := s.asid, gl := l.pte.testBit 6, vpage := va / 2 ^ levelShift l.level, level := l.level, pte := BitVec.ofNat 64 l.pte,
    ea := l.ea }

/-- A walk through tables of which the cluster holds nothing. -/
theorem walk_finds {asid root va : Nat} {l : Leaf} (hw : walkLeaf s root va = some l) (hb : l.pte.testBit 7 = true)
    (hc : s.wcache = []) : ∃ t, s.walk asid root va = (t, some l) ∧ Fills s t ∧ t.core = s.core := by
  have hold : s.oldPointers asid va = [] := by
    unfold State.oldPointers
    rw [hc]
    rfl
  unfold State.walk
  rw [hold]
  simp only [List.zipIdx_nil, List.filter_nil, List.map_nil, List.find?_nil, Option.map_none, Option.getD_none, List.length_nil]
  rw [show walkBy (fun ea => s.getNat ea 8) va 4 root = some l from hw]
  dsimp only
  generalize hpath : walkPath (fun ea => s.getNat ea 8) va 4 root = path
  obtain ⟨hf, hcore⟩ := readPath_fills (s₀ := s) (s := { s with freeN := s.freeN + 0 }) path ⟨rfl, rfl⟩
  obtain ⟨v, hv⟩ : ∃ v, v = (readPath { s with freeN := s.freeN + 0 } path).wcacheFill asid va path := ⟨_, rfl⟩
  have hfv : Fills s v ∧ v.core = s.core := by
    rw [hv]
    exact ⟨hf, hcore⟩
  have hr : l.pte = v.getNat l.ea 8 := by
    rw [walkBy_reads (show walkBy (fun ea => s.getNat ea 8) va 4 root = some l from hw)]
    exact congrArg (fun m => leNat (memGets m l.ea 8)) (hfv.1.part State.mem).symm
  obtain ⟨ht, htc⟩ := touch_fills (s := v) l.ea 8
  refine ⟨v.touch l.ea 8, ?_, hfv.1.trans ht, htc.trans hfv.2⟩
  rw [readPath] at hv
  rw [← hv, pteSet_accessed hr hb]

/-- A translation that is in no buffer is walked, and then held. -/
theorem leafOf_fills {root va : Nat} {l : Leaf} (hw : walkLeaf s root va = some l) (hb : l.pte.testBit 7 = true)
    (hc : s.wcache = []) (ht : s.core.tlb = []) (hct : s.ctlb = []) :
    ∃ t, s.leafOf s.asid root va = (t, some l) ∧ Fills s t ∧ t.core = { s.core with tlb := [entryOf s va l] } := by
  obtain ⟨t, hwalk, hf, hcore⟩ := walk_finds (asid := s.asid) hw hb hc
  have hfind : s.tlbFind s.asid va = none := by
    unfold State.tlbFind
    rw [ht, hct]
    rfl
  refine ⟨t.tlbFill (entryOf s va l), ?_, hf.trans rfl, ?_⟩
  · unfold State.leafOf
    rw [hfind]
    dsimp only
    rw [hwalk]
    rfl
  · unfold State.tlbFill
    dsimp only
    rw [hcore, ht]
    rfl

/-- An address of the same page then has its translation at once. -/
theorem leafOf_holds {root va va' : Nat} {l : Leaf} (hp : va / 65536 = va' / 65536) (hw : walkLeaf s root va = some l)
    (ht : s.core.tlb = [entryOf s va l]) : s.leafOf s.asid root va' = (s, some l) := by
  have hw' : walkLeaf s root va' = some l := (walkBy_page hp).symm.trans hw
  have hserves : (entryOf s va l).serves s.asid va' = true := by
    have hlev : va / 2 ^ levelShift l.level = va' / 2 ^ levelShift l.level := by
      rw [levelShift, Nat.pow_add, ← Nat.div_div_eq_div_mul, ← Nat.div_div_eq_div_mul]
      exact congrArg (· / 2 ^ (13 * l.level)) hp
    simp [Tlb.serves, entryOf, hlev]
  have hfind : s.tlbFind s.asid va' = some (entryOf s va l) := by
    unfold State.tlbFind
    simp only [ht, List.find?_cons, hserves]
  have hlt : l.pte < 2 ^ 64 := by
    rw [walkBy_reads (show walkBy (fun ea => s.getNat ea 8) va 4 root = some l from hw)]
    exact (leNat_lt _).trans_eq (by rw [State.getBytes, memGets_length]; norm_num)
  have hheld : (⟨(entryOf s va l).ea, (entryOf s va l).pte.toNat, (entryOf s va l).level⟩ : Leaf) = l := by
    simp only [entryOf, BitVec.toNat_ofNat, Nat.mod_eq_of_lt hlt]
  unfold State.leafOf
  rw [hfind]
  dsimp only
  rw [hheld, if_pos hw']

end Fetch

/-! ### Halfwords (R72, R74) -/

section Halves

variable {s t : State}

theorem getBytes_succ (s : State) (a n : Nat) : s.getBytes a (n + 1) = memGet s.mem a :: s.getBytes (a + 1) n := rfl

theorem getBytes_drop_take (s : State) {i k : Nat} : ∀ {n a : Nat}, i + k ≤ n → ((s.getBytes a n).drop i).take k = s.getBytes (a + i) k := by
  induction i with
  | zero =>
    induction k with
    | zero => intro n a _; simp [State.getBytes, memGets]
    | succ k ih =>
      intro n a h
      obtain ⟨n, rfl⟩ : ∃ m, n = m + 1 := ⟨n - 1, by omega⟩
      have := ih (n := n) (a := a + 1) (by omega)
      simp only [List.drop_zero] at this ⊢
      rw [getBytes_succ, List.take_succ_cons, this]
      rfl
  | succ i ih =>
    intro n a h
    obtain ⟨n, rfl⟩ : ∃ m, n = m + 1 := ⟨n - 1, by omega⟩
    rw [getBytes_succ, List.drop_succ_cons, ih (by omega), show a + 1 + i = a + (i + 1) by omega]

/-- A word is its two halves, the low one first. -/
theorem getNat_four (s : State) (a : Nat) : s.getNat a 4 = s.getNat a 2 + 65536 * s.getNat (a + 2) 2 := by
  simp only [State.getNat, State.getBytes, memGets, leNat, Nat.add_assoc, Nat.reduceAdd]
  omega

theorem reaches_page {a b : Nat} (h : a / 65536 = b / 65536) : s.reaches a = s.reaches b := by
  have hs : stackOf a = stackOf b := by
    simp only [stackOf, show (2 : Nat) ^ 36 = 65536 * 2 ^ 20 by decide, ← Nat.div_div_eq_div_mul, h]
  have hh : (hbmEnd ≤ a) = (hbmEnd ≤ b) := by
    simp only [hbmEnd, eq_iff_iff]
    omega
  unfold State.reaches
  rw [hs]
  simp only [hh]

/-- The line that fetch takes into the instruction cache. -/
def fetchLine (s : State) (place : Nat) : List Byte := s.getBytes (place / 128 * 128) 128

theorem halfOf_line {place : Nat} (he : place % 2 = 0) :
    leNat (((fetchLine s place).drop (place % 128)).take 2) = s.getNat place 2 := by
  unfold fetchLine State.getNat
  rw [getBytes_drop_take s (by omega), show place / 128 * 128 + place % 128 = place by omega]

/-- A halfword is taken from memory, where no stale copy of its line is held. -/
theorem fetchHalf_reads {place : Nat} (he : place % 2 = 0) (hr : s.reaches place = true)
    (hic : ∀ x, s.core.ic.find? (fun x => x.line == place / 128) = some x → x.data = fetchLine s place) :
    ∃ t, s.fetchHalf place = (t, s.getNat place 2) ∧ Fills s t ∧
      t.core = { s.core with ic := t.core.ic } ∧
      (s.core.ic = [] → t.core.ic = [{ line := place / 128, data := fetchLine s place }]) := by
  have hb : s.bytesAt (place / 128 * 128) 128 = (s, fetchLine s place) := by
    unfold State.bytesAt
    rw [if_pos ((reaches_page (by omega)).trans hr)]
    rfl
  obtain ⟨hl, hlc⟩ := l2Read_fills (s := s) (dieOf s.core.id) (place / 128)
  unfold State.fetchHalf
  dsimp only
  rw [hb]
  dsimp only
  split
  case h_1 =>
    refine ⟨_, by rw [halfOf_line he], hl.trans ?_, ?_, ?_⟩
    · rfl
    · rw [hlc]
    · intro h
      rw [hlc, h]
      rfl
  case h_2 x hx =>
    rw [hic x hx, if_pos rfl, halfOf_line he]
    exact ⟨s, rfl, rfl, rfl, fun h => by rw [h] at hx; cases hx⟩

end Halves

/-! ### An instruction fetched (R73) -/

/-- A page that fetch may use, in no buffer yet, and whose entry has been accessed. -/
structure FetchPage (u : State) (root : Nat) (l : Leaf) (a : Nat) : Prop where
  low   : a / 2 ^ 64 ≠ 0xFFFF
  even  : a % 2 = 0
  page  : a / 65536 = (a + 3) / 65536
  job   : u.myJob.map (·.spec.root) = some root
  leaf  : walkLeaf u root a = some l
  exec  : l.pte.testBit 3 = true
  noA   : l.pte.testBit 4 = false
  noH   : l.pte.testBit 5 = false
  used  : l.pte.testBit 7 = true
  tlb   : u.core.tlb = []
  ctlb  : u.ctlb = []
  cache : u.wcache = []
  ic    : u.core.ic = []
  bad   : u.bad = []
  up    : u.reaches (ptePA l.pte + a % 2 ^ levelShift l.level) = true

section Instruction

variable {u s t : State} {root a : Nat} {l : Leaf} {c : Cap}

/-- Where an address of the page lies. -/
def placeIn (l : Leaf) (a : Nat) : Nat := ptePA l.pte + a % 2 ^ levelShift l.level

theorem mod_levelShift (n a : Nat) : a % 2 ^ levelShift n % 65536 = a % 65536 :=
  Nat.mod_mod_of_dvd _ (pow_dvd_pow 2 (show 16 ≤ levelShift n by simp [levelShift]))

theorem placeIn_mod (l : Leaf) (a : Nat) : placeIn l a % 65536 = a % 65536 := by
  have := mod_levelShift l.level a
  have hp : ptePA l.pte % 65536 = 0 := Nat.mul_mod_left _ _
  unfold placeIn
  omega

theorem mod_add_small {m a k : Nat} (hm : m % 65536 = 0) (hm0 : 0 < m) (h : a % 65536 + k < 65536) : (a + k) % m = a % m + k := by
  obtain ⟨q, rfl⟩ : ∃ q, m = 65536 * q := ⟨m / 65536, by omega⟩
  have hlt : a % (65536 * q) + k < 65536 * q := by
    have h1 : a % (65536 * q) % 65536 = a % 65536 := Nat.mod_mod_of_dvd _ (Nat.dvd_mul_right _ _)
    have h2 := Nat.mod_lt a hm0
    omega
  rw [Nat.add_mod, Nat.mod_eq_of_lt (show k < 65536 * q by omega), Nat.mod_eq_of_lt hlt]

theorem placeIn_next (h : a % 65536 + 2 < 65536) : placeIn l (a + 2) = placeIn l a + 2 := by
  unfold placeIn
  rw [mod_add_small (Nat.mod_eq_zero_of_dvd (pow_dvd_pow 2 (show 16 ≤ levelShift l.level by simp [levelShift])))
    (by positivity) h]
  omega

/-- The piece that a halfword is. -/
def halfSeg (l : Leaf) (a : Nat) : Seg := ⟨a, placeIn l a, 2, some l⟩

/-- A halfword of the page translated. -/
theorem fetchSeg_of (hl : a / 2 ^ 64 ≠ 0xFFFF) (hroot : s.myJob.map (·.spec.root) = some root) (hx : l.pte.testBit 3 = true)
    (h4 : l.pte.testBit 4 = false) (h5 : l.pte.testBit 5 = false) (hleaf : s.leafOf s.asid root a = (t, some l))
    (hheld : s.held (placeIn l a) 2 = false) : fetchSeg a s = .ok (halfSeg l a) t := by
  have hallow : leafAllows l .fetch false = true := by
    unfold leafAllows
    rw [hx, h4, h5]
    rfl
  have hseg : segOf { asid := s.asid, root := s.myJob.map (·.spec.root) } .fetch a 2 s = .ok (halfSeg l a) t := by
    unfold segOf
    rw [run_bind, get_run, andThen, if_neg hl, hroot]
    dsimp only
    rw [hleaf]
    dsimp only
    rw [run_bind, set_run, andThen, if_pos hallow]
    rfl
  unfold fetchSeg
  rw [run_bind, get_run, andThen, run_bind, hseg, andThen, run_bind, run_await]
  rw [show (halfSeg l a).place = placeIn l a from rfl, show (halfSeg l a).len = 2 from rfl, hheld]
  rfl

theorem fetchAt_of {g : Seg} {n : Nat} (h : s.fetchHalf g.place = (t, n)) : fetchAt g s = .ok n t := by
  unfold fetchAt
  rw [run_bind, get_run, andThen, h]
  rfl

theorem goodNeed_ok {k : Machine.Acc} {gs : List Seg} (hb : s.bad = []) (hh : ∀ g ∈ gs, s.held g.place g.len = false) :
    goodNeed k gs s = .ok () s := by
  have hbad (g : Seg) : s.badIn g.place g.len = false := by
    unfold State.badIn
    rw [hb]
    rfl
  have herr : errorNeed k gs s = .ok () s := by
    unfold errorNeed
    rw [run_bind, get_run, andThen, List.find?_eq_none.mpr (fun g _ => by simp [hbad g])]
    rfl
  have hany : gs.any (fun g => s.held g.place g.len) = false := List.any_eq_false.mpr fun g hg => by simp [hh g hg]
  unfold goodNeed
  rw [run_bind, herr, andThen, run_bind, get_run, andThen, run_await, hany]
  rfl

theorem fetchBounds_ok {n : Nat} (h : capCheck c [pX] a n 1 = none) : fetchBounds c a n s = .ok () s := by
  unfold fetchBounds
  rw [h]
  rfl

theorem capCheck_shorter {n m : Nat} (h : capCheck c [pX] a n 1 = none) (hm : m ≤ n) : capCheck c [pX] a m 1 = none := by
  unfold capCheck at h ⊢
  split at h
  · cases h
  rename_i h1
  split at h
  · cases h
  rename_i h2
  split at h
  · cases h
  rename_i h3
  rw [if_neg h1, if_neg h2, if_neg, if_neg (by simp)]
  simp only [Bool.not_eq_true', Bool.and_eq_false_iff, decide_eq_false_iff_not, not_or, not_not] at h3 ⊢
  omega

/-- The instruction at an address whose page is not yet buffered: its halfwords as memory holds them. -/
theorem fetchInstr_reads (hp : FetchPage u root l a) (hc : capCheck c [pX] a 4 1 = none)
    (hh : u.held (placeIn l a) 2 = false) (hh2 : u.held (placeIn l a + 2) 2 = false) :
    ∃ v, fetchInstr c a u = .ok (if u.getNat (placeIn l a) 2 % 2 = 0 then (2, u.getNat (placeIn l a) 2)
      else (4, u.getNat (placeIn l a) 4)) v ∧ Fills u v ∧ v.core = { u.core with tlb := v.core.tlb, ic := v.core.ic } := by
  have hpage : a / 65536 = (a + 2) / 65536 := by have := hp.page; omega
  have hroom : a % 65536 + 2 < 65536 := by have := hp.page; have := hp.even; omega
  have hmod := placeIn_mod l a
  have heven := hp.even
  obtain ⟨s1, hleaf, hf1, hc1⟩ := leafOf_fills hp.leaf hp.used hp.cache hp.tlb hp.ctlb
  have hheld1 (a n : Nat) : s1.held a n = u.held a n := hf1.part (fun s => s.held a n)
  have hseg := fetchSeg_of hp.low hp.job hp.exec hp.noA hp.noH hleaf hh
  have hbad1 : s1.badIn (placeIn l a) 2 = false := by
    unfold State.badIn
    rw [hf1.part State.bad, hp.bad]
    rfl
  have hic1 : s1.core.ic = [] := by rw [hc1]; exact hp.ic
  have hnat1 (p n : Nat) : s1.getNat p n = u.getNat p n := hf1.part (fun s => s.getNat p n)
  obtain ⟨s2, hhalf, hf2, hc2, hic2⟩ := fetchHalf_reads (s := s1) (place := placeIn l a) (by omega)
    ((hf1.part (fun s => s.reaches (placeIn l a))).trans hp.up) (fun x hx => by rw [hic1] at hx; cases hx)
  have hfirst : fetchAt (halfSeg l a) s1 = .ok (u.getNat (placeIn l a) 2) s2 := by
    rw [← hnat1]
    exact fetchAt_of hhalf
  have hbegin : fetchInstr c a u = (do
      let h ← fetchAt (halfSeg l a)
      if h % 2 = 0 then pure (2, h)
      else do
        let h2 ← fetchSecond c a (halfSeg l a)
        pure (4, h + 65536 * h2) : Op (Nat × Nat)) s1 := by
    unfold fetchInstr
    rw [run_bind, fetchBounds_ok (capCheck_shorter hc (by decide)), andThen, run_bind, get_run, andThen, hseg]
    dsimp only
    rw [run_bind, set_run, andThen, if_neg (show ¬ s1.badIn (halfSeg l a).place (halfSeg l a).len = true by
      rw [show s1.badIn (halfSeg l a).place (halfSeg l a).len = false from hbad1]; exact Bool.false_ne_true)]
  rw [hbegin, run_bind, hfirst, andThen]
  have hcore2 : s2.core = { u.core with tlb := s2.core.tlb, ic := s2.core.ic } := by rw [hc2, hc1]
  by_cases hodd : u.getNat (placeIn l a) 2 % 2 = 0
  · rw [if_pos hodd, if_pos hodd]
    exact ⟨s2, rfl, hf1.trans hf2, hcore2⟩
  · have hf := hf1.trans hf2
    have hheld2 (a n : Nat) : s2.held a n = u.held a n := hf.part (fun s => s.held a n)
    have htlb2 : s2.core.tlb = [entryOf s2 a l] := by
      have hasid : s2.asid = u.asid := by unfold State.asid; rw [hcore2]
      rw [hc2, hc1]
      simp only [entryOf, hasid]
    have hwalk2 : walkLeaf s2 root a = some l := (hf.part (fun s => walkLeaf s root a)).trans hp.leaf
    have hroot2 : s2.myJob.map (·.spec.root) = some root := by
      rw [← hp.job]
      exact hf.part (fun s => s.myJob.map (·.spec.root))
    have hplace : placeIn l (a + 2) = placeIn l a + 2 := placeIn_next hroom
    have hseg2 : fetchSeg (a + 2) s2 = .ok (halfSeg l (a + 2)) s2 :=
      fetchSeg_of (by have := hp.low; omega) hroot2 hp.exec hp.noA hp.noH (leafOf_holds hpage hwalk2 htlb2)
        (by rw [hplace, hheld2]; exact hh2)
    have hgood : goodNeed .fetch [halfSeg l a, halfSeg l (a + 2)] s2 = .ok () s2 := by
      refine goodNeed_ok ((hf.part State.bad).trans hp.bad) fun g hg => ?_
      rw [List.mem_cons, List.mem_singleton] at hg
      rcases hg with rfl | rfl
      · exact (hheld2 _ _).trans hh
      · exact (hheld2 _ _).trans ((congrArg (u.held · 2) hplace).trans hh2)
    have hnat2 (p n : Nat) : s2.getNat p n = u.getNat p n := hf.part (fun s => s.getNat p n)
    obtain ⟨s3, hhalf2, hf3, hc3, -⟩ := fetchHalf_reads (s := s2) (place := placeIn l (a + 2)) (by rw [hplace]; omega)
      ((hf.part (fun s => s.reaches (placeIn l (a + 2)))).trans ((reaches_page (b := placeIn l a) (by rw [hplace]; omega)).trans hp.up))
      (fun x hx => by
        rw [hic2 hic1] at hx
        have hmem := List.mem_of_find?_eq_some hx
        have hline := List.find?_some hx
        rw [List.mem_singleton] at hmem
        subst hmem
        have hline : placeIn l a / 128 = placeIn l (a + 2) / 128 := by simpa using hline
        simp only [fetchLine, hline, State.getBytes, hf2.part State.mem])
    have hsecond : fetchSecond c a (halfSeg l a) s2 = .ok (u.getNat (placeIn l a + 2) 2) s3 := by
      unfold fetchSecond
      rw [run_bind, fetchBounds_ok hc, andThen, run_bind, hseg2, andThen, run_bind, hgood, andThen, ← hplace, ← hnat2]
      exact fetchAt_of hhalf2
    rw [if_neg hodd, if_neg hodd, run_bind, hsecond, andThen, ← getNat_four]
    exact ⟨s3, rfl, hf.trans hf3, by rw [hc3, hcore2]⟩

/-- Fetch with no watchpoint set. -/
theorem fetchHere_reads (hp : FetchPage u root l u.pc) (hc : capCheck u.ctx.pcc [pX] u.pc 4 1 = none)
    (hw : u.core.wpc = Vector.replicate 4 0) (hh : u.held (placeIn l u.pc) 2 = false)
    (hh2 : u.held (placeIn l u.pc + 2) 2 = false) :
    ∃ v, fetchHere u = .ok (if u.getNat (placeIn l u.pc) 2 % 2 = 0 then (2, u.getNat (placeIn l u.pc) 2)
      else (4, u.getNat (placeIn l u.pc) 4)) v ∧ v.mem = u.mem ∧ v.core.ctxs = u.core.ctxs ∧ v.core.v = u.core.v := by
  obtain ⟨v, hf, hfills, hcore⟩ := fetchInstr_reads hp hc hh hh2
  refine ⟨v, ?_, hfills.part State.mem, by rw [hcore], by rw [hcore]⟩
  have hhit (va n : Nat) : watchHit v .fetch va n = none := by
    have hwpc : v.core.wpc = Vector.replicate 4 0 := by rw [hcore]; exact hw
    unfold watchHit
    split
    · rfl
    · have hnone : (List.finRange 4).filterMap (fun w : Fin 4 =>
          (none : Option Nat)) = [] := by decide
      have hz (w : Fin 4) : (v.core.wpc[w]).toNat.testBit 2 = false := by
        rw [hwpc]
        simp
      simp only [hz, Bool.false_and, Bool.false_eq_true, if_false, hnone]
      rfl
  unfold fetchHere
  rw [run_bind, get_run, andThen, run_bind, hf, andThen, run_bind]
  unfold watchNeed
  rw [run_bind, get_run, andThen, hhit]
  rfl

end Instruction

/-! ### The step of a core (R22, R220, R227) -/

section Steps

variable {s t u v : State} {ms : List Move}

/-- A step that is no cut is its move and what follows every step. -/
theorem step_of_move (hc : ∀ n ms, s.agenda ≠ .cut n :: ms) (hm : move s = .next t) :
    step s = .next (if t.heldHit then s.postponed else t).afterStep := by
  unfold step
  rw [hm]
  rcases ha : s.agenda with _ | ⟨m, ms⟩
  · rfl
  · cases m with
    | cut n => exact absurd ha (hc n ms)
    | issue _ | event _ | deliver _ => rfl

theorem movePort_cut (n : Nat) : s.movePort (.cut n) = none := rfl

theorem arbitrate_same {m : Move} (h : s.movePort m ≠ some 1) : s.arbitrate (m :: ms) = m :: ms := by
  unfold State.arbitrate
  exact if_neg h

/-- The arbiter leaves a cut where it stands. -/
theorem no_cut_of_arbitrate {m : Move} {xs : List Move} (h : s.arbitrate s.agenda = m :: xs) (hm : ∀ n, m ≠ .cut n) :
    ∀ n ms, s.agenda ≠ .cut n :: ms := by
  intro n ms ha
  rw [ha, arbitrate_same (by rw [movePort_cut]; exact nofun)] at h
  exact hm n (List.cons.inj h).1.symm

theorem arbitrate_ports {i i' : Instr} (h : s.movePort (.event i) = some 1) (h' : s.movePort (.event i') = some 0) :
    s.arbitrate (.event i :: .event i' :: ms) = .event i' :: .event i :: ms := by
  have hne : Move.event i ≠ .event i' := fun e => by rw [e, h'] at h; exact absurd h (by decide)
  have hfind : (thisCycle (.event i :: .event i' :: ms)).find? (fun m => m.isEvent && s.movePort m == some 0) =
      some (.event i') := by
    simp [thisCycle, Move.isEvent, h, h']
  unfold State.arbitrate
  rw [if_pos (show (Move.event i :: .event i' :: ms).head?.bind s.movePort = some 1 from h), hfind]
  simp [hne]

/-- Where the issue of a core is the move at hand, it is a cycle of that core. -/
theorem move_cycle {y : State} {k : Nat}
    (hy : s.agenda = [] ∧ y = s.cycleStart [] ∨ s.agenda = .issue k :: ms ∧ y = (s.cycleStart ms).focusOn k) :
    move s = cycle y ∧ ∀ n ms, s.agenda ≠ .cut n :: ms := by
  rcases hy with ⟨ha, rfl⟩ | ⟨ha, rfl⟩
  · refine ⟨?_, fun n ms h => by rw [ha] at h; cases h⟩
    unfold move
    rw [ha]
    rfl
  · refine ⟨?_, fun n ms h => by rw [ha] at h; cases h⟩
    unfold move
    rw [ha, arbitrate_same (show s.movePort (.issue k) ≠ some 1 from nofun)]

theorem cycle_issues {r : State} (hr : r = s.timer) (hd : r.stopDue = false) (hs : r.core.stopped = false) (hn : r.core.run ≠ none) :
    cycle s = issueFrom r r.turns r := by
  unfold cycle
  dsimp only
  rw [← hr, hd, hs, if_neg Bool.false_ne_true, if_neg]
  simp [Option.isNone_iff_eq_none, hn]

theorem cycle_idle {r : State} (hr : r = s.timer) (hd : r.stopDue = false) (hs : r.core.stopped = true ∨ r.core.run = none) :
    cycle s = .next r.noIssue.tick := by
  unfold cycle
  dsimp only
  rw [← hr, hd, if_neg Bool.false_ne_true, if_pos]
  rcases hs with h | h <;> simp [h]

theorem cycle_stops {r : State} (hr : r = s.timer) (hd : r.stopDue = true) :
    cycle s = .next (r.reachStop.answerStops r.asid).noIssue.tick := by
  unfold cycle
  dsimp only
  rw [← hr, hd, if_pos rfl]

/-- What a context does in its turn, where nothing takes its place at the boundary. -/
theorem attempt_fetches {h : Fin 11} (hu : u = s.turnOf h) (hb : u.boundaryWork = none) {n w : Nat} (hf : fetchHere u = .ok (n, w) v) :
    attempt h s = runFetched n w v := by
  unfold attempt
  dsimp only
  rw [← hu, hb]
  dsimp only
  rw [hf]

theorem attempt_traps {h : Fin 11} (hu : u = s.turnOf h) (hb : u.boundaryWork = none) {c : Trap}
    (hf : fetchHere u = .error (.trap c) v) : attempt h s = .next (v.fetchTrap c) := by
  unfold attempt
  dsimp only
  rw [← hu, hb]
  dsimp only
  rw [hf]

theorem attempt_waits {h : Fin 11} (hu : u = s.turnOf h) (hb : u.boundaryWork = none) (hf : fetchHere u = .error .wait v) :
    attempt h s = .next v.block := by
  unfold attempt
  dsimp only
  rw [← hu, hb]
  dsimp only
  rw [hf]

theorem runFetched_some {n w : Nat} {i : Instr} (h : (decodeBits n w).bind (loopInstr v.ctx.loop) = some i) :
    runFetched n w v = exec i (v.latch n w) := by
  unfold runFetched
  rw [h]

theorem runFetched_none {n w : Nat} (h : (decodeBits n w).bind (loopInstr v.ctx.loop) = none) :
    runFetched n w v = exec (.unallocatedWord (BitVec.ofNat 32 w)) (v.latch n w) := by
  unfold runFetched
  rw [h]

/-- A context that does not find itself waiting has the cycle; so has the last one tried. -/
theorem issueFrom_last {r : State} {h : Fin 11} {hs : List (Fin 11)} (ha : attempt h s = .next t)
    (hb : t.core.ctxs[h].blocked = false ∨ hs = []) : issueFrom r (h :: hs) s = .next ((t.tookTurn h).cycleEnd r) := by
  rw [issueFrom, ha]
  dsimp only
  by_cases hbl : t.core.ctxs[h].blocked = true
  · rw [if_pos hbl]
    obtain hb | rfl := hb
    · rw [hb] at hbl
      cases hbl
    · rfl
  · rw [if_neg hbl]

theorem issueFrom_next {r : State} {h : Fin 11} {hs : List (Fin 11)} (ha : attempt h s = .next t)
    (hb : t.core.ctxs[h].blocked = true) : issueFrom r (h :: hs) s = issueFrom r hs (t.tookTurn h) := by
  rw [issueFrom, ha]
  exact if_pos hb

/-! ### Events and packets (R217, R220, R403, R409) -/

theorem move_event {i : Instr} (ha : s.arbitrate s.agenda = .event i :: ms) :
    move s = event i (s.begun (.event i) ms) ∧ ∀ n ms, s.agenda ≠ .cut n :: ms := by
  refine ⟨?_, no_cut_of_arbitrate ha (fun n => nofun)⟩
  unfold move
  rw [ha]

theorem step_of_fault {f : Fault} (hc : ∀ n ms, s.agenda ≠ .cut n :: ms) (hm : move s = .fault f) : step s = .fault f := by
  unfold step
  rw [hm]
  rcases ha : s.agenda with _ | ⟨m, ms⟩
  · rfl
  · cases m with
    | cut n => exact absurd ha (hc n ms)
    | issue _ | event _ | deliver _ => rfl

theorem event_ill {i : Instr} (h : i.wf = false) : event i s = .fault .noSuchUnit := by
  unfold event
  rw [if_pos (by rw [h]; rfl)]

theorem event_runs {i : Instr} (h : i.wf = true) (hb : ∀ e, i = .trapEntry e → s.boundaryDue e = false) : event i s = exec i s := by
  unfold event
  rw [if_neg (by rw [h]; exact Bool.false_ne_true)]
  split
  · rename_i e
    rw [hb e rfl]
    exact if_neg Bool.false_ne_true
  · rfl

/-- An asynchronous cause that is due is taken as the instruction about to issue is tried. -/
theorem event_tries {k : Nat} (hw : (Instr.trapEntry k).wf = true) (hb : s.boundaryDue k = true) (ha : attempt 0 (s.focusOn k) = .next t) :
    event (.trapEntry k) s = .next (t.focusOn s.core.id) := by
  unfold event
  rw [if_neg (by rw [hw]; exact Bool.false_ne_true)]
  dsimp only
  rw [hb, if_pos rfl, ha]

theorem no_cut_of_deliver {k : Nat} (ha : s.arbitrate s.agenda = .deliver k :: ms) : ∀ n ms, s.agenda ≠ .cut n :: ms :=
  no_cut_of_arbitrate ha (fun _ => nofun)

/-- A delivery that comes too late, or that no packet answers to, is passed over. -/
theorem move_undelivered {k : Nat} (ha : s.arbitrate s.agenda = .deliver k :: ms)
    (h : s.tooLate (.deliver k) = true ∨ s.packetAt k = none) : move s = .next { s with agenda := ms } := by
  unfold move
  rw [ha]
  dsimp only
  obtain h | h := h
  · rw [if_pos h]
  · rw [h]
    exact ite_self _

theorem move_delivered {k : Nat} {p : Packet} (ha : s.arbitrate s.agenda = .deliver k :: ms) (hl : s.tooLate (.deliver k) = false)
    (hp : s.packetAt k = some p) : move s = exec (s.packetEvent p) (s.begun (.deliver k) ms) := by
  unfold move
  rw [ha]
  dsimp only
  rw [hl, if_neg Bool.false_ne_true, hp]

theorem step_cut {k : Nat} (ha : s.agenda = .cut k :: ms) : step s = .next { s with agenda := ms, split := some k } := by
  have hm : move s = .next { s with agenda := ms, split := some k } := by
    unfold move
    rw [ha, arbitrate_same (by rw [movePort_cut]; exact nofun)]
  unfold step
  rw [hm, ha]

theorem cycleEnd_eq (t u : State) : t.cycleEnd u =
    if t.core.evc[0] = u.core.evc[0] ∧ t.core.evc[1] = u.core.evc[1] then t.noIssue.tick else t.tick := by
  unfold State.cycleEnd
  by_cases h : t.core.evc[0] = u.core.evc[0] ∧ t.core.evc[1] = u.core.evc[1]
  · rw [if_pos h, if_pos (by simpa using h)]
  · rw [if_neg h, if_neg (by simpa using h)]

end Steps

/-! ### The statement's parts -/

section Parts

variable {s t u v y : State} {h : Fin 11} {hs : List (Fin 11)} {n w : Nat} {i i' : Instr} {trap : Trap} {ms : List Move}
  {p : Packet} {k root : Nat} {l : Leaf}

/-- What a step of a core whose turn it is does. -/
theorem step_of_cycle (hy : s.agenda = [] ∧ y = s.cycleStart [] ∨ s.agenda = .issue k :: ms ∧ y = (s.cycleStart ms).focusOn k)
    {x : State} (hc : cycle y = .next x) : step s = .next (if x.heldHit then s.postponed else x).afterStep := by
  obtain ⟨hm, hcut⟩ := move_cycle hy
  exact step_of_move hcut (hm.trans hc)

theorem turns_order {r : State} (h : r.stopTold = false) : r.turns = r.order := by
  unfold State.turns
  rw [h]
  exact if_neg Bool.false_ne_true

theorem latch_ctx (v : State) (n w : Nat) :
    (v.latch n w).ctx.npc = BitVec.ofNat 80 (v.pc + n) ∧ (v.latch n w).ctx.ir = BitVec.ofNat 32 w := by
  unfold State.latch
  rw [ctx_setCtx]
  exact ⟨rfl, rfl⟩

theorem loopInstr_outside {lp : Loop} (hl : lp.lact = false) : loopInstr lp i = some i := by
  unfold loopInstr
  rw [hl]
  rfl

theorem tooLate_deliver : s.tooLate (.deliver k) = true ↔ s.portOne = true ∧ s.movePort (.deliver k) = some 0 := by
  simp [State.tooLate, Move.isEvent]

theorem postponed_deliver (ha : s.agenda = .deliver k :: ms) (hp : s.movePort (.deliver k) ≠ some 1) :
    s.postponed = { s with agenda := ms } := by
  unfold State.postponed
  rw [ha, arbitrate_same hp]

end Parts

/-- Settles O55: the move that stands first decides; an issue is a cycle of its core, whose first context that does not wait runs
what it fetches; and a fetch through an accessed page reads its halfwords from memory. -/
theorem stepRunsDecoded : Obligations.StepRunsDecoded := by
  unfold Obligations.StepRunsDecoded
  intro s t u v y h hs n w i i' trap ms p k root l ends
  refine ⟨?_, cycleEnd_eq t u, loopInstr_outside, latch_ctx v n w, ⟨rfl, rfl⟩, ?_, ?_, step_cut,
    arbitrate_ports, fun m hm => arbitrate_same hm, tooLate_deliver, ?_, rfl, postponed_deliver, ?_⟩
  · intro hy r passes
    have hends (x : State) (hx : cycle y = .next x) : ends x := step_of_cycle hy hx
    refine ⟨fun hd hst hr hturns hu hb => ?_, fun hd hst hr hturns => hends _ ?_, fun hd hst => hends _ (cycle_idle rfl hd hst),
      fun hd => hends _ (cycle_stops rfl hd), turns_order⟩
    · have hcy : cycle y = issueFrom r (h :: hs) r := hturns ▸ cycle_issues rfl hd hst hr
      have hlast {x : State} (hx : attempt h r = .next x) (hbl : x.core.ctxs[h].blocked = false ∨ hs = []) : passes x :=
        hends _ (hcy.trans (issueFrom_last hx hbl))
      refine ⟨fun hf => ⟨fun hdec hex hbl => ?_, fun hdec hex hbl => ?_, fun hdec hex hbl x hx => ?_⟩, fun hf hbl => ?_,
        fun hf hhs => ?_⟩
      · exact hlast ((attempt_fetches hu hb hf).trans ((runFetched_some hdec).trans hex)) hbl
      · exact hlast ((attempt_fetches hu hb hf).trans ((runFetched_none hdec).trans hex)) hbl
      · exact hends _ (hcy.trans ((issueFrom_next ((attempt_fetches hu hb hf).trans ((runFetched_some hdec).trans hex)) hbl).trans hx))
      · exact hlast (attempt_traps hu hb hf) (.inl hbl)
      · exact hlast (attempt_waits hu hb hf) (.inr hhs)
    · rw [cycle_issues (r := r) rfl hd hst hr, hturns, issueFrom, cycleEnd_eq, if_pos ⟨rfl, rfl⟩]
  · intro now ha
    obtain ⟨hm, hcut⟩ := move_event ha
    refine ⟨fun hw => step_of_fault hcut (hm.trans (event_ill hw)),
      fun hw hnd hex => step_of_move hcut (hm.trans ((event_runs hw hnd).trans hex)), fun hw hi hdue hu hb => ?_⟩
    subst hi
    refine ⟨fun hf hdec hex => ?_, fun hf => ?_⟩
    · exact step_of_move hcut (hm.trans (event_tries hw hdue
        ((attempt_fetches hu hb hf).trans ((runFetched_some hdec).trans hex))))
    · exact step_of_move hcut (hm.trans (event_tries hw hdue (attempt_traps hu hb hf)))
  · intro ha
    exact ⟨fun hl => step_of_move (no_cut_of_deliver ha) (move_undelivered ha hl),
      fun hl hp hex => step_of_move (no_cut_of_deliver ha) ((move_delivered ha hl hp).trans hex)⟩
  · intro hp
    unfold State.begun
    rw [hp]
    exact Bool.or_true _
  · intro _ heven hcap hlow hpage hjob hleaf h3 h4 h5 h7 htlb hctlb hwc hic hbad hwpc place half hup hh hh2
    exact fetchHere_reads ⟨hlow, heven, hpage, hjob, hleaf, h3, h4, h5, h7, htlb, hctlb, hwc, hic, hbad, hup⟩ hcap hwpc hh hh2

end Sys2Proof.Proofs
end

section
/-! PROOFS. What reading memory leaves of the core in focus; and binding ports, gathers and scatters (R155, R156, R274, R276). -/
namespace Sys2Proof.Proofs
open Sys2Proof Sys2Proof.Machine Sys2Proof.Laws
set_option Elab.async false

/-! ### What a load leaves of its core -/

/-- Counters with those of retired instructions alone. -/
def retiredOnly (e : Vector Word 11) : Vector Word 11 := Vector.ofFn (fun i => if i.val < 2 then e[i] else 0)

/-- A core without its translations, instruction cache, reports of mixed sizes and counters of events. -/
def unread (c : Core) : Core := { c with tlb := [], ic := [], pMixed := [], evc := retiredOnly c.evc }

/-- A core without what the walks, fills and reports of an access may change of it. -/
def loadKept (c : Core) : Core := unread (kept c)

/-- From `s` to `t` the core in focus has read memory. -/
def Loads (s t : State) : Prop := loadKept t.core = loadKept s.core

/-- An operation that, however it ends, has only read memory. -/
def LoadsAt {α : Type} (f : Op α) (s : State) : Prop :=
  match f s with
  | .ok _ t => Loads s t
  | .error _ t => Loads s t

section Relation

variable {s₀ s t : State} {α β : Type}

theorem Loads.refl (s : State) : Loads s s := rfl

theorem Loads.trans (h : Loads s₀ s) (h' : Loads s t) : Loads s₀ t := Eq.trans h' h

theorem Loads.of_core (h : t.core = s.core) : Loads s t := by rw [Loads, h]

theorem Loads.of_kept (h : kept t.core = kept s.core) : Loads s t :=
  congrArg unread h

theorem Device.loads (h : Device s t) : Loads s t := .of_kept h.core

/-- A part of the core that reading memory leaves. -/
theorem Loads.part {α : Type} (h : Loads s t) (part : Core → α) (hp : ∀ c, part (loadKept c) = part c := by intro; rfl) :
    part t.core = part s.core := (hp _).symm.trans ((congrArg part h).trans (hp _))

theorem Loads.evc (h : Loads s t) (i : Fin 11) (hi : i.val < 2) : t.core.evc[i] = s.core.evc[i] :=
  h.part (fun c => c.evc[i]) (fun c => by
    show (retiredOnly c.evc)[i] = c.evc[i]
    simp only [retiredOnly, Fin.getElem_fin, Vector.getElem_ofFn]
    exact if_pos hi)

theorem Loads.ctx (h : Loads s t) : t.ctx = s.ctx := h.part (fun c => c.ctxs[c.cur])

theorem Loads.stands (h : Loads s t) : Stands s t := stands_of_ctx (h.part Core.cur) h.ctx

theorem Loads.rc (h : Loads s t) (n : Fin 32) : t.rc n = s.rc n := congrArg (fun x : Ctx => x.rc n) h.ctx

theorem LoadsAt.ok {f : Op α} (h : LoadsAt f s) {a : α} (hf : f s = .ok a t) : Loads s t := by
  rw [LoadsAt, hf] at h
  exact h

theorem loadsAt_of_ok {f : Op α} {a : α} (hf : f s = .ok a t) (h : Loads s t) : LoadsAt f s := by
  rw [LoadsAt, hf]
  exact h

theorem loadsAt_pure (a : α) : LoadsAt (pure a : Op α) s := Loads.refl s

theorem loadsAt_throw (e : Stop) : LoadsAt (throw e : Op α) s := Loads.refl s

theorem loadsAt_bind {f : Op α} {k : α → Op β} (hf : LoadsAt f s) (hk : ∀ a t, LoadsAt (k a) t) : LoadsAt (f >>= k) s := by
  unfold LoadsAt at hf ⊢
  rw [run_bind]
  cases h : f s with
  | ok a t =>
    rw [h] at hf
    have hk' := hk a t
    unfold LoadsAt at hk'
    rw [andThen]
    cases h' : k a t with
    | ok b u => rw [h'] at hk'; exact hf.trans hk'
    | error e u => rw [h'] at hk'; exact hf.trans hk'
  | error e t =>
    rw [h] at hf
    exact hf

theorem loadsAt_get_bind {k : State → Op β} (h : LoadsAt (k s) s) : LoadsAt (get >>= k) s := h

theorem loadsAt_set_bind {k : PUnit → Op β} (ht : Loads s t) (h : LoadsAt (k ⟨⟩) t) : LoadsAt (set t >>= k) s := by
  unfold LoadsAt at h ⊢
  rw [run_bind, set_run, andThen]
  cases h' : k ⟨⟩ t with
  | ok b u => rw [h'] at h; exact ht.trans h
  | error e u => rw [h'] at h; exact ht.trans h

end Relation

/-! ### Translation and checks (R115, R230, R254 to R259) -/

section Access

variable {s₀ s t : State}

theorem raise_loads {α : Type} {c : Cause} {v : Int} : LoadsAt (raise c v : Op α) s := Loads.refl s

theorem need_loads {b : Bool} {c : Cause} {v : Int} : LoadsAt (need b c v) s := by
  cases b <;> exact Loads.refl s

theorem await_loads {b : Bool} : LoadsAt (await b) s := by
  cases b <;> exact Loads.refl s

theorem tlbFill_loads (e : Tlb) : Loads s (s.tlbFill e) := rfl

theorem leafOf_loads {asid root va : Nat} : Loads s (s.leafOf asid root va).1 := by
  unfold State.leafOf
  extract_lets fill
  have hfill {u : State} (hu : Loads s u) : Loads s (fill u).1 := by
    have hw : Loads u (u.walk asid root va).1 := (walk_device (Device.refl u)).loads
    unfold fill
    split <;> rename_i h <;> rw [h] at hw
    · exact (hu.trans hw).trans (tlbFill_loads _)
    · exact hu.trans hw
  clear_value fill
  split
  · exact hfill (.refl s)
  extract_lets held
  split
  · exact .refl s
  split
  · exact .of_core rfl
  · exact hfill (.of_core rfl)

theorem segOf_loads {w : Who} {k : Machine.Acc} {va len : Nat} : LoadsAt (segOf w k va len) s := by
  refine loadsAt_get_bind ?_
  split
  · split
    · exact loadsAt_pure _
    · exact raise_loads
  · split
    · exact raise_loads
    · rename_i root _
      split
      rename_i t l he
      have ht : Loads s t := by
        have := leafOf_loads (s := s) (asid := w.asid) (root := root) (va := va)
        rwa [he] at this
      refine loadsAt_set_bind ht ?_
      split
      · exact raise_loads
      · split
        · exact loadsAt_pure _
        · exact raise_loads

theorem segsOf_loads {w : Who} {k : Machine.Acc} {ps : List (Nat × Nat)} : LoadsAt (segsOf w k ps) s := by
  induction ps generalizing s with
  | nil => exact loadsAt_pure _
  | cons p ps ih => exact loadsAt_bind segOf_loads fun _ _ => loadsAt_bind ih fun _ _ => loadsAt_pure _

theorem errorNeed_loads {k : Machine.Acc} {gs : List Seg} : LoadsAt (errorNeed k gs) s := by
  refine loadsAt_get_bind ?_
  split
  · exact need_loads
  · exact loadsAt_pure _

theorem goodNeed_loads {k : Machine.Acc} {gs : List Seg} : LoadsAt (goodNeed k gs) s :=
  loadsAt_bind errorNeed_loads fun _ _ => loadsAt_get_bind await_loads

theorem capNeed_loads {c : Cap} {ps : List Nat} {a : Int} {n align : Nat} : LoadsAt (capNeed c ps a n align) s := by
  unfold capNeed
  split
  · exact raise_loads
  · exact loadsAt_pure _

theorem watchNeed_loads {k : Machine.Acc} {va n : Nat} : LoadsAt (watchNeed k va n) s := by
  refine loadsAt_get_bind ?_
  split
  · exact raise_loads
  · exact loadsAt_pure _

theorem access_loads {c : Cap} {ps : List Nat} {a : Int} {n align : Nat} {k : Machine.Acc} : LoadsAt (access c ps a n align k) s :=
  loadsAt_bind capNeed_loads fun _ _ => loadsAt_get_bind <| loadsAt_bind segsOf_loads fun _ _ =>
    loadsAt_bind goodNeed_loads fun _ _ => loadsAt_bind watchNeed_loads fun _ _ => loadsAt_pure _

/-! ### Bytes read (R247, R278 to R280, R283) -/

theorem count_loads {k : Fin 11} {n : Nat} (hk : 2 ≤ k.val) : Loads s (s.count k n) := by
  have h : retiredOnly (s.count k n).core.evc = retiredOnly s.core.evc := by
    apply Vector.ext
    intro i hi
    simp only [retiredOnly, Vector.getElem_ofFn]
    split
    · have hne : k.val ≠ i := by rename_i h2; omega
      exact Vector.getElem_set_ne k.isLt hi hne
    · rfl
  exact congrArg (fun e => { loadKept s.core with evc := e }) h

theorem l2Read_loads {die line : Nat} : Loads s (s.l2Read die line) := .of_core (l2Read_fills die line).2

theorem l1Fill_loads {line : Nat} : Loads s (s.l1Fill line) := by
  have h : Loads s ((s.count 4).l2Read (dieOf s.core.id) line) := (count_loads (by decide)).trans l2Read_loads
  unfold State.l1Fill
  dsimp only
  split
  · exact h
  · exact h

theorem freed_loads {k : Nat} : Loads s { s with freeN := s.freeN + k } := .of_core rfl

theorem l1Load_loads {me : Nat × Nat} {a n : Nat} : Loads s (s.l1Load me a n).1 := by
  unfold State.l1Load
  dsimp only
  split
  · exact l1Fill_loads
  · split
    · exact count_loads (by decide)
    · split
      · exact freed_loads.trans (count_loads (by decide))
      · exact freed_loads.trans l1Fill_loads

theorem l1Lines_loads {me : Nat × Nat} {ls : List (Nat × Nat)} : Loads s (s.l1Lines me ls).1 := by
  induction ls generalizing s with
  | nil => exact .refl s
  | cons l ls ih => exact l1Load_loads.trans ih

theorem throughL1_loads {me : Nat × Nat} {g : Seg} : Loads s (s.throughL1 me g).1 := by
  unfold State.throughL1
  split
  · exact l1Lines_loads
  · exact .refl s

theorem bytesAt_loads {a n : Nat} : Loads s (s.bytesAt a n).1 := by
  unfold State.bytesAt
  split
  · exact .refl s
  · exact freed_loads

theorem foldl_loads {β : Type} {f : State → β → State} (hf : ∀ s a, Loads s (f s a)) (xs : List β) : Loads s (xs.foldl f s) := by
  induction xs generalizing s with
  | nil => exact .refl s
  | cons x xs ih => exact (hf s x).trans ih

theorem reportMixed_loads {e va : Nat} : Loads s (s.reportMixed e va) := by
  have hr (c : Core) : loadKept (c.reportMixed va) = loadKept c := by
    unfold Core.reportMixed
    split <;> rfl
  unfold State.reportMixed State.mapCore
  split
  · split
    · exact hr s.core
    · exact .refl s
  · exact .refl s

theorem noteAs_loads {me : Nat × Nat} {va a n esz : Nat} {write : Bool} {at_ : Nat} :
    Loads s (s.noteAs me va a n esz write at_) := by
  have h : Loads s ((s.sizeReports me va a n esz write).foldl (fun s x => s.reportMixed x.1 x.2) s) :=
    foldl_loads (fun _ _ => reportMixed_loads) _
  exact h.trans (.of_core rfl)

theorem learnSources_loads {me : Nat × Nat} {a n esz : Nat} {old : List L1Line} : Loads s (s.learnSources me a n esz old) := by
  unfold State.learnSources
  split <;> exact .of_core rfl

theorem readAt_loads {me : Nat × Nat} {va a n esz : Nat} {old : List L1Line} {at_ : Nat} :
    Loads s (s.readAt me va a n esz old at_).1 := by
  unfold State.readAt
  dsimp only
  refine Loads.trans ?_ noteAs_loads
  have h := (learnSources_loads (s := s) (me := me) (a := a) (n := n) (esz := esz) (old := old)).trans
    (bytesAt_loads (a := a) (n := n))
  split
  · exact h
  · exact h.trans freed_loads

theorem loadSegOld_loads {esz : Nat} {g : Seg} : Loads s (s.loadSegOld esz g).1 := by
  unfold State.loadSegOld
  dsimp only
  split
  · exact throughL1_loads
  · exact throughL1_loads.trans readAt_loads

theorem loadSegs_loads {gs : List Seg} {esz : Nat} : LoadsAt (loadSegs gs esz) s := by
  induction gs generalizing s with
  | nil => exact loadsAt_pure _
  | cons g gs ih => exact loadsAt_get_bind <| loadsAt_set_bind loadSegOld_loads <| loadsAt_bind ih fun _ _ => loadsAt_pure _

theorem loadGranules_loads {gs : List Seg} : LoadsAt (loadGranules gs) s := by
  cases gs with
  | nil => exact loadsAt_pure _
  | cons g gs => exact loadsAt_get_bind <| loadsAt_set_bind loadSegOld_loads <| loadsAt_pure _

/-- A tile's header read (R269). -/
theorem readHdr_loads {c : Cap} : LoadsAt (readHdr c) s :=
  loadsAt_bind access_loads fun _ _ => loadsAt_bind loadGranules_loads fun _ _ => loadsAt_bind loadSegs_loads fun _ _ =>
    loadsAt_pure _

end Access

/-! ### Binding and unbinding (R155, R156) -/

theorem canIssue_mono {s : State} {xs ys : List (RegFile × Nat)} (h : s.CanIssue ys) (hs : ∀ r ∈ xs, r ∈ ys) :
    s.CanIssue xs :=
  ⟨h.notStopped, h.noCause, fun hk r hr => h.fixReady hk r (hs r hr), fun r hr => h.varReady r (hs r hr)⟩

section Ports

variable {s : State} (st : Fin 8) {p : Fin 8} {a b : Fin 32}

/-- A port set. -/
def setPort (s : State) (p : Fin 8) (q : Port) : State := { s with core := { s.core with sp := s.core.sp.set p q } }

/-- An instruction that retires after setting a port. -/
theorem setPort_retired (q : Port) :
    let t := (setPort s p q).finish st.val s.ctx.loop.lact
    Advanced s t ∧ t.core = { s.core with ctxs := t.core.ctxs, evc := t.core.evc, sp := s.core.sp.set p q } ∧
      t = { s with core := t.core } ∧ (∀ k, t.rc k = s.rc k) ∧ t.ctx.o = s.ctx.o := by
  refine ⟨advanced_finish (stands_of_ctx (s := s) (t := setPort s p q) rfl rfl) st.val rfl,
    finish_core_eq (setPort s p q) st.val s.ctx.loop.lact, ?_, fun k => rc_finish _ _ _ _, finish_o _ _ _⟩
  rw [(finish_onlyContext _ _ _).rest]
  rfl

/-- The operation of SUNBIND. -/
def sunbindBody (p : Fin 8) : Op Unit := do
  if (← get).core.sp[p].bnd then
    await ((← get).portQuiet p)
    upd fun s => s.unbind p

theorem execSunbind_eq : execSunbind st p s = issue { st := st.val, ill := s.helper } (sunbindBody p) s := rfl

theorem unbind_eq (s : State) (p : Fin 8) : s.unbind p = setPort s p { s.core.sp[p] with bnd := false } := rfl

/-- Unbinding what is not bound changes nothing. -/
theorem unbind_unbound (h : s.core.sp[p].bnd = false) : s.unbind p = s := by
  have hp : ({ s.core.sp[p] with bnd := false } : Port) = s.core.sp[p] := by rw [← h]
  have hset : s.core.sp.set p.val s.core.sp[p] = s.core.sp := Vector.set_getElem_self _
  rw [unbind_eq, hp, setPort, hset]

theorem sunbind_run (hq : s.portQuiet p = true ∨ s.core.sp[p].bnd = false) : sunbindBody p s = .ok () (s.unbind p) := by
  unfold sunbindBody
  rw [run_bind, get_run, andThen]
  by_cases hb : s.core.sp[p].bnd = true
  · rw [if_pos hb, run_bind, get_run, andThen, run_bind, run_await, if_pos (hq.resolve_right (by rw [hb]; exact Bool.noConfusion))]
    rfl
  · rw [if_neg hb, unbind_unbound (by simpa using hb)]
    rfl

/-- The port that SBIND binds. -/
def boundTo (s : State) (a b : Fin 32) : Port :=
  { bnd := true, dir := (s.ro 3).getLsbD 0, cap := s.rc a, stride := s.ro 2, cnt := BitVec.ofNat 32 (fld (s.rx b) 0 32) }

/-- How far SBIND's range reaches from A (R155). -/
def bindSpan (s : State) (b : Fin 32) : Int := ((fld (s.rx b) 0 32 : Int) - 1) * (s.ro 2).toInt

/-- SBIND's range lies within the bounds (R155). -/
def bindInside (s : State) (a b : Fin 32) : Prop :=
  capBase (s.rc a) ≤ (capA (s.rc a) : Int) + min 0 (bindSpan s b) ∧
    (capA (s.rc a) : Int) + max 0 (bindSpan s b) + 128 ≤ capTop (s.rc a)

/-- SBIND's address and stride are aligned. -/
def bindEven (s : State) (a : Fin 32) : Prop := capA (s.rc a) % 4 = 0 ∧ (s.ro 2).toInt % 4 = 0

/-- The port is bound, once the checks have passed. -/
def bindPort (s : State) (p : Fin 8) (a b : Fin 32) : Op Unit := upd fun u => setPort u p (boundTo s a b)

/-- The four checks of SBIND, and what follows them. -/
def bindChecks (s : State) (p : Fin 8) (a b : Fin 32) : Op Unit := do
  let at_ : Int := capA (s.rc a)
  need (capValid (s.rc a)) .capTag at_
  need (capHas (s.rc a) (if (s.ro 3).getLsbD 0 then pS else pL)) .capPerm at_
  need (decide (capBase (s.rc a) ≤ at_ + min 0 (bindSpan s b)) && decide (at_ + max 0 (bindSpan s b) + 128 ≤ capTop (s.rc a)))
    .capBounds at_
  need (at_ % 4 = 0 && (s.ro 2).toInt % 4 = 0) .align at_
  bindPort s p a b

/-- The operation of SBIND. -/
def sbindBody (p : Fin 8) (a b : Fin 32) : Op Unit := do
  let s ← get
  await (s.portQuiet p)
  upd fun s => s.unbind p
  if fld (s.rx b) 0 32 ≠ 0 then bindChecks s p a b else bindPort s p a b

theorem execSbind_eq : execSbind st p a b s =
    issue { st := st.val, ill := s.helper || fld (s.ro 3) 1 63 ≠ 0, reads := [rdC a, rdC b] } (sbindBody p a b) s := rfl

theorem sbind_run (hq : s.portQuiet p = true) : sbindBody p a b s =
    (if fld (s.rx b) 0 32 ≠ 0 then bindChecks s p a b else bindPort s p a b) (s.unbind p) := by
  unfold sbindBody
  rw [run_bind, get_run, andThen, run_bind, run_await, if_pos hq, andThen, run_bind, upd_run, andThen]

/-- A port unbound and then bound is bound. -/
theorem bindPort_run : bindPort s p a b (s.unbind p) = .ok () (setPort s p (boundTo s a b)) := by
  have h : (s.core.sp.set p.val { s.core.sp[p] with bnd := false }).set p.val (boundTo s a b) = s.core.sp.set p.val (boundTo s a b) := by
    simp
  have hs : setPort (s.unbind p) p (boundTo s a b) = setPort s p (boundTo s a b) := by
    simp only [unbind_eq, setPort, h]
  rw [bindPort, upd_run, hs]

section Checks

variable (s p a b)

theorem bindChecks_untagged (h : capValid (s.rc a) = false) (u : State) :
    bindChecks s p a b u = .error (.trap ⟨.capTag, tvalOf (capA (s.rc a))⟩) u := by
  unfold bindChecks
  rw [run_bind, h]
  rfl

theorem bindChecks_unpermitted (h : capValid (s.rc a) = true)
    (hp : capHas (s.rc a) (if (s.ro 3).getLsbD 0 then pS else pL) = false) (u : State) :
    bindChecks s p a b u = .error (.trap ⟨.capPerm, tvalOf (capA (s.rc a))⟩) u := by
  unfold bindChecks
  rw [run_bind, h, need_true, andThen, run_bind, hp]
  rfl

theorem bindChecks_outside (h : capValid (s.rc a) = true) (hp : capHas (s.rc a) (if (s.ro 3).getLsbD 0 then pS else pL) = true)
    (hi : ¬ bindInside s a b) (u : State) :
    bindChecks s p a b u = .error (.trap ⟨.capBounds, tvalOf (capA (s.rc a))⟩) u := by
  have hb : (decide (capBase (s.rc a) ≤ (capA (s.rc a) : Int) + min 0 (bindSpan s b)) &&
      decide ((capA (s.rc a) : Int) + max 0 (bindSpan s b) + 128 ≤ capTop (s.rc a))) = false := by
    rw [← Bool.decide_and]
    exact decide_eq_false hi
  unfold bindChecks
  rw [run_bind, h, need_true, andThen, run_bind, hp, need_true, andThen, run_bind, hb]
  rfl

theorem bindChecks_aligns (h : capValid (s.rc a) = true) (hp : capHas (s.rc a) (if (s.ro 3).getLsbD 0 then pS else pL) = true)
    (hi : bindInside s a b) (u : State) : bindChecks s p a b u =
      (need ((capA (s.rc a) : Int) % 4 = 0 && (s.ro 2).toInt % 4 = 0) .align (capA (s.rc a)) >>= fun _ => bindPort s p a b) u := by
  have hb : (decide (capBase (s.rc a) ≤ (capA (s.rc a) : Int) + min 0 (bindSpan s b)) &&
      decide ((capA (s.rc a) : Int) + max 0 (bindSpan s b) + 128 ≤ capTop (s.rc a))) = true := by
    rw [← Bool.decide_and]
    exact decide_eq_true hi
  unfold bindChecks
  rw [run_bind, h, need_true, andThen, run_bind, hp, need_true, andThen, run_bind, hb, need_true, andThen]

theorem bindEven_decide : (decide ((capA (s.rc a) : Int) % 4 = 0) && decide ((s.ro 2).toInt % 4 = 0)) = true ↔ bindEven s a := by
  unfold bindEven
  rw [Bool.and_eq_true, decide_eq_true_eq, decide_eq_true_eq]
  omega

theorem bindChecks_odd (h : capValid (s.rc a) = true) (hp : capHas (s.rc a) (if (s.ro 3).getLsbD 0 then pS else pL) = true)
    (hi : bindInside s a b) (he : ¬ bindEven s a) (u : State) :
    bindChecks s p a b u = .error (.trap ⟨.align, tvalOf (capA (s.rc a))⟩) u := by
  rw [bindChecks_aligns s p a b h hp hi, run_bind, Bool.eq_false_iff.mpr (mt (bindEven_decide s a).mp he)]
  rfl

theorem bindChecks_pass (h : capValid (s.rc a) = true) (hp : capHas (s.rc a) (if (s.ro 3).getLsbD 0 then pS else pL) = true)
    (hi : bindInside s a b) (he : bindEven s a) (u : State) : bindChecks s p a b u = bindPort s p a b u := by
  rw [bindChecks_aligns s p a b h hp hi, run_bind, (bindEven_decide s a).mpr he, need_true, andThen]

end Checks

/-- A failing check of SBIND leaves the port unbound. -/
theorem sbind_fails {x : Cause} (hi : s.CanIssue [rdC a, rdC b]) (hh : s.helper = false) (h3 : fld (s.ro 3) 1 63 = 0)
    (hq : s.portQuiet p = true) (hc : fld (s.rx b) 0 32 ≠ 0)
    (hx : bindChecks s p a b (s.unbind p) = .error (.trap ⟨x, tvalOf (capA (s.rc a))⟩) (s.unbind p)) :
    execSbind st p a b s = .next ((s.unbind p).trapHere ⟨x, tvalOf (capA (s.rc a))⟩) := by
  rw [execSbind_eq]
  refine issue_traps hi (by rw [hh, h3]; rfl) rfl ?_
  rw [sbind_run hq, if_pos hc, hx]

theorem sbind_binds (hi : s.CanIssue [rdC a, rdC b]) (hh : s.helper = false) (h3 : fld (s.ro 3) 1 63 = 0)
    (hq : s.portQuiet p = true) (hc : fld (s.rx b) 0 32 = 0 ∨ capValid (s.rc a) = true ∧
      capHas (s.rc a) (if (s.ro 3).getLsbD 0 then pS else pL) = true ∧ bindInside s a b ∧ bindEven s a) :
    execSbind st p a b s = s.retire st.val (setPort s p (boundTo s a b)) := by
  rw [execSbind_eq]
  refine issue_retires hi (by rw [hh, h3]; rfl) rfl ?_
  rw [sbind_run hq]
  by_cases h0 : fld (s.rx b) 0 32 = 0
  · rw [if_neg (not_not.mpr h0)]
    exact bindPort_run
  · obtain ⟨hv, hp, hin, he⟩ := hc.resolve_left h0
    rw [if_pos h0, bindChecks_pass s p a b hv hp hin he]
    exact bindPort_run

end Ports

/-! ### Gathers and scatters (R274, R276) -/

section Gathers

variable {s s1 : State} (st : Fin 8) (d a b : Fin 32) (vb : Fin 64) {h : Hdr}

theorem minInt_none {xs : List Int} (h : xs = []) : minInt xs = none := by
  rw [h]
  rfl

/-- Checks of every address pass where each one does. -/
theorem needAll_ok {as : List Int} {ok : Int → Bool} {c : Cause} (hok : ∀ x ∈ as, ok x = true) : needAll as ok c s = .ok () s := by
  unfold needAll
  rw [minInt_none (List.filter_eq_nil_iff.mpr fun x hx => by simp [hok x hx])]
  rfl

/-- The copy-unit job that a gather or scatter samples. -/
def gatherCopy (s : State) (gath : Bool) (vb : Fin 64) (h : Hdr) : Copy :=
  { kind := if gath then .gath else .scat, dst := h.base, src := h.base, cnt := s.gCnt, es := gathEs h.fmt
    idxs := (List.range s.gCnt).map (elem (s.rv vb) (if s.gIw then 16 else 8))
    vreg := s.gVreg.val, rem := h.rem, peer := h.peid, data := s.rv s.gVreg, y := s.pccY }

/-- The address of a gather's element. -/
def gatherAt (h : Hdr) (i : Nat) : Int := (capA h.base : Int) + (i * gathEs h.fmt : Nat)

/-- The checks of a gather's header and elements (R274). -/
structure GatherPasses (s : State) (gath : Bool) (idxs : List Nat) (h : Hdr) : Prop where
  valid  : h.bad false = false
  size   : gathEs h.fmt ≠ 0
  fits   : s.gCnt * gathEs h.fmt ≤ 128
  global : capA h.base / 2 ^ 64 ≠ 0xFFFF
  tag    : capValid h.base = true
  perm   : capHasAll h.base ((if gath then [pL] else [pS]) ++ (if h.rem then [pM] else [])) = true
  inside : ∀ k ∈ idxs, capBase h.base ≤ gatherAt h k ∧ gatherAt h k + gathEs h.fmt ≤ capTop h.base
  even   : capA h.base % gathEs h.fmt = 0

/-- What a gather or scatter does once its header is read. -/
def gatherRest (s : State) (d a : Fin 32) (gath : Bool) (v : VReg) (h : Hdr) : Op (Option VReg) := do
  let es := gathEs h.fmt
  let cnt := s.gCnt
  if es ≠ 0 && 128 < cnt * es then throw (.trap s.illegal)
  need (!h.bad false && es ≠ 0 && capA h.base / 2 ^ 64 ≠ 0xFFFF) .page (capA (s.rc a))
  let idxs := (List.range cnt).map (elem v (if s.gIw then 16 else 8))
  let as := idxs.map (fun i => (capA h.base : Int) + (i * es : Nat))
  let ps := (if gath then [pL] else [pS]) ++ (if h.rem then [pM] else [])
  needAll as (fun _ => capValid h.base) .capTag
  needAll as (fun _ => capHasAll h.base ps) .capPerm
  needAll as (fun a => decide (capBase h.base ≤ a) && decide (a + es ≤ capTop h.base)) .capBounds
  need (capA h.base % es = 0) .align (capA h.base)
  let c : Copy :=
    { kind := if gath then .gath else .scat, dst := h.base, src := h.base, cnt := cnt, es := es, idxs := idxs
      vreg := s.gVreg.val, rem := h.rem, peer := h.peid, data := s.rv s.gVreg, y := s.pccY }
  let u ← get
  let (u, j) := u.openJob clsCopy (fun j => { j with cp := some c })
  set u
  if gath then
    upd fun u => u.setCtx { u.ctx with pend := u.ctx.pend ++ [{ file := .v, idx := u.gVreg.val, op := jobKey clsCopy j.ri }] }
  upd fun u => u.wx d j.word
  pure none

/-- The operation of a gather or scatter on its operands. -/
def gatherBody (d a : Fin 32) (b : Fin 64) (gath : Bool) (rd : Fin 64 → VReg) : Op (Option VReg) := do
  let s ← get
  let h ← readHdr (s.rc a)
  gatherRest s d a gath (rd b) h

theorem gather_eq (st : Nat) (gath : Bool) : gather st d a vb gath s =
    issue { ({ srcs := [vb] } : VUse).gate st (s.gathBad gath) ([rdC a] ++ (if gath then [] else [rdV s.gVreg])) s with
      acc := s.owned ({ srcs := [vb, s.gVreg] } : VUse).named }
      (do
        let s ← get
        await (decide (s.core.inFlight clsCopy < 256))
        vecRun { srcs := [vb] } none (gatherBody d a vb gath)) s := rfl

/-- The state in which a gather's or scatter's job stands open and its identifier is written. -/
def gatherDone (s1 : State) (d : Fin 32) (gath : Bool) (c : Copy) : State :=
  let f : JobRec → JobRec := fun j => { j with cp := some c }
  let j := newRec s1 clsCopy f
  let u := (s1.openJob clsCopy f).1
  let u := if gath then
    u.setCtx { u.ctx with pend := u.ctx.pend ++ [{ file := .v, idx := u.gVreg.val, op := jobKey clsCopy j.ri }] } else u
  u.wx d j.word

theorem gatherRest_run {gath : Bool} (hp : GatherPasses s gath ((List.range s.gCnt).map (elem (s.rv vb) (if s.gIw then 16 else 8))) h)
    (u : State) : gatherRest s d a gath (s.rv vb) h u = .ok none (gatherDone u d gath (gatherCopy s gath vb h)) := by
  have hsmall : ¬ (gathEs h.fmt ≠ 0 && 128 < s.gCnt * gathEs h.fmt) = true := by simp [hp.fits]
  have hpage : (!h.bad false && gathEs h.fmt ≠ 0 && capA h.base / 2 ^ 64 ≠ 0xFFFF) = true := by
    rw [hp.valid, decide_eq_true hp.size, decide_eq_true hp.global]
    rfl
  unfold gatherRest
  dsimp only
  rw [if_neg hsmall, run_bind, hpage, need_true, andThen,
    run_bind, needAll_ok (fun _ _ => hp.tag), andThen, run_bind, needAll_ok (fun _ _ => hp.perm), andThen, run_bind, needAll_ok, andThen,
    run_bind, decide_eq_true (by exact_mod_cast hp.even), need_true, andThen, run_bind, get_run, andThen]
  · cases gath <;> rfl
  · intro x hx
    obtain ⟨k, hk, rfl⟩ := List.mem_map.mp hx
    obtain ⟨hlo, hhi⟩ := hp.inside k hk
    rw [gatherAt] at hlo hhi
    rw [decide_eq_true hlo, decide_eq_true hhi]
    rfl

/-- The count of a gather is within what its indices may be. -/
theorem gathBad_false {gath : Bool} (hp : s.boundPort s.gVreg = false) (h15 : fld (s.ro 2) 15 49 = 0) (h1 : 1 ≤ s.gCnt)
    (hn : s.gCnt ≤ (if s.gIw then 64 else 128))
    (hq : gath = true → s.fixPending (rdV s.gVreg) = false ∧ s.varPending (rdV s.gVreg) = false) : s.gathBad gath = false := by
  have h128 : s.gCnt ≤ 128 := by split at hn <;> omega
  have hiw : (s.gIw && decide (64 < s.gCnt)) = false := by
    cases hi : s.gIw with
    | false => rfl
    | true =>
      rw [hi, if_pos rfl] at hn
      simpa using hn
  have hpend : (gath && (s.fixPending (rdV s.gVreg) || s.varPending (rdV s.gVreg))) = false := by
    cases gath with
    | false => rfl
    | true =>
      obtain ⟨hf, hv⟩ := hq rfl
      rw [hf, hv]
      rfl
  have h0 : s.gCnt ≠ 0 := by omega
  unfold State.gathBad
  rw [h15, hp, hiw, hpend, decide_eq_false h0, decide_eq_false (show ¬ 128 < s.gCnt by omega)]
  rfl

theorem gather_retires {gath : Bool} (hpl : s.Plain [vb, s.gVreg]) (hbad : s.gathBad gath = false)
    (hi : s.CanIssue [rdV vb, rdV s.gVreg, rdM 0, rdC a]) (hfl : s.core.inFlight clsCopy < 256) (hh : readHdr (s.rc a) s = .ok h s1)
    (hp : GatherPasses s gath ((List.range s.gCnt).map (elem (s.rv vb) (if s.gIw then 16 else 8))) h) :
    gather st.val d a vb gath s = s.retire st.val (gatherDone s1 d gath (gatherCopy s gath vb h)) := by
  have hvb : s.boundPort vb = false := hpl.unbound vb List.mem_cons_self
  have hown : s.owned [vb, s.gVreg] = none := owned_free hpl.free
  have hport : ({ srcs := [vb] } : VUse).portBad s = false := by
    simp [VUse.portBad, writePort_unbound hvb]
  have hreads : ({ srcs := [vb] } : VUse).reads s = [rdV vb, rdM 0] := by
    simp [VUse.reads, hvb]
  rw [gather_eq]
  refine issue_retires (canIssue_mono hi ?_) ?_ hown ?_
  · intro r hr
    change r ∈ ({ srcs := [vb] } : VUse).reads s ++ ([rdC a] ++ (if gath then [] else [rdV s.gVreg])) at hr
    rw [hreads] at hr
    cases gath <;> simp only [List.mem_append, List.mem_cons, List.not_mem_nil, or_false, reduceIte, Bool.false_eq_true] at hr ⊢ <;> tauto
  · show (s.helper || s.gathBad gath || ({ srcs := [vb] } : VUse).portBad s) = false
    rw [hpl.h0, hbad, hport]
    rfl
  · rw [run_bind, get_run, andThen, run_bind, run_await, decide_eq_true hfl, if_pos rfl, andThen]
    refine vecRun_unbound (r := none) rfl (fun n hn => hpl.unbound n ?_) ?_
    · simp only [VUse.named, Option.toList_none, List.append_nil, List.mem_singleton] at hn
      exact hn ▸ List.mem_cons_self
    · rw [gatherBody, run_bind, get_run, andThen, run_bind, hh, andThen]
      exact gatherRest_run d a vb hp s1

/-- The context as it waits for a gather's register, before the identifier is written. -/
def gatherWaits (u : State) (gath : Bool) (ri : Nat) : State :=
  if gath then u.setCtx { u.ctx with pend := u.ctx.pend ++ [{ file := .v, idx := u.gVreg.val, op := jobKey clsCopy ri }] } else u

theorem gatherWaits_stands (u : State) (gath : Bool) (ri : Nat) :
    Stands u (gatherWaits u gath ri) ∧ ∀ n, (gatherWaits u gath ri).rc n = u.rc n := by
  unfold gatherWaits
  split
  · refine ⟨⟨rfl, ?_, ?_, ?_⟩, fun n => ?_⟩
    · rw [ctx_setCtx]
    · rw [ctx_setCtx]
    · rw [ctx_setCtx]
    · rw [State.rc, ctx_setCtx]
      rfl
  · exact ⟨.refl u, fun _ => rfl⟩

theorem gatherWaits_core (u : State) (gath : Bool) (ri : Nat) :
    (gatherWaits u gath ri).core = { u.core with ctxs := (gatherWaits u gath ri).core.ctxs } ∧
      (gatherWaits u gath ri).mem = u.mem := by
  unfold gatherWaits
  split <;> exact ⟨rfl, rfl⟩

/-- A register of another file waits as it did when C[d] is written. -/
theorem varPending_wc (u : State) (d : Fin 32) (v : Cap) (n : Fin 64) (st : Nat) (b : Bool) :
    ((u.wc d v).finish st b).varPending (rdV n) = u.varPending (rdV n) := by
  unfold State.varPending
  rw [finish_pend, State.wc, ctx_setCtx]
  unfold Ctx.wc
  split
  · rfl
  · rw [Bool.eq_iff_iff, List.any_eq_true, List.any_eq_true]
    constructor
    · rintro ⟨p, hp, hf⟩
      exact ⟨p, List.mem_of_mem_filter hp, hf⟩
    · rintro ⟨p, hp, hf⟩
      refine ⟨p, List.mem_filter.mpr ⟨hp, ?_⟩, hf⟩
      have hfile : p.file = .v := by
        simp only [VarPend.isFor, rdV, Bool.and_eq_true, beq_iff_eq] at hf
        exact hf.1
      simp [VarPend.isFor, hfile]

theorem gatherWaits_pends (u : State) (ri : Nat) : (gatherWaits u true ri).varPending (rdV u.gVreg) = true := by
  unfold gatherWaits
  rw [if_pos rfl, State.varPending, ctx_setCtx, List.any_eq_true]
  exact ⟨_, List.mem_append_right _ List.mem_cons_self, by simp [VarPend.isFor, rdV]⟩

/-- What a gather or scatter leaves: its job, its identifier, and for a gather the register that waits. -/
theorem gather_opens {gath : Bool} (hpl : s.Plain [vb, s.gVreg]) (hbad : s.gathBad gath = false)
    (hi : s.CanIssue [rdV vb, rdV s.gVreg, rdM 0, rdC a]) (hfl : s.core.inFlight clsCopy < 256) (hh : readHdr (s.rc a) s = .ok h s1)
    (hp : GatherPasses s gath ((List.range s.gCnt).map (elem (s.rv vb) (if s.gIw then 16 else 8))) h) :
    ∃ t jr, gather st.val d a vb gath s = .next t ∧ GoesOn s t ∧ t.core.jobs = s.core.jobs ++ [jr] ∧ jr.cls = clsCopy ∧
      jr.status = stPENDING ∧ jr.ctx = 0 ∧ jr.cp = some (gatherCopy s gath vb h) ∧ WroteC s t d (scalar jr.word) ∧
      (gath = true → t.varPending (rdV s.gVreg) = true) ∧ t.core.v = s.core.v ∧ ∀ q, memGet t.mem q = memGet s1.mem q := by
  have hld : Loads s s1 := readHdr_loads.ok hh
  obtain ⟨jr, hjr⟩ : ∃ jr, jr = newRec s1 clsCopy (fun j => { j with cp := some (gatherCopy s gath vb h) }) := ⟨_, rfl⟩
  obtain ⟨u, hu⟩ : ∃ u, u = (s1.openJob clsCopy (fun j => { j with cp := some (gatherCopy s gath vb h) })).1 := ⟨_, rfl⟩
  have hus : Stands s1 u := hu ▸ openJob_stands
  have huc : u.core = { s1.core with jobs := s1.core.jobs ++ [jr], ser := s1.core.ser + 1, ctxs := u.core.ctxs } := by
    rw [hu, hjr]
    exact openJob_core
  have hur (n : Fin 32) : u.rc n = s.rc n := by
    rw [hu, openJob_rc]
    exact hld.rc n
  obtain ⟨hws, hwr⟩ := gatherWaits_stands u gath jr.ri
  obtain ⟨hwc, hwm⟩ := gatherWaits_core u gath jr.ri
  have hdone : gatherDone s1 d gath (gatherCopy s gath vb h) = (gatherWaits u gath jr.ri).wx d jr.word := by
    rw [hu, hjr]
    rfl
  have hstands : Stands s ((gatherWaits u gath jr.ri).wx d jr.word) := ((hld.stands.trans hus).trans hws).trans (stands_wc _ _ _)
  have hcount : s.counter.val < 2 := by unfold State.counter; split <;> decide
  have hgv : u.gVreg = s.gVreg := by
    have hctx : u.ctx = s.ctx := by
      rw [hu, openJob_pending rfl]
      exact hld.ctx
    simp only [State.gVreg, State.ro, hctx]
  have hexec := gather_retires st d a vb hpl hbad hi hfl hh hp
  rw [hdone] at hexec
  refine ⟨_, jr, hexec, ?_, ?_, by rw [hjr]; rfl, by rw [hjr]; rfl, ?_, by rw [hjr]; rfl, ?_, ?_, ?_, ?_⟩
  · refine goesOn_finish hstands st.val ?_
    have he : ((gatherWaits u gath jr.ri).wx d jr.word).core.evc = s1.core.evc := by
      show (gatherWaits u gath jr.ri).core.evc = _
      rw [hwc, huc]
    rw [he]
    exact hld.evc _ hcount
  · rw [finish_core_eq]
    show (gatherWaits u gath jr.ri).core.jobs = _
    rw [hwc, huc]
    exact congrArg (· ++ [jr]) (hld.part Core.jobs)
  · rw [hjr]
    show s1.core.cur.val = 0
    rw [hld.part Core.cur]
    simpa [State.helper] using hpl.h0
  · exact wroteC_finish _ _ (wroteC_wc d _ (fun n => (hwr n).trans (hur n)))
  · intro hg
    subst hg
    rw [State.wx, varPending_wc, ← hgv]
    exact gatherWaits_pends u jr.ri
  · rw [finish_core_eq]
    show (gatherWaits u gath jr.ri).core.v = _
    rw [hwc, huc]
    exact hld.part Core.v
  · intro q
    rw [finish_mem]
    show memGet (gatherWaits u gath jr.ri).mem q = _
    rw [hwm, hu]
    rfl

/-- The operation of GATHST. -/
def gathstBody (d a b : Fin 32) : Op Unit := do
  let s ← get
  if 1 < (s.rx b).toNat then throw (.trap s.illegal)
  match (s.core.jobOf (s.rx a)).bind (fun j => j.cp.map (fun c => (j, c))) with
  | some (j, c) =>
    if c.kind == .gath || c.kind == .scat then
      await (j.status != stPENDING)
      upd fun s => s.wx d (BitVec.ofNat 64 (j.arrive.toNat / 2 ^ (64 * (s.rx b).toNat)))
    else upd fun s => s.wx d 0
  | none => upd fun s => s.wx d 0

theorem execGathst_eq : execGathst st d a b s =
    issue { st := st.val, ill := s.helper, reads := [rdC a, rdC b] } (gathstBody d a b) s := rfl

theorem gathst_unnamed (hh : s.helper = false) (hi : s.CanIssue [rdC a, rdC b]) (hb : (s.rx b).toNat ≤ 1)
    (hj : s.core.jobOf (s.rx a) = none) : WritesC s (execGathst st d a b s) d (scalar 0) := by
  refine writesC_of (st := st.val) ?_
  rw [execGathst_eq]
  refine issue_retires hi hh rfl ?_
  rw [gathstBody, run_bind, get_run, andThen, if_neg (by omega), hj]
  rfl

theorem gathst_half {j : JobRec} {cp : Copy} (hh : s.helper = false) (hi : s.CanIssue [rdC a, rdC b]) (hb : (s.rx b).toNat ≤ 1)
    (hj : s.core.jobOf (s.rx a) = some j) (hc : j.cp = some cp) (hk : cp.kind = .gath ∨ cp.kind = .scat)
    (hs : j.status ≠ stPENDING) :
    WritesC s (execGathst st d a b s) d (scalar (BitVec.ofNat 64 (j.arrive.toNat / 2 ^ (64 * (s.rx b).toNat)))) := by
  refine writesC_of (st := st.val) ?_
  have hkind : (cp.kind == .gath || cp.kind == .scat) = true := by simpa using hk
  have hfin : (j.status != stPENDING) = true := by simpa using hs
  rw [execGathst_eq]
  refine issue_retires hi hh rfl ?_
  rw [gathstBody, run_bind, get_run, andThen, if_neg (by omega), hj, Option.bind_some, hc]
  dsimp only [Option.map_some]
  rw [if_pos hkind, run_bind, hfin, await_true, andThen]
  rfl

end Gathers

/-- Settles O24: SBIND is its checks over the port unbound; a gather reads its header, which leaves the core's registers and records
as they were, and then opens its job. -/
theorem portsAndGathers : Obligations.PortsAndGathers := by
  unfold Obligations.PortsAndGathers
  intro s s1 st p a b d vb h j cp hh c cnt stride wr span lo hi port off perm inside even fails
  refine ⟨fun hq hi => ?_, fun hq h3 hi => ⟨fun hc => ?_, fun hc => ⟨fun hv => ?_, fun hv hp => ?_, fun hv hp hin => ?_,
    fun hv hp hin he => ?_⟩⟩, ?_, fun hi hb => ⟨fun hj => ?_, fun hj hc hk hs => ?_⟩⟩
  · refine ⟨_, ?_, setPort_retired st off⟩
    show execSunbind st p s = _
    rw [execSunbind_eq]
    exact issue_retires (t := s.unbind p) hi hh rfl (sunbind_run hq)
  · exact ⟨_, sbind_binds st hi hh h3 hq hc, setPort_retired st (boundTo s a b)⟩
  · exact sbind_fails st hi hh h3 hq hc (bindChecks_untagged s p a b hv _)
  · exact sbind_fails st hi hh h3 hq hc (bindChecks_unpermitted s p a b hv hp _)
  · exact sbind_fails st hi hh h3 hq hc (bindChecks_outside s p a b hv hp hin _)
  · exact sbind_fails st hi hh h3 hq hc (bindChecks_odd s p a b hv hp hin he _)
  · intro vr n iw es idxs job
    have opens (gath : Bool) (i : Instr) (he : exec i s = gather st.val d a vb gath s) : job gath i := by
      dsimp only [job]
      intro hpl h15 h1 hn hq hi hfl hread hbad hes hfit hglob htag hperm hin heven
      rw [he]
      have hpass : GatherPasses s gath ((List.range s.gCnt).map (elem (s.rv vb) (if s.gIw then 16 else 8))) h :=
        ⟨hbad, hes, hfit, hglob, htag, hperm, fun k hk => by exact_mod_cast hin k hk, heven⟩
      exact gather_opens st d a vb hpl
        (gathBad_false (hpl.unbound vr (List.mem_cons_of_mem _ List.mem_cons_self)) h15 h1 hn hq) hi hfl hread hpass
    exact ⟨opens true _ rfl, opens false _ rfl⟩
  · exact gathst_unnamed st d a b hh hi hb hj
  · exact gathst_half st d a b hh hi hb hj hc hk hs

end Sys2Proof.Proofs
end

section
/-! PROOFS. The sorting instructions (R161 to R168): one stable order, registers of lanes, and the family's frame. -/
namespace Sys2Proof.Proofs
open Sys2Proof Sys2Proof.Machine Sys2Proof.Laws
set_option Elab.async false

/-! ### The elements of a register built from a list -/

theorem joinElems_div_mod (w : Nat) (xs : List Nat) (e : Nat) : joinElems w xs / 2 ^ (w * e) % 2 ^ w = xs.getD e 0 % 2 ^ w := by
  induction xs generalizing e with
  | nil => simp [joinElems]
  | cons x xs ih =>
    cases e with
    | zero => simp [joinElems]
    | succ e =>
      have hpos : 0 < 2 ^ w := by positivity
      have hx : (x % 2 ^ w + 2 ^ w * joinElems w xs) / 2 ^ w = joinElems w xs := by
        rw [Nat.add_mul_div_left _ _ hpos, Nat.div_eq_of_lt (Nat.mod_lt _ hpos), Nat.zero_add]
      rw [joinElems, Nat.mul_succ, Nat.add_comm (w * e), Nat.pow_add, ← Nat.div_div_eq_div_mul, hx, ih]
      rfl

/-- Part of a number below the width it is cut to. -/
theorem mod_div_mod {x n a w : Nat} (h : a + w ≤ n) : x % 2 ^ n / 2 ^ a % 2 ^ w = x / 2 ^ a % 2 ^ w := by
  apply Nat.eq_of_testBit_eq
  intro i
  simp only [Nat.testBit_mod_two_pow, Nat.testBit_div_two_pow]
  by_cases hi : i < w
  · have hin : i + a < n := by omega
    simp [hi, hin]
  · simp [hi]

theorem elem_ofElems {w : Nat} (xs : List Nat) {e : Nat} (h : w * e + w ≤ 1024) : elem (ofElems w xs) w e = xs.getD e 0 % 2 ^ w := by
  unfold elem elemN ofElems
  rw [BitVec.toNat_ofNat, mod_div_mod h, joinElems_div_mod]

theorem elem_ofLanes (xs : List Nat) {e : Nat} (h : e < 32) : elem (ofLanes xs) 32 e = xs.getD e 0 % 2 ^ 32 :=
  elem_ofElems xs (by omega)

/-- A register of lanes has the elements of its list. -/
theorem hasElems_ofLanes {xs : List Nat} {f : Nat → Nat} (h : ∀ e < 32, xs.getD e 0 = f e) : HasElems (ofLanes xs) 32 f := by
  intro e he
  have he32 : e < 32 := he
  rw [elem_ofLanes xs he32, h e he32]

/-! ### The order (R161) -/

section Order

variable {kord t : Nat} {ptie : Bool} {x y z : TElem}

theorem before_irrefl : before kord t ptie x x = false := by
  unfold before strictKey
  cases keyRank kord t x.key <;> simp

/-- Elements at different positions stand in one order or the other. -/
theorem before_total (h : x.pos ≠ y.pos) (hn : before kord t ptie x y = false) : before kord t ptie y x = true := by
  unfold before at hn ⊢
  generalize hxy : strictKey kord t x.key y.key = kxy at hn ⊢
  generalize hyx : strictKey kord t y.key x.key = kyx at hn ⊢
  cases kxy <;> cases kyx <;> cases ptie <;> simp at hn ⊢
  · omega
  · by_cases hp : x.pay = y.pay
    · simp [hp] at hn ⊢
      omega
    · have hp' : y.pay ≠ x.pay := fun e => hp e.symm
      simp [hp, hp'] at hn ⊢
      omega

theorem before_trans (hxy : before kord t ptie x y = true) (hyz : before kord t ptie y z = true) :
    before kord t ptie x z = true := by
  unfold before strictKey at *
  generalize keyRank kord t x.key = rx at *
  generalize keyRank kord t y.key = ry at *
  generalize keyRank kord t z.key = rz at *
  cases rx <;> cases ry <;> cases rz <;> simp at hxy hyz ⊢ <;> grind

/-- The elements stand in the order of R161. -/
def InOrder (lt : TElem → TElem → Bool) (xs : List TElem) : Prop := xs.Pairwise (fun x y => lt x y = true)

theorem insertTE_perm (lt : TElem → TElem → Bool) (x : TElem) (ys : List TElem) : (insertTE lt x ys).Perm (x :: ys) := by
  induction ys with
  | nil => exact .refl _
  | cons y ys ih =>
    rw [insertTE]
    split
    · exact .refl _
    · exact (ih.cons y).trans (.swap x y ys)

theorem sortTE_perm (lt : TElem → TElem → Bool) (xs : List TElem) : (sortTE lt xs).Perm xs := by
  induction xs with
  | nil => exact .refl _
  | cons x xs ih => exact (insertTE_perm lt x _).trans (ih.cons x)

theorem insertTE_inOrder {ys : List TElem} (h : InOrder (before kord t ptie) ys) (hpos : ∀ y ∈ ys, x.pos ≠ y.pos) :
    InOrder (before kord t ptie) (insertTE (before kord t ptie) x ys) := by
  induction ys with
  | nil => exact List.pairwise_singleton _ _
  | cons y ys ih =>
    obtain ⟨hy, hys⟩ := List.pairwise_cons.mp h
    rw [insertTE]
    split
    case isTrue hlt =>
      refine List.pairwise_cons.mpr ⟨fun z hz => ?_, h⟩
      rcases List.mem_cons.mp hz with rfl | hz
      · exact hlt
      · exact before_trans hlt (hy z hz)
    case isFalse hlt =>
      refine List.pairwise_cons.mpr ⟨fun z hz => ?_, ih hys fun w hw => hpos w (List.mem_cons_of_mem _ hw)⟩
      rcases List.mem_cons.mp ((insertTE_perm _ x ys).mem_iff.mp hz) with rfl | hz
      · exact before_total (hpos y List.mem_cons_self) (by simpa using hlt)
      · exact hy z hz

/-- The elements sorted, where no two stand at one position. -/
theorem sortTE_inOrder {xs : List TElem} (h : xs.Pairwise (fun x y => x.pos ≠ y.pos)) :
    InOrder (before kord t ptie) (sortTE (before kord t ptie) xs) := by
  induction xs with
  | nil => exact List.Pairwise.nil
  | cons x xs ih =>
    obtain ⟨hx, hxs⟩ := List.pairwise_cons.mp h
    exact insertTE_inOrder (ih hxs) fun y hy => hx y ((sortTE_perm _ xs).mem_iff.mp hy)

theorem lanes_positions (f g : Nat → Nat) (p n : Nat) :
    ((List.range n).map (fun j => (⟨f j, g j, p + j⟩ : TElem))).Pairwise (fun x y => x.pos ≠ y.pos) := by
  rw [List.pairwise_map]
  exact (List.nodup_range (n := n)).imp (fun h => by simpa using h)

theorem pair_positions (f g f' g' : Nat → Nat) :
    ((List.range 32).map (fun j => (⟨f j, g j, 0 + j⟩ : TElem)) ++
      (List.range 32).map (fun j => (⟨f' j, g' j, 32 + j⟩ : TElem))).Pairwise (fun x y => x.pos ≠ y.pos) := by
  refine List.pairwise_append.mpr ⟨lanes_positions f g 0 32, lanes_positions f' g' 32 32, fun x hx y hy => ?_⟩
  obtain ⟨i, hi, rfl⟩ := List.mem_map.mp hx
  obtain ⟨j, -, rfl⟩ := List.mem_map.mp hy
  have := List.mem_range.mp hi
  simp only
  omega

end Order

/-! ### The family's frame (R162, R163) -/

/-- An operation with a plain destination puts its result there. -/
theorem vecRun_writes {s t : State} {u : VUse} {d : Fin 64} {v : VReg} {body : (Fin 64 → VReg) → Op (Option VReg)}
    (hd : u.dst = some d) (hu : ∀ n ∈ u.named, s.boundPort n = false) (hb : body s.rv s = .ok (some v) t) :
    vecRun u none body s = .ok () (t.wv d v) := by
  have hbusy : u.named.any s.portBusy = false :=
    List.any_eq_false.mpr fun n hn => by simp [portBusy_unbound (hu n hn)]
  have hsrc : ∀ n ∈ dedupV u.srcs, s.boundPort n = false := fun n hn =>
    hu n (by simp [VUse.named, mem_of_mem_dedupV hn])
  have hport : s.port d = none := port_none (hu d (by simp [VUse.named, hd]))
  have hpop : popLoad [] s = .ok [] s := rfl
  unfold vecRun
  rw [bind_ok (get_run s), hbusy, Bool.not_false, bind_ok (await_true s), bind_ok (popSegs_unbound hsrc), hd]
  dsimp only
  rw [hport, bind_ok (pure_run none s), bind_ok hpop, bind_ok (get_run s)]
  exact (bind_ok (f := body s.rv) hb).trans rfl

section Frame

variable {s : State}

theorem wv_stands (hh : s.helper = false) (d : Fin 64) (v : VReg) :
    Stands s (s.wv d v) ∧ (∀ n, (s.wv d v).rc n = s.rc n) ∧ (s.wv d v).ctx.o = s.ctx.o := by
  have hcur : s.core.cur = 0 := by simpa [State.helper] using hh
  have hx : (s.wv d v).ctx = s.ctx.drop .v d := by
    simp [State.wv, State.dropH0, State.ctx, hcur]
  exact ⟨⟨rfl, by rw [hx]; rfl, by rw [hx]; rfl, by rw [hx]; rfl⟩, fun n => by rw [State.rc, hx]; rfl, by rw [hx]; rfl⟩

theorem wv_core (d : Fin 64) (v : VReg) :
    (s.wv d v).core = { s.core with ctxs := (s.wv d v).core.ctxs, v := s.core.v.set d v } ∧ s.wv d v = { s with core := (s.wv d v).core } :=
  ⟨rfl, rfl⟩

/-- Where a sorting instruction puts its results. -/
def trestlePut (idx : Bool) (d : Fin 64) (x y : VReg) (s : State) : State :=
  if idx then (s.wv d x).wv (succV d) y else s.wv d x

/-- The v registers then. -/
def putV (idx : Bool) (d : Fin 64) (x y : VReg) (v : Vector VReg 64) : Vector VReg 64 :=
  if idx then (v.set d x).set (succV d) y else v.set d x

theorem trestlePut_facts (hh : s.helper = false) (idx : Bool) (d : Fin 64) (x y : VReg) :
    Stands s (trestlePut idx d x y s) ∧ (∀ n, (trestlePut idx d x y s).rc n = s.rc n) ∧ (trestlePut idx d x y s).ctx.o = s.ctx.o ∧
      (trestlePut idx d x y s).core = { s.core with ctxs := (trestlePut idx d x y s).core.ctxs, v := putV idx d x y s.core.v } ∧
      trestlePut idx d x y s = { s with core := (trestlePut idx d x y s).core } := by
  obtain ⟨hs, hr, ho⟩ := wv_stands hh d x
  unfold trestlePut putV
  split
  · have hh' : (s.wv d x).helper = false := hh
    obtain ⟨hs', hr', ho'⟩ := wv_stands hh' (succV d) y
    exact ⟨hs.trans hs', fun n => (hr' n).trans (hr n), ho'.trans ho, rfl, rfl⟩
  · exact ⟨hs, hr, ho, rfl, rfl⟩

theorem nanMet_eq (b : Bool) : s.nanMet b = { s with core := { s.core with oc := { s.core.oc with nans := s.core.oc.nans || b } } } := by
  cases b with
  | false =>
    rw [Bool.or_false]
    rfl
  | true =>
    rw [Bool.or_true]
    rfl

/-- What every sorting instruction leaves as it was. -/
structure TrestleFrame (s t : State) (nans : Bool) (v : Vector VReg 64) : Prop where
  adv  : Advanced s t
  core : t.core = { s.core with ctxs := t.core.ctxs, evc := t.core.evc, v := v, oc := { s.core.oc with nans := nans } }
  rest : t = { s with core := t.core }
  c    : ∀ k, t.rc k = s.rc k
  o    : t.ctx.o = s.ctx.o

theorem trestle_frame (hh : s.helper = false) (st : Nat) (b idx : Bool) (d : Fin 64) (x y : VReg) :
    TrestleFrame s ((trestlePut idx d x y (s.nanMet b)).finish st s.ctx.loop.lact) (s.core.oc.nans || b) (putV idx d x y s.core.v) := by
  obtain ⟨u, hu⟩ : ∃ u, u = s.nanMet b := ⟨_, rfl⟩
  have hue := nanMet_eq (s := s) b
  rw [← hu] at hue ⊢
  have huh : u.helper = false := by rw [hue]; exact hh
  have hus : Stands s u := by rw [hue]; exact stands_of_ctx rfl rfl
  obtain ⟨hs, hr, ho, hc, he⟩ := trestlePut_facts huh idx d x y
  refine ⟨advanced_finish (hus.trans hs) st ?_, ?_, ?_, fun k => ?_, ?_⟩
  · rw [hc, hue]
  · rw [finish_core_eq, hc, hue]
  · rw [(finish_onlyContext _ _ _).rest, he, hue]
  · rw [rc_finish, hr, hue]
    rfl
  · rw [finish_o, ho, hue]
    rfl

/-- The gate of the family passes over plain registers. -/
theorem trestle_retires {st : Nat} {d : Fin 64} {srcs payOf keys ns : List (Fin 64)} {rs : List (RegFile × Nat)} {ill idx : Bool}
    {f : State → (Fin 64 → VReg) → VReg × VReg} (hpl : s.Plain ns) (hi : s.CanIssue rs) (hbad : s.trestleBad = false) (hill : ill = false)
    (hpair : idx = true → s.pairBad (d :: payOf) = false)
    (hns : ∀ n ∈ (trestleUse idx d srcs).named ++ (if idx then payOf.map succV else []), n ∈ ns)
    (hrs : ∀ r ∈ srcs.map rdV ++ [rdM 0] ++ (if idx then payOf.map succV else []).map rdV, r ∈ rs) :
    trestle st d srcs payOf ill idx keys f s = s.retire st (trestlePut idx d (f s s.rv).1 (f s s.rv).2
      (s.nanMet (tKORD (s.ro 3) = 0 && keys.any (fun n => hasNan s.vt (s.rv n))))) := by
  have hunb (n : Fin 64) (hn : n ∈ (trestleUse idx d srcs).named) : s.boundPort n = false :=
    hpl.unbound n (hns n (List.mem_append_left _ hn))
  have hown : s.owned ((trestleUse idx d srcs).named ++ (if idx then payOf.map succV else [])) = none :=
    owned_free fun hm n hn => hpl.free hm n (hns n hn)
  have hsrc (n : Fin 64) (hn : n ∈ srcs) : s.boundPort n = false :=
    hunb n (by cases idx <;> simp [trestleUse, VUse.named, hn])
  have hport : (trestleUse idx d srcs).portBad s = false := by
    have hw : srcs.any s.writePort = false := List.any_eq_false.mpr fun n hn => by simp [writePort_unbound (hsrc n hn)]
    cases idx with
    | false =>
      have hd := hunb d (by simp [trestleUse, VUse.named])
      simp [trestleUse, VUse.portBad, hw, readPort_unbound hd, writePort_unbound hd]
    | true =>
      have hd := hunb d (by simp [trestleUse, VUse.named])
      have hd' := hunb (succV d) (by simp [trestleUse, VUse.named])
      simp [trestleUse, VUse.portBad, hw, hd, hd']
  have hreads : (trestleUse idx d srcs).reads s = srcs.map rdV ++ [rdM 0] := by
    have hf : srcs.filter (fun n => !s.boundPort n) = srcs := List.filter_eq_self.mpr fun n hn => by simp [hsrc n hn]
    cases idx <;> simp [trestleUse, VUse.reads, hf]
  unfold trestle
  refine issue_retires (canIssue_mono hi fun r hr => hrs r ?_) ?_ hown ?_
  · rw [← hreads]
    exact hr
  · show (s.helper || (s.trestleBad || ill || (idx && s.pairBad (d :: payOf))) || (trestleUse idx d srcs).portBad s) = false
    have hp : (idx && s.pairBad (d :: payOf)) = false := by
      cases idx with
      | false => rfl
      | true => exact hpair rfl
    rw [hpl.h0, hbad, hill, hp, hport]
    rfl
  · cases idx with
    | false => exact vecRun_writes (d := d) (v := (f s s.rv).1) rfl hunb rfl
    | true => exact vecRun_unbound (r := none) rfl hunb rfl

end Frame

/-! ### Lanes of a list -/

section Lists

theorem getD_map_proj (p : TElem → Nat) (hp : p {} = 0) (ys : List TElem) (i : Nat) :
    (ys.map p).getD i 0 = p ((ys[i]?).getD {}) := by
  rw [List.getD_eq_getElem?_getD, List.getElem?_map]
  cases ys[i]? with
  | none => exact hp.symm
  | some y => rfl

theorem getD_take (xs : List Nat) (k i : Nat) : (xs.take k).getD i 0 = if i < k then xs.getD i 0 else 0 := by
  rw [List.getD_eq_getElem?_getD, List.getElem?_take]
  split
  · rw [List.getD_eq_getElem?_getD]
  · rfl

theorem getD_drop (xs : List Nat) (k i : Nat) : (xs.drop k).getD i 0 = xs.getD (k + i) 0 := by
  rw [List.getD_eq_getElem?_getD, List.getElem?_drop, List.getD_eq_getElem?_getD]

theorem getD_map_range (f : Nat → Nat) {n i : Nat} (h : i < n) : ((List.range n).map f).getD i 0 = f i := by
  rw [List.getD_eq_getElem?_getD, List.getElem?_map, List.getElem?_range h]
  rfl

/-- A part of a list of elements, as lanes. -/
theorem getD_window (p : TElem → Nat) (hp : p {} = 0) (ys : List TElem) (o k i : Nat) :
    (((ys.drop o).take k).map p).getD i 0 = if i < k then p ((ys[o + i]?).getD {}) else 0 := by
  rw [List.map_take, List.map_drop, getD_take, getD_drop, getD_map_proj p hp]

end Lists

/-! ### Keys that are no numbers (R160, R161) -/

theorem keyRank_none {ty : Nat} (h : ty ∈ [4, 5, 10]) (raw : Nat) :
    (keyRank 0 ty raw).isNone = (ty == 10 && decide (0x7F800000 < raw % 2 ^ 31)) := by
  unfold keyRank
  by_cases h10 : ty = 10
  · subst h10
    rw [if_pos rfl]
    dsimp only
    by_cases hm : 0x7F800000 < raw % 2 ^ 31
    · rw [if_pos hm, decide_eq_true hm]
      rfl
    · rw [if_neg hm, decide_eq_false hm]
      rfl
  · have hb : (ty == 10) = false := by simpa using h10
    rw [if_neg h10, hb]
    rfl

theorem hasNan_eq {ty : Nat} (h : ty ∈ [4, 5, 10]) (v : VReg) :
    hasNan ty v = (List.range 32).any (fun j => ty == 10 && decide (0x7F800000 < elem v 32 j % 2 ^ 31)) := by
  unfold hasNan lane
  simp only [keyRank_none h]

/-! ### The instructions (R164 to R168) -/

section Instructions

variable {s : State} {ty : Nat} (st : Fin 8) (d a b : Fin 64)

/-- Whether a sorting instruction meets a NaN under KORD 0. -/
def nanSeen (s : State) (ty : Nat) (ns : List (Fin 64)) : Bool :=
  s.core.oc.nans || (fld (s.ro 3) 0 2 == 0 && ns.any (fun n => (List.range 32).any (fun j =>
    ty == 10 && decide (0x7F800000 < elem (s.rv n) 32 j % 2 ^ 31))))

theorem nanSeen_eq (hty : ty ∈ [4, 5, 10]) (hvt : s.vt = ty) (keys : List (Fin 64)) :
    (s.core.oc.nans || (tKORD (s.ro 3) = 0 && keys.any (fun n => hasNan s.vt (s.rv n)))) = nanSeen s ty keys := by
  unfold nanSeen tKORD
  rw [hvt]
  simp only [hasNan_eq hty]
  rfl

theorem trestleBad_false (hty : ty ∈ [4, 5, 10]) (ht : s.Typed ty) (h17 : fld (s.ro 3) 17 47 = 0) (h3 : fld (s.ro 3) 0 2 ≠ 3) :
    s.trestleBad = false := by
  have hkey : tyKey ty = true := by
    clear ht
    revert ty
    decide
  unfold State.trestleBad tKORD
  rw [h17, decide_eq_false h3, vtBad_typed ht hkey]
  rfl

/-- A sorting instruction with one result. -/
theorem trestle_one {st : Fin 8} {d : Fin 64} {srcs payOf keys ns : List (Fin 64)} {rs : List (RegFile × Nat)} {ill : Bool}
    {f : State → (Fin 64 → VReg) → VReg × VReg} (g : Nat → Nat) (hty : ty ∈ [4, 5, 10]) (ht : s.Typed ty)
    (h17 : fld (s.ro 3) 17 47 = 0) (h3 : fld (s.ro 3) 0 2 ≠ 3) (hpl : s.Plain ns) (hi : s.CanIssue rs) (hill : ill = false)
    (hns : ∀ n ∈ srcs ++ [d], n ∈ ns) (hrs : ∀ r ∈ srcs.map rdV ++ [rdM 0], r ∈ rs) (he : HasElems (f s s.rv).1 32 g) :
    ∃ t v, trestle st.val d srcs payOf ill false keys f s = .next t ∧ TrestleFrame s t (nanSeen s ty keys) t.core.v ∧
      t.core.v = s.core.v.set d v ∧ HasElems v 32 g := by
  have hf := trestle_frame hpl.h0 st.val (tKORD (s.ro 3) = 0 && keys.any (fun n => hasNan s.vt (s.rv n))) false d
    (f s s.rv).1 (f s s.rv).2
  rw [nanSeen_eq hty ht.2.1] at hf
  have hv := congrArg Core.v hf.core
  refine ⟨_, (f s s.rv).1, trestle_retires (idx := false) hpl hi (trestleBad_false hty ht h17 h3) hill nofun ?_ ?_, ?_, hv, he⟩
  · intro n hn
    exact hns n (by simpa [trestleUse, VUse.named] using hn)
  · intro r hr
    exact hrs r (by simpa using hr)
  · rw [hv]
    exact hf

/-- A sorting instruction with a result in a pair of registers. -/
theorem trestle_two {st : Fin 8} {d : Fin 64} {srcs payOf keys ns : List (Fin 64)} {rs : List (RegFile × Nat)} {ill : Bool}
    {f : State → (Fin 64 → VReg) → VReg × VReg} (g g' : Nat → Nat) (hty : ty ∈ [4, 5, 10]) (ht : s.Typed ty)
    (h17 : fld (s.ro 3) 17 47 = 0) (h3 : fld (s.ro 3) 0 2 ≠ 3) (hpl : s.Plain ns) (hi : s.CanIssue rs) (hill : ill = false)
    (h63 : ∀ n ∈ d :: payOf, n ≠ 63) (hns : ∀ n ∈ srcs ++ [d, d + 1] ++ payOf.map succV, n ∈ ns)
    (hrs : ∀ r ∈ srcs.map rdV ++ [rdM 0] ++ (payOf.map succV).map rdV, r ∈ rs) (hp : ∀ n ∈ d :: payOf, succV n ∈ ns)
    (he : HasElems (f s s.rv).1 32 g) (he' : HasElems (f s s.rv).2 32 g') :
    ∃ t v w, trestle st.val d srcs payOf ill true keys f s = .next t ∧ TrestleFrame s t (nanSeen s ty keys) t.core.v ∧
      t.core.v = (s.core.v.set d v).set (d + 1 : Fin 64) w ∧ HasElems v 32 g ∧ HasElems w 32 g' := by
  have hf := trestle_frame hpl.h0 st.val (tKORD (s.ro 3) = 0 && keys.any (fun n => hasNan s.vt (s.rv n))) true d
    (f s s.rv).1 (f s s.rv).2
  rw [nanSeen_eq hty ht.2.1] at hf
  have hv := congrArg Core.v hf.core
  have hpair : s.pairBad (d :: payOf) = false :=
    List.any_eq_false.mpr fun n hn => by simp [h63 n hn, hpl.unbound _ (hp n hn)]
  refine ⟨_, (f s s.rv).1, (f s s.rv).2,
    trestle_retires (idx := true) hpl hi (trestleBad_false hty ht h17 h3) hill (fun _ => hpair) ?_ ?_, ?_, hv, he, he'⟩
  · intro n hn
    exact hns n (by simpa [trestleUse, VUse.named, succV] using hn)
  · intro r hr
    exact hrs r (by simpa using hr)
  · rw [hv]
    exact hf

/-- The lanes of a key register with its payloads. -/
def lanesOf (s : State) (n : Fin 64) (p : Nat) : List TElem :=
  (List.range 32).map (fun j => ⟨elem (s.rv n) 32 j, elem (s.rv (if (s.ro 3).getLsbD 2 then n + 1 else n)) 32 j, p + j⟩)

theorem lanesTE_eq (n : Fin 64) (p : Nat) : lanesTE (s.rv n) (payReg s s.rv n) p = lanesOf s n p := by
  unfold lanesTE payReg lanesOf tIDX succV lane
  split <;> rfl

theorem pair64_eq : pair64 s s.rv a b = lanesOf s a 0 ++ lanesOf s b 32 := by
  rw [pair64, lanesTE_eq, lanesTE_eq]

/-- The order in force, as o3 and the type name it. -/
theorem tOrder_eq (hvt : s.vt = ty) : s.tOrder = before (fld (s.ro 3) 0 2) ty ((s.ro 3).getLsbD 3) := by
  unfold State.tOrder tKORD tPTIE
  rw [hvt]

/-- The sort of VSORT's lanes. -/
def sortedLanes (s : State) (ty : Nat) (a b : Fin 64) : List TElem :=
  sortTE (before (fld (s.ro 3) 0 2) ty ((s.ro 3).getLsbD 3))
    ((List.range 32).map (fun j => ⟨elem (s.rv a) 32 j, elem (s.rv b) 32 j, j⟩))

theorem lanes_plain (a b : Fin 64) :
    lanesTE (s.rv a) (s.rv b) 0 = (List.range 32).map (fun j => ⟨elem (s.rv a) 32 j, elem (s.rv b) 32 j, j⟩) := by
  unfold lanesTE lane
  simp only [Nat.zero_add]

theorem sorted_pays (hvt : s.vt = ty) {e : Nat} :
    ((sortTE s.tOrder (lanesTE (s.rv a) (s.rv b) 0)).map (·.pay)).getD e 0 = (((sortedLanes s ty a b)[e]?).getD {}).pay := by
  rw [tOrder_eq hvt, lanes_plain, getD_map_proj TElem.pay rfl]
  rfl

theorem rank_elems (hvt : s.vt = ty) {e : Nat} (h : e < 32) :
    ((lanesOf s a 0).map (fun j => (lanesOf s a 0).countP (fun i => s.tOrder i j))).getD e 0 =
      (lanesOf s a 0).countP (fun x => before (fld (s.ro 3) 0 2) ty ((s.ro 3).getLsbD 3) x (((lanesOf s a 0)[e]?).getD {})) := by
  have hlen : e < (lanesOf s a 0).length := by simpa [lanesOf] using h
  rw [List.getD_eq_getElem?_getD, List.getElem?_map, List.getElem?_eq_getElem hlen, tOrder_eq hvt]
  rfl

section Each

variable (hty : ty ∈ [4, 5, 10]) (ht : s.Typed ty) (h17 : fld (s.ro 3) 17 47 = 0) (h3 : fld (s.ro 3) 0 2 ≠ 3)
include hty ht h17 h3

theorem vsort_one (hidx : tIDX (s.ro 3) = false) (hpl : s.Plain [a, b, d]) (hi : s.CanIssue [rdV a, rdV b, rdM 0]) :
    ∃ t v, execVsort st d a b s = .next t ∧ TrestleFrame s t (nanSeen s ty [a]) t.core.v ∧ t.core.v = s.core.v.set d v ∧
      HasElems v 32 (fun i => (((sortedLanes s ty a b)[i]?).getD {}).pay) := by
  unfold execVsort
  exact trestle_one _ hty ht h17 h3 hpl hi hidx (by simp) (by simp) (hasElems_ofLanes fun e _ => sorted_pays a b ht.2.1)

theorem vtopk_one (hidx : tIDX (s.ro 3) = false) (hpl : s.Plain [a, b, d]) (hi : s.CanIssue [rdV a, rdV b, rdM 0])
    (hk1 : 1 ≤ tK (s.ro 3)) (hk : tK (s.ro 3) ≤ 32) :
    ∃ t v, execVtopk st d a b s = .next t ∧ TrestleFrame s t (nanSeen s ty [a]) t.core.v ∧ t.core.v = s.core.v.set d v ∧
      HasElems v 32 (fun i => if i < tK (s.ro 3) then (((sortedLanes s ty a b)[i]?).getD {}).pay else 0) := by
  have hill : (tIDX (s.ro 3) || decide (tK (s.ro 3) = 0) || decide (32 < tK (s.ro 3))) = false := by
    rw [hidx, decide_eq_false (by omega), decide_eq_false (by omega)]
    rfl
  unfold execVtopk
  refine trestle_one _ hty ht h17 h3 hpl hi hill (by simp) (by simp) (hasElems_ofLanes fun e _ => ?_)
  rw [getD_take, sorted_pays a b ht.2.1]

/-- The 64 elements of two operands, sorted. -/
def sortedPair (s : State) (ty : Nat) (a b : Fin 64) : List TElem :=
  sortTE (before (fld (s.ro 3) 0 2) ty ((s.ro 3).getLsbD 3)) (lanesOf s a 0 ++ lanesOf s b 32)

omit hty h17 h3 in
theorem sortx_elems (p : TElem → Nat) (hp : p {} = 0) {e : Nat} (he : e < 32) :
    ((((sortTE s.tOrder (pair64 s s.rv a b)).drop (32 * tHALF (s.ro 3))).take 32).map p).getD e 0 =
      p (((sortedPair s ty a b)[32 * tHALF (s.ro 3) + e]?).getD {}) := by
  rw [getD_window p hp, if_pos he, tOrder_eq ht.2.1, pair64_eq]
  rfl

theorem vsortx_one (hidx : tIDX (s.ro 3) = false) (hpl : s.Plain [a, b, d]) (hi : s.CanIssue [rdV a, rdV b, rdM 0]) :
    ∃ t v, execVsortx st d a b s = .next t ∧ TrestleFrame s t (nanSeen s ty [a, b]) t.core.v ∧ t.core.v = s.core.v.set d v ∧
      HasElems v 32 (fun i => (((sortedPair s ty a b)[32 * tHALF (s.ro 3) + i]?).getD {}).key) := by
  unfold execVsortx
  rw [hidx]
  exact trestle_one _ hty ht h17 h3 hpl hi rfl (by simp) (by simp)
    (hasElems_ofLanes fun e he => sortx_elems a b ht TElem.key rfl he)

theorem vsortx_two (hidx : tIDX (s.ro 3) = true) (h63 : ∀ n ∈ [d, a, b], n ≠ 63) (hpl : s.Plain [a, b, d, a + 1, b + 1, d + 1])
    (hi : s.CanIssue [rdV a, rdV b, rdM 0, rdV (a + 1), rdV (b + 1)]) :
    ∃ t v w, execVsortx st d a b s = .next t ∧ TrestleFrame s t (nanSeen s ty [a, b]) t.core.v ∧
      t.core.v = (s.core.v.set d v).set (d + 1 : Fin 64) w ∧
      HasElems v 32 (fun i => (((sortedPair s ty a b)[32 * tHALF (s.ro 3) + i]?).getD {}).key) ∧
      HasElems w 32 (fun i => (((sortedPair s ty a b)[32 * tHALF (s.ro 3) + i]?).getD {}).pay) := by
  unfold execVsortx
  rw [hidx]
  exact trestle_two _ _ hty ht h17 h3 hpl hi rfl h63 (by simp [succV]) (by simp [succV]) (by simp [succV])
    (hasElems_ofLanes fun e he => sortx_elems a b ht TElem.key rfl he)
    (hasElems_ofLanes fun e he => sortx_elems a b ht TElem.pay rfl he)

/-- The merge network over two operands (R166). -/
def mergedPair (s : State) (ty : Nat) (a b : Fin 64) : List TElem :=
  [32, 16, 8, 4, 2, 1].foldl (mergeStage (before (fld (s.ro 3) 0 2) ty ((s.ro 3).getLsbD 3)))
    ((lanesOf s a 0 ++ lanesOf s b 32).take 32 ++ ((lanesOf s a 0 ++ lanesOf s b 32).drop 32).reverse)

omit hty h17 h3 in
theorem merge_elems (p : TElem → Nat) (hp : p {} = 0) {e : Nat} :
    (((([32, 16, 8, 4, 2, 1].foldl (mergeStage s.tOrder)
      ((pair64 s s.rv a b).take 32 ++ ((pair64 s s.rv a b).drop 32).reverse)).drop (32 * tHALF (s.ro 3))).take
        (tK (s.ro 3))).map p).getD e 0 =
      if e < tK (s.ro 3) then p (((mergedPair s ty a b)[32 * tHALF (s.ro 3) + e]?).getD {}) else 0 := by
  rw [getD_window p hp, tOrder_eq ht.2.1, pair64_eq]
  rfl

omit hty ht h17 h3 in
theorem mergek_legal (hk1 : 1 ≤ tK (s.ro 3)) (hk : tK (s.ro 3) ≤ 32) :
    (decide (tK (s.ro 3) = 0) || decide (32 < tK (s.ro 3))) = false := by
  rw [decide_eq_false (by omega), decide_eq_false (by omega)]
  rfl

theorem vmergek_one (hidx : tIDX (s.ro 3) = false) (hpl : s.Plain [a, b, d]) (hi : s.CanIssue [rdV a, rdV b, rdM 0])
    (hk1 : 1 ≤ tK (s.ro 3)) (hk : tK (s.ro 3) ≤ 32) :
    ∃ t v, execVmergek st d a b s = .next t ∧ TrestleFrame s t (nanSeen s ty [a, b]) t.core.v ∧ t.core.v = s.core.v.set d v ∧
      HasElems v 32 (fun i => if i < tK (s.ro 3) then (((mergedPair s ty a b)[32 * tHALF (s.ro 3) + i]?).getD {}).key else 0) := by
  unfold execVmergek
  rw [hidx]
  exact trestle_one _ hty ht h17 h3 hpl hi (mergek_legal hk1 hk) (by simp) (by simp)
    (hasElems_ofLanes fun e _ => merge_elems a b ht TElem.key rfl)

theorem vmergek_two (hidx : tIDX (s.ro 3) = true) (h63 : ∀ n ∈ [d, a, b], n ≠ 63) (hpl : s.Plain [a, b, d, a + 1, b + 1, d + 1])
    (hi : s.CanIssue [rdV a, rdV b, rdM 0, rdV (a + 1), rdV (b + 1)]) (hk1 : 1 ≤ tK (s.ro 3)) (hk : tK (s.ro 3) ≤ 32) :
    ∃ t v w, execVmergek st d a b s = .next t ∧ TrestleFrame s t (nanSeen s ty [a, b]) t.core.v ∧
      t.core.v = (s.core.v.set d v).set (d + 1 : Fin 64) w ∧
      HasElems v 32 (fun i => if i < tK (s.ro 3) then (((mergedPair s ty a b)[32 * tHALF (s.ro 3) + i]?).getD {}).key else 0) ∧
      HasElems w 32 (fun i => if i < tK (s.ro 3) then (((mergedPair s ty a b)[32 * tHALF (s.ro 3) + i]?).getD {}).pay else 0) := by
  unfold execVmergek
  rw [hidx]
  exact trestle_two _ _ hty ht h17 h3 hpl hi (mergek_legal hk1 hk) h63 (by simp [succV]) (by simp [succV]) (by simp [succV])
    (hasElems_ofLanes fun e _ => merge_elems a b ht TElem.key rfl)
    (hasElems_ofLanes fun e _ => merge_elems a b ht TElem.pay rfl)

theorem vrank_one (hidx : tIDX (s.ro 3) = false) (hpl : s.Plain [a, d]) (hi : s.CanIssue [rdV a, rdM 0]) :
    ∃ t v, execVrank st d a s = .next t ∧ TrestleFrame s t (nanSeen s ty [a]) t.core.v ∧ t.core.v = s.core.v.set d v ∧
      HasElems v 32 (fun i => (lanesOf s a 0).countP
        (fun x => before (fld (s.ro 3) 0 2) ty ((s.ro 3).getLsbD 3) x (((lanesOf s a 0)[i]?).getD {}))) := by
  unfold execVrank
  rw [hidx]
  refine trestle_one _ hty ht h17 h3 hpl hi rfl (by simp) (by simp) (hasElems_ofLanes fun e he => ?_)
  rw [lanesTE_eq]
  exact rank_elems a ht.2.1 he

theorem vrank_two (hidx : tIDX (s.ro 3) = true) (h63 : ∀ n ∈ [d, a], n ≠ 63) (hpl : s.Plain [a, b, d, a + 1, b + 1, d + 1])
    (hi : s.CanIssue [rdV a, rdV b, rdM 0, rdV (a + 1), rdV (b + 1)]) :
    ∃ t v w, execVrank st d a s = .next t ∧ TrestleFrame s t (nanSeen s ty [a]) t.core.v ∧
      t.core.v = (s.core.v.set d v).set (d + 1 : Fin 64) w ∧
      HasElems v 32 (fun i => (lanesOf s a 0).countP
        (fun x => before (fld (s.ro 3) 0 2) ty ((s.ro 3).getLsbD 3) x (((lanesOf s a 0)[i]?).getD {}))) ∧
      HasElems w 32 (fun i => (((sortTE (before (fld (s.ro 3) 0 2) ty ((s.ro 3).getLsbD 3)) (lanesOf s a 0))[i]?).getD {}).pay) := by
  unfold execVrank
  rw [hidx]
  refine trestle_two _ _ hty ht h17 h3 hpl hi rfl h63 (by simp [succV]) (by simp [succV]) (by simp [succV])
    (hasElems_ofLanes fun e he => ?_) (hasElems_ofLanes fun e _ => ?_)
  · rw [lanesTE_eq]
    exact rank_elems a ht.2.1 he
  · rw [lanesTE_eq, tOrder_eq ht.2.1]
    exact getD_map_proj TElem.pay rfl _ _

/-- A lane after one compare-exchange stage (R168). -/
def stepLane (s : State) (ty : Nat) (a b : Fin 64) (i : Nat) : Nat :=
  let p := i ^^^ 2 ^ fld (s.ro 3) 11 3
  let lo := min i p
  let hi := max i p
  let up := lo / 2 ^ fld (s.ro 3) 14 3 % 2 = 0
  let k := strictKey (fld (s.ro 3) 0 2) ty
  let sw := if up then k (elem (s.rv a) 32 hi) (elem (s.rv a) 32 lo) else k (elem (s.rv a) 32 lo) (elem (s.rv a) 32 hi)
  elem (s.rv b) 32 (if sw then p else i)

theorem vbstep_one (hidx : tIDX (s.ro 3) = false) (hpl : s.Plain [a, b, d]) (hi : s.CanIssue [rdV a, rdV b, rdM 0])
    (h4 : tSDIST (s.ro 3) ≤ 4) (h5 : tSBLK (s.ro 3) ≤ 5) (hlt : tSDIST (s.ro 3) < tSBLK (s.ro 3)) :
    ∃ t v, execVbstep st d a b s = .next t ∧ TrestleFrame s t (nanSeen s ty [a]) t.core.v ∧ t.core.v = s.core.v.set d v ∧
      HasElems v 32 (stepLane s ty a b) := by
  have hill : (tIDX (s.ro 3) || decide (4 < tSDIST (s.ro 3)) || decide (tSBLK (s.ro 3) = 0) || decide (5 < tSBLK (s.ro 3)) ||
      decide (tSBLK (s.ro 3) ≤ tSDIST (s.ro 3))) = false := by
    rw [hidx, decide_eq_false (by omega), decide_eq_false (by omega), decide_eq_false (by omega), decide_eq_false (by omega)]
    rfl
  unfold execVbstep
  refine trestle_one _ hty ht h17 h3 hpl hi hill (by simp) (by simp) (hasElems_ofLanes fun e he => ?_)
  rw [getD_map_range _ he, show s.vt = ty from ht.2.1]
  rfl

end Each

end Instructions

/-- Settles O25: the insertion sort gives the permutation that ascends in the order of R161, since elements at different positions
compare one way and the order is transitive; the rest is the family's frame and the lanes of a list. -/
theorem trestleOrders : Obligations.TrestleOrders := by
  unfold Obligations.TrestleOrders
  intro s ty st d a b hty ht o kord idx half k sd sb bef l sorted nth nans frame one two pays lanes xs h17 h3
  have hmerge : sorted xs (sortedPair s ty a b) := ⟨sortTE_perm bef xs, sortTE_inOrder (pair_positions _ _ _ _)⟩
  have hone {i : Instr} {ns : List (Fin 64)} {g : Nat → Nat}
      (h : ∃ t v, exec i s = .next t ∧ TrestleFrame s t (nanSeen s ty ns) t.core.v ∧ t.core.v = s.core.v.set d v ∧ HasElems v 32 g) :
      one i ns g := by
    obtain ⟨t, v, hx, hf, hv, he⟩ := h
    exact ⟨t, v, hx, ⟨hf.adv, hf.core, hf.rest, hf.c, hf.o⟩, hv, he⟩
  have htwo {i : Instr} {ns : List (Fin 64)} {g g' : Nat → Nat}
      (h : ∃ t v w, exec i s = .next t ∧ TrestleFrame s t (nanSeen s ty ns) t.core.v ∧
        t.core.v = (s.core.v.set d v).set (d + 1 : Fin 64) w ∧ HasElems v 32 g ∧ HasElems w 32 g') : two i ns g g' := by
    obtain ⟨t, v, w, hx, hf, hv, he⟩ := h
    exact ⟨t, v, w, hx, ⟨hf.adv, hf.core, hf.rest, hf.c, hf.o⟩, hv, he⟩
  refine ⟨fun hidx hpl hi => ?_, fun hidx hpl hi => hone (vrank_one st d a hty ht h17 h3 hidx hpl hi),
    fun hidx hd ha hb hpl hi => ?_⟩
  · refine ⟨⟨sortedLanes s ty a b, ⟨sortTE_perm _ _, sortTE_inOrder ?_⟩, hone (vsort_one st d a b hty ht h17 h3 hidx hpl hi),
      fun hk1 hk => hone (vtopk_one st d a b hty ht h17 h3 hidx hpl hi hk1 hk)⟩,
      ⟨sortedPair s ty a b, hmerge, hone (vsortx_one st d a b hty ht h17 h3 hidx hpl hi)⟩,
      fun hk1 hk => hone (vmergek_one st d a b hty ht h17 h3 hidx hpl hi hk1 hk), fun h4 h5 hlt => hone ?_⟩
    · have := lanes_positions (fun j => l a j) (fun j => l b j) 0 32
      simpa only [Nat.zero_add] using this
    · have hlane : stepLane s ty a b = _ := funext fun i => apply_ite (elem (s.rv b) 32) _ _ _
      exact hlane ▸ vbstep_one st d a b hty ht h17 h3 hidx hpl hi h4 h5 hlt
  · have h63 : ∀ n ∈ [d, a, b], n ≠ 63 := by simp [hd, ha, hb]
    refine ⟨⟨sortedPair s ty a b, hmerge, htwo (vsortx_two st d a b hty ht h17 h3 hidx h63 hpl hi)⟩,
      fun hk1 hk => htwo (vmergek_two st d a b hty ht h17 h3 hidx h63 hpl hi hk1 hk),
      ⟨_, ⟨sortTE_perm bef _, sortTE_inOrder (lanes_positions _ _ 0 32)⟩,
        htwo (vrank_two st d a b hty ht h17 h3 hidx (by simp [hd, ha]) hpl hi)⟩⟩

end Sys2Proof.Proofs
end

section
/-! PROOFS. What instructions that send or open a job leave as it was; and the grouped commit instructions (R306, R307, R313,
R425). -/
namespace Sys2Proof.Proofs
open Sys2Proof Sys2Proof.Machine Sys2Proof.Laws
set_option Elab.async false

/-! ### Sending and opening at the core in focus -/

/-- A state without what sending and opening a job may change of it, and without its cores. -/
def unoffered (s : State) : State := { unsent s with recents := [], known := [] }

/-- A core without its books of jobs and operations, its contexts and counters. -/
def unbooked (c : Core) : Core :=
  { c with ctxs := Vector.replicate 11 {}, evc := Vector.replicate 11 0, srctr := 0, jobs := [], ser := 0, ops := [], otag := 0,
           msent := 0, held := [], sent := [] }

/-- From `s` to `t` the issuing context has sent, opened jobs and written its own registers; others may have woken. -/
structure Offers (s t : State) : Prop where
  rest   : unoffered t = unoffered s
  core   : unbooked t.core = unbooked s.core
  others : ∀ h : Fin 11, h ≠ s.core.cur → t.core.ctxs[h] = s.core.ctxs[h] ∨ t.core.ctxs[h] = s.core.ctxs[h].wakeUp

section Offering

variable {s₀ s t u : State}

theorem Offers.refl (s : State) : Offers s s := ⟨rfl, rfl, fun _ _ => .inl rfl⟩

theorem Offers.corePart {α : Type} (h : Offers s t) (part : Core → α) (hp : ∀ c, part (unbooked c) = part c := by intro; rfl) :
    part t.core = part s.core := (hp _).symm.trans ((congrArg part h.core).trans (hp _))

theorem Offers.part {α : Type} (h : Offers s t) (part : State → α) (hp : ∀ s, part (unoffered s) = part s := by intro; rfl) :
    part t = part s := (hp _).symm.trans ((congrArg part h.rest).trans (hp _))

theorem wakeUp_wakeUp (x : Ctx) : x.wakeUp.wakeUp = x.wakeUp := by
  cases hw : x.wait <;> simp [Ctx.wakeUp, hw]

theorem Offers.trans (h : Offers s₀ s) (h' : Offers s t) : Offers s₀ t := by
  refine ⟨h'.rest.trans h.rest, h'.core.trans h.core, fun k hk => ?_⟩
  have hcur : s.core.cur = s₀.core.cur := h.corePart Core.cur
  rcases h'.others k (by rw [hcur]; exact hk) with e' | e' <;> rcases h.others k hk with e | e <;> rw [e', e]
  · exact .inl rfl
  · exact .inr rfl
  · exact .inr rfl
  · exact .inr (wakeUp_wakeUp _)

theorem Sent.offers (h : Sent s t) : Offers s t :=
  ⟨congrArg (fun x : State => { x with recents := [], known := [] }) h.rest,
    show unbooked (uncounted t.core) = unbooked (uncounted s.core) from congrArg unbooked h.core,
    fun k _ => .inl (h.corePart (fun c => c.ctxs[k]))⟩

theorem opOpened_offers (me : Nat × Nat) (p : Packet) (f : RemOp → RemOp) : Offers s (opOpened s me p f) :=
  ⟨rfl, rfl, fun _ _ => .inl rfl⟩

theorem openJob_offers (cls : Nat) (f : JobRec → JobRec) : Offers s (s.openJob cls f).1 :=
  ⟨by rw [openJob_rest]; rfl, by rw [openJob_core]; rfl, fun k _ => openJob_ctxs k⟩

theorem edge_offers (a b : Nat × Nat) : Offers s (s.edge a b) := ⟨rfl, rfl, fun _ _ => .inl rfl⟩

theorem setCtx_offers (x : Ctx) : Offers s (s.setCtx x) := by
  refine ⟨rfl, rfl, fun k hk => .inl ?_⟩
  have : s.core.cur.val ≠ k.val := fun e => hk (Fin.ext e.symm)
  simp [State.setCtx, this]

theorem finish_offers (st : Nat) (b : Bool) : Offers s (s.finish st b) := by
  refine ⟨?_, ?_, fun k hk => .inl ((finish_onlyContext s st b).others k hk)⟩
  · rw [(finish_onlyContext s st b).rest]
    rfl
  · rw [finish_core_eq]
    rfl

/-- What an instruction that sends or opens a job leaves, as the statements say it. -/
theorem Offers.onlySends (h : Offers s t) (ho : t.ctx.o = s.ctx.o) : OnlySends s t where
  rest := congrArg (fun x : State => { x with core := t.core, net := t.net, ptx := t.ptx, links := t.links, recents := t.recents,
                                              known := t.known }) h.rest
  core := congrArg (fun c : Core => { c with ctxs := t.core.ctxs, evc := t.core.evc, srctr := t.core.srctr, jobs := t.core.jobs,
                                             ser := t.core.ser, ops := t.core.ops, otag := t.core.otag, msent := t.core.msent,
                                             held := t.core.held, sent := t.core.sent }) h.core
  others := h.others
  o := ho

/-- Sending leaves the issuing context where it is. -/
theorem Sent.stands (h : Sent s t) : Stands s t := stands_of_ctx (h.corePart Core.cur) (h.corePart (fun c => c.ctxs[c.cur]))

theorem Sent.ctx (h : Sent s t) : t.ctx = s.ctx := h.corePart (fun c => c.ctxs[c.cur])

theorem opOpened_ctx (me : Nat × Nat) (p : Packet) (f : RemOp → RemOp) : (opOpened s me p f).ctx = s.ctx := rfl

/-- An AM of the core in focus: its operation in the core's books, its packet on the way, its context as it was. -/
structure SendsOp (s t : State) (x : RemOp) : Prop where
  offers : Offers s t
  ctx    : t.ctx = s.ctx
  cur    : t.core.cur = s.core.cur
  evc    : t.core.evc = s.core.evc
  ops    : t.core.ops = s.core.ops ++ [x]
  jobs   : t.core.jobs = s.core.jobs
  ser    : t.core.ser = s.core.ser
  id     : t.core.id = s.core.id

theorem sendFrom_sendsOp {me : Nat × Nat} {p : Packet} {f : RemOp → RemOp} (hr : p.rest = [])
    (hid : s.core.id < 4096 ∨ p.handler < 8 ∨ 10 ≤ p.handler ∧ p.handler ≤ 12) :
    SendsOp s (s.sendFrom me p f).1 (sentOp s p f) := by
  have h := sendFrom_sent (s := s) (me := me) (f := f) hr hid
  exact ⟨(opOpened_offers me p f).trans h.offers, h.ctx, h.corePart Core.cur, h.corePart Core.evc, h.corePart Core.ops,
    h.corePart Core.jobs, h.corePart Core.ser, h.corePart Core.id⟩

theorem SendsOp.stands {x : RemOp} (h : SendsOp s t x) : Stands s t := stands_of_ctx h.cur h.ctx

theorem SendsOp.rc {x : RemOp} (h : SendsOp s t x) (n : Fin 32) : t.rc n = s.rc n := congrArg (fun x : Ctx => x.rc n) h.ctx

theorem stands_setCtx {x : Ctx} (hp : x.pcc = s.ctx.pcc) (hn : x.npc = s.ctx.npc) (hl : x.loop = s.ctx.loop) : Stands s (s.setCtx x) :=
  ⟨rfl, by rw [ctx_setCtx, hp], by rw [ctx_setCtx, hn], by rw [ctx_setCtx, hl]⟩

/-- A register waits for the answer to an operation. -/
theorem awaitReg_facts (d : Fin 32) (tag : Nat) : Stands s (s.awaitReg d tag) ∧ (∀ n, (s.awaitReg d tag).rc n = s.rc n) ∧
    (s.awaitReg d tag).ctx.o = s.ctx.o ∧ Offers s (s.awaitReg d tag) ∧ (s.awaitReg d tag).core = { s.core with ctxs := (s.awaitReg d tag).core.ctxs } ∧
    (d ≠ 0 → { file := .c, idx := d.val, op := tag, val := none } ∈ (s.awaitReg d tag).ctx.pend) := by
  unfold State.awaitReg
  split
  case isTrue h => exact ⟨.refl s, fun _ => rfl, rfl, .refl s, rfl, fun hd => absurd h hd⟩
  case isFalse h =>
    refine ⟨stands_setCtx rfl rfl rfl, fun n => ?_, ?_, setCtx_offers _, rfl, fun _ => ?_⟩
    · rw [State.rc, ctx_setCtx]
      rfl
    · rw [ctx_setCtx]
      rfl
    · rw [ctx_setCtx]
      exact List.mem_append_right _ List.mem_cons_self

end Offering

/-! ### The commit agent's packets -/

/-- A core without its records, its count of messages and what its contexts wait for. -/
def unpoked (c : Core) : Core := { c with jobs := [], msent := 0, ctxs := c.ctxs.map (fun x => { x with wait := .none }) }

/-- From `s` to `t` a unit has sent, and jobs may have completed: the core's contexts stand where they stood. -/
structure Tells (s t : State) : Prop where
  core    : unpoked t.core = unpoked s.core
  commits : t.commits = s.commits

section Agent

variable {s₀ s t : State}

theorem Tells.refl (s : State) : Tells s s := ⟨rfl, rfl⟩

theorem Tells.trans (h : Tells s₀ s) (h' : Tells s t) : Tells s₀ t := ⟨h'.core.trans h.core, h'.commits.trans h.commits⟩

/-- A part of the core that telling leaves. -/
theorem corePart_unpoked {α : Type} (h : unpoked t.core = unpoked s.core) (part : Core → α)
    (hp : ∀ c, part (unpoked c) = part c) : part t.core = part s.core := (hp _).symm.trans ((congrArg part h).trans (hp _))

theorem ctxPart_unpoked {α : Type} (h : unpoked t.core = unpoked s.core) (part : Ctx → α)
    (hp : ∀ x w, part { x with wait := w } = part x := by intros; rfl) : part t.ctx = part s.ctx :=
  corePart_unpoked h (fun c => part c.ctxs[c.cur]) fun c => by
    have he : (unpoked c).ctxs[(unpoked c).cur] = { c.ctxs[c.cur] with wait := .none } := by simp [unpoked]
    rw [he, hp]

theorem stands_unpoked (h : unpoked t.core = unpoked s.core) : Stands s t :=
  ⟨corePart_unpoked h Core.cur fun _ => rfl, ctxPart_unpoked h Ctx.pcc, ctxPart_unpoked h Ctx.npc, ctxPart_unpoked h Ctx.loop⟩

theorem rc_unpoked (h : unpoked t.core = unpoked s.core) (n : Fin 32) : t.rc n = s.rc n := ctxPart_unpoked h (fun x => x.rc n)

theorem evc_unpoked (h : unpoked t.core = unpoked s.core) : t.core.evc = s.core.evc := corePart_unpoked h Core.evc fun _ => rfl

theorem Sent.tells (h : Sent s t) : Tells s t :=
  ⟨show unpoked (uncounted t.core) = unpoked (uncounted s.core) from congrArg unpoked h.core, h.part State.commits⟩

/-- A packet of one operation is for a core by its handler (R297). -/
theorem ops_toCore {q : Packet} (hr : q.rest = []) (hc : q.ops.any Packet.toCore = true) :
    64 ≤ q.handler ∨ q.handler = 8 ∨ q.handler = 9 ∨ q.handler = 13 := by
  have hops : q.ops = [q.first] := by
    rw [Packet.ops, hr]
    rfl
  rw [hops, List.any_cons, List.any_nil, Bool.or_false] at hc
  simp only [Packet.toCore, Packet.first, Bool.and_eq_true, Bool.or_eq_true, beq_iff_eq] at hc
  obtain ⟨-, ((h | h) | h) | h⟩ := hc
  · exact .inl (of_decide_eq_true h)
  · exact .inr (.inl h)
  · exact .inr (.inr (.inl h))
  · exact .inr (.inr (.inr h))

/-- A unit's operation in its books. -/
def unitNoted (s : State) (p : Packet) : State :=
  { s with utag := nextTag s.utag, uops := s.uops ++ [{ tag := s.utag, ctx := 0, pkt := { p with kind := 1, otag := s.utag } }] }

theorem unitOp_tells {p : Packet} (hr : p.rest = []) (hh : p.handler < 8) : Tells s (s.unitOp p) := by
  have h : Sent (unitNoted s p) (s.unitOp p) := by
    refine send_sent (fun _ hc => ?_) (Sent.refl (unitNoted s p))
    have hcase : 64 ≤ p.handler ∨ p.handler = 8 ∨ p.handler = 9 ∨ p.handler = 13 :=
      ops_toCore (q := { p with kind := 1, otag := s.utag }) hr hc
    omega
  exact (show Tells s (unitNoted s p) from ⟨rfl, rfl⟩).trans h.tells

theorem replyTo_tells (p : Packet) (status : Nat) (data : List Byte) : Tells s (s.replyTo p status data) := by
  unfold State.replyTo State.replyFrom
  exact (send_sent (fun h1 => absurd h1 (show (2 : Nat) ≠ 1 by decide)) (Sent.refl s)).tells

theorem foldl_tells {α : Type} {f : State → α → State} (hf : ∀ s a, Tells s (f s a)) (xs : List α) : Tells s (xs.foldl f s) := by
  induction xs generalizing s with
  | nil => exact .refl s
  | cons x xs ih => exact (hf s x).trans ih

theorem tellParts_tells (src grp : Nat) {handler : Nat} (hh : handler < 8) : Tells s (s.tellParts src grp handler) := by
  unfold State.tellParts
  split
  · exact .refl s
  · exact foldl_tells (fun _ _ => unitOp_tells rfl hh) _

theorem completeJob_unpoked (c : Core) (cls ri : Nat) (f : JobRec → JobRec) : unpoked (c.completeJob cls ri f) = unpoked c := by
  have hm : (c.ctxs.map Ctx.wakeUp).map (fun x => { x with wait := .none }) = c.ctxs.map (fun x => { x with wait := .none }) := by
    rw [Vector.map_map]
    congr 1
    funext x
    show ({ x.wakeUp with wait := .none } : Ctx) = { x with wait := .none }
    rw [wakeUp_eq]
  exact congrArg (fun xs => { unpoked c with ctxs := xs }) hm

theorem completeFor_tells (asid e cls ri : Nat) (f : JobRec → JobRec) : Tells s (s.completeFor asid e cls ri f) := by
  unfold State.completeFor State.mapCore
  dsimp only
  split
  · split
    · exact ⟨completeJob_unpoked _ _ _ _, rfl⟩
    · exact ⟨rfl, rfl⟩
  · exact ⟨rfl, rfl⟩

theorem answerHeld_tells (src grp : Nat) (w : Word) : Tells s (s.answerHeld src grp w) :=
  (show Tells s { s with heldQ := s.heldQ.filter (fun p => !(pktSrc p == src && pktGrp p == grp)) } from ⟨rfl, rfl⟩).trans
    (foldl_tells (fun _ _ => replyTo_tells _ _ _) _)

/-! ### Commit records -/

theorem commitOf_mapCommit {src grp : Nat} {f : Commit → Commit} (hf : ∀ c, (f c).src = c.src ∧ (f c).grp = c.grp) :
    (s.mapCommit src grp f).commitOf src grp = (s.commitOf src grp).map f := by
  unfold State.commitOf State.mapCommit
  dsimp only
  induction s.commits with
  | nil => rfl
  | cons c cs ih =>
    rw [List.map_cons, List.find?_cons, List.find?_cons]
    by_cases hc : (c.src == src && c.grp == grp) = true
    · have hfc : ((f c).src == src && (f c).grp == grp) = true := by
        rw [(hf c).1, (hf c).2]
        exact hc
      rw [if_pos (show c.is src grp = true from hc), hfc, hc]
      rfl
    · rw [if_neg (show ¬ c.is src grp = true from hc)]
      rw [Bool.not_eq_true] at hc
      rw [hc]
      exact ih

theorem commitOf_is {src grp : Nat} {c : Commit} (h : s.commitOf src grp = some c) : c.src = src ∧ c.grp = grp := by
  have := List.find?_some h
  simpa using this

theorem commitOf_same {src grp : Nat} (h : t.commits = s.commits) : t.commitOf src grp = s.commitOf src grp := by
  unfold State.commitOf
  rw [h]

/-- A decided record stands in place of the one of its group. -/
theorem commitDone_facts {src grp : Nat} {c : Commit} (st : CommitSt) (h : s.commitOf src grp = some c) :
    unpoked (s.commitDone c st).core = unpoked s.core ∧ (s.commitDone c st).commitOf src grp = some { c with st := st } := by
  obtain ⟨hsrc, hgrp⟩ := commitOf_is h
  obtain ⟨v, hv⟩ : ∃ v, v = s.mapCommit c.src c.grp (fun _ => { c with st := st }) := ⟨_, rfl⟩
  have hvc : unpoked v.core = unpoked s.core := by rw [hv]; rfl
  have hmap : s.mapCommit c.src c.grp (fun _ => { c with st := st }) =
      s.mapCommit c.src c.grp (fun x => if x.is c.src c.grp then { c with st := st } else x) := by
    unfold State.mapCommit
    congr 1
    exact List.map_congr_left fun x _ => by by_cases hx : x.is c.src c.grp = true <;> simp [hx]
  have hvo : v.commitOf src grp = some { c with st := st } := by
    have hkeep (x : Commit) : (if x.is c.src c.grp then { c with st := st } else x).src = x.src ∧
        (if x.is c.src c.grp then { c with st := st } else x).grp = x.grp := by
      split
      case isTrue hx =>
        simp only [Commit.is, Bool.and_eq_true, beq_iff_eq] at hx
        exact ⟨hx.1.symm, hx.2.symm⟩
      case isFalse => exact ⟨rfl, rfl⟩
    rw [hv, hmap, hsrc, hgrp]
    rw [hsrc, hgrp] at hkeep
    rw [commitOf_mapCommit hkeep, h, Option.map_some, if_pos (by simp [Commit.is, hsrc, hgrp])]
  have htail : Tells v (s.commitDone c st) := by
    unfold State.commitDone
    dsimp only
    rw [← hv]
    refine Tells.trans ?_ (answerHeld_tells _ _ _)
    split
    · refine Tells.trans ?_ (completeFor_tells _ _ _ _ _)
      split
      · exact ⟨rfl, rfl⟩
      · exact .refl v
    · exact .refl v
  exact ⟨htail.core.trans hvc, (commitOf_same htail.commits).trans hvo⟩

theorem finishCommit_facts {src grp : Nat} {c : Commit} (h : s.commitOf src grp = some c) (hc : c.st = .discarding) :
    unpoked (s.finishCommit src grp).core = unpoked s.core ∧
      ((s.finishCommit src grp).commitOf src grp = some c ∨ (s.finishCommit src grp).commitOf src grp = some { c with st := .discarded }) := by
  unfold State.finishCommit
  rw [h]
  dsimp only
  split
  · exact ⟨rfl, .inl h⟩
  · rw [hc, if_neg (show ¬ (CommitSt.discarding == .publishing) = true by decide)]
    split
    · obtain ⟨hcore, hof⟩ := commitDone_facts .discarded h
      exact ⟨hcore, .inr hof⟩
    · exact ⟨rfl, .inl h⟩

/-- A record as its group goes to DISCARDING (R308). -/
def discardingAs (f : Commit → Commit) (c : Commit) : Commit :=
  { f c with st := .discarding, parts := c.parts.map (fun q => { q with acked := false }) }

/-- A group that is discarded: its participants are told, and its record says so. -/
theorem discardGroup_facts {src grp : Nat} {c : Commit} {f : Commit → Commit} (hf : ∀ c, (f c).src = c.src ∧ (f c).grp = c.grp)
    (h : s.commitOf src grp = some c) :
    unpoked (s.discardGroup src grp f).core = unpoked s.core ∧
      ∃ e, (s.discardGroup src grp f).commitOf src grp = some e ∧ (e.st = .discarding ∨ e.st = .discarded) ∧ e.why = (f c).why := by
  obtain ⟨v, hv⟩ : ∃ v, v = s.mapCommit src grp (discardingAs f) := ⟨_, rfl⟩
  have hvo : v.commitOf src grp = some (discardingAs f c) := by
    rw [hv, commitOf_mapCommit (f := discardingAs f) hf, h]
    rfl
  have ht := tellParts_tells (s := v) src grp (show 6 < 8 by decide)
  obtain ⟨hcore, hof⟩ := finishCommit_facts ((commitOf_same ht.commits).trans hvo) rfl
  have hd : s.discardGroup src grp f = (v.tellParts src grp 6).finishCommit src grp := by
    rw [hv]
    rfl
  rw [hd]
  refine ⟨(hcore.trans ht.core).trans (by rw [hv]; rfl), ?_⟩
  rcases hof with hof | hof
  · exact ⟨_, hof, .inl rfl, rfl⟩
  · exact ⟨_, hof, .inr rfl, rfl⟩

end Agent

/-! ### GCOMMIT and GABORT (R306, R307) -/

section Instructions

variable {s : State} (st : Fin 8) (d a : Fin 32) {c : Commit}

theorem finish_commits (s : State) (st : Nat) (b : Bool) : (s.finish st b).commits = s.commits := by
  rw [(finish_onlyContext s st b).rest]

/-- An instruction whose operands are ILLEGAL. -/
theorem legal_traps {g : Gate} {k : Unit → Op Unit} {b : Bool} (hi : s.CanIssue g.reads) (hg : g.ill = false) (ha : g.acc = none)
    (hb : b = false) (body : Op Unit) (hrun : body s = (legal b >>= k) s) :
    Traps s (issue g body s) .illegal (s.ctx.ir.zeroExtend 80) := by
  refine issue_traps hi hg ha ?_
  rw [hrun, hb, run_bind, run_legal]
  rfl

theorem unlessAhead_runs {body : Op Unit} (h : s.ctx.ahead = false) : unlessAhead body s = body s := by
  unfold unlessAhead
  rw [run_bind, get_run, andThen, h]
  rfl

theorem run_legal_true {b : Bool} (h : b = true) : legal b s = .ok () s := by
  rw [run_legal, if_pos h]

/-- The operation of GCOMMIT. -/
def gcommitBody (d a : Fin 32) : Op Unit := do
  let s ← get
  let grp := (s.rx a).toNat
  let c := s.commitOf s.myEid grp
  legal (hiClear (s.rx a) 16 && c.any (fun c => c.st == .open_ && !c.asked))
  let (s, j) := s.openJob clsCommit (fun j => { j with group := grp })
  let s := s.mapCommit s.myEid grp (fun c => { c with asked := true, job := some j.ri })
  set ((s.edge s.thread (groupThread s.myEid grp)).wx d j.word)

theorem execGcommit_eq : execGcommit st d a s = issue { st := st.val, reads := [rdC a] } (unlessAhead (gcommitBody d a)) s := rfl

theorem gcommit_illegal (hi : s.CanIssue [rdC a]) (hah : s.ctx.ahead = false)
    (h : 2 ^ 16 ≤ (s.rx a).toNat ∨ s.commitOf s.myEid (s.rx a).toNat = none ∨ ∃ c, s.commitOf s.myEid (s.rx a).toNat = some c ∧
      (c.st ≠ .open_ ∨ c.asked = true)) : Traps s (execGcommit st d a s) .illegal (s.ctx.ir.zeroExtend 80) := by
  rw [execGcommit_eq]
  refine legal_traps (g := { st := st.val, reads := [rdC a] }) hi rfl rfl ?_ _ (unlessAhead_runs hah)
  rcases h with h | h | ⟨c, h, hc⟩
  · rw [(hiClear_false_iff _ _).mpr h, Bool.false_and]
  · rw [h, Option.any_none, Bool.and_false]
  · rw [h, Option.any_some]
    rcases hc with hc | hc
    · simp [hc]
    · simp [hc]

/-- The record of a group that GCOMMIT has asked for. -/
def askedBy (ri : Nat) (c : Commit) : Commit := { c with asked := true, job := some ri }

/-- The state in which a GCOMMIT's job stands open. -/
def gcommitted (s : State) (d : Fin 32) (g : Nat) : State :=
  let j := newRec s clsCommit (fun j => { j with group := g })
  let s := (s.openJob clsCommit (fun j => { j with group := g })).1
  let s := s.mapCommit s.myEid g (askedBy j.ri)
  (s.edge s.thread (groupThread s.myEid g)).wx d j.word

theorem gcommit_opens {g : Nat} (hi : s.CanIssue [rdC a]) (hah : s.ctx.ahead = false) (hg : (s.rx a).toNat = g) (h16 : g < 2 ^ 16)
    (hc : s.commitOf s.myEid g = some c) (ho : c.st = .open_) (hn : c.asked = false) :
    ∃ t r, execGcommit st d a s = .next t ∧ Advanced s t ∧ Opens s t d 3 r ∧ r.status = stPENDING ∧ r.group = g ∧
      t.commitOf s.myEid g = some { c with asked := true, job := some r.ri } ∧
      t = { s with core := t.core, commits := t.commits, recents := t.recents, known := t.known } := by
  obtain ⟨r, hr⟩ : ∃ r, r = newRec s clsCommit (fun j => { j with group := g }) := ⟨_, rfl⟩
  obtain ⟨u, hu⟩ : ∃ u, u = (s.openJob clsCommit (fun j => { j with group := g })).1 := ⟨_, rfl⟩
  obtain ⟨v, hv⟩ : ∃ v, v = (u.mapCommit u.myEid g (askedBy r.ri)).edge u.thread (groupThread u.myEid g) := ⟨_, rfl⟩
  have hpend : u = jobOpened s clsCommit (fun j => { j with group := g }) := hu.trans (openJob_pending rfl)
  have hvs : Stands s v := by rw [hv, hpend]; exact stands_of_ctx rfl rfl
  have hlegal : (hiClear (s.rx a) 16 && (s.commitOf s.myEid (s.rx a).toNat).any (fun c => c.st == .open_ && !c.asked)) = true := by
    rw [(hiClear_iff _ _).mpr (hg ▸ h16), hg, hc, Option.any_some, ho, hn]
    rfl
  have hexec : execGcommit st d a s = s.retire st.val (v.wx d r.word) := by
    rw [execGcommit_eq]
    refine issue_retires (g := { st := st.val, reads := [rdC a] }) hi rfl rfl ?_
    rw [unlessAhead_runs hah, gcommitBody, run_bind, get_run, andThen, run_bind, run_legal_true hlegal, andThen, hg, hv, hu, hr]
    rfl
  refine ⟨_, r, hexec, advanced_finish (hvs.trans (stands_wc _ _ _)) st.val (by rw [hv, hpend]; rfl), ⟨?_, by rw [hr]; rfl, by rw [hr]; rfl,
    ?_, ?_⟩, by rw [hr]; rfl, by rw [hr]; rfl, ?_, ?_⟩
  · rw [finish_core_eq, hv, hpend, hr]
    rfl
  · rw [finish_core_eq, hv, hpend]
    rfl
  · exact wroteC_finish _ _ (wroteC_wc d _ fun n => by rw [hv, hpend]; rfl)
  · have hof : (u.mapCommit s.myEid g (askedBy r.ri)).commitOf s.myEid g = some (askedBy r.ri c) := by
      rw [commitOf_mapCommit (f := askedBy r.ri) (fun c => ⟨rfl, rfl⟩), hpend]
      exact congrArg (Option.map (askedBy r.ri)) hc
    refine (commitOf_same ?_).trans hof
    rw [finish_commits, hv, hpend]
    rfl
  · rw [(finish_onlyContext _ _ _).rest, hv, hpend]
    rfl

/-- The record of a group that GABORT has marked. -/
def aborted (c : Commit) : Commit := { c with asked := true, abort := true }

/-- The operation of GABORT. -/
def gabortBody (a : Fin 32) : Op Unit := do
  let s ← get
  let grp := (s.rx a).toNat
  legal (hiClear (s.rx a) 16)
  match s.commitOf s.myEid grp with
  | none => pure ()
  | some c =>
    if c.st == .open_ then
      set (s.mapCommit s.myEid grp (fun c => { c with asked := true, abort := true }))
    else if c.st == .preparing then set (s.discardGroup s.myEid grp (fun c => c.doom whyGABORT 0))
    else pure ()

theorem execGabort_eq : execGabort st a s = issue { st := st.val, reads := [rdC a] } (unlessAhead (gabortBody a)) s := rfl

theorem gabort_illegal (hi : s.CanIssue [rdC a]) (hah : s.ctx.ahead = false) (h : 2 ^ 16 ≤ (s.rx a).toNat) :
    Traps s (execGabort st a s) .illegal (s.ctx.ir.zeroExtend 80) := by
  rw [execGabort_eq]
  exact legal_traps (g := { st := st.val, reads := [rdC a] }) hi rfl rfl ((hiClear_false_iff _ _).mpr h) _ (unlessAhead_runs hah)

theorem gabort_retires {t : State} (hi : s.CanIssue [rdC a]) (hah : s.ctx.ahead = false) (h : (s.rx a).toNat < 2 ^ 16)
    (ht : (match s.commitOf s.myEid (s.rx a).toNat with
      | none => pure ()
      | some c =>
        if c.st == .open_ then
          set (s.mapCommit s.myEid (s.rx a).toNat (fun c => { c with asked := true, abort := true }))
        else if c.st == .preparing then set (s.discardGroup s.myEid (s.rx a).toNat (fun c => c.doom whyGABORT 0))
        else pure () : Op Unit) s = .ok () t) : execGabort st a s = s.retire st.val t := by
  rw [execGabort_eq]
  refine issue_retires (g := { st := st.val, reads := [rdC a] }) hi rfl rfl ?_
  rw [unlessAhead_runs hah, gabortBody, run_bind, get_run, andThen, run_bind, run_legal_true ((hiClear_iff _ _).mpr h), andThen]
  exact ht

theorem gabort_marks {g : Nat} (hi : s.CanIssue [rdC a]) (hah : s.ctx.ahead = false) (hg : (s.rx a).toNat = g) (h16 : g < 2 ^ 16)
    (hc : s.commitOf s.myEid g = some c) (ho : c.st = .open_) :
    ∃ t, execGabort st a s = .next t ∧ Advanced s t ∧ (∀ r, t.rc r = s.rc r) ∧
      t.commitOf s.myEid g = some { c with asked := true, abort := true } ∧ t = { s with core := t.core, commits := t.commits } := by
  refine ⟨_, gabort_retires st a (t := s.mapCommit s.myEid g (fun c => { c with asked := true, abort := true })) hi hah (hg ▸ h16) ?_,
    advanced_finish (stands_of_ctx rfl rfl : Stands s (s.mapCommit s.myEid g (fun c => { c with asked := true, abort := true }))) st.val rfl,
    fun r => rc_finish _ _ _ _, ?_, ?_⟩
  · rw [hg, hc]
    dsimp only
    rw [ho]
    rfl
  · rw [commitOf_same (finish_commits _ _ _)]
    exact (commitOf_mapCommit (f := aborted) fun c => ⟨rfl, rfl⟩).trans (congrArg (Option.map aborted) hc)
  · rw [(finish_onlyContext _ _ _).rest]
    rfl

theorem gabort_discards {g : Nat} (hi : s.CanIssue [rdC a]) (hah : s.ctx.ahead = false) (hg : (s.rx a).toNat = g) (h16 : g < 2 ^ 16)
    (hc : s.commitOf s.myEid g = some c) (hp : c.st = .preparing) :
    ∃ t e, execGabort st a s = .next t ∧ Advanced s t ∧ (∀ r, t.rc r = s.rc r) ∧ t.commitOf s.myEid g = some e ∧
      (e.st = .discarding ∨ e.st = .discarded) ∧ e.why = (if c.why = 0 then 1 else c.why) := by
  obtain ⟨hcore, e, he, hst, hwhy⟩ := discardGroup_facts (f := fun c => c.doom whyGABORT 0) (fun c => ⟨rfl, rfl⟩) hc
  refine ⟨_, e, gabort_retires st a (t := s.discardGroup s.myEid g (fun c => c.doom whyGABORT 0)) hi hah (hg ▸ h16) ?_,
    advanced_finish (stands_unpoked hcore) st.val (evc_unpoked hcore), fun r => (rc_finish _ _ _ _).trans (rc_unpoked hcore r),
    (commitOf_same (finish_commits _ _ _)).trans he, hst, hwhy⟩
  rw [hg, hc]
  dsimp only
  rw [hp]
  rfl

theorem gabort_idle {g : Nat} (hi : s.CanIssue [rdC a]) (hah : s.ctx.ahead = false) (hg : (s.rx a).toNat = g) (h16 : g < 2 ^ 16)
    (hc : s.commitOf s.myEid g = none ∨ ∃ c, s.commitOf s.myEid g = some c ∧ c.st ≠ .open_ ∧ c.st ≠ .preparing) :
    OnlyAdvances s (execGabort st a s) := by
  refine onlyAdvances_of (gabort_retires st a (t := s) hi hah (hg ▸ h16) ?_)
  rw [hg]
  rcases hc with hc | ⟨c, hc, ho, hp⟩
  · rw [hc]
    rfl
  · have ho' : (c.st == .open_) = false := by simpa using ho
    have hp' : (c.st == .preparing) = false := by simpa using hp
    rw [hc]
    dsimp only
    rw [ho', hp']
    rfl

/-! ### GCSTAT and GWAIT (R313, R425) -/

/-- A query of a context is on its way. -/
theorem queryOp_sendsOp (w : Word) : SendsOp s (s.queryOp w).1
      (sentOp s { deid := commitAgent (s.groupOperand w).1, handler := 7, arg0 := groupArg (s.groupOperand w).1 (s.groupOperand w).2 } id) ∧
    (s.queryOp w).2 = s.newTag 0 :=
  ⟨sendFrom_sendsOp rfl (.inr (.inl (show 7 < 8 by decide))), rfl⟩

/-- The query that asks for a record's word. -/
def askOp (s : State) (w : Word) : RemOp :=
  sentOp s { deid := commitAgent (s.groupOperand w).1, handler := 7, arg0 := groupArg (s.groupOperand w).1 (s.groupOperand w).2 } id

theorem fld_lt (w : Word) (lo n : Nat) : fld w lo n < 2 ^ n := Nat.mod_lt _ (by positivity)

theorem askOp_arg0 (w : Word) : (askOp s w).pkt.arg0 =
    BitVec.ofNat 64 ((if w.getLsbD 40 then s.myEid else fld w 16 24) % 2 ^ 24 + fld w 0 16 * 2 ^ 24) := by
  have h : fld w 0 16 % 65536 = fld w 0 16 := Nat.mod_eq_of_lt (fld_lt w 0 16)
  show groupArg _ (fld w 0 16) = _
  rw [groupArg, h]
  rfl

/-- The operation of GCSTAT. -/
def gcstatBody (d a : Fin 32) : Op Unit := do
  let s ← get
  legal (hiClear (s.rx a) 41)
  let (s, tag) := s.queryOp (s.rx a)
  set (s.awaitReg d tag)

theorem execGcstat_eq : execGcstat st d a s = issue { st := st.val, reads := [rdC a] } (unlessAhead (gcstatBody d a)) s := rfl

theorem gcstat_illegal (hi : s.CanIssue [rdC a]) (hah : s.ctx.ahead = false) (h : 2 ^ 41 ≤ (s.rx a).toNat) :
    Traps s (execGcstat st d a s) .illegal (s.ctx.ir.zeroExtend 80) := by
  rw [execGcstat_eq]
  exact legal_traps (g := { st := st.val, reads := [rdC a] }) hi rfl rfl ((hiClear_false_iff _ _).mpr h) _ (unlessAhead_runs hah)

theorem gcstat_asks (hi : s.CanIssue [rdC a]) (hah : s.ctx.ahead = false) (h : (s.rx a).toNat < 2 ^ 41) :
    ∃ t, execGcstat st d a s = .next t ∧ Advanced s t ∧ OnlySends s t ∧ (∀ r, t.rc r = s.rc r) ∧
      t.core.ops = s.core.ops ++ [askOp s (s.rx a)] ∧
      (d ≠ 0 → { file := .c, idx := d.val, op := s.newTag 0, val := none } ∈ t.ctx.pend) := by
  obtain ⟨hq, htag⟩ := queryOp_sendsOp (s := s) (s.rx a)
  obtain ⟨u, hu⟩ : ∃ u, u = (s.queryOp (s.rx a)).1 := ⟨_, rfl⟩
  rw [← hu] at hq
  obtain ⟨hstands, hrc, ho, hoff, hcore, hpend⟩ := awaitReg_facts (s := u) d (s.newTag 0)
  have hexec : execGcstat st d a s = s.retire st.val (u.awaitReg d (s.newTag 0)) := by
    rw [execGcstat_eq]
    refine issue_retires (g := { st := st.val, reads := [rdC a] }) hi rfl rfl ?_
    rw [unlessAhead_runs hah, gcstatBody, run_bind, get_run, andThen, run_bind, run_legal_true ((hiClear_iff _ _).mpr h), andThen, hu]
    rfl
  refine ⟨_, hexec, advanced_finish (hq.stands.trans hstands) st.val (by rw [hcore]; exact hq.evc), Offers.onlySends ?_ ?_, fun r => ?_, ?_,
    fun hd => ?_⟩
  · exact (hq.offers.trans hoff).trans (finish_offers _ _)
  · rw [finish_o, ho, hq.ctx]
  · rw [rc_finish, hrc]
    exact hq.rc r
  · rw [finish_core_eq, hcore]
    exact hq.ops
  · rw [finish_pend]
    exact hpend hd

/-- The operation of GWAIT. -/
def gwaitBody (d a : Fin 32) : Op Unit := do
  let s ← get
  legal (hiClear (s.rx a) 41)
  match s.ctx.wait with
  | .gwait _ _ last _ _ _ expired =>
    if wordDecided last then set (s.gwaitReturn d (s.rx a) last)
    else if expired then set (s.wx d (last ||| BitVec.ofNat 64 (2 ^ 40)))
    else waitHere
  | _ =>
    let (s, tag) := s.queryOp (s.rx a)
    set (s.setCtx { s.ctx with wait := .gwait (s.rx a) tag 0 s.time.toNat 0 200000 false })
    waitHere

theorem execGwait_eq : execGwait st d a s = issue { st := st.val, reads := [rdC a, rdO 2] } (unlessAhead (gwaitBody d a)) s := rfl

theorem gwait_illegal (hi : s.CanIssue [rdC a, rdO 2]) (hah : s.ctx.ahead = false) (h : 2 ^ 41 ≤ (s.rx a).toNat) :
    Traps s (execGwait st d a s) .illegal (s.ctx.ir.zeroExtend 80) := by
  rw [execGwait_eq]
  exact legal_traps (g := { st := st.val, reads := [rdC a, rdO 2] }) hi rfl rfl ((hiClear_false_iff _ _).mpr h) _ (unlessAhead_runs hah)

theorem gwait_asks (hi : s.CanIssue [rdC a, rdO 2]) (hah : s.ctx.ahead = false) (h : (s.rx a).toNat < 2 ^ 41) (hw : s.ctx.wait = .none) :
    ∃ t, execGwait st d a s = .next t ∧ t.ctx.pcc = s.ctx.pcc ∧ t.ctx.blocked = true ∧
      t.core.ops = s.core.ops ++ [askOp s (s.rx a)] ∧ t.ctx.wait = .gwait (s.rx a) (s.newTag 0) 0 s.time.toNat 0 200000 false := by
  obtain ⟨hq, htag⟩ := queryOp_sendsOp (s := s) (s.rx a)
  obtain ⟨u, hu⟩ : ∃ u, u = (s.queryOp (s.rx a)).1 := ⟨_, rfl⟩
  rw [← hu] at hq
  have hrx : u.rx a = s.rx a := by
    unfold State.rx
    rw [hq.rc]
  have htime : u.time = s.time := hq.offers.part State.time
  have hexec : execGwait st d a s =
      .next (u.setCtx { u.ctx with wait := .gwait (u.rx a) (s.newTag 0) 0 u.time.toNat 0 200000 false }).block := by
    rw [execGwait_eq]
    refine issue_waits (g := { st := st.val, reads := [rdC a, rdO 2] }) hi rfl rfl ?_
    rw [unlessAhead_runs hah, gwaitBody, run_bind, get_run, andThen, run_bind, run_legal_true ((hiClear_iff _ _).mpr h), andThen, hw, hu]
    rfl
  refine ⟨_, hexec, ?_, ?_, ?_, ?_⟩
  · rw [State.block, ctx_setCtx, ctx_setCtx, hq.ctx]
  · rw [State.block, ctx_setCtx]
  · exact hq.ops
  · rw [State.block, ctx_setCtx, ctx_setCtx, hrx, htime]

theorem wordDecided_iff (w : Word) : wordDecided w = true ↔ fld w 0 4 = 4 ∨ fld w 0 4 = 6 := by
  simp [wordDecided]

section Waiting

variable {arg last : Word} {tag since next wait : Nat} {ex : Bool}

theorem gwait_run (hah : s.ctx.ahead = false) (h : (s.rx a).toNat < 2 ^ 41)
    (hw : s.ctx.wait = .gwait arg tag last since next wait ex) : unlessAhead (gwaitBody d a) s =
      (if wordDecided last then set (s.gwaitReturn d (s.rx a) last)
       else if ex then set (s.wx d (last ||| BitVec.ofNat 64 (2 ^ 40))) else waitHere : Op Unit) s := by
  rw [unlessAhead_runs hah, gwaitBody, run_bind, get_run, andThen, run_bind, run_legal_true ((hiClear_iff _ _).mpr h), andThen, hw]

theorem gwait_returns (hi : s.CanIssue [rdC a, rdO 2]) (hah : s.ctx.ahead = false) (h : (s.rx a).toNat < 2 ^ 41)
    (hw : s.ctx.wait = .gwait arg tag last since next wait ex) (hd : fld last 0 4 = 4 ∨ fld last 0 4 = 6) :
    ∃ t, execGwait st d a s = .next t ∧ Advanced s t ∧ WroteC s t d (scalar last) ∧ t.mem = s.mem ∧ t.core.ops = s.core.ops := by
  obtain ⟨u, hu, hus, hur, hum, huo, hue⟩ : ∃ u, s.gwaitReturn d (s.rx a) last = u.wx d last ∧ Stands s u ∧ (∀ n, u.rc n = s.rc n) ∧
      u.mem = s.mem ∧ u.core.ops = s.core.ops ∧ u.core.evc = s.core.evc := by
    unfold State.gwaitReturn
    dsimp only
    split
    · exact ⟨_, rfl, stands_of_ctx rfl rfl, fun _ => rfl, rfl, rfl, rfl⟩
    · exact ⟨s, rfl, .refl s, fun _ => rfl, rfl, rfl, rfl⟩
  have hexec : execGwait st d a s = s.retire st.val (u.wx d last) := by
    rw [execGwait_eq]
    refine issue_retires (g := { st := st.val, reads := [rdC a, rdO 2] }) hi rfl rfl ?_
    rw [gwait_run d a hah h hw, if_pos ((wordDecided_iff last).mpr hd), hu]
    rfl
  refine ⟨_, hexec, advanced_finish (hus.trans (stands_wc _ _ _)) st.val hue, wroteC_finish _ _ (wroteC_wc d _ hur), ?_, ?_⟩
  · rw [finish_mem]
    exact hum
  · rw [finish_core_eq]
    exact huo

theorem gwait_expires (hi : s.CanIssue [rdC a, rdO 2]) (hah : s.ctx.ahead = false) (h : (s.rx a).toNat < 2 ^ 41)
    (hw : s.ctx.wait = .gwait arg tag last since next wait true) (h4 : fld last 0 4 ≠ 4) (h6 : fld last 0 4 ≠ 6) :
    WritesC s (execGwait st d a s) d (scalar (last ||| BitVec.ofNat 64 (2 ^ 40))) := by
  refine writesC_of (st := st.val) ?_
  rw [execGwait_eq]
  refine issue_retires (g := { st := st.val, reads := [rdC a, rdO 2] }) hi rfl rfl ?_
  rw [gwait_run d a hah h hw, if_neg (by rw [wordDecided_iff]; tauto), if_pos rfl]
  rfl

theorem gwait_waits (hi : s.CanIssue [rdC a, rdO 2]) (hah : s.ctx.ahead = false) (h : (s.rx a).toNat < 2 ^ 41)
    (hw : s.ctx.wait = .gwait arg tag last since next wait false) (h4 : fld last 0 4 ≠ 4) (h6 : fld last 0 4 ≠ 6) :
    execGwait st d a s = .next s.block := by
  rw [execGwait_eq]
  refine issue_waits (g := { st := st.val, reads := [rdC a, rdO 2] }) hi rfl rfl ?_
  rw [gwait_run d a hah h hw, if_neg (by rw [wordDecided_iff]; tauto), if_neg Bool.false_ne_true]
  rfl

/-! ### A context that waits, as time passes -/

/-- A step at the core in focus. -/
theorem atCore_focus {f : State → State} (hw : s.Works) (hid : (f s).core.id = s.core.id) : atCore s.core.id s f = .next (f s) := by
  have hf : s.focusOn s.core.id = s := if_pos rfl
  have hcore : (decide (s.core.id < 4096) && Machine.isCore s.core.id) = true := by
    have h := hw.id.2
    unfold Sys2Proof.isCore at h
    unfold Machine.isCore lidUnit
    rw [decide_eq_true hw.id.1, Bool.true_and] at h ⊢
    exact h
  unfold atCore State.at
  rw [if_pos hcore]
  dsimp only
  rw [hf]
  exact congrArg Host.Outcome.next (if_pos hid)

theorem asCtx_cur {f : State → State} (hc : (f s).core.cur = s.core.cur) : s.asCtx s.core.cur.val f = f s := by
  have hfin : Fin.ofNat 11 s.core.cur.val = s.core.cur := Fin.ext (Nat.mod_eq_of_lt s.core.cur.isLt)
  unfold State.asCtx
  dsimp only
  rw [hfin]
  show { f s with core := { (f s).core with cur := s.core.cur } } = f s
  rw [← hc]

/-- The issuing context after a change of it by its number. -/
theorem ctx_mapCtxNo (f : Ctx → Ctx) : State.ctx { s with core := s.core.mapCtxNo s.core.cur.val f } = f s.ctx :=
  (congrArg (fun c : Core => c.ctxs[c.cur]) (mapCtxNo_fin s.core s.core.cur f)).trans (by simp [State.ctx])

/-- A waiting GWAIT as the time limit finds it (R313). -/
def timed (s : State) (x : Ctx) : Ctx :=
  match x.wait with
  | .gwait arg t last since next wait ex =>
    let lim := (x.o[(2 : Fin 8)]).toNat
    { x with wait := .gwait arg t last since next wait (ex || (decide (0 < lim) && decide (since + lim ≤ s.time.toNat))) }
  | _ => x

/-- What GWAIT_TIME_LIMIT does at its core. -/
def limitWait (h : Nat) (s : State) : State := { s with core := s.core.mapCtxNo h (timed s) }

theorem gwaitLimit (hw : s.Works) (hx : s.ctx.wait = .gwait arg tag last since next wait ex) :
    ∃ t, execGwaitTimeLimit s.core.id s.core.cur.val s = .next t ∧ t.mem = s.mem ∧ t.core.ops = s.core.ops ∧
      t.ctx.wait = .gwait arg tag last since next wait
        (ex || (decide (0 < (s.ro 2).toNat) && decide (since + (s.ro 2).toNat ≤ s.time.toNat))) := by
  refine ⟨limitWait s.core.cur.val s, atCore_focus (f := limitWait s.core.cur.val) hw ?_, rfl, ?_, ?_⟩
  · show (s.core.mapCtxNo _ _).id = _
    rw [mapCtxNo_fin]
  · show (s.core.mapCtxNo _ _).ops = _
    rw [mapCtxNo_fin]
  · rw [limitWait, ctx_mapCtxNo, timed, hx]
    rfl

/-- What GWAIT_QUERY_REPEAT does at its core. -/
def repeatQuery (h : Nat) (s : State) : State :=
  match (s.core.ctxNo h).wait with
  | .gwait arg 0 last since next wait ex =>
    if next ≤ s.time.toNat && !wordDecided last then
      s.asCtx h (fun s =>
        let (s, tag) := s.queryOp arg
        s.setCtx { s.ctx with wait := .gwait arg tag last since next wait ex })
    else s
  | _ => s

theorem repeatQuery_idle (hx : s.ctx.wait = .gwait arg tag last since next wait ex)
    (h : s.time.toNat < next ∨ tag ≠ 0 ∨ fld last 0 4 = 4 ∨ fld last 0 4 = 6) : repeatQuery s.core.cur.val s = s := by
  have hx' : (s.core.ctxNo s.core.cur.val).wait = .gwait arg tag last since next wait ex := (congrArg Ctx.wait (ctxNo_fin _ _)).trans hx
  unfold repeatQuery
  rw [hx']
  cases tag with
  | succ tag => rfl
  | zero =>
    refine if_neg ?_
    rw [Bool.and_eq_true, decide_eq_true_eq, Bool.not_eq_true', ← Bool.not_eq_true, wordDecided_iff]
    rintro ⟨h1, h2⟩
    rcases h with h | h | h
    · omega
    · exact h rfl
    · exact h2 h

theorem repeatQuery_asks (hx : s.ctx.wait = .gwait arg 0 last since next wait ex) (hn : next ≤ s.time.toNat)
    (h4 : fld last 0 4 ≠ 4) (h6 : fld last 0 4 ≠ 6) : repeatQuery s.core.cur.val s =
      (s.queryOp arg).1.setCtx { (s.queryOp arg).1.ctx with wait := .gwait arg (s.newTag 0) last since next wait ex } := by
  have hx' : (s.core.ctxNo s.core.cur.val).wait = .gwait arg 0 last since next wait ex := (congrArg Ctx.wait (ctxNo_fin _ _)).trans hx
  have hd : (decide (next ≤ s.time.toNat) && !wordDecided last) = true := by
    rw [Bool.and_eq_true, decide_eq_true_eq, Bool.not_eq_true', ← Bool.not_eq_true, wordDecided_iff]
    exact ⟨hn, by tauto⟩
  unfold repeatQuery
  rw [hx']
  exact (if_pos hd).trans (asCtx_cur (queryOp_sendsOp arg).1.cur)

theorem gwaitRepeats_idle (hw : s.Works) (hx : s.ctx.wait = .gwait arg tag last since next wait ex)
    (h : s.time.toNat < next ∨ tag ≠ 0 ∨ fld last 0 4 = 4 ∨ fld last 0 4 = 6) :
    execGwaitQueryRepeat s.core.id s.core.cur.val s = .next s := by
  have hr := repeatQuery_idle hx h
  exact (atCore_focus (f := repeatQuery s.core.cur.val) hw (by rw [hr])).trans (congrArg _ hr)

theorem gwaitRepeats_asks (hw : s.Works) (hx : s.ctx.wait = .gwait arg 0 last since next wait ex) (hn : next ≤ s.time.toNat)
    (h4 : fld last 0 4 ≠ 4) (h6 : fld last 0 4 ≠ 6) :
    ∃ t, execGwaitQueryRepeat s.core.id s.core.cur.val s = .next t ∧ t.core.ops = s.core.ops ++ [askOp s arg] ∧
      t.ctx.wait = .gwait arg (s.newTag 0) last since next wait ex := by
  have hr := repeatQuery_asks hx hn h4 h6
  have hq := (queryOp_sendsOp (s := s) arg).1
  refine ⟨_, (atCore_focus (f := repeatQuery s.core.cur.val) hw ?_).trans (congrArg _ hr), ?_, ?_⟩
  · rw [hr]
    exact hq.id
  · exact hq.ops
  · rw [ctx_setCtx]

end Waiting

end Instructions

/-- The query that the statement of GCSTAT and GWAIT names. -/
theorem askOp_asks {t : State} {w : Word} (h : t.core.ops = s.core.ops ++ [askOp s w]) {f : RemOp → Prop} (hf : f (askOp s w)) :
    ∃ x, t.core.ops = s.core.ops ++ [x] ∧ x.pkt.handler = 7 ∧
      x.pkt.deid = (if w.getLsbD 40 then s.myEid else fld w 16 24) / 1024 * 1024 + 256 ∧
      x.pkt.arg0 = BitVec.ofNat 64 ((if w.getLsbD 40 then s.myEid else fld w 16 24) % 2 ^ 24 + fld w 0 16 * 2 ^ 24) ∧
      x.tag = s.newTag 0 ∧ f x :=
  ⟨_, h, rfl, rfl, askOp_arg0 w, rfl, hf⟩

/-- Settles O43: each instruction's operation is run through its checks; a query is one AM of the issuing context, whose answer
the context waits for. -/
theorem commitInstructions : Obligations.CommitInstructions := by
  unfold Obligations.CommitInstructions
  intro s st d a c arg last tag since next wait ex
  dsimp only
  refine ⟨fun hah _ => ⟨fun hi => ⟨fun h => ?_, gabort_illegal st a hi hah, fun h16 hc => ⟨fun h => ?_, ?_, ?_, ?_, ?_⟩, ?_,
    gcstat_illegal st d a hi hah, fun h => ?_⟩, fun hi => ⟨gwait_illegal st d a hi hah, fun h hw => ?_, fun h hw => ⟨?_, fun h4 h6 => ⟨?_, ?_⟩⟩⟩⟩,
    fun hw hx => ⟨gwaitLimit hw hx, gwaitRepeats_idle hw hx, ?_⟩⟩
  · exact gcommit_illegal st d a hi hah (h.imp_right .inl)
  · exact gcommit_illegal st d a hi hah (.inr (.inr ⟨c, hc, h⟩))
  · exact gcommit_opens st d a hi hah rfl h16 hc
  · exact gabort_marks st a hi hah rfl h16 hc
  · exact gabort_discards st a hi hah rfl h16 hc
  · exact fun ho hp => gabort_idle st a hi hah rfl h16 (.inr ⟨c, hc, ho, hp⟩)
  · exact fun h16 hc => gabort_idle st a hi hah rfl h16 (.inl hc)
  · obtain ⟨t, ht, hadv, hsends, hrc, hops, hpend⟩ := gcstat_asks st d a hi hah h
    exact ⟨t, ht, hadv, hsends, hrc, askOp_asks hops hpend⟩
  · obtain ⟨t, ht, hpcc, hblk, hops, hwait⟩ := gwait_asks st d a hi hah h hw
    exact ⟨t, ht, hpcc, hblk, askOp_asks hops hwait⟩
  · exact gwait_returns st d a hi hah h hw
  · rintro rfl
    exact gwait_expires st d a hi hah h hw h4 h6
  · rintro rfl
    exact gwait_waits st d a hi hah h hw h4 h6
  · rintro rfl rfl hn h4 h6
    obtain ⟨t, ht, hops, hwait⟩ := gwaitRepeats_asks hw hx hn h4 h6
    exact ⟨t, ht, askOp_asks hops hwait⟩

end Sys2Proof.Proofs
end

section
/-! PROOFS. What copies check at issue, and the jobs they open (R355, R356). -/
namespace Sys2Proof.Proofs
open Sys2Proof Sys2Proof.Machine Sys2Proof.Laws
set_option Elab.async false

/-! ### The checks of one side -/

section Sides

variable {s : State} {c : Cap} {ps : List Nat} {lo hi : Int}

/-- The first cause of check 2 of R356 on one side. -/
def sideCause (c : Cap) (ps : List Nat) (lo hi : Int) : Option Cause :=
  if capValid c = false then some .capTag
  else if capHasAll c ps = false then some .capPerm
  else if capBase c ≤ lo ∧ hi ≤ capTop c then none else some .capBounds

theorem sideNeed_run : sideNeed c ps lo hi s =
    match sideCause c ps lo hi with
    | none => .ok () s
    | some k => .error (.trap ⟨k, tvalOf lo⟩) s := by
  unfold sideNeed sideCause
  cases capValid c with
  | false => rfl
  | true =>
    cases capHasAll c ps with
    | false => rfl
    | true =>
      rw [if_neg (show ¬ true = false from nofun), if_neg (show ¬ true = false from nofun), run_bind, need_true, andThen, run_bind, need_true, andThen, run_need]
      by_cases hb : (capBase c ≤ lo ∧ hi ≤ capTop c)
      · rw [if_pos hb, if_pos (by simpa using hb)]
      · rw [if_neg hb, if_neg (by simpa using hb)]
        rfl

theorem sideNeed_passes (h : sideCause c ps lo hi = none) : sideNeed c ps lo hi s = .ok () s := by
  rw [sideNeed_run, h]

theorem sideNeed_raises {k : Cause} (h : sideCause c ps lo hi = some k) : sideNeed c ps lo hi s = .error (.trap ⟨k, tvalOf lo⟩) s := by
  rw [sideNeed_run, h]

/-- ALIGN of one side (R356). -/
def SideAligned (c : Copy) (x : Int) (bits : Nat) : Prop :=
  (c.conv = true → x % (max 1 (bits / 8) : Nat) = 0) ∧ (c.tags = true → x % 16 = 0)

theorem natAbs_mod_eq_zero (x : Int) (n : Nat) : x.natAbs % n = 0 ↔ x % n = 0 := by
  rw [← Nat.dvd_iff_mod_eq_zero, ← Int.natCast_dvd, Int.dvd_iff_emod_eq_zero]

theorem alignNeed_run (c : Copy) (x : Int) (bits : Nat) [Decidable (SideAligned c x bits)] : alignNeed c x bits s =
    if SideAligned c x bits then .ok () s else .error (.trap ⟨.align, tvalOf x⟩) s := by
  have hc : (!c.conv || decide (x.natAbs % max 1 (bits / 8) = 0)) = true ↔ (c.conv = true → x % (max 1 (bits / 8) : Nat) = 0) := by
    rw [← natAbs_mod_eq_zero]
    cases c.conv <;> simp
  have ht : (!c.tags || decide (x.natAbs % 16 = 0)) = true ↔ (c.tags = true → x % 16 = 0) := by
    rw [show (x % 16 = 0) = (x % (16 : Nat) = 0) from rfl, ← natAbs_mod_eq_zero]
    cases c.tags <;> simp
  unfold alignNeed
  rw [run_bind, run_need]
  by_cases h1 : c.conv = true → x % (max 1 (bits / 8) : Nat) = 0
  · rw [if_pos (hc.mpr h1), andThen, run_need]
    by_cases h2 : c.tags = true → x % 16 = 0
    · rw [if_pos (ht.mpr h2), if_pos ⟨h1, h2⟩]
    · rw [if_neg (fun h => h2 (ht.mp h)), if_neg (fun h => h2 h.2)]
      rfl
  · rw [if_neg (fun h => h1 (hc.mp h)), if_neg (fun h => h1 h.1)]
    rfl

end Sides

/-! ### The job that a copy opens -/

section Opens

variable {s : State} (d : Fin 32) (c : Copy)

theorem srDone_eq (s : State) (b : Bool) : s.srDone b = { s with core := { s.core with srctr := (s.srDone b).core.srctr } } := by
  unfold State.srDone
  split <;> rfl

theorem srDone_ctx (s : State) (b : Bool) : (s.srDone b).ctx = s.ctx := by
  rw [srDone_eq]
  rfl

/-- The record of a copy. -/
def copyRec (s : State) (c : Copy) (idle : Bool) : JobRec :=
  newRec s clsCopy (fun j => { j with cp := some c, status := if idle then stDONE else stPENDING })

/-- The state in which a copy's record stands at the end of the core's. -/
def copyBooked (s : State) (c : Copy) (idle : Bool) : State :=
  (s.openJob clsCopy (fun j => { j with cp := some c, status := if idle then stDONE else stPENDING })).1

theorem openCopy_opens (idle : Bool) (h : s.core.inFlight clsCopy < 256) : openCopy d c idle s =
    .ok () (((copyBooked s c idle).wx d (copyRec s c idle).word).srDone c.rounds) := by
  unfold openCopy
  rw [run_bind, get_run, andThen, run_bind, run_await, decide_eq_true h, if_pos rfl, andThen]
  rfl

theorem openCopy_waits (idle : Bool) (h : 256 ≤ s.core.inFlight clsCopy) : openCopy d c idle s = .error .wait s := by
  unfold openCopy
  rw [run_bind, get_run, andThen, run_bind, run_await, decide_eq_false (show ¬ s.core.inFlight clsCopy < 256 by omega)]
  rfl

theorem wakeUp_o (x : Ctx) : x.wakeUp.o = x.o := by
  rw [wakeUp_eq]

theorem openJob_o (cls : Nat) (f : JobRec → JobRec) : (s.openJob cls f).1.ctx.o = s.ctx.o := by
  by_cases hp : (newRec s cls f).status = stPENDING
  · rw [openJob_pending hp]
    rfl
  · rw [openJob_final hp]
    exact (congrArg Ctx.o (wake_ctxs s.core s.core.cur)).trans (wakeUp_o _)

theorem wx_ctx_o (s : State) (d : Fin 32) (v : Word) : (s.wx d v).ctx.o = s.ctx.o := by
  rw [State.wx, State.wc, ctx_setCtx]
  unfold Ctx.wc
  split <;> rfl

/-- A copy that passes its checks: a core with 256 in flight waits; else its job is opened. -/
structure CopyOpens (s : State) (d : Fin 32) (o : Host.Outcome State Fault Refusal) (c : Copy) (idle : Bool) : Prop where
  full  : 256 ≤ s.core.inFlight clsCopy → o = .next s.block
  opens : s.core.inFlight clsCopy < 256 → ∃ t r, o = .next t ∧ Advanced s t ∧ OnlySends s t ∧ Opens s t d 0 r ∧ r.cp = some c ∧
    r.status = (if idle then stDONE else stPENDING) ∧ t.core.ops = s.core.ops ∧
    t.core.srctr = (if c.rounds && s.rnd = 6 then s.core.srctr + 1 else s.core.srctr)

theorem copyOpens_of_issue {g : Gate} {body : Op Unit} {idle : Bool} (hi : s.CanIssue g.reads) (hg : g.ill = false) (ha : g.acc = none)
    (hb : body s = openCopy d c idle s) : CopyOpens s d (issue g body s) c idle := by
  refine ⟨fun h => issue_waits hi hg ha (hb.trans (openCopy_waits d c idle h)), fun h => ?_⟩
  have hexec := issue_retires hi hg ha (hb.trans (openCopy_opens d c idle h))
  obtain ⟨r, hr⟩ : ∃ r, r = copyRec s c idle := ⟨_, rfl⟩
  obtain ⟨u, hu⟩ : ∃ u, u = copyBooked s c idle := ⟨_, rfl⟩
  rw [← hu, ← hr] at hexec
  have hcore : u.core = { s.core with jobs := s.core.jobs ++ [r], ser := s.core.ser + 1, ctxs := u.core.ctxs } := by
    rw [hu, hr]
    exact openJob_core
  have ho : u.ctx.o = s.ctx.o := hu ▸ openJob_o _ _
  have hrc (n : Fin 32) : u.rc n = s.rc n := hu ▸ openJob_rc n
  obtain ⟨v, hv⟩ : ∃ v, v = (u.wx d r.word).srDone c.rounds := ⟨_, rfl⟩
  rw [← hv] at hexec
  have hvctx : v.ctx = (u.wx d r.word).ctx := hv ▸ srDone_ctx _ _
  have hvcore : v.core = { u.core with ctxs := (u.wx d r.word).core.ctxs, srctr := v.core.srctr } :=
    hv ▸ congrArg State.core (srDone_eq (u.wx d r.word) c.rounds)
  have hst : Stands s v := by
    have h1 : Stands s u := hu ▸ openJob_stands
    exact (h1.trans (stands_wc u d _)).trans (stands_of_ctx (by rw [hvcore]; rfl) hvctx)
  have hoff : Offers s v := by
    have h1 : Offers s u := hu ▸ openJob_offers _ _
    have h2 : Offers u (u.wx d r.word) := setCtx_offers _
    have h3 : Offers (u.wx d r.word) v := by
      rw [hv, srDone_eq]
      exact ⟨rfl, rfl, fun _ _ => .inl rfl⟩
    exact (h1.trans h2).trans h3
  refine ⟨_, r, hexec, advanced_finish hst g.st (by rw [hvcore, hcore]), (hoff.trans (finish_offers _ _)).onlySends ?_,
    ⟨?_, by rw [hr]; rfl, by rw [hr]; rfl, ?_, ?_⟩, by rw [hr]; rfl, by rw [hr]; rfl, ?_, ?_⟩
  · rw [finish_o, hvctx, wx_ctx_o, ho]
  · rw [finish_core_eq, hvcore, hcore]
  · rw [finish_core_eq, hvcore, hcore]
  · refine wroteC_finish _ _ ?_
    obtain ⟨h1, h2⟩ := wroteC_wc d (scalar r.word) hrc
    have hv' (n : Fin 32) : v.rc n = (u.wc d (scalar r.word)).rc n := congrArg (fun x : Ctx => x.rc n) hvctx
    exact ⟨(hv' d).trans h1, fun n hn => (hv' n).trans (h2 n hn)⟩
  · rw [finish_core_eq, hvcore, hcore]
  · have hrnd : (u.wx d r.word).rnd = s.rnd := by
      have ho0 : (u.wx d r.word).o0 = s.o0 := congrArg (fun o : Vector Word 8 => o[(0 : Fin 8)]) ((wx_ctx_o u d _).trans ho)
      have hmode : (u.wx d r.word).core.rmode = s.core.rmode := by
        show u.core.rmode = _
        rw [hcore]
      unfold State.rnd
      rw [ho0, hmode]
    have hctr : (u.wx d r.word).core.srctr = s.core.srctr := by
      show u.core.srctr = _
      rw [hcore]
    rw [finish_core_eq, hv]
    show ((u.wx d r.word).srDone c.rounds).core.srctr = _
    unfold State.srDone
    rw [hrnd]
    split
    · exact congrArg (· + 1) hctr
    · exact hctr

/-- As the statement of R355 says it, of a copy with the fields that `f` names. -/
theorem CopyOpens.stated {o : Host.Outcome State Fault Refusal} {c : Copy} {idleB : Bool} {idle rounds : Prop} {kind : CopyKind} {dst src : Cap}
    {f : Copy → Prop} (h : CopyOpens s d o c idleB) (hidle : idleB = true ↔ idle) (hrounds : c.rounds = true ↔ rounds)
    (hk : c.kind = kind) (hd : c.dst = dst) (hs : c.src = src) (hp : c.pos = 0) (hb : c.begun = false) (hf : f c) :
    (256 ≤ s.core.jobs.countP (fun j => j.cls == 0 && j.status == 0) → o = .next s.block) ∧
    (s.core.jobs.countP (fun j => j.cls == 0 && j.status == 0) < 256 →
      ∃ t r k, o = .next t ∧ Advanced s t ∧ OnlySends s t ∧ Opens s t d 0 r ∧ r.cp = some k ∧
        (idle → r.status = stDONE) ∧ (¬ idle → r.status = stPENDING) ∧ k.kind = kind ∧ k.dst = dst ∧ k.src = src ∧
        k.pos = 0 ∧ k.begun = false ∧ f k ∧ t.core.ops = s.core.ops ∧
        (rounds ∧ s.rnd = 6 → t.core.srctr = s.core.srctr + 1) ∧ (¬ (rounds ∧ s.rnd = 6) → t.core.srctr = s.core.srctr)) := by
  refine ⟨h.full, fun hn => ?_⟩
  obtain ⟨t, r, ho, hadv, hsends, hopens, hcp, hst, hops, hctr⟩ := h.opens hn
  have hcond : (c.rounds && decide (s.rnd = 6)) = true ↔ rounds ∧ s.rnd = 6 := by
    rw [Bool.and_eq_true, hrounds, decide_eq_true_eq]
  refine ⟨t, r, c, ho, hadv, hsends, hopens, hcp, fun hi => ?_, fun hi => ?_, hk, hd, hs, hp, hb, hf, hops, fun hr => ?_, fun hr => ?_⟩
  · rw [hst, if_pos (hidle.mpr hi)]
  · rw [hst, if_neg (fun e => hi (hidle.mp e))]
  · rw [hctr, if_pos (hcond.mpr hr)]
  · rw [hctr, if_neg (fun e => hr (hcond.mp e))]

end Opens

/-! ### CPY and CPY2D (R356) -/

section Plain

variable {s : State} (d : Fin 32) (c : Copy)

/-- The two sides of CPY and CPY2D, as check 2 of R356 names their first cause. -/
def srcCause (c : Copy) : Option Cause :=
  sideCause c.src ([pL] ++ if c.tags then [pLC] else []) (rowsLo (capA c.src) c.rows c.sp)
    (rowsHi (capA c.src) c.rows (itemBytes c.len c.sBits) c.sp)
def dstCause (c : Copy) : Option Cause :=
  sideCause c.dst ([pS] ++ if c.tags then [pSC] else []) (rowsLo (capA c.dst) c.rows c.dp)
    (rowsHi (capA c.dst) c.rows (itemBytes c.len c.dBits) c.dp)

/-- What CPY and CPY2D check of the extents of a copy that moves something. -/
def extentNeeds (c : Copy) : Op Unit := do
  sideNeed c.src ([pL] ++ if c.tags then [pLC] else []) (rowsLo (capA c.src) c.rows c.sp)
    (rowsHi (capA c.src) c.rows (itemBytes c.len c.sBits) c.sp)
  sideNeed c.dst ([pS] ++ if c.tags then [pSC] else []) (rowsLo (capA c.dst) c.rows c.dp)
    (rowsHi (capA c.dst) c.rows (itemBytes c.len c.dBits) c.dp)
  alignNeed c (rowsLo (capA c.src) c.rows c.sp) c.sBits
  alignNeed c (rowsLo (capA c.dst) c.rows c.dp) c.dBits
  need (!c.tags || c.len % 16 = 0) .align (capA c.dst)

theorem copyIssue_run (clash : Bool) : copyIssue d c clash s =
    (legal (!clash) >>= fun _ => if c.len ≠ 0 && c.rows ≠ 0 then extentNeeds c >>= fun _ => openCopy d c (c.len = 0 || c.rows = 0)
      else openCopy d c (c.len = 0 || c.rows = 0)) s := by
  unfold copyIssue
  dsimp only
  rw [run_bind, run_bind]
  refine congrArg _ (funext fun _ => ?_)
  split
  · unfold extentNeeds
    simp only [bind_assoc]
  · rfl

theorem extentNeeds_src {k : Cause} (h : srcCause c = some k) :
    extentNeeds c s = .error (.trap ⟨k, tvalOf (rowsLo (capA c.src) c.rows c.sp)⟩) s := by
  unfold extentNeeds
  rw [run_bind, sideNeed_raises h]
  rfl

theorem extentNeeds_dst {k : Cause} (h1 : srcCause c = none) (h : dstCause c = some k) :
    extentNeeds c s = .error (.trap ⟨k, tvalOf (rowsLo (capA c.dst) c.rows c.dp)⟩) s := by
  unfold extentNeeds
  rw [run_bind, sideNeed_passes h1, andThen, run_bind, sideNeed_raises h]
  rfl

theorem extentNeeds_alignSrc (h1 : srcCause c = none) (h2 : dstCause c = none)
    (h : ¬ SideAligned c (rowsLo (capA c.src) c.rows c.sp) c.sBits) :
    extentNeeds c s = .error (.trap ⟨.align, tvalOf (rowsLo (capA c.src) c.rows c.sp)⟩) s := by
  classical
  unfold extentNeeds
  rw [run_bind, sideNeed_passes h1, andThen, run_bind, sideNeed_passes h2, andThen, run_bind, alignNeed_run, if_neg h]
  rfl

theorem extentNeeds_alignDst (h1 : srcCause c = none) (h2 : dstCause c = none)
    (h3 : SideAligned c (rowsLo (capA c.src) c.rows c.sp) c.sBits) (h : ¬ SideAligned c (rowsLo (capA c.dst) c.rows c.dp) c.dBits) :
    extentNeeds c s = .error (.trap ⟨.align, tvalOf (rowsLo (capA c.dst) c.rows c.dp)⟩) s := by
  classical
  unfold extentNeeds
  rw [run_bind, sideNeed_passes h1, andThen, run_bind, sideNeed_passes h2, andThen, run_bind, alignNeed_run, if_pos h3, andThen,
    run_bind, alignNeed_run, if_neg h]
  rfl

theorem extentNeeds_passes (h1 : srcCause c = none) (h2 : dstCause c = none)
    (h3 : SideAligned c (rowsLo (capA c.src) c.rows c.sp) c.sBits) (h4 : SideAligned c (rowsLo (capA c.dst) c.rows c.dp) c.dBits)
    (h5 : c.tags = true → c.len % 16 = 0) : extentNeeds c s = .ok () s := by
  classical
  unfold extentNeeds
  rw [run_bind, sideNeed_passes h1, andThen, run_bind, sideNeed_passes h2, andThen, run_bind, alignNeed_run, if_pos h3, andThen,
    run_bind, alignNeed_run, if_pos h4, andThen, run_need, if_pos]
  cases ht : c.tags
  · rfl
  · simpa using h5 ht

theorem copyIssue_raises {t : Trap} (hl : c.len ≠ 0) (hr : c.rows ≠ 0) (h : extentNeeds c s = .error (.trap t) s) :
    copyIssue d c false s = .error (.trap t) s := by
  rw [copyIssue_run, run_bind, run_legal_true (b := !false) rfl, andThen, if_pos (by simp [hl, hr]), run_bind, h]
  rfl

theorem copyIssue_idle (h : c.len = 0 ∨ c.rows = 0) : copyIssue d c false s = openCopy d c true s := by
  have h1 : (decide (c.len ≠ 0) && decide (c.rows ≠ 0)) = false := by rcases h with h | h <;> simp [h]
  have h2 : (decide (c.len = 0) || decide (c.rows = 0)) = true := by rcases h with h | h <;> simp [h]
  rw [copyIssue_run, run_bind, run_legal_true (b := !false) rfl, andThen, h1, if_neg Bool.false_ne_true, h2]

theorem copyIssue_passes (hl : c.len ≠ 0) (hr : c.rows ≠ 0) (h : extentNeeds c s = .ok () s) :
    copyIssue d c false s = openCopy d c false s := by
  have h1 : (decide (c.len ≠ 0) && decide (c.rows ≠ 0)) = true := by simp [hl, hr]
  have h2 : (decide (c.len = 0) || decide (c.rows = 0)) = false := by simp [hl, hr]
  rw [copyIssue_run, run_bind, run_legal_true (b := !false) rfl, andThen, h1, if_pos rfl, run_bind, h, andThen, h2]

/-- What CPY and CPY2D do of a copy, once it is known which operands are ILLEGAL. -/
theorem copyIssue_stated {o : Host.Outcome State Fault Refusal} {g : Gate} {clashB : Bool} {ill clash : Prop}
    (hah : s.ctx.ahead = false) (ho : o = issue g (unlessAhead (copyIssue d c clashB)) s) (ha : g.acc = none)
    (hill : g.ill = true ↔ ill) (hclash : ¬ ill → (clashB = true ↔ clash)) (hi : s.CanIssue g.reads) :
    (ill → Traps s o .illegal (s.ctx.ir.zeroExtend 80)) ∧
    (¬ ill → clash → Traps s o .illegal (s.ctx.ir.zeroExtend 80)) ∧
    (¬ ill → ¬ clash → c.len ≠ 0 → c.rows ≠ 0 →
      (∀ k, srcCause c = some k → Traps s o k (tvalOf (rowsLo (capA c.src) c.rows c.sp))) ∧
      (∀ k, srcCause c = none → dstCause c = some k → Traps s o k (tvalOf (rowsLo (capA c.dst) c.rows c.dp))) ∧
      (srcCause c = none → dstCause c = none → ¬ SideAligned c (rowsLo (capA c.src) c.rows c.sp) c.sBits →
        Traps s o .align (tvalOf (rowsLo (capA c.src) c.rows c.sp))) ∧
      (srcCause c = none → dstCause c = none → SideAligned c (rowsLo (capA c.src) c.rows c.sp) c.sBits →
        ¬ SideAligned c (rowsLo (capA c.dst) c.rows c.dp) c.dBits → Traps s o .align (tvalOf (rowsLo (capA c.dst) c.rows c.dp)))) ∧
    (¬ ill → ¬ clash → (c.len = 0 ∨ c.rows = 0 ∨ (srcCause c = none ∧ dstCause c = none ∧
        SideAligned c (rowsLo (capA c.src) c.rows c.sp) c.sBits ∧ SideAligned c (rowsLo (capA c.dst) c.rows c.dp) c.dBits ∧
        (c.tags = true → c.len % 16 = 0))) → CopyOpens s d o c (c.len = 0 || c.rows = 0)) := by
  have hrun := unlessAhead_runs (s := s) (body := copyIssue d c clashB) hah
  have hg (h : ¬ ill) : g.ill = false := by
    rw [← Bool.not_eq_true, hill]
    exact h
  have hc (h : ¬ ill) (h' : ¬ clash) : clashB = false := by
    rw [← Bool.not_eq_true, hclash h]
    exact h'
  subst ho
  have hraise (h : ¬ ill) (h' : ¬ clash) (hl : c.len ≠ 0) (hr : c.rows ≠ 0) {k : Cause} {v : Addr}
      (hx : extentNeeds c s = .error (.trap ⟨k, v⟩) s) : Traps s (issue g (unlessAhead (copyIssue d c clashB)) s) k v := by
    refine issue_traps hi (hg h) ha ?_
    rw [hrun, hc h h']
    exact copyIssue_raises d c hl hr hx
  refine ⟨fun h => ?_, fun h h' => ?_, fun h h' hl hr => ⟨fun k h1 => ?_, fun k h1 h2 => ?_, fun h1 h2 h3 => ?_, fun h1 h2 h3 h4 => ?_⟩,
    fun h h' hp => ?_⟩
  · exact issue_traps_illegal _ hi.notStopped (hill.mpr h)
  · refine legal_traps hi (hg h) ha ?_ _ (hrun.trans (copyIssue_run d c clashB))
    rw [(hclash h).mpr h']
    rfl
  · exact hraise h h' hl hr (extentNeeds_src c h1)
  · exact hraise h h' hl hr (extentNeeds_dst c h1 h2)
  · exact hraise h h' hl hr (extentNeeds_alignSrc c h1 h2 h3)
  · exact hraise h h' hl hr (extentNeeds_alignDst c h1 h2 h3 h4)
  · refine copyOpens_of_issue d c hi (hg h) ha ?_
    rw [hrun, hc h h']
    by_cases hl : c.len = 0
    · rw [copyIssue_idle d c (.inl hl), decide_eq_true hl, Bool.true_or]
    · by_cases hr : c.rows = 0
      · rw [copyIssue_idle d c (.inr hr), decide_eq_true hr, Bool.or_true]
      · obtain ⟨h1, h2, h3, h4, h5⟩ := (hp.resolve_left hl).resolve_left hr
        rw [copyIssue_passes d c hl hr (extentNeeds_passes c h1 h2 h3 h4 h5), decide_eq_false hl, decide_eq_false hr]
        rfl

/-! ### Which rows share a byte (log 21) -/

theorem meet_iff (a n b m : Int) : meet a n b m = true ↔ a < b + m ∧ b < a + n ∧ 0 < n ∧ 0 < m := by
  simp [meet, and_assoc]

theorem tyMemBits_pos {t : Nat} (h : (tyIntAll t || tyFloatAll t || t == 17) = true) : 0 < tyMemBits t := by
  have ht : t < 23 := by
    simp only [tyIntAll, tyFloatAll, Bool.or_eq_true, Bool.and_eq_true, decide_eq_true_eq, beq_iff_eq] at h
    omega
  revert h
  interval_cases t <;> decide

theorem cvtPair_bits {a b : Nat} (h : cvtPair a b = true) : 0 < tyMemBits a ∧ 0 < tyMemBits b := by
  simp only [cvtPair, Bool.or_eq_true, Bool.and_eq_true, beq_iff_eq] at h
  rcases h with (⟨ha, hb⟩ | ⟨rfl, rfl⟩) | ⟨rfl, rfl⟩
  · exact ⟨tyMemBits_pos (by simp only [Bool.or_eq_true]; exact .inl ha), tyMemBits_pos (by simp only [Bool.or_eq_true]; exact .inl hb)⟩
  · decide
  · decide

theorem cvtBad_bits (h : s.cvtBad = false) : 0 < tyMemBits s.vt ∧ 0 < tyMemBits s.vt2 := by
  refine cvtPair_bits ?_
  simp only [State.cvtBad, State.vtBad, Bool.or_eq_false_iff, Bool.not_eq_false', Bool.and_eq_true] at h
  exact h.1.1.1.2

theorem itemBytes_pos {n bits : Nat} (hn : n ≠ 0) (hb : 0 < bits) : 0 < itemBytes n bits := by
  have : 0 < n * bits := Nat.mul_pos (Nat.pos_of_ne_zero hn) hb
  unfold itemBytes
  omega

theorem itemBytes_zero (bits : Nat) : itemBytes 0 bits = 0 := by simp [itemBytes]

/-- A row lies in the extent of its side. -/
theorem row_within {x rows : Nat} (p : Int) (hx : x < rows) :
    min 0 (((rows : Int) - 1) * p) ≤ x * p ∧ (x : Int) * p ≤ max 0 (((rows : Int) - 1) * p) := by
  have hle : (x : Int) ≤ (rows : Int) - 1 := by omega
  rcases le_total 0 p with hp | hp
  · have h1 : 0 ≤ (x : Int) * p := mul_nonneg (by omega) hp
    exact ⟨(min_le_left _ _).trans h1, (mul_le_mul_of_nonneg_right hle hp).trans (le_max_right _ _)⟩
  · have h1 : (x : Int) * p ≤ 0 := mul_nonpos_of_nonneg_of_nonpos (by omega) hp
    exact ⟨(min_le_right _ _).trans (mul_le_mul_of_nonpos_right hle hp), h1.trans (le_max_left _ _)⟩

/-- Two rows of the copy share a byte, or two of one side do (log 21). -/
def CopyClash (c : Copy) : Prop :=
  c.len ≠ 0 ∧ c.rows ≠ 0 ∧
    ((1 < c.rows ∧ (c.sp.natAbs < itemBytes c.len c.sBits ∨ c.dp.natAbs < itemBytes c.len c.dBits)) ∨
      ∃ x < c.rows, ∃ y < c.rows, (capA c.src : Int) + x * c.sp < (capA c.dst : Int) + y * c.dp + itemBytes c.len c.dBits ∧
        (capA c.dst : Int) + y * c.dp < (capA c.src : Int) + x * c.sp + itemBytes c.len c.sBits)

variable {c}

theorem extentsMeet_iff (hs : 0 < c.sBits) (hd : 0 < c.dBits) (h1 : c.rows = 1) : c.extentsMeet = true ↔ CopyClash c := by
  unfold Copy.extentsMeet CopyClash
  rw [meet_iff, h1]
  by_cases hl : c.len = 0
  · simp [hl, itemBytes_zero]
  · have hn := itemBytes_pos hl hs
    have hm := itemBytes_pos hl hd
    simp only [Nat.lt_irrefl, false_and, false_or, Nat.lt_one_iff, exists_eq_left, Nat.cast_zero, zero_mul, add_zero]
    constructor
    · rintro ⟨h2, h3, -, -⟩
      exact ⟨hl, by decide, h2, h3⟩
    · rintro ⟨-, -, h2, h3⟩
      exact ⟨h2, h3, by omega, by omega⟩

theorem rowsMeet_iff (hs : 0 < c.sBits) (hd : 0 < c.dBits) : c.rowsMeet = true ↔ CopyClash c := by
  unfold Copy.rowsMeet CopyClash
  dsimp only
  by_cases hl : c.len = 0
  · simp [hl, itemBytes_zero, meet_iff]
  · have hn := itemBytes_pos hl hs
    have hm := itemBytes_pos hl hd
    simp only [Bool.or_eq_true, Bool.and_eq_true, decide_eq_true_eq, List.any_eq_true, List.mem_range, meet_iff, rowsLo, rowsHi]
    constructor
    · rintro (⟨h2, h3⟩ | ⟨-, x, hx, y, hy, h2, h3, -, -⟩)
      · exact ⟨hl, by omega, .inl ⟨h2, h3⟩⟩
      · exact ⟨hl, by omega, .inr ⟨x, hx, y, hy, h2, h3⟩⟩
    · rintro ⟨-, -, h2 | ⟨x, hx, y, hy, h2, h3⟩⟩
      · exact .inl h2
      · refine .inr ⟨?_, x, hx, y, hy, h2, h3, by omega, by omega⟩
        obtain ⟨h4, h5⟩ := row_within c.sp hx
        obtain ⟨h6, h7⟩ := row_within c.dp hy
        omega

/-- Operands of CONV that a copy does not take (R64, R356). -/
theorem convOk_iff : c.convOk s = false ↔ c.conv = true ∧ (s.cvtBad = true ∨ ((tyMemBits c.vt = 6 ∨ tyMemBits c.vt2 = 6) ∧ c.len % 32 ≠ 0)) := by
  unfold Copy.convOk
  cases c.conv <;> cases s.cvtBad <;> simp
  tauto

theorem copy_bits (hv : c.vt = s.vt) (hv2 : c.vt2 = s.vt2) (h : ¬ (c.conv = true ∧ s.cvtBad = true)) : 0 < c.sBits ∧ 0 < c.dBits := by
  unfold Copy.sBits Copy.dBits
  cases hc : c.conv with
  | false => simp
  | true =>
    have hb := cvtBad_bits (s := s) (by simpa [hc] using h)
    rw [hv, hv2]
    exact hb

end Plain

/-! ### CPYQ (R356) -/

section Queue

variable {s : State} (st : Fin 8) (d a b : Fin 32)

/-- The copy that a CPYQ samples. -/
def queueCopy (s : State) (a b : Fin 32) : Copy :=
  { kind := .cpyq, dst := s.rc a, src := s.rc b, list := (s.ro 2).toNat, cnt := (s.ro 3).toNat, rows := 0, y := s.pccY }

/-- The operation of CPYQ. -/
def queueBody (d a b : Fin 32) (cnt : Nat) : Op Unit := do
  let s ← get
  let list := (s.ro 2).toNat
  let base := Config.LW + 0x100000
  match s.listOut list (24 * cnt) with
  | some x => raise .page (base + x)
  | none => pure ()
  need (list % 8 = 0) .align (base + list)
  openCopy d { kind := .cpyq, dst := s.rc a, src := s.rc b, list := list, cnt := cnt, rows := 0, y := s.pccY } false

theorem execCpyq_eq : execCpyq st d a b s =
    issue { st := st.val, ill := (s.ro 3).toNat = 0 || decide (1024 < (s.ro 3).toNat), reads := [rdC a, rdC b, rdO 2, rdO 3] }
      (unlessAhead (queueBody d a b (s.ro 3).toNat)) s := rfl

theorem firstBad_none_iff (f : Nat → Bool) (x n : Nat) : firstBad f x n = none ↔ ∀ y, x ≤ y → y < x + n → f y = true := by
  induction n generalizing x with
  | zero => simp only [firstBad, true_iff]; intro y _ _; omega
  | succ n ih =>
    unfold firstBad
    cases hf : f x with
    | true =>
      rw [if_pos rfl, ih]
      constructor
      · intro h y h1 h2
        rcases Nat.eq_or_lt_of_le h1 with rfl | h1
        · exact hf
        · exact h y h1 (by omega)
      · exact fun h y h1 h2 => h y (by omega) (by omega)
    | false =>
      rw [if_neg Bool.false_ne_true]
      refine ⟨nofun, fun h => ?_⟩
      rw [h x le_rfl (by omega)] at hf
      exact absurd hf nofun

theorem listOut_none_iff {off n : Nat} (hn : 0 < n) :
    s.listOut off n = none ↔ s.core.b0 * 1024 ≤ off ∧ off + n ≤ s.core.b1 * 1024 := by
  unfold State.listOut
  rw [firstBad_none_iff]
  simp only [Core.inPad, Bool.and_eq_true, decide_eq_true_eq]
  constructor
  · intro h
    have h1 := h off le_rfl (by omega)
    have h2 := h (off + n - 1) (by omega) (by omega)
    omega
  · intro h y h1 h2
    omega

theorem cpyq_illegal (hi : s.CanIssue [rdC a, rdC b, rdO 2, rdO 3]) (h : (s.ro 3).toNat = 0 ∨ 1024 < (s.ro 3).toNat) :
    Traps s (execCpyq st d a b s) .illegal (s.ctx.ir.zeroExtend 80) := by
  rw [execCpyq_eq]
  exact issue_traps_illegal _ hi.notStopped (by simpa using h)

theorem cpyq_ill_false (h1 : 1 ≤ (s.ro 3).toNat) (h2 : (s.ro 3).toNat ≤ 1024) :
    (decide ((s.ro 3).toNat = 0) || decide (1024 < (s.ro 3).toNat)) = false := by
  rw [decide_eq_false (by omega), decide_eq_false (by omega)]
  rfl

theorem cpyq_outside (hah : s.ctx.ahead = false) (hi : s.CanIssue [rdC a, rdC b, rdO 2, rdO 3]) (h1 : 1 ≤ (s.ro 3).toNat)
    (h2 : (s.ro 3).toNat ≤ 1024) (h : ¬ (s.core.b0 * 1024 ≤ (s.ro 2).toNat ∧ (s.ro 2).toNat + 24 * (s.ro 3).toNat ≤ s.core.b1 * 1024)) :
    ∃ x, Traps s (execCpyq st d a b s) .page (tvalOf x) := by
  obtain ⟨x, hx⟩ := Option.ne_none_iff_exists'.mp (fun e => h ((listOut_none_iff (s := s) (by omega)).mp e))
  refine ⟨(Config.LW + 0x100000 : Nat) + x, ?_⟩
  rw [execCpyq_eq]
  refine issue_traps (g := { st := st.val, ill := (s.ro 3).toNat = 0 || decide (1024 < (s.ro 3).toNat), reads := _ }) hi
    (cpyq_ill_false h1 h2) rfl (t := s) ?_
  rw [unlessAhead_runs hah, queueBody, run_bind, get_run, andThen]
  dsimp only
  rw [hx]
  rfl

theorem cpyq_opens (hah : s.ctx.ahead = false) (hi : s.CanIssue [rdC a, rdC b, rdO 2, rdO 3]) (h1 : 1 ≤ (s.ro 3).toNat)
    (h2 : (s.ro 3).toNat ≤ 1024) (h : s.core.b0 * 1024 ≤ (s.ro 2).toNat ∧ (s.ro 2).toNat + 24 * (s.ro 3).toNat ≤ s.core.b1 * 1024)
    (h8 : (s.ro 2).toNat % 8 = 0) : CopyOpens s d (execCpyq st d a b s) (queueCopy s a b) false := by
  rw [execCpyq_eq]
  refine copyOpens_of_issue (g := { st := st.val, ill := (s.ro 3).toNat = 0 || decide (1024 < (s.ro 3).toNat), reads := _ }) d _ hi
    (cpyq_ill_false h1 h2) rfl ?_
  rw [unlessAhead_runs hah, queueBody, run_bind, get_run, andThen]
  dsimp only
  rw [(listOut_none_iff (s := s) (by omega)).mpr h, decide_eq_true h8]
  rfl

end Queue

/-! ### CPYX (R356) -/

section Remote

variable {s : State} (st : Fin 8) (d a b : Fin 32)

/-- The copy that a CPYX samples. -/
def pushCopy (s : State) (a b : Fin 32) : Copy :=
  { kind := .cpyx, dst := s.rc a, src := s.rc b, len := (s.ro 2).toNat, pool := (s.ro 3).getLsbD 24, peer := fld (s.ro 3) 0 24,
    y := s.pccY }

/-- The operation of CPYX. -/
def pushBody (d a b : Fin 32) (e : Nat) (pool : Bool) : Op Unit := do
  let s ← get
  let c : Copy := { kind := .cpyx, dst := s.rc a, src := s.rc b, len := (s.ro 2).toNat, pool := pool, peer := e, y := s.pccY }
  legal (!((if pool then e = s.myEid else eidPkg e = s.pkgNo) && c.extentsMeet))
  if c.len ≠ 0 then
    sideNeed c.src [pL] (capA c.src) (capA c.src + c.len)
    sideNeed c.dst ([pS] ++ if pool && e = s.myEid then [] else [pM]) (capA c.dst) (capA c.dst + c.len)
    match xOut pool (capA c.dst) c.len with
    | some x => raise .page x
    | none => pure ()
  openCopy d c (c.len = 0)

/-- Reserved bits, and an endpoint that is no core or no package. -/
def pushBad (s : State) : Bool :=
  fld (s.ro 3) 25 39 ≠ 0 || (if (s.ro 3).getLsbD 24 then !Machine.isCore (eidLocal (fld (s.ro 3) 0 24)) else eidLocal (fld (s.ro 3) 0 24) ≠ 0)

theorem execCpyx_eq : execCpyx st d a b s =
    issue { st := st.val, ill := pushBad s, reads := [rdC a, rdC b, rdO 2, rdO 3] }
      (unlessAhead (pushBody d a b (fld (s.ro 3) 0 24) ((s.ro 3).getLsbD 24))) s := rfl

/-- Source and destination share a byte. -/
def PushClash (s : State) (a b : Fin 32) : Prop :=
  (if (s.ro 3).getLsbD 24 = true then fld (s.ro 3) 0 24 = s.myEid else fld (s.ro 3) 0 24 / 4096 = s.pkgNo) ∧ (s.ro 2).toNat ≠ 0 ∧
    capA (s.rc b) < capA (s.rc a) + (s.ro 2).toNat ∧ capA (s.rc a) < capA (s.rc b) + (s.ro 2).toNat

theorem eidPkg_fld (w : Word) : eidPkg (fld w 0 24) = fld w 0 24 / 4096 := by
  have := fld_lt w 0 24
  unfold eidPkg
  omega

/-- Whether the destination lies where the source does. -/
def pushHere (s : State) : Bool :=
  if (s.ro 3).getLsbD 24 then fld (s.ro 3) 0 24 = s.myEid else eidPkg (fld (s.ro 3) 0 24) = s.pkgNo

theorem pushHere_iff : pushHere s = true ↔
    (if (s.ro 3).getLsbD 24 = true then fld (s.ro 3) 0 24 = s.myEid else fld (s.ro 3) 0 24 / 4096 = s.pkgNo) := by
  unfold pushHere
  rw [eidPkg_fld]
  split <;> exact decide_eq_true_iff

theorem pushClash_iff : (pushHere s && (pushCopy s a b).extentsMeet) = true ↔ PushClash s a b := by
  have h8 (n : Nat) : itemBytes n 8 = n := by
    unfold itemBytes
    omega
  have hmeet : (pushCopy s a b).extentsMeet = true ↔ (s.ro 2).toNat ≠ 0 ∧ capA (s.rc b) < capA (s.rc a) + (s.ro 2).toNat ∧
      capA (s.rc a) < capA (s.rc b) + (s.ro 2).toNat := by
    unfold Copy.extentsMeet
    rw [meet_iff]
    show (capA (s.rc b) : Int) < (capA (s.rc a) : Int) + itemBytes (s.ro 2).toNat 8 ∧
      (capA (s.rc a) : Int) < (capA (s.rc b) : Int) + itemBytes (s.ro 2).toNat 8 ∧ (0 : Int) < itemBytes (s.ro 2).toNat 8 ∧
      (0 : Int) < itemBytes (s.ro 2).toNat 8 ↔ _
    rw [h8]
    omega
  rw [Bool.and_eq_true, pushHere_iff, hmeet]
  rfl

theorem pushBad_iff : pushBad s = true ↔ 2 ^ 25 ≤ (s.ro 3).toNat ∨ ((s.ro 3).getLsbD 24 = false ∧ fld (s.ro 3) 0 24 % 4096 ≠ 0) ∨
    ((s.ro 3).getLsbD 24 = true ∧ 256 ≤ fld (s.ro 3) 0 24 % 1024) := by
  have hres : fld (s.ro 3) 25 39 ≠ 0 ↔ 2 ^ 25 ≤ (s.ro 3).toNat := by
    have := (s.ro 3).isLt
    unfold fld
    omega
  have hcore : (!Machine.isCore (eidLocal (fld (s.ro 3) 0 24))) = true ↔ 256 ≤ fld (s.ro 3) 0 24 % 1024 := by
    unfold Machine.isCore lidUnit eidLocal
    rw [Bool.not_eq_true', decide_eq_false_iff_not]
    omega
  unfold pushBad
  rw [Bool.or_eq_true, decide_eq_true_eq, hres]
  cases (s.ro 3).getLsbD 24
  · show _ ∨ decide (eidLocal (fld (s.ro 3) 0 24) ≠ 0) = true ↔ _
    rw [decide_eq_true_eq]
    simp [eidLocal]
  · show _ ∨ (!Machine.isCore (eidLocal (fld (s.ro 3) 0 24))) = true ↔ _
    rw [hcore]
    simp

/-- The checks of the two sides of a CPYX, and its destination's place. -/
def pushSrcCause (s : State) (b : Fin 32) : Option Cause :=
  sideCause (s.rc b) [pL] (capA (s.rc b)) (capA (s.rc b) + (s.ro 2).toNat)
def pushDstCause (s : State) (a : Fin 32) : Option Cause :=
  sideCause (s.rc a) ([pS] ++ if (s.ro 3).getLsbD 24 && fld (s.ro 3) 0 24 = s.myEid then [] else [pM]) (capA (s.rc a))
    (capA (s.rc a) + (s.ro 2).toNat)

/-- The destination leaves the window that it must lie in, or meets the one that it must not. -/
def PushOut (s : State) (a : Fin 32) : Prop :=
  if (s.ro 3).getLsbD 24 = true then
    capA (s.rc a) < Config.LW + 0x100000 ∨ Config.LW + 0x140000 < capA (s.rc a) + (s.ro 2).toNat
  else Config.LW < capA (s.rc a) + (s.ro 2).toNat

theorem xOut_none_iff (pool : Bool) (x n : Nat) : xOut pool x n = none ↔
    ¬ (if pool = true then x < Config.LW + 0x100000 ∨ Config.LW + 0x140000 < x + n else Config.LW < x + n) := by
  unfold xOut
  cases pool with
  | false =>
    rw [if_neg Bool.false_ne_true, if_neg Bool.false_ne_true]
    split
    · simp [*]
    · simp [*]
  | true =>
    rw [if_pos rfl, if_pos rfl]
    split
    · simp [*]
    · split
      · simp [*]
      · simp [*]

/-- What a CPYX checks once its operands are not ILLEGAL. -/
def pushNeeds (s : State) (a b : Fin 32) : Op Unit := do
  sideNeed (s.rc b) [pL] (capA (s.rc b)) (capA (s.rc b) + (s.ro 2).toNat)
  sideNeed (s.rc a) ([pS] ++ if (s.ro 3).getLsbD 24 && fld (s.ro 3) 0 24 = s.myEid then [] else [pM]) (capA (s.rc a))
    (capA (s.rc a) + (s.ro 2).toNat)
  match xOut ((s.ro 3).getLsbD 24) (capA (s.rc a)) (s.ro 2).toNat with
  | some x => raise .page x
  | none => pure ()

theorem pushBody_run : pushBody d a b (fld (s.ro 3) 0 24) ((s.ro 3).getLsbD 24) s =
    (legal (!(pushHere s && (pushCopy s a b).extentsMeet)) >>= fun _ =>
      if (s.ro 2).toNat ≠ 0 then pushNeeds s a b >>= fun _ => openCopy d (pushCopy s a b) ((s.ro 2).toNat = 0)
      else openCopy d (pushCopy s a b) ((s.ro 2).toNat = 0)) s := by
  unfold pushBody pushNeeds
  rw [run_bind, get_run, andThen, run_bind]
  refine Eq.trans (congrArg _ (funext fun _ => ?_)) (run_bind _ _ _).symm
  dsimp only [pushCopy]
  by_cases hl : (s.ro 2).toNat ≠ 0
  · rw [if_pos hl, if_pos hl]
    simp only [bind_assoc]
    cases xOut ((s.ro 3).getLsbD 24) (capA (s.rc a)) (s.ro 2).toNat <;> rfl
  · rw [if_neg hl, if_neg hl]

/-- A CPYX whose operands are ILLEGAL, or whose ranges meet. -/
theorem cpyx_illegal (hah : s.ctx.ahead = false) (hi : s.CanIssue [rdC a, rdC b, rdO 2, rdO 3])
    (h : pushBad s = true ∨ PushClash s a b) : Traps s (execCpyx st d a b s) .illegal (s.ctx.ir.zeroExtend 80) := by
  rw [execCpyx_eq]
  cases hb : pushBad s with
  | true => exact issue_traps_illegal _ hi.notStopped rfl
  | false =>
    refine legal_traps (g := { st := st.val, ill := false, reads := _ }) hi rfl rfl ?_ _
      ((unlessAhead_runs hah).trans (pushBody_run d a b))
    rw [(pushClash_iff a b).mpr (h.resolve_left (by rw [hb]; exact Bool.false_ne_true))]
    rfl

section Passing

variable (hah : s.ctx.ahead = false) (hi : s.CanIssue [rdC a, rdC b, rdO 2, rdO 3]) (hb : pushBad s = false) (hc : ¬ PushClash s a b)
include hah hi hb hc

theorem cpyx_raises {k : Cause} {v : Addr} (hn : (s.ro 2).toNat ≠ 0) (h : pushNeeds s a b s = .error (.trap ⟨k, v⟩) s) :
    Traps s (execCpyx st d a b s) k v := by
  rw [execCpyx_eq, hb]
  refine issue_traps (g := { st := st.val, ill := false, reads := _ }) hi rfl rfl ?_
  rw [unlessAhead_runs hah, pushBody_run, run_bind, run_legal_true (by rw [Bool.not_eq_true', ← Bool.not_eq_true, pushClash_iff]; exact hc),
    andThen, if_pos hn, run_bind, h]
  rfl

theorem cpyx_causes (hn : (s.ro 2).toNat ≠ 0) :
    (∀ k, pushSrcCause s b = some k → Traps s (execCpyx st d a b s) k (tvalOf (capA (s.rc b)))) ∧
    (∀ k, pushSrcCause s b = none → pushDstCause s a = some k → Traps s (execCpyx st d a b s) k (tvalOf (capA (s.rc a)))) ∧
    (pushSrcCause s b = none → pushDstCause s a = none → PushOut s a → ∃ x, Traps s (execCpyx st d a b s) .page (tvalOf x)) := by
  refine ⟨fun k h1 => ?_, fun k h1 h2 => ?_, fun h1 h2 h3 => ?_⟩
  · refine cpyx_raises st d a b hah hi hb hc hn ?_
    rw [pushNeeds, run_bind, sideNeed_raises h1]
    rfl
  · refine cpyx_raises st d a b hah hi hb hc hn ?_
    rw [pushNeeds, run_bind, sideNeed_passes h1, andThen, run_bind, sideNeed_raises h2]
    rfl
  · obtain ⟨x, hx⟩ := Option.ne_none_iff_exists'.mp (fun e => (xOut_none_iff _ _ _).mp e h3)
    refine ⟨x, cpyx_raises st d a b hah hi hb hc hn ?_⟩
    rw [pushNeeds, run_bind, sideNeed_passes h1, andThen, run_bind, sideNeed_passes h2, andThen, hx]
    rfl

theorem cpyx_opens (h : (s.ro 2).toNat = 0 ∨ pushSrcCause s b = none ∧ pushDstCause s a = none ∧ ¬ PushOut s a) :
    CopyOpens s d (execCpyx st d a b s) (pushCopy s a b) ((s.ro 2).toNat = 0) := by
  rw [execCpyx_eq, hb]
  refine copyOpens_of_issue (g := { st := st.val, ill := false, reads := _ }) d _ hi rfl rfl ?_
  rw [unlessAhead_runs hah, pushBody_run, run_bind, run_legal_true (by rw [Bool.not_eq_true', ← Bool.not_eq_true, pushClash_iff]; exact hc),
    andThen]
  by_cases hn : (s.ro 2).toNat ≠ 0
  · obtain ⟨h1, h2, h3⟩ := h.resolve_left hn
    rw [if_pos hn, run_bind, pushNeeds, run_bind, sideNeed_passes h1, andThen, run_bind, sideNeed_passes h2, andThen,
      (xOut_none_iff _ _ _).mpr h3]
    rfl
  · rw [if_neg hn]

end Passing

end Remote

/-! ### The statement -/

/-- The copy that CPY samples. -/
def cpyCopy (s : State) (a b : Fin 32) : Copy :=
  s.copyConv { kind := .cpy, dst := s.rc a, src := s.rc b, len := (s.ro 2).toNat } (s.ro 3).toNat

/-- The copy that CPY2D samples. -/
def cpy2dCopy (s : State) (a b : Fin 32) : Copy :=
  s.copyConv { kind := .cpy2d, dst := s.rc a, src := s.rc b, len := fld (s.ro 2) 0 32, rows := fld (s.ro 2) 32 32
               sp := (s.ro 3).toInt, dp := (s.ro 4).toInt } (s.ro 5).toNat

theorem idle_iff (m n : Nat) : (decide (m = 0) || decide (n = 0)) = true ↔ m = 0 ∨ n = 0 := by
  rw [Bool.or_eq_true, decide_eq_true_eq, decide_eq_true_eq]

theorem rounds_iff (c : Copy) : c.rounds = true ↔ c.conv = true ∧ cvtRounds c.vt c.vt2 = true := by
  rw [Copy.rounds, Bool.and_eq_true]

theorem ill_iff {s : State} {c : Copy} {flagged : Bool} {lim n : Nat} (h : flagged = true ↔ lim ≤ n) : (flagged || !c.convOk s) = true ↔
    lim ≤ n ∨ (c.conv = true ∧ (s.cvtBad = true ∨ ((tyMemBits c.vt = 6 ∨ tyMemBits c.vt2 = 6) ∧ c.len % 32 ≠ 0))) := by
  rw [Bool.or_eq_true, h, Bool.not_eq_true', convOk_iff]

/-- Settles O31: the checks of each copy run in the order of R356, and one that passes them opens its job. -/
theorem copyIssue : Obligations.CopyIssue := by
  unfold Obligations.CopyIssue
  intro s st d a b hah
  dsimp only
  refine ⟨fun hi => ?_, fun hi => ?_, fun hi => ⟨fun h => cpyq_illegal st d a b hi h, fun h1 h2 h => cpyq_outside st d a b hah hi h1 h2 h,
    fun h1 h2 h h8 => ?_⟩, fun hi => ⟨fun h => ?_, fun hw he hc => ?_⟩⟩
  · obtain ⟨h1, h2, h3, h4⟩ := copyIssue_stated d (cpyCopy s a b) hah (o := exec (.cpy st d a b) s) rfl rfl
      (ill_iff (lim := 3) (n := (s.ro 3).toNat) (by rw [Bool.or_eq_true, decide_eq_true_eq, decide_eq_true_eq]; omega))
      (fun hn => by
        obtain ⟨hs, hd⟩ := copy_bits (s := s) (c := cpyCopy s a b) rfl rfl (fun h => hn (.inr ⟨h.1, .inl h.2⟩))
        exact extentsMeet_iff hs hd rfl) hi
    exact ⟨h1, h2, h3, fun hn hc hp => (h4 hn hc hp).stated d (idle_iff _ _) (rounds_iff _) rfl rfl rfl rfl rfl
      ⟨rfl, rfl, rfl, rfl, rfl, rfl, fun _ => ⟨rfl, rfl, rfl, rfl, rfl, rfl⟩⟩⟩
  · obtain ⟨h1, h2, h3, h4⟩ := copyIssue_stated d (cpy2dCopy s a b) hah (o := exec (.cpy2d st d a b) s) rfl rfl
      (ill_iff (lim := 2) (n := (s.ro 5).toNat) (by rw [decide_eq_true_eq]; omega))
      (fun hn => by
        obtain ⟨hs, hd⟩ := copy_bits (s := s) (c := cpy2dCopy s a b) rfl rfl (fun h => hn (.inr ⟨h.1, .inl h.2⟩))
        exact rowsMeet_iff hs hd) hi
    exact ⟨h1, h2, h3, fun hn hc hp => (h4 hn hc hp).stated d (idle_iff _ _) (rounds_iff _) rfl rfl rfl rfl rfl
      ⟨rfl, rfl, rfl, rfl, rfl, rfl, fun _ => ⟨rfl, rfl, rfl, rfl, rfl, rfl⟩⟩⟩
  · exact (cpyq_opens st d a b hah hi h1 h2 h h8).stated d (by simp) (by rw [rounds_iff]; exact ⟨fun h => absurd h.1 nofun, nofun⟩)
      rfl rfl rfl rfl rfl ⟨rfl, rfl⟩
  · refine cpyx_illegal st d a b hah hi ?_
    rw [pushBad_iff]
    rcases h with h | h | h | h
    · have h0 : (s.ro 3).toNat ≠ 0 := fun e => by simp [e] at h
      exact .inl (.inl ((Nat.le_log2 h0).mp h))
    · exact .inl (.inr (.inl h))
    · exact .inl (.inr (.inr h))
    · exact .inr h
  · have hb : pushBad s = false := by
      rw [← Bool.not_eq_true, pushBad_iff]
      rintro (h | ⟨hp, h⟩ | ⟨hp, h⟩)
      · omega
      · rw [hp, if_neg Bool.false_ne_true] at he
        exact h he
      · rw [hp, if_pos rfl] at he
        omega
    refine ⟨cpyx_causes st d a b hah hi hb hc, fun h => ?_⟩
    exact (cpyx_opens st d a b hah hi hb hc h).stated d decide_eq_true_iff
      (by rw [rounds_iff]; exact ⟨fun h => absurd h.1 nofun, nofun⟩) rfl rfl rfl rfl rfl ⟨rfl, rfl, rfl⟩

end Sys2Proof.Proofs
end

section
/-! PROOFS. Packets that are taken where they arrive (R298, R299); and the remote instructions with their answers (R79, R297, R301,
R302, R304). -/
namespace Sys2Proof.Proofs
open Sys2Proof Sys2Proof.Machine Sys2Proof.Laws
set_option Elab.async false

/-! ### A packet taken -/

section Arrival

variable {s₀ s t : State} {p : Packet}

theorem eackFor_sent (p : Packet) (h : Sent s₀ s) : Sent s₀ (s.eackFor p) := by
  unfold State.eackFor
  cases hw : s.wire { kind := 5, deid := p.seid, seid := p.deid, asid := p.asid, arg0 := BitVec.ofNat 64 p.pseq } with
  | none => exact h
  | some u => exact wire_sent h hw

/-- A packet off the network, its pair expecting the one after it, its acknowledgement on the way. -/
def answeredFor (s : State) (p : Packet) : State :=
  let s := { s with net := s.net.erase p }
  let r := s.pairRx p.seid p.deid
  (s.setRx { r with want := (r.want + 1) % 65536 }).eackFor p

/-- Taking a packet of another kind than an AM changes only what is on its way and what its pair expects. -/
theorem answeredFor_sent : Sent { s with prx := (answeredFor s p).prx } (answeredFor s p) := by
  have h : Sent (({ s with net := s.net.erase p } : State).setRx
      { s.pairRx p.seid p.deid with want := ((s.pairRx p.seid p.deid).want + 1) % 65536 }) (answeredFor s p) := eackFor_sent p (.refl _)
  have hp := h.part State.prx
  refine .trans ?_ h
  rw [hp]
  exact ⟨rfl, rfl⟩

theorem answeredFor_refused : (answeredFor s p).refused p = s.refused p :=
  (answeredFor_sent.part (fun s => s.refused p)).trans rfl

theorem took_eq (hk : p.kind ≠ 1) : s.took p = if p.sequenced then answeredFor s p else { s with net := s.net.erase p } := by
  have hg (u : State) : u.gangMessage p = false := by simp [State.gangMessage, hk]
  unfold State.took
  dsimp only
  split
  · rw [hg, if_neg Bool.false_ne_true]
    rfl
  · rfl

theorem took_sent (hk : p.kind ≠ 1) : Sent { s with prx := (s.took p).prx } (s.took p) := by
  rw [took_eq hk]
  split
  · exact answeredFor_sent
  · exact ⟨rfl, rfl⟩

/-- A packet that is accepted where it arrives is performed there (R16, R298, R299). -/
theorem arrive_took (ht : s.Takes p) (hk : p.kind ≠ 1) (f : State → State) : s.arrive p f = f (s.took p) := by
  have hni : s.niWait.contains p = false := by simpa using ht.fresh
  have hpkg : s.pkg.isNone = false := by
    cases h : s.pkg
    · exact absurd ht.named (by simp [h])
    · rfl
  have hhere : ¬ eidPkg p.deid ≠ ({ s with net := s.net.erase p } : State).pkgNo := not_not.mpr ht.here
  rw [took_eq hk]
  unfold State.arrive
  dsimp only
  rw [hni, if_neg Bool.false_ne_true, hpkg, Bool.false_and, if_neg Bool.false_ne_true, if_neg hhere]
  cases hseq : p.sequenced with
  | false =>
    have hr : ({ s with net := s.net.erase p } : State).refused p = false := ht.up
    rw [Bool.not_false, if_pos rfl, hr, if_neg Bool.false_ne_true, if_neg Bool.false_ne_true]
  | true =>
    have hacc : ({ s with net := s.net.erase p } : State).accept p = answeredFor s p := by
      have hg (u : State) : (!u.refused p && u.gangMessage p) = false := by simp [State.gangMessage, hk]
      unfold State.accept
      dsimp only
      rw [hg, if_neg Bool.false_ne_true]
      rfl
    have hk1 : decide (p.kind = 1) = false := decide_eq_false hk
    have hgap : (p.pseq + 65536 - (({ s with net := s.net.erase p } : State).pairRx p.seid p.deid).want) % 65536 = 0 := ht.next hseq
    rw [Bool.not_true, if_neg Bool.false_ne_true, if_pos hgap, hacc, if_neg (by rw [answeredFor_refused, ht.up]; exact Bool.false_ne_true),
      hk1, Bool.false_and, Bool.false_and, if_neg Bool.false_ne_true, if_pos rfl, ht.one]
    rw [List.map_nil, List.append_nil]

end Arrival

/-! ### The checks and the packet of a remote instruction (R301, R302) -/

section Remote

variable {s u v : State} {c : Cap} {ps : List Nat} {n : Nat}

theorem remoteNeed_raises {e : Cause} (h : capCheck c ps (capA c) n n = some e) :
    remoteNeed c ps n s = .error (.trap ⟨e, tvalOf (capA c)⟩) s := by
  unfold remoteNeed
  rw [run_bind, capNeed_raises s h]
  rfl

theorem remoteNeed_window (h : capCheck c ps (capA c) n n = none) (hw : capA c / 2 ^ 64 = 0xFFFF) :
    remoteNeed c ps n s = .error (.trap ⟨.page, tvalOf (capA c)⟩) s := by
  unfold remoteNeed
  rw [run_bind, capNeed_ok s h, andThen, run_need, if_neg (by simpa using hw)]
  rfl

theorem remoteNeed_passes (h : capCheck c ps (capA c) n n = none) (hw : capA c / 2 ^ 64 ≠ 0xFFFF) : remoteNeed c ps n s = .ok () s := by
  unfold remoteNeed
  rw [run_bind, capNeed_ok s h, andThen, run_need, if_pos (by simpa using hw)]

/-- What a remote instruction's checks answer, and what it leaves once they pass. -/
theorem remote_checks {o : Host.Outcome State Fault Refusal} {g : Gate} {ok : Bool} {body : Op Unit} {k : Unit → Op Unit}
    (hah : s.ctx.ahead = false) (ho : o = issue g (unlessAhead body) s) (hg : g.ill = false) (ha : g.acc = none) (hi : s.CanIssue g.reads)
    (hbody : body s = (legal ok >>= fun _ => remoteNeed c ps n >>= k) s) (hk : k () s = .ok () v) :
    (ok = false → Traps s o .illegal (s.ctx.ir.zeroExtend 80)) ∧
    (ok = true →
      (∀ e, capCheck c ps (capA c) n n = some e → Traps s o e (tvalOf (capA c))) ∧
      (capCheck c ps (capA c) n n = none → capA c / 2 ^ 64 = 0xFFFF → Traps s o .page (tvalOf (capA c))) ∧
      (capCheck c ps (capA c) n n = none → capA c / 2 ^ 64 ≠ 0xFFFF → o = s.retire g.st v)) := by
  subst ho
  have hrun := (unlessAhead_runs (s := s) (body := body) hah).trans hbody
  refine ⟨fun h => legal_traps hi hg ha h _ hrun, fun h => ⟨fun e he => ?_, fun h1 h2 => ?_, fun h1 h2 => ?_⟩⟩
  · refine issue_traps hi hg ha (t := s) (hrun.trans ?_)
    rw [run_bind, run_legal_true h, andThen, run_bind, remoteNeed_raises he]
    rfl
  · refine issue_traps hi hg ha (t := s) (hrun.trans ?_)
    rw [run_bind, run_legal_true h, andThen, run_bind, remoteNeed_window h1 h2]
    rfl
  · refine issue_retires hi hg ha (hrun.trans ?_)
    rw [run_bind, run_legal_true h, andThen, run_bind, remoteNeed_passes h1 h2]
    exact hk

/-- What comes after the packet is sent: at most the register waits for the answer. -/
structure AfterSend (w v : State) (d : Fin 32) (tag : Nat) (reg : Bool) : Prop where
  stands : Stands w v
  rc     : ∀ n, v.rc n = w.rc n
  o      : v.ctx.o = w.ctx.o
  offers : Offers w v
  core   : v.core = { w.core with ctxs := v.core.ctxs }
  waits  : reg = true → d ≠ 0 → { file := .c, idx := d.val, op := tag, val := none } ∈ v.ctx.pend
  keeps  : reg = false → v.ctx.pend = w.ctx.pend

theorem awaitReg_after (w : State) (d : Fin 32) (tag : Nat) : AfterSend w (w.awaitReg d tag) d tag true := by
  obtain ⟨h1, h2, h3, h4, h5, h6⟩ := awaitReg_facts (s := w) d tag
  exact ⟨h1, h2, h3, h4, h5, fun _ => h6, nofun⟩

theorem sameCore_after (w : State) (d : Fin 32) (tag : Nat) : AfterSend w w d tag false :=
  ⟨.refl w, fun _ => rfl, rfl, .refl w, rfl, nofun, fun _ => rfl⟩

theorem edge_after (w : State) (a b : Nat × Nat) (d : Fin 32) (tag : Nat) : AfterSend w (w.edge a b) d tag false :=
  ⟨stands_of_ctx rfl rfl, fun _ => rfl, rfl, edge_offers a b, rfl, nofun, fun _ => rfl⟩

/-- One packet of a remote access, sent from `u`, which has the core and the package's name of `s`. -/
theorem remote_sends {d : Fin 32} {p : Packet} {f : RemOp → RemOp} {reg : Bool} (st : Nat) (hcore : u.core = s.core) (hasid : u.asid = s.asid)
    (heid : u.myEid = s.myEid) (hr : p.rest = []) (hh : p.handler < 8) (hpin : p.pin = 0)
    (hf : (sentOp u p f).tag = u.newTag p.pin ∧ (sentOp u p f).ctx = u.core.cur.val ∧ (sentOp u p f).counts = true ∧
      (sentOp u p f).job = none ∧ (sentOp u p f).pkt = (sentOp u p id).pkt)
    (hv : AfterSend (u.sendOp p f).1 v d (u.newTag p.pin) reg) :
    ∃ t x, s.retire st v = .next t ∧ Advanced s t ∧ OnlySends u t ∧ t.core.ops = s.core.ops ++ [x] ∧
      x.tag = s.newTag 0 ∧ x.ctx = s.core.cur.val ∧ x.counts = true ∧ x.job = none ∧ x.pkt.kind = 1 ∧
      x.pkt.deid = p.deid ∧ x.pkt.seid = s.myEid ∧ x.pkt.asid = s.asid ∧ x.pkt.otag = s.newTag 0 ∧
      x.pkt.arg0 = p.arg0 ∧ (x.pkt.handler = p.handler ∧ x.pkt.arg1 = p.arg1 ∧ x.pkt.arg2 = p.arg2 ∧ x.pkt.arg3 = p.arg3) ∧
      (∀ r, t.rc r = s.rc r) ∧
      (reg = true → d ≠ 0 → { file := .c, idx := d.val, op := s.newTag 0, val := none } ∈ t.ctx.pend) ∧
      (reg = false → t.ctx.pend = s.ctx.pend) := by
  obtain ⟨htag, hctx, hcounts, hjob, hpkt⟩ := hf
  obtain ⟨w, hw⟩ : ∃ w, w = (u.sendOp p f).1 := ⟨_, rfl⟩
  rw [← hw] at hv
  have hq : SendsOp u w (sentOp u p f) := hw ▸ sendFrom_sendsOp hr (.inr (.inl hh))
  have hnew : u.newTag p.pin = s.newTag 0 := by
    unfold State.newTag
    rw [hcore, hpin]
  have hus : Stands s u := stands_of_ctx (by rw [hcore]) (by simp only [State.ctx, hcore])
  have huc : u.ctx = s.ctx := by simp only [State.ctx, hcore]
  rw [hnew] at hv
  refine ⟨_, sentOp u p f, rfl, advanced_finish ((hus.trans hq.stands).trans hv.stands) st ?_,
    ((hq.offers.trans hv.offers).trans (finish_offers _ _)).onlySends ?_, ?_, htag.trans hnew, ?_, hcounts, hjob, by rw [hpkt]; rfl,
    by rw [hpkt]; rfl, by rw [hpkt]; exact heid, by rw [hpkt]; exact hasid, by rw [hpkt]; exact hnew, by rw [hpkt]; rfl,
    by rw [hpkt]; exact ⟨rfl, rfl, rfl, rfl⟩, fun r => ?_, fun h hd => ?_, fun h => ?_⟩
  · rw [hv.core]
    exact hq.evc.trans (by rw [hcore])
  · rw [finish_o, hv.o, hq.ctx]
  · rw [finish_core_eq, hv.core]
    exact hq.ops.trans (by rw [hcore])
  · rw [hctx, hcore]
  · rw [rc_finish, hv.rc, hq.rc]
    exact congrArg (fun x : Ctx => x.rc r) huc
  · rw [finish_pend]
    exact hv.waits h hd
  · rw [finish_pend, hv.keeps h, hq.ctx, huc]

end Remote

/-! ### RLD, RST, RAMO and GST -/

section Instructions

variable {s : State} (st : Fin 8) (d a b : Fin 32)

/-- The operations. -/
def rldBody (d a b : Fin 32) : Op Unit := do
  let s ← get
  let c := s.rc a
  let w := s.rx b
  legal (rdOk w (· ≤ 4) false false)
  remoteNeed c [pL, pM] (2 ^ rdSz w)
  let (s, tag) := s.sendOp (remotePkt 0 (rdPkg w) c (rdSz w * 65536)) (fun r => { r with counts := true, keepTag := capHas c pLC })
  set (s.awaitReg d tag)

def rstBody (d a b : Fin 32) : Op Unit := do
  let s ← get
  let c := s.rc a
  let v := s.rc d
  let w := s.rx b
  legal (rdOk w (· ≤ 4) false false)
  remoteNeed c ([pS, pM] ++ if rdSz w = 4 && v.tag then [pSC] else []) (2 ^ rdSz w)
  let (s, _) := s.sendOp (storeArgs (remotePkt 1 (rdPkg w) c (rdSz w * 65536)) (rdSz w) v) (fun r => { r with counts := true })
  set s

def ramoBody (d a b : Fin 32) : Op Unit := do
  let s ← get
  let c := s.rc a
  let w := s.rx b
  legal (rdOk w (fun z => z == 2 || z == 3) true false && rdOp w ≤ 11 && (rdOp w ≠ 11 || rdSz w = 2))
  remoteNeed c [pL, pS, pA, pM] (2 ^ rdSz w)
  let p := remotePkt 2 (rdPkg w) c (rdSz w * 65536 + rdOp w * 2 ^ 19)
  let (s, tag) := s.sendOp { p with arg2 := s.rx d, arg3 := s.ro 2 } (fun r => { r with counts := true })
  set (s.awaitReg d tag)

def gstBody (d a b : Fin 32) : Op Unit := do
  let s ← get
  let c := s.rc a
  let v := s.rc d
  let w := s.rx b
  legal (rdOk w (· ≤ 4) false true && s.gstOk s.myEid (rdGrp w))
  remoteNeed c ([pS, pM, pG] ++ if rdSz w = 4 && v.tag then [pSC] else []) (2 ^ rdSz w)
  let s := (s.openGroup s.myEid (rdGrp w)).mapCommit s.myEid (rdGrp w) (fun c => { c with wait := c.wait + 1 })
  let p := storeArgs (remotePkt 3 (rdPkg w) c (rdSz w * 65536)) (rdSz w) v
  let p := { p with arg1 := p.arg1 + BitVec.ofNat 64 (rdGrp w * 2 ^ 32) }
  let (s, _) := s.sendOp p (fun r => { r with counts := true, group := some (rdGrp w) })
  set (s.edge s.thread (groupThread s.myEid (rdGrp w)))

theorem execRld_eq : execRld st d a b s = issue { st := st.val, reads := [rdC a, rdC b] } (unlessAhead (rldBody d a b)) s := rfl

theorem execRst_eq : execRst st d a b s = issue { st := st.val, reads := [rdC d, rdC a, rdC b] } (unlessAhead (rstBody d a b)) s := rfl

theorem execRamo_eq : execRamo st d a b s =
    issue { st := st.val, reads := [rdC d, rdC a, rdC b, rdO 2] } (unlessAhead (ramoBody d a b)) s := rfl

theorem execGst_eq : execGst st d a b s = issue { st := st.val, reads := [rdC d, rdC a, rdC b] } (unlessAhead (gstBody d a b)) s := rfl

/-- The statement of R301 and R302 of an instruction with the checks of `remote_checks`. -/
theorem remote_stated {u v : State} {p : Packet} {f : RemOp → RemOp} {reg ok : Bool} {o : Host.Outcome State Fault Refusal} {g : Gate}
    {c : Cap} {ps : List Nat} {n : Nat} {body : Op Unit} {k : Unit → Op Unit} {ill : Prop} {q : Packet → Prop}
    (hah : s.ctx.ahead = false) (ho : o = issue g (unlessAhead body) s) (hg : g.ill = false) (ha : g.acc = none) (hi : s.CanIssue g.reads)
    (hbody : body s = (legal ok >>= fun _ => remoteNeed c ps n >>= k) s) (hk : k () s = .ok () v) (hill : ok = false ↔ ill)
    (hcore : u.core = s.core) (hasid : u.asid = s.asid)
    (heid : u.myEid = s.myEid) (hr : p.rest = []) (hh : p.handler < 8) (hpin : p.pin = 0)
    (hf : (sentOp u p f).tag = u.newTag p.pin ∧ (sentOp u p f).ctx = u.core.cur.val ∧ (sentOp u p f).counts = true ∧
      (sentOp u p f).job = none ∧ (sentOp u p f).pkt = (sentOp u p id).pkt)
    (hv : AfterSend (u.sendOp p f).1 v d (u.newTag p.pin) reg)
    (hp : ∀ r : Packet, r.handler = p.handler ∧ r.arg1 = p.arg1 ∧ r.arg2 = p.arg2 ∧ r.arg3 = p.arg3 → q r) :
    (ill → Traps s o .illegal (s.ctx.ir.zeroExtend 80)) ∧
    (¬ ill →
      (∀ e, capCheck c ps (capA c) n n = some e → Traps s o e (tvalOf (capA c))) ∧
      (capCheck c ps (capA c) n n = none → capA c / 2 ^ 64 = 0xFFFF → Traps s o .page (tvalOf (capA c))) ∧
      (capCheck c ps (capA c) n n = none → capA c / 2 ^ 64 ≠ 0xFFFF → True →
        ∃ t x, o = .next t ∧ Advanced s t ∧ OnlySends u t ∧ t.core.ops = s.core.ops ++ [x] ∧
          x.tag = s.newTag 0 ∧ x.ctx = s.core.cur.val ∧ x.counts = true ∧ x.job = none ∧ x.pkt.kind = 1 ∧
          x.pkt.deid = p.deid ∧ x.pkt.seid = s.myEid ∧ x.pkt.asid = s.asid ∧ x.pkt.otag = s.newTag 0 ∧
          x.pkt.arg0 = p.arg0 ∧ q x.pkt ∧ (∀ r, t.rc r = s.rc r) ∧
          (reg = true → d ≠ 0 → { file := .c, idx := d.val, op := s.newTag 0, val := none } ∈ t.ctx.pend) ∧
          (reg = false → t.ctx.pend = s.ctx.pend))) := by
  obtain ⟨h1, h2⟩ := remote_checks hah ho hg ha hi hbody hk
  refine ⟨fun h => h1 (hill.mpr h), fun h => ?_⟩
  obtain ⟨h3, h4, h5⟩ := h2 (by
    rw [← hill] at h
    exact Bool.eq_true_of_not_eq_false h)
  refine ⟨h3, h4, fun h6 h7 _ => ?_⟩
  obtain ⟨t, x, ht, hadv, hsends, hops, htag, hctx, hcnt, hjob, hkind, hdeid, hseid, has, hotag, harg, hpkt, hrest⟩ :=
    remote_sends g.st hcore hasid heid hr hh hpin hf hv
  exact ⟨t, x, (h5 h6 h7).trans ht, hadv, hsends, hops, htag, hctx, hcnt, hjob, hkind, hdeid, hseid, has, hotag, harg, hp _ hpkt, hrest⟩

theorem rdOk_iff (w : Word) (sz : Nat → Bool) (op grp : Bool) : rdOk w sz op grp = true ↔
    w.toNat < 2 ^ 36 ∧ sz (rdSz w) = true ∧ (op = true ∨ rdOp w = 0) ∧ (grp = true ∨ rdGrp w = 0) := by
  unfold rdOk
  rw [Bool.and_eq_true, Bool.and_eq_true, Bool.and_eq_true, hiClear_iff, Bool.or_eq_true, Bool.or_eq_true, beq_iff_eq, beq_iff_eq]
  tauto

/-- What RLD and RST do not take (R301). -/
theorem rdOk_plain (w : Word) : rdOk w (· ≤ 4) false false = false ↔ 2 ^ 36 ≤ w.toNat ∨ 4 < rdSz w ∨ rdOp w ≠ 0 ∨ rdGrp w ≠ 0 := by
  rw [← Bool.not_eq_true, rdOk_iff, decide_eq_true_eq]
  simp only [Bool.false_eq_true, false_or]
  omega

theorem rdOk_atomic (w : Word) : (rdOk w (fun z => z == 2 || z == 3) true false && rdOp w ≤ 11 && (rdOp w ≠ 11 || rdSz w = 2)) = false ↔
    2 ^ 36 ≤ w.toNat ∨ (rdSz w ≠ 2 ∧ rdSz w ≠ 3) ∨ 11 < rdOp w ∨ (rdOp w = 11 ∧ rdSz w ≠ 2) ∨ rdGrp w ≠ 0 := by
  rw [← Bool.not_eq_true, Bool.and_eq_true, Bool.and_eq_true, rdOk_iff, Bool.or_eq_true, Bool.or_eq_true, beq_iff_eq, beq_iff_eq,
    decide_eq_true_eq, decide_eq_true_eq, decide_eq_true_eq]
  simp only [Bool.false_eq_true, false_or, true_or, true_and]
  omega

theorem rdOk_group (w : Word) (b : Bool) : (rdOk w (· ≤ 4) false true && b) = false ↔
    2 ^ 36 ≤ w.toNat ∨ 4 < rdSz w ∨ rdOp w ≠ 0 ∨ b = false := by
  rw [← Bool.not_eq_true, Bool.and_eq_true, rdOk_iff, decide_eq_true_eq, ← Bool.not_eq_true b]
  simp only [Bool.false_eq_true, false_or, true_or, and_true]
  by_cases hb : b = true
  · simp only [hb, and_true, not_true, or_false]
    omega
  · simp [hb]

theorem ofNat_add_three (a b c d : Nat) :
    BitVec.ofNat 64 (a + b) + BitVec.ofNat 64 c + BitVec.ofNat 64 d = BitVec.ofNat 64 (a + (b + c + d)) := by
  rw [← BitVec.ofNat_add, ← BitVec.ofNat_add]
  congr 1
  omega

theorem ofNat_add_none (a b d : Nat) :
    BitVec.ofNat 64 (a + b) + BitVec.ofNat 64 0 + BitVec.ofNat 64 d = BitVec.ofNat 64 (a + (b + d)) := by
  rw [ofNat_add_three, Nat.add_zero]

theorem rld_run : rldBody d a b s = (legal (rdOk (s.rx b) (· ≤ 4) false false) >>= fun _ =>
    remoteNeed (s.rc a) [pL, pM] (2 ^ rdSz (s.rx b)) >>= fun _ =>
    (set ((s.sendOp (remotePkt 0 (rdPkg (s.rx b)) (s.rc a) (rdSz (s.rx b) * 65536))
      (fun r => { r with counts := true, keepTag := capHas (s.rc a) pLC })).1.awaitReg d (s.newTag 0)) : Op Unit)) s := rfl

theorem rst_run : rstBody d a b s = (legal (rdOk (s.rx b) (· ≤ 4) false false) >>= fun _ =>
    remoteNeed (s.rc a) ([pS, pM] ++ if rdSz (s.rx b) = 4 && (s.rc d).tag then [pSC] else []) (2 ^ rdSz (s.rx b)) >>= fun _ =>
    (set (s.sendOp (storeArgs (remotePkt 1 (rdPkg (s.rx b)) (s.rc a) (rdSz (s.rx b) * 65536)) (rdSz (s.rx b)) (s.rc d))
      (fun r => { r with counts := true })).1 : Op Unit)) s := rfl

/-- The packet of RAMO. -/
def ramoPkt (s : State) (d a b : Fin 32) : Packet :=
  { remotePkt 2 (rdPkg (s.rx b)) (s.rc a) (rdSz (s.rx b) * 65536 + rdOp (s.rx b) * 2 ^ 19) with arg2 := s.rx d, arg3 := s.ro 2 }

theorem ramo_run : ramoBody d a b s =
    (legal (rdOk (s.rx b) (fun z => z == 2 || z == 3) true false && rdOp (s.rx b) ≤ 11 && (rdOp (s.rx b) ≠ 11 || rdSz (s.rx b) = 2)) >>=
      fun _ => remoteNeed (s.rc a) [pL, pS, pA, pM] (2 ^ rdSz (s.rx b)) >>= fun _ =>
      (set ((s.sendOp (ramoPkt s d a b) (fun r => { r with counts := true })).1.awaitReg d (s.newTag 0)) : Op Unit)) s := rfl

/-- The packet of GST, and the state that has counted it in its group. -/
def gstPkt (s : State) (d a b : Fin 32) : Packet :=
  let p := storeArgs (remotePkt 3 (rdPkg (s.rx b)) (s.rc a) (rdSz (s.rx b) * 65536)) (rdSz (s.rx b)) (s.rc d)
  { p with arg1 := p.arg1 + BitVec.ofNat 64 (rdGrp (s.rx b) * 2 ^ 32) }
def gstCounted (s : State) (b : Fin 32) : State :=
  (s.openGroup s.myEid (rdGrp (s.rx b))).mapCommit s.myEid (rdGrp (s.rx b)) (fun c => { c with wait := c.wait + 1 })

/-- The state in which a GST has been sent. -/
def gstSent (s : State) (d a b : Fin 32) : State :=
  ((gstCounted s b).sendOp (gstPkt s d a b) (fun r => { r with counts := true, group := some (rdGrp (s.rx b)) })).1

theorem gst_run : gstBody d a b s = (legal (rdOk (s.rx b) (· ≤ 4) false true && s.gstOk s.myEid (rdGrp (s.rx b))) >>= fun _ =>
    remoteNeed (s.rc a) ([pS, pM, pG] ++ if rdSz (s.rx b) = 4 && (s.rc d).tag then [pSC] else []) (2 ^ rdSz (s.rx b)) >>= fun _ =>
    (set ((gstSent s d a b).edge (gstSent s d a b).thread (groupThread (gstSent s d a b).myEid (rdGrp (s.rx b)))) : Op Unit)) s := rfl

theorem openGroup_commits (s : State) (src grp : Nat) :
    s.openGroup src grp = { s with commits := (s.openGroup src grp).commits } := by
  unfold State.openGroup
  split
  · split <;> rfl
  · dsimp only
    split
    · rfl
    · split <;> rfl

theorem gstCounted_commits : gstCounted s b = { s with commits := (gstCounted s b).commits } :=
  congrArg (fun u : State => { u with commits := (gstCounted s b).commits }) (openGroup_commits s s.myEid (rdGrp (s.rx b)))

/-- The tag bit of a remote store (R297). -/
theorem storeArgs_arg1 (p : Packet) (sz : Nat) (v : Cap) : (storeArgs p sz v).arg1 =
    p.arg1 + BitVec.ofNat 64 (if sz = 4 ∧ v.tag = true then 2 ^ 20 else 0) := by
  unfold storeArgs
  dsimp only
  congr 2
  by_cases h : sz = 4 ∧ v.tag = true
  · rw [if_pos h, if_pos (by simp [h.1, h.2])]
  · rw [if_neg h, if_neg (by simpa using h)]

end Instructions

/-! ### The answer of a remote operation (R79, R302, R303) -/

section Answers

variable {s : State} {p : Packet} {x : RemOp}

/-- The two ways the model names a core's place in a package. -/
theorem isCore_local {e : Nat} (h : Sys2Proof.isCore e = true) : Machine.isCore e = true := by
  unfold Sys2Proof.isCore at h
  unfold Machine.isCore lidUnit
  rw [Bool.and_eq_true] at h
  exact h.2

/-- At the core in focus. -/
theorem at_focus {f : State → State} {e : Nat} (he : e = s.core.id) (hid : (f s).core.id = s.core.id) : s.at e f = f s := by
  subst he
  unfold State.at
  dsimp only
  rw [show s.focusOn s.core.id = s from if_pos rfl]
  exact if_pos hid

/-- The context that a core issues from. -/
def focusCtx (c : Core) : Ctx := c.ctxs[c.cur]

theorem focusCtx_mapCtxNo {c : Core} {h : Nat} (hh : c.cur.val = h) (f : Ctx → Ctx) : focusCtx (c.mapCtxNo h f) = f (focusCtx c) := by
  subst hh
  exact (congrArg focusCtx (mapCtxNo_fin c c.cur f)).trans (by simp [focusCtx])

theorem mapCtxNo_rest (c : Core) (h : Nat) (f : Ctx → Ctx) : c.mapCtxNo h f = { c with ctxs := (c.mapCtxNo h f).ctxs } := by
  unfold Core.mapCtxNo
  split <;> rfl

/-- A core that has closed an operation. -/
def closedCore (c : Core) (r : RemOp) (status : Nat) : Core :=
  if r.counts then (c.dropOp r.tag).mapCtxNo r.ctx (fun x => x.countFail status (eidPkg r.pkt.deid)) else c.dropOp r.tag

theorem closedCore_rest (c : Core) (r : RemOp) (status : Nat) :
    closedCore c r status = { c.dropOp r.tag with ctxs := (closedCore c r status).ctxs } := by
  unfold closedCore
  split
  · exact mapCtxNo_rest _ _ _
  · rfl

theorem closedCore_ctx {c : Core} {r : RemOp} (hc : c.cur.val = r.ctx) (status : Nat) : focusCtx (closedCore c r status) =
    if r.counts then (focusCtx c).countFail status (eidPkg r.pkt.deid) else focusCtx c := by
  unfold closedCore
  split
  · exact focusCtx_mapCtxNo (c := c.dropOp r.tag) hc _
  · rfl

theorem closeOp_core {e : Nat} (he : s.core.id = e) (r : RemOp) (status : Nat) :
    (s.closeOp e r status).core = closedCore s.core r status ∧ (s.closeOp e r status).mem = s.mem := by
  unfold State.closeOp State.mapCore
  rw [if_pos he]
  dsimp only
  split <;> exact ⟨rfl, rfl⟩

theorem unwait_sent (r : RemOp) : Sent s (s.unwait r) := by
  unfold State.unwait
  dsimp only
  split
  · exact setTx_sent _ (.refl s)
  · exact .refl s

/-- The answer of an RLD or RAMO reaches the context that waits for it (R79, R302, R303). -/
theorem opReply_facts (hjob : x.job = none) (hgrp : x.group = none) (hh : x.pkt.handler = 0 ∨ x.pkt.handler = 2)
    (hcur : s.core.cur.val = x.ctx) (status : Nat) (data : List Byte) :
    (s.opReply x status data).core.id = s.core.id ∧ (s.opReply x status data).mem = s.mem ∧
      (s.opReply x status data).core.ops = s.core.ops.filter (fun r => r.tag != x.tag) ∧
      (s.opReply x status data).ctx =
        Ctx.deliver (if x.counts then s.ctx.countFail status (eidPkg x.pkt.deid) else s.ctx) x.tag (replyValue x status data) := by
  obtain ⟨u, hu⟩ : ∃ u, u = if status = rsDONE then s else s.unwait x := ⟨_, rfl⟩
  have hsent : Sent s u := by
    rw [hu]
    split
    · exact .refl s
    · exact unwait_sent x
  have hid : u.core.id = s.core.id := hsent.corePart Core.id
  obtain ⟨hcore, hmem⟩ := closeOp_core hid x status
  have hreply : s.opReply x status data = { u.closeOp s.core.id x status with
      core := (u.closeOp s.core.id x status).core.mapCtxNo x.ctx (fun c => c.deliver x.tag (replyValue x status data)) } := by
    have hid' : u.closeOp u.core.id x status = u.closeOp s.core.id x status := by rw [hid]
    unfold State.opReply
    dsimp only
    rw [← hu, hjob, hgrp]
    dsimp only
    rw [Option.isSome_none, if_neg Bool.false_ne_true, hid']
    rcases hh with h | h
    · rw [h]
      rfl
    · rw [h]
      rfl
  have hcur' : (closedCore u.core x status).cur.val = x.ctx := by
    rw [closedCore_rest]
    exact (congrArg Fin.val (hsent.corePart Core.cur)).trans hcur
  rw [hreply]
  refine ⟨?_, hmem.trans (hsent.part State.mem), ?_, ?_⟩
  · show ((u.closeOp s.core.id x status).core.mapCtxNo _ _).id = _
    rw [mapCtxNo_rest, hcore, closedCore_rest]
    exact hid
  · show ((u.closeOp s.core.id x status).core.mapCtxNo _ _).ops = _
    rw [mapCtxNo_rest, hcore, closedCore_rest]
    exact congrArg (List.filter _) (hsent.corePart Core.ops)
  · show focusCtx ((u.closeOp s.core.id x status).core.mapCtxNo _ _) = _
    have hctx : focusCtx u.core = s.ctx := hsent.ctx
    rw [hcore, focusCtx_mapCtxNo hcur', closedCore_ctx ((congrArg Fin.val (hsent.corePart Core.cur)).trans hcur), hctx]

theorem countFail_rc (y : Ctx) (status pkg : Nat) (n : Fin 32) : (y.countFail status pkg).rc n = y.rc n := by
  unfold Ctx.countFail
  split
  · rfl
  · split <;> rfl

theorem countFail_pend (y : Ctx) (status pkg : Nat) : (y.countFail status pkg).pend = y.pend := by
  unfold Ctx.countFail
  split
  · rfl
  · split <;> rfl

theorem deliver_mem {y : Ctx} {q : VarPend} {op : Nat} (v : Cap) (hq : q ∈ y.pend) (hop : q.op = op) (hf : q.file = .c) :
    { q with val := some (v.bits.zeroExtend 1024, v.tag) } ∈ (y.deliver op v).pend :=
  List.mem_map.mpr ⟨q, hq, by simp [hop, hf]⟩

/-- The answer as the statement writes it. -/
theorem replyValue_eq (x : RemOp) (status : Nat) (data : List Byte) : replyValue x status data =
    if status ≠ 0 then scalar 0
    else if x.pkt.handler = 0 ∧ 2 ^ fld x.pkt.arg1 16 3 = 16 then
      ⟨BitVec.ofNat 128 (leNat (data.take 16)), x.keepTag && (data.drop 16).head? == some 1⟩
    else scalar (BitVec.ofNat 64 (leNat (data.take (2 ^ fld x.pkt.arg1 16 3)))) := by
  unfold replyValue rsDONE
  by_cases hs : status ≠ 0
  · rw [if_pos hs, if_pos hs]
  · rw [if_neg hs, if_neg hs]
    by_cases hc : x.pkt.handler = 0 ∧ 2 ^ fld x.pkt.arg1 16 3 = 16
    · rw [if_pos hc, if_pos (by rw [Bool.and_eq_true, decide_eq_true_eq, decide_eq_true_eq]; exact hc)]
    · rw [if_neg hc, if_neg (by rw [Bool.and_eq_true, decide_eq_true_eq, decide_eq_true_eq]; exact hc)]
      rfl

section Taken

variable (ht : s.Takes p) (hk : p.kind = 2) (he : eidLocal p.deid = s.core.id) (hcore : Machine.isCore s.core.id = true)
include ht hk he hcore

/-- What a REPLY does at its core. -/
def replyAt (p : Packet) (s : State) : State :=
  match s.core.opOf p.otag with
  | some r => s.opReply r p.status p.data
  | none => s

theorem execReply_run : execReply p s = done ((s.took p).at s.core.id (replyAt p)) := by
  unfold execReply
  rw [arrive_took ht (by omega)]
  unfold State.takeReply
  dsimp only
  rw [he, if_pos hcore]
  rfl

theorem reply_unknown (hn : s.core.opOf p.otag = none) : execReply p s = .next (s.took p) := by
  have hsent := took_sent (s := s) (p := p) (by omega)
  have hid : (s.took p).core.id = s.core.id := hsent.corePart Core.id
  have hat : replyAt p (s.took p) = s.took p := by
    have : (s.took p).core.opOf p.otag = none := (hsent.corePart (fun c => c.opOf p.otag)).trans hn
    unfold replyAt
    rw [this]
  rw [execReply_run ht hk he hcore, at_focus hid.symm (by rw [hat]), hat]
  rfl

theorem reply_completes (ho : s.core.opOf p.otag = some x) (hjob : x.job = none) (hgrp : x.group = none)
    (hh : x.pkt.handler = 0 ∨ x.pkt.handler = 2) (hcur : s.core.cur.val = x.ctx) :
    ∃ t, execReply p s = .next t ∧ t.core.ops = s.core.ops.filter (fun r => r.tag != p.otag) ∧ t.mem = s.mem ∧
      t.ctx = Ctx.deliver (if x.counts then s.ctx.countFail p.status (eidPkg x.pkt.deid) else s.ctx) p.otag (replyValue x p.status p.data) := by
  have hsent := took_sent (s := s) (p := p) (by omega)
  have hid : (s.took p).core.id = s.core.id := hsent.corePart Core.id
  have htag : x.tag = p.otag := by simpa using List.find?_some ho
  have hat : replyAt p (s.took p) = (s.took p).opReply x p.status p.data := by
    have : (s.took p).core.opOf p.otag = some x := (hsent.corePart (fun c => c.opOf p.otag)).trans ho
    unfold replyAt
    rw [this]
  have hcur' : (s.took p).core.cur.val = x.ctx := (congrArg Fin.val (hsent.corePart Core.cur)).trans hcur
  obtain ⟨h1, h2, h3, h4⟩ := opReply_facts (s := s.took p) hjob hgrp hh hcur' p.status p.data
  refine ⟨(s.took p).opReply x p.status p.data, ?_, ?_, h2.trans (hsent.part State.mem), ?_⟩
  · rw [execReply_run ht hk he hcore, at_focus hid.symm (by rw [hat]; exact h1), hat]
    rfl
  · rw [h3, htag]
    exact congrArg (List.filter _) (hsent.corePart Core.ops)
  · have hctx : (s.took p).ctx = s.ctx := hsent.ctx
    rw [h4, hctx, htag]

end Taken

/-! ### A result that reaches its register (R79) -/

theorem ready_facts {y : Ctx} {n : Nat} {w : VarPend} {v : VReg} {tag : Bool} {k : Fin 32} (hn : y.pend[n]? = some w)
    (hv : w.val = some (v, tag)) (hi : w.idx = k.val) (h0 : k ≠ 0) :
    (y.ready n).rc k = ⟨v.truncate 128, tag⟩ ∧ (∀ r, r ≠ k → (y.ready n).rc r = y.rc r) ∧ w ∉ (y.ready n).pend := by
  have hk0 : ¬ w.idx = 0 := fun e => h0 (Fin.ext (by rw [← hi, e]; rfl))
  have hready : y.ready n = { y with pend := y.pend.filter (fun q => q != w), c := y.c.set k.val ⟨v.truncate 128, tag⟩ } := by
    unfold Ctx.ready
    rw [hn]
    dsimp only
    rw [hv]
    dsimp only
    rw [dif_pos (show w.idx < 32 by omega), if_neg hk0]
    congr 1
    simp only [hi]
  rw [hready]
  refine ⟨?_, fun r hr => ?_, by simp⟩
  · have : ¬ k.val = 0 := by omega
    simp [Ctx.rc, h0]
  · have hne : k.val ≠ r.val := fun e => hr (Fin.ext e.symm)
    simp [Ctx.rc, hne]

/-- What VARIABLE_LATENCY_RESULT does at its core. -/
theorem result_ready {n : Nat} {w : VarPend} {v : VReg} {tag : Bool} {k : Fin 32} (hw : s.Works) (hn : s.ctx.pend[n]? = some w)
    (hv : w.val = some (v, tag)) (hi : w.idx = k.val) (h0 : k ≠ 0) :
    ∃ t, execVariableLatencyResult s.core.id s.core.cur.val n s = .next t ∧ t.rc k = ⟨v.truncate 128, tag⟩ ∧
      (∀ r, r ≠ k → t.rc r = s.rc r) ∧ w ∉ t.ctx.pend ∧ t.mem = s.mem ∧ t.core.v = s.core.v := by
  have hn' : (s.core.ctxNo s.core.cur.val).pend[n]? = some w := by
    rw [ctxNo_fin]
    exact hn
  have hat : s.resultReady s.core.cur.val n = { s.edge (answerThread s.core.id w.op) (s.core.id, s.core.cur.val) with
      core := s.core.mapCtxNo s.core.cur.val (fun x => x.ready n) } := by
    unfold State.resultReady
    dsimp only
    rw [hn']
    dsimp only
    rw [if_pos (by rw [hv]; rfl)]
    rfl
  have hctx : (s.resultReady s.core.cur.val n).ctx = s.ctx.ready n := by
    rw [hat]
    exact focusCtx_mapCtxNo (c := s.core) rfl _
  obtain ⟨h1, h2, h3⟩ := ready_facts hn hv hi h0
  refine ⟨_, atCore_focus (f := fun s => s.resultReady _ n) hw ?_, ?_, fun r hr => ?_, ?_, ?_, ?_⟩
  · rw [hat]
    show (s.core.mapCtxNo _ _).id = _
    rw [mapCtxNo_rest]
  · rw [State.rc, hctx, h1]
  · rw [State.rc, hctx, h2 r hr]
    rfl
  · rw [hctx]
    exact h3
  · rw [hat]
    rfl
  · rw [hat]
    show (s.core.mapCtxNo _ _).v = _
    rw [mapCtxNo_rest]

end Answers

/-- Settles O41: the checks come in the order of R302; the packet is the issuing core's; the answer goes to the register that waits
under its tag. -/
theorem remoteInstructions : Obligations.RemoteInstructions := by
  unfold Obligations.RemoteInstructions
  intro s st d a b p x n w v tag k
  dsimp only
  refine ⟨fun hah _ => ⟨fun hi => ?_, fun hi => ?_, fun hi => ?_, fun hi => ?_⟩, fun ht hk _ he hcore hcur => ⟨fun hn => ?_, fun ho hjob hgrp hh _ => ?_⟩,
    fun hw hn hv hf hx h0 => result_ready hw hn hv hx h0⟩
  · exact remote_stated (p := remotePkt 0 (rdPkg (s.rx b)) (s.rc a) (rdSz (s.rx b) * 65536))
      (f := fun r => { r with counts := true, keepTag := capHas (s.rc a) pLC })
      (q := fun r => r.handler = 0 ∧ r.arg1 = BitVec.ofNat 64 (capA (s.rc a) / 2 ^ 64 + (fld (s.rx b) 12 3 * 2 ^ 16))) d hah (execRld_eq st d a b) rfl rfl hi (rld_run d a b) rfl (rdOk_plain _) (u := s) rfl rfl rfl rfl (show 0 < 8 by decide) rfl
      ⟨rfl, rfl, rfl, rfl, rfl⟩ (awaitReg_after _ d _) (fun r h => ⟨h.1, h.2.1⟩)
  · refine remote_stated (p := storeArgs (remotePkt 1 (rdPkg (s.rx b)) (s.rc a) (rdSz (s.rx b) * 65536)) (rdSz (s.rx b)) (s.rc d))
      (f := fun r => { r with counts := true })
      (q := fun r => r.handler = 1 ∧ r.arg2 = BitVec.ofNat 64 ((s.rc d).bits.toNat % 2 ^ (8 * 2 ^ fld (s.rx b) 12 3)) ∧
        r.arg3 = BitVec.ofNat 64 ((s.rc d).bits.toNat % 2 ^ (8 * 2 ^ fld (s.rx b) 12 3) / 2 ^ 64) ∧
        ((fld (s.rx b) 12 3 = 4 ∧ (s.rc d).tag = true) → r.arg1 = BitVec.ofNat 64 (capA (s.rc a) / 2 ^ 64 + (fld (s.rx b) 12 3 * 2 ^ 16 + 2 ^ 20))) ∧
        (¬ (fld (s.rx b) 12 3 = 4 ∧ (s.rc d).tag = true) → r.arg1 = BitVec.ofNat 64 (capA (s.rc a) / 2 ^ 64 + (fld (s.rx b) 12 3 * 2 ^ 16)))) d hah (execRst_eq st d a b) rfl rfl hi (rst_run d a b) rfl (rdOk_plain _) (u := s) rfl rfl rfl rfl
      (show 1 < 8 by decide) rfl ⟨rfl, rfl, rfl, rfl, rfl⟩ (sameCore_after _ d _) (fun r h => ?_)
    obtain ⟨h1, h2, h3, h4⟩ := h
    refine ⟨h1, h3, h4, fun hg => ?_, fun hg => ?_⟩
    · change rdSz (s.rx b) = 4 ∧ _ at hg
      rw [h2, storeArgs_arg1, if_pos hg]
      exact (BitVec.ofNat_add _ _).symm.trans (congrArg _ (Nat.add_assoc _ _ _))
    · change ¬ (rdSz (s.rx b) = 4 ∧ _) at hg
      rw [h2, storeArgs_arg1, if_neg hg]
      exact BitVec.add_zero _
  · exact remote_stated (p := ramoPkt s d a b) (f := fun r => { r with counts := true })
      (q := fun r => r.handler = 2 ∧ r.arg1 = BitVec.ofNat 64 (capA (s.rc a) / 2 ^ 64 + (fld (s.rx b) 12 3 * 2 ^ 16 + fld (s.rx b) 15 5 * 2 ^ 19)) ∧ r.arg2 = s.rx d ∧ r.arg3 = s.ro 2) d hah (execRamo_eq st d a b) rfl rfl hi (ramo_run d a b) rfl (rdOk_atomic _) (u := s) rfl rfl rfl rfl
      (show 2 < 8 by decide) rfl ⟨rfl, rfl, rfl, rfl, rfl⟩ (awaitReg_after _ d _) (fun r h => h)
  · have hu := gstCounted_commits (s := s) b
    refine remote_stated (f := fun r => { r with counts := true, group := some (rdGrp (s.rx b)) }) (p := gstPkt s d a b)
      (q := fun r => r.handler = 3 ∧ r.arg2 = BitVec.ofNat 64 ((s.rc d).bits.toNat % 2 ^ (8 * 2 ^ fld (s.rx b) 12 3)) ∧
        r.arg3 = BitVec.ofNat 64 ((s.rc d).bits.toNat % 2 ^ (8 * 2 ^ fld (s.rx b) 12 3) / 2 ^ 64) ∧
        ((fld (s.rx b) 12 3 = 4 ∧ (s.rc d).tag = true) → r.arg1 = BitVec.ofNat 64 (capA (s.rc a) / 2 ^ 64 + (fld (s.rx b) 12 3 * 2 ^ 16 + 2 ^ 20 + fld (s.rx b) 20 16 * 2 ^ 32))) ∧
        (¬ (fld (s.rx b) 12 3 = 4 ∧ (s.rc d).tag = true) → r.arg1 = BitVec.ofNat 64 (capA (s.rc a) / 2 ^ 64 + (fld (s.rx b) 12 3 * 2 ^ 16 + fld (s.rx b) 20 16 * 2 ^ 32)))) d hah
      (execGst_eq st d a b) rfl rfl hi (gst_run d a b) rfl (rdOk_group _ _) (u := gstCounted s b) (by rw [hu])
      (by rw [hu]; rfl) (by rw [hu]; rfl) rfl (show 3 < 8 by decide) rfl ⟨rfl, rfl, rfl, rfl, rfl⟩ (edge_after _ _ _ d _)
      (fun r h => ?_)
    obtain ⟨h1, h2, h3, h4⟩ := h
    have harg : (gstPkt s d a b).arg1 = (storeArgs (remotePkt 3 (rdPkg (s.rx b)) (s.rc a) (rdSz (s.rx b) * 65536)) (rdSz (s.rx b)) (s.rc d)).arg1 +
        BitVec.ofNat 64 (rdGrp (s.rx b) * 2 ^ 32) := rfl
    refine ⟨h1, h3, h4, fun hg => ?_, fun hg => ?_⟩
    · change rdSz (s.rx b) = 4 ∧ _ at hg
      rw [h2, harg, storeArgs_arg1, if_pos hg]
      exact ofNat_add_three _ _ _ _
    · change ¬ (rdSz (s.rx b) = 4 ∧ _) at hg
      rw [h2, harg, storeArgs_arg1, if_neg hg]
      exact ofNat_add_none _ _ _
  · exact reply_unknown ht hk he (isCore_local hcore) hn
  · obtain ⟨t, h1, h2, h3, h4⟩ := reply_completes ht hk he (isCore_local hcore) ho hjob hgrp hh hcur
    refine ⟨t, h1, h2, fun q hq hop hfile => ?_, fun hc hs => ?_, fun hs => ?_, h3, fun r => ?_⟩
    · rw [h4, ← replyValue_eq]
      refine deliver_mem _ ?_ hop hfile
      split
      · rw [countFail_pend]
        exact hq
      · exact hq
    · rw [h4, hc, if_pos rfl]
      show (s.ctx.countFail _ _).nfail = _ ∧ (_ → (s.ctx.countFail _ _).fst = _ ∧ (s.ctx.countFail _ _).fpkg = _)
      unfold Ctx.countFail
      rw [if_neg hs]
      by_cases h0 : s.ctx.nfail = 0
      · rw [if_pos h0, if_pos h0]
        exact ⟨rfl, fun _ => ⟨rfl, rfl⟩⟩
      · rw [if_neg h0, if_neg h0]
        exact ⟨rfl, fun e => absurd e h0⟩
    · rw [h4]
      show (if x.counts = true then s.ctx.countFail _ _ else s.ctx).nfail = _
      rw [Ctx.countFail, if_pos hs, ite_self]
    · rw [State.rc, h4]
      show (if x.counts = true then s.ctx.countFail _ _ else s.ctx).rc r = _
      split
      · exact countFail_rc _ _ _ _
      · rfl

end Sys2Proof.Proofs
end

section
/-! PROOFS. Tasks, messages and trigger bindings (R332 to R334, R338 to R341). -/
namespace Sys2Proof.Proofs
open Sys2Proof Sys2Proof.Machine Sys2Proof.Laws
set_option Elab.async false

/-! ### What a task's way to a Hutch leaves of the core -/

/-- A core without what the device may change of it and what its contexts wait for. -/
def unqueued (c : Core) : Core := { kept c with ctxs := c.ctxs.map (fun x => { x with wait := .none }) }

section Queueing

variable {s₀ s t : State}

theorem corePart_unqueued {α : Type} (h : unqueued t.core = unqueued s.core) (part : Core → α)
    (hp : ∀ c, part (unqueued c) = part c := by intro; rfl) : part t.core = part s.core :=
  (hp _).symm.trans ((congrArg part h).trans (hp _))

theorem ctxPart_unqueued {α : Type} (h : unqueued t.core = unqueued s.core) (part : Ctx → α)
    (hp : ∀ x w, part { x with wait := w } = part x := by intros; rfl) : part t.ctx = part s.ctx :=
  corePart_unqueued h (fun c => part c.ctxs[c.cur]) fun c => by
    have he : (unqueued c).ctxs[(unqueued c).cur] = { c.ctxs[c.cur] with wait := .none } := by simp [unqueued, kept]
    rw [he, hp]

theorem stands_unqueued (h : unqueued t.core = unqueued s.core) : Stands s t :=
  ⟨corePart_unqueued h Core.cur, ctxPart_unqueued h Ctx.pcc, ctxPart_unqueued h Ctx.npc, ctxPart_unqueued h Ctx.loop⟩

theorem rc_unqueued (h : unqueued t.core = unqueued s.core) (n : Fin 32) : t.rc n = s.rc n := ctxPart_unqueued h (fun x => x.rc n)

theorem Device.unqueued (h : Device s t) : Proofs.unqueued t.core = Proofs.unqueued s.core :=
  congrArg (fun c : Core => { c with ctxs := c.ctxs.map (fun x : Ctx => { x with wait := .none }) }) h.core

theorem unqueued_wakeH0 (c : Core) : unqueued c.wakeH0 = unqueued c := by
  have hm : c.wakeH0.ctxs.map (fun x => { x with wait := .none }) = c.ctxs.map (fun x => { x with wait := .none }) := by
    refine Vector.ext fun i hi => ?_
    rw [Vector.getElem_map, Vector.getElem_map]
    show ({ (c.ctxs.set 0 (c.ctxs[(0 : Fin 11)].wakeUp))[i] with wait := .none } : Ctx) = _
    rw [Vector.getElem_set]
    split
    case isTrue h =>
      subst h
      rw [wakeUp_eq]
      rfl
    case isFalse => rfl
  exact congrArg (fun xs => { kept c with ctxs := xs }) hm

theorem wakeCluster_unqueued (cl : Nat) : unqueued (s.wakeCluster cl).core = unqueued s.core := by
  unfold State.wakeCluster
  dsimp only
  split
  · exact unqueued_wakeH0 _
  · rfl

theorem enqueue_unqueued (cl : Nat) (head : Bool) (from_ : Nat × Nat) (k : Machine.Task) :
    unqueued (s.enqueue cl head from_ k).1.core = unqueued s.core := by
  unfold State.enqueue
  dsimp only
  split
  · exact (discard_device (.refl _)).unqueued.trans rfl
  · exact (wakeCluster_unqueued cl).trans rfl

theorem enqueue_snd (cl : Nat) (head : Bool) (from_ : Nat × Nat) (k : Machine.Task) :
    (s.enqueue cl head from_ k).2 = (s.hutch cl).nextTid := by
  unfold State.enqueue
  dsimp only
  split <;> rfl

/-- The Hutch of a cluster after one is put in its place. -/
theorem hutch_setHutch_same (h : Hutch) : (s.setHutch h).hutch h.cl = h := by
  unfold State.hutch State.setHutch
  rw [List.find?_cons_of_pos (by simp)]
  rfl

theorem hutch_setHutch_other (h : Hutch) {c : Nat} (hc : c ≠ h.cl) : (s.setHutch h).hutch c = s.hutch c := by
  unfold State.hutch State.setHutch
  rw [List.find?_cons_of_neg (by simpa using Ne.symm hc), List.find?_filter]
  congr 2
  funext x
  by_cases hx : x.cl = c
  · simp [hx, hc]
  · simp [hx]

theorem hutch_cl (s : State) (cl : Nat) : (s.hutch cl).cl = cl := by
  unfold State.hutch
  cases hf : s.hutches.find? (fun h => h.cl == cl) with
  | none => rfl
  | some h => simpa using List.find?_some hf

/-- A task that enters a Hutch, as the Hutch numbers it. -/
def queued (s : State) (cl : Nat) (k : Machine.Task) : Machine.Task := { k with tid := (s.hutch cl).nextTid, enq := s.time.toNat }

/-- A Hutch that has numbered its next task. -/
def numberedHutch (s : State) (cl : Nat) : Hutch := { s.hutch cl with ser := (s.hutch cl).ser + 1 }

/-- The state in which a Hutch has numbered a task. -/
def hutchNumbered (s : State) (cl : Nat) (from_ : Nat × Nat) : State :=
  (s.setHutch (numberedHutch s cl)).edge from_ (taskThread (s.hutch cl).nextTid)

theorem numberedHutch_cl (s : State) (cl : Nat) : (numberedHutch s cl).cl = cl := hutch_cl s cl

theorem hutchNumbered_hutch (s : State) (cl : Nat) (from_ : Nat × Nat) : (hutchNumbered s cl from_).hutch cl = numberedHutch s cl := by
  have h := hutch_setHutch_same (s := s) (numberedHutch s cl)
  rw [numberedHutch_cl] at h
  exact h

theorem hutchNumbered_other (s : State) {c cl : Nat} (from_ : Nat × Nat) (h : c ≠ cl) : (hutchNumbered s cl from_).hutch c = s.hutch c :=
  hutch_setHutch_other (s := s) (numberedHutch s cl) (by rw [numberedHutch_cl]; exact h)

theorem level_numbered (k : Machine.Task) (n m : Nat) : ({ k with tid := n, enq := m } : Machine.Task).level = k.level := rfl

theorem enqueue_eq {cl : Nat} {head : Bool} {from_ : Nat × Nat} {k : Machine.Task} (hc : s.levelCancelled k.asid k.level = false) :
    (s.enqueue cl head from_ k).1 = ((hutchNumbered s cl from_).setHutch
      (((hutchNumbered s cl from_).hutch cl).add head (queued s cl k))).wakeCluster cl := by
  unfold State.enqueue hutchNumbered numberedHutch queued
  dsimp only
  split
  case isTrue h =>
    rw [level_numbered] at h
    have h' : s.levelCancelled k.asid k.level = true := h
    exact absurd (hc.symm.trans h') Bool.false_ne_true
  case isFalse => rfl

theorem add_cl (h : Hutch) (head : Bool) (k : Machine.Task) : (h.add head k).cl = h.cl := by
  unfold Hutch.add
  split
  · rfl
  · split <;> rfl

/-- A task of a level that is not cancelled stands in the Hutch. -/
theorem enqueue_hutch {cl : Nat} {head : Bool} {from_ : Nat × Nat} {k : Machine.Task} (hc : s.levelCancelled k.asid k.level = false) :
    (s.enqueue cl head from_ k).1.hutch cl = (numberedHutch s cl).add head (queued s cl k) ∧
    (∀ c, c ≠ cl → (s.enqueue cl head from_ k).1.hutch c = s.hutch c) ∧
    (s.enqueue cl head from_ k).1.mem = s.mem ∧ (s.enqueue cl head from_ k).1.levels = s.levels := by
  have hcl : (((hutchNumbered s cl from_).hutch cl).add head (queued s cl k)).cl = cl := by
    rw [add_cl, hutch_cl]
  rw [enqueue_eq hc]
  refine ⟨?_, fun c h => ?_, rfl, rfl⟩
  · have h := hutch_setHutch_same (s := hutchNumbered s cl from_) (((hutchNumbered s cl from_).hutch cl).add head (queued s cl k))
    rw [hcl] at h
    exact h.trans (by rw [hutchNumbered_hutch])
  · exact (hutch_setHutch_other (s := hutchNumbered s cl from_) _ (by rw [hcl]; exact h)).trans (hutchNumbered_other s from_ h)

end Queueing

/-! ### The checks of handlers, and the counting of a task (R329, R332) -/

section Checks

variable {s u : State}

theorem run_countTask (h : s.countUp s.asid s.myLevel = some u) : countTask s = .ok () u := by
  unfold countTask
  rw [run_bind, get_run, andThen, h]
  rfl

theorem handlerNeed_illegal {h : Word} (hh : h.toNat < 64) : handlerNeed h s = .error (.trap s.illegal) s := by
  unfold handlerNeed
  rw [run_bind, decide_eq_false (show ¬ 64 ≤ h.toNat by omega)]
  rfl

theorem handlerNeed_odd {h : Word} (hh : 64 ≤ h.toNat) (ho : h.toNat % 2 = 1) :
    handlerNeed h s = .error (.trap ⟨.align, tvalOf h.toNat⟩) s := by
  unfold handlerNeed
  rw [run_bind, run_legal_true (decide_eq_true hh), andThen, decide_eq_false (show ¬ h.toNat % 2 = 0 by omega)]
  rfl

theorem handlerNeed_passes {h : Word} (hh : 64 ≤ h.toNat) (he : h.toNat % 2 = 0) : handlerNeed h s = .ok () s := by
  unfold handlerNeed
  rw [run_bind, run_legal_true (decide_eq_true hh), andThen, decide_eq_true he]
  rfl

/-- The device leaves the issuing context. -/
theorem Device.ctx (h : Device s u) : u.ctx = s.ctx := eq_of_kept (fun c : Core => c.ctxs[c.cur]) h.core

/-- What an instruction with a handler and a gate on its operands answers before its work begins. -/
theorem handler_checks {g : Gate} {o : Host.Outcome State Fault Refusal} {ok : Bool} {h : Word} {body : Op Unit} {k : Unit → Op Unit}
    (hah : s.ctx.ahead = false) (ho : o = issue g (unlessAhead body) s) (hg : g.ill = false) (ha : g.acc = none) (hi : s.CanIssue g.reads)
    (hbody : body s = (legal ok >>= fun _ => handlerNeed h >>= k) s) :
    (ok = false → Traps s o .illegal (s.ctx.ir.zeroExtend 80)) ∧
    (ok = true → (h.toNat < 64 → Traps s o .illegal (s.ctx.ir.zeroExtend 80)) ∧
      (64 ≤ h.toNat → h.toNat % 2 = 1 → Traps s o .align (tvalOf h.toNat)) ∧
      (64 ≤ h.toNat → h.toNat % 2 = 0 →
        (k () s = .error .wait s → o = .next s.block) ∧ ∀ t, k () s = .ok () t → o = s.retire g.st t)) := by
  subst ho
  have hrun := (unlessAhead_runs (s := s) (body := body) hah).trans hbody
  refine ⟨fun h1 => legal_traps hi hg ha h1 _ hrun, fun h1 => ⟨fun h2 => ?_, fun h2 h3 => ?_, fun h2 h3 => ⟨fun hk => ?_, fun t hk => ?_⟩⟩⟩
  · refine issue_traps hi hg ha (t := s) (hrun.trans ?_)
    rw [run_bind, run_legal_true h1, andThen, run_bind, handlerNeed_illegal h2]
    rfl
  · refine issue_traps hi hg ha (t := s) (hrun.trans ?_)
    rw [run_bind, run_legal_true h1, andThen, run_bind, handlerNeed_odd h2 h3]
    rfl
  · refine issue_waits hi hg ha (hrun.trans ?_)
    rw [run_bind, run_legal_true h1, andThen, run_bind, handlerNeed_passes h2 h3]
    exact hk
  · refine issue_retires hi hg ha (hrun.trans ?_)
    rw [run_bind, run_legal_true h1, andThen, run_bind, handlerNeed_passes h2 h3]
    exact hk

end Checks

/-! ### TENQ (R333) -/

section Tenq

variable {s u : State} (st : Fin 8) (d a b : Fin 32)

/-- The cluster that a TENQ names. -/
def tenqCluster (s : State) (b : Fin 32) : Nat :=
  if (s.rx b).getLsbD 5 then clusterOf s.core.id else s.core.id / 1024 * 32 + fld (s.rx b) 0 5

/-- The task that a TENQ makes, its handler and operands as the instruction has read them. -/
def tenqTask (s : State) (hnd v : Word) (cl : Nat) : Machine.Task :=
  { hnd := hnd.toNat, a0 := s.ro 2, a1 := s.ro 3, a2 := s.ro 4, a3 := s.ro 5
    pcc := capMove s.ctx.pcc hnd.toNat, prio := fld v 6 2, pin := if v.getLsbD 8 then .cluster cl else .none
    launch := s.myLaunch, asid := s.asid }

/-- The operation of TENQ. -/
def tenqBody (d a b : Fin 32) : Op Unit := do
  let s ← get
  let hnd := s.rx a
  let v := s.rx b
  let cl := if v.getLsbD 5 then clusterOf s.core.id else s.core.id / 1024 * 32 + fld v 0 5
  legal (hiClear v 9 && s.gangCluster cl)
  handlerNeed hnd
  await (s.hutchRoom cl s.asid)
  countTask
  let s ← get
  let t : Machine.Task :=
    { hnd := hnd.toNat, a0 := s.ro 2, a1 := s.ro 3, a2 := s.ro 4, a3 := s.ro 5
      pcc := capMove s.ctx.pcc hnd.toNat, prio := fld v 6 2, pin := if v.getLsbD 8 then .cluster cl else .none
      launch := s.myLaunch, asid := s.asid }
  let (s, tid) := s.enqueue cl false s.thread t
  set (s.wx d (BitVec.ofNat 64 tid))

theorem execTenq_eq : execTenq st d a b s = issue { st := st.val, reads := [rdC a, rdC b] } (unlessAhead (tenqBody d a b)) s := rfl

/-- What TENQ does once its handler is checked. -/
def tenqRest (d : Fin 32) (hnd v : Word) (cl : Nat) (room : Bool) : Op Unit := do
  await room
  countTask
  let s ← get
  let (s, tid) := s.enqueue cl false s.thread (tenqTask s hnd v cl)
  set (s.wx d (BitVec.ofNat 64 tid))

theorem tenq_run : tenqBody d a b s = (legal (hiClear (s.rx b) 9 && s.gangCluster (tenqCluster s b)) >>= fun _ => handlerNeed (s.rx a) >>= fun _ =>
    tenqRest d (s.rx a) (s.rx b) (tenqCluster s b) (s.hutchRoom (tenqCluster s b) s.asid)) s := rfl

theorem tenqRest_waits (hnd v : Word) (cl : Nat) : tenqRest d hnd v cl false s = .error .wait s := rfl

theorem tenqRest_done (hnd v : Word) (cl : Nat) (hu : s.countUp s.asid s.myLevel = some u) : tenqRest d hnd v cl true s =
    .ok () ((u.enqueue cl false u.thread (tenqTask u hnd v cl)).1.wx d (BitVec.ofNat 64 (u.enqueue cl false u.thread (tenqTask u hnd v cl)).2)) := by
  unfold tenqRest
  rw [run_bind, run_await, if_pos rfl, andThen, run_bind, run_countTask hu]
  rfl

theorem Device.myLaunch (h : Device s u) : u.myLaunch = s.myLaunch := by
  have hrun : u.core.run = s.core.run := eq_of_kept Core.run h.core
  unfold State.myLaunch
  rw [hrun]

theorem Device.asid_eq (h : Device s u) : u.asid = s.asid := by
  have hjob : u.core.job = s.core.job := eq_of_kept Core.job h.core
  unfold State.asid
  rw [hjob]

theorem Device.hutch (h : Device s u) (cl : Nat) : u.hutch cl = s.hutch cl := eq_of_bare (fun s => s.hutch cl) h.rest

theorem tenqTask_device (h : Device s u) (hnd v : Word) (cl : Nat) : tenqTask u hnd v cl = tenqTask s hnd v cl := by
  unfold tenqTask State.ro
  rw [h.ctx, h.myLaunch, h.asid_eq]

/-- TENQ's results, as the statement has them. -/
theorem tenq_enqueues {o : Host.Outcome State Fault Refusal} {hnd v : Word} {cl : Nat} (hu : s.countUp s.asid s.myLevel = some u)
    (hc : u.levelCancelled s.asid s.myLevel = false)
    (ho : ∀ t, tenqRest d hnd v cl true s = .ok () t → o = s.retire st.val t) :
    ∃ t, o = .next t ∧ Advanced s t ∧ WroteC s t d (scalar (BitVec.ofNat 64 (s.hutch cl).nextTid)) ∧
      t.hutch cl = (numberedHutch s cl).add false (queued s cl (tenqTask s hnd v cl)) ∧
      (∀ c, c ≠ cl → t.hutch c = s.hutch c) ∧ t.mem = u.mem ∧ t.levels = u.levels ∧ t.core.v = s.core.v := by
  have hdev : Device s u := countUp_device (.refl s) hu
  obtain ⟨k, hk⟩ : ∃ k, k = tenqTask s hnd v cl := ⟨_, rfl⟩
  have hexec := ho _ (tenqRest_done d hnd v cl hu)
  rw [tenqTask_device hdev, ← hk, enqueue_snd, hdev.hutch cl] at hexec
  have hlevel : u.levelCancelled k.asid k.level = false := by
    rw [hk]
    exact hc
  obtain ⟨hh, hoth, hmem, hlev⟩ := enqueue_hutch (s := u) (cl := cl) (head := false) (from_ := u.thread) hlevel
  have hq := enqueue_unqueued (s := u) cl false u.thread k
  obtain ⟨w, hw⟩ : ∃ w, w = (u.enqueue cl false u.thread k).1 := ⟨_, rfl⟩
  rw [← hw] at hexec hh hoth hmem hlev hq
  have hq' : unqueued w.core = unqueued s.core := hq.trans hdev.unqueued
  have hhut (c : Nat) : ((w.wx d (BitVec.ofNat 64 (s.hutch cl).nextTid)).finish st.val s.ctx.loop.lact).hutch c = w.hutch c := by
    rw [(finish_onlyContext _ _ _).rest]
    rfl
  refine ⟨_, hexec, advanced_finish ((stands_unqueued hq').trans (stands_wc _ _ _)) st.val (corePart_unqueued hq' Core.evc),
    wroteC_finish _ _ (wroteC_wc d _ (rc_unqueued hq')), ?_, fun c h => ?_, ?_, ?_, ?_⟩
  · rw [hhut, hh, numberedHutch, numberedHutch, queued, queued, hdev.hutch cl, ← hk,
      show u.time = s.time from eq_of_bare State.time hdev.rest]
  · rw [hhut, hoth c h, hdev.hutch c]
  · rw [finish_mem]
    exact hmem
  · rw [(finish_onlyContext _ _ _).rest]
    exact hlev
  · rw [finish_core_eq]
    exact corePart_unqueued hq' Core.v

/-- A Hutch takes a task into the list of its priority. -/
theorem add_tail (h : Hutch) (k : Machine.Task) : h.add false k =
    match k.prio with
    | 0 => { h with t0 := h.t0 ++ [k] }
    | 1 => { h with t1 := h.t1 ++ [k] }
    | 2 => { h with t2 := h.t2 ++ [k] }
    | _ => { h with t3 := h.t3 ++ [k] } := rfl

end Tenq

/-! ### SEND and TFIRE (R334, R341) -/

section Messages

variable {s u : State} (st : Fin 8) (d a b : Fin 32)

/-- The record of a message job. -/
def msgRec (u : State) : JobRec := newRec u clsMsg id

/-- The state in which a message job's packet is on its way. -/
def msgSent (u : State) (p : Packet) : State :=
  ((u.openJob clsMsg id).1.sendOp p (fun r => { r with job := some (clsMsg, (msgRec u).ri) })).1

theorem messageJob_run (p : Packet) : messageJob d p u = .ok () ((msgSent u p).wx d (msgRec u).word) := rfl

/-- A message job, from a state that has counted its task (`u`). -/
theorem message_sends {o : Host.Outcome State Fault Refusal} {p : Packet} (hdev : Device s u) (hid : s.core.id < 4096) (hr : p.rest = [])
    (ho : o = s.retire st.val ((msgSent u p).wx d (msgRec u).word)) :
    ∃ t r x, o = .next t ∧ Advanced s t ∧ OnlySends u t ∧ Opens u t d 4 r ∧
      r.status = stPENDING ∧ t.core.ops = s.core.ops ++ [x] ∧ x.job = some (4, r.ri) ∧ x.tag = s.newTag x.pkt.pin ∧
      x.pkt.kind = 1 ∧ x.pkt.seid = s.myEid ∧ x.pkt.asid = s.asid ∧ x.pkt.otag = x.tag ∧
      x.pkt = { p with kind := 1, seid := s.myEid, asid := s.asid, otag := s.newTag p.pin } := by
  obtain ⟨v, hv⟩ : ∃ v, v = (u.openJob clsMsg id).1 := ⟨_, rfl⟩
  have hvo : v = jobOpened u clsMsg id := hv.trans (openJob_pending rfl)
  obtain ⟨w, hw⟩ : ∃ w, w = msgSent u p := ⟨_, rfl⟩
  obtain ⟨r, hrec⟩ : ∃ r, r = msgRec u := ⟨_, rfl⟩
  rw [← hw, ← hrec] at ho
  have hvid : v.core.id = s.core.id := by
    rw [hvo]
    exact hdev.id
  have hq : SendsOp v w (sentOp v p (fun r' => { r' with job := some (clsMsg, r.ri) })) := by
    rw [hw, hrec]
    unfold msgSent
    rw [← hv]
    exact sendFrom_sendsOp hr (.inl (hvid ▸ hid))
  have hvoff : Offers u v := hv ▸ openJob_offers clsMsg id
  have htag : v.newTag p.pin = s.newTag p.pin := by
    have h1 : u.newTag p.pin = s.newTag p.pin := eq_of_kept (fun c : Core => tagOf c.tagRun c.cur.val p.pin) hdev.core
    rw [hvo]
    exact h1
  have hseid : v.myEid = s.myEid := by
    have hpkg : u.pkg = s.pkg := eq_of_bare State.pkg hdev.rest
    have h1 : u.myEid = s.myEid := by
      unfold State.myEid State.eid
      rw [hpkg, hdev.id]
    rw [hvo]
    exact h1
  have hasid : v.asid = s.asid := by
    rw [hvo]
    exact hdev.asid_eq
  have hvs : Stands u v := by
    rw [hvo]
    exact stands_of_ctx rfl rfl
  have hvc : v.ctx = u.ctx := by
    rw [hvo]
    rfl
  have hst : Stands s (w.wx d r.word) := ((hdev.stands.trans hvs).trans hq.stands).trans (stands_wc _ _ _)
  have hevc : w.core.evc = s.core.evc := by
    have huc : u.core.evc = s.core.evc := eq_of_kept Core.evc hdev.core
    rw [hq.evc, hvo]
    exact huc
  refine ⟨_, r, sentOp v p (fun r' => { r' with job := some (clsMsg, r.ri) }), ho, advanced_finish hst st.val hevc, (((hvoff.trans hq.offers).trans (setCtx_offers _)).trans (finish_offers _ _)).onlySends ?_,
    ⟨?_, by rw [hrec]; rfl, by rw [hrec]; rfl, ?_, ?_⟩, by rw [hrec]; rfl, ?_, rfl, htag, rfl, hseid, hasid, rfl, ?_⟩
  · rw [finish_o]
    exact (wx_ctx_o w d r.word).trans (by rw [hq.ctx, hvc])
  · rw [finish_core_eq]
    show w.core.jobs = _
    rw [hq.jobs, hvo, hrec]
    rfl
  · rw [finish_core_eq]
    show w.core.ser = _
    rw [hq.ser, hvo]
    rfl
  · exact wroteC_finish _ _ (wroteC_wc d _ fun n => by rw [hq.rc, hvo]; rfl)
  · rw [finish_core_eq]
    show w.core.ops = _
    have hops : v.core.ops = s.core.ops := by
      have huc : u.core.ops = s.core.ops := eq_of_kept Core.ops hdev.core
      rw [hvo]
      exact huc
    rw [hq.ops, hops]
  · show ({ p with kind := 1, seid := v.myEid, asid := v.asid, otag := v.newTag p.pin } : Packet) = _
    rw [hseid, hasid, htag]

/-- The packet of a SEND, its handler and operands as the instruction has read them. -/
def sendPkt (s : State) (hnd v : Word) (here : Bool) : Packet :=
  { deid := fld v 0 24, handler := hnd.toNat, arg0 := s.ro 2, arg1 := s.ro 3, arg2 := s.ro 4, arg3 := s.ro 5
    pcc := capMove s.ctx.pcc hnd.toNat, launch := if here then s.myLaunch else 0, pin := b2n (v.getLsbD 24) }

/-- The operation of SEND. -/
def sendBody (d a b : Fin 32) : Op Unit := do
  let s ← get
  let hnd := s.rx a
  let v := s.rx b
  let e := fld v 0 24
  legal (hiClear v 25 && Machine.isCore (eidLocal e))
  handlerNeed hnd
  awaitMessage
  let here := eidPkg e == s.pkgNo
  if here then countTask
  let s ← get
  messageJob d
    { deid := e, handler := hnd.toNat, arg0 := s.ro 2, arg1 := s.ro 3, arg2 := s.ro 4, arg3 := s.ro 5
      pcc := capMove s.ctx.pcc hnd.toNat, launch := if here then s.myLaunch else 0
      pin := b2n (v.getLsbD 24) }

theorem execSend_eq : execSend st d a b s = issue { st := st.val, reads := [rdC a, rdC b] } (unlessAhead (sendBody d a b)) s := rfl

/-- What SEND does once its handler is checked. -/
def sendRest (d : Fin 32) (hnd v : Word) (here : Bool) : Op Unit := do
  awaitMessage
  if here then countTask
  let s ← get
  messageJob d (sendPkt s hnd v here)

theorem send_run : sendBody d a b s = (legal (hiClear (s.rx b) 25 && Machine.isCore (eidLocal (fld (s.rx b) 0 24))) >>= fun _ =>
    handlerNeed (s.rx a) >>= fun _ => sendRest d (s.rx a) (s.rx b) (eidPkg (fld (s.rx b) 0 24) == s.pkgNo)) s := rfl

theorem awaitMessage_passes (h : s.core.inFlight 4 < 64) : awaitMessage s = .ok () s := by
  unfold awaitMessage
  rw [run_bind, get_run, andThen, decide_eq_true (show s.core.inFlight clsMsg < 64 from h)]
  rfl

theorem awaitMessage_waits (h : 64 ≤ s.core.inFlight 4) : awaitMessage s = .error .wait s := by
  unfold awaitMessage
  rw [run_bind, get_run, andThen, decide_eq_false (show ¬ s.core.inFlight clsMsg < 64 from Nat.not_lt.mpr h)]
  rfl

theorem sendRest_waits (hnd v : Word) (here : Bool) (h : 64 ≤ s.core.inFlight 4) : sendRest d hnd v here s = .error .wait s := by
  unfold sendRest
  rw [run_bind, awaitMessage_waits h]
  rfl

theorem sendRest_here (hnd v : Word) (h : s.core.inFlight 4 < 64) (hu : s.countUp s.asid s.myLevel = some u) :
    sendRest d hnd v true s = .ok () ((msgSent u (sendPkt u hnd v true)).wx d (msgRec u).word) := by
  unfold sendRest
  rw [run_bind, awaitMessage_passes h, andThen, if_pos rfl, run_bind, run_countTask hu]
  rfl

theorem sendRest_away (hnd v : Word) (h : s.core.inFlight 4 < 64) :
    sendRest d hnd v false s = .ok () ((msgSent s (sendPkt s hnd v false)).wx d (msgRec s).word) := by
  unfold sendRest
  rw [run_bind, awaitMessage_passes h]
  rfl

theorem sendPkt_device (h : Device s u) (hnd v : Word) (here : Bool) : sendPkt u hnd v here = sendPkt s hnd v here := by
  unfold sendPkt State.ro
  rw [h.ctx, h.myLaunch]

/-- The operation of TFIRE. -/
def tfireBody (d a b : Fin 32) : Op Unit := do
  let s ← get
  legal (hiClear (s.rx a) 24)
  awaitMessage
  messageJob d { deid := (s.rx a).toNat, handler := 13, arg0 := s.rx b }

theorem execTfire_eq : execTfire st d a b s = issue { st := st.val, reads := [rdC a, rdC b] } (unlessAhead (tfireBody d a b)) s := rfl

section Firing

variable (hah : s.ctx.ahead = false) (hi : s.CanIssue [rdC a, rdC b])
include hah hi

theorem tfire_illegal (h : 2 ^ 24 ≤ (s.rx a).toNat) : Traps s (execTfire st d a b s) .illegal (s.ctx.ir.zeroExtend 80) := by
  rw [execTfire_eq]
  exact legal_traps (g := { st := st.val, reads := [rdC a, rdC b] }) hi rfl rfl ((hiClear_false_iff _ _).mpr h) _ (unlessAhead_runs hah)

theorem tfire_waits (h : (s.rx a).toNat < 2 ^ 24) (hf : 64 ≤ s.core.inFlight 4) : execTfire st d a b s = .next s.block := by
  rw [execTfire_eq]
  refine issue_waits (g := { st := st.val, reads := [rdC a, rdC b] }) hi rfl rfl ?_
  rw [unlessAhead_runs hah, tfireBody, run_bind, get_run, andThen, run_bind, run_legal_true ((hiClear_iff _ _).mpr h), andThen, run_bind,
    awaitMessage_waits hf]
  rfl

theorem tfire_retires (h : (s.rx a).toNat < 2 ^ 24) (hf : s.core.inFlight 4 < 64) : execTfire st d a b s =
    s.retire st.val ((msgSent s { deid := (s.rx a).toNat, handler := 13, arg0 := s.rx b }).wx d (msgRec s).word) := by
  rw [execTfire_eq]
  refine issue_retires (g := { st := st.val, reads := [rdC a, rdC b] }) hi rfl rfl ?_
  rw [unlessAhead_runs hah, tfireBody, run_bind, get_run, andThen, run_bind, run_legal_true ((hiClear_iff _ _).mpr h), andThen, run_bind,
    awaitMessage_passes hf]
  rfl

end Firing

end Messages

/-! ### Bindings (R338 to R340) -/

/-- A core without its bindings too. -/
def unbound (c : Core) : Core := { unqueued c with binds := [] }

section Bindings

variable {s₀ s t u : State} {c : Core} {b old : Binding}

theorem bindOf_addr {addr : Word} (h : c.bindOf addr = some old) : old.addr = addr := by
  simpa using List.find?_some h

theorem putBind_new (h : c.bindOf b.addr = none) : (c.putBind b).binds = c.binds ++ [{ b with idx := c.freeBind }] := by
  unfold Core.putBind
  rw [h]
  rfl

theorem putBind_old (h : c.bindOf b.addr = some old) :
    (c.putBind b).binds = c.binds.map (fun x => if x.addr == b.addr then { b with idx := x.idx } else x) := by
  unfold Core.putBind
  rw [h]
  rfl

theorem bindOf_putBind_same (h : c.bindOf b.addr = some old) : (c.putBind b).bindOf b.addr = some { b with idx := old.idx } := by
  have hb := putBind_old h
  unfold Core.bindOf at h ⊢
  rw [hb, List.find?_map]
  have hcomp : (fun x : Binding => x.addr == b.addr) ∘ (fun x => if x.addr == b.addr then { b with idx := x.idx } else x) =
      fun x => x.addr == b.addr := by
    funext x
    by_cases hx : x.addr = b.addr <;> simp [hx]
  rw [hcomp, h, Option.map_some]
  have : old.addr = b.addr := bindOf_addr (c := c) h
  simp [this]

theorem bindOf_putBind_other (h : c.bindOf b.addr = some old) {addr : Word} (ha : addr ≠ b.addr) :
    (c.putBind b).bindOf addr = c.bindOf addr := by
  have hb := putBind_old h
  unfold Core.bindOf
  rw [hb, List.find?_map]
  have hcomp : (fun x : Binding => x.addr == addr) ∘ (fun x => if x.addr == b.addr then { b with idx := x.idx } else x) =
      fun x => x.addr == addr := by
    funext x
    by_cases hx : x.addr = b.addr
    · simp [hx]
    · simp [hx]
  rw [hcomp]
  cases hf : c.binds.find? (fun x => x.addr == addr) with
  | none => rfl
  | some x =>
    have hx : x.addr = addr := by simpa using List.find?_some hf
    simp [hx, ha]

theorem unbound_putBind (c : Core) (b : Binding) : unbound (c.putBind b) = unbound c := rfl

/-- The parts of the issuing context that bindings leave. -/
theorem stands_unbound (h : unbound t.core = unbound s.core) : Stands s t := by
  have h' : unqueued ({ t with core := { t.core with binds := [] } } : State).core =
      unqueued ({ s with core := { s.core with binds := [] } } : State).core := h
  obtain ⟨h1, h2, h3, h4⟩ := stands_unqueued h'
  exact ⟨h1, h2, h3, h4⟩

theorem rc_unbound (h : unbound t.core = unbound s.core) (n : Fin 32) : t.rc n = s.rc n :=
  rc_unqueued (s := { s with core := { s.core with binds := [] } }) (t := { t with core := { t.core with binds := [] } }) h n

theorem evc_unbound (h : unbound t.core = unbound s.core) : t.core.evc = s.core.evc :=
  show (unbound t.core).evc = (unbound s.core).evc from congrArg Core.evc h

theorem unbound_of_unqueued (h : unqueued t.core = unqueued s.core) : unbound t.core = unbound s.core :=
  congrArg (fun c : Core => { c with binds := [] }) h

/-- The lowest free entry of a table that is not full (R388). -/
theorem freeBind_lowest (h : c.binds.length < 64) :
    c.freeBind < 64 ∧ (∀ x ∈ c.binds, x.idx ≠ c.freeBind) ∧ ∀ k < c.freeBind, ∃ x ∈ c.binds, x.idx = k := by
  have hex : ∃ i, (List.range 64).find? (fun i => !c.binds.any (fun b => b.idx == i)) = some i := by
    rw [← Option.isSome_iff_exists, List.find?_isSome]
    by_contra hn
    push Not at hn
    have hall : ∀ i ∈ Finset.range 64, i ∈ (c.binds.map Binding.idx).toFinset := by
      intro i hi
      have := hn i (List.mem_range.mpr (Finset.mem_range.mp hi))
      simpa using this
    have h1 := (Finset.card_le_card hall).trans (List.toFinset_card_le _)
    rw [Finset.card_range, List.length_map] at h1
    omega
  obtain ⟨i, hi⟩ := hex
  have hfree : c.freeBind = i := by
    unfold Core.freeBind
    rw [hi]
    rfl
  rw [hfree]
  obtain ⟨hp, as, bs, hsplit, hbefore⟩ := List.find?_eq_some_iff_append.mp hi
  refine ⟨?_, fun x hx e => ?_, fun k hk => ?_⟩
  · exact List.mem_range.mp (hsplit ▸ List.mem_append_right as List.mem_cons_self)
  · simp only [Bool.not_eq_true', List.any_eq_false, beq_iff_eq] at hp
    exact hp x hx e
  · have hlen : as.length = i := by
      have h1 : (List.range 64)[as.length]? = some i := by rw [hsplit]; simp
      have h2 := List.getElem?_eq_some_iff.mp h1
      obtain ⟨h3, h4⟩ := h2
      rwa [List.getElem_range] at h4
    have hmem : k ∈ as := by
      have h1 : (List.range 64)[k]? = as[k]? := by rw [hsplit, List.getElem?_append_left (by omega)]
      have h64 : as.length < 64 := by
        have := congrArg List.length hsplit
        simp at this
        omega
      rw [List.getElem?_range (by omega)] at h1
      exact List.mem_of_getElem? h1.symm
    have := hbefore k hmem
    simpa using this

theorem enqueue_binds (cl : Nat) (head : Bool) (from_ : Nat × Nat) (k : Machine.Task) :
    (s.enqueue cl head from_ k).1.core.binds = s.core.binds := corePart_unqueued (enqueue_unqueued cl head from_ k) Core.binds

theorem bindOf_same {c c' : Core} (h : c'.binds = c.binds) (addr : Word) : c'.bindOf addr = c.bindOf addr := by
  unfold Core.bindOf
  rw [h]

theorem countUp_getD_device (asid lid : Nat) : Device s ((s.countUp asid lid).getD s) := by
  cases h : s.countUp asid lid with
  | none => exact .refl s
  | some u => exact countUp_device (.refl s) h

/-- A trigger that fires moves its binding's sequence number on, and leaves every other binding (R339). -/
theorem fire_facts {addr : Word} (from_ : Nat × Nat) (h : s.core.bindOf addr = some b) :
    unbound (s.fire addr from_).core = unbound s.core ∧
    (s.fire addr from_).core.bindOf addr = some { b with seq := (b.seq + 1) % 2 ^ 32 } ∧
    ∀ x, x ≠ addr → (s.fire addr from_).core.bindOf x = s.core.bindOf x := by
  obtain ⟨v, hv⟩ : ∃ v : State, v = { s with core := s.core.putBind { b with seq := (b.seq + 1) % 2 ^ 32 } } := ⟨_, rfl⟩
  obtain rfl : b.addr = addr := bindOf_addr h
  have hput : s.core.bindOf ({ b with seq := (b.seq + 1) % 2 ^ 32 } : Binding).addr = some b := h
  have htail : unqueued (s.fire b.addr from_).core = unqueued v.core := by
    unfold State.fire
    rw [h]
    dsimp only
    rw [← hv]
    exact (enqueue_unqueued _ _ _ _).trans (countUp_getD_device _ _).unqueued
  have hbinds : (s.fire b.addr from_).core.binds = (s.core.putBind { b with seq := (b.seq + 1) % 2 ^ 32 }).binds := by
    rw [corePart_unqueued htail Core.binds, hv]
  refine ⟨(unbound_of_unqueued htail).trans (by rw [hv]; rfl), ?_, fun x hx => ?_⟩
  · rw [bindOf_same hbinds]
    exact bindOf_putBind_same hput
  · rw [bindOf_same hbinds]
    exact bindOf_putBind_other hput hx

/-- Pending triggers that fire (R339). -/
theorem firePending_facts {addr : Word} (n : Nat) (h : s.core.bindOf addr = some b) :
    unbound (s.firePending addr n).core = unbound s.core ∧
    (∃ x, (s.firePending addr n).core.bindOf addr = some x ∧ x.bnd = b.bnd ∧ x.hnd = b.hnd ∧ x.pend = b.pend ∧
      x.seq % 2 ^ 32 = (b.seq + n) % 2 ^ 32) ∧
    ∀ x, x ≠ addr → (s.firePending addr n).core.bindOf x = s.core.bindOf x := by
  induction n generalizing s b with
  | zero => exact ⟨rfl, ⟨b, h, rfl, rfl, rfl, rfl⟩, fun _ _ => rfl⟩
  | succ n ih =>
    obtain ⟨h1, h2, h3⟩ := fire_facts (bindThread s.core.id addr) h
    obtain ⟨h4, ⟨x, h5, h6, h7, h8, h9⟩, h10⟩ := ih h2
    refine ⟨h4.trans h1, ⟨x, h5, h6, h7, h8, ?_⟩, fun y hy => (h10 y hy).trans (h3 y hy)⟩
    rw [h9]
    show ((b.seq + 1) % 2 ^ 32 + n) % 2 ^ 32 = _
    omega

theorem countUp_of_room {asid lid n : Nat} (h : s.countRoom asid lid (1 + n) = true) : ∃ u, s.countUp asid lid = some u := by
  unfold State.countUp
  unfold State.countRoom at h
  cases hl : s.levelOf asid lid with
  | none => exact ⟨s, rfl⟩
  | some l =>
    rw [hl, Option.map_some, Option.getD_some, decide_eq_true_eq] at h
    exact ⟨_, if_neg (by omega)⟩

end Bindings

/-! ### TBIND and TUNBIND (R339, R340) -/

section Binds

variable {s u : State} (st : Fin 8) (d a b : Fin 32) {old : Binding}

/-- The binding that a TBIND puts, its handler and address as the instruction has read them. -/
def newBind (s : State) (addr hnd : Word) : Binding :=
  { addr := addr, hnd := hnd.toNat, pcc := s.ctx.pcc, o2 := s.ro 2, o3 := s.ro 3, launch := s.myLaunch, bnd := true }

/-- What TBIND does once its handler is checked, by the entry of its address. -/
def tbindRest (s : State) (d : Fin 32) (addr hnd : Word) : Op Unit :=
  match s.core.bindOf addr with
  | none =>
    if 64 ≤ s.core.binds.length then upd fun s => s.wx d 0
    else do
      countTask
      upd fun t => ({ t with core := t.core.putBind (newBind s addr hnd) } : State).wx d 1
  | some old => do
    legal (s.countRoom s.asid s.myLevel (1 + if old.bnd then 0 else old.pend))
    countTask
    if old.bnd then
      upd fun t =>
        (({ t with core := t.core.putBind { newBind s addr hnd with seq := old.seq } } : State).countDown t.asid old.level).wx d 2
    else
      upd fun t =>
        (({ t with core := t.core.putBind { newBind s addr hnd with seq := old.seq } } : State).firePending addr old.pend).wx d 1

/-- The operation of TBIND. -/
def tbindBody (d a b : Fin 32) : Op Unit := do
  let s ← get
  let addr := s.rx a
  let hnd := s.rx b
  handlerNeed hnd
  let new : Binding := { addr := addr, hnd := hnd.toNat, pcc := s.ctx.pcc, o2 := s.ro 2, o3 := s.ro 3,
                         launch := s.myLaunch, bnd := true }
  match s.core.bindOf addr with
  | none =>
    if 64 ≤ s.core.binds.length then upd fun s => s.wx d 0
    else
      countTask
      upd fun s => ({ s with core := s.core.putBind new } : State).wx d 1
  | some old =>
    legal (s.countRoom s.asid s.myLevel (1 + if old.bnd then 0 else old.pend))
    countTask
    if old.bnd then
      upd fun s =>
        (({ s with core := s.core.putBind { new with seq := old.seq } } : State).countDown s.asid old.level).wx d 2
    else
      upd fun s =>
        (({ s with core := s.core.putBind { new with seq := old.seq } } : State).firePending addr old.pend).wx d 1

theorem execTbind_eq : execTbind st d a b s = issue { st := st.val, reads := [rdC a, rdC b] } (unlessAhead (tbindBody d a b)) s := rfl

theorem tbind_run : tbindBody d a b s = (legal true >>= fun _ => handlerNeed (s.rx b) >>= fun _ => tbindRest s d (s.rx a) (s.rx b)) s := by
  rw [run_bind, run_legal_true rfl, andThen]
  unfold tbindBody tbindRest newBind
  rw [run_bind, get_run, andThen]

/-- What a step of TBIND or TUNBIND leaves, from a state `t` in which the bindings alone and the device's work differ. -/
theorem binds_finish {t : State} (w : Word) (h : unbound t.core = unbound s.core) :
    Advanced s ((t.wx d w).finish st.val s.ctx.loop.lact) ∧ WroteC s ((t.wx d w).finish st.val s.ctx.loop.lact) d (scalar w) ∧
      (∀ x, ((t.wx d w).finish st.val s.ctx.loop.lact).core.bindOf x = t.core.bindOf x) ∧
      ((t.wx d w).finish st.val s.ctx.loop.lact).core.binds = t.core.binds ∧
      ((t.wx d w).finish st.val s.ctx.loop.lact).levels = t.levels ∧ ((t.wx d w).finish st.val s.ctx.loop.lact).mem = t.mem := by
  refine ⟨advanced_finish ((stands_unbound h).trans (stands_wc _ _ _)) st.val (evc_unbound (t := t) h),
    wroteC_finish _ _ (wroteC_wc d _ (rc_unbound h)), fun x => ?_, ?_, ?_, ?_⟩
  · rw [finish_core_eq]
    rfl
  · rw [finish_core_eq]
    rfl
  · rw [(finish_onlyContext _ _ _).rest]
    rfl
  · rw [finish_mem]
    rfl

theorem putBind_unbound (hdev : Device s u) (x : Binding) :
    unbound ({ u with core := u.core.putBind x } : State).core = unbound s.core :=
  (unbound_putBind u.core x).trans (unbound_of_unqueued hdev.unqueued)

theorem tbindRest_full (addr hnd : Word) (hn : s.core.bindOf addr = none) (hf : 64 ≤ s.core.binds.length) :
    tbindRest s d addr hnd s = .ok () (s.wx d 0) := by
  unfold tbindRest
  rw [hn]
  dsimp only
  rw [if_pos hf]
  rfl

theorem tbindRest_new (addr hnd : Word) (hn : s.core.bindOf addr = none) (hf : s.core.binds.length < 64)
    (hu : s.countUp s.asid s.myLevel = some u) :
    tbindRest s d addr hnd s = .ok () (({ u with core := u.core.putBind (newBind s addr hnd) } : State).wx d 1) := by
  unfold tbindRest
  rw [hn]
  dsimp only
  rw [if_neg (Nat.not_le.mpr hf), run_bind, run_countTask hu]
  rfl

theorem tbindRest_bound (addr hnd : Word) (ho : s.core.bindOf addr = some old) (hb : old.bnd = true)
    (hr : s.countRoom s.asid s.myLevel 1 = true) (hu : s.countUp s.asid s.myLevel = some u) : tbindRest s d addr hnd s =
    .ok () ((({ u with core := u.core.putBind { newBind s addr hnd with seq := old.seq } } : State).countDown u.asid old.level).wx d 2) := by
  unfold tbindRest
  rw [ho]
  dsimp only
  rw [hb, if_pos rfl, run_bind, run_legal_true hr, andThen, run_bind, run_countTask hu]
  rfl

theorem tbindRest_waiting (addr hnd : Word) (ho : s.core.bindOf addr = some old) (hb : old.bnd = false)
    (hr : s.countRoom s.asid s.myLevel (1 + old.pend) = true) (hu : s.countUp s.asid s.myLevel = some u) : tbindRest s d addr hnd s =
    .ok () ((({ u with core := u.core.putBind { newBind s addr hnd with seq := old.seq } } : State).firePending addr old.pend).wx d 1) := by
  unfold tbindRest
  rw [ho]
  dsimp only
  rw [hb, if_neg Bool.false_ne_true, run_bind, run_legal_true hr, andThen, run_bind, run_countTask hu]
  rfl

/-- A binding replaced in a state that has counted its task. -/
theorem rebound_facts {addr hnd : Word} (hdev : Device s u) (ho : s.core.bindOf addr = some old) :
    (u.core.putBind { newBind s addr hnd with seq := old.seq }).bindOf addr =
      some { newBind s addr hnd with seq := old.seq, idx := old.idx } ∧
    ∀ x, x ≠ addr → (u.core.putBind { newBind s addr hnd with seq := old.seq }).bindOf x = s.core.bindOf x := by
  have hbinds : u.core.binds = s.core.binds := eq_of_kept Core.binds hdev.core
  have hu : u.core.bindOf ({ newBind s addr hnd with seq := old.seq } : Binding).addr = some old := (bindOf_same hbinds addr).trans ho
  exact ⟨bindOf_putBind_same hu, fun x hx => (bindOf_putBind_other hu hx).trans (bindOf_same hbinds x)⟩

/-- The operation of TUNBIND. -/
def tunbindBody (d a : Fin 32) : Op Unit := do
  let s ← get
  let addr := s.rx a
  match s.core.bindOf addr with
  | none => upd fun s => s.wx d 0
  | some b =>
    upd fun s =>
      let s := { s with core := { s.core with binds := s.core.binds.filter (fun x => x.addr != addr) } }
      let s := if b.bnd then s.countDown s.asid b.level else s
      s.wx d (BitVec.ofNat 64 b.pend)

theorem execTunbind_eq : execTunbind st d a s = issue { st := st.val, reads := [rdC a] } (unlessAhead (tunbindBody d a)) s := rfl

/-- The state without the binding of an address, its count released. -/
def unboundAt (s : State) (addr : Word) (b : Binding) : State :=
  let s := { s with core := { s.core with binds := s.core.binds.filter (fun x => x.addr != addr) } }
  if b.bnd then s.countDown s.asid b.level else s

theorem unboundAt_facts (s : State) (addr : Word) (b : Binding) : unbound (unboundAt s addr b).core = unbound s.core ∧
    (unboundAt s addr b).core.bindOf addr = none ∧ (∀ x, x ≠ addr → (unboundAt s addr b).core.bindOf x = s.core.bindOf x) ∧
    (b.bnd = false → (unboundAt s addr b).levels = s.levels ∧ (unboundAt s addr b).mem = s.mem) := by
  obtain ⟨v, hv⟩ : ∃ v : State, v = { s with core := { s.core with binds := s.core.binds.filter (fun x => x.addr != addr) } } := ⟨_, rfl⟩
  have hdev : Device v (unboundAt s addr b) := by
    unfold unboundAt
    dsimp only
    rw [← hv]
    split
    · exact countDown_device (.refl v)
    · exact .refl v
  have hbinds : (unboundAt s addr b).core.binds = s.core.binds.filter (fun x => x.addr != addr) := by
    rw [show (unboundAt s addr b).core.binds = v.core.binds from eq_of_kept Core.binds hdev.core, hv]
  refine ⟨(unbound_of_unqueued hdev.unqueued).trans (by rw [hv]; rfl), ?_, fun x hx => ?_, fun hb => ?_⟩
  · unfold Core.bindOf
    rw [hbinds, List.find?_eq_none]
    intro x hx
    have := (List.mem_filter.mp hx).2
    simpa using this
  · unfold Core.bindOf
    rw [hbinds, List.find?_filter]
    congr 1
    funext y
    by_cases hy : y.addr = x
    · simp [hy, hx]
    · simp [hy]
  · unfold unboundAt
    rw [hb]
    exact ⟨rfl, rfl⟩

section Unbinding

variable (hah : s.ctx.ahead = false) (hi : s.CanIssue [rdC a])
include hah hi

theorem tunbind_none (h : s.core.bindOf (s.rx a) = none) : execTunbind st d a s = s.retire st.val (s.wx d 0) := by
  rw [execTunbind_eq]
  refine issue_retires (g := { st := st.val, reads := [rdC a] }) hi rfl rfl ?_
  rw [unlessAhead_runs hah, tunbindBody, run_bind, get_run, andThen, h]
  rfl

theorem tunbind_some (h : s.core.bindOf (s.rx a) = some old) :
    execTunbind st d a s = s.retire st.val ((unboundAt s (s.rx a) old).wx d (BitVec.ofNat 64 old.pend)) := by
  rw [execTunbind_eq]
  refine issue_retires (g := { st := st.val, reads := [rdC a] }) hi rfl rfl ?_
  rw [unlessAhead_runs hah, tunbindBody, run_bind, get_run, andThen, h]
  rfl

end Unbinding

end Binds

/-! ### The statement -/

theorem clusterOk_false {v : Word} {ok : Bool} {n : Nat} : (hiClear v n && ok) = false ↔ 2 ^ n ≤ v.toNat ∨ ok = false := by
  rw [Bool.and_eq_false_iff, hiClear_false_iff]

theorem clusterOk_true {v : Word} {ok : Bool} {n : Nat} : (hiClear v n && ok) = true ↔ v.toNat < 2 ^ n ∧ ok = true := by
  rw [Bool.and_eq_true, hiClear_iff]

theorem isCore_fld (v : Word) : Machine.isCore (eidLocal (fld v 0 24)) = true ↔ fld v 0 24 % 1024 < 256 := by
  unfold Machine.isCore lidUnit eidLocal
  rw [decide_eq_true_eq]
  omega

/-- Settles O35: each instruction's checks run in order; the task, packet or binding is what its operands name, and the counting of
its task is the device's work, which leaves the core. -/
theorem spawningAndBindings : Obligations.SpawningAndBindings := by
  unfold Obligations.SpawningAndBindings
  refine ⟨?_, ?_⟩
  · intro s u st d a b hah hid
    dsimp only
    intro hi
    refine ⟨?_, ?_, ?_⟩
    · obtain ⟨h1, h2⟩ := handler_checks (g := { st := st.val, reads := [rdC a, rdC b] }) hah (execTenq_eq st d a b) rfl rfl hi (tenq_run d a b)
      refine ⟨fun h => h1 (clusterOk_false.mpr h), fun hv hg => ?_⟩
      obtain ⟨h3, h4, h5⟩ := h2 (clusterOk_true.mpr ⟨hv, hg⟩)
      refine ⟨h3, h4, fun h6 h7 => ⟨fun hroom => (h5 h6 h7).1 ?_, fun hroom hu hc => ?_⟩⟩
      · rw [show s.hutchRoom (tenqCluster s b) s.asid = false from hroom]
        rfl
      · obtain ⟨t, ht, hadv, hw, hh, hoth, hmem, hlev, hvr⟩ := tenq_enqueues st d (cl := tenqCluster s b) (hnd := s.rx a) (v := s.rx b) hu hc
          (o := execTenq st d a b s) (fun t ht => (h5 h6 h7).2 t (by rw [show s.hutchRoom (tenqCluster s b) s.asid = true from hroom]; exact ht))
        refine ⟨t, ht, hadv, hw, hh.trans (add_tail _ _), hoth, hmem, hlev, hvr⟩
    · obtain ⟨h1, h2⟩ := handler_checks (g := { st := st.val, reads := [rdC a, rdC b] }) hah (execSend_eq st d a b) rfl rfl hi (send_run d a b)
      refine ⟨fun h => h1 (clusterOk_false.mpr (h.imp_right fun h => ?_)), fun hv hg => ?_⟩
      · rw [← Bool.not_eq_true, isCore_fld]
        omega
      · obtain ⟨h3, h4, h5⟩ := h2 (clusterOk_true.mpr ⟨hv, (isCore_fld _).mpr hg⟩)
        refine ⟨h3, h4, fun h6 h7 hu => ⟨fun hfull => (h5 h6 h7).1 (sendRest_waits d _ _ _ hfull), fun hroom => ?_⟩⟩
        by_cases hp : fld (s.rx b) 0 24 / 4096 = s.pkgNo
        · rw [if_pos hp] at hu
          have hhere : (eidPkg (fld (s.rx b) 0 24) == s.pkgNo) = true := by rw [eidPkg_fld, hp, beq_self_eq_true]
          have hdev : Device s u := countUp_device (.refl s) hu
          have ho := (h5 h6 h7).2 _ (by rw [hhere]; exact sendRest_here d _ _ hroom hu)
          rw [sendPkt_device hdev] at ho
          obtain ⟨t, r, x, ht, hadv, hs, hopens, hst, hops, hjob, htag, hkind, hseid, hasid, hotag, hpkt⟩ :=
            message_sends st d hdev hid rfl ho
          refine ⟨t, r, x, ht, hadv, hs, hopens, hst, hops, hjob, htag, hkind, hseid, hasid, hotag, ?_⟩
          rw [hpkt, if_pos hp]
          exact ⟨rfl, rfl, rfl, rfl, rfl, rfl, rfl, rfl, rfl, rfl⟩
        · rw [if_neg hp] at hu
          subst hu
          have haway : (eidPkg (fld (u.rx b) 0 24) == u.pkgNo) = false := by
            rw [eidPkg_fld]
            exact beq_eq_false_iff_ne.mpr hp
          have ho := (h5 h6 h7).2 _ (by rw [haway]; exact sendRest_away d _ _ hroom)
          obtain ⟨t, r, x, ht, hadv, hs, hopens, hst, hops, hjob, htag, hkind, hseid, hasid, hotag, hpkt⟩ :=
            message_sends st d (.refl u) hid rfl ho
          refine ⟨t, r, x, ht, hadv, hs, hopens, hst, hops, hjob, htag, hkind, hseid, hasid, hotag, ?_⟩
          rw [hpkt, if_neg hp]
          exact ⟨rfl, rfl, rfl, rfl, rfl, rfl, rfl, rfl, rfl, rfl⟩
    · refine ⟨tfire_illegal st d a b hah hi, fun h hu => ⟨tfire_waits st d a b hah hi h, fun hroom => ?_⟩⟩
      subst hu
      obtain ⟨t, r, x, ht, hadv, hs, hopens, hst, hops, hjob, htag, hkind, hseid, hasid, hotag, hpkt⟩ :=
        message_sends st d (.refl u) hid rfl (tfire_retires st d a b hah hi h hroom)
      refine ⟨t, r, x, ht, hadv, hs, hopens, hst, hops, hjob, htag, hkind, hseid, hasid, hotag, ?_⟩
      rw [hpkt]
      exact ⟨rfl, rfl, rfl, rfl⟩
  · intro s u st d a b old hah
    dsimp only
    refine ⟨fun hi => ?_, fun hi => ⟨fun hn => ?_, fun ho => ?_⟩⟩
    · obtain ⟨-, h2⟩ := handler_checks (g := { st := st.val, reads := [rdC a, rdC b] }) hah (execTbind_eq st d a b) rfl rfl hi (tbind_run d a b)
      obtain ⟨h3, h4, h5⟩ := h2 rfl
      refine ⟨h3, h4, fun h6 h7 => ⟨fun hn hf => ?_, fun hn hf hu => ?_, fun ho hb hr => ?_, fun ho hb hr => ?_⟩⟩
      · exact writesC_of ((h5 h6 h7).2 _ (tbindRest_full d _ _ hn hf))
      · have hdev : Device s u := countUp_device (.refl s) hu
        have hbinds : u.core.binds = s.core.binds := eq_of_kept Core.binds hdev.core
        have hnu : u.core.bindOf (newBind s (s.rx a) (s.rx b)).addr = none := (bindOf_same hbinds (s.rx a)).trans hn
        obtain ⟨hadv, hw, -, hbd, hlev, hmem⟩ := binds_finish (s := s) st d
          (t := { u with core := u.core.putBind (newBind s (s.rx a) (s.rx b)) }) 1 (putBind_unbound hdev _)
        obtain ⟨h64, hfree, hlow⟩ := freeBind_lowest (c := u.core) (by rw [hbinds]; exact hf)
        rw [hbinds] at hfree hlow
        refine ⟨_, (h5 h6 h7).2 _ (tbindRest_new d _ _ hn hf hu), hadv, hw, ⟨_, h64, hfree, hlow, ?_⟩, hlev, hmem⟩
        rw [hbd]
        exact (putBind_new hnu).trans (by rw [hbinds]; rfl)
      · obtain ⟨u, hu⟩ := countUp_of_room (n := 0) hr
        have hdev : Device s u := countUp_device (.refl s) hu
        obtain ⟨hsame, hoth⟩ := rebound_facts (hnd := s.rx b) hdev ho
        have hcd : Device ({ u with core := u.core.putBind { newBind s (s.rx a) (s.rx b) with seq := old.seq } } : State) _ :=
          countDown_device (asid := u.asid) (lid := old.level) (.refl _)
        have hbd (x : Word) := bindOf_same (eq_of_kept Core.binds hcd.core) x
        obtain ⟨hadv, hw, hbo, -, -, -⟩ := binds_finish (s := s) st d 2
          ((unbound_of_unqueued hcd.unqueued).trans (putBind_unbound hdev _))
        refine ⟨_, (h5 h6 h7).2 _ (tbindRest_bound d _ _ ho hb hr hu), hadv, hw, ?_, fun x hx => ?_⟩
        · rw [hbo]
          exact (hbd _).trans hsame
        · rw [hbo]
          exact (hbd _).trans (hoth x hx)
      · obtain ⟨u, hu⟩ := countUp_of_room (n := old.pend) hr
        have hdev : Device s u := countUp_device (.refl s) hu
        obtain ⟨hsame, hoth⟩ := rebound_facts (hnd := s.rx b) hdev ho
        obtain ⟨hub, ⟨x, hx, hbnd, hhnd, hpend, hseq⟩, hother⟩ := firePending_facts
          (s := { u with core := u.core.putBind { newBind s (s.rx a) (s.rx b) with seq := old.seq } }) old.pend hsame
        obtain ⟨hadv, hw, hbo, -, -, -⟩ := binds_finish (s := s) st d 1 (hub.trans (putBind_unbound hdev _))
        refine ⟨_, (h5 h6 h7).2 _ (tbindRest_waiting d _ _ ho hb hr hu), hadv, hw, ⟨x, ?_, hbnd, hhnd, hpend, hseq⟩, fun y hy => ?_⟩
        · rw [hbo]
          exact hx
        · rw [hbo]
          exact (hother y hy).trans (hoth y hy)
    · exact writesC_of (tunbind_none st d a hah hi hn)
    · obtain ⟨h1, h2, h3, h4⟩ := unboundAt_facts s (s.rx a) old
      obtain ⟨hadv, hw, hbo, -, hlev, hmem⟩ := binds_finish (s := s) st d (BitVec.ofNat 64 old.pend) h1
      refine ⟨_, tunbind_some st d a hah hi ho, hadv, hw, (hbo _).trans h2, fun x hx => (hbo x).trans (h3 x hx), fun hb => ?_⟩
      obtain ⟨h5, h6⟩ := h4 hb
      exact ⟨hlev.trans h5, hmem.trans h6⟩

end Sys2Proof.Proofs
end

section
/-! PROOFS. What the device writes where memory is open, and the barrier instructions (R231, R357 to R360, R393, R395). -/
namespace Sys2Proof.Proofs
open Sys2Proof Sys2Proof.Machine Sys2Proof.Laws
set_option Elab.async false

/-! ### A record written where memory is open -/

theorem foldl_stays {α β : Type} {f : β → α → β} {b : β} : ∀ {l : List α}, (∀ x ∈ l, f b x = b) → l.foldl f b = b
  | [], _ => rfl
  | x :: l, h => by
    rw [List.foldl_cons, h x List.mem_cons_self]
    exact foldl_stays fun y hy => h y (List.mem_cons_of_mem _ hy)

theorem leNat_leBytes (n : Nat) : ∀ x, leNat (leBytes n x) = x % 256 ^ n := by
  induction n with
  | zero =>
    intro x
    rw [leBytes, leNat, Nat.pow_zero, Nat.mod_one]
  | succ n ih =>
    intro x
    rw [leBytes, leNat, ih, BitVec.toNat_ofNat]
    exact (Nat.mod_mul (a := 256) (b := 256 ^ n)).symm.trans (by rw [Nat.pow_succ'])

section Writing

variable {s : State} {a : Nat} {bs : List Byte} {w : Nat}

/-- No watchpoint is armed, so a write tells none. -/
theorem homeWatch_unarmed {n : Nat} (h : ∀ c ∈ s.allCores, ∀ k : Fin 2, c.hwc[k].toNat.testBit 0 = false) :
    s.homeWatch a n w = s := by
  refine foldl_stays fun c hc => foldl_stays fun k _ => ?_
  have : homeMatch s c k a n = none := by
    unfold homeMatch
    dsimp only
    rw [h c hc k]
    rfl
  rw [this]

theorem foldl_l2Drop (ls : List Nat) : ∀ s : State, ∃ x, ls.foldl (fun s l => s.l2Store false l) s = { s with l2 := x } := by
  induction ls with
  | nil => exact fun s => ⟨s.l2, rfl⟩
  | cons l ls ih => exact fun s => ih (s.l2Store false l)

/-- A write of what no cache holds, where memory is reached and no watchpoint is armed. -/
theorem put_mem {p : Nat} (hup : s.reaches a = true) (h : ∀ c ∈ s.allCores, ∀ k : Fin 2, c.hwc[k].toNat.testBit 0 = false) :
    (s.put p false a bs w).mem = memSets s.mem a bs := by
  unfold State.put
  rw [if_pos hup]
  obtain ⟨x, hx⟩ := foldl_l2Drop (linesOf a bs.length) ((s.cutLines (linesOf a bs.length) p).putBytes a bs)
  dsimp only
  rw [hx, homeWatch_unarmed]
  · rfl
  · intro c hc
    rcases List.mem_cons.mp hc with rfl | hc
    · exact h s.core List.mem_cons_self
    · obtain ⟨c', hc', rfl⟩ := List.mem_map.mp hc
      exact h c' (List.mem_cons_of_mem _ hc')

/-- A store outside every ring's header and every record of the device leaves its own bytes. -/
theorem guardBytes_open {hs : List Nat} {own : List (Nat × Nat)} {mem : List Host.Cell} (bs : List Byte) : ∀ {a : Nat},
    (∀ h ∈ hs, overlaps h 64 a bs.length = false) → (∀ r ∈ own, overlaps r.1 r.2 a bs.length = false) →
      guardBytes hs own mem a bs = bs := by
  induction bs with
  | nil => exact fun _ _ => rfl
  | cons b bs ih =>
    intro a hh ho
    simp only [overlaps, List.length_cons, Bool.and_eq_false_iff, decide_eq_false_iff_not] at hh ho
    have hown : own.any (fun r => r.1 ≤ a && a < r.1 + r.2) = false := by
      rw [List.any_eq_false]
      intro r hr
      have := ho r hr
      rw [Bool.and_eq_true, decide_eq_true_eq, decide_eq_true_eq]
      omega
    have hhdr : hs.find? (fun h => h ≤ a && a < h + 64) = none := by
      rw [List.find?_eq_none]
      intro h hm
      have := hh h hm
      rw [Bool.and_eq_true, decide_eq_true_eq, decide_eq_true_eq]
      omega
    rw [guardBytes, hown, if_neg Bool.false_ne_true, headerByte, hhdr, ih]
    · intro h hm
      have := hh h hm
      rw [overlaps, Bool.and_eq_false_iff, decide_eq_false_iff_not, decide_eq_false_iff_not]
      omega
    · intro r hr
      have := ho r hr
      rw [overlaps, Bool.and_eq_false_iff, decide_eq_false_iff_not, decide_eq_false_iff_not]
      omega

theorem write_device {s₀ : State} (h : Device s₀ s) : Device s₀ (s.write a bs w) := noteDevice_device (put_device h)

theorem write_mem (h : s.Open a bs.length) : (s.write a bs w).mem = memSets s.mem a bs := by
  show (s.put s.top false a (if s.ringHeaders.isEmpty && s.deviceOnly.isEmpty then bs
    else guardBytes s.ringHeaders s.deviceOnly s.mem a bs) w).mem = _
  rw [put_mem h.up h.homes, guardBytes_open bs h.rings h.own, ite_self]

end Writing

/-! ### A barrier's record (R357) -/

section Records

variable {s t u : State} {e i : Nat} {b : Bar}

/-- A barrier whose fields fit its record. -/
structure BarFits (b : Bar) : Prop where
  exp  : b.exp < 65536
  cnt  : b.cnt < 65536
  drop : b.drop < 65536
  ph   : b.ph < 2 ^ 32

theorem bar_fits (s : State) (e i : Nat) : BarFits (s.bar e i) :=
  ⟨Nat.mod_lt _ (by decide), Nat.mod_lt _ (by decide), Nat.mod_lt _ (by decide), Nat.mod_lt _ (by decide)⟩

theorem fresh_fits {n ph : Nat} (hn : n < 65536) (hp : ph < 2 ^ 32) :
    BarFits { exp := n, cnt := 0, drop := 0, vld := true, ph := ph } := ⟨hn, Nat.zero_lt_succ _, Nat.zero_lt_succ _, hp⟩

theorem num_lt (b : Bar) : b.num < 256 ^ 16 := by
  have h1 := Nat.mod_lt b.exp (show 0 < 65536 by decide)
  have h2 := Nat.mod_lt b.cnt (show 0 < 65536 by decide)
  have h3 := Nat.mod_lt b.drop (show 0 < 65536 by decide)
  have h4 := Nat.mod_lt b.ph (show 0 < 2 ^ 32 by decide)
  have h5 : b2n b.vld ≤ 1 := by cases b.vld <;> decide
  unfold Bar.num
  omega

theorem of_num (h : BarFits b) : Bar.of b.num = b := by
  obtain ⟨exp, cnt, drop, vld, ph⟩ := b
  obtain ⟨h1, h2, h3, h4⟩ := h
  dsimp only at h1 h2 h3 h4
  unfold Bar.of Bar.num
  rw [Nat.testBit_eq_decide_div_mod_eq]
  dsimp only
  have h5 : b2n vld ≤ 1 := by cases vld <;> decide
  congr 1
  · omega
  · omega
  · omega
  · have h6 : (exp % 65536 + cnt % 65536 * 2 ^ 16 + drop % 65536 * 2 ^ 32 + b2n vld * 2 ^ 48 + ph % 2 ^ 32 * 2 ^ 64) / 2 ^ 48 % 2 =
      b2n vld := by omega
    rw [h6]
    cases vld <;> rfl
  · omega

/-- A core's barrier has become `b`, and no other byte has changed. -/
def SetsBar (s t : State) (e i : Nat) (b : Bar) : Prop :=
  t.bar e i = b ∧ ∀ p, ¬ within (barPlace e i) 16 p → memGet t.mem p = memGet s.mem p

theorem bar_of_mem (h : t.mem = s.mem) : t.bar e i = s.bar e i := by
  unfold State.bar State.getNat State.getBytes
  rw [h]

theorem SetsBar.of_mem (h : SetsBar s t e i b) (hm : u.mem = t.mem) : SetsBar s u e i b :=
  ⟨(bar_of_mem hm).trans h.1, fun p hp => by rw [hm, h.2 p hp]⟩

theorem setBar_sets {w : Nat} (hm : Memory.wf s.mem = true) (ho : s.Open (barPlace e i) 16) (hb : BarFits b) :
    SetsBar s (s.setBar e i w b) e i b := by
  have hlen := length_leBytes 16 b.num
  have hmem : (s.setBar e i w b).mem = memSets s.mem (barPlace e i) (leBytes 16 b.num) := write_mem (by rw [hlen]; exact ho)
  have hread := memGets_memSets (leBytes 16 b.num) s.mem (barPlace e i) hm
  rw [hlen] at hread
  refine ⟨?_, fun p hp => ?_⟩
  · rw [State.bar, State.getNat, State.getBytes, hmem, hread, leNat_leBytes, Nat.mod_eq_of_lt (num_lt b), of_num hb]
  · rw [hmem]
    refine memGet_memSets_other _ _ _ _ hm ?_
    unfold within at hp
    omega

/-- A barrier after an arrival of its present phase that counts `drop` drops (R359). -/
def arrived (b : Bar) (drop : Nat) : Bar :=
  if b.cnt + 1 = b.exp then { exp := b.exp - (b.drop + drop), cnt := 0, drop := 0, vld := true, ph := (b.ph + 1) % 2 ^ 32 }
  else { exp := b.exp, cnt := b.cnt + 1, drop := b.drop + drop, vld := true, ph := b.ph }

/-- An arrival that is not over (R359), and counts that its record has room for. -/
def BarLive (b : Bar) (n : Nat) : Prop := b.vld = true ∧ b.exp ≠ 0 ∧ n = b.ph ∧ b.drop < 65535 ∧ b.cnt < 65535

theorem arrived_fits {n drop : Nat} (h : BarLive b n) (hf : BarFits b) (hd : drop ≤ 1) : BarFits (arrived b drop) := by
  obtain ⟨_, _, _, h4, h5⟩ := h
  unfold arrived
  split
  · exact ⟨by dsimp only; have := hf.exp; omega, Nat.zero_lt_succ _, Nat.zero_lt_succ _, Nat.mod_lt _ (by decide)⟩
  · exact ⟨hf.exp, by dsimp only; omega, by dsimp only; omega, hf.ph⟩

theorem arrive_live {n : Nat} (drop : Bool) (h : BarLive b n) : b.arrive n drop = some (arrived b (b2n drop)) := by
  obtain ⟨h1, h2, h3, -, -⟩ := h
  obtain ⟨exp, cnt, dr, vld, ph⟩ := b
  dsimp only at h1 h2 h3
  subst h1 h3
  unfold Bar.arrive arrived
  simp [h2]

theorem arrive_over {n : Nat} (drop : Bool) (h : b.vld = false ∨ b.exp = 0 ∨ n ≠ b.ph) : b.arrive n drop = none := by
  unfold Bar.arrive
  rw [if_pos]
  simpa [or_assoc] using h

/-- No wait of the core is for the barrier, so a new phase releases none. -/
theorem releaseBar_idle (h : ∀ x ∈ s.core.barw, x.bar ≠ i) : s.releaseBar s.core.id i = s := by
  have hgo : ∀ x ∈ s.core.barw, (x.bar == i && phPassed (s.bar s.core.id i).ph x.n) = false := fun x hx => by
    rw [beq_false_of_ne (h x hx), Bool.false_and]
  have hcore : s.coreOf s.core.id = s.core := if_pos rfl
  unfold State.releaseBar
  dsimp only
  rw [hcore, List.filter_eq_nil_iff.mpr fun x hx => by rw [hgo x hx]; exact Bool.false_ne_true, List.foldl_nil, State.mapCore,
    if_pos rfl, List.filter_eq_self.mpr fun x hx => by rw [hgo x hx]; rfl]

/-- An arrival of the present phase at the core's own barrier. -/
theorem barArrive_counts {n w : Nat} {thr : Nat × Nat} (drop : Bool) (hm : Memory.wf s.mem = true)
    (ho : s.Open (barPlace s.core.id i) 16) (hl : BarLive (s.bar s.core.id i) n) (hw : ∀ x ∈ s.core.barw, x.bar ≠ i) :
    ∃ u, s.barArrive s.core.id i n drop w thr = (u, some (arrived (s.bar s.core.id i) (b2n drop))) ∧ Device s u ∧
      SetsBar s u s.core.id i (arrived (s.bar s.core.id i) (b2n drop)) := by
  have hfit := arrived_fits hl (bar_fits _ _ _) (show b2n drop ≤ 1 by cases drop <;> decide)
  obtain ⟨u, hu⟩ : ∃ u, u = (s.setBar s.core.id i w (arrived (s.bar s.core.id i) (b2n drop))).edge thr (barThread (s.eid s.core.id) i) :=
    ⟨_, rfl⟩
  have hdev : Device s u := by
    rw [hu]
    exact edge_device (write_device (.refl s))
  have hset : SetsBar s u s.core.id i (arrived (s.bar s.core.id i) (b2n drop)) := by
    rw [hu]
    exact (setBar_sets hm ho hfit).of_mem rfl
  have hidle : u.releaseBar s.core.id i = u := by
    rw [← hdev.id]
    refine releaseBar_idle ?_
    rw [show u.core.barw = s.core.barw from eq_of_kept Core.barw hdev.core]
    exact hw
  refine ⟨u, ?_, hdev, hset⟩
  unfold State.barArrive
  rw [arrive_live drop hl]
  dsimp only
  rw [← hu, hidle, ite_self]

theorem barArrive_over {n w : Nat} {thr : Nat × Nat} (drop : Bool)
    (h : (s.bar e i).vld = false ∨ (s.bar e i).exp = 0 ∨ n ≠ (s.bar e i).ph) : s.barArrive e i n drop w thr = (s, none) := by
  unfold State.barArrive
  rw [arrive_over drop h]

end Records

/-! ### The barrier that an operand names (R357) -/

section Named

variable {s : State} {w : Word}

/-- The home that an operand names. -/
def barHome (s : State) (w : Word) : Nat := if w.getLsbD 32 then s.myEid else fld w 8 24

/-- An operand that names a barrier of a core. -/
def NamesBar (s : State) (w : Word) : Prop := w.toNat < 2 ^ 33 ∧ w.getLsbD 7 = false ∧ barHome s w % 1024 < 256

theorem barOperand_eq : s.barOperand w = if !hiClear w 33 || w.getLsbD 7 then none
    else if lidUnit (eidLocal (barHome s w)) < 256 then some (fld w 0 7, barHome s w) else none := rfl

theorem lidUnit_eidLocal (e : Nat) : lidUnit (eidLocal e) = e % 1024 := by
  unfold lidUnit eidLocal
  omega

theorem barOperand_named (h : NamesBar s w) : s.barOperand w = some (w.toNat % 128, barHome s w) := by
  obtain ⟨h1, h2, h3⟩ := h
  rw [barOperand_eq, (hiClear_iff w 33).mpr h1, h2, lidUnit_eidLocal, if_pos h3, show (!true || false) = false from rfl, if_neg Bool.false_ne_true, fld, Nat.pow_zero, Nat.div_one]
  rfl

theorem barOperand_unnamed (h : ¬ NamesBar s w) : s.barOperand w = none := by
  rw [barOperand_eq, lidUnit_eidLocal]
  unfold NamesBar at h
  rw [← hiClear_iff w 33] at h
  cases h1 : hiClear w 33
  · rfl
  cases h2 : w.getLsbD 7
  · exact if_neg fun h3 => h ⟨h1, h2, h3⟩
  · rfl

theorem barNeed_named (h : NamesBar s w) : barNeed w s = .ok (w.toNat % 128, barHome s w) s := by
  rw [barNeed, run_bind, get_run, andThen, barOperand_named h]
  rfl

/-- An operand that names no barrier is ILLEGAL. -/
theorem barNeed_traps {g : Gate} {body : Op Unit} {k : Nat × Nat → Op Unit} (hi : s.CanIssue g.reads) (hg : g.ill = false)
    (ha : g.acc = none) (h : ¬ NamesBar s w) (hbody : body s = (barNeed w >>= k) s) :
    Traps s (issue g body s) .illegal (s.ctx.ir.zeroExtend 80) := by
  refine issue_traps hi hg ha (t := s) ?_
  rw [hbody, run_bind, barNeed, run_bind, get_run, andThen, barOperand_unnamed h]
  rfl

end Named

/-! ### BARI (R358) -/

section Instructions

variable {s : State} (st d : Fin 8) {n k home : Nat} {a b r : Fin 32}

/-- What BARI asks of the barrier that its operand names. -/
def bariOk (s : State) (b : Fin 32) (x : Nat × Nat) : Bool :=
  x.2 == s.myEid && hiClear (s.rx b) 16 && (s.rx b).toNat ≠ 0 && (s.bar s.core.id x.1).cnt = 0

theorem bariOk_iff : bariOk s b (k, home) = true ↔
    home = s.myEid ∧ (s.rx b).toNat < 2 ^ 16 ∧ (s.rx b).toNat ≠ 0 ∧ (s.bar s.core.id k).cnt = 0 := by
  unfold bariOk
  simp only [Bool.and_eq_true, beq_iff_eq, decide_eq_true_eq, hiClear_iff, and_assoc]

/-- BARI once its operand has named a barrier. -/
def bariRest (s : State) (b : Fin 32) (x : Nat × Nat) : Op Unit := do
  legal (bariOk s b x)
  set (s.setBar s.core.id x.1 s.myEid { s.bar s.core.id x.1 with exp := (s.rx b).toNat, drop := 0, vld := true })

theorem bari_run : execBari st a b s =
    issue { st := st.val, reads := [rdC a, rdC b] } (unlessAhead (do
      let s ← get
      let x ← barNeed (s.rx a)
      bariRest s b x)) s := rfl

theorem bari_unnamed (hah : s.ctx.ahead = false) (hi : s.CanIssue [rdC a, rdC b]) (h : ¬ NamesBar s (s.rx a)) :
    Traps s (execBari st a b s) .illegal (s.ctx.ir.zeroExtend 80) := by
  rw [bari_run st]
  exact barNeed_traps (g := { st := st.val, reads := [rdC a, rdC b] }) hi rfl rfl h (by rw [unlessAhead_runs hah, run_bind, get_run, andThen])

theorem bari_illegal (hah : s.ctx.ahead = false) (hi : s.CanIssue [rdC a, rdC b]) (h : NamesBar s (s.rx a))
    (hn : barHome s (s.rx a) ≠ s.myEid ∨ (s.rx b).toNat = 0 ∨ 2 ^ 16 ≤ (s.rx b).toNat ∨ (s.bar s.core.id ((s.rx a).toNat % 128)).cnt ≠ 0) :
    Traps s (execBari st a b s) .illegal (s.ctx.ir.zeroExtend 80) := by
  rw [bari_run st]
  refine legal_traps (g := { st := st.val, reads := [rdC a, rdC b] }) hi rfl rfl
    (b := bariOk s b ((s.rx a).toNat % 128, barHome s (s.rx a))) ?_ _
    (by rw [unlessAhead_runs hah, run_bind, get_run, andThen, run_bind, barNeed_named h]; rfl)
  rw [← Bool.not_eq_true, bariOk_iff]
  omega

theorem bari_sets (hah : s.ctx.ahead = false) (hi : s.CanIssue [rdC a, rdC b]) (h : NamesBar s (s.rx a))
    (hm : Memory.wf s.mem = true) (hh : barHome s (s.rx a) = s.myEid) (h0 : (s.rx b).toNat ≠ 0) (h16 : (s.rx b).toNat < 2 ^ 16)
    (hc : (s.bar s.core.id ((s.rx a).toNat % 128)).cnt = 0) (ho : s.Open (barPlace s.core.id ((s.rx a).toNat % 128)) 16) :
    ∃ t, execBari st a b s = .next t ∧ Advanced s t ∧ (∀ r, t.rc r = s.rc r) ∧ SetsBar s t s.core.id ((s.rx a).toNat % 128)
      { exp := (s.rx b).toNat, cnt := 0, drop := 0, vld := true, ph := (s.bar s.core.id ((s.rx a).toNat % 128)).ph } := by
  obtain ⟨x, hx⟩ : ∃ x : Bar, x = { exp := (s.rx b).toNat, cnt := 0, drop := 0, vld := true, ph := (s.bar s.core.id ((s.rx a).toNat % 128)).ph } :=
    ⟨_, rfl⟩
  have hfit : BarFits x := by
    rw [hx]
    exact fresh_fits h16 (bar_fits s s.core.id ((s.rx a).toNat % 128)).ph
  obtain ⟨u, hu⟩ : ∃ u, u = s.setBar s.core.id ((s.rx a).toNat % 128) s.myEid x := ⟨_, rfl⟩
  have hdev : Device s u := by
    rw [hu]
    exact write_device (.refl s)
  have hset : SetsBar s u s.core.id ((s.rx a).toNat % 128) x := by
    rw [hu]
    exact setBar_sets hm ho hfit
  have hok : bariOk s b ((s.rx a).toNat % 128, barHome s (s.rx a)) = true := bariOk_iff.mpr ⟨hh, h16, h0, hc⟩
  have hexec : execBari st a b s = s.retire st.val u := by
    rw [bari_run st]
    refine issue_retires (g := { st := st.val, reads := [rdC a, rdC b] }) hi rfl rfl ?_
    rw [unlessAhead_runs hah, run_bind, get_run, andThen, run_bind, barNeed_named h, andThen, bariRest, run_bind, run_legal_true hok, andThen]
    dsimp only
    rw [hc, ← hx, hu]
    rfl
  refine ⟨_, hexec, advanced_finish hdev.stands st.val (eq_of_kept Core.evc hdev.core), fun r => ?_, ?_⟩
  · rw [rc_finish, hdev.rc]
  · rw [← hx]
    exact hset.of_mem (finish_mem _ _ _)

/-! ### BARA and BARAD (R359) -/

section Arriving

variable {drop : Bool} {g : Gate} {body : Op Unit}

theorem ofNat_addr80 (n : Nat) : BitVec.ofNat 80 (addr80 (n : Int)) = BitVec.ofNat 80 n := by
  apply BitVec.eq_of_toNat_eq
  rw [toNat_ofNat_addr80, BitVec.toNat_ofNat]
  unfold addr80
  omega

theorem run_barOver {α : Type} (i home : Nat) (lost : Bool) (s : State) :
    (barOver i home lost : Op α) s = .error (.trap ⟨.barrierOver, BitVec.ofNat 80 (i + 128 * b2n lost + home * 256)⟩) s := by
  rw [barOver, run_raise, ofNat_addr80]

theorem arriveAt_counts {u : State} {x : Bar} (hw : s.ctx.wait = .none)
    (h : s.barArrive s.core.id k n drop s.myEid s.thread = (u, some x)) : arriveAt k s.myEid n drop s = .ok x.ph u := by
  rw [arriveAt, run_bind, get_run, andThen, hw]
  dsimp only
  rw [if_pos rfl, h]
  rfl

theorem arriveAt_over (hw : s.ctx.wait = .none)
    (h : s.barArrive s.core.id k n drop s.myEid s.thread = (s, none)) : arriveAt k s.myEid n drop s =
      .error (.trap ⟨.barrierOver, BitVec.ofNat 80 (k + s.myEid * 256)⟩) s := by
  rw [arriveAt, run_bind, get_run, andThen, hw]
  dsimp only
  rw [if_pos rfl, h]
  exact run_barOver k s.myEid false s

theorem arriveAt_asks (hw : s.ctx.wait = .none) (hh : home ≠ s.myEid) (hid : s.core.id < 4096) :
    ∃ u x, arriveAt k home n drop s = .error .wait (u.setCtx { u.ctx with wait := .sent (s.newTag 0) }) ∧ SendsOp s u x ∧
      x.pkt.deid = home ∧ x.pkt.handler = 8 ∧ x.pkt.arg0 = BitVec.ofNat 64 k ∧
      x.pkt.arg1 = BitVec.ofNat 64 (n + b2n drop * 2 ^ 32) ∧ u.mem = s.mem := by
  have hs : SendsOp s (s.sendOp (barPkt home k n (b2n drop)) fun r => r).1 _ := sendFrom_sendsOp rfl (.inl hid)
  refine ⟨_, _, ?_, hs, rfl, rfl, rfl, rfl, hs.offers.part State.mem⟩
  rw [arriveAt, run_bind, get_run, andThen, hw]
  dsimp only
  rw [if_neg hh]
  rfl

theorem arriveAt_replied {status : Nat} {val : Word} (hw : s.ctx.wait = .replied status val) :
    arriveAt k home n drop s = (if status ≠ rsDONE then barOver k home true else if fld val 32 32 = 1 then barOver k home false
      else pure (fld val 0 32) : Op Nat) (s.setCtx { s.ctx with wait := .none }) := by
  rw [arriveAt, run_bind, get_run, andThen, hw]
  rfl

/-- An arrival once its operand has named a barrier. -/
def arriveRest (d : Fin 32) (n : Word) (drop : Bool) (x : Nat × Nat) : Op Unit := do
  legal (hiClear n 32)
  let ph ← arriveAt x.1 x.2 n.toNat drop
  upd fun s => s.wx d (BitVec.ofNat 64 ph)

theorem barArriveOp_run (r : Fin 32) : barArriveOp st.val r a b drop s =
    issue { st := st.val, reads := [rdC a, rdC b], noint := s.arriving } (unlessAhead (do
      let s ← get
      let x ← barNeed (s.rx a)
      arriveRest r (s.rx b) drop x)) s := rfl

theorem bar_unnamed (hah : s.ctx.ahead = false) (hi : s.CanIssue [rdC a, rdC b]) (h : ¬ NamesBar s (s.rx a)) :
    Traps s (barArriveOp st.val r a b drop s) .illegal (s.ctx.ir.zeroExtend 80) := by
  rw [barArriveOp_run]
  exact barNeed_traps (g := { st := st.val, reads := [rdC a, rdC b], noint := s.arriving }) hi rfl rfl h
    (by rw [unlessAhead_runs hah, run_bind, get_run, andThen])

/-- What an arrival's body does is what its arrival does. -/
theorem arrive_run (hah : s.ctx.ahead = false) (h : NamesBar s (s.rx a)) (hn : (s.rx b).toNat < 2 ^ 32) :
    unlessAhead (do
      let s ← get
      let x ← barNeed (s.rx a)
      arriveRest r (s.rx b) drop x) s =
    andThen (arriveAt ((s.rx a).toNat % 128) (barHome s (s.rx a)) (s.rx b).toNat drop s) fun ph =>
      upd fun s => s.wx r (BitVec.ofNat 64 ph) := by
  rw [unlessAhead_runs hah, run_bind, get_run, andThen, run_bind, barNeed_named h, andThen, arriveRest, run_bind,
    run_legal_true ((hiClear_iff _ _).mpr hn), andThen, run_bind]

theorem bar_counts (hah : s.ctx.ahead = false) (hi : s.CanIssue [rdC a, rdC b]) (h : NamesBar s (s.rx a)) (hn : (s.rx b).toNat < 2 ^ 32)
    (hm : Memory.wf s.mem = true) (hk : (s.rx a).toNat % 128 = k) (hh : barHome s (s.rx a) = s.myEid) (hw : s.ctx.wait = .none)
    (hl : BarLive (s.bar s.core.id k) (s.rx b).toNat) (ho : s.Open (barPlace s.core.id k) 16) (hbw : ∀ x ∈ s.core.barw, x.bar ≠ k) :
    ∃ t, barArriveOp st.val r a b drop s = .next t ∧ Advanced s t ∧
      WroteC s t r (scalar (BitVec.ofNat 64 (arrived (s.bar s.core.id k) (b2n drop)).ph)) ∧
      SetsBar s t s.core.id k (arrived (s.bar s.core.id k) (b2n drop)) := by
  obtain ⟨u, hu, hdev, hset⟩ := barArrive_counts (w := s.myEid) (thr := s.thread) drop hm ho hl hbw
  obtain ⟨x, hx⟩ : ∃ x, x = arrived (s.bar s.core.id k) (b2n drop) := ⟨_, rfl⟩
  rw [← hx] at hu hset ⊢
  have hexec : barArriveOp st.val r a b drop s = s.retire st.val (u.wx r (BitVec.ofNat 64 x.ph)) := by
    rw [barArriveOp_run]
    refine issue_retires (g := { st := st.val, reads := [rdC a, rdC b], noint := s.arriving }) hi rfl rfl ?_
    rw [arrive_run hah h hn, hh, hk, arriveAt_counts hw hu]
    rfl
  have hevc : u.core.evc = s.core.evc := eq_of_kept Core.evc hdev.core
  exact ⟨_, hexec, advanced_finish (hdev.stands.trans (stands_wc _ _ _)) st.val hevc,
    wroteC_finish _ _ (wroteC_wc r _ hdev.rc), hset.of_mem (finish_mem _ _ _)⟩

theorem bar_over (hah : s.ctx.ahead = false) (hi : s.CanIssue [rdC a, rdC b]) (h : NamesBar s (s.rx a)) (hn : (s.rx b).toNat < 2 ^ 32)
    (hk : (s.rx a).toNat % 128 = k) (hh : barHome s (s.rx a) = s.myEid) (hw : s.ctx.wait = .none)
    (hl : (s.bar s.core.id k).vld = false ∨ (s.bar s.core.id k).exp = 0 ∨ (s.rx b).toNat ≠ (s.bar s.core.id k).ph) :
    Traps s (barArriveOp st.val r a b drop s) .barrierOver (BitVec.ofNat 80 (k + barHome s (s.rx a) * 256)) := by
  rw [barArriveOp_run]
  refine issue_traps (g := { st := st.val, reads := [rdC a, rdC b], noint := s.arriving }) hi rfl rfl ?_
  rw [arrive_run hah h hn, hh, hk, arriveAt_over hw (barArrive_over drop hl)]
  rfl

theorem bar_asks (hah : s.ctx.ahead = false) (hi : s.CanIssue [rdC a, rdC b]) (h : NamesBar s (s.rx a)) (hn : (s.rx b).toNat < 2 ^ 32)
    (hid : s.core.id < 4096) (hh : barHome s (s.rx a) ≠ s.myEid) (hw : s.ctx.wait = .none) :
    ∃ t x, barArriveOp st.val r a b drop s = .next t ∧ t.ctx.pcc = s.ctx.pcc ∧ t.ctx.blocked = true ∧ t.ctx.wait = .sent (s.newTag 0) ∧
      t.core.ops = s.core.ops ++ [x] ∧ x.pkt.deid = barHome s (s.rx a) ∧ x.pkt.handler = 8 ∧
      x.pkt.arg0 = BitVec.ofNat 64 ((s.rx a).toNat % 128) ∧ x.pkt.arg1 = BitVec.ofNat 64 ((s.rx b).toNat + b2n drop * 2 ^ 32) ∧ t.mem = s.mem := by
  obtain ⟨u, x, hu, hs, h1, h2, h3, h4, hmem⟩ :=
    arriveAt_asks (k := (s.rx a).toNat % 128) (n := (s.rx b).toNat) (drop := drop) hw hh hid
  have hexec : barArriveOp st.val r a b drop s = .next (u.setCtx { u.ctx with wait := .sent (s.newTag 0) }).block := by
    rw [barArriveOp_run]
    refine issue_waits (g := { st := st.val, reads := [rdC a, rdC b], noint := s.arriving }) hi rfl rfl ?_
    rw [arrive_run hah h hn, hu]
    rfl
  refine ⟨_, x, hexec, ?_, ?_, ?_, hs.ops, h1, h2, h3, h4, hmem⟩
  · rw [State.block, ctx_setCtx, ctx_setCtx, hs.ctx]
  · rw [State.block, ctx_setCtx]
  · rw [State.block, ctx_setCtx, ctx_setCtx]

theorem bar_replied {val : Word} (hah : s.ctx.ahead = false) (hi : s.CanIssue [rdC a, rdC b]) (h : NamesBar s (s.rx a))
    (hn : (s.rx b).toNat < 2 ^ 32) (hw : s.ctx.wait = .replied 0 val) (hv : fld val 32 32 ≠ 1) :
    ∃ t, barArriveOp st.val r a b drop s = .next t ∧ Advanced s t ∧ WroteC s t r (scalar (BitVec.ofNat 64 (fld val 0 32))) ∧
      t.mem = s.mem := by
  obtain ⟨u, hu⟩ : ∃ u, u = s.setCtx { s.ctx with wait := .none } := ⟨_, rfl⟩
  have hstands : Stands s u := by
    rw [hu]
    exact stands_setCtx rfl rfl rfl
  have hrc : ∀ n, u.rc n = s.rc n := fun n => by
    rw [hu, State.rc, ctx_setCtx]
    rfl
  have hexec : barArriveOp st.val r a b drop s = s.retire st.val (u.wx r (BitVec.ofNat 64 (fld val 0 32))) := by
    rw [barArriveOp_run]
    refine issue_retires (g := { st := st.val, reads := [rdC a, rdC b], noint := s.arriving }) hi rfl rfl ?_
    rw [arrive_run hah h hn, arriveAt_replied hw, if_neg fun h => h rfl, if_neg hv, ← hu]
    rfl
  refine ⟨_, hexec, advanced_finish (hstands.trans (stands_wc _ _ _)) st.val ?_, wroteC_finish _ _ (wroteC_wc r _ hrc), ?_⟩
  · rw [hu]
    rfl
  · rw [finish_mem, hu]
    rfl

theorem bar_lost {status : Nat} {val : Word} (hah : s.ctx.ahead = false) (hi : s.CanIssue [rdC a, rdC b]) (h : NamesBar s (s.rx a))
    (hn : (s.rx b).toNat < 2 ^ 32) (hw : s.ctx.wait = .replied status val) (hv : status ≠ 0 ∨ fld val 32 32 = 1) :
    barArriveOp st.val r a b drop s = .next ((s.setCtx { s.ctx with wait := .none }).trapHere
      ⟨.barrierOver, BitVec.ofNat 80 ((s.rx a).toNat % 128 + 128 * (if status = 0 then 0 else 1) + barHome s (s.rx a) * 256)⟩) := by
  rw [barArriveOp_run]
  refine issue_traps (g := { st := st.val, reads := [rdC a, rdC b], noint := s.arriving }) hi rfl rfl ?_
  rw [arrive_run hah h hn, arriveAt_replied hw]
  by_cases h0 : status = 0
  · rw [if_neg fun h => h h0, if_pos (hv.resolve_left fun h => h h0), if_pos h0, run_barOver]
    rfl
  · rw [if_pos (show status ≠ rsDONE from h0), if_neg h0, run_barOver]
    rfl

end Arriving

/-! ### BARW (R360) -/

section Waiting

theorem phPassed_iff {ph n : Nat} : phPassed ph n = true ↔
    1 ≤ (ph + 2 ^ 32 - n % 2 ^ 32) % 2 ^ 32 ∧ (ph + 2 ^ 32 - n % 2 ^ 32) % 2 ^ 32 < 2 ^ 31 := by
  unfold phPassed
  rw [Bool.and_eq_true, decide_eq_true_eq, decide_eq_true_eq]

theorem awaitPhase_passes (h : phPassed (s.bar s.core.id k).ph n = true) :
    awaitPhase k s.myEid n s = .ok (s.bar s.core.id k).ph s := by
  rw [awaitPhase, run_bind, get_run, andThen]
  dsimp only
  rw [if_pos rfl, run_bind, run_await, if_pos h]
  rfl

theorem awaitPhase_waits (h : ¬ phPassed (s.bar s.core.id k).ph n = true) : awaitPhase k s.myEid n s = .error .wait s := by
  rw [awaitPhase, run_bind, get_run, andThen]
  dsimp only
  rw [if_pos rfl, run_bind, run_await, if_neg h]
  rfl

theorem awaitPhase_asks (hw : s.ctx.wait = .none) (hh : home ≠ s.myEid) (hid : s.core.id < 4096) :
    ∃ u x, awaitPhase k home n s = .error .wait (u.setCtx { u.ctx with wait := .barw (s.newTag 0) }) ∧ SendsOp s u x ∧
      x.pkt.deid = home ∧ x.pkt.arg1 = BitVec.ofNat 64 (n + 2 ^ 33) := by
  have hs : SendsOp s (s.sendOp (barPkt home k n 2) fun r => r).1 _ := sendFrom_sendsOp rfl (.inl hid)
  refine ⟨_, _, ?_, hs, rfl, rfl⟩
  rw [awaitPhase, run_bind, get_run, andThen]
  dsimp only
  rw [if_neg hh, hw]
  dsimp only
  rw [askBar, run_bind, get_run]
  rfl

theorem awaitPhase_answered {val : Word} (hw : s.ctx.wait = .barwDone 0 val) (hh : home ≠ s.myEid) (hv : fld val 32 32 ≠ 2) :
    awaitPhase k home n s = .ok (fld val 0 32) s := by
  rw [awaitPhase, run_bind, get_run, andThen]
  dsimp only
  rw [if_neg hh, hw]
  dsimp only
  rw [if_neg fun h => h rfl, if_neg hv]
  rfl

/-- BARW once its operand has named a barrier. -/
def barwRest (d : Fin 32) (n : Nat) (x : Nat × Nat) : Op Unit := do
  let ph ← awaitPhase x.1 x.2 n
  upd fun s => s.barReleased x.2 x.1 d ph

theorem barw_eq : execBarw st r a b s =
    issue { st := st.val, reads := [rdC a, rdC b] } (unlessAhead (do
      let s ← get
      let x ← barNeed (s.rx a)
      barwRest r (fld (s.rx b) 0 32) x)) s := rfl

theorem barw_unnamed (hah : s.ctx.ahead = false) (hi : s.CanIssue [rdC a, rdC b]) (h : ¬ NamesBar s (s.rx a)) :
    Traps s (execBarw st r a b s) .illegal (s.ctx.ir.zeroExtend 80) := by
  rw [barw_eq]
  exact barNeed_traps (g := { st := st.val, reads := [rdC a, rdC b] }) hi rfl rfl h
    (by rw [unlessAhead_runs hah, run_bind, get_run, andThen])

theorem barw_run (hah : s.ctx.ahead = false) (h : NamesBar s (s.rx a)) :
    unlessAhead (do
      let s ← get
      let x ← barNeed (s.rx a)
      barwRest r (fld (s.rx b) 0 32) x) s =
    andThen (awaitPhase ((s.rx a).toNat % 128) (barHome s (s.rx a)) ((s.rx b).toNat % 2 ^ 32) s) fun ph =>
      upd fun t => t.barReleased (barHome s (s.rx a)) ((s.rx a).toNat % 128) r ph := by
  rw [unlessAhead_runs hah, run_bind, get_run, andThen, run_bind, barNeed_named h, andThen, barwRest, run_bind, fld, Nat.pow_zero,
    Nat.div_one]

/-- The wait is over: execution goes on with the phase in C[d]. -/
theorem released_retires {i ph : Nat} {u : State} (hs : Stands s u) (hrc : ∀ n, n ≠ r → u.rc n = s.rc n) (hevc : u.core.evc = s.core.evc) :
    Advanced s ((u.barReleased home i r ph).finish st.val s.ctx.loop.lact) ∧
      WroteC s ((u.barReleased home i r ph).finish st.val s.ctx.loop.lact) r (scalar (BitVec.ofNat 64 ph)) ∧
      ((u.barReleased home i r ph).finish st.val s.ctx.loop.lact).mem = u.mem ∧
      ((u.barReleased home i r ph).finish st.val s.ctx.loop.lact).core.ops = u.core.ops := by
  obtain ⟨v, hv⟩ : ∃ v, v = u.edge (barThread home i) u.thread := ⟨_, rfl⟩
  have hvs : Stands u v := by
    rw [hv]
    exact stands_of_ctx rfl rfl
  have hvr : ∀ n, v.rc n = u.rc n := fun n => by
    rw [hv]
    rfl
  have heq : u.barReleased home i r ph = v.wx r (BitVec.ofNat 64 ph) := by
    rw [hv]
    rfl
  have hvm : v.mem = u.mem ∧ v.core = u.core := by
    rw [hv]
    exact ⟨rfl, rfl⟩
  rw [heq]
  refine ⟨advanced_finish ((hs.trans hvs).trans (stands_wc _ _ _)) st.val ?_, wroteC_finish _ _ ⟨(wroteC_wc r _ hvr).1, fun n hn => ?_⟩, ?_, ?_⟩
  · show v.core.evc = s.core.evc
    rw [hvm.2, hevc]
  · rw [State.wx, rc_wc_other _ _ _ _ hn, hvr, hrc n hn]
  · rw [finish_mem]
    exact hvm.1
  · rw [finish_core_eq]
    show v.core.ops = _
    rw [hvm.2]

theorem barw_passes (hah : s.ctx.ahead = false) (hi : s.CanIssue [rdC a, rdC b]) (h : NamesBar s (s.rx a))
    (hk : (s.rx a).toNat % 128 = k) (hh : barHome s (s.rx a) = s.myEid) (hp : phPassed (s.bar s.core.id k).ph ((s.rx b).toNat % 2 ^ 32) = true) :
    ∃ t, execBarw st r a b s = .next t ∧ Advanced s t ∧ WroteC s t r (scalar (BitVec.ofNat 64 (s.bar s.core.id k).ph)) ∧
      t.mem = s.mem ∧ t.core.ops = s.core.ops := by
  refine ⟨_, ?_, released_retires st (home := s.myEid) (i := k) (.refl s) (fun _ _ => rfl) rfl⟩
  rw [barw_eq]
  refine issue_retires (g := { st := st.val, reads := [rdC a, rdC b] }) hi rfl rfl ?_
  rw [barw_run hah h, hh, hk, awaitPhase_passes hp]
  rfl

theorem barw_waits (hah : s.ctx.ahead = false) (hi : s.CanIssue [rdC a, rdC b]) (h : NamesBar s (s.rx a))
    (hk : (s.rx a).toNat % 128 = k) (hh : barHome s (s.rx a) = s.myEid) (hp : ¬ phPassed (s.bar s.core.id k).ph ((s.rx b).toNat % 2 ^ 32) = true) :
    execBarw st r a b s = .next s.block := by
  rw [barw_eq]
  refine issue_waits (g := { st := st.val, reads := [rdC a, rdC b] }) hi rfl rfl ?_
  rw [barw_run hah h, hh, hk, awaitPhase_waits hp]
  rfl

theorem barw_asks (hah : s.ctx.ahead = false) (hi : s.CanIssue [rdC a, rdC b]) (h : NamesBar s (s.rx a))
    (hid : s.core.id < 4096) (hh : barHome s (s.rx a) ≠ s.myEid) (hw : s.ctx.wait = .none) :
    ∃ t x, execBarw st r a b s = .next t ∧ t.ctx.pcc = s.ctx.pcc ∧ t.ctx.wait = .barw (s.newTag 0) ∧
      t.core.ops = s.core.ops ++ [x] ∧ x.pkt.deid = barHome s (s.rx a) ∧ x.pkt.arg1 = BitVec.ofNat 64 ((s.rx b).toNat % 2 ^ 32 + 2 ^ 33) := by
  obtain ⟨u, x, hu, hs, h1, h2⟩ := awaitPhase_asks (k := (s.rx a).toNat % 128) (n := (s.rx b).toNat % 2 ^ 32) hw hh hid
  have hexec : execBarw st r a b s = .next (u.setCtx { u.ctx with wait := .barw (s.newTag 0) }).block := by
    rw [barw_eq]
    refine issue_waits (g := { st := st.val, reads := [rdC a, rdC b] }) hi rfl rfl ?_
    rw [barw_run hah h, hu]
    rfl
  refine ⟨_, x, hexec, ?_, ?_, hs.ops, h1, h2⟩
  · rw [State.block, ctx_setCtx, ctx_setCtx, hs.ctx]
  · rw [State.block, ctx_setCtx, ctx_setCtx]

theorem barw_answered {val : Word} (hah : s.ctx.ahead = false) (hi : s.CanIssue [rdC a, rdC b]) (h : NamesBar s (s.rx a))
    (hh : barHome s (s.rx a) ≠ s.myEid) (hw : s.ctx.wait = .barwDone 0 val) (hv : fld val 32 32 ≠ 2) :
    ∃ t, execBarw st r a b s = .next t ∧ Advanced s t ∧ WroteC s t r (scalar (BitVec.ofNat 64 (fld val 0 32))) := by
  obtain ⟨hadv, hwr, -, -⟩ := released_retires st (home := barHome s (s.rx a)) (i := (s.rx a).toNat % 128) (ph := fld val 0 32) (r := r)
    (.refl s) (fun _ _ => rfl) rfl
  refine ⟨_, ?_, hadv, hwr⟩
  rw [barw_eq]
  refine issue_retires (g := { st := st.val, reads := [rdC a, rdC b] }) hi rfl rfl ?_
  rw [barw_run hah h, awaitPhase_answered hw hh hv]
  rfl

end Waiting

/-! ### BARAW (R359) -/

section Both

variable {g : Gate} {u : State}

/-- BARAW once its operand has named a barrier. -/
def barawRest (s : State) (d : Fin 32) (m : Word) (x : Nat × Nat) : Op Unit := do
  legal (hiClear m 32)
  let n := m.toNat
  if s.arriving || !resumes (s.rx d) n then do
    let _ ← arriveAt x.1 x.2 n false
    upd fun s => s.wx d (barResume n)
  let ph ← awaitPhase x.1 x.2 n
  upd fun s => s.barReleased x.2 x.1 d ph

theorem baraw_eq : execBaraw st r a b s =
    issue { st := st.val, ill := r = 0 || r = a || r = b, reads := [rdC r, rdC a, rdC b], noint := s.arriving } (unlessAhead (do
      let s ← get
      let x ← barNeed (s.rx a)
      barawRest s r (s.rx b) x)) s := rfl

theorem baraw_illegal (h : r = 0 ∨ r = a ∨ r = b) (hs : (s.helper && s.ctx.stopReq) = false) :
    Traps s (execBaraw st r a b s) .illegal (s.ctx.ir.zeroExtend 80) := by
  rw [baraw_eq]
  refine issue_illegal (g := { st := st.val, ill := r = 0 || r = a || r = b, reads := [rdC r, rdC a, rdC b], noint := s.arriving }) _ hs ?_
  simpa [or_assoc] using h

/-- BARAW that resumes its wait. -/
theorem baraw_resumed (hah : s.ctx.ahead = false) (h : NamesBar s (s.rx a)) (hn : (s.rx b).toNat < 2 ^ 32)
    (hr : (s.arriving || !resumes (s.rx r) (s.rx b).toNat) = false) :
    unlessAhead (do
      let s ← get
      let x ← barNeed (s.rx a)
      barawRest s r (s.rx b) x) s =
    andThen (awaitPhase ((s.rx a).toNat % 128) (barHome s (s.rx a)) (s.rx b).toNat s) fun ph =>
      upd fun t => t.barReleased (barHome s (s.rx a)) ((s.rx a).toNat % 128) r ph := by
  rw [unlessAhead_runs hah, run_bind, get_run, andThen, run_bind, barNeed_named h, andThen, barawRest, run_bind,
    run_legal_true ((hiClear_iff _ _).mpr hn), andThen]
  dsimp only
  rw [hr, if_neg Bool.false_ne_true, run_bind]

/-- BARAW that arrives, and then waits. -/
theorem baraw_arrives (hah : s.ctx.ahead = false) (h : NamesBar s (s.rx a)) (hn : (s.rx b).toNat < 2 ^ 32)
    (hr : (s.arriving || !resumes (s.rx r) (s.rx b).toNat) = true) {ph : Nat}
    (hu : arriveAt ((s.rx a).toNat % 128) (barHome s (s.rx a)) (s.rx b).toNat false s = .ok ph u) :
    unlessAhead (do
      let s ← get
      let x ← barNeed (s.rx a)
      barawRest s r (s.rx b) x) s =
    andThen (awaitPhase ((s.rx a).toNat % 128) (barHome s (s.rx a)) (s.rx b).toNat (u.wx r (barResume (s.rx b).toNat))) fun ph =>
      upd fun t => t.barReleased (barHome s (s.rx a)) ((s.rx a).toNat % 128) r ph := by
  rw [unlessAhead_runs hah, run_bind, get_run, andThen, run_bind, barNeed_named h, andThen, barawRest, run_bind,
    run_legal_true ((hiClear_iff _ _).mpr hn), andThen]
  dsimp only
  rw [hr, if_pos rfl, run_bind, hu, andThen, run_bind, upd_run, andThen, run_bind]

theorem barResume_eq (hn : n < 2 ^ 32) : barResume n = BitVec.ofNat 64 (2 ^ 63 + n) := by
  rw [barResume, Nat.mod_eq_of_lt hn]

/-- The resume word of a phase is known as such. -/
theorem resumes_resume (hn : n < 2 ^ 32) : resumes (BitVec.ofNat 64 (2 ^ 63 + n)) n = true := by
  unfold resumes fld
  rw [BitVec.toNat_ofNat, Bool.and_eq_true, beq_iff_eq, beq_iff_eq]
  omega

theorem resumes_other {w : Word} (h : fld w 62 2 ≠ 2) : resumes w n = false := by
  unfold resumes
  rw [beq_false_of_ne h, Bool.false_and]

/-- The phase after one's own arrival has passed where it was the last, and has not where it was not. -/
theorem phPassed_arrived {x : Bar} (hf : BarFits x) : phPassed (arrived x 0).ph x.ph = true ↔ x.cnt + 1 = x.exp := by
  have := hf.ph
  rw [phPassed_iff]
  unfold arrived
  split
  · dsimp only
    omega
  · dsimp only
    omega

theorem arriving_none (hw : s.ctx.wait = .none) : s.arriving = false := by
  unfold State.arriving Ctx.arriving
  rw [hw]

section Home

variable (hah : s.ctx.ahead = false) (hi : s.CanIssue [rdC r, rdC a, rdC b]) (h0 : r ≠ 0) (hra : r ≠ a) (hrb : r ≠ b)
  (h : NamesBar s (s.rx a)) (hh : barHome s (s.rx a) = s.myEid) (hk : (s.rx a).toNat % 128 = k) (hn : (s.rx b).toNat < 2 ^ 32)
  (hw : s.ctx.wait = .none)

include h0 hra hrb in
theorem baraw_gate : (r = 0 || r = a || r = b : Bool) = false := by
  simp [h0, hra, hrb]

include hah hi h0 hra hrb h hh hk hn hw

theorem baraw_waited (hr : s.rx r = BitVec.ofNat 64 (2 ^ 63 + (s.rx b).toNat)) :
    (phPassed (s.bar s.core.id k).ph (s.rx b).toNat = true → ∃ t, execBaraw st r a b s = .next t ∧ Advanced s t ∧
      WroteC s t r (scalar (BitVec.ofNat 64 (s.bar s.core.id k).ph)) ∧ t.mem = s.mem) ∧
    (¬ phPassed (s.bar s.core.id k).ph (s.rx b).toNat = true → execBaraw st r a b s = .next s.block) := by
  have hres : (s.arriving || !resumes (s.rx r) (s.rx b).toNat) = false := by
    rw [arriving_none hw, hr, resumes_resume hn]
    rfl
  refine ⟨fun hp => ?_, fun hp => ?_⟩
  · obtain ⟨hadv, hwr, hmem, -⟩ := released_retires st (home := s.myEid) (i := k) (ph := (s.bar s.core.id k).ph) (r := r)
      (.refl s) (fun _ _ => rfl) rfl
    refine ⟨_, ?_, hadv, hwr, hmem⟩
    rw [baraw_eq]
    refine issue_retires (g := { st := st.val, ill := r = 0 || r = a || r = b, reads := [rdC r, rdC a, rdC b], noint := s.arriving })
      hi (baraw_gate h0 hra hrb) rfl ?_
    rw [baraw_resumed hah h hn hres, hh, hk, awaitPhase_passes hp]
    rfl
  · rw [baraw_eq]
    refine issue_waits (g := { st := st.val, ill := r = 0 || r = a || r = b, reads := [rdC r, rdC a, rdC b], noint := s.arriving })
      hi (baraw_gate h0 hra hrb) rfl ?_
    rw [baraw_resumed hah h hn hres, hh, hk, awaitPhase_waits hp]
    rfl

theorem baraw_counts (hm : Memory.wf s.mem = true) (hbw : ∀ x ∈ s.core.barw, x.bar ≠ k) (hr : fld (s.rx r) 62 2 ≠ 2)
    (hl : BarLive (s.bar s.core.id k) (s.rx b).toNat) (ho : s.Open (barPlace s.core.id k) 16) :
    ((s.bar s.core.id k).cnt + 1 = (s.bar s.core.id k).exp → ∃ t, execBaraw st r a b s = .next t ∧ Advanced s t ∧
      WroteC s t r (scalar (BitVec.ofNat 64 (arrived (s.bar s.core.id k) 0).ph)) ∧
      SetsBar s t s.core.id k (arrived (s.bar s.core.id k) 0)) ∧
    ((s.bar s.core.id k).cnt + 1 ≠ (s.bar s.core.id k).exp → ∃ t, execBaraw st r a b s = .next t ∧ t.ctx.pcc = s.ctx.pcc ∧
      t.ctx.blocked = true ∧ WroteC s t r (scalar (BitVec.ofNat 64 (2 ^ 63 + (s.rx b).toNat))) ∧
      SetsBar s t s.core.id k (arrived (s.bar s.core.id k) 0)) := by
  have hres : (s.arriving || !resumes (s.rx r) (s.rx b).toNat) = true := by
    rw [resumes_other hr]
    exact Bool.or_true _
  obtain ⟨u, hu, hdev, hset⟩ := barArrive_counts (w := s.myEid) (thr := s.thread) false hm ho hl hbw
  have hrun : unlessAhead (do
      let s ← get
      let x ← barNeed (s.rx a)
      barawRest s r (s.rx b) x) s = _ :=
    baraw_arrives hah h hn hres (by rw [hh, hk]; exact arriveAt_counts hw hu)
  obtain ⟨v, hv⟩ : ∃ v, v = u.wx r (barResume (s.rx b).toNat) := ⟨_, rfl⟩
  have hvs : Stands s v := by
    rw [hv]
    exact hdev.stands.trans (stands_wc _ _ _)
  have hvset : SetsBar s v s.core.id k (arrived (s.bar s.core.id k) 0) := by
    rw [hv]
    exact hset.of_mem rfl
  have hvid : v.core.id = s.core.id := by
    rw [hv]
    exact hdev.id
  have hveid : v.myEid = s.myEid := by
    have hpkg : v.pkg = s.pkg := by
      rw [hv]
      exact eq_of_bare State.pkg hdev.rest
    unfold State.myEid State.eid
    rw [hvid, hpkg]
  have hvc : WroteC s v r (scalar (BitVec.ofNat 64 (2 ^ 63 + (s.rx b).toNat))) := by
    rw [hv, barResume_eq hn]
    exact wroteC_wc r _ hdev.rc
  have hvph : (v.bar v.core.id k).ph = (arrived (s.bar s.core.id k) 0).ph := by
    rw [hvid, hvset.1]
  have hevc : v.core.evc = s.core.evc := by
    have : u.core.evc = s.core.evc := eq_of_kept Core.evc hdev.core
    rw [hv]
    exact this
  rw [hh, hk, ← hv, ← hveid] at hrun
  have hpass : phPassed (v.bar v.core.id k).ph (s.rx b).toNat = true ↔ (s.bar s.core.id k).cnt + 1 = (s.bar s.core.id k).exp := by
    rw [hvph, hl.2.2.1]
    exact phPassed_arrived (bar_fits s s.core.id k)
  refine ⟨fun hc => ?_, fun hc => ?_⟩
  · obtain ⟨hadv, hwr, hmem, -⟩ := released_retires st (s := s) (home := v.myEid) (i := k)
      (ph := (arrived (s.bar s.core.id k) 0).ph) (r := r)
      hvs (fun n hn => hvc.2 n hn) hevc
    refine ⟨_, ?_, hadv, hwr, hvset.of_mem hmem⟩
    rw [baraw_eq]
    refine issue_retires (g := { st := st.val, ill := r = 0 || r = a || r = b, reads := [rdC r, rdC a, rdC b], noint := s.arriving })
      hi (baraw_gate h0 hra hrb) rfl ?_
    rw [hrun, awaitPhase_passes (hpass.mpr hc), hvph]
    rfl
  · have hexec : execBaraw st r a b s = .next v.block := by
      rw [baraw_eq]
      refine issue_waits (g := { st := st.val, ill := r = 0 || r = a || r = b, reads := [rdC r, rdC a, rdC b], noint := s.arriving })
        hi (baraw_gate h0 hra hrb) rfl ?_
      rw [hrun, awaitPhase_waits (fun hp => hc (hpass.mp hp))]
      rfl
    refine ⟨_, hexec, ?_, ?_, ⟨?_, fun n hn => ?_⟩, hvset.of_mem rfl⟩
    · rw [State.block, ctx_setCtx]
      exact hvs.pcc
    · rw [State.block, ctx_setCtx]
    · rw [State.block, State.rc, ctx_setCtx]
      exact hvc.1
    · rw [State.block, State.rc, ctx_setCtx]
      exact hvc.2 n hn

end Home

end Both

end Instructions

/-- Settles O39: a barrier's record reads back what its home wrote, and an arrival of the present phase counts in it; elsewhere
the request is sent, and its answer ends the instruction. -/
theorem barrierInstructions : Obligations.BarrierInstructions := by
  unfold Obligations.BarrierInstructions
  intro s st d a b status val hah hid hm
  dsimp only
  refine ⟨fun hi => ⟨fun hnm => ⟨bari_unnamed st hah hi hnm, fun _ => ⟨bar_unnamed st hah hi hnm, bar_unnamed st hah hi hnm⟩,
    barw_unnamed st hah hi hnm⟩, fun hnm h => bari_illegal st hah hi hnm h,
    fun hnm hh h0 h16 hc ho => bari_sets st hah hi hnm hm hh h0 h16 hc ho.toOpen, fun hnm hn p hp => ?_, fun hnm hh => ⟨fun hp => ?_, fun hp => ?_⟩,
    fun hnm hh => ⟨barw_asks st hah hi hnm hid hh, barw_answered st hah hi hnm hh⟩⟩, fun h hs _ => baraw_illegal st h hs,
    fun hi h0 hda hdb hnm hh hn hw hbw => ⟨fun _ hr hl ho => ?_, fun hr => ?_⟩⟩
  · obtain ⟨drop, hexec, hdrop⟩ : ∃ drop, exec p.1 s = barArriveOp st.val d a b drop s ∧ p.2 = b2n drop := by
      rcases List.mem_cons.mp hp with rfl | hp
      · exact ⟨false, rfl, rfl⟩
      · rw [List.mem_singleton.mp hp]
        exact ⟨true, rfl, rfl⟩
    rw [hexec, hdrop]
    exact ⟨fun hh hw hl ho hbw => bar_counts st hah hi hnm hn hm rfl hh hw hl ho.toOpen hbw,
      fun hh hw hl => bar_over st hah hi hnm hn rfl hh hw hl, fun hh hw => bar_asks st hah hi hnm hn hid hh hw,
      fun hw hv => bar_replied st hah hi hnm hn hw hv, fun hw hv => bar_lost st hah hi hnm hn hw hv⟩
  · exact barw_passes st hah hi hnm rfl hh (phPassed_iff.mpr hp)
  · exact barw_waits st hah hi hnm rfl hh fun h => hp (phPassed_iff.mp h)
  · exact baraw_counts st hah hi h0 hda hdb hnm hh rfl hn hw hm hbw hr hl ho.toOpen
  · obtain ⟨h1, h2⟩ := baraw_waited st hah hi h0 hda hdb hnm hh rfl hn hw hr
    exact ⟨fun hp => h1 (phPassed_iff.mpr hp), fun hp => h2 fun h => hp (phPassed_iff.mp h)⟩

end Sys2Proof.Proofs
end

section
/-! PROOFS. What an answered operation leaves in focus (R296, R299). -/
namespace Sys2Proof.Proofs
open Sys2Proof Sys2Proof.Machine Sys2Proof.Laws
set_option Elab.async false

/-! ### The core in focus stays the one it is -/

section Focused

variable {s : State}

theorem mapCore_id {e : Nat} {f : Core → Core} (hf : ∀ c, (f c).id = c.id) : (s.mapCore e f).core.id = s.core.id := by
  unfold State.mapCore
  split
  · exact hf s.core
  · rfl

theorem foldl_id {α : Type} {f : State → α → State} (hf : ∀ s a, (f s a).core.id = s.core.id) (xs : List α) :
    (xs.foldl f s).core.id = s.core.id := by
  induction xs generalizing s with
  | nil => rfl
  | cons x xs ih => exact ih.trans (hf s x)

theorem transmit_id (p : Packet) : (s.transmit p).core.id = s.core.id := by
  unfold State.transmit
  dsimp only
  split
  case h_1 u hu =>
    have hid : u.core.id = s.core.id := (wire_sent (.refl s) hu).corePart Core.id
    split
    · exact (mapCore_id fun c => by split <;> rfl).trans hid
    · exact hid
  case h_2 =>
    split
    · exact (refuseHere_sent p (.refl s)).corePart Core.id
    · rfl

theorem send_id (p : Packet) : (s.send p).core.id = s.core.id := by
  unfold State.send
  dsimp only
  split
  · split
    · exact transmit_id p
    · split
      · exact transmit_id _
      · rfl
  · cases hw : s.wire p with
    | none => rfl
    | some u => exact (wire_sent (.refl s) hw).corePart Core.id

theorem unitOp_id (p : Packet) : (s.unitOp p).core.id = s.core.id := send_id _

theorem sendFrom_id (me : Nat × Nat) (p : Packet) (f : RemOp → RemOp) : (s.sendFrom me p f).1.core.id = s.core.id := send_id _

theorem Tells.id {t : State} (h : Tells s t) : t.core.id = s.core.id := corePart_unpoked h.core Core.id fun _ => rfl

theorem commitDone_id (c : Commit) (st : CommitSt) : (s.commitDone c st).core.id = s.core.id := by
  unfold State.commitDone
  dsimp only
  refine (answerHeld_tells _ _ _).id.trans ?_
  split
  · refine (completeFor_tells _ _ _ _ _).id.trans ?_
    split <;> rfl
  · rfl

theorem finishCommit_id (src grp : Nat) : (s.finishCommit src grp).core.id = s.core.id := by
  unfold State.finishCommit
  split
  · rfl
  · split
    · rfl
    · split
      · exact commitDone_id _ _
      · split
        · exact commitDone_id _ _
        · rfl

theorem closeOp_id (e : Nat) (r : RemOp) (status : Nat) : (s.closeOp e r status).core.id = s.core.id := by
  unfold State.closeOp
  dsimp only
  have h : (s.mapCore e fun c => if r.counts then (c.dropOp r.tag).mapCtxNo r.ctx (fun x => x.countFail status (eidPkg r.pkt.deid))
      else c.dropOp r.tag).core.id = s.core.id := mapCore_id fun c => by
    split
    · rw [mapCtxNo_rest]
      rfl
    · rfl
  split
  · exact h
  · exact h

theorem gstDone_id (e : Nat) (r : RemOp) (status : Nat) (data : List Byte) : (s.gstDone e r status data).core.id = s.core.id := by
  unfold State.gstDone
  dsimp only
  split
  · split
    · exact closeOp_id e r status
    · split
      · unfold State.lateStage
        dsimp only
        split
        · exact (finishCommit_id _ _).trans (closeOp_id e r status)
        · exact (unitOp_id _).trans (closeOp_id e r status)
      · exact closeOp_id e r status
  · exact closeOp_id e r status

theorem drainEnd_id (j : MatJob) (status cause : Nat) : (s.drainEnd j status cause).core.id = s.core.id := by
  unfold State.drainEnd
  dsimp only
  have h : (if s.wakeCounted j then s.countDown s.asid j.level else s).core.id = s.core.id := by
    split
    · exact (countDown_device (.refl s)).id
    · rfl
  split
  · exact h
  · exact h

theorem smear_id (place n writer : Nat) : (s.smear place n writer).core.id = s.core.id :=
  (write_device (.refl { s with freeN := s.freeN + n })).id

theorem smearPool_id (eid off n : Nat) : (s.smearPool eid off n).core.id = s.core.id := by
  unfold State.smearPool
  dsimp only
  split
  · exact smear_id _ _ _
  · rfl

theorem drainReply_id (ri status : Nat) : (s.drainReply ri status).core.id = s.core.id := by
  unfold State.drainReply
  split
  · rfl
  · dsimp only
    split
    · refine (drainEnd_id _ _ _).trans ?_
      split
      · exact (countDown_device (.refl s)).id
      · rfl
    · split
      · rfl
      · split
        · split
          · exact sendFrom_id _ _ _
          · exact drainEnd_id _ _ _
        · split
          · exact (drainEnd_id _ _ _).trans (smearPool_id _ _ _)
          · exact drainEnd_id _ _ _

theorem remotePlaces_id {asid : Nat} {k : Acc} {ps gs : List (Nat × Nat)} {u : State} (h : s.remotePlaces asid k ps = .ok (u, gs)) :
    u.core.id = s.core.id := by
  induction ps generalizing s u gs with
  | nil =>
    obtain ⟨rfl, -⟩ : s = u ∧ _ := by simpa [State.remotePlaces] using h
    rfl
  | cons p ps ih =>
    unfold State.remotePlaces at h
    split at h
    · cases h
    case h_2 v place hv =>
      have hid : v.core.id = s.core.id := by
        unfold State.remotePlace at hv
        dsimp only at hv
        split at hv
        · cases hv
        · split at hv
          · cases hv
          · split at hv
            · cases hv
            · split at hv
              · cases hv
              · split at hv
                · cases hv
                · split at hv
                  · cases hv
                  · cases hv
                    exact (pteSet_device (.refl s)).id
      split at h
      · cases h
      case h_2 w rest hw =>
        cases h
        exact (ih hw).trans hid

theorem copyPut_id (ri : Nat) (c : Copy) : (s.copyPut ri c).core.id = s.core.id := by
  unfold State.copyPut
  dsimp only
  split
  · rfl
  · rfl

theorem copyLost_id (c : Copy) : (s.copyLost c).core.id = s.core.id := by
  unfold State.copyLost
  split
  · exact smearPool_id _ _ _
  · split
    · split
      case h_1 u gs hu => exact (foldl_id (fun _ _ => smear_id _ _ _) gs).trans (remotePlaces_id hu)
      · rfl
    · rfl

theorem lostIf_id (b : Bool) (c : Copy) : (if b = true then s.copyLost c else s).core.id = s.core.id := by
  split
  · exact copyLost_id c
  · rfl

theorem copyReply_id (r : RemOp) (ri status : Nat) (data : List Byte) : (s.copyReply r ri status data).core.id = s.core.id := by
  unfold State.copyReply
  split
  · rfl
  · dsimp only
    split
    · exact (copyPut_id _ _).trans (lostIf_id _ _)
    · rfl

theorem jobReply_id (r : RemOp) (cls ri status : Nat) (data : List Byte) : (s.jobReply r cls ri status data).core.id = s.core.id := by
  obtain ⟨u, hu⟩ : ∃ u : State, u.core.id = s.core.id ∧ s.jobReply r cls ri status data =
      if cls = clsMsg then u.msgReply r ri status else if cls = clsMatrix then u.drainReply ri status
      else if cls = clsCopy then u.copyReply r ri status data else u := by
    refine ⟨_, ?_, rfl⟩
    split <;> rfl
  obtain ⟨hid, heq⟩ := hu
  rw [heq, ← hid]
  split
  · unfold State.msgReply
    dsimp only
    split
    · exact (countDown_device (.refl u)).id
    · rfl
  · split
    · exact drainReply_id ri status
    · split
      · exact copyReply_id r ri status data
      · rfl

/-- An operation answered leaves the core in focus. -/
theorem opReply_id (r : RemOp) (status : Nat) (data : List Byte) : (s.opReply r status data).core.id = s.core.id := by
  obtain ⟨u, hu⟩ : ∃ u, u = if status = rsDONE then s else s.unwait r := ⟨_, rfl⟩
  have hid : u.core.id = s.core.id := by
    rw [hu]
    split
    · rfl
    · exact (unwait_sent r).corePart Core.id
  have hctx (v : State) (h : v.core.id = u.core.id) (f : Ctx → Ctx) :
      ({ v with core := v.core.mapCtxNo r.ctx f } : State).core.id = u.core.id := by
    show (v.core.mapCtxNo r.ctx f).id = _
    rw [mapCtxNo_rest]
    exact h
  unfold State.opReply
  rw [← hu, ← hid]
  dsimp only
  split
  · exact jobReply_id _ _ _ _ _
  · split
    · exact gstDone_id _ _ _ _
    · have hclose := closeOp_id (s := u) u.core.id r status
      split
      · exact hctx _ hclose _
      · exact hctx _ hclose _
      · unfold State.queryReply
        dsimp only
        refine (hctx _ ?_ _)
        split
        · exact hclose
        · exact hclose
      · exact hctx _ hclose _
      · exact hclose

end Focused

end Sys2Proof.Proofs
end

section
/-! PROOFS. Packets between endpoints, links, and the time between packages (R293 to R299, R401, R414). -/
namespace Sys2Proof.Proofs
open Sys2Proof Sys2Proof.Machine Sys2Proof.Laws
set_option Elab.async false

/-! ### A packet that arrives (R16, R18, R298, R299) -/

section Arriving

variable {s : State} {p q : Packet} {f : State → State}

/-- The instructions by which a packet of one operation arrives. -/
theorem arrivals_arrive : ∀ i ∈ ([.rload p, .rstore p, .ratomic p, .mwrite p, .rgath p, .rscat p, .gstage p, .prepare p, .publish p,
    .discard p, .query p, .bararr p, .barrierWaitRequest p, .spwrite p, .trigger p, .activeMessage p, .reply p, .demand p,
    .grant p] : List Instr), ∃ f, ∀ s, exec i s = .next (s.arrive p f) := by
  simp only [List.forall_mem_cons]
  exact ⟨⟨_, fun _ => rfl⟩, ⟨_, fun _ => rfl⟩, ⟨_, fun _ => rfl⟩, ⟨_, fun _ => rfl⟩, ⟨_, fun _ => rfl⟩, ⟨_, fun _ => rfl⟩,
    ⟨_, fun _ => rfl⟩, ⟨_, fun _ => rfl⟩, ⟨_, fun _ => rfl⟩, ⟨_, fun _ => rfl⟩, ⟨_, fun _ => rfl⟩, ⟨_, fun _ => rfl⟩,
    ⟨_, fun _ => rfl⟩, ⟨_, fun _ => rfl⟩, ⟨_, fun _ => rfl⟩, ⟨_, fun _ => rfl⟩, ⟨_, fun _ => rfl⟩, ⟨_, fun _ => rfl⟩,
    ⟨_, fun _ => rfl⟩, fun _ h => absurd h List.not_mem_nil⟩

section Sequenced

variable (hpkg : s.pkg.isSome = true) (hhere : eidPkg p.deid = s.pkgNo) (hni : p ∉ s.niWait) (hseq : p.sequenced = true)
include hpkg hhere hni hseq

theorem arrive_sequenced : s.arrive p f =
    let s := { s with net := s.net.erase p }
    let gap := (p.pseq + 65536 - (s.pairRx p.seid p.deid).want) % 65536
    if gap = 0 then
      let s := s.accept p
      if s.refused p then s.refuse p
      else if p.kind = 1 && !p.slotMsg && s.niHolds p then { s with niWait := s.niWait ++ p.ops }
      else f { s with niWait := s.niWait ++ p.rest.map p.withOp }
    else if 32768 ≤ gap then s.eackFor p
    else s := by
  have hno : s.pkg.isNone = false := by
    rw [← Bool.not_eq_true, Option.isNone_iff_eq_none]
    intro h
    rw [h] at hpkg
    cases hpkg
  have hc : s.niWait.contains p = false := by simpa using hni
  have hh : ¬ eidPkg p.deid ≠ ({ s with net := s.net.erase p } : State).pkgNo := not_not.mpr hhere
  unfold State.arrive
  dsimp only
  rw [hc, if_neg Bool.false_ne_true, hno, Bool.false_and, if_neg Bool.false_ne_true, if_neg hh, hseq, Bool.not_true,
    if_neg Bool.false_ne_true]

/-- A duplicate is acknowledged again; one beyond the expected is dropped. -/
theorem arrive_unexpected (hg : 0 < (p.pseq + 65536 - (s.pairRx p.seid p.deid).want) % 65536) :
    (32768 ≤ (p.pseq + 65536 - (s.pairRx p.seid p.deid).want) % 65536 →
      s.arrive p f = ({ s with net := s.net.erase p } : State).eackFor p) ∧
    ((p.pseq + 65536 - (s.pairRx p.seid p.deid).want) % 65536 < 32768 → s.arrive p f = { s with net := s.net.erase p }) := by
  rw [arrive_sequenced hpkg hhere hni hseq]
  dsimp only
  rw [if_neg (show ¬ (p.pseq + 65536 - (({ s with net := s.net.erase p } : State).pairRx p.seid p.deid).want) % 65536 = 0 from hg.ne')]
  exact ⟨fun h => if_pos h, fun h => if_neg (Nat.not_le.mpr h)⟩

theorem arrive_refused (hg : (p.pseq + 65536 - (s.pairRx p.seid p.deid).want) % 65536 = 0) (hr : s.refused p = true) (hk : p.kind = 1)
    (hone : p.rest = []) : s.arrive p f = ((({ s with net := s.net.erase p } : State).setRx
      { s.pairRx p.seid p.deid with want := ((s.pairRx p.seid p.deid).want + 1) % 65536 }).eackFor p).replyFrom
        (s.dieMgr (eidLocal p.deid)) p 2 [] := by
  have hrefused : (answeredFor s p).refused p = true := answeredFor_refused.trans hr
  have haccept : ({ s with net := s.net.erase p } : State).accept p = answeredFor s p := by
    show (if !(answeredFor s p).refused p && (answeredFor s p).gangMessage p then _ else answeredFor s p) = answeredFor s p
    rw [hrefused]
    rfl
  have hmgr : (answeredFor s p).dieMgr (eidLocal p.deid) = s.dieMgr (eidLocal p.deid) :=
    answeredFor_sent.part (fun s => s.dieMgr (eidLocal p.deid))
  have hfirst : p.ops = [p] := by
    have : p.first = p := by
      unfold Packet.first
      rw [← hone]
    rw [Packet.ops, this, hone]
    rfl
  rw [arrive_sequenced hpkg hhere hni hseq]
  dsimp only
  rw [if_pos (show (p.pseq + 65536 - (({ s with net := s.net.erase p } : State).pairRx p.seid p.deid).want) % 65536 = 0 from hg), haccept, if_pos hrefused, State.refuse, if_pos (by rw [hk]; rfl), hfirst, List.foldl_cons, List.foldl_nil, hmgr]
  rfl

end Sequenced

end Arriving

/-! ### Pacing, and acknowledgements (R298, R299) -/

section Pacing

variable {s u : State} {p q : Packet}

theorem pairTx_setTx (t : PairTx) : (u.setTx t).pairTx t.src t.dst = t := by
  unfold State.pairTx State.setTx
  rw [List.find?_cons_of_pos (by simp)]
  rfl

theorem setTx_setTx {t t' : PairTx} (hs : t'.src = t.src) (hd : t'.dst = t.dst) : (u.setTx t).setTx t' = u.setTx t' := by
  unfold State.setTx
  dsimp only
  rw [hs, hd, List.filter_cons_of_neg (by simp), List.filter_filter]
  simp only [Bool.and_self]

theorem pairTx_is (src dst : Nat) : (u.pairTx src dst).src = src ∧ (u.pairTx src dst).dst = dst := by
  unfold State.pairTx
  cases h : u.ptx.find? (fun t => t.src == src && t.dst == dst) with
  | none => exact ⟨rfl, rfl⟩
  | some t => simpa using List.find?_some h

/-- A pair set again for the endpoints it was read for. -/
theorem pairTx_set {src dst : Nat} {t : PairTx} (hs : t.src = src) (hd : t.dst = dst) : (u.setTx t).pairTx src dst = t := by
  rw [← hs, ← hd]
  exact pairTx_setTx t

/-- Nothing waits, so nothing leaves. -/
theorem release_idle {src dst : Nat} (h : (u.pairTx src dst).wait = []) : u.release src dst = u := by
  unfold State.release
  rw [h]
  rfl

theorem unpaced_big (h : q.big = true) : q.unpaced = false := by
  simp only [Packet.big, Bool.and_eq_true, beq_iff_eq, Bool.not_eq_true', decide_eq_true_eq] at h
  obtain ⟨⟨hk, -⟩, hs⟩ := h
  unfold Packet.unpaced
  rw [hk, hs]
  rfl

/-- The one packet that waits is large, and leaves once its grants reach its length. -/
theorem release_big {src dst : Nat} (hw : (u.pairTx src dst).wait = [q]) (hb : q.big = true) (hf : (u.pairTx src dst).unack.length < 32768) :
    u.release src dst = if q.data.length ≤ (u.pairTx src dst).granted then
        (u.setTx { u.pairTx src dst with wait := [], granted := (u.pairTx src dst).granted - q.data.length }).transmit q
      else u := by
  have hfull : (u.pairTx src dst).full = false := by
    unfold PairTx.full
    rw [decide_eq_false_iff_not]
    omega
  unfold State.release
  rw [hw]
  show u.releaseN src dst 1 = _
  unfold State.releaseN
  dsimp only
  rw [hfull, if_neg Bool.false_ne_true, hw, List.find?_cons_of_neg (by rw [unpaced_big hb]; exact Bool.false_ne_true), List.find?_nil]
  dsimp only
  rw [hb, if_pos rfl]
  rfl

/-- A grant to send so many bytes. -/
def grantOf (p : Packet) (n : Nat) : Packet :=
  { kind := 4, deid := p.seid, seid := p.deid, asid := p.asid, arg0 := BitVec.ofNat 64 n }

theorem grantAll_succ (p : Packet) (m n : Nat) : u.grantAll p (m + 1) n =
    if n = 0 then u else (u.send (grantOf p (min n 4096))).grantAll p m (n - min n 4096) := rfl

theorem grantAll_done (p : Packet) (m : Nat) : u.grantAll p m 0 = u := by
  cases m <;> rfl

theorem grantAll_one {n : Nat} (m : Nat) (h1 : 1 ≤ n) (h2 : n ≤ 4096) : u.grantAll p (m + 1) n = u.send (grantOf p n) := by
  rw [grantAll_succ, if_neg (by omega), Nat.min_eq_left h2, Nat.sub_self, grantAll_done]

theorem grantAll_two {n : Nat} (m : Nat) (h1 : 4096 < n) (h2 : n ≤ 8192) :
    u.grantAll p (m + 2) n = (u.send (grantOf p 4096)).send (grantOf p (n - 4096)) := by
  rw [grantAll_succ, if_neg (by omega), Nat.min_eq_right (by omega), grantAll_one m (by omega) (by omega)]

/-- A DEMAND of up to 8,192 bytes is granted in pieces. -/
theorem demand_grants (ht : s.Takes p) (hk : p.kind = 3) :
    (p.arg0.toNat = 0 → execDemand p s = .next (s.took p)) ∧
    (1 ≤ p.arg0.toNat → p.arg0.toNat ≤ 4096 → execDemand p s = .next ((s.took p).send (grantOf p p.arg0.toNat))) ∧
    (4096 < p.arg0.toNat → p.arg0.toNat ≤ 8192 →
      execDemand p s = .next (((s.took p).send (grantOf p 4096)).send (grantOf p (p.arg0.toNat - 4096)))) := by
  unfold execDemand
  rw [arrive_took ht (by rw [hk]; decide)]
  refine ⟨fun h => ?_, fun h1 h2 => ?_, fun h1 h2 => ?_⟩
  · rw [h]
    exact congrArg done (grantAll_done p _)
  · exact congrArg done (grantAll_one _ h1 h2)
  · obtain ⟨m, hm⟩ : ∃ m, p.arg0.toNat / 4096 + 1 = m + 2 := ⟨p.arg0.toNat / 4096 - 1, by omega⟩
    rw [hm]
    exact congrArg done (grantAll_two m h1 h2)

/-- A GRANT lets waiting bytes go. -/
theorem grant_releases (ht : s.Takes p) (hk : p.kind = 4) :
    (((s.took p).pairTx p.deid p.seid).wait = [] → execGrant p s = .next ((s.took p).setTx
      { (s.took p).pairTx p.deid p.seid with granted := ((s.took p).pairTx p.deid p.seid).granted + p.arg0.toNat })) ∧
    (((s.took p).pairTx p.deid p.seid).wait = [q] → q.big = true → ((s.took p).pairTx p.deid p.seid).unack.length < 32768 →
      (((s.took p).pairTx p.deid p.seid).granted + p.arg0.toNat < q.data.length → execGrant p s = .next ((s.took p).setTx
        { (s.took p).pairTx p.deid p.seid with granted := ((s.took p).pairTx p.deid p.seid).granted + p.arg0.toNat })) ∧
      (q.data.length ≤ ((s.took p).pairTx p.deid p.seid).granted + p.arg0.toNat → execGrant p s = .next (((s.took p).setTx
        { (s.took p).pairTx p.deid p.seid with
          wait := [], granted := ((s.took p).pairTx p.deid p.seid).granted + p.arg0.toNat - q.data.length }).transmit q))) := by
  unfold execGrant
  rw [arrive_took ht (by rw [hk]; decide)]
  obtain ⟨u, hu⟩ : ∃ u, u = s.took p := ⟨_, rfl⟩
  rw [← hu]
  obtain ⟨hs, hd⟩ := pairTx_is (u := u) p.deid p.seid
  obtain ⟨t, ht⟩ : ∃ t, t = { u.pairTx p.deid p.seid with granted := (u.pairTx p.deid p.seid).granted + p.arg0.toNat } := ⟨_, rfl⟩
  have hts : t.src = p.deid := by rw [ht]; exact hs
  have htd : t.dst = p.seid := by rw [ht]; exact hd
  have htx : (u.setTx t).pairTx p.deid p.seid = t := pairTx_set hts htd
  have hgr : t.granted = (u.pairTx p.deid p.seid).granted + p.arg0.toNat := by rw [ht]
  have hwt : t.wait = (u.pairTx p.deid p.seid).wait := by rw [ht]
  dsimp only
  rw [← ht]
  refine ⟨fun hw => ?_, fun hw hb hf => ?_⟩
  · exact congrArg done (release_idle (by rw [htx, hwt, hw]))
  · have hun : t.unack.length < 32768 := by rw [ht]; exact hf
    rw [release_big (q := q) (by rw [htx, hwt, hw]) hb (by rw [htx]; exact hun), htx]
    refine ⟨fun hlt => ?_, fun hle => ?_⟩
    · rw [if_neg (by omega)]
      rfl
    · rw [if_pos (by omega), setTx_setTx (by rfl) (by rfl), ht]
      rfl

/-- An acknowledgement ends a packet's wait. -/
theorem eack_lets_go (ht : s.Takes p) (hk : p.kind = 5) (hw : ((s.took p).pairTx p.deid p.seid).wait = []) :
    ∃ v, execEack p s = .next v ∧
      v.pairTx p.deid p.seid = ((s.took p).pairTx p.deid p.seid).letGo p.arg0.toNat s.time.toNat ∧
      v.net = s.net.erase p ∧ v.core = s.core ∧ v.mem = s.mem := by
  have hseq : p.sequenced = false := by
    unfold Packet.sequenced
    rw [hk]
    rfl
  have hu : s.took p = { s with net := s.net.erase p } := by
    unfold State.took
    dsimp only
    rw [hseq]
    rfl
  unfold execEack
  rw [arrive_took ht (by rw [hk]; decide)]
  obtain ⟨hs, hd⟩ := pairTx_is (u := s.took p) p.deid p.seid
  obtain ⟨t, ht⟩ : ∃ t, t = ((s.took p).pairTx p.deid p.seid).letGo p.arg0.toNat (s.took p).time.toNat := ⟨_, rfl⟩
  have hset : ((s.took p).setTx t).pairTx p.deid p.seid = t := pairTx_set (by rw [ht]; exact hs) (by rw [ht]; exact hd)
  have htime : (s.took p).time = s.time := by rw [hu]
  refine ⟨(s.took p).setTx t, congrArg done ?_, ?_, ?_⟩
  · rw [State.acked, ← ht]
    exact release_idle (by rw [hset, ht]; exact hw)
  · rw [hset, ht, htime]
  · rw [hu]
    exact ⟨rfl, rfl, rfl⟩

end Pacing

/-! ### The end-to-end timer (R299) -/

section Timer

variable {s : State} {src dst : Nat}

theorem timer_of (t : PairTx) (ht : t = s.pairTx src dst) : execE2eTimer src dst s =
    if eidPkg src ≠ s.pkgNo then .next { s with prx := s.prx.filter (fun u => !(u.src == src && u.dst == dst)) }
    else if t.unack.isEmpty || s.time.toNat < t.since + 20000 * 2 ^ t.fails then .next s
    else if 5 ≤ t.fails then .next (s.pairFail t)
    else .next (t.unack.foldl State.resend (s.setTx (t.again s.time.toNat))) := by
  rw [ht]
  rfl

/-- When the oldest unacknowledged packet of a pair has waited its time. -/
def TimerDue (s : State) (t : PairTx) : Prop := t.unack ≠ [] ∧ t.since + 20000 * 2 ^ t.fails ≤ s.time.toNat

theorem timerDue_iff (t : PairTx) : (t.unack.isEmpty || s.time.toNat < t.since + 20000 * 2 ^ t.fails) = true ↔ ¬ TimerDue s t := by
  unfold TimerDue
  rw [Bool.or_eq_true, List.isEmpty_iff, decide_eq_true_eq, not_and_or, not_not, Nat.not_le]

theorem timer_other (h : ¬ eidPkg src = s.pkgNo) :
    execE2eTimer src dst s = .next { s with prx := s.prx.filter (fun u => !(u.src == src && u.dst == dst)) } := by
  rw [timer_of _ rfl, if_pos h]

theorem timer_early (h : eidPkg src = s.pkgNo) (hd : ¬ TimerDue s (s.pairTx src dst)) : execE2eTimer src dst s = .next s := by
  rw [timer_of _ rfl, if_neg (not_not.mpr h), if_pos ((timerDue_iff _).mpr hd)]

theorem resend_here (xs : List Packet) (hx : ∀ x ∈ xs, eidPkg x.deid = s.pkgNo) : ∀ u : State, u.pkgNo = s.pkgNo →
    xs.foldl State.resend u = { u with net := u.net ++ xs } := by
  induction xs with
  | nil =>
    intro u _
    rw [List.append_nil]
    rfl
  | cons x xs ih =>
    intro u hu
    have hone : u.resend x = { u with net := u.net ++ [x] } := by
      unfold State.resend State.wire
      rw [if_pos (by rw [hu]; exact hx x List.mem_cons_self)]
      rfl
    rw [List.foldl_cons, hone]
    refine (ih (fun y hy => hx y (List.mem_cons_of_mem _ hy)) ({ u with net := u.net ++ [x] } : State) hu).trans ?_
    show ({ u with net := u.net ++ [x] ++ xs } : State) = _
    rw [List.append_assoc]
    rfl

theorem timer_resends (h : eidPkg src = s.pkgNo) (hd : TimerDue s (s.pairTx src dst)) (hf : (s.pairTx src dst).fails < 5)
    (hx : ∀ x ∈ (s.pairTx src dst).unack, eidPkg x.deid = s.pkgNo) : ∃ v, execE2eTimer src dst s = .next v ∧
      v.net = s.net ++ (s.pairTx src dst).unack ∧ v.pairTx src dst = { s.pairTx src dst with
        since := s.time.toNat, sentAt := (s.pairTx src dst).unack.map (fun _ => s.time.toNat), fails := (s.pairTx src dst).fails + 1 } ∧
      v.core = s.core ∧ v.mem = s.mem := by
  obtain ⟨t, ht⟩ : ∃ t, t = s.pairTx src dst := ⟨_, rfl⟩
  obtain ⟨hs, hdst⟩ : t.src = src ∧ t.dst = dst := by
    rw [ht]
    exact pairTx_is src dst
  rw [timer_of t ht, if_neg (not_not.mpr h)]
  rw [← ht] at hd hf hx ⊢
  rw [if_neg (by rw [timerDue_iff, not_not]; exact hd), if_neg (by omega), resend_here t.unack hx (s.setTx (t.again s.time.toNat)) rfl]
  exact ⟨_, rfl, rfl, pairTx_set (u := s) (t := t.again s.time.toNat) hs hdst, rfl, rfl⟩

theorem timer_fails (h : eidPkg src = s.pkgNo) (hd : TimerDue s (s.pairTx src dst)) (hf : 5 ≤ (s.pairTx src dst).fails)
    (he : eidLocal src = s.core.id) (hc : Sys2Proof.isCore s.core.id = true) :
    let t := s.pairTx src dst
    let v : State := { s with
      ptx := s.ptx.filter (fun u => !(u.src == src && u.dst == dst))
      prx := s.prx.filter (fun u => !(u.src == src && u.dst == dst))
      net := s.net.filter (fun p => !(p.sequenced && p.seid == src && p.deid == dst)) }
    let lost := ((t.unack.filter (fun x => !s.accepted x) ++ t.wait).flatMap Packet.ops).filter s.countedHere
    let w := lost.foldl (fun v x => if x.kind = 1 then v.countDown x.asid (sentLevel x) else v) v
    execE2eTimer src dst s = .next ((w.core.ops.filter (fun r => r.pkt.deid == dst)).foldl (fun v r => v.opReply r 3 []) w) := by
  intro t v lost w
  obtain ⟨hs, hdst⟩ : t.src = src ∧ t.dst = dst := pairTx_is src dst
  have hcore : Machine.isCore (eidLocal src) = true := by
    rw [he]
    exact isCore_local hc
  have hw : w.core.id = s.core.id := by
    refine foldl_id (s := v) (fun u x => ?_) lost
    split
    · exact (countDown_device (.refl u)).id
    · rfl
  rw [timer_of t rfl, if_neg (not_not.mpr h), if_neg (by rw [timerDue_iff, not_not]; exact hd), if_pos hf]
  unfold State.pairFail
  dsimp only
  rw [hs, hdst, if_pos hcore]
  exact congrArg Host.Outcome.next (at_focus (s := w) (he.trans hw.symm) (foldl_id (fun u r => opReply_id r 3 []) _))

end Timer

/-! ### Flits and links (R293, R299, R300, R414) -/

section Links

variable {s : State} {f : Flit} {l : Fin 16} {q : Packet} {n : Nat}

theorem atLink_val (f : Fin 16 → State) : atLink l.val s f = .next (f l) := dif_pos l.isLt

theorem mapLink_mapLink (g h : Link → Link) : (s.mapLink l g).mapLink l h = s.mapLink l (fun k => h (g k)) := by
  unfold State.mapLink
  dsimp only
  rw [Fin.getElem_fin, Fin.getElem_fin, Vector.getElem_set_self, Vector.set_set]

theorem mapLink_link (g : Link → Link) : (s.mapLink l g).links[l] = g s.links[l] := by
  unfold State.mapLink
  dsimp only
  rw [Fin.getElem_fin, Vector.getElem_set_self]

theorem flit_untrained (h : s.links[l].trained = false) : execFlit l.val f s = .next s := by
  unfold execFlit
  rw [atLink_val, State.takeFlit, h]
  rfl

theorem replayRequest_untrained (h : s.links[l].trained = false) : execReplayRequest l.val n s = .next s := by
  unfold execReplayRequest
  rw [atLink_val, h]
  rfl

theorem linkFailure_untrained (h : s.links[l].trained = false) : execLinkFailure l.val s = .next s := by
  unfold execLinkFailure
  rw [atLink_val, h]
  rfl

theorem sendPtp_untrained (h : s.links[l].trained = false) (typ seq time : Nat) : s.sendPtp l typ seq time = s := by
  unfold State.sendPtp
  rw [h]
  rfl

theorem sendPtp_trained (h : s.links[l].trained = true) (typ seq time : Nat) : s.sendPtp l typ seq time =
    s.mapLink l (fun x => x.put { kind := 8, seid := s.eid (gatewayUnit l.val), arg0 := BitVec.ofNat 64 time,
                                  arg1 := BitVec.ofNat 64 (typ + Config.syncDomain % 256 * 256 + seq % 65536 * 65536) }) := by
  unfold State.sendPtp
  rw [h]
  rfl

theorem replayRequest_trained (h : s.links[l].trained = true) :
    execReplayRequest l.val n s = .next (s.mapLink l (fun k => k.replay n)) := by
  unfold execReplayRequest
  rw [atLink_val, h]
  rfl

theorem linkFailure_trained (h : s.links[l].trained = true) : execLinkFailure l.val s = .next (s.mapLink l Link.retrain) := by
  unfold execLinkFailure
  rw [atLink_val, h]
  rfl

theorem replayLimit_reached (h : 8 ≤ s.links[l].replays) : execLinkReplayLimit l.val s = .next (s.mapLink l Link.retrain) := by
  unfold execLinkReplayLimit
  rw [atLink_val, if_pos h]

theorem replayLimit_below (h : s.links[l].replays < 8) : execLinkReplayLimit l.val s = .next s := by
  unfold execLinkReplayLimit
  rw [atLink_val, if_neg (Nat.not_le.mpr h)]

theorem retrainDone_up (h : s.links[l].retraining = true) (hd : s.linkDieUp l.val = true) : execLinkRetrainDone l.val s =
    .next { s with links := s.links.set l { s.links[l] with trained := true, retraining := false }
                   events := s.events ++ [.serviceDone (32 + l.val)] } := by
  unfold execLinkRetrainDone
  rw [atLink_val, h, hd]
  rfl

theorem retrainDone_idle (h : s.links[l].retraining = false ∨ s.linkDieUp l.val = false) : execLinkRetrainDone l.val s = .next s := by
  unfold execLinkRetrainDone
  rw [atLink_val, if_neg (by rw [Bool.and_eq_true, not_and_or, Bool.not_eq_true, Bool.not_eq_true]; exact h)]

theorem flit_bad (h : s.links[l].trained = true) (hc : f.crc ≠ crc32c (flitBody f)) : execFlit l.val f s = .next (s.mapLink l Link.ask) := by
  unfold execFlit
  rw [atLink_val, State.takeFlit, h, Bool.not_true, if_neg Bool.false_ne_true, if_pos hc]

/-- A good flit lets go what it acknowledges, and is then taken by its type and number. -/
theorem flit_good (h : s.links[l].trained = true) (hc : f.crc = crc32c (flitBody f)) : execFlit l.val f s =
    let u := s.mapLink l (fun k => k.cover f.fack)
    .next (if f.typ = 2 then u.mapLink l (fun k => k.replay f.fseq)
      else if f.typ ≠ 0 then u
      else if f.fseq = s.links[l].rx then u.takePay l f.pay
      else if flitBefore f.fseq s.links[l].rx then u
      else u.mapLink l Link.ask) := by
  have hrx : (s.mapLink l (fun k => k.cover f.fack)).links[l].rx = s.links[l].rx := by
    rw [mapLink_link]
    rfl
  unfold execFlit
  rw [atLink_val, State.takeFlit, h, Bool.not_true, if_neg Bool.false_ne_true, if_neg (not_not.mpr hc)]
  dsimp only
  rw [hrx]

/-- The payload of the expected flit taken, after what the flit acknowledges is let go. -/
theorem takePay_covered {fack : Nat} {pay : List Byte} : (s.mapLink l (fun k => k.cover fack)).takePay l pay =
    let r := parseStream ((s.links[l].stream ++ pay).length + 1) (s.links[l].stream ++ pay)
    r.1.foldl (fun s p => s.linkIn l.val p)
      (s.mapLink l fun k => { k.cover fack with rx := (k.rx + 1) % 4096, stream := r.2 }) := by
  have hst : (s.mapLink l (fun k => k.cover fack)).links[l].stream = s.links[l].stream := by
    rw [mapLink_link]
    rfl
  unfold State.takePay
  dsimp only
  rw [hst, mapLink_mapLink]
  rfl

theorem linkIn_takes (hp : s.pkg.isSome = true) (h1 : 1 ≤ q.kind) (h8 : q.kind < 8) : s.linkIn n q =
    { s with net := s.net ++ [if ctlPort (eidLocal q.deid) = true then { q with via := some n } else q] } := by
  have hno : s.pkg.isNone = false := by
    rw [← Option.not_isSome, hp]
    rfl
  have hres : q.reservedKind = false := by
    unfold Packet.reservedKind
    rw [Bool.or_eq_false_iff, beq_eq_false_iff_ne, decide_eq_false_iff_not]
    omega
  unfold State.linkIn
  rw [hno, Bool.false_and, if_neg Bool.false_ne_true, hres, if_neg Bool.false_ne_true, if_neg (by omega), if_neg (by omega)]

theorem linkIn_drops (hp : s.pkg.isSome = true) (hk : q.kind = 0 ∨ 9 < q.kind) (hh : eidPkg q.deid = s.pkgNo) : s.linkIn n q =
    { s with dropped := s.dropped.set (lidDie (eidLocal q.deid)) (s.dropped[lidDie (eidLocal q.deid)] + 1) } := by
  have hno : s.pkg.isNone = false := by
    rw [← Option.not_isSome, hp]
    rfl
  have hres : q.reservedKind = true := by
    unfold Packet.reservedKind
    rw [Bool.or_eq_true, beq_iff_eq, decide_eq_true_eq]
    exact hk
  unfold State.linkIn
  rw [hno, Bool.false_and, if_neg Bool.false_ne_true, if_pos hres, State.dropKind, if_pos hh]

/-- A data flit leaves with these bytes, and `rest` waits for more. -/
def SendsFlit (x : Link) (pay rest : List Byte) (y : Link) : Prop := ∃ g : Flit,
  y = { x with tx := (x.tx + 1) % 4096, held := x.held ++ [g], out := x.out ++ [g], tail := rest } ∧ g.pay = pay ∧
    g.fseq = x.tx ∧ g.typ = 0 ∧ g.fack = (x.rx + 4095) % 4096 ∧ g.crc = crc32c (flitBody g)

theorem put_short {k : Link} (h : (k.tail ++ q.bytes).length < 56) : k.put q = { k with tail := k.tail ++ q.bytes } := by
  unfold Link.put
  dsimp only
  rw [Nat.div_eq_of_lt h]
  rfl

theorem put_one {k : Link} (h1 : 56 ≤ (k.tail ++ q.bytes).length) (h2 : (k.tail ++ q.bytes).length < 112) :
    SendsFlit k ((k.tail ++ q.bytes).take 56) ((k.tail ++ q.bytes).drop 56) (k.put q) := by
  unfold Link.put
  dsimp only
  rw [show (k.tail ++ q.bytes).length / 56 = 1 by omega, Link.pour, if_neg (by omega)]
  exact ⟨_, rfl, rfl, rfl, rfl, rfl, rfl⟩

theorem flush_idle {k : Link} (h : k.tail = []) : k.flush = k := by
  unfold Link.flush
  rw [h]
  rfl

theorem flush_fills {k : Link} (h : k.tail ≠ []) (h56 : k.tail.length < 56) :
    SendsFlit k (k.tail ++ List.replicate (56 - k.tail.length) 0) [] k.flush := by
  have htake : (k.tail ++ List.replicate 56 (0 : Byte)).take 56 = k.tail ++ List.replicate (56 - k.tail.length) 0 := by
    rw [List.take_append, List.take_of_length_le (by omega), List.take_replicate, Nat.min_eq_left (by omega)]
  unfold Link.flush
  rw [if_neg (by simpa using h), htake]
  exact ⟨_, rfl, rfl, rfl, rfl, rfl, rfl⟩

end Links

/-! ### The time between packages (R401) -/

section Clocks

variable {s u : State} {p : Packet} {l : Fin 16}

theorem syncTick_sends :
    let seq := (s.links[l].ptp.seq + 1) % 65536
    let now := s.time.toNat
    let u := (s.mapLink l (fun x => { x with ptp := { x.ptp with seq := seq, sentAt := now } })).sendPtp l 2 seq now
    execSyncTick l.val s = .next (if s.isGrandmaster = true ∨ s.synced = true then
      (u.sendPtp l 0 seq 0).sendPtp l 8 seq now else u) := by
  intro seq now u
  have hg : u.isGrandmaster = s.isGrandmaster ∧ u.synced = s.synced := by
    unfold u State.sendPtp
    split
    · exact ⟨rfl, rfl⟩
    · exact ⟨rfl, rfl⟩
  have hrun : execSyncTick l.val s = .next (if (u.isGrandmaster || u.synced) = true then
      (u.sendPtp l 0 seq 0).sendPtp l 8 seq now else u) := atLink_val _
  rw [hrun, hg.1, hg.2]
  simp only [Bool.or_eq_true]

theorem takePtp_eq : u.takePtp l p =
    if fld p.arg1 8 8 ≠ Config.syncDomain % 256 then u
    else if fld p.arg1 0 8 = 2 then
      (u.sendPtp l 3 (fld p.arg1 16 16) p.arg2.toNat).sendPtp l 10 (fld p.arg1 16 16) u.time.toNat
    else if fld p.arg1 0 8 = 3 then
      (if fld p.arg1 16 16 = u.links[l].ptp.seq then
        u.mapLink l (fun x => { x with ptp := { u.links[l].ptp with backAt := p.arg2.toNat, farAt := p.arg0.toNat } }) else u)
    else if fld p.arg1 0 8 = 10 then
      (if fld p.arg1 16 16 = u.links[l].ptp.seq then u.mapLink l (fun x => { x with ptp := { u.links[l].ptp with
        delay := ((u.links[l].ptp.backAt - u.links[l].ptp.sentAt) - (p.arg0.toNat - u.links[l].ptp.farAt)) / 2 } }) else u)
    else if fld p.arg1 0 8 = 0 then
      u.mapLink l (fun x => { x with ptp := { u.links[l].ptp with sync := fld p.arg1 16 16, syncAt := p.arg2.toNat } })
    else if fld p.arg1 0 8 = 8 && fld p.arg1 16 16 = u.links[l].ptp.sync && !u.isGrandmaster then
      u.takeSync (p.arg0.toNat + u.links[l].ptp.delay + (u.time.toNat - u.links[l].ptp.syncAt))
    else u := rfl

theorem clampPpm_bounds (x : Int) : -100 ≤ clampPpm x ∧ clampPpm x ≤ 100 := by
  unfold clampPpm
  omega

/-- A synchronisation steps TIME forward the first time, where no job has started, and later corrects the rate. -/
theorem takeSync_facts (est : Nat) : (u.takeSync est).synced = true ∧ (u.takeSync est).core = u.core ∧ (u.takeSync est).mem = u.mem ∧
    (1000 < ((est : Int) - u.time.toNat).natAbs → (u.takeSync est).events = u.events ++ [.timeOffset]) ∧
    (¬ 1000 < ((est : Int) - u.time.toNat).natAbs → (u.takeSync est).events = u.events) ∧
    (u.synced = false → u.jobSeen = false → est < 2 ^ 64 →
      (u.takeSync est).time.toNat = max est u.time.toNat ∧ (u.takeSync est).ppm = u.ppm) ∧
    (u.synced = true ∨ u.jobSeen = true → (u.takeSync est).time = u.time ∧ -100 ≤ (u.takeSync est).ppm ∧ (u.takeSync est).ppm ≤ 100) := by
  obtain ⟨v, hv⟩ : ∃ v, v = if 1000 < ((est : Int) - u.time.toNat).natAbs then u.tellHost .timeOffset else u := ⟨_, rfl⟩
  have heq : u.takeSync est = if !v.synced && !v.jobSeen then
      { v with synced := true, time := if 0 < (est : Int) - u.time.toNat then BitVec.ofNat 64 est else v.time }
    else { v with synced := true, ppm := clampPpm (Config.rateCorrection v.freeN), freeN := v.freeN + 1 } := by
    rw [hv]
    rfl
  have hpart : v.synced = u.synced ∧ v.jobSeen = u.jobSeen ∧ v.core = u.core ∧ v.mem = u.mem ∧ v.time = u.time ∧ v.ppm = u.ppm := by
    rw [hv]
    split
    · exact ⟨rfl, rfl, rfl, rfl, rfl, rfl⟩
    · exact ⟨rfl, rfl, rfl, rfl, rfl, rfl⟩
  obtain ⟨hsyn, hjob, hcore, hmem, htime, hppm⟩ := hpart
  have hev : (1000 < ((est : Int) - u.time.toNat).natAbs → v.events = u.events ++ [.timeOffset]) ∧
      (¬ 1000 < ((est : Int) - u.time.toNat).natAbs → v.events = u.events) := by
    rw [hv]
    exact ⟨fun h => by rw [if_pos h]; rfl, fun h => by rw [if_neg h]⟩
  cases hfirst : (!u.synced && !u.jobSeen) with
  | true =>
    rw [heq, hsyn, hjob, hfirst, if_pos rfl]
    simp only [Bool.and_eq_true, Bool.not_eq_true'] at hfirst
    refine ⟨rfl, hcore, hmem, hev.1, hev.2, fun _ _ hlt => ⟨?_, hppm⟩, fun h => ?_⟩
    · show (if 0 < (est : Int) - u.time.toNat then BitVec.ofNat 64 est else v.time).toNat = _
      split
      · rw [BitVec.toNat_ofNat, Nat.mod_eq_of_lt hlt]
        omega
      · rw [htime]
        omega
    · rw [hfirst.1, hfirst.2] at h
      simp at h
  | false =>
    rw [heq, hsyn, hjob, hfirst, if_neg Bool.false_ne_true]
    refine ⟨rfl, hcore, hmem, hev.1, hev.2, fun h1 h2 _ => ?_, fun _ => ⟨htime, clampPpm_bounds _⟩⟩
    rw [h1, h2] at hfirst
    cases hfirst

end Clocks

section Taken

variable {s : State} {p : Packet}

/-- A clock message that is taken. -/
theorem tsync_run (ht : s.Takes p) (hk : p.kind = 8) : s.took p = { s with net := s.net.erase p } ∧
    execTsync p s = .next ((s.took p).takePtp (Fin.ofNat 16 (eidLocal p.deid / 1024 * 4 + p.deid % 4)) p) := by
  have hseq : p.sequenced = false := by
    unfold Packet.sequenced
    rw [hk]
    rfl
  refine ⟨?_, ?_⟩
  · unfold State.took
    dsimp only
    rw [hseq]
    rfl
  · unfold execTsync
    rw [arrive_took ht (by rw [hk]; decide)]
    rfl

theorem tsync_takes (ht : s.Takes p) (hk : p.kind = 8) :
    let u := s.took p
    let l : Fin 16 := Fin.ofNat 16 (eidLocal p.deid / 1024 * 4 + p.deid % 4)
    let x := s.links[l].ptp
    let typ := fld p.arg1 0 8
    let ours : Prop := fld p.arg1 8 8 = Config.syncDomain % 256
    let seq := fld p.arg1 16 16
    let came := p.arg2.toNat
    let est := p.arg0.toNat + x.delay + (s.time.toNat - x.syncAt)
    let far : Prop := 1000 < ((est : Int) - s.time.toNat).natAbs
    let sets (y : Ptp) : Prop := execTsync p s = .next (u.mapLink l (fun m => { m with ptp := y }))
    (¬ ours → execTsync p s = .next u) ∧
    (ours → typ = 2 → execTsync p s = .next ((u.sendPtp l 3 seq came).sendPtp l 10 seq s.time.toNat)) ∧
    (ours → typ = 3 → seq = x.seq → sets { x with backAt := came, farAt := p.arg0.toNat }) ∧
    (ours → typ = 10 → seq = x.seq → sets { x with delay := ((x.backAt - x.sentAt) - (p.arg0.toNat - x.farAt)) / 2 }) ∧
    (ours → typ = 3 ∨ typ = 10 → seq ≠ x.seq → execTsync p s = .next u) ∧
    (ours → typ = 0 → sets { x with sync := seq, syncAt := came }) ∧
    (ours → typ = 8 → seq ≠ x.sync ∨ s.isGrandmaster = true → execTsync p s = .next u) ∧
    (ours → typ = 8 → seq = x.sync → s.isGrandmaster = false →
      ∃ v, execTsync p s = .next v ∧ v.synced = true ∧ v.core = s.core ∧ v.mem = s.mem ∧
        (far → v.events = s.events ++ [.timeOffset]) ∧ (¬ far → v.events = s.events) ∧
        (s.synced = false → s.jobSeen = false → est < 2 ^ 64 → v.time.toNat = max est s.time.toNat ∧ v.ppm = s.ppm) ∧
        (s.synced = true ∨ s.jobSeen = true → v.time = s.time ∧ -100 ≤ v.ppm ∧ v.ppm ≤ 100)) := by
  intro u l x typ ours seq came est far sets
  obtain ⟨hu, hrun⟩ := tsync_run ht hk
  have hparts : u.links = s.links ∧ u.time = s.time ∧ u.isGrandmaster = s.isGrandmaster ∧ u.synced = s.synced ∧
      u.jobSeen = s.jobSeen ∧ u.events = s.events ∧ u.core = s.core ∧ u.mem = s.mem ∧ u.ppm = s.ppm := by
    rw [show u = { s with net := s.net.erase p } from hu]
    exact ⟨rfl, rfl, rfl, rfl, rfl, rfl, rfl, rfl, rfl⟩
  obtain ⟨hlinks, htime, hgm, hsyn, hseen, hev, hcore, hmem, hppm⟩ := hparts
  have hx : u.links[l].ptp = x := by rw [hlinks]
  have hto : execTsync p s = .next (u.takePtp l p) := hrun
  rw [takePtp_eq, hx, htime, hgm] at hto
  have hours (ho : ours) : ¬ fld p.arg1 8 8 ≠ Config.syncDomain % 256 := not_not.mpr ho
  show (_ → _) ∧ _
  refine ⟨fun h => ?_, fun ho h => ?_, fun ho h hq => ?_, fun ho h hq => ?_, fun ho h hq => ?_, fun ho h => ?_, fun ho h hq => ?_,
    fun ho h hq hg => ?_⟩
  · rw [hto, if_pos h]
  · rw [hto, if_neg (hours ho), if_pos h]
  · show execTsync p s = _
    rw [hto, if_neg (hours ho), show fld p.arg1 0 8 = 3 from h, if_neg (by decide), if_pos rfl, if_pos hq]
  · show execTsync p s = _
    rw [hto, if_neg (hours ho), show fld p.arg1 0 8 = 10 from h, if_neg (by decide), if_neg (by decide), if_pos rfl, if_pos hq]
  · rw [hto, if_neg (hours ho)]
    rcases h with h | h
    · rw [show fld p.arg1 0 8 = 3 from h, if_neg (by decide), if_pos rfl, if_neg hq]
    · rw [show fld p.arg1 0 8 = 10 from h, if_neg (by decide), if_neg (by decide), if_pos rfl, if_neg hq]
  · show execTsync p s = _
    rw [hto, if_neg (hours ho), show fld p.arg1 0 8 = 0 from h, if_neg (by decide), if_neg (by decide), if_neg (by decide), if_pos rfl]
  · have hno : ¬ ((8 : Nat) = 8 && fld p.arg1 16 16 = x.sync && !s.isGrandmaster) = true := by
      rw [Bool.and_eq_true, Bool.and_eq_true, decide_eq_true_eq, decide_eq_true_eq, Bool.not_eq_true']
      intro ⟨⟨_, h1⟩, h2⟩
      rcases hq with hq | hq
      · exact hq h1
      · rw [h2] at hq
        cases hq
    rw [hto, if_neg (hours ho), show fld p.arg1 0 8 = 8 from h, if_neg (by decide), if_neg (by decide), if_neg (by decide),
      if_neg (by decide), if_neg hno]
  · have hyes : ((8 : Nat) = 8 && fld p.arg1 16 16 = x.sync && !s.isGrandmaster) = true := by
      rw [Bool.and_eq_true, Bool.and_eq_true, decide_eq_true_eq, decide_eq_true_eq, Bool.not_eq_true']
      exact ⟨⟨rfl, hq⟩, hg⟩
    rw [if_neg (hours ho), show fld p.arg1 0 8 = 8 from h, if_neg (by decide), if_neg (by decide), if_neg (by decide),
      if_neg (by decide), if_pos hyes] at hto
    obtain ⟨h1, h2, h3, h4, h5, h6, h7⟩ := takeSync_facts (u := u) est
    rw [htime, hev, hsyn, hseen, hppm] at *
    exact ⟨_, hto, h1, h2.trans hcore, h3.trans hmem, h4, h5, h6, h7⟩

variable {f : Flit} {l : Fin 16} {q : Packet}

theorem flit_takes (h : s.links[l].trained = true) (hc : f.crc = crc32c (flitBody f)) :
    let k := s.links[l]
    let link (i : Instr) (x : Link) : Prop := exec i s = .next { s with links := s.links.set l x }
    let covered : Link := { k with held := k.held.filter (fun g => !flitBefore g.fseq f.fack) }
    let parsed := parseStream ((k.stream ++ f.pay).length + 1) (k.stream ++ f.pay)
    (f.typ = 1 → link (.flit l.val f) covered) ∧
    (f.typ = 2 → link (.flit l.val f) (covered.replay f.fseq)) ∧
    (f.typ = 0 → f.fseq = k.rx →
      (parsed.1 = [] → link (.flit l.val f) { covered with rx := (k.rx + 1) % 4096, stream := parsed.2 }) ∧
      (parsed.1 = [q] → s.pkg.isSome = true →
        let links := s.links.set l { covered with rx := (k.rx + 1) % 4096, stream := parsed.2 }
        (1 ≤ q.kind → q.kind < 8 →
          exec (.flit l.val f) s = .next { s with
            net := s.net ++ [if ctlPort (eidLocal q.deid) = true then { q with via := some l.val } else q], links := links }) ∧
        (q.kind = 0 ∨ 9 < q.kind → eidPkg q.deid = s.pkgNo →
          let d : Fin 4 := lidDie (eidLocal q.deid)
          exec (.flit l.val f) s = .next { s with links := links, dropped := s.dropped.set d (s.dropped[d] + 1) }))) ∧
    (f.typ = 0 → f.fseq ≠ k.rx → flitBefore f.fseq k.rx = true → link (.flit l.val f) covered) ∧
    (f.typ = 0 → f.fseq ≠ k.rx → flitBefore f.fseq k.rx = false → link (.flit l.val f) covered.ask) := by
  intro k link covered parsed
  have hgood : exec (.flit l.val f) s = _ := flit_good h hc
  dsimp only at hgood
  refine ⟨fun ht => ?_, fun ht => ?_, fun ht hr => ⟨fun hp => ?_, fun hp hn => ⟨fun h1 h8 => ?_, fun hk hh => ?_⟩⟩,
    fun ht hr hb => ?_, fun ht hr hb => ?_⟩
  · show exec (.flit l.val f) s = _
    rw [hgood, ht, if_neg (by decide), if_pos (by decide)]
    rfl
  · show exec (.flit l.val f) s = _
    rw [hgood, ht, if_pos rfl, mapLink_mapLink]
    rfl
  · show exec (.flit l.val f) s = _
    rw [hgood, ht, if_neg (by decide), if_neg (by decide), if_pos hr, takePay_covered]
    dsimp only
    rw [show (parseStream _ _).1 = [] from hp]
    rfl
  · rw [hgood, ht, if_neg (by decide), if_neg (by decide), if_pos hr, takePay_covered]
    dsimp only
    rw [show (parseStream _ _).1 = [q] from hp, List.foldl_cons, List.foldl_nil]
    exact congrArg Host.Outcome.next (linkIn_takes (s := s.mapLink l _) hn h1 h8)
  · rw [hgood, ht, if_neg (by decide), if_neg (by decide), if_pos hr, takePay_covered]
    dsimp only
    rw [show (parseStream _ _).1 = [q] from hp, List.foldl_cons, List.foldl_nil]
    exact congrArg Host.Outcome.next (linkIn_drops (s := s.mapLink l _) hn hk hh)
  · show exec (.flit l.val f) s = _
    rw [hgood, ht, if_neg (by decide), if_neg (by decide), if_neg hr, if_pos hb]
    rfl
  · show exec (.flit l.val f) s = _
    rw [hgood, ht, if_neg (by decide), if_neg (by decide), if_neg hr, if_neg (by rw [hb]; exact Bool.false_ne_true), mapLink_mapLink]
    rfl

end Taken

/-- Settles O52: a packet out of turn is acknowledged again or dropped, the expected one taken; a pair sends again what it holds
until it fails; a link takes, holds and repeats its flits; and the clock messages set what they measure. -/
theorem packetsAndLinks : Obligations.PacketsAndLinks := by
  unfold Obligations.PacketsAndLinks
  intro s p q f n src dst l off all
  refine ⟨fun hp hh hni hseq => ?_, fun ht => ?_, ?_, ?_⟩
  · intro r gap
    refine ⟨fun hg i hi => ?_, fun h0 hg i hi => ?_, fun h0 hr hk hone i hi => ?_⟩
    · obtain ⟨f, hf⟩ := arrivals_arrive i hi
      rw [hf s, (arrive_unexpected hp hh hni hseq (Nat.lt_of_lt_of_le (by decide) hg)).1 hg]
    · obtain ⟨f, hf⟩ := arrivals_arrive i hi
      rw [hf s, (arrive_unexpected hp hh hni hseq h0).2 hg]
    · obtain ⟨f, hf⟩ := arrivals_arrive i hi
      rw [hf s, arrive_refused hp hh hni hseq h0 hr hk hone]
  · intro u t k grant
    refine ⟨fun hk => demand_grants ht hk, fun hk => grant_releases ht hk, fun hk hw => ?_, fun hk => tsync_takes ht hk⟩
    obtain ⟨v, hv, hpair, hnet, hcore, hmem⟩ := eack_lets_go ht hk hw
    intro first
    refine ⟨v, hv, fun x => ?_, fun h => ?_, fun h => ?_, hnet, hcore, hmem⟩
    · rw [hpair]
      simp only [PairTx.letGo, List.mem_filter, bne_iff_ne]
      exact Iff.rfl
    · rw [hpair, PairTx.letGo, if_pos (beq_iff_eq.mpr h), if_pos (beq_iff_eq.mpr h)]
      exact ⟨rfl, rfl⟩
    · rw [hpair, PairTx.letGo, if_neg (fun h' => h (beq_iff_eq.mp h')), if_neg (fun h' => h (beq_iff_eq.mp h'))]
      exact ⟨rfl, rfl⟩
  · intro t due mine
    exact ⟨timer_other, fun h => timer_early h, fun h hd hf hx => timer_resends h hd hf hx, fun h hd hf he hc => timer_fails h hd hf he hc⟩
  · intro k link covered asks again dropped parsed
    refine ⟨fun h => ⟨flit_untrained h, replayRequest_untrained h, linkFailure_untrained h, fun a b c => sendPtp_untrained h a b c⟩,
      fun h => ⟨fun hc => flit_bad h hc, fun hc => flit_takes h hc, replayRequest_trained h, linkFailure_trained h,
        fun a b c => sendPtp_trained h a b c⟩, syncTick_sends, ?_, replayLimit_reached, replayLimit_below, retrainDone_up, retrainDone_idle⟩
    exact ⟨put_short, put_one, flush_idle, flush_fills⟩

end Sys2Proof.Proofs
end

section
/-! PROOFS. What the tape thread's reads leave of the core in focus (R363, R381). -/
namespace Sys2Proof.Proofs
open Sys2Proof Sys2Proof.Machine Sys2Proof.Laws
set_option Elab.async false

/-! ### What a read of a thread that is none of the core's contexts leaves -/

/-- A core without its translations and reports of mixed sizes, and without what the device may change of it. -/
def walkKept (c : Core) : Core := { kept c with tlb := [], ic := [], pMixed := [] }

/-- From `s` to `t` pages have been walked for the core in focus, and an engine of its has read memory. -/
def Walks (s t : State) : Prop := walkKept t.core = walkKept s.core

/-- An operation that has only done so wherever it answers. -/
def WalksAt {α : Type} (f : Op α) (s : State) : Prop := ∀ a t, f s = .ok a t → Walks s t

section Relation

variable {s₀ s t : State} {α β : Type}

theorem Walks.refl (s : State) : Walks s s := rfl

theorem Walks.trans (h : Walks s₀ s) (h' : Walks s t) : Walks s₀ t := Eq.trans h' h

theorem Walks.of_core (h : t.core = s.core) : Walks s t := by rw [Walks, h]

theorem Device.walks (h : Device s t) : Walks s t :=
  congrArg (fun c : Core => ({ c with tlb := [], ic := [], pMixed := [] } : Core)) h.core

/-- A part of the core that this leaves. -/
theorem Walks.part {α : Type} (h : Walks s t) (part : Core → α) (hp : ∀ c, part (walkKept c) = part c := by intro; rfl) :
    part t.core = part s.core := (hp _).symm.trans ((congrArg part h).trans (hp _))

theorem Walks.ctx (h : Walks s t) : t.ctx = s.ctx := h.part (fun c => c.ctxs[c.cur])

theorem Walks.stands (h : Walks s t) : Stands s t := stands_of_ctx (h.part Core.cur) h.ctx

theorem Walks.rc (h : Walks s t) (n : Fin 32) : t.rc n = s.rc n := congrArg (fun x : Ctx => x.rc n) h.ctx

theorem walksAt_pure (a : α) : WalksAt (pure a : Op α) s := fun _ _ h => by
  cases h
  exact .refl s

theorem walksAt_throw (e : Stop) : WalksAt (throw e : Op α) s := fun _ _ h => by cases h

theorem walksAt_raise {c : Cause} {v : Int} : WalksAt (raise c v : Op α) s := fun _ _ h => by cases h

theorem walksAt_bind {f : Op α} {k : α → Op β} (hf : WalksAt f s) (hk : ∀ a t, WalksAt (k a) t) : WalksAt (f >>= k) s := by
  intro b u h
  rw [run_bind] at h
  cases hs : f s with
  | ok a t =>
    rw [hs] at h
    exact (hf a t hs).trans (hk a t b u h)
  | error e t =>
    rw [hs] at h
    cases h

theorem walksAt_get_bind {k : State → Op β} (h : WalksAt (k s) s) : WalksAt (get >>= k) s := h

theorem walksAt_set_bind {k : PUnit → Op β} (ht : Walks s t) (h : WalksAt (k ⟨⟩) t) : WalksAt (set t >>= k) s :=
  fun b u hu => ht.trans (h b u hu)

theorem need_walks {b : Bool} {c : Cause} {v : Int} : WalksAt (need b c v) s := by
  cases b
  · exact walksAt_raise
  · exact walksAt_pure ()

theorem await_walks {b : Bool} : WalksAt (await b) s := by
  cases b
  · exact walksAt_throw _
  · exact walksAt_pure ()

end Relation

section Reading

variable {s t : State}

theorem leafOf_walks {asid root va : Nat} : Walks s (s.leafOf asid root va).1 := by
  unfold State.leafOf
  extract_lets fill
  have hfill {u : State} (hu : Walks s u) : Walks s (fill u).1 := by
    have hw : Walks u (u.walk asid root va).1 := (walk_device (Device.refl u)).walks
    unfold fill
    split <;> rename_i h <;> rw [h] at hw
    · exact (hu.trans hw).trans rfl
    · exact hu.trans hw
  clear_value fill
  split
  · exact hfill (.refl s)
  extract_lets held
  split
  · exact .refl s
  split
  · exact .of_core rfl
  · exact hfill (.of_core rfl)

theorem segOf_walks {w : Who} {k : Machine.Acc} {va len : Nat} : WalksAt (segOf w k va len) s := by
  refine walksAt_get_bind ?_
  split
  · split
    · exact walksAt_pure _
    · exact walksAt_raise
  · split
    · exact walksAt_raise
    · rename_i root _
      split
      rename_i t l he
      have ht : Walks s t := by
        have := leafOf_walks (s := s) (asid := w.asid) (root := root) (va := va)
        rwa [he] at this
      refine walksAt_set_bind ht ?_
      split
      · exact walksAt_raise
      · split
        · exact walksAt_pure _
        · exact walksAt_raise

theorem segsOf_walks {w : Who} {k : Machine.Acc} {ps : List (Nat × Nat)} : WalksAt (segsOf w k ps) s := by
  induction ps generalizing s with
  | nil => exact walksAt_pure _
  | cons p ps ih => exact walksAt_bind segOf_walks fun _ _ => walksAt_bind ih fun _ _ => walksAt_pure _

theorem errorNeed_walks {k : Machine.Acc} {gs : List Seg} : WalksAt (errorNeed k gs) s := by
  refine walksAt_get_bind ?_
  split
  · exact need_walks
  · exact walksAt_pure _

theorem capNeed_walks {c : Cap} {ps : List Nat} {a : Int} {n align : Nat} : WalksAt (capNeed c ps a n align) s := by
  unfold capNeed
  split
  · exact walksAt_raise
  · exact walksAt_pure _

theorem foldl_walks {β : Type} {f : State → β → State} (hf : ∀ s a, Walks s (f s a)) (xs : List β) : Walks s (xs.foldl f s) := by
  induction xs generalizing s with
  | nil => exact .refl s
  | cons x xs ih => exact (hf s x).trans ih

theorem reportMixed_walks {e va : Nat} : Walks s (s.reportMixed e va) := by
  have hr (c : Core) : walkKept (c.reportMixed va) = walkKept c := by
    unfold Core.reportMixed
    split <;> rfl
  unfold State.reportMixed State.mapCore
  split
  · split
    · exact hr s.core
    · exact .refl s
  · exact .refl s

theorem noteAs_walks {me : Nat × Nat} {va a n esz : Nat} {write : Bool} {at_ : Nat} : Walks s (s.noteAs me va a n esz write at_) := by
  have h : Walks s ((s.sizeReports me va a n esz write).foldl (fun s x => s.reportMixed x.1 x.2) s) :=
    foldl_walks (fun _ _ => reportMixed_walks) _
  exact h.trans (.of_core rfl)

theorem readAs_walks {me : Nat × Nat} {va a n esz : Nat} : Walks s (s.readAs me va a n esz).1 := by
  have hlearn : (s.learnSources me a n esz []).core = s.core := by
    unfold State.learnSources
    split <;> rfl
  have hbytes (u : State) : (u.bytesAt a n).1.core = u.core := by
    unfold State.bytesAt
    split <;> rfl
  unfold State.readAs State.readAt
  dsimp only
  refine Walks.trans ?_ noteAs_walks
  split
  · exact .of_core ((hbytes _).trans hlearn)
  · exact .of_core ((hbytes _).trans hlearn)

theorem writeAs_walks {me : Nat × Nat} {writer va a esz : Nat} {cached : Bool} {bs : List Byte} :
    Walks s (s.writeAs me writer va a esz cached bs) := by
  unfold State.writeAs
  dsimp only
  refine Walks.trans ?_ noteAs_walks
  split
  · exact (put_device (.refl s)).walks
  · exact (put_device (.refl { s with freeN := s.freeN + 1 })).walks

theorem dirty_walks (g : Seg) : Walks s (s.dirty g) := by
  unfold State.dirty
  split
  · exact .refl s
  · split
    · exact .refl s
    · exact ((pteSet_device (.refl s)).walks).trans rfl

/-- Bytes read by the tape thread. -/
theorem tapeRead_walks {c : Cap} {va n : Nat} {bs : List Byte} (h : s.tapeRead c va n = (t, some bs)) : Walks s t := by
  have hw : WalksAt (do
      let gs ← segsOf (s.tapeWho c) .load (pieces va n)
      errorNeed .load gs
      pure gs : Op (List Seg)) s :=
    walksAt_bind segsOf_walks fun _ _ => walksAt_bind errorNeed_walks fun _ _ => walksAt_pure _
  unfold State.tapeRead at h
  split at h
  · cases h
  · cases h
  case h_3 gs u hu =>
    cases h
    refine (hw gs u hu).trans ?_
    have hfold (xs : List Seg) : ∀ x : State × List Byte, Walks x.1 (xs.foldl (fun (x : State × List Byte) g =>
        let y := (x.1.l2Fetch g.cached g.place g.len).readAs (tapeThread x.1.core.id) g.va g.place g.len 8
        (y.1, x.2 ++ y.2)) x).1 := by
      induction xs with
      | nil => exact fun x => .refl x.1
      | cons g xs ih => exact fun x => (((l2Fetch_device (.refl x.1)).walks).trans readAs_walks).trans (ih _)
    exact hfold gs (u, [])

/-- One word read for playback. -/
def playWord (t : Tape) (off : Nat) (ws : List Word) (i : Nat) : Op (List Word) := do
  let s ← get
  let r := s.tapeRead t.region (t.at_ (off + 8 * i)) 8
  set r.1
  match r.2 with
  | some bs => pure (ws ++ [BitVec.ofNat 64 (leNat bs)])
  | none => tapeFull

theorem playWord_walks {t : Tape} {off i : Nat} {ws : List Word} : WalksAt (playWord t off ws i) s := by
  unfold playWord
  refine walksAt_get_bind ?_
  dsimp only
  cases hr : (s.tapeRead t.region (t.at_ (off + 8 * i)) 8).2 with
  | some bs => exact walksAt_set_bind (tapeRead_walks (Prod.ext rfl hr)) (walksAt_pure _)
  | none =>
    intro a u h
    cases h

theorem playWords_walks {off n : Nat} : WalksAt (playWords off n) s := by
  have hfold (t : Tape) (xs : List Nat) : ∀ (ws : List Word) (s : State), WalksAt (xs.foldlM (playWord t off) ws) s := by
    induction xs with
    | nil => exact fun ws s => walksAt_pure ws
    | cons x xs ih =>
      intro ws s
      rw [List.foldlM_cons]
      exact walksAt_bind playWord_walks fun ws' s' => ih ws' s'
  refine walksAt_get_bind ?_
  dsimp only
  split
  · exact walksAt_bind await_walks fun _ _ => hfold _ _ _ _
  · exact hfold _ _ _ _

theorem loadRecord_walks {t : Tape} : WalksAt (loadRecord t) s := by
  have hbad {α : Type} {typ n : Nat} {u : State} : WalksAt (diverge typ true true n : Op α) u := walksAt_raise
  refine walksAt_bind playWords_walks fun tail u => ?_
  dsimp only
  split
  · exact hbad
  · refine walksAt_bind playWords_walks fun ws v => ?_
    split
    · exact hbad
    · split
      · exact walksAt_pure _
      · exact walksAt_pure _
      · split
        · exact hbad
        · exact walksAt_pure _
      · exact walksAt_pure _
      · exact walksAt_pure _

/-- The next item looked for. -/
theorem nextItem_walks (n : Nat) : ∀ {t : Tape} {s : State}, WalksAt (nextItem t n) s := by
  induction n with
  | zero => exact walksAt_pure _
  | succ n ih =>
    intro t s
    unfold nextItem
    split
    · split
      · exact walksAt_pure _
      · exact walksAt_pure _
    · extract_lets go
      have hgo (early : Bool) (u : State) : WalksAt (go early) u := by
        unfold go
        split
        · exact walksAt_pure _
        · split
          · exact walksAt_pure _
          · exact walksAt_bind loadRecord_walks fun _ _ => ih
      clear_value go
      split
      · exact walksAt_bind (walksAt_pure _) hgo
      · split
        · exact walksAt_bind (walksAt_pure _) hgo
        · exact walksAt_bind playWords_walks fun _ _ => walksAt_bind (walksAt_pure _) hgo

theorem spillNeed_walks {root : Option Nat} {ps : List (Nat × Nat)} : WalksAt (spillNeed root ps) s := by
  induction ps generalizing s with
  | nil => exact walksAt_pure _
  | cons p ps ih =>
    unfold spillNeed
    refine walksAt_get_bind ?_
    split
    · exact walksAt_bind need_walks fun _ _ => ih
    · exact ih

/-- The checks of a tape's regions. -/
theorem regionNeed_walks {a : Cap} {b : Option Cap} {ps : List Nat} {k : Machine.Acc} : WalksAt (regionNeed a b ps k) s := by
  unfold regionNeed
  refine walksAt_bind capNeed_walks fun _ u => ?_
  cases b with
  | none =>
    dsimp only
    refine walksAt_bind need_walks fun _ u => walksAt_get_bind ?_
    exact walksAt_bind segsOf_walks fun _ _ => walksAt_pure _
  | some b =>
    dsimp only
    refine walksAt_bind capNeed_walks fun _ u => ?_
    refine walksAt_bind need_walks fun _ u => walksAt_bind need_walks fun _ u => walksAt_get_bind ?_
    exact walksAt_bind segsOf_walks fun _ _ => walksAt_bind need_walks fun _ _ => spillNeed_walks

/-! ### Which core is in focus while its tape is read and written -/

theorem tapeRead_id (c : Cap) (va n : Nat) : (s.tapeRead c va n).1.core.id = s.core.id := by
  have hl : LoadsAt (do
      let gs ← segsOf (s.tapeWho c) .load (pieces va n)
      errorNeed .load gs
      pure gs : Op (List Seg)) s :=
    loadsAt_bind segsOf_loads fun _ _ => loadsAt_bind errorNeed_loads fun _ _ => loadsAt_pure _
  cases hr : (s.tapeRead c va n).2 with
  | some bs => exact (tapeRead_walks (Prod.ext rfl hr)).part Core.id
  | none =>
    unfold LoadsAt at hl
    unfold State.tapeRead at hr ⊢
    split
    case h_1 u hu =>
      rw [hu] at hl
      exact hl.part Core.id
    case h_2 u hn hu =>
      rw [hu] at hl
      exact hl.part Core.id
    case h_3 gs u hu =>
      rw [hu] at hr
      cases hr

/-- A part of the core that reads of memory and the tape have nothing to do with. -/
theorem tapeWrite_part {α : Type} (part : Core → α) (hw : ∀ c, part (walkKept c) = part c := by intro; rfl)
    (hr : ∀ c, part (loadKept c) = part c := by intro; rfl) (ht : ∀ (c : Core) (T : Tape), part { c with tape := T } = part c := by intros; rfl)
    (c : Cap) (va : Nat) (bs : List Byte) : part (s.tapeWrite c va bs).core = part s.core := by
  have hl := segsOf_loads (s := s) (w := s.tapeWho c) (k := .store) (ps := pieces va bs.length)
  unfold LoadsAt at hl
  unfold State.tapeWrite
  split
  case h_1 u hu =>
    rw [hu] at hl
    exact (ht _ _).trans (hl.part part hr)
  case h_2 u hn hu =>
    rw [hu] at hl
    exact (ht _ _).trans (hl.part part hr)
  case h_3 gs u hu =>
    rw [hu] at hl
    have hfold (xs : List Seg) : ∀ x : State × List Byte, Walks x.1 (xs.foldl (fun (x : State × List Byte) g =>
        ((x.1.dirty g).writeAs (tapeThread x.1.core.id) x.1.myEid g.va g.place 8 g.cached (x.2.take g.len), x.2.drop g.len)) x).1 := by
      induction xs with
      | nil => exact fun x => .refl x.1
      | cons g xs ih => exact fun x => ((dirty_walks g).trans writeAs_walks).trans (ih _)
    exact ((hfold gs (u, bs)).part part hw).trans (hl.part part hr)

theorem tapeWrite_id (c : Cap) (va : Nat) (bs : List Byte) : (s.tapeWrite c va bs).core.id = s.core.id :=
  tapeWrite_part Core.id (c := c) (va := va) (bs := bs)

theorem tapeWrite_cur (c : Cap) (va : Nat) (bs : List Byte) : (s.tapeWrite c va bs).core.cur = s.core.cur :=
  tapeWrite_part Core.cur (c := c) (va := va) (bs := bs)

theorem spillChunk_id (c n : Nat) : (s.spillChunk c n).core.id = s.core.id := by
  unfold State.spillChunk
  dsimp only
  split
  · rfl
  · split
    · rfl
    · split
      case h_1 u bs hu =>
        have hid := tapeRead_id (s := s) s.core.tape.region (s.core.tape.at_ (4096 * c)) n
        rw [hu] at hid
        exact (tapeWrite_id _ _ _).trans hid
      case h_2 u hu =>
        have hid := tapeRead_id (s := s) s.core.tape.region (s.core.tape.at_ (4096 * c)) n
        rw [hu] at hid
        exact hid

end Reading

end Sys2Proof.Proofs
end

section
/-! PROOFS. Opening, ending and playing the tape (R362, R363, R369, R372, R375 to R378, R380). -/
namespace Sys2Proof.Proofs
open Sys2Proof Sys2Proof.Machine Sys2Proof.Laws
set_option Elab.async false

/-! ### The tape of a core -/

section Taping

variable {s t u v : State}

/-- The core's tape has become this. -/
def withTape (s : State) (t : Tape) : State := { s with core := { s.core with tape := t } }

theorem withTape_ctx (T : Tape) : (withTape s T).ctx = s.ctx := rfl

/-- What an instruction leaves that has only had the tape thread read, written one register and set the tape. -/
structure TapeGoes (s v : State) : Prop where
  stands : Stands s v
  evc    : v.core.evc = s.core.evc
  rc     : ∀ n, v.rc n = s.rc n

theorem TapeGoes.refl (s : State) : TapeGoes s s := ⟨.refl s, rfl, fun _ => rfl⟩

theorem Walks.tapeGoes (h : Walks s t) : TapeGoes s t := ⟨h.stands, h.part Core.evc, h.rc⟩

/-- It retires, with its tape set. -/
theorem tapeSet_finish (st : Nat) (T : Tape) (hs : Stands s v) (he : v.core.evc = s.core.evc) :
    Advanced s ((withTape v T).finish st s.ctx.loop.lact) ∧ ((withTape v T).finish st s.ctx.loop.lact).core.tape = T ∧
      ((withTape v T).finish st s.ctx.loop.lact).mem = v.mem := by
  have hw : Stands s (withTape v T) := hs.trans (stands_of_ctx rfl rfl)
  refine ⟨advanced_finish hw st he, ?_, ?_⟩
  · rw [finish_core_eq]
    rfl
  · rw [finish_mem]
    rfl

/-- It retires, with its tape and one register set. -/
theorem tapeReg_finish (st : Nat) (d : Fin 32) (x : Word) (T : Tape) (h : TapeGoes s v) :
    Advanced s ((withTape (v.wx d x) T).finish st s.ctx.loop.lact) ∧
      WroteC s ((withTape (v.wx d x) T).finish st s.ctx.loop.lact) d (scalar x) ∧
      ((withTape (v.wx d x) T).finish st s.ctx.loop.lact).core.tape = T ∧
      ((withTape (v.wx d x) T).finish st s.ctx.loop.lact).mem = v.mem := by
  have hw : WroteC s (withTape (v.wx d x) T) d (scalar x) := wroteC_wc d _ h.rc
  obtain ⟨h1, h2, h3⟩ := tapeSet_finish st T (h.stands.trans (stands_wc v d (scalar x))) h.evc
  exact ⟨h1, wroteC_finish _ _ hw, h2, h3⟩

theorem run_legal_false {b : Bool} (h : b = false) : legal b s = .error (.trap s.illegal) s := by
  rw [run_legal, h]
  rfl

end Taping

/-! ### TBEGIN and TPLAY (R362, R372, R376) -/

section Opening

variable {s s1 : State} (st : Fin 8) {a b : Fin 32}

/-- The spill region that an operand names; none for c0. -/
def spillOf (s : State) (b : Fin 32) : Option Cap := if b = 0 then none else some (s.rc b)

/-- The fields of TBEGIN that are ILLEGAL at decoding. -/
def tbeginIll (s : State) : Bool := !hiClear (s.ro 2) 1 || ((s.ro 2).getLsbD 0 && (s.ro 3).toNat % 8 ≠ 0)

/-- The tape that TBEGIN opens. -/
def begunTape (s : State) (a b : Fin 32) : Tape :=
  { st := if (s.ro 2).getLsbD 0 then .check else .recording, region := s.rc a, spill := spillOf s b
    cap := regionCap (s.rc a) (spillOf s b), len := if (s.ro 2).getLsbD 0 then (s.ro 3).toNat else 0, asid := s.asid }

/-- The tape that TPLAY opens. -/
def playedTape (s : State) (a b : Fin 32) : Tape :=
  { st := .play, region := s.rc a, spill := spillOf s b, cap := regionCap (s.rc a) (spillOf s b), len := (s.ro 2).toNat
    cursor := (s.ro 2).toNat, fetched := ((s.ro 2).toNat + 4095) / 4096, asid := s.asid }

/-- A tape opened once its regions pass: the tape thread starts with what its issuer knows. -/
def openTape (ok : Bool) (need : Op Unit) (T : Tape) : Op Unit := do
  legal ok
  need
  upd fun s => (withTape s T).edge s.thread (tapeThread s.core.id)

/-- What TBEGIN and TPLAY ask of the channel, the regions and the length. -/
def opensOk (s : State) (a b : Fin 32) (lenOk : Bool) : Bool := s.core.tape.atRest && regionsOk (s.rc a) (spillOf s b) && lenOk

theorem tbegin_eq : execTbegin st a b s = issue { st := st.val, reads := [rdC a, rdC b], ill := tbeginIll s } (unlessAhead do
    let s ← get
    openTape (opensOk s a b (!(s.ro 2).getLsbD 0 || decide ((s.ro 3).toNat ≤ regionCap (s.rc a) (spillOf s b))))
      (regionNeed (s.rc a) (spillOf s b) [pL, pS, pT] (if (s.ro 2).getLsbD 0 then .load else .store)) (begunTape s a b)) s := rfl

theorem tplay_eq : execTplay st a b s =
    issue { st := st.val, reads := [rdC a, rdC b], ill := (s.ro 2).toNat % 8 ≠ 0 } (unlessAhead do
      let s ← get
      openTape (opensOk s a b (decide ((s.ro 2).toNat ≤ regionCap (s.rc a) (spillOf s b))))
        (regionNeed (s.rc a) (spillOf s b) [pL, pT] .load) (playedTape s a b)) s := rfl

theorem getLsbD_zero (w : Word) : w.getLsbD 0 = decide (w.toNat % 2 = 1) := by
  rw [BitVec.getLsbD, Nat.testBit_zero]

theorem tbeginIll_iff : tbeginIll s = true ↔ 2 ≤ (s.ro 2).toNat ∨ ((s.ro 2).toNat = 1 ∧ (s.ro 3).toNat % 8 ≠ 0) := by
  have h0 := hiClear_iff (s.ro 2) 1
  unfold tbeginIll
  rw [getLsbD_zero, Bool.or_eq_true, Bool.not_eq_true', Bool.and_eq_true, decide_eq_true_eq, decide_eq_true_eq, hiClear_false_iff]
  omega

theorem atRest_iff : s.core.tape.atRest = true ↔ s.core.tape.st = .idle ∨ s.core.tape.st = .ended := by
  unfold Tape.atRest
  rw [Bool.or_eq_true, beq_iff_eq, beq_iff_eq]

/-- A tape that may be opened. -/
theorem opens_retires {g : Gate} {body : Op Unit} {ok : Bool} {need : Op Unit} {T : Tape} (hi : s.CanIssue g.reads) (hill : g.ill = false)
    (hacc : g.acc = none) (hah : s.ctx.ahead = false) (hbody : body s = openTape ok need T s) (hok : ok = true)
    (hn : need s = .ok () s1) (hw : Walks s s1) :
    ∃ t, issue g (unlessAhead body) s = .next t ∧ Advanced s t ∧ (∀ k, t.rc k = s.rc k) ∧ t.core.tape = T ∧ t.mem = s1.mem := by
  obtain ⟨v, hv⟩ : ∃ v, v = s1.edge s1.thread (tapeThread s1.core.id) := ⟨_, rfl⟩
  have hvs : Stands s v := by
    rw [hv]
    exact hw.stands.trans (stands_of_ctx rfl rfl)
  have hve : v.core.evc = s.core.evc := by
    rw [hv]
    exact hw.part Core.evc
  have hexec : issue g (unlessAhead body) s = s.retire g.st (withTape v T) := by
    refine issue_retires hi hill hacc ?_
    rw [unlessAhead_runs hah, hbody, openTape, run_bind, run_legal_true hok, andThen, run_bind, hn, andThen, hv]
    rfl
  obtain ⟨h1, h2, h3⟩ := tapeSet_finish g.st T hvs hve
  refine ⟨_, hexec, h1, fun k => ?_, h2, h3.trans ?_⟩
  · rw [rc_finish]
    refine Eq.trans ?_ (hw.rc k)
    rw [hv]
    rfl
  · rw [hv]
    rfl

/-- A tape that may not be opened. -/
theorem opens_illegal {g : Gate} {body : Op Unit} {ok : Bool} {need : Op Unit} {T : Tape} (hi : s.CanIssue g.reads) (hacc : g.acc = none)
    (hah : s.ctx.ahead = false) (hbody : body s = openTape ok need T s) (hok : ok = false) :
    Traps s (issue g (unlessAhead body) s) .illegal (s.ctx.ir.zeroExtend 80) := by
  cases hill : g.ill with
  | true => exact issue_illegal _ hi.notStopped hill
  | false =>
    refine issue_traps (t := s) hi hill hacc ?_
    rw [unlessAhead_runs hah, hbody, openTape, run_bind, run_legal_false hok]
    rfl

theorem opensOk_resting {lenOk : Bool} (h : s.core.tape.st ≠ .idle) (h' : s.core.tape.st ≠ .ended) : opensOk s a b lenOk = false := by
  have : s.core.tape.atRest = false := by
    rw [← Bool.not_eq_true, atRest_iff]
    tauto
  rw [opensOk, this, Bool.false_and, Bool.false_and]

theorem tape_busy (hi : s.CanIssue [rdC a, rdC b]) (hah : s.ctx.ahead = false) (h : s.core.tape.st ≠ .idle)
    (h' : s.core.tape.st ≠ .ended) : Traps s (execTbegin st a b s) .illegal (s.ctx.ir.zeroExtend 80) ∧
      Traps s (execTplay st a b s) .illegal (s.ctx.ir.zeroExtend 80) := by
  refine ⟨?_, ?_⟩
  · rw [tbegin_eq]
    exact opens_illegal (g := { st := st.val, reads := [rdC a, rdC b], ill := tbeginIll s }) hi rfl hah rfl (opensOk_resting h h')
  · rw [tplay_eq]
    exact opens_illegal (g := { st := st.val, reads := [rdC a, rdC b], ill := (s.ro 2).toNat % 8 ≠ 0 }) hi rfl hah rfl (opensOk_resting h h')

theorem opensOk_true {lenOk : Bool} (hr : s.core.tape.st = .idle ∨ s.core.tape.st = .ended)
    (hok : regionsOk (s.rc a) (spillOf s b) = true) (hl : lenOk = true) : opensOk s a b lenOk = true := by
  rw [opensOk, atRest_iff.mpr hr, hok, hl]
  rfl

theorem tbegin_opens (hi : s.CanIssue [rdC a, rdC b]) (hah : s.ctx.ahead = false) (hill : tbeginIll s = false)
    (hr : s.core.tape.st = .idle ∨ s.core.tape.st = .ended) (hok : regionsOk (s.rc a) (spillOf s b) = true)
    (hlen : (!(s.ro 2).getLsbD 0 || decide ((s.ro 3).toNat ≤ regionCap (s.rc a) (spillOf s b))) = true)
    (hn : regionNeed (s.rc a) (spillOf s b) [pL, pS, pT] (if (s.ro 2).getLsbD 0 then .load else .store) s = .ok () s1) :
    ∃ t, execTbegin st a b s = .next t ∧ Advanced s t ∧ (∀ k, t.rc k = s.rc k) ∧ t.core.tape = begunTape s a b ∧ t.mem = s1.mem := by
  rw [tbegin_eq]
  exact opens_retires (g := { st := st.val, reads := [rdC a, rdC b], ill := tbeginIll s }) hi hill rfl hah rfl
    (opensOk_true hr hok hlen) hn (regionNeed_walks _ _ hn)

theorem tbegin_records (hi : s.CanIssue [rdC a, rdC b]) (hah : s.ctx.ahead = false)
    (hr : s.core.tape.st = .idle ∨ s.core.tape.st = .ended) (hok : regionsOk (s.rc a) (spillOf s b) = true)
    (h2 : (s.ro 2).toNat = 0) (hn : regionNeed (s.rc a) (spillOf s b) [pL, pS, pT] .store s = .ok () s1) :
    ∃ t, execTbegin st a b s = .next t ∧ Advanced s t ∧ (∀ k, t.rc k = s.rc k) ∧
      t.core.tape = { st := .recording, region := s.rc a, spill := spillOf s b, cap := regionCap (s.rc a) (spillOf s b),
                      asid := s.asid } ∧ ∀ p, memGet t.mem p = memGet s1.mem p := by
  have hb : (s.ro 2).getLsbD 0 = false := by
    rw [getLsbD_zero, h2]
    rfl
  have hill : tbeginIll s = false := by
    rw [← Bool.not_eq_true, tbeginIll_iff]
    omega
  obtain ⟨t, ht, h1, h3, h4, h5⟩ := tbegin_opens st hi hah hill hr hok (by rw [hb]; rfl) (by rw [hb]; exact hn)
  refine ⟨t, ht, h1, h3, h4.trans ?_, fun p => by rw [h5]⟩
  rw [begunTape, hb]
  rfl

theorem tbegin_checks (hi : s.CanIssue [rdC a, rdC b]) (hah : s.ctx.ahead = false)
    (hr : s.core.tape.st = .idle ∨ s.core.tape.st = .ended) (hok : regionsOk (s.rc a) (spillOf s b) = true)
    (h2 : (s.ro 2).toNat = 1) (h3 : (s.ro 3).toNat % 8 = 0) (hlen : (s.ro 3).toNat ≤ regionCap (s.rc a) (spillOf s b))
    (hn : regionNeed (s.rc a) (spillOf s b) [pL, pS, pT] .load s = .ok () s1) :
    ∃ t, execTbegin st a b s = .next t ∧ Advanced s t ∧ (∀ k, t.rc k = s.rc k) ∧
      t.core.tape = { st := .check, region := s.rc a, spill := spillOf s b, cap := regionCap (s.rc a) (spillOf s b),
                      len := (s.ro 3).toNat, asid := s.asid } := by
  have hb : (s.ro 2).getLsbD 0 = true := by
    rw [getLsbD_zero, h2]
    rfl
  have hill : tbeginIll s = false := by
    rw [← Bool.not_eq_true, tbeginIll_iff]
    omega
  obtain ⟨t, ht, h1, h3, h4, -⟩ := tbegin_opens st hi hah hill hr hok (by rw [hb, decide_eq_true hlen]; rfl) (by rw [hb]; exact hn)
  refine ⟨t, ht, h1, h3, h4.trans ?_⟩
  rw [begunTape, hb]
  rfl

theorem tplay_opens (hi : s.CanIssue [rdC a, rdC b]) (hah : s.ctx.ahead = false)
    (hr : s.core.tape.st = .idle ∨ s.core.tape.st = .ended) (hok : regionsOk (s.rc a) (spillOf s b) = true)
    (h2 : (s.ro 2).toNat % 8 = 0) (hlen : (s.ro 2).toNat ≤ regionCap (s.rc a) (spillOf s b))
    (hn : regionNeed (s.rc a) (spillOf s b) [pL, pT] .load s = .ok () s1) :
    ∃ t, execTplay st a b s = .next t ∧ Advanced s t ∧ (∀ k, t.rc k = s.rc k) ∧ t.core.tape = playedTape s a b ∧
      t.mem = s1.mem := by
  rw [tplay_eq]
  exact opens_retires (g := { st := st.val, reads := [rdC a, rdC b], ill := (s.ro 2).toNat % 8 ≠ 0 }) hi
    (decide_eq_false (not_not.mpr h2)) rfl hah rfl (opensOk_true hr hok (decide_eq_true hlen)) hn (regionNeed_walks _ _ hn)

end Opening

/-! ### TEND and TSTAT (R375, R380) -/

section Ending

variable {s s1 : State} (st : Fin 8) (d : Fin 32)

/-- What TEND does once it need not wait: its return is the join of the tape thread (R381). -/
def endTape (t : Tape) (d : Fin 32) (s : State) : Op Unit :=
  match t.st with
  | .recording =>
    let s := s.endRecording.edge (tapeThread s.core.id) s.thread
    if s.core.tape.st == .broken then set ((s.tapeTo .idle).wx d (BitVec.allOnes 64))
    else set ((s.tapeTo .ended).wx d (BitVec.ofNat 64 s.core.tape.p))
  | .check => set ((s.tapeTo .ended).wx d (BitVec.ofNat 64 (t.chkn + s.bitsAhead t.fwd t.len (t.len / 16 + 1))))
  | .play => set ((s.tapeTo .idle).wx d (BitVec.ofNat 64 t.cursor))
  | _ => set ((s.tapeTo .idle).wx d (BitVec.allOnes 64))

theorem tend_eq : execTend st d s = issue { st := st.val, noint := true } (unlessAhead do
    let s ← get
    legal (!s.core.tape.atRest)
    tendWait
    endTape s.core.tape d (s.edge (tapeThread s.core.id) s.thread)) s := rfl

theorem tend_illegal (hi : s.CanIssue []) (hah : s.ctx.ahead = false) (h : s.core.tape.st = .idle ∨ s.core.tape.st = .ended) :
    Traps s (execTend st d s) .illegal (s.ctx.ir.zeroExtend 80) := by
  rw [tend_eq]
  refine issue_traps (t := s) (g := { st := st.val, noint := true }) hi rfl rfl ?_
  rw [unlessAhead_runs hah, run_bind, get_run, andThen, run_bind, run_legal_false (by rw [atRest_iff.mpr h]; rfl)]
  rfl

theorem notResting (h : s.core.tape.st ≠ .idle) (h' : s.core.tape.st ≠ .ended) : (!s.core.tape.atRest) = true := by
  have : s.core.tape.atRest = false := by
    rw [← Bool.not_eq_true, atRest_iff]
    tauto
  rw [this]
  rfl

theorem tendWait_passes (h : s.tapeHeld = false) : tendWait s = .ok () s := by
  rw [tendWait, run_bind, get_run, andThen, h]
  rfl

theorem tend_waits (hi : s.CanIssue []) (hah : s.ctx.ahead = false) (hh : s.tapeHeld = true) (h : s.core.tape.st ≠ .idle)
    (h' : s.core.tape.st ≠ .ended) : execTend st d s = .next (s.setCtx { s.ctx with wait := .ending }).block := by
  rw [tend_eq]
  refine issue_waits (g := { st := st.val, noint := true }) hi rfl rfl ?_
  rw [unlessAhead_runs hah, run_bind, get_run, andThen, run_bind, run_legal_true (notResting h h'), andThen, run_bind, tendWait, run_bind,
    get_run, andThen, hh]
  rfl

theorem tend_ends {t : State} (hi : s.CanIssue []) (hah : s.ctx.ahead = false) (hh : s.tapeHeld = false) (h : s.core.tape.st ≠ .idle)
    (h' : s.core.tape.st ≠ .ended) (ht : endTape s.core.tape d (s.edge (tapeThread s.core.id) s.thread) s = .ok () t) :
    execTend st d s = s.retire st.val t := by
  rw [tend_eq]
  refine issue_retires (g := { st := st.val, noint := true }) hi rfl rfl ?_
  rw [unlessAhead_runs hah, run_bind, get_run, andThen, run_bind, run_legal_true (notResting h h'), andThen, run_bind, tendWait_passes hh,
    andThen, ht]

/-- A TEND that leaves a state and one word. -/
theorem tend_leaves {v : State} {st' : TapeSt} {x : Word} (hi : s.CanIssue []) (hah : s.ctx.ahead = false) (hh : s.tapeHeld = false)
    (h : s.core.tape.st ≠ .idle) (h' : s.core.tape.st ≠ .ended) (hv : TapeGoes s v) (hm : v.mem = s.mem)
    (ht : endTape s.core.tape d (s.edge (tapeThread s.core.id) s.thread) s = .ok () ((v.tapeTo st').wx d x)) :
    ∃ t, execTend st d s = .next t ∧ Advanced s t ∧ WroteC s t d (scalar x) ∧ t.core.tape = { st := st' } ∧ t.mem = s.mem := by
  obtain ⟨h1, h2, h3, h4⟩ := tapeReg_finish st.val d x ({ st := st' } : Tape) hv
  exact ⟨_, (tend_ends st d hi hah hh h h' ht).trans rfl, h1, h2, h3, h4.trans hm⟩

theorem edge_tapeGoes (a b : Nat × Nat) (h : TapeGoes s s1) : TapeGoes s (s1.edge a b) :=
  ⟨h.stands.trans (stands_of_ctx rfl rfl), h.evc, h.rc⟩

/-- Nothing is open or staged, so nothing is written. -/
theorem endRecording_empty (hc : s.core.tape.cur = .none) (hb : s.core.tape.bn = 0) (hs : s.core.tape.spill = none) :
    ∃ T : Tape, s.endRecording = withTape s T ∧ T.p = s.core.tape.p ∧ T.st = s.core.tape.st := by
  have hclose : TapeOut.bitsOut (TapeOut.close (s.core.tape, [])) = ({ s.core.tape with p := s.core.tape.p + 8 * 0, cur := .none }, []) := by
    have h1 : TapeOut.close (s.core.tape, []) = ({ s.core.tape with p := s.core.tape.p + 8 * 0, cur := .none }, []) := by
      unfold TapeOut.close
      rw [hc]
      rfl
    rw [h1, TapeOut.bitsOut, if_pos hb]
  obtain ⟨T, hT⟩ : ∃ T : Tape, T = { s.core.tape with p := s.core.tape.p + 8 * 0, cur := .none, staged := s.core.tape.staged ++ [] } :=
    ⟨_, rfl⟩
  have hdone : s.tapeDone (TapeOut.bitsOut (TapeOut.close (s.core.tape, []))) = withTape s T := by
    rw [hclose, hT]
    unfold State.tapeDone
    dsimp only
    rw [hs]
    rfl
  refine ⟨T, ?_, by rw [hT]; rfl, by rw [hT]⟩
  have hno : ¬ (withTape s T).core.tape.spill.isSome = true := by
    show ¬ T.spill.isSome = true
    rw [hT]
    dsimp only
    rw [hs]
    exact Bool.false_ne_true
  unfold State.endRecording
  rw [hdone]
  exact if_neg hno

theorem tend_plays (hi : s.CanIssue []) (hah : s.ctx.ahead = false) (hh : s.tapeHeld = false) (hp : s.core.tape.st = .play) :
    ∃ t, execTend st d s = .next t ∧ Advanced s t ∧ WroteC s t d (scalar (BitVec.ofNat 64 s.core.tape.cursor)) ∧
      t.core.tape = { st := .idle } ∧ t.mem = s.mem :=
  tend_leaves st d hi hah hh (by rw [hp]; decide) (by rw [hp]; decide) (edge_tapeGoes _ _ (.refl s)) rfl (by rw [endTape, hp]; rfl)

theorem tend_broken (hi : s.CanIssue []) (hah : s.ctx.ahead = false) (hh : s.tapeHeld = false) (hp : s.core.tape.st = .broken) :
    ∃ t, execTend st d s = .next t ∧ Advanced s t ∧ WroteC s t d (scalar (BitVec.allOnes 64)) ∧
      t.core.tape = { st := .idle } ∧ t.mem = s.mem :=
  tend_leaves st d hi hah hh (by rw [hp]; decide) (by rw [hp]; decide) (edge_tapeGoes _ _ (.refl s)) rfl (by rw [endTape, hp]; rfl)

theorem tend_checked (hi : s.CanIssue []) (hah : s.ctx.ahead = false) (hh : s.tapeHeld = false) (hp : s.core.tape.st = .check)
    (hl : s.core.tape.len ≤ s.core.tape.fwd) :
    ∃ t, execTend st d s = .next t ∧ Advanced s t ∧ WroteC s t d (scalar (BitVec.ofNat 64 s.core.tape.chkn)) ∧
      t.core.tape = { st := .ended } ∧ t.mem = s.mem := by
  have hahead (u : State) : u.bitsAhead s.core.tape.fwd s.core.tape.len (s.core.tape.len / 16 + 1) = 0 := by
    rw [State.bitsAhead, if_pos hl]
  exact tend_leaves st d hi hah hh (by rw [hp]; decide) (by rw [hp]; decide) (edge_tapeGoes _ _ (.refl s)) rfl
    (by rw [endTape, hp]; dsimp only; rw [hahead]; rfl)

theorem tend_records (hi : s.CanIssue []) (hah : s.ctx.ahead = false) (hh : s.tapeHeld = false) (hp : s.core.tape.st = .recording)
    (hc : s.core.tape.cur = .none) (hb : s.core.tape.bn = 0) (hs : s.core.tape.spill = none) :
    ∃ t, execTend st d s = .next t ∧ Advanced s t ∧ WroteC s t d (scalar (BitVec.ofNat 64 s.core.tape.p)) ∧
      t.core.tape = { st := .ended } ∧ t.mem = s.mem := by
  obtain ⟨u, hu⟩ : ∃ u, u = s.edge (tapeThread s.core.id) s.thread := ⟨_, rfl⟩
  have hut : u.core = s.core := by
    rw [hu]
    rfl
  obtain ⟨T, hT, hTp, hTs⟩ := endRecording_empty (s := u) (by rw [hut]; exact hc) (by rw [hut]; exact hb) (by rw [hut]; exact hs)
  rw [hut] at hTp hTs
  have hgo : TapeGoes s (withTape u T) := by
    rw [hu]
    exact ⟨stands_of_ctx rfl rfl, rfl, fun _ => rfl⟩
  have hmem : (withTape u T).mem = s.mem := by
    rw [hu]
    rfl
  refine tend_leaves st d (v := (withTape u T).edge (tapeThread u.core.id) u.thread) hi hah hh (by rw [hp]; decide) (by rw [hp]; decide)
    (edge_tapeGoes _ _ hgo) hmem ?_
  have hne : ¬ (T.st == .broken) = true := by
    rw [hTs, hp]
    decide
  rw [endTape, hp, ← hu]
  dsimp only
  rw [hT]
  show (if T.st == .broken then _ else (set _ : Op Unit)) s = _
  rw [if_neg hne, ← hTp]
  rfl

/-- TEND of a recording. -/
theorem tend_recording (hi : s.CanIssue []) (hah : s.ctx.ahead = false) (hh : s.tapeHeld = false) (hp : s.core.tape.st = .recording) :
    let u := (s.edge (tapeThread s.core.id) s.thread).endRecording.edge (tapeThread s.core.id) s.thread
    (u.core.tape.st = .broken → execTend st d s = s.retire st.val ((u.tapeTo .idle).wx d (BitVec.allOnes 64))) ∧
    (u.core.tape.st ≠ .broken → execTend st d s = s.retire st.val ((u.tapeTo .ended).wx d (BitVec.ofNat 64 u.core.tape.p))) := by
  intro u
  have hrun : endTape s.core.tape d (s.edge (tapeThread s.core.id) s.thread) s =
      (if u.core.tape.st == .broken then set ((u.tapeTo .idle).wx d (BitVec.allOnes 64))
        else set ((u.tapeTo .ended).wx d (BitVec.ofNat 64 u.core.tape.p)) : Op Unit) s := by
    rw [endTape, hp]
    rfl
  refine ⟨fun h => ?_, fun h => ?_⟩
  · exact tend_ends st d hi hah hh (by rw [hp]; decide) (by rw [hp]; decide) (by rw [hrun, if_pos (beq_iff_eq.mpr h)]; rfl)
  · exact tend_ends st d hi hah hh (by rw [hp]; decide) (by rw [hp]; decide) (by rw [hrun, if_neg (fun h' => h (beq_iff_eq.mp h'))]; rfl)

/-- The word that TSTAT writes. -/
theorem tapeStat_eq {n : Nat} (hn : n ≤ 3) : s.tapeStat n =
    if n = 0 then s.core.tape.stateWord
    else if n = 1 then BitVec.ofNat 64 (if s.core.tape.st = .recording then s.core.tape.p else if s.core.tape.st = .check then s.core.tape.fwd
      else if s.core.tape.st = .play then s.core.tape.cursor else 0)
    else if n = 2 then BitVec.ofNat 64 (4096 * s.core.tape.staged.length)
    else BitVec.ofNat 64 (if s.core.tape.st = .recording then s.core.tape.bits else if s.core.tape.st = .check then s.core.tape.chkd
      else if s.core.tape.st = .play then s.core.tape.r + s.bitsBefore s.core.tape.cursor (s.core.tape.cursor / 16 + 1) else 0) := by
  unfold State.tapeStat
  dsimp only
  match n, hn with
  | 0, _ => rfl
  | 1, _ => cases s.core.tape.st <;> rfl
  | 2, _ => rfl
  | 3, _ => cases s.core.tape.st <;> rfl

theorem tstat_writes {n : Nat} (hi : s.CanIssue []) (hah : s.ctx.ahead = false) (hn : n ≤ 3) :
    WritesC s (execTstat st d n s) d (scalar (s.tapeStat n)) := by
  refine writesC_of (st := st.val) ?_
  unfold execTstat
  refine issue_retires (g := { st := st.val, ill := decide (3 < n) }) hi (decide_eq_false (by omega)) rfl ?_
  rw [unlessAhead_runs hah]
  rfl

end Ending

end Sys2Proof.Proofs
end

section
/-! PROOFS. Pops of the tape and its engine (R363, R369, R376 to R378). -/
namespace Sys2Proof.Proofs
open Sys2Proof Sys2Proof.Machine Sys2Proof.Laws
set_option Elab.async false

/-! ### Pops (R369, R377, R378) -/

section Popping

variable {s s1 s2 : State} (st : Fin 8) (d : Fin 32) {f : Item → Op Bool} {it : Item} {T' : Tape} {at_ n : Nat} {g : Gate}

theorem tapeWait_passes (h : s.tapeHeld = false) : tapeWait s = .ok () s := by
  rw [tapeWait, run_bind, get_run, andThen, h]
  rfl

theorem tapeWait_waits (h : s.tapeHeld = true) : tapeWait s = .error .wait s := by
  rw [tapeWait, run_bind, get_run, andThen, h]
  rfl

/-- A pop in playback: its item, if it matches, is consumed. -/
theorem pop_plays (hh : s.tapeHeld = false) (hp : s.core.tape.st = .play) (hn : nextItem s.core.tape 4 s = .ok (it, T', at_) s1) :
    pop f s = andThen (f it s1) fun ok =>
      if ok then upd fun s => withTape s T' else diverge it.typ true false at_ := by
  rw [pop, run_bind, tapeWait_passes hh, andThen, run_bind, get_run, andThen]
  dsimp only
  rw [hp]
  dsimp only
  rw [run_bind, hn, andThen, run_bind]
  rfl

theorem pop_waits (hh : s.tapeHeld = true) : pop f s = .error .wait s := by
  rw [pop, run_bind, tapeWait_waits hh]
  rfl

theorem pop_illegal (hh : s.tapeHeld = false) (hp : s.core.tape.st ≠ .play) (hb : s.core.tape.st ≠ .broken) :
    pop f s = .error (.trap s.illegal) s := by
  rw [pop, run_bind, tapeWait_passes hh, andThen, run_bind, get_run, andThen]
  cases hst : s.core.tape.st with
  | play => exact absurd hst hp
  | broken => exact absurd hst hb
  | idle => exact run_legal_false rfl
  | ended => exact run_legal_false rfl
  | recording => exact run_legal_false rfl
  | check => exact run_legal_false rfl

theorem run_diverge {α : Type} (typ at_ : Nat) (s : State) : (diverge typ true false at_ : Op α) s =
    .error (.trap ⟨.tapeDiverge, BitVec.ofNat 80 (typ % 256 + 256 + at_ % 2 ^ 48 * 65536)⟩) s := by
  rw [diverge, run_raise, ofNat_addr80]
  rfl

/-- What TPOP does with an item. -/
def popTake (d : Fin 32) (n : Nat) (it : Item) : Op Bool := do
  if n = 1 then legal (← get).core.oc.cfg
  match it with
  | .val _ v => do
    if n = 0 then upd fun s => s.wx d v
    pure (n == 0)
  | .oca fin first finw es => do
    if n = 1 then popOca d fin first finw es
    pure (n == 1)
  | _ => pure false

/-- What TPOPB does with an item. -/
def popTakeBit (d : Fin 32) (it : Item) : Op Bool := do
  match it with
  | .bit b => do
    upd fun s => s.wx d (wb b)
    pure true
  | _ => pure false

theorem tpop_eq : execTpop st d n s = issue { st := st.val, ill := decide (1 < n) } (unlessAhead (pop (popTake d n))) s := rfl

theorem tpopb_eq : execTpopb st d s = issue { st := st.val } (unlessAhead (pop (popTakeBit d))) s := rfl

/-- A pop that writes a register. -/
theorem pops_value {y : Word} (hi : s.CanIssue g.reads) (hill : g.ill = false) (hacc : g.acc = none) (hah : s.ctx.ahead = false)
    (hh : s.tapeHeld = false) (hp : s.core.tape.st = .play) (hn : nextItem s.core.tape 4 s = .ok (it, T', at_) s1)
    (hf : f it s1 = .ok true (s1.wx d y)) : ∃ t, issue g (unlessAhead (pop f)) s = .next t ∧ Advanced s t ∧
      WroteC s t d (scalar y) ∧ t.core.tape = T' ∧ ∀ p, memGet t.mem p = memGet s1.mem p := by
  have hexec : issue g (unlessAhead (pop f)) s = s.retire g.st (withTape (s1.wx d y) T') := by
    refine issue_retires hi hill hacc ?_
    rw [unlessAhead_runs hah, pop_plays hh hp hn, hf, andThen, if_pos rfl]
    rfl
  obtain ⟨h1, h2, h3, h4⟩ := tapeReg_finish g.st d y T' (nextItem_walks 4 _ _ hn).tapeGoes
  exact ⟨_, hexec, h1, h2, h3, fun p => by rw [h4]⟩

/-- A pop whose item does not match. -/
theorem pops_other (hi : s.CanIssue g.reads) (hill : g.ill = false) (hacc : g.acc = none) (hah : s.ctx.ahead = false)
    (hh : s.tapeHeld = false) (hp : s.core.tape.st = .play) (hn : nextItem s.core.tape 4 s = .ok (it, T', at_) s1)
    (hf : f it s1 = .ok false s1) : issue g (unlessAhead (pop f)) s = .next (s1.trapHere ⟨.tapeDiverge,
      BitVec.ofNat 80 (it.typ % 256 + 256 + at_ % 2 ^ 48 * 65536)⟩) := by
  refine issue_traps hi hill hacc ?_
  rw [unlessAhead_runs hah, pop_plays hh hp hn, hf, andThen, if_neg Bool.false_ne_true, run_diverge]

theorem pops_wait (hi : s.CanIssue g.reads) (hill : g.ill = false) (hacc : g.acc = none) (hah : s.ctx.ahead = false)
    (hh : s.tapeHeld = true) : issue g (unlessAhead (pop f)) s = .next s.block := by
  refine issue_waits hi hill hacc ?_
  rw [unlessAhead_runs hah, pop_waits hh]

theorem pops_illegal (hi : s.CanIssue g.reads) (hill : g.ill = false) (hacc : g.acc = none) (hah : s.ctx.ahead = false)
    (hh : s.tapeHeld = false) (hp : s.core.tape.st ≠ .play) (hb : s.core.tape.st ≠ .broken) :
    Traps s (issue g (unlessAhead (pop f)) s) .illegal (s.ctx.ir.zeroExtend 80) := by
  refine issue_traps (t := s) hi hill hacc ?_
  rw [unlessAhead_runs hah, pop_illegal hh hp hb]
  rfl

/-- What a pop answers for an item: the value of one that matches, and a divergence for another. -/
def PopsInto (s s1 : State) (o : Host.Outcome State Fault Refusal) (d : Fin 32) (it : Item) (T' : Tape) (at_ : Nat)
    (w : Option Word) : Prop :=
  (w = none → o = .next (s1.trapHere ⟨.tapeDiverge, BitVec.ofNat 80 (it.typ % 256 + 256 + at_ % 2 ^ 48 * 65536)⟩)) ∧
  (∀ y, w = some y → ∃ t, o = .next t ∧ Advanced s t ∧ WroteC s t d (scalar y) ∧ t.core.tape = T' ∧
    ∀ p, memGet t.mem p = memGet s1.mem p)

/-- The value that TPOP writes for an item. -/
def valueOf : Item → Option Word
  | .val _ y => some y
  | _ => none

/-- The value that TPOPB writes for an item. -/
def bitOf : Item → Option Word
  | .bit y => some (if y then 1 else 0)
  | _ => none

section Playing

variable (hi : s.CanIssue []) (hah : s.ctx.ahead = false) (hh : s.tapeHeld = false) (hp : s.core.tape.st = .play)
  (hn : nextItem s.core.tape 4 s = .ok (it, T', at_) s1)
include hi hah hh hp hn

theorem tpop_pops : PopsInto s s1 (execTpop st d 0 s) d it T' at_ (valueOf it) := by
  rw [tpop_eq]
  have hother (hf : popTake d 0 it s1 = .ok false s1) := pops_other (g := { st := st.val, ill := decide (1 < 0) }) hi rfl rfl hah hh hp hn hf
  cases it with
  | val ty y =>
    refine ⟨(nomatch ·), fun z hz => ?_⟩
    cases hz
    exact pops_value d (g := { st := st.val, ill := decide (1 < 0) }) hi rfl rfl hah hh hp hn rfl
  | none => exact ⟨fun _ => hother rfl, fun _ h => nomatch h⟩
  | bit b => exact ⟨fun _ => hother rfl, fun _ h => nomatch h⟩
  | vec p x y => exact ⟨fun _ => hother rfl, fun _ h => nomatch h⟩
  | oca fin first finw es => exact ⟨fun _ => hother rfl, fun _ h => nomatch h⟩

theorem tpopb_pops : PopsInto s s1 (execTpopb st d s) d it T' at_ (bitOf it) := by
  rw [tpopb_eq]
  have hother (hf : popTakeBit d it s1 = .ok false s1) := pops_other (g := { st := st.val }) hi rfl rfl hah hh hp hn hf
  cases it with
  | bit b =>
    refine ⟨(nomatch ·), fun z hz => ?_⟩
    cases hz
    exact pops_value d (g := { st := st.val }) hi rfl rfl hah hh hp hn (by cases b <;> rfl)
  | none => exact ⟨fun _ => hother rfl, fun _ h => nomatch h⟩
  | val ty y => exact ⟨fun _ => hother rfl, fun _ h => nomatch h⟩
  | vec p x y => exact ⟨fun _ => hother rfl, fun _ h => nomatch h⟩
  | oca fin first finw es => exact ⟨fun _ => hother rfl, fun _ h => nomatch h⟩

theorem tpop_popsOca {fin : Bool} {first : Nat} {finw : Word} {es : List Word} (hit : it = .oca fin first finw es)
    (hc : s1.core.oc.cfg = true) (ho : popOca d fin first finw es s1 = .ok () s2) :
    execTpop st d 1 s = s.retire st.val (withTape s2 T') := by
  rw [tpop_eq]
  refine issue_retires (g := { st := st.val, ill := decide (1 < 1) }) hi rfl rfl ?_
  have htake : popTake d 1 it s1 = .ok true s2 := by
    rw [hit, popTake, if_pos rfl, run_bind, get_run, andThen, run_bind, run_legal_true hc, andThen]
    dsimp only
    rw [if_pos rfl, run_bind, ho]
    rfl
  rw [unlessAhead_runs hah, pop_plays hh hp hn, htake, andThen, if_pos rfl]
  rfl

end Playing

/-- TPOPV's use of one register. -/
def popUse (d : Fin 64) : VUse := { dst := some d }

/-- What TPOPV of one register does with an item. -/
def popTakeVec (d : Fin 64) (it : Item) : Op Bool := do
  match it with
  | .vec p v0 _ =>
    if p == false then do
      vecRun (popUse d) none (fun _ => pure (some v0))
      pure true
    else pure false
  | _ => pure false

theorem tpopv_eq (d : Fin 64) : execTpopv st d 0 s =
    issue (tapeGate (popUse d) st.val false [] s) (unlessAhead (pop (popTakeVec d))) s := rfl

theorem tpopv_ahead (d : Fin 64) (ha : s.ctx.ahead = true) (hr : s.readPort d = false) (hm : s.core.mm = true → 36 ≤ d.val)
    (hi : s.CanIssue [rdM 0]) : OnlyAdvances s (execTpopv st d 0 s) := by
  have hown : s.owned [d] = none := owned_free fun h n hn => by
    rw [List.mem_singleton.mp hn]
    exact hm h
  have hbad : (popUse d).portBad s = false := by
    simp [VUse.portBad, popUse, hr]
  have hgate : tapeGate (popUse d) st.val false [] s = { st := st.val, ill := false, acc := none, reads := [rdM 0] } := by
    unfold tapeGate VUse.gate
    dsimp only
    rw [ha, if_pos rfl, hbad, show (popUse d).named = [d] from rfl, hown]
    rfl
  rw [tpopv_eq, hgate]
  exact onlyAdvances_of (issue_retires (g := { st := st.val, ill := false, acc := none, reads := [rdM 0] }) hi rfl rfl
    (unlessAhead_skips _ ha))

theorem tpopv_pops (d : Fin 64) {x y : VReg} (hah : s.ctx.ahead = false) (hh : s.tapeHeld = false) (hpl : s.Plain [d])
    (hi : s.CanIssue [rdM 0]) (hp : s.core.tape.st = .play) (hn : nextItem s.core.tape 4 s = .ok (.vec false x y, T', at_) s) :
    ∃ t, execTpopv st d 0 s = .next t ∧ Advanced s t ∧ t.core.v = s.core.v.set d x ∧ (∀ k, t.rc k = s.rc k) ∧ t.core.tape = T' ∧
      t.mem = s.mem := by
  have hb : s.boundPort d = false := hpl.unbound d List.mem_cons_self
  have hgate : tapeGate (popUse d) st.val false [] s = { st := st.val, ill := false, acc := none, reads := [rdM 0] } := by
    unfold tapeGate VUse.gate
    dsimp only
    rw [hah, if_neg Bool.false_ne_true, hpl.h0, show (popUse d).named = [d] from rfl, owned_free hpl.free]
    simp [VUse.portBad, VUse.reads, popUse, readPort_unbound hb, writePort_unbound hb]
  have hrun : vecRun (popUse d) none (fun _ => pure (some x)) s = .ok () (s.wv d x) :=
    vecRun_writes rfl (fun n hn => by rw [List.mem_singleton.mp hn]; exact hb) rfl
  have htake : popTakeVec d (.vec false x y) s = .ok true (s.wv d x) := by
    rw [show popTakeVec d (.vec false x y) = (vecRun (popUse d) none (fun _ => pure (some x)) >>= fun _ => pure true) from rfl,
      run_bind, hrun]
    rfl
  obtain ⟨hst, hrc, -⟩ := wv_stands (s := s) hpl.h0 d x
  have hexec : execTpopv st d 0 s = s.retire st.val (withTape (s.wv d x) T') := by
    rw [tpopv_eq, hgate]
    refine issue_retires (g := { st := st.val, ill := false, acc := none, reads := [rdM 0] }) hi rfl rfl ?_
    rw [unlessAhead_runs hah, pop_plays hh hp hn, htake, andThen, if_pos rfl]
    rfl
  obtain ⟨h1, h2, h3⟩ := tapeSet_finish st.val T' hst rfl
  refine ⟨_, hexec, h1, ?_, fun k => ?_, h2, h3⟩
  · rw [finish_core_eq]
    rfl
  · rw [rc_finish]
    exact hrc k

end Popping

/-! ### The next item (R369) -/

section Items

variable {s : State} {T : Tape} {b p k : Nat}

theorem nextItem_last {n : Nat} {it : Item} {rest : CurRec} (h : T.play.last = some (b, it, rest, p)) :
    nextItem T (n + 1) s = if b < T.r then .ok T.lastBit s else .ok (it, { T with play := rest }, p) s := by
  rw [nextItem, h]
  dsimp only
  split
  · rfl
  · rfl

theorem last_vals (x : List Word) (y : Word) :
    (CurRec.vals b p (x ++ [y])).last = some (b, .val 1 y, if x = [] then .none else .vals b p x, p) := by
  unfold CurRec.last
  dsimp only
  rw [List.getLast?_concat]
  dsimp only
  rw [List.dropLast_concat]
  by_cases h : x = []
  · rw [if_pos h, if_pos (by rw [h]; exact Nat.le_refl 1)]
  · have hlen : 0 < x.length := List.length_pos_of_ne_nil h
    rw [if_neg h, if_neg (by rw [List.length_append, List.length_singleton]; omega)]

theorem last_zrun : (CurRec.zrun b p (k + 1)).last = some (b, .val 2 0, if k = 0 then .none else .zrun b p k, p) := by
  unfold CurRec.last
  dsimp only
  rw [if_neg (Nat.succ_ne_zero k), Nat.add_sub_cancel]
  by_cases h : k = 0
  · rw [if_pos h, if_pos (by omega)]
  · rw [if_neg h, if_neg (by omega)]

theorem nextItem_empty (hp : T.play = .none) (hr : T.r = 0) (hc : T.cursor = 0) : nextItem T 4 s = .ok (.none, T, 0) s := by
  rw [nextItem, hp]
  dsimp only [CurRec.last]
  rw [if_pos hr, run_bind, pure_run, andThen, if_neg Bool.false_ne_true, if_pos hc]
  rfl

end Items

/-! ### The tape's engine (R363, R376) -/

section Engine

variable {s s1 : State} {n : Nat} {cs : List Nat} {r : Cap} {bs : List Byte}

/-- What SPILL_WRITE does at its core. -/
def spillStep (s : State) : State :=
  let t := s.core.tape
  match t.st, t.staged with
  | .recording, c :: cs =>
    if s.tapeHeld then s
    else ({ s with core := { s.core with tape := { t with staged := cs } } } : State).spillChunk c 4096
  | _, _ => s

/-- What CHUNK_FETCH does at its core. -/
def fetchStep (s : State) : State :=
  let t := s.core.tape
  match t.spill with
  | none => s
  | some b =>
    let c := t.fetched - 1
    if !s.tapeHeld && t.st == .play && 0 < t.fetched && t.cursor ≤ 4096 * (c + regLen t.region / 4096) then
      match s.tapeRead b (regBase b + 4096 * c) (min 4096 (t.len - 4096 * c)) with
      | (s, some bs) =>
        let s := s.tapeWrite t.region (t.at_ (4096 * c)) bs
        { s with core := { s.core with tape := { s.core.tape with fetched := c } } }
      | (s, none) => s
    else s

theorem spillWrite_eq (hw : s.Works) (hid : (spillStep s).core.id = s.core.id) : execSpillWrite s.core.id s = .next (spillStep s) :=
  atCore_focus hw hid

theorem chunkFetch_eq (hw : s.Works) (hid : (fetchStep s).core.id = s.core.id) : execChunkFetch s.core.id s = .next (fetchStep s) :=
  atCore_focus hw hid

theorem spillStep_held (h : s.tapeHeld = true) : spillStep s = s := by
  unfold spillStep
  dsimp only
  split
  · rw [if_pos h]
  · rfl

theorem spillStep_idle (h : s.core.tape.st ≠ .recording ∨ s.core.tape.staged = []) : spillStep s = s := by
  unfold spillStep
  dsimp only
  split
  case h_1 hst hsg =>
    rcases h with h | h
    · exact absurd hst h
    · rw [h] at hsg
      cases hsg
  case h_2 => rfl

theorem spillStep_writes (hh : s.tapeHeld = false) (hst : s.core.tape.st = .recording) (hsg : s.core.tape.staged = n :: cs) :
    spillStep s = (withTape s { s.core.tape with staged := cs }).spillChunk n 4096 := by
  unfold spillStep
  dsimp only
  rw [hst, hsg]
  dsimp only
  rw [hh, if_neg Bool.false_ne_true]
  rfl

theorem fetchStep_held (h : s.tapeHeld = true) : fetchStep s = s := by
  unfold fetchStep
  dsimp only
  split
  · rfl
  · rw [h]
    rfl

theorem fetchStep_idle (h : s.core.tape.spill = none ∨ s.core.tape.st ≠ .play) : fetchStep s = s := by
  unfold fetchStep
  dsimp only
  split
  · rfl
  case h_2 b hb =>
    have hp : (s.core.tape.st == .play) = false := by
      rcases h with h | h
      · rw [h] at hb
        cases hb
      · exact beq_false_of_ne h
    rw [hp, Bool.and_false, Bool.false_and, Bool.false_and, if_neg Bool.false_ne_true]

theorem fetchStep_fetches (hh : s.tapeHeld = false) (hs : s.core.tape.spill = some r) (hp : s.core.tape.st = .play)
    (hf : 0 < s.core.tape.fetched) (hc : s.core.tape.cursor ≤ 4096 * (s.core.tape.fetched - 1 + regLen s.core.tape.region / 4096))
    (hr : s.tapeRead r (regBase r + 4096 * (s.core.tape.fetched - 1)) (min 4096 (s.core.tape.len - 4096 * (s.core.tape.fetched - 1))) =
      (s1, some bs)) :
    let u := s1.tapeWrite s.core.tape.region (s.core.tape.at_ (4096 * (s.core.tape.fetched - 1))) bs
    fetchStep s = withTape u { u.core.tape with fetched := s.core.tape.fetched - 1 } := by
  intro u
  unfold fetchStep
  dsimp only
  rw [hs]
  dsimp only
  rw [hh, hp, decide_eq_true hf, decide_eq_true hc,
    if_pos (show (!false && TapeSt.play == TapeSt.play && true && true) = true from rfl), hr]
  rfl

theorem fetchStep_id : (fetchStep s).core.id = s.core.id := by
  unfold fetchStep
  dsimp only
  split
  · rfl
  case h_2 b _ =>
    split
    · have hid := tapeRead_id (s := s) b (regBase b + 4096 * (s.core.tape.fetched - 1))
        (min 4096 (s.core.tape.len - 4096 * (s.core.tape.fetched - 1)))
      split
      case h_1 u bs hu =>
        rw [hu] at hid
        exact (tapeWrite_id _ _ _).trans hid
      case h_2 u hu =>
        rw [hu] at hid
        exact hid
    · rfl

theorem spillStep_id : (spillStep s).core.id = s.core.id := by
  unfold spillStep
  dsimp only
  split
  · split
    · rfl
    · exact spillChunk_id _ _
  · rfl

end Engine

/-- In a run-ahead helper the tape's instructions without a region retire with no effect (R371). -/
theorem tape_skips {s : State} (st : Fin 8) (d : Fin 32) (n : Nat) (ha : s.ctx.ahead = true) (hi : s.CanIssue []) :
    ∀ i ∈ [Instr.tend st d, .tpop st d (n % 2), .tpopb st d, .tstat st d (n % 4)], OnlyAdvances s (exec i s) := by
  have hskip (g : Gate) (body : Op Unit) (hr : g.reads = []) (hill : g.ill = false) (hacc : g.acc = none) :
      OnlyAdvances s (issue g (unlessAhead body) s) := by
    rw [← hr] at hi
    exact onlyAdvances_of (issue_retires hi hill hacc (unlessAhead_skips _ ha))
  have h2 : decide (1 < n % 2) = false := decide_eq_false (by omega)
  have h4 : decide (3 < n % 4) = false := decide_eq_false (by omega)
  rw [List.forall_mem_cons, List.forall_mem_cons, List.forall_mem_cons, List.forall_mem_singleton]
  refine ⟨hskip { st := st.val, noint := true } _ rfl rfl rfl, hskip { st := st.val, ill := decide (1 < n % 2) } _ rfl h2 rfl,
    hskip { st := st.val } _ rfl rfl rfl, hskip { st := st.val, ill := decide (3 < n % 4) } _ rfl h4 rfl⟩

/-- Settles O34: a tape opens once its regions pass, ends with what its state says, and a pop takes the last item left; its engine
writes the oldest chunk out and fetches the next one down. -/
theorem tapeControlAndPlayback : Obligations.TapeControlAndPlayback := by
  unfold Obligations.TapeControlAndPlayback
  intro s s1 s2 st d a b v it T' at_ n cs r bs T sp ill
  refine ⟨fun ha hi => ⟨?_, fun h => ?_, fun h => ?_, fun hr hm hi => tpopv_ahead st v ha hr hm hi⟩,
    fun hs => ⟨fun h => ?_, fun h => ?_⟩, fun hah => ⟨fun hi => ⟨fun h h' => tape_busy st hi hah h h', fun hr hok => ⟨?_, ?_, ?_⟩⟩, fun hi => ?_⟩,
    ?_, ?_, ?_, ?_, ?_, fun hw => ?_⟩
  · exact tape_skips st d n ha (canIssue_mono hi (List.nil_subset _))
  · refine onlyAdvances_of (issue_retires (g := { st := st.val, reads := [rdC a, rdC b], ill := tbeginIll s }) hi ?_ rfl (unlessAhead_skips _ ha))
    refine Bool.eq_false_iff.mpr fun hc => ?_
    rcases tbeginIll_iff.mp hc with h2 | ⟨h2, h3⟩
    · omega
    · omega
  · refine onlyAdvances_of (issue_retires (g := { st := st.val, reads := [rdC a, rdC b], ill := (s.ro 2).toNat % 8 ≠ 0 }) hi ?_ rfl
      (unlessAhead_skips _ ha))
    exact decide_eq_false (not_not.mpr h)
  · exact issue_illegal _ hs (g := { st := st.val, reads := [rdC a, rdC b], ill := tbeginIll s }) (tbeginIll_iff.mpr h)
  · exact issue_illegal _ hs (g := { st := st.val, reads := [rdC a, rdC b], ill := (s.ro 2).toNat % 8 ≠ 0 }) (decide_eq_true h)
  · exact fun h2 hn => tbegin_records st hi hah hr hok h2 hn
  · exact fun h2 h3 hl hn => tbegin_checks st hi hah hr hok h2 h3 hl hn
  · intro h2 hl hn
    obtain ⟨t, h1, h2, h3, h4, -⟩ := tplay_opens st hi hah hr hok h2 hl hn
    exact ⟨t, h1, h2, h3, h4⟩
  · intro ends
    refine ⟨fun h => tend_illegal st d hi hah h, fun h hh => tend_plays st d hi hah hh h, fun h hh => tend_broken st d hi hah hh h,
      fun h hl hh => tend_checked st d hi hah hh h hl, fun h hc hb hsp hh => tend_records st d hi hah hh h hc hb hsp,
      fun h hh => tend_recording st d hi hah hh h, fun hh h h' => tend_waits st d hi hah hh h h', fun hh => ⟨?_, ?_⟩, ?_, ?_, fun hn => ?_⟩
    · exact pops_wait (g := { st := st.val, ill := decide (1 < 0) }) hi rfl rfl hah hh
    · exact pops_wait (g := { st := st.val }) hi rfl rfl hah hh
    · intro hh hp hn x
      exact ⟨tpop_pops st d hi hah hh hp hn, tpopb_pops st d hi hah hh hp hn,
        fun fin first finw es hit hc ho => tpop_popsOca st d hi hah hh hp hn hit hc ho⟩
    · intro hh hp hb
      exact ⟨pops_illegal (g := { st := st.val, ill := decide (1 < 0) }) hi rfl rfl hah hh hp hb,
        pops_illegal (g := { st := st.val }) hi rfl rfl hah hh hp hb⟩
    · rw [← tapeStat_eq hn]
      exact tstat_writes st d hi hah hn
  · intro hah hh hpl hi hp hn hs x y hit
    subst hs hit
    exact tpopv_pops st v hah hh hpl hi hp hn
  · intro b p x y hp hr
    rw [nextItem_last (by rw [hp]; exact last_vals x y), if_neg (Nat.not_lt.mpr hr)]
  · intro b p k hp hr
    rw [nextItem_last (by rw [hp]; exact last_zrun), if_neg (Nat.not_lt.mpr hr)]
  · intro b p vs y hp hr
    rw [nextItem_last (by rw [hp]; exact last_vals vs y), if_pos hr]
    rfl
  · exact fun hp hr hc => nextItem_empty hp hr hc
  · refine ⟨fun hh => ⟨?_, ?_⟩, fun hh hst hsg => ?_, fun h => ?_, fun hh hsp hp hf hc => ?_, fun h => ?_⟩
    · rw [show exec (.spillWrite s.core.id) s = execSpillWrite s.core.id s from rfl, spillWrite_eq hw spillStep_id, spillStep_held hh]
    · rw [show exec (.chunkFetch s.core.id) s = execChunkFetch s.core.id s from rfl, chunkFetch_eq hw fetchStep_id, fetchStep_held hh]
    · rw [show exec (.spillWrite s.core.id) s = execSpillWrite s.core.id s from rfl, spillWrite_eq hw spillStep_id,
        spillStep_writes hh hst hsg]
      rfl
    · rw [show exec (.spillWrite s.core.id) s = execSpillWrite s.core.id s from rfl, spillWrite_eq hw spillStep_id, spillStep_idle h]
    · intro c hrd u
      rw [show exec (.chunkFetch s.core.id) s = execChunkFetch s.core.id s from rfl, chunkFetch_eq hw fetchStep_id,
        fetchStep_fetches hh hsp hp hf hc hrd]
      rfl
    · rw [show exec (.chunkFetch s.core.id) s = execChunkFetch s.core.id s from rfl, chunkFetch_eq hw fetchStep_id, fetchStep_idle h]

end Sys2Proof.Proofs
end

section
/-! PROOFS. What a gang's stop leaves of the core that begins it (R226, R227, R403). -/
namespace Sys2Proof.Proofs
open Sys2Proof Sys2Proof.Machine Sys2Proof.Laws
set_option Elab.async false

/-- What a core records of a stop: why, and whether one is still to come. -/
def stopWord (c : Core) : Word × Bool := (c.gswhy, c.stopReq)

/-- The core in focus has stopped, and this is what it has recorded. -/
def Halted (w : Word × Bool) (s : State) : Prop := s.core.stopped = true ∧ stopWord s.core = w

section Halting

variable {w : Word × Bool} {s t : State}

theorem Halted.of_parts (h : Halted w s) (hs : t.core.stopped = s.core.stopped) (hw : stopWord t.core = stopWord s.core) : Halted w t :=
  ⟨hs.trans h.1, hw.trans h.2⟩

theorem Halted.of_core (h : Halted w s) (hc : t.core = s.core) : Halted w t :=
  h.of_parts (congrArg Core.stopped hc) (congrArg stopWord hc)

theorem Halted.foldl {α : Type} {f : State → α → State} (hf : ∀ u a, Halted w u → Halted w (f u a)) (xs : List α) (h : Halted w s) :
    Halted w (xs.foldl f s) := by
  induction xs generalizing s with
  | nil => exact h
  | cons x xs ih => exact ih (hf s x h)

theorem Halted.fst {α : Type} {x : State × α} {a : α} (h : Halted w x.1) (he : x = (t, a)) : Halted w t := by
  rw [he] at h
  exact h

theorem Halted.mapCore {e : Nat} {f : Core → Core} (h : Halted w s)
    (hf : s.core.stopped = true → (f s.core).stopped = s.core.stopped ∧ stopWord (f s.core) = stopWord s.core) : Halted w (s.mapCore e f) := by
  unfold State.mapCore
  split
  · exact h.of_parts (hf h.1).1 (hf h.1).2
  · exact h.of_core rfl

/-- An order to stop that is no fault does nothing at a core that has stopped. -/
theorem askStop_stopped {c : Core} {reason origin now : Nat} (h : c.stopped = true) (h5 : reason ≠ 5) (h6 : reason ≠ 6) :
    c.askStop reason origin now = c := by
  have hno : whyReplaces (fld c.gswhy 0 4) reason = false := by
    unfold whyReplaces
    rw [beq_false_of_ne h5, beq_false_of_ne h6]
    rfl
  unfold Core.askStop
  rw [h, Bool.or_true, if_pos rfl, hno, if_neg Bool.false_ne_true]

theorem tellHost_core (e : HostEvent) : (s.tellHost e).core = s.core := rfl

theorem gangStop_halted {asid reason origin : Nat} (h : Halted w s) (h5 : reason ≠ 5) (h6 : reason ≠ 6) :
    Halted w (s.gangStop asid reason origin) := by
  unfold State.gangStop
  split
  · exact h
  case h_2 j _ =>
    extract_lets s1 s2
    have h1 : Halted w s1 := h.foldl (fun u e hu => hu.mapCore fun hs => by rw [askStop_stopped hs h5 h6]; exact ⟨rfl, rfl⟩) _
    have h2 : Halted w s2 := h1.of_core rfl
    split
    · exact h2.of_core rfl
    · split
      · exact h2.of_core rfl
      · exact h2

/-- What is done with another core in focus, and to no core, leaves the focused core as it was. -/
theorem at_core {e : Nat} {f : State → State} (hc : ∀ u, (f u).core = u.core) (ho : ∀ u, (f u).others = u.others) :
    (s.at e f).core = s.core := by
  have hsame (u : State) (k : Nat) : (f u).coreOf k = u.coreOf k := by
    unfold State.coreOf
    rw [hc, ho]
  rw [State.at, focusOn_core, hsame, coreOf_focusOn, State.coreOf, if_pos rfl]

theorem trace_core (typ cause data : Nat) : (s.trace typ cause data).core = s.core := by
  unfold State.trace
  split
  · rfl
  · dsimp only
    split
    · rfl
    · rfl

theorem trace_others (typ cause data : Nat) : (s.trace typ cause data).others = s.others := by
  unfold State.trace
  split
  · rfl
  · dsimp only
    split
    · rfl
    · rfl

theorem homeHit_halted {e : Nat} {k : Fin 2} {va writer : Nat} (h : Halted w s) : Halted w (s.homeHit e k va writer) := by
  unfold State.homeHit
  extract_lets c old hits s1 s2
  have h1 : Halted w s1 := h.of_core (at_core (fun u => trace_core _ _ _) (fun u => trace_others _ _ _))
  have h2 : Halted w s2 := h1.mapCore fun _ => ⟨rfl, rfl⟩
  split
  · exact h1.mapCore fun _ => ⟨rfl, rfl⟩
  · split
    · split
      · exact gangStop_halted h2 (by decide) (by decide)
      · exact h2
    · exact h2

theorem homeWatch_halted {a n writer : Nat} (h : Halted w s) : Halted w (s.homeWatch a n writer) := by
  refine h.foldl (fun u c hu => hu.foldl (fun u k hu => ?_) _) _
  split
  · exact homeHit_halted hu
  · exact hu

theorem l2Write_halted {line : Nat} (h : Halted w s) : Halted w (s.l2Write line) := by
  unfold State.l2Write
  split
  · exact h
  · exact h.of_core rfl

theorem l2Store_halted {cached : Bool} {line : Nat} (h : Halted w s) : Halted w (s.l2Store cached line) := by
  unfold State.l2Store
  split
  · exact l2Write_halted h
  · exact h.of_core rfl

theorem l2Read_halted {die line : Nat} (h : Halted w s) : Halted w (s.l2Read die line) := by
  unfold State.l2Read
  split
  · exact h
  · split
    · exact h.of_core rfl
    · exact h.of_core rfl

theorem touch_halted {a n : Nat} (h : Halted w s) : Halted w (s.touch a n) := by
  unfold State.touch
  split
  · exact h.of_core rfl
  · exact h

theorem pteSet_halted {l : Leaf} {mask : Nat} (h : Halted w s) : Halted w (s.pteSet l mask).1 := by
  unfold State.pteSet
  extract_lets s1 now
  have h1 : Halted w s1 := touch_halted h
  split
  · exact h1
  · refine Halted.of_core (homeWatch_halted (h1.of_parts (t := (((s1.cutLines _ _).putNat _ _ _).l2Drop _)) ?_ ?_)) rfl
    · rfl
    · rfl

theorem walk_halted {asid root va : Nat} (h : Halted w s) : Halted w (s.walk asid root va).1 := by
  have hp {xs : List (Nat × Nat × Nat)} : Halted w
      ((xs.foldl (fun (s : State) x => (s.l2Read (dieOf s.core.id) (x.2.1 / 128)).touch x.2.1 8)
        { s with freeN := s.freeN + (s.oldPointers asid va).length }).wcacheFill asid va xs) := by
    have hread : Halted w (xs.foldl (fun (s : State) x => (s.l2Read (dieOf s.core.id) (x.2.1 / 128)).touch x.2.1 8)
        { s with freeN := s.freeN + (s.oldPointers asid va).length }) :=
      Halted.foldl (fun u x hu => touch_halted (l2Read_halted hu)) xs (h.of_core rfl)
    exact hread.of_core rfl
  unfold State.walk
  dsimp only
  split
  · exact pteSet_halted hp
  · exact hp

theorem jobWalk_halted {asid va : Nat} {k : Machine.Acc} (h : Halted w s) : Halted w (s.jobWalk asid va k).1 := by
  unfold State.jobWalk
  split
  · exact h
  · split
    case h_1 he => exact (walk_halted h).fst he
    case h_2 he =>
      have hw := (walk_halted h).fst he
      split
      · split
        · exact pteSet_halted hw
        · exact hw
      · exact hw

theorem put_halted {at_ : Nat} {cached : Bool} {a : Nat} {bs : List Byte} {writer : Nat} (h : Halted w s) :
    Halted w (s.put at_ cached a bs writer) := by
  unfold State.put
  split
  · exact homeWatch_halted (Halted.foldl (fun u l hu => l2Store_halted hu) _ (h.of_parts rfl rfl))
  · exact h

theorem engineWriteAs_halted {past : List Nat} {asid va : Nat} {bs : List Byte} {writer : Nat} (h : Halted w s) :
    Halted w (s.engineWriteAs past asid va bs writer) := by
  refine h.foldl (fun u p hu => ?_) _
  split
  case h_1 he => exact Halted.of_core (put_halted (touch_halted ((jobWalk_halted hu).fst he))) rfl
  case h_2 he => exact (jobWalk_halted hu).fst he

theorem snapCounters_halted {me : Nat × Nat} {asid e : Nat} (h : Halted w s) : Halted w (s.snapCounters me asid e) := by
  unfold State.snapCounters
  split
  · exact h
  · split
    · exact engineWriteAs_halted h
    · exact h

theorem stopKnown_core (e : Nat) : (s.stopKnown e).core = s.core := by
  have hfold (ks : List Nat) : ∀ u : State, (ks.foldl (fun s h => s.edge (e, h) (stopThread e)) u).core = u.core := by
    induction ks with
    | nil => exact fun _ => rfl
    | cons k ks ih => exact fun u => (ih _).trans rfl
  exact hfold _ s

end Halting

/-! ### A core that stops -/

section Stopping

variable {s : State} {reason origin : Nat}

theorem stopNow_stopped (c : Core) : c.stopNow.stopped = true := by
  unfold Core.stopNow
  split
  · assumption
  · rfl

theorem stopNow_gswhy (c : Core) : c.stopNow.gswhy = c.gswhy := by
  unfold Core.stopNow
  split
  · rfl
  · rfl

/-- A core has stopped, and from then on only the device has worked. -/
theorem stopCore_stops : Halted (stopWord s.core.stopNow) (s.stopCore reason origin) ∧
    Device { s with core := s.core.stopNow } (s.stopCore reason origin) := by
  unfold State.stopCore
  extract_lets s1 s2 s3
  have hknown : Device { s with core := s.core.stopNow } s1 :=
    foldl_device (fun u h hu => edge_device hu) _ (.refl _)
  have h1 : Halted (stopWord s.core.stopNow) s1 :=
    Halted.of_core (s := { s with core := s.core.stopNow }) ⟨stopNow_stopped _, rfl⟩ (stopKnown_core _)
  have h2 : Halted (stopWord s.core.stopNow) s2 := snapCounters_halted h1
  have d2 : Device { s with core := s.core.stopNow } s2 := snapCounters_device hknown
  have h3 : Halted (stopWord s.core.stopNow) s3 := h2.of_core (trace_core _ _ _)
  have d3 : Device { s with core := s.core.stopNow } s3 := trace_device d2
  split
  · exact ⟨h3.of_core (trace_core _ _ _), trace_device d3⟩
  · exact ⟨h3, d3⟩

end Stopping

end Sys2Proof.Proofs
end

section
/-! PROOFS. Traps, returns and stops (R217 to R224, R226 to R228, R354). -/
namespace Sys2Proof.Proofs
open Sys2Proof Sys2Proof.Machine Sys2Proof.Laws
set_option Elab.async false

/-- Another context of the core in focus is inside an instruction that nothing interrupts (R227, R359). -/
def BusyElsewhere (s : State) : Prop := ∃ k : Fin 11, k ≠ s.core.cur ∧ s.core.ctxs[k].arriving = true

/-- The gang has begun to stop at the core in focus (R227): at once, or once no other context is busy; the trap registers stay. -/
def StopsWith (s t : State) (reason : Nat) : Prop :=
  (¬ BusyElsewhere s → t.core.stopped = true) ∧
  (BusyElsewhere s → s.core.stopped = false → t.core.stopped = false ∧ t.core.stopReq = true) ∧
  t.core.tpc = s.core.tpc ∧ t.core.tcause = s.core.tcause ∧ t.core.tval = s.core.tval ∧ (∀ r, t.rc r = s.rc r) ∧
  (s.core.stopReq = false → s.core.stopped = false → s.core.job = none → t.core.gswhy = BitVec.ofNat 64 (reason + 256 * s.myEid))

section Stopping

variable {s v t : State} {reason : Nat}

theorem ungranted_regs (x : Ctx) : x.ungranted.c = x.c ∧ x.ungranted.loop = x.loop ∧ x.ungranted.pcc = x.pcc := by
  unfold Ctx.ungranted
  split
  · exact ⟨rfl, rfl, rfl⟩
  · exact ⟨rfl, rfl, rfl⟩

theorem stopNow_parts (c : Core) : c.stopNow.tpc = c.tpc ∧ c.stopNow.tcause = c.tcause ∧ c.stopNow.tval = c.tval ∧ c.stopNow.cur = c.cur := by
  unfold Core.stopNow
  split
  · exact ⟨rfl, rfl, rfl, rfl⟩
  · exact ⟨rfl, rfl, rfl, rfl⟩

theorem stopNow_ctx (c : Core) (k : Fin 11) : c.stopNow.ctxs[k] = c.ctxs[k] ∨ c.stopNow.ctxs[k] = c.ctxs[k].ungranted := by
  unfold Core.stopNow
  split
  · exact .inl rfl
  · exact .inr (by simp)

/-- The focused core once its gang has been told, before it is seen whether another context is busy. -/
def toldToStop (v : State) (reason : Nat) : State :=
  let s := v.gangStop v.asid reason v.myEid
  { s with core := { s.core with
      poisoned := s.core.poisoned || reason == 5
      gswhy := if s.core.job.isSome then s.core.gswhy else BitVec.ofNat 64 (reason + 256 * s.myEid) } }

theorem stopGangHere_eq : v.stopGangHere reason =
    if (toldToStop v reason).core.ctxs.any Ctx.arriving then
      { toldToStop v reason with core := { (toldToStop v reason).core with
          stopReq := !(toldToStop v reason).core.stopped, stopBy := (toldToStop v reason).time.toNat } }
    else (toldToStop v reason).stopCore reason (toldToStop v reason).myEid := rfl

theorem toldToStop_device : Device v (v.gangStop v.asid reason v.myEid) := gangStop_device (.refl v)

/-- A part of the core that the order to stop leaves. -/
theorem told_part {α : Type} (part : Core → α) (hpart : ∀ c, part (kept c) = part c := by intro; rfl)
    (hrec : ∀ (c : Core) b w, part { c with poisoned := b, gswhy := w } = part c := by intros; rfl) :
    part (toldToStop v reason).core = part v.core :=
  (hrec _ _ _).trans (eq_of_kept part toldToStop_device.core hpart)

theorem told_gswhy (hj : v.core.job = none) : (toldToStop v reason).core.gswhy = BitVec.ofNat 64 (reason + 256 * v.myEid) := by
  have hjob : (v.gangStop v.asid reason v.myEid).core.job = none := (eq_of_kept Core.job toldToStop_device.core).trans hj
  have heid : (v.gangStop v.asid reason v.myEid).myEid = v.myEid := by
    have hpkg : (v.gangStop v.asid reason v.myEid).pkg = v.pkg := eq_of_bare State.pkg toldToStop_device.rest
    rw [State.myEid, State.eid, hpkg, toldToStop_device.id]
    rfl
  show (if (v.gangStop v.asid reason v.myEid).core.job.isSome then _ else BitVec.ofNat 64 (reason + 256 * _)) = _
  rw [hjob, heid]
  rfl

/-- Whether some context is busy, where the issuing one is not. -/
theorem busy_iff (h : v.ctx.arriving = false) : v.core.ctxs.any Ctx.arriving = true ↔ BusyElsewhere v := by
  rw [Vector.any_eq_true]
  constructor
  · rintro ⟨k, hk, ha⟩
    refine ⟨⟨k, hk⟩, fun hc => ?_, ha⟩
    have hctx : v.core.ctxs[(⟨k, hk⟩ : Fin 11)] = v.ctx := congrArg (fun k : Fin 11 => v.core.ctxs[k]) hc
    have hidle : v.core.ctxs[(⟨k, hk⟩ : Fin 11)].arriving = false := by rw [hctx, h]
    exact Bool.false_ne_true (hidle.symm.trans ha)
  · rintro ⟨k, -, ha⟩
    exact ⟨k.val, k.isLt, ha⟩

theorem rc_of_ctxs {u v : State} (hcur : u.core.cur = v.core.cur)
    (h : ∀ k : Fin 11, u.core.ctxs[k] = v.core.ctxs[k] ∨ u.core.ctxs[k] = v.core.ctxs[k].ungranted) :
    (∀ r, u.rc r = v.rc r) ∧ u.ctx.loop = v.ctx.loop ∧ u.ctx.pcc = v.ctx.pcc := by
  have hv : v.core.ctxs[u.core.cur] = v.ctx := congrArg (fun k : Fin 11 => v.core.ctxs[k]) hcur
  have hctx : u.ctx = v.ctx ∨ u.ctx = v.ctx.ungranted := by
    rw [← hv]
    exact h u.core.cur
  obtain ⟨hc, hl, hp⟩ := ungranted_regs v.ctx
  rcases hctx with h | h
  · exact ⟨fun r => by rw [State.rc, State.rc, h], by rw [h], by rw [h]⟩
  · exact ⟨fun r => by rw [State.rc, State.rc, h, Ctx.rc, Ctx.rc, hc], by rw [h, hl], by rw [h, hp]⟩

/-- A gang's stop at the core in focus. -/
theorem stopGangHere_stops (h : v.ctx.arriving = false) :
    StopsWith v (v.stopGangHere reason) reason ∧ (v.stopGangHere reason).ctx.loop = v.ctx.loop ∧
      (v.stopGangHere reason).ctx.pcc = v.ctx.pcc := by
  have hctxs : (toldToStop v reason).core.ctxs = v.core.ctxs := told_part Core.ctxs
  have hcur : (toldToStop v reason).core.cur = v.core.cur := told_part Core.cur
  have hstopped : (toldToStop v reason).core.stopped = v.core.stopped := told_part Core.stopped
  have hany : (toldToStop v reason).core.ctxs.any Ctx.arriving = true ↔ BusyElsewhere v := by rw [hctxs, busy_iff h]
  rw [stopGangHere_eq]
  by_cases hb : BusyElsewhere v
  · rw [if_pos (hany.mpr hb)]
    obtain ⟨hrc, hl, hp⟩ := rc_of_ctxs (u := { toldToStop v reason with core := { (toldToStop v reason).core with
      stopReq := !(toldToStop v reason).core.stopped, stopBy := (toldToStop v reason).time.toNat } }) (v := v) hcur
      (fun k => .inl (by dsimp only; rw [hctxs]))
    refine ⟨⟨fun hn => absurd hb hn, fun _ hs => ⟨hstopped.trans hs, ?_⟩, told_part Core.tpc, told_part Core.tcause, told_part Core.tval, hrc,
      fun _ _ hj => told_gswhy hj⟩, hl, hp⟩
    show (!(toldToStop v reason).core.stopped) = true
    rw [hstopped, hs]
    rfl
  · rw [if_neg (fun hc => hb (hany.mp hc))]
    obtain ⟨⟨hst, hwhy⟩, hd⟩ := stopCore_stops (s := toldToStop v reason) (reason := reason) (origin := (toldToStop v reason).myEid)
    obtain ⟨n1, n2, n3, n4⟩ := stopNow_parts (toldToStop v reason).core
    have hkctxs : ((toldToStop v reason).stopCore reason (toldToStop v reason).myEid).core.ctxs =
        (toldToStop v reason).core.stopNow.ctxs := eq_of_kept Core.ctxs hd.core
    obtain ⟨hrc, hl, hp⟩ := rc_of_ctxs (u := (toldToStop v reason).stopCore reason (toldToStop v reason).myEid) (v := v)
      ((eq_of_kept Core.cur hd.core).trans (n4.trans hcur)) (fun k => by
        rw [hkctxs, ← hctxs]
        exact stopNow_ctx _ k)
    exact ⟨⟨fun _ => hst, fun hc => absurd hc hb, (eq_of_kept Core.tpc hd.core).trans (n1.trans (told_part Core.tpc)),
      (eq_of_kept Core.tcause hd.core).trans (n2.trans (told_part Core.tcause)),
      (eq_of_kept Core.tval hd.core).trans (n3.trans (told_part Core.tval)), hrc, fun _ _ hj => ((congrArg Prod.fst hwhy).trans (stopNow_gswhy _)).trans (told_gswhy hj)⟩, hl, hp⟩

/-- A part of a core whose contexts and counts alone differ. -/
theorem part_of_context {α : Type} {c d : Core} {x : Vector Ctx 11} {e : Vector Word 11} (h : c = { d with ctxs := x, evc := e })
    (part : Core → α) (hp : ∀ (c : Core) x e, part { c with ctxs := x, evc := e } = part c := by intros; rfl) : part c = part d :=
  (congrArg part h).trans (hp _ _ _)

/-- Of the machine only the issuing context, and the counts of its core, differ before the stop. -/
theorem StopsWith.of_context (hcore : v.core = { s.core with ctxs := v.core.ctxs, evc := v.core.evc }) (hpkg : v.pkg = s.pkg)
    (ho : ∀ k : Fin 11, k ≠ s.core.cur → v.core.ctxs[k] = s.core.ctxs[k]) (hrc : ∀ r, v.rc r = s.rc r) (h : StopsWith v t reason) :
    StopsWith s t reason := by
  obtain ⟨h1, h2, h3, h4, h5, h6, h7⟩ := h
  have part {α : Type} (part : Core → α) (hp : ∀ (c : Core) x e, part { c with ctxs := x, evc := e } = part c := by intros; rfl) :
      part v.core = part s.core := part_of_context hcore part hp
  have hcur : v.core.cur = s.core.cur := part Core.cur
  have hbusy : BusyElsewhere v ↔ BusyElsewhere s := by
    unfold BusyElsewhere
    rw [hcur]
    exact exists_congr fun k => and_congr_right fun hk => by rw [ho k hk]
  have hstopped : v.core.stopped = s.core.stopped := part Core.stopped
  have heid : v.myEid = s.myEid := by
    rw [State.myEid, State.myEid, State.eid, State.eid, hpkg, part Core.id]
  refine ⟨fun hb => h1 (hbusy.not.mpr hb), fun hb hs => h2 (hbusy.mpr hb) (hstopped.trans hs), h3.trans (part Core.tpc),
    h4.trans (part Core.tcause), h5.trans (part Core.tval), fun r => (h6 r).trans (hrc r), fun hr hs hj => ?_⟩
  rw [← heid]
  exact h7 ((part Core.stopReq).trans hr) (hstopped.trans hs) ((part Core.job).trans hj)

/-- A stop once an instruction has retired. -/
theorem finish_stops (st : Nat) (b : Bool) (hrc : ∀ r, v.rc r = s.rc r) (hv : v = s.setCtx v.ctx) :
    StopsWith s ((v.finish st b).stopGangHere reason) reason ∧ ((v.finish st b).stopGangHere reason).ctx.loop = (v.finish st b).ctx.loop ∧
      ((v.finish st b).stopGangHere reason).ctx.pcc = (v.finish st b).ctx.pcc := by
  have hidle : (v.finish st b).ctx.arriving = false := by
    unfold State.finish
    rw [ctx_count, ctx_setCtx]
    rfl
  obtain ⟨h1, h2, h3⟩ := stopGangHere_stops (reason := reason) hidle
  have hf := finish_onlyContext v st b
  have hcore : (v.finish st b).core = { v.core with ctxs := (v.finish st b).core.ctxs, evc := (v.finish st b).core.evc } :=
    congrArg State.core hf.rest
  have hvcore : v.core = { s.core with ctxs := v.core.ctxs, evc := v.core.evc } := by
    rw [hv]
    rfl
  have hcur : v.core.cur = s.core.cur := part_of_context hvcore Core.cur
  refine ⟨h1.of_context (s := s) ?_ ?_ (fun k hk => ?_) (fun r => ?_), h2, h3⟩
  · rw [hcore, hvcore]
  · rw [hf.rest, hv]
    rfl
  · rw [hf.others k (hcur ▸ hk), hv]
    have hne : s.core.cur.val ≠ k.val := fun e => hk (Fin.ext e.symm)
    simp [State.setCtx, hne]
  · rw [rc_finish]
    exact hrc r

end Stopping

end Sys2Proof.Proofs
end

section
/-! PROOFS. The trap's entry, ERET and HALT, and the causes of a boundary (R218 to R224, R228, R354). -/
namespace Sys2Proof.Proofs
open Sys2Proof Sys2Proof.Machine Sys2Proof.Laws
set_option Elab.async false

/-! ### Entering the handler (R218, R221, R222) -/

section Entering

variable {s t : State} {c : Cause} {tv : Addr} {async : Bool} {restart : Nat}

theorem settleAll_empty (h : s.ctx.fix = []) : s.settleAll = s := by
  have hx : ({ s.ctx with fix := [] } : Ctx) = s.ctx := by rw [← h]
  unfold State.settleAll State.settleAt
  rw [h]
  exact (congrArg s.setCtx hx).trans (setCtx_ctx s)

/-- What R218 leaves of a core whose h0 has entered its handler. -/
structure EntersHandler (s t : State) (c : Cause) (tv : Addr) (async : Bool) (restart : Nat) : Prop where
  tpc    : t.core.tpc = capAt s.ctx.pcc restart
  tcause : t.core.tcause = BitVec.ofNat 64 (c.code + (if async then 64 else 0))
  tval   : t.core.tval = tv
  sloop  : t.core.sloop = s.ctx.loop
  pie    : t.core.pie = s.core.ie
  ie     : t.core.ie = false
  inh    : t.core.inh = true
  pcc    : t.ctx.pcc = s.core.tvec
  loop   : t.ctx.loop = { s.ctx.loop with lact := false }
  rc     : ∀ r, t.rc r = s.rc r
  o      : t.ctx.o = s.ctx.o
  v      : t.core.v = s.core.v
  m      : t.core.m = s.core.m
  g      : t.core.g = s.core.g
  srctr  : t.core.srctr = s.core.srctr
  jobs   : t.core.jobs = s.core.jobs
  hs     : t.core.hs = s.core.hs
  evc    : t.core.evc = s.core.evc
  mem    : t.mem = s.mem

theorem trace_mem (typ cause data : Nat) : (s.trace typ cause data).mem = s.mem := by
  unfold State.trace
  split
  · rfl
  · dsimp only
    split
    · rfl
    · rfl

theorem ctx_of_core {u : State} (h : t.core = u.core) : t.ctx = u.ctx :=
  congrArg (fun c : Core => c.ctxs[c.cur]) h

/-- The context that enters the handler. -/
def entryCtx (s : State) : Ctx :=
  { s.ctx with pcc := s.core.tvec, loop := { s.ctx.loop with lact := false }, wait := .none, blocked := false,
               readyAt := max s.ctx.readyAt (s.core.cyc + 1) }

theorem trapEntry_enters (hfix : s.ctx.fix = []) (ht : t.core = (s.trapEntry ⟨c, tv⟩ async restart).core)
    (hm : t.mem = (s.trapEntry ⟨c, tv⟩ async restart).mem) : EntersHandler s t c tv async restart := by
  unfold State.trapEntry at ht hm
  rw [settleAll_empty hfix] at ht hm
  have hctx : t.ctx = entryCtx s := (ctx_of_core ht).trans (ctx_setCtx s (entryCtx s))
  refine ⟨by rw [ht], ?_, by rw [ht], by rw [ht], by rw [ht]; rfl, by rw [ht], by rw [ht], by rw [hctx]; rfl, by rw [hctx]; rfl,
    fun r => by rw [State.rc, hctx]; rfl, by rw [hctx]; rfl, by rw [ht]; rfl, by rw [ht]; rfl, by rw [ht]; rfl, by rw [ht]; rfl,
    by rw [ht]; rfl, by rw [ht]; rfl, by rw [ht]; rfl, hm⟩
  rw [ht]
  cases async <;> rfl

theorem takeTrap_handler (hc : c ≠ .ue) (hh : s.helper = false) (hi : s.core.inh = false) (hok : s.tvecOk = true) :
    s.takeTrap ⟨c, tv⟩ async restart = (s.trapEntry ⟨c, tv⟩ async restart).trace 3 c.code (restart % 2 ^ 64) := by
  have hu : (c == Cause.ue) = false := beq_false_of_ne hc
  unfold State.takeTrap
  dsimp only
  rw [hh, hi, hok, hu]
  rfl

theorem takeTrap_enters (hc : c ≠ .ue) (hh : s.helper = false) (hi : s.core.inh = false) (hok : s.tvecOk = true) (hfix : s.ctx.fix = []) :
    EntersHandler s (s.takeTrap ⟨c, tv⟩ async restart) c tv async restart := by
  rw [takeTrap_handler hc hh hi hok]
  exact trapEntry_enters hfix (trace_core _ _ _) (trace_mem _ _ _)

/-- The issuing context waits no more. -/
def rested (s : State) : State := s.setCtx { s.ctx with wait := .none, blocked := false }

/-- Where no handler can be entered the gang stops with reason 6 (R221). -/
theorem takeTrap_stops (hc : c ≠ .ue) (hh : s.helper = false) (hi : s.core.inh = true ∨ s.tvecOk = false) :
    StopsWith s (s.takeTrap ⟨c, tv⟩ async restart) 6 := by
  have hu : (c == Cause.ue) = false := beq_false_of_ne hc
  have hno : (s.core.inh || !s.tvecOk) = true := by
    rcases hi with h | h
    · rw [h]
      rfl
    · rw [h]
      exact Bool.or_true _
  have heq : s.takeTrap ⟨c, tv⟩ async restart = (rested s).stopGangHere 6 := by
    unfold State.takeTrap
    dsimp only
    rw [hh, hu, hno]
    rfl
  have hctx : (rested s).ctx = { s.ctx with wait := .none, blocked := false } := ctx_setCtx _ _
  have hstop : StopsWith (rested s)
      ((rested s).stopGangHere 6) 6 :=
    (stopGangHere_stops (by rw [hctx]; rfl)).1
  rw [heq]
  refine StopsWith.of_context (s := s) (v := rested s) rfl rfl (fun k hk => ?_) (fun r => by rw [State.rc, hctx]; rfl) hstop
  have hne : s.core.cur.val ≠ k.val := fun e => hk (Fin.ext e.symm)
  simp [rested, State.setCtx, hne]

/-- A helper ends with the trap (R222). -/
theorem takeTrap_helper (hc : c ≠ .ue) (hh : s.helper = true) (hfix : s.ctx.fix = []) :
    s.takeTrap ⟨c, tv⟩ async restart = s.setCtx (s.ctx.endHelper c.code tv (BitVec.ofNat 80 restart)) := by
  have hu : (c == Cause.ue) = false := beq_false_of_ne hc
  unfold State.takeTrap
  dsimp only
  rw [hh, hu, settleAll_empty hfix]
  rfl

end Entering

/-! ### TRAP, BRK and HALT (R219, R228) -/

section Completing

variable {s : State} {st : Fin 8} {n : BitVec 12}

theorem trap_completes (hi : s.CanIssue []) :
    execTrap st n s = .next ((s.finish st.val s.ctx.loop.lact).trapHere ⟨.soft, n.zeroExtend 80⟩) :=
  issueThen_canIssue (g := { st := st.val }) (pure ()) _ hi rfl rfl

theorem brk_completes (hi : s.CanIssue []) : execBrk st n s = .next (if s.core.brkstop then (s.finish st.val s.ctx.loop.lact).stopGangHere 3
    else (s.finish st.val s.ctx.loop.lact).trapHere ⟨.brk, n.zeroExtend 80⟩) :=
  issueThen_canIssue (g := { st := st.val }) (pure ()) _ hi rfl rfl

/-- The context of HALT once its loop has ended (R132). -/
def loopEnded (s : State) : State := s.setCtx { s.ctx with loop := { s.ctx.loop with lact := false } }

theorem halt_completes (hi : s.CanIssue []) (hy : s.pccY = true) :
    execHalt st s = .next (((loopEnded s).finish st.val s.ctx.loop.lact).stopGangHere 2) := by
  have hx := issueThen_canIssue (g := { st := st.val }) (do
      need (← get).pccY .capPerm
      upd fun t : State => t.setCtx { t.ctx with loop := { t.ctx.loop with lact := false } }) (fun t => t.stopGangHere 2) hi rfl rfl
  refine hx.trans ?_
  rw [run_bind, get_run, andThen, run_bind, hy]
  rfl

theorem halt_denied (hi : s.CanIssue []) (hy : s.pccY = false) : Traps s (execHalt st s) .capPerm 0 := by
  have hx := issueThen_canIssue (g := { st := st.val }) (do
      need (← get).pccY .capPerm
      upd fun t : State => t.setCtx { t.ctx with loop := { t.ctx.loop with lact := false } }) (fun t => t.stopGangHere 2) hi rfl rfl
  refine hx.trans ?_
  rw [run_bind, get_run, andThen, run_bind, hy]
  rfl

theorem halt_stops (st : Fin 8) : StopsWith s (((loopEnded s).finish st.val s.ctx.loop.lact).stopGangHere 2) 2 ∧
    (((loopEnded s).finish st.val s.ctx.loop.lact).stopGangHere 2).ctx.loop.lact = false ∧
    (((loopEnded s).finish st.val s.ctx.loop.lact).stopGangHere 2).ctx.pcc = capMove s.ctx.pcc s.ctx.npc.toNat := by
  have hctx : (loopEnded s).ctx = { s.ctx with loop := { s.ctx.loop with lact := false } } := ctx_setCtx _ _
  obtain ⟨h1, h2, h3⟩ := finish_stops (s := s) (v := loopEnded s) (reason := 2) st.val s.ctx.loop.lact
    (fun r => by rw [State.rc, hctx]; rfl) (by rw [hctx]; rfl)
  have hb : (s.ctx.loop.lact && (loopEnded s).ctx.loop.lact) = false := by
    rw [hctx]
    exact Bool.and_false _
  obtain ⟨hp, hl⟩ := finish_pcc (loopEnded s) st.val s.ctx.loop.lact hb
  refine ⟨h1, ?_, ?_⟩
  · rw [h2, hl, hctx]
  · rw [h3, hp, hctx]

/-- What the handler finds when it is entered behind an instruction that has completed. -/
theorem entered_behind {c : Cause} {tv : Addr} (hc : c ≠ .ue) (hh : s.helper = false) (hinh : s.core.inh = false)
    (hok : (s.finish st.val s.ctx.loop.lact).tvecOk = true) (hfix : s.ctx.fix = []) :
    EntersHandler (s.finish st.val s.ctx.loop.lact) ((s.finish st.val s.ctx.loop.lact).trapHere ⟨c, tv⟩) c tv false
      (s.finish st.val s.ctx.loop.lact).pc := by
  have hhelp : (s.finish st.val s.ctx.loop.lact).helper = false := by
    rw [State.helper, finish_core_cur]
    exact hh
  exact takeTrap_enters hc hhelp (by rw [finish_core_inh, hinh]) hok (by rw [finish_fix, hfix])

end Completing

/-! ### ERET (R223) -/

section Returning

variable {s : State} {st : Fin 8} {c : Cause}

theorem enterable_of_check {c : Cap} (h : capCheck c [pX] (capA c) 2 2 = none) : Enterable c := by
  have hv : capValid c = true := by
    cases hc : capValid c with
    | true => rfl
    | false => simp [capCheck, hc] at h
  have hx : capHas c pX = true := by
    cases hc : capHas c pX with
    | true => rfl
    | false => rw [jumpCheck_noX hv hc] at h; cases h
  have hin : Inside c (capA c) := by
    by_contra hc
    rw [jumpCheck_outside hv hx hc] at h
    cases h
  have heven : capA c % 2 = 0 := by
    by_contra hc
    rw [jumpCheck_odd hv hx hin (by omega)] at h
    cases h
  have hv' : (c.tag = true ∧ capE c ≤ 50) ∧ capHas c 11 = false := by simpa [capValid] using hv
  exact ⟨hv'.1.1, hv'.1.2, hv'.2, hx, hin.1, hin.2, heven⟩

/-- ERET's operation. -/
def eretBody : Op Unit := do
  let s ← get
  need s.pccY .capPerm
  jumpNeed s.core.tpc
  upd State.returnFromTrap

theorem eret_eq : execEret st s = issue { st := st.val, ill := s.helper || s.ctx.loop.lact } eretBody s := rfl

theorem eret_illegal (hi : s.CanIssue []) (h : s.helper = true ∨ s.ctx.loop.lact = true) :
    Traps s (execEret st s) .illegal (s.ctx.ir.zeroExtend 80) := by
  refine issue_illegal (g := { st := st.val, ill := s.helper || s.ctx.loop.lact }) _ hi.notStopped ?_
  rcases h with h | h
  · rw [h]
    rfl
  · rw [h]
    exact Bool.or_true _

section Passing

variable (hi : s.CanIssue []) (hh : s.helper = false) (hl : s.ctx.loop.lact = false)
include hi hh hl

theorem eret_denied (hy : s.pccY = false) : Traps s (execEret st s) .capPerm 0 := by
  refine issue_traps (g := { st := st.val, ill := s.helper || s.ctx.loop.lact }) (t := s) hi (by rw [hh, hl]; rfl) rfl ?_
  rw [run_bind, get_run, andThen, run_bind, hy]
  rfl

theorem eret_unjumpable (hy : s.pccY = true) (h : capCheck s.core.tpc [pX] (capA s.core.tpc) 2 2 = some c) :
    Traps s (execEret st s) c (tvalOf (capA s.core.tpc)) := by
  refine issue_traps (g := { st := st.val, ill := s.helper || s.ctx.loop.lact }) (t := s) hi (by rw [hh, hl]; rfl) rfl ?_
  rw [run_bind, get_run, andThen, run_bind, hy, need_true, andThen, run_bind, jumpNeed, capNeed_raises s h]
  rfl

theorem eret_returns (hy : s.pccY = true) (h : capCheck s.core.tpc [pX] (capA s.core.tpc) 2 2 = none) :
    execEret st s = .next (s.returnFromTrap.finish st.val false) := by
  have hx : execEret st s = .next (s.returnFromTrap.finish st.val s.ctx.loop.lact) := by
    refine issue_retires (g := { st := st.val, ill := s.helper || s.ctx.loop.lact }) hi (by rw [hh, hl]; rfl) rfl ?_
    rw [run_bind, get_run, andThen, run_bind, hy, need_true, andThen, run_bind, jumpNeed, capNeed_ok s h]
    rfl
  rw [hx, hl]

end Passing

/-- The loop that ERET restores (R223). -/
def eretLoop (s : State) : Loop :=
  { s.core.sloop with lbeg := BitVec.ofNat 80 (capA s.core.tpc / 2 ^ 64 * 2 ^ 64 + s.core.sloop.lbeg.toNat % 2 ^ 64) }

theorem returned_core : s.returnFromTrap.core =
    { (s.setCtx { s.ctx.jump s.core.tpc with loop := eretLoop s }).core.resumeJobs with ie := s.core.pie, inh := false } :=
  trace_core _ _ _

theorem returned_ctx : s.returnFromTrap.ctx = { s.ctx.jump s.core.tpc with loop := eretLoop s } :=
  (ctx_of_core (u := { s with core := _ }) returned_core).trans (ctx_setCtx s _)

theorem returned_finish (st : Nat) (h : capCheck s.core.tpc [pX] (capA s.core.tpc) 2 2 = none) :
    (s.returnFromTrap.finish st false).ctx.pcc = s.core.tpc ∧ (s.returnFromTrap.finish st false).ctx.loop = eretLoop s ∧
      (∀ r, (s.returnFromTrap.finish st false).rc r = s.rc r) ∧ (s.returnFromTrap.finish st false).ctx.o = s.ctx.o := by
  obtain ⟨hp, hl⟩ := finish_pcc s.returnFromTrap st false rfl
  refine ⟨?_, ?_, fun r => ?_, ?_⟩
  · rw [hp, returned_ctx]
    exact (enterable_of_check h).jump_place s.ctx
  · rw [hl, returned_ctx]
  · rw [rc_finish, State.rc, returned_ctx]
    rfl
  · rw [finish_o, returned_ctx]
    rfl

end Returning

end Sys2Proof.Proofs
end

section
/-! PROOFS. The boundary's causes and the timers of a core (R220, R224, R354). -/
namespace Sys2Proof.Proofs
open Sys2Proof Sys2Proof.Machine Sys2Proof.Laws
set_option Elab.async false

/-! ### What the fetch of an instruction leaves of the core in focus -/

section Fetching

variable {s t : State} {c : Cap} {a : Nat}

/-- A line put into the instruction cache once its home slice has been read. -/
def icFilled (x : ILine) (u : State) : State :=
  let s := u.l2Read (dieOf u.core.id) x.line
  { s with core := { s.core with ic := (x :: s.core.ic.filter (fun y => y.line != x.line)).take 256 } }

theorem icFilled_loads (x : ILine) : Loads s (icFilled x s) :=
  (l2Read_loads (s := s) (die := dieOf s.core.id) (line := x.line)).trans (Eq.refl (loadKept (icFilled x s).core))

theorem fetchHalf_loads {place : Nat} : Loads s (s.fetchHalf place).1 := by
  have hb : Loads s (s.bytesAt (place / 128 * 128) 128).1 := bytesAt_loads
  have hfill (u : State) := icFilled_loads (s := u) ⟨place / 128, (s.bytesAt (place / 128 * 128) 128).2⟩
  unfold State.fetchHalf
  dsimp only
  split
  · exact hb.trans (hfill _)
  · split
    · exact hb
    · split
      · exact hb.trans freed_loads
      · exact (hb.trans freed_loads).trans (hfill _)

theorem fetchBounds_loads {n : Nat} : LoadsAt (fetchBounds c a n) s := by
  unfold fetchBounds
  split
  · exact raise_loads
  · exact raise_loads
  · exact loadsAt_pure _

theorem fetchSeg_loads : LoadsAt (fetchSeg a) s :=
  loadsAt_get_bind (loadsAt_bind segOf_loads fun _ _ => loadsAt_bind await_loads fun _ _ => loadsAt_pure _)

theorem fetchAt_loads {g : Seg} : LoadsAt (fetchAt g) s :=
  loadsAt_get_bind (loadsAt_set_bind fetchHalf_loads (loadsAt_pure _))

theorem fetchSecond_loads {g : Seg} : LoadsAt (fetchSecond c a g) s :=
  loadsAt_bind fetchBounds_loads fun _ _ => loadsAt_bind fetchSeg_loads fun _ _ => loadsAt_bind goodNeed_loads fun _ _ => fetchAt_loads

theorem fetchInstr_loads : LoadsAt (fetchInstr c a) s := by
  refine loadsAt_bind fetchBounds_loads fun _ u => loadsAt_get_bind ?_
  have hseg : LoadsAt (fetchSeg a) u := fetchSeg_loads
  unfold LoadsAt at hseg
  split
  case h_1 v hv =>
    rw [hv] at hseg
    exact loadsAt_set_bind hseg (loadsAt_throw _)
  case h_2 e v _ hv =>
    rw [hv] at hseg
    exact loadsAt_set_bind hseg (loadsAt_bind fetchBounds_loads fun _ _ => loadsAt_throw _)
  case h_3 g v hv =>
    rw [hv] at hseg
    refine loadsAt_set_bind hseg ?_
    split
    · exact loadsAt_bind fetchSecond_loads fun _ _ => loadsAt_pure _
    · refine loadsAt_bind fetchAt_loads fun h w => ?_
      split
      · exact loadsAt_pure _
      · exact loadsAt_bind fetchSecond_loads fun _ _ => loadsAt_pure _

theorem fetchHere_loads : LoadsAt fetchHere s :=
  loadsAt_get_bind (loadsAt_bind fetchInstr_loads fun _ _ => loadsAt_bind watchNeed_loads fun _ _ => loadsAt_pure _)

end Fetching

/-! ### Boundary causes (R192, R220) -/

/-- The same context of the same core is in focus. -/
def SameFocus (s t : State) : Prop := t.core.id = s.core.id ∧ t.core.cur = s.core.cur

section Focus

variable {s₀ s t : State}

theorem SameFocus.refl (s : State) : SameFocus s s := ⟨rfl, rfl⟩

theorem SameFocus.trans (h : SameFocus s₀ s) (h' : SameFocus s t) : SameFocus s₀ t := ⟨h'.1.trans h.1, h'.2.trans h.2⟩

theorem Loads.focus (h : Loads s t) : SameFocus s t := ⟨h.part Core.id, h.part Core.cur⟩

theorem Device.focus (h : Device s t) : SameFocus s t := ⟨h.id, eq_of_kept Core.cur h.core⟩

theorem Settles.focus (h : Settles s t) : SameFocus s t := by
  rw [SameFocus, h.rest]
  exact ⟨rfl, rfl⟩

theorem stopNow_focus (c : Core) : c.stopNow.id = c.id ∧ c.stopNow.cur = c.cur := by
  unfold Core.stopNow
  split
  · exact ⟨rfl, rfl⟩
  · exact ⟨rfl, rfl⟩

theorem stopGangHere_focus (reason : Nat) : SameFocus s (s.stopGangHere reason) := by
  have htold : SameFocus s (toldToStop s reason) := ⟨told_part Core.id, told_part Core.cur⟩
  rw [stopGangHere_eq]
  split
  · exact htold
  · have hstop : SameFocus (toldToStop s reason) { toldToStop s reason with core := (toldToStop s reason).core.stopNow } :=
      stopNow_focus _
    exact (htold.trans hstop).trans stopCore_stops.2.focus

theorem trapEntry_focus (t : Trap) (async : Bool) (restart : Nat) : SameFocus s (s.trapEntry t async restart) :=
  (settleAll_settles s).focus

theorem takeTrap_focus (t : Trap) (async : Bool) (restart : Nat) : SameFocus s (s.takeTrap t async restart) := by
  unfold State.takeTrap
  split
  · exact stopGangHere_focus 5
  · split
    · exact SameFocus.refl s
    · split
      · exact stopGangHere_focus 5
      · split
        · exact stopGangHere_focus 6
        · have hcore := trace_core (s := s.trapEntry t async restart) 3 t.cause.code (restart % 2 ^ 64)
          exact (trapEntry_focus t async restart).trans ⟨congrArg Core.id hcore, congrArg Core.cur hcore⟩

theorem tapePut_focus (ws : List Word) : ∀ (s : State) (off : Nat), SameFocus s (s.tapePut off ws) := by
  induction ws with
  | nil => exact fun s _ => .refl s
  | cons w ws ih =>
    intro s off
    unfold State.tapePut
    dsimp only
    split
    · exact .refl s
    · exact SameFocus.trans ⟨tapeWrite_id _ _ _, tapeWrite_cur _ _ _⟩ (ih _ _)

theorem tapeDone_focus (x : TapeOut) : SameFocus s (s.tapeDone x) := tapePut_focus _ _ _

theorem flushOca_focus (fin : Bool) : SameFocus s (s.flushOca fin) := by
  have hwait : SameFocus s (s.setCtx { s.ctx with wait := .none }) := ⟨rfl, rfl⟩
  unfold State.flushOca
  dsimp only
  split
  · split
    · exact hwait.trans (tapeDone_focus _)
    · exact hwait
  · split
    · exact tapeDone_focus _
    · exact .refl s

end Focus

section Boundary

variable {s t u : State} {trap : Trap} {rest : Core}

theorem flushOca_idle (h : ∀ k es, s.ctx.wait ≠ .ocacc k es) : s.flushOca false = s := by
  unfold State.flushOca
  dsimp only
  split
  case h_1 k es hw => exact absurd hw (h k es)
  case h_2 => exact if_neg (ne_true_of_eq_false (Bool.and_false _))

/-- TRAP_ENTRY at h0 of a core that works. -/
theorem trapEntry_here (hw : s.Works) (hc : s.core.cur = 0) (hf : SameFocus s s.takeBoundary) :
    execTrapEntry s.core.id s = .next s.takeBoundary := by
  have h0 : s.asCtx 0 State.takeBoundary = s.takeBoundary := by
    have hx := asCtx_cur (s := s) (f := State.takeBoundary) hf.2
    rw [hc] at hx
    exact hx
  have hx := atCore_focus (f := fun u : State => u.asCtx 0 State.takeBoundary) hw (by rw [h0]; exact hf.1)
  rw [h0] at hx
  exact hx

section Due

variable (hs : s.core.stopped = false) (hr : s.core.run.isSome = true) (ha : s.arriving = false) (hp : s.pausedJob = none)
include hs hr ha hp

theorem boundary_waits (hb : s.boundary = none) : s.takeBoundary = s := by
  unfold State.takeBoundary
  rw [hs, ha, hp, hb, Option.isNone_eq_false_iff.mpr hr]
  rfl

theorem boundary_fetchTraps (hb : s.boundary.isSome = true) {x : Trap} (hf : fetchHere s = .error (.trap x) t) :
    s.takeBoundary = (t.flushOca false).trapHere x := by
  unfold State.takeBoundary
  rw [hs, ha, hp, Option.isNone_eq_false_iff.mpr hr, Option.isNone_eq_false_iff.mpr hb, hf]
  rfl

theorem boundary_taken (hb : s.boundary.isSome = true) (hf : ∀ x t, fetchHere s ≠ .error (.trap x) t)
    (hd : (s.flushOca false).boundary = some (trap, rest)) :
    s.takeBoundary = ({ s.flushOca false with core := rest } : State).takeTrap trap true (s.flushOca false).pc := by
  unfold State.takeBoundary
  rw [hs, ha, hp, Option.isNone_eq_false_iff.mpr hr, Option.isNone_eq_false_iff.mpr hb]
  dsimp only
  split
  case isTrue h => cases h
  case isFalse =>
    split
    case isTrue h => cases h
    case isFalse =>
      split
      case h_1 x v hv => exact absurd hv (hf x v)
      case h_2 =>
        rw [hd]

end Due

/-- What is taken of the causes kept leaves the core's place in focus. -/
theorem boundary_rest {c : Core} (h : c.boundary = some (trap, rest)) : rest.id = c.id ∧ rest.cur = c.cur := by
  unfold Core.boundary at h
  split at h
  · cases h
  · split at h
    · cases h
      exact ⟨rfl, rfl⟩
    · split at h
      · cases h
        exact ⟨rfl, rfl⟩
      · split at h
        · cases h
          exact ⟨rfl, rfl⟩
        · split at h
          · cases h
            exact ⟨rfl, rfl⟩
          · cases h

theorem stateBoundary_rest (h : s.boundary = some (trap, rest)) : SameFocus s { s with core := rest } := by
  unfold State.boundary at h
  split at h
  · cases h
  · exact boundary_rest h

end Boundary

section Causes

variable {c : Core}

theorem boundary_inhibited (h : c.inh = true) : c.boundary = none := by
  unfold Core.boundary
  rw [h]
  rfl

theorem boundary_kept (hi : c.inh = false) (ht : c.pTrig = []) (hw : c.pWatch = []) (hm : c.pMixed = []) :
    c.boundary = if c.ie && c.irq ≠ 0 then some (⟨.interrupt, c.irq.zeroExtend 80⟩, c) else none := by
  unfold Core.boundary
  rw [hi, ht, hw, hm]
  rfl

end Causes

theorem unallocated_traps {s : State} {word : BitVec 32} (h : (s.helper && s.ctx.stopReq) = false) :
    execUnallocatedWord word s = .next ((s.setCtx { s.ctx with ir := word }).trapHere ⟨.illegal, word.zeroExtend 80⟩) := by
  have hctx : (s.setCtx { s.ctx with ir := word }).ctx = { s.ctx with ir := word } := ctx_setCtx _ _
  have hstop : ((s.setCtx { s.ctx with ir := word }).helper && (s.setCtx { s.ctx with ir := word }).ctx.stopReq) = false := by
    rw [hctx]
    exact h
  have hill : (s.setCtx { s.ctx with ir := word }).illegal = ⟨.illegal, word.zeroExtend 80⟩ := by rw [State.illegal, hctx]
  rw [← hill]
  exact issue_illegal (g := { st := 0, ill := true }) _ hstop rfl

/-- Settles O48: a trap enters its handler or stops its gang, ERET puts back what it saved, and the boundary's causes are taken in
their order. -/
theorem trapsAndReturn : Obligations.TrapsAndReturn := by
  unfold Obligations.TrapsAndReturn
  intro s st n c tv async restart word h lim woken trap rest after ended busy stops enters
  have henters {c : Cause} (hc : c ≠ .ue) (hh : s.helper = false) (hinh : s.core.inh = false) (hok : after.tvecOk = true)
      (hfix : s.ctx.fix = []) : enters (.next (after.trapHere ⟨c, n.zeroExtend 80⟩)) c.code := by
    have he := entered_behind (s := s) (st := st) (tv := n.zeroExtend 80) hc hh hinh hok hfix
    refine ⟨_, rfl, ?_, he.tpc, fun hl => (finish_pcc s st.val s.ctx.loop.lact (by rw [hl]; rfl)).1, he.tcause, he.tval, he.sloop, ?_, he.ie,
      he.inh, ?_, ?_, fun r => ?_, ?_, ?_, ?_, ?_, ?_, fun _ => ?_⟩
    · rw [he.evc, finish_count]
      simp
    · rw [he.pie, finish_core_ie]
    · rw [he.pcc, finish_core_tvec]
    · rw [he.loop]
    · rw [he.rc, rc_finish]
    · rw [he.o, finish_o]
    · rw [he.v, finish_core_v]
    · rw [he.m, finish_core_m]
    · rw [he.g, finish_core_g]
    · rw [he.hs, finish_core_hs]
    · rw [he.mem, finish_mem]
  refine ⟨fun hi hh hinh hok hfix => ⟨?_, fun hbs => ?_⟩, fun hc hh hinh hok hfix => ?_, fun hc hh hno => ⟨_, rfl, takeTrap_stops hc hh hno⟩,
    fun hc hh hfix hah => ?_, fun hi => ⟨trap_completes hi, fun hbs => ?_, fun hbs => ?_, fun hy => ?_, fun hy => halt_denied hi hy,
      eret_illegal hi, fun hh hl => ⟨fun hy => eret_denied hi hh hl hy, fun hy hc => eret_unjumpable hi hh hl hy hc, fun hy hc => ?_⟩⟩,
    unallocated_traps, fun hw hcur hr ha hp => ?_, ⟨boundary_inhibited, fun hinh ht hwt hm => ⟨fun hie hq => ?_, fun hno => ?_⟩⟩,
    fun hw => ⟨?_, fun hx => ?_⟩⟩
  · rw [show exec (.trap st n) s = execTrap st n s from rfl, trap_completes hi]
    exact henters (by decide) hh hinh hok hfix
  · rw [show exec (.brk st n) s = execBrk st n s from rfl, brk_completes hi, hbs, if_neg Bool.false_ne_true]
    exact henters (by decide) hh hinh hok hfix
  · have he := takeTrap_enters (tv := tv) (async := async) (restart := restart) hc hh hinh hok hfix
    exact ⟨he.tpc, he.tcause, he.tval, he.sloop, he.pie, he.ie, he.inh, he.pcc, he.loop, he.rc, he.o, he.v, he.m, he.g, he.srctr, he.jobs,
      he.hs, fun _ => he.mem⟩
  · intro t
    have ht : t = s.setCtx (s.ctx.endHelper c.code tv (BitVec.ofNat 80 restart)) := takeTrap_helper hc hh hfix
    have hctx : t.ctx = s.ctx.endHelper c.code tv (BitVec.ofNat 80 restart) := by rw [ht, ctx_setCtx]
    refine ⟨?_, by rw [hctx]; rfl, by rw [hctx]; rfl, by rw [hctx]; rfl, fun r => by rw [State.rc, hctx]; rfl, by rw [ht]; rfl, by rw [ht]; rfl,
      by rw [ht]; rfl, by rw [ht]; rfl⟩
    rw [hctx, Ctx.endHelper, hah, if_neg Bool.false_ne_true]
  · rw [show exec (.brk st n) s = execBrk st n s from rfl, brk_completes hi, hbs, if_neg Bool.false_ne_true]
  · have hx : exec (.brk st n) s = .next (after.stopGangHere 3) := by
      rw [show exec (.brk st n) s = execBrk st n s from rfl, brk_completes hi, hbs, if_pos rfl]
    exact ⟨hx, _, hx, (finish_stops (s := s) (v := s) st.val s.ctx.loop.lact (fun _ => rfl) (setCtx_ctx s).symm).1⟩
  · have hx : exec (.halt st) s = .next (ended.stopGangHere 2) := halt_completes hi hy
    obtain ⟨h1, h2, h3⟩ := halt_stops (s := s) st
    exact ⟨hx, ⟨_, hx, h1⟩, _, hx, h2, h3⟩
  · obtain ⟨h1, h2, h3, h4⟩ := returned_finish (s := s) st.val hc
    refine ⟨_, eret_returns hi hh hl hy hc, h1, h2, ?_, ?_, ?_, ?_, ?_, ?_, h3, h4, ?_, fun _ => ?_⟩
    · rw [finish_core_ie, returned_core]
    · rw [finish_core_pie, returned_core]
      rfl
    · rw [finish_core_inh, returned_core]
    · rw [finish_core_tpc, returned_core]
      rfl
    · rw [finish_core_tcause, returned_core]
      rfl
    · rw [finish_core_tval, returned_core]
      rfl
    · rw [finish_core_v, returned_core]
      rfl
    · rw [finish_mem, State.returnFromTrap]
      exact trace_mem _ _ _
  · have hrun : ∀ u, s.takeBoundary = u → SameFocus s u → exec (.trapEntry s.core.id) s = .next u := by
      intro u hu hf
      rw [← hu] at hf ⊢
      exact trapEntry_here hw hcur hf
    intro f
    refine ⟨fun hb => hrun _ (boundary_waits hw.run hr ha hp hb) (.refl s), fun u t hb hf => ?_, fun hb hf hd => ?_, flushOca_idle⟩
    · have hread : LoadsAt fetchHere s := fetchHere_loads
      rw [LoadsAt, hf] at hread
      exact hrun _ (boundary_fetchTraps hw.run hr ha hp hb hf) ((hread.focus.trans (flushOca_focus false)).trans (takeTrap_focus _ _ _))
    · exact hrun _ (boundary_taken hw.run hr ha hp hb hf hd)
        (((flushOca_focus false).trans (stateBoundary_rest hd)).trans (takeTrap_focus _ _ _))
  · have hc : (s.core.ie && s.core.irq ≠ 0) = true := by
      rw [hie, Bool.true_and]
      exact decide_eq_true hq
    rw [boundary_kept hinh ht hwt hm, if_pos hc]
    rfl
  · rw [boundary_kept hinh ht hwt hm]
    refine if_neg fun hc => ?_
    obtain ⟨hie, hq⟩ := Bool.and_eq_true_iff.mp hc
    rcases hno with h | h
    · rw [h] at hie
      cases hie
    · exact of_decide_eq_true hq h
  · refine atCore_focus (f := State.timer) hw ?_
    unfold State.timer
    split
    · rfl
    · rfl
  · refine (atCore_focus (f := fun u : State => { u with core := u.core.mapCtxNo h.val (fun x => x.sleepDue u.time.toNat) }) hw ?_).trans ?_
    · show (s.core.mapCtxNo _ _).id = _
      rw [mapCtxNo_fin]
    · show Host.Outcome.next ({ s with core := s.core.mapCtxNo h.val (fun x => x.sleepDue s.time.toNat) } : State) = _
      have hdue : s.core.ctxs[h].sleepDue s.time.toNat =
          { s.core.ctxs[h] with wait := .sleeping lim (woken || decide (lim.toNat ≤ s.time.toNat)) } := by
        unfold Ctx.sleepDue
        rw [hx]
      rw [mapCtxNo_fin, hdue]
      rfl

end Sys2Proof.Proofs
end

section
/-! PROOFS. Reading and writing system registers (R212 to R215, R225, R241). -/
namespace Sys2Proof.Proofs
open Sys2Proof Sys2Proof.Machine Sys2Proof.Laws
set_option Elab.async false

/-! ### The checks of SRD and SWR (R212) -/

section Access

variable {s : State} (st : Fin 8) (d : Fin 32) {i : Nat} {r : SrRow} {e : State} {y : Cap}

/-- A class that the context may use. -/
def MayUse (s : State) (r : SrRow) (cls : SrClass) : Prop :=
  cls ≠ .no ∧ (r.h0 = true → s.helper = false) ∧ (cls = .y → s.pccY = true)

theorem sr_legal {cls : SrRow → SrClass} (hrow : srRow i = some r) (hno : cls r ≠ .no) (hh : r.h0 = true → s.helper = false) :
    s.srIllegal i cls = none := by
  have hbad : (cls r == .no || (r.h0 && s.helper)) = false := by
    rw [beq_false_of_ne hno, Bool.false_or]
    cases h0 : r.h0 with
    | false => rfl
    | true => rw [hh h0]; rfl
  unfold State.srIllegal
  rw [hrow]
  dsimp only
  rw [hbad, if_neg Bool.false_ne_true]

theorem srNeed_passes {cls : SrRow → SrClass} (hrow : srRow i = some r) (hy : cls r = .y → s.pccY = true) : srNeed i cls s = .ok () s := by
  have hpass : (!(cls r == .y) || s.pccY) = true := by
    by_cases h : cls r = .y
    · rw [hy h]
      exact Bool.or_true _
    · rw [beq_false_of_ne h]
      rfl
  rw [srNeed, hrow]
  dsimp only
  rw [run_bind, get_run, andThen, hpass, need_true]

theorem srNeed_denies {cls : SrRow → SrClass} (hrow : srRow i = some r) (hc : cls r = .y) (hy : s.pccY = false) (hi : i < 4096) :
    srNeed i cls s = .error (.trap ⟨.capPerm, BitVec.ofNat 80 i⟩) s := by
  rw [srNeed, hrow]
  dsimp only
  rw [run_bind, get_run, andThen, hc, hy]
  show need false .capPerm i s = _
  rw [need_false, addr80_natCast (by omega)]

theorem toNat_index (h : i < 4096) : (BitVec.ofNat 12 i).toNat = i := by
  rw [BitVec.toNat_ofNat, Nat.mod_eq_of_lt h]

/-- SRD of a register that its class allows. -/
theorem srd_writes (hi : s.CanIssue [rdC d]) (hn : i < 4096) (hrow : srRow i = some r) (hu : MayUse s r r.rd) (hy : s.srRead i = y) :
    WritesC s (execSrd st d (BitVec.ofNat 12 i) s) d y := by
  obtain ⟨hno, hh, hcls⟩ := hu
  refine writesC_of (st := st.val) ?_
  unfold execSrd
  rw [toNat_index hn]
  refine issue_retires (g := { st := st.val, acc := s.srIllegal i (·.rd) }) (canIssue_mono hi (List.nil_subset _)) rfl
    (sr_legal hrow hno hh) ?_
  rw [run_bind, srNeed_passes hrow hcls, andThen, ← hy]
  rfl

theorem srd_denied (hi : s.CanIssue [rdC d]) (hn : i < 4096) (hrow : srRow i = some r) (hc : r.rd = .y) (hh : r.h0 = true → s.helper = false)
    (hy : s.pccY = false) : Traps s (execSrd st d (BitVec.ofNat 12 i) s) .capPerm (BitVec.ofNat 80 i) := by
  unfold execSrd
  rw [toNat_index hn]
  refine issue_traps (g := { st := st.val, acc := s.srIllegal i (·.rd) }) (t := s) (canIssue_mono hi (List.nil_subset _)) rfl
    (sr_legal hrow (by rw [hc]; decide) hh) ?_
  rw [run_bind, srNeed_denies hrow hc hy hn]
  rfl

/-- SWR of a register that its class allows. -/
theorem swr_writes (hi : s.CanIssue [rdC d]) (hn : i < 4096) (hrow : srRow i = some r) (hu : MayUse s r r.wr)
    (he : s.srWrite i (s.rc d) = e) : execSwr st d (BitVec.ofNat 12 i) s = s.retire st.val e := by
  obtain ⟨hno, hh, hcls⟩ := hu
  unfold execSwr
  rw [toNat_index hn]
  refine issue_retires (g := { st := st.val, acc := s.srIllegal i (·.wr), reads := [rdC d] }) hi rfl (sr_legal hrow hno hh) ?_
  rw [run_bind, srNeed_passes hrow hcls, andThen, ← he]
  rfl

theorem swr_denied (hi : s.CanIssue [rdC d]) (hn : i < 4096) (hrow : srRow i = some r) (hc : r.wr = .y) (hh : r.h0 = true → s.helper = false)
    (hy : s.pccY = false) : Traps s (execSwr st d (BitVec.ofNat 12 i) s) .capPerm (BitVec.ofNat 80 i) := by
  unfold execSwr
  rw [toNat_index hn]
  refine issue_traps (g := { st := st.val, acc := s.srIllegal i (·.wr), reads := [rdC d] }) (t := s) hi rfl
    (sr_legal hrow (by rw [hc]; decide) hh) ?_
  rw [run_bind, srNeed_denies hrow hc hy hn]
  rfl

/-- What the gate answers where a decoding fault other than the word's own stands. -/
theorem issue_accTraps {g : Gate} {body : Op Unit} {x : Trap} (h : (s.helper && s.ctx.stopReq) = false) (hill : g.ill = false)
    (hacc : g.acc = some x) : issue g body s = .next (s.trapHere x) := by
  unfold issue issueThen
  rw [if_neg (by simp [h])]
  simp [State.gateTrap, hill, hacc]

/-- An access that the map does not allow. -/
theorem sr_illegal {n : BitVec 12} (hs : (s.helper && s.ctx.stopReq) = false) :
    (s.srIllegal n.toNat (·.rd) = some ⟨.illegal, BitVec.ofNat 80 n.toNat⟩ →
      Traps s (execSrd st d n s) .illegal (BitVec.ofNat 80 n.toNat)) ∧
    (s.srIllegal n.toNat (·.wr) = some ⟨.illegal, BitVec.ofNat 80 n.toNat⟩ →
      Traps s (execSwr st d n s) .illegal (BitVec.ofNat 80 n.toNat)) :=
  ⟨fun h => issue_accTraps (g := { st := st.val, acc := s.srIllegal n.toNat (·.rd) }) hs rfl h,
    fun h => issue_accTraps (g := { st := st.val, acc := s.srIllegal n.toNat (·.wr), reads := [rdC d] }) hs rfl h⟩

theorem srIllegal_unlisted {cls : SrRow → SrClass} (h : srRow i = none) : s.srIllegal i cls = some ⟨.illegal, BitVec.ofNat 80 i⟩ := by
  unfold State.srIllegal
  rw [h]

theorem srIllegal_class {cls : SrRow → SrClass} (hrow : srRow i = some r) (h : cls r = .no) :
    s.srIllegal i cls = some ⟨.illegal, BitVec.ofNat 80 i⟩ := by
  unfold State.srIllegal
  rw [hrow]
  dsimp only
  rw [h]
  rfl

theorem srIllegal_helper {cls : SrRow → SrClass} (hrow : srRow i = some r) (h0 : r.h0 = true) (hh : s.helper = true) :
    s.srIllegal i cls = some ⟨.illegal, BitVec.ofNat 80 i⟩ := by
  unfold State.srIllegal
  rw [hrow]
  dsimp only
  rw [h0, hh]
  exact if_pos (Bool.or_true _)

theorem srd_illegal (hi : s.CanIssue [rdC d]) (hn : i < 4096) (h : s.srIllegal i (·.rd) = some ⟨.illegal, BitVec.ofNat 80 i⟩) :
    Traps s (execSrd st d (BitVec.ofNat 12 i) s) .illegal (BitVec.ofNat 80 i) := by
  have hx := (sr_illegal (n := BitVec.ofNat 12 i) st d hi.notStopped).1
  rw [toNat_index hn] at hx
  exact hx h

theorem swr_illegal (hi : s.CanIssue [rdC d]) (hn : i < 4096) (h : s.srIllegal i (·.wr) = some ⟨.illegal, BitVec.ofNat 80 i⟩) :
    Traps s (execSwr st d (BitVec.ofNat 12 i) s) .illegal (BitVec.ofNat 80 i) := by
  have hx := (sr_illegal (n := BitVec.ofNat 12 i) st d hi.notStopped).2
  rw [toNat_index hn] at hx
  exact hx h

end Access

/-! ### The map (R213) -/

section Map

variable {i : Nat} {r : SrRow}

/-- An index that the map does not list. -/
theorem srRow_unlisted (h : 7 ≤ i) (hl : i ∉ [0x008, 0x009, 0x00A, 0x010, 0x011, 0x012, 0x013, 0x014, 0x016, 0x018, 0x019,
    0x01A, 0x01B, 0x020, 0x021, 0x022, 0x023, 0x024, 0x025, 0x028, 0x029, 0x02A, 0x02B, 0x02C, 0x02D, 0x030, 0x031, 0x032,
    0x080, 0x081, 0x082, 0x083, 0x084, 0x085, 0x086, 0x087, 0x090, 0x091, 0x092, 0x094, 0x095, 0x096, 0x0A0, 0x0A1, 0x0A2,
    0x0A3, 0x0A4, 0x0B0, 0x0C0, 0x0C1]) (hp : ¬ (0x040 ≤ i ∧ i < 0x080 ∧ i % 8 < 5)) : srRow i = none := by
  simp only [List.mem_cons, List.not_mem_nil, or_false, not_or] at hl
  simp only [srRow, Bool.and_eq_true, Bool.or_eq_true, decide_eq_true_eq]
  rw [if_neg (by omega), if_neg (by omega), if_neg (by omega), if_neg (by omega), if_neg (by omega), if_neg (by omega), if_neg (by omega),
    if_neg (by omega), if_neg (by omega), if_neg (by omega), if_neg (by omega), if_neg (by omega), if_neg (by omega), if_neg (by omega),
    if_neg (by omega), if_neg (by omega), if_neg (by omega), if_neg (by omega), if_neg (by omega)]

theorem srRow_lt (h : srRow i = some r) : i < 4096 := by
  by_contra hn
  rw [srRow_unlisted (by omega) (by simp only [List.mem_cons, List.not_mem_nil, or_false, not_or]; omega) (by omega)] at h
  cases h

end Map

/-! ### What a write leaves (R214, R239, R241) -/

section Writing

variable {s : State} {n : Nat} {r : Cap} {e : Core} {v : Word}

theorem srWrite_reserved (h : srReserved n (r.bits.truncate 64) = true) : s.srWrite n r = s := by
  unfold State.srWrite
  dsimp only
  rw [h, if_pos rfl]

theorem srWrite_core (hb : n < 4 ∨ 6 < n) (ht : n ≠ 0x031) (hr : srReserved n (r.bits.truncate 64) = false)
    (he : s.core.srWrite (s.pc / 2 ^ 64) n r = e) : s.srWrite n r = { s with core := e } := by
  unfold State.srWrite
  dsimp only
  rw [hr, if_neg Bool.false_ne_true, if_neg (by omega), if_neg (by omega), if_neg (by omega), if_neg ht, he]

theorem srWrite_same (hb : n < 4 ∨ 6 < n) (ht : n ≠ 0x031) (he : s.core.srWrite (s.pc / 2 ^ 64) n r = s.core) : s.srWrite n r = s := by
  cases hr : srReserved n (r.bits.truncate 64) with
  | true => exact srWrite_reserved hr
  | false => exact srWrite_core hb ht hr he

theorem fld_rest {lo : Nat} (h : lo ≤ 64) : fld v lo (64 - lo) = v.toNat / 2 ^ lo := by
  unfold fld
  refine Nat.mod_eq_of_lt ((Nat.div_lt_iff_lt_mul (Nat.two_pow_pos lo)).mpr ?_)
  rw [← Nat.pow_add, Nat.sub_add_cancel h]
  exact v.isLt

/-- The bits of a word from one on are zero where it is below that bit's weight. -/
theorem fld_rest_zero {lo : Nat} (h : lo ≤ 64) : fld v lo (64 - lo) = 0 ↔ v.toNat < 2 ^ lo := by
  rw [fld_rest h, Nat.div_eq_zero_iff_lt (Nat.two_pow_pos lo)]

theorem reserved_rest {lo : Nat} (h : lo ≤ 64) (hr : srReserved n v = decide (fld v lo (64 - lo) ≠ 0)) :
    (v.toNat < 2 ^ lo → srReserved n v = false) ∧ (¬ v.toNat < 2 ^ lo → srReserved n v = true) := by
  rw [hr]
  exact ⟨fun hv => decide_eq_false (not_not.mpr ((fld_rest_zero h).mpr hv)),
    fun hv => decide_eq_true (fun hz => hv ((fld_rest_zero h).mp hz))⟩

theorem setWidth_word {w : Nat} (x : BitVec w) : x.zeroExtend 64 = BitVec.ofNat 64 x.toNat := (BitVec.ofNat_toNat 64 x).symm

theorem timer_ipend : s.timer.core.ipend = s.core.ipend ||| (if s.core.tcmp.toNat ≤ s.time.toNat then 1 else 0) := by
  unfold State.timer
  split
  · rfl
  · exact (BitVec.or_zero).symm

end Writing

end Sys2Proof.Proofs
end

section
/-! PROOFS. The registers of the map one by one (R213, R214, R241). -/
namespace Sys2Proof.Proofs
open Sys2Proof Sys2Proof.Machine Sys2Proof.Laws
set_option Elab.async false

section Rows

variable {s : State} (st : Fin 8) (d : Fin 32) {i : Nat} {a : SrClass} {h0 : Bool} {y : Cap} {e : State}

/-! ### Registers by class -/

theorem mayUse_u {r : SrRow} (h : r.h0 = false) : MayUse s r .u := by
  refine ⟨by decide, fun hc => ?_, fun hc => nomatch hc⟩
  rw [h] at hc
  cases hc

theorem mayUse_y {r : SrRow} (h : r.h0 = true → s.helper = false) (hy : s.pccY = true) : MayUse s r .y :=
  ⟨by decide, h, fun _ => hy⟩

variable (hi : s.CanIssue [rdC d])
include hi

theorem srd_u (hrow : srRow i = some ⟨.u, a, false⟩) (hy : s.srRead i = y) : WritesC s (exec (.srd st d (BitVec.ofNat 12 i)) s) d y :=
  srd_writes st d hi (srRow_lt hrow) hrow (mayUse_u rfl) hy

theorem swr_u (hrow : srRow i = some ⟨a, .u, false⟩) (he : s.srWrite i (s.rc d) = e) :
    exec (.swr st d (BitVec.ofNat 12 i)) s = s.retire st.val e :=
  swr_writes st d hi (srRow_lt hrow) hrow (mayUse_u rfl) he

theorem swr_no (hrow : srRow i = some ⟨a, .no, h0⟩) :
    Traps s (exec (.swr st d (BitVec.ofNat 12 i)) s) .illegal (BitVec.ofNat 80 i) :=
  swr_illegal st d hi (srRow_lt hrow) (srIllegal_class hrow rfl)

/-- A register that only h0 may read, in class U. -/
theorem srd_ownU (hrow : srRow i = some ⟨.u, .no, true⟩) (hy : s.srRead i = y) :
    (s.helper = false → WritesC s (exec (.srd st d (BitVec.ofNat 12 i)) s) d y) ∧
    (s.helper = true → Traps s (exec (.srd st d (BitVec.ofNat 12 i)) s) .illegal (BitVec.ofNat 80 i)) ∧
    Traps s (exec (.swr st d (BitVec.ofNat 12 i)) s) .illegal (BitVec.ofNat 80 i) :=
  ⟨fun hh => srd_writes st d hi (srRow_lt hrow) hrow ⟨by decide, fun _ => hh, fun hc => nomatch hc⟩ hy,
    fun hh => srd_illegal st d hi (srRow_lt hrow) (srIllegal_helper hrow rfl hh), swr_no st d hi hrow⟩

/-- A register of class Y that h0 alone has. -/
theorem srd_ownY (hrow : srRow i = some ⟨.y, .y, true⟩) (hy : s.srRead i = y) :
    (s.helper = false → s.pccY = true → WritesC s (exec (.srd st d (BitVec.ofNat 12 i)) s) d y) ∧
    (s.helper = false → s.pccY = false → Traps s (exec (.srd st d (BitVec.ofNat 12 i)) s) .capPerm (BitVec.ofNat 80 i) ∧
      Traps s (exec (.swr st d (BitVec.ofNat 12 i)) s) .capPerm (BitVec.ofNat 80 i)) ∧
    (s.helper = true → Traps s (exec (.srd st d (BitVec.ofNat 12 i)) s) .illegal (BitVec.ofNat 80 i) ∧
      Traps s (exec (.swr st d (BitVec.ofNat 12 i)) s) .illegal (BitVec.ofNat 80 i)) := by
  have hn := srRow_lt hrow
  exact ⟨fun hh hp => srd_writes st d hi hn hrow (mayUse_y (fun _ => hh) hp) hy,
    fun hh hp => ⟨srd_denied st d hi hn hrow rfl (fun _ => hh) hp, swr_denied st d hi hn hrow rfl (fun _ => hh) hp⟩,
    fun hh => ⟨srd_illegal st d hi hn (srIllegal_helper hrow rfl hh), swr_illegal st d hi hn (srIllegal_helper hrow rfl hh)⟩⟩

/-- A register of class Y that every context has. -/
theorem srd_y (hrow : srRow i = some ⟨.y, .y, false⟩) (hy : s.srRead i = y) :
    (s.pccY = true → WritesC s (exec (.srd st d (BitVec.ofNat 12 i)) s) d y) ∧
    (s.pccY = false → Traps s (exec (.srd st d (BitVec.ofNat 12 i)) s) .capPerm (BitVec.ofNat 80 i) ∧
      Traps s (exec (.swr st d (BitVec.ofNat 12 i)) s) .capPerm (BitVec.ofNat 80 i)) := by
  have hn := srRow_lt hrow
  exact ⟨fun hp => srd_writes st d hi hn hrow (mayUse_y (fun hc => nomatch hc) hp) hy,
    fun hp => ⟨srd_denied st d hi hn hrow rfl (fun hc => nomatch hc) hp, swr_denied st d hi hn hrow rfl (fun hc => nomatch hc) hp⟩⟩

theorem swr_y (hy : s.pccY = true) (hrow : srRow i = some ⟨a, .y, h0⟩) (hh : h0 = true → s.helper = false)
    (he : s.srWrite i (s.rc d) = e) : exec (.swr st d (BitVec.ofNat 12 i)) s = s.retire st.val e :=
  swr_writes st d hi (srRow_lt hrow) hrow (mayUse_y hh hy) he

end Rows

/-! ### Rows that stand in numbered groups -/

theorem portRow (p : Fin 8) (f : Fin 5) : srRow (0x040 + f.val + 8 * p.val) = some ⟨.u, .no, true⟩ := by
  revert p f
  decide

theorem watchRow (w : Fin 4) (f : Fin 2) : srRow (0x080 + f.val + 2 * w.val) = some ⟨.y, .y, false⟩ := by
  revert w f
  decide

theorem homeRow (h : Fin 2) (f : Fin 3) : srRow (0x090 + f.val + 4 * h.val) = some ⟨.y, .y, false⟩ := by
  revert h f
  decide

theorem handlerRow (k : Fin 4) : srRow (0x018 + k.val) = some ⟨.y, .y, true⟩ := by
  revert k
  decide

section Groups

variable {s : State}

theorem srRead_port (p : Fin 8) (f : Fin 5) : s.srRead (0x040 + f.val + 8 * p.val) = portView s.core.sp[p] f.val := by
  have hp : (finOf ((0x040 + f.val + 8 * p.val) / 8 - 8) : Fin 8) = p := Fin.ext (by show _ % 8 = _; omega)
  have hf : (0x040 + f.val + 8 * p.val) % 8 = f.val := by omega
  unfold State.srRead
  dsimp only
  iterate 22 rw [if_neg (by omega)]
  rw [if_pos (by omega)]
  exact congrArg₂ (fun (q : Fin 8) g => portView s.core.sp[q] g) hp hf

theorem srRead_watch (w : Fin 4) : s.srRead (0x080 + 2 * w.val) = scalar s.core.wpa[w] ∧ s.srRead (0x081 + 2 * w.val) = scalar s.core.wpc[w] := by
  fin_cases w <;> exact ⟨rfl, rfl⟩

theorem srRead_home (h : Fin 2) : s.srRead (0x090 + 4 * h.val) = scalar s.core.hwa[h] ∧ s.srRead (0x091 + 4 * h.val) = scalar s.core.hwc[h] ∧
    s.srRead (0x092 + 4 * h.val) = scalar s.core.hwe[h] := by
  fin_cases h <;> exact ⟨rfl, rfl, rfl⟩

theorem srRead_handler (k : Fin 4) : s.srRead (0x018 + k.val) = s.core.hs[k] := by
  fin_cases k <;> rfl

variable {c : Core} {hi : Nat} {r : Cap}

theorem srWrite_watch (w : Fin 4) : c.srWrite hi (0x080 + 2 * w.val) r = { c with wpa := c.wpa.set w (r.bits.truncate 64) } ∧
    c.srWrite hi (0x081 + 2 * w.val) r =
      if fld (r.bits.truncate 64) 3 6 ≤ 40 then { c with wpc := c.wpc.set w (r.bits.truncate 64) } else c := by
  fin_cases w <;> exact ⟨rfl, rfl⟩

theorem reserved_watch (w : Fin 4) (v : Word) : srReserved (0x080 + 2 * w.val) v = false ∧
    srReserved (0x081 + 2 * w.val) v = decide (fld v 9 39 ≠ 0) := by
  fin_cases w <;> exact ⟨rfl, rfl⟩

theorem srWrite_home (h : Fin 2) : c.srWrite hi (0x090 + 4 * h.val) r = { c with hwa := c.hwa.set h (r.bits.truncate 64) } ∧
    c.srWrite hi (0x091 + 4 * h.val) r = (if 7 ≤ fld (r.bits.truncate 64) 2 6 && fld (r.bits.truncate 64) 2 6 ≤ 40 then
      { c with hwc := c.hwc.set h (r.bits.truncate 64) } else c) ∧
    c.srWrite hi (0x092 + 4 * h.val) r = if (r.bits.truncate 64 : Word) = 0 then c else { c with hwe := c.hwe.set h 0 } := by
  fin_cases h <;> exact ⟨rfl, rfl, rfl⟩

theorem reserved_home (h : Fin 2) (v : Word) : srReserved (0x090 + 4 * h.val) v = false ∧
    srReserved (0x091 + 4 * h.val) v = decide (fld v 8 40 ≠ 0) ∧ srReserved (0x092 + 4 * h.val) v = decide (fld v 33 31 ≠ 0) := by
  fin_cases h <;> exact ⟨rfl, rfl, rfl⟩

theorem srWrite_handler (k : Fin 4) : c.srWrite hi (0x018 + k.val) r = { c with hs := c.hs.set k r } := by
  fin_cases k <;> rfl

theorem reserved_handler (k : Fin 4) (v : Word) : srReserved (0x018 + k.val) v = false := by
  fin_cases k <;> rfl

end Groups

/-! ### Writes that keep a register (R214) -/

section Keeping

variable {s : State} {n : Nat} {r : Cap} {e : Core}

/-- A register whose reserved bits are those from one on. -/
theorem srWrite_below {lo : Nat} (hlo : lo ≤ 64) (hb : n < 4 ∨ 6 < n) (ht : n ≠ 0x031)
    (hr : srReserved n (r.bits.truncate 64) = decide (fld (r.bits.truncate 64) lo (64 - lo) ≠ 0))
    (he : s.core.srWrite (s.pc / 2 ^ 64) n r = e) :
    ((r.bits.truncate 64 : Word).toNat < 2 ^ lo → s.srWrite n r = { s with core := e }) ∧
    (¬ (r.bits.truncate 64 : Word).toNat < 2 ^ lo → s.srWrite n r = s) :=
  ⟨fun h => srWrite_core hb ht ((reserved_rest hlo hr).1 h) he, fun h => srWrite_reserved ((reserved_rest hlo hr).2 h)⟩

/-- RMODE keeps a rounding code (R60, R214). -/
theorem srWrite_rmode :
    (1 ≤ (r.bits.truncate 64 : Word).toNat ∧ (r.bits.truncate 64 : Word).toNat ≤ 6 →
      s.srWrite 0x001 r = { s with core := { s.core with rmode := (r.bits.truncate 64 : Word).toNat } }) ∧
    (¬ (1 ≤ (r.bits.truncate 64 : Word).toNat ∧ (r.bits.truncate 64 : Word).toNat ≤ 6) → s.srWrite 0x001 r = s) := by
  generalize hv : (r.bits.truncate 64 : Word) = v
  have hcore : s.core.srWrite (s.pc / 2 ^ 64) 0x001 r = if v = 0 || v = 7 then s.core else { s.core with rmode := v.toNat } := by
    rw [← hv]
    rfl
  have hres := reserved_rest (n := 0x001) (v := v) (lo := 3) (by decide) rfl
  have hcode : (decide (v = 0) || decide (v = 7)) = true ↔ v.toNat = 0 ∨ v.toNat = 7 := by
    rw [Bool.or_eq_true, decide_eq_true_eq, decide_eq_true_eq, BitVec.toNat_eq, BitVec.toNat_eq]
    rfl
  refine ⟨fun h => srWrite_core (.inl (by decide)) (by decide) (by rw [hv]; exact hres.1 (by omega)) ?_, fun h => ?_⟩
  · rw [hcore, if_neg fun hc => ?_]
    have := hcode.mp hc
    omega
  · by_cases h8 : v.toNat < 2 ^ 3
    · refine srWrite_same (.inl (by decide)) (by decide) ?_
      rw [hcore, if_pos (hcode.mpr (by omega))]
    · exact srWrite_reserved (by rw [hv]; exact hres.2 h8)

/-- A boundary moves only to a legal setting (R239, R241). -/
theorem srWrite_bounds {v : Word} {b0 b1 b2 : Nat} (hr : srReserved n v = decide (fld v 9 55 ≠ 0))
    (hx : s.srWrite n r = if srReserved n v then s else s.setBounds b0 b1 b2) :
    (v.toNat < 512 → boundsOk s.core b0 b1 b2 = true → s.srWrite n r = s.moveBounds b0 b1 b2) ∧
    (512 ≤ v.toNat ∨ boundsOk s.core b0 b1 b2 = false → s.srWrite n r = s) := by
  obtain ⟨hlow, hhigh⟩ := reserved_rest (n := n) (v := v) (lo := 9) (by decide) hr
  rw [hx, State.setBounds]
  refine ⟨fun hv hb => ?_, fun h => ?_⟩
  · rw [hlow hv, if_neg Bool.false_ne_true, if_pos hb]
  · by_cases hv : v.toNat < 512
    · have hb : boundsOk s.core b0 b1 b2 = false := h.resolve_left (by omega)
      rw [hlow hv, if_neg Bool.false_ne_true, hb, if_neg Bool.false_ne_true]
    · rw [hhigh hv, if_pos rfl]

/-- IPEND: bits written 1 are cleared, and the timer's stands as long as TIME has reached TCMP (R214, R224). -/
theorem srWrite_ipend :
    ((r.bits.truncate 64 : Word).toNat < 4 → s.srWrite 0x031 r = { s with core := { s.core with
      ipend := (s.core.ipend &&& ~~~((r.bits.truncate 64 : Word).truncate 2)) ||| (if s.core.tcmp.toNat ≤ s.time.toNat then 1 else 0) } }) ∧
    (¬ (r.bits.truncate 64 : Word).toNat < 4 → s.srWrite 0x031 r = s) := by
  obtain ⟨hlow, hhigh⟩ := reserved_rest (n := 0x031) (v := r.bits.truncate 64) (lo := 2) (by decide) rfl
  refine ⟨fun h => ?_, fun h => srWrite_reserved (hhigh h)⟩
  have hx : s.srWrite 0x031 r = if srReserved 0x031 (r.bits.truncate 64) then s else
      ({ s with core := { s.core with ipend := s.core.ipend &&& ~~~((r.bits.truncate 64 : Word).truncate 2) } } : State).timer := rfl
  rw [hx, hlow h, if_neg Bool.false_ne_true]
  unfold State.timer
  dsimp only
  split
  · rfl
  · exact congrArg (fun q : BitVec 2 => ({ s with core := { s.core with ipend := q } } : State)) BitVec.or_zero.symm

end Keeping

/-- Settles O47, register by register of the map. -/
theorem systemRegisters : Obligations.SystemRegisters := by
  unfold Obligations.SystemRegisters
  intro s st d p w h k n c x num bit lctl port u uH0 yH0 y rd wr v r off put keep lw hi
  refine ⟨?_, ?_, ?_, ?_, fun hoff => ?_, ?_, ?_, ?_, ?_, ?_, ?_, fun hy => ?_⟩
  · simp only [u, List.forall_mem_cons]
    exact ⟨srd_u st d hi rfl rfl, srd_u st d hi rfl rfl, srd_u st d hi rfl rfl, srd_u st d hi rfl rfl, srd_u st d hi rfl rfl,
      srd_u st d hi rfl rfl, srd_u st d hi rfl rfl, srd_u st d hi rfl rfl, srd_u st d hi rfl rfl, srd_u st d hi rfl rfl,
      srd_u st d hi rfl rfl, srd_u st d hi rfl rfl, srd_u st d hi rfl rfl, srd_u st d hi rfl rfl, srd_u st d hi rfl rfl,
      srd_u st d hi rfl rfl, srd_u st d hi rfl rfl, srd_u st d hi rfl rfl, srd_u st d hi rfl rfl, srd_u st d hi rfl rfl,
      srd_u st d hi rfl rfl, srd_u st d hi rfl rfl, srd_u st d hi rfl rfl, srd_u st d hi rfl rfl, fun _ hq => nomatch hq⟩
  · simp only [uH0, List.forall_mem_cons]
    exact ⟨srd_ownU st d hi (portRow p 0) (srRead_port p 0), srd_ownU st d hi (portRow p 1) (srRead_port p 1),
      srd_ownU st d hi (portRow p 2) (srRead_port p 2),
      srd_ownU st d hi (portRow p 3) ((srRead_port p 3).trans (congrArg scalar (setWidth_word _))),
      srd_ownU st d hi (portRow p 4) ((srRead_port p 4).trans (congrArg scalar (setWidth_word _))), fun _ hq => nomatch hq⟩
  · simp only [yH0, List.forall_mem_cons]
    exact ⟨srd_ownY st d hi rfl rfl, srd_ownY st d hi rfl rfl, srd_ownY st d hi rfl rfl, srd_ownY st d hi rfl rfl,
      srd_ownY st d hi (handlerRow k) (srRead_handler k), srd_ownY st d hi rfl rfl, srd_ownY st d hi rfl rfl, srd_ownY st d hi rfl rfl,
      srd_ownY st d hi rfl rfl, srd_ownY st d hi rfl rfl, srd_ownY st d hi rfl rfl, fun _ hq => nomatch hq⟩
  · simp only [y, List.forall_mem_cons]
    exact ⟨srd_y st d hi rfl rfl, srd_y st d hi rfl (congrArg scalar (setWidth_word _)),
      srd_y st d hi rfl ((congrArg (fun q : BitVec 2 => scalar (q.zeroExtend 64)) timer_ipend).trans (congrArg scalar (setWidth_word _))),
      srd_y st d hi rfl rfl, srd_y st d hi (watchRow w 0) (srRead_watch w).1, srd_y st d hi (watchRow w 1) (srRead_watch w).2,
      srd_y st d hi (homeRow h 0) (srRead_home h).1, srd_y st d hi (homeRow h 1) (srRead_home h).2.1,
      srd_y st d hi (homeRow h 2) (srRead_home h).2.2, srd_y st d hi rfl rfl, fun _ hq => nomatch hq⟩
  · obtain ⟨h7, -, hl, hp⟩ := hoff
    have hnone := srRow_unlisted h7 hl hp
    have htv : n.zeroExtend 80 = BitVec.ofNat 80 n.toNat := (BitVec.ofNat_toNat 80 n).symm
    rw [htv]
    exact ⟨(sr_illegal st d hi.notStopped).1 (srIllegal_unlisted hnone), (sr_illegal st d hi.notStopped).2 (srIllegal_unlisted hnone)⟩
  · simp only [List.forall_mem_cons]
    exact ⟨swr_no st d hi rfl, swr_no st d hi rfl, swr_no st d hi rfl, swr_no st d hi rfl, swr_no st d hi rfl, swr_no st d hi rfl,
      swr_no st d hi rfl, swr_no st d hi rfl, swr_no st d hi rfl, swr_no st d hi rfl, swr_no st d hi rfl, swr_no st d hi rfl,
      swr_no st d hi rfl, swr_no st d hi rfl, swr_no st d hi rfl, swr_no st d hi rfl, fun _ hq => nomatch hq⟩
  · exact writesC_of (issue_retires (g := { st := st.val }) (canIssue_mono hi (List.nil_subset _)) rfl rfl rfl)
  · obtain ⟨hset, hzero⟩ := srWrite_rmode (s := s) (r := s.rc d)
    split
    case isTrue hv => exact swr_u st d hi rfl (hset hv)
    case isFalse hv => exact swr_u st d hi rfl (hzero hv)
  · exact swr_u st d hi rfl (srWrite_core (.inl (by decide)) (by decide) rfl rfl)
  · exact swr_u st d hi rfl (srWrite_core (.inl (by decide)) (by decide) rfl rfl)
  · split
    case isTrue hv =>
      exact swr_u st d hi rfl (srWrite_core (.inr (by decide)) (by decide)
        (Bool.or_eq_false_iff.mpr ⟨decide_eq_false (not_not.mpr hv.1), decide_eq_false (not_not.mpr hv.2)⟩) rfl)
    case isFalse hv =>
      refine swr_u st d hi rfl (srWrite_reserved (Bool.or_eq_true_iff.mpr ?_))
      by_cases h1 : fld v 11 21 = 0
      · exact .inr (decide_eq_true fun h2 => hv ⟨h1, h2⟩)
      · exact .inl (decide_eq_true h1)
  · have hnot {P : Prop} (hf : false = true) : P := nomatch hf
    have below {i lo : Nat} {e : Core} (hrow : srRow i = some ⟨.y, .y, false⟩ ∨ srRow i = some ⟨.u, .y, false⟩) (hlo : lo ≤ 64)
        (hb : i < 4 ∨ 6 < i) (ht : i ≠ 0x031) (hr : srReserved i v = decide (fld v lo (64 - lo) ≠ 0))
        (he : c.srWrite (s.pc / 2 ^ 64) i r = e) : if v.toNat < 2 ^ lo then put i e else keep i := by
      obtain ⟨hset, hkeep⟩ := srWrite_below (s := s) (r := r) hlo hb ht hr he
      split
      case isTrue hv => exact hrow.elim (fun q => swr_y st d hi hy q hnot (hset hv)) (fun q => swr_y st d hi hy q hnot (hset hv))
      case isFalse hv => exact hrow.elim (fun q => swr_y st d hi hy q hnot (hkeep hv)) (fun q => swr_y st d hi hy q hnot (hkeep hv))
    refine ⟨below (i := 0x000) (lo := 5) (.inr rfl) (by decide) (.inl (by decide)) (by decide) rfl rfl, ?_, ?_,
      below (i := 0x030) (lo := 2) (.inl rfl) (by decide) (.inr (by decide)) (by decide) rfl rfl, ?_, ?_, ?_, ?_, ?_, ?_, ?_,
      below (i := 0x0B0) (lo := 2) (.inl rfl) (by decide) (.inr (by decide)) (by decide) rfl rfl, fun hh => ?_⟩
    · simp only [List.forall_mem_cons]
      have moves {i b0 b1 b2 : Nat} (hrow : srRow i = some ⟨.u, .y, false⟩) (hr : srReserved i v = decide (fld v 9 55 ≠ 0))
          (hx : s.srWrite i r = if srReserved i v then s else s.setBounds b0 b1 b2) :
          (v.toNat < 512 → boundsOk c b0 b1 b2 = true → wr i = s.retire st.val (s.moveBounds b0 b1 b2)) ∧
          (512 ≤ v.toNat ∨ boundsOk c b0 b1 b2 = false → keep i) := by
        obtain ⟨hset, hkeep⟩ := srWrite_bounds hr hx
        exact ⟨fun hv hb => swr_y st d hi hy hrow hnot (hset hv hb), fun hv => swr_y st d hi hy hrow hnot (hkeep hv)⟩
      exact ⟨moves rfl rfl rfl, moves rfl rfl rfl, moves rfl rfl rfl, fun _ hq => nomatch hq⟩
    · exact swr_y st d hi hy (i := 0x016) rfl hnot (srWrite_core (.inr (by decide)) (by decide) rfl rfl)
    · obtain ⟨hset, hkeep⟩ := srWrite_ipend (s := s) (r := r)
      split
      case isTrue hv => exact swr_y st d hi hy rfl hnot (hset hv)
      case isFalse hv => exact swr_y st d hi hy rfl hnot (hkeep hv)
    · exact swr_y st d hi hy (i := 0x032) rfl hnot (srWrite_core (.inr (by decide)) (by decide) rfl rfl)
    · exact swr_y st d hi hy (watchRow w 0) hnot (srWrite_core (.inr (by omega)) (by omega) (reserved_watch w _).1 (srWrite_watch w).1)
    · split
      case isTrue hv =>
        exact swr_y st d hi hy (watchRow w 1) hnot (srWrite_core (.inr (by omega)) (by omega)
          ((reserved_watch w _).2.trans (decide_eq_false (not_not.mpr hv.2))) ((srWrite_watch w).2.trans (if_pos hv.1)))
      case isFalse hv =>
        refine swr_y st d hi hy (watchRow w 1) hnot ?_
        by_cases h9 : fld v 9 39 = 0
        · exact srWrite_same (.inr (by omega)) (by omega) ((srWrite_watch w).2.trans (if_neg fun h6 => hv ⟨h6, h9⟩))
        · exact srWrite_reserved ((reserved_watch w _).2.trans (decide_eq_true h9))
    · exact swr_y st d hi hy (homeRow h 0) hnot (srWrite_core (.inr (by omega)) (by omega) (reserved_home h _).1 (srWrite_home h).1)
    · split
      case isTrue hv =>
        exact swr_y st d hi hy (homeRow h 1) hnot (srWrite_core (.inr (by omega)) (by omega)
          ((reserved_home h _).2.1.trans (decide_eq_false (not_not.mpr hv.2.2)))
          ((srWrite_home h).2.1.trans (if_pos (Bool.and_eq_true_iff.mpr ⟨decide_eq_true hv.1, decide_eq_true hv.2.1⟩))))
      case isFalse hv =>
        refine swr_y st d hi hy (homeRow h 1) hnot ?_
        by_cases h8 : fld v 8 40 = 0
        · refine srWrite_same (.inr (by omega)) (by omega) ((srWrite_home h).2.1.trans (if_neg fun hc => ?_))
          obtain ⟨h7, h40⟩ := Bool.and_eq_true_iff.mp hc
          exact hv ⟨of_decide_eq_true h7, of_decide_eq_true h40, h8⟩
        · exact srWrite_reserved ((reserved_home h _).2.1.trans (decide_eq_true h8))
    · split
      case isTrue hv =>
        exact swr_y st d hi hy (homeRow h 2) hnot (srWrite_core (.inr (by omega)) (by omega)
          ((reserved_home h _).2.2.trans (decide_eq_false (not_not.mpr hv.2))) ((srWrite_home h).2.2.trans (if_neg hv.1)))
      case isFalse hv =>
        refine swr_y st d hi hy (homeRow h 2) hnot ?_
        by_cases h33 : fld v 33 31 = 0
        · refine srWrite_same (.inr (by omega)) (by omega) ((srWrite_home h).2.2.trans (if_pos ?_))
          exact not_not.mp fun h0 => hv ⟨h0, h33⟩
        · exact srWrite_reserved ((reserved_home h _).2.2.trans (decide_eq_true h33))
    · have own {i : Nat} {e : Core} (hrow : srRow i = some ⟨.y, .y, true⟩) (hb : i < 4 ∨ 6 < i) (ht : i ≠ 0x031) (hr : srReserved i v = false)
          (he : c.srWrite (s.pc / 2 ^ 64) i r = e) : put i e :=
        swr_y st d hi hy hrow (fun _ => hh) (srWrite_core hb ht hr he)
      have ownBelow {i lo : Nat} {e : Core} (hrow : srRow i = some ⟨.y, .y, true⟩) (hlo : lo ≤ 64) (hb : i < 4 ∨ 6 < i) (ht : i ≠ 0x031)
          (hr : srReserved i v = decide (fld v lo (64 - lo) ≠ 0)) (he : c.srWrite (s.pc / 2 ^ 64) i r = e) :
          if v.toNat < 2 ^ lo then put i e else keep i := by
        obtain ⟨hset, hkeep⟩ := srWrite_below (s := s) (r := r) hlo hb ht hr he
        split
        case isTrue hv => exact swr_y st d hi hy hrow (fun _ => hh) (hset hv)
        case isFalse hv => exact swr_y st d hi hy hrow (fun _ => hh) (hkeep hv)
      exact ⟨ownBelow (i := 0x011) (lo := 7) rfl (by decide) (.inr (by decide)) (by decide) rfl rfl,
        own (i := 0x012) rfl (.inr (by decide)) (by decide) rfl rfl,
        ownBelow (i := 0x013) (lo := 16) rfl (by decide) (.inr (by decide)) (by decide) rfl rfl,
        own (i := 0x014) rfl (.inr (by decide)) (by decide) rfl rfl,
        own (handlerRow k) (.inr (by omega)) (by omega) (reserved_handler k _) (srWrite_handler k),
        own (i := 0x028) rfl (.inr (by decide)) (by decide) rfl rfl,
        ownBelow (i := 0x029) (lo := 14) rfl (by decide) (.inr (by decide)) (by decide) rfl rfl,
        own (i := 0x02A) rfl (.inr (by decide)) (by decide) rfl rfl, own (i := 0x02B) rfl (.inr (by decide)) (by decide) rfl rfl,
        own (i := 0x02C) rfl (.inr (by decide)) (by decide) rfl rfl, own (i := 0x02D) rfl (.inr (by decide)) (by decide) rfl rfl⟩

end Sys2Proof.Proofs
end

section
/-! PROOFS. A load whose walk sets AC in an entry that a home watchpoint watches, at a machine that lists one core number twice
(R226, R231, R258): what `Quiet` asks of the cores that stand after the walk does not bind those before it. -/
namespace Sys2Proof.Proofs
open Sys2Proof Sys2Proof.Machine Sys2Proof.Laws
set_option Elab.async false

/-- c1 covers 128 bytes of the second page with permission L. -/
def relistedCtx : Ctx :=
  { c := (Vector.replicate 32 Cap.null).set 1 (capOf (65536 + 1024) 128 (2 ^ pL)) }

/-- Core 1 as it is listed first: its watchpoint would stop its gang, and is not enabled. -/
def calmWatcher : Core := { id := 1, job := some 0, hwc := (Vector.replicate 2 0).set 0 2 }

/-- Core 1 as it is listed again: the watchpoint is enabled over the second page. -/
def armedWatcher : Core :=
  { id := 1, job := some 0, hwc := (Vector.replicate 2 0).set 0 (1 + 4 * 16), hwa := (Vector.replicate 2 0).set 0 65536 }

/-- One node holds the tables: its entry 0 leads to itself, and its entry 1 is the leaf of the second page, with AC clear. -/
def relistedState : State :=
  { pkg := some 0, dies := Vector.replicate 4 .online, stackOn := Vector.replicate 8 true
    core := { job := some 0, ctxs := (Vector.replicate 11 {}).set 0 relistedCtx }
    others := [calmWatcher, armedWatcher], jobs := [{ spec := { asid := 0, root := 0, gang := [0] } }], mem := [(0, 1), (8, 3)] }

/-- The piece that the load touches. -/
def relistedSeg : Seg := ⟨65536 + 1024, 1024, 8, some ⟨8, 0x83, 0⟩⟩

/-- The access of LD.D through c1. -/
def relistedAccess : EStateM.Result Stop State (List Seg) :=
  access (relistedState.rc 1) [pL] ((capA (relistedState.rc 1) : Int) + 0 * (8 : Nat)) 8 8 .load relistedState

/-- The state that the walk has left. -/
def relistedWalked : State :=
  match relistedAccess with
  | .ok _ t => t
  | .error _ t => t

theorem relistedState_access : relistedAccess = .ok [relistedSeg] relistedWalked := by
  rfl

/-- The walk's write has met the watchpoint, whose core is then listed once, with no watchpoint enabled. -/
theorem relistedWalked_quiet : relistedWalked.Quiet 1024 8 8 where
  up := by decide +kernel
  loose := by decide +kernel
  rings := by decide +kernel
  own := by decide +kernel
  homes := by decide +kernel
  sizes := by decide +kernel
  fresh := by decide +kernel

/-- Whether the core in focus is told to stop after an answer. -/
def toldAfter : Host.Outcome State Fault Refusal → Bool
  | .next t => t.core.stopReq
  | _ => false

theorem relistedState_told : toldAfter (exec (.ldD 0 2 1 0) relistedState) = true := by
  decide +kernel

theorem relistedState_canIssue : relistedState.CanIssue [rdC 1] :=
  ⟨by decide, by decide, by decide, by decide⟩

/-- Refutes O9: the load's walk has its own gang told to stop, where the statement has nothing of the core but caches and the
translation buffer change. The state lists core 1 twice: the statement ranges over every state, and asks for quiet places only of the
state that the walk leaves. -/
theorem not_loadResults : ¬ Obligations.LoadResults := by
  unfold Obligations.LoadResults
  intro h
  obtain ⟨-, -, -, -, -, -, hld, -⟩ := h relistedState relistedWalked relistedSeg 0 0 2 1 0 0 0 rfl
  obtain ⟨t, hexec, -, hcaches, -⟩ := hld relistedState_canIssue relistedState_access relistedWalked_quiet
  have htold := relistedState_told
  rw [hexec, toldAfter, hcaches.core] at htold
  exact Bool.false_ne_true htold

end Sys2Proof.Proofs
end

section
/-! PROOFS. The order of values, and the columns that MTOPK ranks (R204). -/
namespace Sys2Proof.Proofs
open Sys2Proof Sys2Proof.Machine Sys2Proof.Laws
set_option Elab.async false

/-! ### The order of values that are no NaN -/

/-- The number that a finite value stands for. -/
def ratOf (neg : Bool) (n : Nat) (e : Int) : ℚ := (if neg then -(n : ℚ) else n) * (2 : ℚ) ^ e

/-- A value's place in the order: a NaN below all, then the infinity below zero, the numbers, and the infinity above zero. -/
def valKey : Val → ℤ ×ₗ ℚ
  | .nan => toLex (-3, 0)
  | .inf true => toLex (-2, 0)
  | .inf false => toLex (2, 0)
  | .fin a n e => toLex (0, ratOf a n e)

section Order

variable {x y z : Val}

theorem inUnits_rat (neg : Bool) (n : Nat) {e k : Int} (h : k ≤ e) : ((inUnits neg n e k : ℤ) : ℚ) * (2 : ℚ) ^ k = ratOf neg n e := by
  have hup : ((up2 e k : ℕ) : ℚ) * (2 : ℚ) ^ k = (2 : ℚ) ^ e := by
    rw [up2, Nat.cast_pow, Nat.cast_ofNat, ← zpow_natCast, Int.toNat_of_nonneg (by omega), ← zpow_add₀ (by norm_num)]
    congr 1
    omega
  unfold inUnits ratOf
  cases neg with
  | false =>
    rw [if_neg Bool.false_ne_true, if_neg Bool.false_ne_true, ← hup]
    push_cast
    ring
  | true =>
    rw [if_pos rfl, if_pos rfl, ← hup]
    push_cast
    ring

theorem inUnits_lt (a b : Bool) (n m : Nat) (e g : Int) :
    inUnits a n e (min e g) < inUnits b m g (min e g) ↔ ratOf a n e < ratOf b m g := by
  rw [← inUnits_rat a n (min_le_left e g), ← inUnits_rat b m (min_le_right e g),
    mul_lt_mul_iff_left₀ (zpow_pos (by norm_num) _), Int.cast_lt]

theorem vCmp_gt_iff (hx : x ≠ .nan) (hy : y ≠ .nan) : vCmp x y = .gt ↔ valKey y < valKey x := by
  have hrank (a : Bool) (n : Nat) : (-1 : ℤ) ≤ (if n = 0 then 0 else if a then -1 else 1) ∧
      ((if n = 0 then 0 else if a then -1 else 1) : ℤ) ≤ 1 := by
    split
    · omega
    · split <;> omega
  cases x with
  | nan => exact absurd rfl hx
  | inf a =>
    cases y with
    | nan => exact absurd rfl hy
    | inf b => cases a <;> cases b <;> simp [vCmp, valKey, Prod.Lex.toLex_lt_toLex] <;> decide
    | fin b m g =>
      have := hrank b m
      cases a <;> simp only [vCmp, valKey, compare_gt_iff_gt, Prod.Lex.toLex_lt_toLex] <;> omega
  | fin a n e =>
    cases y with
    | nan => exact absurd rfl hy
    | inf b =>
      have := hrank a n
      cases b <;> simp only [vCmp, valKey, compare_gt_iff_gt, Prod.Lex.toLex_lt_toLex] <;> omega
    | fin b m g =>
      rw [vCmp, compare_gt_iff_gt, min_comm]
      simp only [valKey, Prod.Lex.toLex_lt_toLex, lt_irrefl, false_or, true_and]
      exact inUnits_lt b a m n g e

theorem valKey_nan (h : x ≠ .nan) : valKey .nan < valKey x := by
  cases x with
  | nan => exact absurd rfl h
  | inf a => cases a <;> simp [valKey, Prod.Lex.toLex_lt_toLex]
  | fin a n e => simp [valKey, Prod.Lex.toLex_lt_toLex]

/-- MTOPK's order is that of the keys. -/
theorem accBefore_iff : accBefore x y = true ↔ valKey y < valKey x := by
  unfold accBefore
  by_cases hx : x = .nan
  · subst hx
    by_cases hy : y = .nan
    · subst hy
      simp
    · simp [(valKey_nan hy).not_gt]
  · rw [if_neg (by simpa using hx)]
    by_cases hy : y = .nan
    · subst hy
      simp [valKey_nan hx]
    · rw [if_neg (by simpa using hy), beq_iff_eq, vCmp_gt_iff hx hy]

theorem accBefore_false_iff : accBefore x y = false ↔ valKey x ≤ valKey y := by
  rw [← Bool.not_eq_true, accBefore_iff, not_lt]

end Order

/-! ### Columns in that order -/

/-- A column stands before another: its value is larger, or it is the lower of two equals. -/
def Ranks (p q : Nat × Val) : Prop := accBefore p.2 q.2 = true ∨ (accBefore q.2 p.2 = false ∧ p.1 < q.1)

theorem topInsert_perm (x : Nat × Val) (ys : List (Nat × Val)) : (topInsert x ys).Perm (x :: ys) := by
  induction ys with
  | nil => exact .refl _
  | cons y ys ih =>
    rw [topInsert]
    split
    · exact (ih.cons y).trans (.swap x y ys)
    · exact .refl _

theorem topInsert_ranked {x : Nat × Val} {ys : List (Nat × Val)} (h : ys.Pairwise Ranks) (hx : ∀ y ∈ ys, x.1 < y.1) :
    (topInsert x ys).Pairwise Ranks := by
  induction ys with
  | nil => exact List.pairwise_singleton _ _
  | cons y ys ih =>
    obtain ⟨hy, hys⟩ := List.pairwise_cons.mp h
    rw [topInsert]
    split
    case isTrue hlt =>
      refine List.pairwise_cons.mpr ⟨fun z hz => ?_, ih hys fun w hw => hx w (List.mem_cons_of_mem _ hw)⟩
      rcases List.mem_cons.mp ((topInsert_perm x ys).mem_iff.mp hz) with rfl | hz
      · exact .inl hlt
      · exact hy z hz
    case isFalse hlt =>
      have hle : valKey y.2 ≤ valKey x.2 := accBefore_false_iff.mp (by simpa using hlt)
      refine List.pairwise_cons.mpr ⟨fun z hz => .inr ⟨accBefore_false_iff.mpr ?_, hx z hz⟩, h⟩
      rcases List.mem_cons.mp hz with rfl | hz
      · exact hle
      · rcases hy z hz with h1 | ⟨h1, -⟩
        · exact (accBefore_iff.mp h1).le.trans hle
        · exact (accBefore_false_iff.mp h1).trans hle

/-- The columns of a row with their values. -/
def rowCols (row : List Val) : List (Nat × Val) := row.zipIdx.map (fun p => (p.2, p.1))

theorem rowCols_fst (row : List Val) : (rowCols row).map (·.1) = List.range row.length := by
  rw [rowCols, List.map_map]
  exact (List.zipIdx_map_snd 0 row).trans List.range_eq_range'.symm

theorem rowCols_value {row : List Val} {p : Nat × Val} (h : p ∈ rowCols row) : p.2 = row.getD p.1 .nan := by
  obtain ⟨q, hq, rfl⟩ := List.mem_map.mp h
  have := List.mem_zipIdx_iff_getElem?.mp hq
  simp [List.getD_eq_getElem?_getD, this]

theorem foldr_topInsert_perm (xs : List (Nat × Val)) : (xs.foldr topInsert []).Perm xs := by
  induction xs with
  | nil => exact .refl _
  | cons x xs ih => exact (topInsert_perm x _).trans (ih.cons x)

theorem foldr_topInsert_ranked {xs : List (Nat × Val)} (h : xs.Pairwise (fun p q => p.1 < q.1)) : (xs.foldr topInsert []).Pairwise Ranks := by
  induction xs with
  | nil => exact List.Pairwise.nil
  | cons x xs ih =>
    obtain ⟨hx, hxs⟩ := List.pairwise_cons.mp h
    exact topInsert_ranked (ih hxs) fun y hy => hx y ((foldr_topInsert_perm xs).mem_iff.mp hy)

theorem topCols_perm (row : List Val) : (topCols row).Perm (List.range row.length) := by
  rw [← rowCols_fst]
  exact (foldr_topInsert_perm (rowCols row)).map _

theorem topCols_ranked (row : List Val) : (topCols row).Pairwise (fun x y => accBefore (row.getD x .nan) (row.getD y .nan) = true ∨
    (accBefore (row.getD y .nan) (row.getD x .nan) = false ∧ x < y)) := by
  have hcols : (rowCols row).Pairwise (fun p q => p.1 < q.1) := by
    rw [← List.pairwise_map (f := fun p : Nat × Val => p.1) (R := (· < ·)), rowCols_fst]
    exact List.pairwise_lt_range
  refine List.pairwise_map.mpr ((foldr_topInsert_ranked hcols).imp_of_mem fun {p q} hp hq h => ?_)
  rw [← rowCols_value ((foldr_topInsert_perm _).mem_iff.mp hp), ← rowCols_value ((foldr_topInsert_perm _).mem_iff.mp hq)]
  exact h

end Sys2Proof.Proofs
end

section
/-! PROOFS. Reading and ranking the accumulator (R202 to R204). -/
namespace Sys2Proof.Proofs
open Sys2Proof Sys2Proof.Machine Sys2Proof.Laws
set_option Elab.async false

section Reading

variable {s v : State} (st : Fin 8) {d : Fin 64} (a b : Fin 32) {k : Nat}

theorem accRow_length (rs : List Nat) (accf i : Nat) : (accRow rs accf i).length = accCols accf := by
  rw [accRow, List.length_map, List.length_range]

/-- The elements of a row as they are written into a register. -/
theorem rowElems_getD (row : List Val) (f : Nat → Val → Nat) (e : Nat) :
    (row.zipIdx.map (fun x => f x.2 x.1)).getD e 0 = (row[e]?).elim 0 (f e) := by
  rw [List.getD_eq_getElem?_getD, List.getElem?_map, List.getElem?_zipIdx, Nat.zero_add]
  cases row[e]? <;> rfl

/-- A register of elements that a list gives. -/
theorem hasElems_ofElems {w : Nat} {xs : List Nat} {f : Nat → Nat} (h : ∀ e, xs.getD e 0 = f e) : HasElems (ofElems w xs) w f := by
  intro e he
  have hmul : (1024 / w) * w ≤ 1024 := Nat.div_mul_le_self 1024 w
  have hfit : w * e + w ≤ 1024 := by
    calc w * e + w = (e + 1) * w := by ring
      _ ≤ (1024 / w) * w := Nat.mul_le_mul_right w he
      _ ≤ 1024 := hmul
  rw [elem_ofElems xs hfit, h]

/-- What ACCRD writes into its v register. -/
def accrdReg (s : State) (a : Fin 32) : VReg :=
  ofElems (tyWidth s.vt) ((accRow s.accRegs (oACCF s.o1) (fld (s.rx a) 0 5)).zipIdx.map (fun x =>
    encodeTy s.vt s.round x.2 (oACCF s.o1 = 1) x.1))

/-- ACCRD's work. -/
def accrdDone (s : State) (d : Fin 64) (a b : Fin 32) : State :=
  ((s.wv d (accrdReg s a)).wx b s.core.stepWord).srDone (accRounds (oACCF s.o1) s.vt)

/-- ACCRD's operation. -/
def accrdBody (d : Fin 64) (a b : Fin 32) (accf : Nat) (rounds : Bool) : Op Unit := do
  let s ← get
  let row := accRow s.accRegs accf (fld (s.rx a) 0 5)
  let v := ofElems (tyWidth s.vt) (row.zipIdx.map (fun x => encodeTy s.vt s.round x.2 (accf = 1) x.1))
  upd fun s => ((s.wv d v).wx b s.core.stepWord).srDone rounds

theorem accrd_eq : execAccrd st d a b s = issue (({ more := [d] } : VUse).gate st.val
    (!s.core.mm || !o1ok s.o1 || s.vtBad (accrdType (oACCF s.o1)) || (s.rndBad && accRounds (oACCF s.o1) s.vt)) [rdC a] s)
    (accrdBody d a b (oACCF s.o1) (accRounds (oACCF s.o1) s.vt)) s := rfl

theorem accrd_run : accrdBody d a b (oACCF s.o1) (accRounds (oACCF s.o1) s.vt) s = .ok () (accrdDone s d a b) := by
  rw [accrdBody, run_bind, get_run, andThen]
  exact upd_run _ _

/-- The gate of an instruction that only writes registers beyond the accumulator. -/
theorem gate_more {ns : List (Fin 64)} (st : Nat) {ill : Bool} (reads : List (RegFile × Nat)) (hh : s.helper = false) (hill : ill = false)
    (hb : ∀ n ∈ ns, s.boundPort n = false) (hf : s.core.mm = true → ∀ n ∈ ns, 36 ≤ n.val) :
    ({ more := ns } : VUse).gate st ill reads s = { st := st, ill := false, acc := none, reads := rdM 0 :: reads } := by
  have hany : ns.any s.boundPort = false := List.any_eq_false.mpr fun n hn => by rw [hb n hn]; exact Bool.false_ne_true
  have hbad : ({ more := ns } : VUse).portBad s = false := by
    unfold VUse.portBad
    dsimp only
    rw [hany]
    rfl
  have hnamed : ({ more := ns } : VUse).named = ns := by simp [VUse.named]
  unfold VUse.gate
  rw [hh, hill, hbad, hnamed, owned_free hf]
  rfl

theorem stepWord_wv (d : Fin 64) (v : VReg) : (s.wv d v).core.stepWord = s.core.stepWord := rfl

theorem accrd_retires (hmm : s.core.mm = true) (ho1 : o1ok s.o1 = true) (hpl : s.Plain [d]) (hty : s.Typed s.vt)
    (hok : accrdType (oACCF s.o1) s.vt = true) (hr : accRounds (oACCF s.o1) s.vt = true → oRND s.o0 ≠ 7) (hi : s.CanIssue [rdM 0, rdC a]) :
    execAccrd st d a b s = s.retire st.val (accrdDone s d a b) := by
  have hrnd : (s.rndBad && accRounds (oACCF s.o1) s.vt) = false := by
    cases hx : accRounds (oACCF s.o1) s.vt with
    | false => exact Bool.and_false _
    | true => rw [State.rndBad, decide_eq_false (hr hx)]; rfl
  have hill : (!s.core.mm || !o1ok s.o1 || s.vtBad (accrdType (oACCF s.o1)) || (s.rndBad && accRounds (oACCF s.o1) s.vt)) = false := by
    rw [hmm, ho1, vtBad_typed hty hok, hrnd]
    rfl
  rw [accrd_eq, gate_more st.val [rdC a] hpl.h0 hill hpl.unbound hpl.free]
  exact issue_retires (g := { st := st.val, ill := false, acc := none, reads := [rdM 0, rdC a] }) hi rfl rfl (accrd_run a b)

theorem accrdReg_holds (e : Nat) (he : e < 1024 / tyWidth s.vt) : elem (accrdReg s a) (tyWidth s.vt) e =
    (((accRow s.accRegs (oACCF s.o1) ((s.rx a).toNat % 32))[e]?).elim 0 (fun x => encodeTy s.vt s.round e (oACCF s.o1 = 1) x)) %
      2 ^ tyWidth s.vt := by
  have hrow : fld (s.rx a) 0 5 = (s.rx a).toNat % 32 := by
    unfold fld
    rw [pow_zero, Nat.div_one]
    rfl
  unfold accrdReg
  rw [hrow]
  exact hasElems_ofElems (fun e => rowElems_getD _ (fun e x => encodeTy s.vt s.round e (oACCF s.o1 = 1) x) e) e he

theorem accrdDone_srctr (hh : s.helper = false) : (accrdDone s d a b).core.srctr =
    if accRounds (oACCF s.o1) s.vt = true ∧ s.rnd = 6 then s.core.srctr + 1 else s.core.srctr := by
  have ho : ((s.wv d (accrdReg s a)).wx b s.core.stepWord).ctx.o = s.ctx.o := (wx_ctx_o _ _ _).trans (wv_stands hh d _).2.2
  have hrnd : ((s.wv d (accrdReg s a)).wx b s.core.stepWord).rnd = s.rnd := by
    unfold State.rnd State.o0 State.ro
    rw [ho]
    rfl
  unfold accrdDone State.srDone
  rw [hrnd]
  by_cases hb : accRounds (oACCF s.o1) s.vt = true ∧ s.rnd = 6
  · rw [if_pos hb, if_pos (Bool.and_eq_true_iff.mpr ⟨hb.1, decide_eq_true hb.2⟩)]
    rfl
  · rw [if_neg hb, if_neg fun hc => hb ⟨(Bool.and_eq_true_iff.mp hc).1, of_decide_eq_true (Bool.and_eq_true_iff.mp hc).2⟩]
    rfl

theorem accrdDone_eq : accrdDone s d a b = { (s.wv d (accrdReg s a)).wx b s.core.stepWord with
    core := { ((s.wv d (accrdReg s a)).wx b s.core.stepWord).core with srctr := (accrdDone s d a b).core.srctr } } := srDone_eq _ _

/-- What ACCRD leaves once it has retired. -/
theorem accrd_reads (hh : s.helper = false) :
    let t := (accrdDone s d a b).finish st.val s.ctx.loop.lact
    Advanced s t ∧ t.core.v = s.core.v.set d (accrdReg s a) ∧ WroteC s t b (scalar s.core.stepWord) ∧ t.mem = s.mem ∧
      t.core.mq = s.core.mq ∧ t.core.srctr = (accrdDone s d a b).core.srctr := by
  intro t
  obtain ⟨hst, hrc, -⟩ := wv_stands hh d (accrdReg s a)
  have hwx : Stands s ((s.wv d (accrdReg s a)).wx b s.core.stepWord) := hst.trans (stands_wc _ _ _)
  have hdone : Stands s (accrdDone s d a b) := by
    rw [accrdDone_eq]
    exact hwx.trans (stands_of_ctx rfl rfl)
  have hwrote : WroteC s (accrdDone s d a b) b (scalar s.core.stepWord) := by
    obtain ⟨h1, h2⟩ := wroteC_wc b (scalar s.core.stepWord) hrc
    rw [accrdDone_eq]
    exact ⟨h1, h2⟩
  have hcore : t.core = { (accrdDone s d a b).core with ctxs := t.core.ctxs, evc := t.core.evc } := finish_core_eq _ _ _
  refine ⟨advanced_finish hdone st.val ?_, ?_, wroteC_finish _ _ hwrote, ?_, ?_, ?_⟩
  · rw [accrdDone_eq]
    rfl
  · rw [finish_core_v, accrdDone_eq]
    rfl
  · rw [finish_mem, accrdDone_eq]
    rfl
  · rw [finish_core_mq, accrdDone_eq]
    rfl
  · rw [finish_core_srctr]

end Reading

/-! ### MTOPK (R204) -/

/-- Registers from one on written in turn. -/
def putTops (s : State) (d : Nat) (f : Nat → VReg) : Nat → State
  | 0 => s
  | k + 1 => (putTops s d f k).wv (Fin.ofNat 64 (d + k)) (f k)

section Ranking

variable {s : State} {f : Nat → VReg} {d k : Nat}

theorem zipIdx_range (F : Nat → Fin 64) (k : Nat) : ((List.range k).map F).zipIdx = (List.range k).map (fun r => (F r, r)) := by
  refine List.ext_getElem (by simp) fun i h1 h2 => ?_
  simp

theorem foldl_putTops : (((List.range k).map (fun r => Fin.ofNat 64 (d + r))).zipIdx).foldl (fun s x => s.wv x.1 (f x.2)) s =
    putTops s d f k := by
  rw [zipIdx_range (fun r => Fin.ofNat 64 (d + r)), List.foldl_map]
  induction k with
  | zero => rfl
  | succ k ih =>
    rw [List.range_succ, List.foldl_append, ih]
    rfl

/-- Of the machine, only the registers and what was pending for them differ. -/
theorem putTops_frame (hh : s.helper = false) (d : Nat) (f : Nat → VReg) (k : Nat) : Stands s (putTops s d f k) ∧
    (∀ c, (putTops s d f k).rc c = s.rc c) ∧ (putTops s d f k).mem = s.mem ∧ (putTops s d f k).core.evc = s.core.evc := by
  induction k with
  | zero => exact ⟨.refl s, fun _ => rfl, rfl, rfl⟩
  | succ k ih =>
    obtain ⟨hst, hrc, hm, he⟩ := ih
    have hh' : (putTops s d f k).helper = false := by
      rw [State.helper, hst.cur]
      exact hh
    obtain ⟨h1, h2, -⟩ := wv_stands hh' (Fin.ofNat 64 (d + k)) (f k)
    exact ⟨hst.trans h1, fun c => (h2 c).trans (hrc c), hm, he⟩

theorem putTops_rv (hk : d + k ≤ 64) (n : Fin 64) : (putTops s d f k).rv n = if d ≤ n.val ∧ n.val < d + k then f (n.val - d) else s.rv n := by
  induction k with
  | zero => rw [if_neg (by omega)]; rfl
  | succ k ih =>
    have hlt : (d + k) % 64 = d + k := Nat.mod_eq_of_lt (by omega)
    show ((putTops s d f k).core.v.set ((d + k) % 64) (f k) (Nat.mod_lt _ (by decide)))[n.val] = _
    rw [Vector.getElem_set, hlt]
    by_cases hn : d + k = n.val
    · rw [if_pos hn, if_pos (by omega), ← hn, Nat.add_sub_cancel_left]
    · rw [if_neg hn]
      refine (ih (by omega)).trans ?_
      by_cases hin : d ≤ n.val ∧ n.val < d + k
      · rw [if_pos hin, if_pos (by omega)]
      · rw [if_neg hin, if_neg (by omega)]

end Ranking

end Sys2Proof.Proofs
end

section
/-! PROOFS. MTOPK's result, and the drain of the accumulator (R204, R206 to R209, R421). -/
namespace Sys2Proof.Proofs
open Sys2Proof Sys2Proof.Machine Sys2Proof.Laws
set_option Elab.async false

section Ranked

variable {s : State} (st : Fin 8) {d : Fin 64} {k : Nat}

/-- The registers that MTOPK writes. -/
def topRange (d : Fin 64) (k : Nat) : List (Fin 64) := (List.range k).map (fun r => Fin.ofNat 64 (d.val + r))

/-- The columns at one rank, row by row. -/
def topReg (s : State) (q : Nat) : VReg :=
  ofElems 32 (((List.range 32).map (fun i => topCols (accRow s.accRegs (oACCF s.o1) i))).map (fun t => t.getD q 0))

/-- MTOPK's operation. -/
def mtopkBody (range : List (Fin 64)) : Op Unit := do
  let s ← get
  await (s.core.mq.all (fun j => j.kind == .drain))
  let rs := s.accRegs
  let tops := (List.range 32).map (fun i => topCols (accRow rs (oACCF s.o1) i))
  upd fun s => range.zipIdx.foldl (fun s x =>
    s.wv x.1 (ofElems 32 (tops.map (fun t => t.getD x.2 0)))) s

theorem mtopk_eq : execMtopk st d k s = issue (({ more := topRange d k } : VUse).gate st.val
    (!s.core.mm || k = 0 || decide (8 < k) || decide (64 < d.val + k) || !o1ok s.o1 || oACCF s.o1 = 3) [] s)
    (mtopkBody (topRange d k)) s := rfl

theorem mtopk_writes : upd (fun t => (topRange d k).zipIdx.foldl (fun t x => t.wv x.1 (topReg s x.2)) t) s =
    .ok () (putTops s d.val (topReg s) k) := by
  rw [upd_run, topRange, foldl_putTops]

theorem mtopk_run (hq : ∀ q ∈ s.core.mq, q.kind = .drain) : mtopkBody (topRange d k) s = .ok () (putTops s d.val (topReg s) k) := by
  have hall : s.core.mq.all (fun j => j.kind == .drain) = true := List.all_eq_true.mpr fun q h => by rw [hq q h]; rfl
  rw [mtopkBody, run_bind, get_run, andThen, run_bind, hall, await_true, andThen]
  exact mtopk_writes

theorem mem_topRange (hk : d.val + k ≤ 64) {n : Fin 64} (hn : n ∈ topRange d k) : d.val ≤ n.val ∧ n.val < d.val + k := by
  obtain ⟨r, hr, rfl⟩ := List.mem_map.mp hn
  have hr := List.mem_range.mp hr
  have hval : (Fin.ofNat 64 (d.val + r)).val = d.val + r := Nat.mod_eq_of_lt (by omega)
  rw [hval]
  omega

theorem mtopk_retires (hh : s.helper = false) (hmm : s.core.mm = true) (ho1 : o1ok s.o1 = true) (ha : oACCF s.o1 ≠ 3) (h1 : 1 ≤ k) (h8 : k ≤ 8)
    (h36 : 36 ≤ d.val) (hk : d.val + k ≤ 64) (hb : ∀ n : Fin 64, d.val ≤ n.val → n.val < d.val + k → s.boundPort n = false)
    (hi : s.CanIssue [rdM 0]) (hq : ∀ q ∈ s.core.mq, q.kind = .drain) :
    execMtopk st d k s = s.retire st.val (putTops s d.val (topReg s) k) := by
  have hill : (!s.core.mm || decide (k = 0) || decide (8 < k) || decide (64 < d.val + k) || !o1ok s.o1 || decide (oACCF s.o1 = 3)) = false := by
    rw [hmm, ho1, decide_eq_false (show k ≠ 0 by omega), decide_eq_false (show ¬ 8 < k by omega),
      decide_eq_false (show ¬ 64 < d.val + k by omega), decide_eq_false ha]
    rfl
  rw [mtopk_eq, gate_more st.val [] hh hill (fun n hn => hb n (mem_topRange hk hn).1 (mem_topRange hk hn).2)
    (fun _ n hn => h36.trans (mem_topRange hk hn).1)]
  exact issue_retires (g := { st := st.val, ill := false, acc := none, reads := [rdM 0] }) hi rfl rfl (mtopk_run hq)

theorem topCols_lt (rs : List Nat) (accf i : Nat) (q : Nat) : (topCols (accRow rs accf i)).getD q 0 < 2 ^ 32 := by
  rw [List.getD_eq_getElem?_getD]
  cases hc : (topCols (accRow rs accf i))[q]? with
  | none => exact Nat.two_pow_pos 32
  | some c =>
    have hm := (topCols_perm (accRow rs accf i)).mem_iff.mp (List.mem_of_getElem? hc)
    have hlt := List.mem_range.mp hm
    rw [accRow_length] at hlt
    have h32 : accCols accf ≤ 32 := by
      unfold accCols
      split
      · decide
      · exact Nat.le_refl 32
    exact Nat.lt_of_lt_of_le hlt (h32.trans (by decide))

theorem topReg_elem {i q : Nat} (hi : i < 32) :
    elem (topReg s q) 32 i = ((topCols (accRow s.accRegs (oACCF s.o1) i))[q]?).getD 0 := by
  unfold topReg
  rw [elem_ofElems _ (by omega), List.getD_eq_getElem?_getD, List.getElem?_map, List.getElem?_map, List.getElem?_range hi]
  dsimp only [Option.map_some, Option.getD_some]
  rw [Nat.mod_eq_of_lt (topCols_lt _ _ _ _), List.getD_eq_getElem?_getD]

end Ranked

/-! ### MDRAIN at issue (R206, R207, R421) -/

section Drain

variable {s s1 : State} (st : Fin 8) (da a b : Fin 32)

/-- What MDRAIN does once its checks have passed and its task is counted. -/
def drainTail (c : Cap) (accf t : Nat) (mxo : Bool) (target : Nat) (d : Fin 32) : Op Unit := do
  let s ← get
  let (s, r) := s.openJob clsMatrix id
  let j : MatJob :=
    { kind := .drain, ri := r.ri, ser := r.ser, accf := accf, rnd := s.rnd, sat := oSAT s.o0, srT := s.core.srctr
      srSeed := s.core.srseed, ofmt := t, mxo := mxo, wake := (s.ro 2).getLsbD 0, hnd := (s.ro 3).toNat
      arg0 := s.ro 4, arg1 := s.ro 5, addr := BitVec.ofNat 80 (capA c), target := target, pcc := s.ctx.pcc
      launch := s.myLaunch }
  let s := { s with core := { s.core with mq := s.core.mq ++ [j] } }
  set ((s.wx d r.word).srDone (accRounds accf t))

/-- MDRAIN's operation. -/
def mdrainBody (d a b : Fin 32) : Op Unit := do
  let s ← get
  let w := s.rx b
  let c := s.rc a
  let accf := oACCF s.o1
  let t := oOFMT s.o1
  let mxo := (s.ro 2).getLsbD 1
  let n := drainBytes accf t mxo
  let target := drainTarget w
  legal (hiClear w 22)
  capNeed c ([pS] ++ if target = s.myEid then [] else [pM]) (capA c) n 128
  match drainOut (capA c) n with
  | some x => raise .page x
  | none => pure ()
  need (!((s.ro 2).getLsbD 0 && (s.ro 3).getLsbD 0)) .align (s.ro 3).toNat
  await (decide (s.core.mq.length < 4))
  if (s.ro 2).getLsbD 0 && eidPkg target == s.pkgNo then countTask
  drainTail c accf t mxo target d

theorem mdrain_eq : execMdrain st da a b s = issue { st := st.val, ill := s.drainBad, reads := [rdC a, rdC b, rdO 0, rdO 1, rdO 2, rdO 3, rdO 4, rdO 5] }
    (mdrainBody da a b) s := rfl

/-- The job that MDRAIN samples from a state in which its record stands open. -/
def drainJob (s u : State) (a b : Fin 32) : MatJob :=
  { kind := .drain, ri := 0, ser := 0, accf := oACCF s.o1, rnd := u.rnd, sat := oSAT u.o0, srT := u.core.srctr
    srSeed := u.core.srseed, ofmt := oOFMT s.o1, mxo := (s.ro 2).getLsbD 1, wake := (u.ro 2).getLsbD 0, hnd := (u.ro 3).toNat
    arg0 := u.ro 4, arg1 := u.ro 5, addr := BitVec.ofNat 80 (capA (s.rc a)), target := drainTarget (s.rx b), pcc := u.ctx.pcc
    launch := u.myLaunch }

/-- The state in which the drain stands queued, its task counted in `u`. -/
def drainQueued (s u : State) (da a b : Fin 32) : State :=
  ((matQueued u (drainJob s (u.openJob clsMatrix id).1 a b)).wx da (newRec u clsMatrix id).word).srDone
    (accRounds (oACCF s.o1) (oOFMT s.o1))

theorem mdrain_run (hw : (s.rx b).toNat < 2 ^ 22)
    (hcap : capCheck (s.rc a) ([pS] ++ if drainTarget (s.rx b) = s.myEid then [] else [pM]) (capA (s.rc a))
      (drainBytes (oACCF s.o1) (oOFMT s.o1) ((s.ro 2).getLsbD 1)) 128 = none)
    (hout : drainOut (capA (s.rc a)) (drainBytes (oACCF s.o1) (oOFMT s.o1) ((s.ro 2).getLsbD 1)) = none)
    (heven : (s.ro 2).getLsbD 0 = true → (s.ro 3).toNat % 2 = 0) (hq : s.core.mq.length < 4)
    (hcount : if (s.ro 2).getLsbD 0 = true ∧ eidPkg (drainTarget (s.rx b)) = s.pkgNo then countTask s = .ok () s1 else s1 = s) :
    mdrainBody da a b s = .ok () (drainQueued s s1 da a b) := by
  have hodd : (!((s.ro 2).getLsbD 0 && (s.ro 3).getLsbD 0)) = true := by
    cases h2 : (s.ro 2).getLsbD 0 with
    | false => rfl
    | true =>
      have h3 : (s.ro 3).getLsbD 0 = false := by
        rw [getLsbD_zero]
        exact decide_eq_false (by have := heven h2; omega)
      rw [h3]
      rfl
  have htask (k : Op Unit) : ((if ((s.ro 2).getLsbD 0 && eidPkg (drainTarget (s.rx b)) == s.pkgNo) = true then do countTask; k else k) : Op Unit) s =
      k s1 := by
    by_cases hc : (s.ro 2).getLsbD 0 = true ∧ eidPkg (drainTarget (s.rx b)) = s.pkgNo
    · rw [if_pos hc] at hcount
      rw [if_pos (Bool.and_eq_true_iff.mpr ⟨hc.1, beq_iff_eq.mpr hc.2⟩), run_bind, hcount]
      rfl
    · rw [if_neg hc] at hcount
      rw [if_neg fun h => hc ⟨(Bool.and_eq_true_iff.mp h).1, beq_iff_eq.mp (Bool.and_eq_true_iff.mp h).2⟩, hcount]
  unfold mdrainBody
  rw [run_bind, get_run, andThen]
  dsimp only
  rw [run_bind, run_legal_true ((hiClear_iff _ _).mpr hw), andThen, run_bind, capNeed_ok _ hcap, andThen, hout]
  dsimp only
  rw [run_bind, hodd, need_true, andThen, run_bind, decide_eq_true hq, await_true, andThen, htask]
  rfl

end Drain

end Sys2Proof.Proofs
end

section
/-! PROOFS. The job that MDRAIN opens, the drain captured and sent, and O30 (R206 to R208). -/
namespace Sys2Proof.Proofs
open Sys2Proof Sys2Proof.Machine Sys2Proof.Laws
set_option Elab.async false

section Opened

variable {s s1 : State} (st : Fin 8) {da a b : Fin 32}

theorem countTask_device (h : countTask s = .ok () s1) : Device s s1 := by
  unfold countTask at h
  rw [run_bind, get_run, andThen] at h
  cases hc : s.countUp s.asid s.myLevel with
  | none =>
    rw [hc] at h
    cases h
  | some u =>
    rw [hc] at h
    cases h
    exact countUp_device (.refl s) hc

/-- Of the core, only the counter of stochastic rounding follows once the drain stands queued. -/
theorem drainQueued_eq (s u : State) : drainQueued s u da a b = { (matQueued u (drainJob s (u.openJob clsMatrix id).1 a b)).wx da
      (newRec u clsMatrix id).word with
    core := { ((matQueued u (drainJob s (u.openJob clsMatrix id).1 a b)).wx da (newRec u clsMatrix id).word).core with
      srctr := (drainQueued s u da a b).core.srctr } } :=
  srDone_eq ((matQueued u (drainJob s (u.openJob clsMatrix id).1 a b)).wx da (newRec u clsMatrix id).word) _

theorem drain_opens (hbad : s.drainBad = false) (hi : s.CanIssue [rdC a, rdC b, rdO 0, rdO 1, rdO 2, rdO 3, rdO 4, rdO 5])
    (hdev : Device s s1) (hrun : mdrainBody da a b s = .ok () (drainQueued s s1 da a b)) :
    ∃ t r q, execMdrain st da a b s = .next t ∧ Advanced s t ∧ t.core.jobs = s.core.jobs ++ [r] ∧ r.cls = clsMatrix ∧
      r.status = stPENDING ∧ WroteC s t da (scalar r.word) ∧ t.core.mq = s.core.mq ++ [q] ∧
      q = { drainJob s s a b with ri := r.ri, ser := r.ser } ∧ t.core.v = s.core.v ∧ t.mem = s1.mem ∧ t.levels = s1.levels := by
  have hjobs : s1.core.jobs = s.core.jobs := eq_of_kept Core.jobs hdev.core
  have hmq : s1.core.mq = s.core.mq := eq_of_kept Core.mq hdev.core
  have hv : s1.core.v = s.core.v := eq_of_kept Core.v hdev.core
  have hevc : s1.core.evc = s.core.evc := eq_of_kept Core.evc hdev.core
  have hrm : s1.core.rmode = s.core.rmode := eq_of_kept Core.rmode hdev.core
  have hctr : s1.core.srctr = s.core.srctr := eq_of_kept Core.srctr hdev.core
  have hseed : s1.core.srseed = s.core.srseed := eq_of_kept Core.srseed hdev.core
  have hx : s1.ctx = s.ctx := hdev.ctx
  have hro (n : Fin 8) : s1.ro n = s.ro n := congrArg (fun x : Ctx => x.o[n]) hx
  have hrnd : s1.rnd = s.rnd := by
    unfold State.rnd State.o0
    rw [hro, hrm]
  have hjob : drainJob s (s1.openJob clsMatrix id).1 a b = drainJob s s a b := by
    rw [openJob_pending rfl]
    show drainJob s s1 a b = _
    unfold drainJob State.o0
    rw [hrnd, hctr, hseed, hdev.myLaunch, hx, hro, hro, hro, hro, hro]
  have hq : matQueued s1 (drainJob s (s1.openJob clsMatrix id).1 a b) = matQueued s1 (drainJob s s a b) :=
    congrArg (matQueued s1) hjob
  have hcore := congrArg State.core (drainQueued_eq (da := da) (a := a) (b := b) s s1)
  rw [hq] at hcore
  have hopen := openJob_core (s := s1) (cls := clsMatrix) (f := id)
  have hopenMq : (s1.openJob clsMatrix id).1.core.mq = s1.core.mq := by rw [hopen]
  have hopenV : (s1.openJob clsMatrix id).1.core.v = s1.core.v := by rw [hopen]
  have hopenEvc : (s1.openJob clsMatrix id).1.core.evc = s1.core.evc := by rw [hopen]
  have hstands : Stands s1 (matQueued s1 (drainJob s s a b)) :=
    openJob_stands.trans (stands_of_ctx (s := (s1.openJob clsMatrix id).1) rfl rfl)
  have hrc (n : Fin 32) : (matQueued s1 (drainJob s s a b)).rc n = s.rc n := (openJob_rc n).trans (hdev.rc n)
  have hsrx (u : State) (r : Bool) : Stands u (u.srDone r) := by
    rw [srDone_eq]
    exact stands_of_ctx rfl rfl
  have hfull : Stands s (drainQueued s s1 da a b) := by
    unfold drainQueued
    rw [hq]
    exact ((hdev.stands.trans hstands).trans (stands_wc _ _ _)).trans (hsrx _ _)
  have hwrote : WroteC s (drainQueued s s1 da a b) da (scalar (newRec s1 clsMatrix id).word) := by
    unfold drainQueued
    rw [hq, srDone_eq]
    exact wroteC_wc (t := matQueued s1 (drainJob s s a b)) da _ hrc
  refine ⟨_, newRec s1 clsMatrix id, _, ?_, advanced_finish hfull st.val ?_, ?_, rfl, rfl, wroteC_finish _ _ hwrote, ?_, rfl, ?_, ?_, ?_⟩
  · rw [mdrain_eq]
    exact issue_retires (g := { st := st.val, ill := s.drainBad, reads := [rdC a, rdC b, rdO 0, rdO 1, rdO 2, rdO 3, rdO 4, rdO 5] }) hi hbad rfl hrun
  · rw [hcore]
    exact hopenEvc.trans hevc
  · rw [finish_core_eq, hcore, ← hjobs]
    exact congrArg Core.jobs hopen
  · rw [finish_core_eq, hcore, ← hmq]
    exact congrArg (fun l => l ++ [_]) hopenMq
  · rw [finish_core_eq, hcore, ← hv]
    exact hopenV
  · rw [finish_mem]
    unfold drainQueued
    rw [srDone_eq]
    rfl
  · rw [(finish_onlyContext _ _ _).rest]
    unfold drainQueued
    rw [srDone_eq]
    rfl

end Opened

/-! ### The capture (R208) -/

section Captured

variable {s : State} {j : MatJob}

theorem length_flatMap_const {α β : Type} {f : α → List β} {n : Nat} (l : List α) (h : ∀ x ∈ l, (f x).length = n) :
    (l.flatMap f).length = l.length * n := by
  rw [List.length_flatMap, List.map_congr_left h, List.map_const', List.sum_replicate, smul_eq_mul]

theorem tyWidth_le (t : Nat) : tyWidth t ≤ 64 := by
  unfold tyWidth
  split_ifs <;> decide

theorem tyMemBits_le (t : Nat) : tyMemBits t ≤ 64 := by
  unfold tyMemBits
  split_ifs
  · decide
  · exact tyWidth_le t

theorem accCols_le (accf : Nat) : accCols accf ≤ 32 := by
  unfold accCols
  split_ifs <;> decide

/-- An image is no longer than four packets and a tail. -/
theorem length_drainImage (j : MatJob) (rs : List Nat) : (drainImage j rs).length ≤ 8224 := by
  have hw := tyWidth_le j.ofmt
  have hm := tyMemBits_le j.ofmt
  have hc := accCols_le j.accf
  unfold drainImage
  dsimp only
  split
  · rw [List.length_append, length_flatMap_const (n := 4 * tyMemBits j.ofmt) _ fun x _ => length_leBytes _ _]
    simp only [List.length_map, List.length_range]
    omega
  · have hrow (i : Nat) (f : Val × Nat → Nat) : ((accRow rs j.accf i).zipIdx.flatMap (fun v => leBytes (tyWidth j.ofmt / 8) (f v))).length =
        accCols j.accf * (tyWidth j.ofmt / 8) := by
      rw [length_flatMap_const _ fun x _ => length_leBytes _ _, List.length_zipIdx, accRow_length]
    rw [length_flatMap_const _ fun i _ => hrow i _, List.length_range]
    have h8 : tyWidth j.ofmt / 8 ≤ 8 := by omega
    have hprod : accCols j.accf * (tyWidth j.ofmt / 8) ≤ 32 * 8 := Nat.mul_le_mul hc h8
    omega

/-- What the pieces of a string of bytes are together. -/
theorem chunks_join (n : Nat) : ∀ (o : Nat) (bs : List Byte), bs.length ≤ 2048 * n → (chunks o n bs).flatMap (·.2) = bs := by
  induction n with
  | zero =>
    intro o bs h
    rw [List.eq_nil_of_length_eq_zero (l := bs) (by omega)]
    rfl
  | succ n ih =>
    intro o bs h
    unfold chunks
    cases bs with
    | nil => rfl
    | cons b bs =>
      rw [if_neg (show ¬ (b :: bs).isEmpty = true from Bool.false_ne_true), List.flatMap_cons, ih _ _ (by rw [List.length_drop]; omega)]
      exact List.take_append_drop 2048 (b :: bs)

theorem chunks_length (n : Nat) : ∀ (o : Nat) (bs : List Byte), bs.length ≤ 2048 * n → (chunks o n bs).length = (bs.length + 2047) / 2048 := by
  induction n with
  | zero =>
    intro o bs h
    rw [List.eq_nil_of_length_eq_zero (l := bs) (by omega)]
    rfl
  | succ n ih =>
    intro o bs h
    unfold chunks
    cases bs with
    | nil => rfl
    | cons b bs =>
      rw [if_neg (show ¬ (b :: bs).isEmpty = true from Bool.false_ne_true), List.length_cons, ih _ _ (by rw [List.length_drop]; omega), List.length_drop, List.length_cons]
      omega

theorem chunks_short (n : Nat) : ∀ (o : Nat) (bs : List Byte), ∀ p ∈ chunks o n bs, p.2.length ≤ 2048 := by
  induction n with
  | zero => exact fun _ _ p hp => nomatch hp
  | succ n ih =>
    intro o bs p hp
    unfold chunks at hp
    split at hp
    · nomatch hp
    · rcases List.mem_cons.mp hp with rfl | hp
      · exact List.length_take_le _ _
      · exact ih _ _ p hp

/-- The packet with one piece of a drain's image. -/
def drainPacket (j : MatJob) (off n : Nat) (p : Nat × List Byte) : Packet :=
  { deid := j.target, handler := 9, arg0 := BitVec.ofNat 64 p.1, arg1 := BitVec.ofNat 64 off, arg2 := BitVec.ofNat 64 n, data := p.2 }

/-- The pieces of a drain sent. -/
def drainSends (s : State) (j : MatJob) (off n : Nat) (ps : List (Nat × List Byte)) : State :=
  ps.foldl (fun s p => (s.sendFrom (j.thread s.core.id) (drainPacket j off n p) (fun r => { r with job := some (clsMatrix, j.ri) })).1) s

/-- What the pieces sent leave: one operation for each, and nothing else but what sending does. -/
theorem drainSends_offers (off n : Nat) (ps : List (Nat × List Byte)) : ∀ s : State, s.core.id < 4096 →
    Offers s (drainSends s j off n ps) ∧ (drainSends s j off n ps).ctx = s.ctx ∧
      ∃ l, (drainSends s j off n ps).core.ops = s.core.ops ++ l ∧ l.flatMap (fun x => x.pkt.data) = ps.flatMap (·.2) ∧
        ∀ x ∈ l, ∃ p ∈ ps, x.pkt.handler = 9 ∧ x.pkt.deid = j.target ∧ x.pkt.data = p.2 ∧ x.job = some (clsMatrix, j.ri) := by
  induction ps with
  | nil => exact fun s _ => ⟨.refl s, rfl, [], (List.append_nil _).symm, rfl, fun x hx => nomatch hx⟩
  | cons p ps ih =>
    intro s hid
    have hs := sendFrom_sendsOp (s := s) (me := j.thread s.core.id) (p := drainPacket j off n p)
      (f := fun r => { r with job := some (clsMatrix, j.ri) }) rfl (.inl hid)
    obtain ⟨hoff, hctx, l, hops, hdata, hl⟩ := ih _ (hs.id.symm ▸ hid)
    refine ⟨hs.offers.trans hoff, hctx.trans hs.ctx,
      sentOp s (drainPacket j off n p) (fun r => { r with job := some (clsMatrix, j.ri) }) :: l, ?_, ?_, ?_⟩
    · exact hops.trans (by rw [hs.ops, List.append_assoc]; rfl)
    · rw [List.flatMap_cons, List.flatMap_cons, hdata]
      rfl
    · intro x hx
      rcases List.mem_cons.mp hx with rfl | hx
      · exact ⟨p, List.mem_cons_self, rfl, rfl, rfl, rfl⟩
      · obtain ⟨q, hq, h⟩ := hl x hx
        exact ⟨q, List.mem_cons_of_mem _ hq, h⟩

/-- The pieces of a drain's image. -/
def drainPieces (s : State) (j : MatJob) : List (Nat × List Byte) :=
  chunks (j.addr.toNat - (Config.LW + 0x100000)) 16 (drainImage j s.accRegs)

/-- The active drain marked as captured. -/
def drainCaptured (s : State) (j : MatJob) : State :=
  { s with core := s.core.setMat { j with captured := true, out := (drainPieces s j).length } }

theorem capture_eq (hrun : s.core.stopped = false) (hj : s.core.activeJob = some j) (hk : j.kind = .drain) :
    s.capture = drainSends (drainCaptured s j) j (j.addr.toNat - (Config.LW + 0x100000)) (drainImage j s.accRegs).length (drainPieces s j) := by
  have hd : (j.kind != .drain) = false := by rw [hk]; rfl
  unfold State.capture
  rw [if_neg (by rw [hrun]; exact Bool.false_ne_true), hj]
  dsimp only
  rw [if_neg (by rw [hd]; exact Bool.false_ne_true)]
  rfl

theorem settle_empty (h : s.ctx.fix = []) : s.settle = s := by
  have hx : ({ s.ctx with fix := [] } : Ctx) = s.ctx := by rw [← h]
  unfold State.settle State.settleAt
  rw [h]
  exact (congrArg s.setCtx hx).trans (setCtx_ctx s)

theorem drainCapture_sends (hcur : s.core.cur = 0) (hrun : s.core.stopped = false) (hid : s.core.id < 4096)
    (hcore : Sys2Proof.isCore s.core.id = true) (hfix : s.ctx.fix = []) (hj : s.core.activeJob = some j) (hk : j.kind = .drain) :
    execDrainCapture s.core.id s = .next s.capture ∧ Offers (drainCaptured s j) s.capture ∧ s.capture.ctx = s.ctx ∧
      ∃ l, s.capture.core.ops = s.core.ops ++ l ∧ l.flatMap (fun x => x.pkt.data) = drainImage j s.accRegs ∧
        ∀ x ∈ l, x.pkt.handler = 9 ∧ x.pkt.deid = j.target ∧ x.pkt.data.length ≤ 2048 ∧ x.job = some (clsMatrix, j.ri) := by
  obtain ⟨hoff, hctx, l, hops, hdata, hl⟩ := drainSends_offers (j := j) (j.addr.toNat - (Config.LW + 0x100000)) (drainImage j s.accRegs).length (drainPieces s j)
    (drainCaptured s j) hid
  rw [← capture_eq hrun hj hk] at hoff hctx hops
  have hc : s.capture.core.cur = s.core.cur := hoff.corePart Core.cur
  have hi : s.capture.core.id = s.core.id := hoff.corePart Core.id
  have hstep : s.asCtx 0 (fun v => v.settle.capture) = s.capture := by
    have h := asCtx_cur (s := s) (f := fun v => v.settle.capture) (by rw [settle_empty hfix]; exact hc)
    rw [hcur, settle_empty hfix] at h
    exact h
  refine ⟨?_, hoff, hctx, l, hops, hdata.trans (chunks_join 16 _ _ ((length_drainImage _ _).trans (by decide))), fun x hx => ?_⟩
  · unfold execDrainCapture
    rw [atCore_focus ⟨⟨hid, hcore⟩, hrun⟩ (by rw [hstep]; exact hi), hstep]
  · obtain ⟨p, hp, h9, hdeid, hdt, hjob⟩ := hl x hx
    exact ⟨h9, hdeid, by rw [hdt]; exact chunks_short _ _ _ p hp, hjob⟩

end Captured

theorem rv_finish (s : State) (st : Nat) (l : Bool) (n : Fin 64) : (s.finish st l).rv n = s.rv n :=
  congrArg (fun v : Vector VReg 64 => v[n]) (finish_core_v s st l)

/-- Settles O30: ACCRD and MTOPK read the accumulator's rows, MDRAIN puts what it samples at the queue's end, and the capture sends
its image piece by piece. -/
theorem matrixResults : Obligations.MatrixResults := by
  unfold Obligations.MatrixResults
  intro s s1 st d a b da k j hh accf row
  refine ⟨?_, ?_, ?_, ?_⟩
  · intro hmm ho1 hp h36 ht hty hr hi i
    obtain ⟨hadv, hv, hwr, hmem, hmq, hsr⟩ := accrd_reads (a := a) (b := b) (d := d) st hh
    exact ⟨_, _, accrd_retires st a b hmm ho1 hp ht hty hr hi, hadv, hv, accrdReg_holds a, hwr, hmem, hmq,
      hsr.trans (accrdDone_srctr a b hh)⟩
  · intro hmm ho1 ha h1 h8 h36 hk hb hi hq
    obtain ⟨hst, hrc, hmem, hevc⟩ := putTops_frame hh d.val (topReg s) k
    refine ⟨_, mtopk_retires st hh hmm ho1 ha h1 h8 h36 hk hb hi hq, advanced_finish hst st.val hevc,
      fun c => (rc_finish _ _ _ c).trans (hrc c), (finish_mem _ _ _).trans hmem, fun n hn => ?_, fun i hi32 => ?_⟩
    · rw [rv_finish, putTops_rv hk, if_neg (by omega)]
    · refine ⟨topCols (row i), ?_, topCols_ranked _, fun q hq n hn => ?_⟩
      · have h := topCols_perm (row i)
        rwa [accRow_length] at h
      · rw [rv_finish, putTops_rv hk, if_pos (by omega), show n.val - d.val = q by omega]
        exact topReg_elem hi32
  · intro c w ofmt mxo n target hbad hi hw hcap hout heven hq hcount
    have hdev : Device s s1 := by
      split at hcount
      · exact countTask_device hcount
      · rw [hcount]
        exact .refl s
    obtain ⟨t, r, q, hx, hadv, hjobs, hcls, hstat, hc, hmq, rfl, hv, hmem, hlev⟩ :=
      drain_opens st (da := da) (a := a) (b := b) hbad hi hdev (mdrain_run da a b hw hcap hout heven hq hcount)
    exact ⟨t, r, _, hx, hadv, hjobs, hcls, hstat, hc, hmq, rfl, rfl, rfl, rfl, rfl, rfl, rfl, rfl, rfl, rfl, rfl, rfl, hv, hmem, hlev⟩
  · intro hcur hrun hid hcore hfix hj hk bs
    obtain ⟨hx, hoff, hctx, l, hops, hdata, hl⟩ := drainCapture_sends hcur hrun hid hcore hfix hj hk
    have hdrop : s.capture.core.ops.drop s.core.ops.length = l := by rw [hops, List.drop_left]
    refine ⟨_, hx, hoff.corePart Core.v, fun c => congrArg (fun x : Ctx => x.rc c) hctx, hoff.part State.mem, fun q hq hri => ?_,
      by rw [hdrop]; exact hdata, by rw [hdrop]; exact hl⟩
    have hmq : s.capture.core.mq = (drainCaptured s j).core.mq := hoff.corePart Core.mq
    rw [hmq] at hq
    obtain ⟨p, -, hp⟩ := List.mem_map.mp hq
    by_cases hpj : p.ri = j.ri
    · rw [if_pos hpj] at hp
      rw [← hp]
      exact ⟨rfl, chunks_length 16 _ _ ((length_drainImage _ _).trans (by decide))⟩
    · rw [if_neg hpj] at hp
      exact absurd (hp ▸ hri) hpj

end Sys2Proof.Proofs
end

section
/-! PROOFS. An engine's writes that no home watchpoint sees, and the run of a save (R231, R233, R235). -/
namespace Sys2Proof.Proofs
open Sys2Proof Sys2Proof.Machine Sys2Proof.Laws
set_option Elab.async false

/-- No home watchpoint of the package is armed. -/
def Unwatched (s : State) : Prop := ∀ c ∈ s.allCores, ∀ h : Fin 2, c.hwc[h].toNat.testBit 0 = false

/-- No home watchpoint is armed, and the host has heard `ev`. -/
def Unseen (ev : List HostEvent) (s : State) : Prop := Unwatched s ∧ s.events = ev

section Unseen

variable {ev : List HostEvent} {s t : State}

theorem Unseen.same (h : Unseen ev s) (hc : t.core.hwc = s.core.hwc) (ho : t.others = s.others) (he : t.events = s.events) :
    Unseen ev t := by
  refine ⟨fun c hc' k => ?_, he.trans h.2⟩
  rcases List.mem_cons.mp hc' with rfl | hm
  · rw [hc]
    exact h.1 s.core List.mem_cons_self k
  · exact h.1 c (List.mem_cons_of_mem _ (ho ▸ hm)) k

theorem Unseen.foldl {α : Type} {f : State → α → State} (hf : ∀ u a, Unseen ev u → Unseen ev (f u a)) (xs : List α) (h : Unseen ev s) :
    Unseen ev (xs.foldl f s) := by
  induction xs generalizing s with
  | nil => exact h
  | cons x xs ih => exact ih (hf s x h)

theorem Unseen.fst {α : Type} {x : State × α} {a : α} (h : Unseen ev x.1) (he : x = (t, a)) : Unseen ev t := by
  rw [he] at h
  exact h

theorem homeWatch_unseen {a n writer : Nat} (h : Unseen ev s) : Unseen ev (s.homeWatch a n writer) := by
  rw [homeWatch_unarmed h.1]
  exact h

theorem cutLines_unseen {lines : List Nat} {at_ : Nat} (h : Unseen ev s) : Unseen ev (s.cutLines lines at_) := by
  refine ⟨fun c hc k => ?_, h.2⟩
  rcases List.mem_cons.mp hc with rfl | hm
  · exact h.1 s.core List.mem_cons_self k
  · obtain ⟨d, hd, rfl⟩ := List.mem_map.mp hm
    exact h.1 d (List.mem_cons_of_mem _ hd) k

theorem l2Store_unseen {cached : Bool} {line : Nat} (h : Unseen ev s) : Unseen ev (s.l2Store cached line) := by
  unfold State.l2Store State.l2Write
  split
  · split
    · exact h
    · exact h.same rfl rfl rfl
  · exact h.same rfl rfl rfl

theorem l2Read_unseen {die line : Nat} (h : Unseen ev s) : Unseen ev (s.l2Read die line) := by
  unfold State.l2Read
  split
  · exact h
  · split
    · exact h.same rfl rfl rfl
    · exact h.same rfl rfl rfl

theorem touch_unseen {a n : Nat} (h : Unseen ev s) : Unseen ev (s.touch a n) := by
  unfold State.touch
  split
  · exact h.same rfl rfl rfl
  · exact h

theorem pteSet_unseen {l : Leaf} {mask : Nat} (h : Unseen ev s) : Unseen ev (s.pteSet l mask).1 := by
  unfold State.pteSet
  extract_lets s1 now
  have h1 : Unseen ev s1 := touch_unseen h
  split
  · exact h1
  · have hcut : Unseen ev (s1.cutLines [l.ea / 128] s1.top) := cutLines_unseen h1
    have hput : Unseen ev (((s1.cutLines [l.ea / 128] s1.top).putNat l.ea 8 now).l2Drop (l.ea / 128)) := hcut.same rfl rfl rfl
    exact (homeWatch_unseen hput).same rfl rfl rfl

theorem walk_unseen {asid root va : Nat} (h : Unseen ev s) : Unseen ev (s.walk asid root va).1 := by
  have hp {xs : List (Nat × Nat × Nat)} : Unseen ev
      ((xs.foldl (fun (s : State) x => (s.l2Read (dieOf s.core.id) (x.2.1 / 128)).touch x.2.1 8)
        { s with freeN := s.freeN + (s.oldPointers asid va).length }).wcacheFill asid va xs) := by
    have hread : Unseen ev (xs.foldl (fun (s : State) x => (s.l2Read (dieOf s.core.id) (x.2.1 / 128)).touch x.2.1 8)
        { s with freeN := s.freeN + (s.oldPointers asid va).length }) :=
      Unseen.foldl (fun u x hu => touch_unseen (l2Read_unseen hu)) xs (h.same rfl rfl rfl)
    exact hread.same rfl rfl rfl
  unfold State.walk
  dsimp only
  split
  · exact pteSet_unseen hp
  · exact hp

theorem jobWalk_unseen {asid va : Nat} {k : Machine.Acc} (h : Unseen ev s) : Unseen ev (s.jobWalk asid va k).1 := by
  unfold State.jobWalk
  split
  · exact h
  · split
    case h_1 he => exact (walk_unseen h).fst he
    case h_2 he =>
      have hw := (walk_unseen h).fst he
      split
      · split
        · exact pteSet_unseen hw
        · exact hw
      · exact hw

theorem put_unseen {at_ : Nat} {cached : Bool} {a : Nat} {bs : List Byte} {writer : Nat} (h : Unseen ev s) :
    Unseen ev (s.put at_ cached a bs writer) := by
  unfold State.put
  split
  · have hcut : Unseen ev (s.cutLines (linesOf a bs.length) at_) := cutLines_unseen h
    have hput : Unseen ev ((s.cutLines (linesOf a bs.length) at_).putBytes a bs) := hcut.same rfl rfl rfl
    exact homeWatch_unseen (Unseen.foldl (fun u l hu => l2Store_unseen hu) _ hput)
  · exact h

theorem engineWriteAs_unseen {past : List Nat} {asid va : Nat} {bs : List Byte} {writer : Nat} (h : Unseen ev s) :
    Unseen ev (s.engineWriteAs past asid va bs writer) := by
  refine h.foldl (fun u p hu => ?_) _
  split
  case h_1 he => exact (put_unseen (touch_unseen ((jobWalk_unseen hu).fst he))).same rfl rfl rfl
  case h_2 he => exact (jobWalk_unseen hu).fst he

end Unseen

/-! ### The run of a save (R233, R235) -/

section Run

variable {s : State} {j : Job} {asid top : Nat}

/-- The pieces of a range rise. -/
theorem pieces_rise (va n : Nat) : (pieces va n).Pairwise (fun p q => p.1 < q.1) := by
  unfold pieces
  split
  · exact List.Pairwise.nil
  · refine List.pairwise_map.mpr (List.pairwise_lt_range.imp_of_mem fun {i k} hi hk hlt => ?_)
    have hk := List.mem_range.mp hk
    dsimp only
    omega

theorem saveFault_none (hj : j.spec.asid = asid) {a n : Nat} (h : ∀ x ∈ pieces a n, (s.jobPlace asid x.1 .store).isSome = true) :
    s.saveFault j a n = none := by
  unfold State.saveFault
  have hnone : (pieces a n).find? (fun p => (s.jobPlace asid p.1 .store).isNone) = none := by
    refine List.find?_eq_none.mpr fun x hx hn => ?_
    have hx := h x hx
    rw [Option.isNone_iff_eq_none.mp hn] at hx
    nomatch hx
  rw [hj, hnone]
  rfl

/-- The fault of a range is at the lowest piece that does not translate. -/
theorem saveFault_some (hj : j.spec.asid = asid) {a n : Nat} {x : Nat × Nat} (hx : x ∈ pieces a n)
    (hn : s.jobPlace asid x.1 .store = none)
    (hlow : ∀ y ∈ pieces a n, s.jobPlace asid y.1 .store = none → x.1 ≤ y.1) : s.saveFault j a n = some x.1 := by
  unfold State.saveFault
  rw [hj]
  cases hf : (pieces a n).find? (fun p => (s.jobPlace asid p.1 .store).isNone) with
  | none => exact absurd (Option.isNone_iff_eq_none.mpr hn) (List.find?_eq_none.mp hf x hx)
  | some y =>
    obtain ⟨hy, l₁, l₂, hl, hbefore⟩ := List.find?_eq_some_iff_append.mp hf
    have hnone : s.jobPlace asid y.1 .store = none := Option.isNone_iff_eq_none.mp hy
    have hle : x.1 ≤ y.1 := hlow y (hl ▸ by simp) hnone
    have hrise := pieces_rise a n
    rw [hl] at hx hrise
    rcases List.mem_append.mp hx with h | h
    · exact absurd (hbefore x h) (by rw [hn]; exact Bool.false_ne_true)
    · rcases List.mem_cons.mp h with rfl | h
      · rfl
      · have hlt := (List.pairwise_cons.mp (List.pairwise_append.mp hrise).2.1).1 x h
        omega

/-- A save writes piece after piece, and is abandoned at one that does not translate or passes the area's end. -/
theorem saveRun_reason (ps : List (Nat × List Byte)) : ∀ s : State, (s.saveRun j top ps).2 = 0 ∨ (s.saveRun j top ps).2 = 7 ∨
    (s.saveRun j top ps).2 = 8 := by
  induction ps with
  | nil => exact fun s => .inl rfl
  | cons p ps ih =>
    intro s
    unfold State.saveRun
    split
    · dsimp only
      split
      · exact .inr (.inl rfl)
      · exact .inr (.inr rfl)
    · split
      · exact .inr (.inr rfl)
      · exact ih _

theorem saveRun_leaves {ev : List HostEvent} (ps : List (Nat × List Byte)) : ∀ s : State, Unseen ev s →
    Unseen ev (s.saveRun j top ps).1 ∧ Device s (s.saveRun j top ps).1 := by
  induction ps with
  | nil => exact fun s h => ⟨h, .refl s⟩
  | cons p ps ih =>
    intro s h
    unfold State.saveRun
    split
    · exact ⟨h, .refl s⟩
    · split
      · exact ⟨h, .refl s⟩
      · obtain ⟨hu, hd⟩ := ih _ (engineWriteAs_unseen h)
        exact ⟨hu, (engineWrite_device (.refl s)).trans hd⟩

theorem saveRun_pieces (hj : j.spec.asid = asid) : (s.saveRun j top []).2 = 0 ∧
    ∀ (p : Nat × List Byte) ps, let good : Prop := ∀ x ∈ pieces p.1 p.2.length, (s.jobPlace asid x.1 .store).isSome = true
      (∀ x ∈ pieces p.1 p.2.length, s.jobPlace asid x.1 .store = none →
        (∀ y ∈ pieces p.1 p.2.length, s.jobPlace asid y.1 .store = none → x.1 ≤ y.1) →
        s.saveRun j top (p :: ps) = (s, if x.1 < top then 7 else 8)) ∧
      (good → top < p.1 + p.2.length → s.saveRun j top (p :: ps) = (s, 8)) ∧
      (good → p.1 + p.2.length ≤ top →
        s.saveRun j top (p :: ps) = (s.engineWrite asid p.1 p.2 (s.dieMgr 0)).saveRun j top ps) := by
  refine ⟨rfl, ?_⟩
  intro p ps good
  refine ⟨fun x hx hn hlow => ?_, fun hg hlt => ?_, fun hg hle => ?_⟩
  · rw [State.saveRun, saveFault_some hj hx hn hlow]
  · rw [State.saveRun, saveFault_none hj hg]
    exact if_pos hlt
  · rw [State.saveRun, saveFault_none hj hg, hj]
    exact if_neg (by omega)

end Run

end Sys2Proof.Proofs
end

section
/-! PROOFS. Changes of a gang's cores, the order to stop, and the ends of a switch (R226, R232, R233, R235). -/
namespace Sys2Proof.Proofs
open Sys2Proof Sys2Proof.Machine Sys2Proof.Laws
set_option Elab.async false

/-! ### Cores changed -/

section Cores

variable {s : State} {f : Core → Core}

theorem coreOf_mapCore (hf : ∀ c, (f c).id = c.id) (e e' : Nat) :
    (s.mapCore e f).coreOf e' = if e = e' then f (s.coreOf e') else s.coreOf e' := by
  unfold State.mapCore
  by_cases hfoc : s.core.id = e
  · rw [if_pos hfoc]
    unfold State.coreOf
    dsimp only
    rw [hf, hfoc]
    split <;> rfl
  · rw [if_neg hfoc]
    have hid : (f (s.coreOf e)).id = e := (hf _).trans (coreOf_id s e)
    by_cases he : e = e'
    · subst he
      have hfind := find?_insCore_same (f (s.coreOf e)) s.others
      rw [hid] at hfind
      rw [if_pos rfl, State.coreOf, if_neg hfoc]
      exact congrArg (fun o => Option.getD o { id := e }) hfind
    · have hfind := find?_insCore_other (e := e') (hid.trans_ne he) s.others
      rw [if_neg he]
      unfold State.coreOf at hfind ⊢
      dsimp only
      rw [hfind]

theorem mapCore_rest (s : State) (e : Nat) (f : Core → Core) :
    s.mapCore e f = { s with core := (s.mapCore e f).core, others := (s.mapCore e f).others } := by
  unfold State.mapCore
  split <;> rfl

/-- Some cores changed, one after the other. -/
def mapCores (es : List Nat) (f : Core → Core) (s : State) : State := es.foldl (fun s e => s.mapCore e f) s

theorem mapCores_rest (es : List Nat) (f : Core → Core) : ∀ s : State,
    mapCores es f s = { s with core := (mapCores es f s).core, others := (mapCores es f s).others } := by
  induction es with
  | nil => exact fun _ => rfl
  | cons e es ih =>
    intro s
    have hcongr := congrArg (fun u : State => { u with core := (mapCores (e :: es) f s).core, others := (mapCores (e :: es) f s).others })
      (mapCore_rest s e f)
    exact (ih (s.mapCore e f)).trans hcongr

theorem coreOf_mapCores (hf : ∀ c, (f c).id = c.id) (es : List Nat) (e : Nat) : ∀ s : State,
    (mapCores es f s).coreOf e = f^[es.count e] (s.coreOf e) := by
  induction es with
  | nil => exact fun _ => rfl
  | cons x es ih =>
    intro s
    refine (ih (s.mapCore x f)).trans ?_
    rw [coreOf_mapCore hf, List.count_cons]
    by_cases hx : x = e
    · rw [if_pos hx, if_pos (beq_iff_eq.mpr hx)]
      rfl
    · rw [if_neg hx, if_neg (fun h => hx (beq_iff_eq.mp h))]
      rfl

/-- Outside the list no core changes. -/
theorem coreOf_mapCores_outside (hf : ∀ c, (f c).id = c.id) {es : List Nat} {e : Nat} (he : e ∉ es) :
    (mapCores es f s).coreOf e = s.coreOf e := by
  rw [coreOf_mapCores hf, List.count_eq_zero.mpr he]
  rfl

/-- A core of the list is a change of some core. -/
theorem coreOf_mapCores_inside (hf : ∀ c, (f c).id = c.id) {es : List Nat} {e : Nat} (he : e ∈ es) :
    ∃ c, (mapCores es f s).coreOf e = f c := by
  obtain ⟨n, hn⟩ := Nat.exists_eq_succ_of_ne_zero (Nat.pos_iff_ne_zero.mp (List.count_pos_iff.mpr he))
  rw [coreOf_mapCores hf, hn, Function.iterate_succ_apply']
  exact ⟨_, rfl⟩

/-- Where the change twice is the change once, it is that of the core. -/
theorem coreOf_mapCores_once (hf : ∀ c, (f c).id = c.id) (hi : ∀ c, f (f c) = f c) {es : List Nat} {e : Nat} (he : e ∈ es) :
    (mapCores es f s).coreOf e = f (s.coreOf e) := by
  have hit (n : Nat) (c : Core) : f^[n + 1] c = f c := by
    induction n with
    | zero => rfl
    | succ n ih => rw [Function.iterate_succ_apply', ih, hi]
  obtain ⟨n, hn⟩ := Nat.exists_eq_succ_of_ne_zero (Nat.pos_iff_ne_zero.mp (List.count_pos_iff.mpr he))
  rw [coreOf_mapCores hf, hn]
  exact hit n _

/-- A change that takes nothing of the cores from the state may be made with the first state's. -/
theorem foldl_mapCore_of {g : State → Core → Core} (hg : ∀ u c o, g { u with core := c, others := o } = g u) (es : List Nat) :
    ∀ s : State, es.foldl (fun s e => s.mapCore e (g s)) s = mapCores es (g s) s := by
  induction es with
  | nil => exact fun _ => rfl
  | cons e es ih =>
    intro s
    have hstep : g (s.mapCore e (g s)) = g s := by
      rw [mapCore_rest]
      exact hg _ _ _
    refine (ih (s.mapCore e (g s))).trans ?_
    rw [hstep]
    rfl

end Cores

/-! ### The job changed -/

section Jobs

variable {s t : State} {asid : Nat} {j : Job} {f : Job → Job}

theorem jobOf_mapJob (hf : ∀ i, (f i).spec = i.spec) (h : s.jobOf asid = some j) : (s.mapJob asid f).jobOf asid = some (f j) := by
  unfold State.jobOf at h ⊢
  unfold State.mapJob
  dsimp only
  have hp (i : Job) : ((if i.spec.asid == asid then f i else i).spec.asid == asid) = (i.spec.asid == asid) := by
    split
    · rw [hf]
    · rfl
  rw [List.find?_map]
  have hq : (fun j : Job => j.spec.asid == asid) ∘ (fun i : Job => if i.spec.asid == asid then f i else i) =
      fun i : Job => i.spec.asid == asid := funext hp
  rw [hq, h]
  have hj : (j.spec.asid == asid) = true := List.find?_some (p := fun j : Job => j.spec.asid == asid) h
  exact congrArg some (if_pos hj)

theorem jobOf_asid (h : s.jobOf asid = some j) : j.spec.asid = asid := by
  have hj : (j.spec.asid == asid) = true := List.find?_some (p := fun j : Job => j.spec.asid == asid) h
  exact beq_iff_eq.mp hj

/-- The device's own work leaves a job's record but for its run, its traces and the graphs that wait. -/
theorem jobOf_device (hd : Device s t) (h : s.jobOf asid = some j) : ∃ i, t.jobOf asid = some i ∧ keptJob i = keptJob j := by
  have hfind (u : State) : (u.jobOf asid).map keptJob = (u.jobs.map keptJob).find? (fun j => j.spec.asid == asid) := by
    rw [List.find?_map]
    rfl
  have hmap : (t.jobOf asid).map keptJob = some (keptJob j) := by
    rw [hfind t, hd.jobs, ← hfind s, h]
    rfl
  exact Option.map_eq_some_iff.mp hmap

end Jobs

/-! ### The order to stop (R226) -/

section Asking

variable (c : Core) (reason origin now : Nat)

theorem askStop_id : (c.askStop reason origin now).id = c.id := eq_of_kept Core.id askStop_kept

theorem why_reason (hr : reason < 16) : fld (BitVec.ofNat 64 (reason + 256 * origin)) 0 4 = reason := by
  unfold fld
  rw [BitVec.toNat_ofNat]
  omega

theorem why_origin (hr : reason < 16) (ho : origin < 2 ^ 24) : fld (BitVec.ofNat 64 (reason + 256 * origin)) 8 24 = origin := by
  unfold fld
  rw [BitVec.toNat_ofNat]
  omega

theorem askStop_new (h1 : c.stopReq = false) (h2 : c.stopped = false) : c.askStop reason origin now =
    { c with stopReq := true, stopBy := now + c.stopTime origin, gswhy := BitVec.ofNat 64 (reason + 256 * origin) } := by
  unfold Core.askStop
  dsimp only
  rw [h1, h2]
  rfl

theorem askStop_again (h : c.stopReq = true ∨ c.stopped = true) : c.askStop reason origin now =
    if whyReplaces (fld c.gswhy 0 4) reason then { c with gswhy := BitVec.ofNat 64 (reason + 256 * origin) } else c := by
  have hor : (c.stopReq || c.stopped) = true := by
    rcases h with h | h <;> rw [h]
    · rfl
    · exact Bool.or_true _
  unfold Core.askStop
  dsimp only
  rw [hor]
  rfl

theorem whyReplaces_iff (old : Nat) : whyReplaces old reason = true ↔ (reason = 5 ∨ reason = 6) ∧ (old ≤ 4 ∨ old = 9) := by
  simp [whyReplaces]

/-- A core that has been told stops or has stopped. -/
theorem askStop_told : (c.askStop reason origin now).stopReq = true ∨ (c.askStop reason origin now).stopped = true := by
  by_cases h : c.stopReq = true ∨ c.stopped = true
  · rw [askStop_again _ _ _ _ h]
    split <;> exact h
  · simp only [not_or, Bool.not_eq_true] at h
    rw [askStop_new _ _ _ _ h.1 h.2]
    exact .inl rfl

/-- Telling a core twice is telling it once. -/
theorem askStop_twice : (c.askStop reason origin now).askStop reason origin now = c.askStop reason origin now := by
  rw [askStop_again _ _ _ _ (askStop_told c reason origin now)]
  by_cases h : c.stopReq = true ∨ c.stopped = true
  · rw [askStop_again _ _ _ _ h]
    split
    · split <;> rfl
    · rfl
  · simp only [not_or, Bool.not_eq_true] at h
    rw [askStop_new _ _ _ _ h.1 h.2]
    split <;> rfl

end Asking

section Gang

variable {s : State} {asid reason origin : Nat} {j : Job}

/-- The cores of a gang told to stop. -/
def askGang (s : State) (j : Job) (reason origin : Nat) : State :=
  mapCores j.spec.gang (fun c => c.askStop reason origin s.time.toNat) s

theorem askGang_eq (s : State) (es : List Nat) (reason origin : Nat) :
    es.foldl (fun s e => s.mapCore e (fun c => c.askStop reason origin s.time.toNat)) s =
      mapCores es (fun c => c.askStop reason origin s.time.toNat) s :=
  foldl_mapCore_of (g := fun u c => c.askStop reason origin u.time.toNat) (fun _ _ _ => rfl) es s

/-- The host's news of a stop. -/
def stopNews (asid reason origin : Nat) : List HostEvent :=
  if 5 ≤ reason ∧ reason ≤ 8 then [.jobFault asid reason origin]
  else if 2 ≤ reason ∧ reason ≤ 4 then [.stop asid reason origin] else []

theorem gangStop_eq (h : s.jobOf asid = some j) : s.gangStop asid reason origin =
    { askGang s j reason origin with
      jobs := ((askGang s j reason origin).mapJob asid (fun j => if j.gang == .run then { j with gang := .stopped } else j)).jobs
      events := s.events ++ stopNews asid reason origin } := by
  have hev : (askGang s j reason origin).events = s.events := by
    rw [askGang, mapCores_rest]
  unfold State.gangStop
  rw [h]
  dsimp only
  rw [askGang_eq]
  unfold stopNews
  by_cases h1 : 5 ≤ reason ∧ reason ≤ 8
  · rw [if_pos (by simpa using h1), if_pos h1, ← hev]
    rfl
  · rw [if_neg (by simpa using h1), if_neg h1]
    by_cases h2 : 2 ≤ reason ∧ reason ≤ 4
    · rw [if_pos (by simpa using h2), if_pos h2, ← hev]
      rfl
    · rw [if_neg (by simpa using h2), if_neg h2, List.append_nil, ← hev]
      rfl

theorem gangStop_told (h : s.jobOf asid = some j) :
    let t := s.gangStop asid reason origin
    (∀ e ∈ j.spec.gang, (t.coreOf e).stopReq = true ∨ (t.coreOf e).stopped = true) ∧
      (∀ e, e ∉ j.spec.gang → t.coreOf e = s.coreOf e) ∧ t.mem = s.mem ∧ t.events = s.events ++ stopNews asid reason origin := by
  intro t
  have ht : t = _ := gangStop_eq h
  have hcores (e : Nat) : t.coreOf e = (askGang s j reason origin).coreOf e := by rw [ht]; rfl
  refine ⟨fun e he => ?_, fun e he => ?_, ?_, by rw [ht]⟩
  · rw [hcores]
    obtain ⟨c, hc⟩ := coreOf_mapCores_inside (s := s) (f := fun c => c.askStop reason origin s.time.toNat)
      (fun c => askStop_id c _ _ _) he
    rw [askGang, hc]
    exact askStop_told c reason origin _
  · exact (hcores e).trans (coreOf_mapCores_outside (fun c => askStop_id c _ _ _) he)
  · rw [ht, askGang, mapCores_rest]

/-- What a stop leaves of the core in focus. -/
theorem gangStop_core (h : s.jobOf asid = some j) (hin : s.core.id ∈ j.spec.gang) :
    (s.gangStop asid reason origin).core = s.core.askStop reason origin s.time.toNat := by
  have hid : (s.gangStop asid reason origin).core.id = s.core.id := (gangStop_device (.refl s)).id
  have hc : (s.gangStop asid reason origin).coreOf s.core.id = (askGang s j reason origin).coreOf s.core.id := by
    rw [gangStop_eq h]
    rfl
  have hfoc (u : State) (hu : u.core.id = s.core.id) : u.coreOf s.core.id = u.core := if_pos hu
  rw [hfoc _ hid, askGang, coreOf_mapCores_once (fun c => askStop_id c _ _ _) (fun c => askStop_twice c _ _ _) hin, hfoc s rfl] at hc
  exact hc

end Gang

/-! ### A switch that fails, and one that succeeds (R233, R235) -/

section Switch

variable {s : State} {asid why : Nat} {i j : Job}

theorem coreOf_at {e : Nat} {f : State → State} (hc : ∀ u, (f u).core = u.core) (ho : ∀ u, (f u).others = u.others) (e' : Nat) :
    (s.at e f).coreOf e' = s.coreOf e' := by
  have hsame (u : State) (k : Nat) : (f u).coreOf k = u.coreOf k := by
    unfold State.coreOf
    rw [hc, ho]
  rw [State.at, coreOf_focusOn, hsame, coreOf_focusOn]

theorem trace_events (s : State) (typ cause data : Nat) : (s.trace typ cause data).events = s.events := by
  unfold State.trace
  split
  · rfl
  · dsimp only
    split <;> rfl

theorem focusOn_events (s : State) (e : Nat) : (s.focusOn e).events = s.events := by
  unfold State.focusOn
  split <;> rfl

/-- A job's fault in the trace of one cluster. -/
def faultStep (j : Job) (why : Nat) (s : State) (t : Nat × Ring) : State :=
  match j.spec.gang.find? (fun e => clusterOf e == t.1) with
  | some e => s.at e (fun s => s.trace 7 why 0)
  | none => s

theorem faultStep_leaves (j : Job) (why : Nat) (s : State) (t : Nat × Ring) : (∀ e, (faultStep j why s t).coreOf e = s.coreOf e) ∧
    (faultStep j why s t).events = s.events ∧ Device s (faultStep j why s t) := by
  unfold faultStep
  split
  · refine ⟨fun e' => coreOf_at (fun _ => trace_core _ _ _) (fun _ => trace_others _ _ _) e', ?_,
      at_device (fun s => trace_device (.refl s)) (.refl s)⟩
    rw [State.at, focusOn_events, trace_events, focusOn_events]
  · exact ⟨fun _ => rfl, rfl, .refl s⟩

/-- A job's fault in the traces changes no core and tells the host nothing. -/
theorem traceFault_leaves (s : State) (j : Job) (why : Nat) : (∀ e, (s.traceFault j why).coreOf e = s.coreOf e) ∧
    (s.traceFault j why).events = s.events ∧ Device s (s.traceFault j why) := by
  have hstep (l : List (Nat × Ring)) : ∀ u : State, (∀ e, (l.foldl (faultStep j why) u).coreOf e = u.coreOf e) ∧
      (l.foldl (faultStep j why) u).events = u.events ∧ Device u (l.foldl (faultStep j why) u) := by
    induction l with
    | nil => exact fun u => ⟨fun _ => rfl, rfl, .refl u⟩
    | cons x l ih =>
      intro u
      obtain ⟨h1, h2, h3⟩ := ih (faultStep j why u x)
      obtain ⟨g1, g2, g3⟩ := faultStep_leaves j why u x
      exact ⟨fun e' => (h1 e').trans (g1 e'), h2.trans g2, g3.trans h3⟩
  exact hstep j.spec.trace s

/-- The reason recorded at a core of a switch that has failed. -/
def whyFailed (why : Nat) (c : Core) : Core := { c with gswhy := BitVec.ofNat 64 (why + c.gswhy.toNat / 256 * 256) }

theorem whyFailed_reason (hw : why < 16) (c : Core) : fld (whyFailed why c).gswhy 0 4 = why := by
  show fld (BitVec.ofNat 64 _) 0 4 = why
  unfold fld
  rw [BitVec.toNat_ofNat]
  omega

theorem unsaveable_eq (s : State) (j : Job) (why : Nat) : s.unsaveable j why =
    (((mapCores j.spec.gang (whyFailed why) s).traceFault j why).mapJob j.spec.asid
      (fun j => { j with gang := .unsaveable })).tellHost (.jobFault j.spec.asid why 0) := rfl

theorem unsaveable_fails (hj : j.spec.asid = asid) (hi : s.jobOf asid = some i) (hw : why < 16) :
    ∃ x, (s.unsaveable j why).jobOf asid = some x ∧ x.gang = .unsaveable ∧ x.valid = i.valid ∧
      (∀ e ∈ j.spec.gang, fld ((s.unsaveable j why).coreOf e).gswhy 0 4 = why) ∧
      (s.unsaveable j why).events = s.events ++ [.jobFault asid why 0] := by
  obtain ⟨hcore, hev, hd⟩ := traceFault_leaves (mapCores j.spec.gang (whyFailed why) s) j why
  have hmap : Device s (mapCores j.spec.gang (whyFailed why) s) :=
    foldl_device (fun u e hu => mapCore_device (f := whyFailed why) (fun _ => rfl) hu) _ (.refl s)
  have hevents : (mapCores j.spec.gang (whyFailed why) s).events = s.events := by rw [mapCores_rest]
  have hvalid (k : Job) (hk : keptJob k = keptJob i) : k.valid = i.valid := (congrArg Job.valid hk : (keptJob k).valid = (keptJob i).valid)
  obtain ⟨k, hk, hkept⟩ := jobOf_device (hmap.trans hd) hi
  have hu := jobOf_mapJob (f := fun j => { j with gang := .unsaveable }) (fun _ => rfl) hk
  subst hj
  refine ⟨_, hu, rfl, hvalid k hkept, fun e he => ?_, ?_⟩
  · obtain ⟨c, hc⟩ := coreOf_mapCores_inside (s := s) (f := whyFailed why) (fun _ => rfl) he
    have hsame : (s.unsaveable j why).coreOf e = whyFailed why c := ((hcore e).trans hc : _)
    rw [hsame]
    exact whyFailed_reason hw c
  · exact congrArg (· ++ _) (hev.trans hevents)

/-- What a save that succeeds keeps of the gang, and what it leaves of the cores. -/
theorem saveGang_saves (hj : j.spec.asid = asid) (hi : s.jobOf asid = some i) (hspec : i.spec = j.spec) :
    ∃ x, (s.saveGang j).jobOf asid = some x ∧ x.gang = .saved ∧ x.valid = true ∧
      x.saved = j.spec.gang.map (fun e => (s.coreOf e).record (j.spec.gang.map s.eid)) ∧
      x.poisoned = j.spec.gang.filter (fun e => (s.coreOf e).poisoned) ∧ x.savedJoins = s.joins.filter (fun y => y.asid == asid) ∧
      (∀ y ∈ (s.saveGang j).joins, y.asid ≠ asid) ∧ (s.saveGang j).mem = s.mem ∧
      (∀ e ∈ j.spec.gang, ((s.saveGang j).coreOf e).job = none ∧ ((s.saveGang j).coreOf e).stopped = false ∧
        ((s.saveGang j).coreOf e).run = none ∧ ((s.saveGang j).coreOf e).jobs = [] ∧ ((s.saveGang j).coreOf e).mfvalid = false) ∧
      (s.saveGang j).events = s.events ++ [.switchDone asid] := by
  subst hj
  obtain ⟨u, hu⟩ : ∃ u, s.saveGang j = (mapCores j.spec.gang Core.vacated u).tellHost (.switchDone j.spec.asid) ∧
      u.joins = s.joins.filter (fun x => !(x.asid == j.spec.asid)) ∧ u.mem = s.mem ∧ u.events = s.events ∧
      ∃ x, u.jobOf j.spec.asid = some x ∧ x.gang = .saved ∧ x.valid = true ∧
        x.saved = (j.spec.gang.map s.coreOf).map (fun c => c.record (j.spec.gang.map s.eid)) ∧
        x.poisoned = s.poisonedCores j ∧ x.savedJoins = s.joins.filter (fun y => y.asid == j.spec.asid) :=
    ⟨_, rfl, rfl, rfl, rfl, _, jobOf_mapJob (fun _ => rfl) hi, rfl, rfl, by rw [← hspec], rfl, rfl⟩
  obtain ⟨hsave, hjoins, hmem, hev, x, hx, h1, h2, h3, h4, h5⟩ := hu
  have hrest := mapCores_rest j.spec.gang Core.vacated u
  rw [hsave]
  refine ⟨x, ?_, h1, h2, by rw [h3, List.map_map]; rfl, h4, h5, fun y hy => ?_, ?_, fun e he => ?_, ?_⟩
  · show (mapCores _ _ u).jobOf _ = _
    rw [hrest]
    exact hx
  · have hy' : y ∈ u.joins := by
      have hsame : (mapCores j.spec.gang Core.vacated u).joins = u.joins := by rw [hrest]
      exact hsame ▸ hy
    rw [hjoins] at hy'
    have hne := (List.mem_filter.mp hy').2
    exact fun hc => by simp [hc] at hne
  · show (mapCores _ _ u).mem = _
    rw [hrest]
    exact hmem
  · obtain ⟨c, hc⟩ := coreOf_mapCores_inside (s := u) (f := Core.vacated) (fun _ => rfl) he
    have hsame : ((mapCores j.spec.gang Core.vacated u).tellHost (.switchDone j.spec.asid)).coreOf e = c.vacated := hc
    rw [hsame]
    exact ⟨rfl, rfl, rfl, rfl, rfl⟩
  · show (mapCores _ _ u).events ++ _ = _
    rw [hrest]
    exact congrArg (· ++ _) hev

end Switch

end Sys2Proof.Proofs
end

section
/-! PROOFS. Gang stops, slices, drains and saves, and O51 (R226, R227, R232 to R236, R278). -/
namespace Sys2Proof.Proofs
open Sys2Proof Sys2Proof.Machine Sys2Proof.Laws
set_option Elab.async false

/-! ### At one core -/

section Core

variable {s : State} {asid line : Nat} {j : Job}

/-- A step at the core in focus, whether or not it has stopped. -/
theorem atCore_here {f : State → State} (hlt : s.core.id < 4096) (hc : Sys2Proof.isCore s.core.id = true)
    (hid : (f s).core.id = s.core.id) : atCore s.core.id s f = .next (f s) := by
  have hf : s.focusOn s.core.id = s := if_pos rfl
  have hcore : (decide (s.core.id < 4096) && Machine.isCore s.core.id) = true := by
    unfold Sys2Proof.isCore at hc
    unfold Machine.isCore lidUnit
    rw [decide_eq_true hlt, Bool.true_and] at hc ⊢
    exact hc
  unfold atCore State.at
  rw [if_pos hcore]
  dsimp only
  rw [hf]
  exact congrArg Host.Outcome.next (if_pos hid)

theorem wire_core {p : Packet} {t : State} (h : s.wire p = some t) : t.core = s.core := by
  unfold State.wire at h
  split at h
  · cases h
    rfl
  · obtain ⟨l, -, rfl⟩ := Option.map_eq_some_iff.mp h
    rfl

/-- A reply that is sent is no message of a gang. -/
theorem send_reply_core {p : Packet} (hk : p.kind = 2) : (s.send p).core = s.core := by
  have hbig : p.big = false := by
    unfold Packet.big
    rw [hk]
    rfl
  have hgang (u : State) : u.gangMessage p = false := by
    unfold State.gangMessage
    rw [hk]
    rfl
  have htx : (s.transmit p).core = s.core := by
    unfold State.transmit
    dsimp only
    split
    case h_1 u hw =>
      rw [if_neg (by rw [hgang]; exact Bool.false_ne_true)]
      exact (wire_core hw : u.core = s.core)
    case h_2 =>
      rw [if_neg (by rw [hk]; decide)]
      rfl
  unfold State.send
  split
  · dsimp only
    split
    · exact htx
    · rw [hbig]
      rfl
  · cases hw : s.wire p with
    | none => rfl
    | some u => exact wire_core hw

theorem portReply_core (s : State) (giver code status : Nat) : (s.portReply giver code status).core = s.core := by
  unfold State.portReply
  split
  · rfl
  · exact send_reply_core rfl

/-- Answers to commands leave the core as it is. -/
theorem answerStops_core (s : State) (asid : Nat) : (s.answerStops asid).core = s.core := by
  unfold State.answerStops
  split
  · rfl
  · split
    · next j _ _ =>
      have hfold (ps : List Nat) : ∀ u : State, (ps.foldl (fun s p => s.portReply p 0x11 rsDONE) u).core = u.core := by
        induction ps with
        | nil => exact fun _ => rfl
        | cons p ps ih =>
          intro u
          exact (ih _).trans (portReply_core u p 0x11 rsDONE)
      exact hfold _ _
    · rfl

theorem arriving_iff (c : Core) : c.ctxs.any Ctx.arriving = true ↔ ∃ x ∈ c.ctxs.toList, x.arriving = true := by
  rw [← Vector.any_toList, List.any_eq_true]

theorem stopNow_new {c : Core} (h : c.stopped = false) : c.stopNow =
    { c with stopped := true, stopReq := false, gscyc := BitVec.ofNat 64 c.cyc, gssent := c.msent,
             gsrecv := c.mrecv, ctxs := c.ctxs.map Ctx.ungranted } := by
  unfold Core.stopNow
  rw [h]
  rfl

/-- A core that was asked stops at its boundary (R227). -/
theorem gangStop_stops (hlt : s.core.id < 4096) (hc : Sys2Proof.isCore s.core.id = true) (hreq : s.core.stopReq = true)
    (hrun : s.core.stopped = false) (hidle : ∀ x ∈ s.core.ctxs.toList, x.arriving = false) :
    ∃ t, exec (.gangStop s.core.id) s = .next t ∧ t.core.stopped = true ∧ t.core.stopReq = false ∧
      t.core.gscyc = BitVec.ofNat 64 s.core.cyc ∧ t.core.gssent = s.core.msent ∧ t.core.gsrecv = s.core.mrecv ∧
      t.core.gswhy = s.core.gswhy ∧ t.core.ctxs = s.core.ctxs.map Ctx.ungranted ∧ t.core.v = s.core.v ∧ t.core.mq = s.core.mq ∧
      t.core.jobs = s.core.jobs := by
  have hany : s.core.ctxs.any Ctx.arriving = false := by
    cases h : s.core.ctxs.any Ctx.arriving with
    | false => rfl
    | true =>
      obtain ⟨x, hx, ha⟩ := (arriving_iff _).mp h
      exact absurd ((hidle x hx).symm.trans ha) Bool.false_ne_true
  have hreach : s.reachStop = s.stopCore (fld s.core.gswhy 0 4) (fld s.core.gswhy 8 24) := by
    unfold State.reachStop
    rw [hreq, hrun, hany]
    rfl
  obtain ⟨⟨hst, hword⟩, hd⟩ := stopCore_stops (s := s) (reason := fld s.core.gswhy 0 4) (origin := fld s.core.gswhy 8 24)
  have hnow := stopNow_new hrun
  have hcore : (s.reachStop.answerStops s.asid).core = (s.stopCore (fld s.core.gswhy 0 4) (fld s.core.gswhy 8 24)).core := by
    rw [answerStops_core, hreach]
  have hpart {α : Type} (part : Core → α) (hp : ∀ c, part (kept c) = part c) :
      part (s.reachStop.answerStops s.asid).core = part s.core.stopNow := by
    rw [hcore]
    exact eq_of_kept part hd.core hp
  have hid : (s.reachStop.answerStops s.asid).core.id = s.core.id := (hpart Core.id fun _ => rfl).trans (by rw [hnow])
  refine ⟨_, atCore_here hlt hc hid, by rw [hcore]; exact hst, ?_, ?_, ?_, ?_, ?_, ?_, ?_, ?_, ?_⟩
  · rw [hcore]
    exact (congrArg Prod.snd hword).trans (by rw [hnow]; rfl)
  · exact (hpart Core.gscyc fun _ => rfl).trans (by rw [hnow])
  · exact (hpart Core.gssent fun _ => rfl).trans (by rw [hnow])
  · exact (hpart Core.gsrecv fun _ => rfl).trans (by rw [hnow])
  · rw [hcore]
    exact (congrArg Prod.fst hword).trans (stopNow_gswhy _)
  · exact (hpart Core.ctxs fun _ => rfl).trans (by rw [hnow])
  · exact (hpart Core.v fun _ => rfl).trans (by rw [hnow])
  · exact (hpart Core.mq fun _ => rfl).trans (by rw [hnow])
  · exact (hpart Core.jobs fun _ => rfl).trans (by rw [hnow])

/-- A core inside an instruction that nothing interrupts goes on. -/
theorem gangStop_busy (hlt : s.core.id < 4096) (hc : Sys2Proof.isCore s.core.id = true)
    (hbusy : ∃ x ∈ s.core.ctxs.toList, x.arriving = true) : ∃ t, exec (.gangStop s.core.id) s = .next t ∧ t.core = s.core := by
  have hreach : s.reachStop = s := by
    unfold State.reachStop
    rw [(arriving_iff _).mpr hbusy, Bool.not_true, Bool.and_false]
    rfl
  have hcore : (s.reachStop.answerStops s.asid).core = s.core := by rw [answerStops_core, hreach]
  exact ⟨_, atCore_here hlt hc (congrArg Core.id hcore), hcore⟩

/-- What an uncorrectable error leaves of the core that it strikes (R236). -/
structure Strikes (s t : State) (j : Job) : Prop where
  poisoned : t.core.poisoned = true
  v        : t.core.v = s.core.v
  idle     : ¬ (∃ x ∈ s.core.ctxs.toList, x.arriving = true) → t.core.stopped = true
  busy     : (∃ x ∈ s.core.ctxs.toList, x.arriving = true) → s.core.stopped = false → t.core.stopped = false ∧ t.core.stopReq = true
  ctxs     : t.core.ctxs = if s.core.stopped = false ∧ ¬ (∃ x ∈ s.core.ctxs.toList, x.arriving = true) then s.core.ctxs.map Ctx.ungranted
               else s.core.ctxs
  why      : s.core.id ∈ j.spec.gang → s.core.stopReq = false → s.core.stopped = false → s.myEid < 2 ^ 24 →
               fld t.core.gswhy 0 4 = 5 ∧ fld t.core.gswhy 8 24 = s.myEid

theorem told_why (hjob : s.core.job = some asid) (hj : s.jobOf asid = some j) (hin : s.core.id ∈ j.spec.gang)
    (hreq : s.core.stopReq = false) (hrun : s.core.stopped = false) :
    (toldToStop s 5).core.gswhy = BitVec.ofNat 64 (5 + 256 * s.myEid) := by
  have hasid : s.asid = asid := by
    unfold State.asid
    rw [hjob]
    rfl
  have hkeep : (s.gangStop s.asid 5 s.myEid).core.job = some asid := (eq_of_kept Core.job toldToStop_device.core).trans hjob
  have hcore : (s.gangStop s.asid 5 s.myEid).core = s.core.askStop 5 s.myEid s.time.toNat := by
    rw [hasid]
    exact gangStop_core hj hin
  show (if (s.gangStop s.asid 5 s.myEid).core.job.isSome then (s.gangStop s.asid 5 s.myEid).core.gswhy else _) = _
  rw [if_pos (by rw [hkeep]; rfl), hcore, askStop_new _ _ _ _ hreq hrun]

theorem stopGangHere_strikes (hjob : s.core.job = some asid) (hj : s.jobOf asid = some j) : Strikes s (s.stopGangHere 5) j := by
  have hctxs : (toldToStop s 5).core.ctxs = s.core.ctxs := told_part Core.ctxs
  have hstopped : (toldToStop s 5).core.stopped = s.core.stopped := told_part Core.stopped
  have hv : (toldToStop s 5).core.v = s.core.v := told_part Core.v
  have hbad : (toldToStop s 5).core.poisoned = true := Bool.or_true _
  have hany : (toldToStop s 5).core.ctxs.any Ctx.arriving = true ↔ ∃ x ∈ s.core.ctxs.toList, x.arriving = true := by
    rw [hctxs]
    exact arriving_iff _
  have hwhy (hin : s.core.id ∈ j.spec.gang) (hreq : s.core.stopReq = false) (hrun : s.core.stopped = false) (hlt : s.myEid < 2 ^ 24) :
      fld (toldToStop s 5).core.gswhy 0 4 = 5 ∧ fld (toldToStop s 5).core.gswhy 8 24 = s.myEid := by
    rw [told_why hjob hj hin hreq hrun]
    exact ⟨why_reason 5 _ (by decide), why_origin 5 _ (by decide) hlt⟩
  rw [stopGangHere_eq]
  by_cases hb : ∃ x ∈ s.core.ctxs.toList, x.arriving = true
  · rw [if_pos (hany.mpr hb)]
    refine ⟨hbad, hv, fun hn => absurd hb hn, fun _ hrun => ⟨hstopped.trans hrun, ?_⟩, ?_, hwhy⟩
    · show (!(toldToStop s 5).core.stopped) = true
      rw [hstopped, hrun]
      rfl
    · rw [if_neg fun hc => hc.2 hb]
      exact hctxs
  · rw [if_neg fun hc => hb (hany.mp hc)]
    obtain ⟨⟨hst, hword⟩, hd⟩ := stopCore_stops (s := toldToStop s 5) (reason := 5) (origin := (toldToStop s 5).myEid)
    have hpart {α : Type} (part : Core → α) (hp : ∀ c, part (kept c) = part c) :
        part ((toldToStop s 5).stopCore 5 (toldToStop s 5).myEid).core = part (toldToStop s 5).core.stopNow :=
      eq_of_kept part hd.core hp
    have hsame {α : Type} (part : Core → α) (hp : ∀ c, part (Core.stopNow c) = part c) :
        part (toldToStop s 5).core.stopNow = part (toldToStop s 5).core := hp _
    have hgs : ((toldToStop s 5).stopCore 5 (toldToStop s 5).myEid).core.gswhy = (toldToStop s 5).core.gswhy :=
      (congrArg Prod.fst hword).trans (stopNow_gswhy _)
    refine ⟨?_, ?_, fun _ => hst, fun h => absurd h hb, ?_, by rw [hgs]; exact hwhy⟩
    · refine ((hpart Core.poisoned fun _ => rfl).trans (hsame Core.poisoned fun c => ?_)).trans hbad
      unfold Core.stopNow
      split <;> rfl
    · refine ((hpart Core.v fun _ => rfl).trans (hsame Core.v fun c => ?_)).trans hv
      unfold Core.stopNow
      split <;> rfl
    · rw [hpart Core.ctxs fun _ => rfl]
      cases hrun : s.core.stopped with
      | false =>
        rw [if_pos ⟨rfl, hb⟩, stopNow_new (hstopped.trans hrun), hctxs]
      | true =>
        rw [if_neg (fun hc => nomatch hc.1), Core.stopNow, if_pos (hstopped.trans hrun), hctxs]

theorem stopGangHere_id (reason : Nat) : (s.stopGangHere reason).core.id = s.core.id := by
  have htold : (toldToStop s reason).core.id = s.core.id := told_part Core.id
  rw [stopGangHere_eq]
  split
  · exact htold
  · have hd := (stopCore_stops (s := toldToStop s reason) (reason := reason) (origin := (toldToStop s reason).myEid)).2
    refine (eq_of_kept Core.id hd.core).trans (.trans ?_ htold)
    show (Core.stopNow _).id = _
    unfold Core.stopNow
    split <;> rfl

theorem eccUe_strikes (hlt : s.core.id < 4096) (hc : Sys2Proof.isCore s.core.id = true) (hjob : s.core.job = some asid)
    (hj : s.jobOf asid = some j) : ∃ t, exec (.eccUe s.core.id) s = .next t ∧ Strikes s t j := by
  have hf : (if s.core.job.isSome then s.stopGangHere 5 else s) = s.stopGangHere 5 := by
    rw [hjob]
    rfl
  refine ⟨if s.core.job.isSome then s.stopGangHere 5 else s, atCore_here hlt hc ?_, ?_⟩
  · rw [hf]
    exact stopGangHere_id 5
  · rw [hf]
    exact stopGangHere_strikes hjob hj

/-- A lease that has run out lets its line go (R278). -/
theorem leaseExpiry_drops (hlt : s.core.id < 4096) (hc : Sys2Proof.isCore s.core.id = true) :
    ∃ t, exec (.leaseExpiry s.core.id line) s = .next t ∧ t = { s with core := { s.core with l1 := t.core.l1 } } ∧
      ∀ x, x ∈ t.core.l1 ↔ x ∈ s.core.l1 ∧ ¬ (x.line = line ∧ x.until_ ≤ s.time.toNat) := by
  refine ⟨_, atCore_here hlt hc rfl, rfl, fun x => ?_⟩
  refine List.mem_filter.trans (and_congr_right fun _ => ?_)
  simp only [Bool.not_eq_true', Bool.and_eq_false_iff, beq_eq_false_iff_ne, decide_eq_false_iff_not, ne_eq, not_and_or]

end Core

/-! ### Slices, drains and saves -/

section Switch

variable {s : State} {asid : Nat} {j : Job}

theorem run_iff {g k : Gang} : (g != k) = true ↔ g ≠ k := bne_iff_ne

/-- The steps of a gang's switch do nothing where no job has the number. -/
theorem switch_none (h : s.jobOf asid = none) : ∀ i ∈ [Instr.sliceExpiry asid, .gangDrain asid, .gangSave asid], exec i s = .next s := by
  simp only [List.forall_mem_cons]
  refine ⟨?_, ?_, ?_, fun _ hq => nomatch hq⟩
  · show execSliceExpiry asid s = _
    unfold execSliceExpiry
    rw [h]
    rfl
  · show execGangDrain asid s = _
    unfold execGangDrain
    rw [h]
    rfl
  · show execGangSave asid s = _
    unfold execGangSave
    rw [h]
    rfl

theorem sliceExpiry_keeps (h : s.jobOf asid = some j) (hn : ¬ (j.gang = .run ∧ j.spec.slice ≠ 0 ∧ j.sliceEnd ≤ s.time.toNat)) :
    exec (.sliceExpiry asid) s = .next s := by
  show execSliceExpiry asid s = _
  unfold execSliceExpiry
  rw [h]
  dsimp only
  rw [if_pos]
  · rfl
  · simp only [Bool.or_eq_true, bne_iff_ne, decide_eq_true_eq]
    by_contra hc
    simp only [not_or, not_not, Nat.not_lt] at hc
    exact hn ⟨hc.1.1, hc.1.2, hc.2⟩

theorem sliceExpiry_marks (h : s.jobOf asid = some j) (hr : j.gang = .run) (hs : j.spec.slice ≠ 0) (he : j.sliceEnd ≤ s.time.toNat) :
    exec (.sliceExpiry asid) s = .next (s.mapJob asid (fun j => { j with expired := true })) := by
  show execSliceExpiry asid s = _
  unfold execSliceExpiry
  rw [h]
  dsimp only
  rw [if_neg]
  · rfl
  · simp only [Bool.or_eq_true, bne_iff_ne, decide_eq_true_eq, not_or, not_not, Nat.not_lt]
    exact ⟨⟨hr, hs⟩, he⟩

/-- What the end of a cycle leaves of a job's marks. -/
def sliceEnded (s : State) (asid : Nat) : State := s.mapJob asid (fun j => { j with expired := false, closed := false })

theorem sliceEnded_job (h : s.jobOf asid = some j) : (sliceEnded s asid).jobOf asid = some { j with expired := false, closed := false } :=
  jobOf_mapJob (f := fun j : Job => { j with expired := false, closed := false }) (fun _ => rfl) h

theorem endSlice_none (h : s.jobOf asid = some j) (hn : j.expired = false ∨ j.gang ≠ .run) : s.endSlice j = sliceEnded s asid := by
  rw [← jobOf_asid h]
  unfold State.endSlice
  dsimp only
  rw [if_pos]
  · rfl
  · rcases hn with hn | hn
    · rw [hn]
      rfl
    · rw [bne_iff_ne.mpr hn, Bool.or_true]

theorem endSlice_closed (h : s.jobOf asid = some j) (he : j.expired = true) (hr : j.gang = .run) (hc : j.closed = true) :
    s.endSlice j = (sliceEnded s asid).mapJob asid (fun i => { i with sliceEnd := s.time.toNat + i.spec.slice }) := by
  rw [← jobOf_asid h]
  unfold State.endSlice
  dsimp only
  rw [he, hr, hc, if_neg (by decide), if_pos rfl]
  rfl

theorem endSlice_stops (h : s.jobOf asid = some j) (he : j.expired = true) (hr : j.gang = .run) (hc : j.closed = false) :
    s.endSlice j = (mapCores j.spec.gang (fun c => c.askStop 9 (s.eid 0x200) s.time.toNat) (sliceEnded s asid)).mapJob asid
      (fun i => { i with gang := .dispatchStop }) := by
  have hfold := foldl_mapCore_of (g := fun u c => c.askStop 9 (u.eid 0x200) u.time.toNat) (fun _ _ _ => rfl) j.spec.gang (sliceEnded s asid)
  rw [← jobOf_asid h] at hfold ⊢
  unfold State.endSlice
  dsimp only
  rw [he, hr, hc, if_neg (by decide), if_neg Bool.false_ne_true]
  exact congrArg (fun u : State => u.mapJob j.spec.asid (fun i => { i with gang := .dispatchStop })) hfold

/-- What a slice that ran out leaves as its cycle ends (R232, R234). -/
theorem endSlice_ends (h : s.jobOf asid = some j) :
    let u := s.endSlice j
    let ended : Job := { j with expired := false, closed := false }
    (j.expired = false ∨ j.gang ≠ .run → u.core = s.core ∧ u.others = s.others ∧ u.jobOf asid = some ended) ∧
    (j.expired = true → j.gang = .run → j.closed = true → u.core = s.core ∧ u.others = s.others ∧
      u.jobOf asid = some { ended with sliceEnd := s.time.toNat + j.spec.slice }) ∧
    (j.expired = true → j.gang = .run → j.closed = false → s.eid 0x200 < 2 ^ 24 →
      u.jobOf asid = some { ended with gang := .dispatchStop } ∧ u.mem = s.mem ∧
      ∀ e ∈ j.spec.gang, ((s.coreOf e).stopReq = false → (s.coreOf e).stopped = false →
        (u.coreOf e).stopReq = true ∧ fld (u.coreOf e).gswhy 0 4 = 9)) := by
  intro u ended
  have hended := sliceEnded_job h
  refine ⟨fun hn => ?_, fun he hr hc => ?_, fun he hr hc hlt => ?_⟩
  · have hu : u = _ := endSlice_none h hn
    rw [hu]
    exact ⟨rfl, rfl, hended⟩
  · have hu : u = _ := endSlice_closed h he hr hc
    rw [hu]
    exact ⟨rfl, rfl, jobOf_mapJob (f := fun i : Job => { i with sliceEnd := s.time.toNat + i.spec.slice }) (fun _ => rfl) hended⟩
  · have hu : u = _ := endSlice_stops h he hr hc
    have hrest := mapCores_rest j.spec.gang (fun c => c.askStop 9 (s.eid 0x200) s.time.toNat) (sliceEnded s asid)
    have hjob : (mapCores j.spec.gang (fun c => c.askStop 9 (s.eid 0x200) s.time.toNat) (sliceEnded s asid)).jobOf asid = some ended := by
      rw [hrest]
      exact hended
    rw [hu]
    refine ⟨jobOf_mapJob (f := fun i : Job => { i with gang := .dispatchStop }) (fun _ => rfl) hjob, ?_, fun e hin h1 h2 => ?_⟩
    · show (mapCores _ _ _).mem = _
      rw [hrest]
      rfl
    · have hcore := coreOf_mapCores_once (s := sliceEnded s asid) (f := fun c => c.askStop 9 (s.eid 0x200) s.time.toNat)
        (fun c => askStop_id c _ _ _) (fun c => askStop_twice c _ _ _) hin
      have hsame : ((mapCores j.spec.gang (fun c => c.askStop 9 (s.eid 0x200) s.time.toNat) (sliceEnded s asid)).mapJob asid
          (fun i => { i with gang := .dispatchStop })).coreOf e = (s.coreOf e).askStop 9 (s.eid 0x200) s.time.toNat := hcore
      rw [hsame, askStop_new _ _ _ _ h1 h2]
      exact ⟨rfl, why_reason 9 _ (by decide)⟩

end Switch

end Sys2Proof.Proofs
end

section
/-! PROOFS. A gang's drain and save, and O51 (R232, R233, R235, R236). -/
namespace Sys2Proof.Proofs
open Sys2Proof Sys2Proof.Machine Sys2Proof.Laws
set_option Elab.async false

section Drain

variable {s : State} {asid : Nat} {j : Job}

/-- A gang that leaves its cores: its dispatch is stopped, or it has stopped with a poisoned core (R232, R236). -/
def Leaves (s : State) (j : Job) : Prop :=
  j.gang = .dispatchStop ∨ (j.gang = .stopped ∧ ∃ e ∈ j.spec.gang, (s.coreOf e).poisoned = true)

/-- Every core of the gang has stopped. -/
def AllStill (s : State) (j : Job) : Prop := ∀ e ∈ j.spec.gang, (s.coreOf e).stopped = true

/-- What no answer is awaited of. -/
def HeldThere (r : RemOp) : Prop :=
  (r.pkt.handler = 8 ∧ r.pkt.arg1.getLsbD 33 = true) ∨ (r.pkt.handler = 7 ∧ r.pkt.arg1.getLsbD 0 = true)

/-- Nothing of the gang is on its way. -/
def AllQuiet (s : State) (asid : Nat) (j : Job) : Prop :=
  (∀ e ∈ j.spec.gang, ∀ r ∈ (s.coreOf e).ops, HeldThere r) ∧
    (j.spec.away = [] →
      (j.spec.gang.map (fun e => (s.coreOf e).msent)).sum = (j.spec.gang.map (fun e => (s.coreOf e).mrecv)).sum) ∧
    ∀ p ∈ s.net ++ s.niWait, p.asid = asid → p.kind ≠ 5 → p.kind ≠ 9 → eidLocal p.deid ∉ j.spec.gang

theorem leaves_iff : (j.gang == .dispatchStop || (j.gang == .stopped && !(s.poisonedCores j).isEmpty)) = true ↔ Leaves s j := by
  have hbad : (!(s.poisonedCores j).isEmpty) = true ↔ ∃ e ∈ j.spec.gang, (s.coreOf e).poisoned = true := by
    rw [Bool.not_eq_true', List.isEmpty_eq_false_iff, State.poisonedCores, ne_eq, List.filter_eq_nil_iff]
    push Not
    rfl
  rw [Bool.or_eq_true, Bool.and_eq_true, hbad, beq_iff_eq, beq_iff_eq]
  rfl

theorem gangStopped_iff : s.gangStopped j = true ↔ AllStill s j := List.all_eq_true

theorem heldThere_iff (r : RemOp) : r.heldThere = true ↔ HeldThere r := by
  simp [RemOp.heldThere, HeldThere]

theorem awaits_iff (p : Packet) : j.awaits p = true ↔ p.asid = j.spec.asid ∧ p.kind ≠ 5 ∧ p.kind ≠ 9 ∧ eidLocal p.deid ∈ j.spec.gang := by
  simp [Job.awaits, and_assoc]

theorem drained_iff (h : s.jobOf asid = some j) : s.drained j = true ↔ AllQuiet s asid j := by
  have hops : (j.spec.gang.map s.coreOf).all (fun c => c.ops.all RemOp.heldThere) = true ↔
      ∀ e ∈ j.spec.gang, ∀ r ∈ (s.coreOf e).ops, HeldThere r := by
    simp only [List.all_map, List.all_eq_true, Function.comp, heldThere_iff]
  have hsum : (!j.spec.away.isEmpty || ((j.spec.gang.map s.coreOf).map (fun c => c.msent)).sum ==
      ((j.spec.gang.map s.coreOf).map (fun c => c.mrecv)).sum) = true ↔ (j.spec.away = [] →
        (j.spec.gang.map (fun e => (s.coreOf e).msent)).sum = (j.spec.gang.map (fun e => (s.coreOf e).mrecv)).sum) := by
    rw [Bool.or_eq_true, Bool.not_eq_true', List.isEmpty_eq_false_iff, beq_iff_eq, List.map_map, List.map_map, imp_iff_not_or]
    rfl
  have hnone (l : List Packet) : (!l.any j.awaits) = true ↔
      ∀ p ∈ l, p.asid = asid → p.kind ≠ 5 → p.kind ≠ 9 → eidLocal p.deid ∉ j.spec.gang := by
    rw [Bool.not_eq_true', List.any_eq_false]
    refine forall₂_congr fun p _ => ?_
    rw [awaits_iff, jobOf_asid h]
    tauto
  unfold State.drained AllQuiet
  simp only [Bool.and_eq_true]
  rw [hops, hsum, hnone, hnone, List.forall_mem_append, and_assoc, and_assoc]

theorem gangDrain_eq (h : s.jobOf asid = some j) : exec (.gangDrain asid) s =
    if (j.gang == .dispatchStop || (j.gang == .stopped && !(s.poisonedCores j).isEmpty)) && s.gangStopped j then
      .next (s.mapJob asid (fun j => { j with gang := .drain }))
    else if j.gang == .drain then
      (if j.spec.saveSpill < j.spillBytes then .next (s.unsaveable j 8)
       else if s.drained j then .next (s.mapJob asid (fun j => { j with gang := .save }))
       else .next s)
    else .next s := by
  show execGangDrain asid s = _
  unfold execGangDrain
  rw [h]
  rfl

theorem drain_stays (h : s.jobOf asid = some j) (hn : ¬ (Leaves s j ∧ AllStill s j)) (hd : j.gang ≠ .drain) :
    exec (.gangDrain asid) s = .next s := by
  rw [gangDrain_eq h, if_neg, if_neg]
  · rwa [beq_iff_eq]
  · rw [Bool.and_eq_true, leaves_iff, gangStopped_iff]
    exact hn

theorem drain_begins (h : s.jobOf asid = some j) (hl : Leaves s j) (ha : AllStill s j) :
    exec (.gangDrain asid) s = .next (s.mapJob asid (fun j => { j with gang := .drain })) := by
  rw [gangDrain_eq h, if_pos]
  rw [Bool.and_eq_true, leaves_iff, gangStopped_iff]
  exact ⟨hl, ha⟩

theorem leaves_not_drain (hl : Leaves s j) : j.gang ≠ .drain := by
  rcases hl with hl | ⟨hl, -⟩ <;> rw [hl] <;> exact fun hc => nomatch hc

/-- A gang in its drain. -/
theorem drain_goes (h : s.jobOf asid = some j) (hd : j.gang = .drain) : exec (.gangDrain asid) s =
    if j.spec.saveSpill < j.spillBytes then .next (s.unsaveable j 8)
    else if s.drained j then .next (s.mapJob asid (fun j => { j with gang := .save }))
    else .next s := by
  rw [gangDrain_eq h, if_neg, if_pos (beq_iff_eq.mpr hd)]
  rw [Bool.and_eq_true, leaves_iff]
  exact fun hc => leaves_not_drain hc.1 hd

end Drain

/-! ### The save -/

section Save

variable {s : State} {asid : Nat} {j : Job}

/-- One free number more is taken. -/
def renumbered (s : State) : State := { s with freeN := s.freeN + 1 }

theorem renumbered_leaves {ev : List HostEvent} {u : State} (hu : Unseen ev u) (hd : Device s u) :
    Unseen ev (renumbered u) ∧ Device s (renumbered u) := ⟨hu.same rfl rfl rfl, hd.same rfl rfl rfl rfl⟩

/-- The state in which the pieces of a save have been written as far as they go. -/
def saveRan (s : State) (j : Job) : State := renumbered (s.saveRun j (capTop j.spec.save).toNat (s.savePieces j)).1

/-- VALID written behind them. -/
def saveValid (s : State) (asid : Nat) (j : Job) : State :=
  (saveRan s j).engineWrite asid ((capBase j.spec.save).toNat + 40) (leBytes 8 1) (s.dieMgr 0)

/-- The reason at which the pieces were left; 0 for none. -/
def saveReason (s : State) (j : Job) : Nat := (s.saveRun j (capTop j.spec.save).toNat (s.savePieces j)).2

theorem saveRan_leaves (hw : Unwatched s) : Unseen s.events (saveRan s j) ∧ Device s (saveRan s j) := by
  obtain ⟨hu, hd⟩ := saveRun_leaves (j := j) (top := (capTop j.spec.save).toNat) (s.savePieces j) s ⟨hw, rfl⟩
  exact renumbered_leaves hu hd

theorem saveRan_dieMgr (hw : Unwatched s) : (saveRan s j).dieMgr 0 = s.dieMgr 0 := by
  have hp : (saveRan s j).pkg = s.pkg := eq_of_bare State.pkg (saveRan_leaves hw).2.rest
  unfold State.dieMgr State.eid
  rw [hp]

theorem gangSave_eq (h : s.jobOf asid = some j) (hs : j.gang = .save) (hw : Unwatched s) : exec (.gangSave asid) s =
    .next (if saveReason s j = 0 then (saveValid s asid j).saveGang j else (saveRan s j).unsaveable j (saveReason s j)) := by
  have hasid := jobOf_asid h
  show execGangSave asid s = _
  unfold execGangSave
  rw [h]
  dsimp only
  rw [if_pos (beq_iff_eq.mpr hs)]
  unfold saveValid
  rw [← saveRan_dieMgr (j := j) hw, ← hasid]
  rfl

theorem gangSave_other (h : s.jobOf asid = some j) (hs : j.gang ≠ .save) : exec (.gangSave asid) s = .next s := by
  show execGangSave asid s = _
  unfold execGangSave
  rw [h]
  dsimp only
  rw [if_neg (by rwa [beq_iff_eq])]
  rfl

/-- A save that is abandoned. -/
theorem save_fails (h : s.jobOf asid = some j) (hw : Unwatched s) :
    ∃ x, ((saveRan s j).unsaveable j (saveReason s j)).jobOf asid = some x ∧ x.gang = .unsaveable ∧ x.valid = j.valid ∧
      (∀ e ∈ j.spec.gang, fld (((saveRan s j).unsaveable j (saveReason s j)).coreOf e).gswhy 0 4 = saveReason s j) ∧
      ((saveRan s j).unsaveable j (saveReason s j)).events = s.events ++ [.jobFault asid (saveReason s j) 0] := by
  obtain ⟨hu, hd⟩ := saveRan_leaves (j := j) hw
  obtain ⟨i, hi, hk⟩ := jobOf_device hd h
  have hlt : saveReason s j < 16 := by
    unfold saveReason
    rcases saveRun_reason (j := j) (top := (capTop j.spec.save).toNat) (s.savePieces j) s with h | h | h <;> rw [h] <;> decide
  obtain ⟨x, hx, hg, hv, hwhy, hev⟩ := unsaveable_fails (jobOf_asid h) hi hlt
  have hvalid : i.valid = j.valid := (congrArg Job.valid hk : (keptJob i).valid = (keptJob j).valid)
  exact ⟨x, hx, hg, hv.trans hvalid, hwhy, hev.trans (by rw [hu.2])⟩

/-- A save that succeeds. -/
theorem save_saves (h : s.jobOf asid = some j) (hw : Unwatched s) :
    ∃ x, ((saveValid s asid j).saveGang j).jobOf asid = some x ∧ x.gang = .saved ∧ x.valid = true ∧
      x.saved = j.spec.gang.map (fun e => ((saveValid s asid j).coreOf e).record (j.spec.gang.map s.eid)) ∧
      x.poisoned = j.spec.gang.filter (fun e => (s.coreOf e).poisoned) ∧ x.savedJoins = s.joins.filter (fun y => y.asid == asid) ∧
      (∀ y ∈ ((saveValid s asid j).saveGang j).joins, y.asid ≠ asid) ∧
      ((saveValid s asid j).saveGang j).mem = (saveValid s asid j).mem ∧
      (∀ e ∈ j.spec.gang, (((saveValid s asid j).saveGang j).coreOf e).job = none ∧
        (((saveValid s asid j).saveGang j).coreOf e).stopped = false ∧ (((saveValid s asid j).saveGang j).coreOf e).run = none ∧
        (((saveValid s asid j).saveGang j).coreOf e).jobs = [] ∧ (((saveValid s asid j).saveGang j).coreOf e).mfvalid = false) ∧
      ((saveValid s asid j).saveGang j).events = s.events ++ [.switchDone asid] := by
  obtain ⟨hu, hd⟩ := saveRan_leaves (j := j) hw
  have hud : Unseen s.events (saveValid s asid j) := engineWriteAs_unseen hu
  have hdv : Device s (saveValid s asid j) := hd.trans (engineWrite_device (.refl _))
  obtain ⟨i, hi, hk⟩ := jobOf_device hdv h
  have hspec : i.spec = j.spec := (congrArg Job.spec hk : (keptJob i).spec = (keptJob j).spec)
  obtain ⟨x, hx, hg, hv, hsaved, hbad, hjoins, hnone, hmem, hcores, hev⟩ := saveGang_saves (jobOf_asid h) hi hspec
  have heid : (saveValid s asid j).eid = s.eid := by
    have hp : (saveValid s asid j).pkg = s.pkg := eq_of_bare State.pkg hdv.rest
    funext u
    unfold State.eid
    rw [hp]
  have hpois (e : Nat) : ((saveValid s asid j).coreOf e).poisoned = (s.coreOf e).poisoned := eq_of_kept Core.poisoned (hdv.cores e)
  have hjs : (saveValid s asid j).joins = s.joins := eq_of_bare State.joins hdv.rest
  refine ⟨x, hx, hg, hv, by rw [hsaved, heid], by rw [hbad]; simp only [hpois], by rw [hjoins, hjs], hnone, hmem, hcores, ?_⟩
  rw [hev, hud.2]

end Save

/-- Settles O51: each step of a gang's stop and switch by the branch it takes, the save by what its engine's writes leave. -/
theorem gangStopsAndSwitches : Obligations.GangStopsAndSwitches := by
  unfold Obligations.GangStopsAndSwitches
  intro s asid line reason origin j c now still gang failed unwatched
  refine ⟨?_, fun hj _ => gangStop_told hj, fun hlt hc hjob hj => ⟨?_, ?_, ?_, ?_⟩, switch_none, fun hj => ⟨?_, ?_, ?_, ?_, ?_, ?_, ?_⟩⟩
  · intro t hr ho
    refine ⟨fun h1 h2 => ?_, fun h => ⟨fun hw => ?_, fun hw => ?_⟩⟩
    · have ht : t = _ := askStop_new c reason origin now h1 h2
      rw [ht]
      exact ⟨rfl, why_reason _ _ hr, why_origin _ _ hr ho⟩
    · have ht : t = _ := askStop_again c reason origin now h
      rw [ht, if_pos ((whyReplaces_iff _ _).mpr hw)]
      exact why_reason _ _ hr
    · have ht : t = _ := askStop_again c reason origin now h
      rw [ht, if_neg fun hc => hw ((whyReplaces_iff _ _).mp hc)]
  · exact gangStop_stops hlt hc
  · exact gangStop_busy hlt hc
  · intro busy
    obtain ⟨t, ht, h⟩ := eccUe_strikes hlt hc hjob hj
    exact ⟨t, ht, h.poisoned, h.v, h.idle, h.busy, h.ctxs, h.why⟩
  · exact leaseExpiry_drops hlt hc
  · exact fun hn => sliceExpiry_keeps hj hn
  · exact fun ⟨hr, hs, he⟩ => ⟨_, sliceExpiry_marks hj hr hs he, rfl, rfl, rfl,
      jobOf_mapJob (f := fun j : Job => { j with expired := true }) (fun _ => rfl) hj⟩
  · intro u ended
    obtain ⟨h1, h2, h3⟩ := endSlice_ends hj
    exact ⟨h1, h2, fun he hr hc _ hlt => h3 he hr hc hlt⟩
  · intro all leaves heldThere quiet room
    have hset (g : Gang) : (s.mapJob asid (fun j => { j with gang := g })).jobOf asid = some { j with gang := g } :=
      jobOf_mapJob (f := fun j : Job => { j with gang := g }) (fun _ => rfl) hj
    refine ⟨fun hn hd => drain_stays hj (fun hc => hn hc.1) hd, fun hl hn => drain_stays hj (fun hc => hn hc.2) (leaves_not_drain hl),
      fun hl ha => ⟨_, drain_begins hj hl ha, rfl, rfl, rfl, hset .drain⟩, fun hd _ _ hn => ?_, fun hd hroom hq => ?_, fun hd hroom hq => ?_⟩
    · obtain ⟨x, hx⟩ := unsaveable_fails (s := s) (why := 8) (jobOf_asid hj) hj (by decide)
      exact ⟨_, x, (drain_goes hj hd).trans (if_pos (Nat.lt_of_not_le hn)), hx⟩
    · have hle : ¬ j.spec.saveSpill < j.spillBytes := Nat.not_lt.mpr hroom
      rw [drain_goes hj hd, if_neg hle, if_neg fun hc => hq ((drained_iff hj).mp hc)]
    · have hle : ¬ j.spec.saveSpill < j.spillBytes := Nat.not_lt.mpr hroom
      exact ⟨_, (drain_goes hj hd).trans ((if_neg hle).trans (if_pos ((drained_iff hj).mpr hq))), rfl, rfl, rfl,
        hset .save⟩
  · exact gangSave_other hj
  · intro hs _ hw base top ps r v
    refine ⟨?_, fun hr => ?_, fun hr => ?_⟩
    · rw [← jobOf_asid hj]
      rfl
    · obtain ⟨x, hx⟩ := save_fails hj hw
      exact ⟨_, x, (gangSave_eq hj hs hw).trans (congrArg Host.Outcome.next (if_neg hr)), hx⟩
    · obtain ⟨x, hx, hg, hv, hsaved, hbad, hjoins, hnone, hmem, hcores, hev⟩ := save_saves hj hw
      exact ⟨_, x, (gangSave_eq hj hs hw).trans (congrArg Host.Outcome.next (if_pos hr)), hx, hg, hv, hsaved, hbad, hjoins, hnone, hmem,
        hcores, hev⟩
  · intro top
    exact saveRun_pieces (jobOf_asid hj)

end Sys2Proof.Proofs
end

section
/-! PROOFS. The order of an emission's events, and their words in messages (R28 to R30, R170, R172, R173). -/
namespace Sys2Proof.Proofs
open Sys2Proof Sys2Proof.Machine Sys2Proof.Laws
set_option Elab.async false

/-! ### The order of R28 -/

section Order

variable {x y : Val} {p q : Val × Nat}

theorem vCmp_swap (x y : Val) : vCmp y x = (vCmp x y).swap := by
  cases x <;> cases y <;> simp only [vCmp, min_comm] <;> exact Std.OrientedCmp.eq_swap

theorem vCmp_lt_iff (hx : x ≠ .nan) (hy : y ≠ .nan) : vCmp x y = .lt ↔ valKey x < valKey y := by
  rw [← vCmp_gt_iff hy hx, vCmp_swap x y]
  cases vCmp x y <;> decide

theorem vAbs_nan (h : x ≠ .nan) : vAbs x ≠ .nan := by
  cases x with
  | nan => exact absurd rfl h
  | inf a => exact fun hc => nomatch hc
  | fin a n e => exact fun hc => nomatch hc

/-- An event's place in the order: larger magnitudes first, then lower channels. -/
def emitKey (p : Val × Nat) : (ℤ ×ₗ ℚ)ᵒᵈ ×ₗ ℕ := toLex (OrderDual.toDual (valKey (vAbs p.1)), p.2)

theorem emitBefore_iff (hp : p.1 ≠ .nan) (hq : q.1 ≠ .nan) : emitBefore p q = true ↔ emitKey p < emitKey q := by
  have hgt := vCmp_gt_iff (vAbs_nan hp) (vAbs_nan hq)
  have hlt := vCmp_lt_iff (vAbs_nan hp) (vAbs_nan hq)
  unfold emitBefore emitKey
  rw [Prod.Lex.toLex_lt_toLex]
  cases hc : vCmp (vAbs p.1) (vAbs q.1) with
  | gt => simp [hgt.mp hc]
  | lt =>
    have hk := hlt.mp hc
    simp [hk.not_gt, hk.ne]
  | eq =>
    have h1 : ¬ valKey (vAbs q.1) < valKey (vAbs p.1) := fun h => nomatch hc.symm.trans (hgt.mpr h)
    have h2 : ¬ valKey (vAbs p.1) < valKey (vAbs q.1) := fun h => nomatch hc.symm.trans (hlt.mpr h)
    have he : valKey (vAbs p.1) = valKey (vAbs q.1) := le_antisymm (not_lt.mp h1) (not_lt.mp h2)
    simp [he]

end Order

/-! ### Events sorted -/

section Sorting

theorem emitInsert_perm (x : Val × Nat) (ys : List (Val × Nat)) : (emitInsert x ys).Perm (x :: ys) := by
  induction ys with
  | nil => exact .refl _
  | cons y ys ih =>
    rw [emitInsert]
    split
    · exact .refl _
    · exact (ih.cons y).trans (.swap x y ys)

theorem foldr_emitInsert_perm (xs : List (Val × Nat)) : (xs.foldr emitInsert []).Perm xs := by
  induction xs with
  | nil => exact .refl _
  | cons x xs ih => exact (emitInsert_perm x _).trans (ih.cons x)

theorem emitInsert_sorted {x : Val × Nat} {ys : List (Val × Nat)} (hx : x.1 ≠ .nan) (hy : ∀ y ∈ ys, y.1 ≠ .nan ∧ x.2 ≠ y.2)
    (h : ys.Pairwise (fun p q => emitKey p < emitKey q)) : (emitInsert x ys).Pairwise (fun p q => emitKey p < emitKey q) := by
  induction ys with
  | nil => exact List.pairwise_singleton _ _
  | cons y ys ih =>
    obtain ⟨hny, hne⟩ := hy y List.mem_cons_self
    obtain ⟨hfirst, hrest⟩ := List.pairwise_cons.mp h
    rw [emitInsert]
    split
    case isTrue hb =>
      have hlt := (emitBefore_iff hx hny).mp hb
      refine List.pairwise_cons.mpr ⟨fun z hz => ?_, h⟩
      rcases List.mem_cons.mp hz with rfl | hz
      · exact hlt
      · exact hlt.trans (hfirst z hz)
    case isFalse hb =>
      have hle : ¬ emitKey x < emitKey y := fun hc => hb ((emitBefore_iff hx hny).mpr hc)
      have hkey : emitKey y ≠ emitKey x := fun hc => hne (congrArg (fun k => (ofLex k).2) hc).symm
      have hlt := lt_of_le_of_ne (not_lt.mp hle) hkey
      refine List.pairwise_cons.mpr ⟨fun z hz => ?_, ih (fun w hw => hy w (List.mem_cons_of_mem _ hw)) hrest⟩
      rcases List.mem_cons.mp ((emitInsert_perm x ys).mem_iff.mp hz) with rfl | hz
      · exact hlt
      · exact hfirst z hz

theorem foldr_emitInsert_sorted {xs : List (Val × Nat)} (hn : ∀ x ∈ xs, x.1 ≠ .nan) (hd : xs.Pairwise (fun p q => p.2 ≠ q.2)) :
    (xs.foldr emitInsert []).Pairwise (fun p q => emitKey p < emitKey q) := by
  induction xs with
  | nil => exact List.Pairwise.nil
  | cons x xs ih =>
    obtain ⟨hx, hxs⟩ := List.pairwise_cons.mp hd
    refine emitInsert_sorted (hn x List.mem_cons_self) (fun y hy => ?_) (ih (fun y hy => hn y (List.mem_cons_of_mem _ hy)) hxs)
    have hm := (foldr_emitInsert_perm xs).mem_iff.mp hy
    exact ⟨hn y (List.mem_cons_of_mem _ hm), hx y hm⟩

variable {val : Nat → Val} {n : Nat} {es : List Nat}

/-- Whether an element stands before another in the order of R28. -/
def Ahead (val : Nat → Val) (x y : Nat) : Prop :=
  vCmp (vAbs (val x)) (vAbs (val y)) = .gt ∨ (vCmp (vAbs (val x)) (vAbs (val y)) = .eq ∧ x < y)

theorem emitBefore_of_ahead {x y : Nat} (h : Ahead val x y) : emitBefore (val x, x) (val y, y) = true := by
  unfold emitBefore
  rcases h with h | ⟨h, hlt⟩
  · rw [h]
  · rw [h]
    exact decide_eq_true hlt

theorem emits_nan {v : Val} (h : emits v = true) : v ≠ .nan := by
  unfold emits at h
  simpa using (Bool.and_eq_true_iff.mp h).1

/-- The events that stand in the order of R28 are those that the sort gives. -/
theorem emitSorted_unique (hp : es.Perm ((List.range n).filter (fun e => emits (val e)))) (ha : es.Pairwise (Ahead val)) :
    ((((List.range n).filter (fun e => emits (val e))).map (fun e => (val e, e))).foldr emitInsert []) = es.map (fun e => (val e, e)) := by
  have hlive (e : Nat) (he : e ∈ (List.range n).filter (fun e => emits (val e))) : val e ≠ .nan := emits_nan (List.mem_filter.mp he).2
  have hnan : ∀ x ∈ ((List.range n).filter (fun e => emits (val e))).map (fun e => (val e, e)), x.1 ≠ .nan := by
    intro x hx
    obtain ⟨e, he, rfl⟩ := List.mem_map.mp hx
    exact hlive e he
  have hdist : (((List.range n).filter (fun e => emits (val e))).map (fun e => (val e, e))).Pairwise (fun p q => p.2 ≠ q.2) := by
    rw [List.pairwise_map]
    exact (List.nodup_range.filter _)
  have hsorted : (es.map (fun e => (val e, e))).Pairwise (fun p q => emitKey p < emitKey q) := by
    rw [List.pairwise_map]
    refine ha.imp_of_mem fun {x y} hx hy h => ?_
    exact (emitBefore_iff (hlive x (hp.mem_iff.mp hx)) (hlive y (hp.mem_iff.mp hy))).mp (emitBefore_of_ahead h)
  refine List.Perm.eq_of_pairwise (fun x y _ _ h1 h2 => absurd (h1.trans h2) (lt_irrefl _)) (foldr_emitInsert_sorted hnan hdist) hsorted ?_
  exact (foldr_emitInsert_perm _).trans (hp.map _).symm

theorem eventWord_eq (v : Val) (ch : Nat) : eventWord v ch = ch + if vSign v then 32768 else 0 := by
  unfold eventWord b2n
  cases vSign v <;> rfl

/-- The elements' values of a register. -/
def elemVals (val : Nat → Val) (n : Nat) : List Val := (List.range n).map val

/-- OCEMIT's words (R172). -/
theorem emitWords_eq {base cutLen : Nat} (hp : es.Perm ((List.range n).filter (fun e => emits (val e)))) (ha : es.Pairwise (Ahead val)) :
    emitWords base cutLen (elemVals val n) =
      (if cutLen = 0 then es else es.take cutLen).map (fun e => base + e + if vSign (val e) then 32768 else 0) := by
  have hzip : (elemVals val n).zip (List.range (elemVals val n).length) = (List.range n).map (fun e => (val e, e)) := by
    rw [elemVals, List.length_map, List.length_range, List.zip_map_left]
    refine List.ext_getElem (by simp) fun i h1 h2 => ?_
    simp
  have hfilter : ((List.range n).map (fun e => (val e, e))).filter (fun x => emits x.1) =
      ((List.range n).filter (fun e => emits (val e))).map (fun e => (val e, e)) := List.filter_map
  unfold emitWords
  dsimp only
  rw [hzip, hfilter, emitSorted_unique hp ha]
  unfold cut
  split
  · rw [List.map_map]
    exact List.map_congr_left fun e _ => eventWord_eq _ _
  · rw [← List.map_take, List.map_map]
    exact List.map_congr_left fun e _ => eventWord_eq _ _

/-- OCEMITI's words: the keys in the order given, up to the first that is none (R173). -/
theorem emitOrdered_eq {base : Nat} (xs : List (Val × Nat)) (h : ∀ x ∈ xs.takeWhile (fun x => emits x.1), base + x.2 ≤ 0x7FFE) :
    emitOrdered base xs = some ((xs.takeWhile (fun x => emits x.1)).map (fun x => eventWord x.1 (base + x.2))) := by
  induction xs with
  | nil => rfl
  | cons x xs ih =>
    rw [emitOrdered]
    cases hx : emits x.1 with
    | false =>
      rw [List.takeWhile_cons, hx]
      rfl
    | true =>
      rw [List.takeWhile_cons, hx, if_pos rfl] at h ⊢
      have hle := h x List.mem_cons_self
      rw [if_neg (by decide), if_neg (by omega), ih fun y hy => h y (List.mem_cons_of_mem _ hy)]
      rfl

theorem emitOrdered_none {base : Nat} (xs : List (Val × Nat)) (h : ∃ x ∈ xs.takeWhile (fun x => emits x.1), 0x7FFE < base + x.2) :
    emitOrdered base xs = none := by
  induction xs with
  | nil =>
    obtain ⟨x, hx, -⟩ := h
    nomatch hx
  | cons x xs ih =>
    obtain ⟨y, hy, hlt⟩ := h
    rw [emitOrdered]
    cases hx : emits x.1 with
    | false =>
      rw [List.takeWhile_cons, hx] at hy
      nomatch hy
    | true =>
      rw [List.takeWhile_cons, hx, if_pos rfl] at hy
      rw [if_neg (by decide)]
      split
      · rfl
      · rcases List.mem_cons.mp hy with rfl | hy
        · exact absurd hlt ‹_›
        · rw [ih ⟨y, hy, hlt⟩]
          rfl

end Sorting

/-! ### Messages (R170) -/

theorem emitMsgs_join (n : Nat) : ∀ ws : List Nat, ws.length < n → (emitMsgs n ws).flatten = ws.flatMap (leBytes 2) := by
  induction n with
  | zero => exact fun ws h => absurd h (Nat.not_lt_zero _)
  | succ n ih =>
    intro ws h
    unfold emitMsgs
    cases ws with
    | nil => rfl
    | cons w ws =>
      rw [if_neg (show ¬ (w :: ws).isEmpty = true from Bool.false_ne_true), List.flatten_cons, ih _ (by
        rw [List.length_drop]
        simp only [List.length_cons] at h ⊢
        omega), ← List.flatMap_append, List.take_append_drop]

theorem emitMsgs_short (n : Nat) : ∀ ws : List Nat, ∀ e ∈ emitMsgs n ws, e.length ≤ 240 := by
  induction n with
  | zero => exact fun _ e he => nomatch he
  | succ n ih =>
    intro ws e he
    unfold emitMsgs at he
    split at he
    · nomatch he
    · rcases List.mem_cons.mp he with rfl | he
      · rw [length_flatMap_const (n := 2) _ fun x _ => length_leBytes _ _, List.length_take]
        omega
      · exact ih _ e he

end Sys2Proof.Proofs
end

section
/-! PROOFS. Slots asked for and taken, and messages sent into them (R170, R171, R342, R344). -/
namespace Sys2Proof.Proofs
open Sys2Proof Sys2Proof.Machine Sys2Proof.Laws
set_option Elab.async false

/-! ### What sending leaves, from whichever core -/

/-- A state without what a packet on its way may change of it. -/
def unposted (s : State) : State := { unsent s with others := [] }

/-- From `s` to `t` packets have gone on their way; cores have at most counted them. -/
structure Posted (s t : State) : Prop where
  rest : unposted t = unposted s
  core : uncounted t.core = uncounted s.core

section Posting

variable {s₀ s t : State}

theorem Posted.refl (s : State) : Posted s s := ⟨rfl, rfl⟩

theorem Posted.trans (h : Posted s₀ s) (h' : Posted s t) : Posted s₀ t := ⟨h'.rest.trans h.rest, h'.core.trans h.core⟩

theorem Sent.posted (h : Sent s t) : Posted s t := ⟨congrArg (fun x : State => { x with others := [] }) h.rest, h.core⟩

theorem Posted.part {α : Type} (h : Posted s t) (part : State → α) (hp : ∀ s, part (unposted s) = part s := by intro; rfl) :
    part t = part s := (hp t).symm.trans ((congrArg part h.rest).trans (hp s))

theorem Posted.corePart {α : Type} (h : Posted s t) (part : Core → α) (hp : ∀ c, part (uncounted c) = part c := by intro; rfl) :
    part t.core = part s.core := (hp _).symm.trans ((congrArg part h.core).trans (hp _))

theorem mapCore_posted {e : Nat} {f : Core → Core} (hf : ∀ c, uncounted (f c) = uncounted c) : Posted s (s.mapCore e f) := by
  unfold State.mapCore
  split
  · exact ⟨rfl, hf _⟩
  · exact ⟨rfl, rfl⟩

theorem transmit_posted (p : Packet) : Posted s (s.transmit p) := by
  unfold State.transmit
  dsimp only
  split
  case h_1 u hw =>
    have hu : Posted s (u.setTx ((s.pairTx p.seid p.deid).keep { p with pseq := (s.pairTx p.seid p.deid).next } u.time.toNat)) :=
      (setTx_sent _ (wire_sent (Sent.refl s) hw)).posted
    split
    · refine hu.trans (mapCore_posted fun c => ?_)
      split <;> rfl
    · exact hu
  case h_2 =>
    split
    · exact (refuseHere_sent p (Sent.refl s)).posted
    · exact (setTx_sent _ (Sent.refl s)).posted

theorem send_posted (p : Packet) : Posted s (s.send p) := by
  unfold State.send
  split
  · dsimp only
    split
    · exact transmit_posted p
    · split
      · exact (setTx_sent _ (Sent.refl s)).posted.trans (transmit_posted _)
      · exact (setTx_sent _ (Sent.refl s)).posted
  · cases hw : s.wire p with
    | none => exact .refl s
    | some u => exact (wire_sent (Sent.refl s) hw).posted

end Posting

/-! ### A message in its slot (R298, R342) -/

section Message

variable {s : State} {peer id tag : Nat}

/-- The packet of a message. -/
def slotPacket (s : State) (peer id tag slot : Nat) (bs : List Byte) : Packet :=
  { deid := peer, handler := 9, arg0 := slotArg slot, arg1 := BitVec.ofNat 64 (id + tag * 65536)
    arg2 := BitVec.ofNat 64 (s.core.sentTo id peer), data := bs }

/-- The messages to a receive end counted. -/
def msgCounted (s : State) (peer id : Nat) : State :=
  { s with core := { s.core with
    sent := ((id, peer), (s.core.sentTo id peer + 1) % 65536) :: s.core.sent.filter (fun x => x.1 != (id, peer)) } }

/-- The operation of a message. -/
def msgOp (s : State) (peer id tag slot : Nat) (bs : List Byte) : RemOp :=
  sentOp (msgCounted s peer id) (slotPacket s peer id tag slot bs) (fun r => r)

/-- What a message that has been sent leaves of the state. -/
structure SentInto (s t : State) (xs : List RemOp) : Prop where
  ops  : t.core.ops = s.core.ops ++ xs
  v    : t.core.v = s.core.v
  mem  : t.mem = s.mem
  eid  : t.myEid = s.myEid

theorem SentInto.trans {t u : State} {xs ys : List RemOp} (h : SentInto s t xs) (h' : SentInto t u ys) : SentInto s u (xs ++ ys) :=
  ⟨by rw [h'.ops, h.ops, List.append_assoc], h'.v.trans h.v, h'.mem.trans h.mem, h'.eid.trans h.eid⟩

theorem sendMsg_sends (slot : Nat) (bs : List Byte) : ∃ x : RemOp, SentInto s (s.sendMsg peer id tag slot bs) [x] ∧ x.pkt.data = bs ∧
    x.pkt.arg0 = slotArg slot ∧ x.pkt.kind = 1 ∧ x.pkt.handler = 9 ∧ x.pkt.deid = peer ∧ x.pkt.seid = s.myEid ∧
    x.pkt.arg1 = BitVec.ofNat 64 (id + tag * 65536) := by
  obtain ⟨u, hu, hops, hv, hmem, heid⟩ : ∃ u : State, s.sendMsg peer id tag slot bs = u.send (msgOp s peer id tag slot bs).pkt ∧
      u.core.ops = s.core.ops ++ [msgOp s peer id tag slot bs] ∧ u.core.v = s.core.v ∧ u.mem = s.mem ∧ u.myEid = s.myEid :=
    ⟨_, rfl, rfl, rfl, rfl, rfl⟩
  have hp := send_posted (s := u) (msgOp s peer id tag slot bs).pkt
  rw [← hu] at hp
  refine ⟨_, ⟨(hp.corePart Core.ops).trans hops, (hp.corePart Core.v).trans hv, (hp.part State.mem).trans hmem, .trans ?_ heid⟩, rfl, rfl, rfl,
    rfl, rfl, rfl, rfl⟩
  have hpkg : (s.sendMsg peer id tag slot bs).pkg = u.pkg := hp.part State.pkg
  have hid : (s.sendMsg peer id tag slot bs).core.id = u.core.id := hp.corePart Core.id
  unfold State.myEid State.eid
  rw [hpkg, hid]

/-- Messages sent into their slots, in order. -/
def sendMsgs (peer id tag : Nat) (xs : List (List Byte × Nat)) (s : State) : State :=
  xs.foldl (fun s x => s.sendMsg peer id tag x.2 x.1) s

theorem sendMsgs_sends (ms : List (List Byte)) : ∀ (slots : List Nat) (s : State), slots.length = ms.length →
    ∃ xs, SentInto s (sendMsgs peer id tag (ms.zip slots) s) xs ∧ xs.map (fun x => x.pkt.data) = ms ∧
      xs.map (fun x => x.pkt.arg0) = slots.map slotArg ∧
      ∀ x ∈ xs, x.pkt.kind = 1 ∧ x.pkt.handler = 9 ∧ x.pkt.deid = peer ∧ x.pkt.seid = s.myEid ∧
        x.pkt.arg1 = BitVec.ofNat 64 (id + tag * 65536) := by
  induction ms with
  | nil =>
    intro slots s h
    rw [List.eq_nil_of_length_eq_zero h]
    exact ⟨[], ⟨(List.append_nil _).symm, rfl, rfl, rfl⟩, rfl, rfl, fun x hx => nomatch hx⟩
  | cons m ms ih =>
    intro slots s h
    cases slots with
    | nil => nomatch h
    | cons i slots =>
      obtain ⟨x, hx, hdata, harg, hk, hh, hd, hs, h1⟩ := sendMsg_sends (s := s) (peer := peer) (id := id) (tag := tag) i m
      obtain ⟨xs, hxs, hdatas, hargs, hall⟩ := ih slots (s.sendMsg peer id tag i m) (Nat.succ_inj.mp h)
      refine ⟨x :: xs, hx.trans hxs, ?_, ?_, fun y hy => ?_⟩
      · rw [List.map_cons, hdata, hdatas]
      · rw [List.map_cons, List.map_cons, harg, hargs]
      · rcases List.mem_cons.mp hy with rfl | hy
        · exact ⟨hk, hh, hd, hs, h1⟩
        · obtain ⟨g1, g2, g3, g4, g5⟩ := hall y hy
          exact ⟨g1, g2, g3, g4.trans hx.eid, g5⟩

end Message

/-! ### The slots of an emission -/

section Slots

variable {s : State} {peer id m tag k : Nat} {slots : List Nat} {h : Word} {ws : List Nat}

/-- The grant taken from the core's books. -/
def grantTaken (s : State) (tag : Nat) : State :=
  { s with core := { s.core with held := s.core.held.filter (fun x => x.tag != tag) } }

theorem takeSlots_asks (hw : ∀ t, s.ctx.wait ≠ .slots t) : takeSlots peer id m s = .error .wait (s.askSlots peer id m) := by
  unfold takeSlots
  rw [run_bind, get_run, andThen]
  dsimp only
  cases hx : s.ctx.wait with
  | slots t => exact absurd hx (hw t)
  | _ => rfl

theorem takeSlots_waits (hw : s.ctx.wait = .slots tag) (hf : s.core.held.find? (fun x => x.tag == tag) = none) :
    takeSlots peer id m s = .error .wait s := by
  unfold takeSlots
  rw [run_bind, get_run, andThen]
  dsimp only
  rw [hw]
  dsimp only
  rw [hf]
  rfl

theorem takeSlots_takes (hw : s.ctx.wait = .slots tag) {g : HeldGrant} (hf : s.core.held.find? (fun x => x.tag == tag) = some g) :
    takeSlots peer id m s = if g.slots.isEmpty = true then .error (.trap ⟨.channel, tvalOf id⟩) (grantTaken s tag)
      else .ok (tag, g.slots) (grantTaken s tag) := by
  unfold takeSlots
  rw [run_bind, get_run, andThen]
  dsimp only
  rw [hw]
  dsimp only
  rw [hf]
  dsimp only
  rw [run_bind, upd_run, andThen, run_bind, run_need]
  cases g.slots.isEmpty <;> rfl

/-- A request for slots. -/
def slotRequest (s : State) (peer id m : Nat) : Packet :=
  { kind := 6, deid := peer, seid := s.myEid, asid := s.asid, otag := s.newTag 0, arg0 := BitVec.ofNat 64 (id + m * 65536) }

/-- A request refused at once. -/
def slotsRefused (u s : State) (peer id : Nat) : State := { u with core := { u.core with held := u.core.held ++ [⟨s.newTag 0, peer, id, []⟩] } }

/-- What has been asked for. -/
theorem askSlots_asks (hp : peer / 4096 = s.pkgNo) (hlt : peer < 2 ^ 24) :
    (s.askSlots peer id m).block.ctx.pcc = s.ctx.pcc ∧ (s.askSlots peer id m).block.ctx.blocked = true ∧
      (s.askSlots peer id m).block.ctx.wait = .slots (s.newTag 0) ∧
      (s.askSlots peer id m).block.net = s.net ++ [slotRequest s peer id m] ∧ (s.askSlots peer id m).block.core.ops = s.core.ops := by
  have hpkg : eidPkg peer = s.pkgNo := by
    unfold eidPkg
    rw [Nat.mod_eq_of_lt (by omega), hp]
  obtain ⟨u, hu, hpk, hx, hw, hnet, hops⟩ : ∃ u : State, s.askSlots peer id m = (match u.wire (slotRequest s peer id m) with
      | some s => s
      | none => slotsRefused u s peer id) ∧ u.pkgNo = s.pkgNo ∧
      u.ctx.pcc = s.ctx.pcc ∧ u.ctx.wait = .slots (s.newTag 0) ∧ u.net = s.net ∧ u.core.ops = s.core.ops :=
    ⟨_, rfl, rfl, by rw [ctx_setCtx]; rfl, by rw [ctx_setCtx], rfl, rfl⟩
  rw [hu, State.wire, if_pos (show eidPkg (slotRequest s peer id m).deid = u.pkgNo from hpkg.trans hpk.symm)]
  dsimp only
  refine ⟨?_, ?_, ?_, ?_, hops⟩
  · rw [State.block, ctx_setCtx]
    exact hx
  · rw [State.block, ctx_setCtx]
  · rw [State.block, ctx_setCtx]
    exact hw
  · show u.net ++ _ = _
    rw [hnet]

/-- The messages of an emission. -/
def emitted (ws : List Nat) : List (List Byte) := emitMsgs (ws.length + 1) ws

theorem emit_few (hk : s.chanK s.asid (hId h) = some k) (hlt : k < (emitted ws).length) :
    emit h ws s = .error (.trap ⟨.channel, tvalOf (hId h)⟩) s := by
  unfold emit
  rw [run_bind, get_run, andThen]
  dsimp only
  rw [hk, run_bind, run_need, if_neg]
  · rfl
  · rw [decide_eq_true_eq]
    exact Nat.not_le.mpr hlt

theorem emit_enough (hk : s.chanK s.asid (hId h) = some k) (hle : (emitted ws).length ≤ k) : emit h ws s =
    if emitted ws = [] then .ok () s
    else andThen (takeSlots (hPeer h) (hId h) (emitted ws).length s) (fun x =>
      upd fun s => sendMsgs (hPeer h) (hId h) x.1 ((emitted ws).zip x.2) s) := by
  unfold emit
  rw [run_bind, get_run, andThen]
  dsimp only
  rw [hk, run_bind, run_need, if_pos (show decide ((emitMsgs (ws.length + 1) ws).length ≤ (some k).getD 0) = true from decide_eq_true hle),
    andThen]
  by_cases hn : emitted ws = []
  · rw [if_pos hn, if_pos (show (emitMsgs (ws.length + 1) ws).isEmpty = true from List.isEmpty_iff.mpr hn)]
    rfl
  · rw [if_neg hn, if_neg (show ¬ (emitMsgs (ws.length + 1) ws).isEmpty = true from mt List.isEmpty_iff.mp hn), run_bind]
    rfl

end Slots

end Sys2Proof.Proofs
end

section
/-! PROOFS. OCEMIT and OCEMITI, and O26 (R170 to R173). -/
namespace Sys2Proof.Proofs
open Sys2Proof Sys2Proof.Machine Sys2Proof.Laws
set_option Elab.async false

/-! ### Instructions that only read v registers -/

section Sources

variable {s : State}

theorem gate_sources {ns : List (Fin 64)} (st : Nat) {ill : Bool} (reads : List (RegFile × Nat)) (h : s.Plain ns) (hi : ill = false) :
    ({ srcs := ns } : VUse).gate st ill reads s = { st := st, ill := false, acc := none, reads := ns.map rdV ++ [rdM 0] ++ reads } := by
  have hw : ns.any s.writePort = false := List.any_eq_false.mpr fun n hn => by
    rw [writePort_unbound (h.unbound n hn)]
    exact Bool.false_ne_true
  have hnamed : ({ srcs := ns } : VUse).named = ns := by simp [VUse.named]
  have hfilter : ns.filter (fun n => !s.boundPort n) = ns := List.filter_eq_self.mpr fun n hn => by rw [h.unbound n hn]; rfl
  have hbad : ({ srcs := ns } : VUse).portBad s = false := by simp [VUse.portBad, hw]
  have hreads : ({ srcs := ns } : VUse).reads s = ns.map rdV ++ [rdM 0] := by simp [VUse.reads, hfilter]
  unfold VUse.gate
  rw [h.h0, hi, hbad, hnamed, owned_free h.free, hreads]
  rfl

/-- Over plain registers the frame is its operation. -/
theorem vecRun_sources {ns : List (Fin 64)} {lat : Option Nat} {body : (Fin 64 → VReg) → Op (Option VReg)}
    (h : ∀ n ∈ ns, s.boundPort n = false) : vecRun { srcs := ns } lat body s = andThen (body s.rv s) (fun _ => pure ()) := by
  have hbusy : ({ srcs := ns } : VUse).named.any s.portBusy = false :=
    List.any_eq_false.mpr fun n hn => by simp [portBusy_unbound (h n (by simpa [VUse.named] using hn))]
  have hsrc : ∀ n ∈ dedupV ns, s.boundPort n = false := fun n hn => h n (mem_of_mem_dedupV hn)
  have hpop : popLoad [] s = .ok [] s := rfl
  unfold vecRun
  rw [bind_ok (get_run s), hbusy, Bool.not_false, bind_ok (await_true s), bind_ok (popSegs_unbound hsrc)]
  dsimp only
  rw [bind_ok (pure_run none s), bind_ok hpop, bind_ok (get_run s), run_bind]
  cases hb : body s.rv s with
  | error e t => exact congrArg (fun r => andThen r _) hb
  | ok r t => exact congrArg (fun r => andThen r _) hb

end Sources

/-! ### What an emission answers -/

section Emits

variable {s : State} {st k tag : Nat} {h : Word} {ws slots : List Nat} {nan : Bool} {o : Host.Outcome State Fault Refusal}

/-- The messages of an emission sent into the slots that were granted. -/
def emissionSent (s : State) (h : Word) (tag : Nat) (ws slots : List Nat) : State :=
  sendMsgs (hPeer h) (hId h) tag ((emitted ws).zip slots) (grantTaken s tag)

/-- What an emission of some words answers on an open channel of `k` slots. -/
structure EmitsWords (s : State) (st k tag : Nat) (h : Word) (ws slots : List Nat) (nan : Bool)
    (o : Host.Outcome State Fault Refusal) : Prop where
  few     : k < (emitted ws).length → Traps s o .channel (tvalOf (hId h))
  nothing : emitted ws = [] → o = s.retire st (s.nanMet nan)
  asks    : emitted ws ≠ [] → (emitted ws).length ≤ k → (∀ t, s.ctx.wait ≠ .slots t) → o = .next (s.askSlots (hPeer h) (hId h) (emitted ws).length).block
  waits   : emitted ws ≠ [] → (emitted ws).length ≤ k → s.ctx.wait = .slots tag → s.core.held.find? (fun x => x.tag == tag) = none →
              o = .next s.block
  refused : emitted ws ≠ [] → (emitted ws).length ≤ k → s.ctx.wait = .slots tag →
              s.core.held.find? (fun x => x.tag == tag) = some ⟨tag, hPeer h, hId h, []⟩ →
              o = .next ((grantTaken s tag).trapHere ⟨.channel, tvalOf (hId h)⟩)
  sends   : emitted ws ≠ [] → (emitted ws).length ≤ k → s.ctx.wait = .slots tag →
              s.core.held.find? (fun x => x.tag == tag) = some ⟨tag, hPeer h, hId h, slots⟩ → slots.length = (emitted ws).length →
              o = s.retire st ((emissionSent s h tag ws slots).nanMet nan)

/-- An instruction whose operation is an emission. -/
theorem emission_answers (hk : s.chanK s.asid (hId h) = some k)
    (ho : o = s.conclude st id (andThen (emit h ws s) (fun _ => upd fun t => t.nanMet nan))) :
    EmitsWords s st k tag h ws slots nan o := by
  have henough (hle : (emitted ws).length ≤ k) (hne : emitted ws ≠ []) : o = s.conclude st id (andThen
      (andThen (takeSlots (hPeer h) (hId h) (emitted ws).length s) (fun x =>
        upd fun s => sendMsgs (hPeer h) (hId h) x.1 ((emitted ws).zip x.2) s)) (fun _ => upd fun t => t.nanMet nan)) := by
    rw [ho, emit_enough hk hle, if_neg hne]
  refine ⟨fun hlt => ?_, fun hn => ?_, fun hne hle hw => ?_, fun hne hle hw hf => ?_, fun hne hle hw hf => ?_, fun hne hle hw hf hl => ?_⟩
  · rw [ho, emit_few hk hlt]
    rfl
  · rw [ho, emit_enough hk (by rw [hn]; exact Nat.zero_le k), if_pos hn]
    rfl
  · rw [henough hle hne, takeSlots_asks hw]
    rfl
  · rw [henough hle hne, takeSlots_waits hw hf]
    rfl
  · rw [henough hle hne, takeSlots_takes hw hf]
    rfl
  · have hsome : slots.isEmpty = false := by
      cases slots with
      | nil => exact absurd (List.eq_nil_of_length_eq_zero hl.symm) hne
      | cons i is => rfl
    rw [henough hle hne, takeSlots_takes hw hf, hsome]
    rfl

theorem emissionSent_sends (hl : slots.length = (emitted ws).length) :
    (∃ xs, (emissionSent s h tag ws slots).core.ops = s.core.ops ++ xs ∧ xs.map (fun x => x.pkt.data) = emitted ws ∧
      xs.map (fun x => x.pkt.arg0) = slots.map (fun i => BitVec.ofNat 64 (2 ^ 63 + i)) ∧
      ∀ x ∈ xs, x.pkt.kind = 1 ∧ x.pkt.handler = 9 ∧ x.pkt.deid = hPeer h ∧ x.pkt.seid = s.myEid ∧
        x.pkt.arg1 = BitVec.ofNat 64 (hId h + tag * 65536)) ∧
    (emissionSent s h tag ws slots).core.v = s.core.v ∧ ∀ q, memGet (emissionSent s h tag ws slots).mem q = memGet s.mem q := by
  obtain ⟨xs, hs, hdata, harg, hall⟩ := sendMsgs_sends (peer := hPeer h) (id := hId h) (tag := tag) (emitted ws) slots (grantTaken s tag) hl
  exact ⟨⟨xs, hs.ops, hdata, harg, hall⟩, hs.v, fun q => congrArg (fun m => memGet m q) hs.mem⟩

theorem run_emitNeed : emitNeed h s = need (sendHandle h && (s.chanK s.asid (hId h)).isSome) .channel (hId h) s := rfl

/-- An open send end of a declared channel. -/
def OpenEnd (s : State) (h : Word) : Prop :=
  (fld h 42 22 = 0 ∧ h.getLsbD 41 = true ∧ h.getLsbD 40 = true ∧ fld h 16 10 < 256) ∧ (s.chanK s.asid (hId h)).isSome = true

theorem openEnd_iff : (sendHandle h && (s.chanK s.asid (hId h)).isSome) = true ↔ OpenEnd s h := by
  have hcore : lidUnit (hPeer h % 4096) = fld h 16 10 := by
    unfold lidUnit hPeer fld
    omega
  unfold sendHandle OpenEnd hDir
  rw [hcore]
  simp [and_assoc]

theorem andThen_assoc {α β γ : Type} (r : EStateM.Result Stop State α) (f : α → Op β) (g : β → Op γ) :
    andThen (andThen r f) g = andThen r (fun a => f a >>= g) := by
  cases r with
  | ok a t => exact (run_bind (f a) g t).symm
  | error e t => rfl

end Emits

/-! ### OCEMIT (R172) -/

section Ocemit

variable {s : State} (st : Fin 8) (d : Fin 32) (a b : Fin 64)

/-- OCEMIT's words and what it notes of a NaN. -/
def ocemitVec (s : State) (d : Fin 32) (a : Fin 64) (rd : Fin 64 → VReg) : Op (Option VReg) := do
  let vs := (elems (rd a) (tyWidth s.vt)).map (decodeTy s.vt)
  emit (s.rx d) (emitWords (eCBASE (s.ro 2)) (eCUT (s.ro 2)) vs ++ (if eMORE (s.ro 2) then [] else [0xFFFF]))
  upd fun s => s.nanMet (vs.any (· == .nan))
  pure none

/-- OCEMIT's operation. -/
def ocemitBody (d : Fin 32) (a : Fin 64) : Op Unit := do
  let s ← get
  emitNeed (s.rx d)
  need (decide (eCBASE (s.ro 2) + 1024 / tyWidth s.vt - 1 ≤ 0x7FFE)) .channel (hId (s.rx d))
  vecRun { srcs := [a] } none (ocemitVec s d a)

theorem ocemit_eq : execOcemit st d a s = issue (({ srcs := [a] } : VUse).gate st.val (s.vtBad tyEmit || !emitOk (s.ro 2)) [rdC d] s)
    (ocemitBody d a) s := rfl

/-- The value of an element of V[a]. -/
def laneVal (s : State) (a : Fin 64) (e : Nat) : Val := decodeTy s.vt (elem (s.rv a) (tyWidth s.vt) e)

theorem elems_vals : (elems (s.rv a) (tyWidth s.vt)).map (decodeTy s.vt) = elemVals (laneVal s a) (1024 / tyWidth s.vt) := by
  unfold elems elemVals
  rw [List.map_map]
  rfl

theorem ocemit_issues (hp : s.Plain [a]) (hty : s.vtBad tyEmit = false) (ho2 : emitOk (s.ro 2) = true)
    (hi : s.CanIssue [rdV a, rdM 0, rdC d]) : exec (.ocemit st d a) s = s.conclude st.val id (ocemitBody d a s) := by
  show execOcemit st d a s = _
  rw [ocemit_eq, gate_sources st.val [rdC d] hp (by rw [hty, ho2]; rfl)]
  exact issueThen_canIssue (g := { st := st.val, ill := false, acc := none, reads := [rdV a] ++ [rdM 0] ++ [rdC d] }) _ id hi rfl rfl

theorem ocemit_closed (h : ¬ OpenEnd s (s.rx d) ∨ 0x7FFE < eCBASE (s.ro 2) + 1024 / tyWidth s.vt - 1) : ocemitBody d a s =
    .error (.trap ⟨.channel, tvalOf (hId (s.rx d))⟩) s := by
  rw [ocemitBody, run_bind, get_run, andThen, run_bind, run_emitNeed, run_need]
  by_cases hopen : OpenEnd s (s.rx d)
  · have hbase : ¬ eCBASE (s.ro 2) + 1024 / tyWidth s.vt - 1 ≤ 0x7FFE := by
      rcases h with h | h
      · exact absurd hopen h
      · omega
    rw [if_pos (openEnd_iff.mpr hopen), andThen, run_bind, run_need, if_neg (by rwa [decide_eq_true_eq])]
    rfl
  · rw [if_neg (fun hc => hopen (openEnd_iff.mp hc))]
    rfl

theorem ocemit_run (hp : s.Plain [a]) (hopen : OpenEnd s (s.rx d)) (hbase : eCBASE (s.ro 2) + 1024 / tyWidth s.vt - 1 ≤ 0x7FFE) :
    ocemitBody d a s =
      andThen (emit (s.rx d) (emitWords (eCBASE (s.ro 2)) (eCUT (s.ro 2)) (elemVals (laneVal s a) (1024 / tyWidth s.vt)) ++
        (if eMORE (s.ro 2) then [] else [0xFFFF])) s)
        (fun _ => upd fun t => t.nanMet ((List.range (1024 / tyWidth s.vt)).any (fun e => laneVal s a e == .nan))) := by
  rw [ocemitBody, run_bind, get_run, andThen, run_bind, run_emitNeed, run_need, if_pos (openEnd_iff.mpr hopen), andThen, run_bind, run_need,
    if_pos (decide_eq_true hbase), andThen, vecRun_sources hp.unbound, ocemitVec, run_bind, andThen_assoc, elems_vals, elemVals, List.any_map]
  rfl

end Ocemit

/-! ### OCEMITI (R173) -/

section Ocemiti

variable {s : State} (st : Fin 8) (d : Fin 32) (a b : Fin 64)

/-- The keys that OCEMITI looks at, with their channels. -/
def orderedKeys (s : State) (a b : Fin 64) (rd : Fin 64 → VReg) : List (Val × Nat) :=
  cut (eCUT (s.ro 2)) (((elems (rd a) 32).map (decodeTy s.vt)).zip (elems (rd b) 32))

/-- OCEMITI's words and what it notes of a NaN. -/
def ocemitiVec (s : State) (d : Fin 32) (a b : Fin 64) (rd : Fin 64 → VReg) : Op (Option VReg) := do
  match emitOrdered (eCBASE (s.ro 2)) (orderedKeys s a b rd) with
  | none => raise .channel (hId (s.rx d))
  | some ws => do
    emit (s.rx d) (ws ++ (if eMORE (s.ro 2) then [] else [0xFFFF]))
    upd fun t => t.nanMet ((((orderedKeys s a b rd).map (·.1)).find? (fun v => !emits v)) == some .nan)
    pure none

/-- OCEMITI's operation. -/
def ocemitiBody (d : Fin 32) (a b : Fin 64) : Op Unit := do
  let s ← get
  emitNeed (s.rx d)
  vecRun { srcs := [a, b] } none (ocemitiVec s d a b)

theorem ocemiti_eq : execOcemiti st d a b s = issue (({ srcs := [a, b] } : VUse).gate st.val (s.vtBad tyKey || !emitOk (s.ro 2)) [rdC d] s)
    (ocemitiBody d a b) s := rfl

theorem ocemiti_issues (hp : s.Plain [a, b]) (hty : s.vtBad tyKey = false) (ho2 : emitOk (s.ro 2) = true)
    (hi : s.CanIssue [rdV a, rdV b, rdM 0, rdC d]) : exec (.ocemiti st d a b) s = s.conclude st.val id (ocemitiBody d a b s) := by
  show execOcemiti st d a b s = _
  rw [ocemiti_eq, gate_sources st.val [rdC d] hp (by rw [hty, ho2]; rfl)]
  exact issueThen_canIssue (g := { st := st.val, ill := false, acc := none, reads := [rdV a, rdV b] ++ [rdM 0] ++ [rdC d] }) _ id hi rfl rfl

/-- How many keys OCEMITI looks at. -/
def keyCount (s : State) : Nat := if eCUT (s.ro 2) = 0 then 32 else min (eCUT (s.ro 2)) 32

/-- The value of a key of V[a], and its channel in V[b]. -/
def keyAt (s : State) (a b : Fin 64) (e : Nat) : Val × Nat := (decodeTy s.vt (elem (s.rv a) 32 e), elem (s.rv b) 32 e)

theorem orderedKeys_eq : orderedKeys s a b s.rv = (List.range (keyCount s)).map (keyAt s a b) := by
  have hall : ((elems (s.rv a) 32).map (decodeTy s.vt)).zip (elems (s.rv b) 32) = (List.range 32).map (keyAt s a b) := by
    unfold elems
    rw [List.map_map, List.zip_map']
    rfl
  unfold orderedKeys keyCount cut
  rw [hall]
  split
  · rfl
  · rw [← List.map_take, List.take_range]

/-- The elements that OCEMITI emits. -/
def takenKeys (s : State) (a b : Fin 64) : List Nat := (List.range (keyCount s)).takeWhile (fun e => emits (keyAt s a b e).1)

theorem taken_keys : ((List.range (keyCount s)).map (keyAt s a b)).takeWhile (fun x => emits x.1) = (takenKeys s a b).map (keyAt s a b) :=
  List.takeWhile_map

/-- The first that is not taken stands behind those that are. -/
theorem find?_not {α : Type} (p : α → Bool) (l : List α) : l.find? (fun x => !p x) = l[(l.takeWhile p).length]? := by
  induction l with
  | nil => rfl
  | cons x l ih =>
    cases hx : p x with
    | false => simp [hx]
    | true => simp [hx, ih]

theorem first_nan : ((((List.range (keyCount s)).map (keyAt s a b)).map (·.1)).find? (fun v => !emits v) == some .nan) =
    (decide ((takenKeys s a b).length < keyCount s) && ((keyAt s a b (takenKeys s a b).length).1 == .nan)) := by
  rw [List.map_map, find?_not, List.takeWhile_map, List.length_map, List.getElem?_map]
  show (((List.range (keyCount s))[(takenKeys s a b).length]?).map _ == _) = _
  by_cases hlt : (takenKeys s a b).length < keyCount s
  · rw [List.getElem?_range hlt, decide_eq_true hlt]
    rfl
  · rw [List.getElem?_eq_none (by rw [List.length_range]; omega), decide_eq_false hlt]
    rfl

theorem ocemiti_closed (hn : ¬ OpenEnd s (s.rx d)) : ocemitiBody d a b s = .error (.trap ⟨.channel, tvalOf (hId (s.rx d))⟩) s := by
  rw [ocemitiBody, run_bind, get_run, andThen, run_bind, run_emitNeed, run_need, if_neg (fun hc => hn (openEnd_iff.mp hc))]
  rfl

theorem ocemiti_open (hp : s.Plain [a, b]) (hopen : OpenEnd s (s.rx d)) : ocemitiBody d a b s =
    andThen (ocemitiVec s d a b s.rv s) (fun _ => pure ()) := by
  rw [ocemitiBody, run_bind, get_run, andThen, run_bind, run_emitNeed, run_need, if_pos (openEnd_iff.mpr hopen), andThen,
    vecRun_sources hp.unbound]

theorem ocemiti_far (hp : s.Plain [a, b]) (h : ∃ e ∈ takenKeys s a b, 0x7FFE < eCBASE (s.ro 2) + (keyAt s a b e).2) :
    ocemitiBody d a b s = .error (.trap ⟨.channel, tvalOf (hId (s.rx d))⟩) s := by
  by_cases hopen : OpenEnd s (s.rx d)
  · have hnone : emitOrdered (eCBASE (s.ro 2)) ((List.range (keyCount s)).map (keyAt s a b)) = none := by
      refine emitOrdered_none _ ?_
      rw [taken_keys]
      obtain ⟨e, he, hlt⟩ := h
      exact ⟨_, List.mem_map_of_mem he, hlt⟩
    rw [ocemiti_open d a b hp hopen, ocemitiVec, orderedKeys_eq, hnone]
    rfl
  · exact ocemiti_closed d a b hopen

theorem ocemiti_run (hp : s.Plain [a, b]) (hopen : OpenEnd s (s.rx d)) (h : ∀ e ∈ takenKeys s a b, eCBASE (s.ro 2) + (keyAt s a b e).2 ≤ 0x7FFE) :
    ocemitiBody d a b s = andThen (emit (s.rx d) ((takenKeys s a b).map (fun e => eventWord (keyAt s a b e).1 (eCBASE (s.ro 2) + (keyAt s a b e).2)) ++
      (if eMORE (s.ro 2) then [] else [0xFFFF])) s)
      (fun _ => upd fun t => t.nanMet (decide ((takenKeys s a b).length < keyCount s) && ((keyAt s a b (takenKeys s a b).length).1 == .nan))) := by
  have hsome : emitOrdered (eCBASE (s.ro 2)) ((List.range (keyCount s)).map (keyAt s a b)) =
      some ((takenKeys s a b).map (fun e => eventWord (keyAt s a b e).1 (eCBASE (s.ro 2) + (keyAt s a b e).2))) := by
    rw [emitOrdered_eq _ (by
      rw [taken_keys]
      intro x hx
      obtain ⟨e, he, rfl⟩ := List.mem_map.mp hx
      exact h e he), taken_keys, List.map_map]
    rfl
  rw [ocemiti_open d a b hp hopen, ocemitiVec, orderedKeys_eq, hsome]
  dsimp only
  rw [run_bind, andThen_assoc, first_nan]
  rfl

end Ocemiti

/-- Settles O26: both instructions are an emission of the words that R172 and R173 give, whose messages wait for their slots. -/
theorem orderCodeEmission : Obligations.OrderCodeEmission := by
  unfold Obligations.OrderCodeEmission
  intro s ty k tag st d a b ws slots o h cid peer base cutLen more mark open_ event live ms s0 sent chan sends ho15 ho33 hty
  have ho2 : emitOk (s.ro 2) = true := by
    unfold emitOk
    rw [show (s.ro 2).getLsbD 15 = false from ho15, show fld (s.ro 2) 33 31 = 0 from ho33]
    rfl
  have hpeer : peer < 2 ^ 24 := fld_lt _ _ _
  have hsends (i : Instr) (nan : Bool) (he : EmitsWords s st.val k tag h ws slots nan (exec i s)) : sends i nan := by
    refine ⟨he.few, he.nothing, fun hne hle => ⟨fun hw hp => ?_, fun hw => ⟨he.waits hne hle hw, he.refused hne hle hw, fun hf hl =>
      ⟨he.sends hne hle hw hf hl, emissionSent_sends hl⟩⟩⟩⟩
    exact ⟨_, he.asks hne hle hw, askSlots_asks hp hpeer⟩
  have htrap (i : Instr) (body : Op Unit) (hb : body s = .error (.trap ⟨.channel, tvalOf (hId h)⟩) s)
      (hi : exec i s = s.conclude st.val id (body s)) : chan i := by
    rw [hb] at hi
    exact hi
  obtain rfl : s.vt = ty := hty.2.1
  refine ⟨⟨fun e he => emitMsgs_short _ _ e he, emitMsgs_join _ _ (Nat.lt_succ_self _)⟩, ?_, ?_⟩
  · intro hk hp hi i n val ahead
    have hkey : tyEmit s.vt = true := by
      unfold tyEmit
      rcases hk with hk | hk
      · rw [decide_eq_true hk]
        rfl
      · rw [decide_eq_true hk.1, decide_eq_true hk.2]
        exact Bool.or_true _
    have hexec := ocemit_issues st d a hp (vtBad_typed hty hkey) ho2 hi
    refine ⟨fun hn => htrap i _ (ocemit_closed d a hn) hexec, fun hopen hchan hbase es hperm hahead hws => ?_⟩
    have hend : OpenEnd s (s.rx d) := ⟨hopen, by rw [show s.chanK s.asid (hId (s.rx d)) = some k from hchan]; rfl⟩
    refine hsends i _ (emission_answers (h := h) hchan ?_)
    have hwords := emitWords_eq (val := val) (base := base) (cutLen := cutLen) hperm hahead
    rw [hws]
    rw [ocemit_run d a hp hend hbase, show emitWords (eCBASE (s.ro 2)) (eCUT (s.ro 2)) (elemVals (laneVal s a) (1024 / tyWidth s.vt)) = _
      from hwords] at hexec
    exact hexec
  · intro hk hp hi i val ch lim taken
    have hkey : tyKey s.vt = true := by
      revert hk
      generalize s.vt = v
      intro hk
      simp only [List.mem_cons, List.not_mem_nil, or_false] at hk
      rcases hk with rfl | rfl | rfl <;> rfl
    have hexec := ocemiti_issues st d a b hp (vtBad_typed hty hkey) ho2 hi
    refine ⟨fun hn => ?_, fun hopen hchan hnear hws => ?_⟩
    · rcases hn with hn | hn
      · exact htrap i _ (ocemiti_closed d a b hn) hexec
      · exact htrap i _ (ocemiti_far d a b hp hn) hexec
    · have hend : OpenEnd s (s.rx d) := ⟨hopen, by rw [show s.chanK s.asid (hId (s.rx d)) = some k from hchan]; rfl⟩
      refine hsends i _ (emission_answers (h := h) hchan ?_)
      have hwords : taken.map (fun e => event (val e) (base + ch e)) =
          (takenKeys s a b).map (fun e => eventWord (keyAt s a b e).1 (eCBASE (s.ro 2) + (keyAt s a b e).2)) :=
        List.map_congr_left fun e _ => (eventWord_eq _ _).symm
      rw [hws, hwords]
      rw [ocemiti_run d a b hp hend hnear] at hexec
      exact hexec

end Sys2Proof.Proofs
end

section
/-! PROOFS. A group of two registers whose second is a bound port (R157, R195): `matGroup` asks of the first register alone
whether it pops, and reads each register of the group by `matRead`, which pops one that is bound. -/
namespace Sys2Proof.Proofs
open Sys2Proof Sys2Proof.Machine Sys2Proof.Laws
set_option Elab.async false

/-- Port 0, which is v56, is bound and has no group left; v55 is no port. -/
def spentPort : State :=
  { core := { sp := (Vector.replicate 8 {}).set 0 { bnd := true } } }

/-- The trap that a pop of the port meets. -/
def spentTrap : Trap := ⟨.streamEnd, 0⟩

theorem spentPort_first : spentPort.boundPort 55 = false := rfl

/-- The second read of the group pops the port. -/
theorem spentPort_group (j : MatJob) : matGroup j 55 2 spentPort = .error (.trap spentTrap) spentPort := rfl

/-- Refutes O29: the group v55, v56 of a first register that is not bound runs into the port at v56, which has ended, so the group is
not what the registers hold. The statement asks that the first register of a group alone be unbound. -/
theorem not_matrixStep : ¬ Obligations.MatrixStep := by
  unfold Obligations.MatrixStep
  intro h
  obtain ⟨-, -, -, hgroup, -⟩ := h spentPort spentPort spentPort spentPort spentPort spentPort
    { kind := .mop, ri := 0, ser := 0 } default 0 0 (0, 0) (0, 0) 0 0 0 55 {} [] (fun _ => 0) (fun _ => spentPort) 2 0 0 false
    (0, 0)
  have hread := hgroup spentPort_first (by decide)
  exact nomatch (spentPort_group _).symm.trans hread

end Sys2Proof.Proofs
end
